-- ==== Sys2Proof/Word.lean ====
section
/-! DEFINITION. The plain word types of the part (R3, R4) and their plainest arithmetic. -/

namespace Sys2Proof

/-- A byte of memory (R4). -/
abbrev Byte := BitVec 8

/-- A register word: register space takes 32-bit accesses only (R7). -/
abbrev Word := BitVec 32

/-- The two halves of a 64-bit register pair, or any 64-bit value (R8). -/
abbrev DWord := BitVec 64

/-- Bits `[hi:lo]` of a number, both ends included (R4). -/
def bits (x hi lo : Nat) : Nat := x / 2 ^ lo % 2 ^ (hi - lo + 1)

/-- Bit `i` of a number. -/
def bit (x i : Nat) : Bool := x / 2 ^ i % 2 == 1

end Sys2Proof
end

