-- ==== Sys2Proof/Syntax.lean ====
section
/-! DEFINITION. The commands of the part: one constructor per row of the opcode table, with the row's operands. What each operand means
stands at the meaning of the command, the definition `exec` plus the constructor's name. -/

namespace Sys2Proof

/-- A master that accesses registers (R8, R443). -/
inductive Master where
  | host | debug | core (c : Fin 4) | fabric (n : Fin 80) | fanout
deriving DecidableEq, Repr

/-- Who reads or writes memory (R238, R443). -/
inductive Requester where
  | host | debug | miller | fabric (n : Fin 80) | millrace (n : Fin 80)
  | hopper | runner | marigold | millstone | segBuf | config | sys | peony
deriving DecidableEq, Repr

/-- A vertical bundle (R209). -/
inductive Bundle where
  | cfg (n : Fin 80) | mr (n : Fin 80) | riser (r : Fin 2) | hub (h : Fin 4) | svc | peo | col
deriving DecidableEq, Repr

/-- A wire of a group of a vertical bundle, as a test names it (R210, R226). -/
structure WireErr where
  group : Nat
  wire  : Nat
deriving DecidableEq, Repr

/-- A signal of a group of a vertical bundle on which the check of a transfer has corrected a bit (R213). -/
structure SigErr where
  group : Nat
  sig   : Nat
deriving DecidableEq, Repr

/-- The operations of an atomic memory operation (R323, the A extension). -/
inductive Amo where
  | swap | add | xor | and | or | min | max | minu | maxu
deriving DecidableEq, Repr

/-- What a Miller core's access does (R325 to R328). -/
inductive CoreAcc where
  | load | store | amo (op : Amo) | lr | sc | fetch | fenceI
deriving DecidableEq, Repr

/-- A Ramzel row without its CRC (R364). -/
structure RlkRow where
  type    : Fin 16
  seq     : Byte
  ack     : Byte
  crCh    : Fin 4
  crCnt   : Fin 64
  trig    : Byte
  last    : Bool
  payload : BitVec 416
deriving DecidableEq, Repr

/-- An upset of a pattern entry (R159): the bits of VAL, MASK and the stored check that it inverts. -/
structure MuUpset where
  ctx  : Fin 8
  tile : Fin 64
  pat  : Fin 2
  val  : DWord
  mask : DWord
  chk  : Word
deriving DecidableEq, Repr

/-- What a clock edge of an island meets from outside its fabric: the levels of its hard interfaces' D2 inputs, the levels of the
user I/O pins of its bank at the rising and at the falling edge, and upsets of its pattern memory since the last edge. -/
structure EdgeIn where
  hard   : Nat
  rise   : BitVec 48
  fall   : BitVec 48
  upsets : List MuUpset
deriving DecidableEq, Repr

/-- What resets the host port (R353). -/
inductive HostReset where
  | functionLevel | hot | linkDown
deriving DecidableEq, Repr

/-- Words of the configuration stream: a packet, or as much of it as arrives; `lost` says that a Dahlia page or the flash
that held them could not be read (R393). -/
structure Packet where
  words : List Word
  lost  : Bool
deriving DecidableEq, Repr

/-- The parts of the flow store (R109): of a flow LIVE, SNAP, the tag word, the tracker, the histogram bins, and FIRST and
LAST; of a level-1 node its ledger and the ledger's copy. -/
inductive StorePart where
  | live (f : Fin 4096) | snap (f : Fin 4096) | tag (f : Fin 4096) | tracker (f : Fin 4096)
  | bins (f : Fin 4096) | times (f : Fin 4096) | ledger (i : Fin 256) | ledCopy (i : Fin 256)
deriving DecidableEq, Repr

/-- An upset of a 64-bit word of the flow store: the data bits and the check bits that are inverted. -/
structure StoreUpset where
  part : StorePart
  word : Fin 16
  data : BitVec 64
  chk  : BitVec 16
deriving DecidableEq, Repr

/-- The commands, in the order of the opcode table. -/
inductive Instr where
  /-- REGISTER_WRITE, R575. -/
  | registerWrite (m : Master) (x : BitVec 30) (w : Word)
  /-- LO_READ, R8. -/
  | loRead (m : Master) (x : BitVec 30)
  /-- HI_READ, R8. -/
  | hiRead (m : Master) (x : BitVec 30)
  /-- LO_WRITE, R8. -/
  | loWrite (m : Master) (x : BitVec 30) (w : Word)
  /-- HI_WRITE, R8. -/
  | hiWrite (m : Master) (x : BitVec 30) (w : Word)
  /-- ALIAS_WRITE, R558. -/
  | aliasWrite (m : Master) (x : BitVec 30) (w : Word)
  /-- ALIAS_READ, R559. -/
  | aliasRead (m : Master) (x : BitVec 30)
  /-- PRB_ENABLE, R29. -/
  | prbEnable (p : Fin 4) (w : Word)
  /-- PRB_DISABLE, R43. -/
  | prbDisable (p : Fin 4) (w : Word)
  /-- PRB_BIND_WRITE, R40. -/
  | prbBindWrite (p : Fin 4) (w : Word)
  /-- TX_SRC_CHANGE, R46. -/
  | txSrcChange (p : Fin 4)
  /-- PRB_PLL_LOCKED, R43. -/
  | prbPllLocked (p : Fin 4)
  /-- PRB_PLL_TIMEOUT, R43. -/
  | prbPllTimeout (p : Fin 4)
  /-- FCLK_ACQUIRED, R43. -/
  | fclkAcquired (p : Fin 4)
  /-- FCLK_TIMEOUT, R43. -/
  | fclkTimeout (p : Fin 4)
  /-- EQ_ADAPT_DONE, R43. -/
  | eqAdaptDone (p : Fin 4)
  /-- BLOCK_RECEIVED, R32; port 4 + l stands for the lanes of Ramzel link l (R362). -/
  | blockReceived (p : Fin 6) (k : Fin 16) (hdr : Fin 4) (payload : DWord)
  /-- BLOCK_LOCK_TIMEOUT, R43. -/
  | blockLockTimeout (p : Fin 4)
  /-- MARKER_RECEIVED, R37; port 4 + l stands for the lanes of Ramzel link l (R362). -/
  | markerReceived (p : Fin 6) (k : Fin 16) (hdr : Fin 4) (payload : DWord) (arrival : Nat)
  /-- MARKER_LOCK_TIMEOUT, R43. -/
  | markerLockTimeout (p : Fin 4)
  /-- ROW_RELEASE, R39. -/
  | rowRelease (p : Fin 4)
  /-- PORT_LOSS, R44. -/
  | portLoss (p : Fin 4) (clk : Bool)
  /-- PRB_RETRAIN, R57. -/
  | prbRetrain (p : Fin 4)
  /-- FMEAS_START, R50. -/
  | fmeasStart (p : Fin 4)
  /-- FMEAS_STOP, R57. -/
  | fmeasStop (p : Fin 4)
  /-- FMEAS_GATE_END, R50. -/
  | fmeasGateEnd (p : Fin 4) (count : Word)
  /-- CAL_NOW, R54. -/
  | calNow (p : Fin 4)
  /-- PRB_CLR_CNT, R57. -/
  | prbClrCnt (p : Fin 4)
  /-- LANE_CAL_INTERVAL, R54. -/
  | laneCalInterval (p : Fin 4) (k : Fin 16)
  /-- CAL_HANDOVER, R52. -/
  | calHandover (p : Fin 4) (k : Fin 16)
  /-- LANE_RAIL_FAULT, R55. -/
  | laneRailFault
  /-- PIN_SHORT, R55. -/
  | pinShort (p : Fin 6) (k : Fin 16)
  /-- PORT_CONFIG_UPSET, R55. -/
  | portConfigUpset (p : Fin 4)
  /-- MARK_ENTRY, R67. -/
  | markEntry (n : Fin 80) (row : Nat) (start stop drop : Bool) (tag : Word)
  /-- DRAIN_RECORD, R74. -/
  | drainRecord (f : Fin 16) (ue : Option Nat)
  /-- HOP_ARM, R79. -/
  | hopArm (f : Fin 16)
  /-- HOP_STOP, R79. -/
  | hopStop (f : Fin 16)
  /-- HOP_FORCE_TRIG, R78. -/
  | hopForceTrig (f : Fin 16)
  /-- HOP_CLEAR, R79. -/
  | hopClear (f : Fin 16)
  /-- HOP_CLR_CNT, R105. -/
  | hopClrCnt
  /-- LANTERN_CYCLE, R87. -/
  | lanternCycle (trigIn : BitVec 8)
  /-- LAN_TIMER_EXPIRE, R91. -/
  | lanTimerExpire (t : Fin 8)
  /-- TRIG_OUT_PULSE_END, R92. -/
  | trigOutPulseEnd (k : Fin 8)
  /-- LAN_START, R94. -/
  | lanStart
  /-- LAN_STOP, R94. -/
  | lanStop
  /-- LAN_FORCE, R105. -/
  | lanForce (q : Fin 32)
  /-- LAN_CLR_OUT, R92. -/
  | lanClrOut
  /-- LAN_CLR_CNT, R105. -/
  | lanClrCnt
  /-- RUN_START, R104. -/
  | runStart (c : Fin 4)
  /-- RUN_STOP, R104. -/
  | runStop (c : Fin 4)
  /-- RUN_GO, R104. -/
  | runGo (c : Fin 4)
  /-- RUN_CLEAR, R104. -/
  | runClear (c : Fin 4)
  /-- INSN_NOP, R101. -/
  | insnNop (c : Fin 4)
  /-- INSN_SEND, R101. -/
  | insnSend (c : Fin 4)
  /-- INSN_GAP, R101. -/
  | insnGap (c : Fin 4)
  /-- INSN_WAITUI, R101. -/
  | insnWaitui (c : Fin 4)
  /-- INSN_LOOP, R101. -/
  | insnLoop (c : Fin 4)
  /-- INSN_ENDL, R101. -/
  | insnEndl (c : Fin 4)
  /-- INSN_JMP, R101. -/
  | insnJmp (c : Fin 4)
  /-- INSN_WAITG, R101. -/
  | insnWaitg (c : Fin 4)
  /-- INSN_WAITTS, R101. -/
  | insnWaitts (c : Fin 4)
  /-- WAITTS_REACHED, R103. -/
  | waittsReached (c : Fin 4)
  /-- INSN_SEEK, R101. -/
  | insnSeek (c : Fin 4)
  /-- INSN_SETF, R101. -/
  | insnSetf (c : Fin 4)
  /-- INSN_SIGNAL, R101. -/
  | insnSignal (c : Fin 4)
  /-- INSN_RAW, R101. -/
  | insnRaw (c : Fin 4)
  /-- INSN_HALT, R101. -/
  | insnHalt (c : Fin 4)
  /-- INSN_ILLEGAL, R101. -/
  | insnIllegal (c : Fin 4)
  /-- FRAME_START, R103. -/
  | frameStart (c : Fin 4) (fab : List DWord)
  /-- KEY_PRESENT, R111. -/
  | keyPresent (n : Fin 80) (row : Nat) (key : List Byte) (klen : Fin 64) (len : BitVec 16) (seq lat : Option Word) (umask : BitVec 10) (add : Option (Fin 16 × Word))
  /-- ENTRY_APPLY, R122. -/
  | entryApply (p : Fin 4) (i : Fin 272)
  /-- FLOW_AGE_RETIRE, R119. -/
  | flowAgeRetire (f : Fin 4096)
  /-- EPOCH_CLOSE, R129. -/
  | epochClose
  /-- TREE_PUBLISH, R131. -/
  | treePublish (rebuilt : Bool)
  /-- TREE_WINDOW_READ, R131. -/
  | treeWindowRead (n : Fin 273) (c : Fin 16) (bad : Bool)
  /-- LEAF_WINDOW_READ, R130. -/
  | leafWindowRead (f : Fin 4096) (c : Fin 16)
  /-- FLOW_STORE_SCRUB, R109. -/
  | flowStoreScrub (ups : List StoreUpset)
  /-- BUCKET_REBUILD, R140. -/
  | bucketRebuild (b : Fin 256)
  /-- MAR_START, R141. -/
  | marStart
  /-- MAR_STOP, R141. -/
  | marStop
  /-- MAR_STOP_DONE, R141. -/
  | marStopDone
  /-- MAR_CLEAR_ALL, R141. -/
  | marClearAll
  /-- MAR_CLEAR_DONE, R141. -/
  | marClearDone
  /-- MAR_EXPORT, R135. -/
  | marExport
  /-- MAR_EXPORT_DONE, R135. -/
  | marExportDone
  /-- MAR_RETIRE, R120. -/
  | marRetire (f : Fin 4096)
  /-- MAR_CLR_CNT, R141. -/
  | marClrCnt
  /-- MU_STAGE_WRITE, R160. -/
  | muStageWrite (n : Fin 80) (c : Fin 8) (t : Fin 64) (p : Fin 2) (r : Fin 3) (w : Word)
  /-- MU_COMMIT, R160. -/
  | muCommit (n : Fin 80) (c : Fin 8) (t : Fin 64) (p : Fin 2) (w : Word)
  /-- MU_CTRL_WRITE, R160. -/
  | muCtrlWrite (n : Fin 80) (c : Fin 8) (t : Fin 64) (p : Fin 2) (w : Word)
  /-- MU_ENTRY_READ, R159. -/
  | muEntryRead (n : Fin 80) (c : Fin 8) (t : Fin 64) (p : Fin 2) (r : Fin 4)
  /-- FP_MASTER_REQUEST, R164. -/
  | fpMasterRequest (n : Fin 80) (route : Fin 256) (wr posted : Bool) (tid : Fin 64) (addr : BitVec 46) (len : Fin 64) (data : List (Option Byte)) (last : Bool)
  /-- FP_MASTER_RESPONSE, R164. -/
  | fpMasterResponse (n : Fin 80)
  /-- FP_SLAVE_REQUEST, R165. -/
  | fpSlaveRequest (n : Fin 80) (off : Fin 536870912) (wr : Bool) (data : List (Option Byte))
  /-- FP_SLAVE_RESPONSE, R165. -/
  | fpSlaveResponse (n : Fin 80) (tag : Byte) (err : Bool) (data : List Byte)
  /-- FP_SLAVE_TIMEOUT, R165. -/
  | fpSlaveTimeout (n : Fin 80) (tag : Byte)
  /-- ISL_SWITCH, R174. -/
  | islSwitch (n : Fin 80) (c : Fin 8)
  /-- ISL_CLR_CNT, R181. -/
  | islClrCnt (n : Fin 80)
  /-- WAVE_INSTANT, R176. -/
  | waveInstant
  /-- ISLAND_SWITCH_CYCLE, R172. -/
  | islandSwitchCycle (n : Fin 80) (e : EdgeIn)
  /-- REF_CHECK, R185. -/
  | refCheck (a b c : Option (BitVec 16))
  /-- CLASS_FALLBACK, R190. -/
  | classFallback (c : Fin 6) (lost : Bool)
  /-- CLK_REF_CFG_WRITE, R187. -/
  | clkRefCfgWrite (w : Word)
  /-- ISL_CLK_REQ_WRITE, R196. -/
  | islClkReqWrite (n : Fin 80) (w : Word)
  /-- ISL_CLK_CFG_WRITE, R196. -/
  | islClkCfgWrite (n : Fin 80) (frac : Bool) (w : Word)
  /-- ISL_PLL_LOCKED, R194. -/
  | islPllLocked (n : Fin 80)
  /-- ISL_LOCK_TIMEOUT, R194. -/
  | islLockTimeout (n : Fin 80)
  /-- JUDGE_WINDOW, R193. -/
  | judgeWindow (n : Fin 80) (cnt : Word)
  /-- RAMP_ADMIT, R198. -/
  | rampAdmit (n : Fin 80)
  /-- RAMP_UP_DONE, R194. -/
  | rampUpDone (n : Fin 80)
  /-- RAMP_DOWN_DONE, R194. -/
  | rampDownDone (n : Fin 80)
  /-- ISL_CLK_LOST, R194. -/
  | islClkLost (n : Fin 80) (lock : Bool)
  /-- ISL_PWR_OFF_REQ, R199. -/
  | islPwrOffReq (n : Fin 80)
  /-- ISL_PWR_ON_REQ, R200. -/
  | islPwrOnReq (n : Fin 80)
  /-- POWER_DOWN_DONE, R199. -/
  | powerDownDone (n : Fin 80)
  /-- POWER_UP_DONE, R200. -/
  | powerUpDone (n : Fin 80)
  /-- SLUICE_SEND, R203. -/
  | sluiceSend (n : Fin 80) (e b : Fin 4) (data : BitVec 256)
  /-- SLUICE_DELIVER, R203. -/
  | sluiceDeliver (n : Fin 80) (e b : Fin 4)
  /-- SLUICE_FLUSH_WRITE, R205. -/
  | sluiceFlushWrite (n : Fin 80) (e : Fin 4) (w : Word)
  /-- SLUICE_FLUSH_DONE, R205. -/
  | sluiceFlushDone (n : Fin 80) (e b : Fin 4)
  /-- BUNDLE_CAL, R212. -/
  | bundleCal (b : Bundle) (failing : List WireErr) (paused : Bool)
  /-- CONTENTION_GUARD, R224. -/
  | contentionGuard (b : Bundle) (g : Fin 128)
  /-- STEERING_REPAIR, R224. -/
  | steeringRepair (b : Bundle)
  /-- MR_READ, R219. -/
  | mrRead (n : Fin 80) (row : Fin 8192) (tag : Fin 16) (bad : Bool) (errs : List SigErr)
  /-- MR_WRITE, R215. -/
  | mrWrite (n : Fin 80) (row : Fin 8192) (tag : Fin 16) (data : List DWord) (errs : List SigErr)
  /-- MR_WRITE_MASKED, R215. -/
  | mrWriteMasked (n : Fin 80) (row : Fin 8192) (tag : Fin 16) (wen : DWord) (data : List DWord) (errs : List SigErr)
  /-- MR_RESPONSE, R217. -/
  | mrResponse (n : Fin 80)
  /-- SRAM_READ, R245. -/
  | sramRead (w : Requester) (key : Fin 16) (addr n : Nat) (errs : List (Fin 4 × SigErr))
  /-- SRAM_WRITE, R241. -/
  | sramWrite (w : Requester) (key : Fin 16) (word : Nat) (data : List DWord) (errs : List (Fin 4 × SigErr))
  /-- SRAM_MERGE_WRITE, R248. -/
  | sramMergeWrite (w : Requester) (key : Fin 16) (addr : Nat) (data : List Byte) (errs : List (Fin 4 × SigErr))
  /-- SRAM_WRITEBACK, R246. -/
  | sramWriteback (word : Nat)
  /-- SRAM_BUCKET_LEAK, R250. -/
  | sramBucketLeak (b : Fin 81)
  /-- SRM_RAW_READ, R251. -/
  | srmRawRead
  /-- SRM_RAW_WR_DATA, R251. -/
  | srmRawWrData
  /-- SRM_RAW_WR_CHK, R251. -/
  | srmRawWrChk
  /-- SRM_RAW_WR_BOTH, R251. -/
  | srmRawWrBoth
  /-- SRM_CLR_LOG, R261. -/
  | srmClrLog
  /-- SRB_TT_REGION, R261. -/
  | srbTtRegion (b : Fin 81) (region : Fin 4096)
  /-- SRB_CLR_CNT, R261. -/
  | srbClrCnt (b : Fin 81)
  /-- TT_REGION_START, R253. -/
  | ttRegionStart (u : Fin 84)
  /-- TT_REGION_DONE, R253. -/
  | ttRegionDone (u : Fin 84) (failing : List (Fin 16))
  /-- SRB_RET_ENTER, R256. -/
  | srbRetEnter (b : Fin 81)
  /-- RET_ENTERED, R256. -/
  | retEntered (b : Fin 80)
  /-- SRB_RET_EXIT, R256. -/
  | srbRetExit (b : Fin 80) (byRequest : Bool)
  /-- RET_WAKE_DONE, R256. -/
  | retWakeDone (b : Fin 80)
  /-- SECURE_WIPE, R258. -/
  | secureWipe
  /-- SECURE_WIPE_DONE, R258. -/
  | secureWipeDone
  /-- HBM_READ, R278. -/
  | hbmRead (w : Requester) (key : Fin 16) (addr n : Nat) (errs : List SigErr)
  /-- HBM_WRITE, R277. -/
  | hbmWrite (w : Requester) (key : Fin 16) (line : Nat) (data : List (BitVec 256)) (errs : List SigErr)
  /-- HBM_MERGE, R282. -/
  | hbmMerge (w : Requester) (key : Fin 16) (addr : Nat) (data : List Byte) (errs : List SigErr)
  /-- HBM_WRITEBACK, R281. -/
  | hbmWriteback (key : Fin 16) (line : Nat)
  /-- HBM_SCHED_PERIOD, R272. -/
  | hbmSchedPeriod
  /-- HBM_REFRESH, R274. -/
  | hbmRefresh (r : Fin 48) (bank : Fin 16) (postponed : Bool)
  /-- HBM_TEMP_READ, R275. -/
  | hbmTempRead (die : Byte)
  /-- NEIGHBOUR_REFRESH, R276. -/
  | neighbourRefresh (i : Fin 16)
  /-- PATROL_SCRUB_LINE, R284. -/
  | patrolScrubLine
  /-- HBM_BUCKET_LEAK, R285. -/
  | hbmBucketLeak (r : Fin 48)
  /-- MIGRATION_START, R287. -/
  | migrationStart (r : Fin 48)
  /-- MIGRATION_COPY_LINE, R287. -/
  | migrationCopyLine
  /-- MIGRATION_DONE, R287. -/
  | migrationDone
  /-- HBM_ENABLE, R290. -/
  | hbmEnable (initFill : Bool)
  /-- HBM_DISABLE, R290. -/
  | hbmDisable (initFill : Bool)
  /-- HBM_TRAINING_DONE, R291. -/
  | hbmTrainingDone (margins : List (Byte × Byte))
  /-- HBM_TRAINING_FAULT, R290. -/
  | hbmTrainingFault (cause : Fin 3) (margins : List (Option (Byte × Byte)))
  /-- HBM_FILL_DONE, R290. -/
  | hbmFillDone
  /-- HBM_DRAIN_DONE, R290. -/
  | hbmDrainDone
  /-- HBM_MIGRATE, R293. -/
  | hbmMigrate (r : Fin 64)
  /-- HBM_CLR_LOG, R293. -/
  | hbmClrLog
  /-- HBM_CLR_CNT, R293. -/
  | hbmClrCnt
  /-- NOC_REQUEST, R304. -/
  | nocRequest (w : Requester) (route : Fin 256) (op : Fin 3) (key : Fin 16) (urg : Option (Fin 8)) (tid : Fin 64) (addr : Nat) (n : Fin 4097) (data : List (Option Byte))
  /-- NOC_DELIVER, R302. -/
  | nocDeliver (id : Nat) (waits : List Nat)
  /-- NOC_RESPONSE, R302. -/
  | nocResponse (id : Nat) (waits : List Nat)
  /-- POSTED_ACK, R302. -/
  | postedAck (id : Nat) (waits : List Nat)
  /-- ROUTE_UPDATE, R310. -/
  | routeUpdate (i : Fin 97) (e : Fin 256) (ctl : Word)
  /-- ROUTE_COMMIT, R310. -/
  | routeCommit (i : Fin 97) (e : Fin 256)
  /-- FLIT_REPLAY, R313. -/
  | flitReplay (m : Fin 160) (ok : Bool)
  /-- LINK_RETRAIN, R313. -/
  | linkRetrain (m : Fin 160) (ok : Bool) (maps : List (Fin 80))
  /-- NOC_DRAIN, R314. -/
  | nocDrain (n : Fin 128)
  /-- NOC_RESUME, R314. -/
  | nocResume (n : Fin 128)
  /-- NOC_CLR_CNT, R319. -/
  | nocClrCnt
  /-- ROUTER_DRAINED, R314. -/
  | routerDrained (n : Fin 80)
  /-- ROUTER_RECONF_DONE, R314. -/
  | routerReconfDone (n : Fin 80) (ok : Bool)
  /-- DRAIN_TIMEOUT, R315. -/
  | drainTimeout (router : Bool) (x : Fin 160)
  /-- RECOVERY_BARRIER, R312. -/
  | recoveryBarrier
  /-- CORE_MEMORY_ACCESS, R325. -/
  | coreMemoryAccess (c : Fin 4) (k : CoreAcc) (mmode : Bool) (a : BitVec 46) (size : Fin 4) (v : DWord) (lines : List Nat) (ce ue : Bool)
  /-- CORE_TIMER_IRQ, R329. -/
  | coreTimerIrq (c : Fin 4)
  /-- WDG_KICK, R330. -/
  | wdgKick (c : Fin 4) (w : Word)
  /-- WDG_EXPIRE, R330. -/
  | wdgExpire (c : Fin 4)
  /-- UART_TX_WRITE, R331. -/
  | uartTxWrite (u : Fin 2) (w : Word)
  /-- UART_RX_BYTE, R331. -/
  | uartRxByte (u : Fin 2) (x : Byte)
  /-- UART_RX_READ, R331. -/
  | uartRxRead (u : Fin 2)
  /-- MB_SEND, R332. -/
  | mbSend (k : Fin 16) (w : Word)
  /-- MB_RECV, R332. -/
  | mbRecv (k : Fin 16)
  /-- SEM_TAKE, R333. -/
  | semTake (m : Master) (i : Fin 64)
  /-- SEM_GIVE, R333. -/
  | semGive (m : Master) (i : Fin 64)
  /-- SEM_FORCE, R333. -/
  | semForce (m : Master) (i : Fin 64)
  /-- MIL_LOAD_SLOT, R335. -/
  | milLoadSlot (slot : Fin 4)
  /-- MIL_LOAD_MEM, R335. -/
  | milLoadMem
  /-- FW_LOAD_DONE, R335. -/
  | fwLoadDone (read digest sig : Bool)
  /-- MIL_START, R336. -/
  | milStart (cores : Fin 16)
  /-- MIL_RESET_CORES, R337. -/
  | milResetCores (cores : Fin 16)
  /-- MIL_CMO_CLEAN, R327. -/
  | milCmoClean
  /-- MIL_CMO_INVAL, R327. -/
  | milCmoInval
  /-- MIL_CMO_FLUSH, R327. -/
  | milCmoFlush
  /-- CMO_DONE, R327. -/
  | cmoDone
  /-- MST_RING_WR_WRITE, R338. -/
  | mstRingWrWrite (r : Fin 4) (w : Word)
  /-- MST_JOB_COUNT, R343. -/
  | mstJobCount
  /-- MST_JOB_LIST, R343. -/
  | mstJobList
  /-- MST_JOB_INDEX, R343. -/
  | mstJobIndex
  /-- MST_JOB_EXPORT, R345. -/
  | mstJobExport
  /-- MST_BLOCK_READ, R341. -/
  | mstBlockRead
  /-- MST_JOB_END, R338. -/
  | mstJobEnd
  /-- MST_START, R347. -/
  | mstStart
  /-- MST_STOP, R347. -/
  | mstStop
  /-- MST_ABORT, R347. -/
  | mstAbort
  /-- MST_CLR_CNT, R347. -/
  | mstClrCnt
  /-- PCIE_CONFIG_REQUEST, R351. -/
  | pcieConfigRequest (r : Fin 1024) (wr : Option Word) (msix : Option (Bool × Bool))
  /-- BAR0_READ, R354. -/
  | bar0Read (x : BitVec 30) (n : Fin 4097)
  /-- BAR0_WRITE, R354. -/
  | bar0Write (x : BitVec 30) (n : Fin 4097) (w : Word)
  /-- BAR2_READ, R355. -/
  | bar2Read (x : BitVec 36) (n : Fin 4097)
  /-- BAR2_WRITE, R355. -/
  | bar2Write (x : BitVec 36) (d : List (Option Byte))
  /-- HOST_RESET, R353. -/
  | hostReset (k : HostReset)
  /-- PCIE_LINK_CHANGE, R380. -/
  | pcieLinkChange (speed : Fin 6) (width : Fin 17)
  /-- DRV_HELLO, R356. -/
  | drvHello (w : Word)
  /-- Q_START, R361. -/
  | qStart (q : Fin 64)
  /-- Q_STOP, R361. -/
  | qStop (q : Fin 64)
  /-- Q_RESET, R361. -/
  | qReset (q : Fin 64)
  /-- HST_CLR_CNT, R379. -/
  | hstClrCnt
  /-- Q_TAIL_WRITE, R358. -/
  | qTailWrite (q : Fin 64) (w : Word)
  /-- DESC_PROCESS, R359. -/
  | descProcess (q : Fin 64) (desc : Option (BitVec 256)) (data : Option (List Byte)) (fabOk : Bool)
  /-- IMOD_EXPIRE, R359. -/
  | imodExpire (q : Fin 64)
  /-- RLK_ENABLE, R367. -/
  | rlkEnable (l : Fin 2) (w : Word)
  /-- RLK_DISABLE, R367. -/
  | rlkDisable (l : Fin 2) (w : Word)
  /-- RLK_PHY_UP, R367. -/
  | rlkPhyUp (l : Fin 2) (lanes : List (Fin 8 × Fin 8 × Bool × Fin 512))
  /-- RLK_OFFER_TIMER, R366. -/
  | rlkOfferTimer (l : Fin 2)
  /-- ROW_OFFER, R367. -/
  | rowOffer (l : Fin 2) (w : BitVec 512)
  /-- RLK_RATE_SWITCH, R367. -/
  | rlkRateSwitch (l : Fin 2)
  /-- ROW_DATA, R368. -/
  | rowData (l : Fin 2) (w : BitVec 512)
  /-- ROW_IDLE, R364. -/
  | rowIdle (l : Fin 2) (w : BitVec 512)
  /-- ROW_NAK, R368. -/
  | rowNak (l : Fin 2) (w : BitVec 512)
  /-- RLK_LINK_DOWN, R367. -/
  | rlkLinkDown (l : Fin 2)
  /-- RLK_RETRAIN, R379. -/
  | rlkRetrain (l : Fin 2)
  /-- RLK_CLR_CNT, R379. -/
  | rlkClrCnt (l : Fin 2)
  /-- STREAM_WORD_SEND, R370. -/
  | streamWordSend (l c : Fin 2) (data : BitVec 416) (last : Bool)
  /-- TS_SYNC_INTERVAL, R372. -/
  | tsSyncInterval (l : Fin 2) (t1 : DWord)
  /-- MGMT_SYNC, R372. -/
  | mgmtSync (l : Fin 2) (w : BitVec 512) (t2 t3 : DWord)
  /-- MGMT_FOLLOW, R372. -/
  | mgmtFollow (l : Fin 2) (w : BitVec 512)
  /-- MGMT_DELAY_REQ, R372. -/
  | mgmtDelayReq (l : Fin 2) (w : BitVec 512) (t4 : DWord)
  /-- MGMT_DELAY_RESP, R373. -/
  | mgmtDelayResp (l : Fin 2) (w : BitVec 512)
  /-- TSB_SYNC_LOST, R373. -/
  | tsbSyncLost
  /-- TSB_STEP, R379. -/
  | tsbStep
  /-- TSB_STEP_RELEASE, R374. -/
  | tsbStepRelease
  /-- EVENT_RAISE, R375. -/
  | eventRaise (e : Fin 1024)
  /-- EVT_CLAIM_READ, R376. -/
  | evtClaimRead (c : Fin 4) (p : Fin 2) (peek : Bool)
  /-- EVT_ROUTE_A_WRITE, R376. -/
  | evtRouteAWrite (e : Fin 1024) (w : Word)
  /-- EVT_USER_RAISE, R377. -/
  | evtUserRaise (u : Fin 32)
  /-- CFG_SYNC_WORD, R386. -/
  | cfgSyncWord (skip : List Byte)
  /-- PKT_NOOP, R387. -/
  | pktNoop
  /-- PKT_CRC, R390. -/
  | pktCrc (p : Packet)
  /-- PKT_IDCODE, R388. -/
  | pktIdcode (p : Packet)
  /-- PKT_FAR, R382. -/
  | pktFar (p : Packet)
  /-- PKT_FDRI, R395. -/
  | pktFdri (p : Packet) (errs : List (Bundle × SigErr))
  /-- PKT_STARTUP, R413. -/
  | pktStartup (p : Packet)
  /-- PKT_REGION, R388. -/
  | pktRegion (p : Packet)
  /-- PKT_ZDATA, R397. -/
  | pktZdata (p : Packet) (errs : List (Bundle × SigErr))
  /-- PKT_AUTH, R398. -/
  | pktAuth (p : Packet)
  /-- PKT_ENC, R400. -/
  | pktEnc (p : Packet)
  /-- ENC_SEGMENT, R400. -/
  | encSegment (cipher : List Word) (plain : Option (List Word))
  /-- PKT_GSEL, R406. -/
  | pktGsel (p : Packet)
  /-- CMD_NULL, R389. -/
  | cmdNull (p : Packet)
  /-- CMD_RCRC, R389. -/
  | cmdRcrc (p : Packet)
  /-- CMD_WCFG, R389. -/
  | cmdWcfg (p : Packet)
  /-- CMD_LFRM, R396. -/
  | cmdLfrm (p : Packet)
  /-- SIG_VERIFY_DONE, R398. -/
  | sigVerifyDone (ok : Bool) (digest : BitVec 512)
  /-- CMD_START, R412. -/
  | cmdStart (p : Packet)
  /-- CMD_DESYNC, R389. -/
  | cmdDesync (p : Packet)
  /-- CMD_PR_BEGIN, R416. -/
  | cmdPrBegin (p : Packet)
  /-- CMD_PR_CANCEL, R419. -/
  | cmdPrCancel (p : Packet)
  /-- CLEARING_DONE, R391. -/
  | clearingDone (mode gang : Fin 8)
  /-- STARTUP_CLOCKS_DONE, R412. -/
  | startupClocksDone
  /-- STARTUP_OUT, R412. -/
  | startupOut (vio : List (BitVec 12))
  /-- STARTUP_WE, R412. -/
  | startupWe
  /-- STARTUP_RST, R412. -/
  | startupRst
  /-- STARTUP_DONE, R412. -/
  | startupDone
  /-- DONE_PIN_HIGH, R412. -/
  | donePinHigh (high : Bool)
  /-- STARTUP_WEIR, R412. -/
  | startupWeir
  /-- STARTUP_LATE_ISLAND, R414. -/
  | startupLateIsland (n : Fin 80) (vio : List (BitVec 12))
  /-- CFG_LOAD_FLASH, R401. -/
  | cfgLoadFlash (planes : Byte)
  /-- CFG_LOAD_SLOT, R408. -/
  | cfgLoadSlot (slot : Fin 4) (planes : Byte)
  /-- CFG_LOAD_MEM, R401. -/
  | cfgLoadMem (planes : Byte)
  /-- CFG_ABORT, R401. -/
  | cfgAbort
  /-- CFG_CLR_ERR, R401. -/
  | cfgClrErr
  /-- CFG_CLEAR_PLANES, R401. -/
  | cfgClearPlanes (isl : Fin 128) (planes : Byte) (all : Bool)
  /-- CFG_CLR_CNT, R401. -/
  | cfgClrCnt
  /-- CFG_FIFO_WRITE, R402. -/
  | cfgFifoWrite (w : Word)
  /-- CFG_FIFO_DROP, R402. -/
  | cfgFifoDrop
  /-- LOAD_TIMEOUT, R393. -/
  | loadTimeout
  /-- SOURCE_END, R405. -/
  | sourceEnd
  /-- XSPI_HEADER_READ, R404. -/
  | xspiHeaderRead (oct single : List Byte)
  /-- GANG_INIT_LOW, R406. -/
  | gangInitLow
  /-- FOLLOWER_RELEASE, R406. -/
  | followerRelease
  /-- DAH_WRITE_SLOT, R422. -/
  | dahWriteSlot (fw : Bool) (i : Fin 4)
  /-- DAH_WRITE_DONE, R422. -/
  | dahWriteDone (ok : Bool) (top mean : Nat)
  /-- DAH_ERASE_SLOT, R425. -/
  | dahEraseSlot (fw : Bool) (i : Fin 4)
  /-- DAH_SET_BOOT, R423. -/
  | dahSetBoot
  /-- DAH_CLR_CNT, R425. -/
  | dahClrCnt
  /-- PROG_N_LOW, R438. -/
  | progNLow
  /-- PROG_N_RELEASE, R438. -/
  | progNRelease (failing : List (Bundle × WireErr))
  /-- RAIL_VALID, R428. -/
  | railValid (r : Fin 10)
  /-- AUX_POR_RELEASE, R429. -/
  | auxPorRelease (agree : Bool) (weak : List (Fin 384))
  /-- MAIN_POR_RELEASE, R430. -/
  | mainPorRelease (failing : List (Bundle × WireErr))
  /-- ISLAND_POWER_STAGE, R430. -/
  | islandPowerStage (g : Fin 10)
  /-- MAIN_RAIL_LOSS, R431. -/
  | mainRailLoss (r : Fin 10)
  /-- PHASE_CLOCKS_DONE, R432. -/
  | phaseClocksDone
  /-- NO_REF_TIMEOUT, R432. -/
  | noRefTimeout
  /-- PHASE_KEYS_DONE, R458. -/
  | phaseKeysDone
  /-- BOOT_RETRY, R439. -/
  | bootRetry
  /-- SYS_RESET_DEVICE, R440. -/
  | sysResetDevice (key : Byte)
  /-- SYS_RESET_ENGINE, R437. -/
  | sysResetEngine (key : Byte)
  /-- SYS_RESET_ISLAND, R437. -/
  | sysResetIsland (key : Byte) (n : Fin 128)
  /-- ISLAND_RESET_RELEASE, R180. -/
  | islandResetRelease (n : Fin 80)
  /-- SYS_SAVE_AUTO, R440. -/
  | sysSaveAuto
  /-- PCIE_PERST, R435. -/
  | pciePerst
  /-- VCC_AUX_POWER_ON, R437. -/
  | vccAuxPowerOn
  /-- PEO_CHALLENGE, R464. -/
  | peoChallenge (m : Master)
  /-- PEO_TOKEN, R455. -/
  | peoToken (m : Master)
  /-- PEO_ATTEST, R457. -/
  | peoAttest (m : Master)
  /-- PEO_GET_CERT, R456. -/
  | peoGetCert (m : Master)
  /-- PEO_FUSE_WRITE, R464. -/
  | peoFuseWrite (m : Master)
  /-- PEO_FUSE_REPAIR, R464. -/
  | peoFuseRepair (m : Master)
  /-- PEO_SET_SVN, R446. -/
  | peoSetSvn (m : Master)
  /-- PEO_REVOKE, R454. -/
  | peoRevoke (m : Master)
  /-- PEO_INSTALL_KEY, R452. -/
  | peoInstallKey (m : Master)
  /-- PEO_SEAL_KEY, R464. -/
  | peoSealKey (m : Master)
  /-- PEO_PROVISION, R450. -/
  | peoProvision (m : Master)
  /-- PEO_DEPLOY, R450. -/
  | peoDeploy (m : Master)
  /-- PEO_RETURN, R450. -/
  | peoReturn (m : Master)
  /-- PEO_WIPE_SECURE, R464. -/
  | peoWipeSecure (m : Master)
  /-- PEO_LOCK, R461. -/
  | peoLock (m : Master)
  /-- PEO_CMD_DONE, R464. -/
  | peoCmdDone (good : Bool) (fail : Option (Fin 512 × Word))
  /-- TRNG_FAIL, R442. -/
  | trngFail
  /-- TAMPER, R462. -/
  | tamper (k : Fin 3)
  /-- TAMPER_REPEAT, R462. -/
  | tamperRepeat (k : Fin 3)
  /-- TOKEN_EXPIRE, R455. -/
  | tokenExpire
  /-- SCRUB_FRAME, R470. -/
  | scrubFrame (n : Fin 80) (c : Fin 8) (f : Fin 1600) (data : BitVec 2048) (chk : BitVec 96) (gold : Fin 3)
      (errs : List (Bundle × SigErr))
  /-- GOLDEN_BUILD, R473. -/
  | goldenBuild (n : Fin 80) (c : Fin 8) (units : Fin 65536)
  /-- ENGINE_XCHECK, R476. -/
  | engineXcheck (e : Fin 3) (found : Option (Fin 4))
  /-- ENGINE_RECHECK, R477. -/
  | engineRecheck (agree : Bool)
  /-- ENGINE_RELOAD_DONE, R477. -/
  | engineReloadDone (e : Fin 3)
  /-- SCB_SCRUB_NOW, R492. -/
  | scbScrubNow (n : Fin 128) (c : Fin 8)
  /-- SCB_REBUILD_GOLD, R474. -/
  | scbRebuildGold (n : Fin 128) (c : Fin 8)
  /-- SCB_RESTORE, R477. -/
  | scbRestore (e : Fin 4)
  /-- SCB_CLR_CNT, R492. -/
  | scbClrCnt
  /-- BST_RUN_ENGINES, R480. -/
  | bstRunEngines (i : Fin 128)
  /-- BST_RUN_ROUTER, R480. -/
  | bstRunRouter (i : Fin 128)
  /-- BST_RUN_ISLAND, R480. -/
  | bstRunIsland (i : Fin 128)
  /-- BST_RUN_PLANES, R480. -/
  | bstRunPlanes (i : Fin 128)
  /-- BST_RUN_BANK, R480. -/
  | bstRunBank (i : Fin 128)
  /-- BST_RUN_HBM, R480. -/
  | bstRunHbm (i : Fin 128)
  /-- BST_RUN_SPARE_RANK, R480. -/
  | bstRunSpareRank (i : Fin 128)
  /-- BST_RUN_CACHES, R480. -/
  | bstRunCaches (i : Fin 128)
  /-- BST_RUN_PORT, R480. -/
  | bstRunPort (i : Fin 128)
  /-- BST_RUN_ANALOG, R480. -/
  | bstRunAnalog (i : Fin 128)
  /-- BST_RUN_DAHLIA, R480. -/
  | bstRunDahlia (i : Fin 128)
  /-- BST_ABORT, R481. -/
  | bstAbort
  /-- BST_CLR_CNT, R492. -/
  | bstClrCnt
  /-- BST_DONE, R481. -/
  | bstDone (pass : Bool) (rows : List (Fin 6144)) (mask : BitVec 48) (us : Word)
  /-- CLASS_BUCKET_LEAK, R479. -/
  | classBucketLeak (k : Fin 8)
  /-- CAL_ITEM_DUE, R483. -/
  | calItemDue (i : Fin 7) (j : Fin 169) (failed : Bool)
  /-- VREF_CHECK, R485. -/
  | vrefCheck (mv : BitVec 16)
  /-- HBM_DQ_CAL, R486. -/
  | hbmDqCal (pc : Fin 16)
  /-- HBM_DQ_FORCED, R486. -/
  | hbmDqForced (pc : Fin 16)
  /-- CAL_CAL_NOW, R492. -/
  | calCalNow (i : Fin 16) (j : Byte)
  /-- CAL_CLR_CNT, R492. -/
  | calClrCnt
  /-- TEL_RECORD, R488. -/
  | telRecord (ok : Bool)
  /-- TEL_SNAPSHOT, R488. -/
  | telSnapshot (ok : Bool)
  /-- TEL_JOURNAL_USER, R489. -/
  | telJournalUser
  /-- TEL_CLR_CNT, R492. -/
  | telClrCnt
  /-- JOURNAL_WRITE, R489. -/
  | journalWrite (ok : Bool)
  /-- POWER_MEASURE, R497. -/
  | powerMeasure (power current : List (BitVec 16))
  /-- SLEW_WINDOW, R500. -/
  | slewWindow (didt : BitVec 16)
  /-- AST_PWR_LIMIT_WRITE, R24. -/
  | astPwrLimitWrite (w : Word)
  /-- AST_STAGING_WRITE, R22. -/
  | astStagingWrite (unstaged : Bool)
  /-- AST_METHOD_WRITE, R22. -/
  | astMethodWrite (m : Fin 4)
  /-- METHOD_APPLY, R22. -/
  | methodApply
  /-- TEMP_CONVERT, R507. -/
  | tempConvert (readings : List (Option (BitVec 16)))
  /-- THM_LEVEL_STEP, R516. -/
  | thmLevelStep
  /-- STOP_NOTICE_END, R519. -/
  | stopNoticeEnd
  /-- ORDERLY_STOP_DONE, R519. -/
  | orderlyStopDone
  /-- OVERCURRENT, R521. -/
  | overcurrent
  /-- STOP_TIMEOUT, R521. -/
  | stopTimeout
  /-- HARD_STOP, R521. -/
  | hardStop
  /-- AST_RESUME, R524. -/
  | astResume
  /-- AST_STOP, R524. -/
  | astStop
  /-- AST_CLR_SUSPECT, R524. -/
  | astClrSuspect (ch : Fin 32)
  /-- AST_CLR_CNT, R524. -/
  | astClrCnt
  /-- TAP_RESET, R530. -/
  | tapReset
  /-- TAP_UPDATE_IR, R531. -/
  | tapUpdateIr (op : Byte)
  /-- DBGACC_UPDATE_DR, R533. -/
  | dbgaccUpdateDr (dr : BitVec 78)
  /-- DBGACC_OP_DONE, R534. -/
  | dbgaccOpDone (fab : Option Word)
  /-- DBGACC_TIMEOUT, R534. -/
  | dbgaccTimeout
  /-- DBG_HALT, R540. -/
  | dbgHalt (cores : Fin 16)
  /-- CORE_HALTED, R540. -/
  | coreHalted (c : Fin 4) (pc : DWord)
  /-- DBG_RESUME, R546. -/
  | dbgResume (cores : Fin 16)
  /-- DBG_STEP, R542. -/
  | dbgStep (cores : Fin 16)
  /-- DBG_RESET_DEVICE, R549. -/
  | dbgResetDevice
  /-- DBG_AUTH_CHALLENGE, R537. -/
  | dbgAuthChallenge
  /-- DBG_AUTH_TOKEN, R537. -/
  | dbgAuthToken
  /-- BREAKPOINT_HIT, R543. -/
  | breakpointHit (c : Fin 4) (k : Fin 8) (priv : Fin 3)
  /-- WATCHPOINT_HIT, R543. -/
  | watchpointHit (c w : Fin 4) (a : DWord) (size : Fin 4) (load store : Bool) (priv : Fin 3) (pc : DWord)
  /-- EBREAK_HALT, R543. -/
  | ebreakHalt (c : Fin 4) (pc : DWord)
  /-- DBG_REGDATA_WRITE, R544. -/
  | dbgRegdataWrite (c : Fin 4) (v : DWord)
  /-- SUP_WDG_KICK, R548. -/
  | supWdgKick (w : Word)
  /-- SUP_WDG_EXPIRE, R548. -/
  | supWdgExpire
  /-- ISLAND_ROW_READ, R40. -/
  | islandRowRead (n : Fin 80)
  /-- RLK_STREAM_ROW_READ, R369. -/
  | rlkStreamRowRead (l c : Fin 2)
  /-- UART_TX_CHARACTER, R331. -/
  | uartTxCharacter (u : Fin 2)
  /-- MATCH_UNIT_COMPARE, R159. -/
  | matchUnitCompare (n : Fin 80) (e : EdgeIn)
  /-- MSIX_TABLE_ACCESS, R354. -/
  | msixTableAccess (x : Fin 4096) (wr : Option Word)
  /-- PRECFG_PD_CHANGE, R415. -/
  | precfgPdChange (high : Bool)
  /-- RLK_PHY_FAULT, R367. -/
  | rlkPhyFault (l : Fin 2)
  /-- AER_ERROR_LOGGED, R380. -/
  | aerErrorLogged (uncorrectable : Bool)
deriving DecidableEq, Repr

end Sys2Proof
end

