-- ==== Sys2Proof/Decode.lean ====
section
/-! DEFINITION. The commands that words of the opcode table spell: no row of the table gives bits, so that no word spells one. -/

namespace Sys2Proof

/-- The command that an opcode-table word of `nbits` bits spells: none. -/
def decodeTableWord (_nbits _w : Nat) : Option Instr := none

end Sys2Proof
end

