-- ==== Sys2Proof/Machine/Bits.lean ====
section
/-! DEFINITION. Bit-field, byte-order and check-code helpers that the meanings share. -/

namespace Sys2Proof.Machine

/-- The number of set bits among the low `n` bits. -/
def popCount : Nat → Nat → Nat
  | 0, _ => 0
  | n + 1, x => x % 2 + popCount n (x / 2)

/-- The positions below `n`, from `lo` on, whose bit is set in `x`, lowest first. -/
def setBits (n x : Nat) : List Nat := (List.range n).filter (fun i => bit x i)

/-- The lowest set bit below `n`, if any. -/
def lowestBit (n x : Nat) : Option Nat := (List.range n).find? (fun i => bit x i)

/-- `n` little-endian bytes of a number (R4). -/
def leBytes : Nat → Nat → List Byte
  | 0, _ => []
  | n + 1, x => BitVec.ofNat 8 x :: leBytes n (x / 256)

/-- The number that little-endian bytes spell (R4). -/
def ofLeBytes : List Byte → Nat
  | [] => 0
  | b :: r => b.toNat + 256 * ofLeBytes r

/-- The number that big-endian bytes spell. -/
def ofBeBytes (l : List Byte) : Nat := l.foldl (fun a b => a * 256 + b.toNat) 0

/-- One bit, most significant first, of a CRC register of width `w` with the polynomial `poly`. -/
def crcBit (w poly reg : Nat) (b : Bool) : Nat :=
  let fb := (bit reg (w - 1)) != b
  let sh := reg * 2 % 2 ^ w
  if fb then sh ^^^ poly else sh

/-- One byte of a CRC, most significant bit first. -/
def crcByte (w poly reg x : Nat) : Nat :=
  [7, 6, 5, 4, 3, 2, 1, 0].foldl (fun r i => crcBit w poly r (bit x i)) reg

/-- A CRC over bytes, each most significant bit first, with no reflection and no final XOR. -/
def crcBytes (w poly init : Nat) (l : List Byte) : Nat :=
  l.foldl (fun r b => crcByte w poly r b.toNat) init

/-- CRC-8 with x^8 + x^2 + x + 1 and initial value 0 (R35, R72). -/
def crc8 (l : List Byte) : Nat := crcBytes 8 0x07 0 l

/-- The low `w` bits of a number in reverse order. -/
def revBits : Nat → Nat → Nat
  | 0, _ => 0
  | w + 1, x => (x % 2) * 2 ^ w + revBits w (x / 2)

/-- A reflected CRC over bytes, each least significant bit first. -/
def crcBytesRefl (w poly init : Nat) (l : List Byte) : Nat :=
  revBits w (l.foldl (fun r b => crcByte w poly r (revBits 8 b.toNat)) init)

/-- The two's complement value of the low `w` bits. -/
def toSigned (w x : Nat) : Int :=
  let y := x % 2 ^ w
  if y < 2 ^ (w - 1) then (y : Int) else (y : Int) - 2 ^ w

/-- The low `w` bits of an integer, in two's complement. -/
def ofSigned (w : Nat) (i : Int) : Nat := (i % 2 ^ w).toNat

/-- A number with bits `[hi:lo]` replaced. -/
def setBitsAt (x hi lo v : Nat) : Nat :=
  x - bits x hi lo * 2 ^ lo + v % 2 ^ (hi - lo + 1) * 2 ^ lo

/-- A number with bit `i` set. -/
def setBit (x i : Nat) : Nat := x ||| 2 ^ i

/-- A number with bit `i` cleared. -/
def clrBit (x i : Nat) : Nat := if bit x i then x - 2 ^ i else x

/-- 0 or 1 for a truth value. -/
def b2n (b : Bool) : Nat := if b then 1 else 0

/-- A list with its entry at a position replaced by a function of it. -/
def updAt {α : Type} (f : α → α) : Nat → List α → List α
  | _, [] => []
  | 0, x :: r => f x :: r
  | n + 1, x :: r => x :: updAt f n r

end Sys2Proof.Machine
end

