-- ==== Sys2Proof/Machine/Cell.lean ====
section
/-! DEFINITION. The fabric of an island as a configuration makes it: cells, pairs, carry chains, flip-flops, the crossbars D0, D1
and D2, match inputs (R145 to R153, R157, R158). A configuration is a function from items, numbered here, to values. -/

namespace Sys2Proof.Machine

/-- Configuration of a function generator (R146): FUNC and the two slot indices, where the configuration names them. -/
structure FuncCfg where
  func  : BitVec 16
  slotE : Option (Fin 16)
  slotF : Option (Fin 16)
deriving DecidableEq, Repr

/-- The routed logic inputs of a cell (R145). -/
structure CellIn where
  a : Bool
  b : Bool
  c : Bool
  d : Bool
  e : Bool
  f : Bool
deriving DecidableEq, Repr

/-- The data input that A to D select (R146). -/
def CellIn.index (x : CellIn) : Nat := 8 * x.d.toNat + 4 * x.c.toNat + 2 * x.b.toNat + x.a.toNat

/-- The function generator's output in LOGIC mode (R146): E has its slot before F. -/
def cellLogic (g : FuncCfg) (x : CellIn) : Bool :=
  let i := x.index
  if g.slotE.map (fun k => k.val) = some i then x.e
  else if g.slotF.map (fun k => k.val) = some i then x.f
  else g.func.getLsbD i

/-- PAIR mode (R147): the even cell's E selects between the odd cell's output and its own generator. -/
def cellPair (oOdd oEven eEven : Bool) : Bool := if eEven then oOdd else oEven

/-- CARRY mode (R148): carry out and output from the propagate term, A and carry in. -/
def cellCarry (p a ci : Bool) : Bool × Bool := (if p then ci else a, xor p ci)

/-- The outputs of a carry chain (R148): from cell 0 on, each with its propagate term and A; the last carry is CO of the
last cell. -/
def carryChain : Bool → List (Bool × Bool) → List Bool × Bool
  | ci, [] => ([], ci)
  | ci, (p, a) :: r =>
    let (co, o) := cellCarry p a ci
    let (os, last) := carryChain co r
    (o :: os, last)

/-- A flip-flop at a clock edge (R149): its control set, if any, gives the clock enable and the synchronous set/reset,
which drives it to `srVal`. -/
def ffNext (q d : Bool) (ctl : Option (Bool × Bool)) (srVal : Bool) : Bool :=
  match ctl with
  | none => d
  | some (ce, sr) => if sr then srVal else if ce then d else q

/-- The two stages of a D2 output at a clock edge (R153): the value presented reaches the output two edges later. -/
def d2Step (st : Bool × Bool) (inp : Bool) : Bool × Bool := (inp, st.1)

/-- A match output before its register (R158). -/
def matchOut (stb en : Bool) (w val mask : Nat) : Bool := stb && en && ((w ^^^ val) &&& mask) % 2 ^ 64 == 0

/-! ### Items of a configuration (R145 to R153, R157)

Cell x, cluster q, tile t, D2 output or tile input y (512 per tile), I/O cell z. A source within a tile is coded v: v mod 8 is 1 for O,
2 for Q0, 3 for Q1 and 4 for CO of cell v / 8 mod 512 of the tile, 5 for its D2 output v / 8 mod 512, 6 for its match output
v / 8 mod 2; any other value names no source. -/

/-- FUNC; the slot indices: bit 0 and bits 4:1 for E, bit 5 and bits 9:6 for F; the mode: 0 LOGIC, 1 PAIR (of an even cell), 2 CARRY. -/
def itemFunc (x : Nat) : Nat := 1024 + 16 * x
def itemSlots (x : Nat) : Nat := 1024 + 16 * x + 1
def itemMode (x : Nat) : Nat := 1024 + 16 * x + 2
/-- The source of input `j` of a cell: 0 to 5 for A to F. -/
def itemIn (x j : Nat) : Nat := 1024 + 16 * x + 3 + j
/-- The flip-flop F0 or F1 (`w`) of a cell: bit 0 its D input, O or the bypass; bits 2:1 its control set, 0 for none; bit 3 the value
to which set/reset drives it. -/
def itemFf (x w : Nat) : Nat := 1024 + 16 * x + 9 + w
/-- Sources of a cluster: `j` 0 for CI of cell 0, 1 and 2 for the clock enable and the set/reset of control set 1, 3 and 4 of set 2. -/
def itemClu (q j : Nat) : Nat := 2 ^ 20 + 8 * q + j
/-- Sources of the match unit of a tile: bits 0 to 63 of W, and 64 for STB. -/
def itemMu (t j : Nat) : Nat := 2 ^ 21 + 128 * t + j
/-- The source, within its tile, that drives a tile's D2 input. -/
def itemD2In (y : Nat) : Nat := 2 ^ 22 + y
/-- What a D2 output selects: v mod 4 is 1 for the tiles' input v / 4, 2 for the hard interfaces' input v / 4. From 32768 on: the outputs
that lead to the I/O cells, three for each. -/
def itemD2Out (y : Nat) : Nat := 2 ^ 23 + y
/-- An I/O cell in a context: bits 1:0 its direction, 0 input, 1 output, 2 as its enable says; bits 2, 3 and 4 whether the input, output and
enable registers are used. -/
def itemIo (z : Nat) : Nat := 2 ^ 24 + z
/-- An option of an I/O cell, of plane 0: `j` 0 drive, 1 slew, 2 pull, 3 termination, and 4, 5 and 6 whether the input, output and
enable registers are DDR. -/
def itemOpt (z j : Nat) : Nat := 2 ^ 25 + 8 * z + j

/-! ### The combinational part (R146 to R148, R151, R152) -/

/-- What the combinational part of an island starts from: the Q0 and Q1 of its cells, its D2 outputs, its match outputs,
and open values. -/
structure Roots where
  q0   : Nat
  q1   : Nat
  d2   : Nat
  mo   : Nat
  free : Nat
deriving DecidableEq, Repr

/-- What is evaluated: the function generator, the output or the carry out of a cell, or a routed source of a tile. -/
inductive Node where
  | gen (x : Nat)
  | o   (x : Nat)
  | co  (x : Nat)
  | src (t v : Nat)
deriving DecidableEq, Repr

/-- The configuration of a function generator: E of an even cell in PAIR mode is the pair select alone (R147). -/
def funcCfg (g : Nat → Nat) (x : Nat) : FuncCfg :=
  let s := g (itemSlots x)
  ⟨BitVec.ofNat 16 (g (itemFunc x)), if bit s 0 && g (itemMode x) != 1 then some (Fin.ofNat 16 (s / 2)) else none,
    if bit s 5 then some (Fin.ofNat 16 (s / 64)) else none⟩

/-- The value of a node. A combinational loop, which exhausts the fuel, an input with no source and the carry of a cell out of
CARRY mode are open. -/
def nodeVal (g : Nat → Nat) (r : Roots) : Nat → Node → Bool
  | 0, _ => bit r.free 0
  | f + 1, .src t v =>
    if v % 8 = 1 then nodeVal g r f (.o (512 * t + v / 8 % 512))
    else if v % 8 = 2 then bit r.q0 (512 * t + v / 8 % 512)
    else if v % 8 = 3 then bit r.q1 (512 * t + v / 8 % 512)
    else if v % 8 = 4 then nodeVal g r f (.co (512 * t + v / 8 % 512))
    else if v % 8 = 5 then bit r.d2 (512 * t + v / 8 % 512)
    else if v % 8 = 6 then bit r.mo (2 * t + v / 8 % 2)
    else bit r.free 1
  | f + 1, .gen x =>
    let i (j : Nat) : Bool := nodeVal g r f (.src (x / 512) (g (itemIn x j)))
    cellLogic (funcCfg g x) ⟨i 0, i 1, i 2, i 3, i 4, i 5⟩
  | f + 1, .co x =>
    if g (itemMode x) = 2 then
      (cellCarry (nodeVal g r f (.gen x)) (nodeVal g r f (.src (x / 512) (g (itemIn x 0))))
        (if x % 32 = 0 then nodeVal g r f (.src (x / 512) (g (itemClu (x / 32) 0))) else nodeVal g r f (.co (x - 1)))).1
    else bit r.free 2
  | f + 1, .o x =>
    if g (itemMode x) = 2 then
      (cellCarry (nodeVal g r f (.gen x)) false
        (if x % 32 = 0 then nodeVal g r f (.src (x / 512) (g (itemClu (x / 32) 0))) else nodeVal g r f (.co (x - 1)))).2
    else if g (itemMode x) = 1 ∧ x % 2 = 0 then
      cellPair (nodeVal g r f (.o (x + 1))) (nodeVal g r f (.gen x)) (nodeVal g r f (.src (x / 512) (g (itemIn x 4))))
    else nodeVal g r f (.gen x)

/-- Steps that no path without a loop exceeds: a tile has 512 cells with three nodes each, and no path leaves its tile. -/
def nodeFuel : Nat := 4096

/-- The value of a routed source of a tile. -/
def srcVal (g : Nat → Nat) (r : Roots) (t v : Nat) : Bool := nodeVal g r nodeFuel (.src t v)

/-! ### A clock edge (R149, R153, R157) -/

/-- Some bits as a number. -/
def packBits (n : Nat) (f : Nat → Bool) : Nat := (List.range n).foldl (fun a i => a + b2n (f i) * 2 ^ i) 0

/-- F0 or F1 (`w`) of a cell after a clock edge (R149). -/
def ffEdge (g : Nat → Nat) (r : Roots) (w : Nat) (q : Nat) (x : Nat) : Bool :=
  let k := g (itemFf x w)
  let d := if bit k 0 then srcVal g r (x / 512) (g (itemIn x (4 + w))) else nodeVal g r nodeFuel (.o x)
  let c := bits k 2 1
  let ctl (j : Nat) : Bool := srcVal g r (x / 512) (g (itemClu (x / 32) j))
  ffNext (bit q x) d (if c = 1 then some (ctl 1, ctl 2) else if c = 2 then some (ctl 3, ctl 4) else none) (bit k 3)

/-- The value that a D2 output selects (R153): `hard` are the levels of the hard interfaces' inputs. -/
def d2Sel (g : Nat → Nat) (r : Roots) (hard : Nat) (y : Nat) : Bool :=
  let v := g (itemD2Out y)
  if v % 4 = 1 then srcVal g r (v / 4 % 32768 / 512) (g (itemD2In (v / 4 % 32768)))
  else if v % 4 = 2 then bit hard (v / 4)
  else bit r.free 3

/-- The two D2 stages of `n` outputs after an edge: stage 1 in the low bits, the outputs above them (R153). -/
def d2Edge (n st : Nat) (inp : Nat → Bool) : Nat :=
  let f (y : Nat) : Bool × Bool := d2Step (bit st y, bit st (n + y)) (inp y)
  packBits n (fun y => (f y).1) + 2 ^ n * packBits n (fun y => (f y).2)

/-- The word and the strobe of a tile's match unit (R157). -/
def muWord (g : Nat → Nat) (r : Roots) (t : Nat) : Nat := packBits 64 (fun j => srcVal g r t (g (itemMu t j)))
def muStb (g : Nat → Nat) (r : Roots) (t : Nat) : Bool := srcVal g r t (g (itemMu t 64))

/-- Crossbar and cell delays in picoseconds, maxima of R155. -/
def delayCO : Nat := 35
def delaySU : Nat := 25
def delayUNC : Nat := 40
def delayD0 : Nat := 55
def delayD1 : Nat := 140
def delayLUT : Nat := 45

/-- A path meets timing at an island period (R156), its crossbar and cell delays given in picoseconds. -/
def pathMeets (legs : List (Nat × Nat)) (period : Nat) : Bool :=
  decide (delayCO + legs.foldl (fun t l => t + l.1 + l.2) 0 + delaySU + delayUNC ≤ period)

end Sys2Proof.Machine
end

