-- ==== Sys2Proof/Machine/Table.lean ====
section
/-! DEFINITION. Tables: sparse plain data by number, in one canonical form (keys strictly rising). -/

namespace Sys2Proof.Machine

/-- A sparse table: (key, entry) pairs, the keys strictly rising. -/
abbrev Tab (α : Type) := List (Nat × α)

/-- The entry at a key, or none. -/
def Tab.find {α : Type} (t : Tab α) (k : Nat) : Option α :=
  match t with
  | [] => none
  | e :: r => if e.1 = k then some e.2 else Tab.find r k

/-- The entry at a key, or what an unlisted key stands for. -/
def Tab.getD {α : Type} (t : Tab α) (k : Nat) (d : α) : α := (Tab.find t k).getD d

/-- The table without a key. -/
def Tab.del {α : Type} (t : Tab α) (k : Nat) : Tab α :=
  t.filter (fun e => e.1 != k)

/-- The table with one entry set; every other entry stays. -/
def Tab.put {α : Type} (t : Tab α) (k : Nat) (v : α) : Tab α :=
  t.filter (fun e => decide (e.1 < k)) ++ (k, v) :: t.filter (fun e => decide (k < e.1))

/-- Setting an entry in a table whose unlisted keys stand for `d`: an entry equal to `d` is not listed. -/
def Tab.set {α : Type} [DecidableEq α] (t : Tab α) (k : Nat) (d v : α) : Tab α :=
  if v = d then Tab.del t k else Tab.put t k v

/-- The table without the keys from `lo` up to, not including, `hi`. -/
def Tab.delRange {α : Type} (t : Tab α) (lo hi : Nat) : Tab α :=
  t.filter (fun e => !(decide (lo ≤ e.1) && decide (e.1 < hi)))

/-- The keys of a list rise strictly from a bound on. -/
def risesFrom (b : Nat) : List Nat → Bool
  | [] => true
  | k :: r => decide (b ≤ k) && risesFrom (k + 1) r

/-- The canonical form of a table: keys strictly rising. -/
def Tab.wf {α : Type} (t : Tab α) : Bool := risesFrom 0 (t.map Prod.fst)

end Sys2Proof.Machine
end

