-- ==== Sys2Proof/Machine/Regs.lean ====
section
/-! DEFINITION. The register fields of every block, by name: where each stands (block, offset, low bit; R553 to R555),
its width and its reset value, as the register tables of the chapters give them. -/

namespace Sys2Proof.Machine

/-- A register field or another numbered cell of the machine: its place, its width and its value at reset. -/
structure Fld where
  key : Nat
  w   : Nat
  rst : Nat
deriving DecidableEq, Repr

/-- The place of a field: block number, offset in the block, low bit (R554). -/
def cellKey (blk off lo : Nat) : Nat := (blk * 1048576 + off) * 64 + lo

/-- The router an NI sits on (R298). -/
def niRouter (i : Nat) : Nat :=
  if i < 80 then i else if i < 88 then 10 * (i - 80) + 9 else i - 18

/-- The hops of the dimension-ordered route between the routers of two NIs: east-west first, then north-south;
codes 0 N, 1 E, 2 S, 3 W (R301, R304). -/
def rtHops (i e : Nat) : List Nat :=
  let a := niRouter i
  let b := niRouter e
  List.replicate (b % 10 - a % 10) 1 ++ List.replicate (a % 10 - b % 10) 3
    ++ List.replicate (b / 10 - a / 10) 0 ++ List.replicate (a / 10 - b / 10) 2

/-- A list of hop codes as a DIR field: hop h in bits [3h+2:3h] (R301). -/
def hopsDir : List Nat → Nat
  | [] => 0
  | h :: r => h + 8 * hopsDir r

def rtHopsRst (i e : Nat) : Nat := if e < 97 then (rtHops i e).length else 0
def rtDirRst (i e : Nat) : Nat := if e < 97 then hopsDir (rtHops i e) else 0
def rtValidRst (e : Nat) : Nat := if e < 97 then 1 else 0
def rtDstRst (e : Nat) : Nat := if e < 97 then e else 0

/-- HBM_MAP_PCX[j] at reset. -/
def pcxRst (j : Nat) : Nat := 0x222 * 2 ^ j
/-- HBM_MAP_BKX[j] at reset. -/
def bkxRst (j : Nat) : Nat := 0x11 * 2 ^ j
/-- HBM_RANK[r].ROLE under the reset sparing mode SPARE_4 (R265): 1 SPARE_FREE for ranks 35, 39, 43, 47. -/
def roleRst (r : Nat) : Nat := if r = 35 ∨ r = 39 ∨ r = 43 ∨ r = 47 then 1 else 0

/-- The reset windows of BAR2 (R355); bases in units of 4 KiB. -/
def winBaseRst (w : Nat) : Nat :=
  if w < 6 then w * 0x100000 else if w = 6 then 0x1000000 else if w = 7 then 0x1100000 else 0
def winSizeRst (w : Nat) : Nat :=
  if w < 6 then 1048576 else if w = 6 then 65536 else if w = 7 then 131072 else 1
def winEnRst (w : Nat) : Nat := if w < 8 then 1 else 0

/-- AST_THRESH[c] at reset: 0 STACK, 1 HBM, 2 EXT (R513). -/
def thrHard (c : Nat) : Nat := if c = 0 then 0x69 else if c = 1 then 0x64 else 0xFF
def thrStop (c : Nat) : Nat := if c = 0 then 0x64 else if c = 1 then 0x5F else 0xFF
def thrThr (c : Nat) : Nat := if c = 0 then 0x5F else if c = 1 then 0x5A else 0xFF
def thrWarn (c : Nat) : Nat := if c = 0 then 0x5A else if c = 1 then 0x55 else 0x46

/-- The fields of STAT that every block has (R9, R23), by block number. -/
def Stat.cmdReject (blk : Nat) : Fld := ⟨cellKey blk 4 31, 1, 0⟩
def Stat.rejCode (blk : Nat) : Fld := ⟨cellKey blk 4 16, 8, 0⟩
def Stat.modeDeny (blk : Nat) : Fld := ⟨cellKey blk 4 15, 1, 0⟩

/-! Block SYS (0x000): 19_register_atlas.md -/

/-- SYS_IDCODE (R388). -/
def Reg.SYS_IDCODE_REV : Fld := ⟨cellKey 0x000 0x20 28, 4, 0⟩
def Reg.SYS_IDCODE_PART : Fld := ⟨cellKey 0x000 0x20 0, 28, 0x9260A13⟩

/-- SYS_ALIAS_STAT (R559). -/
def Reg.SYS_ALIAS_STAT_DIFFER : Fld := ⟨cellKey 0x000 0x24 31, 1, 0⟩
def Reg.SYS_ALIAS_STAT_EMPTY : Fld := ⟨cellKey 0x000 0x24 30, 1, 0⟩
def Reg.SYS_ALIAS_STAT_FIRST_DIFF : Fld := ⟨cellKey 0x000 0x24 16, 7, 0⟩
def Reg.SYS_ALIAS_STAT_CLASS : Fld := ⟨cellKey 0x000 0x24 0, 2, 0⟩

/-- SYS_GRP_ISL0 (R557). -/
def Reg.SYS_GRP_ISL0 (g : Nat) : Fld := ⟨cellKey 0x000 (0x100 + 0x40 * g) 0, 32, 0⟩

/-- SYS_GRP_ISL1 (R557). -/
def Reg.SYS_GRP_ISL1 (g : Nat) : Fld := ⟨cellKey 0x000 (0x104 + 0x40 * g) 0, 32, 0⟩

/-- SYS_GRP_ISL2 (R557). -/
def Reg.SYS_GRP_ISL2 (g : Nat) : Fld := ⟨cellKey 0x000 (0x108 + 0x40 * g) 0, 16, 0⟩

/-- SYS_GRP_SRB0 (R557). -/
def Reg.SYS_GRP_SRB0 (g : Nat) : Fld := ⟨cellKey 0x000 (0x110 + 0x40 * g) 0, 32, 0⟩

/-- SYS_GRP_SRB1 (R557). -/
def Reg.SYS_GRP_SRB1 (g : Nat) : Fld := ⟨cellKey 0x000 (0x114 + 0x40 * g) 0, 32, 0⟩

/-- SYS_GRP_SRB2 (R557). -/
def Reg.SYS_GRP_SRB2 (g : Nat) : Fld := ⟨cellKey 0x000 (0x118 + 0x40 * g) 0, 16, 0⟩

/-- SYS_GRP_PC (R557). -/
def Reg.SYS_GRP_PC (g : Nat) : Fld := ⟨cellKey 0x000 (0x120 + 0x40 * g) 0, 16, 0⟩

/-- SYS_GRP_LANE_LO/HI (R557). -/
def Reg.SYS_GRP_LANE (g : Nat) : Fld := ⟨cellKey 0x000 (0x128 + 0x40 * g) 0, 64, 0⟩

/-! Block PRB (0x010, 4 instances): 02_probe_ports.md -/

/-- PRB_STAT (R9). -/
def Reg.PRB_STAT_PLL_LOCK (p : Nat) : Fld := ⟨cellKey (0x010 + p) 0x4 14, 1, 0⟩
def Reg.PRB_STAT_REVERSED (p : Nat) : Fld := ⟨cellKey (0x010 + p) 0x4 13, 1, 0⟩
def Reg.PRB_STAT_FMEAS_BUSY (p : Nat) : Fld := ⟨cellKey (0x010 + p) 0x4 12, 1, 0⟩
def Reg.PRB_STAT_FAULT_CAUSE (p : Nat) : Fld := ⟨cellKey (0x010 + p) 0x4 8, 4, 0⟩
def Reg.PRB_STAT_STATE (p : Nat) : Fld := ⟨cellKey (0x010 + p) 0x4 0, 4, 0⟩

/-- PRB_CTRL (R60). -/
def Reg.PRB_CTRL_DSK_WIN (p : Nat) : Fld := ⟨cellKey (0x010 + p) 0x8 16, 3, 2⟩
def Reg.PRB_CTRL_WIDTH (p : Nat) : Fld := ⟨cellKey (0x010 + p) 0x8 8, 5, 16⟩
def Reg.PRB_CTRL_TX_SRC (p : Nat) : Fld := ⟨cellKey (0x010 + p) 0x8 5, 2, 0⟩
def Reg.PRB_CTRL_TX_EN (p : Nat) : Fld := ⟨cellKey (0x010 + p) 0x8 4, 1, 0⟩
def Reg.PRB_CTRL_LOOP (p : Nat) : Fld := ⟨cellKey (0x010 + p) 0x8 2, 2, 0⟩
def Reg.PRB_CTRL_AUTO_RETRAIN (p : Nat) : Fld := ⟨cellKey (0x010 + p) 0x8 1, 1, 1⟩
def Reg.PRB_CTRL_EN (p : Nat) : Fld := ⟨cellKey (0x010 + p) 0x8 0, 1, 0⟩

/-- PRB_CMD (R57). -/
def Reg.PRB_CMD_CODE (p : Nat) : Fld := ⟨cellKey (0x010 + p) 0xC 0, 8, 0⟩

/-- PRB_PLL_CFG (R29). -/
def Reg.PRB_PLL_CFG_REFSEL (p : Nat) : Fld := ⟨cellKey (0x010 + p) 0x10 24, 1, 0⟩
def Reg.PRB_PLL_CFG_FBDIV (p : Nat) : Fld := ⟨cellKey (0x010 + p) 0x10 0, 9, 0⟩

/-- PRB_PLL_FRAC (R29). -/
def Reg.PRB_PLL_FRAC_FRAC (p : Nat) : Fld := ⟨cellKey (0x010 + p) 0x14 0, 24, 0⟩

/-- PRB_BIND (R40). -/
def Reg.PRB_BIND_DELIV_EN (p : Nat) : Fld := ⟨cellKey (0x010 + p) 0x18 8, 1, 0⟩
def Reg.PRB_BIND_ISLAND (p : Nat) : Fld := ⟨cellKey (0x010 + p) 0x18 0, 7, (9 + 20 * p)⟩

/-- PRB_CAL_CTRL (R54). -/
def Reg.PRB_CAL_CTRL_AGE_LIMIT (p : Nat) : Fld := ⟨cellKey (0x010 + p) 0x20 16, 8, 10⟩
def Reg.PRB_CAL_CTRL_INTERVAL (p : Nat) : Fld := ⟨cellKey (0x010 + p) 0x20 8, 8, 10⟩
def Reg.PRB_CAL_CTRL_MODE (p : Nat) : Fld := ⟨cellKey (0x010 + p) 0x20 0, 1, 0⟩

/-- PRB_LANE_MAP_LO/HI (R43). -/
def Reg.PRB_LANE_MAP_MAP (p : Nat) : Fld := ⟨cellKey (0x010 + p) 0x24 0, 64, 0xFFFFFFFFFFFFFFFF⟩

/-- PRB_FMEAS_CTRL (R50). -/
def Reg.PRB_FMEAS_CTRL_IN_RANGE (p : Nat) : Fld := ⟨cellKey (0x010 + p) 0x30 31, 1, 0⟩
def Reg.PRB_FMEAS_CTRL_DONE (p : Nat) : Fld := ⟨cellKey (0x010 + p) 0x30 30, 1, 0⟩
def Reg.PRB_FMEAS_CTRL_CONT (p : Nat) : Fld := ⟨cellKey (0x010 + p) 0x30 8, 1, 0⟩
def Reg.PRB_FMEAS_CTRL_GATE (p : Nat) : Fld := ⟨cellKey (0x010 + p) 0x30 4, 2, 1⟩
def Reg.PRB_FMEAS_CTRL_SRC (p : Nat) : Fld := ⟨cellKey (0x010 + p) 0x30 0, 2, 0⟩

/-- PRB_FMEAS_CNT (R50). -/
def Reg.PRB_FMEAS_CNT (p : Nat) : Fld := ⟨cellKey (0x010 + p) 0x34 0, 32, 0⟩

/-- PRB_FMEAS_MIN (R50). -/
def Reg.PRB_FMEAS_MIN (p : Nat) : Fld := ⟨cellKey (0x010 + p) 0x38 0, 32, 0⟩

/-- PRB_FMEAS_MAX (R50). -/
def Reg.PRB_FMEAS_MAX (p : Nat) : Fld := ⟨cellKey (0x010 + p) 0x3C 0, 32, 0xFFFFFFFF⟩

/-- PRB_TX_CFG (R47). -/
def Reg.PRB_TX_CFG_TX_REVERSE (p : Nat) : Fld := ⟨cellKey (0x010 + p) 0x40 8, 1, 0⟩
def Reg.PRB_TX_CFG_PORT_TAG (p : Nat) : Fld := ⟨cellKey (0x010 + p) 0x40 0, 8, (p)⟩

/-- PRB_RX_CFG (R43). -/
def Reg.PRB_RX_CFG_TAG_CHECK (p : Nat) : Fld := ⟨cellKey (0x010 + p) 0x44 8, 1, 0⟩
def Reg.PRB_RX_CFG_EXP_TAG (p : Nat) : Fld := ⟨cellKey (0x010 + p) 0x44 0, 8, 0⟩

/-- PRB_EVT (R58). -/
def Reg.PRB_EVT_EVT (p : Nat) : Fld := ⟨cellKey (0x010 + p) 0x48 0, 8, 0⟩

/-- PRB_DROP (R40). -/
def Reg.PRB_DROP (p : Nat) : Fld := ⟨cellKey (0x010 + p) 0x4C 0, 32, 0⟩

/-- PRB_SKEW (R38). -/
def Reg.PRB_SKEW_LATEST (p : Nat) : Fld := ⟨cellKey (0x010 + p) 0x50 16, 4, 0⟩
def Reg.PRB_SKEW_MAX_SKEW (p : Nat) : Fld := ⟨cellKey (0x010 + p) 0x50 0, 9, 0⟩

/-- PRB_LN_CTRL (R36). -/
def Reg.PRB_LN_CTRL_TX_DEEMPH (p k : Nat) : Fld := ⟨cellKey (0x010 + p) (0x800 + 0x1000 * k) 12, 4, 0⟩
def Reg.PRB_LN_CTRL_TX_SWING (p k : Nat) : Fld := ⟨cellKey (0x010 + p) (0x800 + 0x1000 * k) 8, 4, 10⟩
def Reg.PRB_LN_CTRL_TX_INV (p k : Nat) : Fld := ⟨cellKey (0x010 + p) (0x800 + 0x1000 * k) 3, 1, 0⟩
def Reg.PRB_LN_CTRL_RX_POL (p k : Nat) : Fld := ⟨cellKey (0x010 + p) (0x800 + 0x1000 * k) 1, 2, 0⟩
def Reg.PRB_LN_CTRL_OFF (p k : Nat) : Fld := ⟨cellKey (0x010 + p) (0x800 + 0x1000 * k) 0, 1, 0⟩

/-- PRB_LN_STAT (R33). -/
def Reg.PRB_LN_STAT_CAL_AGED (p k : Nat) : Fld := ⟨cellKey (0x010 + p) (0x804 + 0x1000 * k) 24, 1, 0⟩
def Reg.PRB_LN_STAT_SKEW (p k : Nat) : Fld := ⟨cellKey (0x010 + p) (0x804 + 0x1000 * k) 8, 9, 0⟩
def Reg.PRB_LN_STAT_LOGICAL (p k : Nat) : Fld := ⟨cellKey (0x010 + p) (0x804 + 0x1000 * k) 4, 4, 15⟩
def Reg.PRB_LN_STAT_POL_INV (p k : Nat) : Fld := ⟨cellKey (0x010 + p) (0x804 + 0x1000 * k) 3, 1, 0⟩
def Reg.PRB_LN_STAT_MARKER_LOCK (p k : Nat) : Fld := ⟨cellKey (0x010 + p) (0x804 + 0x1000 * k) 2, 1, 0⟩
def Reg.PRB_LN_STAT_BLOCK_LOCK (p k : Nat) : Fld := ⟨cellKey (0x010 + p) (0x804 + 0x1000 * k) 1, 1, 0⟩
def Reg.PRB_LN_STAT_SIG_DET (p k : Nat) : Fld := ⟨cellKey (0x010 + p) (0x804 + 0x1000 * k) 0, 1, 0⟩

/-- PRB_LN_HDR_ERR (R33). -/
def Reg.PRB_LN_HDR_ERR (p k : Nat) : Fld := ⟨cellKey (0x010 + p) (0x808 + 0x1000 * k) 0, 32, 0⟩

/-- PRB_LN_MKR_ERR (R37). -/
def Reg.PRB_LN_MKR_ERR (p k : Nat) : Fld := ⟨cellKey (0x010 + p) (0x80C + 0x1000 * k) 0, 32, 0⟩

/-- PRB_LN_CAL (R54). -/
def Reg.PRB_LN_CAL_CAL_COUNT (p k : Nat) : Fld := ⟨cellKey (0x010 + p) (0x810 + 0x1000 * k) 16, 16, 0⟩
def Reg.PRB_LN_CAL_CAL_AGE (p k : Nat) : Fld := ⟨cellKey (0x010 + p) (0x810 + 0x1000 * k) 0, 16, 0⟩

/-- PRB_FCLK (R58). -/
def Reg.PRB_FCLK_TX_FCLK_ON (p : Nat) : Fld := ⟨cellKey (0x010 + p) 0x10800 1, 1, 0⟩
def Reg.PRB_FCLK_RX_FCLK_DET (p : Nat) : Fld := ⟨cellKey (0x010 + p) 0x10800 0, 1, 0⟩

/-! Block HOP (0x014): 03_capture_and_playback.md -/


/-- HOP_CTRL (R105). -/
def Reg.HOP_CTRL_EN : Fld := ⟨cellKey 0x014 0x8 0, 1, 0⟩

/-- HOP_CMD (R105). -/
def Reg.HOP_CMD_FILE : Fld := ⟨cellKey 0x014 0xC 8, 4, 0⟩
def Reg.HOP_CMD_CODE : Fld := ⟨cellKey 0x014 0xC 0, 8, 0⟩

/-- HOP_EVT_FILE (R106). -/
def Reg.HOP_EVT_FILE_DONE : Fld := ⟨cellKey 0x014 0x10 16, 16, 0⟩
def Reg.HOP_EVT_FILE_TRIGGERED : Fld := ⟨cellKey 0x014 0x10 0, 16, 0⟩

/-- HOP_PORT_CFG (R64). -/
def Reg.HOP_PORT_CFG_FILT_EN (q : Nat) : Fld := ⟨cellKey 0x014 (0x100 + 0x40 * q) 23, 1, 0⟩
def Reg.HOP_PORT_CFG_MARK_DELAY (q : Nat) : Fld := ⟨cellKey 0x014 (0x100 + 0x40 * q) 16, 7, 0⟩
def Reg.HOP_PORT_CFG_ROWS (q : Nat) : Fld := ⟨cellKey 0x014 (0x100 + 0x40 * q) 8, 8, 4⟩
def Reg.HOP_PORT_CFG_FILE (q : Nat) : Fld := ⟨cellKey 0x014 (0x100 + 0x40 * q) 4, 4, 0⟩
def Reg.HOP_PORT_CFG_DELIM (q : Nat) : Fld := ⟨cellKey 0x014 (0x100 + 0x40 * q) 1, 2, 1⟩
def Reg.HOP_PORT_CFG_EN (q : Nat) : Fld := ⟨cellKey 0x014 (0x100 + 0x40 * q) 0, 1, 0⟩

/-- HOP_PORT_LEN (R70). -/
def Reg.HOP_PORT_LEN_SLICE (q : Nat) : Fld := ⟨cellKey 0x014 (0x104 + 0x40 * q) 16, 16, 0⟩
def Reg.HOP_PORT_LEN_MAX_LEN (q : Nat) : Fld := ⟨cellKey 0x014 (0x104 + 0x40 * q) 0, 16, 16384⟩

/-- HOP_FSEL0 (R69). -/
def Reg.HOP_FSEL0_J3 (q : Nat) : Fld := ⟨cellKey 0x014 (0x108 + 0x40 * q) 24, 7, 0⟩
def Reg.HOP_FSEL0_J2 (q : Nat) : Fld := ⟨cellKey 0x014 (0x108 + 0x40 * q) 16, 7, 0⟩
def Reg.HOP_FSEL0_J1 (q : Nat) : Fld := ⟨cellKey 0x014 (0x108 + 0x40 * q) 8, 7, 0⟩
def Reg.HOP_FSEL0_J0 (q : Nat) : Fld := ⟨cellKey 0x014 (0x108 + 0x40 * q) 0, 7, 0⟩

/-- HOP_FSEL1 (R69). -/
def Reg.HOP_FSEL1_J3 (q : Nat) : Fld := ⟨cellKey 0x014 (0x10C + 0x40 * q) 24, 7, 0⟩
def Reg.HOP_FSEL1_J2 (q : Nat) : Fld := ⟨cellKey 0x014 (0x10C + 0x40 * q) 16, 7, 0⟩
def Reg.HOP_FSEL1_J1 (q : Nat) : Fld := ⟨cellKey 0x014 (0x10C + 0x40 * q) 8, 7, 0⟩
def Reg.HOP_FSEL1_J0 (q : Nat) : Fld := ⟨cellKey 0x014 (0x10C + 0x40 * q) 0, 7, 0⟩

/-- HOP_FSEL2 (R69). -/
def Reg.HOP_FSEL2_J3 (q : Nat) : Fld := ⟨cellKey 0x014 (0x110 + 0x40 * q) 24, 7, 0⟩
def Reg.HOP_FSEL2_J2 (q : Nat) : Fld := ⟨cellKey 0x014 (0x110 + 0x40 * q) 16, 7, 0⟩
def Reg.HOP_FSEL2_J1 (q : Nat) : Fld := ⟨cellKey 0x014 (0x110 + 0x40 * q) 8, 7, 0⟩
def Reg.HOP_FSEL2_J0 (q : Nat) : Fld := ⟨cellKey 0x014 (0x110 + 0x40 * q) 0, 7, 0⟩

/-- HOP_FSEL3 (R69). -/
def Reg.HOP_FSEL3_J3 (q : Nat) : Fld := ⟨cellKey 0x014 (0x114 + 0x40 * q) 24, 7, 0⟩
def Reg.HOP_FSEL3_J2 (q : Nat) : Fld := ⟨cellKey 0x014 (0x114 + 0x40 * q) 16, 7, 0⟩
def Reg.HOP_FSEL3_J1 (q : Nat) : Fld := ⟨cellKey 0x014 (0x114 + 0x40 * q) 8, 7, 0⟩
def Reg.HOP_FSEL3_J0 (q : Nat) : Fld := ⟨cellKey 0x014 (0x114 + 0x40 * q) 0, 7, 0⟩

/-- HOP_FILTERED (R69). -/
def Reg.HOP_FILTERED (q : Nat) : Fld := ⟨cellKey 0x014 (0x118 + 0x40 * q) 0, 32, 0⟩

/-- HOP_DROP (R73). -/
def Reg.HOP_DROP (q : Nat) : Fld := ⟨cellKey 0x014 (0x11C + 0x40 * q) 0, 32, 0⟩

/-- HOP_FTERM (R69). -/
def Reg.HOP_FTERM_NEG (q t : Nat) : Fld := ⟨cellKey 0x014 (0x120 + 0x40 * q + 0x4 * t) 16, 16, 0⟩
def Reg.HOP_FTERM_REQ (q t : Nat) : Fld := ⟨cellKey 0x014 (0x120 + 0x40 * q + 0x4 * t) 0, 16, 0⟩

/-- HOP_FILE (R76). -/
def Reg.HOP_FILE_FIRST_SEG (f : Nat) : Fld := ⟨cellKey 0x014 (0x400 + 0x40 * f) 16, 10, 0⟩
def Reg.HOP_FILE_KEY (f : Nat) : Fld := ⟨cellKey 0x014 (0x400 + 0x40 * f) 4, 4, 0⟩
def Reg.HOP_FILE_MODE (f : Nat) : Fld := ⟨cellKey 0x014 (0x400 + 0x40 * f) 0, 1, 0⟩

/-- HOP_FILE_NSEG (R76). -/
def Reg.HOP_FILE_NSEG (f : Nat) : Fld := ⟨cellKey 0x014 (0x404 + 0x40 * f) 0, 11, 1⟩

/-- HOP_FILE_PRE (R78). -/
def Reg.HOP_FILE_PRE (f : Nat) : Fld := ⟨cellKey 0x014 (0x408 + 0x40 * f) 0, 32, 0⟩

/-- HOP_FILE_POST (R78). -/
def Reg.HOP_FILE_POST (f : Nat) : Fld := ⟨cellKey 0x014 (0x40C + 0x40 * f) 0, 32, 0⟩

/-- HOP_FILE_STAT (R79). -/
def Reg.HOP_FILE_STAT_CUR_SEG (f : Nat) : Fld := ⟨cellKey 0x014 (0x410 + 0x40 * f) 16, 10, 0⟩
def Reg.HOP_FILE_STAT_FAULT_CAUSE (f : Nat) : Fld := ⟨cellKey 0x014 (0x410 + 0x40 * f) 8, 4, 0⟩
def Reg.HOP_FILE_STAT_POST_SHORT (f : Nat) : Fld := ⟨cellKey 0x014 (0x410 + 0x40 * f) 4, 1, 0⟩
def Reg.HOP_FILE_STAT_PRE_SHORT (f : Nat) : Fld := ⟨cellKey 0x014 (0x410 + 0x40 * f) 3, 1, 0⟩
def Reg.HOP_FILE_STAT_STATE (f : Nat) : Fld := ⟨cellKey 0x014 (0x410 + 0x40 * f) 0, 3, 0⟩

/-- HOP_FILE_TRIG_IGN (R80). -/
def Reg.HOP_FILE_TRIG_IGN (f : Nat) : Fld := ⟨cellKey 0x014 (0x414 + 0x40 * f) 0, 32, 0⟩

/-- HOP_FILE_TTS_LO/HI (R78). -/
def Reg.HOP_FILE_TTS (f : Nat) : Fld := ⟨cellKey 0x014 (0x418 + 0x40 * f) 0, 64, 0⟩

/-- HOP_FILE_TREC_LO/HI (R78). -/
def Reg.HOP_FILE_TREC (f : Nat) : Fld := ⟨cellKey 0x014 (0x420 + 0x40 * f) 0, 64, 0⟩

/-- HOP_FILE_OLD_LO/HI (R77). -/
def Reg.HOP_FILE_OLD (f : Nat) : Fld := ⟨cellKey 0x014 (0x428 + 0x40 * f) 0, 64, 0⟩

/-- HOP_SEG_BASE_LO/HI (R76). -/
def Reg.HOP_SEG_BASE (s : Nat) : Fld := ⟨cellKey 0x014 (0x10000 + 0x20 * s) 16, 30, 0⟩

/-- HOP_SEG_SIZE (R76). -/
def Reg.HOP_SEG_SIZE (s : Nat) : Fld := ⟨cellKey 0x014 (0x10008 + 0x20 * s) 0, 32, 1⟩

/-- HOP_SEG_STAT (R77). -/
def Reg.HOP_SEG_STAT_WRAPPED (s : Nat) : Fld := ⟨cellKey 0x014 (0x1000C + 0x20 * s) 2, 1, 0⟩
def Reg.HOP_SEG_STAT_STATE (s : Nat) : Fld := ⟨cellKey 0x014 (0x1000C + 0x20 * s) 0, 2, 0⟩

/-- HOP_SEG_WOFF_LO/HI (R77). -/
def Reg.HOP_SEG_WOFF (s : Nat) : Fld := ⟨cellKey 0x014 (0x10010 + 0x20 * s) 0, 64, 0⟩

/-! Block LAN (0x015): 03_capture_and_playback.md -/

/-- LAN_STAT (R94). -/
def Reg.LAN_STAT_CUR_STATE : Fld := ⟨cellKey 0x015 0x4 8, 5, 0⟩
def Reg.LAN_STAT_RUN : Fld := ⟨cellKey 0x015 0x4 0, 1, 0⟩

/-- LAN_CTRL (R94). -/
def Reg.LAN_CTRL_INIT_STATE : Fld := ⟨cellKey 0x015 0x8 0, 5, 0⟩

/-- LAN_CMD (R105). -/
def Reg.LAN_CMD_STATE : Fld := ⟨cellKey 0x015 0xC 8, 5, 0⟩
def Reg.LAN_CMD_CODE : Fld := ⟨cellKey 0x015 0xC 0, 8, 0⟩

/-- LAN_CTX_DROP (R90). -/
def Reg.LAN_CTX_DROP : Fld := ⟨cellKey 0x015 0x10 0, 32, 0⟩

/-- LAN_ARC_LAST (R89). -/
def Reg.LAN_ARC_LAST_STATE : Fld := ⟨cellKey 0x015 0x14 2, 5, 0⟩
def Reg.LAN_ARC_LAST_ARC : Fld := ⟨cellKey 0x015 0x14 0, 2, 0⟩

/-- LAN_ARC_TS_LO/HI (R87). -/
def Reg.LAN_ARC_TS : Fld := ⟨cellKey 0x015 0x18 0, 64, 0⟩

/-- LAN_MSEL (R85). -/
def Reg.LAN_MSEL_EN (i : Nat) : Fld := ⟨cellKey 0x015 (0x100 + 0x4 * i) 31, 1, 0⟩
def Reg.LAN_MSEL_ISLAND (i : Nat) : Fld := ⟨cellKey 0x015 (0x100 + 0x4 * i) 3, 7, 0⟩
def Reg.LAN_MSEL_TAP (i : Nat) : Fld := ⟨cellKey 0x015 (0x100 + 0x4 * i) 0, 3, 0⟩

/-- LAN_COND (R88). -/
def Reg.LAN_COND_NEXT (s a : Nat) : Fld := ⟨cellKey 0x015 (0x1000 + 0x40 * s + 0x10 * a) 24, 5, 0⟩
def Reg.LAN_COND_OP (s a : Nat) : Fld := ⟨cellKey 0x015 (0x1000 + 0x40 * s + 0x10 * a) 20, 2, 3⟩
def Reg.LAN_COND_EDGE_B (s a : Nat) : Fld := ⟨cellKey 0x015 (0x1000 + 0x40 * s + 0x10 * a) 19, 1, 0⟩
def Reg.LAN_COND_INV_B (s a : Nat) : Fld := ⟨cellKey 0x015 (0x1000 + 0x40 * s + 0x10 * a) 18, 1, 0⟩
def Reg.LAN_COND_SRC_B (s a : Nat) : Fld := ⟨cellKey 0x015 (0x1000 + 0x40 * s + 0x10 * a) 10, 8, 0⟩
def Reg.LAN_COND_EDGE_A (s a : Nat) : Fld := ⟨cellKey 0x015 (0x1000 + 0x40 * s + 0x10 * a) 9, 1, 0⟩
def Reg.LAN_COND_INV_A (s a : Nat) : Fld := ⟨cellKey 0x015 (0x1000 + 0x40 * s + 0x10 * a) 8, 1, 0⟩
def Reg.LAN_COND_SRC_A (s a : Nat) : Fld := ⟨cellKey 0x015 (0x1000 + 0x40 * s + 0x10 * a) 0, 8, 0⟩

/-- LAN_ACT0 (R89). -/
def Reg.LAN_ACT0_CTR_RST (s a : Nat) : Fld := ⟨cellKey 0x015 (0x1004 + 0x40 * s + 0x10 * a) 16, 16, 0⟩
def Reg.LAN_ACT0_TOUT_OP (s a : Nat) : Fld := ⟨cellKey 0x015 (0x1004 + 0x40 * s + 0x10 * a) 8, 2, 0⟩
def Reg.LAN_ACT0_TOUT_MASK (s a : Nat) : Fld := ⟨cellKey 0x015 (0x1004 + 0x40 * s + 0x10 * a) 0, 8, 0⟩

/-- LAN_ACT1 (R89). -/
def Reg.LAN_ACT1_TMR_STOP (s a : Nat) : Fld := ⟨cellKey 0x015 (0x1008 + 0x40 * s + 0x10 * a) 24, 8, 0⟩
def Reg.LAN_ACT1_TMR_START (s a : Nat) : Fld := ⟨cellKey 0x015 (0x1008 + 0x40 * s + 0x10 * a) 16, 8, 0⟩
def Reg.LAN_ACT1_HOP_TRIG (s a : Nat) : Fld := ⟨cellKey 0x015 (0x1008 + 0x40 * s + 0x10 * a) 0, 16, 0⟩

/-- LAN_ACT2 (R89). -/
def Reg.LAN_ACT2_RAISE (s a : Nat) : Fld := ⟨cellKey 0x015 (0x100C + 0x40 * s + 0x10 * a) 24, 1, 0⟩
def Reg.LAN_ACT2_RLK1 (s a : Nat) : Fld := ⟨cellKey 0x015 (0x100C + 0x40 * s + 0x10 * a) 20, 4, 0⟩
def Reg.LAN_ACT2_RLK0 (s a : Nat) : Fld := ⟨cellKey 0x015 (0x100C + 0x40 * s + 0x10 * a) 16, 4, 0⟩
def Reg.LAN_ACT2_CTX_GROUP (s a : Nat) : Fld := ⟨cellKey 0x015 (0x100C + 0x40 * s + 0x10 * a) 12, 4, 0⟩
def Reg.LAN_ACT2_CTX (s a : Nat) : Fld := ⟨cellKey 0x015 (0x100C + 0x40 * s + 0x10 * a) 9, 3, 0⟩
def Reg.LAN_ACT2_CTX_EN (s a : Nat) : Fld := ⟨cellKey 0x015 (0x100C + 0x40 * s + 0x10 * a) 8, 1, 0⟩
def Reg.LAN_ACT2_RUN_STOP (s a : Nat) : Fld := ⟨cellKey 0x015 (0x100C + 0x40 * s + 0x10 * a) 4, 4, 0⟩
def Reg.LAN_ACT2_RUN_START (s a : Nat) : Fld := ⟨cellKey 0x015 (0x100C + 0x40 * s + 0x10 * a) 0, 4, 0⟩

/-- LAN_CTR_CFG (R91). -/
def Reg.LAN_CTR_CFG_SRC (c : Nat) : Fld := ⟨cellKey 0x015 (0x3000 + 0x20 * c) 0, 8, 0xFF⟩

/-- LAN_CTR_TERM_LO/HI (R91). -/
def Reg.LAN_CTR_TERM (c : Nat) : Fld := ⟨cellKey 0x015 (0x3004 + 0x20 * c) 0, 48, 0xFFFFFFFFFFFF⟩

/-- LAN_CTR_VAL_LO/HI (R91). -/
def Reg.LAN_CTR_VAL (c : Nat) : Fld := ⟨cellKey 0x015 (0x300C + 0x20 * c) 0, 48, 0⟩

/-- LAN_TMR_CFG (R91). -/
def Reg.LAN_TMR_CFG_UNIT (t : Nat) : Fld := ⟨cellKey 0x015 (0x3200 + 0x10 * t) 0, 1, 0⟩

/-- LAN_TMR_LOAD (R91). -/
def Reg.LAN_TMR_LOAD (t : Nat) : Fld := ⟨cellKey 0x015 (0x3204 + 0x10 * t) 0, 32, 0⟩

/-- LAN_TMR_VAL (R91). -/
def Reg.LAN_TMR_VAL (t : Nat) : Fld := ⟨cellKey 0x015 (0x3208 + 0x10 * t) 0, 32, 0⟩

/-- LAN_TOUT (R92). -/
def Reg.LAN_TOUT_WIDTH (k : Nat) : Fld := ⟨cellKey 0x015 (0x3300 + 0x4 * k) 8, 8, 1⟩
def Reg.LAN_TOUT_POL (k : Nat) : Fld := ⟨cellKey 0x015 (0x3300 + 0x4 * k) 1, 1, 0⟩
def Reg.LAN_TOUT_SRC (k : Nat) : Fld := ⟨cellKey 0x015 (0x3300 + 0x4 * k) 0, 1, 0⟩

/-- LAN_TIN_CFG (R92). -/
def Reg.LAN_TIN_CFG_POL : Fld := ⟨cellKey 0x015 0x3340 0, 8, 0⟩

/-! Block RUN (0x016): 03_capture_and_playback.md -/


/-- RUN_CTRL (R104). -/
def Reg.RUN_CTRL_EN : Fld := ⟨cellKey 0x016 0x8 0, 1, 0⟩

/-- RUN_CMD (R105). -/
def Reg.RUN_CMD_CH : Fld := ⟨cellKey 0x016 0xC 8, 2, 0⟩
def Reg.RUN_CMD_CODE : Fld := ⟨cellKey 0x016 0xC 0, 8, 0⟩

/-- RUN_TPL_BASE_LO/HI (R97). -/
def Reg.RUN_TPL_BASE : Fld := ⟨cellKey 0x016 0x40 9, 37, 0⟩

/-- RUN_CH_CTRL (R95). -/
def Reg.RUN_CH_CTRL_START_ADDR (c : Nat) : Fld := ⟨cellKey 0x016 (0x100 + 0x100 * c) 0, 16, 0⟩

/-- RUN_CH_STAT (R104). -/
def Reg.RUN_CH_STAT_FAULT_CAUSE (c : Nat) : Fld := ⟨cellKey 0x016 (0x104 + 0x100 * c) 8, 4, 0⟩
def Reg.RUN_CH_STAT_STATE (c : Nat) : Fld := ⟨cellKey 0x016 (0x104 + 0x100 * c) 0, 3, 0⟩

/-- RUN_CH_PC (R101). -/
def Reg.RUN_CH_PC_PC (c : Nat) : Fld := ⟨cellKey 0x016 (0x108 + 0x100 * c) 0, 16, 0⟩

/-- RUN_CH_IGN (R104). -/
def Reg.RUN_CH_IGN (c : Nat) : Fld := ⟨cellKey 0x016 (0x10C + 0x100 * c) 0, 32, 0⟩

/-- RUN_CH_FRAMES_LO/HI (R103). -/
def Reg.RUN_CH_FRAMES (c : Nat) : Fld := ⟨cellKey 0x016 (0x110 + 0x100 * c) 0, 64, 0⟩

/-- RUN_CH_LATE (R103). -/
def Reg.RUN_CH_LATE (c : Nat) : Fld := ⟨cellKey 0x016 (0x118 + 0x100 * c) 0, 32, 0⟩

/-- RUN_CH_PRE_LO/HI (R102). -/
def Reg.RUN_CH_PRE (c : Nat) : Fld := ⟨cellKey 0x016 (0x120 + 0x100 * c) 0, 56, 0x00D5555555555555⟩

/-- RUN_CRC_CFG (R100). -/
def Reg.RUN_CRC_CFG_START (c u : Nat) : Fld := ⟨cellKey 0x016 (0x140 + 0x100 * c + 0x10 * u) 4, 14, 0⟩
def Reg.RUN_CRC_CFG_REFOUT (c u : Nat) : Fld := ⟨cellKey 0x016 (0x140 + 0x100 * c + 0x10 * u) 3, 1, 0⟩
def Reg.RUN_CRC_CFG_REFIN (c u : Nat) : Fld := ⟨cellKey 0x016 (0x140 + 0x100 * c + 0x10 * u) 2, 1, 0⟩
def Reg.RUN_CRC_CFG_WIDTH (c u : Nat) : Fld := ⟨cellKey 0x016 (0x140 + 0x100 * c + 0x10 * u) 0, 2, 0⟩

/-- RUN_CRC_POLY (R100). -/
def Reg.RUN_CRC_POLY (c u : Nat) : Fld := ⟨cellKey 0x016 (0x144 + 0x100 * c + 0x10 * u) 0, 32, 0⟩

/-- RUN_CRC_INIT (R100). -/
def Reg.RUN_CRC_INIT (c u : Nat) : Fld := ⟨cellKey 0x016 (0x148 + 0x100 * c + 0x10 * u) 0, 32, 0⟩

/-- RUN_CRC_XOR (R100). -/
def Reg.RUN_CRC_XOR (c u : Nat) : Fld := ⟨cellKey 0x016 (0x14C + 0x100 * c + 0x10 * u) 0, 32, 0⟩

/-- RUN_SRC_CFG (R96). -/
def Reg.RUN_SRC_CFG_KEY (s : Nat) : Fld := ⟨cellKey 0x016 (0x800 + 0x20 * s) 4, 4, 0⟩
def Reg.RUN_SRC_CFG_WRAP (s : Nat) : Fld := ⟨cellKey 0x016 (0x800 + 0x20 * s) 1, 1, 0⟩
def Reg.RUN_SRC_CFG_TYPE (s : Nat) : Fld := ⟨cellKey 0x016 (0x800 + 0x20 * s) 0, 1, 0⟩

/-- RUN_SRC_BASE_LO/HI (R96). -/
def Reg.RUN_SRC_BASE (s : Nat) : Fld := ⟨cellKey 0x016 (0x804 + 0x20 * s) 3, 43, 0⟩

/-- RUN_SRC_SIZE_LO/HI (R96). -/
def Reg.RUN_SRC_SIZE (s : Nat) : Fld := ⟨cellKey 0x016 (0x80C + 0x20 * s) 3, 43, 0⟩

/-- RUN_SRC_CUR_LO/HI (R96). -/
def Reg.RUN_SRC_CUR (s : Nat) : Fld := ⟨cellKey 0x016 (0x814 + 0x20 * s) 0, 64, 0⟩

/-- RUN_PROG_LO/HI (R95). -/
def Reg.RUN_PROG (n : Nat) : Fld := ⟨cellKey 0x016 (0x80000 + 0x8 * n) 0, 64, 0⟩

/-! Block MAR (0x017): 04_flows_and_counter_tree.md -/

/-- MAR_STAT (R141). -/
def Reg.MAR_STAT_BUSY : Fld := ⟨cellKey 0x017 0x4 14, 1, 0⟩
def Reg.MAR_STAT_NODE_ERR : Fld := ⟨cellKey 0x017 0x4 13, 1, 0⟩
def Reg.MAR_STAT_EXPORT_BUSY : Fld := ⟨cellKey 0x017 0x4 12, 1, 0⟩
def Reg.MAR_STAT_STATE : Fld := ⟨cellKey 0x017 0x4 0, 1, 0⟩

/-- MAR_CTRL (R141). -/
def Reg.MAR_CTRL_EP_EVT_SHIFT : Fld := ⟨cellKey 0x017 0x8 16, 5, 0⟩
def Reg.MAR_CTRL_PIPE_EN : Fld := ⟨cellKey 0x017 0x8 4, 4, 0⟩
def Reg.MAR_CTRL_RLOG_EN : Fld := ⟨cellKey 0x017 0x8 3, 1, 0⟩
def Reg.MAR_CTRL_HOLD : Fld := ⟨cellKey 0x017 0x8 2, 1, 0⟩
def Reg.MAR_CTRL_FULL_POLICY : Fld := ⟨cellKey 0x017 0x8 1, 1, 0⟩

/-- MAR_CMD (R141). -/
def Reg.MAR_CMD_FLOW : Fld := ⟨cellKey 0x017 0xC 16, 12, 0⟩
def Reg.MAR_CMD_CODE : Fld := ⟨cellKey 0x017 0xC 0, 8, 0⟩

/-- MAR_EPOCH_LEN (R129). -/
def Reg.MAR_EPOCH_LEN_LEN : Fld := ⟨cellKey 0x017 0x10 0, 20, 1000⟩

/-- MAR_AGE_TIME (R119). -/
def Reg.MAR_AGE_TIME : Fld := ⟨cellKey 0x017 0x14 0, 32, 0⟩

/-- MAR_AGE_MIN (R118). -/
def Reg.MAR_AGE_MIN : Fld := ⟨cellKey 0x017 0x18 0, 32, 0⟩

/-- MAR_SEQ_CFG (R124). -/
def Reg.MAR_SEQ_CFG_RESYNC : Fld := ⟨cellKey 0x017 0x1C 0, 32, 65536⟩

/-- MAR_HASH_SEED_LO/HI (R114). -/
def Reg.MAR_HASH_SEED : Fld := ⟨cellKey 0x017 0x20 0, 64, 0⟩

/-- MAR_LIVE (R118). -/
def Reg.MAR_LIVE : Fld := ⟨cellKey 0x017 0x28 0, 13, 0⟩

/-- MAR_HIST_CFG (R125). -/
def Reg.MAR_HIST_CFG_SHIFT (p : Nat) : Fld := ⟨cellKey 0x017 (0x30 + 0x4 * p) 8, 5, 0⟩
def Reg.MAR_HIST_CFG_MODE (p : Nat) : Fld := ⟨cellKey 0x017 (0x30 + 0x4 * p) 0, 1, 0⟩

/-- MAR_HIST_BASE (R125). -/
def Reg.MAR_HIST_BASE (p : Nat) : Fld := ⟨cellKey 0x017 (0x40 + 0x4 * p) 0, 32, 0⟩

/-- MAR_NOFLOW (R118). -/
def Reg.MAR_NOFLOW (p : Nat) : Fld := ⟨cellKey 0x017 (0x60 + 0x10 * p) 0, 32, 0⟩

/-- MAR_PIPE_DROP (R111). -/
def Reg.MAR_PIPE_DROP (p : Nat) : Fld := ⟨cellKey 0x017 (0x64 + 0x10 * p) 0, 32, 0⟩

/-- MAR_PIPE_LATE (R111). -/
def Reg.MAR_PIPE_LATE (p : Nat) : Fld := ⟨cellKey 0x017 (0x68 + 0x10 * p) 0, 32, 0⟩

/-- MAR_MISS (R116). -/
def Reg.MAR_MISS (p : Nat) : Fld := ⟨cellKey 0x017 (0x6C + 0x10 * p) 0, 32, 0⟩

/-- MAR_LOSS_LO/HI (R138). -/
def Reg.MAR_LOSS : Fld := ⟨cellKey 0x017 0xA0 0, 64, 0⟩

/-- MAR_LOSS_STAT (R138). -/
def Reg.MAR_LOSS_STAT_UNBOUNDED : Fld := ⟨cellKey 0x017 0xA8 31, 1, 0⟩
def Reg.MAR_LOSS_STAT_LEAVES : Fld := ⟨cellKey 0x017 0xA8 0, 13, 0⟩

/-- MAR_SNAP_EP_LO/HI (R130). -/
def Reg.MAR_SNAP_EP : Fld := ⟨cellKey 0x017 0xB0 0, 64, 0⟩

/-- MAR_SNAP_TS_LO/HI (R131). -/
def Reg.MAR_SNAP_TS : Fld := ⟨cellKey 0x017 0xB8 0, 64, 0⟩

/-- MAR_SNAP_FLAGS (R136). -/
def Reg.MAR_SNAP_FLAGS_REBUILT : Fld := ⟨cellKey 0x017 0xC0 31, 1, 0⟩
def Reg.MAR_SNAP_FLAGS_INEXACT : Fld := ⟨cellKey 0x017 0xC0 30, 1, 0⟩
def Reg.MAR_SNAP_FLAGS_SKIPPED : Fld := ⟨cellKey 0x017 0xC0 16, 8, 0⟩
def Reg.MAR_SNAP_FLAGS_LOST : Fld := ⟨cellKey 0x017 0xC0 0, 13, 0⟩

/-- MAR_EXP_BASE_LO/HI (R135). -/
def Reg.MAR_EXP_BASE : Fld := ⟨cellKey 0x017 0xD0 0, 46, 0⟩

/-- MAR_EXP_CFG (R135). -/
def Reg.MAR_EXP_CFG_KEY : Fld := ⟨cellKey 0x017 0xD8 4, 4, 0⟩

/-- MAR_RLOG_WR (R121). -/
def Reg.MAR_RLOG_WR : Fld := ⟨cellKey 0x017 0xE8 0, 32, 0⟩

/-- MAR_RLOG_RD (R121). -/
def Reg.MAR_RLOG_RD : Fld := ⟨cellKey 0x017 0xEC 0, 32, 0⟩

/-- MAR_RLOG_DROP (R121). -/
def Reg.MAR_RLOG_DROP : Fld := ⟨cellKey 0x017 0xF0 0, 32, 0⟩

/-- MAR_EVT (R142). -/
def Reg.MAR_EVT_EVT : Fld := ⟨cellKey 0x017 0xF4 0, 10, 0⟩

/-- MAR_INEXACT (R139). -/
def Reg.MAR_INEXACT (m : Nat) : Fld := ⟨cellKey 0x017 (0x100 + 0x4 * m) 0, 32, 0⟩

/-! Block ISL (0x040, 80 instances): 05_fabric_cells_and_contexts.md -/

/-- ISL_STAT (R180). -/
def Reg.ISL_STAT_DEGRADED (n : Nat) : Fld := ⟨cellKey (0x040 + n) 0x4 14, 1, 0⟩
def Reg.ISL_STAT_CFG_FENCE (n : Nat) : Fld := ⟨cellKey (0x040 + n) 0x4 13, 1, 0⟩
def Reg.ISL_STAT_MR_FENCE (n : Nat) : Fld := ⟨cellKey (0x040 + n) 0x4 12, 1, 0⟩
def Reg.ISL_STAT_CFG_HALF (n : Nat) : Fld := ⟨cellKey (0x040 + n) 0x4 11, 1, 0⟩
def Reg.ISL_STAT_MR_HALF (n : Nat) : Fld := ⟨cellKey (0x040 + n) 0x4 10, 1, 0⟩
def Reg.ISL_STAT_CTX_SKIP (n : Nat) : Fld := ⟨cellKey (0x040 + n) 0x4 9, 1, 0⟩
def Reg.ISL_STAT_SWITCHING (n : Nat) : Fld := ⟨cellKey (0x040 + n) 0x4 8, 1, 0⟩
def Reg.ISL_STAT_CUR_CTX (n : Nat) : Fld := ⟨cellKey (0x040 + n) 0x4 4, 3, 0⟩
def Reg.ISL_STAT_STATE (n : Nat) : Fld := ⟨cellKey (0x040 + n) 0x4 0, 4, 0⟩

/-- ISL_CTRL (R180). -/
def Reg.ISL_CTRL_RESET_CTX (n : Nat) : Fld := ⟨cellKey (0x040 + n) 0x8 0, 3, 0⟩

/-- ISL_CMD (R181). -/
def Reg.ISL_CMD_CTX (n : Nat) : Fld := ⟨cellKey (0x040 + n) 0xC 8, 3, 0⟩
def Reg.ISL_CMD_CODE (n : Nat) : Fld := ⟨cellKey (0x040 + n) 0xC 0, 8, 0⟩

/-- ISL_CTX_VALID (R171). -/
def Reg.ISL_CTX_VALID_LOADING (n : Nat) : Fld := ⟨cellKey (0x040 + n) 0x10 8, 8, 0⟩
def Reg.ISL_CTX_VALID_VALID (n : Nat) : Fld := ⟨cellKey (0x040 + n) 0x10 0, 8, 0⟩

/-- ISL_SW_CNT (R178). -/
def Reg.ISL_SW_CNT (n : Nat) : Fld := ⟨cellKey (0x040 + n) 0x14 0, 32, 0⟩

/-- ISL_SW_TS_LO/HI (R178). -/
def Reg.ISL_SW_TS (n : Nat) : Fld := ⟨cellKey (0x040 + n) 0x18 0, 64, 0⟩

/-- ISL_CTX_CUR (R171). -/
def Reg.ISL_CTX_CUR_I_CTX (n c : Nat) : Fld := ⟨cellKey (0x040 + n) (0x20 + 0x4 * c) 0, 9, 0⟩

/-- ISL_EVT (R182). -/
def Reg.ISL_EVT_CTX_SKIP (n : Nat) : Fld := ⟨cellKey (0x040 + n) 0x40 11, 1, 0⟩
def Reg.ISL_EVT_IOB_MISMATCH (n : Nat) : Fld := ⟨cellKey (0x040 + n) 0x40 10, 1, 0⟩
def Reg.ISL_EVT_FP_TMO (n : Nat) : Fld := ⟨cellKey (0x040 + n) 0x40 8, 1, 0⟩
def Reg.ISL_EVT_EVT (n : Nat) : Fld := ⟨cellKey (0x040 + n) 0x40 0, 6, 0⟩

/-- ISL_FP_CTRL (R165). -/
def Reg.ISL_FP_CTRL_TMO (n : Nat) : Fld := ⟨cellKey (0x040 + n) 0x44 8, 16, 10⟩
def Reg.ISL_FP_CTRL_EN (n : Nat) : Fld := ⟨cellKey (0x040 + n) 0x44 0, 1, 1⟩

/-- ISL_FP_STAT (R164). -/
def Reg.ISL_FP_STAT_SLV_OUT (n : Nat) : Fld := ⟨cellKey (0x040 + n) 0x48 16, 7, 0⟩
def Reg.ISL_FP_STAT_WR_OUT (n : Nat) : Fld := ⟨cellKey (0x040 + n) 0x48 8, 7, 0⟩
def Reg.ISL_FP_STAT_RD_OUT (n : Nat) : Fld := ⟨cellKey (0x040 + n) 0x48 0, 7, 0⟩

/-- ISL_FP_TMO_CNT (R165). -/
def Reg.ISL_FP_TMO_CNT (n : Nat) : Fld := ⟨cellKey (0x040 + n) 0x4C 0, 32, 0⟩

/-- ISL_FP_DISC (R164). -/
def Reg.ISL_FP_DISC (n : Nat) : Fld := ⟨cellKey (0x040 + n) 0x50 0, 32, 0⟩

/-- ISL_TAP_LIVE (R161). -/
def Reg.ISL_TAP_LIVE (n : Nat) : Fld := ⟨cellKey (0x040 + n) 0x54 0, 8, 0⟩

/-- ISL_IOB_STAT (R169). -/
def Reg.ISL_IOB_STAT_MISMATCH (n : Nat) : Fld := ⟨cellKey (0x040 + n) 0x80 31, 1, 0⟩
def Reg.ISL_IOB_STAT_VNOM (n : Nat) : Fld := ⟨cellKey (0x040 + n) 0x80 16, 2, 0⟩
def Reg.ISL_IOB_STAT_VCCIO_MV (n : Nat) : Fld := ⟨cellKey (0x040 + n) 0x80 0, 12, 0⟩

/-- ISL_IOB_MIS_LO/HI (R169). -/
def Reg.ISL_IOB_MIS (n : Nat) : Fld := ⟨cellKey (0x040 + n) 0x84 0, 48, 0⟩

/-- ISL_IOB_IN_LO/HI (R169). -/
def Reg.ISL_IOB_IN (n : Nat) : Fld := ⟨cellKey (0x040 + n) 0x8C 0, 48, 0⟩

/-- ISL_MU_VAL0 (R160). -/
def Reg.ISL_MU_VAL0 (n c t p : Nat) : Fld := ⟨cellKey (0x040 + n) (0x10000 + 0x1000 * c + 0x40 * t + 0x20 * p) 0, 32, 0⟩

/-- ISL_MU_VAL1 (R160). -/
def Reg.ISL_MU_VAL1 (n c t p : Nat) : Fld := ⟨cellKey (0x040 + n) (0x10004 + 0x1000 * c + 0x40 * t + 0x20 * p) 0, 32, 0⟩

/-- ISL_MU_MASK0 (R160). -/
def Reg.ISL_MU_MASK0 (n c t p : Nat) : Fld := ⟨cellKey (0x040 + n) (0x10008 + 0x1000 * c + 0x40 * t + 0x20 * p) 0, 32, 0⟩

/-- ISL_MU_MASK1 (R160). -/
def Reg.ISL_MU_MASK1 (n c t p : Nat) : Fld := ⟨cellKey (0x040 + n) (0x1000C + 0x1000 * c + 0x40 * t + 0x20 * p) 0, 32, 0⟩

/-- ISL_MU_CTRL (R159). -/
def Reg.ISL_MU_CTRL_ERR (n c t p : Nat) : Fld := ⟨cellKey (0x040 + n) (0x10010 + 0x1000 * c + 0x40 * t + 0x20 * p) 1, 1, 0⟩
def Reg.ISL_MU_CTRL_EN (n c t p : Nat) : Fld := ⟨cellKey (0x040 + n) (0x10010 + 0x1000 * c + 0x40 * t + 0x20 * p) 0, 1, 0⟩

/-- ISL_MU_HITS (R183). -/
def Reg.ISL_MU_HITS (n c t p : Nat) : Fld := ⟨cellKey (0x040 + n) (0x10014 + 0x1000 * c + 0x40 * t + 0x20 * p) 0, 32, 0⟩

/-- ISL_CLK_CFG (R196). -/
def Reg.ISL_CLK_CFG_FAULT_ACT (n : Nat) : Fld := ⟨cellKey (0x040 + n) 0x100 24, 1, 0⟩
def Reg.ISL_CLK_CFG_SSC_PCT (n : Nat) : Fld := ⟨cellKey (0x040 + n) 0x100 18, 3, 0⟩
def Reg.ISL_CLK_CFG_SSC_EN (n : Nat) : Fld := ⟨cellKey (0x040 + n) 0x100 16, 1, 0⟩
def Reg.ISL_CLK_CFG_POSTDIV (n : Nat) : Fld := ⟨cellKey (0x040 + n) 0x100 8, 3, 0⟩
def Reg.ISL_CLK_CFG_FBDIV (n : Nat) : Fld := ⟨cellKey (0x040 + n) 0x100 0, 7, 0⟩

/-- ISL_CLK_FRAC (R196). -/
def Reg.ISL_CLK_FRAC_FRAC (n : Nat) : Fld := ⟨cellKey (0x040 + n) 0x104 0, 24, 0⟩

/-- ISL_CLK_CTRL (R196). -/
def Reg.ISL_CLK_CTRL_REQ (n : Nat) : Fld := ⟨cellKey (0x040 + n) 0x108 0, 2, 0⟩

/-- ISL_CLK_STAT (R194). -/
def Reg.ISL_CLK_STAT_FAULT_CAUSE (n : Nat) : Fld := ⟨cellKey (0x040 + n) 0x10C 8, 4, 0⟩
def Reg.ISL_CLK_STAT_SSC_ACTIVE (n : Nat) : Fld := ⟨cellKey (0x040 + n) 0x10C 6, 1, 0⟩
def Reg.ISL_CLK_STAT_STABLE (n : Nat) : Fld := ⟨cellKey (0x040 + n) 0x10C 5, 1, 0⟩
def Reg.ISL_CLK_STAT_LOCK (n : Nat) : Fld := ⟨cellKey (0x040 + n) 0x10C 4, 1, 0⟩
def Reg.ISL_CLK_STAT_STATE (n : Nat) : Fld := ⟨cellKey (0x040 + n) 0x10C 0, 4, 0⟩

/-- ISL_CLK_MEAS (R193). -/
def Reg.ISL_CLK_MEAS (n : Nat) : Fld := ⟨cellKey (0x040 + n) 0x110 0, 32, 0⟩

/-- ISL_PWR_CTRL (R199). -/
def Reg.ISL_PWR_CTRL_REQ (n : Nat) : Fld := ⟨cellKey (0x040 + n) 0x118 0, 1, 0⟩

/-- ISL_PWR_STAT (R199). -/
def Reg.ISL_PWR_STAT_PSTATE (n : Nat) : Fld := ⟨cellKey (0x040 + n) 0x11C 0, 3, 0⟩

/-- ISL_SLC_CTRL (R205). -/
def Reg.ISL_SLC_CTRL_FLUSH (n e : Nat) : Fld := ⟨cellKey (0x040 + n) (0x140 + 0x4 * e) 8, 4, 0⟩
def Reg.ISL_SLC_CTRL_EN (n e : Nat) : Fld := ⟨cellKey (0x040 + n) (0x140 + 0x4 * e) 0, 4, 0xF⟩

/-- ISL_SLC_STAT (R204). -/
def Reg.ISL_SLC_STAT_STALL (n e : Nat) : Fld := ⟨cellKey (0x040 + n) (0x150 + 0x4 * e) 24, 4, 0⟩
def Reg.ISL_SLC_STAT_OCC (n e : Nat) : Fld := ⟨cellKey (0x040 + n) (0x150 + 0x4 * e) 0, 20, 0⟩

/-- ISL_SLC_DROP (R204). -/
def Reg.ISL_SLC_DROP (n e : Nat) : Fld := ⟨cellKey (0x040 + n) (0x160 + 0x4 * e) 0, 32, 0⟩

/-- ISL_VB_CFG (R234). -/
def Reg.ISL_VB_CFG_CONTENTION (n : Nat) : Fld := ⟨cellKey (0x040 + n) 0x300 31, 1, 0⟩
def Reg.ISL_VB_CFG_REC_LOST (n : Nat) : Fld := ⟨cellKey (0x040 + n) 0x300 30, 1, 0⟩
def Reg.ISL_VB_CFG_MODE (n : Nat) : Fld := ⟨cellKey (0x040 + n) 0x300 24, 2, 0⟩
def Reg.ISL_VB_CFG_LAST_GRP (n : Nat) : Fld := ⟨cellKey (0x040 + n) 0x300 16, 7, 0⟩
def Reg.ISL_VB_CFG_LAST_WIRE (n : Nat) : Fld := ⟨cellKey (0x040 + n) 0x300 8, 7, 0⟩
def Reg.ISL_VB_CFG_REPAIRS (n : Nat) : Fld := ⟨cellKey (0x040 + n) 0x300 0, 8, 0⟩

/-- ISL_VB_MR (R234). -/
def Reg.ISL_VB_MR_CONTENTION (n : Nat) : Fld := ⟨cellKey (0x040 + n) 0x304 31, 1, 0⟩
def Reg.ISL_VB_MR_REC_LOST (n : Nat) : Fld := ⟨cellKey (0x040 + n) 0x304 30, 1, 0⟩
def Reg.ISL_VB_MR_MODE (n : Nat) : Fld := ⟨cellKey (0x040 + n) 0x304 24, 2, 0⟩
def Reg.ISL_VB_MR_LAST_GRP (n : Nat) : Fld := ⟨cellKey (0x040 + n) 0x304 16, 7, 0⟩
def Reg.ISL_VB_MR_LAST_WIRE (n : Nat) : Fld := ⟨cellKey (0x040 + n) 0x304 8, 7, 0⟩
def Reg.ISL_VB_MR_REPAIRS (n : Nat) : Fld := ⟨cellKey (0x040 + n) 0x304 0, 8, 0⟩

/-- ISL_MR_CTRL (R216). -/
def Reg.ISL_MR_CTRL_KEY (n : Nat) : Fld := ⟨cellKey (0x040 + n) 0x310 4, 4, 0⟩
def Reg.ISL_MR_CTRL_EN (n : Nat) : Fld := ⟨cellKey (0x040 + n) 0x310 0, 1, 1⟩

/-- ISL_MR_STAT (R222). -/
def Reg.ISL_MR_STAT_DIR (n : Nat) : Fld := ⟨cellKey (0x040 + n) 0x314 8, 2, 0⟩
def Reg.ISL_MR_STAT_OUT (n : Nat) : Fld := ⟨cellKey (0x040 + n) 0x314 0, 5, 0⟩

/-- ISL_MR_BUSERR (R216). -/
def Reg.ISL_MR_BUSERR (n : Nat) : Fld := ⟨cellKey (0x040 + n) 0x318 0, 32, 0⟩

/-- ISL_MR_UE (R219). -/
def Reg.ISL_MR_UE (n : Nat) : Fld := ⟨cellKey (0x040 + n) 0x31C 0, 32, 0⟩

/-- ISL_MR_ROWS_LO/HI (R234). -/
def Reg.ISL_MR_ROWS (n : Nat) : Fld := ⟨cellKey (0x040 + n) 0x320 0, 64, 0⟩

/-! Block CLK (0x006): 06_islands_clocks_and_sluices.md -/

/-- CLK_STAT (R186). -/
def Reg.CLK_STAT_HOLDOVER : Fld := ⟨cellKey 0x006 0x4 2, 1, 0⟩
def Reg.CLK_STAT_JUDGE_SRC : Fld := ⟨cellKey 0x006 0x4 0, 2, 0⟩

/-- CLK_REF_CFG (R187). -/
def Reg.CLK_REF_CFG_AUTO_SW : Fld := ⟨cellKey 0x006 0x8 3, 1, 0⟩
def Reg.CLK_REF_CFG_FREQ_B : Fld := ⟨cellKey 0x006 0x8 2, 1, 0⟩
def Reg.CLK_REF_CFG_FREQ_A : Fld := ⟨cellKey 0x006 0x8 1, 1, 0⟩
def Reg.CLK_REF_CFG_SEL : Fld := ⟨cellKey 0x006 0x8 0, 1, 0⟩

/-- CLK_REF_STAT (R185). -/
def Reg.CLK_REF_STAT_PPM_B : Fld := ⟨cellKey 0x006 0xC 16, 16, 0⟩
def Reg.CLK_REF_STAT_PPM_A : Fld := ⟨cellKey 0x006 0xC 4, 12, 0⟩
def Reg.CLK_REF_STAT_CAL_PRES : Fld := ⟨cellKey 0x006 0xC 2, 1, 0⟩
def Reg.CLK_REF_STAT_B_PRES : Fld := ⟨cellKey 0x006 0xC 1, 1, 0⟩
def Reg.CLK_REF_STAT_A_PRES : Fld := ⟨cellKey 0x006 0xC 0, 1, 0⟩

/-- CLK_JUDGE_CFG (R193). -/
def Reg.CLK_JUDGE_CFG_PASSES : Fld := ⟨cellKey 0x006 0x10 24, 4, 3⟩
def Reg.CLK_JUDGE_CFG_TOL : Fld := ⟨cellKey 0x006 0x10 12, 12, 200⟩
def Reg.CLK_JUDGE_CFG_GATE : Fld := ⟨cellKey 0x006 0x10 0, 12, 1000⟩

/-- CLK_CORE_CFG (R189). -/
def Reg.CLK_CORE_CFG_SSC_EN : Fld := ⟨cellKey 0x006 0x14 8, 1, 0⟩
def Reg.CLK_CORE_CFG_SSC_PCT : Fld := ⟨cellKey 0x006 0x14 4, 3, 0⟩
def Reg.CLK_CORE_CFG_FREQ : Fld := ⟨cellKey 0x006 0x14 0, 3, 0⟩

/-- CLK_CLS_STAT (R190). -/
def Reg.CLK_CLS_STAT_FALLBACK : Fld := ⟨cellKey 0x006 0x18 16, 6, 0⟩
def Reg.CLK_CLS_STAT_LOCK : Fld := ⟨cellKey 0x006 0x18 0, 6, 0⟩

/-- CLK_EVT (R207). -/
def Reg.CLK_EVT_EVT : Fld := ⟨cellKey 0x006 0x1C 0, 4, 0⟩

/-! Block SRM (0x090): 08_sram_layer.md -/

/-- SRM_STAT (R258). -/
def Reg.SRM_STAT_TEST_BUSY : Fld := ⟨cellKey 0x090 0x4 1, 1, 0⟩
def Reg.SRM_STAT_WIPING : Fld := ⟨cellKey 0x090 0x4 0, 1, 0⟩

/-- SRM_CTRL (R251). -/
def Reg.SRM_CTRL_TEST_EN : Fld := ⟨cellKey 0x090 0x8 0, 1, 0⟩

/-- SRM_CMD (R261). -/
def Reg.SRM_CMD_CODE : Fld := ⟨cellKey 0x090 0xC 0, 8, 0⟩

/-- SRM_TT_CFG (R253). -/
def Reg.SRM_TT_CFG_PERIOD : Fld := ⟨cellKey 0x090 0x10 0, 16, 100⟩

/-- SRM_LB_CFG (R250). -/
def Reg.SRM_LB_CFG_LEAK : Fld := ⟨cellKey 0x090 0x14 8, 16, 1000⟩
def Reg.SRM_LB_CFG_THRESH : Fld := ⟨cellKey 0x090 0x14 0, 8, 16⟩

/-- SRM_TEST_ADDR_LO/HI (R251). -/
def Reg.SRM_TEST_ADDR : Fld := ⟨cellKey 0x090 0x20 0, 64, 0⟩

/-- SRM_TEST_DATA_LO/HI (R251). -/
def Reg.SRM_TEST_DATA : Fld := ⟨cellKey 0x090 0x28 0, 64, 0⟩

/-- SRM_TEST_CHK (R251). -/
def Reg.SRM_TEST_CHK_CHK : Fld := ⟨cellKey 0x090 0x30 0, 16, 0⟩

/-- SRM_ERR_ADDR_LO/HI (R249). -/
def Reg.SRM_ERR_ADDR : Fld := ⟨cellKey 0x090 0x40 0, 64, 0⟩

/-- SRM_ERR_INFO (R249). -/
def Reg.SRM_ERR_INFO_VALID : Fld := ⟨cellKey 0x090 0x48 31, 1, 0⟩
def Reg.SRM_ERR_INFO_OVF : Fld := ⟨cellKey 0x090 0x48 30, 1, 0⟩
def Reg.SRM_ERR_INFO_KIND : Fld := ⟨cellKey 0x090 0x48 28, 2, 0⟩
def Reg.SRM_ERR_INFO_PATH : Fld := ⟨cellKey 0x090 0x48 24, 2, 0⟩
def Reg.SRM_ERR_INFO_KEY : Fld := ⟨cellKey 0x090 0x48 16, 4, 0⟩
def Reg.SRM_ERR_INFO_ID : Fld := ⟨cellKey 0x090 0x48 0, 12, 0⟩

/-- SRM_EVT (R262). -/
def Reg.SRM_EVT_EVT : Fld := ⟨cellKey 0x090 0x50 0, 7, 0⟩

/-- SRM_SEC (R258). -/
def Reg.SRM_SEC_WIPE_CNT : Fld := ⟨cellKey 0x090 0x60 0, 16, 0⟩

/-! Block SRB (0x0A0, 81 instances): 08_sram_layer.md -/


/-- SRM_BANK_CTRL (R256). -/
def Reg.SRM_BANK_CTRL_RING_SHARE (b : Nat) : Fld := ⟨cellKey (0x0A0 + b) 0x8 4, 2, 2⟩
def Reg.SRM_BANK_CTRL_AUTO_WAKE (b : Nat) : Fld := ⟨cellKey (0x0A0 + b) 0x8 2, 1, 1⟩
def Reg.SRM_BANK_CTRL_TT_EN (b : Nat) : Fld := ⟨cellKey (0x0A0 + b) 0x8 1, 1, 1⟩
def Reg.SRM_BANK_CTRL_RET (b : Nat) : Fld := ⟨cellKey (0x0A0 + b) 0x8 0, 1, 0⟩

/-- SRM_BANK_CMD (R261). -/
def Reg.SRM_BANK_CMD_REGION (b : Nat) : Fld := ⟨cellKey (0x0A0 + b) 0xC 16, 12, 0⟩
def Reg.SRM_BANK_CMD_CODE (b : Nat) : Fld := ⟨cellKey (0x0A0 + b) 0xC 0, 8, 0⟩

/-- SRM_BANK_PSTAT (R256). -/
def Reg.SRM_BANK_PSTAT_PSTATE (b : Nat) : Fld := ⟨cellKey (0x0A0 + b) 0x10 0, 2, 0⟩

/-- SRM_BANK_CE (R246). -/
def Reg.SRM_BANK_CE (b : Nat) : Fld := ⟨cellKey (0x0A0 + b) 0x14 0, 32, 0⟩

/-- SRM_BANK_UE (R247). -/
def Reg.SRM_BANK_UE (b : Nat) : Fld := ⟨cellKey (0x0A0 + b) 0x18 0, 32, 0⟩

/-- SRM_BANK_LB (R250). -/
def Reg.SRM_BANK_LB_TRIP (b : Nat) : Fld := ⟨cellKey (0x0A0 + b) 0x1C 31, 1, 0⟩
def Reg.SRM_BANK_LB_LEVEL (b : Nat) : Fld := ⟨cellKey (0x0A0 + b) 0x1C 0, 8, 0⟩

/-- SRM_BANK_TT (R253). -/
def Reg.SRM_BANK_TT_PASSES (b : Nat) : Fld := ⟨cellKey (0x0A0 + b) 0x20 16, 16, 0⟩
def Reg.SRM_BANK_TT_REGION (b : Nat) : Fld := ⟨cellKey (0x0A0 + b) 0x20 0, 12, 0⟩

/-- SRM_BANK_REP (R255). -/
def Reg.SRM_BANK_REP_UNREPAIRED (b : Nat) : Fld := ⟨cellKey (0x0A0 + b) 0x24 31, 1, 0⟩
def Reg.SRM_BANK_REP_SPARES_USED (b : Nat) : Fld := ⟨cellKey (0x0A0 + b) 0x24 0, 8, 0⟩

/-! Block HUB (0x0F0): 07_vertical_bundles_and_millrace.md -/

/-- SRM_VB_HUB (R234). -/
def Reg.SRM_VB_HUB_CONTENTION (h : Nat) : Fld := ⟨cellKey 0x0F0 (0x300 + 0x4 * h) 31, 1, 0⟩
def Reg.SRM_VB_HUB_REC_LOST (h : Nat) : Fld := ⟨cellKey 0x0F0 (0x300 + 0x4 * h) 30, 1, 0⟩
def Reg.SRM_VB_HUB_MODE (h : Nat) : Fld := ⟨cellKey 0x0F0 (0x300 + 0x4 * h) 24, 2, 0⟩
def Reg.SRM_VB_HUB_LAST_GRP (h : Nat) : Fld := ⟨cellKey 0x0F0 (0x300 + 0x4 * h) 16, 7, 0⟩
def Reg.SRM_VB_HUB_LAST_WIRE (h : Nat) : Fld := ⟨cellKey 0x0F0 (0x300 + 0x4 * h) 8, 7, 0⟩
def Reg.SRM_VB_HUB_REPAIRS (h : Nat) : Fld := ⟨cellKey 0x0F0 (0x300 + 0x4 * h) 0, 8, 0⟩

/-! Block HBM (0x020): 09_hbm_stack.md -/

/-- HBM_STAT (R290). -/
def Reg.HBM_STAT_HOT : Fld := ⟨cellKey 0x020 0x4 10, 1, 0⟩
def Reg.HBM_STAT_MIGRATING : Fld := ⟨cellKey 0x020 0x4 9, 1, 0⟩
def Reg.HBM_STAT_FILLED : Fld := ⟨cellKey 0x020 0x4 8, 1, 0⟩
def Reg.HBM_STAT_FAULT : Fld := ⟨cellKey 0x020 0x4 4, 3, 0⟩
def Reg.HBM_STAT_STATE : Fld := ⟨cellKey 0x020 0x4 0, 3, 0⟩

/-- HBM_CTRL (R290). -/
def Reg.HBM_CTRL_INIT_FILL : Fld := ⟨cellKey 0x020 0x8 1, 1, 1⟩
def Reg.HBM_CTRL_EN : Fld := ⟨cellKey 0x020 0x8 0, 1, 0⟩

/-- HBM_CMD (R293). -/
def Reg.HBM_CMD_RANK : Fld := ⟨cellKey 0x020 0xC 8, 6, 0⟩
def Reg.HBM_CMD_CODE : Fld := ⟨cellKey 0x020 0xC 0, 8, 0⟩

/-- HBM_MODE (R22). -/
def Reg.HBM_MODE_SPARE : Fld := ⟨cellKey 0x020 0x10 4, 2, 1⟩
def Reg.HBM_MODE_BW : Fld := ⟨cellKey 0x020 0x10 0, 2, 1⟩

/-- HBM_MAP (R268). -/
def Reg.HBM_MAP_PRESET : Fld := ⟨cellKey 0x020 0x14 0, 2, 1⟩

/-- HBM_MAP_PCX (R268). -/
def Reg.HBM_MAP_PCX_MASK (j : Nat) : Fld := ⟨cellKey 0x020 (0x18 + 0x4 * j) 0, 20, (pcxRst j)⟩

/-- HBM_MAP_BKX (R268). -/
def Reg.HBM_MAP_BKX_MASK (j : Nat) : Fld := ⟨cellKey 0x020 (0x28 + 0x4 * j) 0, 15, (bkxRst j)⟩

/-- HBM_REF_CFG (R274). -/
def Reg.HBM_REF_CFG_PNR_SHIFT : Fld := ⟨cellKey 0x020 0x40 8, 5, 8⟩
def Reg.HBM_REF_CFG_MODE : Fld := ⟨cellKey 0x020 0x40 0, 1, 0⟩

/-- HBM_TEMP (R275). -/
def Reg.HBM_TEMP_HOT : Fld := ⟨cellKey 0x020 0x44 31, 1, 0⟩
def Reg.HBM_TEMP_AST_MAX : Fld := ⟨cellKey 0x020 0x44 8, 8, 0⟩
def Reg.HBM_TEMP_DIE_MAX : Fld := ⟨cellKey 0x020 0x44 0, 8, 0⟩

/-- HBM_MIG_CFG (R286). -/
def Reg.HBM_MIG_CFG_AUTO : Fld := ⟨cellKey 0x020 0x50 31, 1, 1⟩
def Reg.HBM_MIG_CFG_MIG_PCT : Fld := ⟨cellKey 0x020 0x50 0, 6, 10⟩

/-- HBM_MIG_STAT (R287). -/
def Reg.HBM_MIG_STAT_ACTIVE : Fld := ⟨cellKey 0x020 0x54 31, 1, 0⟩
def Reg.HBM_MIG_STAT_DST : Fld := ⟨cellKey 0x020 0x54 16, 6, 0⟩
def Reg.HBM_MIG_STAT_SRC : Fld := ⟨cellKey 0x020 0x54 8, 6, 0⟩
def Reg.HBM_MIG_STAT_PROGRESS : Fld := ⟨cellKey 0x020 0x54 0, 8, 0⟩

/-- HBM_LB_CFG (R285). -/
def Reg.HBM_LB_CFG_UE_WEIGHT : Fld := ⟨cellKey 0x020 0x58 24, 8, 8⟩
def Reg.HBM_LB_CFG_LEAK : Fld := ⟨cellKey 0x020 0x58 8, 16, 1000⟩
def Reg.HBM_LB_CFG_THRESH : Fld := ⟨cellKey 0x020 0x58 0, 8, 32⟩

/-- HBM_SCRUB_CTRL (R284). -/
def Reg.HBM_SCRUB_CTRL_EN : Fld := ⟨cellKey 0x020 0x60 0, 1, 1⟩

/-- HBM_SCRUB_STAT (R284). -/
def Reg.HBM_SCRUB_STAT_PASSES : Fld := ⟨cellKey 0x020 0x64 16, 16, 0⟩
def Reg.HBM_SCRUB_STAT_PAUSED : Fld := ⟨cellKey 0x020 0x64 0, 1, 0⟩

/-- HBM_SCRUB_AMBIG (R284). -/
def Reg.HBM_SCRUB_AMBIG : Fld := ⟨cellKey 0x020 0x68 0, 32, 0⟩

/-- HBM_SCRUB_UE (R284). -/
def Reg.HBM_SCRUB_UE : Fld := ⟨cellKey 0x020 0x6C 0, 32, 0⟩

/-- HBM_ERRLOG_ADDR_LO/HI (R279). -/
def Reg.HBM_ERRLOG_ADDR : Fld := ⟨cellKey 0x020 0x70 0, 64, 0⟩

/-- HBM_ERRLOG_INFO (R279). -/
def Reg.HBM_ERRLOG_INFO_VALID : Fld := ⟨cellKey 0x020 0x78 31, 1, 0⟩
def Reg.HBM_ERRLOG_INFO_OVF : Fld := ⟨cellKey 0x020 0x78 30, 1, 0⟩
def Reg.HBM_ERRLOG_INFO_KIND : Fld := ⟨cellKey 0x020 0x78 28, 2, 0⟩
def Reg.HBM_ERRLOG_INFO_KMIS : Fld := ⟨cellKey 0x020 0x78 27, 1, 0⟩
def Reg.HBM_ERRLOG_INFO_KEY_V : Fld := ⟨cellKey 0x020 0x78 26, 1, 0⟩
def Reg.HBM_ERRLOG_INFO_RANK : Fld := ⟨cellKey 0x020 0x78 20, 6, 0⟩
def Reg.HBM_ERRLOG_INFO_KEY : Fld := ⟨cellKey 0x020 0x78 16, 4, 0⟩
def Reg.HBM_ERRLOG_INFO_PATH : Fld := ⟨cellKey 0x020 0x78 12, 2, 0⟩
def Reg.HBM_ERRLOG_INFO_ID : Fld := ⟨cellKey 0x020 0x78 0, 12, 0⟩

/-- HBM_ERRLOG_SYN (R279). -/
def Reg.HBM_ERRLOG_SYN_SC : Fld := ⟨cellKey 0x020 0x7C 16, 16, 0⟩
def Reg.HBM_ERRLOG_SYN_SR : Fld := ⟨cellKey 0x020 0x7C 0, 16, 0⟩

/-- HBM_EVT (R294). -/
def Reg.HBM_EVT_EVT : Fld := ⟨cellKey 0x020 0x80 0, 9, 0⟩

/-- HBM_TIMING (R295). -/
def Reg.HBM_TIMING_TRC : Fld := ⟨cellKey 0x020 0x90 24, 8, 81⟩
def Reg.HBM_TIMING_TRCD : Fld := ⟨cellKey 0x020 0x90 16, 8, 26⟩
def Reg.HBM_TIMING_TRP : Fld := ⟨cellKey 0x020 0x90 8, 8, 26⟩
def Reg.HBM_TIMING_TFAW : Fld := ⟨cellKey 0x020 0x90 0, 8, 29⟩

/-- HBM_RANK (R286). -/
def Reg.HBM_RANK_BAD (r : Nat) : Fld := ⟨cellKey 0x020 (0x100 + 0x4 * r) 16, 1, 0⟩
def Reg.HBM_RANK_ROLE (r : Nat) : Fld := ⟨cellKey 0x020 (0x100 + 0x4 * r) 8, 2, (roleRst r)⟩
def Reg.HBM_RANK_PHYS (r : Nat) : Fld := ⟨cellKey 0x020 (0x100 + 0x4 * r) 0, 6, (r)⟩

/-- HBM_VB_COL (R234). -/
def Reg.HBM_VB_COL_CONTENTION : Fld := ⟨cellKey 0x020 0x300 31, 1, 0⟩
def Reg.HBM_VB_COL_REC_LOST : Fld := ⟨cellKey 0x020 0x300 30, 1, 0⟩
def Reg.HBM_VB_COL_MODE : Fld := ⟨cellKey 0x020 0x300 24, 2, 0⟩
def Reg.HBM_VB_COL_LAST_GRP : Fld := ⟨cellKey 0x020 0x300 16, 7, 0⟩
def Reg.HBM_VB_COL_LAST_WIRE : Fld := ⟨cellKey 0x020 0x300 8, 7, 0⟩
def Reg.HBM_VB_COL_REPAIRS : Fld := ⟨cellKey 0x020 0x300 0, 8, 0⟩

/-- HBM_VB_PC (R234). -/
def Reg.HBM_VB_PC_FENCED : Fld := ⟨cellKey 0x020 0x304 16, 16, 0⟩
def Reg.HBM_VB_PC_HALF : Fld := ⟨cellKey 0x020 0x304 0, 16, 0⟩

/-! Block PC (0x030, 16 instances): 09_hbm_stack.md -/


/-- HBM_PC_CE (R281). -/
def Reg.HBM_PC_CE (i : Nat) : Fld := ⟨cellKey (0x030 + i) 0x10 0, 32, 0⟩

/-- HBM_PC_UE (R279). -/
def Reg.HBM_PC_UE (i : Nat) : Fld := ⟨cellKey (0x030 + i) 0x14 0, 32, 0⟩

/-- HBM_PC_KMIS (R279). -/
def Reg.HBM_PC_KMIS (i : Nat) : Fld := ⟨cellKey (0x030 + i) 0x18 0, 32, 0⟩

/-- HBM_PC_NREF (R276). -/
def Reg.HBM_PC_NREF (i : Nat) : Fld := ⟨cellKey (0x030 + i) 0x1C 0, 32, 0⟩

/-- HBM_PC_LB (R285). -/
def Reg.HBM_PC_LB_TRIP (i s : Nat) : Fld := ⟨cellKey (0x030 + i) (0x20 + 0x4 * s) 31, 1, 0⟩
def Reg.HBM_PC_LB_LEVEL (i s : Nat) : Fld := ⟨cellKey (0x030 + i) (0x20 + 0x4 * s) 0, 8, 0⟩

/-- HBM_PC_TRAIN (R291). -/
def Reg.HBM_PC_TRAIN_PASS (i : Nat) : Fld := ⟨cellKey (0x030 + i) 0x30 31, 1, 0⟩
def Reg.HBM_PC_TRAIN_RD_MARGIN (i : Nat) : Fld := ⟨cellKey (0x030 + i) 0x30 8, 8, 0⟩
def Reg.HBM_PC_TRAIN_WR_MARGIN (i : Nat) : Fld := ⟨cellKey (0x030 + i) 0x30 0, 8, 0⟩

/-- HBM_PC_RD_LO/HI (R296). -/
def Reg.HBM_PC_RD (i : Nat) : Fld := ⟨cellKey (0x030 + i) 0x40 0, 64, 0⟩

/-- HBM_PC_WR_LO/HI (R296). -/
def Reg.HBM_PC_WR (i : Nat) : Fld := ⟨cellKey (0x030 + i) 0x48 0, 64, 0⟩

/-- HBM_PC_QSTAT (R271). -/
def Reg.HBM_PC_QSTAT_WQ (i : Nat) : Fld := ⟨cellKey (0x030 + i) 0x50 16, 7, 0⟩
def Reg.HBM_PC_QSTAT_RQ (i : Nat) : Fld := ⟨cellKey (0x030 + i) 0x50 0, 7, 0⟩

/-! Block NOC (0x008): 10_on_chip_network.md -/

/-- NOC_STAT (R312). -/
def Reg.NOC_STAT_RECOVERY : Fld := ⟨cellKey 0x008 0x4 0, 1, 0⟩

/-- NOC_CMD (R319). -/
def Reg.NOC_CMD_TARGET : Fld := ⟨cellKey 0x008 0xC 16, 7, 0⟩
def Reg.NOC_CMD_CODE : Fld := ⟨cellKey 0x008 0xC 0, 8, 0⟩

/-- NOC_DRAIN_TMO (R315). -/
def Reg.NOC_DRAIN_TMO : Fld := ⟨cellKey 0x008 0x10 0, 16, 10⟩

/-- NOC_BARRIER (R312). -/
def Reg.NOC_BARRIER_COUNT : Fld := ⟨cellKey 0x008 0x14 16, 16, 0⟩
def Reg.NOC_BARRIER_CAUSE : Fld := ⟨cellKey 0x008 0x14 0, 4, 0⟩

/-- NOC_EVT (R320). -/
def Reg.NOC_EVT_EVT : Fld := ⟨cellKey 0x008 0x18 0, 8, 0⟩

/-- NOC_COH_WIN_BASE_LO/HI (R303). -/
def Reg.NOC_COH_WIN_BASE (w : Nat) : Fld := ⟨cellKey 0x008 (0x40 + 0x10 * w) 12, 34, 0⟩

/-- NOC_COH_WIN_SIZE (R303). -/
def Reg.NOC_COH_WIN_SIZE (w : Nat) : Fld := ⟨cellKey 0x008 (0x48 + 0x10 * w) 0, 24, 0⟩

/-- NOC_COH_WIN_CTL (R303). -/
def Reg.NOC_COH_WIN_CTL_EN (w : Nat) : Fld := ⟨cellKey 0x008 (0x4C + 0x10 * w) 0, 1, 0⟩

/-- NOC_TRACE_BASE_LO/HI (R318). -/
def Reg.NOC_TRACE_BASE : Fld := ⟨cellKey 0x008 0x80 12, 34, 0⟩

/-- NOC_TRACE_SIZE (R318). -/
def Reg.NOC_TRACE_SIZE : Fld := ⟨cellKey 0x008 0x88 0, 16, 1⟩

/-- NOC_TRACE_KEY (R318). -/
def Reg.NOC_TRACE_KEY : Fld := ⟨cellKey 0x008 0x8C 0, 4, 0⟩

/-- NOC_TRACE_WR (R318). -/
def Reg.NOC_TRACE_WR : Fld := ⟨cellKey 0x008 0x90 0, 32, 0⟩

/-- NOC_TRACE_RD (R318). -/
def Reg.NOC_TRACE_RD : Fld := ⟨cellKey 0x008 0x94 0, 32, 0⟩

/-- NOC_PROBE_CFG (R317). -/
def Reg.NOC_PROBE_CFG_EN (k : Nat) : Fld := ⟨cellKey 0x008 (0x800 + 0x40 * k) 31, 1, 0⟩
def Reg.NOC_PROBE_CFG_MODE (k : Nat) : Fld := ⟨cellKey 0x008 (0x800 + 0x40 * k) 28, 2, 0⟩
def Reg.NOC_PROBE_CFG_NET (k : Nat) : Fld := ⟨cellKey 0x008 (0x800 + 0x40 * k) 24, 2, 0⟩
def Reg.NOC_PROBE_CFG_KIND (k : Nat) : Fld := ⟨cellKey 0x008 (0x800 + 0x40 * k) 23, 1, 0⟩
def Reg.NOC_PROBE_CFG_POINT (k : Nat) : Fld := ⟨cellKey 0x008 (0x800 + 0x40 * k) 16, 7, 0⟩
def Reg.NOC_PROBE_CFG_PORT (k : Nat) : Fld := ⟨cellKey 0x008 (0x800 + 0x40 * k) 8, 3, 0⟩
def Reg.NOC_PROBE_CFG_URG_MIN (k : Nat) : Fld := ⟨cellKey 0x008 (0x800 + 0x40 * k) 0, 3, 0⟩

/-- NOC_PROBE_FILT (R317). -/
def Reg.NOC_PROBE_FILT_SRC_EN (k : Nat) : Fld := ⟨cellKey 0x008 (0x804 + 0x40 * k) 31, 1, 0⟩
def Reg.NOC_PROBE_FILT_DST_EN (k : Nat) : Fld := ⟨cellKey 0x008 (0x804 + 0x40 * k) 30, 1, 0⟩
def Reg.NOC_PROBE_FILT_KEY_EN (k : Nat) : Fld := ⟨cellKey 0x008 (0x804 + 0x40 * k) 29, 1, 0⟩
def Reg.NOC_PROBE_FILT_SRC (k : Nat) : Fld := ⟨cellKey 0x008 (0x804 + 0x40 * k) 16, 7, 0⟩
def Reg.NOC_PROBE_FILT_DST (k : Nat) : Fld := ⟨cellKey 0x008 (0x804 + 0x40 * k) 8, 7, 0⟩
def Reg.NOC_PROBE_FILT_KEY (k : Nat) : Fld := ⟨cellKey 0x008 (0x804 + 0x40 * k) 0, 4, 0⟩

/-- NOC_PROBE_AMATCH_LO/HI (R317). -/
def Reg.NOC_PROBE_AMATCH (k : Nat) : Fld := ⟨cellKey 0x008 (0x808 + 0x40 * k) 0, 64, 0⟩

/-- NOC_PROBE_AMASK_LO/HI (R317). -/
def Reg.NOC_PROBE_AMASK (k : Nat) : Fld := ⟨cellKey 0x008 (0x810 + 0x40 * k) 0, 64, 0⟩

/-- NOC_PROBE_PKTS_LO/HI (R317). -/
def Reg.NOC_PROBE_PKTS (k : Nat) : Fld := ⟨cellKey 0x008 (0x818 + 0x40 * k) 0, 64, 0⟩

/-- NOC_PROBE_FLITS_LO/HI (R317). -/
def Reg.NOC_PROBE_FLITS (k : Nat) : Fld := ⟨cellKey 0x008 (0x820 + 0x40 * k) 0, 64, 0⟩

/-- NOC_PROBE_LMAX (R317). -/
def Reg.NOC_PROBE_LMAX (k : Nat) : Fld := ⟨cellKey 0x008 (0x828 + 0x40 * k) 0, 32, 0⟩

/-- NOC_PROBE_LSUM_LO/HI (R317). -/
def Reg.NOC_PROBE_LSUM (k : Nat) : Fld := ⟨cellKey 0x008 (0x830 + 0x40 * k) 0, 64, 0⟩

/-- NOC_PROBE_LOST (R318). -/
def Reg.NOC_PROBE_LOST (k : Nat) : Fld := ⟨cellKey 0x008 (0x83C + 0x40 * k) 0, 32, 0⟩

/-- NOC_RTR_STAT (R314). -/
def Reg.NOC_RTR_STAT_CAUSE (n : Nat) : Fld := ⟨cellKey 0x008 (0x1000 + 0x4 * n) 4, 2, 0⟩
def Reg.NOC_RTR_STAT_STATE (n : Nat) : Fld := ⟨cellKey 0x008 (0x1000 + 0x4 * n) 0, 2, 0⟩

/-- NOC_LINK_STAT (R313). -/
def Reg.NOC_LINK_STAT_RETRIES (m : Nat) : Fld := ⟨cellKey 0x008 (0x1400 + 0x4 * m) 8, 16, 0⟩
def Reg.NOC_LINK_STAT_STATE (m : Nat) : Fld := ⟨cellKey 0x008 (0x1400 + 0x4 * m) 0, 2, 0⟩

/-- NOC_NI_CFG (R306). -/
def Reg.NOC_NI_CFG_URG (i : Nat) : Fld := ⟨cellKey 0x008 (0x2000 + 0x20 * i) 0, 3, 0⟩

/-- NOC_NI_STAT (R316). -/
def Reg.NOC_NI_STAT_RD_OUT (i : Nat) : Fld := ⟨cellKey 0x008 (0x2004 + 0x20 * i) 16, 7, 0⟩
def Reg.NOC_NI_STAT_WR_OUT (i : Nat) : Fld := ⟨cellKey 0x008 (0x2004 + 0x20 * i) 8, 7, 0⟩
def Reg.NOC_NI_STAT_FENCED (i : Nat) : Fld := ⟨cellKey 0x008 (0x2004 + 0x20 * i) 0, 1, 0⟩

/-- NOC_NI_DROP (R315). -/
def Reg.NOC_NI_DROP (i : Nat) : Fld := ⟨cellKey 0x008 (0x2008 + 0x20 * i) 0, 32, 0⟩

/-- NOC_NI_DROP_SRC (R316). -/
def Reg.NOC_NI_DROP_SRC_VALID (i : Nat) : Fld := ⟨cellKey 0x008 (0x200C + 0x20 * i) 31, 1, 0⟩
def Reg.NOC_NI_DROP_SRC_KEY (i : Nat) : Fld := ⟨cellKey 0x008 (0x200C + 0x20 * i) 8, 4, 0⟩
def Reg.NOC_NI_DROP_SRC_SRC (i : Nat) : Fld := ⟨cellKey 0x008 (0x200C + 0x20 * i) 0, 7, 0⟩

/-- NOC_NI_DROP_ADDR_LO/HI (R316). -/
def Reg.NOC_NI_DROP_ADDR (i : Nat) : Fld := ⟨cellKey 0x008 (0x2010 + 0x20 * i) 0, 46, 0⟩

/-- NOC_NI_UNAV (R315). -/
def Reg.NOC_NI_UNAV (i : Nat) : Fld := ⟨cellKey 0x008 (0x2018 + 0x20 * i) 0, 32, 0⟩

/-- NOC_RT_ROUTE_LO/HI (R304). -/
def Reg.NOC_RT_ROUTE_HOPS (i e : Nat) : Fld := ⟨cellKey 0x008 (0x20000 + 0x1000 * i + 0x10 * e) 48, 5, (rtHopsRst i e)⟩
def Reg.NOC_RT_ROUTE_DIR (i e : Nat) : Fld := ⟨cellKey 0x008 (0x20000 + 0x1000 * i + 0x10 * e) 0, 48, (rtDirRst i e)⟩

/-- NOC_RT_CTL (R310). -/
def Reg.NOC_RT_CTL_VALID (i e : Nat) : Fld := ⟨cellKey 0x008 (0x20008 + 0x1000 * i + 0x10 * e) 31, 1, (rtValidRst e)⟩
def Reg.NOC_RT_CTL_PENDING (i e : Nat) : Fld := ⟨cellKey 0x008 (0x20008 + 0x1000 * i + 0x10 * e) 30, 1, 0⟩
def Reg.NOC_RT_CTL_DST (i e : Nat) : Fld := ⟨cellKey 0x008 (0x20008 + 0x1000 * i + 0x10 * e) 16, 7, (rtDstRst e)⟩
def Reg.NOC_RT_CTL_URG (i e : Nat) : Fld := ⟨cellKey 0x008 (0x20008 + 0x1000 * i + 0x10 * e) 8, 3, 0⟩
def Reg.NOC_RT_CTL_KEY (i e : Nat) : Fld := ⟨cellKey 0x008 (0x20008 + 0x1000 * i + 0x10 * e) 4, 4, 0⟩

/-! Block MIL (0x00B): 11_services_and_processors.md -/

/-- MIL_STAT (R349). -/
def Reg.MIL_STAT_CMO_BUSY : Fld := ⟨cellKey 0x00B 0x4 2, 1, 0⟩
def Reg.MIL_STAT_FW_BUSY : Fld := ⟨cellKey 0x00B 0x4 1, 1, 0⟩
def Reg.MIL_STAT_FW_LOADED : Fld := ⟨cellKey 0x00B 0x4 0, 1, 0⟩

/-- MIL_CTRL (R325). -/
def Reg.MIL_CTRL_KEY : Fld := ⟨cellKey 0x00B 0x8 0, 4, 0⟩

/-- MIL_CMD (R335). -/
def Reg.MIL_CMD_CORES : Fld := ⟨cellKey 0x00B 0xC 16, 4, 0⟩
def Reg.MIL_CMD_SLOT : Fld := ⟨cellKey 0x00B 0xC 8, 2, 0⟩
def Reg.MIL_CMD_CODE : Fld := ⟨cellKey 0x00B 0xC 0, 8, 0⟩

/-- MIL_FW_STAT (R335). -/
def Reg.MIL_FW_STAT_CAUSE : Fld := ⟨cellKey 0x00B 0x10 8, 4, 0⟩
def Reg.MIL_FW_STAT_RESULT : Fld := ⟨cellKey 0x00B 0x10 0, 2, 0⟩

/-- MIL_FW_VER (R335). -/
def Reg.MIL_FW_VER_MAJOR : Fld := ⟨cellKey 0x00B 0x14 24, 8, 0⟩
def Reg.MIL_FW_VER_MINOR : Fld := ⟨cellKey 0x00B 0x14 16, 8, 0⟩
def Reg.MIL_FW_VER_PATCH : Fld := ⟨cellKey 0x00B 0x14 0, 16, 0⟩

/-- MIL_FW_SVN (R335). -/
def Reg.MIL_FW_SVN_MIN_SVN : Fld := ⟨cellKey 0x00B 0x18 16, 16, 0⟩
def Reg.MIL_FW_SVN_SVN : Fld := ⟨cellKey 0x00B 0x18 0, 16, 0⟩

/-- MIL_FW_SRC_LO/HI (R335). -/
def Reg.MIL_FW_SRC : Fld := ⟨cellKey 0x00B 0x20 6, 40, 0⟩

/-- MIL_CMO_BASE_LO/HI (R327). -/
def Reg.MIL_CMO_BASE : Fld := ⟨cellKey 0x00B 0x28 6, 40, 0⟩

/-- MIL_CMO_SIZE (R327). -/
def Reg.MIL_CMO_SIZE : Fld := ⟨cellKey 0x00B 0x30 0, 24, 1⟩

/-- MIL_EVT (R349). -/
def Reg.MIL_EVT_EVT : Fld := ⟨cellKey 0x00B 0x34 0, 16, 0⟩

/-- MIL_CORE_STAT (R336). -/
def Reg.MIL_CORE_STAT_STATE (c : Nat) : Fld := ⟨cellKey 0x00B (0x100 + 0x40 * c) 0, 3, 0⟩

/-- MIL_MTIMECMP_LO/HI (R329). -/
def Reg.MIL_MTIMECMP (c : Nat) : Fld := ⟨cellKey 0x00B (0x108 + 0x40 * c) 0, 64, 0xFFFFFFFFFFFFFFFF⟩

/-- MIL_MSIP (R329). -/
def Reg.MIL_MSIP (c : Nat) : Fld := ⟨cellKey 0x00B (0x110 + 0x40 * c) 0, 1, 0⟩

/-- MIL_WDG_CFG (R330). -/
def Reg.MIL_WDG_CFG_EN (c : Nat) : Fld := ⟨cellKey 0x00B (0x114 + 0x40 * c) 31, 1, 0⟩
def Reg.MIL_WDG_CFG_ACTION (c : Nat) : Fld := ⟨cellKey 0x00B (0x114 + 0x40 * c) 30, 1, 1⟩
def Reg.MIL_WDG_CFG_LOAD (c : Nat) : Fld := ⟨cellKey 0x00B (0x114 + 0x40 * c) 0, 20, 1000⟩

/-- MIL_WDG_KICK (R330). -/
def Reg.MIL_WDG_KICK (c : Nat) : Fld := ⟨cellKey 0x00B (0x118 + 0x40 * c) 0, 32, 0⟩

/-- MIL_WDG_VAL (R330). -/
def Reg.MIL_WDG_VAL (c : Nat) : Fld := ⟨cellKey 0x00B (0x11C + 0x40 * c) 0, 20, 0⟩

/-- MIL_UART_CFG (R331). -/
def Reg.MIL_UART_CFG_EN (u : Nat) : Fld := ⟨cellKey 0x00B (0x200 + 0x10 * u) 31, 1, 0⟩
def Reg.MIL_UART_CFG_OWNER (u : Nat) : Fld := ⟨cellKey 0x00B (0x200 + 0x10 * u) 28, 2, (u)⟩
def Reg.MIL_UART_CFG_STOP2 (u : Nat) : Fld := ⟨cellKey 0x00B (0x200 + 0x10 * u) 27, 1, 0⟩
def Reg.MIL_UART_CFG_PARITY (u : Nat) : Fld := ⟨cellKey 0x00B (0x200 + 0x10 * u) 25, 2, 0⟩
def Reg.MIL_UART_CFG_RX_THRESH (u : Nat) : Fld := ⟨cellKey 0x00B (0x200 + 0x10 * u) 16, 6, 1⟩
def Reg.MIL_UART_CFG_DIV (u : Nat) : Fld := ⟨cellKey 0x00B (0x200 + 0x10 * u) 0, 16, 543⟩

/-- MIL_UART_DATA (R331). -/
def Reg.MIL_UART_DATA (u : Nat) : Fld := ⟨cellKey 0x00B (0x204 + 0x10 * u) 0, 8, 0⟩

/-- MIL_UART_STAT (R331). -/
def Reg.MIL_UART_STAT_TX_OVF (u : Nat) : Fld := ⟨cellKey 0x00B (0x208 + 0x10 * u) 31, 1, 0⟩
def Reg.MIL_UART_STAT_RX_OVF (u : Nat) : Fld := ⟨cellKey 0x00B (0x208 + 0x10 * u) 30, 1, 0⟩
def Reg.MIL_UART_STAT_TX_CNT (u : Nat) : Fld := ⟨cellKey 0x00B (0x208 + 0x10 * u) 8, 7, 0⟩
def Reg.MIL_UART_STAT_RX_CNT (u : Nat) : Fld := ⟨cellKey 0x00B (0x208 + 0x10 * u) 0, 7, 0⟩

/-- MIL_MB_CFG (R332). -/
def Reg.MIL_MB_CFG_RECV (k : Nat) : Fld := ⟨cellKey 0x00B (0x400 + 0x10 * k) 0, 3, (k % 4)⟩

/-- MIL_MB_SEND (R332). -/
def Reg.MIL_MB_SEND (k : Nat) : Fld := ⟨cellKey 0x00B (0x404 + 0x10 * k) 0, 32, 0⟩

/-- MIL_MB_RECV (R332). -/
def Reg.MIL_MB_RECV (k : Nat) : Fld := ⟨cellKey 0x00B (0x408 + 0x10 * k) 0, 32, 0⟩

/-- MIL_MB_STAT (R332). -/
def Reg.MIL_MB_STAT_OVF (k : Nat) : Fld := ⟨cellKey 0x00B (0x40C + 0x10 * k) 31, 1, 0⟩
def Reg.MIL_MB_STAT_COUNT (k : Nat) : Fld := ⟨cellKey 0x00B (0x40C + 0x10 * k) 0, 5, 0⟩

/-- SEM_STAT (R333). -/
def Reg.SEM_STAT_GIVE_ERR : Fld := ⟨cellKey 0x00B 0x7F0 1, 1, 0⟩
def Reg.SEM_STAT_RESET_REL : Fld := ⟨cellKey 0x00B 0x7F0 0, 1, 0⟩

/-- SEM_TAKE (R333). -/
def Reg.SEM_TAKE (i : Nat) : Fld := ⟨cellKey 0x00B (0x800 + 0x10 * i) 0, 32, 0⟩

/-- SEM_GIVE (R333). -/
def Reg.SEM_GIVE (i : Nat) : Fld := ⟨cellKey 0x00B (0x804 + 0x10 * i) 0, 32, 0⟩

/-- SEM_OWNER (R333). -/
def Reg.SEM_OWNER_HALTED (i : Nat) : Fld := ⟨cellKey 0x00B (0x808 + 0x10 * i) 9, 1, 0⟩
def Reg.SEM_OWNER_HELD (i : Nat) : Fld := ⟨cellKey 0x00B (0x808 + 0x10 * i) 8, 1, 0⟩
def Reg.SEM_OWNER_OWNER (i : Nat) : Fld := ⟨cellKey 0x00B (0x808 + 0x10 * i) 0, 8, 0⟩

/-- SEM_FORCE (R333). -/
def Reg.SEM_FORCE (i : Nat) : Fld := ⟨cellKey 0x00B (0x80C + 0x10 * i) 0, 32, 0⟩

/-! Block MST (0x018): 11_services_and_processors.md -/

/-- MST_STAT (R347). -/
def Reg.MST_STAT_RING : Fld := ⟨cellKey 0x018 0x4 8, 2, 0⟩
def Reg.MST_STAT_STATE : Fld := ⟨cellKey 0x018 0x4 0, 2, 0⟩

/-- MST_CTRL (R338). -/
def Reg.MST_CTRL_RING_EN : Fld := ⟨cellKey 0x018 0x8 0, 4, 0⟩

/-- MST_CMD (R347). -/
def Reg.MST_CMD_CODE : Fld := ⟨cellKey 0x018 0xC 0, 8, 0⟩

/-- MST_JOB_ADDR_LO/HI (R338). -/
def Reg.MST_JOB_ADDR : Fld := ⟨cellKey 0x018 0x10 0, 46, 0⟩

/-- MST_EVT (R348). -/
def Reg.MST_EVT_EVT : Fld := ⟨cellKey 0x018 0x18 0, 4, 0⟩

/-- MST_JOBS (R347). -/
def Reg.MST_JOBS : Fld := ⟨cellKey 0x018 0x20 0, 32, 0⟩

/-- MST_BLK_LOST (R342). -/
def Reg.MST_BLK_LOST : Fld := ⟨cellKey 0x018 0x24 0, 32, 0⟩

/-- MST_RING_BASE_LO/HI (R338). -/
def Reg.MST_RING_BASE (r : Nat) : Fld := ⟨cellKey 0x018 (0x100 + 0x20 * r) 7, 39, 0⟩

/-- MST_RING_SIZE (R338). -/
def Reg.MST_RING_SIZE (r : Nat) : Fld := ⟨cellKey 0x018 (0x108 + 0x20 * r) 0, 13, 1⟩

/-- MST_RING_WR (R338). -/
def Reg.MST_RING_WR (r : Nat) : Fld := ⟨cellKey 0x018 (0x10C + 0x20 * r) 0, 32, 0⟩

/-- MST_RING_RD (R338). -/
def Reg.MST_RING_RD (r : Nat) : Fld := ⟨cellKey 0x018 (0x110 + 0x20 * r) 0, 32, 0⟩

/-- MST_RING_KEY (R338). -/
def Reg.MST_RING_KEY (r : Nat) : Fld := ⟨cellKey 0x018 (0x114 + 0x20 * r) 0, 4, 0⟩

/-- MST_PAT_VAL (R340). -/
def Reg.MST_PAT_VAL (k w : Nat) : Fld := ⟨cellKey 0x018 (0x1000 + 0x100 * k + 0x4 * w) 0, 32, 0⟩

/-- MST_PAT_MASK (R340). -/
def Reg.MST_PAT_MASK (k w : Nat) : Fld := ⟨cellKey 0x018 (0x1040 + 0x100 * k + 0x4 * w) 0, 32, 0⟩

/-- MST_PAT_CFG (R340). -/
def Reg.MST_PAT_CFG_EN (k : Nat) : Fld := ⟨cellKey 0x018 (0x1080 + 0x100 * k) 31, 1, 0⟩
def Reg.MST_PAT_CFG_ANCHOR (k : Nat) : Fld := ⟨cellKey 0x018 (0x1080 + 0x100 * k) 30, 1, 0⟩
def Reg.MST_PAT_CFG_OFFSET (k : Nat) : Fld := ⟨cellKey 0x018 (0x1080 + 0x100 * k) 16, 14, 0⟩
def Reg.MST_PAT_CFG_LEN (k : Nat) : Fld := ⟨cellKey 0x018 (0x1080 + 0x100 * k) 0, 7, 1⟩

/-! Block HST (0x009): 12_host_and_partner_ports.md -/

/-- HST_STAT (R351). -/
def Reg.HST_STAT_LINK_UP : Fld := ⟨cellKey 0x009 0x4 1, 1, 0⟩
def Reg.HST_STAT_READY : Fld := ⟨cellKey 0x009 0x4 0, 1, 0⟩

/-- HST_CMD (R379). -/
def Reg.HST_CMD_QUEUE : Fld := ⟨cellKey 0x009 0xC 16, 6, 0⟩
def Reg.HST_CMD_CODE : Fld := ⟨cellKey 0x009 0xC 0, 8, 0⟩

/-- HST_IF_VER (R356). -/
def Reg.HST_IF_VER_MIN_MAJOR : Fld := ⟨cellKey 0x009 0x10 16, 8, 1⟩
def Reg.HST_IF_VER_IF_MAJOR : Fld := ⟨cellKey 0x009 0x10 8, 8, 1⟩
def Reg.HST_IF_VER_MAX_MINOR : Fld := ⟨cellKey 0x009 0x10 0, 8, 2⟩

/-- HST_DRV_HELLO (R356). -/
def Reg.HST_DRV_HELLO_DRV_MIN : Fld := ⟨cellKey 0x009 0x14 16, 8, 0⟩
def Reg.HST_DRV_HELLO_DRV_MAX : Fld := ⟨cellKey 0x009 0x14 8, 8, 0⟩
def Reg.HST_DRV_HELLO_DRV_MINOR : Fld := ⟨cellKey 0x009 0x14 0, 8, 0⟩

/-- HST_IF_STAT (R356). -/
def Reg.HST_IF_STAT_AGREED : Fld := ⟨cellKey 0x009 0x18 31, 1, 0⟩
def Reg.HST_IF_STAT_REFUSED : Fld := ⟨cellKey 0x009 0x18 30, 1, 0⟩
def Reg.HST_IF_STAT_MAJOR : Fld := ⟨cellKey 0x009 0x18 8, 8, 0⟩
def Reg.HST_IF_STAT_MINOR : Fld := ⟨cellKey 0x009 0x18 0, 8, 0⟩

/-- HST_LINK_STAT (R350). -/
def Reg.HST_LINK_STAT_WIDTH : Fld := ⟨cellKey 0x009 0x20 16, 5, 0⟩
def Reg.HST_LINK_STAT_SPEED : Fld := ⟨cellKey 0x009 0x20 0, 4, 0⟩

/-- HST_ERR_CNT (R352). -/
def Reg.HST_ERR_CNT : Fld := ⟨cellKey 0x009 0x24 0, 32, 0⟩

/-- HST_ERR_ADDR_LO/HI (R352). -/
def Reg.HST_ERR_ADDR : Fld := ⟨cellKey 0x009 0x28 0, 46, 0⟩

/-- HST_ERR_INFO (R352). -/
def Reg.HST_ERR_INFO_VALID : Fld := ⟨cellKey 0x009 0x30 31, 1, 0⟩
def Reg.HST_ERR_INFO_OVF : Fld := ⟨cellKey 0x009 0x30 30, 1, 0⟩
def Reg.HST_ERR_INFO_KIND : Fld := ⟨cellKey 0x009 0x30 0, 3, 0⟩

/-- HST_EVT (R380). -/
def Reg.HST_EVT_EVT : Fld := ⟨cellKey 0x009 0x34 0, 8, 0⟩

/-- HST_WIN_BASE_LO/HI (R355). -/
def Reg.HST_WIN_BASE (w : Nat) : Fld := ⟨cellKey 0x009 (0x100 + 0x10 * w) 12, 34, (winBaseRst w)⟩

/-- HST_WIN_SIZE (R355). -/
def Reg.HST_WIN_SIZE (w : Nat) : Fld := ⟨cellKey 0x009 (0x108 + 0x10 * w) 0, 21, (winSizeRst w)⟩

/-- HST_WIN_CTL (R355). -/
def Reg.HST_WIN_CTL_EN (w : Nat) : Fld := ⟨cellKey 0x009 (0x10C + 0x10 * w) 31, 1, (winEnRst w)⟩
def Reg.HST_WIN_CTL_URG (w : Nat) : Fld := ⟨cellKey 0x009 (0x10C + 0x10 * w) 8, 3, 0⟩
def Reg.HST_WIN_CTL_KEY (w : Nat) : Fld := ⟨cellKey 0x009 (0x10C + 0x10 * w) 4, 4, 0⟩

/-- HST_Q_CFG (R357). -/
def Reg.HST_Q_CFG_RO (q : Nat) : Fld := ⟨cellKey 0x009 (0x1000 + 0x40 * q) 31, 1, 0⟩
def Reg.HST_Q_CFG_WB_EN (q : Nat) : Fld := ⟨cellKey 0x009 (0x1000 + 0x40 * q) 30, 1, 0⟩
def Reg.HST_Q_CFG_DIR (q : Nat) : Fld := ⟨cellKey 0x009 (0x1000 + 0x40 * q) 24, 2, 0⟩
def Reg.HST_Q_CFG_URG (q : Nat) : Fld := ⟨cellKey 0x009 (0x1000 + 0x40 * q) 20, 3, 0⟩
def Reg.HST_Q_CFG_KEY (q : Nat) : Fld := ⟨cellKey 0x009 (0x1000 + 0x40 * q) 16, 4, 0⟩
def Reg.HST_Q_CFG_VEC (q : Nat) : Fld := ⟨cellKey 0x009 (0x1000 + 0x40 * q) 0, 9, 0⟩

/-- HST_Q_SIZE (R358). -/
def Reg.HST_Q_SIZE (q : Nat) : Fld := ⟨cellKey 0x009 (0x1004 + 0x40 * q) 0, 17, 16⟩

/-- HST_Q_RING_LO/HI (R358). -/
def Reg.HST_Q_RING (q : Nat) : Fld := ⟨cellKey 0x009 (0x1008 + 0x40 * q) 0, 64, 0⟩

/-- HST_Q_TAIL (R358). -/
def Reg.HST_Q_TAIL (q : Nat) : Fld := ⟨cellKey 0x009 (0x1010 + 0x40 * q) 0, 32, 0⟩

/-- HST_Q_HEAD (R358). -/
def Reg.HST_Q_HEAD (q : Nat) : Fld := ⟨cellKey 0x009 (0x1014 + 0x40 * q) 0, 32, 0⟩

/-- HST_Q_STAT (R361). -/
def Reg.HST_Q_STAT_CAUSE (q : Nat) : Fld := ⟨cellKey 0x009 (0x1018 + 0x40 * q) 8, 4, 0⟩
def Reg.HST_Q_STAT_STATE (q : Nat) : Fld := ⟨cellKey 0x009 (0x1018 + 0x40 * q) 0, 2, 0⟩

/-- HST_Q_WB_LO/HI (R359). -/
def Reg.HST_Q_WB (q : Nat) : Fld := ⟨cellKey 0x009 (0x1020 + 0x40 * q) 2, 62, 0⟩

/-- HST_Q_IMOD (R359). -/
def Reg.HST_Q_IMOD (q : Nat) : Fld := ⟨cellKey 0x009 (0x1028 + 0x40 * q) 0, 16, 0⟩

/-- HST_Q_BYTES_LO/HI (R361). -/
def Reg.HST_Q_BYTES (q : Nat) : Fld := ⟨cellKey 0x009 (0x1030 + 0x40 * q) 0, 64, 0⟩

/-! Block RLK (0x00A): 12_host_and_partner_ports.md -/


/-- RLK_CMD (R379). -/
def Reg.RLK_CMD_LINK : Fld := ⟨cellKey 0x00A 0xC 8, 1, 0⟩
def Reg.RLK_CMD_CODE : Fld := ⟨cellKey 0x00A 0xC 0, 8, 0⟩

/-- RLK_EVT (R380). -/
def Reg.RLK_EVT_EVT : Fld := ⟨cellKey 0x00A 0x10 0, 8, 0⟩

/-- RLK_CTRL (R367). -/
def Reg.RLK_CTRL_TS_ROLE (l : Nat) : Fld := ⟨cellKey 0x00A (0x100 + 0x100 * l) 28, 2, 0⟩
def Reg.RLK_CTRL_MAX_VER (l : Nat) : Fld := ⟨cellKey 0x00A (0x100 + 0x100 * l) 24, 2, 2⟩
def Reg.RLK_CTRL_MIN_VER (l : Nat) : Fld := ⟨cellKey 0x00A (0x100 + 0x100 * l) 20, 2, 0⟩
def Reg.RLK_CTRL_RATE_MAX (l : Nat) : Fld := ⟨cellKey 0x00A (0x100 + 0x100 * l) 16, 2, 2⟩
def Reg.RLK_CTRL_REFSEL (l : Nat) : Fld := ⟨cellKey 0x00A (0x100 + 0x100 * l) 12, 1, 0⟩
def Reg.RLK_CTRL_DSK_WIN (l : Nat) : Fld := ⟨cellKey 0x00A (0x100 + 0x100 * l) 8, 3, 0⟩
def Reg.RLK_CTRL_HOLD (l : Nat) : Fld := ⟨cellKey 0x00A (0x100 + 0x100 * l) 1, 1, 0⟩
def Reg.RLK_CTRL_EN (l : Nat) : Fld := ⟨cellKey 0x00A (0x100 + 0x100 * l) 0, 1, 1⟩

/-- RLK_LINK_STAT (R367). -/
def Reg.RLK_LINK_STAT_PEER_READY (l : Nat) : Fld := ⟨cellKey 0x00A (0x104 + 0x100 * l) 31, 1, 0⟩
def Reg.RLK_LINK_STAT_TS_CONFLICT (l : Nat) : Fld := ⟨cellKey 0x00A (0x104 + 0x100 * l) 30, 1, 0⟩
def Reg.RLK_LINK_STAT_FALLBACK (l : Nat) : Fld := ⟨cellKey 0x00A (0x104 + 0x100 * l) 29, 1, 0⟩
def Reg.RLK_LINK_STAT_FAULT_CAUSE (l : Nat) : Fld := ⟨cellKey 0x00A (0x104 + 0x100 * l) 24, 4, 0⟩
def Reg.RLK_LINK_STAT_VER (l : Nat) : Fld := ⟨cellKey 0x00A (0x104 + 0x100 * l) 20, 2, 0⟩
def Reg.RLK_LINK_STAT_RATE (l : Nat) : Fld := ⟨cellKey 0x00A (0x104 + 0x100 * l) 16, 2, 0⟩
def Reg.RLK_LINK_STAT_STATE (l : Nat) : Fld := ⟨cellKey 0x00A (0x104 + 0x100 * l) 0, 3, 0⟩

/-- RLK_PEER_LO/HI (R367). -/
def Reg.RLK_PEER (l : Nat) : Fld := ⟨cellKey 0x00A (0x108 + 0x100 * l) 0, 48, 0⟩

/-- RLK_BIND (R370). -/
def Reg.RLK_BIND_EN1 (l : Nat) : Fld := ⟨cellKey 0x00A (0x110 + 0x100 * l) 17, 1, 0⟩
def Reg.RLK_BIND_EN0 (l : Nat) : Fld := ⟨cellKey 0x00A (0x110 + 0x100 * l) 16, 1, 0⟩
def Reg.RLK_BIND_ISL1 (l : Nat) : Fld := ⟨cellKey 0x00A (0x110 + 0x100 * l) 8, 7, 71⟩
def Reg.RLK_BIND_ISL0 (l : Nat) : Fld := ⟨cellKey 0x00A (0x110 + 0x100 * l) 0, 7, 70⟩

/-- RLK_TS_CFG (R372). -/
def Reg.RLK_TS_CFG_ASYM_PS (l : Nat) : Fld := ⟨cellKey 0x00A (0x114 + 0x100 * l) 16, 16, 0⟩
def Reg.RLK_TS_CFG_INTERVAL (l : Nat) : Fld := ⟨cellKey 0x00A (0x114 + 0x100 * l) 0, 8, 1⟩

/-- RLK_TS_OFF (R372). -/
def Reg.RLK_TS_OFF (l : Nat) : Fld := ⟨cellKey 0x00A (0x118 + 0x100 * l) 0, 32, 0⟩

/-- RLK_CREDIT (R369). -/
def Reg.RLK_CREDIT_MGMT (l : Nat) : Fld := ⟨cellKey 0x00A (0x11C + 0x100 * l) 24, 4, 0⟩
def Reg.RLK_CREDIT_DATA1 (l : Nat) : Fld := ⟨cellKey 0x00A (0x11C + 0x100 * l) 16, 7, 0⟩
def Reg.RLK_CREDIT_DATA0 (l : Nat) : Fld := ⟨cellKey 0x00A (0x11C + 0x100 * l) 0, 7, 0⟩

/-- RLK_CRC_ERR (R364). -/
def Reg.RLK_CRC_ERR (l : Nat) : Fld := ⟨cellKey 0x00A (0x120 + 0x100 * l) 0, 32, 0⟩

/-- RLK_REPLAY (R368). -/
def Reg.RLK_REPLAY (l : Nat) : Fld := ⟨cellKey 0x00A (0x124 + 0x100 * l) 0, 32, 0⟩

/-- RLK_TRIG_LOST (R371). -/
def Reg.RLK_TRIG_LOST (l : Nat) : Fld := ⟨cellKey 0x00A (0x128 + 0x100 * l) 0, 32, 0⟩

/-- RLK_DROP (R370). -/
def Reg.RLK_DROP (l : Nat) : Fld := ⟨cellKey 0x00A (0x12C + 0x100 * l) 0, 32, 0⟩

/-- RLK_LOST (R367). -/
def Reg.RLK_LOST (l : Nat) : Fld := ⟨cellKey 0x00A (0x130 + 0x100 * l) 0, 32, 0⟩

/-- RLK_LN_CTRL (R362). -/
def Reg.RLK_LN_CTRL_TX_DEEMPH (l k : Nat) : Fld := ⟨cellKey 0x00A (0x10800 + 0x8000 * l + 0x1000 * k) 12, 4, 0⟩
def Reg.RLK_LN_CTRL_TX_SWING (l k : Nat) : Fld := ⟨cellKey 0x00A (0x10800 + 0x8000 * l + 0x1000 * k) 8, 4, 10⟩
def Reg.RLK_LN_CTRL_TX_INV (l k : Nat) : Fld := ⟨cellKey 0x00A (0x10800 + 0x8000 * l + 0x1000 * k) 3, 1, 0⟩
def Reg.RLK_LN_CTRL_RX_POL (l k : Nat) : Fld := ⟨cellKey 0x00A (0x10800 + 0x8000 * l + 0x1000 * k) 1, 2, 0⟩
def Reg.RLK_LN_CTRL_OFF (l k : Nat) : Fld := ⟨cellKey 0x00A (0x10800 + 0x8000 * l + 0x1000 * k) 0, 1, 0⟩

/-- RLK_LN_STAT (R362). -/
def Reg.RLK_LN_STAT_CAL_AGED (l k : Nat) : Fld := ⟨cellKey 0x00A (0x10804 + 0x8000 * l + 0x1000 * k) 24, 1, 0⟩
def Reg.RLK_LN_STAT_SKEW (l k : Nat) : Fld := ⟨cellKey 0x00A (0x10804 + 0x8000 * l + 0x1000 * k) 8, 9, 0⟩
def Reg.RLK_LN_STAT_LOGICAL (l k : Nat) : Fld := ⟨cellKey 0x00A (0x10804 + 0x8000 * l + 0x1000 * k) 4, 4, 15⟩
def Reg.RLK_LN_STAT_POL_INV (l k : Nat) : Fld := ⟨cellKey 0x00A (0x10804 + 0x8000 * l + 0x1000 * k) 3, 1, 0⟩
def Reg.RLK_LN_STAT_MARKER_LOCK (l k : Nat) : Fld := ⟨cellKey 0x00A (0x10804 + 0x8000 * l + 0x1000 * k) 2, 1, 0⟩
def Reg.RLK_LN_STAT_BLOCK_LOCK (l k : Nat) : Fld := ⟨cellKey 0x00A (0x10804 + 0x8000 * l + 0x1000 * k) 1, 1, 0⟩
def Reg.RLK_LN_STAT_SIG_DET (l k : Nat) : Fld := ⟨cellKey 0x00A (0x10804 + 0x8000 * l + 0x1000 * k) 0, 1, 0⟩

/-- RLK_LN_HDR_ERR (R362). -/
def Reg.RLK_LN_HDR_ERR (l k : Nat) : Fld := ⟨cellKey 0x00A (0x10808 + 0x8000 * l + 0x1000 * k) 0, 32, 0⟩

/-- RLK_LN_MKR_ERR (R362). -/
def Reg.RLK_LN_MKR_ERR (l k : Nat) : Fld := ⟨cellKey 0x00A (0x1080C + 0x8000 * l + 0x1000 * k) 0, 32, 0⟩

/-- RLK_LN_CAL (R362). -/
def Reg.RLK_LN_CAL_CAL_COUNT (l k : Nat) : Fld := ⟨cellKey 0x00A (0x10810 + 0x8000 * l + 0x1000 * k) 16, 16, 0⟩
def Reg.RLK_LN_CAL_CAL_AGE (l k : Nat) : Fld := ⟨cellKey 0x00A (0x10810 + 0x8000 * l + 0x1000 * k) 0, 16, 0⟩

/-! Block TSB (0x019): 12_host_and_partner_ports.md -/

/-- TSB_STAT (R373). -/
def Reg.TSB_STAT_STEP_HELD : Fld := ⟨cellKey 0x019 0x4 8, 1, 0⟩
def Reg.TSB_STAT_SYNC : Fld := ⟨cellKey 0x019 0x4 0, 2, 0⟩

/-- TSB_CTRL (R373). -/
def Reg.TSB_CTRL_SRC : Fld := ⟨cellKey 0x019 0x8 0, 2, 0⟩

/-- TSB_CMD (R379). -/
def Reg.TSB_CMD_CODE : Fld := ⟨cellKey 0x019 0xC 0, 8, 0⟩

/-- TSB_NOW_LO/HI (R373). -/
def Reg.TSB_NOW : Fld := ⟨cellKey 0x019 0x10 0, 64, 0⟩

/-- TSB_SET_LO/HI (R373). -/
def Reg.TSB_SET : Fld := ⟨cellKey 0x019 0x18 0, 64, 0⟩

/-- TSB_OFFSET (R373). -/
def Reg.TSB_OFFSET : Fld := ⟨cellKey 0x019 0x20 0, 32, 0⟩

/-- TSB_FREQ (R373). -/
def Reg.TSB_FREQ : Fld := ⟨cellKey 0x019 0x24 0, 32, 0⟩

/-- TSB_EVT (R380). -/
def Reg.TSB_EVT_EVT : Fld := ⟨cellKey 0x019 0x28 0, 4, 0⟩

/-! Block EVT (0x001): 12_host_and_partner_ports.md -/


/-- EVT_FAB_OFF (R376). -/
def Reg.EVT_FAB_OFF : Fld := ⟨cellKey 0x001 0x10 6, 23, 0x7FFFFF⟩

/-- EVT_FAB_LOST (R376). -/
def Reg.EVT_FAB_LOST : Fld := ⟨cellKey 0x001 0x14 0, 32, 0⟩

/-- EVT_USER_RAISE (R377). -/
def Reg.EVT_USER_RAISE : Fld := ⟨cellKey 0x001 0x18 0, 5, 0⟩

/-- EVT_PEND (R375). -/
def Reg.EVT_PEND (m : Nat) : Fld := ⟨cellKey 0x001 (0x100 + 0x4 * m) 0, 32, 0⟩

/-- EVT_CLAIM (R376). -/
def Reg.EVT_CLAIM_VALID (c v : Nat) : Fld := ⟨cellKey 0x001 (0x200 + 0x8 * c + 0x4 * v) 31, 1, 0⟩
def Reg.EVT_CLAIM_EVENT (c v : Nat) : Fld := ⟨cellKey 0x001 (0x200 + 0x8 * c + 0x4 * v) 0, 10, 0⟩

/-- EVT_ROUTE_A (R376). -/
def Reg.EVT_ROUTE_A_EN (e : Nat) : Fld := ⟨cellKey 0x001 (0x10000 + 0x8 * e) 31, 1, 0⟩
def Reg.EVT_ROUTE_A_CORES (e : Nat) : Fld := ⟨cellKey 0x001 (0x10000 + 0x8 * e) 24, 4, 0⟩
def Reg.EVT_ROUTE_A_PRIV (e : Nat) : Fld := ⟨cellKey 0x001 (0x10000 + 0x8 * e) 23, 1, 0⟩
def Reg.EVT_ROUTE_A_MSIX_EN (e : Nat) : Fld := ⟨cellKey 0x001 (0x10000 + 0x8 * e) 16, 1, 0⟩
def Reg.EVT_ROUTE_A_VECTOR (e : Nat) : Fld := ⟨cellKey 0x001 (0x10000 + 0x8 * e) 0, 9, 0⟩

/-- EVT_ROUTE_B (R376). -/
def Reg.EVT_ROUTE_B_FAB_EN (e : Nat) : Fld := ⟨cellKey 0x001 (0x10004 + 0x8 * e) 31, 1, 0⟩
def Reg.EVT_ROUTE_B_ISLAND (e : Nat) : Fld := ⟨cellKey 0x001 (0x10004 + 0x8 * e) 16, 7, 0⟩
def Reg.EVT_ROUTE_B_TOUT_EN (e : Nat) : Fld := ⟨cellKey 0x001 (0x10004 + 0x8 * e) 7, 1, 0⟩
def Reg.EVT_ROUTE_B_PIN (e : Nat) : Fld := ⟨cellKey 0x001 (0x10004 + 0x8 * e) 0, 3, 0⟩

/-! Block CFG (0x002): 13_configuration_and_contexts.md -/

/-- CFG_STAT (R391). -/
def Reg.CFG_STAT_CONTENTION : Fld := ⟨cellKey 0x002 0x4 14, 1, 0⟩
def Reg.CFG_STAT_SIG_REQ : Fld := ⟨cellKey 0x002 0x4 13, 1, 0⟩
def Reg.CFG_STAT_OPERATING : Fld := ⟨cellKey 0x002 0x4 12, 1, 0⟩
def Reg.CFG_STAT_SRC_ACTIVE : Fld := ⟨cellKey 0x002 0x4 11, 1, 0⟩
def Reg.CFG_STAT_DONE_WAITING : Fld := ⟨cellKey 0x002 0x4 10, 1, 0⟩
def Reg.CFG_STAT_LSTATE : Fld := ⟨cellKey 0x002 0x4 0, 4, 0⟩

/-- CFG_CTRL (R402). -/
def Reg.CFG_CTRL_TMO : Fld := ⟨cellKey 0x002 0x8 8, 16, 100⟩
def Reg.CFG_CTRL_FIFO_EN : Fld := ⟨cellKey 0x002 0x8 0, 1, 0⟩

/-- CFG_CMD (R401). -/
def Reg.CFG_CMD_ISLAND : Fld := ⟨cellKey 0x002 0xC 24, 7, 0⟩
def Reg.CFG_CMD_PLANES : Fld := ⟨cellKey 0x002 0xC 16, 8, 0⟩
def Reg.CFG_CMD_ALL : Fld := ⟨cellKey 0x002 0xC 10, 1, 0⟩
def Reg.CFG_CMD_SLOT : Fld := ⟨cellKey 0x002 0xC 8, 2, 0⟩
def Reg.CFG_CMD_CODE : Fld := ⟨cellKey 0x002 0xC 0, 8, 0⟩

/-- CFG_LOAD_STAT (R393). -/
def Reg.CFG_LOAD_STAT_SOURCE : Fld := ⟨cellKey 0x002 0x10 28, 3, 0⟩
def Reg.CFG_LOAD_STAT_INDEX : Fld := ⟨cellKey 0x002 0x10 16, 4, 0⟩
def Reg.CFG_LOAD_STAT_CAUSE : Fld := ⟨cellKey 0x002 0x10 8, 5, 0⟩
def Reg.CFG_LOAD_STAT_RESULT : Fld := ⟨cellKey 0x002 0x10 0, 2, 0⟩

/-- CFG_ERR_WORD (R393). -/
def Reg.CFG_ERR_WORD : Fld := ⟨cellKey 0x002 0x14 0, 32, 0⟩

/-- CFG_ERR_FAR (R393). -/
def Reg.CFG_ERR_FAR : Fld := ⟨cellKey 0x002 0x18 0, 27, 0⟩

/-- CFG_FIFO (R402). -/
def Reg.CFG_FIFO : Fld := ⟨cellKey 0x002 0x1C 0, 32, 0⟩

/-- CFG_FIFO_STAT (R402). -/
def Reg.CFG_FIFO_STAT_FREE : Fld := ⟨cellKey 0x002 0x20 16, 9, 256⟩

/-- CFG_FIFO_DROP (R402). -/
def Reg.CFG_FIFO_DROP : Fld := ⟨cellKey 0x002 0x24 0, 32, 0⟩

/-- CFG_MEM_BASE_LO/HI (R401). -/
def Reg.CFG_MEM_BASE : Fld := ⟨cellKey 0x002 0x28 2, 44, 0⟩

/-- CFG_MEM_LEN (R401). -/
def Reg.CFG_MEM_LEN : Fld := ⟨cellKey 0x002 0x30 2, 30, 0⟩

/-- CFG_MEM_KEY (R402). -/
def Reg.CFG_MEM_KEY : Fld := ⟨cellKey 0x002 0x34 0, 4, 0⟩

/-- CFG_STARTUP (R413). -/
def Reg.CFG_STARTUP : Fld := ⟨cellKey 0x002 0x40 0, 16, 0x1024⟩

/-- CFG_REGION (R388). -/
def Reg.CFG_REGION (w : Nat) : Fld := ⟨cellKey 0x002 (0x44 + 0x4 * w) 0, 32, 0⟩

/-- CFG_PINS (R391). -/
def Reg.CFG_PINS_PROG_N : Fld := ⟨cellKey 0x002 0x50 11, 1, 1⟩
def Reg.CFG_PINS_INIT_N : Fld := ⟨cellKey 0x002 0x50 10, 1, 0⟩
def Reg.CFG_PINS_DONE : Fld := ⟨cellKey 0x002 0x50 9, 1, 0⟩
def Reg.CFG_PINS_PRECFG_PD : Fld := ⟨cellKey 0x002 0x50 8, 1, 0⟩
def Reg.CFG_PINS_GANG_POS : Fld := ⟨cellKey 0x002 0x50 4, 3, 0⟩
def Reg.CFG_PINS_CFG_MODE : Fld := ⟨cellKey 0x002 0x50 0, 3, 0⟩

/-- CFG_BOOT_STAT (R405). -/
def Reg.CFG_BOOT_STAT_FAILED : Fld := ⟨cellKey 0x002 0x54 31, 1, 0⟩
def Reg.CFG_BOOT_STAT_INDEX : Fld := ⟨cellKey 0x002 0x54 8, 4, 0⟩
def Reg.CFG_BOOT_STAT_ATTEMPTS : Fld := ⟨cellKey 0x002 0x54 4, 4, 0⟩
def Reg.CFG_BOOT_STAT_SOURCE : Fld := ⟨cellKey 0x002 0x54 0, 2, 0⟩

/-- CFG_WORDS (R427). -/
def Reg.CFG_WORDS : Fld := ⟨cellKey 0x002 0x58 0, 32, 0⟩

/-- CFG_FRAMES (R401). -/
def Reg.CFG_FRAMES : Fld := ⟨cellKey 0x002 0x5C 0, 32, 0⟩

/-- CFG_REJ_FRAMES (R395). -/
def Reg.CFG_REJ_FRAMES : Fld := ⟨cellKey 0x002 0x60 0, 32, 0⟩

/-- CFG_EVT (R425). -/
def Reg.CFG_EVT_EVT : Fld := ⟨cellKey 0x002 0x64 0, 5, 0⟩

/-- CFG_DESIGN (R410). -/
def Reg.CFG_DESIGN (n : Nat) : Fld := ⟨cellKey 0x002 (0x80 + 0x4 * n) 0, 32, 0⟩

/-- CFG_VB_RISER (R234). -/
def Reg.CFG_VB_RISER_CONTENTION (r : Nat) : Fld := ⟨cellKey 0x002 (0x300 + 0x4 * r) 31, 1, 0⟩
def Reg.CFG_VB_RISER_REC_LOST (r : Nat) : Fld := ⟨cellKey 0x002 (0x300 + 0x4 * r) 30, 1, 0⟩
def Reg.CFG_VB_RISER_MODE (r : Nat) : Fld := ⟨cellKey 0x002 (0x300 + 0x4 * r) 24, 2, 0⟩
def Reg.CFG_VB_RISER_LAST_GRP (r : Nat) : Fld := ⟨cellKey 0x002 (0x300 + 0x4 * r) 16, 7, 0⟩
def Reg.CFG_VB_RISER_LAST_WIRE (r : Nat) : Fld := ⟨cellKey 0x002 (0x300 + 0x4 * r) 8, 7, 0⟩
def Reg.CFG_VB_RISER_REPAIRS (r : Nat) : Fld := ⟨cellKey 0x002 (0x300 + 0x4 * r) 0, 8, 0⟩

/-- CFG_VB_SVC (R234). -/
def Reg.CFG_VB_SVC_CONTENTION : Fld := ⟨cellKey 0x002 0x308 31, 1, 0⟩
def Reg.CFG_VB_SVC_REC_LOST : Fld := ⟨cellKey 0x002 0x308 30, 1, 0⟩
def Reg.CFG_VB_SVC_MODE : Fld := ⟨cellKey 0x002 0x308 24, 2, 0⟩
def Reg.CFG_VB_SVC_LAST_GRP : Fld := ⟨cellKey 0x002 0x308 16, 7, 0⟩
def Reg.CFG_VB_SVC_LAST_WIRE : Fld := ⟨cellKey 0x002 0x308 8, 7, 0⟩
def Reg.CFG_VB_SVC_REPAIRS : Fld := ⟨cellKey 0x002 0x308 0, 8, 0⟩

/-- CFG_VB_PEO (R234). -/
def Reg.CFG_VB_PEO_CONTENTION : Fld := ⟨cellKey 0x002 0x30C 31, 1, 0⟩
def Reg.CFG_VB_PEO_REC_LOST : Fld := ⟨cellKey 0x002 0x30C 30, 1, 0⟩
def Reg.CFG_VB_PEO_MODE : Fld := ⟨cellKey 0x002 0x30C 24, 2, 0⟩
def Reg.CFG_VB_PEO_LAST_GRP : Fld := ⟨cellKey 0x002 0x30C 16, 7, 0⟩
def Reg.CFG_VB_PEO_LAST_WIRE : Fld := ⟨cellKey 0x002 0x30C 8, 7, 0⟩
def Reg.CFG_VB_PEO_REPAIRS : Fld := ⟨cellKey 0x002 0x30C 0, 8, 0⟩

/-- CFG_VB_LAST (R234). -/
def Reg.CFG_VB_LAST_CLASS : Fld := ⟨cellKey 0x002 0x310 28, 4, 0⟩
def Reg.CFG_VB_LAST_INSTANCE : Fld := ⟨cellKey 0x002 0x310 20, 8, 0⟩
def Reg.CFG_VB_LAST_EVENT : Fld := ⟨cellKey 0x002 0x310 0, 2, 0⟩

/-- CFG_VB_REC (R234). -/
def Reg.CFG_VB_REC_FULL : Fld := ⟨cellKey 0x002 0x314 31, 1, 0⟩
def Reg.CFG_VB_REC_FUSED : Fld := ⟨cellKey 0x002 0x314 16, 13, 0⟩
def Reg.CFG_VB_REC_SOFT : Fld := ⟨cellKey 0x002 0x314 0, 13, 0⟩

/-! Block DAH (0x003): 13_configuration_and_contexts.md -/

/-- DAH_STAT (R425). -/
def Reg.DAH_STAT_BUSY : Fld := ⟨cellKey 0x003 0x4 0, 1, 0⟩

/-- DAH_CMD (R425). -/
def Reg.DAH_CMD_KIND : Fld := ⟨cellKey 0x003 0xC 12, 1, 0⟩
def Reg.DAH_CMD_SLOT : Fld := ⟨cellKey 0x003 0xC 8, 2, 0⟩
def Reg.DAH_CMD_CODE : Fld := ⟨cellKey 0x003 0xC 0, 8, 0⟩

/-- DAH_SRC_LO/HI (R422). -/
def Reg.DAH_SRC : Fld := ⟨cellKey 0x003 0x10 6, 40, 0⟩

/-- DAH_LEN (R422). -/
def Reg.DAH_LEN : Fld := ⟨cellKey 0x003 0x18 0, 32, 0⟩

/-- DAH_KEY (R422). -/
def Reg.DAH_KEY : Fld := ⟨cellKey 0x003 0x1C 0, 4, 0⟩

/-- DAH_PROG (R422). -/
def Reg.DAH_PROG : Fld := ⟨cellKey 0x003 0x20 0, 32, 0⟩

/-- DAH_BOOT (R423). -/
def Reg.DAH_BOOT_FLASH_FB : Fld := ⟨cellKey 0x003 0x24 5, 1, 1⟩
def Reg.DAH_BOOT_FB_EN : Fld := ⟨cellKey 0x003 0x24 4, 1, 1⟩
def Reg.DAH_BOOT_FALLBACK : Fld := ⟨cellKey 0x003 0x24 2, 2, 1⟩
def Reg.DAH_BOOT_PRIMARY : Fld := ⟨cellKey 0x003 0x24 0, 2, 0⟩

/-- DAH_BOOT_NEW (R423). -/
def Reg.DAH_BOOT_NEW_FLASH_FB : Fld := ⟨cellKey 0x003 0x28 5, 1, 0⟩
def Reg.DAH_BOOT_NEW_FB_EN : Fld := ⟨cellKey 0x003 0x28 4, 1, 0⟩
def Reg.DAH_BOOT_NEW_FALLBACK : Fld := ⟨cellKey 0x003 0x28 2, 2, 0⟩
def Reg.DAH_BOOT_NEW_PRIMARY : Fld := ⟨cellKey 0x003 0x28 0, 2, 0⟩

/-- DAH_WEAR (R424). -/
def Reg.DAH_WEAR_MAX : Fld := ⟨cellKey 0x003 0x30 16, 16, 0⟩
def Reg.DAH_WEAR_MEAN : Fld := ⟨cellKey 0x003 0x30 0, 16, 0⟩

/-- DAH_SPARE (R424). -/
def Reg.DAH_SPARE : Fld := ⟨cellKey 0x003 0x34 0, 16, 0⟩

/-- DAH_RD_ERR (R424). -/
def Reg.DAH_RD_ERR : Fld := ⟨cellKey 0x003 0x38 0, 32, 0⟩

/-- DAH_EVT (R425). -/
def Reg.DAH_EVT_EVT : Fld := ⟨cellKey 0x003 0x3C 0, 4, 0⟩

/-- DAH_SLOT_STAT (R422). -/
def Reg.DAH_SLOT_STAT_STATE (s : Nat) : Fld := ⟨cellKey 0x003 (0x100 + 0x10 * s) 0, 2, 0⟩

/-- DAH_SLOT_LEN (R422). -/
def Reg.DAH_SLOT_LEN (s : Nat) : Fld := ⟨cellKey 0x003 (0x104 + 0x10 * s) 0, 32, 0⟩

/-- DAH_SLOT_WRITES (R422). -/
def Reg.DAH_SLOT_WRITES (s : Nat) : Fld := ⟨cellKey 0x003 (0x108 + 0x10 * s) 0, 32, 0⟩

/-- DAH_SLOT_CRC (R422). -/
def Reg.DAH_SLOT_CRC (s : Nat) : Fld := ⟨cellKey 0x003 (0x10C + 0x10 * s) 0, 32, 0⟩

/-- DAH_FW_STAT (R422). -/
def Reg.DAH_FW_STAT_STATE (s : Nat) : Fld := ⟨cellKey 0x003 (0x140 + 0x10 * s) 0, 2, 0⟩

/-- DAH_FW_LEN (R422). -/
def Reg.DAH_FW_LEN (s : Nat) : Fld := ⟨cellKey 0x003 (0x144 + 0x10 * s) 0, 32, 0⟩

/-- DAH_FW_WRITES (R422). -/
def Reg.DAH_FW_WRITES (s : Nat) : Fld := ⟨cellKey 0x003 (0x148 + 0x10 * s) 0, 32, 0⟩

/-- DAH_FW_CRC (R422). -/
def Reg.DAH_FW_CRC (s : Nat) : Fld := ⟨cellKey 0x003 (0x14C + 0x10 * s) 0, 32, 0⟩

/-! Block ISL (0x040, 80 instances): 13_configuration_and_contexts.md -/

/-- ISL_WEIR_STAT (R417). -/
def Reg.ISL_WEIR_STAT_FIRST_START (n : Nat) : Fld := ⟨cellKey (0x040 + n) 0x200 2, 1, 1⟩
def Reg.ISL_WEIR_STAT_HELD (n : Nat) : Fld := ⟨cellKey (0x040 + n) 0x200 1, 1, 1⟩
def Reg.ISL_WEIR_STAT_CLOSED (n : Nat) : Fld := ⟨cellKey (0x040 + n) 0x200 0, 1, 1⟩

/-- ISL_WEIR_IO (R417). -/
def Reg.ISL_WEIR_IO (n m : Nat) : Fld := ⟨cellKey (0x040 + n) (0x204 + 0x4 * m) 0, 32, 0⟩

/-- ISL_PR_CNT (R419). -/
def Reg.ISL_PR_CNT (n : Nat) : Fld := ⟨cellKey (0x040 + n) 0x210 0, 32, 0⟩

/-- ISL_PR_TS_LO/HI (R412). -/
def Reg.ISL_PR_TS (n : Nat) : Fld := ⟨cellKey (0x040 + n) 0x218 0, 64, 0⟩

/-! Block SYS (0x000): 14_the_first_second.md -/


/-- SYS_CMD (R440). -/
def Reg.SYS_CMD_KEY : Fld := ⟨cellKey 0x000 0xC 24, 8, 0⟩
def Reg.SYS_CMD_ISLAND : Fld := ⟨cellKey 0x000 0xC 8, 7, 0⟩
def Reg.SYS_CMD_CODE : Fld := ⟨cellKey 0x000 0xC 0, 8, 0⟩

/-- SYS_BOOT_STAT (R432). -/
def Reg.SYS_BOOT_STAT_RETRY_CNT : Fld := ⟨cellKey 0x000 0x10 16, 4, 0⟩
def Reg.SYS_BOOT_STAT_NO_REF : Fld := ⟨cellKey 0x000 0x10 10, 1, 0⟩
def Reg.SYS_BOOT_STAT_FAILED : Fld := ⟨cellKey 0x000 0x10 8, 1, 0⟩
def Reg.SYS_BOOT_STAT_LAST_RESET : Fld := ⟨cellKey 0x000 0x10 4, 3, 0⟩
def Reg.SYS_BOOT_STAT_PHASE : Fld := ⟨cellKey 0x000 0x10 0, 3, 0⟩

/-- SYS_AUTO (R433). -/
def Reg.SYS_AUTO_FW_EN : Fld := ⟨cellKey 0x000 0x14 31, 1, 0⟩
def Reg.SYS_AUTO_FW_CORES : Fld := ⟨cellKey 0x000 0x14 24, 4, 0⟩
def Reg.SYS_AUTO_FW_SLOT : Fld := ⟨cellKey 0x000 0x14 20, 2, 0⟩
def Reg.SYS_AUTO_HBM_EN : Fld := ⟨cellKey 0x000 0x14 16, 1, 0⟩
def Reg.SYS_AUTO_HBM_SPARE : Fld := ⟨cellKey 0x000 0x14 12, 2, 1⟩
def Reg.SYS_AUTO_RETRIES : Fld := ⟨cellKey 0x000 0x14 8, 2, 0⟩

/-- SYS_AUTO_NEW (R433). -/
def Reg.SYS_AUTO_NEW_FW_EN : Fld := ⟨cellKey 0x000 0x18 31, 1, 0⟩
def Reg.SYS_AUTO_NEW_FW_CORES : Fld := ⟨cellKey 0x000 0x18 24, 4, 0⟩
def Reg.SYS_AUTO_NEW_FW_SLOT : Fld := ⟨cellKey 0x000 0x18 20, 2, 0⟩
def Reg.SYS_AUTO_NEW_HBM_EN : Fld := ⟨cellKey 0x000 0x18 16, 1, 0⟩
def Reg.SYS_AUTO_NEW_HBM_SPARE : Fld := ⟨cellKey 0x000 0x18 12, 2, 0⟩
def Reg.SYS_AUTO_NEW_RETRIES : Fld := ⟨cellKey 0x000 0x18 8, 2, 0⟩

/-- SYS_EVT (R440). -/
def Reg.SYS_EVT_EVT : Fld := ⟨cellKey 0x000 0x1C 0, 4, 0⟩

/-! Block PEO (0x004): 15_security.md -/

/-- PEO_STAT (R464). -/
def Reg.PEO_STAT_ID_READY : Fld := ⟨cellKey 0x004 0x4 4, 1, 0⟩
def Reg.PEO_STAT_TRNG_FAIL : Fld := ⟨cellKey 0x004 0x4 3, 1, 0⟩
def Reg.PEO_STAT_FUSE_ERR : Fld := ⟨cellKey 0x004 0x4 2, 1, 0⟩
def Reg.PEO_STAT_LOCKED : Fld := ⟨cellKey 0x004 0x4 1, 1, 0⟩
def Reg.PEO_STAT_BUSY : Fld := ⟨cellKey 0x004 0x4 0, 1, 0⟩

/-- PEO_CMD (R464). -/
def Reg.PEO_CMD_CODE : Fld := ⟨cellKey 0x004 0xC 0, 8, 0⟩

/-- PEO_RESULT (R464). -/
def Reg.PEO_RESULT_LEN : Fld := ⟨cellKey 0x004 0x10 16, 16, 0⟩
def Reg.PEO_RESULT_CAUSE : Fld := ⟨cellKey 0x004 0x10 8, 4, 0⟩
def Reg.PEO_RESULT_RESULT : Fld := ⟨cellKey 0x004 0x10 0, 2, 0⟩

/-- PEO_LCS (R447). -/
def Reg.PEO_LCS : Fld := ⟨cellKey 0x004 0x14 0, 2, 0⟩

/-- PEO_ALARM (R463). -/
def Reg.PEO_ALARM_ADMIN : Fld := ⟨cellKey 0x004 0x18 6, 1, 0⟩
def Reg.PEO_ALARM_TRNG : Fld := ⟨cellKey 0x004 0x18 5, 1, 0⟩
def Reg.PEO_ALARM_TAMPER : Fld := ⟨cellKey 0x004 0x18 4, 1, 0⟩
def Reg.PEO_ALARM_TOKEN : Fld := ⟨cellKey 0x004 0x18 3, 1, 0⟩
def Reg.PEO_ALARM_PROT : Fld := ⟨cellKey 0x004 0x18 2, 1, 0⟩
def Reg.PEO_ALARM_KEY : Fld := ⟨cellKey 0x004 0x18 1, 1, 0⟩
def Reg.PEO_ALARM_HBM : Fld := ⟨cellKey 0x004 0x18 0, 1, 0⟩

/-- PEO_EVT (R466). -/
def Reg.PEO_EVT_EVT : Fld := ⟨cellKey 0x004 0x1C 0, 4, 0⟩

/-- PEO_BUF_LO/HI (R464). -/
def Reg.PEO_BUF : Fld := ⟨cellKey 0x004 0x20 6, 40, 0⟩

/-- PEO_BUF_KEY (R464). -/
def Reg.PEO_BUF_KEY : Fld := ⟨cellKey 0x004 0x28 0, 4, 0⟩

/-- PEO_FUSE_ADDR (R464). -/
def Reg.PEO_FUSE_ADDR : Fld := ⟨cellKey 0x004 0x2C 0, 9, 0⟩

/-- PEO_FUSE_DATA (R464). -/
def Reg.PEO_FUSE_DATA : Fld := ⟨cellKey 0x004 0x30 0, 32, 0⟩

/-- PEO_ADMIN (R464). -/
def Reg.PEO_ADMIN : Fld := ⟨cellKey 0x004 0x34 0, 5, 7⟩

/-- PEO_SEC_CFG (R460). -/
def Reg.PEO_SEC_CFG_WR : Fld := ⟨cellKey 0x004 0x38 16, 5, 4⟩
def Reg.PEO_SEC_CFG_RD : Fld := ⟨cellKey 0x004 0x38 8, 5, 4⟩
def Reg.PEO_SEC_CFG_EN : Fld := ⟨cellKey 0x004 0x38 0, 1, 1⟩

/-- PEO_TAMP_CFG (R462). -/
def Reg.PEO_TAMP_CFG_ACTION : Fld := ⟨cellKey 0x004 0x3C 4, 2, 0⟩
def Reg.PEO_TAMP_CFG_GLITCH_EN : Fld := ⟨cellKey 0x004 0x3C 2, 1, 1⟩
def Reg.PEO_TAMP_CFG_PIN_EN : Fld := ⟨cellKey 0x004 0x3C 0, 2, 0⟩

/-- PEO_TAMP_STAT (R462). -/
def Reg.PEO_TAMP_STAT_COUNT : Fld := ⟨cellKey 0x004 0x40 16, 16, 0⟩
def Reg.PEO_TAMP_STAT_GLITCH : Fld := ⟨cellKey 0x004 0x40 2, 1, 0⟩
def Reg.PEO_TAMP_STAT_PIN : Fld := ⟨cellKey 0x004 0x40 0, 2, 0⟩

/-- PEO_DBG (R455). -/
def Reg.PEO_DBG_REMAIN : Fld := ⟨cellKey 0x004 0x44 8, 24, 0⟩
def Reg.PEO_DBG_LEVEL : Fld := ⟨cellKey 0x004 0x44 0, 2, 2⟩

/-- PEO_PROT_LOG_LO/HI (R460). -/
def Reg.PEO_PROT_LOG_VALID : Fld := ⟨cellKey 0x004 0x48 63, 1, 0⟩
def Reg.PEO_PROT_LOG_CLASS : Fld := ⟨cellKey 0x004 0x48 48, 3, 0⟩
def Reg.PEO_PROT_LOG_ADDR : Fld := ⟨cellKey 0x004 0x48 0, 46, 0⟩

/-- PEO_CHAL (R464). -/
def Reg.PEO_CHAL (j : Nat) : Fld := ⟨cellKey 0x004 (0x80 + 0x4 * j) 0, 32, 0⟩

/-- PEO_NONCE (R457). -/
def Reg.PEO_NONCE (j : Nat) : Fld := ⟨cellKey 0x004 (0xC0 + 0x4 * j) 0, 32, 0⟩

/-- PEO_KEY_ALLOW (R459). -/
def Reg.PEO_KEY_ALLOW (c : Nat) : Fld := ⟨cellKey 0x004 (0x100 + 0x4 * c) 0, 16, 0xFFFF⟩

/-- PEO_PROT_BASE_LO/HI (R460). -/
def Reg.PEO_PROT_BASE (i : Nat) : Fld := ⟨cellKey 0x004 (0x200 + 0x10 * i) 12, 34, 0⟩

/-- PEO_PROT_SIZE (R460). -/
def Reg.PEO_PROT_SIZE (i : Nat) : Fld := ⟨cellKey 0x004 (0x208 + 0x10 * i) 0, 24, 0⟩

/-- PEO_PROT_CTL (R460). -/
def Reg.PEO_PROT_CTL_EN (i : Nat) : Fld := ⟨cellKey 0x004 (0x20C + 0x10 * i) 31, 1, 0⟩
def Reg.PEO_PROT_CTL_CLASSES (i : Nat) : Fld := ⟨cellKey 0x004 (0x20C + 0x10 * i) 0, 5, 0⟩

/-- PEO_FUSE (R444). -/
def Reg.PEO_FUSE (w : Nat) : Fld := ⟨cellKey 0x004 (0x1000 + 0x4 * w) 0, 32, 0⟩

/-! Block SCB (0x00C): 16_background_and_reliability.md -/

/-- SCB_STAT (R475). -/
def Reg.SCB_STAT_UNCHECKED : Fld := ⟨cellKey 0x00C 0x4 9, 1, 0⟩
def Reg.SCB_STAT_BUILDING : Fld := ⟨cellKey 0x00C 0x4 8, 1, 0⟩
def Reg.SCB_STAT_IN_SERVICE : Fld := ⟨cellKey 0x00C 0x4 4, 3, 7⟩

/-- SCB_CTRL (R469). -/
def Reg.SCB_CTRL_XCHK : Fld := ⟨cellKey 0x00C 0x8 16, 8, 10⟩
def Reg.SCB_CTRL_DEEP_EVERY : Fld := ⟨cellKey 0x00C 0x8 8, 8, 16⟩
def Reg.SCB_CTRL_EN : Fld := ⟨cellKey 0x00C 0x8 0, 1, 1⟩

/-- SCB_CMD (R492). -/
def Reg.SCB_CMD_ENGINE : Fld := ⟨cellKey 0x00C 0xC 20, 2, 0⟩
def Reg.SCB_CMD_PLANE : Fld := ⟨cellKey 0x00C 0xC 16, 3, 0⟩
def Reg.SCB_CMD_ISLAND : Fld := ⟨cellKey 0x00C 0xC 8, 7, 0⟩
def Reg.SCB_CMD_CODE : Fld := ⟨cellKey 0x00C 0xC 0, 8, 0⟩

/-- SCB_BUDGET (R467). -/
def Reg.SCB_BUDGET_PCT : Fld := ⟨cellKey 0x00C 0x10 0, 4, 2⟩

/-- SCB_PASSES (R469). -/
def Reg.SCB_PASSES : Fld := ⟨cellKey 0x00C 0x14 0, 32, 0⟩

/-- SCB_PASS_MS (R469). -/
def Reg.SCB_PASS_MS : Fld := ⟨cellKey 0x00C 0x18 0, 16, 0⟩

/-- SCB_CORR (R470). -/
def Reg.SCB_CORR : Fld := ⟨cellKey 0x00C 0x20 0, 32, 0⟩

/-- SCB_REPAIRED (R470). -/
def Reg.SCB_REPAIRED : Fld := ⟨cellKey 0x00C 0x24 0, 32, 0⟩

/-- SCB_UNREP (R470). -/
def Reg.SCB_UNREP : Fld := ⟨cellKey 0x00C 0x28 0, 32, 0⟩

/-- SCB_UNREP_FAR (R470). -/
def Reg.SCB_UNREP_FAR_VALID : Fld := ⟨cellKey 0x00C 0x2C 31, 1, 0⟩
def Reg.SCB_UNREP_FAR_FAR : Fld := ⟨cellKey 0x00C 0x2C 0, 27, 0⟩

/-- SCB_EVT (R493). -/
def Reg.SCB_EVT_EVT : Fld := ⟨cellKey 0x00C 0x30 0, 6, 0⟩

/-- SCB_GOLD_FREE (R474). -/
def Reg.SCB_GOLD_FREE : Fld := ⟨cellKey 0x00C 0x34 0, 16, 1536⟩

/-- SCB_ENG (R477). -/
def Reg.SCB_ENG_LAST_CAUSE (e : Nat) : Fld := ⟨cellKey 0x00C (0x40 + 0x10 * e) 16, 4, 0⟩
def Reg.SCB_ENG_FAULTS (e : Nat) : Fld := ⟨cellKey 0x00C (0x40 + 0x10 * e) 8, 8, 0⟩
def Reg.SCB_ENG_STATE (e : Nat) : Fld := ⟨cellKey 0x00C (0x40 + 0x10 * e) 0, 2, 0⟩

/-- SCB_ENG_FRAMES (R476). -/
def Reg.SCB_ENG_FRAMES (e : Nat) : Fld := ⟨cellKey 0x00C (0x44 + 0x10 * e) 0, 32, 0⟩

/-- SCB_GOLD (R473). -/
def Reg.SCB_GOLD_BUILDING (n : Nat) : Fld := ⟨cellKey 0x00C (0x100 + 0x4 * n) 8, 8, 0⟩
def Reg.SCB_GOLD_PRESENT (n : Nat) : Fld := ⟨cellKey 0x00C (0x100 + 0x4 * n) 0, 8, 0⟩

/-! Block BST (0x00D): 16_background_and_reliability.md -/

/-- BST_STAT (R480). -/
def Reg.BST_STAT_BUSY : Fld := ⟨cellKey 0x00D 0x4 0, 1, 0⟩

/-- BST_CMD (R480). -/
def Reg.BST_CMD_INDEX : Fld := ⟨cellKey 0x00D 0xC 16, 7, 0⟩
def Reg.BST_CMD_TARGET : Fld := ⟨cellKey 0x00D 0xC 8, 4, 0⟩
def Reg.BST_CMD_CODE : Fld := ⟨cellKey 0x00D 0xC 0, 8, 0⟩

/-- BST_RESULT (R481). -/
def Reg.BST_RESULT_REPAIRS : Fld := ⟨cellKey 0x00D 0x10 24, 8, 0⟩
def Reg.BST_RESULT_INDEX : Fld := ⟨cellKey 0x00D 0x10 16, 7, 0⟩
def Reg.BST_RESULT_TARGET : Fld := ⟨cellKey 0x00D 0x10 8, 4, 0⟩
def Reg.BST_RESULT_RESULT : Fld := ⟨cellKey 0x00D 0x10 0, 2, 0⟩

/-- BST_FAIL_LO/HI (R481). -/
def Reg.BST_FAIL : Fld := ⟨cellKey 0x00D 0x14 0, 48, 0⟩

/-- BST_TIME (R481). -/
def Reg.BST_TIME : Fld := ⟨cellKey 0x00D 0x1C 0, 32, 0⟩

/-- BST_EVT (R493). -/
def Reg.BST_EVT_EVT : Fld := ⟨cellKey 0x00D 0x20 0, 4, 0⟩

/-- BST_HIST (R492). -/
def Reg.BST_HIST_FAILS (t : Nat) : Fld := ⟨cellKey 0x00D (0x100 + 0x4 * t) 16, 16, 0⟩
def Reg.BST_HIST_RUNS (t : Nat) : Fld := ⟨cellKey 0x00D (0x100 + 0x4 * t) 0, 16, 0⟩

/-! Block CAL (0x00E): 16_background_and_reliability.md -/

/-- CAL_STAT (R485). -/
def Reg.CAL_STAT_VREF_BAD : Fld := ⟨cellKey 0x00E 0x4 0, 1, 0⟩

/-- CAL_CTRL (R486). -/
def Reg.CAL_CTRL_GRACE : Fld := ⟨cellKey 0x00E 0x8 8, 8, 2⟩
def Reg.CAL_CTRL_HBM_HOLD : Fld := ⟨cellKey 0x00E 0x8 0, 1, 0⟩

/-- CAL_CMD (R492). -/
def Reg.CAL_CMD_ITEM : Fld := ⟨cellKey 0x00E 0xC 16, 4, 0⟩
def Reg.CAL_CMD_INSTANCE : Fld := ⟨cellKey 0x00E 0xC 8, 8, 0⟩
def Reg.CAL_CMD_CODE : Fld := ⟨cellKey 0x00E 0xC 0, 8, 0⟩

/-- CAL_VREF (R485). -/
def Reg.CAL_VREF : Fld := ⟨cellKey 0x00E 0x10 0, 16, 0⟩

/-- CAL_EVT (R493). -/
def Reg.CAL_EVT_EVT : Fld := ⟨cellKey 0x00E 0x14 0, 4, 0⟩

/-- CAL_ITEM_COUNT (R483). -/
def Reg.CAL_ITEM_COUNT (i : Nat) : Fld := ⟨cellKey 0x00E (0x100 + 0x20 * i) 0, 32, 0⟩

/-- CAL_ITEM_LAST_LO/HI (R483). -/
def Reg.CAL_ITEM_LAST (i : Nat) : Fld := ⟨cellKey 0x00E (0x104 + 0x20 * i) 0, 64, 0⟩

/-- CAL_ITEM_OLDEST (R483). -/
def Reg.CAL_ITEM_OLDEST (i : Nat) : Fld := ⟨cellKey 0x00E (0x10C + 0x20 * i) 0, 32, 0⟩

/-- CAL_ITEM_FORCED (R486). -/
def Reg.CAL_ITEM_FORCED (i : Nat) : Fld := ⟨cellKey 0x00E (0x110 + 0x20 * i) 0, 32, 0⟩

/-- CAL_ITEM_DEGRADED (R484). -/
def Reg.CAL_ITEM_DEGRADED (i : Nat) : Fld := ⟨cellKey 0x00E (0x114 + 0x20 * i) 0, 16, 0⟩

/-! Block TEL (0x00F): 16_background_and_reliability.md -/


/-- TEL_CTRL (R488). -/
def Reg.TEL_CTRL_EN : Fld := ⟨cellKey 0x00F 0x8 31, 1, 1⟩
def Reg.TEL_CTRL_INTERVAL : Fld := ⟨cellKey 0x00F 0x8 0, 16, 60⟩

/-- TEL_CMD (R492). -/
def Reg.TEL_CMD_CODE : Fld := ⟨cellKey 0x00F 0xC 0, 8, 0⟩

/-- TEL_SRC_LO/HI (R489). -/
def Reg.TEL_SRC : Fld := ⟨cellKey 0x00F 0x10 0, 46, 0⟩

/-- TEL_LEN (R489). -/
def Reg.TEL_LEN : Fld := ⟨cellKey 0x00F 0x18 0, 12, 0⟩

/-- TEL_SRC_KEY (R489). -/
def Reg.TEL_SRC_KEY : Fld := ⟨cellKey 0x00F 0x1C 0, 4, 0⟩

/-- TEL_REC_WR (R488). -/
def Reg.TEL_REC_WR : Fld := ⟨cellKey 0x00F 0x20 0, 32, 0⟩

/-- TEL_JNL_WR (R489). -/
def Reg.TEL_JNL_WR : Fld := ⟨cellKey 0x00F 0x24 0, 32, 0⟩

/-- TEL_JNL_LOST (R489). -/
def Reg.TEL_JNL_LOST : Fld := ⟨cellKey 0x00F 0x28 0, 32, 0⟩

/-- TEL_BOOTS (R494). -/
def Reg.TEL_BOOTS : Fld := ⟨cellKey 0x00F 0x2C 0, 32, 0⟩

/-- TEL_SESSION (R488). -/
def Reg.TEL_SESSION : Fld := ⟨cellKey 0x00F 0x30 0, 32, 0⟩

/-- TEL_POWER_S (R494). -/
def Reg.TEL_POWER_S : Fld := ⟨cellKey 0x00F 0x34 0, 32, 0⟩

/-- TEL_EVT (R493). -/
def Reg.TEL_EVT_EVT : Fld := ⟨cellKey 0x00F 0x38 0, 4, 0⟩

/-- TEL_LB_CFG (R479). -/
def Reg.TEL_LB_CFG_UE_WEIGHT (k : Nat) : Fld := ⟨cellKey 0x00F (0x100 + 0x10 * k) 24, 8, 8⟩
def Reg.TEL_LB_CFG_LEAK (k : Nat) : Fld := ⟨cellKey 0x00F (0x100 + 0x10 * k) 8, 16, 1000⟩
def Reg.TEL_LB_CFG_THRESH (k : Nat) : Fld := ⟨cellKey 0x00F (0x100 + 0x10 * k) 0, 8, 64⟩

/-- TEL_LB (R479). -/
def Reg.TEL_LB_TRIP (k : Nat) : Fld := ⟨cellKey 0x00F (0x104 + 0x10 * k) 31, 1, 0⟩
def Reg.TEL_LB_LEVEL (k : Nat) : Fld := ⟨cellKey 0x00F (0x104 + 0x10 * k) 0, 8, 0⟩

/-- TEL_CLS_CE (R479). -/
def Reg.TEL_CLS_CE (k : Nat) : Fld := ⟨cellKey 0x00F (0x108 + 0x10 * k) 0, 32, 0⟩

/-- TEL_CLS_UE (R479). -/
def Reg.TEL_CLS_UE (k : Nat) : Fld := ⟨cellKey 0x00F (0x10C + 0x10 * k) 0, 32, 0⟩

/-! Block AST (0x005): 17_power_thermal_energy.md -/

/-- AST_STAT (R526). -/
def Reg.AST_STAT_STAGE_FORCED : Fld := ⟨cellKey 0x005 0x4 14, 1, 0⟩
def Reg.AST_STAT_UNSTAGED_FB : Fld := ⟨cellKey 0x005 0x4 13, 1, 0⟩
def Reg.AST_STAT_LIMIT_UNMET : Fld := ⟨cellKey 0x005 0x4 12, 1, 0⟩
def Reg.AST_STAT_HARD_STOPPED : Fld := ⟨cellKey 0x005 0x4 11, 1, 0⟩
def Reg.AST_STAT_DECL_EXCEED : Fld := ⟨cellKey 0x005 0x4 10, 1, 0⟩
def Reg.AST_STAT_BAL_READY : Fld := ⟨cellKey 0x005 0x4 9, 1, 0⟩
def Reg.AST_STAT_TSTATE : Fld := ⟨cellKey 0x005 0x4 0, 3, 0⟩

/-- AST_CTX_CTRL (R22). -/
def Reg.AST_CTX_CTRL_STAGING : Fld := ⟨cellKey 0x005 0x8 0, 1, 0⟩

/-- AST_CMD (R524). -/
def Reg.AST_CMD_CHAN : Fld := ⟨cellKey 0x005 0xC 8, 5, 0⟩
def Reg.AST_CMD_CODE : Fld := ⟨cellKey 0x005 0xC 0, 8, 0⟩

/-- AST_PWR_LIMIT (R498). -/
def Reg.AST_PWR_LIMIT_LIMIT : Fld := ⟨cellKey 0x005 0x10 0, 9, 300⟩

/-- AST_THR_CTRL (R516). -/
def Reg.AST_THR_CTRL_RATE_ACT : Fld := ⟨cellKey 0x005 0x14 24, 1, 1⟩
def Reg.AST_THR_CTRL_MIN_LEVEL : Fld := ⟨cellKey 0x005 0x14 16, 6, 16⟩
def Reg.AST_THR_CTRL_TARGETS : Fld := ⟨cellKey 0x005 0x14 8, 4, 13⟩
def Reg.AST_THR_CTRL_METHOD : Fld := ⟨cellKey 0x005 0x14 0, 2, 0⟩

/-- AST_LEVEL (R498). -/
def Reg.AST_LEVEL_APPLIED : Fld := ⟨cellKey 0x005 0x18 24, 7, 64⟩
def Reg.AST_LEVEL_LEVEL : Fld := ⟨cellKey 0x005 0x18 16, 7, 64⟩
def Reg.AST_LEVEL_THM_LEVEL : Fld := ⟨cellKey 0x005 0x18 8, 7, 64⟩
def Reg.AST_LEVEL_PWR_LEVEL : Fld := ⟨cellKey 0x005 0x18 0, 7, 64⟩

/-- AST_PWR_DEV (R497). -/
def Reg.AST_PWR_DEV : Fld := ⟨cellKey 0x005 0x1C 0, 16, 0⟩

/-- AST_PWR (R497). -/
def Reg.AST_PWR (k : Nat) : Fld := ⟨cellKey 0x005 (0x20 + 0x4 * k) 0, 16, 0⟩

/-- AST_STOP_CFG (R519). -/
def Reg.AST_STOP_CFG_HYST_HARD : Fld := ⟨cellKey 0x005 0x48 24, 8, 20⟩
def Reg.AST_STOP_CFG_HYST_STOP : Fld := ⟨cellKey 0x005 0x48 16, 8, 10⟩
def Reg.AST_STOP_CFG_AUTO_RESUME : Fld := ⟨cellKey 0x005 0x48 12, 1, 0⟩
def Reg.AST_STOP_CFG_NOTICE : Fld := ⟨cellKey 0x005 0x48 0, 10, 10⟩

/-- AST_MODEL_CFG (R510). -/
def Reg.AST_MODEL_CFG_CASE_ASSUME : Fld := ⟨cellKey 0x005 0x4C 8, 8, 70⟩
def Reg.AST_MODEL_CFG_CASE_EN : Fld := ⟨cellKey 0x005 0x4C 4, 1, 0⟩
def Reg.AST_MODEL_CFG_CASE_CH : Fld := ⟨cellKey 0x005 0x4C 0, 2, 0⟩

/-- AST_RATE (R514). -/
def Reg.AST_RATE_RATE : Fld := ⟨cellKey 0x005 0x50 0, 8, 5⟩

/-- AST_EVT (R525). -/
def Reg.AST_EVT_EVT : Fld := ⟨cellKey 0x005 0x54 0, 10, 0⟩

/-- AST_THR_CNT (R526). -/
def Reg.AST_THR_CNT : Fld := ⟨cellKey 0x005 0x58 0, 32, 0⟩

/-- AST_DIDT_MAX (R500). -/
def Reg.AST_DIDT_MAX : Fld := ⟨cellKey 0x005 0x5C 0, 16, 0⟩

/-- AST_THRESH (R513). -/
def Reg.AST_THRESH_HARD (c : Nat) : Fld := ⟨cellKey 0x005 (0x60 + 0x4 * c) 24, 8, (thrHard c)⟩
def Reg.AST_THRESH_STOP (c : Nat) : Fld := ⟨cellKey 0x005 (0x60 + 0x4 * c) 16, 8, (thrStop c)⟩
def Reg.AST_THRESH_THR (c : Nat) : Fld := ⟨cellKey 0x005 (0x60 + 0x4 * c) 8, 8, (thrThr c)⟩
def Reg.AST_THRESH_WARN (c : Nat) : Fld := ⟨cellKey 0x005 (0x60 + 0x4 * c) 0, 8, (thrWarn c)⟩

/-- AST_BAL (R501). -/
def Reg.AST_BAL_TOTAL : Fld := ⟨cellKey 0x005 0x70 0, 16, 0⟩

/-- AST_CH_CFG (R526). -/
def Reg.AST_CH_CFG_BETA (i : Nat) : Fld := ⟨cellKey 0x005 (0x100 + 0x10 * i) 16, 16, 3435⟩
def Reg.AST_CH_CFG_IDEAL (i : Nat) : Fld := ⟨cellKey 0x005 (0x100 + 0x10 * i) 4, 12, 1008⟩
def Reg.AST_CH_CFG_MODE (i : Nat) : Fld := ⟨cellKey 0x005 (0x100 + 0x10 * i) 0, 2, 1⟩

/-- AST_CH_TEMP (R507). -/
def Reg.AST_CH_TEMP_PRED (i : Nat) : Fld := ⟨cellKey 0x005 (0x104 + 0x10 * i) 16, 16, 0⟩
def Reg.AST_CH_TEMP_MEAS (i : Nat) : Fld := ⟨cellKey 0x005 (0x104 + 0x10 * i) 0, 16, 0⟩

/-- AST_CH_STAT (R512). -/
def Reg.AST_CH_STAT_SUSPECT (i : Nat) : Fld := ⟨cellKey 0x005 (0x108 + 0x10 * i) 31, 1, 0⟩
def Reg.AST_CH_STAT_FAULT (i : Nat) : Fld := ⟨cellKey 0x005 (0x108 + 0x10 * i) 30, 1, 0⟩
def Reg.AST_CH_STAT_USED_PRED (i : Nat) : Fld := ⟨cellKey 0x005 (0x108 + 0x10 * i) 29, 1, 0⟩
def Reg.AST_CH_STAT_TMAX (i : Nat) : Fld := ⟨cellKey 0x005 (0x108 + 0x10 * i) 0, 16, 0⟩

/-- AST_CH_RISE (R507). -/
def Reg.AST_CH_RISE (i : Nat) : Fld := ⟨cellKey 0x005 (0x10C + 0x10 * i) 0, 16, 0⟩

/-! Block DBG (0x007): 18_debug_and_run_control.md -/

/-- DBG_STAT (R551). -/
def Reg.DBG_STAT_TAP_DENY : Fld := ⟨cellKey 0x007 0x4 10, 1, 0⟩
def Reg.DBG_STAT_ATTACHED : Fld := ⟨cellKey 0x007 0x4 9, 1, 0⟩
def Reg.DBG_STAT_SUP_PAUSED : Fld := ⟨cellKey 0x007 0x4 8, 1, 0⟩
def Reg.DBG_STAT_HALTED : Fld := ⟨cellKey 0x007 0x4 4, 4, 0⟩
def Reg.DBG_STAT_LEVEL : Fld := ⟨cellKey 0x007 0x4 0, 2, 2⟩

/-- DBG_CTRL (R548). -/
def Reg.DBG_CTRL_HALT_HOLDS_SUP : Fld := ⟨cellKey 0x007 0x8 1, 1, 1⟩
def Reg.DBG_CTRL_ATTACH : Fld := ⟨cellKey 0x007 0x8 0, 1, 0⟩

/-- DBG_CMD (R549). -/
def Reg.DBG_CMD_CORES : Fld := ⟨cellKey 0x007 0xC 16, 4, 0⟩
def Reg.DBG_CMD_CODE : Fld := ⟨cellKey 0x007 0xC 0, 8, 0⟩

/-- DBG_ACC (R534). -/
def Reg.DBG_ACC_CONSUME : Fld := ⟨cellKey 0x007 0x10 8, 1, 0⟩
def Reg.DBG_ACC_KEY : Fld := ⟨cellKey 0x007 0x10 4, 4, 0⟩
def Reg.DBG_ACC_URG : Fld := ⟨cellKey 0x007 0x10 0, 3, 0⟩

/-- DBG_WDG_GRACE (R547). -/
def Reg.DBG_WDG_GRACE : Fld := ⟨cellKey 0x007 0x14 0, 20, 1000⟩

/-- DBG_SUP_CFG (R548). -/
def Reg.DBG_SUP_CFG_EN : Fld := ⟨cellKey 0x007 0x18 31, 1, 0⟩
def Reg.DBG_SUP_CFG_LOAD : Fld := ⟨cellKey 0x007 0x18 0, 16, 1000⟩

/-- DBG_SUP_KICK (R548). -/
def Reg.DBG_SUP_KICK : Fld := ⟨cellKey 0x007 0x1C 0, 32, 0⟩

/-- DBG_SUP_VAL (R548). -/
def Reg.DBG_SUP_VAL : Fld := ⟨cellKey 0x007 0x20 0, 16, 0⟩

/-- DBG_AUTH_STAT (R537). -/
def Reg.DBG_AUTH_STAT_BUSY : Fld := ⟨cellKey 0x007 0x24 31, 1, 0⟩
def Reg.DBG_AUTH_STAT_CAUSE : Fld := ⟨cellKey 0x007 0x24 8, 4, 0⟩
def Reg.DBG_AUTH_STAT_RESULT : Fld := ⟨cellKey 0x007 0x24 0, 2, 0⟩

/-- DBG_EVT (R550). -/
def Reg.DBG_EVT_EVT : Fld := ⟨cellKey 0x007 0x28 0, 6, 0⟩

/-- DBG_CHAL (R551). -/
def Reg.DBG_CHAL (j : Nat) : Fld := ⟨cellKey 0x007 (0x80 + 0x4 * j) 0, 32, 0⟩

/-- DBG_TOKEN (R551). -/
def Reg.DBG_TOKEN (j : Nat) : Fld := ⟨cellKey 0x007 (0x1000 + 0x4 * j) 0, 32, 0⟩

/-- DBG_CORE_CTRL (R540). -/
def Reg.DBG_CORE_CTRL_EBREAK_HALT (c : Nat) : Fld := ⟨cellKey 0x007 (0x100 + 0x40 * c) 2, 1, 0⟩
def Reg.DBG_CORE_CTRL_HALT_ON_RESET (c : Nat) : Fld := ⟨cellKey 0x007 (0x100 + 0x40 * c) 1, 1, 0⟩
def Reg.DBG_CORE_CTRL_STEP_IE (c : Nat) : Fld := ⟨cellKey 0x007 (0x100 + 0x40 * c) 0, 1, 0⟩

/-- DBG_CORE_STAT (R540). -/
def Reg.DBG_CORE_STAT_RESV_LOST (c : Nat) : Fld := ⟨cellKey 0x007 (0x104 + 0x40 * c) 12, 1, 0⟩
def Reg.DBG_CORE_STAT_IDX (c : Nat) : Fld := ⟨cellKey 0x007 (0x104 + 0x40 * c) 8, 3, 0⟩
def Reg.DBG_CORE_STAT_CAUSE (c : Nat) : Fld := ⟨cellKey 0x007 (0x104 + 0x40 * c) 4, 3, 0⟩
def Reg.DBG_CORE_STAT_HALTED (c : Nat) : Fld := ⟨cellKey 0x007 (0x104 + 0x40 * c) 0, 1, 0⟩

/-- DBG_CORE_DPC_LO/HI (R544). -/
def Reg.DBG_CORE_DPC (c : Nat) : Fld := ⟨cellKey 0x007 (0x108 + 0x40 * c) 0, 64, 0⟩

/-- DBG_CORE_PCS_LO/HI (R544). -/
def Reg.DBG_CORE_PCS (c : Nat) : Fld := ⟨cellKey 0x007 (0x110 + 0x40 * c) 0, 64, 0⟩

/-- DBG_CORE_REGSEL (R544). -/
def Reg.DBG_CORE_REGSEL_ERR (c : Nat) : Fld := ⟨cellKey 0x007 (0x118 + 0x40 * c) 31, 1, 0⟩
def Reg.DBG_CORE_REGSEL_SPACE (c : Nat) : Fld := ⟨cellKey 0x007 (0x118 + 0x40 * c) 12, 2, 0⟩
def Reg.DBG_CORE_REGSEL_NUM (c : Nat) : Fld := ⟨cellKey 0x007 (0x118 + 0x40 * c) 0, 12, 0⟩

/-- DBG_CORE_REGDATA_LO/HI (R544). -/
def Reg.DBG_CORE_REGDATA (c : Nat) : Fld := ⟨cellKey 0x007 (0x120 + 0x40 * c) 0, 64, 0⟩

/-- DBG_BP_ADDR_LO/HI (R543). -/
def Reg.DBG_BP_ADDR (c k : Nat) : Fld := ⟨cellKey 0x007 (0x400 + 0x100 * c + 0x10 * k) 0, 64, 0⟩

/-- DBG_BP_CTL (R543). -/
def Reg.DBG_BP_CTL_EN (c k : Nat) : Fld := ⟨cellKey 0x007 (0x408 + 0x100 * c + 0x10 * k) 31, 1, 0⟩
def Reg.DBG_BP_CTL_PRIV (c k : Nat) : Fld := ⟨cellKey 0x007 (0x408 + 0x100 * c + 0x10 * k) 0, 3, 0⟩

/-- DBG_WP_BASE_LO/HI (R543). -/
def Reg.DBG_WP_BASE (c w : Nat) : Fld := ⟨cellKey 0x007 (0x480 + 0x100 * c + 0x10 * w) 0, 64, 0⟩

/-- DBG_WP_CTL (R543). -/
def Reg.DBG_WP_CTL_EN (c w : Nat) : Fld := ⟨cellKey 0x007 (0x488 + 0x100 * c + 0x10 * w) 31, 1, 0⟩
def Reg.DBG_WP_CTL_PRIV (c w : Nat) : Fld := ⟨cellKey 0x007 (0x488 + 0x100 * c + 0x10 * w) 12, 3, 0⟩
def Reg.DBG_WP_CTL_STORE (c w : Nat) : Fld := ⟨cellKey 0x007 (0x488 + 0x100 * c + 0x10 * w) 10, 1, 0⟩
def Reg.DBG_WP_CTL_LOAD (c w : Nat) : Fld := ⟨cellKey 0x007 (0x488 + 0x100 * c + 0x10 * w) 9, 1, 0⟩
def Reg.DBG_WP_CTL_SIZE (c w : Nat) : Fld := ⟨cellKey 0x007 (0x488 + 0x100 * c + 0x10 * w) 0, 6, 0⟩

end Sys2Proof.Machine
end

