-- ==== Sys2Proof/Machine/Atlas.lean ====
section
/-! DEFINITION. The register tables of every block as data: which register stands at an offset, its fields with their
access types (R5), their ranges and the states they are limited to (R23, R575). -/

namespace Sys2Proof.Machine

/-- Access types (R5). -/
inductive Acc where
  | ro | rw | wo | w1c | w1s | rc | rl
deriving DecidableEq, Repr

/-- Conditions on a written value that a plain range does not give, one per table remark. -/
inductive Cust where
  | none
  | hbmSpare
  | marExpBase
  | probeMode
  | probePoint
  | qRing
  | qSize
  | runSrcBase
  | runSrcSize
  | runSrcType
  | runTplBase
  | wbEn
  | winBase
  | winSize
  | wpSize
deriving DecidableEq, Repr

/-- The state that a field is limited to (R575); `free` for a field that is not limited. -/
inductive Lock where
  | free
  | cfgNoSrc
  | coreHalted
  | coresInReset
  | hbmOff
  | hbmSpare
  | hopEn
  | hopFile
  | hopPort
  | hopSeg
  | hstQOff
  | lanHalt
  | marOff
  | marSeed
  | minor1
  | minor2
  | mstPat
  | mstRing
  | peoPolicy
  | prbEn
  | rlkBind0
  | rlkBind1
  | rlkEn
  | rlkLane
  | runEn
  | runIdle
  | runSrc
  | weirIo
deriving DecidableEq, Repr

/-- The registers whose access does more than the field rules: each is a row of the table of operations of its own. -/
inductive Hnd where
  | plain
  | astChCfg
  | astCmd
  | astMethod
  | astPwrLimit
  | astStaging
  | astThresh
  | bstCmd
  | calCmd
  | calOldest
  | cfgCmd
  | cfgCtrl
  | cfgDesign
  | cfgFifo
  | clkRefCfg
  | dahCmd
  | dbgCmd
  | drvHello
  | evtClaim
  | evtRouteA
  | evtUser
  | hbmCmd
  | hbmCtrl
  | hopCmd
  | hopPortCfg
  | hstCmd
  | islClkCfg
  | islClkReq
  | islCmd
  | islPwr
  | lanCmd
  | lnCal
  | marCmd
  | mbRecv
  | mbSend
  | milCmd
  | minSvn
  | mstCmd
  | mstRingWr
  | muCommit
  | muCtrl
  | muStage
  | nocCmd
  | peoCmd
  | peoFuse
  | prbBind
  | prbCmd
  | prbCtrl
  | qTail
  | regData
  | rlkCmd
  | rlkCtrl
  | rlnCal
  | rtCtl
  | rtRoute
  | runCmd
  | scbCmd
  | semForce
  | semGive
  | semTake
  | slcCtrl
  | srbCmd
  | srbCtrl
  | srmCmd
  | supCfg
  | supKick
  | sysCmd
  | telCmd
  | tsbCmd
  | tsbCtrl
  | uartCfg
  | uartData
  | wdgCfg
  | wdgKick
deriving DecidableEq, Repr

/-- One field of a register: low bit, width, access, reset value, least and greatest value, further conditions. -/
structure FSpec where
  lo   : Nat
  w    : Nat
  acc  : Acc
  rst  : Nat
  mn   : Nat
  mx   : Nat
  lock : Lock
  cust : Cust
deriving DecidableEq, Repr

/-- One register of a table: offset of the first, (count, stride) of each index, whether it is a 64-bit pair (R8),
and its fields for a block instance and the indices. -/
structure Row where
  off  : Nat
  dims : List (Nat × Nat)
  pair : Bool
  hnd  : Hnd
  flds : Nat → List Nat → List FSpec

/-- A field with no limit of state or range. -/
def fs (lo w : Nat) (acc : Acc) (rst : Nat) : FSpec := ⟨lo, w, acc, rst, 0, 2 ^ w - 1, .free, .none⟩

/-- The i-th index of a register, 0 where there is none. -/
def ixAt (ix : List Nat) (i : Nat) : Nat := ix.getD i 0

/-- The registers of block SYS. -/
def rowsSYS : List Row := [
  /- SYS_IDCODE, R388 -/ ⟨0x20, [], false, .plain, fun _ _ => [fs 28 4 .ro 0, fs 0 28 .ro 0x9260A13]⟩,
  /- SYS_ALIAS_STAT, R559 -/ ⟨0x24, [], false, .plain, fun _ _ => [fs 31 1 .w1c 0, fs 30 1 .w1c 0, fs 16 7 .ro 0, fs 0 2 .ro 0]⟩,
  /- SYS_GRP_ISL0, R557 -/ ⟨0x100, [(16, 0x40)], false, .plain, fun _ _ => [fs 0 32 .rw 0]⟩,
  /- SYS_GRP_ISL1, R557 -/ ⟨0x104, [(16, 0x40)], false, .plain, fun _ _ => [fs 0 32 .rw 0]⟩,
  /- SYS_GRP_ISL2, R557 -/ ⟨0x108, [(16, 0x40)], false, .plain, fun _ _ => [fs 0 16 .rw 0]⟩,
  /- SYS_GRP_SRB0, R557 -/ ⟨0x110, [(16, 0x40)], false, .plain, fun _ _ => [fs 0 32 .rw 0]⟩,
  /- SYS_GRP_SRB1, R557 -/ ⟨0x114, [(16, 0x40)], false, .plain, fun _ _ => [fs 0 32 .rw 0]⟩,
  /- SYS_GRP_SRB2, R557 -/ ⟨0x118, [(16, 0x40)], false, .plain, fun _ _ => [fs 0 16 .rw 0]⟩,
  /- SYS_GRP_PC, R557 -/ ⟨0x120, [(16, 0x40)], false, .plain, fun _ _ => [fs 0 16 .rw 0]⟩,
  /- SYS_GRP_LANE, R557 -/ ⟨0x128, [(16, 0x40)], true, .plain, fun _ _ => [fs 0 64 .rw 0]⟩,
  /- SYS_STAT, R440 -/ ⟨0x4, [], false, .plain, fun _ _ => [fs 31 1 .w1c 0, fs 16 8 .ro 0, fs 15 1 .w1c 0]⟩,
  /- SYS_CMD, R440 -/ ⟨0xC, [], false, .sysCmd, fun _ _ => [fs 24 8 .wo 0, fs 8 7 .wo 0, fs 0 8 .wo 0]⟩,
  /- SYS_BOOT_STAT, R432 -/ ⟨0x10, [], false, .plain, fun _ _ => [fs 16 4 .ro 0, fs 10 1 .rl 0, fs 8 1 .ro 0, fs 4 3 .ro 0, fs 0 3 .rl 0]⟩,
  /- SYS_AUTO, R433 -/ ⟨0x14, [], false, .plain, fun _ _ => [fs 31 1 .ro 0, fs 24 4 .ro 0, fs 20 2 .ro 0, fs 16 1 .ro 0, fs 12 2 .ro 1, fs 8 2 .ro 0]⟩,
  /- SYS_AUTO_NEW, R433 -/ ⟨0x18, [], false, .plain, fun _ _ => [fs 31 1 .rw 0, fs 24 4 .rw 0, fs 20 2 .rw 0, fs 16 1 .rw 0, ⟨12, 2, .rw, 0, 0, 2, .free, .none⟩, fs 8 2 .rw 0]⟩,
  /- SYS_EVT, R440 -/ ⟨0x1C, [], false, .plain, fun _ _ => [fs 0 4 .w1c 0]⟩ ]

/-- The registers of block PRB. -/
def rowsPRB : List Row := [
  /- PRB_STAT, R9 -/ ⟨0x4, [], false, .plain, fun _ _ => [fs 31 1 .w1c 0, fs 16 8 .ro 0, fs 15 1 .w1c 0, fs 14 1 .rl 0, fs 13 1 .ro 0, fs 12 1 .rl 0, fs 8 4 .ro 0, fs 0 4 .rl 0]⟩,
  /- PRB_CTRL, R60 -/ ⟨0x8, [], false, .prbCtrl, fun _ _ => [⟨16, 3, .rw, 2, 0, 4, .prbEn, .none⟩, ⟨8, 5, .rw, 16, 1, 16, .prbEn, .none⟩, ⟨5, 2, .rw, 0, 0, 2, .free, .none⟩, fs 4 1 .rw 0, ⟨2, 2, .rw, 0, 0, 3, .prbEn, .none⟩, fs 1 1 .rw 1, fs 0 1 .rw 0]⟩,
  /- PRB_CMD, R57 -/ ⟨0xC, [], false, .prbCmd, fun _ _ => [fs 0 8 .wo 0]⟩,
  /- PRB_PLL_CFG, R29 -/ ⟨0x10, [], false, .plain, fun _ _ => [⟨24, 1, .rw, 0, 0, 1, .prbEn, .none⟩, ⟨0, 9, .rw, 0, 0, 511, .prbEn, .none⟩]⟩,
  /- PRB_PLL_FRAC, R29 -/ ⟨0x14, [], false, .plain, fun _ _ => [⟨0, 24, .rw, 0, 0, 16777215, .prbEn, .none⟩]⟩,
  /- PRB_BIND, R40 -/ ⟨0x18, [], false, .prbBind, fun b _ => [fs 8 1 .rw 0, fs 0 7 .rw (9 + 20 * b)]⟩,
  /- PRB_CAL_CTRL, R54 -/ ⟨0x20, [], false, .plain, fun _ _ => [⟨16, 8, .rw, 10, 1, 255, .free, .none⟩, ⟨8, 8, .rw, 10, 1, 255, .free, .none⟩, fs 0 1 .rw 0]⟩,
  /- PRB_LANE_MAP, R43 -/ ⟨0x24, [], true, .plain, fun _ _ => [fs 0 64 .ro 0xFFFFFFFFFFFFFFFF]⟩,
  /- PRB_FMEAS_CTRL, R50 -/ ⟨0x30, [], false, .plain, fun _ _ => [fs 31 1 .ro 0, fs 30 1 .ro 0, fs 8 1 .rw 0, fs 4 2 .rw 1, fs 0 2 .rw 0]⟩,
  /- PRB_FMEAS_CNT, R50 -/ ⟨0x34, [], false, .plain, fun _ _ => [fs 0 32 .ro 0]⟩,
  /- PRB_FMEAS_MIN, R50 -/ ⟨0x38, [], false, .plain, fun _ _ => [fs 0 32 .rw 0]⟩,
  /- PRB_FMEAS_MAX, R50 -/ ⟨0x3C, [], false, .plain, fun _ _ => [fs 0 32 .rw 0xFFFFFFFF]⟩,
  /- PRB_TX_CFG, R47 -/ ⟨0x40, [], false, .plain, fun b _ => [⟨8, 1, .rw, 0, 0, 1, .prbEn, .none⟩, fs 0 8 .rw (b)]⟩,
  /- PRB_RX_CFG, R43 -/ ⟨0x44, [], false, .plain, fun _ _ => [fs 8 1 .rw 0, fs 0 8 .rw 0]⟩,
  /- PRB_EVT, R58 -/ ⟨0x48, [], false, .plain, fun _ _ => [fs 0 8 .w1c 0]⟩,
  /- PRB_DROP, R40 -/ ⟨0x4C, [], false, .plain, fun _ _ => [fs 0 32 .rc 0]⟩,
  /- PRB_SKEW, R38 -/ ⟨0x50, [], false, .plain, fun _ _ => [fs 16 4 .ro 0, fs 0 9 .ro 0]⟩,
  /- PRB_LN_CTRL, R36 -/ ⟨0x800, [(16, 0x1000)], false, .plain, fun _ _ => [⟨12, 4, .rw, 0, 0, 12, .free, .none⟩, fs 8 4 .rw 10, fs 3 1 .rw 0, ⟨1, 2, .rw, 0, 0, 2, .prbEn, .none⟩, ⟨0, 1, .rw, 0, 0, 1, .prbEn, .none⟩]⟩,
  /- PRB_LN_STAT, R33 -/ ⟨0x804, [(16, 0x1000)], false, .plain, fun _ _ => [fs 24 1 .rl 0, fs 8 9 .rl 0, fs 4 4 .rl 15, fs 3 1 .rl 0, fs 2 1 .rl 0, fs 1 1 .rl 0, fs 0 1 .rl 0]⟩,
  /- PRB_LN_HDR_ERR, R33 -/ ⟨0x808, [(16, 0x1000)], false, .plain, fun _ _ => [fs 0 32 .rc 0]⟩,
  /- PRB_LN_MKR_ERR, R37 -/ ⟨0x80C, [(16, 0x1000)], false, .plain, fun _ _ => [fs 0 32 .rc 0]⟩,
  /- PRB_LN_CAL, R54 -/ ⟨0x810, [(16, 0x1000)], false, .lnCal, fun _ _ => [fs 16 16 .rl 0, fs 0 16 .rl 0]⟩,
  /- PRB_FCLK, R58 -/ ⟨0x10800, [], false, .plain, fun _ _ => [fs 1 1 .rl 0, fs 0 1 .rl 0]⟩ ]

/-- The registers of block HOP. -/
def rowsHOP : List Row := [
  /- HOP_STAT, R105 -/ ⟨0x4, [], false, .plain, fun _ _ => [fs 31 1 .w1c 0, fs 16 8 .ro 0, fs 15 1 .w1c 0]⟩,
  /- HOP_CTRL, R105 -/ ⟨0x8, [], false, .plain, fun _ _ => [⟨0, 1, .rw, 0, 0, 1, .hopEn, .none⟩]⟩,
  /- HOP_CMD, R105 -/ ⟨0xC, [], false, .hopCmd, fun _ _ => [fs 8 4 .wo 0, fs 0 8 .wo 0]⟩,
  /- HOP_EVT_FILE, R106 -/ ⟨0x10, [], false, .plain, fun _ _ => [fs 16 16 .w1c 0, fs 0 16 .w1c 0]⟩,
  /- HOP_PORT_CFG, R64 -/ ⟨0x100, [(4, 0x40)], false, .hopPortCfg, fun _ _ => [⟨23, 1, .rw, 0, 0, 1, .hopPort, .none⟩, ⟨16, 7, .rw, 0, 0, 64, .hopPort, .none⟩, ⟨8, 8, .rw, 4, 0, 255, .hopPort, .none⟩, ⟨4, 4, .rw, 0, 0, 15, .hopPort, .none⟩, ⟨1, 2, .rw, 1, 0, 2, .hopPort, .none⟩, fs 0 1 .rw 0]⟩,
  /- HOP_PORT_LEN, R70 -/ ⟨0x104, [(4, 0x40)], false, .plain, fun _ _ => [⟨16, 16, .rw, 0, 0, 65504, .free, .none⟩, ⟨0, 16, .rw, 16384, 64, 65504, .free, .none⟩]⟩,
  /- HOP_FSEL0, R69 -/ ⟨0x108, [(4, 0x40)], false, .plain, fun _ _ => [fs 24 7 .rw 0, fs 16 7 .rw 0, fs 8 7 .rw 0, fs 0 7 .rw 0]⟩,
  /- HOP_FSEL1, R69 -/ ⟨0x10C, [(4, 0x40)], false, .plain, fun _ _ => [fs 24 7 .rw 0, fs 16 7 .rw 0, fs 8 7 .rw 0, fs 0 7 .rw 0]⟩,
  /- HOP_FSEL2, R69 -/ ⟨0x110, [(4, 0x40)], false, .plain, fun _ _ => [fs 24 7 .rw 0, fs 16 7 .rw 0, fs 8 7 .rw 0, fs 0 7 .rw 0]⟩,
  /- HOP_FSEL3, R69 -/ ⟨0x114, [(4, 0x40)], false, .plain, fun _ _ => [fs 24 7 .rw 0, fs 16 7 .rw 0, fs 8 7 .rw 0, fs 0 7 .rw 0]⟩,
  /- HOP_FILTERED, R69 -/ ⟨0x118, [(4, 0x40)], false, .plain, fun _ _ => [fs 0 32 .rc 0]⟩,
  /- HOP_DROP, R73 -/ ⟨0x11C, [(4, 0x40)], false, .plain, fun _ _ => [fs 0 32 .rc 0]⟩,
  /- HOP_FTERM, R69 -/ ⟨0x120, [(4, 0x40), (8, 0x4)], false, .plain, fun _ _ => [fs 16 16 .rw 0, fs 0 16 .rw 0]⟩,
  /- HOP_FILE, R76 -/ ⟨0x400, [(16, 0x40)], false, .plain, fun _ _ => [⟨16, 10, .rw, 0, 0, 1023, .hopFile, .none⟩, ⟨4, 4, .rw, 0, 0, 15, .hopFile, .none⟩, ⟨0, 1, .rw, 0, 0, 1, .hopFile, .none⟩]⟩,
  /- HOP_FILE_NSEG, R76 -/ ⟨0x404, [(16, 0x40)], false, .plain, fun _ _ => [⟨0, 11, .rw, 1, 1, 1024, .hopFile, .none⟩]⟩,
  /- HOP_FILE_PRE, R78 -/ ⟨0x408, [(16, 0x40)], false, .plain, fun _ _ => [⟨0, 32, .rw, 0, 0, 4294967295, .hopFile, .none⟩]⟩,
  /- HOP_FILE_POST, R78 -/ ⟨0x40C, [(16, 0x40)], false, .plain, fun _ _ => [⟨0, 32, .rw, 0, 0, 4294967295, .hopFile, .none⟩]⟩,
  /- HOP_FILE_STAT, R79 -/ ⟨0x410, [(16, 0x40)], false, .plain, fun _ _ => [fs 16 10 .rl 0, fs 8 4 .ro 0, fs 4 1 .ro 0, fs 3 1 .ro 0, fs 0 3 .rl 0]⟩,
  /- HOP_FILE_TRIG_IGN, R80 -/ ⟨0x414, [(16, 0x40)], false, .plain, fun _ _ => [fs 0 32 .rc 0]⟩,
  /- HOP_FILE_TTS, R78 -/ ⟨0x418, [(16, 0x40)], true, .plain, fun _ _ => [fs 0 64 .ro 0]⟩,
  /- HOP_FILE_TREC, R78 -/ ⟨0x420, [(16, 0x40)], true, .plain, fun _ _ => [fs 0 64 .ro 0]⟩,
  /- HOP_FILE_OLD, R77 -/ ⟨0x428, [(16, 0x40)], true, .plain, fun _ _ => [fs 0 64 .ro 0]⟩,
  /- HOP_SEG_BASE, R76 -/ ⟨0x10000, [(1024, 0x20)], true, .plain, fun _ _ => [⟨16, 30, .rw, 0, 0, 1073741823, .hopSeg, .none⟩]⟩,
  /- HOP_SEG_SIZE, R76 -/ ⟨0x10008, [(1024, 0x20)], false, .plain, fun _ _ => [⟨0, 32, .rw, 1, 0, 4294967295, .hopSeg, .none⟩]⟩,
  /- HOP_SEG_STAT, R77 -/ ⟨0x1000C, [(1024, 0x20)], false, .plain, fun _ _ => [fs 2 1 .rl 0, fs 0 2 .rl 0]⟩,
  /- HOP_SEG_WOFF, R77 -/ ⟨0x10010, [(1024, 0x20)], true, .plain, fun _ _ => [fs 0 64 .rl 0]⟩ ]

/-- The registers of block LAN. -/
def rowsLAN : List Row := [
  /- LAN_STAT, R94 -/ ⟨0x4, [], false, .plain, fun _ _ => [fs 31 1 .w1c 0, fs 16 8 .ro 0, fs 15 1 .w1c 0, fs 8 5 .rl 0, fs 0 1 .rl 0]⟩,
  /- LAN_CTRL, R94 -/ ⟨0x8, [], false, .plain, fun _ _ => [fs 0 5 .rw 0]⟩,
  /- LAN_CMD, R105 -/ ⟨0xC, [], false, .lanCmd, fun _ _ => [fs 8 5 .wo 0, fs 0 8 .wo 0]⟩,
  /- LAN_CTX_DROP, R90 -/ ⟨0x10, [], false, .plain, fun _ _ => [fs 0 32 .rc 0]⟩,
  /- LAN_ARC_LAST, R89 -/ ⟨0x14, [], false, .plain, fun _ _ => [fs 2 5 .ro 0, fs 0 2 .ro 0]⟩,
  /- LAN_ARC_TS, R87 -/ ⟨0x18, [], true, .plain, fun _ _ => [fs 0 64 .ro 0]⟩,
  /- LAN_MSEL, R85 -/ ⟨0x100, [(128, 0x4)], false, .plain, fun _ _ => [⟨31, 1, .rw, 0, 0, 1, .lanHalt, .none⟩, ⟨3, 7, .rw, 0, 0, 79, .lanHalt, .none⟩, ⟨0, 3, .rw, 0, 0, 7, .lanHalt, .none⟩]⟩,
  /- LAN_COND, R88 -/ ⟨0x1000, [(32, 0x40), (4, 0x10)], false, .plain, fun _ _ => [⟨24, 5, .rw, 0, 0, 31, .lanHalt, .none⟩, ⟨20, 2, .rw, 3, 0, 3, .lanHalt, .none⟩, ⟨19, 1, .rw, 0, 0, 1, .lanHalt, .none⟩, ⟨18, 1, .rw, 0, 0, 1, .lanHalt, .none⟩, ⟨10, 8, .rw, 0, 0, 255, .lanHalt, .none⟩, ⟨9, 1, .rw, 0, 0, 1, .lanHalt, .none⟩, ⟨8, 1, .rw, 0, 0, 1, .lanHalt, .none⟩, ⟨0, 8, .rw, 0, 0, 255, .lanHalt, .none⟩]⟩,
  /- LAN_ACT0, R89 -/ ⟨0x1004, [(32, 0x40), (4, 0x10)], false, .plain, fun _ _ => [⟨16, 16, .rw, 0, 0, 65535, .lanHalt, .none⟩, ⟨8, 2, .rw, 0, 0, 3, .lanHalt, .none⟩, ⟨0, 8, .rw, 0, 0, 255, .lanHalt, .none⟩]⟩,
  /- LAN_ACT1, R89 -/ ⟨0x1008, [(32, 0x40), (4, 0x10)], false, .plain, fun _ _ => [⟨24, 8, .rw, 0, 0, 255, .lanHalt, .none⟩, ⟨16, 8, .rw, 0, 0, 255, .lanHalt, .none⟩, ⟨0, 16, .rw, 0, 0, 65535, .lanHalt, .none⟩]⟩,
  /- LAN_ACT2, R89 -/ ⟨0x100C, [(32, 0x40), (4, 0x10)], false, .plain, fun _ _ => [⟨24, 1, .rw, 0, 0, 1, .lanHalt, .none⟩, ⟨20, 4, .rw, 0, 0, 15, .lanHalt, .none⟩, ⟨16, 4, .rw, 0, 0, 15, .lanHalt, .none⟩, ⟨12, 4, .rw, 0, 0, 15, .lanHalt, .none⟩, ⟨9, 3, .rw, 0, 0, 7, .lanHalt, .none⟩, ⟨8, 1, .rw, 0, 0, 1, .lanHalt, .none⟩, ⟨4, 4, .rw, 0, 0, 15, .lanHalt, .none⟩, ⟨0, 4, .rw, 0, 0, 15, .lanHalt, .none⟩]⟩,
  /- LAN_CTR_CFG, R91 -/ ⟨0x3000, [(16, 0x20)], false, .plain, fun _ _ => [⟨0, 8, .rw, 0xFF, 0, 255, .lanHalt, .none⟩]⟩,
  /- LAN_CTR_TERM, R91 -/ ⟨0x3004, [(16, 0x20)], true, .plain, fun _ _ => [⟨0, 48, .rw, 0xFFFFFFFFFFFF, 0, 281474976710655, .lanHalt, .none⟩]⟩,
  /- LAN_CTR_VAL, R91 -/ ⟨0x300C, [(16, 0x20)], true, .plain, fun _ _ => [fs 0 48 .rl 0]⟩,
  /- LAN_TMR_CFG, R91 -/ ⟨0x3200, [(8, 0x10)], false, .plain, fun _ _ => [⟨0, 1, .rw, 0, 0, 1, .lanHalt, .none⟩]⟩,
  /- LAN_TMR_LOAD, R91 -/ ⟨0x3204, [(8, 0x10)], false, .plain, fun _ _ => [⟨0, 32, .rw, 0, 0, 4294967295, .lanHalt, .none⟩]⟩,
  /- LAN_TMR_VAL, R91 -/ ⟨0x3208, [(8, 0x10)], false, .plain, fun _ _ => [fs 0 32 .rl 0]⟩,
  /- LAN_TOUT, R92 -/ ⟨0x3300, [(8, 0x4)], false, .plain, fun _ _ => [⟨8, 8, .rw, 1, 1, 255, .lanHalt, .none⟩, ⟨1, 1, .rw, 0, 0, 1, .lanHalt, .none⟩, ⟨0, 1, .rw, 0, 0, 1, .lanHalt, .none⟩]⟩,
  /- LAN_TIN_CFG, R92 -/ ⟨0x3340, [], false, .plain, fun _ _ => [⟨0, 8, .rw, 0, 0, 255, .lanHalt, .none⟩]⟩ ]

/-- The registers of block RUN. -/
def rowsRUN : List Row := [
  /- RUN_STAT, R105 -/ ⟨0x4, [], false, .plain, fun _ _ => [fs 31 1 .w1c 0, fs 16 8 .ro 0, fs 15 1 .w1c 0]⟩,
  /- RUN_CTRL, R104 -/ ⟨0x8, [], false, .plain, fun _ _ => [⟨0, 1, .rw, 0, 0, 1, .runEn, .none⟩]⟩,
  /- RUN_CMD, R105 -/ ⟨0xC, [], false, .runCmd, fun _ _ => [fs 8 2 .wo 0, fs 0 8 .wo 0]⟩,
  /- RUN_TPL_BASE, R97 -/ ⟨0x40, [], true, .plain, fun _ _ => [⟨9, 37, .rw, 0, 0, 137438953471, .free, .runTplBase⟩]⟩,
  /- RUN_CH_CTRL, R95 -/ ⟨0x100, [(4, 0x100)], false, .plain, fun _ _ => [fs 0 16 .rw 0]⟩,
  /- RUN_CH_STAT, R104 -/ ⟨0x104, [(4, 0x100)], false, .plain, fun _ _ => [fs 8 4 .rl 0, fs 0 3 .rl 0]⟩,
  /- RUN_CH_PC, R101 -/ ⟨0x108, [(4, 0x100)], false, .plain, fun _ _ => [fs 0 16 .rl 0]⟩,
  /- RUN_CH_IGN, R104 -/ ⟨0x10C, [(4, 0x100)], false, .plain, fun _ _ => [fs 0 32 .rc 0]⟩,
  /- RUN_CH_FRAMES, R103 -/ ⟨0x110, [(4, 0x100)], true, .plain, fun _ _ => [fs 0 64 .rl 0]⟩,
  /- RUN_CH_LATE, R103 -/ ⟨0x118, [(4, 0x100)], false, .plain, fun _ _ => [fs 0 32 .rc 0]⟩,
  /- RUN_CH_PRE, R102 -/ ⟨0x120, [(4, 0x100)], true, .plain, fun _ _ => [fs 0 56 .rw 0x00D5555555555555]⟩,
  /- RUN_CRC_CFG, R100 -/ ⟨0x140, [(4, 0x100), (2, 0x10)], false, .plain, fun _ _ => [fs 4 14 .rw 0, fs 3 1 .rw 0, fs 2 1 .rw 0, ⟨0, 2, .rw, 0, 0, 2, .free, .none⟩]⟩,
  /- RUN_CRC_POLY, R100 -/ ⟨0x144, [(4, 0x100), (2, 0x10)], false, .plain, fun _ _ => [fs 0 32 .rw 0]⟩,
  /- RUN_CRC_INIT, R100 -/ ⟨0x148, [(4, 0x100), (2, 0x10)], false, .plain, fun _ _ => [fs 0 32 .rw 0]⟩,
  /- RUN_CRC_XOR, R100 -/ ⟨0x14C, [(4, 0x100), (2, 0x10)], false, .plain, fun _ _ => [fs 0 32 .rw 0]⟩,
  /- RUN_SRC_CFG, R96 -/ ⟨0x800, [(16, 0x20)], false, .plain, fun _ _ => [⟨4, 4, .rw, 0, 0, 15, .runSrc, .none⟩, ⟨1, 1, .rw, 0, 0, 1, .runSrc, .none⟩, ⟨0, 1, .rw, 0, 0, 1, .runSrc, .runSrcType⟩]⟩,
  /- RUN_SRC_BASE, R96 -/ ⟨0x804, [(16, 0x20)], true, .plain, fun _ _ => [⟨3, 43, .rw, 0, 0, 8796093022207, .runSrc, .runSrcBase⟩]⟩,
  /- RUN_SRC_SIZE, R96 -/ ⟨0x80C, [(16, 0x20)], true, .plain, fun _ _ => [⟨3, 43, .rw, 0, 0, 8796093022207, .runSrc, .runSrcSize⟩]⟩,
  /- RUN_SRC_CUR, R96 -/ ⟨0x814, [(16, 0x20)], true, .plain, fun _ _ => [fs 0 64 .rl 0]⟩,
  /- RUN_PROG, R95 -/ ⟨0x80000, [(65536, 0x8)], true, .plain, fun _ _ => [⟨0, 64, .rw, 0, 0, 18446744073709551615, .runIdle, .none⟩]⟩ ]

/-- The registers of block MAR. -/
def rowsMAR : List Row := [
  /- MAR_STAT, R141 -/ ⟨0x4, [], false, .plain, fun _ _ => [fs 31 1 .w1c 0, fs 16 8 .ro 0, fs 15 1 .w1c 0, fs 14 1 .rl 0, fs 13 1 .w1c 0, fs 12 1 .rl 0, fs 0 1 .rl 0]⟩,
  /- MAR_CTRL, R141 -/ ⟨0x8, [], false, .plain, fun _ _ => [fs 16 5 .rw 0, ⟨4, 4, .rw, 0, 0, 15, .marOff, .none⟩, fs 3 1 .rw 0, fs 2 1 .rw 0, fs 1 1 .rw 0]⟩,
  /- MAR_CMD, R141 -/ ⟨0xC, [], false, .marCmd, fun _ _ => [fs 16 12 .wo 0, fs 0 8 .wo 0]⟩,
  /- MAR_EPOCH_LEN, R129 -/ ⟨0x10, [], false, .plain, fun _ _ => [⟨0, 20, .rw, 1000, 1, 1000000, .marOff, .none⟩]⟩,
  /- MAR_AGE_TIME, R119 -/ ⟨0x14, [], false, .plain, fun _ _ => [fs 0 32 .rw 0]⟩,
  /- MAR_AGE_MIN, R118 -/ ⟨0x18, [], false, .plain, fun _ _ => [fs 0 32 .rw 0]⟩,
  /- MAR_SEQ_CFG, R124 -/ ⟨0x1C, [], false, .plain, fun _ _ => [⟨0, 32, .rw, 65536, 64, 2147483647, .marOff, .none⟩]⟩,
  /- MAR_HASH_SEED, R114 -/ ⟨0x20, [], true, .plain, fun _ _ => [⟨0, 64, .rw, 0, 0, 18446744073709551615, .marSeed, .none⟩]⟩,
  /- MAR_LIVE, R118 -/ ⟨0x28, [], false, .plain, fun _ _ => [fs 0 13 .rl 0]⟩,
  /- MAR_HIST_CFG, R125 -/ ⟨0x30, [(4, 0x4)], false, .plain, fun _ _ => [⟨8, 5, .rw, 0, 0, 31, .marOff, .none⟩, ⟨0, 1, .rw, 0, 0, 1, .marOff, .none⟩]⟩,
  /- MAR_HIST_BASE, R125 -/ ⟨0x40, [(4, 0x4)], false, .plain, fun _ _ => [⟨0, 32, .rw, 0, 0, 4294967295, .marOff, .none⟩]⟩,
  /- MAR_NOFLOW, R118 -/ ⟨0x60, [(4, 0x10)], false, .plain, fun _ _ => [fs 0 32 .rc 0]⟩,
  /- MAR_PIPE_DROP, R111 -/ ⟨0x64, [(4, 0x10)], false, .plain, fun _ _ => [fs 0 32 .rc 0]⟩,
  /- MAR_PIPE_LATE, R111 -/ ⟨0x68, [(4, 0x10)], false, .plain, fun _ _ => [fs 0 32 .rc 0]⟩,
  /- MAR_MISS, R116 -/ ⟨0x6C, [(4, 0x10)], false, .plain, fun _ _ => [fs 0 32 .rc 0]⟩,
  /- MAR_LOSS, R138 -/ ⟨0xA0, [], true, .plain, fun _ _ => [fs 0 64 .ro 0]⟩,
  /- MAR_LOSS_STAT, R138 -/ ⟨0xA8, [], false, .plain, fun _ _ => [fs 31 1 .ro 0, fs 0 13 .ro 0]⟩,
  /- MAR_SNAP_EP, R130 -/ ⟨0xB0, [], true, .plain, fun _ _ => [fs 0 64 .rl 0]⟩,
  /- MAR_SNAP_TS, R131 -/ ⟨0xB8, [], true, .plain, fun _ _ => [fs 0 64 .rl 0]⟩,
  /- MAR_SNAP_FLAGS, R136 -/ ⟨0xC0, [], false, .plain, fun _ _ => [fs 31 1 .rl 0, fs 30 1 .rl 0, fs 16 8 .rl 0, fs 0 13 .rl 0]⟩,
  /- MAR_EXP_BASE, R135 -/ ⟨0xD0, [], true, .plain, fun _ _ => [⟨0, 46, .rw, 0, 0, 70368744177663, .free, .marExpBase⟩]⟩,
  /- MAR_EXP_CFG, R135 -/ ⟨0xD8, [], false, .plain, fun _ _ => [fs 4 4 .rw 0]⟩,
  /- MAR_RLOG_WR, R121 -/ ⟨0xE8, [], false, .plain, fun _ _ => [fs 0 32 .rl 0]⟩,
  /- MAR_RLOG_RD, R121 -/ ⟨0xEC, [], false, .plain, fun _ _ => [fs 0 32 .rw 0]⟩,
  /- MAR_RLOG_DROP, R121 -/ ⟨0xF0, [], false, .plain, fun _ _ => [fs 0 32 .rc 0]⟩,
  /- MAR_EVT, R142 -/ ⟨0xF4, [], false, .plain, fun _ _ => [fs 0 10 .w1c 0]⟩,
  /- MAR_INEXACT, R139 -/ ⟨0x100, [(8, 0x4)], false, .plain, fun _ _ => [fs 0 32 .ro 0]⟩ ]

/-- The registers of block ISL. -/
def rowsISL : List Row := [
  /- ISL_STAT, R180 -/ ⟨0x4, [], false, .plain, fun _ _ => [fs 31 1 .w1c 0, fs 16 8 .ro 0, fs 15 1 .w1c 0, fs 14 1 .ro 0, fs 13 1 .ro 0, fs 12 1 .ro 0, fs 11 1 .ro 0, fs 10 1 .ro 0, fs 9 1 .w1c 0, fs 8 1 .rl 0, fs 4 3 .rl 0, fs 0 4 .rl 0]⟩,
  /- ISL_CTRL, R180 -/ ⟨0x8, [], false, .plain, fun _ _ => [fs 0 3 .rw 0]⟩,
  /- ISL_CMD, R181 -/ ⟨0xC, [], false, .islCmd, fun _ _ => [fs 8 3 .wo 0, fs 0 8 .wo 0]⟩,
  /- ISL_CTX_VALID, R171 -/ ⟨0x10, [], false, .plain, fun _ _ => [fs 8 8 .rl 0, fs 0 8 .ro 0]⟩,
  /- ISL_SW_CNT, R178 -/ ⟨0x14, [], false, .plain, fun _ _ => [fs 0 32 .ro 0]⟩,
  /- ISL_SW_TS, R178 -/ ⟨0x18, [], true, .plain, fun _ _ => [fs 0 64 .ro 0]⟩,
  /- ISL_CTX_CUR, R171 -/ ⟨0x20, [(8, 0x4)], false, .plain, fun _ _ => [fs 0 9 .ro 0]⟩,
  /- ISL_EVT, R182 -/ ⟨0x40, [], false, .plain, fun _ _ => [fs 11 1 .w1c 0, fs 10 1 .w1c 0, fs 8 1 .w1c 0, fs 0 6 .w1c 0]⟩,
  /- ISL_FP_CTRL, R165 -/ ⟨0x44, [], false, .plain, fun _ _ => [⟨8, 16, .rw, 10, 1, 65535, .free, .none⟩, fs 0 1 .rw 1]⟩,
  /- ISL_FP_STAT, R164 -/ ⟨0x48, [], false, .plain, fun _ _ => [fs 16 7 .rl 0, fs 8 7 .rl 0, fs 0 7 .rl 0]⟩,
  /- ISL_FP_TMO_CNT, R165 -/ ⟨0x4C, [], false, .plain, fun _ _ => [fs 0 32 .rc 0]⟩,
  /- ISL_FP_DISC, R164 -/ ⟨0x50, [], false, .plain, fun _ _ => [fs 0 32 .rc 0]⟩,
  /- ISL_TAP_LIVE, R161 -/ ⟨0x54, [], false, .plain, fun _ _ => [fs 0 8 .rl 0]⟩,
  /- ISL_IOB_STAT, R169 -/ ⟨0x80, [], false, .plain, fun _ _ => [fs 31 1 .ro 0, fs 16 2 .rl 0, fs 0 12 .rl 0]⟩,
  /- ISL_IOB_MIS, R169 -/ ⟨0x84, [], true, .plain, fun _ _ => [fs 0 48 .ro 0]⟩,
  /- ISL_IOB_IN, R169 -/ ⟨0x8C, [], true, .plain, fun _ _ => [fs 0 48 .rl 0]⟩,
  /- ISL_MU_VAL0, R160 -/ ⟨0x10000, [(8, 0x1000), (64, 0x40), (2, 0x20)], false, .muStage, fun _ _ => [fs 0 32 .rw 0]⟩,
  /- ISL_MU_VAL1, R160 -/ ⟨0x10004, [(8, 0x1000), (64, 0x40), (2, 0x20)], false, .muStage, fun _ _ => [fs 0 32 .rw 0]⟩,
  /- ISL_MU_MASK0, R160 -/ ⟨0x10008, [(8, 0x1000), (64, 0x40), (2, 0x20)], false, .muStage, fun _ _ => [fs 0 32 .rw 0]⟩,
  /- ISL_MU_MASK1, R160 -/ ⟨0x1000C, [(8, 0x1000), (64, 0x40), (2, 0x20)], false, .muCommit, fun _ _ => [fs 0 32 .rw 0]⟩,
  /- ISL_MU_CTRL, R159 -/ ⟨0x10010, [(8, 0x1000), (64, 0x40), (2, 0x20)], false, .muCtrl, fun _ _ => [fs 1 1 .ro 0, fs 0 1 .rw 0]⟩,
  /- ISL_MU_HITS, R183 -/ ⟨0x10014, [(8, 0x1000), (64, 0x40), (2, 0x20)], false, .plain, fun _ _ => [fs 0 32 .rc 0]⟩,
  /- ISL_CLK_CFG, R196 -/ ⟨0x100, [], false, .islClkCfg, fun _ _ => [fs 24 1 .rw 0, ⟨18, 3, .rw, 0, 0, 5, .free, .none⟩, fs 16 1 .rw 0, ⟨8, 3, .rw, 0, 0, 4, .free, .none⟩, fs 0 7 .rw 0]⟩,
  /- ISL_CLK_FRAC, R196 -/ ⟨0x104, [], false, .islClkCfg, fun _ _ => [fs 0 24 .rw 0]⟩,
  /- ISL_CLK_CTRL, R196 -/ ⟨0x108, [], false, .islClkReq, fun _ _ => [⟨0, 2, .rw, 0, 0, 2, .free, .none⟩]⟩,
  /- ISL_CLK_STAT, R194 -/ ⟨0x10C, [], false, .plain, fun _ _ => [fs 8 4 .ro 0, fs 6 1 .rl 0, fs 5 1 .rl 0, fs 4 1 .rl 0, fs 0 4 .rl 0]⟩,
  /- ISL_CLK_MEAS, R193 -/ ⟨0x110, [], false, .plain, fun _ _ => [fs 0 32 .rl 0]⟩,
  /- ISL_PWR_CTRL, R199 -/ ⟨0x118, [], false, .islPwr, fun _ _ => [fs 0 1 .rw 0]⟩,
  /- ISL_PWR_STAT, R199 -/ ⟨0x11C, [], false, .plain, fun _ _ => [fs 0 3 .rl 0]⟩,
  /- ISL_SLC_CTRL, R205 -/ ⟨0x140, [(4, 0x4)], false, .slcCtrl, fun _ _ => [fs 8 4 .w1s 0, fs 0 4 .rw 0xF]⟩,
  /- ISL_SLC_STAT, R204 -/ ⟨0x150, [(4, 0x4)], false, .plain, fun _ _ => [fs 24 4 .rl 0, fs 0 20 .rl 0]⟩,
  /- ISL_SLC_DROP, R204 -/ ⟨0x160, [(4, 0x4)], false, .plain, fun _ _ => [fs 0 32 .rc 0]⟩,
  /- ISL_VB_CFG, R234 -/ ⟨0x300, [], false, .plain, fun _ _ => [fs 31 1 .w1c 0, fs 30 1 .w1c 0, fs 24 2 .ro 0, fs 16 7 .ro 0, fs 8 7 .ro 0, fs 0 8 .ro 0]⟩,
  /- ISL_VB_MR, R234 -/ ⟨0x304, [], false, .plain, fun _ _ => [fs 31 1 .w1c 0, fs 30 1 .w1c 0, fs 24 2 .ro 0, fs 16 7 .ro 0, fs 8 7 .ro 0, fs 0 8 .ro 0]⟩,
  /- ISL_MR_CTRL, R216 -/ ⟨0x310, [], false, .plain, fun _ _ => [fs 4 4 .rw 0, fs 0 1 .rw 1]⟩,
  /- ISL_MR_STAT, R222 -/ ⟨0x314, [], false, .plain, fun _ _ => [fs 8 2 .rl 0, fs 0 5 .rl 0]⟩,
  /- ISL_MR_BUSERR, R216 -/ ⟨0x318, [], false, .plain, fun _ _ => [fs 0 32 .rc 0]⟩,
  /- ISL_MR_UE, R219 -/ ⟨0x31C, [], false, .plain, fun _ _ => [fs 0 32 .rc 0]⟩,
  /- ISL_MR_ROWS, R234 -/ ⟨0x320, [], true, .plain, fun _ _ => [fs 0 64 .rl 0]⟩,
  /- ISL_WEIR_STAT, R417 -/ ⟨0x200, [], false, .plain, fun _ _ => [fs 2 1 .ro 1, fs 1 1 .rl 1, fs 0 1 .rl 1]⟩,
  /- ISL_WEIR_IO, R417 -/ ⟨0x204, [(3, 0x4)], false, .plain, fun _ _ => [⟨0, 32, .rw, 0, 0, 4294967295, .weirIo, .none⟩]⟩,
  /- ISL_PR_CNT, R419 -/ ⟨0x210, [], false, .plain, fun _ _ => [fs 0 32 .ro 0]⟩,
  /- ISL_PR_TS, R412 -/ ⟨0x218, [], true, .plain, fun _ _ => [fs 0 64 .ro 0]⟩ ]

/-- The registers of block CLK. -/
def rowsCLK : List Row := [
  /- CLK_STAT, R186 -/ ⟨0x4, [], false, .plain, fun _ _ => [fs 31 1 .w1c 0, fs 16 8 .ro 0, fs 15 1 .w1c 0, fs 2 1 .rl 0, fs 0 2 .rl 0]⟩,
  /- CLK_REF_CFG, R187 -/ ⟨0x8, [], false, .clkRefCfg, fun _ _ => [fs 3 1 .rw 0, fs 2 1 .rw 0, fs 1 1 .rw 0, fs 0 1 .rw 0]⟩,
  /- CLK_REF_STAT, R185 -/ ⟨0xC, [], false, .plain, fun _ _ => [fs 16 16 .rl 0, fs 4 12 .rl 0, fs 2 1 .rl 0, fs 1 1 .rl 0, fs 0 1 .rl 0]⟩,
  /- CLK_JUDGE_CFG, R193 -/ ⟨0x10, [], false, .plain, fun _ _ => [⟨24, 4, .rw, 3, 1, 15, .free, .none⟩, ⟨12, 12, .rw, 200, 10, 4095, .free, .none⟩, ⟨0, 12, .rw, 1000, 100, 4095, .free, .none⟩]⟩,
  /- CLK_CORE_CFG, R189 -/ ⟨0x14, [], false, .plain, fun _ _ => [⟨8, 1, .rw, 0, 0, 1, .coresInReset, .none⟩, ⟨4, 3, .rw, 0, 0, 5, .coresInReset, .none⟩, ⟨0, 3, .rw, 0, 0, 4, .coresInReset, .none⟩]⟩,
  /- CLK_CLS_STAT, R190 -/ ⟨0x18, [], false, .plain, fun _ _ => [fs 16 6 .rl 0, fs 0 6 .rl 0]⟩,
  /- CLK_EVT, R207 -/ ⟨0x1C, [], false, .plain, fun _ _ => [fs 0 4 .w1c 0]⟩ ]

/-- The registers of block SRM. -/
def rowsSRM : List Row := [
  /- SRM_STAT, R258 -/ ⟨0x4, [], false, .plain, fun _ _ => [fs 31 1 .w1c 0, fs 16 8 .ro 0, fs 15 1 .w1c 0, fs 1 1 .rl 0, fs 0 1 .rl 0]⟩,
  /- SRM_CTRL, R251 -/ ⟨0x8, [], false, .plain, fun _ _ => [fs 0 1 .rw 0]⟩,
  /- SRM_CMD, R261 -/ ⟨0xC, [], false, .srmCmd, fun _ _ => [fs 0 8 .wo 0]⟩,
  /- SRM_TT_CFG, R253 -/ ⟨0x10, [], false, .plain, fun _ _ => [⟨0, 16, .rw, 100, 10, 65535, .free, .none⟩]⟩,
  /- SRM_LB_CFG, R250 -/ ⟨0x14, [], false, .plain, fun _ _ => [⟨8, 16, .rw, 1000, 1, 65535, .free, .none⟩, ⟨0, 8, .rw, 16, 2, 255, .free, .none⟩]⟩,
  /- SRM_TEST_ADDR, R251 -/ ⟨0x20, [], true, .plain, fun _ _ => [fs 0 64 .rw 0]⟩,
  /- SRM_TEST_DATA, R251 -/ ⟨0x28, [], true, .plain, fun _ _ => [fs 0 64 .rw 0]⟩,
  /- SRM_TEST_CHK, R251 -/ ⟨0x30, [], false, .plain, fun _ _ => [fs 0 16 .rw 0]⟩,
  /- SRM_ERR_ADDR, R249 -/ ⟨0x40, [], true, .plain, fun _ _ => [fs 0 64 .ro 0]⟩,
  /- SRM_ERR_INFO, R249 -/ ⟨0x48, [], false, .plain, fun _ _ => [fs 31 1 .ro 0, fs 30 1 .ro 0, fs 28 2 .ro 0, fs 24 2 .ro 0, fs 16 4 .ro 0, fs 0 12 .ro 0]⟩,
  /- SRM_EVT, R262 -/ ⟨0x50, [], false, .plain, fun _ _ => [fs 0 7 .w1c 0]⟩,
  /- SRM_SEC, R258 -/ ⟨0x60, [], false, .plain, fun _ _ => [fs 0 16 .ro 0]⟩ ]

/-- The registers of block SRB. -/
def rowsSRB : List Row := [
  /- SRB_STAT, R9 -/ ⟨0x4, [], false, .plain, fun _ _ => [fs 31 1 .w1c 0, fs 16 8 .ro 0, fs 15 1 .w1c 0]⟩,
  /- SRM_BANK_CTRL, R256 -/ ⟨0x8, [], false, .srbCtrl, fun _ _ => [fs 4 2 .rw 2, fs 2 1 .rw 1, fs 1 1 .rw 1, fs 0 1 .rw 0]⟩,
  /- SRM_BANK_CMD, R261 -/ ⟨0xC, [], false, .srbCmd, fun _ _ => [fs 16 12 .wo 0, fs 0 8 .wo 0]⟩,
  /- SRM_BANK_PSTAT, R256 -/ ⟨0x10, [], false, .plain, fun _ _ => [fs 0 2 .rl 0]⟩,
  /- SRM_BANK_CE, R246 -/ ⟨0x14, [], false, .plain, fun _ _ => [fs 0 32 .rc 0]⟩,
  /- SRM_BANK_UE, R247 -/ ⟨0x18, [], false, .plain, fun _ _ => [fs 0 32 .rc 0]⟩,
  /- SRM_BANK_LB, R250 -/ ⟨0x1C, [], false, .plain, fun _ _ => [fs 31 1 .rl 0, fs 0 8 .rl 0]⟩,
  /- SRM_BANK_TT, R253 -/ ⟨0x20, [], false, .plain, fun _ _ => [fs 16 16 .rl 0, fs 0 12 .rl 0]⟩,
  /- SRM_BANK_REP, R255 -/ ⟨0x24, [], false, .plain, fun _ _ => [fs 31 1 .ro 0, fs 0 8 .ro 0]⟩ ]

/-- The registers of block HUB. -/
def rowsHUB : List Row := [
  /- SRM_VB_HUB, R234 -/ ⟨0x300, [(4, 0x4)], false, .plain, fun _ _ => [fs 31 1 .w1c 0, fs 30 1 .w1c 0, fs 24 2 .ro 0, fs 16 7 .ro 0, fs 8 7 .ro 0, fs 0 8 .ro 0]⟩ ]

/-- The registers of block HBM. -/
def rowsHBM : List Row := [
  /- HBM_STAT, R290 -/ ⟨0x4, [], false, .plain, fun _ _ => [fs 31 1 .w1c 0, fs 16 8 .ro 0, fs 15 1 .w1c 0, fs 10 1 .rl 0, fs 9 1 .rl 0, fs 8 1 .ro 0, fs 4 3 .ro 0, fs 0 3 .rl 0]⟩,
  /- HBM_CTRL, R290 -/ ⟨0x8, [], false, .hbmCtrl, fun _ _ => [⟨1, 1, .rw, 1, 0, 1, .hbmOff, .none⟩, fs 0 1 .rw 0]⟩,
  /- HBM_CMD, R293 -/ ⟨0xC, [], false, .hbmCmd, fun _ _ => [fs 8 6 .wo 0, fs 0 8 .wo 0]⟩,
  /- HBM_MODE, R22 -/ ⟨0x10, [], false, .plain, fun _ _ => [⟨4, 2, .rw, 1, 0, 2, .hbmSpare, .hbmSpare⟩, ⟨0, 2, .rw, 1, 0, 2, .free, .none⟩]⟩,
  /- HBM_MAP, R268 -/ ⟨0x14, [], false, .plain, fun _ _ => [⟨0, 2, .rw, 1, 0, 2, .hbmOff, .none⟩]⟩,
  /- HBM_MAP_PCX, R268 -/ ⟨0x18, [(4, 0x4)], false, .plain, fun _ ix => [⟨0, 20, .rw, (pcxRst (ixAt ix 0)), 0, 1048575, .hbmOff, .none⟩]⟩,
  /- HBM_MAP_BKX, R268 -/ ⟨0x28, [(4, 0x4)], false, .plain, fun _ ix => [⟨0, 15, .rw, (bkxRst (ixAt ix 0)), 0, 32767, .hbmOff, .none⟩]⟩,
  /- HBM_REF_CFG, R274 -/ ⟨0x40, [], false, .plain, fun _ _ => [⟨8, 5, .rw, 8, 4, 16, .free, .none⟩, fs 0 1 .rw 0]⟩,
  /- HBM_TEMP, R275 -/ ⟨0x44, [], false, .plain, fun _ _ => [fs 31 1 .rl 0, fs 8 8 .rl 0, fs 0 8 .rl 0]⟩,
  /- HBM_MIG_CFG, R286 -/ ⟨0x50, [], false, .plain, fun _ _ => [fs 31 1 .rw 1, ⟨0, 6, .rw, 10, 5, 50, .free, .none⟩]⟩,
  /- HBM_MIG_STAT, R287 -/ ⟨0x54, [], false, .plain, fun _ _ => [fs 31 1 .rl 0, fs 16 6 .rl 0, fs 8 6 .rl 0, fs 0 8 .rl 0]⟩,
  /- HBM_LB_CFG, R285 -/ ⟨0x58, [], false, .plain, fun _ _ => [⟨24, 8, .rw, 8, 1, 255, .free, .none⟩, ⟨8, 16, .rw, 1000, 1, 65535, .free, .none⟩, ⟨0, 8, .rw, 32, 2, 255, .free, .none⟩]⟩,
  /- HBM_SCRUB_CTRL, R284 -/ ⟨0x60, [], false, .plain, fun _ _ => [fs 0 1 .rw 1]⟩,
  /- HBM_SCRUB_STAT, R284 -/ ⟨0x64, [], false, .plain, fun _ _ => [fs 16 16 .rl 0, fs 0 1 .rl 0]⟩,
  /- HBM_SCRUB_AMBIG, R284 -/ ⟨0x68, [], false, .plain, fun _ _ => [fs 0 32 .rc 0]⟩,
  /- HBM_SCRUB_UE, R284 -/ ⟨0x6C, [], false, .plain, fun _ _ => [fs 0 32 .rc 0]⟩,
  /- HBM_ERRLOG_ADDR, R279 -/ ⟨0x70, [], true, .plain, fun _ _ => [fs 0 64 .ro 0]⟩,
  /- HBM_ERRLOG_INFO, R279 -/ ⟨0x78, [], false, .plain, fun _ _ => [fs 31 1 .ro 0, fs 30 1 .ro 0, fs 28 2 .ro 0, fs 27 1 .ro 0, fs 26 1 .ro 0, fs 20 6 .ro 0, fs 16 4 .ro 0, fs 12 2 .ro 0, fs 0 12 .ro 0]⟩,
  /- HBM_ERRLOG_SYN, R279 -/ ⟨0x7C, [], false, .plain, fun _ _ => [fs 16 16 .ro 0, fs 0 16 .ro 0]⟩,
  /- HBM_EVT, R294 -/ ⟨0x80, [], false, .plain, fun _ _ => [fs 0 9 .w1c 0]⟩,
  /- HBM_TIMING, R295 -/ ⟨0x90, [], false, .plain, fun _ _ => [fs 24 8 .ro 81, fs 16 8 .ro 26, fs 8 8 .ro 26, fs 0 8 .ro 29]⟩,
  /- HBM_RANK, R286 -/ ⟨0x100, [(48, 0x4)], false, .plain, fun _ ix => [fs 16 1 .ro 0, fs 8 2 .ro (roleRst (ixAt ix 0)), fs 0 6 .ro ((ixAt ix 0))]⟩,
  /- HBM_VB_COL, R234 -/ ⟨0x300, [], false, .plain, fun _ _ => [fs 31 1 .w1c 0, fs 30 1 .w1c 0, fs 24 2 .ro 0, fs 16 7 .ro 0, fs 8 7 .ro 0, fs 0 8 .ro 0]⟩,
  /- HBM_VB_PC, R234 -/ ⟨0x304, [], false, .plain, fun _ _ => [fs 16 16 .ro 0, fs 0 16 .ro 0]⟩ ]

/-- The registers of block PC. -/
def rowsPC : List Row := [
  /- PC_STAT, R9 -/ ⟨0x4, [], false, .plain, fun _ _ => [fs 31 1 .w1c 0, fs 16 8 .ro 0]⟩,
  /- HBM_PC_CE, R281 -/ ⟨0x10, [], false, .plain, fun _ _ => [fs 0 32 .rc 0]⟩,
  /- HBM_PC_UE, R279 -/ ⟨0x14, [], false, .plain, fun _ _ => [fs 0 32 .rc 0]⟩,
  /- HBM_PC_KMIS, R279 -/ ⟨0x18, [], false, .plain, fun _ _ => [fs 0 32 .rc 0]⟩,
  /- HBM_PC_NREF, R276 -/ ⟨0x1C, [], false, .plain, fun _ _ => [fs 0 32 .rc 0]⟩,
  /- HBM_PC_LB, R285 -/ ⟨0x20, [(3, 0x4)], false, .plain, fun _ _ => [fs 31 1 .rl 0, fs 0 8 .rl 0]⟩,
  /- HBM_PC_TRAIN, R291 -/ ⟨0x30, [], false, .plain, fun _ _ => [fs 31 1 .ro 0, fs 8 8 .ro 0, fs 0 8 .ro 0]⟩,
  /- HBM_PC_RD, R296 -/ ⟨0x40, [], true, .plain, fun _ _ => [fs 0 64 .rl 0]⟩,
  /- HBM_PC_WR, R296 -/ ⟨0x48, [], true, .plain, fun _ _ => [fs 0 64 .rl 0]⟩,
  /- HBM_PC_QSTAT, R271 -/ ⟨0x50, [], false, .plain, fun _ _ => [fs 16 7 .rl 0, fs 0 7 .rl 0]⟩ ]

/-- The registers of block NOC. -/
def rowsNOC : List Row := [
  /- NOC_STAT, R312 -/ ⟨0x4, [], false, .plain, fun _ _ => [fs 31 1 .w1c 0, fs 16 8 .ro 0, fs 15 1 .w1c 0, fs 0 1 .rl 0]⟩,
  /- NOC_CMD, R319 -/ ⟨0xC, [], false, .nocCmd, fun _ _ => [fs 16 7 .wo 0, fs 0 8 .wo 0]⟩,
  /- NOC_DRAIN_TMO, R315 -/ ⟨0x10, [], false, .plain, fun _ _ => [⟨0, 16, .rw, 10, 1, 1000, .free, .none⟩]⟩,
  /- NOC_BARRIER, R312 -/ ⟨0x14, [], false, .plain, fun _ _ => [fs 16 16 .ro 0, fs 0 4 .ro 0]⟩,
  /- NOC_EVT, R320 -/ ⟨0x18, [], false, .plain, fun _ _ => [fs 0 8 .w1c 0]⟩,
  /- NOC_COH_WIN_BASE, R303 -/ ⟨0x40, [(4, 0x10)], true, .plain, fun _ _ => [fs 12 34 .rw 0]⟩,
  /- NOC_COH_WIN_SIZE, R303 -/ ⟨0x48, [(4, 0x10)], false, .plain, fun _ _ => [fs 0 24 .rw 0]⟩,
  /- NOC_COH_WIN_CTL, R303 -/ ⟨0x4C, [(4, 0x10)], false, .plain, fun _ _ => [fs 0 1 .rw 0]⟩,
  /- NOC_TRACE_BASE, R318 -/ ⟨0x80, [], true, .plain, fun _ _ => [fs 12 34 .rw 0]⟩,
  /- NOC_TRACE_SIZE, R318 -/ ⟨0x88, [], false, .plain, fun _ _ => [⟨0, 16, .rw, 1, 1, 65535, .free, .none⟩]⟩,
  /- NOC_TRACE_KEY, R318 -/ ⟨0x8C, [], false, .plain, fun _ _ => [fs 0 4 .rw 0]⟩,
  /- NOC_TRACE_WR, R318 -/ ⟨0x90, [], false, .plain, fun _ _ => [fs 0 32 .rl 0]⟩,
  /- NOC_TRACE_RD, R318 -/ ⟨0x94, [], false, .plain, fun _ _ => [fs 0 32 .rw 0]⟩,
  /- NOC_PROBE_CFG, R317 -/ ⟨0x800, [(8, 0x40)], false, .plain, fun _ _ => [fs 31 1 .rw 0, ⟨28, 2, .rw, 0, 0, 2, .free, .probeMode⟩, fs 24 2 .rw 0, fs 23 1 .rw 0, ⟨16, 7, .rw, 0, 0, 127, .free, .probePoint⟩, ⟨8, 3, .rw, 0, 0, 5, .free, .none⟩, fs 0 3 .rw 0]⟩,
  /- NOC_PROBE_FILT, R317 -/ ⟨0x804, [(8, 0x40)], false, .plain, fun _ _ => [fs 31 1 .rw 0, fs 30 1 .rw 0, fs 29 1 .rw 0, fs 16 7 .rw 0, fs 8 7 .rw 0, fs 0 4 .rw 0]⟩,
  /- NOC_PROBE_AMATCH, R317 -/ ⟨0x808, [(8, 0x40)], true, .plain, fun _ _ => [fs 0 64 .rw 0]⟩,
  /- NOC_PROBE_AMASK, R317 -/ ⟨0x810, [(8, 0x40)], true, .plain, fun _ _ => [fs 0 64 .rw 0]⟩,
  /- NOC_PROBE_PKTS, R317 -/ ⟨0x818, [(8, 0x40)], true, .plain, fun _ _ => [fs 0 64 .rl 0]⟩,
  /- NOC_PROBE_FLITS, R317 -/ ⟨0x820, [(8, 0x40)], true, .plain, fun _ _ => [fs 0 64 .rl 0]⟩,
  /- NOC_PROBE_LMAX, R317 -/ ⟨0x828, [(8, 0x40)], false, .plain, fun _ _ => [fs 0 32 .rl 0]⟩,
  /- NOC_PROBE_LSUM, R317 -/ ⟨0x830, [(8, 0x40)], true, .plain, fun _ _ => [fs 0 64 .rl 0]⟩,
  /- NOC_PROBE_LOST, R318 -/ ⟨0x83C, [(8, 0x40)], false, .plain, fun _ _ => [fs 0 32 .rc 0]⟩,
  /- NOC_RTR_STAT, R314 -/ ⟨0x1000, [(80, 0x4)], false, .plain, fun _ _ => [fs 4 2 .rl 0, fs 0 2 .rl 0]⟩,
  /- NOC_LINK_STAT, R313 -/ ⟨0x1400, [(160, 0x4)], false, .plain, fun _ _ => [fs 8 16 .rl 0, fs 0 2 .rl 0]⟩,
  /- NOC_NI_CFG, R306 -/ ⟨0x2000, [(97, 0x20)], false, .plain, fun _ _ => [fs 0 3 .rw 0]⟩,
  /- NOC_NI_STAT, R316 -/ ⟨0x2004, [(97, 0x20)], false, .plain, fun _ _ => [fs 16 7 .rl 0, fs 8 7 .rl 0, fs 0 1 .rl 0]⟩,
  /- NOC_NI_DROP, R315 -/ ⟨0x2008, [(97, 0x20)], false, .plain, fun _ _ => [fs 0 32 .rc 0]⟩,
  /- NOC_NI_DROP_SRC, R316 -/ ⟨0x200C, [(97, 0x20)], false, .plain, fun _ _ => [fs 31 1 .ro 0, fs 8 4 .ro 0, fs 0 7 .ro 0]⟩,
  /- NOC_NI_DROP_ADDR, R316 -/ ⟨0x2010, [(97, 0x20)], true, .plain, fun _ _ => [fs 0 46 .ro 0]⟩,
  /- NOC_NI_UNAV, R315 -/ ⟨0x2018, [(97, 0x20)], false, .plain, fun _ _ => [fs 0 32 .rc 0]⟩,
  /- NOC_RT_ROUTE, R304 -/ ⟨0x20000, [(97, 0x1000), (256, 0x10)], true, .rtRoute, fun _ ix => [fs 48 5 .rw (rtHopsRst (ixAt ix 0) (ixAt ix 1)), fs 0 48 .rw (rtDirRst (ixAt ix 0) (ixAt ix 1))]⟩,
  /- NOC_RT_CTL, R310 -/ ⟨0x20008, [(97, 0x1000), (256, 0x10)], false, .rtCtl, fun _ ix => [fs 31 1 .rw (rtValidRst (ixAt ix 1)), fs 30 1 .ro 0, fs 16 7 .rw (rtDstRst (ixAt ix 1)), fs 8 3 .rw 0, fs 4 4 .rw 0]⟩ ]

/-- The registers of block MIL. -/
def rowsMIL : List Row := [
  /- MIL_STAT, R349 -/ ⟨0x4, [], false, .plain, fun _ _ => [fs 31 1 .w1c 0, fs 16 8 .ro 0, fs 15 1 .w1c 0, fs 2 1 .rl 0, fs 1 1 .rl 0, fs 0 1 .ro 0]⟩,
  /- MIL_CTRL, R325 -/ ⟨0x8, [], false, .plain, fun _ _ => [⟨0, 4, .rw, 0, 0, 15, .coresInReset, .none⟩]⟩,
  /- MIL_CMD, R335 -/ ⟨0xC, [], false, .milCmd, fun _ _ => [fs 16 4 .wo 0, fs 8 2 .wo 0, fs 0 8 .wo 0]⟩,
  /- MIL_FW_STAT, R335 -/ ⟨0x10, [], false, .plain, fun _ _ => [fs 8 4 .ro 0, fs 0 2 .ro 0]⟩,
  /- MIL_FW_VER, R335 -/ ⟨0x14, [], false, .plain, fun _ _ => [fs 24 8 .ro 0, fs 16 8 .ro 0, fs 0 16 .ro 0]⟩,
  /- MIL_FW_SVN, R335 -/ ⟨0x18, [], false, .minSvn, fun _ _ => [fs 16 16 .ro 0, fs 0 16 .ro 0]⟩,
  /- MIL_FW_SRC, R335 -/ ⟨0x20, [], true, .plain, fun _ _ => [fs 6 40 .rw 0]⟩,
  /- MIL_CMO_BASE, R327 -/ ⟨0x28, [], true, .plain, fun _ _ => [fs 6 40 .rw 0]⟩,
  /- MIL_CMO_SIZE, R327 -/ ⟨0x30, [], false, .plain, fun _ _ => [⟨0, 24, .rw, 1, 1, 16777215, .free, .none⟩]⟩,
  /- MIL_EVT, R349 -/ ⟨0x34, [], false, .plain, fun _ _ => [fs 0 16 .w1c 0]⟩,
  /- MIL_CORE_STAT, R336 -/ ⟨0x100, [(4, 0x40)], false, .plain, fun _ _ => [fs 0 3 .rl 0]⟩,
  /- MIL_MTIMECMP, R329 -/ ⟨0x108, [(4, 0x40)], true, .plain, fun _ _ => [fs 0 64 .rw 0xFFFFFFFFFFFFFFFF]⟩,
  /- MIL_MSIP, R329 -/ ⟨0x110, [(4, 0x40)], false, .plain, fun _ _ => [fs 0 1 .rw 0]⟩,
  /- MIL_WDG_CFG, R330 -/ ⟨0x114, [(4, 0x40)], false, .wdgCfg, fun _ _ => [fs 31 1 .rw 0, fs 30 1 .rw 1, ⟨0, 20, .rw, 1000, 1, 1000000, .free, .none⟩]⟩,
  /- MIL_WDG_KICK, R330 -/ ⟨0x118, [(4, 0x40)], false, .wdgKick, fun _ _ => [fs 0 32 .wo 0]⟩,
  /- MIL_WDG_VAL, R330 -/ ⟨0x11C, [(4, 0x40)], false, .plain, fun _ _ => [fs 0 20 .rl 0]⟩,
  /- MIL_UART_CFG, R331 -/ ⟨0x200, [(2, 0x10)], false, .uartCfg, fun _ ix => [fs 31 1 .rw 0, fs 28 2 .rw ((ixAt ix 0)), fs 27 1 .rw 0, ⟨25, 2, .rw, 0, 0, 2, .free, .none⟩, fs 16 6 .rw 1, ⟨0, 16, .rw, 543, 1, 65535, .free, .none⟩]⟩,
  /- MIL_UART_DATA, R331 -/ ⟨0x204, [(2, 0x10)], false, .uartData, fun _ _ => [fs 0 8 .wo 0]⟩,
  /- MIL_UART_STAT, R331 -/ ⟨0x208, [(2, 0x10)], false, .plain, fun _ _ => [fs 31 1 .w1c 0, fs 30 1 .w1c 0, fs 8 7 .rl 0, fs 0 7 .rl 0]⟩,
  /- MIL_MB_CFG, R332 -/ ⟨0x400, [(16, 0x10)], false, .plain, fun _ ix => [⟨0, 3, .rw, ((ixAt ix 0) % 4), 0, 4, .free, .none⟩]⟩,
  /- MIL_MB_SEND, R332 -/ ⟨0x404, [(16, 0x10)], false, .mbSend, fun _ _ => [fs 0 32 .wo 0]⟩,
  /- MIL_MB_RECV, R332 -/ ⟨0x408, [(16, 0x10)], false, .mbRecv, fun _ _ => [fs 0 32 .rc 0]⟩,
  /- MIL_MB_STAT, R332 -/ ⟨0x40C, [(16, 0x10)], false, .plain, fun _ _ => [fs 31 1 .w1c 0, fs 0 5 .rl 0]⟩,
  /- SEM_STAT, R333 -/ ⟨0x7F0, [], false, .plain, fun _ _ => [fs 1 1 .w1c 0, fs 0 1 .w1c 0]⟩,
  /- SEM_TAKE, R333 -/ ⟨0x800, [(64, 0x10)], false, .semTake, fun _ _ => [fs 0 32 .wo 0]⟩,
  /- SEM_GIVE, R333 -/ ⟨0x804, [(64, 0x10)], false, .semGive, fun _ _ => [fs 0 32 .wo 0]⟩,
  /- SEM_OWNER, R333 -/ ⟨0x808, [(64, 0x10)], false, .plain, fun _ _ => [fs 9 1 .rl 0, fs 8 1 .rl 0, fs 0 8 .rl 0]⟩,
  /- SEM_FORCE, R333 -/ ⟨0x80C, [(64, 0x10)], false, .semForce, fun _ _ => [fs 0 32 .wo 0]⟩ ]

/-- The registers of block MST. -/
def rowsMST : List Row := [
  /- MST_STAT, R347 -/ ⟨0x4, [], false, .plain, fun _ _ => [fs 31 1 .w1c 0, fs 16 8 .ro 0, fs 15 1 .w1c 0, fs 8 2 .rl 0, fs 0 2 .rl 0]⟩,
  /- MST_CTRL, R338 -/ ⟨0x8, [], false, .plain, fun _ _ => [fs 0 4 .rw 0]⟩,
  /- MST_CMD, R347 -/ ⟨0xC, [], false, .mstCmd, fun _ _ => [fs 0 8 .wo 0]⟩,
  /- MST_JOB_ADDR, R338 -/ ⟨0x10, [], true, .plain, fun _ _ => [fs 0 46 .rl 0]⟩,
  /- MST_EVT, R348 -/ ⟨0x18, [], false, .plain, fun _ _ => [fs 0 4 .w1c 0]⟩,
  /- MST_JOBS, R347 -/ ⟨0x20, [], false, .plain, fun _ _ => [fs 0 32 .rc 0]⟩,
  /- MST_BLK_LOST, R342 -/ ⟨0x24, [], false, .plain, fun _ _ => [fs 0 32 .rc 0]⟩,
  /- MST_RING_BASE, R338 -/ ⟨0x100, [(4, 0x20)], true, .plain, fun _ _ => [⟨7, 39, .rw, 0, 0, 549755813887, .mstRing, .none⟩]⟩,
  /- MST_RING_SIZE, R338 -/ ⟨0x108, [(4, 0x20)], false, .plain, fun _ _ => [⟨0, 13, .rw, 1, 1, 4096, .mstRing, .none⟩]⟩,
  /- MST_RING_WR, R338 -/ ⟨0x10C, [(4, 0x20)], false, .mstRingWr, fun _ _ => [fs 0 32 .rw 0]⟩,
  /- MST_RING_RD, R338 -/ ⟨0x110, [(4, 0x20)], false, .plain, fun _ _ => [fs 0 32 .rl 0]⟩,
  /- MST_RING_KEY, R338 -/ ⟨0x114, [(4, 0x20)], false, .plain, fun _ _ => [fs 0 4 .rw 0]⟩,
  /- MST_PAT_VAL, R340 -/ ⟨0x1000, [(64, 0x100), (16, 0x4)], false, .plain, fun _ _ => [⟨0, 32, .rw, 0, 0, 4294967295, .mstPat, .none⟩]⟩,
  /- MST_PAT_MASK, R340 -/ ⟨0x1040, [(64, 0x100), (16, 0x4)], false, .plain, fun _ _ => [⟨0, 32, .rw, 0, 0, 4294967295, .mstPat, .none⟩]⟩,
  /- MST_PAT_CFG, R340 -/ ⟨0x1080, [(64, 0x100)], false, .plain, fun _ _ => [⟨31, 1, .rw, 0, 0, 1, .mstPat, .none⟩, ⟨30, 1, .rw, 0, 0, 1, .mstPat, .none⟩, ⟨16, 14, .rw, 0, 0, 16383, .mstPat, .none⟩, ⟨0, 7, .rw, 1, 1, 64, .mstPat, .none⟩]⟩ ]

/-- The registers of block HST. -/
def rowsHST : List Row := [
  /- HST_STAT, R351 -/ ⟨0x4, [], false, .plain, fun _ _ => [fs 31 1 .w1c 0, fs 16 8 .ro 0, fs 15 1 .w1c 0, fs 1 1 .rl 0, fs 0 1 .ro 0]⟩,
  /- HST_CMD, R379 -/ ⟨0xC, [], false, .hstCmd, fun _ _ => [fs 16 6 .wo 0, fs 0 8 .wo 0]⟩,
  /- HST_IF_VER, R356 -/ ⟨0x10, [], false, .plain, fun _ _ => [fs 16 8 .ro 1, fs 8 8 .ro 1, fs 0 8 .ro 2]⟩,
  /- HST_DRV_HELLO, R356 -/ ⟨0x14, [], false, .drvHello, fun _ _ => [fs 16 8 .rw 0, fs 8 8 .rw 0, fs 0 8 .rw 0]⟩,
  /- HST_IF_STAT, R356 -/ ⟨0x18, [], false, .plain, fun _ _ => [fs 31 1 .ro 0, fs 30 1 .ro 0, fs 8 8 .ro 0, fs 0 8 .ro 0]⟩,
  /- HST_LINK_STAT, R350 -/ ⟨0x20, [], false, .plain, fun _ _ => [fs 16 5 .rl 0, fs 0 4 .rl 0]⟩,
  /- HST_ERR_CNT, R352 -/ ⟨0x24, [], false, .plain, fun _ _ => [fs 0 32 .rc 0]⟩,
  /- HST_ERR_ADDR, R352 -/ ⟨0x28, [], true, .plain, fun _ _ => [fs 0 46 .ro 0]⟩,
  /- HST_ERR_INFO, R352 -/ ⟨0x30, [], false, .plain, fun _ _ => [fs 31 1 .ro 0, fs 30 1 .ro 0, fs 0 3 .ro 0]⟩,
  /- HST_EVT, R380 -/ ⟨0x34, [], false, .plain, fun _ _ => [fs 0 8 .w1c 0]⟩,
  /- HST_WIN_BASE, R355 -/ ⟨0x100, [(16, 0x10)], true, .plain, fun _ ix => [⟨12, 34, .rw, (winBaseRst (ixAt ix 0)), 0, 17179869183, .free, .winBase⟩]⟩,
  /- HST_WIN_SIZE, R355 -/ ⟨0x108, [(16, 0x10)], false, .plain, fun _ ix => [⟨0, 21, .rw, (winSizeRst (ixAt ix 0)), 1, 1048576, .free, .winSize⟩]⟩,
  /- HST_WIN_CTL, R355 -/ ⟨0x10C, [(16, 0x10)], false, .plain, fun _ ix => [fs 31 1 .rw (winEnRst (ixAt ix 0)), fs 8 3 .rw 0, fs 4 4 .rw 0]⟩,
  /- HST_Q_CFG, R357 -/ ⟨0x1000, [(64, 0x40)], false, .plain, fun _ _ => [⟨31, 1, .rw, 0, 0, 1, .hstQOff, .none⟩, ⟨30, 1, .rw, 0, 0, 1, .hstQOff, .wbEn⟩, ⟨24, 2, .rw, 0, 0, 2, .hstQOff, .none⟩, ⟨20, 3, .rw, 0, 0, 7, .hstQOff, .none⟩, ⟨16, 4, .rw, 0, 0, 15, .hstQOff, .none⟩, ⟨0, 9, .rw, 0, 0, 511, .hstQOff, .none⟩]⟩,
  /- HST_Q_SIZE, R358 -/ ⟨0x1004, [(64, 0x40)], false, .plain, fun _ _ => [⟨0, 17, .rw, 16, 0, 131071, .hstQOff, .qSize⟩]⟩,
  /- HST_Q_RING, R358 -/ ⟨0x1008, [(64, 0x40)], true, .plain, fun _ _ => [⟨0, 64, .rw, 0, 0, 18446744073709551615, .hstQOff, .qRing⟩]⟩,
  /- HST_Q_TAIL, R358 -/ ⟨0x1010, [(64, 0x40)], false, .qTail, fun _ _ => [fs 0 32 .rw 0]⟩,
  /- HST_Q_HEAD, R358 -/ ⟨0x1014, [(64, 0x40)], false, .plain, fun _ _ => [fs 0 32 .rl 0]⟩,
  /- HST_Q_STAT, R361 -/ ⟨0x1018, [(64, 0x40)], false, .plain, fun _ _ => [fs 8 4 .rl 0, fs 0 2 .rl 0]⟩,
  /- HST_Q_WB, R359 -/ ⟨0x1020, [(64, 0x40)], true, .plain, fun _ _ => [⟨2, 62, .rw, 0, 0, 4611686018427387903, .minor1, .none⟩]⟩,
  /- HST_Q_IMOD, R359 -/ ⟨0x1028, [(64, 0x40)], false, .plain, fun _ _ => [⟨0, 16, .rw, 0, 0, 65535, .minor2, .none⟩]⟩,
  /- HST_Q_BYTES, R361 -/ ⟨0x1030, [(64, 0x40)], true, .plain, fun _ _ => [fs 0 64 .rl 0]⟩ ]

/-- The registers of block RLK. -/
def rowsRLK : List Row := [
  /- RLK_STAT, R379 -/ ⟨0x4, [], false, .plain, fun _ _ => [fs 31 1 .w1c 0, fs 16 8 .ro 0, fs 15 1 .w1c 0]⟩,
  /- RLK_CMD, R379 -/ ⟨0xC, [], false, .rlkCmd, fun _ _ => [fs 8 1 .wo 0, fs 0 8 .wo 0]⟩,
  /- RLK_EVT, R380 -/ ⟨0x10, [], false, .plain, fun _ _ => [fs 0 8 .w1c 0]⟩,
  /- RLK_CTRL, R367 -/ ⟨0x100, [(2, 0x100)], false, .rlkCtrl, fun _ _ => [⟨28, 2, .rw, 0, 0, 2, .rlkEn, .none⟩, ⟨24, 2, .rw, 2, 0, 2, .rlkEn, .none⟩, ⟨20, 2, .rw, 0, 0, 2, .rlkEn, .none⟩, ⟨16, 2, .rw, 2, 0, 2, .rlkEn, .none⟩, ⟨12, 1, .rw, 0, 0, 1, .rlkEn, .none⟩, ⟨8, 3, .rw, 0, 0, 4, .rlkEn, .none⟩, fs 1 1 .rw 0, fs 0 1 .rw 1]⟩,
  /- RLK_LINK_STAT, R367 -/ ⟨0x104, [(2, 0x100)], false, .plain, fun _ _ => [fs 31 1 .rl 0, fs 30 1 .rl 0, fs 29 1 .rl 0, fs 24 4 .rl 0, fs 20 2 .rl 0, fs 16 2 .rl 0, fs 0 3 .rl 0]⟩,
  /- RLK_PEER, R367 -/ ⟨0x108, [(2, 0x100)], true, .plain, fun _ _ => [fs 0 48 .ro 0]⟩,
  /- RLK_BIND, R370 -/ ⟨0x110, [(2, 0x100)], false, .plain, fun _ _ => [fs 17 1 .rw 0, fs 16 1 .rw 0, ⟨8, 7, .rw, 71, 70, 79, .rlkBind1, .none⟩, ⟨0, 7, .rw, 70, 70, 79, .rlkBind0, .none⟩]⟩,
  /- RLK_TS_CFG, R372 -/ ⟨0x114, [(2, 0x100)], false, .plain, fun _ _ => [fs 16 16 .rw 0, ⟨0, 8, .rw, 1, 1, 255, .free, .none⟩]⟩,
  /- RLK_TS_OFF, R372 -/ ⟨0x118, [(2, 0x100)], false, .plain, fun _ _ => [fs 0 32 .rl 0]⟩,
  /- RLK_CREDIT, R369 -/ ⟨0x11C, [(2, 0x100)], false, .plain, fun _ _ => [fs 24 4 .rl 0, fs 16 7 .rl 0, fs 0 7 .rl 0]⟩,
  /- RLK_CRC_ERR, R364 -/ ⟨0x120, [(2, 0x100)], false, .plain, fun _ _ => [fs 0 32 .rc 0]⟩,
  /- RLK_REPLAY, R368 -/ ⟨0x124, [(2, 0x100)], false, .plain, fun _ _ => [fs 0 32 .rc 0]⟩,
  /- RLK_TRIG_LOST, R371 -/ ⟨0x128, [(2, 0x100)], false, .plain, fun _ _ => [fs 0 32 .rc 0]⟩,
  /- RLK_DROP, R370 -/ ⟨0x12C, [(2, 0x100)], false, .plain, fun _ _ => [fs 0 32 .rc 0]⟩,
  /- RLK_LOST, R367 -/ ⟨0x130, [(2, 0x100)], false, .plain, fun _ _ => [fs 0 32 .rc 0]⟩,
  /- RLK_LN_CTRL, R362 -/ ⟨0x10800, [(2, 0x8000), (8, 0x1000)], false, .plain, fun _ _ => [⟨12, 4, .rw, 0, 0, 12, .free, .none⟩, fs 8 4 .rw 10, fs 3 1 .rw 0, ⟨1, 2, .rw, 0, 0, 2, .rlkLane, .none⟩, ⟨0, 1, .rw, 0, 0, 1, .rlkLane, .none⟩]⟩,
  /- RLK_LN_STAT, R362 -/ ⟨0x10804, [(2, 0x8000), (8, 0x1000)], false, .plain, fun _ _ => [fs 24 1 .rl 0, fs 8 9 .rl 0, fs 4 4 .rl 15, fs 3 1 .rl 0, fs 2 1 .rl 0, fs 1 1 .rl 0, fs 0 1 .rl 0]⟩,
  /- RLK_LN_HDR_ERR, R362 -/ ⟨0x10808, [(2, 0x8000), (8, 0x1000)], false, .plain, fun _ _ => [fs 0 32 .rc 0]⟩,
  /- RLK_LN_MKR_ERR, R362 -/ ⟨0x1080C, [(2, 0x8000), (8, 0x1000)], false, .plain, fun _ _ => [fs 0 32 .rc 0]⟩,
  /- RLK_LN_CAL, R362 -/ ⟨0x10810, [(2, 0x8000), (8, 0x1000)], false, .rlnCal, fun _ _ => [fs 16 16 .rl 0, fs 0 16 .rl 0]⟩ ]

/-- The registers of block TSB. -/
def rowsTSB : List Row := [
  /- TSB_STAT, R373 -/ ⟨0x4, [], false, .plain, fun _ _ => [fs 31 1 .w1c 0, fs 16 8 .ro 0, fs 15 1 .w1c 0, fs 8 1 .rl 0, fs 0 2 .rl 0]⟩,
  /- TSB_CTRL, R373 -/ ⟨0x8, [], false, .tsbCtrl, fun _ _ => [⟨0, 2, .rw, 0, 0, 2, .free, .none⟩]⟩,
  /- TSB_CMD, R379 -/ ⟨0xC, [], false, .tsbCmd, fun _ _ => [fs 0 8 .wo 0]⟩,
  /- TSB_NOW, R373 -/ ⟨0x10, [], true, .plain, fun _ _ => [fs 0 64 .rl 0]⟩,
  /- TSB_SET, R373 -/ ⟨0x18, [], true, .plain, fun _ _ => [fs 0 64 .rw 0]⟩,
  /- TSB_OFFSET, R373 -/ ⟨0x20, [], false, .plain, fun _ _ => [fs 0 32 .rl 0]⟩,
  /- TSB_FREQ, R373 -/ ⟨0x24, [], false, .plain, fun _ _ => [fs 0 32 .rl 0]⟩,
  /- TSB_EVT, R380 -/ ⟨0x28, [], false, .plain, fun _ _ => [fs 0 4 .w1c 0]⟩ ]

/-- The registers of block EVT. -/
def rowsEVT : List Row := [
  /- EVT_STAT, R380 -/ ⟨0x4, [], false, .plain, fun _ _ => [fs 31 1 .w1c 0, fs 16 8 .ro 0, fs 15 1 .w1c 0]⟩,
  /- EVT_FAB_OFF, R376 -/ ⟨0x10, [], false, .plain, fun _ _ => [fs 6 23 .rw 0x7FFFFF]⟩,
  /- EVT_FAB_LOST, R376 -/ ⟨0x14, [], false, .plain, fun _ _ => [fs 0 32 .rc 0]⟩,
  /- EVT_USER_RAISE, R377 -/ ⟨0x18, [], false, .evtUser, fun _ _ => [fs 0 5 .wo 0]⟩,
  /- EVT_PEND, R375 -/ ⟨0x100, [(32, 0x4)], false, .plain, fun _ _ => [fs 0 32 .w1c 0]⟩,
  /- EVT_CLAIM, R376 -/ ⟨0x200, [(4, 0x8), (2, 0x4)], false, .evtClaim, fun _ _ => [fs 31 1 .rc 0, fs 0 10 .rc 0]⟩,
  /- EVT_ROUTE_A, R376 -/ ⟨0x10000, [(1024, 0x8)], false, .evtRouteA, fun _ _ => [fs 31 1 .rw 0, fs 24 4 .rw 0, fs 23 1 .rw 0, fs 16 1 .rw 0, fs 0 9 .rw 0]⟩,
  /- EVT_ROUTE_B, R376 -/ ⟨0x10004, [(1024, 0x8)], false, .plain, fun _ _ => [fs 31 1 .rw 0, ⟨16, 7, .rw, 0, 0, 79, .free, .none⟩, fs 7 1 .rw 0, fs 0 3 .rw 0]⟩ ]

/-- The registers of block CFG. -/
def rowsCFG : List Row := [
  /- CFG_STAT, R391 -/ ⟨0x4, [], false, .plain, fun _ _ => [fs 31 1 .w1c 0, fs 16 8 .ro 0, fs 15 1 .w1c 0, fs 14 1 .w1c 0, fs 13 1 .ro 0, fs 12 1 .ro 0, fs 11 1 .rl 0, fs 10 1 .rl 0, fs 0 4 .rl 0]⟩,
  /- CFG_CTRL, R402 -/ ⟨0x8, [], false, .cfgCtrl, fun _ _ => [⟨8, 16, .rw, 100, 1, 65535, .free, .none⟩, fs 0 1 .rw 0]⟩,
  /- CFG_CMD, R401 -/ ⟨0xC, [], false, .cfgCmd, fun _ _ => [fs 24 7 .wo 0, fs 16 8 .wo 0, fs 10 1 .wo 0, fs 8 2 .wo 0, fs 0 8 .wo 0]⟩,
  /- CFG_LOAD_STAT, R393 -/ ⟨0x10, [], false, .plain, fun _ _ => [fs 28 3 .ro 0, fs 16 4 .ro 0, fs 8 5 .ro 0, fs 0 2 .ro 0]⟩,
  /- CFG_ERR_WORD, R393 -/ ⟨0x14, [], false, .plain, fun _ _ => [fs 0 32 .ro 0]⟩,
  /- CFG_ERR_FAR, R393 -/ ⟨0x18, [], false, .plain, fun _ _ => [fs 0 27 .ro 0]⟩,
  /- CFG_FIFO, R402 -/ ⟨0x1C, [], false, .cfgFifo, fun _ _ => [fs 0 32 .wo 0]⟩,
  /- CFG_FIFO_STAT, R402 -/ ⟨0x20, [], false, .plain, fun _ _ => [fs 16 9 .rl 256]⟩,
  /- CFG_FIFO_DROP, R402 -/ ⟨0x24, [], false, .plain, fun _ _ => [fs 0 32 .rc 0]⟩,
  /- CFG_MEM_BASE, R401 -/ ⟨0x28, [], true, .plain, fun _ _ => [fs 2 44 .rw 0]⟩,
  /- CFG_MEM_LEN, R401 -/ ⟨0x30, [], false, .plain, fun _ _ => [⟨2, 30, .rw, 0, 0, 1073741823, .cfgNoSrc, .none⟩]⟩,
  /- CFG_MEM_KEY, R402 -/ ⟨0x34, [], false, .plain, fun _ _ => [fs 0 4 .rw 0]⟩,
  /- CFG_STARTUP, R413 -/ ⟨0x40, [], false, .plain, fun _ _ => [fs 0 16 .ro 0x1024]⟩,
  /- CFG_REGION, R388 -/ ⟨0x44, [(3, 0x4)], false, .plain, fun _ _ => [fs 0 32 .ro 0]⟩,
  /- CFG_PINS, R391 -/ ⟨0x50, [], false, .plain, fun _ _ => [fs 11 1 .rl 1, fs 10 1 .rl 0, fs 9 1 .rl 0, fs 8 1 .rl 0, fs 4 3 .rl 0, fs 0 3 .rl 0]⟩,
  /- CFG_BOOT_STAT, R405 -/ ⟨0x54, [], false, .plain, fun _ _ => [fs 31 1 .ro 0, fs 8 4 .ro 0, fs 4 4 .ro 0, fs 0 2 .ro 0]⟩,
  /- CFG_WORDS, R427 -/ ⟨0x58, [], false, .plain, fun _ _ => [fs 0 32 .rl 0]⟩,
  /- CFG_FRAMES, R401 -/ ⟨0x5C, [], false, .plain, fun _ _ => [fs 0 32 .rc 0]⟩,
  /- CFG_REJ_FRAMES, R395 -/ ⟨0x60, [], false, .plain, fun _ _ => [fs 0 32 .rc 0]⟩,
  /- CFG_EVT, R425 -/ ⟨0x64, [], false, .plain, fun _ _ => [fs 0 5 .w1c 0]⟩,
  /- CFG_DESIGN, R410 -/ ⟨0x80, [(80, 0x4)], false, .cfgDesign, fun _ _ => [fs 0 32 .ro 0]⟩,
  /- CFG_VB_RISER, R234 -/ ⟨0x300, [(2, 0x4)], false, .plain, fun _ _ => [fs 31 1 .w1c 0, fs 30 1 .w1c 0, fs 24 2 .ro 0, fs 16 7 .ro 0, fs 8 7 .ro 0, fs 0 8 .ro 0]⟩,
  /- CFG_VB_SVC, R234 -/ ⟨0x308, [], false, .plain, fun _ _ => [fs 31 1 .w1c 0, fs 30 1 .w1c 0, fs 24 2 .ro 0, fs 16 7 .ro 0, fs 8 7 .ro 0, fs 0 8 .ro 0]⟩,
  /- CFG_VB_PEO, R234 -/ ⟨0x30C, [], false, .plain, fun _ _ => [fs 31 1 .w1c 0, fs 30 1 .w1c 0, fs 24 2 .ro 0, fs 16 7 .ro 0, fs 8 7 .ro 0, fs 0 8 .ro 0]⟩,
  /- CFG_VB_LAST, R234 -/ ⟨0x310, [], false, .plain, fun _ _ => [fs 28 4 .ro 0, fs 20 8 .ro 0, fs 0 2 .ro 0]⟩,
  /- CFG_VB_REC, R234 -/ ⟨0x314, [], false, .plain, fun _ _ => [fs 31 1 .ro 0, fs 16 13 .ro 0, fs 0 13 .ro 0]⟩ ]

/-- The registers of block DAH. -/
def rowsDAH : List Row := [
  /- DAH_STAT, R425 -/ ⟨0x4, [], false, .plain, fun _ _ => [fs 31 1 .w1c 0, fs 16 8 .ro 0, fs 15 1 .w1c 0, fs 0 1 .rl 0]⟩,
  /- DAH_CMD, R425 -/ ⟨0xC, [], false, .dahCmd, fun _ _ => [fs 12 1 .wo 0, fs 8 2 .wo 0, fs 0 8 .wo 0]⟩,
  /- DAH_SRC, R422 -/ ⟨0x10, [], true, .plain, fun _ _ => [fs 6 40 .rw 0]⟩,
  /- DAH_LEN, R422 -/ ⟨0x18, [], false, .plain, fun _ _ => [fs 0 32 .rw 0]⟩,
  /- DAH_KEY, R422 -/ ⟨0x1C, [], false, .plain, fun _ _ => [fs 0 4 .rw 0]⟩,
  /- DAH_PROG, R422 -/ ⟨0x20, [], false, .plain, fun _ _ => [fs 0 32 .rl 0]⟩,
  /- DAH_BOOT, R423 -/ ⟨0x24, [], false, .plain, fun _ _ => [fs 5 1 .ro 1, fs 4 1 .ro 1, fs 2 2 .ro 1, fs 0 2 .ro 0]⟩,
  /- DAH_BOOT_NEW, R423 -/ ⟨0x28, [], false, .plain, fun _ _ => [fs 5 1 .rw 0, fs 4 1 .rw 0, fs 2 2 .rw 0, fs 0 2 .rw 0]⟩,
  /- DAH_WEAR, R424 -/ ⟨0x30, [], false, .plain, fun _ _ => [fs 16 16 .rl 0, fs 0 16 .rl 0]⟩,
  /- DAH_SPARE, R424 -/ ⟨0x34, [], false, .plain, fun _ _ => [fs 0 16 .rl 0]⟩,
  /- DAH_RD_ERR, R424 -/ ⟨0x38, [], false, .plain, fun _ _ => [fs 0 32 .rc 0]⟩,
  /- DAH_EVT, R425 -/ ⟨0x3C, [], false, .plain, fun _ _ => [fs 0 4 .w1c 0]⟩,
  /- DAH_SLOT_STAT, R422 -/ ⟨0x100, [(4, 0x10)], false, .plain, fun _ _ => [fs 0 2 .rl 0]⟩,
  /- DAH_SLOT_LEN, R422 -/ ⟨0x104, [(4, 0x10)], false, .plain, fun _ _ => [fs 0 32 .ro 0]⟩,
  /- DAH_SLOT_WRITES, R422 -/ ⟨0x108, [(4, 0x10)], false, .plain, fun _ _ => [fs 0 32 .ro 0]⟩,
  /- DAH_SLOT_CRC, R422 -/ ⟨0x10C, [(4, 0x10)], false, .plain, fun _ _ => [fs 0 32 .ro 0]⟩,
  /- DAH_FW_STAT, R422 -/ ⟨0x140, [(4, 0x10)], false, .plain, fun _ _ => [fs 0 2 .rl 0]⟩,
  /- DAH_FW_LEN, R422 -/ ⟨0x144, [(4, 0x10)], false, .plain, fun _ _ => [fs 0 32 .ro 0]⟩,
  /- DAH_FW_WRITES, R422 -/ ⟨0x148, [(4, 0x10)], false, .plain, fun _ _ => [fs 0 32 .ro 0]⟩,
  /- DAH_FW_CRC, R422 -/ ⟨0x14C, [(4, 0x10)], false, .plain, fun _ _ => [fs 0 32 .ro 0]⟩ ]

/-- The registers of block PEO. -/
def rowsPEO : List Row := [
  /- PEO_STAT, R464 -/ ⟨0x4, [], false, .plain, fun _ _ => [fs 31 1 .w1c 0, fs 16 8 .ro 0, fs 15 1 .w1c 0, fs 4 1 .rl 0, fs 3 1 .ro 0, fs 2 1 .ro 0, fs 1 1 .ro 0, fs 0 1 .rl 0]⟩,
  /- PEO_CMD, R464 -/ ⟨0xC, [], false, .peoCmd, fun _ _ => [fs 0 8 .wo 0]⟩,
  /- PEO_RESULT, R464 -/ ⟨0x10, [], false, .plain, fun _ _ => [fs 16 16 .ro 0, fs 8 4 .ro 0, fs 0 2 .ro 0]⟩,
  /- PEO_LCS, R447 -/ ⟨0x14, [], false, .plain, fun _ _ => [fs 0 2 .ro 0]⟩,
  /- PEO_ALARM, R463 -/ ⟨0x18, [], false, .plain, fun _ _ => [fs 6 1 .w1c 0, fs 5 1 .w1c 0, fs 4 1 .w1c 0, fs 3 1 .w1c 0, fs 2 1 .w1c 0, fs 1 1 .w1c 0, fs 0 1 .w1c 0]⟩,
  /- PEO_EVT, R466 -/ ⟨0x1C, [], false, .plain, fun _ _ => [fs 0 4 .w1c 0]⟩,
  /- PEO_BUF, R464 -/ ⟨0x20, [], true, .plain, fun _ _ => [fs 6 40 .rw 0]⟩,
  /- PEO_BUF_KEY, R464 -/ ⟨0x28, [], false, .plain, fun _ _ => [fs 0 4 .rw 0]⟩,
  /- PEO_FUSE_ADDR, R464 -/ ⟨0x2C, [], false, .plain, fun _ _ => [fs 0 9 .rw 0]⟩,
  /- PEO_FUSE_DATA, R464 -/ ⟨0x30, [], false, .plain, fun _ _ => [fs 0 32 .rw 0]⟩,
  /- PEO_ADMIN, R464 -/ ⟨0x34, [], false, .plain, fun _ _ => [⟨0, 5, .rw, 7, 0, 31, .peoPolicy, .none⟩]⟩,
  /- PEO_SEC_CFG, R460 -/ ⟨0x38, [], false, .plain, fun _ _ => [⟨16, 5, .rw, 4, 0, 31, .peoPolicy, .none⟩, ⟨8, 5, .rw, 4, 0, 31, .peoPolicy, .none⟩, ⟨0, 1, .rw, 1, 0, 1, .peoPolicy, .none⟩]⟩,
  /- PEO_TAMP_CFG, R462 -/ ⟨0x3C, [], false, .plain, fun _ _ => [⟨4, 2, .rw, 0, 0, 2, .peoPolicy, .none⟩, ⟨2, 1, .rw, 1, 0, 1, .peoPolicy, .none⟩, ⟨0, 2, .rw, 0, 0, 3, .peoPolicy, .none⟩]⟩,
  /- PEO_TAMP_STAT, R462 -/ ⟨0x40, [], false, .plain, fun _ _ => [fs 16 16 .ro 0, fs 2 1 .w1c 0, fs 0 2 .w1c 0]⟩,
  /- PEO_DBG, R455 -/ ⟨0x44, [], false, .plain, fun _ _ => [fs 8 24 .rl 0, fs 0 2 .rl 2]⟩,
  /- PEO_PROT_LOG, R460 -/ ⟨0x48, [], true, .plain, fun _ _ => [fs 63 1 .ro 0, fs 48 3 .ro 0, fs 0 46 .ro 0]⟩,
  /- PEO_CHAL, R464 -/ ⟨0x80, [(16, 0x4)], false, .plain, fun _ _ => [fs 0 32 .ro 0]⟩,
  /- PEO_NONCE, R457 -/ ⟨0xC0, [(16, 0x4)], false, .plain, fun _ _ => [fs 0 32 .rw 0]⟩,
  /- PEO_KEY_ALLOW, R459 -/ ⟨0x100, [(5, 0x4)], false, .plain, fun _ _ => [⟨0, 16, .rw, 0xFFFF, 0, 65535, .peoPolicy, .none⟩]⟩,
  /- PEO_PROT_BASE, R460 -/ ⟨0x200, [(8, 0x10)], true, .plain, fun _ _ => [⟨12, 34, .rw, 0, 0, 17179869183, .peoPolicy, .none⟩]⟩,
  /- PEO_PROT_SIZE, R460 -/ ⟨0x208, [(8, 0x10)], false, .plain, fun _ _ => [⟨0, 24, .rw, 0, 0, 16777215, .peoPolicy, .none⟩]⟩,
  /- PEO_PROT_CTL, R460 -/ ⟨0x20C, [(8, 0x10)], false, .plain, fun _ _ => [⟨31, 1, .rw, 0, 0, 1, .peoPolicy, .none⟩, ⟨0, 5, .rw, 0, 0, 31, .peoPolicy, .none⟩]⟩,
  /- PEO_FUSE, R444 -/ ⟨0x1000, [(512, 0x4)], false, .peoFuse, fun _ _ => [fs 0 32 .ro 0]⟩ ]

/-- The registers of block SCB. -/
def rowsSCB : List Row := [
  /- SCB_STAT, R475 -/ ⟨0x4, [], false, .plain, fun _ _ => [fs 31 1 .w1c 0, fs 16 8 .ro 0, fs 15 1 .w1c 0, fs 9 1 .rl 0, fs 8 1 .rl 0, fs 4 3 .rl 7]⟩,
  /- SCB_CTRL, R469 -/ ⟨0x8, [], false, .plain, fun _ _ => [⟨16, 8, .rw, 10, 1, 255, .free, .none⟩, fs 8 8 .rw 16, fs 0 1 .rw 1]⟩,
  /- SCB_CMD, R492 -/ ⟨0xC, [], false, .scbCmd, fun _ _ => [fs 20 2 .wo 0, fs 16 3 .wo 0, fs 8 7 .wo 0, fs 0 8 .wo 0]⟩,
  /- SCB_BUDGET, R467 -/ ⟨0x10, [], false, .plain, fun _ _ => [⟨0, 4, .rw, 2, 1, 10, .free, .none⟩]⟩,
  /- SCB_PASSES, R469 -/ ⟨0x14, [], false, .plain, fun _ _ => [fs 0 32 .rl 0]⟩,
  /- SCB_PASS_MS, R469 -/ ⟨0x18, [], false, .plain, fun _ _ => [fs 0 16 .rl 0]⟩,
  /- SCB_CORR, R470 -/ ⟨0x20, [], false, .plain, fun _ _ => [fs 0 32 .rc 0]⟩,
  /- SCB_REPAIRED, R470 -/ ⟨0x24, [], false, .plain, fun _ _ => [fs 0 32 .rc 0]⟩,
  /- SCB_UNREP, R470 -/ ⟨0x28, [], false, .plain, fun _ _ => [fs 0 32 .rc 0]⟩,
  /- SCB_UNREP_FAR, R470 -/ ⟨0x2C, [], false, .plain, fun _ _ => [fs 31 1 .ro 0, fs 0 27 .ro 0]⟩,
  /- SCB_EVT, R493 -/ ⟨0x30, [], false, .plain, fun _ _ => [fs 0 6 .w1c 0]⟩,
  /- SCB_GOLD_FREE, R474 -/ ⟨0x34, [], false, .plain, fun _ _ => [fs 0 16 .rl 1536]⟩,
  /- SCB_ENG, R477 -/ ⟨0x40, [(3, 0x10)], false, .plain, fun _ _ => [fs 16 4 .rl 0, fs 8 8 .rl 0, fs 0 2 .rl 0]⟩,
  /- SCB_ENG_FRAMES, R476 -/ ⟨0x44, [(3, 0x10)], false, .plain, fun _ _ => [fs 0 32 .rl 0]⟩,
  /- SCB_GOLD, R473 -/ ⟨0x100, [(80, 0x4)], false, .plain, fun _ _ => [fs 8 8 .rl 0, fs 0 8 .rl 0]⟩ ]

/-- The registers of block BST. -/
def rowsBST : List Row := [
  /- BST_STAT, R480 -/ ⟨0x4, [], false, .plain, fun _ _ => [fs 31 1 .w1c 0, fs 16 8 .ro 0, fs 15 1 .w1c 0, fs 0 1 .rl 0]⟩,
  /- BST_CMD, R480 -/ ⟨0xC, [], false, .bstCmd, fun _ _ => [fs 16 7 .wo 0, fs 8 4 .wo 0, fs 0 8 .wo 0]⟩,
  /- BST_RESULT, R481 -/ ⟨0x10, [], false, .plain, fun _ _ => [fs 24 8 .ro 0, fs 16 7 .ro 0, fs 8 4 .ro 0, fs 0 2 .ro 0]⟩,
  /- BST_FAIL, R481 -/ ⟨0x14, [], true, .plain, fun _ _ => [fs 0 48 .ro 0]⟩,
  /- BST_TIME, R481 -/ ⟨0x1C, [], false, .plain, fun _ _ => [fs 0 32 .ro 0]⟩,
  /- BST_EVT, R493 -/ ⟨0x20, [], false, .plain, fun _ _ => [fs 0 4 .w1c 0]⟩,
  /- BST_HIST, R492 -/ ⟨0x100, [(11, 0x4)], false, .plain, fun _ _ => [fs 16 16 .rl 0, fs 0 16 .rl 0]⟩ ]

/-- The registers of block CAL. -/
def rowsCAL : List Row := [
  /- CAL_STAT, R485 -/ ⟨0x4, [], false, .plain, fun _ _ => [fs 31 1 .w1c 0, fs 16 8 .ro 0, fs 15 1 .w1c 0, fs 0 1 .rl 0]⟩,
  /- CAL_CTRL, R486 -/ ⟨0x8, [], false, .plain, fun _ _ => [⟨8, 8, .rw, 2, 1, 255, .free, .none⟩, fs 0 1 .rw 0]⟩,
  /- CAL_CMD, R492 -/ ⟨0xC, [], false, .calCmd, fun _ _ => [fs 16 4 .wo 0, fs 8 8 .wo 0, fs 0 8 .wo 0]⟩,
  /- CAL_VREF, R485 -/ ⟨0x10, [], false, .plain, fun _ _ => [fs 0 16 .rl 0]⟩,
  /- CAL_EVT, R493 -/ ⟨0x14, [], false, .plain, fun _ _ => [fs 0 4 .w1c 0]⟩,
  /- CAL_ITEM_COUNT, R483 -/ ⟨0x100, [(7, 0x20)], false, .plain, fun _ _ => [fs 0 32 .rl 0]⟩,
  /- CAL_ITEM_LAST, R483 -/ ⟨0x104, [(7, 0x20)], true, .plain, fun _ _ => [fs 0 64 .rl 0]⟩,
  /- CAL_ITEM_OLDEST, R483 -/ ⟨0x10C, [(7, 0x20)], false, .calOldest, fun _ _ => [fs 0 32 .rl 0]⟩,
  /- CAL_ITEM_FORCED, R486 -/ ⟨0x110, [(7, 0x20)], false, .plain, fun _ _ => [fs 0 32 .rc 0]⟩,
  /- CAL_ITEM_DEGRADED, R484 -/ ⟨0x114, [(7, 0x20)], false, .plain, fun _ _ => [fs 0 16 .rl 0]⟩ ]

/-- The registers of block TEL. -/
def rowsTEL : List Row := [
  /- TEL_STAT, R488 -/ ⟨0x4, [], false, .plain, fun _ _ => [fs 31 1 .w1c 0, fs 16 8 .ro 0, fs 15 1 .w1c 0]⟩,
  /- TEL_CTRL, R488 -/ ⟨0x8, [], false, .plain, fun _ _ => [fs 31 1 .rw 1, ⟨0, 16, .rw, 60, 1, 65535, .free, .none⟩]⟩,
  /- TEL_CMD, R492 -/ ⟨0xC, [], false, .telCmd, fun _ _ => [fs 0 8 .wo 0]⟩,
  /- TEL_SRC, R489 -/ ⟨0x10, [], true, .plain, fun _ _ => [fs 0 46 .rw 0]⟩,
  /- TEL_LEN, R489 -/ ⟨0x18, [], false, .plain, fun _ _ => [fs 0 12 .rw 0]⟩,
  /- TEL_SRC_KEY, R489 -/ ⟨0x1C, [], false, .plain, fun _ _ => [fs 0 4 .rw 0]⟩,
  /- TEL_REC_WR, R488 -/ ⟨0x20, [], false, .plain, fun _ _ => [fs 0 32 .rl 0]⟩,
  /- TEL_JNL_WR, R489 -/ ⟨0x24, [], false, .plain, fun _ _ => [fs 0 32 .rl 0]⟩,
  /- TEL_JNL_LOST, R489 -/ ⟨0x28, [], false, .plain, fun _ _ => [fs 0 32 .rc 0]⟩,
  /- TEL_BOOTS, R494 -/ ⟨0x2C, [], false, .plain, fun _ _ => [fs 0 32 .ro 0]⟩,
  /- TEL_SESSION, R488 -/ ⟨0x30, [], false, .plain, fun _ _ => [fs 0 32 .rl 0]⟩,
  /- TEL_POWER_S, R494 -/ ⟨0x34, [], false, .plain, fun _ _ => [fs 0 32 .rl 0]⟩,
  /- TEL_EVT, R493 -/ ⟨0x38, [], false, .plain, fun _ _ => [fs 0 4 .w1c 0]⟩,
  /- TEL_LB_CFG, R479 -/ ⟨0x100, [(8, 0x10)], false, .plain, fun _ _ => [⟨24, 8, .rw, 8, 1, 255, .free, .none⟩, ⟨8, 16, .rw, 1000, 1, 65535, .free, .none⟩, ⟨0, 8, .rw, 64, 2, 255, .free, .none⟩]⟩,
  /- TEL_LB, R479 -/ ⟨0x104, [(8, 0x10)], false, .plain, fun _ _ => [fs 31 1 .rl 0, fs 0 8 .rl 0]⟩,
  /- TEL_CLS_CE, R479 -/ ⟨0x108, [(8, 0x10)], false, .plain, fun _ _ => [fs 0 32 .rl 0]⟩,
  /- TEL_CLS_UE, R479 -/ ⟨0x10C, [(8, 0x10)], false, .plain, fun _ _ => [fs 0 32 .rl 0]⟩ ]

/-- The registers of block AST. -/
def rowsAST : List Row := [
  /- AST_STAT, R526 -/ ⟨0x4, [], false, .plain, fun _ _ => [fs 31 1 .w1c 0, fs 16 8 .ro 0, fs 15 1 .w1c 0, fs 14 1 .w1c 0, fs 13 1 .w1c 0, fs 12 1 .rl 0, fs 11 1 .ro 0, fs 10 1 .w1c 0, fs 9 1 .rl 0, fs 0 3 .rl 0]⟩,
  /- AST_CTX_CTRL, R22 -/ ⟨0x8, [], false, .astStaging, fun _ _ => [fs 0 1 .rw 0]⟩,
  /- AST_CMD, R524 -/ ⟨0xC, [], false, .astCmd, fun _ _ => [fs 8 5 .wo 0, fs 0 8 .wo 0]⟩,
  /- AST_PWR_LIMIT, R498 -/ ⟨0x10, [], false, .astPwrLimit, fun _ _ => [⟨0, 9, .rw, 300, 120, 300, .free, .none⟩]⟩,
  /- AST_THR_CTRL, R516 -/ ⟨0x14, [], false, .astMethod, fun _ _ => [fs 24 1 .rw 1, ⟨16, 6, .rw, 16, 1, 64, .free, .none⟩, fs 8 4 .rw 13, ⟨0, 2, .rw, 0, 0, 2, .free, .none⟩]⟩,
  /- AST_LEVEL, R498 -/ ⟨0x18, [], false, .plain, fun _ _ => [fs 24 7 .rl 64, fs 16 7 .rl 64, fs 8 7 .rl 64, fs 0 7 .rl 64]⟩,
  /- AST_PWR_DEV, R497 -/ ⟨0x1C, [], false, .plain, fun _ _ => [fs 0 16 .rl 0]⟩,
  /- AST_PWR, R497 -/ ⟨0x20, [(10, 0x4)], false, .plain, fun _ _ => [fs 0 16 .rl 0]⟩,
  /- AST_STOP_CFG, R519 -/ ⟨0x48, [], false, .plain, fun _ _ => [⟨24, 8, .rw, 20, 1, 50, .free, .none⟩, ⟨16, 8, .rw, 10, 1, 50, .free, .none⟩, fs 12 1 .rw 0, ⟨0, 10, .rw, 10, 0, 1000, .free, .none⟩]⟩,
  /- AST_MODEL_CFG, R510 -/ ⟨0x4C, [], false, .plain, fun _ _ => [⟨8, 8, .rw, 70, 0, 100, .free, .none⟩, fs 4 1 .rw 0, fs 0 2 .rw 0]⟩,
  /- AST_RATE, R514 -/ ⟨0x50, [], false, .plain, fun _ _ => [⟨0, 8, .rw, 5, 1, 50, .free, .none⟩]⟩,
  /- AST_EVT, R525 -/ ⟨0x54, [], false, .plain, fun _ _ => [fs 0 10 .w1c 0]⟩,
  /- AST_THR_CNT, R526 -/ ⟨0x58, [], false, .plain, fun _ _ => [fs 0 32 .rc 0]⟩,
  /- AST_DIDT_MAX, R500 -/ ⟨0x5C, [], false, .plain, fun _ _ => [fs 0 16 .rl 0]⟩,
  /- AST_THRESH, R513 -/ ⟨0x60, [(3, 0x4)], false, .astThresh, fun _ ix => [fs 24 8 .rw (thrHard (ixAt ix 0)), fs 16 8 .rw (thrStop (ixAt ix 0)), fs 8 8 .rw (thrThr (ixAt ix 0)), fs 0 8 .rw (thrWarn (ixAt ix 0))]⟩,
  /- AST_BAL, R501 -/ ⟨0x70, [], false, .plain, fun _ _ => [fs 0 16 .rl 0]⟩,
  /- AST_CH_CFG, R526 -/ ⟨0x100, [(16, 0x10)], false, .astChCfg, fun _ _ => [fs 16 16 .rw 3435, fs 4 12 .rw 1008, ⟨0, 2, .rw, 1, 0, 2, .free, .none⟩]⟩,
  /- AST_CH_TEMP, R507 -/ ⟨0x104, [(16, 0x10)], false, .plain, fun _ _ => [fs 16 16 .rl 0, fs 0 16 .rl 0]⟩,
  /- AST_CH_STAT, R512 -/ ⟨0x108, [(16, 0x10)], false, .plain, fun _ _ => [fs 31 1 .rl 0, fs 30 1 .rl 0, fs 29 1 .rl 0, fs 0 16 .rl 0]⟩,
  /- AST_CH_RISE, R507 -/ ⟨0x10C, [(16, 0x10)], false, .plain, fun _ _ => [fs 0 16 .rl 0]⟩ ]

/-- The registers of block DBG. -/
def rowsDBG : List Row := [
  /- DBG_STAT, R551 -/ ⟨0x4, [], false, .plain, fun _ _ => [fs 31 1 .w1c 0, fs 16 8 .ro 0, fs 15 1 .w1c 0, fs 10 1 .w1c 0, fs 9 1 .rl 0, fs 8 1 .rl 0, fs 4 4 .rl 0, fs 0 2 .rl 2]⟩,
  /- DBG_CTRL, R548 -/ ⟨0x8, [], false, .plain, fun _ _ => [fs 1 1 .rw 1, fs 0 1 .rw 0]⟩,
  /- DBG_CMD, R549 -/ ⟨0xC, [], false, .dbgCmd, fun _ _ => [fs 16 4 .wo 0, fs 0 8 .wo 0]⟩,
  /- DBG_ACC, R534 -/ ⟨0x10, [], false, .plain, fun _ _ => [fs 8 1 .rw 0, fs 4 4 .rw 0, fs 0 3 .rw 0]⟩,
  /- DBG_WDG_GRACE, R547 -/ ⟨0x14, [], false, .plain, fun _ _ => [⟨0, 20, .rw, 1000, 0, 1000000, .free, .none⟩]⟩,
  /- DBG_SUP_CFG, R548 -/ ⟨0x18, [], false, .supCfg, fun _ _ => [fs 31 1 .rw 0, ⟨0, 16, .rw, 1000, 1, 65535, .free, .none⟩]⟩,
  /- DBG_SUP_KICK, R548 -/ ⟨0x1C, [], false, .supKick, fun _ _ => [fs 0 32 .wo 0]⟩,
  /- DBG_SUP_VAL, R548 -/ ⟨0x20, [], false, .plain, fun _ _ => [fs 0 16 .rl 0]⟩,
  /- DBG_AUTH_STAT, R537 -/ ⟨0x24, [], false, .plain, fun _ _ => [fs 31 1 .rl 0, fs 8 4 .rl 0, fs 0 2 .rl 0]⟩,
  /- DBG_EVT, R550 -/ ⟨0x28, [], false, .plain, fun _ _ => [fs 0 6 .w1c 0]⟩,
  /- DBG_CHAL, R551 -/ ⟨0x80, [(16, 0x4)], false, .plain, fun _ _ => [fs 0 32 .ro 0]⟩,
  /- DBG_TOKEN, R551 -/ ⟨0x1000, [(353, 0x4)], false, .plain, fun _ _ => [fs 0 32 .rw 0]⟩,
  /- DBG_CORE_CTRL, R540 -/ ⟨0x100, [(4, 0x40)], false, .plain, fun _ _ => [fs 2 1 .rw 0, fs 1 1 .rw 0, fs 0 1 .rw 0]⟩,
  /- DBG_CORE_STAT, R540 -/ ⟨0x104, [(4, 0x40)], false, .plain, fun _ _ => [fs 12 1 .rl 0, fs 8 3 .rl 0, fs 4 3 .rl 0, fs 0 1 .rl 0]⟩,
  /- DBG_CORE_DPC, R544 -/ ⟨0x108, [(4, 0x40)], true, .plain, fun _ _ => [⟨0, 64, .rw, 0, 0, 18446744073709551615, .coreHalted, .none⟩]⟩,
  /- DBG_CORE_PCS, R544 -/ ⟨0x110, [(4, 0x40)], true, .plain, fun _ _ => [fs 0 64 .rl 0]⟩,
  /- DBG_CORE_REGSEL, R544 -/ ⟨0x118, [(4, 0x40)], false, .plain, fun _ _ => [fs 31 1 .ro 0, ⟨12, 2, .rw, 0, 0, 2, .coreHalted, .none⟩, ⟨0, 12, .rw, 0, 0, 4095, .coreHalted, .none⟩]⟩,
  /- DBG_CORE_REGDATA, R544 -/ ⟨0x120, [(4, 0x40)], true, .regData, fun _ _ => [fs 0 64 .rw 0]⟩,
  /- DBG_BP_ADDR, R543 -/ ⟨0x400, [(4, 0x100), (8, 0x10)], true, .plain, fun _ _ => [fs 0 64 .rw 0]⟩,
  /- DBG_BP_CTL, R543 -/ ⟨0x408, [(4, 0x100), (8, 0x10)], false, .plain, fun _ _ => [fs 31 1 .rw 0, fs 0 3 .rw 0]⟩,
  /- DBG_WP_BASE, R543 -/ ⟨0x480, [(4, 0x100), (4, 0x10)], true, .plain, fun _ _ => [fs 0 64 .rw 0]⟩,
  /- DBG_WP_CTL, R543 -/ ⟨0x488, [(4, 0x100), (4, 0x10)], false, .plain, fun _ _ => [fs 31 1 .rw 0, fs 12 3 .rw 0, fs 10 1 .rw 0, fs 9 1 .rw 0, ⟨0, 6, .rw, 0, 0, 63, .free, .wpSize⟩]⟩ ]

/-- The register blocks: the instance number of a block and its table; none for a block number not listed (R555). -/
def blockRows (blk : Nat) : Option (Nat × List Row) :=
  if blk = 0x000 then some (0, rowsSYS)
  else if 0x010 ≤ blk ∧ blk < 0x014 then some (blk - 0x010, rowsPRB)
  else if blk = 0x014 then some (0, rowsHOP)
  else if blk = 0x015 then some (0, rowsLAN)
  else if blk = 0x016 then some (0, rowsRUN)
  else if blk = 0x017 then some (0, rowsMAR)
  else if 0x040 ≤ blk ∧ blk < 0x090 then some (blk - 0x040, rowsISL)
  else if blk = 0x006 then some (0, rowsCLK)
  else if blk = 0x090 then some (0, rowsSRM)
  else if blk = 0x0F0 then some (80, rowsSRB ++ rowsHUB)
  else if 0x0A0 ≤ blk ∧ blk < 0x0F0 then some (blk - 0x0A0, rowsSRB)
  else if blk = 0x020 then some (0, rowsHBM)
  else if 0x030 ≤ blk ∧ blk < 0x040 then some (blk - 0x030, rowsPC)
  else if blk = 0x008 then some (0, rowsNOC)
  else if blk = 0x00B then some (0, rowsMIL)
  else if blk = 0x018 then some (0, rowsMST)
  else if blk = 0x009 then some (0, rowsHST)
  else if blk = 0x00A then some (0, rowsRLK)
  else if blk = 0x019 then some (0, rowsTSB)
  else if blk = 0x001 then some (0, rowsEVT)
  else if blk = 0x002 then some (0, rowsCFG)
  else if blk = 0x003 then some (0, rowsDAH)
  else if blk = 0x004 then some (0, rowsPEO)
  else if blk = 0x00C then some (0, rowsSCB)
  else if blk = 0x00D then some (0, rowsBST)
  else if blk = 0x00E then some (0, rowsCAL)
  else if blk = 0x00F then some (0, rowsTEL)
  else if blk = 0x005 then some (0, rowsAST)
  else if blk = 0x007 then some (0, rowsDBG)
  else none

/-- The indices of a distance from a register's first offset, outermost first, with what is left over. -/
def splitIx : List (Nat × Nat) → Nat → Option (List Nat × Nat)
  | [], d => some ([], d)
  | (cnt, str) :: r, d =>
    if d / str < cnt then (splitIx r (d % str)).map (fun p => (d / str :: p.1, p.2)) else none

/-- Whether a register covers an offset: its indices, and whether the offset is the _HI half of a pair. -/
def Row.at? (r : Row) (off : Nat) : Option (List Nat × Bool) :=
  if off < r.off then none else
  match splitIx r.dims (off - r.off) with
  | some (ix, 0) => some (ix, false)
  | some (ix, 4) => if r.pair then some (ix, true) else none
  | _ => none

/-- The register at an offset of a table, its indices, and whether the offset is a _HI half. -/
def findRow : List Row → Nat → Option (Row × List Nat × Bool)
  | [], _ => none
  | r :: rs, off =>
    match r.at? off with
    | some (ix, hi) => some (r, ix, hi)
    | none => findRow rs off

end Sys2Proof.Machine
end

