-- ==== Sys2Proof/Config.lean ====
section
/-! DEFINITION. What an implementation fixes and the free values: constants without a body, so that no proof can see
what they are. -/

namespace Sys2Proof

/-- A value that the manual leaves open, by the number of the open value that the run has reached
(State.freeCtr counts them): nothing constrains it. -/
opaque Config.freeValue : Nat → Nat

/-- The pad that scrambles an SRAM word: of the key table in force, the key index and the word address (R458). -/
opaque Config.sramPad : Nat → Nat → Nat → Nat

/-- The pad that scrambles an HBM line: of the key table in force, the key index and the line address (R458). -/
opaque Config.hbmPad : Nat → Nat → Nat → Nat

/-- The check mask M of an HBM line under a key index other than 0 (R277). -/
opaque Config.hbmMask : Nat → Nat → Nat → Nat

/-- The syndrome of an HBM line that neither a write nor the fill has reached, by its place: such a line may read as
uncorrectable (R290). -/
opaque Config.unfilledSyn : Nat → Nat

/-- What the frames of a configuration plane spell for one item of the fabric: the manual gives no layout of these
frames beyond the plane header (R383, R410). The items are numbered in Machine/Fabric.lean. -/
opaque Config.planeField : List Nat → Nat → Nat

/-- The direction code that a steering frame holds for each of its 80 copies: of the frame's data and the copy's number
(R222); the manual gives no layout of the frame. -/
opaque Config.steerCopy : Nat → Nat → Nat

/-- The bytes of the Miller boot ROM, by offset: the manual says what the ROM does (R336), not its contents. -/
opaque Config.romByte : Nat → Nat

/-- The bytes of Holdequel's certificate of the identity key, by offset, beside the fields that the manual fixes (R456). -/
opaque Config.certByte : Nat → Nat

/-- The bytes of an attestation report to which the manual gives no field, by offset (R457). -/
opaque Config.reportByte : Nat → Nat

/-- Holdequel's PCI-SIG identifier, which the manual does not give (R350). -/
opaque Config.pcieVendor : Nat

end Sys2Proof
end

