-- ==== Sys2Proof/Machine/Hidden.lean ====
section
/-! DEFINITION. Numbered state that the rules give the part beside its registers: counts, flags and timers that a rule
names or implies. Each is a cell of its own, in blocks above the register space. -/

namespace Sys2Proof.Machine

/-! PRB (02_probe_ports.md) -/

/-- descrambler state of lane k: the last 58 payload bits received (R32). -/
def Hid.descr (p k : Nat) : Fld := ⟨cellKey 0x1000 (16 * p + k) 0, 58, 0⟩
/-- consecutive valid sync headers, stopping at 64 (R33). -/
def Hid.okRun (p k : Nat) : Fld := ⟨cellKey 0x1001 (16 * p + k) 0, 7, 0⟩
/-- the last 64 blocks of lane k, bit set where the header was invalid (R44). -/
def Hid.hdrHist (p k : Nat) : Fld := ⟨cellKey 0x1002 (16 * p + k) 0, 64, 0⟩
/-- blocks since the last marker slot (the marker flywheel) (R37). -/
def Hid.sinceMkr (p k : Nat) : Fld := ⟨cellKey 0x1003 (16 * p + k) 0, 32, 0⟩
/-- valid markers found in MARKER_LOCK, stopping at 2 (R43). -/
def Hid.mkrSeen (p k : Nat) : Fld := ⟨cellKey 0x1004 (16 * p + k) 0, 2, 0⟩
/-- LANE of the last valid marker (R43). -/
def Hid.mkrLane (p k : Nat) : Fld := ⟨cellKey 0x1005 (16 * p + k) 0, 4, 0⟩
/-- consecutive missing markers (R44). -/
def Hid.mkrMiss (p k : Nat) : Fld := ⟨cellKey 0x1006 (16 * p + k) 0, 3, 0⟩
/-- arrival of this period's marker, in UI of the port (R38). -/
def Hid.mkrAt (p k : Nat) : Fld := ⟨cellKey 0x1007 (16 * p + k) 0, 64, 0⟩
/-- this period's marker has arrived (DESKEW) (R43). -/
def Hid.mkrGot (p k : Nat) : Fld := ⟨cellKey 0x1008 (16 * p + k) 0, 1, 0⟩
/-- a lane condition of loss is met (R44). -/
def Hid.laneLoss (p k : Nat) : Fld := ⟨cellKey 0x1009 (16 * p + k) 0, 1, 0⟩
/-- the redundant sampler is calibrated and waits for its handover (R52). -/
def Hid.calPend (p k : Nat) : Fld := ⟨cellKey 0x100A (16 * p + k) 0, 1, 0⟩
/-- consecutive clause 49 idle blocks, stopping at 32 (R52). -/
def Hid.idleRun (p k : Nat) : Fld := ⟨cellKey 0x100B (16 * p + k) 0, 6, 0⟩
/-- calibration mode in force on the lane: 0 GAPS, 1 STRICT (R22). -/
def Hid.calMode (p k : Nat) : Fld := ⟨cellKey 0x100C (16 * p + k) 0, 1, 0⟩
/-- calibration intervals since the last handover (R54). -/
def Hid.calIvals (p k : Nat) : Fld := ⟨cellKey 0x100D (16 * p + k) 0, 16, 0⟩
/-- the lane's driver is held in electrical idle after a short (R55). -/
def Hid.laneIdle (p k : Nat) : Fld := ⟨cellKey 0x100E (16 * p + k) 0, 1, 0⟩
/-- physical lanes in use, found in MARKER_LOCK (R43). -/
def Hid.laneIn (p : Nat) : Fld := ⟨cellKey 0x100F p 0, 16, 0⟩
/-- the transmit source in effect (R46). -/
def Hid.txSrcNow (p : Nat) : Fld := ⟨cellKey 0x1010 p 0, 2, 0⟩
/-- rows sent since transmission started (R34). -/
def Hid.txRows (p : Nat) : Fld := ⟨cellKey 0x1010 (0x100 + p) 0, 64, 0⟩
/-- how far the row under way is: its UI times the denominator of the line rate (R29, R34). -/
def Hid.txAcc (p : Nat) : Fld := ⟨cellKey 0x1010 (0x200 + p) 0, 64, 0⟩
/-- sequence number of the next marker sent (R35). -/
def Hid.txMseq (p : Nat) : Fld := ⟨cellKey 0x1010 (0x300 + p) 0, 16, 0⟩
/-- scrambler state of logical transmit lane k: the last 58 payload bits sent (R32). -/
def Hid.scr (p k : Nat) : Fld := ⟨cellKey 0x1010 (0x400 + 16 * p + k) 0, 58, 0⟩
/-- receive terminations on (R43). -/
def Hid.rxTerm (p : Nat) : Fld := ⟨cellKey 0x1011 p 0, 1, 0⟩
/-- forwarded clock, idle blocks and markers are generated (R43). -/
def Hid.txRun (p : Nat) : Fld := ⟨cellKey 0x1012 p 0, 1, 0⟩
/-- all drivers of the port off: a rail is low or an upset was found (R55). -/
def Hid.drvOff (p : Nat) : Fld := ⟨cellKey 0x1013 p 0, 1, 0⟩
/-- the receive forwarded clock is outside its tolerance (R44). -/
def Hid.fclkLost (p : Nat) : Fld := ⟨cellKey 0x1014 p 0, 1, 0⟩
/-- pin time of the row numbered i modulo 128 (R71). -/
def Hid.rowTs (p i : Nat) : Fld := ⟨cellKey 0x1015 (128 * p + i) 0, 64, 0⟩
/-- rows released since the port entered UP (R39). -/
def Hid.rowNo (p : Nat) : Fld := ⟨cellKey 0x1016 p 0, 64, 0⟩
/-- timebase of the lane's last handover, or of its last reset (R54). -/
def Hid.lnCalAt (p k : Nat) : Fld := ⟨cellKey 0x1017 (16 * p + k) 0, 64, 0⟩
/-! HOP (03_capture_and_playback.md) -/

/-- record number of the port (R72). -/
def Hid.hopSeq (q : Nat) : Fld := ⟨cellKey 0x1018 q 0, 32, 0⟩
/-- number after that of the port's last stored record: what lies between is GAP and DROPPED (R72, R73). -/
def Hid.hopNext (q : Nat) : Fld := ⟨cellKey 0x1019 q 0, 32, 0⟩
/-- offset in the pipeline's region at which its next record is placed (R73). -/
def Hid.hopWp (q : Nat) : Fld := ⟨cellKey 0x1019 (0x100 + q) 0, 21, 0⟩
/-- records staged so far: the order in which they closed (R75). -/
def Hid.hopOrder : Fld := ⟨cellKey 0x101A 0 0, 64, 0⟩
/-- bytes held in the pipeline's region of the elastic buffer (R73). -/
def Hid.hopUsed (q : Nat) : Fld := ⟨cellKey 0x101B q 0, 32, 0⟩
/-- file space written since arming, or since the segment opened (SEGMENTED) (R78). -/
def Hid.fileArmed (f : Nat) : Fld := ⟨cellKey 0x101C f 0, 64, 0⟩
/-- file space written from the start of the trigger record (R78). -/
def Hid.filePost (f : Nat) : Fld := ⟨cellKey 0x101D f 0, 64, 0⟩
/-- the file has been triggered and its trigger record is still to be written (R78). -/
def Hid.fileWant (f : Nat) : Fld := ⟨cellKey 0x101E f 0, 1, 0⟩
/-- the trigger record has been written (R78). -/
def Hid.fileTrec (f : Nat) : Fld := ⟨cellKey 0x101F f 0, 1, 0⟩
/-- the ring or segment has wrapped (R77). -/
def Hid.fileWrap (f : Nat) : Fld := ⟨cellKey 0x1020 f 0, 1, 0⟩
/-! LAN (03_capture_and_playback.md) -/

/-- levels of the source codes in the previous Lantern cycle (R88). -/
def Hid.lanPrev : Fld := ⟨cellKey 0x1021 0 0, 256, 0⟩
/-- counter terminals at the start of the previous Lantern cycle (R86). -/
def Hid.ctrPrev : Fld := ⟨cellKey 0x1022 0 0, 16, 0⟩
/-- taps of island n asserted since the last Lantern cycle (R85). -/
def Hid.tapLatch (n : Nat) : Fld := ⟨cellKey 0x1023 n 0, 8, 0⟩
/-- levels of the TRIG_IN pins (R92). -/
def Hid.trigIn : Fld := ⟨cellKey 0x1024 0 0, 8, 0⟩
/-- the timer runs (R91). -/
def Hid.tmrRun (t : Nat) : Fld := ⟨cellKey 0x1025 t 0, 1, 0⟩
/-- the timer's expiry flag (R91). -/
def Hid.tmrExp (t : Nat) : Fld := ⟨cellKey 0x1026 t 0, 1, 0⟩
/-- Lantern cycles of the present 1 us unit (UNIT = 1) (R91). -/
def Hid.tmrSub (t : Nat) : Fld := ⟨cellKey 0x1027 t 0, 11, 0⟩
/-- the pin's active state as set, cleared or pulsed by Lantern or the event router (R92). -/
def Hid.toutLvl (k : Nat) : Fld := ⟨cellKey 0x1028 k 0, 1, 0⟩
/-- Lantern cycles left of a running pulse (R92). -/
def Hid.toutPulse (k : Nat) : Fld := ⟨cellKey 0x1029 k 0, 11, 0⟩
/-- a SIGNAL pulse of Runner channel c since the last Lantern cycle (R101). -/
def Hid.sigLatch (c : Nat) : Fld := ⟨cellKey 0x102A c 0, 1, 0⟩
/-- twice the pulses of the received trigger line still to be shown: the source reads true while it is even and not 0 (R371). -/
def Hid.rlkTrig (l k : Nat) : Fld := ⟨cellKey 0x102B (4 * l + k) 0, 16, 0⟩
/-- TRIG count of the line in the rows sent (R371). -/
def Hid.rlkTrigTx (l k : Nat) : Fld := ⟨cellKey 0x102C (4 * l + k) 0, 2, 0⟩
/-- pulses of the line since the last row sent (R371). -/
def Hid.rlkTrigNew (l k : Nat) : Fld := ⟨cellKey 0x102D (4 * l + k) 0, 2, 0⟩
/-- TRIG count of the line in the last row received (R371). -/
def Hid.rlkTrigRx (l k : Nat) : Fld := ⟨cellKey 0x102E (4 * l + k) 0, 2, 0⟩
/-- a switch set formed by a Lantern action is in progress (R90). -/
def Hid.lanSetBusy : Fld := ⟨cellKey 0x102F 0 0, 1, 0⟩
/-! RUN (03_capture_and_playback.md) -/

/-- the gap in force, in UI (R101). -/
def Hid.chGap (c : Nat) : Fld := ⟨cellKey 0x1030 c 0, 40, 0⟩
/-- WAITUI operands since the previous frame, in UI (R103). -/
def Hid.chWait (c : Nat) : Fld := ⟨cellKey 0x1031 c 0, 48, 0⟩
/-- the next frame's nominal start is counted from START, GO or WAITTS (R103). -/
def Hid.chFirst (c : Nat) : Fld := ⟨cellKey 0x1032 c 0, 1, 1⟩
/-- that moment's slot boundary, in UI/WIDTH from the start of transmission (R103). -/
def Hid.chBase (c : Nat) : Fld := ⟨cellKey 0x1033 c 0, 64, 0⟩
/-- S(i) + B(i) x t_s + G of the last frame, in UI/WIDTH (R103). -/
def Hid.chNom (c : Nat) : Fld := ⟨cellKey 0x1034 c 0, 64, 0⟩
/-- actual end of the last frame, in UI/WIDTH (R103). -/
def Hid.chEnd (c : Nat) : Fld := ⟨cellKey 0x1035 c 0, 64, 0⟩
/-- the channel sends idle blocks until the WAITTS value is reached (R101). -/
def Hid.chTs (c : Nat) : Fld := ⟨cellKey 0x1036 c 0, 1, 0⟩
/-- the WAITTS value (R101). -/
def Hid.chTsVal (c : Nat) : Fld := ⟨cellKey 0x1037 c 0, 56, 0⟩


/-! EVT (12_host_and_partner_ports.md) -/

/-- message address of MSI-X table entry v (R354). -/
def Hid.msixAddr (v : Nat) : Fld := ⟨cellKey 0x103B v 0, 64, 0⟩
/-- message data of MSI-X table entry v (R354). -/
def Hid.msixData (v : Nat) : Fld := ⟨cellKey 0x103C v 0, 32, 0⟩
/-- mask bit of MSI-X table entry v (R354). -/
def Hid.msixMask (v : Nat) : Fld := ⟨cellKey 0x103D v 0, 1, 1⟩
/-- pending bit of MSI-X vector v (R354). -/
def Hid.msixPba (v : Nat) : Fld := ⟨cellKey 0x103E v 0, 1, 0⟩
/-- MSI-X enable of the capability (R350). -/
def Hid.msixEnable : Fld := ⟨cellKey 0x103F 0 0, 1, 0⟩
/-- MSI-X function mask of the capability (R350). -/
def Hid.msixFnMask : Fld := ⟨cellKey 0x1040 0 0, 1, 0⟩
/-! FP (05_fabric_cells_and_contexts.md) -/

/-- contexts of island n that implement the slave channel (R165). -/
def Hid.slaveCtx (n : Nat) : Fld := ⟨cellKey 0x1041 n 0, 8, 255⟩
/-- staged VAL0, VAL1 and MASK0 of a pattern entry, 32 bits each (R160). -/
def Hid.muStg (n c u p : Nat) : Fld := ⟨cellKey 0x1042 (1024 * n + 128 * c + 2 * u + p) 0, 96, 0⟩
/-- stored check XOR right check of VAL (low half) and MASK of a pattern entry (R159). -/
def Hid.muSyn (n c u p : Nat) : Fld := ⟨cellKey 0x1043 (1024 * n + 128 * c + 2 * u + p) 0, 32, 0⟩
/-- registered match outputs: M_p of tile t is bit 2 t + p (R158). -/
def Hid.muOut (n : Nat) : Fld := ⟨cellKey 0x1044 n 0, 128, 0⟩
/-- source of a tap: 0 OFF, 1 + 2 t + p the output M_p of tile t, 256 + x the fabric net x (R161). -/
def Hid.tapSrc (n c k : Nat) : Fld := ⟨cellKey 0x1045 (64 * n + 8 * c + k) 0, 17, 0⟩
/-- an ISLAND reset of the island waits (R419). -/
def Hid.rstAsked (n : Nat) : Fld := ⟨cellKey 0x1046 n 0, 1, 0⟩
/-- the island's reset is an ENGINE reset: it enters context 0 (R173). -/
def Hid.engRst (n : Nat) : Fld := ⟨cellKey 0x1047 n 0, 1, 0⟩
/-- TIDs of master writes whose LAST beat has not been presented (R164). -/
def Hid.fpOpen (n : Nat) : Fld := ⟨cellKey 0x1048 n 0, 64, 0⟩
/-- a switch set is in progress (R174). -/
def Hid.swBusy : Fld := ⟨cellKey 0x1049 0 0, 1, 0⟩
/-- islands of the set that have not completed (R178). -/
def Hid.swLeft : Fld := ⟨cellKey 0x104A 0 0, 80, 0⟩
/-- wave of the set in which an island switches (R176). -/
def Hid.swWave (n : Nat) : Fld := ⟨cellKey 0x104B n 0, 7, 0⟩
/-- context to which it switches (R174). -/
def Hid.swTgt (n : Nat) : Fld := ⟨cellKey 0x104C n 0, 3, 0⟩
/-- next wave whose instant is to come (R176). -/
def Hid.swNext : Fld := ⟨cellKey 0x104D 0 0, 7, 0⟩
/-- the set in progress runs UNSTAGED (R177). -/
def Hid.swHeld : Fld := ⟨cellKey 0x104E 0 0, 1, 0⟩
/-- F0 of every cell of island n (R150). -/
def Hid.ff0 (n : Nat) : Fld := ⟨cellKey 0x104F n 0, 32768, 0⟩
/-- F1 of every cell of island n in context c (R150). -/
def Hid.ff1 (n c : Nat) : Fld := ⟨cellKey 0x1050 (8 * n + c) 0, 32768, 0⟩
/-- the two D2 pipeline stages of island n in context c, 64 x 512 signals each (R153). -/
def Hid.d2 (n c : Nat) : Fld := ⟨cellKey 0x1051 (8 * n + c) 0, 65536, 0⟩
/-- output and output-enable registers of I/O bank n (R168). -/
def Hid.ioReg (n : Nat) : Fld := ⟨cellKey 0x1052 n 0, 96, 0⟩
/-- second output and output-enable registers of I/O bank n, of its DDR cells (R168). -/
def Hid.ioReg2 (n : Nat) : Fld := ⟨cellKey 0x1052 (0x100 + n) 0, 96, 0⟩
/-- input registers of I/O bank n, two for each cell (R168). -/
def Hid.ioIn (n : Nat) : Fld := ⟨cellKey 0x1052 (0x200 + n) 0, 96, 0⟩
/-- last output levels and enables of I/O bank n while the Weir was open (R417). -/
def Hid.ioLast (n : Nat) : Fld := ⟨cellKey 0x1052 (0x300 + n) 0, 96, 0⟩
/-- the user I/O of bank n have left their state before start-up (R412, R415). -/
def Hid.ioOut (n : Nat) : Fld := ⟨cellKey 0x1052 (0x400 + n) 0, 1, 0⟩
/-- the two D2 pipeline stages that lead to the I/O cells of bank n in context c, three signals for each (R153, R168). -/
def Hid.d2Io (n c : Nat) : Fld := ⟨cellKey 0x1052 (0x500 + 8 * n + c) 0, 288, 0⟩
/-- TAGs of slave requests that timed out and whose late response is still to come (R165). -/
def Hid.slvLate (n : Nat) : Fld := ⟨cellKey 0x1052 (0x600 + n) 0, 256, 0⟩
/-! HBM (09_hbm_stack.md) -/

/-- key table under which the last whole fill wrote its zero lines (R290). -/
def Hid.hbmFillEpoch : Fld := ⟨cellKey 0x1053 0 0, 64, 0⟩
/-- the sparing mode under which the last whole fill ran (R290). -/
def Hid.hbmFillSpare : Fld := ⟨cellKey 0x1054 0 0, 2, 1⟩
/-- the mask PCX[j] under which the last whole fill ran (R290). -/
def Hid.hbmFillPcx (j : Nat) : Fld := ⟨cellKey 0x1055 j 0, 20, 0⟩
/-- the mask BKX[j] under which the last whole fill ran (R290). -/
def Hid.hbmFillBkx (j : Nat) : Fld := ⟨cellKey 0x1056 j 0, 15, 0⟩
/-- the rank that served rank r as the last fill ran (R270, R290). -/
def Hid.hbmFillPhys (r : Nat) : Fld := ⟨cellKey 0x1056 (0x100 + r) 0, 6, r⟩
/-- lines that fills which were stopped have written, in order of their places (R290). -/
def Hid.hbmFillTo : Fld := ⟨cellKey 0x1053 1 0, 30, 0⟩
/-- bytes that background work has moved in a pseudo-channel in the present period (R272). -/
def Hid.hbmBg (i : Nat) : Fld := ⟨cellKey 0x1056 (0x300 + i) 0, 32, 0⟩
/-- bytes that the copy of a migration has moved in a pseudo-channel in the present period (R288). -/
def Hid.hbmMigUsed (i : Nat) : Fld := ⟨cellKey 0x1056 (0x400 + i) 0, 32, 0⟩
/-- the background budget in force in the present period, in percent (R22, R272). -/
def Hid.hbmPct : Fld := ⟨cellKey 0x1056 0x500 0, 4, 2⟩
/-- an EN = 0 write is held through TRAINING (R290). -/
def Hid.hbmHeldOff : Fld := ⟨cellKey 0x1057 0 0, 1, 0⟩
/-- the sparing mode sampled at enable (R22). -/
def Hid.hbmSpareNow : Fld := ⟨cellKey 0x1058 0 0, 2, 1⟩
/-- the mapping preset sampled at enable (R270). -/
def Hid.hbmPreset : Fld := ⟨cellKey 0x1059 0 0, 2, 1⟩
/-- PCX[j] sampled at enable (R270). -/
def Hid.hbmPcx (j : Nat) : Fld := ⟨cellKey 0x105A j 0, 20, 0⟩
/-- BKX[j] sampled at enable (R270). -/
def Hid.hbmBkx (j : Nat) : Fld := ⟨cellKey 0x105B j 0, 15, 0⟩
/-- the bandwidth mode in force (R272). -/
def Hid.hbmBw : Fld := ⟨cellKey 0x105C 0 0, 2, 1⟩
/-- scheduler periods begun (R272). -/
def Hid.hbmPeriods : Fld := ⟨cellKey 0x105D 0 0, 64, 0⟩
/-- postponed refreshes of a bank (R274). -/
def Hid.hbmDebt (r b : Nat) : Fld := ⟨cellKey 0x105E (16 * r + b) 0, 4, 0⟩
/-- refreshes given to a rank (R274). -/
def Hid.hbmRefs (r : Nat) : Fld := ⟨cellKey 0x105F r 0, 64, 0⟩
/-- copy pointer P in lines of the rank (R287). -/
def Hid.hbmMigPtr : Fld := ⟨cellKey 0x1060 0 0, 32, 0⟩
/-- an automatic migration of the rank falls due after the present one (R286). -/
def Hid.hbmMigQueue (r : Nat) : Fld := ⟨cellKey 0x1061 r 0, 1, 0⟩
/-- next line of the patrol pass, by physical rank and line (R284). -/
def Hid.hbmScrubPtr : Fld := ⟨cellKey 0x1062 0 0, 32, 0⟩
/-- the core dies are in self-refresh, contents kept (R290). -/
def Hid.hbmSelfRef : Fld := ⟨cellKey 0x1063 0 0, 1, 0⟩
/-- rate reserved in the present period, in GB/s: 0 Hopper's writes, 1 Runner's reads (R83). -/
def Hid.hbmShare (e : Nat) : Fld := ⟨cellKey 0x1064 e 0, 16, 180⟩
/-! KEYS (15_security.md) -/

/-- which key table is loaded: it changes at every DEVICE reset (R458). -/
def Hid.keyEpoch : Fld := ⟨cellKey 0x1065 0 0, 64, 0⟩
/-! SRM (08_sram_layer.md) -/

/-- a wipe of R258 is in progress on Peony's command (R259). -/
def Hid.sramWiped : Fld := ⟨cellKey 0x1066 0 0, 1, 0⟩
/-- a region test runs (hub sub-bank m is 80 + m) (R253). -/
def Hid.ttActive (b : Nat) : Fld := ⟨cellKey 0x1067 b 0, 1, 0⟩
/-- next region of the bank or hub sub-bank (R253). -/
def Hid.ttNext (b : Nat) : Fld := ⟨cellKey 0x1068 b 0, 12, 0⟩
/-- region under test (R253). -/
def Hid.ttCur (b : Nat) : Fld := ⟨cellKey 0x1069 b 0, 12, 0⟩
/-- spare rows in use (R255). -/
def Hid.ttSpares (b : Nat) : Fld := ⟨cellKey 0x106A b 0, 8, 0⟩
/-- TT_REGION has named the next region while another is under test (R261). -/
def Hid.ttNamed (b : Nat) : Fld := ⟨cellKey 0x106A (0x100 + b) 0, 1, 0⟩
/-- timebase at which the unit's last region test began, plus 1 (R253). -/
def Hid.ttAt (b : Nat) : Fld := ⟨cellKey 0x106A (0x200 + b) 0, 64, 0⟩
/-- a request waits for the bank to wake (R256). -/
def Hid.srbWait (b : Nat) : Fld := ⟨cellKey 0x106B b 0, 1, 0⟩
/-- a raw access is in progress (R252). -/
def Hid.rawBusy : Fld := ⟨cellKey 0x106C 0 0, 1, 0⟩
/-! MIL (11_services_and_processors.md) -/

/-- a firmware load protects its target range (R335). -/
def Hid.fwProt : Fld := ⟨cellKey 0x106D 0 0, 1, 0⟩
/-- base of that range (R335). -/
def Hid.fwProtBase : Fld := ⟨cellKey 0x106E 0 0, 46, 0⟩
/-- size of that range (R335). -/
def Hid.fwProtSize : Fld := ⟨cellKey 0x106F 0 0, 32, 0⟩
/-- the load in progress reads MIL_FW_SRC (R335). -/
def Hid.fwMem : Fld := ⟨cellKey 0x1070 0 0, 1, 0⟩
/-- the firmware slot that it reads (R335). -/
def Hid.fwSlot : Fld := ⟨cellKey 0x1071 0 0, 2, 0⟩
/-- the address that it reads (R335). -/
def Hid.fwSrc : Fld := ⟨cellKey 0x1072 0 0, 46, 0⟩
/-- cores that start by themselves once the load in progress succeeds (R433). -/
def Hid.fwAuto : Fld := ⟨cellKey 0x1073 0 0, 4, 0⟩
/-- KEY_ID of the loaded image (R334). -/
def Hid.fwKeyId : Fld := ⟨cellKey 0x1074 0 0, 32, 0⟩
/-- DIGEST of the loaded image (R334). -/
def Hid.fwDigest : Fld := ⟨cellKey 0x1075 0 0, 512, 0⟩
/-- CORES of the loaded image (R334). -/
def Hid.fwCores : Fld := ⟨cellKey 0x1076 0 0, 4, 0⟩
/-- LOAD of the loaded image (R334). -/
def Hid.fwLoad : Fld := ⟨cellKey 0x1077 0 0, 64, 0⟩
/-- ENTRY of the loaded image (R334). -/
def Hid.fwEntry : Fld := ⟨cellKey 0x1078 0 0, 64, 0⟩
/-- the CMO command in progress: 0 CLEAN, 1 INVAL, 2 FLUSH (R327). -/
def Hid.cmoOp : Fld := ⟨cellKey 0x1079 0 0, 2, 0⟩
/-- its first address (R327). -/
def Hid.cmoBase : Fld := ⟨cellKey 0x107A 0 0, 46, 0⟩
/-- its lines (R327). -/
def Hid.cmoSize : Fld := ⟨cellKey 0x107B 0 0, 24, 0⟩
/-- the machine timer interrupt of the core has been raised (R329). -/
def Hid.mtip (c : Nat) : Fld := ⟨cellKey 0x107C c 0, 1, 0⟩
/-- the watchdog has reached 0 since its last kick (R330). -/
def Hid.wdgWarn (c : Nat) : Fld := ⟨cellKey 0x107D c 0, 1, 0⟩
/-- the core holds a reservation (R328). -/
def Hid.lrV (c : Nat) : Fld := ⟨cellKey 0x107E c 0, 1, 0⟩
/-- the 64-byte granule reserved (R328). -/
def Hid.lrAt (c : Nat) : Fld := ⟨cellKey 0x107F c 0, 40, 0⟩
/-- a character is being sent (R331). -/
def Hid.uartBusy (u : Nat) : Fld := ⟨cellKey 0x1080 u 0, 1, 0⟩
/-- the state to which a halted core resumes (R540). -/
def Hid.coreWas (c : Nat) : Fld := ⟨cellKey 0x1081 c 0, 3, 0⟩
/-- general register r of a core (R323). -/
def Hid.coreGpr (c r : Nat) : Fld := ⟨cellKey 0x1082 (32 * c + r) 0, 64, 0⟩
/-- floating-point register r of a core (R323). -/
def Hid.coreFpr (c r : Nat) : Fld := ⟨cellKey 0x1083 (32 * c + r) 0, 64, 0⟩
/-- control and status register k of a core (R323). -/
def Hid.coreCsr (c k : Nat) : Fld := ⟨cellKey 0x1084 (4096 * c + k) 0, 64, 0⟩
/-! VB (07_vertical_bundles_and_millrace.md) -/

/-- all four hub Millrace bundles are FENCED (R238). -/
def Hid.hubFenced : Fld := ⟨cellKey 0x1085 0 0, 1, 0⟩
/-- the bundle's senders are held until its direction code is legal again (R224). -/
def Hid.vbHeld (b : Nat) : Fld := ⟨cellKey 0x1086 b 0, 1, 0⟩
/-- the delay trims of a bundle's wires, 5 bits for each of 128 groups of 68 wires (R212). -/
def Hid.trims (b : Nat) : Fld := ⟨cellKey 0x1086 (0x100 + b) 0, 43520, 0⟩
/-- direction code of island n's Millrace in context c: 0 OFF, 1 L0, 2 UP, 3 TURN (R222). -/
def Hid.mrDir (n c : Nat) : Fld := ⟨cellKey 0x1087 (8 * n + c) 0, 2, 0⟩
/-! CAL (16_background_and_reliability.md) -/

/-- timebase of the last completed calibration of instance j of item i (R483). -/
def Hid.calLast (i j : Nat) : Fld := ⟨cellKey 0x1088 (169 * i + j) 0, 64, 0⟩
/-- an HBM_DQ calibration of the pseudo-channel is due (R486). -/
def Hid.hbmDqDue (i : Nat) : Fld := ⟨cellKey 0x1089 i 0, 1, 0⟩
/-- timebase at which it fell due (R486). -/
def Hid.hbmDqAt (i : Nat) : Fld := ⟨cellKey 0x1089 (0x100 + i) 0, 64, 0⟩
/-- timebase of the last event 24 (R486). -/
def Hid.hbmDqEvt : Fld := ⟨cellKey 0x108A 0 0, 64, 0⟩
/-! NOC (10_on_chip_network.md) -/

/-- input port that an output of a router granted last, by network: 0 N, 1 E, 2 S, 3 W, 4 local, 5 edge (R308). -/
def Hid.rrLast (net r o : Nat) : Fld := ⟨cellKey 0x108B (0x1000 + (net * 80 + r) * 8 + o) 0, 3, 5⟩
/-- causes of the overlapping recoveries that have ended while one of them goes on: 0 migration, 1 router, 2 link (R312). -/
def Hid.barPend : Fld := ⟨cellKey 0x108B 0 0, 3, 0⟩
/-- number of the next request issued on the network (R312). -/
def Hid.pktNext : Fld := ⟨cellKey 0x108C 0 0, 64, 0⟩
/-- number of the first request issued after the last of the overlapping recoveries began (R312). -/
def Hid.recFirst : Fld := ⟨cellKey 0x108D 0 0, 64, 0⟩
/-- consecutive failed replays of a link (R313). -/
def Hid.linkFails (m : Nat) : Fld := ⟨cellKey 0x108E m 0, 5, 0⟩
/-- reconfiguration of a drained router is done (R314). -/
def Hid.rtrDone (n : Nat) : Fld := ⟨cellKey 0x108F n 0, 1, 0⟩
/-- a self-test of the router in FAULT has passed (R314). -/
def Hid.rtrPass (n : Nat) : Fld := ⟨cellKey 0x1090 n 0, 1, 0⟩
/-- DIR written to NOC_RT_ROUTE and held until the commit (R304). -/
def Hid.rtStgDir (i e : Nat) : Fld := ⟨cellKey 0x1091 (256 * i + e) 0, 48, 0⟩
/-- HOPS written to NOC_RT_ROUTE and held until the commit (R304). -/
def Hid.rtStgHops (i e : Nat) : Fld := ⟨cellKey 0x1092 (256 * i + e) 0, 5, 0⟩
/-- NOC_RT_ROUTE has been written since the last commit (R304). -/
def Hid.rtStgSet (i e : Nat) : Fld := ⟨cellKey 0x1093 (256 * i + e) 0, 1, 0⟩
/-- contents held while PENDING = 1: HOPS, DIR, and the word of NOC_RT_CTL (R310). -/
def Hid.rtPend (i e : Nat) : Fld := ⟨cellKey 0x1094 (256 * i + e) 0, 70, 0⟩
/-! CFM (13_configuration_and_contexts.md) -/

/-- data words of a configuration frame of plane c of island n, word 0 lowest (R383). -/
def Hid.cfgFrame (n c f : Nat) : Fld := ⟨cellKey 0x1095 (12800 * n + 1600 * c + f) 0, 2048, 0⟩
/-- stored check of a frame XOR the check of its data: SR in bits 31:0, SC in 95:32 (R470). -/
def Hid.frameSyn (n c f : Nat) : Fld := ⟨cellKey 0x1096 (12800 * n + 1600 * c + f) 0, 96, 0⟩
/-- frames of a plane written with a right check since the last DEVICE reset or CLEAR_PLANES (R396). -/
def Hid.cfgSeen (n c : Nat) : Fld := ⟨cellKey 0x1097 (8 * n + c) 0, 1600, 0⟩
/-- a frame of the plane was refused in the present load (R396). -/
def Hid.cfgRef (n c : Nat) : Fld := ⟨cellKey 0x1098 (8 * n + c) 0, 1, 0⟩
/-- register of the running CRC (R390). -/
def Hid.cfgCrc : Fld := ⟨cellKey 0x1099 0 0, 32, 0xFFFFFFFF⟩
/-- FAR in force (R385). -/
def Hid.cfgFar : Fld := ⟨cellKey 0x109A 0 0, 27, 0⟩
/-- the last frame of the part has been written, and no FAR since (R385). -/
def Hid.cfgFarEnd : Fld := ⟨cellKey 0x109B 0 0, 1, 0⟩
/-- GSEL in force (R406). -/
def Hid.cfgGsel : Fld := ⟨cellKey 0x109C 0 0, 8, 255⟩
/-- an AUTH section is open (R398). -/
def Hid.cfgAuth : Fld := ⟨cellKey 0x109D 0 0, 1, 0⟩
/-- its KEY_ID (R398). -/
def Hid.cfgAuthKey : Fld := ⟨cellKey 0x109E 0 0, 32, 0⟩
/-- LFRM waits for the verification of its section (R398). -/
def Hid.cfgSig : Fld := ⟨cellKey 0x109F 0 0, 1, 0⟩
/-- KEY_ID of the last section verified (R457). -/
def Hid.cfgSecKey : Fld := ⟨cellKey 0x10A0 0 0, 32, 0⟩
/-- digest of the last section verified (R457). -/
def Hid.cfgSecDig : Fld := ⟨cellKey 0x10A1 0 0, 512, 0⟩
/-- the stream is in an encrypted section (R400). -/
def Hid.cfgEnc : Fld := ⟨cellKey 0x10A2 0 0, 1, 0⟩
/-- ciphertext words of the section still to come (R400). -/
def Hid.cfgEncLeft : Fld := ⟨cellKey 0x10A3 0 0, 28, 0⟩
/-- KEY_SEL of the section (R400). -/
def Hid.cfgEncKey : Fld := ⟨cellKey 0x10A4 0 0, 1, 0⟩
/-- SEG of the section (R400). -/
def Hid.cfgEncSeg : Fld := ⟨cellKey 0x10A5 0 0, 13, 0⟩
/-- words of an FDRI packet still to come (R387). -/
def Hid.cfgLeft : Fld := ⟨cellKey 0x10A6 0 0, 28, 0⟩
/-- PLANES mask of the active source (R401). -/
def Hid.cfgPlanes : Fld := ⟨cellKey 0x10A7 0 0, 8, 255⟩
/-- the active source is the boot source (R405). -/
def Hid.cfgBoot : Fld := ⟨cellKey 0x10A8 0 0, 1, 0⟩
/-- the present image is read for the second time (R405). -/
def Hid.cfgTry : Fld := ⟨cellKey 0x10A9 0 0, 1, 0⟩
/-- boot position in DAHLIA mode: 0 PRIMARY, 1 FALLBACK, 2 the flash (R423). -/
def Hid.cfgPos : Fld := ⟨cellKey 0x10AA 0 0, 2, 0⟩
/-- address of the next byte of a slot or memory source (R401). -/
def Hid.cfgPtr : Fld := ⟨cellKey 0x10AB 0 0, 46, 0⟩
/-- end of the source (R401). -/
def Hid.cfgEnd : Fld := ⟨cellKey 0x10AC 0 0, 46, 0⟩
/-- a write is held at the full FIFO (R402). -/
def Hid.cfgHeldV : Fld := ⟨cellKey 0x10AD 0 0, 1, 0⟩
/-- its word (R402). -/
def Hid.cfgHeld : Fld := ⟨cellKey 0x10AE 0 0, 32, 0⟩
/-- a valid flash header has been read (R404). -/
def Hid.flashOk : Fld := ⟨cellKey 0x10AF 0 0, 1, 0⟩
/-- read mode in use: 0 1S-1S-1S, 1 8D-8D-8D (R404). -/
def Hid.flashMode : Fld := ⟨cellKey 0x10B0 0 0, 1, 0⟩
/-- CLK of the flash header (R404). -/
def Hid.flashClk : Fld := ⟨cellKey 0x10B1 0 0, 2, 0⟩
/-- OCT_DUMMY of the flash header (R404). -/
def Hid.flashDummy : Fld := ⟨cellKey 0x10B2 0 0, 5, 0⟩
/-- IMAGE of the flash header (R404). -/
def Hid.flashImg (i : Nat) : Fld := ⟨cellKey 0x10B3 i 0, 32, 0xFFFFFFFF⟩
/-- islands in the present start-up (R412). -/
def Hid.startSet : Fld := ⟨cellKey 0x10B4 0 0, 80, 0⟩
/-- stage to come: 0 CLOCKS, 1 to 3 the release stages, 4 DONE, 5 WEIR (R412). -/
def Hid.startStage : Fld := ⟨cellKey 0x10B5 0 0, 3, 0⟩
/-- timebase of START (R414). -/
def Hid.startAt : Fld := ⟨cellKey 0x10B6 0 0, 64, 0⟩
/-- timebase at which the last stage was complete (R412). -/
def Hid.startPrev : Fld := ⟨cellKey 0x10B6 1 0, 64, 0⟩
/-- the island was left out of its start-up and completes alone (R414). -/
def Hid.startLate (n : Nat) : Fld := ⟨cellKey 0x10B7 n 0, 1, 0⟩
/-- the header settings of the island's entry plane did not fit (R411). -/
def Hid.hdrBad (n : Nat) : Fld := ⟨cellKey 0x10B8 n 0, 1, 0⟩
/-- the island is LOADING under PR_BEGIN, or starts after it (R416). -/
def Hid.prIsl (n : Nat) : Fld := ⟨cellKey 0x10B9 n 0, 1, 0⟩
/-- a frame of its active plane has been written since (R416). -/
def Hid.prGot (n : Nat) : Fld := ⟨cellKey 0x10BA n 0, 1, 0⟩
/-- ISL_WEIR_IO of an I/O island as sampled when its Weir closed (R417). -/
def Hid.weirIoAt (b m : Nat) : Fld := ⟨cellKey 0x10BB (3 * b + m) 0, 32, 0⟩
/-- Dahlia command in progress: 0 an image slot, 1 a firmware slot (R422). -/
def Hid.dahKind : Fld := ⟨cellKey 0x10BC 0 0, 1, 0⟩
/-- its slot (R422). -/
def Hid.dahSlot : Fld := ⟨cellKey 0x10BD 0 0, 2, 0⟩
/-- the endurance warning has been raised (R424). -/
def Hid.dahWarned : Fld := ⟨cellKey 0x10BE 0 0, 1, 0⟩
/-! AST (17_power_thermal_energy.md) -/

/-- power limit that waits for the end of a switch set (0 none) (R24). -/
def Hid.astLimPend : Fld := ⟨cellKey 0x10BF 0 0, 9, 0⟩
/-- power limit written during a stop (0 none) (R523). -/
def Hid.astStopLim : Fld := ⟨cellKey 0x10C0 0 0, 9, 0⟩
/-- 1 + STAGING written during a stop (0 none) (R523). -/
def Hid.astStopStg : Fld := ⟨cellKey 0x10C1 0 0, 2, 0⟩
/-- 1 + METHOD written during a stop (0 none) (R523). -/
def Hid.astStopMeth : Fld := ⟨cellKey 0x10C2 0 0, 2, 0⟩
/-- throttle method in force (R22). -/
def Hid.astMeth : Fld := ⟨cellKey 0x10C3 0 0, 2, 0⟩
/-- device power at the last ten steps, latest first, 0.1 W (R498). -/
def Hid.pwrHist (i : Nat) : Fld := ⟨cellKey 0x10C4 i 0, 16, 0⟩
/-- steps until PWR_LEVEL may rise again (R498). -/
def Hid.govWait : Fld := ⟨cellKey 0x10C5 0 0, 4, 0⟩
/-- consecutive steps at MIN_LEVEL, stopping at 1000 (R498). -/
def Hid.govMin : Fld := ⟨cellKey 0x10C6 0 0, 10, 0⟩
/-- consecutive steps in which the island exceeded its I_CTX by more than 10 %, stopping at 100 (R500). -/
def Hid.declRun (n : Nat) : Fld := ⟨cellKey 0x10C7 n 0, 7, 0⟩
/-- measured current of the island's logic, 10 mA (R497). -/
def Hid.islCur (n : Nat) : Fld := ⟨cellKey 0x10C8 n 0, 16, 0⟩
/-- current to which the ballast holds the island, 10 mA (0: ballast off) (R501). -/
def Hid.held (n : Nat) : Fld := ⟨cellKey 0x10C9 n 0, 9, 0⟩
/-- share of edges that the throttle gives the island, of 64 (R518). -/
def Hid.thrShare (n : Nat) : Fld := ⟨cellKey 0x10CA n 0, 7, 64⟩
/-- share of edges of the Miller cores, of 64 (R517). -/
def Hid.coreShare : Fld := ⟨cellKey 0x10CB 0 0, 7, 64⟩
/-- share of edges of Millstone, of 64 (R517). -/
def Hid.mstShare : Fld := ⟨cellKey 0x10CC 0 0, 7, 64⟩
/-- consecutive milliseconds with every T_USED below THR - 3 °C (R516). -/
def Hid.thmUp : Fld := ⟨cellKey 0x10CD 0 0, 4, 0⟩
/-- filtered power of the channel, 0.1 W (R510). -/
def Hid.filt (i : Nat) : Fld := ⟨cellKey 0x10CE i 0, 17, 0⟩
/-- conversions since power-on (R507). -/
def Hid.convNo : Fld := ⟨cellKey 0x10CF 0 0, 32, 0⟩
/-- T_USED of channel i at conversion number k modulo 64; 16 T_CASE (R514). -/
def Hid.tHist (i k : Nat) : Fld := ⟨cellKey 0x10D0 (64 * i + k) 0, 16, 0⟩
/-- consecutive conversions with MEAS more than 8 °C below PRED, stopping at 63 (R512). -/
def Hid.suspRun (i : Nat) : Fld := ⟨cellKey 0x10D1 i 0, 6, 0⟩
/-- consecutive conversions with MEAS within 4 °C of PRED, stopping at 1023 (R512). -/
def Hid.nearRun (i : Nat) : Fld := ⟨cellKey 0x10D2 i 0, 10, 0⟩
/-- the channel's rate of rise has been reached (R514). -/
def Hid.rateHot (i : Nat) : Fld := ⟨cellKey 0x10D3 i 0, 1, 0⟩
/-- a hard stop has begun and its steps 2 to 5 are to come (R521). -/
def Hid.hardPend : Fld := ⟨cellKey 0x10D4 0 0, 1, 0⟩
/-! MAR (04_flows_and_counter_tree.md) -/

/-- LIVE: the sixteen counters of a flow (R109). -/
def Hid.live (f c : Nat) : Fld := ⟨cellKey 0x10D5 (16 * f + c) 0, 64, 0⟩
/-- SNAP: their copy (R109). -/
def Hid.snap (f c : Nat) : Fld := ⟨cellKey 0x10D6 (16 * f + c) 0, 64, 0⟩
/-- EP_TAG: the epoch in which LIVE last changed (R109). -/
def Hid.epTag (f : Nat) : Fld := ⟨cellKey 0x10D7 f 0, 64, 0⟩
/-- EV_SINCE: events applied since the last close (R109). -/
def Hid.evSince (f : Nat) : Fld := ⟨cellKey 0x10D8 f 0, 64, 0⟩
/-- the flow is live (R115). -/
def Hid.flowValid (f : Nat) : Fld := ⟨cellKey 0x10D9 f 0, 1, 0⟩
/-- LOST (R137). -/
def Hid.flowLost (f : Nat) : Fld := ⟨cellKey 0x10DA f 0, 1, 0⟩
/-- SEQ_V of the tracker (R124). -/
def Hid.flowSeqV (f : Nat) : Fld := ⟨cellKey 0x10DB f 0, 1, 0⟩
/-- pipeline of the last applied entry (R183). -/
def Hid.flowPort (f : Nat) : Fld := ⟨cellKey 0x10DC f 0, 2, 0⟩
/-- RESYNCS (R124). -/
def Hid.flowResync (f : Nat) : Fld := ⟨cellKey 0x10DD f 0, 16, 0⟩
/-- HIGH (R124). -/
def Hid.flowHigh (f : Nat) : Fld := ⟨cellKey 0x10DE f 0, 32, 0⟩
/-- WIN (R124). -/
def Hid.flowWin (f : Nat) : Fld := ⟨cellKey 0x10DF f 0, 64, 0⟩
/-- FIRST (R126). -/
def Hid.flowFirst (f : Nat) : Fld := ⟨cellKey 0x10E0 f 0, 64, 0⟩
/-- LAST (R126). -/
def Hid.flowLast (f : Nat) : Fld := ⟨cellKey 0x10E1 f 0, 64, 0⟩
/-- an entry has been applied since creation or LOST (R126). -/
def Hid.flowSeen (f : Nat) : Fld := ⟨cellKey 0x10E2 f 0, 1, 0⟩
/-- TS of the creating event (R119). -/
def Hid.flowMade (f : Nat) : Fld := ⟨cellKey 0x10E3 f 0, 64, 0⟩
/-- histogram bins (R109). -/
def Hid.hist (f b : Nat) : Fld := ⟨cellKey 0x10E4 (32 * f + b) 0, 32, 0⟩
/-- ledger of a level-1 node (R109). -/
def Hid.ledger (i c : Nat) : Fld := ⟨cellKey 0x10E5 (16 * i + c) 0, 64, 0⟩
/-- the ledger as it stood at the last close (R109). -/
def Hid.ledCopy (i c : Nat) : Fld := ⟨cellKey 0x10E6 (16 * i + c) 0, 64, 0⟩
/-- published interior nodes (R131). -/
def Hid.node (n c : Nat) : Fld := ⟨cellKey 0x10E7 (16 * n + c) 0, 64, 0⟩
/-- the node is BAD (R136). -/
def Hid.nodeBad (n : Nat) : Fld := ⟨cellKey 0x10E8 n 0, 1, 0⟩
/-- when the flow was last used, for the 1,024 flows in the key cache; 0 outside it (R116). -/
def Hid.keyUse (f : Nat) : Fld := ⟨cellKey 0x10E9 f 0, 64, 0⟩
/-- uses counted so far (R116). -/
def Hid.keyClock : Fld := ⟨cellKey 0x10EA 0 0, 64, 0⟩
/-- key of a flow in the key cache (R116). -/
def Hid.cKey (f : Nat) : Fld := ⟨cellKey 0x10EB f 0, 512, 0⟩
/-- its KLEN (R116). -/
def Hid.cLen (f : Nat) : Fld := ⟨cellKey 0x10EC f 0, 6, 0⟩
/-- a bucket waits to be rebuilt (R140). -/
def Hid.bktBad (b : Nat) : Fld := ⟨cellKey 0x10ED b 0, 1, 0⟩
/-- number of the last close (R129). -/
def Hid.epNum : Fld := ⟨cellKey 0x10EE 0 0, 64, 0⟩
/-- multiples passed without a close (R134). -/
def Hid.epSkip : Fld := ⟨cellKey 0x10EF 0 0, 32, 0⟩
/-- SKIPPED of the close being published (R134). -/
def Hid.pubSkip : Fld := ⟨cellKey 0x10F0 0 0, 8, 0⟩
/-- leaves LOST during the epoch being published (R131). -/
def Hid.pubLost : Fld := ⟨cellKey 0x10F1 0 0, 13, 0⟩
/-- close instant of the epoch being published (R131). -/
def Hid.pubTs : Fld := ⟨cellKey 0x10F2 0 0, 64, 0⟩
/-- the close is not published yet (R131). -/
def Hid.pubPend : Fld := ⟨cellKey 0x10F3 0 0, 1, 0⟩
/-- leaves that became LOST during the present epoch (R131). -/
def Hid.epLost : Fld := ⟨cellKey 0x10F4 0 0, 13, 0⟩
/-- STOP waits for the pending entries (R141). -/
def Hid.marStop : Fld := ⟨cellKey 0x10F5 0 0, 1, 0⟩
/-- the FULL signal of pipeline p's key bus (R110). -/
def Hid.keyFull (p : Nat) : Fld := ⟨cellKey 0x10F5 (1 + p) 0, 1, 0⟩
/-- the 512 bytes that an export writes for flow f, as copied when EXPORT was accepted (R135). -/
def Hid.expFlow (f : Nat) : Fld := ⟨cellKey 0x10F5 (0x1000 + f) 0, 4096, 0⟩
/-- the timebase when EXPORT was accepted (R135). -/
def Hid.expTs : Fld := ⟨cellKey 0x10F5 5 0, 64, 0⟩
/-- MAR_LIVE when EXPORT was accepted (R135). -/
def Hid.expLive : Fld := ⟨cellKey 0x10F5 6 0, 13, 0⟩
/-- MAR_EXP_BASE when EXPORT was accepted (R135). -/
def Hid.expBase : Fld := ⟨cellKey 0x10F5 7 0, 64, 0⟩
/-- MAR_EXP_CFG.KEY when EXPORT was accepted (R135). -/
def Hid.expKey : Fld := ⟨cellKey 0x10F5 8 0, 4, 0⟩
/-! CLK (06_islands_clocks_and_sluices.md) -/

/-- consecutive windows passed in JUDGING (R194). -/
def Hid.clkPass (n : Nat) : Fld := ⟨cellKey 0x10F6 n 0, 4, 0⟩
/-- windows judged in JUDGING (R194). -/
def Hid.clkWin (n : Nat) : Fld := ⟨cellKey 0x10F7 n 0, 6, 0⟩
/-- consecutive windows failed in RUNNING (R194). -/
def Hid.clkBad (n : Nat) : Fld := ⟨cellKey 0x10F8 n 0, 2, 0⟩
/-- the present RAMP_DOWN started from FALLBACK (R194). -/
def Hid.clkFb (n : Nat) : Fld := ⟨cellKey 0x10F9 n 0, 1, 0⟩
/-- a start-up pair waits until the clock is GATED (R411). -/
def Hid.clkPairV (n : Nat) : Fld := ⟨cellKey 0x10FA n 0, 1, 0⟩
/-- its word of ISL_CLK_CFG (R411). -/
def Hid.clkPairCfg (n : Nat) : Fld := ⟨cellKey 0x10FB n 0, 32, 0⟩
/-- its FRAC (R411). -/
def Hid.clkPairFrac (n : Nat) : Fld := ⟨cellKey 0x10FC n 0, 24, 0⟩
/-- timebase at which the present power-down fenced the NI (R316). -/
def Hid.fenceAt (n : Nat) : Fld := ⟨cellKey 0x10FD n 0, 64, 0⟩
/-- the inbound Sluice banks are closed until the island is RUN (R204). -/
def Hid.slcShut (n : Nat) : Fld := ⟨cellKey 0x10FE n 0, 1, 0⟩
/-- the island was powered up and waits in RESET for its clock (R200). -/
def Hid.pwrUp (n : Nat) : Fld := ⟨cellKey 0x10FF n 0, 1, 0⟩
/-- fabric share used in the present 1 us window, in units of 10 mA (R500). -/
def Hid.slewUsed : Fld := ⟨cellKey 0x1100 0 0, 16, 0⟩
/-- an orderly stop gates the clocks (R519). -/
def Hid.stopGate : Fld := ⟨cellKey 0x1101 0 0, 1, 0⟩
/-! MST (11_services_and_processors.md) -/

/-- descriptor of the current job (R339). -/
def Hid.mstDesc : Fld := ⟨cellKey 0x1102 0 0, 1024, 0⟩
/-- how the current job ends: 0 it runs, 1 DONE, 2 ABORTED, 3 FAULT (R338). -/
def Hid.mstEnd : Fld := ⟨cellKey 0x1103 0 0, 2, 0⟩
/-- its cause (R339). -/
def Hid.mstCause : Fld := ⟨cellKey 0x1104 0 0, 4, 0⟩
/-- SELECTED so far (R339). -/
def Hid.mstSel : Fld := ⟨cellKey 0x1105 0 0, 64, 0⟩
/-- OUT_BYTES so far (R339). -/
def Hid.mstOut : Fld := ⟨cellKey 0x1106 0 0, 64, 0⟩
/-- BLK_READ so far (R339). -/
def Hid.mstRead : Fld := ⟨cellKey 0x1107 0 0, 32, 0⟩
/-- BLK_LOST so far (R339). -/
def Hid.mstLost : Fld := ⟨cellKey 0x1108 0 0, 32, 0⟩
/-- HDR_BAD so far (R339). -/
def Hid.mstBad : Fld := ⟨cellKey 0x1109 0 0, 32, 0⟩
/-- OVERRUN so far (R339). -/
def Hid.mstOver : Fld := ⟨cellKey 0x110A 0 0, 32, 0⟩
/-- consecutive lost blocks (R342). -/
def Hid.mstRun : Fld := ⟨cellKey 0x110B 0 0, 5, 0⟩
/-- TRUNC (R343). -/
def Hid.mstTrunc : Fld := ⟨cellKey 0x110C 0 0, 1, 0⟩
/-- LIMIT (R339). -/
def Hid.mstLimit : Fld := ⟨cellKey 0x110D 0 0, 1, 0⟩
/-- IDX_STALE (R344). -/
def Hid.mstStale : Fld := ⟨cellKey 0x110E 0 0, 1, 0⟩
/-- HOP_FILE_OLD at the start of the job (R343). -/
def Hid.mstOld : Fld := ⟨cellKey 0x110F 0 0, 64, 0⟩
/-- write point sampled at the start of the job (R341). -/
def Hid.mstWp : Fld := ⟨cellKey 0x1110 0 0, 64, 0⟩
/-- INDEX entries written (R343). -/
def Hid.mstIdx : Fld := ⟨cellKey 0x1111 0 0, 32, 0⟩
/-- port of interface i of the stream plus 1, 0 for none (R345). -/
def Hid.mstPorts (i : Nat) : Fld := ⟨cellKey 0x1112 i 0, 3, 0⟩
/-- fileGen of the job's file at its start (R341). -/
def Hid.mstGen : Fld := ⟨cellKey 0x1113 0 0, 32, 0⟩
/-- STOP waits for the current job (R347). -/
def Hid.mstStop : Fld := ⟨cellKey 0x1114 0 0, 1, 0⟩
/-- ring served last (R338). -/
def Hid.mstRr : Fld := ⟨cellKey 0x1115 0 0, 2, 3⟩
/-- the job has emitted its last block to the stream of queue q (R345). -/
def Hid.strFin (q : Nat) : Fld := ⟨cellKey 0x1116 q 0, 1, 0⟩
/-! FIL (11_services_and_processors.md) -/

/-- ARMs and CLEARs of the file so far (R341). -/
def Hid.fileGen (f : Nat) : Fld := ⟨cellKey 0x1117 f 0, 32, 0⟩
/-- blocks of the segment that the writer has entered since it was EMPTY (R341). -/
def Hid.segEnt (s : Nat) : Fld := ⟨cellKey 0x1118 s 0, 64, 0⟩
/-! RLK (12_host_and_partner_ports.md) -/

/-- SEQ of the next numbered row sent (R368). -/
def Hid.rlkSeqTx (l : Nat) : Fld := ⟨cellKey 0x1119 l 0, 8, 0⟩
/-- all drivers of the link off: a rail is low (R55, R362). -/
def Hid.rlkDrvOff (l : Nat) : Fld := ⟨cellKey 0x1119 (0x100 + l) 0, 1, 0⟩
/-- the lane's driver is held in electrical idle after a short (R55, R362). -/
def Hid.rlkLaneIdle (l k : Nat) : Fld := ⟨cellKey 0x1119 (0x200 + 16 * l + k) 0, 1, 0⟩
/-- the lane's marker flywheel: blocks since its last marker slot, plus 1; 0 before the first marker (R37, R362). -/
def Hid.rlkSinceMkr (l k : Nat) : Fld := ⟨cellKey 0x1119 (0x500 + 16 * l + k) 0, 15, 0⟩
/-- FBDIV of the link's PLL (R363). -/
def Hid.rlkFbdiv (l : Nat) : Fld := ⟨cellKey 0x1119 (0x300 + l) 0, 10, 0⟩
/-- FRAC of the link's PLL (R363). -/
def Hid.rlkFrac (l : Nat) : Fld := ⟨cellKey 0x1119 (0x400 + l) 0, 24, 0⟩
/-- SEQ expected next (R368). -/
def Hid.rlkSeqRx (l : Nat) : Fld := ⟨cellKey 0x111A l 0, 8, 0⟩
/-- numbered rows are discarded until the replay arrives (R368). -/
def Hid.rlkWait (l : Nat) : Fld := ⟨cellKey 0x111B l 0, 1, 0⟩
/-- credits to return: 0 DATA0, 1 DATA1, 2 MGMT (R369). -/
def Hid.rlkRet (l c : Nat) : Fld := ⟨cellKey 0x111C (3 * l + c) 0, 8, 0⟩
/-- SEQ that the last NAK asked for (R367). -/
def Hid.rlkNakSeq (l : Nat) : Fld := ⟨cellKey 0x111D l 0, 8, 0⟩
/-- NAKs for it in a row (R367). -/
def Hid.rlkNakCnt (l : Nat) : Fld := ⟨cellKey 0x111E l 0, 5, 0⟩
/-- payload of the last OFFER received since the link entered OFFER (R366). -/
def Hid.rlkOffer (l : Nat) : Fld := ⟨cellKey 0x111F l 0, 64, 0⟩
/-- an OFFER has been received since (R366). -/
def Hid.rlkOfferV (l : Nat) : Fld := ⟨cellKey 0x1120 l 0, 1, 0⟩
/-- agreed rate (R367). -/
def Hid.rlkAgreed (l : Nat) : Fld := ⟨cellKey 0x1121 l 0, 2, 0⟩
/-- TS_ROLE of the peer (R372). -/
def Hid.rlkPeerRole (l : Nat) : Fld := ⟨cellKey 0x1122 l 0, 2, 0⟩
/-- timebase of the lane's last handover, or of its last reset (R54). -/
def Hid.rlkCalAt (l k : Nat) : Fld := ⟨cellKey 0x1123 (8 * l + k) 0, 64, 0⟩
/-- exchange number (R372). -/
def Hid.tsX (l : Nat) : Fld := ⟨cellKey 0x1124 l 0, 8, 0⟩
/-- t1 of the exchange (R372). -/
def Hid.tsT1 (l : Nat) : Fld := ⟨cellKey 0x1125 l 0, 64, 0⟩
/-- t2 of the exchange (R372). -/
def Hid.tsT2 (l : Nat) : Fld := ⟨cellKey 0x1126 l 0, 64, 0⟩
/-- t3 of the exchange (R372). -/
def Hid.tsT3 (l : Nat) : Fld := ⟨cellKey 0x1127 l 0, 64, 0⟩
/-! TSB (12_host_and_partner_ports.md) -/

/-- consecutive exchanges with |theta| of at most 250 ps, stopping at 8 (R373). -/
def Hid.tsGood : Fld := ⟨cellKey 0x1128 0 0, 4, 0⟩
/-- consecutive exchanges with |theta| above 500 ps, stopping at 4 (R373). -/
def Hid.tsBad : Fld := ⟨cellKey 0x1129 0 0, 3, 0⟩
/-- how far the timebase is into its next 250 ps, in parts of 1,000,000,000 (R373). -/
def Hid.tsFrac : Fld := ⟨cellKey 0x112A 1 0, 30, 0⟩
/-- theta of the backward step that is held, signed ps (R374). -/
def Hid.tsHeld : Fld := ⟨cellKey 0x112A 0 0, 32, 0⟩
/-! HST (12_host_and_partner_ports.md) -/

/-- an interrupt moderation period of the queue runs (R359). -/
def Hid.imodRun (q : Nat) : Fld := ⟨cellKey 0x112B q 0, 1, 0⟩
/-- a completion in the period waits for its message (R359). -/
def Hid.imodPend (q : Nat) : Fld := ⟨cellKey 0x112C q 0, 1, 0⟩
/-- units of up to 4 KiB of the descriptor in progress that the queue has been served (R359). -/
def Hid.qUnits (q : Nat) : Fld := ⟨cellKey 0x112C (0x100 + q) 0, 13, 0⟩
/-- the queue served last (R359). -/
def Hid.qLast : Fld := ⟨cellKey 0x112C 0x200 0, 6, 63⟩
/-- last value that the host wrote to a DWORD of configuration space (R350). -/
def Hid.pcieCfg (r : Nat) : Fld := ⟨cellKey 0x112D r 0, 32, 0⟩
/-! PEO (15_security.md) -/

/-- code of the Peony command that runs; 0x40 AUTH_CHALLENGE and 0x41 AUTH_TOKEN of the debug port (R464). -/
def Hid.peoCode : Fld := ⟨cellKey 0x112E 0 0, 8, 0⟩
/-- PEO_BUF as the running command took it when it was accepted (R464). -/
def Hid.peoBuf : Fld := ⟨cellKey 0x112E 1 0, 40, 0⟩
/-- PEO_BUF_KEY as it took it (R464). -/
def Hid.peoBufKey : Fld := ⟨cellKey 0x112E 2 0, 4, 0⟩
/-- PEO_FUSE_ADDR as it took it (R464). -/
def Hid.peoAddr : Fld := ⟨cellKey 0x112E 3 0, 9, 0⟩
/-- PEO_FUSE_DATA as it took it (R464). -/
def Hid.peoData : Fld := ⟨cellKey 0x112E 4 0, 32, 0⟩
/-- body of the attestation report, taken when ATTEST was accepted (R457). -/
def Hid.peoBody : Fld := ⟨cellKey 0x112F 0 0, 8192, 0⟩
/-- a challenge is outstanding (R455). -/
def Hid.chalV : Fld := ⟨cellKey 0x1130 0 0, 1, 0⟩
/-- timebase at which it was issued (R455). -/
def Hid.chalAt : Fld := ⟨cellKey 0x1131 0 0, 64, 0⟩
/-- the challenge (R455). -/
def Hid.chal : Fld := ⟨cellKey 0x1132 0 0, 512, 0⟩
/-! AUX (18_debug_and_run_control.md) -/

/-- a token-granted debug level is in force (R455). -/
def Hid.tokenV : Fld := ⟨cellKey 0x1133 0 0, 1, 0⟩
/-- instruction in the TAP's instruction register (R531). -/
def Hid.tapIr : Fld := ⟨cellKey 0x1134 0 0, 8, 2⟩
/-- the last instruction loaded was denied (R531). -/
def Hid.tapD : Fld := ⟨cellKey 0x1135 0 0, 1, 0⟩
/-- a halt of the core has been asked for: 1 by HALT, 2 by STEP (R540). -/
def Hid.haltWant (c : Nat) : Fld := ⟨cellKey 0x1136 c 0, 2, 0⟩
/-- a debug access runs (R534). -/
def Hid.accBusy : Fld := ⟨cellKey 0x1137 0 0, 1, 0⟩
/-- it is a write (R533). -/
def Hid.accWr : Fld := ⟨cellKey 0x1138 0 0, 1, 0⟩
/-- its address (R533). -/
def Hid.accAddr : Fld := ⟨cellKey 0x1139 0 0, 46, 0⟩
/-- its write data, and after it the data captured (R533). -/
def Hid.accData : Fld := ⟨cellKey 0x113A 0 0, 32, 0⟩
/-- STATUS of the last operation: 0 OK, 2 ERROR, 3 DENIED (R533). -/
def Hid.accStat : Fld := ⟨cellKey 0x113B 0 0, 2, 0⟩
/-! SVC (13_configuration_and_contexts.md) -/

/-- public key of an owner slot in the key record of the Dahlia service area (R452). -/
def Hid.ownerKey (i : Nat) : Fld := ⟨cellKey 0x113C i 0, 14344, 0⟩
/-- a key has been installed in the slot (R452). -/
def Hid.ownerKeyV (i : Nat) : Fld := ⟨cellKey 0x113D i 0, 1, 0⟩
/-- the digest of the key installed in the slot, which was that of the slot when it was installed (R452). -/
def Hid.ownerDig (i : Nat) : Fld := ⟨cellKey 0x113D (8 + i) 0, 256, 0⟩
/-- a key is sealed in Dahlia (R464). -/
def Hid.sealedV : Fld := ⟨cellKey 0x113E 0 0, 1, 0⟩
/-- the sealed key (R464). -/
def Hid.sealedKey : Fld := ⟨cellKey 0x113F 0 0, 256, 0⟩
/-! JNL (16_background_and_reliability.md) -/

/-- a captured journal entry is still unwritten (R489). -/
def Hid.jnlV : Fld := ⟨cellKey 0x1140 0 0, 1, 0⟩
/-- its 4,096 bytes (R490). -/
def Hid.jnlBody : Fld := ⟨cellKey 0x1141 0 0, 32768, 0⟩
/-- entries written since the last DEVICE reset (R489). -/
def Hid.jnlCount : Fld := ⟨cellKey 0x1142 0 0, 7, 0⟩
/-! SCB (16_background_and_reliability.md) -/

/-- golden copy of a frame (R473). -/
def Hid.gold (n c f : Nat) : Fld := ⟨cellKey 0x1143 (12800 * n + 1600 * c + f) 0, 2048, 0⟩
/-- 64 KiB units that a golden copy takes (R473). -/
def Hid.goldUnits (n c : Nat) : Fld := ⟨cellKey 0x1144 (8 * n + c) 0, 16, 0⟩
/-- the engine serves its own islands (R477). -/
def Hid.engShare (e : Nat) : Fld := ⟨cellKey 0x1145 e 0, 1, 1⟩
/-- the engine has been reloaded and waits for its check (R477). -/
def Hid.engReady (e : Nat) : Fld := ⟨cellKey 0x1146 e 0, 1, 0⟩
/-- timebases of its last two faults plus 1, newest first (R477). -/
def Hid.engFault (e k : Nat) : Fld := ⟨cellKey 0x1147 (2 * e + k) 0, 64, 0⟩
/-- an accusation waits for the third engine (R477). -/
def Hid.accV : Fld := ⟨cellKey 0x1148 0 0, 1, 0⟩
/-- the engine accused (R477). -/
def Hid.accEng : Fld := ⟨cellKey 0x1149 0 0, 2, 0⟩
/-- the cause found (R476). -/
def Hid.accCause : Fld := ⟨cellKey 0x114A 0 0, 3, 0⟩
/-- timebase at which the present pass began (R469). -/
def Hid.passAt : Fld := ⟨cellKey 0x114B 0 0, 64, 0⟩
/-- cycles of a resource that background work has taken and that no period has paid for yet (R467): 0 and 1 the risers, 2 + u the SRAM
unit u, 86 Dahlia in bytes, 88 + e the frames of scrub engine e (R475). -/
def Hid.bgUsed (r : Nat) : Fld := ⟨cellKey 0x114B (0x100 + r) 0, 40, 0⟩
/-- scheduling period of the resource that `bgUsed` is counted to (R467). -/
def Hid.bgPer (r : Nat) : Fld := ⟨cellKey 0x114B (0x200 + r) 0, 64, 0⟩
/-- the share in force on the resource (R22, R467). -/
def Hid.bgPct (r : Nat) : Fld := ⟨cellKey 0x114B (0x300 + r) 0, 4, 2⟩
/-- frames of plane c of island n that SCRUB_NOW has had checked (R492). -/
def Hid.scrAsk (n c : Nat) : Fld := ⟨cellKey 0x114B (0x800 + 8 * n + c) 0, 11, 0⟩
/-- frames of plane c of island n that the present pass has checked (R469). -/
def Hid.scrProg (n c : Nat) : Fld := ⟨cellKey 0x114B (0x400 + 8 * n + c) 0, 11, 0⟩
/-- target of the running self-test (R480). -/
def Hid.bstTgt : Fld := ⟨cellKey 0x114C 0 0, 4, 0⟩
/-- its INDEX (R480). -/
def Hid.bstIdx : Fld := ⟨cellKey 0x114D 0 0, 7, 0⟩
/-- the instance runs without its redundant element (R484). -/
def Hid.calDeg (i j : Nat) : Fld := ⟨cellKey 0x114E (169 * i + j) 0, 1, 0⟩
/-- AST_THR_CNT increments since the previous telemetry record (R488). -/
def Hid.telThr : Fld := ⟨cellKey 0x114F 0 0, 32, 0⟩
/-! BTS (14_the_first_second.md) -/

/-- valid rails: 0 VCC_AUX, 1 VCC_CFG, 2 VCC_HARD, 3 VCC_SRM, 4 VCC_SRM_RET, 5 VCC_FAB, 6 VPP_HBM, 7 VDD_HBM, 8 VCC_LANE, 9 VTT_LANE (R428). -/
def Hid.railOk : Fld := ⟨cellKey 0x1150 0 0, 10, 0⟩
/-- the AUX power-on reset is released and the fuses are sensed (R429). -/
def Hid.auxUp : Fld := ⟨cellKey 0x1151 0 0, 1, 0⟩
/-- PROG_N is held low (R438). -/
def Hid.progLow : Fld := ⟨cellKey 0x1152 0 0, 1, 0⟩
/-- a hard stop has held the part and no DEVICE reset has come since (R522). -/
def Hid.hardHold : Fld := ⟨cellKey 0x1153 0 0, 1, 0⟩
/-- level of PCIE_PERST_N (R435). -/
def Hid.perst : Fld := ⟨cellKey 0x1154 0 0, 1, 0⟩
/-- groups of eight islands whose power switches have closed (R430). -/
def Hid.islPower : Fld := ⟨cellKey 0x1155 0 0, 10, 0⟩
/-- repair words of the fuses whose two senses disagreed (R445). -/
def Hid.fuseWeak : Fld := ⟨cellKey 0x1155 1 0, 384, 0⟩

/-! The blocks that hold the cells of each group, for the resets. -/

def Hid.grpPRB : Nat × Nat := (0x1000, 0x1018)
def Hid.grpHOP : Nat × Nat := (0x1018, 0x1021)
def Hid.grpLAN : Nat × Nat := (0x1021, 0x1030)
def Hid.grpRUN : Nat × Nat := (0x1030, 0x103B)
def Hid.grpEVT : Nat × Nat := (0x103B, 0x1041)
def Hid.grpFP : Nat × Nat := (0x1041, 0x1053)
def Hid.grpHBM : Nat × Nat := (0x1053, 0x1065)
def Hid.grpKEYS : Nat × Nat := (0x1065, 0x1066)
def Hid.grpSRM : Nat × Nat := (0x1066, 0x106D)
def Hid.grpMIL : Nat × Nat := (0x106D, 0x1085)
def Hid.grpVB : Nat × Nat := (0x1085, 0x1088)
def Hid.grpCAL : Nat × Nat := (0x1088, 0x108B)
def Hid.grpNOC : Nat × Nat := (0x108B, 0x1095)
def Hid.grpCFM : Nat × Nat := (0x1095, 0x10BF)
def Hid.grpAST : Nat × Nat := (0x10BF, 0x10D5)
def Hid.grpMAR : Nat × Nat := (0x10D5, 0x10F6)
def Hid.grpCLK : Nat × Nat := (0x10F6, 0x1102)
def Hid.grpMST : Nat × Nat := (0x1102, 0x1117)
def Hid.grpFIL : Nat × Nat := (0x1117, 0x1119)
def Hid.grpRLK : Nat × Nat := (0x1119, 0x1128)
def Hid.grpTSB : Nat × Nat := (0x1128, 0x112B)
def Hid.grpHST : Nat × Nat := (0x112B, 0x112E)
def Hid.grpPEO : Nat × Nat := (0x112E, 0x1133)
def Hid.grpAUX : Nat × Nat := (0x1133, 0x113C)
def Hid.grpSVC : Nat × Nat := (0x113C, 0x1140)
def Hid.grpJNL : Nat × Nat := (0x1140, 0x1143)
def Hid.grpSCB : Nat × Nat := (0x1143, 0x1150)
def Hid.grpBTS : Nat × Nat := (0x1150, 0x1156)

end Sys2Proof.Machine
end

