-- ==== Sys2Proof/Machine/State.lean ====
section
/-! DEFINITION. The state of the part: plain data. -/

namespace Sys2Proof.Machine

/-- One lane slot of a row: sync header, descrambled payload, header-error flag, or the marker slot (R39). -/
structure Slot where
  hdr     : Nat
  payload : DWord
  err     : Bool
  marker  : Bool
deriving DecidableEq, Repr

/-- A delivered row: its slots in logical lane order, the timebase at the pin time of the earliest lane (R42) and its
number since the port entered UP. -/
structure PRow where
  slots : List Slot
  time  : Nat
  num   : Nat
deriving DecidableEq, Repr

/-- An entry of the mark bus (R67). -/
structure Mark where
  start : Bool
  stop  : Bool
  drop  : Bool
  tag   : Nat
deriving DecidableEq, Repr

/-- A row in a pipeline's delay (R68): its mark, if any, the selected match inputs seen since its delivery, and what the
first key entry that refers to it has brought (R113): 0 no entry, 1 an entry that waits, 2 no flow, 3 + f flow f. -/
structure DRow where
  row  : PRow
  mark : Option Mark
  seen : Nat
  key  : Nat
deriving DecidableEq, Repr

/-- A record being formed or formed (R65 to R72). Its payload is held up to the greatest MAX_LEN, and `orig` counts all
its bytes; `flow` is coded as in `DRow` for the row numbered `first`, which carries its START; `order` is its place among
the records staged, and `pos` its offset in its pipeline's region of the elastic buffer. -/
structure Rec where
  ts      : Nat
  kind    : Nat
  payload : List Byte
  orig    : Nat
  rows    : Nat
  hdrErr  : Bool
  ctlErr  : Bool
  abort   : Bool
  dropped : Bool
  sliced  : Bool
  trunc   : Bool
  tag     : Nat
  flow    : Nat
  first   : Nat
  width   : Nat
  seen    : Nat
  rseq    : Nat
  gap     : Nat
  file    : Nat
  order   : Nat
  pos     : Nat
deriving DecidableEq, Repr

/-- A frame or RAW run that a Runner channel has read and that waits for its start (R99 to R103): its template, header
image, payload bytes, field descriptors, whether the CRC is appended, the block slots it takes, and the gap in force when
its instruction was read, in UI. -/
structure Frame where
  raw    : Bool
  tpl    : Nat
  hdr    : List Byte
  body   : List Byte
  descs  : List Nat
  append : Bool
  slots  : Nat
  gap    : Nat
deriving DecidableEq, Repr

/-- A block of a Runner frame that waits for its slot on the line (R102, R103): its position, its sync header and its
payload, whether it is the first block of its frame, and, on the last block of a SEND, the frame's template. -/
structure TxBlk where
  pos     : Nat
  hdr     : Nat
  payload : Nat
  first   : Bool
  tpl     : Option Nat
deriving DecidableEq, Repr

/-- A template held in a channel (R100): its number, its seven field values and its frame count. -/
structure Tpl where
  num    : Nat
  vals   : List Nat
  frames : Nat
deriving DecidableEq, Repr

/-- What the part drives to the outside, newest first. `txRow` is one block on each of some physical transmit lanes of a port: (lane,
sync header, payload as it stands on the wire); `rlkRow` goes out on the lanes of the link in its mask, in fallback over two slots. `ioPins` is what each I/O cell of a bank drives in
the two halves of a clock cycle, if anything, with its standard, drive, slew, pull and termination as plane 0 codes them. -/
inductive Out where
  | msix     (vector addr data : Nat)
  | eventBus (event : Nat)
  | txRow    (port : Nat) (blocks : List (Nat × Nat × Nat))
  | mrResp   (island tag rerr rue : Nat) (data : List Byte)
  | ioPins   (bank : Nat) (cells : List (List Nat × Option Bool × Option Bool))
  | fpResp   (island tid err : Nat) (wr : Bool) (data : List Byte)
  | hostWrite (addr : Nat) (relaxed : Bool) (poisoned : Bool) (data : List Byte)
  | fabDma   (island off : Nat) (wr : Bool) (data : List Byte)
  | rlkRow   (link lanes : Nat) (row : BitVec 512)
  | uartTx   (uart div : Nat) (bits : List Bool)
  | slvReq   (island tag off : Nat) (wr : Bool) (data : List (Option Byte))
deriving DecidableEq, Repr

/-- Why a command stops. No meaning of this model ends in a fault: the constructor stands for the class. Safe. -/
inductive Fault where
  /-- Raised by no meaning. -/
  | none
deriving DecidableEq, Repr

/-- Why a command is not run. -/
inductive Refusal where
  /-- No meaning yet for the command of this mnemonic; raised by the dispatch alone. Safe. -/
  | notModelled (mnemonic : String)
deriving DecidableEq, Repr

/-- How a word of SRAM or a line of HBM is stored: the key index and the key table under which it was written, its
stored check XOR the check of its stored form (0 where the check is right), and, for a line, the address for which it was scrambled
(0 for a word). -/
structure Info where
  key   : Nat
  epoch : Nat
  syn   : Nat
  home  : Nat
deriving DecidableEq, Repr

/-- How a request ends: served, served with an uncorrectable word in the data, held under back-pressure, or answered
with a bus error. -/
inductive MRes where
  | ok | ue | held | err
deriving DecidableEq, Repr

/-- What the last access command answered: the result and the bytes read. -/
structure Resp where
  res  : MRes
  data : List Byte
deriving DecidableEq, Repr

/-- A Millrace response that waits for its turn (R215, R217): RERR is 0 OK, 1 BUS_ERROR, 2 UNCORRECTABLE. -/
structure MrResp where
  tag  : Nat
  data : List Byte
  rerr : Nat
  rue  : Nat
deriving DecidableEq, Repr

/-- A request on the network (R299 to R309): its source and target NI, route-table entry, operation (0 READ, 1 WRITE,
2 POSTED_WRITE), route (its hops, first first), and how far it is: 0 held at its source, 1 on the mesh, 2 served, 3 answered by
its source. A write holds its bytes with their enables; a served request holds its response. `void`: the response is discarded
(R315, R316, R321). `pos` says where the head of its present trip is: 0 in the NI that the trip starts from, k in the k-th
router of its route, and one past the last router in the NI that the trip ends at; `came` is when it came there, and `inj` its
urgency and wait as it left its source NI (R307, R317). -/
structure Pkt where
  id    : Nat
  src   : Nat
  dst   : Nat
  entry : Nat
  op    : Nat
  key   : Nat
  urg   : Nat
  wait  : Nat
  tid   : Nat
  addr  : Nat
  beats : Nat
  bytes : List (Option Byte)
  hops  : List Nat
  phase : Nat
  since : Nat
  rdata : List Byte
  err   : Nat
  void  : Bool
  pos   : Nat
  came  : Nat
  inj   : Nat × Nat
deriving DecidableEq, Repr

/-- A request that the slave side of a fabric port has presented to its island (R165): its TAG, whether it is a write,
the offset in the fabric window, and the network request that it serves, if any. -/
structure SlvReq where
  tag   : Nat
  wr    : Bool
  off   : Nat
  pkt   : Option Nat
deriving DecidableEq, Repr

/-- A response that waits at the master side of a fabric port (R163): ERR is 0 OK, 1 BUS_ERROR, 2 ROUTE_UNAVAILABLE,
3 DOMAIN_OFF. -/
structure FpResp where
  tid  : Nat
  wr   : Bool
  data : List Byte
  err  : Nat
deriving DecidableEq, Repr

/-- An entry of a key bus (R110), with the number of the row it refers to and whether it is the first that refers to it. -/
structure KeyEntry where
  row   : Nat
  ts    : Nat
  first : Bool
  key   : List Byte
  len   : Nat
  seq   : Option Nat
  lat   : Option Nat
  umask : Nat
  add   : Option (Nat × Nat)
  /-- Its lookup has gone to the hub and waits for a bucket (R116, R140). -/
  sought : Bool := false
deriving DecidableEq, Repr

/-- A failed wire of a vertical bundle: bundle number (`Bundle.code`), group and wire (R226). -/
structure Wire where
  bundle : Nat
  group  : Nat
  wire   : Nat
deriving DecidableEq, Repr

/-- A line of the Miller caches (R324): whether it is dirty, and its 64 bytes. -/
structure CLine where
  dirty : Bool
  data  : List Byte
deriving DecidableEq, Repr

/-- A block of a capture file that a Millstone job has still to read (R341): its address and bytes, its segment, its index there, and
how often the writer had entered it when the job started. -/
structure MBlk where
  addr  : Nat
  size  : Nat
  seg   : Nat
  idx   : Nat
  times : Nat
deriving DecidableEq, Repr

/-- The whole state. -/
structure State where
  /-- Commands that wait, first in, first out. -/
  pending  : List Instr
  /-- Register fields and numbered state that differ from their reset value, by place. -/
  cells    : Tab Nat
  /-- SRAM bytes by physical address, and HBM bytes by place in the core dies (`State.place`), as the data under the key index that wrote them: the stored form is
  this XOR the pad of that key (R458). Listed where they differ from what unlisted memory reads as. -/
  mem      : List Host.Cell
  /-- Key and check of the SRAM words (by address / 8) and HBM lines (by place / 32) that differ from the default. -/
  info     : Tab Info
  /-- Words of SRAM and lines of HBM (keys of `info`) whose corrected write-back is pending (R246, R281); for a line,
  2^40 times the key index that found the error is added. -/
  wback    : List Nat
  /-- The model's own: how many free values the run has taken. -/
  freeCtr  : Nat
  /-- Deskew buffers of the lanes: slots not yet released, oldest first (R38); lane 16 p + k. -/
  laneBuf  : Tab (List Slot)
  /-- Delivery FIFO of each port, at most 64 rows (R40). -/
  islFifo  : Tab (List PRow)
  /-- Rows in the delay of each Hopper pipeline (R68). -/
  hopDelay : Tab (List DRow)
  /-- The open record of each pipeline. -/
  hopOpen  : Tab Rec
  /-- Records in each pipeline's region of the elastic buffer, oldest first (R73). -/
  hopStage : Tab (List Rec)
  /-- Bytes of each file's last line that are not yet a whole line (R75). -/
  hopTail  : Tab (List Byte)
  /-- Loop stack of each Runner channel, top first: (remaining count, return address); count 0 loops forever. -/
  runLoops : Tab (List (Nat × Nat))
  /-- Frames of each channel that wait for their start. -/
  runQueue : Tab (List Frame)
  /-- Blocks of each channel's frames that have started and wait for their slots on the line, first first (R102, R103). -/
  txLine   : Tab (List TxBlk)
  /-- Fabric values presented on the rewrite bus of each port's bound island (R100). -/
  fabVals  : Tab (List Nat)
  /-- Templates held in each channel, most recently used first (R100). -/
  tplCache : Tab (List Tpl)
  /-- Key entries of each Marigold pipeline that wait to be applied, oldest first: the first 256 are in its pending buffer,
  and what follows them is in its FIFO (R110, R127). -/
  keyFifo  : Tab (List KeyEntry)
  /-- Words in the Sluice banks, oldest first: bank b of edge e of island n under (4 n + e) 4 + b (R202, R203). -/
  sluices  : Tab (List Nat)
  /-- Queues of numbers, oldest first: the FIFO of mailbox channel k under k, of UART u's transmitter under 16 + u and receiver
  under 18 + u (R331, R332); the bytes of the host FIFO of configuration under 32 and the verified plaintext of the open
  encrypted section under 33 (R400, R402); barriers not yet given under 48, as 8 times the first request that they do not wait
  for plus their causes (R312); golden builds under 50, as 8 n + c (R473); planes that SCRUB_NOW asks for under 51, likewise (R492); the arrival times of the segments in the write queue of
  pseudo-channel i under 64 + i (R271), and those of the neighbour refreshes drawn and not yet given under 80 + i (R276). -/
  fifos    : Tab (List Nat)
  /-- Lines in the L1D and L2 caches of the Miller complex, which are coherent, by address / 64 (R324). -/
  cache    : Tab CLine
  /-- Lines in the L1I cache of core c, under c 2^40 + address / 64 (R324). -/
  icache   : Tab (List Byte)
  /-- Blocks that the current Millstone job has still to read, in file order (R341). -/
  mstQueue : List MBlk
  /-- pcapng blocks that a Millstone job has emitted and no descriptor has taken, by DMA queue (R345, R359). -/
  streams  : Tab (List (List Byte))
  /-- Numbered rows of each Ramzel link that no ACK covers yet, oldest first (R368). -/
  rlkRetry : Tab (List RlkRow)
  /-- Rows that wait for their island: stream c of link l under 2 l + c (R369, R370). -/
  rlkFifo  : Tab (List RlkRow)
  /-- Requests on the network, in the order in which they were issued. -/
  packets  : List Pkt
  /-- Requests presented to the slave side of each island's fabric port, oldest first. -/
  slvReqs  : Tab (List SlvReq)
  /-- Responses that wait at the master side of each fabric port, oldest first. -/
  fpResps  : Tab (List FpResp)
  /-- Words written to the _LO half of a pair whose _HI write is awaited, by master, block and offset (R8). -/
  loHeld   : Tab Nat
  /-- The _HI halves captured by a read of _LO, by master, block and offset (R8). -/
  hiShadow : Tab Nat
  /-- What the last access answered to its master. -/
  last     : Resp
  /-- Millrace responses of each island, oldest first (R217). -/
  mrQueue  : Tab (List MrResp)
  /-- Wires that have failed, fused and soft (R226). -/
  wires    : List Wire
  /-- Wires that the last walking-pattern test found failing (R226). -/
  walkFail : List Wire
  /-- Times of the corrected errors attributed to wires, newest first (R226). -/
  wireErrs : List (Wire × Nat)
  /-- Times at which the guard fired, by bundle number, newest first (R225). -/
  guards   : List (Nat × Nat)
  /-- Soft repair records in the order written (R228, R482). -/
  records  : List Nat
  /-- The commands' outputs to the outside, newest first. -/
  out      : List Out
deriving DecidableEq, Repr

/-- The part right after reset: power-on, with no rail yet valid (R428, R432). Every register and cell holds its reset value, memory
lists nothing, and no command waits. -/
def State.reset : State :=
  { pending := [], cells := [], mem := [], info := [], wback := [], freeCtr := 0, laneBuf := [], islFifo := []
    hopDelay := [], hopOpen := [], hopStage := [], hopTail := [], runLoops := [], runQueue := [], txLine := [], fabVals := []
    tplCache := [], keyFifo := [], sluices := [], fifos := [], cache := [], icache := [], mstQueue := []
    streams := [], rlkRetry := [], rlkFifo := [], packets := [], slvReqs := [], fpResps := [], loHeld := []
    hiShadow := [], last := ⟨.ok, []⟩, mrQueue := [], wires := [], walkFail := [], wireErrs := [], guards := []
    records := [], out := [] }

end Sys2Proof.Machine
end

