-- ==== Sys2Proof/Machine/Ops.lean ====
section
/-! DEFINITION. The named operations over State: cells, memory, free values, events and rejects. -/

namespace Sys2Proof.Machine

/-! ### Cells -/

/-- The value of a register field or numbered cell, within its width. -/
def State.rd (s : State) (f : Fld) : Nat := Tab.getD s.cells f.key f.rst % 2 ^ f.w

/-- A one-bit field as a truth value. -/
def State.on (s : State) (f : Fld) : Bool := s.rd f != 0

/-- Set a field, to its width; a field at its reset value is not listed. -/
def State.wr (s : State) (f : Fld) (v : Nat) : State :=
  { s with cells := Tab.set s.cells f.key f.rst (v % 2 ^ f.w) }

/-- Set a field where a condition holds. -/
def State.wrIf (s : State) (c : Bool) (f : Fld) (v : Nat) : State := if c then s.wr f v else s

/-- Return a field to its reset value. -/
def State.clr (s : State) (f : Fld) : State := { s with cells := Tab.del s.cells f.key }

/-- Add to a counter that stops at its greatest value. -/
def State.inc (s : State) (f : Fld) (n : Nat) : State := s.wr f (min (s.rd f + n) (2 ^ f.w - 1))

/-- Add to a counter that wraps at its width. -/
def State.add (s : State) (f : Fld) (n : Nat) : State := s.wr f (s.rd f + n)

/-- Set bit `i` of a field. -/
def State.setB (s : State) (f : Fld) (i : Nat) : State := s.wr f (setBit (s.rd f) i)

/-- Clear bit `i` of a field. -/
def State.clrB (s : State) (f : Fld) (i : Nat) : State := s.wr f (clrBit (s.rd f) i)

/-- Bit `i` of a field. -/
def State.bitOf (s : State) (f : Fld) (i : Nat) : Bool := bit (s.rd f) i

/-- The state after an operation for each entry of a list, in order. -/
def State.each {α : Type} (l : List α) (f : α → State → State) (s : State) : State :=
  l.foldl (fun t a => f a t) s

/-- The place of a pair for a master, its number first (R8). -/
def pairKey (m blk off : Nat) : Nat := (m * 2 ^ 12 + blk) * 2 ^ 20 + off

/-- Held _LO writes and _HI shadows are discarded where `drop` holds of the place (R577). -/
def State.discard (s : State) (drop : Nat → Bool) : State :=
  { s with loHeld := s.loHeld.filter (fun e => !drop e.1), hiShadow := s.hiShadow.filter (fun e => !drop e.1) }

/-- Those in the blocks from `lo` up to, not including, `hi` are discarded (R577). -/
def State.discardBlocks (s : State) (lo hi : Nat) : State :=
  s.discard (fun k => decide (lo ≤ k / 2 ^ 20 % 2 ^ 12) && decide (k / 2 ^ 20 % 2 ^ 12 < hi))

/-- Those of a master are discarded (R577). -/
def State.discardMaster (s : State) (m : Nat) : State := s.discard (fun k => k / 2 ^ 32 == m)

/-- Return every cell of the blocks from `lo` up to, not including, `hi` to its reset value (R577). -/
def State.resetBlocks (s : State) (lo hi : Nat) : State :=
  { s.discardBlocks lo hi with cells := Tab.delRange s.cells (cellKey lo 0 0) (cellKey hi 0 0) }

/-- Keep the present values of some fields through an operation that may change them. -/
def State.keeping (fs : List Fld) (op : State → State) (s : State) : State :=
  fs.foldl (fun t f => t.wr f (s.rd f)) (op s)

/-- The timebase, in units of 250 ps (R373). -/
def State.now (s : State) : Nat := s.rd Reg.TSB_NOW

/-- A value that the manual leaves open, and the state in which it has been taken. -/
def State.fresh (s : State) : Nat × State :=
  (Config.freeValue s.freeCtr, { s with freeCtr := s.freeCtr + 1 })

/-- Set a field to a value that the manual leaves open. -/
def State.wrFree (s : State) (f : Fld) : State :=
  let p := s.fresh
  p.2.wr f p.1

/-- Drive something to the outside. -/
def State.emit (s : State) (o : Out) : State := { s with out := o :: s.out }

/-- EXTEST, HIGHZ or CLAMP is in the IR: the boundary-scan chain controls the pins of the user I/O, the trigger outputs, the UARTs, DONE
and INIT_N, and what they would drive does not reach them (R532). What the chain drives in its place is open: log entry 109. -/
def State.scanHolds (s : State) : Bool := [0, 3, 4].contains (s.rd Hid.tapIr)

/-- Drive pins that are in the boundary-scan chain. -/
def State.emitPins (s : State) (o : Out) : State := if s.scanHolds then s else s.emit o

/-! ### Memory bytes -/

/-- What a byte of memory that nothing has written reads as. DESIGN CHOICE, log entry 3. -/
def memDefault : Byte := 0

/-- One byte of memory. -/
def State.byte (s : State) (a : Nat) : Byte := Tab.getD s.mem a memDefault

/-- Set one byte of memory; the canonical form is kept. -/
def State.setByte (s : State) (a : Nat) (b : Byte) : State :=
  { s with mem := Tab.set s.mem a memDefault b }

/-- `n` bytes from an address, ascending. -/
def State.readMem (s : State) : Nat → Nat → List Byte
  | _, 0 => []
  | a, n + 1 => s.byte a :: s.readMem (a + 1) n

/-- Write bytes from an address on, ascending. -/
def State.writeMem (s : State) : Nat → List Byte → State
  | _, [] => s
  | a, b :: r => (s.setByte a b).writeMem (a + 1) r

/-- The canonical form of a memory: addresses strictly rising, and no byte listed that unlisted memory reads as. -/
def Memory.wf (m : List Host.Cell) : Bool :=
  Tab.wf m && m.all (fun c => c.2 != memDefault)

/-! ### Events (R375 to R377) -/

/-- The island's slave channel accepts a request (R165, R315, R316, R418). -/
def State.fpAccepts (s : State) (n : Nat) : Bool :=
  s.rd (Reg.ISL_STAT_STATE n) == 3 && s.on (Reg.ISL_FP_CTRL_EN n) && !s.on (Reg.ISL_WEIR_STAT_CLOSED n)
    && bit (s.rd (Hid.slaveCtx n)) (s.rd (Reg.ISL_STAT_CUR_CTX n)) && !s.on (Reg.NOC_NI_STAT_FENCED n)
    && s.rd (Reg.NOC_RTR_STAT_STATE n) == 0

/-- Raise TRIG_OUT pin `k` for its WIDTH, where the event router drives it (R92, R376). -/
def State.touPulse (s : State) (k : Nat) : State :=
  (s.wr (Hid.toutLvl k) 1).wr (Hid.toutPulse k) (4 * s.rd (Reg.LAN_TOUT_WIDTH k))

/-- The MSI-X message of a vector: sent, or held pending while the vector is masked (R376). -/
def State.msixSend (s : State) (v : Nat) : State :=
  if s.on (Hid.msixMask v) || s.on Hid.msixFnMask || !s.on Hid.msixEnable then s.wr (Hid.msixPba v) 1
  else s.emit (.msix v (s.rd (Hid.msixAddr v)) (s.rd (Hid.msixData v)))

/-- The pending bit of event `e`. -/
def State.pend (s : State) (e : Nat) : Bool := s.bitOf (Reg.EVT_PEND (e / 32)) (e % 32)

/-- A request that its source NI has answered while it goes on (R315): its late response is discarded. -/
def late (p : Pkt) : Bool := p.void && p.err == 2

/-- Outstanding reads and writes of an NI, and of the fabric port behind it, as their registers show them. -/
def State.niCounts (i : Nat) (s : State) : State :=
  let mine := s.packets.filter (fun p => p.src == i && !late p)
  let rdn := min 64 (mine.filter (fun p => p.op == 0)).length
  let wrn := min 64 (mine.filter (fun p => p.op != 0)).length
  let s1 := (s.wr (Reg.NOC_NI_STAT_RD_OUT i) rdn).wr (Reg.NOC_NI_STAT_WR_OUT i) wrn
  if i < 80 then (s1.wr (Reg.ISL_FP_STAT_RD_OUT i) rdn).wr (Reg.ISL_FP_STAT_WR_OUT i) wrn else s1

/-- A request that enters NI `i` now, to go by an entry of its table: `bytes` are those written with their enables, or one
absent entry for each byte read. -/
def State.newPkt (s : State) (i entry op key urg tid addr : Nat) (bytes : List (Option Byte)) : Pkt :=
  { id := s.rd Hid.pktNext, src := i, dst := entry, entry := entry, op := op, key := key, urg := urg, wait := 0
    tid := tid, addr := addr, beats := (addr % 64 + bytes.length + 63) / 64, bytes := bytes, hops := [], phase := 0
    since := s.now, rdata := [], err := 0, void := false, pos := 0, came := s.now, inj := (0, 0) }

/-- A request waits at its source NI. -/
def State.enqueue (s : State) (p : Pkt) : State :=
  (({ s with packets := s.packets ++ [p] }).add Hid.pktNext 1).niCounts p.src

/-- A posted write that SYS makes of itself, under a key index (R299, R318, R376). -/
def State.sysPost (s : State) (entry key addr : Nat) (d : List Byte) : State :=
  s.enqueue (s.newPkt 89 entry 2 key (s.rd (Reg.NOC_NI_CFG_URG 89)) 0 addr (d.map some))

/-- The first address of the fabric windows (R5). -/
def fabBase : Nat := 0x2000000000

/-- The fabric write of an event (R376): 64 bytes posted to the island's fabric window. -/
def State.evtFab (s : State) (e : Nat) : State :=
  if !s.on (Reg.EVT_ROUTE_B_FAB_EN e) then s
  else
    let n := s.rd (Reg.EVT_ROUTE_B_ISLAND e)
    s.sysPost n 0 (fabBase + n * 0x20000000 + 64 * s.rd Reg.EVT_FAB_OFF) (leBytes 8 e ++ leBytes 8 s.now ++ List.replicate 48 0)

/-- A posted write ends in an error: the fabric write of an event is counted as lost (R376). -/
def State.postLost (s : State) (p : Pkt) : State :=
  if p.op = 2 ∧ p.src = 89 ∧ fabBase ≤ p.addr ∧ p.addr < fabBase + 80 * 0x20000000 then s.inc Reg.EVT_FAB_LOST 1 else s

/-- The TRIG_OUT pulse of an event (R376). -/
def State.evtTout (s : State) (e : Nat) : State :=
  let k := s.rd (Reg.EVT_ROUTE_B_PIN e)
  if s.on (Reg.EVT_ROUTE_B_TOUT_EN e) && s.on (Reg.LAN_TOUT_SRC k) then s.touPulse k else s

/-- Raise event `e`: record it as pending and, while it is enabled, deliver it to its destinations (R375, R376). The
interrupt lines of the cores follow from the pending bits and the routes. -/
def State.raise (s : State) (e : Nat) : State :=
  let was := s.pend e
  let s1 := s.setB (Reg.EVT_PEND (e / 32)) (e % 32)
  if !s.on (Reg.EVT_ROUTE_A_EN e) then s1
  else
    let s2 := if !was && s.on (Reg.EVT_ROUTE_A_MSIX_EN e) then s1.msixSend (s.rd (Reg.EVT_ROUTE_A_VECTOR e)) else s1
    (s2.evtFab e).evtTout e

/-- Set bit `i` of a block's event register and raise the event that goes with it. -/
def State.raiseB (s : State) (f : Fld) (i e : Nat) : State := (s.setB f i).raise e

/-! ### Commands turned away (R10) and values denied (R23) -/

/-- CMD_REJECT and REJ_CODE of a rejected command (R10). -/
def State.rejMark (s : State) (blk code : Nat) : State := (s.wr (Stat.cmdReject blk) 1).wr (Stat.rejCode blk) code

/-- A rejected command: CMD_REJECT, REJ_CODE and the block's reject event; nothing else (R10). -/
def State.reject (s : State) (blk code evt : Nat) : State := (s.rejMark blk code).raise evt

/-- A denied write sets MODE_DENY (R23). -/
def State.deny (s : State) (blk : Nat) : State := s.wr (Stat.modeDeny blk) 1

/-! ### Recoveries (R312) -/

/-- A recovery is in progress: a rank migration, a router out of ACTIVE, or a link retrain. -/
def State.inRecovery (s : State) : Bool :=
  s.on Reg.HBM_STAT_MIGRATING || (List.range 80).any (fun n => s.rd (Reg.NOC_RTR_STAT_STATE n) != 0)
    || (List.range 160).any (fun m => s.rd (Reg.NOC_LINK_STAT_STATE m) == 2)

/-- A recovery is about to begin: the requests issued before it are marked. -/
def State.recBegin (s : State) : State :=
  (s.wr Reg.NOC_STAT_RECOVERY 1).wr Hid.recFirst (s.rd Hid.pktNext)

/-- A barrier waits for the requests issued before a recovery began: the number of the first later one, and the causes. -/
def State.barriers (s : State) : List Nat := Tab.getD s.fifos 48 []

/-- A recovery has ended, with its cause bit: 0 migration, 1 router, 2 link. With the last of overlapping ones their one barrier
begins to wait. -/
def State.recEnd (s : State) (cause : Nat) : State :=
  let s1 := s.setB Hid.barPend cause
  if s1.inRecovery then s1
  else
    let t := (s1.wr Reg.NOC_STAT_RECOVERY 0).wr Hid.barPend 0
    { t with fifos := Tab.set t.fifos 48 [] (s.barriers ++ [s.rd Hid.recFirst * 8 + s1.rd Hid.barPend]) }

/-! ### The background budget (R467) -/

/-- The scheduling periods of 100 us that have passed pay for what background work has taken, `share` each; a new period takes up the
share in force. -/
def State.bgRoll (s : State) (r share : Nat) : State :=
  let k := s.now / 400000
  let t := s.wrIf (k != s.rd (Hid.bgPer r)) (Hid.bgPct r) (s.rd Reg.SCB_BUDGET_PCT)
  (t.wr (Hid.bgUsed r) (s.rd (Hid.bgUsed r) - (k - s.rd (Hid.bgPer r)) * share)).wr (Hid.bgPer r) k

/-- Work of `n` cycles begins within a share; none where it waits. Work longer than the share begins when nothing is unpaid, and later
periods pay for it. -/
def State.bgSpend (s : State) (r n share : Nat) : Option State :=
  if s.rd (Hid.bgUsed r) = 0 ∨ s.rd (Hid.bgUsed r) + n ≤ share then some (s.add (Hid.bgUsed r) n) else none

/-- Background work of `n` cycles on a resource of which a percent of a period is `unit` cycles (R467). -/
def State.bgTake (s : State) (r n unit : Nat) : Option State :=
  let t := s.bgRoll r (unit * s.rd (Hid.bgPct r))
  t.bgSpend r n (unit * t.rd (Hid.bgPct r))

/-- A scrub engine checks up to 25 M frames/s (R475). -/
def State.engTake (s : State) (e : Nat) : Option State := (s.bgRoll (88 + e) 2500).bgSpend (88 + e) 1 2500

/-- A WRITE_SLOT, or a load from a slot, runs (R468). -/
def State.dahRuns (s : State) : Bool :=
  s.on Reg.DAH_STAT_BUSY || (s.on Reg.CFG_STAT_SRC_ACTIVE && s.rd Reg.CFG_LOAD_STAT_SOURCE == 3)
    || (s.on Reg.MIL_STAT_FW_BUSY && !s.on Hid.fwMem)

/-- Background work of `n` bytes on Dahlia (R467, R468): the cap holds only while a slot is written or loaded. `ahead` says that work of
a higher priority waits. A percent of a period is 128 bytes, at the 128 MB/s of a slot write. -/
def State.dahTake (s : State) (n : Nat) (ahead : Bool) : Option State :=
  if !s.dahRuns then some s else if ahead then none else s.bgTake 86 n 128

/-- A captured journal entry waits for Dahlia, which is reachable after CLEARING (R489). -/
def State.jnlWaits (s : State) : Bool := s.on Hid.jnlV && decide (4 ≤ s.rd Reg.SYS_BOOT_STAT_PHASE)

/-- The planes whose golden copy waits to be built, in the order in which their LFRM or command came (R473). -/
def State.builds (s : State) : List Nat := Tab.getD s.fifos 50 []

/-- A plane joins them, at the end. -/
def State.buildQueue (s : State) (n c : Nat) : State :=
  let t : State := { s with fifos := Tab.set s.fifos 50 [] (s.builds.filter (fun k => k != 8 * n + c) ++ [8 * n + c]) }
  (t.setB (Reg.SCB_GOLD_BUILDING n) c).wr Reg.SCB_STAT_BUILDING 1

/-! ### Self-tests and the journal (R481, R489) -/

/-- A self-test of target `t` runs; with an INDEX, of that one (R481). -/
def State.bstIs (s : State) (t : Nat) : Bool := s.on Reg.BST_STAT_BUSY && s.rd Hid.bstTgt == t
def State.bstOn (s : State) (t i : Nat) : Bool := s.bstIs t && s.rd Hid.bstIdx == i

/-- The running self-test is aborted: its result says so (R481). What its target is left as follows from the test. -/
def State.bstAborted (s : State) : State :=
  ((((s.wr Reg.BST_STAT_BUSY 0).wr Reg.BST_RESULT_RESULT 3).wr Reg.BST_RESULT_TARGET (s.rd Hid.bstTgt)).wr Reg.BST_RESULT_INDEX
    (s.rd Hid.bstIdx)).wr Reg.BST_RESULT_REPAIRS 0

/-- Bits of TEL_EVT with events 36 to 39 (R493). -/
def State.telEvt (s : State) (i : Nat) : State := s.raiseB Reg.TEL_EVT_EVT i (36 + i)

/-- The causes latched in PEO_ALARM. -/
def State.alarmBits (s : State) : Nat :=
  s.rd Reg.PEO_ALARM_HBM + 2 * s.rd Reg.PEO_ALARM_KEY + 4 * s.rd Reg.PEO_ALARM_PROT + 8 * s.rd Reg.PEO_ALARM_TOKEN
    + 16 * s.rd Reg.PEO_ALARM_TAMPER + 32 * s.rd Reg.PEO_ALARM_TRNG + 64 * s.rd Reg.PEO_ALARM_ADMIN

/-- The program counter of a core as the debug port reads it: that at which it resumes, or one that is open (R544). -/
def State.corePc (s : State) (c : Nat) : State :=
  if s.on (Reg.DBG_CORE_STAT_HALTED c) then s.wr (Reg.DBG_CORE_PCS c) (s.rd (Reg.DBG_CORE_DPC c))
  else s.wrFree (Reg.DBG_CORE_PCS c)

/-- The journal captures an entry with `body` at bytes 256 on (R489, R490), or counts it as lost. -/
def State.journalWith (s : State) (kind detail : Nat) (body : List Byte) : State :=
  if s.on Hid.jnlV || decide (64 ≤ s.rd Hid.jnlCount) then (s.inc Reg.TEL_JNL_LOST 1).telEvt 2
  else
    let head := leBytes 4 0x4C4E524A ++ leBytes 2 1 ++ leBytes 1 kind ++ leBytes 1 detail ++ leBytes 8 s.now
      ++ leBytes 4 (s.rd Reg.TEL_BOOTS) ++ leBytes 4 (s.rd Reg.TEL_SESSION) ++ leBytes 4 (s.rd Reg.SYS_BOOT_STAT_PHASE)
      ++ leBytes 4 s.alarmBits ++ List.replicate 224 0
    let all := head ++ body ++ List.replicate (3836 - body.length) 0
    let crc := crcBytesRefl 32 0x1EDC6F41 0xFFFFFFFF all ^^^ 0xFFFFFFFF
    (s.wr Hid.jnlV 1).wr Hid.jnlBody (ofLeBytes (all ++ leBytes 4 crc))

/-- An occurrence of KIND 1 to 7 is captured (R489, R490). -/
def State.journal (s : State) (kind detail : Nat) : State :=
  let s1 := State.each (List.range 4) (fun c t => t.corePc c) s
  s1.journalWith kind detail
    ((List.range 32).flatMap (fun i => leBytes 4 (s.rd (Reg.EVT_PEND i)))
      ++ (List.range 4).flatMap (fun c => leBytes 8 (s1.rd (Reg.DBG_CORE_PCS c)) ++ leBytes 8 (s1.rd (Hid.coreCsr c 0x342))))

/-! ### Shared small steps -/

/-- Record what an access answered. -/
def State.answer (s : State) (r : MRes) (d : List Byte) : State := { s with last := ⟨r, d⟩ }

/-- A soft repair record is written (R482): the list of records grows and event 29 is raised; none where 4,096 are
held already (R228). A record already held is not written twice. -/
def State.repairRecord (s : State) (rec : Nat) : Option State :=
  if s.records.contains rec then some s
  else if 4096 ≤ s.records.length then none
  else
    let s1 := { s with records := s.records ++ [rec] }
    let s2 := s1.wr Reg.CFG_VB_REC_SOFT (s.records.length + 1)
    some ((s2.wr Reg.CFG_VB_REC_FULL (b2n (s.records.length + 1 == 4096))).raiseB Reg.BST_EVT_EVT 3 29)

/-- A calibration of instance `j` of item `i` completes (R483). -/
def State.calDone (s : State) (i j : Nat) : State :=
  ((s.add (Reg.CAL_ITEM_COUNT i) 1).wr (Reg.CAL_ITEM_LAST i) s.now).wr (Hid.calLast i j) s.now

/-- Bits of CAL_EVT with events 22 to 25 (R493). -/
def State.calEvt (s : State) (i : Nat) : State := s.raiseB Reg.CAL_EVT_EVT i (22 + i)

/-- An item whose reference is CALREF_V while that is out of range completes no calibration (R485). -/
def State.calBlocked (s : State) (i : Nat) : Bool := s.on Reg.CAL_STAT_VREF_BAD && (i == 0 || i == 3 || i == 4 || i == 6)

/-- The redundant element of instance `j` of item `i` fails its calibration (R484): event 25, and it is taken out of use. -/
def State.calFails (s : State) (i j : Nat) : State :=
  let t := s.calEvt 3
  if s.on (Hid.calDeg i j) then t else (t.wr (Hid.calDeg i j) 1).inc (Reg.CAL_ITEM_DEGRADED i) 1

/-- Instances of a calibration item (R483). -/
def calInstances (i : Nat) : Nat := [80, 169, 16, 1, 1, 1, 8].getD i 0

/-- Milliseconds since the oldest instance of an item last completed, saturating (R483). -/
def State.calOldest (s : State) (i : Nat) : Nat :=
  min ((List.range (calInstances i)).foldl (fun a j => max a ((s.now - s.rd (Hid.calLast i j)) / 4000000)) 0) (2 ^ 32 - 1)

end Sys2Proof.Machine
end

