-- ==== Sys2Proof/Machine/Operands.lean ====
section
/-! DEFINITION. The operand forms: physical addresses, register addresses, and reading and writing the fields of a
register under their access types, ranges and states (R5, R23, R25, R236, R553 to R555, R575). -/

namespace Sys2Proof.Machine

/-! ### Physical address map (R25, R553) -/

/-- The first address above the HBM range under the sparing mode (R25). -/
def State.hbmTop (s : State) : Nat :=
  let m := s.rd Reg.HBM_MODE_SPARE
  if m = 0 then 0x600000000 else if m = 1 then 0x580000000 else 0x400000000

/-- The ranges of the physical address map (R553). -/
inductive Range where
  | hbm | bank (n : Nat) | hub | dahlia | fabric (n : Nat) | regs | rom
deriving DecidableEq, Repr

/-- The range that holds a byte address, none where the map lists none. -/
def State.rangeOf (s : State) (a : Nat) : Option Range :=
  if a < s.hbmTop then some .hbm
  else if 0x1000000000 ≤ a ∧ a < 0x100F000000 then some (.bank ((a - 0x1000000000) / 0x300000))
  else if 0x100F000000 ≤ a ∧ a < 0x1010000000 then some .hub
  else if 0x1100000000 ≤ a ∧ a < 0x1120000000 then some .dahlia
  else if 0x2000000000 ≤ a ∧ a < 0x2A00000000 then some (.fabric ((a - 0x2000000000) / 0x20000000))
  else if 0x3000000000 ≤ a ∧ a < 0x3040000000 then some .regs
  else if 0x3F00000000 ≤ a ∧ a < 0x3F00010000 then some .rom
  else none

/-- Whether two ranges are one listed range of R553: all island banks form one range, and all fabric windows. -/
def sameRange : Range → Range → Bool
  | .bank _, .bank _ => true
  | .fabric _, .fabric _ => true
  | a, b => a == b

/-- The range that holds a whole request of `n` bytes; none where it ends in a bus error (R553). -/
def State.rangeOfReq (s : State) (a n : Nat) : Option Range :=
  match s.rangeOf a, s.rangeOf (a + n - 1) with
  | some r, some q => if sameRange r q then some r else none
  | _, _ => none

/-- The island banks that a byte range touches; none outside the island banks. -/
def banksOf (a n : Nat) : List Nat :=
  if n = 0 then []
  else (List.range 80).filter (fun b =>
    decide (0x1000000000 + b * 0x300000 < a + n) && decide (a < 0x1000000000 + (b + 1) * 0x300000))

/-- Whether a byte range lies in one island bank. -/
def inOneBank (a n : Nat) : Bool :=
  (List.range 80).any (fun b =>
    decide (0x1000000000 + b * 0x300000 ≤ a) && decide (a + n ≤ 0x1000000000 + (b + 1) * 0x300000))

/-! ### States that fields are limited to (R575) -/

/-- Some Runner channel is RUNNING or WAITING. -/
def State.runActive (s : State) : Bool :=
  (List.range 4).any (fun c => s.rd (Reg.RUN_CH_STAT_STATE c) == 1 || s.rd (Reg.RUN_CH_STAT_STATE c) == 2)

/-- Every Miller core is in RESET. -/
def State.coresInReset (s : State) : Bool :=
  (List.range 4).all (fun c => s.rd (Reg.MIL_CORE_STAT_STATE c) == 0)

/-- Some Hopper file is ARMED, TRIGGERED or STOPPING. -/
def State.hopActive (s : State) : Bool :=
  (List.range 16).any (fun f =>
    let t := s.rd (Reg.HOP_FILE_STAT_STATE f)
    t == 1 || t == 2 || t == 6)

/-- A file that is not IDLE uses a segment entry. -/
def State.segInUse (s : State) (g : Nat) : Bool :=
  (List.range 16).any (fun f =>
    s.rd (Reg.HOP_FILE_STAT_STATE f) != 0 && decide (s.rd (Reg.HOP_FILE_FIRST_SEG f) ≤ g)
      && decide (g < s.rd (Reg.HOP_FILE_FIRST_SEG f) + s.rd (Reg.HOP_FILE_NSEG f)))

/-- The agreed minor version is at least `m` (R356). -/
def State.minorAtLeast (s : State) (m : Nat) : Bool :=
  s.on Reg.HST_IF_STAT_AGREED && decide (m ≤ s.rd Reg.HST_IF_STAT_MINOR)

/-- A field limited to EN = 0 of its own register: EN is 0, or this write clears it (R575). -/
def enOpen (s : State) (en : Fld) (own : Bool) (w i : Nat) : Bool := !s.on en || (own && !bit w i)

/-- Whether the state permits a change of a field: `b` the block instance, `ix` the indices, `off` the register's
offset and `w` the word written. -/
def State.lockOpen (s : State) (l : Lock) (b : Nat) (ix : List Nat) (off w : Nat) : Bool :=
  let i := ixAt ix 0
  match l with
  | .free => true
  | .cfgNoSrc => !s.on Reg.CFG_STAT_SRC_ACTIVE
  | .coreHalted => s.on (Reg.DBG_CORE_STAT_HALTED i)
  | .coresInReset => s.coresInReset
  | .hbmOff => s.rd Reg.HBM_STAT_STATE == 0
  | .hbmSpare => s.rd Reg.HBM_STAT_STATE == 0
  | .hopEn => !s.hopActive && !s.bstIs 0
  | .hopFile => s.rd (Reg.HOP_FILE_STAT_STATE i) == 0
  | .hopPort => enOpen s (Reg.HOP_PORT_CFG_EN i) true w 0
  | .hopSeg => !s.segInUse i
  | .hstQOff => s.rd (Reg.HST_Q_STAT_STATE i) == 0
  | .lanHalt => !s.on Reg.LAN_STAT_RUN
  | .marOff => !s.on Reg.MAR_STAT_STATE
  | .marSeed => !s.on Reg.MAR_STAT_STATE && s.rd Reg.MAR_LIVE == 0
  | .minor1 => s.minorAtLeast 1
  | .minor2 => s.minorAtLeast 2
  | .mstPat => s.rd Reg.MST_STAT_STATE != 2
  | .mstRing => !s.bitOf Reg.MST_CTRL_RING_EN i
  | .peoPolicy => !s.on Reg.PEO_STAT_LOCKED
  | .prbEn => enOpen s (Reg.PRB_CTRL_EN b) (off == 8) w 0
  | .rlkBind0 => enOpen s (Reg.RLK_BIND_EN0 i) true w 16
  | .rlkBind1 => enOpen s (Reg.RLK_BIND_EN1 i) true w 17
  | .rlkEn => enOpen s (Reg.RLK_CTRL_EN i) true w 0
  | .rlkLane => !s.on (Reg.RLK_CTRL_EN i)
  | .runEn => !s.runActive && !s.bstIs 0
  | .runIdle => !s.runActive
  | .runSrc => !s.runActive
  | .weirIo => decide (70 ≤ b) && decide (b < 78)

/-- The limits under which a write is ignored whatever its value (R94, R95, R461, and ISL_WEIR_IO outside 70 to 77). -/
def Lock.strict : Lock → Bool
  | .lanHalt | .runIdle | .peoPolicy | .weirIo => true
  | _ => false

/-- The temperature that decisions use for a channel of Aster, in units of 0.0625 °C (R511): the greater of measured and
predicted for an in-stack channel, the prediction alone while it is SUSPECT or in FAULT, and the measured value for a
pin channel. -/
def State.tUsed (s : State) (i : Nat) : Int :=
  let m := toSigned 16 (s.rd (Reg.AST_CH_TEMP_MEAS i))
  let p := toSigned 16 (s.rd (Reg.AST_CH_TEMP_PRED i))
  if 12 ≤ i then m
  else if s.on (Reg.AST_CH_STAT_SUSPECT i) || s.on (Reg.AST_CH_STAT_FAULT i) then p
  else max m p

/-! ### Values that fields admit beyond their range -/

/-- The banks that the SRAM sources and the template area occupy (R96), with source `j`'s base and size replaced, or the
template base replaced. -/
def State.runBanks (s : State) (j base size tpl : Nat) : Nat :=
  let src := (List.range 16).flatMap (fun k =>
    if k = j then banksOf base size
    else if s.on (Reg.RUN_SRC_CFG_TYPE k) then []
    else banksOf (8 * s.rd (Reg.RUN_SRC_BASE k)) (8 * s.rd (Reg.RUN_SRC_SIZE k)))
  (src ++ banksOf tpl 0x200000).dedup.length

/-- Bytes of the export image of Marigold (R135). -/
def marImageBytes : Nat := 2132608

/-- A BAR2 window lies wholly in HBM, SRAM, the Dahlia read window or the fabric windows (R355). -/
def windowOk (base size : Nat) : Bool :=
  let e := base + size
  decide (e ≤ 0x600000000) || (decide (0x1000000000 ≤ base) && decide (e ≤ 0x1010000000))
    || (decide (0x1100000000 ≤ base) && decide (e ≤ 0x1120000000))
    || (decide (0x2000000000 ≤ base) && decide (e ≤ 0x2A00000000))

/-- The fused repair records: words 128 to 511 of the fuses (R444), but for those whose two senses disagree (R445). -/
def State.fusedRecs (s : State) : List Nat :=
  ((List.range 384).map (fun i => if s.bitOf Hid.fuseWeak i then 0 else s.rd (Reg.PEO_FUSE (128 + i)))).filter (fun r => r != 0)

/-- The rank records in force, fused and soft: the rank and the spare that serves it (R287, R289, R482). A record whose
two ranks are equal marks a spare BAD. -/
def State.rankRecs (s : State) : List (Nat × Nat) :=
  ((s.fusedRecs ++ s.records).filter (fun r => r / 2 ^ 28 == 9)).map (fun r => (bits r 27 22, bits r 21 16))

/-- HBM_MODE.SPARE against the rank records (R289). -/
def State.spareOk (s : State) (v : Nat) : Bool :=
  if v = 0 then s.rankRecs == []
  else if v = 1 then s.rankRecs.all (fun p => p.1 == p.2 || p.2 % 4 == 3 && decide (35 ≤ p.2) && p.1 % 16 / 4 == p.2 % 16 / 4)
  else true

/-- Values that a field's encoding admits beyond its range; `w` is the whole word or pair written. One that it does not admit is denied
whatever the state (R575). -/
def State.encOk (s : State) (c : Cust) (v w : Nat) : Bool :=
  match c with
  | .marExpBase => v % 512 == 0 && (inOneBank v marImageBytes || decide (v + marImageBytes ≤ s.hbmTop))
  | .probeMode => v != 1 || bit w 23
  | .probePoint => decide (v < if bit w 23 then 97 else 80)
  | .qRing => v % 32 == 0
  | .qSize => (List.range 13).any (fun k => v == 16 * 2 ^ k)
  | .wpSize => decide (3 ≤ v) && decide (v ≤ 32)
  | .none | .hbmSpare | .runSrcBase | .runSrcSize | .runSrcType | .runTplBase | .wbEn | .winBase | .winSize => true

/-- Further conditions on a value written to a field, which rest on the state of the part. -/
def State.custOk (s : State) (c : Cust) (ix : List Nat) (v : Nat) : Bool :=
  let i := ixAt ix 0
  match c with
  | .none | .marExpBase | .probeMode | .probePoint | .qRing | .qSize | .wpSize => true
  | .hbmSpare => s.spareOk v
  | .runSrcBase => s.on (Reg.RUN_SRC_CFG_TYPE i)
      || decide (s.runBanks i (8 * v) (8 * s.rd (Reg.RUN_SRC_SIZE i)) (512 * s.rd Reg.RUN_TPL_BASE) ≤ 64)
  | .runSrcSize => s.on (Reg.RUN_SRC_CFG_TYPE i)
      || decide (s.runBanks i (8 * s.rd (Reg.RUN_SRC_BASE i)) (8 * v) (512 * s.rd Reg.RUN_TPL_BASE) ≤ 64)
  | .runSrcType => v == 1 || decide
      (s.runBanks i (8 * s.rd (Reg.RUN_SRC_BASE i)) (8 * s.rd (Reg.RUN_SRC_SIZE i)) (512 * s.rd Reg.RUN_TPL_BASE) ≤ 64)
  | .runTplBase => inOneBank (512 * v) 0x200000 && decide (s.runBanks 16 0 0 (512 * v) ≤ 64)
  | .wbEn => v == 0 || s.minorAtLeast 1
  | .winBase => windowOk (4096 * v) (4096 * s.rd (Reg.HST_WIN_SIZE i))
  | .winSize => windowOk (4096 * s.rd (Reg.HST_WIN_BASE i)) (4096 * v)

/-! ### Reading and writing registers -/

/-- The cell of a field of a register at an offset. -/
def FSpec.cell (f : FSpec) (blk off : Nat) : Fld := ⟨cellKey blk off f.lo, f.w, f.rst⟩

/-- The part of a word that a field holds. -/
def FSpec.part (f : FSpec) (w : Nat) : Nat := w / 2 ^ f.lo % 2 ^ f.w

/-- One field of a register write: `s0` is the state at the write, against which it is judged (R5, R23, R575). -/
def State.writeField (s0 : State) (blk off b : Nat) (ix : List Nat) (w : Nat) (s : State) (f : FSpec) : State :=
  let v := f.part w
  let c := f.cell blk off
  match f.acc with
  | .ro | .wo | .rc | .rl => s
  | .w1c => s.wr c (s.rd c &&& (2 ^ f.w - 1 - v))
  | .w1s => s.wr c (s.rd c ||| v)
  | .rw =>
    if f.lock.strict && !s0.lockOpen f.lock b ix off w then (if f.lock == .weirIo then s else s.deny blk)
    else if v < f.mn ∨ f.mx < v ∨ s0.encOk f.cust v w = false then s.deny blk
    else if v = s0.rd c then s
    else if s0.custOk f.cust ix v && s0.lockOpen f.lock b ix off w then s.wr c v
    else s.deny blk

/-- A write of a whole register: each field by its own rules. -/
def State.writeRow (s : State) (blk off b : Nat) (r : Row) (ix : List Nat) (w : Nat) : State :=
  (r.flds b ix).foldl (fun t f => s.writeField blk off b ix w t f) s

/-- The value of a register: its fields, reserved bits 0, write-only fields 0 (R5, R6). -/
def State.readRow (s : State) (blk off b : Nat) (r : Row) (ix : List Nat) : Nat :=
  (r.flds b ix).foldl (fun a f =>
    let v := s.rd (f.cell blk off)
    let hidden := f.acc == .wo || (f.lock == .minor1 && !s.minorAtLeast 1) || (f.lock == .minor2 && !s.minorAtLeast 2)
    a + (if hidden then 0 else v) * 2 ^ f.lo) 0

/-- What a read that is no peek does to the rc fields of a register: it clears those that lie in `[lo, hi)`. -/
def State.clearRc (s : State) (blk off b : Nat) (r : Row) (ix : List Nat) : State :=
  (r.flds b ix).foldl (fun t f => if f.acc == .rc then t.wr (f.cell blk off) 0 else t) s

/-- A write by register offset, with no regard to handlers: the plain field rules. Offsets not named ignore writes
(R555). The offset of a pair is that of its _LO half and the word has 64 bits. -/
def State.writeReg (s : State) (blk off w : Nat) : State :=
  match blockRows blk with
  | none => s
  | some (b, rows) =>
    match findRow rows off with
    | some (r, ix, false) => s.writeRow blk off b r ix w
    | _ => s

/-- The value at a register offset, with no regard to handlers; 0 at an offset not named (R555). -/
def State.readReg (s : State) (blk off : Nat) : Nat :=
  if off = 0 then 0x100
  else match blockRows blk with
  | none => 0
  | some (b, rows) =>
    match findRow rows off with
    | some (r, ix, false) => s.readRow blk off b r ix
    | _ => 0

end Sys2Proof.Machine
end

