-- ==== Sys2Proof/Machine/Mem.lean ====
section
/-! DEFINITION. The memories: stored form, row-column codes, verdicts, partial writes, and the checks that a request
passes before it reaches memory (chapters 8, 9 and 15). -/

namespace Sys2Proof.Machine

/-- A request to memory: the source NI, the class of its master (R443), the path and requester identifier that the
error logs record (R249), the key index, and whether it is a debug request at a level below FULL (R460). -/
structure Req where
  cls  : Nat
  path : Nat
  id   : Nat
  key  : Nat
  weak : Bool
deriving DecidableEq, Repr

/-- The request of a requester under a key index (R238, R443). Class 5 stands for the masters that no class names, which no rule of
Peony restricts. The debug master's level stands in PEO_DBG (R455). -/
def State.req (s : State) (w : Requester) (key : Nat) : Req :=
  match w with
  | .host => ⟨0, 0, 94, key, false⟩
  | .debug => ⟨1, 0, 91, key, s.rd Reg.PEO_DBG_LEVEL != 2⟩
  | .miller => ⟨2, 0, 93, key, false⟩
  | .fabric n => ⟨3, 0, n, key, false⟩
  | .millrace n => ⟨3, 1, n, key, false⟩
  | .hopper => ⟨4, 2, 0, key, false⟩
  | .runner => ⟨4, 2, 1, key, false⟩
  | .marigold => ⟨4, 2, 2, key, false⟩
  | .millstone => ⟨4, 2, 3, key, false⟩
  | .segBuf => ⟨4, 2, 4, key, false⟩
  | .config => ⟨4, 0, 90, key, false⟩
  | .sys => ⟨5, 0, 89, key, false⟩
  | .peony => ⟨5, 0, 92, key, false⟩

/-- Two results of one request: the worse one. -/
def MRes.join : MRes → MRes → MRes
  | .err, _ | _, .err => .err
  | .held, _ | _, .held => .held
  | .ue, _ | _, .ue => .ue
  | .ok, .ok => .ok

/-- The security alarm with its cause latched (R463). -/
def State.alarm (s : State) (cause : Fld) : State := (s.wr cause 1).raise 70

/-! ### Key use and protected ranges (R459, R460) -/

/-- The key index is allowed to the class (R459). -/
def State.keyAllowed (s : State) (q : Req) : Bool := decide (5 ≤ q.cls) || s.bitOf (Reg.PEO_KEY_ALLOW q.cls) q.key

/-- Two byte ranges share a byte. -/
def overlaps (a n b m : Nat) : Bool := decide (a < b + m) && decide (b < a + n)

/-- Base of the secure region (R236). -/
def secBase : Nat := 0x100F000000
/-- Size of the secure region (R236). -/
def secSize : Nat := 0x400000

/-- A request that a protected range or the secure region refuses (R460). -/
def State.protHit (s : State) (q : Req) (wr : Bool) (a n : Nat) : Bool :=
  decide (q.cls < 5) && ((List.range 8).any (fun i =>
    s.on (Reg.PEO_PROT_CTL_EN i)
      && overlaps a n (4096 * s.rd (Reg.PEO_PROT_BASE i)) (4096 * s.rd (Reg.PEO_PROT_SIZE i))
      && (q.weak || !s.bitOf (Reg.PEO_PROT_CTL_CLASSES i) q.cls))
  || (s.on Reg.PEO_SEC_CFG_EN && overlaps a n secBase secSize
      && (q.weak || !s.bitOf (if wr then Reg.PEO_SEC_CFG_WR else Reg.PEO_SEC_CFG_RD) q.cls))
  || (s.on Hid.fwProt && overlaps a n (s.rd Hid.fwProtBase) (s.rd Hid.fwProtSize)))

/-- The record of a refused request (R459, R460): alarm, and for a protected range the log of the first. -/
def State.logProt (s : State) (q : Req) (a : Nat) : State :=
  let s1 := s.alarm Reg.PEO_ALARM_PROT
  if s1.on Reg.PEO_PROT_LOG_VALID then s1
  else ((s1.wr Reg.PEO_PROT_LOG_VALID 1).wr Reg.PEO_PROT_LOG_CLASS q.cls).wr Reg.PEO_PROT_LOG_ADDR a

/-- The checks of Peony on a request: none where it passes, otherwise the state in which it has been refused. -/
def State.guard (s : State) (q : Req) (wr : Bool) (a n : Nat) : Option State :=
  if !s.keyAllowed q then some (s.alarm Reg.PEO_ALARM_KEY)
  else if s.protHit q wr a n then some (s.logProt q a)
  else none

/-! ### Buckets and logs -/

/-- Fill a leaky bucket by `n`, never past its threshold; when it reaches it, set TRIP and raise the event once
(R250, R285, R479). -/
def State.bucket (s : State) (lvl trip : Fld) (thresh n : Nat) (onTrip : State → State) : State :=
  let v := min (s.rd lvl + n) thresh
  let s1 := s.wr lvl v
  if v = thresh ∧ s.on trip = false then onTrip (s1.wr trip 1) else s1

/-- Let a bucket leak by one; TRIP clears at half the threshold, rounded down. -/
def State.leak (s : State) (lvl trip : Fld) (thresh : Nat) : State :=
  let v := s.rd lvl - 1
  let s1 := s.wr lvl v
  if v ≤ thresh / 2 then s1.wr trip 0 else s1

/-- One error of memory class `k` (R479). -/
def State.classErr (s : State) (k : Nat) (ue : Bool) : State :=
  let s1 := if ue then s.inc (Reg.TEL_CLS_UE k) 1 else s.inc (Reg.TEL_CLS_CE k) 1
  s1.bucket (Reg.TEL_LB_LEVEL k) (Reg.TEL_LB_TRIP k) (s.rd (Reg.TEL_LB_CFG_THRESH k))
    (if ue then s.rd (Reg.TEL_LB_CFG_UE_WEIGHT k) else 1) (fun t => t.raise (145 + k))

/-- An uncorrectable read of Dahlia is counted and raises event 10 (R424); it is an error of class 3 (R479). -/
def State.dahReadErr (s : State) : State := ((s.inc Reg.DAH_RD_ERR 1).raiseB Reg.DAH_EVT_EVT 3 10).classErr 3 true

/-- The SRAM error log holds the first error after CLR_LOG; a later one sets OVF (R249). -/
def State.sramLog (s : State) (kind a : Nat) (q : Req) : State :=
  if s.on Reg.SRM_ERR_INFO_VALID then s.wr Reg.SRM_ERR_INFO_OVF 1
  else (((((s.wr Reg.SRM_ERR_INFO_VALID 1).wr Reg.SRM_ERR_INFO_KIND kind).wr Reg.SRM_ERR_INFO_PATH q.path).wr
    Reg.SRM_ERR_INFO_KEY q.key).wr Reg.SRM_ERR_INFO_ID q.id).wr Reg.SRM_ERR_ADDR a

/-- Events 128 to 134 with their bits of SRM_EVT (R262). -/
def State.srmEvt (s : State) (i : Nat) : State := s.raiseB Reg.SRM_EVT_EVT i (128 + i)

/-- Events 136 to 144 with their bits of HBM_EVT (R294). -/
def State.hbmEvt (s : State) (i : Nat) : State := s.raiseB Reg.HBM_EVT_EVT i (136 + i)

/-! ### The row-column codes (R244, R245, R277, R278) -/

/-- What a syndrome says. -/
inductive Verdict where
  | clean | fix (b : Option Nat) | bad
deriving DecidableEq, Repr

/-- The one set bit among the low `n`, if there is exactly one. -/
def oneBit (n x : Nat) : Option Nat := if popCount n x = 1 then lowestBit n x else none

/-- The verdict of row syndrome `sr` and column syndrome `sc` over an `n` by `n` block. -/
def verdict (n sr sc : Nat) : Verdict :=
  if sr = 0 ∧ sc = 0 then .clean
  else match oneBit n sr, oneBit n sc with
  | some j, some k => .fix (some (n * j + k))
  | some _, none => if sc = 0 then .fix none else .bad
  | none, some _ => if sr = 0 then .fix none else .bad
  | none, none => .bad

/-- The check of a stored form: `n` row parities, then `n` column parities (R244, R277). -/
def codeOf (n x : Nat) : Nat :=
  (List.range n).foldl (fun a j => a + (popCount n (x / 2 ^ (n * j)) % 2) * 2 ^ j) 0
  + (List.range n).foldl (fun a k =>
      a + (((List.range n).foldl (fun p j => p + x / 2 ^ (n * j + k) % 2) 0) % 2) * 2 ^ (n + k)) 0

/-! ### SRAM words -/

/-- An address lies in SRAM (R553). -/
def isSram (a : Nat) : Bool := decide (0x1000000000 ≤ a) && decide (a < 0x1010000000)

/-- The bank of an SRAM address: 80 is the hub (R235). -/
def bankOf (a : Nat) : Nat := if a < 0x100F000000 then (a - 0x1000000000) / 0x300000 else 80

/-- The pads of a key table (R458). Table 0 is none: a word or line under it stands as its stored form. -/
def sramPadOf (e x a : Nat) : Nat := if e = 0 then 0 else Config.sramPad e x a
def hbmPadOf (e x a : Nat) : Nat := if e = 0 then 0 else Config.hbmPad e x a

/-- How the SRAM word at an 8-byte aligned address is stored. -/
def State.wordInfo (s : State) (a : Nat) : Info := Tab.getD s.info (a / 8) ⟨0, 0, 0, 0⟩

/-- Set how an SRAM word is stored; a write cancels its pending write-back (R246). -/
def State.setWordInfo (s : State) (a : Nat) (i : Info) : State :=
  { s with info := Tab.set s.info (a / 8) ⟨0, 0, 0, 0⟩ i, wback := s.wback.filter (fun w => w != a / 8) }

/-- The word as data under its own key. -/
def State.word (s : State) (a : Nat) : Nat := ofLeBytes (s.readMem a 8)

/-- The stored form of a word: its data XOR the pad of the key that wrote it (R458). -/
def State.wordStored (s : State) (a : Nat) : Nat :=
  let i := s.wordInfo a
  s.word a ^^^ (sramPadOf i.epoch i.key a % 2 ^ 64)

/-- A word as a reader under key index `x` sees it: the data under the key and key table that wrote it, and unrelated
data under any other (R243, R458). -/
def State.wordAs (s : State) (x a : Nat) : Nat :=
  let i := s.wordInfo a
  if i.key = x ∧ i.epoch = s.rd Hid.keyEpoch then s.word a
  else s.wordStored a ^^^ (sramPadOf (s.rd Hid.keyEpoch) x a % 2 ^ 64)

/-- Write a whole word under key index `x`, with a valid check. -/
def State.putWord (s : State) (x a v : Nat) : State :=
  (s.writeMem a (leBytes 8 v)).setWordInfo a ⟨x, s.rd Hid.keyEpoch, 0, 0⟩

/-- The counts, bucket and class bucket of a correctable SRAM read (R246, R250, R479). -/
def State.sramCe (s : State) (b : Nat) : State :=
  let s1 := s.inc (Reg.SRM_BANK_CE b) 1
  let s2 := s1.bucket (Reg.SRM_BANK_LB_LEVEL b) (Reg.SRM_BANK_LB_TRIP b) (s.rd Reg.SRM_LB_CFG_THRESH) 1 (fun t => t.srmEvt 0)
  s2.classErr 1 false

/-- What an uncorrectable SRAM word counts: the bank's UE, the log with its KIND, event 129 and the class (R247, R249, R479). -/
def State.sramBad (s : State) (kind : Nat) (q : Req) (a : Nat) : State :=
  (((s.inc (Reg.SRM_BANK_UE (bankOf a)) 1).sramLog kind a q).srmEvt 1).classErr 1 true

/-- An uncorrectable word met by a read (R247). -/
def State.sramUe (s : State) (q : Req) (a : Nat) : State := s.sramBad 0 q a

/-- The verdict on the stored word at `a`. -/
def State.wordVerdict (s : State) (a : Nat) : Verdict :=
  let y := (s.wordInfo a).syn
  verdict 8 (y % 256) (y / 256)

/-- A checked read of one word (R245 to R247): the data given, whether it is uncorrectable, and the state after. -/
def State.readWord (s : State) (q : Req) (a : Nat) : Nat × Bool × State :=
  let d := s.wordAs q.key a
  match s.wordVerdict a with
  | .clean => (d, false, s)
  | .fix b =>
    let s1 := s.sramCe (bankOf a)
    (match b with | some i => d ^^^ 2 ^ i | none => d, false,
     { s1 with wback := if s1.wback.contains (a / 8) then s1.wback else a / 8 :: s1.wback })
  | .bad => (d, true, s.sramUe q a)

/-- The write-back of a corrected word (R246): the data bit, if any, is inverted and the check made right; not where a
write has come first. -/
def State.writeBackWord (s : State) (a : Nat) : State :=
  if !s.wback.contains (a / 8) then s else
  let i := s.wordInfo a
  let s1 := match s.wordVerdict a with
    | .fix (some b) => s.writeMem a (leBytes 8 (s.word a ^^^ 2 ^ b))
    | _ => s
  s1.setWordInfo a { i with syn := 0 }

/-- The bytes of a unit with those that are written replaced. -/
def mergeBytes (old : List Byte) (ms : List (Option Byte)) : List Byte := (old.zip ms).map (fun p => p.2.getD p.1)

/-- A write of some bytes of a word (`ms`, one entry for each byte, none where it is not written): a whole word takes new
check bits; otherwise the word is read, corrected and merged, and left untouched where it is uncorrectable (R239, R248). -/
def State.mergeWord (s : State) (q : Req) (a : Nat) (ms : List (Option Byte)) : State × Bool :=
  if ms.all (fun m => m.isSome) then (s.putWord q.key a (ofLeBytes (ms.filterMap id)), true)
  else match s.wordVerdict a with
  | .bad => ((((s.inc (Reg.SRM_BANK_UE (bankOf a)) 1).sramLog 1 a q).srmEvt 2).classErr 1 true, false)
  | v =>
    let d0 := s.wordAs q.key a
    let d := match v with | .fix (some i) => d0 ^^^ 2 ^ i | _ => d0
    let s1 := match v with | .fix _ => s.sramCe (bankOf a) | _ => s
    (s1.putWord q.key a (ofLeBytes (mergeBytes (leBytes 8 d) ms)), true)

/-! ### HBM lines -/

/-- Parity of the bits of `x` selected by a mask. -/
def parityOf (x m : Nat) : Nat := popCount 64 (x &&& m) % 2

/-- The mapping masks in force (R268, R270). -/
def State.pcx (s : State) (j : Nat) : Nat :=
  let p := s.rd Hid.hbmPreset
  if p = 0 then 0 else if p = 1 then pcxRst j else s.rd (Hid.hbmPcx j)
def State.bkx (s : State) (j : Nat) : Nat :=
  let p := s.rd Hid.hbmPreset
  if p = 0 then 0 else if p = 1 then bkxRst j else s.rd (Hid.hbmBkx j)

/-- Where an HBM address lies before redirection: pseudo-channel, bank, row and column (R267 to R269). -/
structure Geo where
  pc   : Nat
  bank : Nat
  row  : Nat
  col  : Nat
deriving DecidableEq, Repr

/-- A mapping: the sparing mode, and the masks PCX and BKX. -/
structure HMap where
  sp  : Nat
  pcx : List Nat
  bkx : List Nat
deriving DecidableEq, Repr

/-- The low four bits of `v`, each XOR the parity of `x` under its mask (R268); done twice it gives `v` back. -/
def fold4 (v x : Nat) (mask : List Nat) : Nat :=
  (List.range 4).foldl (fun acc j => acc + ((v / 2 ^ j % 2 + parityOf x (mask.getD j 0)) % 2) * 2 ^ j) 0

/-- The place of an HBM address under a mapping (R267 to R269). -/
def mapOf (m : HMap) (a : Nat) : Geo :=
  let lo := a % 2 ^ 33
  if a / 2 ^ 33 = 2 ∧ m.sp = 1 then
    let q := lo / 512 / 12
    let slot := lo / 512 % 12
    ⟨4 * (slot / 3) + slot % 3, fold4 (q / 2) (q / 2 ^ 5) m.bkx, q / 32 % 2 ^ 15, q % 2 * 16 + lo / 32 % 16⟩
  else ⟨fold4 (lo / 512) (lo / 2 ^ 13) m.pcx, fold4 (lo / 2 ^ 14) (lo / 2 ^ 18) m.bkx, lo / 2 ^ 18,
    lo / 2 ^ 13 % 2 * 16 + lo / 32 % 16⟩

/-- The line of its rank that a mapped address names: 2^24 lines, bank by bank (R264). -/
def Geo.line (g : Geo) : Nat := g.bank * 2 ^ 20 + g.row * 2 ^ 5 + g.col

/-- The address that a mapping gives a line of a rank, before redirection (R265 to R269); none for a rank that holds no address. -/
def unmap (m : HMap) (r l : Nat) : Option Nat :=
  let pc := r % 16
  let row := l / 2 ^ 5 % 2 ^ 15
  let col := l % 32
  let up := col / 16 + 2 * fold4 (l / 2 ^ 20) row m.bkx + 2 ^ 5 * row
  if 48 ≤ r ∨ (r / 16 = 2 ∧ (m.sp = 2 ∨ (m.sp = 1 ∧ pc % 4 = 3))) then none
  else if r / 16 = 2 ∧ m.sp = 1 then some (2 * 2 ^ 33 + (up * 12 + 3 * (pc / 4) + pc % 4) * 512 + col % 16 * 32)
  else some (r / 16 * 2 ^ 33 + up * 2 ^ 13 + fold4 pc up m.pcx * 512 + col % 16 * 32)

/-- The mapping in force, and the one under which the last fill wrote its lines. -/
def State.curMap (s : State) : HMap := ⟨s.rd Hid.hbmSpareNow, (List.range 4).map s.pcx, (List.range 4).map s.bkx⟩
def State.fillMap (s : State) : HMap :=
  ⟨s.rd Hid.hbmFillSpare, (List.range 4).map (fun j => s.rd (Hid.hbmFillPcx j)), (List.range 4).map (fun j => s.rd (Hid.hbmFillBkx j))⟩

/-- The mapping of an HBM address (R267 to R269). -/
def State.mapAddr (s : State) (a : Nat) : Geo := mapOf s.curMap a

/-- The physical rank that serves an HBM address (R267, R270, R287): redirected where a rank has been retired, and
below the copy pointer of a running migration. -/
def State.rankOf (s : State) (a : Nat) : Nat :=
  let g := s.mapAddr a
  let p := s.rd (Reg.HBM_RANK_PHYS (16 * (a / 2 ^ 33) + g.pc))
  if s.on Reg.HBM_STAT_MIGRATING && s.rd Reg.HBM_MIG_STAT_SRC == p && decide (g.line < s.rd Hid.hbmMigPtr) then
    s.rd Reg.HBM_MIG_STAT_DST
  else p

/-- The place of an HBM line in the core dies: rank by rank, 2^24 lines of 32 bytes each. Memory and `info` are listed
by place, so that a change of the mapping or a migration moves what an address reads. -/
def State.place (s : State) (a : Nat) : Nat := s.rankOf a * 2 ^ 29 + (s.mapAddr a).line * 32

/-- A number that stands for the unknown address of a line that no address in force names. -/
def strayHome (p : Nat) : Nat := 2 ^ 48 + p

/-- The address of the line at a place, where the ranks are served as `phys` says (R270). -/
def homeOf (m : HMap) (phys : Nat → Nat) (p : Nat) : Nat :=
  (((List.range 48).filter (fun r => phys r == p / 2 ^ 29)).findSome? (fun r => unmap m r (p / 32 % 2 ^ 24))).getD (strayHome p)

/-- The address that names a place now, and the one that named it as the last fill ran. -/
def State.homeNow (s : State) (p : Nat) : Nat := homeOf s.curMap (fun r => s.rd (Reg.HBM_RANK_PHYS r)) p
def State.fillHome (s : State) (p : Nat) : Nat := homeOf s.fillMap (fun r => s.rd (Hid.hbmFillPhys r)) p

/-- How a line that nothing has written since the fill is stored: a zero line under key index 0, and an open one where no fill has
reached it (R290). -/
def State.fillInfo (s : State) (p : Nat) : Info :=
  if s.on Reg.HBM_STAT_FILLED || decide (p / 32 < s.rd Hid.hbmFillTo) then ⟨0, s.rd Hid.hbmFillEpoch, 0, s.fillHome p⟩
  else ⟨0, s.rd Hid.hbmFillEpoch, Config.unfilledSyn p % 2 ^ 32, strayHome p⟩

/-- How the HBM line at a 32-byte aligned address is stored. -/
def State.lineInfo (s : State) (a : Nat) : Info := (Tab.find s.info (s.place a / 32)).getD (s.fillInfo (s.place a))

/-- Set how an HBM line is stored; a write cancels its pending write-back (R281). -/
def State.setLineInfo (s : State) (a : Nat) (i : Info) : State :=
  let p := s.place a
  { s with
    info := Tab.set s.info (p / 32) (s.fillInfo p) i
    wback := s.wback.filter (fun w => w % 2 ^ 40 != p / 32) }

/-- The line as data under its own key. -/
def State.line (s : State) (a : Nat) : Nat := ofLeBytes (s.readMem (s.place a) 32)

/-- The check mask M(x, L) of a key table: 0 for key index 0 (R277). -/
def maskOf (e x a : Nat) : Nat := if x = 0 then 0 else Config.hbmMask e x a % 2 ^ 32

/-- The syndrome of stored information read under key index `x` at address `a` (R278). -/
def State.infoSyn (s : State) (i : Info) (x a : Nat) : Nat :=
  if i.key = x ∧ i.epoch = s.rd Hid.keyEpoch ∧ i.home = a then i.syn
  else i.syn ^^^ maskOf i.epoch i.key i.home ^^^ maskOf (s.rd Hid.keyEpoch) x a

/-- The syndrome that a read of a line under key index `x` computes (R278). -/
def State.lineSyn (s : State) (x a : Nat) : Nat := s.infoSyn (s.lineInfo a) x a

/-- The verdict of a syndrome (R278). -/
def synVerdict (y : Nat) : Verdict := verdict 16 (y % 2 ^ 16) (y / 2 ^ 16)

/-- The verdict of a line under key index `x` (R278). -/
def State.lineVerdict (s : State) (x a : Nat) : Verdict := synVerdict (s.lineSyn x a)

/-- A line as a reader under key index `x` sees it. -/
def State.lineAs (s : State) (x a : Nat) : Nat :=
  let i := s.lineInfo a
  if i.key = x ∧ i.epoch = s.rd Hid.keyEpoch ∧ i.home = a then s.line a
  else s.line a ^^^ (hbmPadOf i.epoch i.key i.home % 2 ^ 256) ^^^ (hbmPadOf (s.rd Hid.keyEpoch) x a % 2 ^ 256)

/-- Write a whole line under key index `x`, with a valid keyed check (R277). -/
def State.putLine (s : State) (x a v : Nat) : State :=
  (s.writeMem (s.place a) (leBytes 32 v)).setLineInfo a ⟨x, s.rd Hid.keyEpoch, 0, a⟩

/-- What a rank's bucket does when it trips (R285, R286): event 136; a free spare is marked BAD, with its record; for any
other rank a migration falls due where AUTO is set. -/
def State.rankTrip (r : Nat) (s : State) : State :=
  let s1 := s.hbmEvt 0
  if s1.rd (Reg.HBM_RANK_ROLE r) = 1 then
    let s2 := s1.wr (Reg.HBM_RANK_BAD r) 1
    (s2.repairRecord (9 * 2 ^ 28 + r * 2 ^ 22 + r * 2 ^ 16)).getD s2
  else s1.wrIf (s1.on Reg.HBM_MIG_CFG_AUTO) (Hid.hbmMigQueue r) 1

/-- Fill the bucket of a physical rank (R285). -/
def State.rankErr (s : State) (r n : Nat) : State :=
  s.bucket (Reg.HBM_PC_LB_LEVEL (r % 16) (r / 16)) (Reg.HBM_PC_LB_TRIP (r % 16) (r / 16)) (s.rd Reg.HBM_LB_CFG_THRESH) n
    (State.rankTrip r)

/-- The HBM error log holds the first error after CLR_LOG; a later one sets OVF (R279). -/
def State.hbmLog (s : State) (kind a rank syn : Nat) (kmis keyV : Bool) (q : Req) : State :=
  if s.on Reg.HBM_ERRLOG_INFO_VALID then s.wr Reg.HBM_ERRLOG_INFO_OVF 1
  else ((((((((((s.wr Reg.HBM_ERRLOG_INFO_VALID 1).wr Reg.HBM_ERRLOG_INFO_KIND kind).wr Reg.HBM_ERRLOG_INFO_KMIS (b2n kmis)).wr
    Reg.HBM_ERRLOG_INFO_KEY_V (b2n keyV)).wr Reg.HBM_ERRLOG_INFO_RANK rank).wr Reg.HBM_ERRLOG_INFO_KEY
    (if keyV then q.key else 0)).wr Reg.HBM_ERRLOG_INFO_PATH (if q.path = 0 then 0 else q.path - 1)).wr Reg.HBM_ERRLOG_INFO_ID q.id).wr
    Reg.HBM_ERRLOG_SYN_SC (syn / 2 ^ 16)).wr Reg.HBM_ERRLOG_SYN_SR (syn % 2 ^ 16)).wr Reg.HBM_ERRLOG_ADDR a

/-- Some other key index gives the line a clean or single-bit verdict (R279). -/
def State.keyMismatch (s : State) (x a : Nat) : Bool :=
  (List.range 16).any (fun y => y != x && s.lineVerdict y a != .bad)

/-- What an uncorrectable verdict on a line of physical rank `r` does (R279): counted, logged, event 137 or 138, the
alarm under key indices 1 to 15, and the rank's bucket and class for a memory error. `kind` is 0 READ, 1 MERGE, 2 SCRUB,
3 MIGRATE; `a` is the line's address. -/
def State.hbmBad (s : State) (q : Req) (kind r a syn : Nat) (km : Bool) : State :=
  let s1 := s.inc (Reg.HBM_PC_UE (r % 16)) 1
  let s2 := s1.hbmLog kind a r syn km (decide (kind < 2)) q
  let s3 := s2.hbmEvt (if kind = 1 then 2 else 1)
  let s4 := if kind < 2 ∧ q.key ≠ 0 then s3.alarm Reg.PEO_ALARM_HBM else s3
  if km then s4.inc (Reg.HBM_PC_KMIS (r % 16)) 1
  else (s4.rankErr r (s.rd Reg.HBM_LB_CFG_UE_WEIGHT)).classErr 2 true

/-- An uncorrectable verdict on a request's read of a line (R279). -/
def State.hbmUe (s : State) (q : Req) (kind a : Nat) : State :=
  s.hbmBad q kind (s.rankOf a) a (s.lineSyn q.key a) (s.keyMismatch q.key a)

/-- The counts of a correctable read of a line of physical rank `r` (R281). -/
def State.hbmCe (s : State) (r : Nat) : State :=
  ((s.inc (Reg.HBM_PC_CE (r % 16)) 1).rankErr r 1).classErr 2 false

/-- A line of the pseudo-channel that serves an address is read, or written. -/
def State.countRd (s : State) (a : Nat) : State := s.add (Reg.HBM_PC_RD (s.rankOf a % 16)) 1
def State.countWr (s : State) (a : Nat) : State := s.add (Reg.HBM_PC_WR (s.rankOf a % 16)) 1

/-- The neighbour refreshes that a pseudo-channel has scheduled and not run, by the times of their draws (R276). -/
def State.nrefs (s : State) (i : Nat) : List Nat := Tab.getD s.fifos (80 + i) []

/-- An activation in a pseudo-channel (R276): the draw of the LFSR, whose seed comes from the TRNG, is open; with probability
2^-PNR_SHIFT it schedules a neighbour refresh. -/
def State.activate (s : State) (i : Nat) : State :=
  let f := s.fresh
  { f.2 with
    fifos := if f.1 % 2 ^ s.rd Reg.HBM_REF_CFG_PNR_SHIFT = 0 then Tab.set f.2.fifos (80 + i) [] (f.2.nrefs i ++ [s.now]) else f.2.fifos }

/-- What a write queue that holds segments which came at the times listed has left at `now` (R271): where the oldest has waited
2 us, writes are served until 16 or fewer are left, and that one in any case. -/
def wqLeft (now : Nat) : Nat → List Nat → List Nat
  | 0, l => l
  | k + 1, l =>
    match l with
    | [] => []
    | t :: r => if now < t + 8000 then l else wqLeft now k (if 16 < l.length then l.drop (l.length - 16) else r)

/-- The segments that wait in the write queue of a pseudo-channel (R271). -/
def State.writeQueue (s : State) (i : Nat) : List Nat :=
  let l := Tab.getD s.fifos (64 + i) []
  wqLeft s.now l.length l

/-- A segment request enters the write queue (R271): at 48, writes are served until 16 are left. -/
def State.queueWrite (s : State) (i : Nat) : State :=
  let l := s.writeQueue i ++ [s.now]
  { s with fifos := Tab.set s.fifos (64 + i) [] (if 48 ≤ l.length then l.drop (l.length - 16) else l) }

/-- A request of `n` bytes opens a row for each segment that it touches (R271, R276). -/
def State.openRows (s : State) (wr : Bool) (a n : Nat) : State :=
  if isSram a then s
  else State.each ((if n = 0 then [] else List.range ((a % 512 + n + 511) / 512)).map (fun k => a / 512 * 512 + 512 * k)) (fun u t =>
    let i := s.rankOf u % 16
    (if wr then t.queueWrite i else t).activate i) s

/-- Background work moves `n` bytes in a pseudo-channel, where the budget of the period has them left (R272, R467). -/
def State.hbmSpend (s : State) (i n : Nat) : Option State :=
  if s.rd (Hid.hbmBg i) + n ≤ 288 * s.rd Hid.hbmPct then some (s.add (Hid.hbmBg i) n) else none

/-- A checked read of one line (R278 to R281): the data given, whether it is uncorrectable, and the state after. -/
def State.readLine (s : State) (q : Req) (a : Nat) : Nat × Bool × State :=
  let d := s.lineAs q.key a
  let s0 := s.countRd a
  let w := q.key * 2 ^ 40 + s.place a / 32
  match s.lineVerdict q.key a with
  | .clean => (d, false, s0)
  | .fix b =>
    let s1 := s0.hbmCe (s.rankOf a)
    (match b with | some i => d ^^^ 2 ^ i | none => d, false,
     { s1 with wback := if s1.wback.contains w then s1.wback else w :: s1.wback })
  | .bad => (d, true, s0.hbmUe q 0 a)

/-- The line at a place with the bit that a verdict names inverted. -/
def State.fixPlace (s : State) (p : Nat) (v : Verdict) : State :=
  match v with
  | .fix (some b) => s.writeMem p (leBytes 32 (ofLeBytes (s.readMem p 32) ^^^ 2 ^ b))
  | _ => s

/-- The write-back of a line corrected under key index `x`, unless a write came first (R281): its bit is inverted, and
its stored check is right under that key. -/
def State.writeBackLine (s : State) (x a : Nat) : State :=
  if !s.wback.contains (x * 2 ^ 40 + s.place a / 32) then s else
  let i := s.lineInfo a
  let y := s.lineSyn x a
  ((s.fixPlace (s.place a) (synVerdict y)).setLineInfo a { i with syn := i.syn ^^^ y }).countWr a

/-- A write of some bytes of a line: a whole line is stored with its keyed check; a part is merged (R282). -/
def State.mergeLine (s : State) (q : Req) (a : Nat) (ms : List (Option Byte)) : State × Bool :=
  if ms.all (fun m => m.isSome) then ((s.putLine q.key a (ofLeBytes (ms.filterMap id))).countWr a, true)
  else
    let s0 := s.countRd a
    match s.lineVerdict q.key a with
    | .bad => (s0.hbmUe q 1 a, false)
    | v =>
      let d0 := s.lineAs q.key a
      let d := match v with | .fix (some i) => d0 ^^^ 2 ^ i | _ => d0
      let s1 := match v with | .fix _ => s0.hbmCe (s.rankOf a) | _ => s0
      ((s1.putLine q.key a (ofLeBytes (mergeBytes (leBytes 32 d) ms))).countWr a, true)

/-! ### Requests of any length -/

/-- The aligned units of `g` bytes that `n` bytes from `a` touch. -/
def unitsOf (g a n : Nat) : List Nat :=
  if n = 0 then [] else (List.range ((a % g + n + g - 1) / g)).map (fun i => a / g * g + g * i)

/-- The bytes written from `a` that fall in the unit of `g` bytes at `u`, one entry for each byte of the unit. -/
def unitPart (g a u : Nat) (bs : List (Option Byte)) : List (Option Byte) :=
  (List.range g).map (fun i => if u + i < a then none else (bs[u + i - a]?).getD none)

/-- The readiness of bank `b` for a request (R256): on, asleep with a wake under way, or refused. -/
def State.bankGate (s : State) (q : Req) (a b : Nat) : MRes × State :=
  let p := s.rd (Reg.SRM_BANK_PSTAT_PSTATE b)
  if s.bstOn 4 b then (.err, s)
  else if p = 0 then (.ok, s)
  else if p = 2 then
    if s.on (Reg.SRM_BANK_CTRL_AUTO_WAKE b) then
      (.held, (s.wr (Reg.SRM_BANK_PSTAT_PSTATE b) 3).wr (Hid.srbWait b) 1)
    else (.err, (s.inc (Reg.SRM_BANK_UE b) 1).sramLog 2 a q)
  else (.held, s)

/-- A request that touches several banks needs them all (R256, R257): each wakes or refuses it for itself. -/
def State.bankGates (s : State) (q : Req) (a : Nat) (l : List Nat) : MRes × State :=
  l.foldl (fun (acc : MRes × State) b => let r := acc.2.bankGate q a b; (acc.1.join r.1, r.2)) (.ok, s)

/-- The Millrace of island n leads to bank n only (R238). -/
def ownBank (q : Req) (l : List Nat) : Bool := q.path != 1 || l == [q.id]

/-- The hub bundles that are not FENCED are all held under back-pressure (R224). -/
def State.hubHeld (s : State) : Bool :=
  (List.range 4).all (fun h => s.rd ⟨cellKey 0x0F0 (0x300 + 4 * h) 24, 2, 0⟩ == 2 || s.on (Hid.vbHeld (162 + h)))

/-- Writing into the hub bank as R236 permits: `who` is 0 for Hopper and 2 for Marigold on the engine path. -/
def hubWritable (q : Req) (a n : Nat) : Bool :=
  let inR (b m : Nat) : Bool := decide (b ≤ a) && decide (a + n ≤ b + m)
  inR secBase secSize || inR 0x100FE00000 0x200000
    || (inR 0x100F400000 0x200000 && q.path == 2 && q.id == 2)
    || (inR 0x100F600000 0x800000 && q.path == 2 && q.id == 0)

/-- A request of `n` bytes lies, within the hub bank, in one region of R236 (R553). -/
def hubOneRegion (a n : Nat) : Bool :=
  let inR (b m : Nat) : Bool := decide (b ≤ a) && decide (a + n ≤ b + m)
  inR secBase secSize || inR 0x100F400000 0x200000 || inR 0x100F600000 0x800000 || inR 0x100FE00000 0x200000

/-- Read `n` bytes of SRAM or HBM for a request that has passed the map: the bytes, the result, the state after. -/
def State.readUnits (s : State) (q : Req) (a n : Nat) : List Byte × MRes × State :=
  let g := if isSram a then 8 else 32
  let (bs, r, t) := (unitsOf g a n).foldl (fun (acc : List Byte × MRes × State) u =>
    let (d, bad, t) := if isSram a then acc.2.2.readWord q u else acc.2.2.readLine q u
    (acc.1 ++ leBytes g d, (if bad then MRes.join acc.2.1 .ue else acc.2.1), t)) ([], .ok, s.openRows false a n)
  ((bs.drop (a % g)).take n, r, t)

/-- Write bytes to SRAM or HBM for a request that has passed the map. A unit whose merge is refused is left untouched;
the others are applied, and the writer receives a bus error (R248, R282). A unit with no byte written is not touched. -/
def State.writeUnits (s : State) (q : Req) (a : Nat) (bs : List (Option Byte)) : MRes × State :=
  let g := if isSram a then 8 else 32
  (unitsOf g a bs.length).foldl (fun (acc : MRes × State) u =>
    let part := unitPart g a u bs
    if part.all (fun m => m.isNone) then acc
    else
      let (t, ok) := if isSram a then acc.2.mergeWord q u part else acc.2.mergeLine q u part
      (if ok then acc.1 else .err, t)) (.ok, s.openRows true a bs.length)

/-- The target of a memory request accepts it: HBM while READY (R290), SRAM over its own door (R238) while the bank is on (R256) and
a wipe does not hold the secure region (R258). No master reaches the hub bank before the wipe of phase KEYS has ended (R259). -/
def State.memGate (s : State) (q : Req) (a n : Nat) : MRes × State :=
  match s.rangeOfReq a n with
  | some .hbm =>
    let fenced := (unitsOf 512 a n).any (fun u => s.bitOf Reg.HBM_VB_PC_FENCED (s.mapAddr u).pc)
    (if s.rd Reg.HBM_STAT_STATE = 3 && !fenced then .ok else .err, s)
  | some (.bank _) =>
    if !ownBank q (banksOf a n) || (s.on (Hid.hubFenced) && q.path != 1) then (.err, s)
    else if q.path != 1 && s.hubHeld then (.held, s)
    else s.bankGates q a (banksOf a n)
  | some .hub =>
    if !hubOneRegion a n || s.on Hid.hubFenced || q.path == 1 then (.err, s)
    else if s.hubHeld || decide (s.rd Reg.SYS_BOOT_STAT_PHASE < 3) || (s.on Reg.SRM_STAT_WIPING && overlaps a n secBase secSize) then
      (.held, s)
    else (.ok, s)
  | _ => (.err, s)

/-- A read of memory by a master: Peony's checks, the map, the target, the data (R245, R278, R459, R460, R553). -/
def State.memRead (s : State) (q : Req) (a n : Nat) : List Byte × MRes × State :=
  match s.guard q false a n with
  | some t => ([], .err, t)
  | none =>
    match s.memGate q a n with
    | (.ok, t) => t.readUnits q a n
    | (r, t) => ([], r, t)

/-- A write of memory by a master, with byte enables (R236, R239, R248, R282, R459, R460, R553). -/
def State.memWriteBe (s : State) (q : Req) (a : Nat) (bs : List (Option Byte)) : MRes × State :=
  match s.guard q true a bs.length with
  | some t => (.err, t)
  | none =>
    match s.memGate q a bs.length with
    | (.ok, t) =>
      if s.rangeOfReq a bs.length = some .hub ∧ hubWritable q a bs.length = false then (.err, t)
      else t.writeUnits q a bs
    | (r, t) => (r, t)

/-- A write of every byte of a range. -/
def State.memWrite (s : State) (q : Req) (a : Nat) (bs : List Byte) : MRes × State := s.memWriteBe q a (bs.map some)

end Sys2Proof.Machine
end

