-- ==== Sys2Proof/Machine/Bundles.lean ====
section
/-! DEFINITION. The vertical bundles and the Millrace (chapter 7). -/

namespace Sys2Proof.Machine

/-! ### Bundles (R209 to R211, R234) -/

/-- The number of a bundle, which is also its instance number in the calibration item of the bundles. -/
def bunCode : Bundle → Nat
  | .cfg n => n
  | .mr n => 80 + n
  | .riser r => 160 + r
  | .hub h => 162 + h
  | .svc => 166
  | .peo => 167
  | .col => 168

/-- Class code and instance of a bundle (R209, R228). -/
def bunClass : Bundle → Nat × Nat
  | .cfg n => (0, n)
  | .mr n => (1, n)
  | .riser r => (2, r)
  | .hub h => (3, h)
  | .svc => (4, 0)
  | .peo => (5, 0)
  | .col => (6, 0)

/-- Groups of a bundle (R209). -/
def bunGroups : Bundle → Nat
  | .cfg _ | .riser _ => 36
  | .mr _ | .hub _ => 82
  | .svc => 12
  | .peo => 4
  | .col => 72

/-- Signals of a group (R209): 64, and in the HBM column 40 per data group and 32 per command group. -/
def bunSignals (b : Bundle) (g : Nat) : Nat :=
  match b with
  | .col => if g < 64 then 40 else 32
  | _ => 64

/-- A bundle has bidirectional groups, which a guard watches: its data groups (R211, R224). -/
def bunGuarded (b : Bundle) (g : Nat) : Bool :=
  match b with
  | .cfg _ | .riser _ => decide (g < 34)
  | .mr _ | .hub _ => decide (g < 80)
  | _ => false

/-- Block and offset of the status word of a bundle (R234). -/
def bunWord : Bundle → Nat × Nat
  | .cfg n => (0x040 + n, 0x300)
  | .mr n => (0x040 + n, 0x304)
  | .riser r => (0x002, 0x300 + 4 * r)
  | .svc => (0x002, 0x308)
  | .peo => (0x002, 0x30C)
  | .hub h => (0x0F0, 0x300 + 4 * h)
  | .col => (0x020, 0x300)

/-- A field of the status word of a bundle, by its low bit (R234). -/
def bunFld (b : Bundle) (lo w : Nat) : Fld := ⟨cellKey (bunWord b).1 (bunWord b).2 lo, w, 0⟩
def bunContention (b : Bundle) : Fld := bunFld b 31 1
def bunRecLost (b : Bundle) : Fld := bunFld b 30 1
def bunMode (b : Bundle) : Fld := bunFld b 24 2
def bunLastGrp (b : Bundle) : Fld := bunFld b 16 7
def bunLastWire (b : Bundle) : Fld := bunFld b 8 7
def bunRepairs (b : Bundle) : Fld := bunFld b 0 8

/-- The repair record of a bundle, with its GROUP, WIRE and KIND (R228). -/
def bunRecord (b : Bundle) (g w kind : Nat) : Nat :=
  (bunClass b).1 * 2 ^ 28 + (bunClass b).2 * 2 ^ 20 + g * 2 ^ 13 + w * 2 ^ 6 + kind * 2 ^ 4

/-- Events 11 to 14 with the bundle named in CFG_VB_LAST (R233). -/
def State.bunEvent (s : State) (b : Bundle) (i : Nat) : State :=
  (((s.wr Reg.CFG_VB_LAST_CLASS (bunClass b).1).wr Reg.CFG_VB_LAST_INSTANCE (bunClass b).2).wr
    Reg.CFG_VB_LAST_EVENT i).raise (11 + i)

/-- Write a soft repair record; REC_LOST where none can be written (R228). -/
def State.bunRecordWrite (s : State) (b : Bundle) (g w kind : Nat) : State :=
  (s.repairRecord (bunRecord b g w kind)).getD (s.wr (bunRecLost b) 1)

/-- The working signal and spare wires of a group, in ascending order (R210). -/
def State.bunWires (s : State) (b : Bundle) (g : Nat) : List Nat :=
  (List.range (bunSignals b g + 2)).filter (fun w => !s.wires.contains ⟨bunCode b, g, w⟩)

/-- Both clock wires of a group have failed: n + 2 and n + 3 (R210, log entry 9). -/
def State.bunNoClock (s : State) (b : Bundle) (g : Nat) : Bool :=
  let n := bunSignals b g
  s.wires.contains ⟨bunCode b, g, n + 2⟩ && s.wires.contains ⟨bunCode b, g, n + 3⟩

/-- Wires of a group that work (R210): two failed clock wires leave fewer than FULL width needs. -/
def State.bunWorking (s : State) (b : Bundle) (g : Nat) : Nat :=
  let k := (s.bunWires b g).length
  if s.bunNoClock b g then min k (bunSignals b g - 1) else k

/-- A group works at HALF width: its bundle does, or in the HBM column the group itself is short of wires (R229, R230). -/
def State.groupHalf (s : State) (b : Bundle) (g : Nat) : Bool :=
  match b with
  | .col => decide (s.bunWorking b g < bunSignals b g)
  | _ => s.rd (bunMode b) == 1

/-- The wire that carries a signal (R210, R229): signal k travels on the k-th working wire; at HALF width signals 0 to 31 travel in
the first cycle and the rest in the second, on the first 32. -/
def State.wireOf (s : State) (b : Bundle) (e : SigErr) : Option Nat :=
  if bunGroups b ≤ e.group ∨ bunSignals b e.group ≤ e.sig then none
  else if s.groupHalf b e.group then (s.bunWires b e.group)[e.sig % 32]?
  else (s.bunWires b e.group)[e.sig]?

/-- The pseudo-channels that a group of the HBM column carries: two write groups and two read groups each, and two per
command group (R209). -/
def colPcs (g : Nat) : List Nat :=
  if g < 32 then [g / 2] else if g < 64 then [(g - 32) / 2] else [2 * (g - 64), 2 * (g - 64) + 1]

/-- An island can neither be loaded nor scrubbed: its configuration bundle, or both risers, are FENCED (R230). -/
def State.cfgFenced (s : State) (n : Nat) : Bool := s.on (Reg.ISL_STAT_CFG_FENCE n)

/-- What HALF of a bundle shows outside its status word (R229, R230). -/
def State.bunHalfEffect (s : State) (b : Bundle) (g : Nat) : State :=
  match b with
  | .cfg n => s.wr (Reg.ISL_STAT_CFG_HALF n) 1
  | .mr n => s.wr (Reg.ISL_STAT_MR_HALF n) 1
  | .col => State.each (colPcs g) (fun i t => t.setB Reg.HBM_VB_PC_HALF i) s
  | _ => s

/-- The configuration bundle of an island counts as FENCED. -/
def State.cfgFence (n : Nat) (s : State) : State := (s.wr (Reg.ISL_STAT_CFG_FENCE n) 1).wr (Reg.ISL_STAT_DEGRADED n) 1

/-- What FENCED does, by class (R230). -/
def State.bunFenceEffect (s : State) (b : Bundle) (g : Nat) : State :=
  match b with
  | .cfg n => State.cfgFence n s
  | .mr n =>
    let q := (Tab.getD s.mrQueue n []).map (fun r => { r with data := [], rerr := 1, rue := 0 })
    let s1 := (s.wr (Reg.ISL_STAT_MR_FENCE n) 1).wr (Reg.ISL_STAT_DEGRADED n) 1
    { s1 with mrQueue := Tab.set s1.mrQueue n [] q }
  | .riser _ =>
    if s.rd (bunMode (.riser 0)) = 2 ∧ s.rd (bunMode (.riser 1)) = 2 then
      State.each (List.range 80) State.cfgFence s
    else s
  | .hub _ =>
    if [0, 1, 2, 3].all (fun h => s.rd (bunMode (.hub h)) == 2) then s.wr Hid.hubFenced 1 else s
  | .col => State.each (colPcs g) (fun i t => t.setB Reg.HBM_VB_PC_FENCED i) s
  | .svc | .peo => s

/-- A bundle is FENCED: waiting transfers end in bus errors, and event 13 is raised (R230). -/
def State.bunFence (s : State) (b : Bundle) (g : Nat) : State :=
  let was := s.rd (bunMode b)
  let s1 := ((s.wr (bunMode b) 2).wr (bunLastGrp b) g).wr (Hid.vbHeld (bunCode b)) 0
  let s2 := s1.bunFenceEffect b g
  if was = 2 then s2 else (s2.bunEvent b 2).journal 6 (bunClass b).1

/-- A group with fewer working wires than signals: HALF, and FENCED below 32 (R229, R230). -/
def State.bunDegrade (s : State) (b : Bundle) (g : Nat) : State :=
  let k := s.bunWorking b g
  if bunSignals b g ≤ k then s
  else
    let s1 :=
      if s.rd (bunMode b) = 0 then ((s.wr (bunMode b) 1).wr (bunLastGrp b) g).bunEvent b 1 else s
    let s2 := s1.bunHalfEffect b g
    if k < 32 then s2.bunFence b g else s2

/-- A wire of a bundle that has not failed before: a failed wire counts once (R228). -/
def State.wireNew (s : State) (b : Bundle) (e : WireErr) : Bool :=
  decide (e.group < bunGroups b) && decide (e.wire < bunSignals b e.group + 4) && !s.wires.contains ⟨bunCode b, e.group, e.wire⟩

/-- A failed wire is taken out: the signals at and above it move up where its group has a spare left, which counts as a repair and
calibrates their trims (R227); then the bundle goes to HALF or is FENCED where a group is short of wires (R229, R230). -/
def State.wireOut (b : Bundle) (e : WireErr) (s : State) : State :=
  let n := bunSignals b e.group
  let s0 := s.wr (bunLastWire b) e.wire
  let s1 := { s0 with wires := ⟨bunCode b, e.group, e.wire⟩ :: s.wires }
  let s2 :=
    if e.wire < n + 2 ∧ n ≤ (s1.bunWires b e.group).length then
      (((s1.inc (bunRepairs b) 1).wr (bunLastGrp b) e.group).wrFree (Hid.trims (bunCode b))).bunEvent b 0
    else s1
  s2.bunDegrade b e.group

/-- A wire is declared failed (R226): its soft record is written (R227 to R229), and it is taken out. -/
def State.wireFail (b : Bundle) (e : WireErr) (s : State) : State :=
  if s.wireNew b e then (s.bunRecordWrite b e.group e.wire 0).wireOut b e else s

/-- One corrected error on a signal (R213, R226): attributed to the wire that carries it and counted in its class; the fourth of a
wire within 1 s fails it. -/
def State.wireErr (b : Bundle) (e : SigErr) (s : State) : State :=
  match s.wireOf b e with
  | none => s
  | some wire =>
    let w : Wire := ⟨bunCode b, e.group, wire⟩
    let s1 := s.classErr 7 false
    let l := (w, s.now) :: s1.wireErrs
    let near := (l.filter (fun p => p.1 == w && decide (s.now < p.2 + 4000000000))).length
    let s2 := { s1 with wireErrs := l }
    if 4 ≤ near then s2.wireFail b ⟨e.group, wire⟩ else s2

/-- Corrected wire errors of one transfer. -/
def State.wireErrors (s : State) (b : Bundle) (l : List SigErr) : State := State.each l (State.wireErr b) s

/-- Corrected wire errors of a transfer over the hub bundles, between the engines, the network and SRAM (R213, R238). -/
def State.hubErrors (s : State) (l : List (Fin 4 × SigErr)) : State := State.each l (fun e t => t.wireErr (.hub e.1) e.2) s

/-- The riser that carries the frames of an island: its own, or the other while that is FENCED (R209, R230). -/
def State.riserOf (s : State) (n : Nat) : Fin 2 :=
  let r : Fin 2 := if n < 40 then 0 else 1
  if s.rd (bunMode (.riser r)) = 2 then 1 - r else r

/-- Corrected wire errors of frames over the configuration bundles and risers (R213). -/
def State.cfgErrors (s : State) (l : List (Bundle × SigErr)) : State :=
  State.each l (fun e t => match e.1 with
    | .cfg _ | .riser _ => t.wireErr e.1 e.2
    | _ => t) s

/-- The senders of frames to an island are held under back-pressure (R224). -/
def State.cfgHeld (s : State) (n : Nat) : Bool :=
  s.on (Hid.vbHeld n) || s.on (Hid.vbHeld (bunCode (.riser (s.riserOf n))))

/-- BUNDLE_CAL (R212, R226 to R231): the trims of a bundle are recalibrated with its walking-pattern test, which finds the wires
named failing. A wire found failing for the second time in a row is declared failed. `paused` says that the bundle had no idle
cycle for 100 ms and takes a pause. -/
def execBundleCal (b : Bundle) (failing : List WireErr) (paused : Bool) (s : State) : Host.Outcome State Fault Refusal :=
  let ws := failing.map (fun e => (⟨bunCode b, e.group, e.wire⟩ : Wire))
  let twice := failing.filter (fun e => s.walkFail.contains ⟨bunCode b, e.group, e.wire⟩)
  let s0 := s.wrFree (Hid.trims (bunCode b))
  let s1 := { s0 with walkFail := s.walkFail.filter (fun w => w.bundle != bunCode b) ++ ws }
  let s2 := if paused then s1.inc (Reg.CAL_ITEM_FORCED 1) 1 else s1
  .next ((State.each twice (State.wireFail b) s2).calDone 1 (bunCode b))

/-! ### Power-up (R232) -/

/-- Every bundle (R209). -/
def allBundles : List Bundle :=
  (List.finRange 80).map .cfg ++ (List.finRange 80).map .mr ++ [.riser 0, .riser 1, .hub 0, .hub 1, .hub 2, .hub 3, .svc, .peo, .col]

/-- A repair record is applied (R228, R232, R482): a failed wire, a fenced bundle, or a spare row of SRAM. Those of HBM ranks are
applied as the controller is enabled (R289). -/
def State.recApply (r : Nat) (s : State) : State :=
  if bits r 31 28 = 8 then
    let u := bits r 27 20
    (s.wr (Hid.ttSpares u) (max (s.rd (Hid.ttSpares u)) (bits r 19 15 + 1))).inc (Reg.SRM_BANK_REP_SPARES_USED (min u 80)) 1
  else match allBundles.find? (fun b => bunClass b == (bits r 31 28, bits r 27 20)) with
    | none => s
    | some b =>
      if bits r 5 4 = 1 then s.bunFence b (bits r 19 13)
      else if s.wireNew b ⟨bits r 19 13, bits r 12 6⟩ then s.wireOut b ⟨bits r 19 13, bits r 12 6⟩ else s

/-- A DEVICE reset applies fused records, then soft records, then what the bundle self-test finds, and calibrates every trim
(R212, R226, R232). A record held in both places counts once (R228). -/
def State.bundlesApply (s : State) (failing : List (Bundle × WireErr)) : State :=
  let recs := s.fusedRecs ++ s.records.filter (fun r => !s.fusedRecs.contains r)
  let s1 := State.each recs State.recApply s
  let s2 := State.each failing (fun e t => t.wireFail e.1 e.2) s1
  State.each allBundles (fun b t => t.wrFree (Hid.trims (bunCode b))) s2

/-- CONTENTION_GUARD (R224, R225, R233): the guard of a bidirectional group fires. The senders are held until the code
is legal again; the fourth time within 1 s fences the bundle. -/
def execContentionGuard (b : Bundle) (g : Fin 128) (s : State) : Host.Outcome State Fault Refusal :=
  .next (if bunGuarded b g && s.rd (bunMode b) != 2 then
      let l := (bunCode b, s.now) :: s.guards
      let near := (l.filter (fun p => p.1 == bunCode b && decide (s.now < p.2 + 4000000000))).length
      let s1 := ({ s with guards := l }.wr (bunContention b) 1).wr (bunLastGrp b) g
      let s2 := (s1.wr (Hid.vbHeld (bunCode b)) 1).bunEvent b 3
      if 4 ≤ near then (s2.bunRecordWrite b g 0 1).bunFence b g else s2
    else s)

/-- STEERING_REPAIR (R224): the direction code is legal again, and the senders of the bundle go on. -/
def execSteeringRepair (b : Bundle) (s : State) : Host.Outcome State Fault Refusal :=
  .next (s.wr (Hid.vbHeld (bunCode b)) 0)

/-! ### The Millrace (R215 to R220) -/

/-- Base address of row `row` of island bank `n`. -/
def rowAddr (n row : Nat) : Nat := 0x1000000000 + n * 0x300000 + row * 512

/-- The port accepts a request: the island is in RUN and not in a switch cycle, fewer than 16 are outstanding, the TAG is free,
and the bundle's senders are not held (R217, R220, R224). -/
def State.mrAccepts (s : State) (n tag : Nat) : Bool :=
  let q := Tab.getD s.mrQueue n []
  s.rd (Reg.ISL_STAT_STATE n) == 3 && decide (q.length < 16) && q.all (fun r => r.tag != tag)
    && !s.on (Hid.vbHeld (80 + n))

/-- The direction code in effect: 0 OFF, 1 L0, 2 UP, 3 TURN (R220, R222). -/
def State.mrCode (s : State) (n : Nat) : Nat := s.rd (Hid.mrDir n (s.rd (Reg.ISL_STAT_CUR_CTX n)))

/-- The cases in which a request is answered BUS_ERROR with no effect (R216). -/
def State.mrRefused (s : State) (n row : Nat) (wr : Bool) : Bool :=
  let d := s.mrCode n
  decide (6143 < row) || !s.on (Reg.ISL_MR_CTRL_EN n) || d == 0 || (wr && d == 2) || (!wr && d == 1)
    || s.on (Reg.ISL_STAT_MR_FENCE n)

/-- A response joins the queue of the island (R217). -/
def State.mrAnswer (s : State) (n : Nat) (r : MrResp) : State :=
  { s with mrQueue := Tab.set s.mrQueue n [] (Tab.getD s.mrQueue n [] ++ [r]) }

/-- ISL_MR_STAT: the direction code in effect and the requests outstanding (R234). -/
def State.mrStat (s : State) (n : Nat) : Nat := s.mrCode n * 2 ^ 8 + (Tab.getD s.mrQueue n []).length

/-- Read a row word by word: its bytes and the marks of the uncorrectable words (R219). -/
def State.readRowWords (s : State) (q : Req) (a : Nat) : List Byte × Nat × State :=
  (List.range 64).foldl (fun (acc : List Byte × Nat × State) w =>
    let (d, bad, t) := acc.2.2.readWord q (a + 8 * w)
    (acc.1 ++ leBytes 8 d, acc.2.1 + b2n bad * 2 ^ w, t)) ([], 0, s)

/-- Write the words of a row whose enable bit is set (R215, R217). -/
def State.writeRowWords (s : State) (q : Req) (a wen : Nat) (data : List DWord) : State :=
  State.each (setBits 64 wen) (fun w t => t.putWord q.key (a + 8 * w) (data.getD w 0).toNat) s

/-- What the port `n` does once the gate of its bank has answered. -/
def State.mrServe (n tag : Nat) (op : State → MrResp × State) : MRes × State → State
  | (.ok, t) => (((op t).2.mrAnswer n (op t).1).add (Reg.ISL_MR_ROWS n) 1).answer .ok []
  | (.held, t) => t.answer .held []
  | (_, t) => (t.mrAnswer n ⟨tag, [], 1, 0⟩).answer .ok []

/-- A request that the port has accepted and R216 does not refuse, at the bank: `op` gives the response and the state
after. A request that Peony or the bank refuses is answered BUS_ERROR; one that the bank holds is not taken. -/
def State.mrBank (s : State) (n row tag : Nat) (wr : Bool) (op : Req → Nat → State → MrResp × State) : State :=
  let q := s.req (.millrace (Fin.ofNat 80 n)) (s.rd (Reg.ISL_MR_CTRL_KEY n))
  let a := rowAddr n row
  match s.guard q wr a 512 with
  | some t => (t.mrAnswer n ⟨tag, [], 1, 0⟩).answer .ok []
  | none => State.mrServe n tag (op q a) (s.memGate q a 512)

/-- A request answered BUS_ERROR and counted (R216). -/
def State.mrBusErr (s : State) (n tag : Nat) : State :=
  ((s.inc (Reg.ISL_MR_BUSERR n) 1).mrAnswer n ⟨tag, [], 1, 0⟩).answer .ok []

/-- A request on the bundle: one whose own errors fence it ends with the transfers in flight (R230). -/
def State.mrCarried (s : State) (n row tag : Nat) (wr : Bool) (op : Req → Nat → State → MrResp × State) : State :=
  if s.on (Reg.ISL_STAT_MR_FENCE n) then s.mrBusErr n tag else s.mrBank n row tag wr op

/-- The port's part of a request: held off, refused, or passed to the bank. -/
def State.mrRequest (s : State) (n row tag : Nat) (bad wr : Bool) (errs : List SigErr)
    (op : Req → Nat → State → MrResp × State) : State :=
  if !s.mrAccepts n tag then s.answer .held []
  else if bad || s.mrRefused n row wr then s.mrBusErr n tag
  else (s.wireErrors (.mr (Fin.ofNat 80 n)) errs).mrCarried n row tag wr op

/-- MR_READ (R215 to R219): a row is read word by word under the key of the port; `errs` are the wire errors that the
transfer's checks correct (R213). A request with OP = 3 is `bad` (R216). -/
def execMrRead (n : Fin 80) (row : Fin 8192) (tag : Fin 16) (bad : Bool) (errs : List SigErr) (s : State) :
    Host.Outcome State Fault Refusal :=
  .next (s.mrRequest n row tag bad false errs (fun q a t =>
    let (bs, rue, u) := t.readRowWords q a
    (⟨tag, bs, if rue = 0 then 0 else 2, rue⟩, u.inc (Reg.ISL_MR_UE n) (popCount 64 rue))))

/-- MR_WRITE (R215 to R219): all 64 words of a row, each with new check bits. -/
def execMrWrite (n : Fin 80) (row : Fin 8192) (tag : Fin 16) (data : List DWord) (errs : List SigErr) (s : State) :
    Host.Outcome State Fault Refusal :=
  .next (s.mrRequest n row tag false true errs (fun q a t =>
    (⟨tag, [], 0, 0⟩, t.writeRowWords q a (2 ^ 64 - 1) data)))

/-- MR_WRITE_MASKED (R215 to R219): only the words whose WEN bit is 1. -/
def execMrWriteMasked (n : Fin 80) (row : Fin 8192) (tag : Fin 16) (wen : DWord) (data : List DWord)
    (errs : List SigErr) (s : State) : Host.Outcome State Fault Refusal :=
  .next (s.mrRequest n row tag false true errs (fun q a t =>
    (⟨tag, [], 0, 0⟩, t.writeRowWords q a wen.toNat data)))

/-- MR_RESPONSE (R217, R220): the oldest response is delivered to the fabric of the island, and discarded while the island is in
reset. -/
def execMrResponse (n : Fin 80) (s : State) : Host.Outcome State Fault Refusal :=
  .next (match Tab.getD s.mrQueue n [] with
    | [] => s
    | r :: rest =>
      let s1 := { s with mrQueue := Tab.set s.mrQueue n [] rest }
      if s.rd (Reg.ISL_STAT_STATE n) = 4 then s1 else s1.emit (.mrResp n r.tag r.rerr r.rue r.data))

end Sys2Proof.Machine
end

