-- ==== Sys2Proof/Machine/Sram.lean ====
section
/-! DEFINITION. The commands of the SRAM layer (chapter 8). -/

namespace Sys2Proof.Machine

/-- Read SRAM or HBM for a requester and answer it. -/
def State.readFor (s : State) (w : Requester) (key a n : Nat) : State :=
  let (bs, r, t) := s.memRead (s.req w key) a n
  match w, r with
  | .fabric _, .ue | .debug, .ue => t.answer .err []
  | .miller, .ue | .miller, .err => t.answer .err [5]
  | _, _ => t.answer r bs

/-- Write SRAM or HBM for a requester and answer it; a Miller core takes a bus error as a store access fault, cause 7 (R248,
R282). -/
def State.writeFor (s : State) (w : Requester) (key a : Nat) (bs : List Byte) : State :=
  let (r, t) := s.memWrite (s.req w key) a bs
  match w, r with
  | .miller, .err => t.answer .err [7]
  | _, _ => t.answer r []

/-- SRAM_READ (R245 to R247): the words that `n` bytes from the address touch are checked; correctable ones are
corrected and counted, uncorrectable ones logged and given to the reader as R247 assigns. `errs` are the wire errors of
the hub bundles that the transfer's checks correct (R213). -/
def execSramRead (w : Requester) (key : Fin 16) (addr n : Nat) (errs : List (Fin 4 × SigErr)) (s : State) :
    Host.Outcome State Fault Refusal :=
  .next (if isSram addr then (s.hubErrors errs).readFor w key addr n else s.answer .err [])

/-- SRAM_WRITE (R239, R241, R242): whole words, each with new check bits. -/
def execSramWrite (w : Requester) (key : Fin 16) (word : Nat) (data : List DWord) (errs : List (Fin 4 × SigErr)) (s : State) :
    Host.Outcome State Fault Refusal :=
  .next (if isSram (8 * word) then (s.hubErrors errs).writeFor w key (8 * word) (data.flatMap (fun d => leBytes 8 d.toNat))
    else s.answer .err [])

/-- SRAM_MERGE_WRITE (R239, R248): some bytes of words; each word is read, corrected and merged, or left untouched. -/
def execSramMergeWrite (w : Requester) (key : Fin 16) (addr : Nat) (data : List Byte) (errs : List (Fin 4 × SigErr)) (s : State) :
    Host.Outcome State Fault Refusal :=
  .next (if isSram addr then (s.hubErrors errs).writeFor w key addr data else s.answer .err [])

/-- The unit of an SRAM address: its island bank, or its hub sub-bank 80 + m (R235). -/
def srmUnit (a : Nat) : Nat :=
  if a < 0x100F000000 then (a - 0x1000000000) / 0x300000 else 80 + (a - 0x100F000000) / 512 % 4

/-- Background work of `n` cycles on an SRAM unit (R467): write-backs come first, and the other work waits for them. A percent of a
period is 1,000 cycles of the SRAM clock (R235). -/
def State.bankTake (s : State) (u n : Nat) (back : Bool) : Option State :=
  if !back && s.wback.any (fun w => isSram (8 * w) && srmUnit (8 * w) == u) then none else s.bgTake (2 + u) n 1000

/-- SRAM_WRITEBACK (R246, R467): the pending write-back of a corrected word; nothing where a write came first. -/
def execSramWriteback (word : Nat) (s : State) : Host.Outcome State Fault Refusal :=
  .next (if isSram (8 * word) && s.wback.contains word then
      match s.bankTake (srmUnit (8 * word)) 1 true with
      | none => s.answer .held []
      | some t => t.writeBackWord (8 * word)
    else s)

/-- SRAM_BUCKET_LEAK (R250): a bank's bucket leaks by 1. -/
def execSramBucketLeak (b : Fin 81) (s : State) : Host.Outcome State Fault Refusal :=
  .next (s.leak (Reg.SRM_BANK_LB_LEVEL b) (Reg.SRM_BANK_LB_TRIP b) (s.rd Reg.SRM_LB_CFG_THRESH))

/-! ### Raw test access (R251, R252) -/

/-- A raw access is legal: TEST_EN = 1, none in progress, an aligned SRAM word outside the secure and flow-table
regions. -/
def State.rawLegal (s : State) : Bool :=
  let a := s.rd Reg.SRM_TEST_ADDR
  s.on Reg.SRM_CTRL_TEST_EN && !s.on Reg.SRM_STAT_TEST_BUSY && a % 8 == 0 && isSram a
    && !(decide (secBase ≤ a) && decide (a < secBase + 0x600000))

/-- A raw access, granted as background work (R251, R467), or its rejection with event 133. -/
def State.raw (s : State) (code : Nat) (op : Nat → State → State) : State :=
  if s.rawLegal then
    match s.bankTake (srmUnit (s.rd Reg.SRM_TEST_ADDR)) 1 false with
    | none => s.answer .held []
    | some t => op (s.rd Reg.SRM_TEST_ADDR) t
  else (s.rejMark 0x090 code).srmEvt 5

/-- The stored check of a word. -/
def State.wordChk (s : State) (a : Nat) : Nat := codeOf 8 (s.wordStored a) ^^^ (s.wordInfo a).syn

/-- Give a word the stored form `v` and the stored check `c`, under the key that it has. -/
def State.putStored (s : State) (a v c : Nat) : State :=
  let i := s.wordInfo a
  (s.writeMem a (leBytes 8 (v ^^^ (sramPadOf i.epoch i.key a % 2 ^ 64)))).setWordInfo a
    { i with syn := c ^^^ codeOf 8 v }

/-- SRM_RAW_READ: the stored form and its check, uncorrected, counting no error. -/
def State.srmRawRead (s : State) : State :=
  s.raw 1 (fun a t => (t.wr Reg.SRM_TEST_DATA (t.wordStored a)).wr Reg.SRM_TEST_CHK_CHK (t.wordChk a))

/-- The command of that name (R251, R252). -/
def execSrmRawRead (s : State) : Host.Outcome State Fault Refusal := .next s.srmRawRead

/-- SRM_RAW_WR_DATA: the stored form; the stored check stays. -/
def State.srmRawWrData (s : State) : State :=
  s.raw 2 (fun a t => t.putStored a (t.rd Reg.SRM_TEST_DATA) (t.wordChk a))

/-- The command of that name (R251, R252). -/
def execSrmRawWrData (s : State) : Host.Outcome State Fault Refusal := .next s.srmRawWrData

/-- SRM_RAW_WR_CHK: the check; the data stay. -/
def State.srmRawWrChk (s : State) : State :=
  s.raw 3 (fun a t => t.putStored a (t.wordStored a) (t.rd Reg.SRM_TEST_CHK_CHK))

/-- The command of that name (R251, R252). -/
def execSrmRawWrChk (s : State) : Host.Outcome State Fault Refusal := .next s.srmRawWrChk

/-- SRM_RAW_WR_BOTH: data and check. -/
def State.srmRawWrBoth (s : State) : State :=
  s.raw 4 (fun a t => t.putStored a (t.rd Reg.SRM_TEST_DATA) (t.rd Reg.SRM_TEST_CHK_CHK))

/-- The command of that name (R251, R252). -/
def execSrmRawWrBoth (s : State) : Host.Outcome State Fault Refusal := .next s.srmRawWrBoth

/-- SRM_CLR_LOG (R261): the SRAM error log is cleared. -/
def State.srmClrLog (s : State) : State :=
  ((((((s.wr Reg.SRM_ERR_INFO_VALID 0).wr Reg.SRM_ERR_INFO_OVF 0).wr Reg.SRM_ERR_INFO_KIND 0).wr
    Reg.SRM_ERR_INFO_PATH 0).wr Reg.SRM_ERR_INFO_KEY 0).wr Reg.SRM_ERR_INFO_ID 0).wr Reg.SRM_ERR_ADDR 0

/-- SRM_CLR_LOG (R261). -/
def execSrmClrLog (s : State) : Host.Outcome State Fault Refusal := .next s.srmClrLog

/-- A write of SRM_CMD (R261). -/
def State.srmCmd (s : State) (code : Nat) : State :=
  match code with
  | 1 => s.srmRawRead
  | 2 => s.srmRawWrData
  | 3 => s.srmRawWrChk
  | 4 => s.srmRawWrBoth
  | 5 => s.srmClrLog
  | _ => (s.rejMark 0x090 code).srmEvt 5

/-! ### Transparent test (R253 to R255). A unit is an island bank 0 to 79 or hub sub-bank 80 + m. -/

/-- The register block instance of a unit: 80 for the hub. -/
def ttBank (u : Nat) : Nat := if u < 80 then u else 80

/-- Regions of a unit (R253). -/
def ttRegions (u : Nat) : Nat := if u < 80 then 384 else 512

/-- An SRAM address lies in region `r` of a unit: 16 consecutive rows of a bank, or of a hub sub-bank's own rows
(R235, R253). -/
def inRegion (u r a : Nat) : Bool :=
  if u < 80 then
    let b := 0x1000000000 + u * 0x300000 + r * 8192
    decide (b ≤ a) && decide (a < b + 8192)
  else
    let h := (a - 0x100F000000) / 512
    decide (0x100F000000 ≤ a) && h % 4 == u - 80 && h / 4 / 16 == r

/-- SRB_TT_REGION (R261): the named region is tested next. The hub's regions are numbered 512 m + r over its
sub-banks m (log entry 8). -/
def State.ttRegion (s : State) (b region : Nat) : State :=
  let ok := s.on (Reg.SRM_BANK_CTRL_TT_EN b) && s.rd (Reg.SRM_BANK_PSTAT_PSTATE b) == 0
    && decide (region < if b < 80 then 384 else 2048)
  let u := if b < 80 then b else 80 + region / 512
  let r := if b < 80 then region else region % 512
  if ok then ((s.wr (Hid.ttNext u) r).wr (Hid.ttNamed u) (s.rd (Hid.ttActive u))).wr (Reg.SRM_BANK_TT_REGION b) region
    else (s.rejMark (0x0A0 + b) 1).srmEvt 5

/-- SRB_TT_REGION (R261). -/
def execSrbTtRegion (b : Fin 81) (region : Fin 4096) (s : State) : Host.Outcome State Fault Refusal := .next (s.ttRegion b region)

/-- SRB_CLR_CNT (R261): CE, UE and the bucket's LEVEL are cleared; TRIP follows the level (R250). -/
def State.srbClrCnt (s : State) (b : Nat) : State :=
  (((s.wr (Reg.SRM_BANK_CE b) 0).wr (Reg.SRM_BANK_UE b) 0).wr (Reg.SRM_BANK_LB_LEVEL b) 0).wr (Reg.SRM_BANK_LB_TRIP b) 0

/-- SRB_CLR_CNT (R261). -/
def execSrbClrCnt (b : Fin 81) (s : State) : Host.Outcome State Fault Refusal := .next (s.srbClrCnt b)

/-- A write of SRM_BANK_CMD (R261). -/
def State.srbCmd (s : State) (b code region : Nat) : State :=
  match code with
  | 1 => s.ttRegion b region
  | 2 => s.srbClrCnt b
  | _ => (s.rejMark (0x0A0 + b) code).srmEvt 5

/-- The copy of one word to the save rows (R253): a correctable word is copied corrected, an uncorrectable one as it is,
counted and logged with KIND TEST (R249, R255). -/
def State.ttCopy (s : State) (a : Nat) : State :=
  match s.wordVerdict a with
  | .clean => s
  | .fix b =>
    let s1 := s.sramCe (bankOf a)
    let s2 := match b with
      | some i => s1.writeMem a (leBytes 8 (s1.word a ^^^ 2 ^ i))
      | none => s1
    s2.setWordInfo a { s.wordInfo a with syn := 0 }
  | .bad => s.sramBad 3 ⟨4, 3, 0, 0, false⟩ a

/-- A region test of a unit may begin (R253): TT_EN = 1, the bank is ON, none runs, and PERIOD us have passed since the last one
began. -/
def State.ttDue (s : State) (u : Nat) : Bool :=
  let b := ttBank u
  s.on (Reg.SRM_BANK_CTRL_TT_EN b) && s.rd (Reg.SRM_BANK_PSTAT_PSTATE b) == 0 && !s.on (Hid.ttActive u)
    && (!s.on (Hid.ttAt u) || decide (s.rd (Hid.ttAt u) + 4000 * s.rd Reg.SRM_TT_CFG_PERIOD ≤ s.now + 1))

/-- TT_REGION_START (R253, R467): the next region is copied to the save rows and marched, in 224 bank cycles of background work. The
owner sees its data throughout (R254), so only words in error change. -/
def execTtRegionStart (u : Fin 84) (s : State) : Host.Outcome State Fault Refusal :=
  let r := s.rd (Hid.ttNext u)
  .next (if !s.ttDue u then s
    else match s.bankTake u 224 false with
    | none => s.answer .held []
    | some t =>
      let ws := (s.info.filter (fun e => isSram (8 * e.1) && inRegion u r (8 * e.1) && e.2.syn != 0)).map (fun e => 8 * e.1)
      (((State.each ws (fun a t => t.ttCopy a) t).wr (Hid.ttActive u) 1).wr (Hid.ttCur u) r).wr (Hid.ttAt u) (s.now + 1))

/-- One row that fails the march (R255): mapped to a spare with a record and event 134, or left in service with
UNREPAIRED and event 131. -/
def State.rowFail (u row : Nat) (s : State) : State :=
  let n := s.rd (Hid.ttSpares u)
  let b := ttBank u
  if n < 32 then
    let s1 := (s.wr (Hid.ttSpares u) (n + 1)).inc (Reg.SRM_BANK_REP_SPARES_USED b) 1
    let s2 := (s1.repairRecord (8 * 2 ^ 28 + u * 2 ^ 20 + n * 2 ^ 15 + row)).getD s1
    s2.srmEvt 6
  else (s.wr (Reg.SRM_BANK_REP_UNREPAIRED b) 1).srmEvt 3

/-- TT_REGION_DONE (R253, R255): the march of the region under test ends with the failing rows named (0 to 15 in the
region); the save rows are copied back and the region is served from its own rows. -/
def execTtRegionDone (u : Fin 84) (failing : List (Fin 16)) (s : State) : Host.Outcome State Fault Refusal :=
  let b := ttBank u
  let r := s.rd (Hid.ttCur u)
  .next (if s.on (Hid.ttActive u) then
      let s1 := State.each failing (fun i t => t.rowFail u (16 * r + i)) s
      let wrap := decide (r + 1 ≥ ttRegions u)
      let nx := if s.on (Hid.ttNamed u) then s.rd (Hid.ttNext u) else if wrap then 0 else r + 1
      let s2 := ((s1.wr (Hid.ttActive u) 0).wr (Hid.ttNamed u) 0).wr (Hid.ttNext u) nx
      let s3 := s2.wr (Reg.SRM_BANK_TT_REGION b) (if u.val < 80 then nx else 512 * (u.val - 80) + nx)
      if wrap then s3.add (Reg.SRM_BANK_TT_PASSES b) 1 else s3
    else s)

/-! ### Retention (R256, R257) -/

/-- SRB_RET_ENTER: RET is written 1; an island bank stops granting and enters ENTERING; denied in the hub block. -/
def State.retEnter (s : State) (b : Nat) : State :=
  if b = 80 then s.deny 0x0F0
    else if s.bstOn 4 b then s.deny (0x0A0 + b)
    else
      let s1 := s.wr (Reg.SRM_BANK_CTRL_RET b) 1
      if s.rd (Reg.SRM_BANK_PSTAT_PSTATE b) = 0 then s1.wr (Reg.SRM_BANK_PSTAT_PSTATE b) 1 else s1

/-- SRB_RET_ENTER (R256). -/
def execSrbRetEnter (b : Fin 81) (s : State) : Host.Outcome State Fault Refusal := .next (s.retEnter b)

/-- RET_ENTERED: granted requests, write-backs and any region test are complete and the bank enters RET. -/
def execRetEntered (b : Fin 80) (s : State) : Host.Outcome State Fault Refusal :=
  let busy := s.on (Hid.ttActive b) || s.wback.any (fun w => isSram (8 * w) && bankOf (8 * w) == b)
  .next (if s.rd (Reg.SRM_BANK_PSTAT_PSTATE b) == 1 && !busy then s.wr (Reg.SRM_BANK_PSTAT_PSTATE b) 2 else s)

/-- RET is written 0: a bank in RET starts WAKING, whatever RET reads there. -/
def State.retExit (s : State) (b : Nat) : State :=
  let s1 := s.wr (Reg.SRM_BANK_CTRL_RET b) 0
  if s.rd (Reg.SRM_BANK_PSTAT_PSTATE b) = 2 then s1.wr (Reg.SRM_BANK_PSTAT_PSTATE b) 3 else s1

/-- SRB_RET_EXIT: RET is written 0, or a request arrives with AUTO_WAKE = 1, and a bank in RET starts WAKING. -/
def execSrbRetExit (b : Fin 80) (byRequest : Bool) (s : State) : Host.Outcome State Fault Refusal :=
  .next (if byRequest then
      if s.rd (Reg.SRM_BANK_PSTAT_PSTATE b) = 2 ∧ s.on (Reg.SRM_BANK_CTRL_AUTO_WAKE b) = true then
        (s.wr (Reg.SRM_BANK_PSTAT_PSTATE b) 3).wr (Hid.srbWait b) 1
      else s
    else s.retExit b)

/-- A write of SRM_BANK_CTRL: RING_SHARE, AUTO_WAKE and TT_EN, and RET (R241, R256). -/
def State.srbCtrl (s : State) (b w : Nat) : State :=
  let s1 := s.writeReg (0x0A0 + b) 0x008 (setBitsAt w 0 0 (s.rd (Reg.SRM_BANK_CTRL_RET b)))
  if bit w 0 then s1.retEnter b else s1.retExit b

/-- RET_WAKE_DONE: 12 us have elapsed; the bank is ON, RET reads 0 and waiting requests are served. -/
def execRetWakeDone (b : Fin 80) (s : State) : Host.Outcome State Fault Refusal :=
  .next (if s.rd (Reg.SRM_BANK_PSTAT_PSTATE b) = 3 then
      ((s.wr (Reg.SRM_BANK_PSTAT_PSTATE b) 0).wr (Reg.SRM_BANK_CTRL_RET b) 0).wr (Hid.srbWait b) 0
    else s)

/-! ### The secure region (R258, R259) -/

/-- Every SRAM word of a range is zero in stored form, with a valid check (R258, R458): it is taken out of the tables. -/
def State.zeroWords (s : State) (a n : Nat) : State :=
  { s with
    mem := Tab.delRange s.mem a (a + n)
    info := Tab.delRange s.info (a / 8) ((a + n) / 8)
    wback := s.wback.filter (fun w => !(decide (a / 8 ≤ w) && decide (w < (a + n) / 8))) }

/-- Every word of the secure region is zero in stored form (R258). -/
def State.wipeWords (s : State) : State := s.zeroWords secBase secSize

/-- A wipe that Peony commands begins (R258): WIPING is set for its duration. -/
def State.startWipe (s : State) : State := (s.wipeWords.wr Reg.SRM_STAT_WIPING 1)

/-- SECURE_WIPE (R258). -/
def execSecureWipe (s : State) : Host.Outcome State Fault Refusal := .next s.startWipe

/-- SECURE_WIPE_DONE (R258): WIPING clears, WIPE_CNT increments and event 132 is raised. -/
def execSecureWipeDone (s : State) : Host.Outcome State Fault Refusal :=
  .next (if s.on Reg.SRM_STAT_WIPING then
      ((s.wr Reg.SRM_STAT_WIPING 0).add Reg.SRM_SEC_WIPE_CNT 1).srmEvt 4
    else s)

end Sys2Proof.Machine
end

