-- ==== Sys2Proof/Machine/Hbm.lean ====
section
/-! DEFINITION. The commands of the HBM2E controller (chapter 9). -/

namespace Sys2Proof.Machine

/-- An address lies in HBM (R553). -/
def State.isHbm (s : State) (a : Nat) : Bool := decide (a < s.hbmTop)

/-- HBM_READ (R267 to R270, R278 to R281): the lines that `n` bytes from the address touch are checked under the
request's key; `errs` are the wire errors of the HBM column that the checks correct (R213). -/
def execHbmRead (w : Requester) (key : Fin 16) (addr n : Nat) (errs : List SigErr) (s : State) :
    Host.Outcome State Fault Refusal :=
  .next (if s.isHbm addr then (s.wireErrors .col errs).readFor w key addr n else s.answer .err [])

/-- HBM_WRITE (R277): whole lines, each stored scrambled under its key with its keyed check. -/
def execHbmWrite (w : Requester) (key : Fin 16) (line : Nat) (data : List (BitVec 256)) (errs : List SigErr) (s : State) :
    Host.Outcome State Fault Refusal :=
  .next (if s.isHbm (32 * line) then
      (s.wireErrors .col errs).writeFor w key (32 * line) (data.flatMap (fun d => leBytes 32 d.toNat))
    else s.answer .err [])

/-- HBM_MERGE (R282, R283): a write of any bytes; each line written in part is read, corrected and merged, or left
untouched. -/
def execHbmMerge (w : Requester) (key : Fin 16) (addr : Nat) (data : List Byte) (errs : List SigErr) (s : State) :
    Host.Outcome State Fault Refusal :=
  .next (if s.isHbm addr then (s.wireErrors .col errs).writeFor w key addr data else s.answer .err [])

/-- HBM_WRITEBACK (R281, R467): the pending write-back of a line corrected under a key; nothing where a write came first. It waits
where the background budget of the period is spent. -/
def execHbmWriteback (key : Fin 16) (line : Nat) (s : State) : Host.Outcome State Fault Refusal :=
  .next (if s.isHbm (32 * line) && s.wback.contains (key * 2 ^ 40 + s.place (32 * line) / 32) then
      match s.hbmSpend (s.rankOf (32 * line) % 16) 32 with
      | some t => t.writeBackLine key (32 * line)
      | none => s.answer .held []
    else s)

/-! ### Periods, refresh and temperature -/

/-- The rates of R83 in GB/s: Hopper's writes and Runner's reads. -/
def bwShare (bw : Nat) : Nat × Nat := if bw = 0 then (360, 16) else if bw = 1 then (180, 180) else (32, 340)

/-- HBM_SCHED_PERIOD (R22, R272, R288): a period of 1 us begins under the bandwidth mode of HBM_MODE and the background budget of
SCB_BUDGET; a running migration takes MIG_PCT percent of each share. -/
def execHbmSchedPeriod (s : State) : Host.Outcome State Fault Refusal :=
  let bw := s.rd Reg.HBM_MODE_BW
  let left := if s.on Reg.HBM_STAT_MIGRATING then 100 - s.rd Reg.HBM_MIG_CFG_MIG_PCT else 100
  let s1 := State.each (List.range 16) (fun i t => (t.wr (Hid.hbmBg i) 0).wr (Hid.hbmMigUsed i) 0)
    (s.wr Hid.hbmPct (s.rd Reg.SCB_BUDGET_PCT))
  .next ((((s1.wr Hid.hbmBw bw).add Hid.hbmPeriods 1).wr (Hid.hbmShare 0) ((bwShare bw).1 * left / 100)).wr
    (Hid.hbmShare 1) ((bwShare bw).2 * left / 100))

/-- The controller refreshes the core dies itself: from the end of bring-up until self-refresh (R290, R291). -/
def State.hbmLive (s : State) : Bool :=
  s.rd Reg.HBM_STAT_STATE == 2 || s.rd Reg.HBM_STAT_STATE == 3 || s.rd Reg.HBM_STAT_STATE == 4

/-- An all-bank refresh of a rank, which pays every bank's debt. -/
def State.refreshRank (s : State) (r : Nat) : State :=
  (State.each (List.range 16) (fun b t => t.wr (Hid.hbmDebt r b) 0) s).add (Hid.hbmRefs r) 1

/-- HBM_REFRESH (R274): the refresh of a bank falls due. In PER_BANK it runs, or is postponed, and a debt of 8 makes an
all-bank refresh of the rank; in ALL_BANK every refresh is all-bank. -/
def execHbmRefresh (r : Fin 48) (bank : Fin 16) (postponed : Bool) (s : State) : Host.Outcome State Fault Refusal :=
  .next (if !s.hbmLive then s
    else if s.on Reg.HBM_REF_CFG_MODE then s.refreshRank r
    else if postponed then
      if s.rd (Hid.hbmDebt r bank) + 1 = 8 then s.refreshRank r else s.add (Hid.hbmDebt r bank) 1
    else (s.wr (Hid.hbmDebt r bank) (s.rd (Hid.hbmDebt r bank) - 1)).add (Hid.hbmRefs r) 1)

/-- The reading of an HBM diode in units of 0.0625 °C: the prediction in place of it while the channel is SUSPECT or in FAULT (R275,
R509, R512). -/
def State.hbmDiode (s : State) (i : Nat) : Int :=
  toSigned 16 (s.rd (if s.on (Reg.AST_CH_STAT_SUSPECT i) || s.on (Reg.AST_CH_STAT_FAULT i) then Reg.AST_CH_TEMP_PRED i
    else Reg.AST_CH_TEMP_MEAS i))

/-- The highest of Aster's three HBM diodes in units of 0.0625 °C, not below 0 (R275, R507). -/
def State.hbmDiodes (s : State) : Nat := ([9, 10, 11].foldl (fun a i => max a (s.hbmDiode i)) 0).toNat

/-- HBM_TEMP_READ (R275): the core dies' readout is taken and HOT set at 85 degrees, cleared at 82. -/
def execHbmTempRead (die : Byte) (s : State) : Host.Outcome State Fault Refusal :=
  let t := max (16 * die.toNat) s.hbmDiodes
  let hot := if 16 * 85 ≤ t then true else if t ≤ 16 * 82 then false else s.on Reg.HBM_STAT_HOT
  let s1 := (s.wr Reg.HBM_TEMP_DIE_MAX die.toNat).wr Reg.HBM_TEMP_AST_MAX (min (s.hbmDiodes / 16) 255)
  let s2 := (s1.wr Reg.HBM_STAT_HOT (b2n hot)).wr Reg.HBM_TEMP_HOT (b2n hot)
  .next (if hot = s.on Reg.HBM_STAT_HOT then s2 else s2.hbmEvt 8)

/-- NEIGHBOUR_REFRESH (R276): a target row refresh that a draw at an activation has scheduled runs, and is counted. -/
def execNeighbourRefresh (i : Fin 16) (s : State) : Host.Outcome State Fault Refusal :=
  .next (match s.hbmLive, s.nrefs i with
    | true, _ :: l => ({ s with fifos := Tab.set s.fifos (80 + i.val) [] l } : State).inc (Reg.HBM_PC_NREF i) 1
    | _, _ => s)

/-! ### The trial of a line whose key is not known (R284) -/

/-- The line of a place: how it is stored, and the address whose masks check it. -/
def State.placeInfo (s : State) (p : Nat) : Info × Nat := ((Tab.find s.info (p / 32)).getD (s.fillInfo p), s.homeNow p)

/-- What the trial of all 16 key indices finds. -/
inductive Trial where
  | good | fix (key : Nat) | ambig | bad
deriving DecidableEq, Repr

/-- The trial: clean under exactly one key, or single-bit under exactly one and clean under none, or ambiguous, or a memory error. -/
def State.trial (s : State) (p : Nat) : Trial :=
  let (i, a) := s.placeInfo p
  let v (x : Nat) : Verdict := synVerdict (s.infoSyn i x a)
  let clean := (List.range 16).filter (fun x => v x == .clean)
  let one := (List.range 16).filter (fun x => v x != .clean && v x != .bad)
  match clean, one with
  | [_], _ => .good
  | [], [x] => .fix x
  | [], [] => .bad
  | _, _ => .ambig

/-- Set how the line at a place is stored. -/
def State.setPlaceInfo (s : State) (p : Nat) (i : Info) : State :=
  { s with
    info := Tab.set s.info (p / 32) (s.fillInfo p) i
    wback := s.wback.filter (fun w => w % 2 ^ 40 != p / 32) }

/-- The line at a place corrected under key index `x`. -/
def State.fixUnder (s : State) (p x : Nat) : State :=
  let (i, a) := s.placeInfo p
  let y := s.infoSyn i x a
  (s.fixPlace p (synVerdict y)).setPlaceInfo p { i with syn := i.syn ^^^ y }

/-- The request under which background work logs (R249, R279): path background. -/
def bgReq : Req := ⟨4, 3, 0, 0, false⟩

/-- The record of a memory error that the scrub or a copy finds at a place: the address is open where no address in
force names the line. -/
def State.placeBad (s : State) (kind p : Nat) : State :=
  let (i, a) := s.placeInfo p
  if a < 2 ^ 48 then s.hbmBad bgReq kind (p / 2 ^ 29) a (s.infoSyn i 0 a) false
  else
    let f := s.fresh
    f.2.hbmBad bgReq kind (p / 2 ^ 29) (32 * f.1) (s.infoSyn i 0 a) false

/-- A write-back of a corrected line waits in the pseudo-channel of a place; it goes before the patrol scrub (R467). -/
def State.wbackWaits (s : State) (i : Nat) : Bool :=
  s.wback.any (fun w => decide (w % 2 ^ 40 < 48 * 2 ^ 24) && w % 2 ^ 40 / 2 ^ 24 % 16 == i)

/-- The scrub of the line at a place: read under all keys and corrected, counted or logged. -/
def State.scrubPlace (s : State) (p : Nat) : State :=
  match s.trial p with
  | .good => s
  | .fix x => (s.hbmCe (p / 2 ^ 29)).fixUnder p x
  | .ambig => s.inc Reg.HBM_SCRUB_AMBIG 1
  | .bad => (s.placeBad 2 p).inc Reg.HBM_SCRUB_UE 1

/-- PATROL_SCRUB_LINE (R272, R284, R467): with the scrub enabled, the controller READY and no migration, the next line of the pass is
read under all keys and corrected, counted or logged. It waits where the background budget of the period is spent, and behind a
write-back. -/
def execPatrolScrubLine (s : State) : Host.Outcome State Fault Refusal :=
  let ptr := s.rd Hid.hbmScrubPtr
  let p := 32 * ptr
  let i := p / 2 ^ 29 % 16
  .next (if s.on Reg.HBM_SCRUB_CTRL_EN && s.rd Reg.HBM_STAT_STATE == 3 && !s.on Reg.HBM_STAT_MIGRATING then
      if s.wbackWaits i then s.answer .held []
      else match s.hbmSpend i 32 with
      | none => s.answer .held []
      | some t =>
        let s1 := (t.activate i).scrubPlace p
        if ptr + 1 = 48 * 2 ^ 24 then (s1.wr Hid.hbmScrubPtr 0).add Reg.HBM_SCRUB_STAT_PASSES 1
        else s1.wr Hid.hbmScrubPtr (ptr + 1)
    else s)

/-- HBM_BUCKET_LEAK (R285): a rank's bucket leaks by 1. -/
def execHbmBucketLeak (r : Fin 48) (s : State) : Host.Outcome State Fault Refusal :=
  .next (s.leak (Reg.HBM_PC_LB_LEVEL (r % 16) (r / 16)) (Reg.HBM_PC_LB_TRIP (r % 16) (r / 16))
    (s.rd Reg.HBM_LB_CFG_THRESH))

/-! ### Migration (R286 to R288) -/

/-- The spare that serves a rank under the sparing mode, if it is free and usable (R286). -/
def State.spareFor (s : State) (r : Nat) : Option Nat :=
  let m := s.rd Hid.hbmSpareNow
  if m = 0 then none
  else
    let sp := if m = 2 then 32 + r % 16 else 35 + 4 * (r % 16 / 4)
    if s.rd (Reg.HBM_RANK_ROLE sp) = 1 ∧ s.on (Reg.HBM_RANK_BAD sp) = false then some sp else none

/-- A migration from rank `r` to spare `sp` begins (R287 step 1). -/
def State.migrate (s : State) (r sp : Nat) : State :=
  let s1 := ((if s.bstOn 6 sp then s.bstAborted else s).recBegin.wr (Hid.hbmMigQueue r) 0).wr Reg.HBM_STAT_MIGRATING 1
  let s2 := ((s1.wr Reg.HBM_MIG_STAT_ACTIVE 1).wr Reg.HBM_MIG_STAT_SRC r).wr Reg.HBM_MIG_STAT_DST sp
  (((s2.wr Reg.HBM_MIG_STAT_PROGRESS 0).wr Hid.hbmMigPtr 0).wr Reg.HBM_SCRUB_STAT_PAUSED 1).hbmEvt 3

/-- MIGRATION_START (R286, R287): an automatic migration that has fallen due begins, where none runs; event 141 where
no spare is available. -/
def execMigrationStart (r : Fin 48) (s : State) : Host.Outcome State Fault Refusal :=
  .next (if s.on (Hid.hbmMigQueue r) && !s.on Reg.HBM_STAT_MIGRATING && s.rd Reg.HBM_STAT_STATE == 3 then
      match s.spareFor r with
      | some sp => s.migrate r sp
      | none => (s.wr (Hid.hbmMigQueue r) 0).hbmEvt 5
    else s)

/-- The copy of one line from place `p` to place `d` as it is stored (R287 step 2). -/
def State.copyPlace (s : State) (p d : Nat) : State :=
  let i := (s.placeInfo p).1
  let bs := s.readMem p 32
  let t := s.writeMem d bs
  { t with info := Tab.set t.info (d / 32) (t.fillInfo d) i }

/-- The copy moves a line between two pseudo-channels, where MIG_PCT percent of the period is not spent in either (R288). -/
def State.migSpend (s : State) (i j : Nat) : Option State :=
  let t := (s.add (Hid.hbmMigUsed i) 32).add (Hid.hbmMigUsed j) 32
  let most := 288 * s.rd Reg.HBM_MIG_CFG_MIG_PCT
  if t.rd (Hid.hbmMigUsed i) ≤ most ∧ t.rd (Hid.hbmMigUsed j) ≤ most then some t else none

/-- MIGRATION_COPY_LINE (R287, R288): the line at the copy pointer is corrected where the trial allows, copied, and the
pointer advances. It waits where the share of the copy in the period is spent. -/
def execMigrationCopyLine (s : State) : Host.Outcome State Fault Refusal :=
  let ptr := s.rd Hid.hbmMigPtr
  let p := s.rd Reg.HBM_MIG_STAT_SRC * 2 ^ 29 + 32 * ptr
  let d := s.rd Reg.HBM_MIG_STAT_DST * 2 ^ 29 + 32 * ptr
  let i := p / 2 ^ 29 % 16
  let j := d / 2 ^ 29 % 16
  .next (if s.on Reg.HBM_STAT_MIGRATING && decide (ptr < 2 ^ 24) then
      match s.migSpend i j with
      | none => s.answer .held []
      | some t0 =>
        let t := (t0.activate i).activate j
        let s1 := match t.trial p with
          | .good | .ambig => t
          | .fix x => (t.hbmCe (p / 2 ^ 29)).fixUnder p x
          | .bad => t.placeBad 3 p
        ((s1.copyPlace p d).wr Hid.hbmMigPtr (ptr + 1)).wr Reg.HBM_MIG_STAT_PROGRESS ((ptr + 1) / 2 ^ 16)
    else s)

/-- MIGRATION_DONE (R287 steps 4 and 5): every line is copied; the spare serves the rank, which is RETIRED, a record is
written, and the recovery ends. -/
def execMigrationDone (s : State) : Host.Outcome State Fault Refusal :=
  let r := s.rd Reg.HBM_MIG_STAT_SRC
  let sp := s.rd Reg.HBM_MIG_STAT_DST
  .next (if s.on Reg.HBM_STAT_MIGRATING && s.rd Hid.hbmMigPtr == 2 ^ 24 then
      let s1 := ((s.wr (Reg.HBM_RANK_PHYS r) sp).wr (Reg.HBM_RANK_ROLE r) 3).wr (Reg.HBM_RANK_ROLE sp) 2
      let s2 := (s1.repairRecord (9 * 2 ^ 28 + r * 2 ^ 22 + sp * 2 ^ 16)).getD s1
      let s3 := ((s2.wr Reg.HBM_STAT_MIGRATING 0).wr Reg.HBM_MIG_STAT_ACTIVE 0).wr Reg.HBM_SCRUB_STAT_PAUSED 0
      (s3.hbmEvt 4).recEnd 0
    else s)

/-! ### Enable and bring-up (R290, R291) -/

/-- What the controller samples as it is enabled (R22, R270). -/
def State.hbmSample (s : State) : State :=
  let s1 := (s.wr Hid.hbmSpareNow (s.rd Reg.HBM_MODE_SPARE)).wr Hid.hbmPreset (s.rd Reg.HBM_MAP_PRESET)
  State.each (List.range 4) (fun j t =>
    (t.wr (Hid.hbmPcx j) (t.rd (Reg.HBM_MAP_PCX_MASK j))).wr (Hid.hbmBkx j) (t.rd (Reg.HBM_MAP_BKX_MASK j))) s1

/-- The first `n` lines of the core dies, by place, are zero lines under key index 0, at the addresses of the mapping in force
(R290). -/
def State.hbmFillTo (s : State) (n : Nat) : State :=
  let s1 := { s with
    mem := Tab.delRange s.mem 0 (32 * n)
    info := Tab.delRange s.info 0 n
    wback := s.wback.filter (fun w => decide (n ≤ w % 2 ^ 40)) }
  let s2 := (s1.wr Hid.hbmFillEpoch (s.rd Hid.keyEpoch)).wr Hid.hbmFillSpare (s.rd Hid.hbmSpareNow)
  let s3 := State.each (List.range 4) (fun j t => (t.wr (Hid.hbmFillPcx j) (s.pcx j)).wr (Hid.hbmFillBkx j) (s.bkx j)) s2
  let s4 := State.each (List.range 48) (fun r t => t.wr (Hid.hbmFillPhys r) (s.rd (Reg.HBM_RANK_PHYS r))) s3
  s4.wr Hid.hbmFillTo (max (s.rd Hid.hbmFillTo) n)

/-- A fill stops after the line in progress (R290): how far it has come is open. -/
def State.hbmFillStop (s : State) : State :=
  let f := s.fresh
  f.2.hbmFillTo (f.1 % (48 * 2 ^ 24))

/-- EN is written 1. -/
def State.hbmEnable (s : State) : State :=
  let st := s.rd Reg.HBM_STAT_STATE
  if s.bstIs 5 then s.deny 0x020
  else if st = 0 then ((s.wr Reg.HBM_CTRL_EN 1).hbmSample).wr Reg.HBM_STAT_STATE 1
  else if st = 1 then (s.wr Reg.HBM_CTRL_EN 1).wr Hid.hbmHeldOff 0
  else if st = 4 ∨ st = 5 then s.deny 0x020
  else s

/-- EN is written 0. -/
def State.hbmDisable (s : State) : State :=
  let st := s.rd Reg.HBM_STAT_STATE
  if s.on Reg.HBM_STAT_MIGRATING || s.bstIs 6 then s.deny 0x020
  else if st = 1 then (s.wr Reg.HBM_CTRL_EN 0).wr Hid.hbmHeldOff 1
  else if st = 2 then ((s.hbmFillStop.wr Reg.HBM_CTRL_EN 0).wr Reg.HBM_STAT_STATE 4).wr Reg.HBM_SCRUB_STAT_PAUSED 0
  else if st = 3 then (s.wr Reg.HBM_CTRL_EN 0).wr Reg.HBM_STAT_STATE 4
  else if st = 5 then (s.wr Reg.HBM_CTRL_EN 0).wr Reg.HBM_STAT_STATE 0
  else s

/-- A write of HBM_CTRL: INIT_FILL by the state before, then EN (R290, R296). -/
def State.hbmCtrlWrite (s : State) (w : Nat) : State :=
  let s1 :=
    if w / 2 % 2 = s.rd Reg.HBM_CTRL_INIT_FILL then s
    else if s.rd Reg.HBM_STAT_STATE = 0 then s.wr Reg.HBM_CTRL_INIT_FILL (w / 2)
    else s.deny 0x020
  if bit w 0 then s1.hbmEnable else s1.hbmDisable

/-- HBM_ENABLE (R290): HBM_CTRL is written with EN = 1. -/
def execHbmEnable (initFill : Bool) (s : State) : Host.Outcome State Fault Refusal :=
  .next (s.hbmCtrlWrite (1 + 2 * b2n initFill))

/-- HBM_DISABLE (R290): HBM_CTRL is written with EN = 0. -/
def execHbmDisable (initFill : Bool) (s : State) : Host.Outcome State Fault Refusal :=
  .next (s.hbmCtrlWrite (2 * b2n initFill))

/-- The roles and serving ranks that the sparing mode and the records give (R265, R289). -/
def State.applyRankRecs (s : State) : State :=
  let m := s.rd Hid.hbmSpareNow
  let role (r : Nat) : Nat := if (m = 2 ∧ 32 ≤ r) ∨ (m = 1 ∧ 35 ≤ r ∧ r % 4 = 3) then 1 else 0
  let s1 := State.each (List.range 48) (fun r t => (t.wr (Reg.HBM_RANK_ROLE r) (role r)).wr (Reg.HBM_RANK_PHYS r) r) s
  State.each s.rankRecs (fun p t =>
    if p.1 = p.2 then t.wr (Reg.HBM_RANK_BAD p.1) 1
    else ((t.wr (Reg.HBM_RANK_PHYS p.1) p.2).wr (Reg.HBM_RANK_ROLE p.1) 3).wr (Reg.HBM_RANK_ROLE p.2) 2) s1

/-- HBM_TRAINING_DONE (R289 to R291): bring-up completes with the margins named; the rank records are applied, and the
controller goes to DRAINING where an EN = 0 write is held, to FILLING where a fill is due, otherwise to READY. -/
def execHbmTrainingDone (margins : List (Byte × Byte)) (s : State) : Host.Outcome State Fault Refusal :=
  .next (if s.rd Reg.HBM_STAT_STATE = 1 then
      let s1 := State.each (List.range 16) (fun i t =>
        let m := margins.getD i (0, 0)
        ((t.wr (Reg.HBM_PC_TRAIN_PASS i) 1).wr (Reg.HBM_PC_TRAIN_RD_MARGIN i) m.1.toNat).wr
          (Reg.HBM_PC_TRAIN_WR_MARGIN i) m.2.toNat) s
      let s2 := (s1.applyRankRecs).wr Hid.hbmSelfRef 0
      if s.on Hid.hbmHeldOff then (s2.wr Hid.hbmHeldOff 0).wr Reg.HBM_STAT_STATE 4
      else if !s.on Reg.HBM_STAT_FILLED && s.on Reg.HBM_CTRL_INIT_FILL then
        (s2.wr Reg.HBM_STAT_STATE 2).wr Reg.HBM_SCRUB_STAT_PAUSED 1
      else s2.wr Reg.HBM_STAT_STATE 3
    else s)

/-- HBM_TRAINING_FAULT (R290, R291): a step of bring-up fails, with 1 ID, 2 LANE or 3 TRAIN. For TRAIN, `margins` names what training
has found for each pseudo-channel: its margins, or no passing point. -/
def execHbmTrainingFault (cause : Fin 3) (margins : List (Option (Byte × Byte))) (s : State) : Host.Outcome State Fault Refusal :=
  .next (if s.rd Reg.HBM_STAT_STATE = 1 then
      let s0 := if cause.val ≠ 2 then s else State.each (List.range 16) (fun i t =>
        let m := margins.getD i none
        ((t.wr (Reg.HBM_PC_TRAIN_PASS i) (b2n m.isSome)).wr (Reg.HBM_PC_TRAIN_RD_MARGIN i) (m.getD (0, 0)).1.toNat).wr
          (Reg.HBM_PC_TRAIN_WR_MARGIN i) (m.getD (0, 0)).2.toNat) s
      let s1 := (s0.wr Reg.HBM_STAT_FAULT (cause + 1)).wr Reg.HBM_STAT_STATE (if s.on Hid.hbmHeldOff then 0 else 5)
      (s1.wr Hid.hbmHeldOff 0).hbmEvt 7
    else s)

/-- HBM_FILL_DONE (R290): every line of every rank is written, and the controller is READY. -/
def execHbmFillDone (s : State) : Host.Outcome State Fault Refusal :=
  .next (if s.rd Reg.HBM_STAT_STATE = 2 then
      (((s.hbmFillTo (48 * 2 ^ 24)).wr Reg.HBM_STAT_FILLED 1).wr Reg.HBM_STAT_STATE 3).wr Reg.HBM_SCRUB_STAT_PAUSED 0
    else s)

/-- HBM_DRAIN_DONE (R271, R290): accepted requests are complete; the core dies go to self-refresh and keep their contents. -/
def execHbmDrainDone (s : State) : Host.Outcome State Fault Refusal :=
  .next (if s.rd Reg.HBM_STAT_STATE = 4 then
      let s1 := { s with fifos := Tab.delRange s.fifos 64 80 }
      (s1.wr Reg.HBM_STAT_STATE 0).wr Hid.hbmSelfRef 1
    else s)

/-! ### Commands (R293) -/

/-- A command of the controller out of its legal states (R10, R293). -/
def State.hbmReject (s : State) (code : Nat) : State :=
  (s.rejMark 0x020 code).hbmEvt 6

/-- MIGRATE. -/
def State.hbmMigrate (s : State) (r : Nat) : State :=
  let role := s.rd (Reg.HBM_RANK_ROLE r)
  match s.spareFor r with
  | some sp =>
    if s.rd Reg.HBM_STAT_STATE = 3 ∧ s.on Reg.HBM_STAT_MIGRATING = false ∧ r < 48 ∧ (role = 0 ∨ role = 2) then s.migrate r sp
    else s.hbmReject 1
  | none => s.hbmReject 1

/-- HBM_MIGRATE (R293): MIGRATE starts a migration of the named rank where it is legal. -/
def execHbmMigrate (r : Fin 64) (s : State) : Host.Outcome State Fault Refusal := .next (s.hbmMigrate r)

/-- CLR_LOG. -/
def State.hbmClrLog (s : State) : State :=
  [Reg.HBM_ERRLOG_INFO_VALID, Reg.HBM_ERRLOG_INFO_OVF, Reg.HBM_ERRLOG_INFO_KIND, Reg.HBM_ERRLOG_INFO_KMIS,
    Reg.HBM_ERRLOG_INFO_KEY_V, Reg.HBM_ERRLOG_INFO_RANK, Reg.HBM_ERRLOG_INFO_KEY, Reg.HBM_ERRLOG_INFO_PATH,
    Reg.HBM_ERRLOG_INFO_ID, Reg.HBM_ERRLOG_ADDR, Reg.HBM_ERRLOG_SYN_SC, Reg.HBM_ERRLOG_SYN_SR].foldl (fun t f => t.wr f 0) s

/-- HBM_CLR_LOG (R293): the HBM error log is cleared. -/
def execHbmClrLog (s : State) : Host.Outcome State Fault Refusal := .next s.hbmClrLog

/-- CLR_CNT: the counters of every pseudo-channel and the scrub's, and every bucket's LEVEL; TRIP follows the level (R285). -/
def State.hbmClrCnt (s : State) : State :=
  let s1 := State.each (List.range 16) (fun i t =>
    (((t.wr (Reg.HBM_PC_CE i) 0).wr (Reg.HBM_PC_UE i) 0).wr (Reg.HBM_PC_KMIS i) 0).wr (Reg.HBM_PC_NREF i) 0) s
  let s2 := State.each (List.range 48) (fun r t =>
    (t.wr (Reg.HBM_PC_LB_LEVEL (r % 16) (r / 16)) 0).wr (Reg.HBM_PC_LB_TRIP (r % 16) (r / 16)) 0) s1
  (s2.wr Reg.HBM_SCRUB_AMBIG 0).wr Reg.HBM_SCRUB_UE 0

/-- HBM_CLR_CNT (R293): the counters and bucket levels are cleared. -/
def execHbmClrCnt (s : State) : Host.Outcome State Fault Refusal := .next s.hbmClrCnt

/-- A write of HBM_CMD. -/
def State.hbmCmd (s : State) (code r : Nat) : State :=
  if code = 1 then s.hbmMigrate r else if code = 2 then s.hbmClrLog else if code = 3 then s.hbmClrCnt
  else s.hbmReject code

end Sys2Proof.Machine
end

