-- ==== Sys2Proof/Machine/Hopper.lean ====
section
/-! DEFINITION. Hopper: pipelines, records, the elastic buffer, and the capture files (chapter 3, R63 to R84). -/

namespace Sys2Proof.Machine

/-! ### Match inputs (R69, R85) -/

/-- Match input `i` under given tap levels of the islands. -/
def State.matchIn (s : State) (taps : Nat → Nat) (i : Nat) : Bool :=
  s.on (Reg.LAN_MSEL_EN i) && bit (taps (s.rd (Reg.LAN_MSEL_ISLAND i))) (s.rd (Reg.LAN_MSEL_TAP i))

/-- The match input that selector `j` of pipeline `q` names (R69). -/
def State.fsel (s : State) (q j : Nat) : Nat :=
  match j with
  | 0 => s.rd (Reg.HOP_FSEL0_J0 q) | 1 => s.rd (Reg.HOP_FSEL0_J1 q)
  | 2 => s.rd (Reg.HOP_FSEL0_J2 q) | 3 => s.rd (Reg.HOP_FSEL0_J3 q)
  | 4 => s.rd (Reg.HOP_FSEL1_J0 q) | 5 => s.rd (Reg.HOP_FSEL1_J1 q)
  | 6 => s.rd (Reg.HOP_FSEL1_J2 q) | 7 => s.rd (Reg.HOP_FSEL1_J3 q)
  | 8 => s.rd (Reg.HOP_FSEL2_J0 q) | 9 => s.rd (Reg.HOP_FSEL2_J1 q)
  | 10 => s.rd (Reg.HOP_FSEL2_J2 q) | 11 => s.rd (Reg.HOP_FSEL2_J3 q)
  | 12 => s.rd (Reg.HOP_FSEL3_J0 q) | 13 => s.rd (Reg.HOP_FSEL3_J1 q)
  | 14 => s.rd (Reg.HOP_FSEL3_J2 q) | _ => s.rd (Reg.HOP_FSEL3_J3 q)

/-- The selected inputs of a pipeline that are asserted under given tap levels, bit j for selector j. -/
def State.seenOf (s : State) (q : Nat) (taps : Nat → Nat) : Nat :=
  (List.range 16).foldl (fun a j => a + b2n (s.matchIn taps (s.fsel q j)) * 2 ^ j) 0

/-- The tap levels now. -/
def State.taps (s : State) (n : Nat) : Nat := s.rd (Reg.ISL_TAP_LIVE n)

/-- Inputs that are asserted now are seen by the rows in every pipeline's delay and by its open record (R69). -/
def State.hopSee (s : State) : State :=
  State.each [0, 1, 2, 3] (fun q t =>
    let m := s.seenOf q s.taps
    let d := (Tab.getD t.hopDelay q []).map (fun r => { r with seen := r.seen ||| m })
    let o := match Tab.find t.hopOpen q with
      | some r => Tab.put t.hopOpen q { r with seen := r.seen ||| m }
      | none => t.hopOpen
    { t with hopDelay := Tab.set t.hopDelay q [] d, hopOpen := o }) s

/-! ### Records (R64 to R72) -/

/-- A record with nothing in it yet, opened at a row. -/
def newRec (kind : Nat) (r : PRow) (width : Nat) : Rec :=
  { ts := r.time, kind := kind, payload := [], orig := 0, rows := 0, hdrErr := false, ctlErr := false, abort := false,
    dropped := false, sliced := false, trunc := false, tag := 0, flow := 0, first := r.num, width := width, seen := 0,
    rseq := 0, gap := 0, file := 0, order := 0, pos := 0 }

/-- Bytes join a record's payload. -/
def Rec.take (r : Rec) (bs : List Byte) : Rec :=
  { r with payload := (r.payload ++ bs).take 65504, orig := r.orig + bs.length }

/-- A sync header is invalid (R33). -/
def badHdr (h : Nat) : Bool := h == 0 || h == 3

/-- A row in row format: the word of sync headers, then the payloads (R65). -/
def rowBytes (r : PRow) : List Byte :=
  let h := (List.range r.slots.length).foldl (fun a k => a + (match r.slots[k]? with | some x => x.hdr % 4 | none => 0) * 4 ^ k) 0
  leBytes 4 h ++ r.slots.flatMap (fun x => leBytes 8 x.payload.toNat)

/-- A row joins a record in row format. -/
def Rec.takeRow (r : Rec) (d : DRow) : Rec :=
  let r1 := r.take (rowBytes d.row)
  { r1 with rows := r.rows + 1, seen := r.seen ||| d.seen, hdrErr := r.hdrErr || d.row.slots.any (fun x => badHdr x.hdr) }

/-- Data characters of a terminate block type, none for any other type (R66). -/
def termChars : Nat → Option Nat
  | 0x87 => some 0 | 0x99 => some 1 | 0xAA => some 2 | 0xB4 => some 3
  | 0xCC => some 4 | 0xD2 => some 5 | 0xE1 => some 6 | 0xFF => some 7
  | _ => none

/-- The filter of a pipeline passes a record's MATCH (R69). -/
def State.filterPass (s : State) (q m : Nat) : Bool :=
  !s.on (Reg.HOP_PORT_CFG_FILT_EN q)
    || (List.range 8).any (fun t =>
      let rq := s.rd (Reg.HOP_FTERM_REQ q t)
      let ng := s.rd (Reg.HOP_FTERM_NEG q t)
      (rq ||| ng) != 0 && (m &&& rq) == rq && (m &&& ng) == 0)

/-- Slice and truncate a closed record (R70). -/
def State.cutRec (s : State) (q : Nat) (r : Rec) : Rec :=
  let n := s.rd (Reg.HOP_PORT_LEN_SLICE q)
  let sl := r.kind == 1 && n != 0 && decide (n < r.orig)
  let l := if sl then n else r.orig
  let mx := s.rd (Reg.HOP_PORT_LEN_MAX_LEN q)
  { r with payload := r.payload.take (min l mx), sliced := sl, trunc := decide (mx < l) }

/-- File space that a record takes: its header and its stored payload. -/
def Rec.space (r : Rec) : Nat := 32 + r.payload.length

/-! ### Headers (R72, R74) -/

/-- The 32-byte header of four words with its HCHK. -/
def sealHdr (w0 w1 w2 w3 : Nat) : List Byte :=
  let b := (leBytes 8 w0 ++ leBytes 8 w1 ++ leBytes 8 w2 ++ leBytes 8 w3).take 31
  b ++ [BitVec.ofNat 8 (crc8 b)]

/-- The header of a record of port `q`; `trig` marks the trigger record. -/
def recHdr (q : Nat) (r : Rec) (trig : Bool) : List Byte :=
  let fv := decide (3 ≤ r.flow)
  sealHdr (r.ts % 2 ^ 64)
    (r.payload.length + min r.orig 65535 * 2 ^ 16 + q * 2 ^ 32 + r.kind * 2 ^ 34 + b2n r.sliced * 2 ^ 36
      + b2n r.trunc * 2 ^ 37 + b2n r.hdrErr * 2 ^ 38 + b2n r.ctlErr * 2 ^ 39 + b2n r.abort * 2 ^ 40 + b2n trig * 2 ^ 41
      + b2n (r.gap != 0) * 2 ^ 42 + b2n fv * 2 ^ 43 + (if fv then (r.flow - 3) % 4096 else 0) * 2 ^ 44
      + r.width % 256 * 2 ^ 56)
    (r.rseq % 2 ^ 32 + r.seen % 65536 * 2 ^ 32 + min r.gap 65535 * 2 ^ 48)
    (r.tag % 2 ^ 32 + 2 ^ 48)

/-- The header of a PAD record whose payload reaches the end of its block (R74). -/
def padHdr (cap : Nat) : List Byte := sealHdr 0 (cap % 65536 + 2 * 2 ^ 34) 0 (2 ^ 48)

/-! ### The elastic buffer (R73, R237) -/

/-- The first address of pipeline `q`'s region in the hub bank (R237). -/
def hopRegion (q : Nat) : Nat := 0x100F600000 + 0x200000 * q

/-- Write bytes from offset `o` of a region on, going on at its start past its end. Hopper uses key index 0 (log entry 75). -/
def State.bufWrite (s : State) (q o : Nat) (bs : List Byte) : MRes × State :=
  let n := min bs.length (0x200000 - o)
  match s.memWrite (s.req .hopper 0) (hopRegion q + o) (bs.take n) with
  | (.ok, t) => if n < bs.length then t.memWrite (t.req .hopper 0) (hopRegion q) (bs.drop n) else (.ok, t)
  | (r, t) => (r, t)

/-- Read `n` bytes from offset `o` of a region on. -/
def State.bufRead (s : State) (q o n : Nat) : List Byte × MRes × State :=
  let m := min n (0x200000 - o)
  match s.memRead (s.req .hopper 0) (hopRegion q + o) m with
  | (bs, .ok, t) =>
    if m < n then
      match t.memRead (t.req .hopper 0) (hopRegion q) (n - m) with
      | (cs, r, u) => (bs ++ cs, r, u)
    else (bs, .ok, t)
  | (bs, r, t) => (bs, r, t)

/-- A record that has passed is numbered and its bytes are placed in its region, or it is dropped whole (R72, R73). GAP and
DROPPED are found when it is stored. -/
def State.stage (s : State) (q f : Nat) (r : Rec) : State :=
  let o := s.rd (Hid.hopWp q)
  let r1 := { r with rseq := s.rd (Hid.hopSeq q), file := f, order := s.rd Hid.hopOrder, pos := o }
  let s1 := s.add (Hid.hopSeq q) 1
  let drop (t : State) : State := (t.inc (Reg.HOP_DROP q) 1).raise 257
  if s.rd (Hid.hopUsed q) + r.space ≤ 0x200000 then
    match s1.bufWrite q o (recHdr q r1 false ++ r1.payload) with
    | (.ok, t) =>
      let s2 := { t with hopStage := Tab.set t.hopStage q [] (Tab.getD t.hopStage q [] ++ [r1]) }
      ((s2.add (Hid.hopUsed q) r.space).wr (Hid.hopWp q) ((o + r.space) % 0x200000)).add Hid.hopOrder 1
    | (_, t) => drop t
  else drop s1

/-- A closed record: discarded by a DROP mark (R67), judged by the filter (R69), and passed to its file only while that
is ARMED or TRIGGERED (R79, R81). -/
def State.closeRec (s : State) (q : Nat) (r : Rec) : State :=
  let f := s.rd (Reg.HOP_PORT_CFG_FILE q)
  let st := s.rd (Reg.HOP_FILE_STAT_STATE f)
  if r.dropped then s
  else if !s.filterPass q r.seen then s.inc (Reg.HOP_FILTERED q) 1
  else if st = 1 ∨ st = 2 then s.stage q f (s.cutRec q r)
  else if st = 5 ∧ s.rd (Reg.HOP_FILE_STAT_FAULT_CAUSE f) = 2 then s.inc (Reg.HOP_DROP q) 1
  else s

/-- Close the open record of a pipeline, if any, with ABORT as said. -/
def State.closeOpen (s : State) (q : Nat) (abort : Bool) : State :=
  match Tab.find s.hopOpen q with
  | none => s
  | some r => ({ s with hopOpen := Tab.del s.hopOpen q }).closeRec q { r with abort := abort }

/-- Set the open record of a pipeline. -/
def State.setOpen (s : State) (q : Nat) (r : Rec) : State := { s with hopOpen := Tab.put s.hopOpen q r }

/-- A row in ROWS delimiting: ROWS consecutive rows form a record; 0 means 256 (R64). -/
def State.rowsRow (s : State) (q : Nat) (d : DRow) : State :=
  let w := d.row.slots.length
  let r := ((Tab.find s.hopOpen q).getD (newRec 0 d.row w)).takeRow d
  let n := s.rd (Reg.HOP_PORT_CFG_ROWS q)
  let s1 := s.setOpen q r
  if r.rows = (if n = 0 then 256 else n) then s1.closeOpen q false else s1

/-- A row in FABRIC delimiting, with the mark that applies to it (R67, R113). -/
def State.fabricRow (s : State) (q : Nat) (d : DRow) : State :=
  let m := d.mark.getD ⟨false, false, false, 0⟩
  let s1 :=
    if m.start then
      (s.closeOpen q true).setOpen q { newRec 3 d.row d.row.slots.length with tag := m.tag, flow := d.key }
    else s
  match Tab.find s1.hopOpen q with
  | none => s1
  | some r =>
    let s2 := s1.setOpen q ({ r with dropped := r.dropped || m.drop }.takeRow d)
    if m.stop then s2.closeOpen q false else s2

/-- One block in CL49 delimiting (R66). -/
def State.cl49Block (q : Nat) (d : DRow) (s : State) (x : Slot) : State :=
  let p := x.payload.toNat
  let ty := p % 256
  let upd (f : Rec → Rec) (t : State) : State :=
    match Tab.find t.hopOpen q with
    | some r => t.setOpen q (f { r with seen := r.seen ||| d.seen })
    | none => t
  if x.hdr = 2 ∧ (ty = 0x78 ∨ ty = 0x33) then
    let s1 := (upd id s).closeOpen q true
    s1.setOpen q { newRec 1 d.row 0 with seen := d.seen }
  else if x.hdr = 2 then
    match termChars ty with
    | some n => (upd (fun r => r.take ((leBytes 8 p).drop 1 |>.take n)) s).closeOpen q false
    | none => upd (fun r => { r with ctlErr := true }) s
  else if x.hdr = 1 then upd (fun r => r.take (leBytes 8 p)) s
  else upd (fun r => { r.take (leBytes 8 p) with hdrErr := true }) s

/-- A row that leaves the delay of its pipeline joins the stream (R64, R68). -/
def State.hopRow (s : State) (q : Nat) (d : DRow) : State :=
  let m := s.rd (Reg.HOP_PORT_CFG_DELIM q)
  if m = 0 then s.rowsRow q d
  else if m = 2 then s.fabricRow q d
  else d.row.slots.foldl (State.cl49Block q d) s

/-- Pipeline `q` takes rows: Hopper and the pipeline are enabled. While HOP_CTRL.EN = 0 the rows in the delay and the open record stay,
and the pipeline goes on with them when EN is set again. DESIGN CHOICE, log entry 83. -/
def State.hopTakes (s : State) (q : Nat) : Bool := s.on Reg.HOP_CTRL_EN && s.on (Reg.HOP_PORT_CFG_EN q)

/-- A valid row is delivered to pipeline `q` (R63, R68). A row leaves the delay when the one MARK_DELAY + 1 rows after it comes,
so that a mark, a key or a match input of the MARK_DELAY rows after it still reaches it (R67, R69, R111). -/
def State.hopDeliver (s : State) (q : Nat) (r : PRow) : State :=
  if !s.hopTakes q then s
  else
    let d := Tab.getD s.hopDelay q [] ++ [⟨r, none, s.seenOf q s.taps, 0⟩]
    if d.length ≤ s.rd (Reg.HOP_PORT_CFG_MARK_DELAY q) + 1 then { s with hopDelay := Tab.set s.hopDelay q [] d }
    else
      match d with
      | [] => s
      | h :: t => { s with hopDelay := Tab.set s.hopDelay q [] t }.hopRow q h

/-- The port leaves UP (R68): the rows in the delay are processed, and an open record closes with ABORT. -/
def State.hopPortDown (s : State) (q : Nat) : State :=
  let d := Tab.getD s.hopDelay q []
  let s1 := d.foldl (fun t r => t.hopRow q r) { s with hopDelay := Tab.del s.hopDelay q }
  s1.closeOpen q true

/-- The pipeline is turned off: its delay and its open record are dropped (log entry 12). -/
def State.hopPipeOff (s : State) (q : Nat) : State :=
  { s with hopDelay := Tab.del s.hopDelay q, hopOpen := Tab.del s.hopOpen q }

/-- A write of HOP_PORT_CFG: the field rules, and a pipeline whose EN is cleared is turned off. -/
def State.hopPortCfgWrite (s : State) (q w : Nat) : State :=
  let s1 := s.writeReg 0x014 (0x100 + 0x40 * q) w
  if s.on (Reg.HOP_PORT_CFG_EN q) && !s1.on (Reg.HOP_PORT_CFG_EN q) then s1.hopPipeOff q else s1

/-- The port bound to an island with delivery on, if any (R40). -/
def State.portOf (s : State) (n : Nat) : Option Nat :=
  [0, 1, 2, 3].find? (fun p => s.on (Reg.PRB_BIND_DELIV_EN p) && s.rd (Reg.PRB_BIND_ISLAND p) == n)

/-- MARK_ENTRY (R67): the bound island presents the mark of a row that is still in the pipeline's delay; a later entry
for the row replaces an earlier one. -/
def execMarkEntry (n : Fin 80) (row : Nat) (start stop drop : Bool) (tag : Word) (s : State) :
    Host.Outcome State Fault Refusal :=
  .next (match s.portOf n with
    | some q =>
      if s.rd (Reg.ISL_STAT_STATE n) = 3 ∧ s.on (Reg.ISL_STAT_SWITCHING n) = false then
        let d := (Tab.getD s.hopDelay q []).map (fun r =>
          if r.row.num = row then { r with mark := some ⟨start, stop, drop, tag.toNat⟩ } else r)
        { s with hopDelay := Tab.set s.hopDelay q [] d }
      else s
    | none => s)

/-- What the first key entry that refers to a row of port `q` has brought, for the record that row starts (R113). -/
def State.keyResult (s : State) (q row v : Nat) : State :=
  let d := (Tab.getD s.hopDelay q []).map (fun r => if r.row.num = row then { r with key := v } else r)
  let fix (r : Rec) : Rec := if r.kind = 3 ∧ r.first = row ∧ r.flow = 1 then { r with flow := v } else r
  let o := match Tab.find s.hopOpen q with
    | some r => Tab.put s.hopOpen q (fix r)
    | none => s.hopOpen
  { s with
    hopDelay := Tab.set s.hopDelay q [] d
    hopOpen := o
    hopStage := Tab.set s.hopStage q [] ((Tab.getD s.hopStage q []).map fix) }

/-! ### Files and segments (R76 to R79) -/

/-- Base address and size in bytes of a segment entry. -/
def State.segBase (s : State) (g : Nat) : Nat := 65536 * s.rd (Reg.HOP_SEG_BASE g)
def State.segSize (s : State) (g : Nat) : Nat := 65536 * s.rd (Reg.HOP_SEG_SIZE g)

/-- The segments of a file. -/
def State.fileSegs (s : State) (f : Nat) : List Nat :=
  (List.range (s.rd (Reg.HOP_FILE_NSEG f))).map (fun i => s.rd (Reg.HOP_FILE_FIRST_SEG f) + i)

/-- Two segment entries overlap. -/
def State.segOverlap (s : State) (g h : Nat) : Bool := overlaps (s.segBase g) (s.segSize g) (s.segBase h) (s.segSize h)

/-- The configuration of a file is valid (R76). -/
def State.fileValid (s : State) (f : Nat) : Bool :=
  let segs := s.fileSegs f
  let need := s.rd (Reg.HOP_FILE_PRE f) + s.rd (Reg.HOP_FILE_POST f)
  let others := (List.range 16).flatMap (fun g =>
    if g != f && s.rd (Reg.HOP_FILE_STAT_STATE g) != 0 then s.fileSegs g else [])
  segs.all (fun g => decide (g < 1024) && s.rd (Reg.HOP_SEG_SIZE g) != 0 && decide (s.segBase g + s.segSize g ≤ s.hbmTop))
    && segs.all (fun g => segs.all (fun h => g == h || !s.segOverlap g h))
    && segs.all (fun g => others.all (fun h => !s.segOverlap g h))
    && (if s.on (Reg.HOP_FILE_MODE f) then segs.all (fun g => decide (need + 1 ≤ s.rd (Reg.HOP_SEG_SIZE g)))
        else decide (need + 1 ≤ (segs.map (fun g => s.rd (Reg.HOP_SEG_SIZE g))).sum))

/-- A segment is opened at offset 0 (R77). -/
def State.openSeg (s : State) (f g : Nat) : State :=
  let was := s.rd (Reg.HOP_SEG_STAT_STATE g)
  let s1 := (s.wr (Reg.HOP_SEG_STAT_STATE g) 1).wr (Reg.HOP_SEG_WOFF g) 0
  (s1.wrIf (was == 2) (Reg.HOP_SEG_STAT_WRAPPED g) 1).wr (Reg.HOP_FILE_STAT_CUR_SEG f) g

/-- The segment that follows in the ring of a file. -/
def State.nextSeg (s : State) (f : Nat) : Nat :=
  let g := s.rd (Reg.HOP_FILE_STAT_CUR_SEG f)
  let first := s.rd (Reg.HOP_FILE_FIRST_SEG f)
  if s.on (Reg.HOP_FILE_MODE f) then g
  else if g + 1 < first + s.rd (Reg.HOP_FILE_NSEG f) then g + 1 else first

/-- The address of the block after the one that holds the write point, in ring order (R77). -/
def State.nextBlock (s : State) (f : Nat) : Nat :=
  let g := s.rd (Reg.HOP_FILE_STAT_CUR_SEG f)
  let o := s.rd (Reg.HOP_SEG_WOFF g) / 65536 * 65536 + 65536
  if o < s.segSize g then s.segBase g + o else s.segBase (s.nextSeg f)

/-- The writer enters the block at the write point, moving to the next segment at the end of one; once the ring has
wrapped, the oldest retained block is the one after it (R77). -/
def State.enterBlock (s : State) (f : Nat) : State :=
  let g := s.rd (Reg.HOP_FILE_STAT_CUR_SEG f)
  let s1 :=
    if s.segSize g ≤ s.rd (Reg.HOP_SEG_WOFF g) then
      let h := s.nextSeg f
      let wrap := s.on (Reg.HOP_FILE_MODE f) || h == s.rd (Reg.HOP_FILE_FIRST_SEG f)
      ((s.wr (Reg.HOP_SEG_STAT_STATE g) 2).openSeg f h).wrIf wrap (Hid.fileWrap f) 1
    else s
  let s2 := s1.add (Hid.segEnt (s1.rd (Reg.HOP_FILE_STAT_CUR_SEG f))) 1
  if s2.on (Hid.fileWrap f) then s2.wr (Reg.HOP_FILE_OLD f) (s2.nextBlock f) else s2

/-- The staged records of a file, each with its pipeline. -/
def State.staged (s : State) (f : Nat) : List (Nat × Rec) :=
  [0, 1, 2, 3].flatMap (fun q => ((Tab.getD s.hopStage q []).filter (fun r => r.file == f)).map (fun r => (q, r)))

/-- Take the staged records of a file out of region `q`, freeing their bytes. -/
def State.unstage (s : State) (q f : Nat) : State :=
  let l := Tab.getD s.hopStage q []
  let out := l.filter (fun r => r.file == f)
  ({ s with hopStage := Tab.set s.hopStage q [] (l.filter (fun r => r.file != f)) }).wr (Hid.hopUsed q)
    (s.rd (Hid.hopUsed q) - (out.map Rec.space).sum)

/-- The later records of a file that is DONE are discarded and not numbered (R79): each pipeline that feeds it goes on
from the number after its last record written, or after its last record staged for another file. -/
def State.dropLater (s : State) (f : Nat) : State :=
  State.each [0, 1, 2, 3] (fun q t =>
    let out := (Tab.getD t.hopStage q []).filter (fun r => r.file == f)
    if t.rd (Reg.HOP_PORT_CFG_FILE q) = f ∨ out ≠ [] then
      let n := match ((Tab.getD t.hopStage q []).filter (fun r => r.file != f)).getLast? with
        | none => t.rd (Hid.hopNext q)
        | some r => r.rseq + 1
      (t.unstage q f).wr (Hid.hopSeq q) n
    else t) s

/-- A file enters FAULT (WRITE_ERR): its staged records are discarded and counted (R79). -/
def State.fileFault (s : State) (f : Nat) : State :=
  let s1 := State.each [0, 1, 2, 3] (fun q t =>
    let n := ((Tab.getD t.hopStage q []).filter (fun r => r.file == f)).length
    (t.unstage q f).inc (Reg.HOP_DROP q) n) s
  (((s1.wr (Reg.HOP_FILE_STAT_STATE f) 5).wr (Reg.HOP_FILE_STAT_FAULT_CAUSE f) 2).raise 261)

/-- Write bytes at a file's write point in whole lines: those that do not fill a line wait (R75). -/
def State.fileWrite (s : State) (f : Nat) (bs : List Byte) : MRes × State :=
  let g := s.rd (Reg.HOP_FILE_STAT_CUR_SEG f)
  let tail := Tab.getD s.hopTail f []
  let a := s.segBase g + s.rd (Reg.HOP_SEG_WOFF g) - tail.length
  let all := tail ++ bs
  let n := all.length / 32 * 32
  let s1 := { s with hopTail := Tab.set s.hopTail f [] (all.drop n) }
  let s2 := s1.wr (Reg.HOP_SEG_WOFF g) (s.rd (Reg.HOP_SEG_WOFF g) + bs.length)
  if n = 0 then (.ok, s2) else s2.memWrite (s.req .hopper (s.rd (Reg.HOP_FILE_KEY f))) a (all.take n)

/-- The last line of a file is filled with zeros and written (R75). -/
def State.fileFlush (s : State) (f : Nat) : MRes × State :=
  let g := s.rd (Reg.HOP_FILE_STAT_CUR_SEG f)
  let tail := Tab.getD s.hopTail f []
  if tail = [] then (.ok, s)
  else
    let a := s.segBase g + s.rd (Reg.HOP_SEG_WOFF g) - tail.length
    ({ s with hopTail := Tab.del s.hopTail f }).memWrite (s.req .hopper (s.rd (Reg.HOP_FILE_KEY f))) a
      (tail ++ List.replicate (32 - tail.length) 0)

/-- Flush, or FAULT on a bus error. -/
def State.flushOr (s : State) (f : Nat) (k : State → State) : State :=
  match s.fileFlush f with
  | (.ok, t) => k t
  | (_, t) => t.fileFault f

/-- POST is reached (R79): the ring is DONE, or the segment closes and the next one opens, or the last one ends the file. -/
def State.postReached (s : State) (f : Nat) : State :=
  s.flushOr f (fun t =>
    let g := t.rd (Reg.HOP_FILE_STAT_CUR_SEG f)
    let done (u : State) : State :=
      ((u.dropLater f).wr (Reg.HOP_FILE_STAT_STATE f) 3).setB Reg.HOP_EVT_FILE_DONE f
    if !t.on (Reg.HOP_FILE_MODE f) then (done t).raise 259
    else
      let t1 := t.wr (Reg.HOP_SEG_STAT_STATE g) 2
      if g + 1 < t.rd (Reg.HOP_FILE_FIRST_SEG f) + t.rd (Reg.HOP_FILE_NSEG f) then
        let t2 := (t1.wr (Reg.HOP_FILE_STAT_STATE f) 1).raise 260
        let t3 := (t2.openSeg f (g + 1)).wr (Reg.HOP_FILE_OLD f) (t.segBase (g + 1))
        ((((t3.wr (Hid.fileArmed f) 0).wr (Hid.filePost f) 0).wr (Hid.fileTrec f) 0).wr (Hid.fileWant f) 0).wr (Hid.fileWrap f) 0
      else (((done t1).raise 260).raise 259))

/-- The write point has advanced by `n` bytes of file space (R78): POST may be reached. -/
def State.advanced (s : State) (f n : Nat) : State :=
  let s1 := s.add (Hid.fileArmed f) n
  let s2 := if s.on (Hid.fileTrec f) then s1.add (Hid.filePost f) n else s1
  if s2.rd (Reg.HOP_FILE_STAT_STATE f) = 2 ∧ s2.on (Hid.fileTrec f) = true
      ∧ 65536 * s2.rd (Reg.HOP_FILE_POST f) ≤ s2.rd (Hid.filePost f) then s2.postReached f
  else s2

/-- The rest of the block is left: a PAD record, or zeros where fewer than 32 bytes remain (R74). The line that the PAD
header ends in is filled with zeros (log entry 13). -/
def State.padBlock (s : State) (f rem : Nat) : State :=
  let bs := if 32 ≤ rem then padHdr (rem - 32) else List.replicate rem 0
  match s.fileWrite f bs with
  | (.ok, t) => t.flushOr f (fun u =>
      (u.add (Reg.HOP_SEG_WOFF (u.rd (Reg.HOP_FILE_STAT_CUR_SEG f))) (rem - bs.length)).advanced f rem)
  | (_, t) => t.fileFault f

/-- The trigger record is the first whose TS is at or after T_T (R78): its address is stored, and PRE is judged. -/
def State.trigRecord (s : State) (f a : Nat) : State :=
  let s1 := ((s.wr (Reg.HOP_FILE_TREC f) a).wr (Hid.fileTrec f) 1).wr (Hid.fileWant f) 0
  if s.rd (Hid.fileArmed f) < 65536 * s.rd (Reg.HOP_FILE_PRE f) then
    (s1.wr (Reg.HOP_FILE_STAT_PRE_SHORT f) 1).raise 262
  else s1

/-- A record is written at the write point of its file, which is in a block with room for it. Its number tells how many of the
port's records have been dropped since the last one stored (GAP, DROPPED; R72, R73). -/
def State.putRec (s : State) (f q : Nat) (r0 : Rec) : State :=
  let r := { r0 with gap := (r0.rseq + 2 ^ 32 - s.rd (Hid.hopNext q)) % 2 ^ 32 }
  let s0 := if s.rd (Reg.HOP_SEG_WOFF (s.rd (Reg.HOP_FILE_STAT_CUR_SEG f))) % 65536 = 0 then s.enterBlock f else s
  let g := s0.rd (Reg.HOP_FILE_STAT_CUR_SEG f)
  let trig := s0.on (Hid.fileWant f) && decide (s0.rd (Reg.HOP_FILE_TTS f) ≤ r.ts)
  let s1 := if trig then s0.trigRecord f (s0.segBase g + s0.rd (Reg.HOP_SEG_WOFF g)) else s0
  match s1.fileWrite f (recHdr q r trig ++ r.payload) with
  | (.ok, t) => (t.wr (Hid.hopNext q) (r.rseq + 1)).advanced f r.space
  | (_, t) => t.fileFault f

/-- A file in STOPPING with nothing left to write is STOPPED, its last line filled with zeros (R75, R79). -/
def State.finishStop (s : State) (f : Nat) : State :=
  if s.rd (Reg.HOP_FILE_STAT_STATE f) = 6 ∧ s.staged f = [] then
    s.flushOr f (fun t => t.wr (Reg.HOP_FILE_STAT_STATE f) 4)
  else s

/-- The staged record of a file that closed first. -/
def firstRec : List (Nat × Rec) → Option (Nat × Rec)
  | [] => none
  | x :: l => match firstRec l with
    | none => some x
    | some y => if x.2.order ≤ y.2.order then some x else some y

/-- Take one staged record out of its region. -/
def State.takeStaged (s : State) (q : Nat) (r : Rec) : State :=
  ({ s with hopStage := Tab.set s.hopStage q [] ((Tab.getD s.hopStage q []).filter (fun x => x.order != r.order)) }).wr
    (Hid.hopUsed q) (s.rd (Hid.hopUsed q) - r.space)

/-- A file takes records: ARMED, TRIGGERED or STOPPING. -/
def State.fileTakes (s : State) (f : Nat) : Bool :=
  let st := s.rd (Reg.HOP_FILE_STAT_STATE f)
  st == 1 || st == 2 || st == 6

/-- A record whose bytes have been read from its region is written to its file, after a PAD where it does not fit in the block. -/
def State.drainTo (s : State) (f q : Nat) (r : Rec) (bs : List Byte) : State :=
  let o := s.rd (Reg.HOP_SEG_WOFF (s.rd (Reg.HOP_FILE_STAT_CUR_SEG f)))
  let rem := 65536 - o % 65536
  let s1 := if o % 65536 ≠ 0 ∧ rem < r.space then s.padBlock f rem else s
  if s1.fileTakes f then (s1.takeStaged q r).putRec f q { r with payload := bs.drop 32 } else s1

/-- A staged record with an uncorrectable word is discarded whole and counted as dropped (R73, R247). -/
def State.drainLost (s : State) (q : Nat) (r : Rec) : State := ((s.takeStaged q r).inc (Reg.HOP_DROP q) 1).raise 257

/-- An address lies in the bytes that a staged record takes in its region. -/
def Rec.holds (r : Rec) (q a : Nat) : Bool :=
  decide (hopRegion q ≤ a) && decide (a < hopRegion q + 0x200000)
    && decide ((a - hopRegion q + 0x200000 - r.pos) % 0x200000 < r.space)

/-- DRAIN_RECORD (R74 to R79, R237): the staged record of a file that closed first is read from its region and written. A
FABRIC record whose flow is not yet known waits (R113). Where the read finds a word uncorrectable, or an upset has made the
word at `ue` in the record so, the record is discarded whole (R247). -/
def execDrainRecord (f : Fin 16) (ue : Option Nat) (s : State) : Host.Outcome State Fault Refusal :=
  .next (match firstRec (s.staged f) with
    | none => s.finishStop f
    | some (q, r) =>
      if r.kind = 3 ∧ r.flow = 1 then s
      else if !s.fileTakes f then s.unstage q f
      else
        match ue.filter (r.holds q) with
        | some a => ((s.sramUe (s.req .hopper 0) a).drainLost q r).finishStop f
        | none =>
          match s.bufRead q r.pos r.space with
          | (bs, .ok, t) => (t.drainTo f q r bs).finishStop f
          | (_, .held, t) => t
          | (_, _, t) => (t.drainLost q r).finishStop f)

/-! ### Commands (R105) -/

/-- A Hopper command out of its legal states. -/
def State.hopReject (s : State) (code : Nat) : State := s.reject 0x014 code 256

/-- ARM. -/
def State.hopArm (s : State) (f : Nat) : State :=
  if s.rd (Reg.HOP_FILE_STAT_STATE f) = 0 ∧ s.on Reg.HOP_CTRL_EN = true ∧ s.rd Reg.HBM_STAT_STATE = 3 then
    if s.fileValid f then
      let g := s.rd (Reg.HOP_FILE_FIRST_SEG f)
      let s1 := (((((s.add (Hid.fileGen f) 1).wr (Reg.HOP_FILE_STAT_STATE f) 1).wr (Reg.HOP_FILE_STAT_PRE_SHORT f) 0).wr
        (Reg.HOP_FILE_STAT_POST_SHORT f) 0).wr (Reg.HOP_FILE_STAT_FAULT_CAUSE f) 0).openSeg f g
      let s2 := ((((s1.wr (Hid.fileArmed f) 0).wr (Hid.filePost f) 0).wr (Hid.fileTrec f) 0).wr (Hid.fileWant f) 0).wr
        (Hid.fileWrap f) 0
      s2.wr (Reg.HOP_FILE_OLD f) (s.segBase g)
    else ((s.wr (Reg.HOP_FILE_STAT_STATE f) 5).wr (Reg.HOP_FILE_STAT_FAULT_CAUSE f) 1).raise 261
  else s.hopReject 1

/-- HOP_ARM (R76, R79, R105). -/
def execHopArm (f : Fin 16) (s : State) : Host.Outcome State Fault Refusal := .next (s.hopArm f)

/-- STOP. -/
def State.hopStop (s : State) (f : Nat) : State :=
  let st := s.rd (Reg.HOP_FILE_STAT_STATE f)
  if st = 1 then (s.wr (Reg.HOP_FILE_STAT_STATE f) 6).finishStop f
  else if st = 2 then ((s.wr (Reg.HOP_FILE_STAT_STATE f) 6).wr (Reg.HOP_FILE_STAT_POST_SHORT f) 1).finishStop f
  else s.hopReject 2

/-- HOP_STOP (R75, R79, R105). -/
def execHopStop (f : Fin 16) (s : State) : Host.Outcome State Fault Refusal := .next (s.hopStop f)

/-- A trigger reaches an ARMED file (R78, R79). -/
def State.fileTrigger (s : State) (f : Nat) : State :=
  (((((s.wr (Reg.HOP_FILE_TTS f) s.now).wr (Reg.HOP_FILE_STAT_STATE f) 2).wr (Hid.fileWant f) 1).wr (Hid.filePost f) 0).setB
    Reg.HOP_EVT_FILE_TRIGGERED f).raise 258

/-- A Lantern trigger of a file: ignored and counted where it is not ARMED (R80). -/
def State.hopTrig (f : Nat) (s : State) : State :=
  if s.rd (Reg.HOP_FILE_STAT_STATE f) = 1 then s.fileTrigger f else s.inc (Reg.HOP_FILE_TRIG_IGN f) 1

/-- FORCE_TRIG. -/
def State.hopForce (s : State) (f : Nat) : State :=
  if s.rd (Reg.HOP_FILE_STAT_STATE f) = 1 then s.fileTrigger f else s.hopReject 3

/-- HOP_FORCE_TRIG (R78, R80, R105). -/
def execHopForceTrig (f : Fin 16) (s : State) : Host.Outcome State Fault Refusal := .next (s.hopForce f)

/-- CLEAR: the file is IDLE and its segments EMPTY (R79). -/
def State.hopClear (s : State) (f : Nat) : State :=
  let st := s.rd (Reg.HOP_FILE_STAT_STATE f)
  if st = 3 ∨ st = 4 ∨ st = 5 then
    let s1 := State.each (s.fileSegs f) (fun g t =>
      (((t.wr (Reg.HOP_SEG_STAT_STATE g) 0).wr (Reg.HOP_SEG_STAT_WRAPPED g) 0).wr (Reg.HOP_SEG_WOFF g) 0).wr (Hid.segEnt g) 0) s
    (({ s1 with hopTail := Tab.del s1.hopTail f }).wr (Reg.HOP_FILE_STAT_STATE f) 0).add (Hid.fileGen f) 1
  else s.hopReject 4

/-- HOP_CLEAR (R79, R105). -/
def execHopClear (f : Fin 16) (s : State) : Host.Outcome State Fault Refusal := .next (s.hopClear f)

/-- CLR_CNT. -/
def State.hopClrCnt (s : State) : State :=
  State.each [0, 1, 2, 3] (fun q t => (t.wr (Reg.HOP_DROP q) 0).wr (Reg.HOP_FILTERED q) 0) s

/-- HOP_CLR_CNT (R105): HOP_DROP and HOP_FILTERED are cleared. -/
def execHopClrCnt (s : State) : Host.Outcome State Fault Refusal := .next s.hopClrCnt

/-- A write of HOP_CMD. -/
def State.hopCmd (s : State) (code f : Nat) : State :=
  if code = 1 then s.hopArm f else if code = 2 then s.hopStop f else if code = 3 then s.hopForce f
  else if code = 4 then s.hopClear f else if code = 5 then s.hopClrCnt else s.hopReject code

/-- ENGINE reset of Hopper (R82): begun lines are filled with zeros and written, files that take records are STOPPED,
the elastic buffer is lost, and every register but the files' and segments' returns to its reset value. -/
def State.hopReset (s : State) : State :=
  let s1 := State.each (List.range 16) (fun f t =>
    let st := t.rd (Reg.HOP_FILE_STAT_STATE f)
    if st = 1 ∨ st = 2 ∨ st = 6 then
      t.flushOr f (fun u => (u.wrIf (st == 2) (Reg.HOP_FILE_STAT_POST_SHORT f) 1).wr (Reg.HOP_FILE_STAT_STATE f) 4)
    else t) s
  let lo := cellKey 0x014 0 0
  { s1.discardBlocks 0x014 0x015 with
    cells := (Tab.delRange s1.cells lo (cellKey 0x014 0x400 0)).filter (fun e =>
      !(decide (cellKey Hid.grpHOP.1 0 0 ≤ e.1) && decide (e.1 < cellKey Hid.grpHOP.2 0 0)))
    hopDelay := [], hopOpen := [], hopStage := [], hopTail := [] }

end Sys2Proof.Machine
end

