-- ==== Sys2Proof/Machine/Route.lean ====
section
/-! DEFINITION. The mesh of the on-chip network (chapter 10): network interfaces, who serves an address, and routes. -/

namespace Sys2Proof.Machine

/-! ### Mesh and network interfaces (R297 to R299) -/

/-- The NI of a master that uses the network (R298); the others have direct paths. -/
def niOf : Requester → Option Nat
  | .host => some 94
  | .debug => some 91
  | .miller => some 93
  | .fabric n => some n
  | .millstone => some 84
  | .config => some 90
  | .sys => some 89
  | .peony => some 92
  | .millrace _ | .hopper | .runner | .marigold | .segBuf => none

/-- The master behind an NI. -/
def niMaster (i : Nat) : Requester :=
  if i < 80 then .fabric (Fin.ofNat 80 i)
  else if i = 84 then .millstone else if i = 90 then .config else if i = 91 then .debug else if i = 92 then .peony
  else if i = 93 then .miller else if i = 94 then .host else .sys

/-- The NI that serves a register block (R298); the register windows of the aliases are served by SYS (R299). -/
def blockNi (b : Nat) : Nat :=
  if 0x040 ≤ b ∧ b < 0x090 then b - 0x040
  else if b = 0x090 ∨ (0x0A0 ≤ b ∧ b ≤ 0x0F0) then 80
  else if b = 0x020 ∨ (0x030 ≤ b ∧ b < 0x040) then 86
  else if 0x014 ≤ b ∧ b ≤ 0x018 then 84
  else if (0x010 ≤ b ∧ b < 0x014) ∨ b = 0x019 then 85
  else if b = 0x002 ∨ b = 0x003 ∨ b = 0x00C then 90
  else if b = 0x007 then 91 else if b = 0x004 then 92 else if b = 0x00B then 93 else if b = 0x009 then 94
  else if b = 0x00A then 88 else 89

/-- The NIs that serve an address (R298, R299). -/
def State.servers (s : State) (a : Nat) : List Nat :=
  match s.rangeOf a with
  | some .hbm => [86, 87, 95, 96]
  | some (.bank _) | some .hub => [80, 81, 82, 83]
  | some .dahlia => [90]
  | some (.fabric n) => [n]
  | some .regs =>
    let x := a - 0x3000000000
    [if x < 0x10000000 then blockNi (x / 2 ^ 20) else 89]
  | some .rom => [93]
  | none => []

/-- The NI that a hard master's NI chooses for an address: by A[10:9] where four serve it (R299). -/
def State.targetOf (s : State) (a : Nat) : Option Nat :=
  match s.servers a with
  | [t] => some t
  | l => l[bits a 10 9]?

/-! ### Routes (R301, R304, R305) -/

/-- The router that a hop leads to: 0 N, 1 E, 2 S, 3 W; none where the mesh ends. -/
def hopTo (n d : Nat) : Option Nat :=
  if d = 0 then (if n < 70 then some (n + 10) else none)
  else if d = 1 then (if n % 10 < 9 then some (n + 1) else none)
  else if d = 2 then (if 10 ≤ n then some (n - 10) else none)
  else (if 0 < n % 10 then some (n - 1) else none)

/-- The number of the link that a hop crosses, as NOC_LINK_STAT numbers it. -/
def hopLink (n d : Nat) : Nat :=
  if d = 0 then 2 * n + 1 else if d = 1 then 2 * n else if d = 2 then 2 * (n - 10) + 1 else 2 * (n - 1)

/-- A link slot that holds a link: a border slot holds none. -/
def isLink (m : Nat) : Bool := (hopTo (m / 2) (1 - m % 2)).isSome

/-- The hops of a route, first first. -/
def hopsOf (dir hops : Nat) : List Nat := (List.range hops).map (fun h => dir / 2 ^ (3 * h) % 8)

/-- The routers of a route after its first, with the direction of the hop that led to each; none where it leaves the
mesh. -/
def walk : Nat → List Nat → Option (List (Nat × Nat))
  | _, [] => some []
  | n, d :: r =>
    match hopTo n d with
    | none => none
    | some m => (walk m r).map (fun l => (m, d) :: l)

/-- The routers on a route from router `n`, its first included. -/
def routeRouters (n : Nat) (hops : List Nat) : List Nat := n :: ((walk n hops).getD []).map Prod.fst

/-- The links on a route. -/
def routeLinks : Nat → List Nat → List Nat
  | _, [] => []
  | n, d :: r => hopLink n d :: (match hopTo n d with | some m => routeLinks m r | none => [])

/-- How often a route changes axis. -/
def axisChanges : List Nat → Nat
  | a :: b :: r => (if a % 2 = b % 2 then 0 else 1) + axisChanges (b :: r)
  | _ => 0

/-- No hop is followed by its opposite. -/
def noReverse : List Nat → Bool
  | a :: b :: r => b != (a + 2) % 4 && noReverse (b :: r)
  | _ => true

/-- A route is legal (R305). -/
def legalRoute (src dst dir hops : Nat) : Bool :=
  let l := hopsOf dir hops
  decide (hops ≤ 16) && decide (dst < 97) && dir / 2 ^ (3 * hops) == 0 && l.all (fun d => decide (d < 4))
    && decide (axisChanges l ≤ 1) && noReverse l
    && (match walk (niRouter src) l with
        | none => false
        | some w => (w.getLast?.map Prod.fst).getD (niRouter src) == niRouter dst)

/-- The virtual channel of a route: 1 where it moves north or south first and then turns (R305). -/
def vcOf (l : List Nat) : Nat := if l.headD 1 % 2 = 0 ∧ axisChanges l ≠ 0 then 1 else 0

/-- The hops of an entry in force. -/
def State.entryHops (s : State) (i e : Nat) : List Nat :=
  hopsOf (s.rd (Reg.NOC_RT_ROUTE_DIR i e)) (s.rd (Reg.NOC_RT_ROUTE_HOPS i e))

/-- Every router of a route is ACTIVE and none of its links is in RETRAIN or FAILED (R313, R315). -/
def State.routeClear (s : State) (i : Nat) (hops : List Nat) : Bool :=
  (routeRouters (niRouter i) hops).all (fun n => s.rd (Reg.NOC_RTR_STAT_STATE n) == 0)
    && (routeLinks (niRouter i) hops).all (fun m => decide (s.rd (Reg.NOC_LINK_STAT_STATE m) < 2))

/-- How the route of a hard master's access stands: open, held under back-pressure, or refused at the NI (R304, R310,
R315). -/
def State.reach (s : State) (i a : Nat) : MRes :=
  match s.targetOf a with
  | none => .err
  | some e =>
    if s.on (Reg.NOC_RT_CTL_PENDING i e) then .held
    else if !s.on (Reg.NOC_RT_CTL_VALID i e) || !(s.servers a).contains (s.rd (Reg.NOC_RT_CTL_DST i e)) then .err
    else if s.routeClear i (s.entryHops i e) then .ok else .held

end Sys2Proof.Machine
end

