-- ==== Sys2Proof/Machine/Mesh.lean ====
section
/-! DEFINITION. Packets on the mesh (chapter 10): heads, probes, the grant of a router's output, and how far a head may go. -/

namespace Sys2Proof.Machine

/-! ### Heads and probes (R301, R302, R307, R317, R318) -/

/-- What a probe sees of a packet's head: the network, the fields it filters on, the flits, and bits [127:0]. -/
structure Head where
  net   : Nat
  src   : Nat
  dst   : Nat
  key   : Nat
  urg   : Nat
  addr  : Nat
  flits : Nat
  img   : Nat
deriving DecidableEq, Repr

/-- Urgency and wait after `c` more cycles in a buffer (R307). -/
def urgAfter (uw : Nat × Nat) (c : Nat) : Nat × Nat :=
  (min 7 (uw.1 + (uw.2 + c) / 128), (uw.2 + c) % 128)

/-- DIR of a list of hops. -/
def dirOf : List Nat → Nat
  | [] => 0
  | d :: r => d + 8 * dirOf r

/-- The response route: the request's route reversed (R302). -/
def backHops (l : List Nat) : List Nat := l.reverse.map (fun d => (d + 2) % 4)

/-- The head of a request with its urgency and wait, at hop `ptr` (R301). -/
def reqHead (p : Pkt) (uw : Nat × Nat) (ptr : Nat) : Head :=
  { net := if p.op = 0 then 0 else 3, src := p.src, dst := p.dst, key := p.key, urg := uw.1, addr := p.addr
    flits := if p.op = 0 then 2 else 1 + p.beats
    img := dirOf p.hops + p.hops.length * 2 ^ 48 + p.dst * 2 ^ 53 + p.src * 2 ^ 60 + uw.1 * 2 ^ 67 + uw.2 * 2 ^ 70
      + vcOf p.hops * 2 ^ 77 + p.key * 2 ^ 78 + p.tid * 2 ^ 82 + p.op * 2 ^ 88 + (p.beats - 1) * 2 ^ 90 + ptr * 2 ^ 96 }

/-- The head of a response or acknowledgement (R301, R302). -/
def rspHead (p : Pkt) (uw : Nat × Nat) (ptr : Nat) : Head :=
  let h := backHops p.hops
  { net := if p.op = 0 then 3 else 1, src := p.dst, dst := p.src, key := p.key, urg := uw.1
    addr := if p.op = 0 then p.addr else 0, flits := if p.op = 0 then 1 + p.beats else 1
    img := dirOf h + h.length * 2 ^ 48 + p.src * 2 ^ 53 + p.dst * 2 ^ 60 + uw.1 * 2 ^ 67 + uw.2 * 2 ^ 70
      + vcOf h * 2 ^ 77 + p.key * 2 ^ 78 + p.tid * 2 ^ 82 + p.err * 2 ^ 88 + b2n (p.op == 2) * 2 ^ 90 + ptr * 2 ^ 96 }

/-- A head matches the filter of probe `k` (R317). -/
def State.probeMatch (s : State) (k : Nat) (h : Head) : Bool :=
  s.on (Reg.NOC_PROBE_CFG_EN k) && s.rd (Reg.NOC_PROBE_CFG_NET k) == h.net
    && (!s.on (Reg.NOC_PROBE_FILT_SRC_EN k) || s.rd (Reg.NOC_PROBE_FILT_SRC k) == h.src)
    && (!s.on (Reg.NOC_PROBE_FILT_DST_EN k) || s.rd (Reg.NOC_PROBE_FILT_DST k) == h.dst)
    && (!s.on (Reg.NOC_PROBE_FILT_KEY_EN k) || s.rd (Reg.NOC_PROBE_FILT_KEY k) == h.key)
    && decide (s.rd (Reg.NOC_PROBE_CFG_URG_MIN k) ≤ h.urg)
    && (h.addr &&& s.rd (Reg.NOC_PROBE_AMASK k)) == s.rd (Reg.NOC_PROBE_AMATCH k)

/-- The input port of a router that a packet injected by an NI uses: local, or edge. -/
def injPort (i : Nat) : Nat := if i < 80 then 4 else 5

/-- A trace record of probe `k` (R318): posted by SYS to the ring, by the entry of the NI that it chooses for the address (R299),
or counted as lost with event 239. -/
def State.traceRec (s : State) (k port : Nat) (h : Head) : State :=
  let ring := 128 * s.rd Reg.NOC_TRACE_SIZE
  let n := s.rd Reg.NOC_TRACE_WR
  if (n + 2 ^ 32 - s.rd Reg.NOC_TRACE_RD) % 2 ^ 32 = ring then
    (s.inc (Reg.NOC_PROBE_LOST k) 1).raiseB Reg.NOC_EVT_EVT 7 239
  else
    let a := 4096 * s.rd Reg.NOC_TRACE_BASE + n % ring * 32
    let rec32 := leBytes 8 s.now ++ leBytes 16 (h.img % 2 ^ 128) ++ leBytes 6 (if h.net = 1 then 0 else h.addr)
      ++ leBytes 1 k ++ leBytes 1 (h.net + 4 * port)
    let t := match s.targetOf a with
      | some e => s.sysPost e (s.rd Reg.NOC_TRACE_KEY) a rec32
      | none => s
    t.add Reg.NOC_TRACE_WR 1

/-- A head passes a point: router input (`ni` false, with its port) or NI. Each probe that watches it acts (R317). -/
def State.probeHead (s : State) (ni : Bool) (point port : Nat) (h : Head) : State :=
  State.each (List.range 8) (fun k t =>
    if s.on (Reg.NOC_PROBE_CFG_KIND k) == ni && s.rd (Reg.NOC_PROBE_CFG_POINT k) == point
        && (ni || s.rd (Reg.NOC_PROBE_CFG_PORT k) == port) && s.probeMatch k h then
      let m := s.rd (Reg.NOC_PROBE_CFG_MODE k)
      if m = 0 then (t.add (Reg.NOC_PROBE_PKTS k) 1).add (Reg.NOC_PROBE_FLITS k) h.flits
      else if m = 2 then t.traceRec k port h
      else t
    else t) s

/-! ### Trips (R300, R302) -/

/-- A trip of a packet: its network (0 request, 1 response, 3 data), the NIs it runs between, and its hops. -/
structure Trip where
  net  : Nat
  frm  : Nat
  dest : Nat
  hops : List Nat
deriving DecidableEq, Repr

/-- The trip that a packet is on: that of its request, or that of its response or acknowledgement. -/
def tripOf (p : Pkt) : Trip :=
  if p.phase < 2 then ⟨if p.op = 0 then 0 else 3, p.src, p.dst, p.hops⟩
  else ⟨if p.op = 0 then 3 else 1, p.dst, p.src, backHops p.hops⟩

/-- A router on a trip, with the input port that the head comes in by and the output port that it leaves by. -/
structure RStop where
  rtr  : Nat
  inp  : Nat
  outp : Nat
deriving DecidableEq, Repr

/-- The routers of a trip, in order. -/
def stopsOf (t : Trip) : List RStop :=
  let ins := injPort t.frm :: t.hops.map (fun d => (d + 2) % 4)
  ((routeRouters (niRouter t.frm) t.hops).zip (ins.zip (t.hops ++ [injPort t.dest]))).map (fun x => ⟨x.1, x.2.1, x.2.2⟩)

/-- The router that holds the head of a packet; none where an NI holds it. -/
def stopOf (p : Pkt) : Option RStop := if p.pos = 0 then none else (stopsOf (tripOf p))[p.pos - 1]?

/-- The head of a packet's present trip has reached the NI that the trip ends at. -/
def arrived (p : Pkt) : Bool := decide ((tripOf p).hops.length + 1 < p.pos)

/-- The head that a packet shows on its present trip where it stands (R301, R302). -/
def headOf (p : Pkt) : Head :=
  let ptr := min (p.pos - 1) p.hops.length
  if p.phase < 2 then reqHead p (p.urg, p.wait) ptr else rspHead p (p.urg, p.wait) ptr

/-! ### Arbitration (R307, R308) -/

/-- The current urgency of a head: with what it has waited in its present buffer, in cycles of 1.5 GHz. -/
def State.curUrg (s : State) (p : Pkt) : Nat := (urgAfter (p.urg, p.wait) ((s.now - p.came) * 3 / 8)).1

/-- How long the round robin of an output makes an input port wait: the port after the one granted last comes first. -/
def State.turn (s : State) (net : Nat) (x : RStop) : Nat := (x.inp + 5 - s.rd (Hid.rrLast net x.rtr x.outp)) % 6

/-- A head of urgency `u` is granted the output of its router (R308): no head that waits at the same output of the same network,
on either virtual channel, has a higher current urgency, or the same and comes before it in the round robin; of two at one input
port the older comes first. -/
def State.granted (s : State) (p : Pkt) (u : Nat) (x : RStop) : Bool :=
  let net := (tripOf p).net
  s.packets.all (fun q =>
    q.id == p.id || (tripOf q).net != net ||
    match stopOf q with
    | none => true
    | some y =>
      y.rtr != x.rtr || y.outp != x.outp || decide (s.curUrg q < u)
        || (s.curUrg q == u && (decide (s.turn net x < s.turn net y) || (y.inp == x.inp && decide (p.id < q.id)))))

/-- A router takes no head while it is not ACTIVE, nor over a link that retrains or has failed (R313, R314). -/
def State.enters (s : State) (x y : RStop) : Bool :=
  s.rd (Reg.NOC_RTR_STAT_STATE y.rtr) == 0 && decide (s.rd (Reg.NOC_LINK_STAT_STATE (hopLink x.rtr x.outp)) < 2)

/-- The head of a packet leaves its buffer after `w` cycles, with its urgency and wait brought up to date (R307). -/
def State.stepped (s : State) (p : Pkt) (w : Nat) : Pkt :=
  let uw := urgAfter (p.urg, p.wait) w
  { p with urg := uw.1, wait := uw.2, pos := p.pos + 1, came := s.now }

/-- The head of a packet goes from the router that holds it as far as it may: through each output that is granted to it, into
each router that takes it, and at last into the NI. `ws` are the cycles it waits in each router. -/
def State.travel (s : State) (p : Pkt) : List RStop → List Nat → Pkt × State
  | [], _ => (p, s)
  | x :: r, ws =>
    let q := s.stepped p (ws.headD 0)
    if s.granted p q.urg x && (match r with | y :: _ => s.enters x y | [] => true) then
      let t := s.wr (Hid.rrLast (tripOf p).net x.rtr x.outp) x.inp
      match r with
      | y :: _ => (t.probeHead false y.rtr y.inp (headOf q)).travel q r ws.tail
      | [] => (q, t.probeHead true (tripOf p).dest 0 (headOf q))
    else (p, s)

/-- The routers that lie before a packet's head, the one that holds it first; none while an NI holds it. -/
def stopsLeft (p : Pkt) : List RStop := if p.pos = 0 then [] else (stopsOf (tripOf p)).drop (p.pos - 1)

/-- A head leaves the NI that its trip starts from, after `w` cycles there, where the first router takes it (R314). -/
def State.inject (s : State) (p : Pkt) (w : Nat) : Pkt × State :=
  let t := tripOf p
  if p.pos ≠ 0 ∨ s.rd (Reg.NOC_RTR_STAT_STATE (niRouter t.frm)) ≠ 0 then (p, s)
  else
    let q := s.stepped p w
    (q, (s.probeHead true t.frm 0 (headOf q)).probeHead false (niRouter t.frm) (injPort t.frm) (headOf q))

/-- A request that has been served turns into its response at the target's NI: with its urgency on arrival, and WAIT 0 (R302). -/
def State.turned (s : State) (p : Pkt) (err : Nat) (d : List Byte) : Pkt :=
  { p with phase := 2, err := err, rdata := d, wait := 0, pos := 0, came := s.now }

/-- The latency of a request whose response arrives (R317): in network cycles of 1.5 GHz, by the timebase of 250 ps. -/
def State.probeLatency (s : State) (p : Pkt) : State :=
  State.each (List.range 8) (fun k t =>
    if s.rd (Reg.NOC_PROBE_CFG_MODE k) == 1 && s.on (Reg.NOC_PROBE_CFG_KIND k) && s.rd (Reg.NOC_PROBE_CFG_POINT k) == p.src
        && s.probeMatch k (reqHead p p.inj 0) then
      let c := (s.now - p.since) * 3 / 8
      (t.wr (Reg.NOC_PROBE_LMAX k) (max (t.rd (Reg.NOC_PROBE_LMAX k)) c)).add (Reg.NOC_PROBE_LSUM k) c
    else t) s

/-! ### Accesses of hard masters that complete in one command (R299, R304, R306) -/

/-- The NI that a request goes through (R298); none for a master with a path of its own. Millstone reads and writes its descriptors,
indexes and results through NI 84. -/
def reqNi (q : Req) : Option Nat := if q.path = 0 then some q.id else if q.path = 2 ∧ q.id = 3 then some 84 else none

/-- `n` bytes from `a` in pieces that no 4 KiB boundary cuts: the address and length of each. -/
def piecesOf (a n : Nat) : List (Nat × Nat) :=
  (List.range ((a + n - 1) / 4096 - a / 4096 + 1)).map (fun k =>
    let lo := max a ((a / 4096 + k) * 4096)
    (lo, min (a + n) ((a / 4096 + k + 1) * 4096) - lo))

/-- One request of NI `i` goes to its target and its response comes back, by the entry of the NI that it chooses for the address:
done, held where its entry is PENDING, its route is not clear or another head goes first, or a bus error (R304, R310, R315). -/
def State.passPiece (s : State) (i op key urg tid a n : Nat) : MRes × State :=
  match s.targetOf a with
  | none => (.err, s)
  | some e =>
    match s.reach i a with
    | .ok =>
      let p0 := s.newPkt i e op key urg tid a (List.replicate n none)
      let p := { p0 with dst := s.rd (Reg.NOC_RT_CTL_DST i e), hops := s.entryHops i e, phase := 1 }
      let (p1, s1) := s.inject p 0
      let (p2, s2) := s1.travel p1 (stopsLeft p1) []
      if !arrived p2 then (.held, s)
      else
        let (p3, s3) := s2.inject (s2.turned p2 0 []) 0
        let (p4, s4) := s3.travel p3 (stopsLeft p3) []
        if arrived p4 then (.ok, s4.probeLatency { p4 with inj := p1.inj }) else (.held, s)
    | r => (r, s)

/-- The requests of one access, in order: the first that is held or refused ends it, with nothing done. -/
def State.passAll (s : State) (i op key urg tid : Nat) : List (Nat × Nat) → MRes × State
  | [] => (.ok, s)
  | x :: r =>
    match s.passPiece i op key urg tid x.1 x.2 with
    | (.ok, t) => t.passAll i op key urg tid r
    | (e, _) => (e, s)

/-- The urgency of an access: that of its master, or of its NI where the master supplies none; a fabric port takes that of the
entry (R306). -/
def State.accUrg (s : State) (i a : Nat) (u : Option Nat) : Nat :=
  if i < 80 then s.rd (Reg.NOC_RT_CTL_URG i ((s.targetOf a).getD 0)) else u.getD (s.rd (Reg.NOC_NI_CFG_URG i))

/-- An access of `n` bytes from `a` passes the network, where its master uses it. -/
def State.netPass (s : State) (q : Req) (u : Option Nat) (op tid a n : Nat) : MRes × State :=
  match reqNi q with
  | none => (.ok, s)
  | some i =>
    match s.passAll i op q.key (s.accUrg i a u) tid (piecesOf a n) with
    | (.ok, t) => (.ok, t)
    | (r, _) => (r, s)

end Sys2Proof.Machine
end

