-- ==== Sys2Proof/Machine/Cache.lean ====
section
/-! DEFINITION. The caches of the Miller complex (R324, R325) and the coherent windows (R303). -/

namespace Sys2Proof.Machine

/-! ### Caches (R324, R325, R327) -/

/-- Bytes of the Dahlia store by offset in the read window (R421). -/
def State.dahBytes (s : State) (off n : Nat) : List Byte := s.readMem (0x1100000000 + off) n

/-- The way of an access over the network: one that Peony refuses is judged first, and does not travel (R459, R460). -/
def State.netFor (s : State) (q : Req) (u : Option Nat) (wr : Bool) (a n : Nat) : MRes × State :=
  match s.guard q wr a n with
  | some t => (.err, t)
  | none => s.netPass q u (b2n wr) 0 a n

/-- A read of Dahlia's window over the network (R421): a bus error while the service bundle is FENCED (R230). -/
def State.dahRead (s : State) (q : Req) (u : Option Nat) (a n : Nat) : List Byte × MRes × State :=
  match s.netFor q u false a n with
  | (.ok, t) => if s.rd (bunMode .svc) = 2 then ([], .err, t) else (t.readMem a n, .ok, t)
  | (r, t) => ([], r, t)

/-- The key index of core accesses (R325). -/
def State.milKey (s : State) : Nat := s.rd Reg.MIL_CTRL_KEY

/-- A line read through NI 93 (R325). -/
def State.lineRead (s : State) (a : Nat) : List Byte × MRes × State :=
  match s.rangeOf a with
  | some .rom => ((List.range 64).map (fun i => BitVec.ofNat 8 (Config.romByte (a - 0x3F00000000 + i))), .ok, s)
  | some .dahlia => s.dahRead (s.req .miller s.milKey) none a 64
  | _ =>
    match s.netFor (s.req .miller s.milKey) none false a 64 with
    | (.ok, t) => t.memRead (s.req .miller s.milKey) a 64
    | (r, t) => ([], r, t)

/-- A dirty line written through NI 93: a whole line, so that no merge is needed (R239). -/
def State.lineWrite (s : State) (a : Nat) (d : List Byte) : MRes × State :=
  match s.netFor (s.req .miller s.milKey) none true a d.length with
  | (.ok, t) => t.memWrite (s.req .miller s.milKey) a d
  | (r, t) => (r, t)

/-- Set a line of the coherent caches. -/
def State.setLine (s : State) (l : Nat) (x : CLine) : State := { s with cache := Tab.put s.cache l x }

/-- Take a line out of the coherent caches. -/
def State.dropLine (s : State) (l : Nat) : State := { s with cache := Tab.del s.cache l }

/-- Write a dirty line back and keep it clean; a write-back that is held leaves it dirty. -/
def State.cleanLine (s : State) (l : Nat) : State :=
  match Tab.find s.cache l with
  | some ⟨true, d⟩ =>
    let (r, t) := s.lineWrite (64 * l) d
    if r = .held then t else t.setLine l ⟨false, d⟩
  | _ => s

/-- The caches give a line up, writing it back where it is dirty. -/
def State.giveUp (s : State) (l : Nat) : State :=
  let t := s.cleanLine l
  match Tab.find t.cache l with
  | some ⟨true, _⟩ => t
  | _ => t.dropLine l

/-- The lines that the 4 MiB L2 holds, which includes every line of the L1D caches, and those of a 64 KiB L1I (R324). -/
def l2Lines : Nat := 65536
def l1iLines : Nat := 1024

/-- Room for one more line in the L2: where it is full, the caches give up a line that the manual leaves open. -/
def State.l2Room (s : State) : State :=
  if s.cache.length < l2Lines then s
  else
    let f := s.fresh
    match s.cache[f.1 % s.cache.length]? with
    | some x => f.2.giveUp x.1
    | none => f.2

/-- Room for one more line in the L1I of core `c`, likewise. -/
def State.l1iRoom (s : State) (c : Nat) : State :=
  let mine := s.icache.filter (fun x => x.1 / 2 ^ 40 == c)
  if mine.length < l1iLines then s
  else
    let f := s.fresh
    match mine[f.1 % mine.length]? with
    | some x =>
      let t := f.2
      { t with icache := Tab.del t.icache x.1 }
    | none => f.2

/-- What the check of a cache array finds at an access (R324): nothing, a correctable error, or an uncorrectable one. -/
inductive ArrayErr where
  | none | ce | ue
deriving DecidableEq, Repr

/-- A line for an access: from the caches, or allocated from memory, for which a full L2 waits until it has written a line back; `e` is
what the array check finds on a hit. -/
def State.lineFor (s : State) (e : ArrayErr) (l : Nat) : List Byte × MRes × State :=
  let fill (t0 : State) : List Byte × MRes × State :=
    let t := t0.l2Room
    if l2Lines ≤ t.cache.length then ([], .held, t)
    else
      match t.lineRead (64 * l) with
      | (d, .ok, u) => (d, .ok, u.setLine l ⟨false, d⟩)
      | x => x
  match Tab.find s.cache l with
  | none => fill s
  | some x =>
    match e with
    | .none => (x.data, .ok, s)
    | .ce => (x.data, .ok, s.classErr 5 false)
    | .ue =>
      let t := s.classErr 5 true
      if x.dirty then (x.data, .ue, t.srmEvt 1) else fill (t.dropLine l)

/-- The lines of a byte range for an access, with the bytes of all of them. -/
def State.linesFor (s : State) (e : ArrayErr) (ls : List Nat) : List Byte × MRes × State :=
  ls.foldl (fun (acc : List Byte × MRes × State) l =>
    let (d, r, t) := acc.2.2.lineFor e l
    (acc.1 ++ d, acc.2.1.join r, t)) ([], .ok, s)

/-- The 64-byte lines, by number, that `n` bytes from `a` touch. -/
def linesOf (a n : Nat) : List Nat := (unitsOf 64 a n).map (fun u => u / 64)

/-- Bytes `d` laid over a run of lines from byte `o` on. -/
def overlay (bs d : List Byte) (o : Nat) : List Byte := bs.take o ++ d ++ bs.drop (o + d.length)

/-- A store to cached lines, which become dirty; the reservations of other harts on them are lost (R328). -/
def State.cacheStore (s : State) (c a : Nat) (bs d : List Byte) : State :=
  let ls := linesOf a d.length
  let new := overlay bs d (a % 64)
  let s1 := State.each (List.range ls.length) (fun i t =>
    t.setLine (a / 64 + i) ⟨true, (new.drop (64 * i)).take 64⟩) s
  State.each (List.range 4) (fun h t =>
    t.wrIf (h != c && ls.contains (s.rd (Hid.lrAt h))) (Hid.lrV h) 0) s1

/-- A snoop of a coherent window (R303): a write invalidates the lines that it touches, with the reservations on them
(R328); before a read a dirty line is written back. -/
def State.snoop (s : State) (wr : Bool) (a n : Nat) : State :=
  State.each (linesOf a n) (fun l t =>
    if wr then
      State.each (List.range 4) (fun h u => u.wrIf (s.rd (Hid.lrAt h) == l) (Hid.lrV h) 0) (t.dropLine l)
    else t.cleanLine l) s

/-- The access lies in an enabled coherent window (R303). -/
def State.coherent (s : State) (a n : Nat) : Bool :=
  (List.range 4).any (fun w => s.on (Reg.NOC_COH_WIN_CTL_EN w)
    && overlaps a n (4096 * s.rd (Reg.NOC_COH_WIN_BASE w)) (4096 * s.rd (Reg.NOC_COH_WIN_SIZE w)))

/-- A request goes through an NI other than that of the Miller cores (R298, R303). -/
def networked (q : Req) : Bool := (q.path == 0 && q.id != 93) || (q.path == 2 && q.id == 3)

/-- A line of a byte range is still dirty in the caches: its write-back is held. -/
def State.dirtyIn (s : State) (a n : Nat) : Bool :=
  (linesOf a n).any (fun l => match Tab.find s.cache l with | some x => x.dirty | none => false)

/-- What stands before a request that its target serves: the snoop of a coherent window, for which a read waits until each dirty
line has been written back (R303). -/
def State.snoopFor (s : State) (q : Req) (wr : Bool) (a n : Nat) : MRes × State :=
  if networked q && s.coherent a n && (s.guard q wr a n).isNone && (s.memGate q a n).1 == .ok then
    let t := s.snoop wr a n
    if !wr && t.dirtyIn a n then (.held, t) else (.ok, t)
  else (.ok, s)

/-- A read of memory over the network, with the urgency that the master supplies, if any. -/
def State.coReadU (s : State) (q : Req) (u : Option Nat) (a n : Nat) : List Byte × MRes × State :=
  match s.netFor q u false a n with
  | (.ok, t) =>
    match t.snoopFor q false a n with
    | (.ok, t1) => t1.memRead q a n
    | (r, t1) => ([], r, t1)
  | (r, t) => ([], r, t)

/-- A read of memory over the network. -/
def State.coRead (s : State) (q : Req) (a n : Nat) : List Byte × MRes × State := s.coReadU q none a n

/-- A write of memory over the network, with byte enables and the urgency that the master supplies, if any. -/
def State.coWriteU (s : State) (q : Req) (u : Option Nat) (a : Nat) (bs : List (Option Byte)) : MRes × State :=
  match s.netFor q u true a bs.length with
  | (.ok, t) => (t.snoopFor q true a bs.length).2.memWriteBe q a bs
  | (r, t) => (r, t)

/-- A write of memory over the network, with byte enables. -/
def State.coWriteBe (s : State) (q : Req) (a : Nat) (bs : List (Option Byte)) : MRes × State := s.coWriteU q none a bs

/-- A write of every byte of a range over the network. -/
def State.coWrite (s : State) (q : Req) (a : Nat) (bs : List Byte) : MRes × State := s.coWriteBe q a (bs.map some)

end Sys2Proof.Machine
end

