-- ==== Sys2Proof/Machine/Noc.lean ====
section
/-! DEFINITION. The on-chip network (chapter 10): requests at their source, probes, link retry, routers, and the
recovery barrier. A request is served at its target in Serve.lean. -/

namespace Sys2Proof.Machine

/-! ### Requests at their source (R304, R306, R310, R315) -/

/-- Replace a request by its number. -/
def State.setPkt (s : State) (p : Pkt) : State :=
  { s with packets := s.packets.map (fun q => if q.id = p.id then p else q) }

/-- Take a request out. -/
def State.dropPkt (s : State) (p : Pkt) : State :=
  ({ s with packets := s.packets.filter (fun q => q.id != p.id) }).niCounts p.src

/-- The request numbered `id`. -/
def State.pkt (s : State) (id : Nat) : Option Pkt := s.packets.find? (fun p => p.id == id)

/-- A request is answered by its source NI with an ERR code and is not sent; a posted write ends there. -/
def State.answerAtSource (s : State) (p : Pkt) (err : Nat) : State :=
  if p.op = 2 then (s.dropPkt p).postLost p else s.setPkt { p with phase := 3, err := err }

/-- Take a held request as far as its source lets it go (R304, R306, R310, R315, R459, R460): it stays held while its
entry is PENDING or its route is not clear, is answered by the NI where the entry does not serve it or Peony refuses it,
and is otherwise launched with the contents of its entry. -/
def State.launch (s : State) (p : Pkt) : State :=
  let i := p.src
  let e := p.entry
  let dst := s.rd (Reg.NOC_RT_CTL_DST i e)
  if s.on (Reg.NOC_RT_CTL_PENDING i e) then s
  else if !s.on (Reg.NOC_RT_CTL_VALID i e) || !(s.servers p.addr).contains dst then s.answerAtSource p 1
  else
    let key := if i < 80 then s.rd (Reg.NOC_RT_CTL_KEY i e) else p.key
    let urg := if i < 80 then s.rd (Reg.NOC_RT_CTL_URG i e) else p.urg
    match s.guard (s.req (niMaster i) key) (p.op != 0) p.addr p.bytes.length with
    | some t => t.answerAtSource p 1
    | none =>
      if s.routeClear i (s.entryHops i e) then
        let p0 : Pkt := { p with dst := dst, key := key, urg := urg, hops := s.entryHops i e, phase := 1, since := s.now }
        let (p1, t) := s.inject p0 ((s.now - p.came) * 3 / 8)
        t.setPkt { p1 with inj := (p1.urg, p1.wait) }
      else s

/-- A request enters its NI: `bytes` are those written with their enables, or one absent entry for each byte read. It is not
taken while 64 of its class are outstanding (R163, NOC_NI_STAT). -/
def State.issue (s : State) (i entry op key urg tid addr : Nat) (bytes : List (Option Byte)) : State :=
  if 64 ≤ (s.packets.filter (fun p => p.src == i && !late p && (p.op == 0) == (op == 0))).length then s.answer .held []
  else
    let p := s.newPkt i entry op key urg tid addr bytes
    ((s.enqueue p).launch p).answer .ok []

/-- NOC_REQUEST (R299, R304, R306): a master's request of `n` bytes is routed by its NI's table and injected, held or
refused at its source. A fabric port names its entry in `route`; a hard master's NI chooses the target by address, and
its own urgency applies where it gives one. An address that nothing serves is answered with BUS_ERROR. -/
def execNocRequest (w : Requester) (route : Fin 256) (op : Fin 3) (key : Fin 16) (urg : Option (Fin 8)) (tid : Fin 64)
    (addr : Nat) (n : Fin 4097) (data : List (Option Byte)) (s : State) : Host.Outcome State Fault Refusal :=
  .next (match niOf w with
    | none => s.answer .err []
    | some i =>
      let bytes := (List.range n).map (fun k => if op.val = 0 then none else (data[k]?).getD none)
      if i < 80 then s.issue i route op 0 0 tid addr bytes
      else match s.targetOf addr with
        | none => s.answer .err []
        | some e => s.issue i e op key ((urg.map (fun u => u.val)).getD (s.rd (Reg.NOC_NI_CFG_URG i))) tid addr bytes)

/-! ### Responses (R302, R309) -/

/-- Bit `i` of HST_EVT with event 240 + `i` (R380). -/
def State.hstEvt (s : State) (i : Nat) : State := s.raiseB Reg.HST_EVT_EVT i (240 + i)

/-- The host port cannot serve a request (R352): counted, logged first, event 247. KIND: 0 UR, 1 CA, 2 poisoned, 3 dropped. -/
def State.hostErr (s : State) (kind a : Nat) : State :=
  let s1 := s.inc Reg.HST_ERR_CNT 1
  let s2 := if s.on Reg.HST_ERR_INFO_VALID then s1.wr Reg.HST_ERR_INFO_OVF 1
    else ((s1.wr Reg.HST_ERR_INFO_VALID 1).wr Reg.HST_ERR_INFO_KIND kind).wr Reg.HST_ERR_ADDR a
  s2.hstEvt 7

/-- A request that is ready to be answered: served, or answered at its source, with no earlier one of its source and TID
outstanding (R309). -/
def State.answerable (s : State) (p : Pkt) : Bool :=
  decide (2 ≤ p.phase) && s.packets.all (fun q => decide (p.id ≤ q.id) || q.src != p.src || q.tid != p.tid || q.op == 2)

/-- The result that a response carries, as the master sees it. -/
def errRes (e : Nat) : MRes := if e = 0 then .ok else .err

/-- A response reaches its source NI and its master (R302, R309, R166, R321); a fabric port keeps it for the island,
unless the island is in reset. The host logs the error of its own (R352), and a core takes one as an access fault (cause 5 or 7, DEDUCED
from R247 and R248, log entry 22), which ends its reservation (R328). -/
def State.giveBack (s : State) (p : Pkt) : State :=
  let s1 := s.dropPkt p
  let n := p.src
  if p.void then s1
  else if n < 80 then
    if s.rd (Reg.ISL_STAT_STATE n) = 4 then s1
    else
      let r : FpResp := ⟨p.tid, p.op == 1, p.rdata, p.err⟩
      { s1 with fpResps := Tab.set s1.fpResps n [] (Tab.getD s1.fpResps n [] ++ [r]) }
  else if n = 93 ∧ p.err ≠ 0 then (s1.wr (Hid.lrV (p.tid % 4)) 0).answer .err [if p.op = 0 then 5 else 7]
  else if n = 94 ∧ p.err ≠ 0 then (s1.hostErr (if p.op = 0 then 1 else 3) p.addr).answer .err []
  else s1.answer (errRes p.err) p.rdata

/-- The head of a packet goes on as far as it may: out of the NI that its trip starts from, where it is still there, and through
the routers. `waits` are the cycles that it waits in the NI and in each router from where it stands on. -/
def State.move (s : State) (p : Pkt) (waits : List Nat) : Pkt × State :=
  if p.pos = 0 then
    let a := s.inject p (waits.headD 0)
    a.2.travel a.1 (stopsLeft a.1) waits.tail
  else s.travel p (stopsLeft p) waits

/-- NOC_RESPONSE (R302, R308, R309, R315): the response of a request travels back and is delivered; `waits` are the cycles that
its head waits on the way. A response that is not ready waits; one that another head precedes, or that a router does not take,
stays where it has come to. -/
def execNocResponse (id : Nat) (waits : List Nat) (s : State) : Host.Outcome State Fault Refusal :=
  .next (match s.pkt id with
    | none => s
    | some p =>
      if p.op = 2 ∨ s.answerable p = false then s.answer .held []
      else if p.phase = 3 then s.giveBack p
      else
        let a := s.move p waits
        if arrived a.1 then (a.2.probeLatency a.1).giveBack a.1 else (a.2.setPkt a.1).answer .held [])

/-- POSTED_ACK (R302, R308, R315): the acknowledgement of a posted write reaches its source NI, which does not pass it on. -/
def execPostedAck (id : Nat) (waits : List Nat) (s : State) : Host.Outcome State Fault Refusal :=
  .next (match s.pkt id with
    | none => s
    | some p =>
      if p.op ≠ 2 ∨ p.phase ≠ 2 then s.answer .held []
      else
        let a := s.move p waits
        if arrived a.1 then (a.2.probeLatency a.1).dropPkt a.1 else (a.2.setPkt a.1).answer .held [])

/-! ### Route tables (R304, R305, R310) -/

/-- A request through the old contents of an entry is still outstanding (R310). -/
def State.entryBusy (s : State) (i e : Nat) : Bool :=
  s.packets.any (fun p => p.src == i && p.entry == e && (p.phase == 1 || p.phase == 2) && !late p)

/-- The held contents of an entry take effect together, and PENDING clears (R310). -/
def State.routeCommit (s : State) (i e : Nat) : State :=
  if !s.on (Reg.NOC_RT_CTL_PENDING i e) || s.entryBusy i e then s
  else
    let v := s.rd (Hid.rtPend i e)
    let ctl := v / 2 ^ 53
    ((((((s.wr (Reg.NOC_RT_ROUTE_DIR i e) v).wr (Reg.NOC_RT_ROUTE_HOPS i e) (v / 2 ^ 48)).wr
      (Reg.NOC_RT_CTL_VALID i e) ctl).wr (Reg.NOC_RT_CTL_DST i e) (ctl / 2)).wr (Reg.NOC_RT_CTL_URG i e) (ctl / 2 ^ 8)).wr
      (Reg.NOC_RT_CTL_KEY i e) (ctl / 2 ^ 11)).wr (Reg.NOC_RT_CTL_PENDING i e) 0

/-- A write of NOC_RT_CTL with the route that stands in NOC_RT_ROUTE (R304, R305, R310). -/
def State.routeUpdate (s : State) (i e w : Nat) : State :=
  let set := s.on (Hid.rtStgSet i e)
  let dir := if set then s.rd (Hid.rtStgDir i e) else s.rd (Reg.NOC_RT_ROUTE_DIR i e)
  let hops := if set then s.rd (Hid.rtStgHops i e) else s.rd (Reg.NOC_RT_ROUTE_HOPS i e)
  let valid := bit w 31
  let dst := bits w 22 16
  if valid && !legalRoute i dst dir hops then s.deny 0x008
  else
    let ctl := b2n valid + 2 * dst + 2 ^ 8 * bits w 10 8 + 2 ^ 11 * bits w 7 4
    ((((s.wr (Hid.rtPend i e) (dir + 2 ^ 48 * hops + 2 ^ 53 * ctl)).wr (Hid.rtStgSet i e) 0).wr
      (Reg.NOC_RT_CTL_PENDING i e) 1)).routeCommit i e

/-- ROUTE_UPDATE (R305, R310): a write of NOC_RT_CTL. It takes effect at once where nothing is outstanding through the
old contents. -/
def execRouteUpdate (i : Fin 97) (e : Fin 256) (ctl : Word) (s : State) : Host.Outcome State Fault Refusal :=
  .next (s.routeUpdate i e ctl.toNat)

/-- ROUTE_COMMIT (R310): the last request through the old contents has been answered. -/
def execRouteCommit (i : Fin 97) (e : Fin 256) (s : State) : Host.Outcome State Fault Refusal :=
  .next (s.routeCommit i e)

/-! ### Links (R313) -/

/-- FLIT_REPLAY (R313): a link replays, with or without success; the sixteenth failure in a row starts a retrain. -/
def execFlitReplay (m : Fin 160) (ok : Bool) (s : State) : Host.Outcome State Fault Refusal :=
  .next (if !isLink m || decide (2 ≤ s.rd (Reg.NOC_LINK_STAT_STATE m)) then s
    else
      let s1 := s.inc (Reg.NOC_LINK_STAT_RETRIES m) 1
      if ok then (s1.wr (Hid.linkFails m) 0).wr (Reg.NOC_LINK_STAT_STATE m) 0
      else if s.rd (Hid.linkFails m) = 15 then
        (((s1.recBegin.wr (Hid.linkFails m) 0).wr (Reg.NOC_LINK_STAT_STATE m) 2)).raiseB Reg.NOC_EVT_EVT 5 237
      else (s1.wr (Hid.linkFails m) (s.rd (Hid.linkFails m) + 1)).wr (Reg.NOC_LINK_STAT_STATE m) 1)

/-- A router leaves ACTIVE (R314), with its cause: 0 command, 1 link repair, 2 self-test. -/
def State.rtrDrain (s : State) (n cause : Nat) : State :=
  if s.rd (Reg.NOC_RTR_STAT_STATE n) ≠ 0 then s
  else
    ((((s.recBegin.wr (Reg.NOC_RTR_STAT_STATE n) 1).wr (Reg.NOC_RTR_STAT_CAUSE n) cause).wr (Hid.rtrDone n) 0).wr
      (Hid.rtrPass n) 0).raiseB Reg.NOC_EVT_EVT 1 233

/-- A router returns to ACTIVE (R314), which ends its recovery (R312). -/
def State.rtrActive (s : State) (n : Nat) : State :=
  (((s.wr (Reg.NOC_RTR_STAT_STATE n) 0).wr (Hid.rtrPass n) 0).raiseB Reg.NOC_EVT_EVT 2 234).recEnd 1

/-- A router fails its self-test or repair (R314). -/
def State.rtrFault (s : State) (n : Nat) : State := ((s.wr (Reg.NOC_RTR_STAT_STATE n) 3).raiseB Reg.NOC_EVT_EVT 6 238).journal 6 8

/-- LINK_RETRAIN (R313, R314): a retrain ends, in UP or in FAILED. `maps` names the routers at its ends to which link
repair applies a new lane map; each is drained for it. -/
def execLinkRetrain (m : Fin 160) (ok : Bool) (maps : List (Fin 80)) (s : State) : Host.Outcome State Fault Refusal :=
  .next (if s.rd (Reg.NOC_LINK_STAT_STATE m) ≠ 2 then s
    else if ok then
      let ends := maps.filter (fun n => n.val == m.val / 2 || some n.val == hopTo (m.val / 2) (1 - m.val % 2))
      let s1 := State.each ends (fun n t => t.rtrDrain n 1) s
      (s1.wr (Reg.NOC_LINK_STAT_STATE m) 0).recEnd 2
    else ((s.wr (Reg.NOC_LINK_STAT_STATE m) 3).raiseB Reg.NOC_EVT_EVT 6 238).recEnd 2)

/-! ### Routers (R314, R315, R319) -/

/-- Codes of NOC_CMD (R319). -/
def State.nocReject (s : State) (code : Nat) : State := (s.rejMark 0x008 code).raiseB Reg.NOC_EVT_EVT 0 232

/-- DRAIN of NOC_CMD (R319). -/
def State.nocDrain (s : State) (n : Nat) : State :=
  if n < 80 ∧ s.rd (Reg.NOC_RTR_STAT_STATE n) = 0 then s.rtrDrain n 0 else s.nocReject 0x01

/-- RESUME of NOC_CMD (R314, R319). -/
def State.nocResume (s : State) (n : Nat) : State :=
  let st := s.rd (Reg.NOC_RTR_STAT_STATE n)
  if n < 80 ∧ ((st = 2 ∧ s.rd (Reg.NOC_RTR_STAT_CAUSE n) = 0) ∨ (st = 3 ∧ s.on (Hid.rtrPass n))) then s.rtrActive n
  else s.nocReject 0x02

/-- CLR_CNT of NOC_CMD (R319): the probe counts, NOC_NI_DROP, NOC_NI_UNAV and the drop logs. -/
def State.nocClrCnt (s : State) : State :=
  let s1 := State.each (List.range 8) (fun k t => ((((t.wr (Reg.NOC_PROBE_PKTS k) 0).wr (Reg.NOC_PROBE_FLITS k) 0).wr
    (Reg.NOC_PROBE_LMAX k) 0).wr (Reg.NOC_PROBE_LSUM k) 0).wr (Reg.NOC_PROBE_LOST k) 0) s
  State.each (List.range 97) (fun i t => (((((t.wr (Reg.NOC_NI_DROP i) 0).wr (Reg.NOC_NI_UNAV i) 0).wr
    (Reg.NOC_NI_DROP_SRC_VALID i) 0).wr (Reg.NOC_NI_DROP_SRC_KEY i) 0).wr (Reg.NOC_NI_DROP_SRC_SRC i) 0).wr
    (Reg.NOC_NI_DROP_ADDR i) 0) s1

/-- A command written to NOC_CMD. -/
def State.nocCmd (s : State) (code target : Nat) : State :=
  if code = 0x01 then s.nocDrain target else if code = 0x02 then s.nocResume target
  else if code = 0x03 then s.nocClrCnt else s.nocReject code

/-- NOC_DRAIN (R314, R319). -/
def execNocDrain (n : Fin 128) (s : State) : Host.Outcome State Fault Refusal := .next (s.nocDrain n)

/-- NOC_RESUME (R314, R319). -/
def execNocResume (n : Fin 128) (s : State) : Host.Outcome State Fault Refusal := .next (s.nocResume n)

/-- NOC_CLR_CNT (R319). -/
def execNocClrCnt (s : State) : Host.Outcome State Fault Refusal := .next s.nocClrCnt

/-- A router holds the head of a packet. -/
def State.rtrHolds (s : State) (n : Nat) : Bool := s.packets.any (fun p => (stopOf p).map (fun x => x.rtr) == some n)

/-- ROUTER_DRAINED (R314): no flit is left in a router in DRAINING. -/
def execRouterDrained (n : Fin 80) (s : State) : Host.Outcome State Fault Refusal :=
  .next (if s.rd (Reg.NOC_RTR_STAT_STATE n) = 1 ∧ s.rtrHolds n = false then s.wr (Reg.NOC_RTR_STAT_STATE n) 2 else s)

/-- ROUTER_RECONF_DONE (R314): reconfiguration of a drained router ends. After a DRAIN command it waits for RESUME; a
self-test or a repair that fails takes it to FAULT. -/
def execRouterReconfDone (n : Fin 80) (ok : Bool) (s : State) : Host.Outcome State Fault Refusal :=
  .next (if s.rd (Reg.NOC_RTR_STAT_STATE n) ≠ 2 then s
    else if s.rd (Reg.NOC_RTR_STAT_CAUSE n) = 0 then s.wr (Hid.rtrDone n) 1
    else if ok then s.rtrActive n else s.rtrFault n)

/-- The first drop at an NI since CLR_CNT is logged; every drop is counted and raises event 236 (R315, R316). -/
def State.nocDropped (s : State) (i : Nat) (p : Pkt) : State :=
  let s1 := s.inc (Reg.NOC_NI_DROP i) 1
  let s2 := if s1.on (Reg.NOC_NI_DROP_SRC_VALID i) then s1
    else (((s1.wr (Reg.NOC_NI_DROP_SRC_VALID i) 1).wr (Reg.NOC_NI_DROP_SRC_KEY i) p.key).wr (Reg.NOC_NI_DROP_SRC_SRC i)
      p.src).wr (Reg.NOC_NI_DROP_ADDR i) p.addr
  s2.raiseB Reg.NOC_EVT_EVT 4 236

/-- The routers and links that a request's route, and so its response's, names. -/
def State.namesPart (s : State) (p : Pkt) (router : Bool) (x : Nat) : Bool :=
  let hops := if p.phase = 0 then s.entryHops p.src p.entry else p.hops
  if router then (routeRouters (niRouter p.src) hops).contains x else (routeLinks (niRouter p.src) hops).contains x

/-- The part lies on the way that a packet's head has still to go. -/
def ahead (p : Pkt) (router : Bool) (x : Nat) : Bool :=
  let r := stopsLeft p
  if router then r.tail.any (fun y => y.rtr == x) else (r.take (r.length - 1)).any (fun y => hopLink y.rtr y.outp == x)

/-- A packet is held for the part: at its source, or by a router upstream of it. -/
def heldFor (p : Pkt) (router : Bool) (x : Nat) : Bool := p.phase == 0 || ahead p router x

/-- What NOC_DRAIN_TMO does to one request whose route names the part (R315): a held posted write is dropped, and an acknowledgement
held upstream is removed with it. A non-posted request is answered; one held upstream is removed, and one that has passed the part
goes on, its late response discarded. -/
def State.drainTmo (s : State) (p : Pkt) (router : Bool) (x : Nat) : State :=
  if p.phase = 3 then s
  else if p.void then (if heldFor p router x then s.dropPkt p else s)
  else if p.op = 2 then
    if !heldFor p router x then s
    else if p.phase = 2 then s.dropPkt p
    else ((s.dropPkt p).nocDropped p.src p).postLost p
  else
    let s1 := (s.inc (Reg.NOC_NI_UNAV p.src) 1).raiseB Reg.NOC_EVT_EVT 3 235
    let goesOn : Pkt := { p with void := true, err := 2 }
    let ans : Pkt := { p with phase := 3, err := 2, rdata := [], pos := 0 }
    if heldFor p router x then s1.setPkt ans
    else (s1.setPkt goesOn).enqueue { ans with id := s1.rd Hid.pktNext }

/-- DRAIN_TIMEOUT (R315): a router has been out of ACTIVE, or a link in FAILED (`router` false), for NOC_DRAIN_TMO. -/
def execDrainTimeout (router : Bool) (x : Fin 160) (s : State) : Host.Outcome State Fault Refusal :=
  .next (if (if router then decide (x.val < 80) && s.rd (Reg.NOC_RTR_STAT_STATE x) != 0
        else s.rd (Reg.NOC_LINK_STAT_STATE x) == 3) then
      State.each (s.packets.filter (fun p => s.namesPart p router x)) (fun p t => t.drainTmo p router x) s
    else s)

/-- RECOVERY_BARRIER (R312): every request issued before the oldest recovery that awaits its barrier has completed or been
answered. -/
def execRecoveryBarrier (s : State) : Host.Outcome State Fault Refusal :=
  .next (match s.barriers with
    | [] => s
    | b :: rest =>
      if s.packets.any (fun p => decide (p.id < b / 8) && p.phase != 3 && !late p) then s
      else
        let t := { s with fifos := Tab.set s.fifos 48 [] rest }
        ((t.add Reg.NOC_BARRIER_COUNT 1).wr Reg.NOC_BARRIER_CAUSE (b % 8)).raise 8)

/-- What an ENGINE reset does to the network (R321): the probes stop, and requests in flight from masters in reset
complete with their responses discarded. -/
def State.nocEngineReset (s : State) : State :=
  let s1 := State.each (List.range 8) (fun k t => t.wr (Reg.NOC_PROBE_CFG_EN k) 0) s
  { s1 with packets := s1.packets.map (fun p =>
      if p.src < 80 ∨ p.src = 84 ∨ p.src = 90 then { p with void := true } else p) }

end Sys2Proof.Machine
end

