-- ==== Sys2Proof/Machine/Fabric.lean ====
section
/-! DEFINITION. Islands: pattern memory and taps, the fabric port, context switches (chapter 5). -/

namespace Sys2Proof.Machine

/-! ### Island events (R182) and rejects (R181) -/

/-- Event 512 + 6 n + i with its bit of ISL_EVT (R182). -/
def State.islEvent (s : State) (n i : Nat) : State := s.raiseB (Reg.ISL_EVT_EVT n) i (512 + 6 * n + i)

/-- A command that island `n` rejects (R10, R181). -/
def State.islReject (s : State) (n code : Nat) : State := (s.rejMark (0x040 + n) code).islEvent n 0

/-! ### Planes: what their frames spell (R171, R383) -/

/-- Copy `k` of the direction code in a steering frame (R222). -/
def steerCode (d k : Nat) : Nat := Config.steerCopy d k % 16

/-- The code of a steering frame may be put into effect (R222, R223): its 80 copies agree, with exactly one bit set. -/
def steerOk (d : Nat) : Bool :=
  popCount 4 (steerCode d 0) == 1 && (List.range 80).all (fun k => steerCode d k == steerCode d 0)

/-- A direction code as it is read: 0 OFF, 1 L0, 2 UP, 3 TURN (R222). -/
def steerDir (d : Nat) : Nat := (lowestBit 4 (steerCode d 0)).getD 0

/-- An item of a plane of an island: 1 whether it implements the slave channel, 2 and
3 the initial values of F0 and F1, 4 and 5 those of the I/O registers, 16 + k the source of tap k, 64 + x the standard of I/O
cell x, 256 + 4 (2 t + p) + j the VAL, MASK and EN of a pattern entry, and from 1024 on the items of Machine/Cell.lean. -/
def State.planeItem (s : State) (n c k : Nat) : Nat :=
  Config.planeField ((List.range 1600).map (fun f => s.rd (Hid.cfgFrame n c f))) k

/-- The D2 stages of a context are cleared, those before the I/O cells too. -/
def State.d2Clear (s : State) (n c : Nat) : State :=
  let s1 := s.wr (Hid.d2 n c) 0
  if 70 ≤ n ∧ n < 78 then s1.wr (Hid.d2Io (n - 70) c) 0 else s1

/-- The output and enable registers of the user I/O take their initial values of plane `c` (R173). -/
def State.ioInit (s : State) (n c : Nat) : State :=
  if 70 ≤ n ∧ n < 78 then
    (s.wr (Hid.ioReg (n - 70)) (s.planeItem n c 4)).wr (Hid.ioReg2 (n - 70)) (s.planeItem n c 5)
  else s

/-- A plane whose load is complete takes effect in the hard parts of the island: pattern memory, taps, Millrace direction,
slave channel, and the initial values of its banked flip-flops (R159, R161, R165, R173, R222). -/
def State.planeLoaded (s : State) (n c : Nat) : State :=
  let v := s.planeItem n c
  let s1 := State.each (List.range 64) (fun t a => State.each (List.range 2) (fun p b =>
    let k := 256 + 4 * (2 * t + p)
    (((((((b.wr (Reg.ISL_MU_VAL0 n c t p) (v k)).wr (Reg.ISL_MU_VAL1 n c t p) (v k / 2 ^ 32)).wr
      (Reg.ISL_MU_MASK0 n c t p) (v (k + 1))).wr (Reg.ISL_MU_MASK1 n c t p) (v (k + 1) / 2 ^ 32)).wr
      (Reg.ISL_MU_CTRL_EN n c t p) (v (k + 2))).wr (Reg.ISL_MU_CTRL_ERR n c t p) 0).wr (Hid.muSyn n c t p) 0)) a) s
  let s2 := State.each (List.range 8) (fun k a => a.wr (Hid.tapSrc n c k) (v (16 + k))) s1
  let s3 := s2.wr (Hid.mrDir n c) (steerDir (s.rd (Hid.cfgFrame n c 1599)))
  let s4 := s3.wr (Hid.slaveCtx n) (if v 1 % 2 = 1 then setBit (s3.rd (Hid.slaveCtx n)) c else clrBit (s3.rd (Hid.slaveCtx n)) c)
  (s4.wr (Hid.ff1 n c) (v 3)).d2Clear n c

/-! ### Pattern memory (R159, R160) -/

/-- VAL and MASK of an entry as stored. -/
def State.muVal (s : State) (n c t p : Nat) : Nat :=
  s.rd (Reg.ISL_MU_VAL0 n c t p) + 2 ^ 32 * s.rd (Reg.ISL_MU_VAL1 n c t p)
def State.muMask (s : State) (n c t p : Nat) : Nat :=
  s.rd (Reg.ISL_MU_MASK0 n c t p) + 2 ^ 32 * s.rd (Reg.ISL_MU_MASK1 n c t p)

/-- The verdict on one half of an entry. -/
def synOf (y : Nat) : Verdict := verdict 8 (y % 256) (y / 256 % 256)

/-- A value with the bit that a verdict names inverted. -/
def fixVal (v : Nat) : Verdict → Nat
  | .fix (some b) => v ^^^ 2 ^ b
  | _ => v

/-- Every read of an entry checks it (R159): a single-bit error is corrected and written back; an uncorrectable one clears
EN, sets ERR and raises island event 2, once until EN is written 1 again. -/
def State.muCheck (s : State) (n c t p : Nat) : State :=
  let y := s.rd (Hid.muSyn n c t p)
  if y = 0 then s
  else
    let a := synOf (y % 2 ^ 16)
    let b := synOf (y / 2 ^ 16)
    if a = .bad ∨ b = .bad then
      if s.on (Reg.ISL_MU_CTRL_ERR n c t p) then s
      else (((s.wr (Reg.ISL_MU_CTRL_EN n c t p) 0).wr (Reg.ISL_MU_CTRL_ERR n c t p) 1).islEvent n 2).classErr 6 true
    else
      let v := fixVal (s.muVal n c t p) a
      let m := fixVal (s.muMask n c t p) b
      (((((s.wr (Reg.ISL_MU_VAL0 n c t p) v).wr (Reg.ISL_MU_VAL1 n c t p) (v / 2 ^ 32)).wr (Reg.ISL_MU_MASK0 n c t p) m).wr
        (Reg.ISL_MU_MASK1 n c t p) (m / 2 ^ 32)).wr (Hid.muSyn n c t p) 0).classErr 6 false

/-- A write to an entry of a plane that is being loaded is ignored and denied (R160). -/
def State.muWrite (s : State) (n c : Nat) (op : State → State) : State :=
  if s.bitOf (Reg.ISL_CTX_VALID_LOADING n) c then s.deny (0x040 + n) else op s

/-- A write of VAL0, VAL1 or MASK0 (`r` 0 to 2) goes to the staging registers (R160). -/
def State.muStage (s : State) (n c t p r w : Nat) : State :=
  s.muWrite n c (fun a => a.wr (Hid.muStg n c t p) (setBitsAt (a.rd (Hid.muStg n c t p)) (32 * r + 31) (32 * r) w))

/-- A write of MASK1 commits the entry with a fresh check (R159, R160). -/
def State.muCommit (s : State) (n c t p w : Nat) : State :=
  s.muWrite n c (fun a =>
    let g := a.rd (Hid.muStg n c t p)
    ((((a.wr (Reg.ISL_MU_VAL0 n c t p) g).wr (Reg.ISL_MU_VAL1 n c t p) (g / 2 ^ 32)).wr (Reg.ISL_MU_MASK0 n c t p)
      (g / 2 ^ 64)).wr (Reg.ISL_MU_MASK1 n c t p) w).wr (Hid.muSyn n c t p) 0)

/-- A write of ISL_MU_CTRL: EN is written directly, and EN = 1 clears ERR (R160). -/
def State.muCtrl (s : State) (n c t p w : Nat) : State :=
  s.muWrite n c (fun a =>
    let b := a.wr (Reg.ISL_MU_CTRL_EN n c t p) w
    if w % 2 = 1 then b.wr (Reg.ISL_MU_CTRL_ERR n c t p) 0 else b)

/-- The value of VAL0, VAL1, MASK0 or MASK1 (`r` 0 to 3). -/
def State.muReg (s : State) (n c t p r : Nat) : Nat :=
  s.rd (if r = 0 then Reg.ISL_MU_VAL0 n c t p else if r = 1 then Reg.ISL_MU_VAL1 n c t p
    else if r = 2 then Reg.ISL_MU_MASK0 n c t p else Reg.ISL_MU_MASK1 n c t p)

/-- MU_STAGE_WRITE (R160). -/
def execMuStageWrite (n : Fin 80) (c : Fin 8) (t : Fin 64) (p : Fin 2) (r : Fin 3) (w : Word) (s : State) :
    Host.Outcome State Fault Refusal := .next (s.muStage n c t p r w.toNat)

/-- MU_COMMIT (R160). -/
def execMuCommit (n : Fin 80) (c : Fin 8) (t : Fin 64) (p : Fin 2) (w : Word) (s : State) :
    Host.Outcome State Fault Refusal := .next (s.muCommit n c t p w.toNat)

/-- MU_CTRL_WRITE (R159, R160). -/
def execMuCtrlWrite (n : Fin 80) (c : Fin 8) (t : Fin 64) (p : Fin 2) (w : Word) (s : State) :
    Host.Outcome State Fault Refusal := .next (s.muCtrl n c t p w.toNat)

/-- MU_ENTRY_READ (R159): the entry is checked, then read: corrected, or as stored where it is uncorrectable. -/
def execMuEntryRead (n : Fin 80) (c : Fin 8) (t : Fin 64) (p : Fin 2) (r : Fin 4) (s : State) :
    Host.Outcome State Fault Refusal :=
  let s1 := s.muCheck n c t p
  .next (s1.answer .ok (leBytes 4 (s1.muReg n c t p r)))


/-! ### The fabric port, master side (R163, R164, R166) -/

/-- A TID is outstanding in its class: on the network, waiting to be delivered, or collecting its write data. -/
def State.fpTidBusy (s : State) (n : Nat) (wr : Bool) (tid : Nat) : Bool :=
  s.packets.any (fun p => p.src == n && p.tid == tid && (p.op != 0) == wr)
    || (Tab.getD s.fpResps n []).any (fun r => r.tid == tid && r.wr == wr)

/-- FP_MASTER_REQUEST (R163, R164): the island presents a request of `len` + 1 beats; `data` holds the bytes of a write with
their enables, and `last` says that its LAST beat has been presented. A write without it is only collected; the request
that brings the LAST beat sends it. -/
def execFpMasterRequest (n : Fin 80) (route : Fin 256) (wr posted : Bool) (tid : Fin 64) (addr : BitVec 46) (len : Fin 64)
    (data : List (Option Byte)) (last : Bool) (s : State) : Host.Outcome State Fault Refusal :=
  let a := addr.toNat
  let size := 64 * (len.val + 1) - a % 64
  let opn := wr && s.bitOf (Hid.fpOpen n) tid
  .next (if !s.on (Reg.ISL_FP_CTRL_EN n) || s.rd (Reg.ISL_STAT_STATE n) != 3 || s.fpTidBusy n wr tid then s.answer .held []
    else
      let s1 := if opn && last then s.clrB (Hid.fpOpen n) tid else s
      if wr && !last then (s.setB (Hid.fpOpen n) tid).answer .ok []
      else if a / 4096 ≠ (a + size - 1) / 4096 then
        let r : FpResp := ⟨tid, wr, [], 1⟩
        { s1 with fpResps := Tab.set s1.fpResps n [] (Tab.getD s1.fpResps n [] ++ [r]) }.answer .ok []
      else
        let bytes := (List.range size).map (fun k => if wr then (data[k]?).getD none else none)
        s1.issue n route (if !wr then 0 else if posted then 2 else 1) 0 0 tid a bytes)

/-- FP_MASTER_RESPONSE (R163, R166): the oldest response at the port is delivered to the fabric of the island, under
whatever context is active; during an ISLAND reset it is discarded. -/
def execFpMasterResponse (n : Fin 80) (s : State) : Host.Outcome State Fault Refusal :=
  .next (match Tab.getD s.fpResps n [] with
    | [] => s
    | r :: rest =>
      let s1 := { s with fpResps := Tab.set s.fpResps n [] rest }
      if s.rd (Reg.ISL_STAT_STATE n) = 4 then s1 else s1.emit (.fpResp n r.tid r.err r.wr r.data))

/-! ### The fabric port, slave side (R165, R166, R316) -/

/-- SLV_OUT follows the requests that await their response. -/
def State.slvCount (s : State) (n : Nat) : State := s.wr (Reg.ISL_FP_STAT_SLV_OUT n) (Tab.getD s.slvReqs n []).length

/-- A slave request is answered: to the network request that it serves, or to the access that made it. -/
def State.slvAnswer (s : State) (r : SlvReq) (err : Nat) (data : List Byte) : State :=
  match r.pkt with
  | none => s.answer (if err = 0 then .ok else .err) data
  | some id =>
    match s.pkt id with
    | none => s
    | some p =>
      let t := s.setPkt (s.turned p err data)
      if err = 0 then t else t.postLost p

/-- A request in the fabric window of island `n` (R165, R316): DOMAIN_OFF while the NI is fenced, a bus error where no
context takes it, held while the slave side has no TAG free, and otherwise presented to the active context. The ERR code
of a refusal is given back; none where the request waits for its response, and 4 where it is not taken. -/
def State.slvTake (s : State) (n off : Nat) (wr : Bool) (data : List (Option Byte)) (pkt : Option Nat) : Option Nat × State :=
  let q := Tab.getD s.slvReqs n []
  if s.on (Reg.NOC_NI_STAT_FENCED n) then (some 3, s)
  else if !s.on (Reg.ISL_FP_CTRL_EN n) || s.rd (Reg.ISL_STAT_STATE n) != 3
      || !s.bitOf (Hid.slaveCtx n) (s.rd (Reg.ISL_STAT_CUR_CTX n)) then (some 1, s)
  else
    match (List.range 256).find? (fun t => q.all (fun r => r.tag != t) && !s.bitOf (Hid.slvLate n) t) with
    | none => (some 4, s)
    | some tag =>
      let nq : List SlvReq := q ++ [⟨tag, wr, off, pkt⟩]
      let s1 := { s with slvReqs := Tab.set s.slvReqs n [] nq }.slvCount n
      (none, s1.emit (.slvReq n tag off wr data))

/-- FP_SLAVE_REQUEST (R165): a request arrives at the slave side of the port. -/
def execFpSlaveRequest (n : Fin 80) (off : Fin 536870912) (wr : Bool) (data : List (Option Byte)) (s : State) :
    Host.Outcome State Fault Refusal :=
  .next (match s.slvTake n off wr data none with
    | (none, t) => t.answer .held []
    | (some 4, t) => t.answer .held []
    | (some _, t) => t.answer .err [])

/-- Take a slave request out of its queue. -/
def State.slvRemove (s : State) (n tag : Nat) : State :=
  { s with slvReqs := Tab.set s.slvReqs n [] ((Tab.getD s.slvReqs n []).filter (fun r => r.tag != tag)) }.slvCount n

/-- FP_SLAVE_RESPONSE (R163, R165): the active context completes the response of a TAG; a late one is discarded, and its TAG is free
again. -/
def execFpSlaveResponse (n : Fin 80) (tag : Byte) (err : Bool) (data : List Byte) (s : State) :
    Host.Outcome State Fault Refusal :=
  .next (match (Tab.getD s.slvReqs n []).find? (fun r => r.tag == tag.toNat) with
    | none => s.clrB (Hid.slvLate n) tag.toNat
    | some r => (s.slvRemove n tag.toNat).slvAnswer r (b2n err) data)

/-- FP_SLAVE_TIMEOUT (R165): a request has had no complete response within TMO. -/
def execFpSlaveTimeout (n : Fin 80) (tag : Byte) (s : State) : Host.Outcome State Fault Refusal :=
  .next (match (Tab.getD s.slvReqs n []).find? (fun r => r.tag == tag.toNat) with
    | none => s
    | some r =>
      let s1 := (((s.slvRemove n tag.toNat).slvAnswer r 1 []).setB (Hid.slvLate n) tag.toNat).inc (Reg.ISL_FP_TMO_CNT n) 1
      (s1.wr (Reg.ISL_EVT_FP_TMO n) 1).islEvent n 5)

/-- What a switch cycle or an ISLAND reset does at the fabric port (R164, R166): writes without their LAST beat are
discarded and counted, and slave requests not fully answered end in a bus error. The context that owed late responses is
gone, and with it their TAGs. -/
def State.fpCut (s : State) (n : Nat) : State :=
  let s1 := ((s.inc (Reg.ISL_FP_DISC n) (popCount 64 (s.rd (Hid.fpOpen n)))).wr (Hid.fpOpen n) 0).wr (Hid.slvLate n) 0
  State.each (Tab.getD s1.slvReqs n []) (fun r t => (t.slvRemove n r.tag).slvAnswer r 1 []) s1

/-! ### Switch sets (R174 to R178, R201) -/

/-- An island may join a set with target context `c` (R175). -/
def State.swEligible (s : State) (c n : Nat) : Bool :=
  s.rd (Reg.ISL_STAT_STATE n) == 3 && !s.on (Reg.ISL_STAT_CFG_FENCE n)
    && s.bitOf (Reg.ISL_CTX_VALID_VALID n) c && !s.bitOf (Reg.ISL_CTX_VALID_LOADING n) c

/-- I_CTX of a plane as it is used, in units of 10 mA: at most 300 (R171). -/
def State.iCtx (s : State) (n c : Nat) : Nat := min 300 (s.rd (Reg.ISL_CTX_CUR_I_CTX n c))

/-- ΔI of a switch to context `c` (R176). -/
def State.deltaI (s : State) (c n : Nat) : Nat :=
  let a := s.iCtx n c
  let b := s.iCtx n (s.rd (Reg.ISL_STAT_CUR_CTX n))
  (a - b) + (b - a)

/-- The waves of islands, in ascending order, of which each changes its current by `dI` (R176): each with its wave. `w`, `k` and
`sum` are the present wave, its islands and its sum of ΔI. -/
def waves (dI : Nat → Nat) : List Nat → Nat → Nat → Nat → List (Nat × Nat)
  | [], _, _, _ => []
  | n :: r, w, k, sum =>
    if k = 0 ∨ (k < 16 ∧ sum + dI n ≤ 1200) then (n, w) :: waves dI r w (k + 1) (sum + dI n)
    else (n, w + 1) :: waves dI r (w + 1) 1 (dI n)

/-- A set is complete (R178): another may begin, and a power limit that waited for it applies (R24). -/
def State.swEnd (s : State) : State :=
  let s1 := (s.wr Hid.swBusy 0).wr Hid.lanSetBusy 0
  if s1.rd Hid.astLimPend = 0 then s1
  else (s1.wr Reg.AST_PWR_LIMIT_LIMIT (s1.rd Hid.astLimPend)).wr Hid.astLimPend 0

/-- Form a set of islands that may join, with target context `c` (R175 to R177): under UNSTAGED without a READY ballast
it runs STAGED (R502). -/
def State.swForm (s : State) (isl : List Nat) (c : Nat) : State :=
  if isl = [] then s
  else
    let un := s.on Reg.AST_CTX_CTRL_STAGING
    let fb := un && !s.on Reg.AST_STAT_BAL_READY
    let s1 := if fb then (s.wr Reg.AST_STAT_UNSTAGED_FB 1).raiseB Reg.AST_EVT_EVT 8 42 else s
    let ws := if un && !fb then isl.map (fun n => (n, 0)) else waves (s.deltaI c) isl 0 0 0
    let s2 := State.each ws (fun p t => (t.wr (Hid.swWave p.1) p.2).wr (Hid.swTgt p.1) c) s1
    (((s2.wr Hid.swBusy 1).wr Hid.swHeld (b2n (un && !fb))).wr Hid.swLeft (isl.foldl (fun m n => m + 2 ^ n) 0)).wr Hid.swNext 0

/-- An island completes its switch (R166, R173, R178, R220): at the end of its switch cycle, or at its wave instant. -/
def State.swComplete (s : State) (n : Nat) (cycle : Bool) : State :=
  let c := s.rd (Hid.swTgt n)
  let s1 := if cycle then ((s.fpCut n).wr (Reg.ISL_TAP_LIVE n) 0).wr (Hid.muOut n) 0 else s
  let s2 := (((s1.wr (Reg.ISL_STAT_CUR_CTX n) c).wr (Reg.ISL_SW_TS n) s.now).add (Reg.ISL_SW_CNT n) 1).wr
    (Reg.ISL_STAT_SWITCHING n) 0
  let s3 := (s2.islEvent n 1).clrB Hid.swLeft n
  if s3.rd Hid.swLeft = 0 then s3.swEnd else s3

/-- The island clock delivers edges (R194, R201). -/
def State.clkRuns (s : State) (n : Nat) : Bool :=
  let st := s.rd (Reg.ISL_CLK_STAT_STATE n)
  st == 5 || st == 7

/-- The fabric of an island drives and reads its ports: it is RUN, its Weir is open and its clock delivers edges. -/
def State.fabricLive (s : State) (n : Nat) : Bool :=
  s.rd (Reg.ISL_STAT_STATE n) == 3 && !s.on (Reg.ISL_WEIR_STAT_CLOSED n) && s.clkRuns n

/-- A SWITCH command written to some islands at once (R174, R175, R181): those that do not accept it reject it, and the
others form one set. -/
def State.switchCmd (s : State) (isl : List Nat) (c : Nat) : State :=
  let busy := s.on Hid.swBusy
  let ok := isl.filter (fun n => !busy && s.swEligible c n)
  let bad := isl.filter (fun n => busy || !s.swEligible c n)
  (State.each bad (fun n t => t.islReject n 0x01) s).swForm ok c

/-- The islands of a group (R557). -/
def State.groupIslands (s : State) (g : Nat) : List Nat :=
  setBits 80 (s.rd (Reg.SYS_GRP_ISL0 g) + 2 ^ 32 * s.rd (Reg.SYS_GRP_ISL1 g) + 2 ^ 64 * s.rd (Reg.SYS_GRP_ISL2 g))

/-- A Lantern request for a context switch (R90, R174, R175): none where a set is in progress; the islands left out are
marked, and the others form the set. -/
def State.ctxRequest (s : State) (g c : Nat) : Option State :=
  if s.on Hid.swBusy then none
  else
    let isl := s.groupIslands g
    let out := isl.filter (fun n => !s.swEligible c n)
    let s1 := State.each out (fun n t =>
      ((t.wr (Reg.ISL_STAT_CTX_SKIP n) 1).wr (Reg.ISL_EVT_CTX_SKIP n) 1).islEvent n 3) s
    let s2 := s1.swForm (isl.filter (fun n => s.swEligible c n)) c
    some (s2.wr Hid.lanSetBusy (s2.rd Hid.swBusy))

/-- CLR_CNT of ISL_CMD (R181). -/
def State.islClrCnt (s : State) (n : Nat) : State :=
  let s1 := (s.wr (Reg.ISL_FP_TMO_CNT n) 0).wr (Reg.ISL_FP_DISC n) 0
  { s1 with cells := s1.cells.filter (fun e =>
      !(decide (cellKey (0x040 + n) 0x10014 0 ≤ e.1) && decide (e.1 < cellKey (0x040 + n) 0x18000 0)
        && (e.1 / 64) % 0x20 == 0x14)) }

/-- A command written to ISL_CMD of some islands at once (R181, R559). -/
def State.islCmd (s : State) (isl : List Nat) (code ctx : Nat) : State :=
  if code = 0x01 then s.switchCmd isl ctx
  else if code = 0x02 then State.each isl (fun n t => t.islClrCnt n) s
  else State.each isl (fun n t => t.islReject n code) s

/-- ISL_SWITCH (R174, R175, R181): SWITCH written to one island. -/
def execIslSwitch (n : Fin 80) (c : Fin 8) (s : State) : Host.Outcome State Fault Refusal := .next (s.switchCmd [n.val] c)

/-- ISL_CLR_CNT (R181). -/
def execIslClrCnt (n : Fin 80) (s : State) : Host.Outcome State Fault Refusal := .next (s.islClrCnt n)

/-- WAVE_INSTANT (R172, R176, R178, R201, R500, R501): the next wave's instant arrives. Its islands are SWITCHING; one whose
clock is not running, or whose target is already active, completes at once. Its current counts in the fabric share: its ΔI,
or what the ballast leaves of it. An island of the set that has left RUN since switches all the same: DESIGN CHOICE, log
entry 84. -/
def execWaveInstant (s : State) : Host.Outcome State Fault Refusal :=
  .next (if !s.on Hid.swBusy then s
    else
      let w := s.rd Hid.swNext
      let isl := (setBits 80 (s.rd Hid.swLeft)).filter (fun n => s.rd (Hid.swWave n) == w && !s.on (Reg.ISL_STAT_SWITCHING n))
      let cost := isl.foldl (fun a n => a + if s.on Hid.swHeld then 20 else s.deltaI (s.rd (Hid.swTgt n)) n) 0
      let s0 := (s.wr Hid.swNext (w + 1)).inc Hid.slewUsed cost
      let s1 := State.each isl (fun n t => t.wr (Reg.ISL_STAT_SWITCHING n) 1) s0
      State.each isl (fun n t =>
        if !s.clkRuns n || s.rd (Hid.swTgt n) == s.rd (Reg.ISL_STAT_CUR_CTX n) then t.swComplete n false else t) s1)


/-- An ENGINE reset abandons a set in progress (R179). -/
def State.swAbandon (s : State) : State :=
  let s1 := State.each (List.range 80) (fun n t => t.wr (Reg.ISL_STAT_SWITCHING n) 0) s
  (s1.wr Hid.swLeft 0).swEnd

/-- What an island's fabric takes on entering a plane by a reset (R173): F0, F1 and the I/O registers their initial values, D2
cleared, match outputs and taps 0. -/
def State.fabricReset (s : State) (n c : Nat) : State :=
  let s1 := s.wr (Hid.ff0 n) (s.planeItem n c 2)
  let s2 := State.each (List.range 8) (fun k t => (t.wr (Hid.ff1 n k) (s.planeItem n k 3)).d2Clear n k) s1
  let s3 := s2.ioInit n c
  (s3.wr (Hid.muOut n) 0).wr (Reg.ISL_TAP_LIVE n) 0

end Sys2Proof.Machine
end

