-- ==== Sys2Proof/Machine/Edge.lean ====
section
/-! DEFINITION. A clock edge of an island (chapter 5): its flip-flops, D2 stages, I/O cells, match units and taps (R145 to R161, R167,
R168, R172). -/

namespace Sys2Proof.Machine

/-! ### User I/O (R167 to R169, R412, R415, R417) -/

/-- The island has a bank of user I/O (R167). -/
def hasIo (n : Nat) : Bool := decide (70 ≤ n) && decide (n < 78)

/-- The standard of I/O cell `z` (R168): 1 SE12, 2 SE15, 3 SE18, 4 LVDS_RX, 5 LVDS_TX, 0 for an unused cell. -/
def State.ioStd (s : State) (n z : Nat) : Nat := s.planeItem n 0 (64 + z) % 6

/-- What the input of I/O cell `z` shows of the levels at the pins: its own pin, or for LVDS_RX the difference of its pair, which is
open where the two are equal (R167, R168). -/
def State.ioLevel (s : State) (n pins free z : Nat) : Bool :=
  if s.ioStd n (z / 2 * 2) = 4 ∧ z % 2 = 0 ∧ bit pins z = bit pins (z + 1) then bit free (8 + z) else bit pins z

/-- The fabric's inputs from the I/O cells, two for each: the level or register of the rising edge, and for a DDR input register
that of the falling edge (R168). They stand below the other hard interfaces' inputs: log entry 86. -/
def State.ioToFabric (s : State) (n c pins free : Nat) : Nat :=
  packBits 96 (fun i =>
    let z := i / 2
    if !bit (s.planeItem n c (itemIo z)) 2 then s.ioLevel n pins free z
    else if i % 2 = 0 then s.bitOf (Hid.ioIn (n - 70)) z
    else s.planeItem n 0 (itemOpt z 4) % 2 == 1 && s.bitOf (Hid.ioIn (n - 70)) (48 + z))

/-- The two halves of an output or enable (`e` 0 or 1) of I/O cell `z` in context `c`: from its registers, or past them from the D2
outputs (R168). -/
def State.ioSignal (s : State) (n c e z : Nat) : Bool × Bool :=
  let b := n - 70
  if bit (s.planeItem n c (itemIo z)) (3 + e) then
    let a := s.bitOf (Hid.ioReg b) (48 * e + z)
    (a, if s.planeItem n 0 (itemOpt z (5 + e)) % 2 = 1 then s.bitOf (Hid.ioReg2 b) (48 * e + z) else a)
  else
    let a := s.bitOf (Hid.d2Io b c) (144 + 3 * z + 2 * e)
    (a, a)

/-- What I/O cell `z` drives in the two halves of a cycle under its configuration: nothing as an input, disabled, or on a mismatch; the
odd cell of an LVDS_TX pair drives the complement of the even one (R167 to R169). -/
def State.ioDrives (s : State) (n c z : Nat) : Option Bool × Option Bool :=
  let neg := s.ioStd n (z / 2 * 2) == 5 && z % 2 == 1
  let y := if neg then z - 1 else z
  let dir := s.planeItem n c (itemIo y) % 4
  let o := s.ioSignal n c 0 y
  let e := s.ioSignal n c 1 y
  let half (v en : Bool) : Option Bool := if dir == 1 || dir == 2 && en then some (xor neg v) else none
  if s.bitOf (Reg.ISL_IOB_MIS n) y then (none, none) else (half o.1 e.1, half o.2 e.2)

/-- The clamp of a pin while the Weir is closed (R417): 0 HOLD, 1 LOW, 2 HIGH, 3 RELEASE. -/
def State.ioClamp (s : State) (n z : Nat) : Option Bool :=
  let b := n - 70
  match s.rd (Hid.weirIoAt b (z / 16)) / 4 ^ (z % 16) % 4 with
  | 0 => if s.bitOf (Hid.ioLast b) (48 + z) then some (s.bitOf (Hid.ioLast b) z) else none
  | 1 => some false
  | 2 => some true
  | _ => none

/-- What pin `z` of an island's bank drives now: nothing before the island's first start-up, its configuration, or its clamp. -/
def State.ioPin (s : State) (n z : Nat) : Option Bool × Option Bool :=
  if !s.on (Hid.ioOut (n - 70)) then (none, none)
  else if s.on (Reg.ISL_WEIR_STAT_CLOSED n) && !s.on (Reg.ISL_WEIR_STAT_FIRST_START n) then (s.ioClamp n z, s.ioClamp n z)
  else s.ioDrives n (s.rd (Reg.ISL_STAT_CUR_CTX n)) z

/-- The bank drives its pins; the last levels and enables are remembered while the Weir is open. -/
def State.ioDrive (s : State) (n : Nat) : State :=
  if !hasIo n then s
  else
    let l := (List.range 48).map (fun z => ((s.ioStd n z) :: (List.range 4).map (fun j => s.planeItem n 0 (itemOpt z j)), s.ioPin n z))
    let s1 := s.emitPins (.ioPins (n - 70) l)
    if s.on (Reg.ISL_WEIR_STAT_CLOSED n) then s1
    else s1.wr (Hid.ioLast (n - 70)) (packBits 48 (fun z => (s.ioPin n z).2 == some true)
      + 2 ^ 48 * packBits 48 (fun z => (s.ioPin n z).2 != none))

/-- The input buffers of a bank show the levels of its pins, whatever the island's state (R415). -/
def State.ioSees (s : State) (n pins free : Nat) : State :=
  if hasIo n then s.wr (Reg.ISL_IOB_IN n) (packBits 48 (s.ioLevel n pins free)) else s

/-- The D2 stages before the I/O cells at an edge, and where write enable is high (`we`) the cells' registers (R153, R168, R416): `d` are
the values at the D2 inputs of the outputs that lead to the cells. -/
def State.ioEdge (s : State) (n c : Nat) (we : Bool) (rise fall free : Nat) (d : Nat → Bool) : State :=
  if !hasIo n then s
  else
    let b := n - 70
    let q (z j : Nat) : Bool := s.bitOf (Hid.d2Io b c) (144 + 3 * z + j)
    let reg (j e : Nat) : Nat := packBits 48 (fun z => q z j) + 2 ^ 48 * packBits 48 (fun z => q z e)
    (((s.wrIf we (Hid.ioReg b) (reg 0 2)).wrIf we (Hid.ioReg2 b) (reg 1 2)).wrIf we (Hid.ioIn b)
      (packBits 48 (s.ioLevel n rise free) + 2 ^ 48 * packBits 48 (s.ioLevel n fall free))).wr (Hid.d2Io b c)
      (d2Edge 144 (s.rd (Hid.d2Io b c)) d)

/-! ### Pattern memory at an edge (R159) -/

/-- An upset inverts bits of a pattern entry as it is stored. -/
def State.muUpset (n : Nat) (u : MuUpset) (s : State) : State :=
  let v := s.muVal n u.ctx u.tile u.pat ^^^ u.val.toNat
  let m := s.muMask n u.ctx u.tile u.pat ^^^ u.mask.toNat
  let y := codeOf 8 u.val.toNat + 2 ^ 16 * codeOf 8 u.mask.toNat
  ((((s.wr (Reg.ISL_MU_VAL0 n u.ctx u.tile u.pat) v).wr (Reg.ISL_MU_VAL1 n u.ctx u.tile u.pat) (v / 2 ^ 32)).wr
    (Reg.ISL_MU_MASK0 n u.ctx u.tile u.pat) m).wr (Reg.ISL_MU_MASK1 n u.ctx u.tile u.pat) (m / 2 ^ 32)).wr
    (Hid.muSyn n u.ctx u.tile u.pat) (s.rd (Hid.muSyn n u.ctx u.tile u.pat) ^^^ y ^^^ u.chk.toNat)

/-- The pattern entries of a context, by tile and pattern. -/
def muUnits : List (Nat × Nat) := (List.range 64).flatMap (fun t => [(t, 0), (t, 1)])

/-- Every entry of a context is read and checked (R159). -/
def State.muCheckAll (s : State) (n c : Nat) : State := State.each muUnits (fun u a => a.muCheck n c u.1 u.2) s

/-! ### The edge (R149, R150, R153, R158, R161) -/

/-- What the combinational part of an island starts from in a context. -/
def State.roots (s : State) (n c free : Nat) : Roots :=
  ⟨s.rd (Hid.ff0 n), s.rd (Hid.ff1 n c), s.rd (Hid.d2 n c) / 2 ^ 32768, s.rd (Hid.muOut n), free⟩

/-- The waves in which the islands of a start-up take their write enable (R176, R412). -/
def State.weWaves (s : State) : List (Nat × Nat) :=
  waves (fun n => s.iCtx n (s.rd (Reg.ISL_STAT_CUR_CTX n))) (setBits 80 (s.rd Hid.startSet)) 0 0 0

/-- The instant of the last wave of the WE stage after its first, in units of 250 ps. -/
def State.weTime (s : State) : Nat := 2000 * s.weWaves.foldl (fun m e => max m e.2) 0

/-- A starting island has passed the release stage whose position stands at bit `lo` of STARTUP (R412, R413). -/
def State.passed (s : State) (n lo : Nat) : Bool :=
  bit (s.rd Hid.startSet) n && decide (2 + bits (s.rd Reg.CFG_STARTUP) (lo + 1) lo ≤ s.rd Hid.startStage)

/-- Write enable of an island is high (R412, R416): it is RUN, or its wave of the WE stage has come. While it is low, F0, F1 and the I/O
registers hold their values. -/
def State.writeOn (s : State) (n : Nat) : Bool :=
  let st := s.rd (Reg.ISL_STAT_STATE n)
  st == 3 || (st == 2 && s.passed n 2
    && (decide (s.rd Hid.startStage ≠ 2 + bits (s.rd Reg.CFG_STARTUP) 3 2)
      || s.weWaves.any (fun e => e.1 == n && decide (s.rd Hid.startPrev + 2000 * e.2 ≤ s.now + s.weTime))))

/-- F0 and the F1 bank of the active context capture where write enable is high, with the I/O registers, and the D2 stages at every
edge; `r` is what stood before the edge. Behind a closed Weir the fabric sees no signal from outside (R418): the levels there are open. -/
def State.edgeRegs (s : State) (n : Nat) (e : EdgeIn) (r : Roots) : State :=
  let c := s.rd (Reg.ISL_STAT_CUR_CTX n)
  let g := s.planeItem n c
  let free := r.free
  let shut := s.on (Reg.ISL_WEIR_STAT_CLOSED n)
  let rise := if shut then free / 2 ^ 64 % 2 ^ 48 else e.rise.toNat
  let fall := if shut then free / 2 ^ 112 % 2 ^ 48 else e.fall.toNat
  let out := if shut then free / 2 ^ 160 else e.hard
  let hard := if hasIo n then s.ioToFabric n c rise free + 2 ^ 96 * out else out
  let we := s.writeOn n
  let s1 := ((s.wrIf we (Hid.ff0 n) (packBits 32768 (ffEdge g r 0 r.q0))).wrIf we (Hid.ff1 n c) (packBits 32768 (ffEdge g r 1 r.q1))).wr
    (Hid.d2 n c) (d2Edge 32768 (s.rd (Hid.d2 n c)) (d2Sel g r hard))
  (s1.ioEdge n c we rise fall free (fun y => d2Sel g r hard (32768 + y))).ioDrive n

/-- Output M_p of a tile's match unit before its register, as the fabric drives the unit (R157, R158). -/
def State.muHit (s : State) (n c : Nat) (r : Roots) (u : Nat × Nat) : Bool :=
  let g := s.planeItem n c
  matchOut (muStb g r u.1) (s.on (Reg.ISL_MU_CTRL_EN n c u.1 u.2)) (muWord g r u.1) (s.muVal n c u.1 u.2) (s.muMask n c u.1 u.2)

/-- The match units register their outputs, and hits are counted. -/
def State.edgeMatch (s : State) (n : Nat) (r : Roots) : State :=
  let c := s.rd (Reg.ISL_STAT_CUR_CTX n)
  let hits := muUnits.filter (s.muHit n c r)
  (State.each hits (fun u a => a.inc (Reg.ISL_MU_HITS n c u.1 u.2) 1) s).wr (Hid.muOut n)
    (hits.foldl (fun m u => m + 2 ^ (2 * u.1 + u.2)) 0)

/-- The level of tap `k` (R161): OFF, a registered match output, or Q0 or Q1 of a cell; 0 while the island is not RUN. -/
def State.tapLevel (s : State) (n k : Nat) : Bool :=
  let c := s.rd (Reg.ISL_STAT_CUR_CTX n)
  let src := s.rd (Hid.tapSrc n c k)
  if s.rd (Reg.ISL_STAT_STATE n) ≠ 3 ∨ src = 0 then false
  else if src ≤ 128 then s.bitOf (Hid.muOut n) (src - 1)
  else if src % 2 = 0 then s.bitOf (Hid.ff0 n) ((src - 256) / 2)
  else s.bitOf (Hid.ff1 n c) ((src - 256) / 2)

/-- The taps follow; Lantern and the pipelines of Hopper see those that are asserted (R69, R85). -/
def State.tapsFollow (s : State) (n : Nat) : State :=
  let live := packBits 8 (s.tapLevel n)
  ((s.wr (Reg.ISL_TAP_LIVE n) live).wr (Hid.tapLatch n) (s.rd (Hid.tapLatch n) ||| live)).hopSee

/-- The elements of an island are clocked and out of reset (R194, R412, R415, R416): its clock delivers edges, and it is RUN, or its
start-up has passed the RST stage, or its Weir has closed under PR_BEGIN and no frame of its active plane has been written yet. -/
def State.clocked (s : State) (n : Nat) : Bool :=
  s.clkRuns n && (s.rd (Reg.ISL_STAT_STATE n) == 3 || (s.rd (Reg.ISL_STAT_STATE n) == 2 && s.passed n 4)
    || (s.rd (Reg.ISL_STAT_STATE n) == 1 && s.on (Hid.prIsl n) && !s.on (Hid.prGot n)))

/-- A clock edge: the entries of the active context are read and checked, and every element captures from the values before the
edge; at edge k of a switch (`cut`) match outputs and taps are 0 instead (R172). -/
def State.islandEdge (s : State) (n : Nat) (e : EdgeIn) (cut : Bool) : State :=
  let c := s.rd (Reg.ISL_STAT_CUR_CTX n)
  let v := s.fresh
  let s1 := (v.2.ioSees n e.rise.toNat v.1).muCheckAll n c
  let r := s1.roots n c v.1
  let s2 := s1.edgeRegs n e r
  if cut then s2 else (s2.edgeMatch n r).tapsFollow n

/-- Upsets of the pattern memory since the last edge. -/
def State.muUpsets (s : State) (n : Nat) (l : List MuUpset) : State := State.each l (fun u t => t.muUpset n u) s

/-- MATCH_UNIT_COMPARE (R145 to R161): a clock edge of an island. Every element of its fabric captures, the match units read and
check the entries of the active context, register M0 and M1 and count hits, and the taps follow. Where its elements are not clocked, only
the input buffers of its bank follow the pins. -/
def execMatchUnitCompare (n : Fin 80) (e : EdgeIn) (s : State) : Host.Outcome State Fault Refusal :=
  let s1 := s.muUpsets n e.upsets
  .next (if s1.clocked n then s1.islandEdge n e false
    else if hasIo n then s1.fresh.2.ioSees n e.rise.toNat s1.fresh.1 else s1)

/-- ISLAND_SWITCH_CYCLE (R172, R178): an island in a wave whose instant has come captures under the old context for the last time, at
edge k, and completes at edge k + 1, at which nothing captures. Match outputs and taps are 0 until its next edge. -/
def execIslandSwitchCycle (n : Fin 80) (e : EdgeIn) (s : State) : Host.Outcome State Fault Refusal :=
  let s1 := s.muUpsets n e.upsets
  .next (if s1.on (Reg.ISL_STAT_SWITCHING n) then (if s1.clocked n then s1.islandEdge n e true else s1).swComplete n true else s1)

end Sys2Proof.Machine
end

