-- ==== Sys2Proof/Machine/Clocks.lean ====
section
/-! DEFINITION. Clock references, island clock generators, island power and the Sluice crossings (chapter 6). -/

namespace Sys2Proof.Machine

/-! ### References (R184 to R188) -/

/-- The frequency declared for a reference, in units of 10 kHz (R184). -/
def refFreq (f : Nat) : Nat := if f = 0 then 10000 else 15625

/-- The declared frequency of REF_DIST, in units of 10 kHz (R184). -/
def State.fDist (s : State) : Nat :=
  refFreq (if s.on Reg.CLK_REF_CFG_SEL then s.rd Reg.CLK_REF_CFG_FREQ_B else s.rd Reg.CLK_REF_CFG_FREQ_A)

/-- The frequency of the judging clock, in units of 10 kHz (R188). -/
def State.fJudge (s : State) : Nat :=
  match s.rd Reg.CLK_STAT_JUDGE_SRC with
  | 0 => 1000
  | 1 => refFreq (s.rd Reg.CLK_REF_CFG_FREQ_A)
  | 2 => refFreq (s.rd Reg.CLK_REF_CFG_FREQ_B)
  | _ => s.fDist

/-- A clock is PRESENT: it runs within 200 ppm (R185). -/
def present (x : Option Int) : Bool :=
  match x with
  | none => false
  | some d => decide (-200 ≤ d) && decide (d ≤ 200)

/-- The measured offset of a REFCLK from CALREF_CLK (R185); open where one of them does not run. An offset that does not fit its field
wraps: DESIGN CHOICE, log entry 89. -/
def State.ppmWrite (s : State) (f : Fld) (x c : Option Int) : State :=
  match x, c with
  | some a, some b => s.wr f (ofSigned f.w (a - b))
  | _, _ => s.wrFree f

/-- The selected reference has been judged (R186): holdover ends, or REF_DIST moves, or holdover begins. -/
def State.refSelect (s : State) (a b : Bool) : State :=
  let sel := s.rd Reg.CLK_REF_CFG_SEL
  let mine := if sel = 1 then b else a
  let other := if sel = 1 then a else b
  if mine then s.wr Reg.CLK_STAT_HOLDOVER 0
  else if s.on Reg.CLK_REF_CFG_AUTO_SW && other then
    ((s.wr Reg.CLK_REF_CFG_SEL (1 - sel)).wr Reg.CLK_STAT_HOLDOVER 0).raiseB Reg.CLK_EVT_EVT 0 44
  else if s.on Reg.CLK_STAT_HOLDOVER then s
  else (s.wr Reg.CLK_STAT_HOLDOVER 1).raiseB Reg.CLK_EVT_EVT 1 45

/-- The choice of the judging clock (R188): CALREF_CLK, else the REFCLK that is not selected, else REF_DIST. -/
def State.judgeSrc (s : State) (a b c : Bool) : Nat :=
  if c then 0 else if s.on Reg.CLK_REF_CFG_SEL then (if a then 1 else 3) else (if b then 2 else 3)

/-- The judging clock is chosen (R188), and the loss of CALREF_CLK raises event 46. -/
def State.judgeSelect (s : State) (a b c : Bool) : State :=
  let was := s.on Reg.CLK_REF_STAT_CAL_PRES
  let s1 := (s.wr Reg.CLK_REF_STAT_CAL_PRES (b2n c)).wr Reg.CLK_STAT_JUDGE_SRC (s.judgeSrc a b c)
  if was && !c then s1.raiseB Reg.CLK_EVT_EVT 2 46 else s1

/-- REF_CHECK (R185, R186, R188): the references are counted against each other. The operands are the deviations of
REFCLK_A, REFCLK_B and CALREF_CLK from their declared frequencies in ppm, none for a clock that does not run. With neither
REFCLK PRESENT, CALREF_CLK is judged against its own nominal frequency: DESIGN CHOICE, log entry 88. -/
def execRefCheck (a b c : Option (BitVec 16)) (s : State) : Host.Outcome State Fault Refusal :=
  let da := a.map BitVec.toInt
  let db := b.map BitVec.toInt
  let dc := c.map BitVec.toInt
  let pa := present da
  let pb := present db
  let against : Int := if pa then da.getD 0 else if pb then db.getD 0 else 0
  let pc := present (dc.map (fun d => d - against))
  let s1 := (s.wr Reg.CLK_REF_STAT_A_PRES (b2n pa)).wr Reg.CLK_REF_STAT_B_PRES (b2n pb)
  let s2 := (s1.ppmWrite Reg.CLK_REF_STAT_PPM_A da dc).ppmWrite Reg.CLK_REF_STAT_PPM_B db dc
  .next ((s2.refSelect pa pb).judgeSelect pa pb pc)

/-- CLASS_FALLBACK (R190): the generator of class `c` (0 ENGINE to 5 TIMEBASE) loses lock, or fails two consecutive windows;
windows are not evaluated in holdover. Of a class already in fallback only the lock is reported. -/
def execClassFallback (c : Fin 6) (lost : Bool) (s : State) : Host.Outcome State Fault Refusal :=
  .next (if !s.bitOf Reg.CLK_CLS_STAT_LOCK c || (!lost && s.on Reg.CLK_STAT_HOLDOVER) then s
    else
      let s1 := if lost then s.clrB Reg.CLK_CLS_STAT_LOCK c else s
      if s.bitOf Reg.CLK_CLS_STAT_FALLBACK c then s1 else (s1.setB Reg.CLK_CLS_STAT_FALLBACK c).raiseB Reg.CLK_EVT_EVT 3 47)

/-- A write of CLK_REF_CFG (R187). A selection that moves while CALREF_CLK is not PRESENT moves the judging clock too (R188). -/
def State.clkRefCfg (s : State) (w : Nat) : State :=
  let badAuto := bit w 3 && bit w 1 != bit w 2
  let moved := b2n (bit w 0) != s.rd Reg.CLK_REF_CFG_SEL
  let badSel := moved && bit w 1 != bit w 2 && (List.range 80).any (fun n => s.rd (Reg.ISL_CLK_STAT_STATE n) != 0)
  let s1 := if badAuto then s
    else ((s.wr Reg.CLK_REF_CFG_AUTO_SW (b2n (bit w 3))).wr Reg.CLK_REF_CFG_FREQ_B (b2n (bit w 2))).wr
      Reg.CLK_REF_CFG_FREQ_A (b2n (bit w 1))
  let s2 := if badSel then s1 else s1.wr Reg.CLK_REF_CFG_SEL (b2n (bit w 0))
  let s3 := if moved && !badSel then s2.wr Reg.CLK_STAT_JUDGE_SRC
      (s2.judgeSrc (s.on Reg.CLK_REF_STAT_A_PRES) (s.on Reg.CLK_REF_STAT_B_PRES) (s.on Reg.CLK_REF_STAT_CAL_PRES))
    else s2
  if badAuto || badSel then s3.deny 0x006 else s3

/-- CLK_REF_CFG_WRITE (R187). -/
def execClkRefCfgWrite (w : Word) (s : State) : Host.Outcome State Fault Refusal := .next (s.clkRefCfg w.toNat)

/-! ### Island clock generators (R191 to R196) -/

/-- A setting keeps the VCO in 3.0 to 6.0 GHz and the island clock in 100 to 1,500 MHz (R191). -/
def clkPairOk (fdist fbdiv frac postdiv : Nat) : Bool :=
  let vco := fdist * (fbdiv * 2 ^ 24 + frac)
  let d := 2 ^ (postdiv + 1)
  decide (300000 * 2 ^ 24 ≤ vco) && decide (vco ≤ 600000 * 2 ^ 24)
    && decide (10000 * 2 ^ 24 * d ≤ vco) && decide (vco ≤ 150000 * 2 ^ 24 * d)

/-- The pair in force meets R191. -/
def State.clkOk (s : State) (n : Nat) : Bool :=
  clkPairOk s.fDist (s.rd (Reg.ISL_CLK_CFG_FBDIV n)) (s.rd (Reg.ISL_CLK_FRAC_FRAC n)) (s.rd (Reg.ISL_CLK_CFG_POSTDIV n))

/-- Aster is STOPPING or STOPPED (R515). -/
def State.astStop (s : State) : Bool := s.rd Reg.AST_STAT_TSTATE == 3 || s.rd Reg.AST_STAT_TSTATE == 4

/-- The PLL is off: no lock, no judgement, no modulation. -/
def State.pllOff (s : State) (n st : Nat) : State :=
  ((((s.wr (Reg.ISL_CLK_STAT_STATE n) st).wr (Reg.ISL_CLK_STAT_LOCK n) 0).wr (Reg.ISL_CLK_STAT_STABLE n) 0).wr
    (Reg.ISL_CLK_STAT_SSC_ACTIVE n) 0).wr (Hid.clkFb n) 0

/-- Start the PLL, or relock it (R194, R196). -/
def State.pllStart (s : State) (n : Nat) : State :=
  (((s.pllOff n 1).wr (Hid.clkPass n) 0).wr (Hid.clkWin n) 0).wr (Hid.clkBad n) 0


/-- Store the pair that start-up has for a clock, which relocks in GATED (R196, R411). -/
def State.pairApply (s : State) (n : Nat) : State :=
  let w := s.rd (Hid.clkPairCfg n)
  let s1 := ((((s.wr (Reg.ISL_CLK_CFG_FAULT_ACT n) (bits w 24 24)).wr (Reg.ISL_CLK_CFG_SSC_PCT n) (bits w 20 18)).wr
    (Reg.ISL_CLK_CFG_SSC_EN n) (bits w 16 16)).wr (Reg.ISL_CLK_CFG_POSTDIV n) (bits w 10 8)).wr
    (Reg.ISL_CLK_CFG_FBDIV n) (bits w 6 0)
  (s1.wr (Reg.ISL_CLK_FRAC_FRAC n) (s.rd (Hid.clkPairFrac n))).wr (Hid.clkPairV n) 0

/-- The transitions of R194 that only a request waits for: PLL_OFF starts, GATED and FAULT end. Requests written during a
stop of Aster take effect when it ends (R520), and an island without power has its PLL stopped (R199). -/
def State.clkSettle (s : State) (n : Nat) : State :=
  if s.astStop then s
  else
    let st := s.rd (Reg.ISL_CLK_STAT_STATE n)
    let q := s.rd (Reg.ISL_CLK_CTRL_REQ n)
    if st = 0 then (if q ≠ 0 ∧ s.rd (Reg.ISL_PWR_STAT_PSTATE n) = 0 ∧ s.clkOk n then s.pllStart n else s)
    else if st = 3 ∧ s.on (Hid.clkPairV n) then (s.pairApply n).pllStart n
    else if st = 3 ∧ q = 0 then s.pllOff n 0
    else if st = 8 ∧ q = 0 then (s.pllOff n 0).wr (Reg.ISL_CLK_STAT_FAULT_CAUSE n) 0
    else s

/-- FAULT or FALLBACK with a cause, and island event 4 (R194); a FAULT that is entered with REQ = PLL_OFF ends at once. -/
def State.clkFault (s : State) (n st cause : Nat) : State :=
  (((s.pllOff n st).wr (Reg.ISL_CLK_STAT_FAULT_CAUSE n) cause).islEvent n 4).clkSettle n

/-- A write of ISL_CLK_CTRL (R194, R196): the pair is judged where the write would start the PLL. -/
def State.clkReq (s : State) (n v : Nat) : State :=
  if v = 3 then s.deny (0x040 + n)
  else if s.rd (Reg.ISL_CLK_STAT_STATE n) = 0 ∧ v ≠ 0 ∧ s.rd (Reg.ISL_PWR_STAT_PSTATE n) = 0 ∧ !s.clkOk n then
    s.deny (0x040 + n)
  else (s.wr (Reg.ISL_CLK_CTRL_REQ n) v).clkSettle n

/-- ISL_CLK_REQ_WRITE (R194, R196). -/
def execIslClkReqWrite (n : Fin 80) (w : Word) (s : State) : Host.Outcome State Fault Refusal :=
  .next (s.clkReq n (bits w.toNat 1 0))

/-- A write of ISL_CLK_CFG (`frac` false) or ISL_CLK_FRAC (R196, R575, R576): values out of range leave their field;
outside PLL_OFF, GATED and FAULT a change is denied; in GATED the pair is judged and the generator relocks; in PLL_OFF a
standing request starts the PLL once the pair is valid (R194). -/
def State.clkCfg (s : State) (n : Nat) (frac : Bool) (w : Nat) : State :=
  let b := 0x040 + n
  let badS := !frac && decide (5 < bits w 20 18)
  let badP := !frac && decide (4 < bits w 10 8)
  let act := bits w 24 24
  let pct := if badS then s.rd (Reg.ISL_CLK_CFG_SSC_PCT n) else bits w 20 18
  let en := bits w 16 16
  let post := if frac then s.rd (Reg.ISL_CLK_CFG_POSTDIV n)
    else if badP then s.rd (Reg.ISL_CLK_CFG_POSTDIV n) else bits w 10 8
  let fb := if frac then s.rd (Reg.ISL_CLK_CFG_FBDIV n) else bits w 6 0
  let fr := if frac then bits w 23 0 else s.rd (Reg.ISL_CLK_FRAC_FRAC n)
  let s0 := if badS || badP then s.deny b else s
  let s1 := if frac then s0.wr (Reg.ISL_CLK_FRAC_FRAC n) fr
    else ((((s0.wr (Reg.ISL_CLK_CFG_FAULT_ACT n) act).wr (Reg.ISL_CLK_CFG_SSC_PCT n) pct).wr
      (Reg.ISL_CLK_CFG_SSC_EN n) en).wr (Reg.ISL_CLK_CFG_POSTDIV n) post).wr (Reg.ISL_CLK_CFG_FBDIV n) fb
  let st := s.rd (Reg.ISL_CLK_STAT_STATE n)
  if st = 0 then s1.clkSettle n
  else if st = 8 then s1
  else if st = 3 then (if clkPairOk s.fDist fb fr post then s1.pllStart n else s.deny b)
  else if s1.cells = s0.cells then s0
  else s.deny b

/-- ISL_CLK_CFG_WRITE (R191, R196). -/
def execIslClkCfgWrite (n : Fin 80) (frac : Bool) (w : Word) (s : State) : Host.Outcome State Fault Refusal :=
  .next (s.clkCfg n frac w.toNat)

/-- ISL_PLL_LOCKED (R194). -/
def execIslPllLocked (n : Fin 80) (s : State) : Host.Outcome State Fault Refusal :=
  .next (if s.rd (Reg.ISL_CLK_STAT_STATE n) = 1 then
      ((s.wr (Reg.ISL_CLK_STAT_STATE n) 2).wr (Reg.ISL_CLK_STAT_LOCK n) 1).wr (Reg.ISL_CLK_STAT_SSC_ACTIVE n)
        (s.rd (Reg.ISL_CLK_CFG_SSC_EN n))
    else s)

/-- ISL_LOCK_TIMEOUT (R194): 100 us without lock. -/
def execIslLockTimeout (n : Fin 80) (s : State) : Host.Outcome State Fault Refusal :=
  .next (if s.rd (Reg.ISL_CLK_STAT_STATE n) = 1 then s.clkFault n 8 1 else s)

/-- A window with count `cnt` passes (R193): |CNT - E| ≤ floor(E TOL / 10^6) + 2, with E the count at the mean frequency. -/
def State.windowPasses (s : State) (n cnt : Nat) : Bool :=
  let pct := if s.on (Reg.ISL_CLK_CFG_SSC_EN n) then s.rd (Reg.ISL_CLK_CFG_SSC_PCT n) else 0
  let num := s.fDist * (s.rd (Reg.ISL_CLK_CFG_FBDIV n) * 2 ^ 24 + s.rd (Reg.ISL_CLK_FRAC_FRAC n)) * (2000 - pct)
    * s.rd Reg.CLK_JUDGE_CFG_GATE
  let den := 2 ^ 24 * 2 ^ (s.rd (Reg.ISL_CLK_CFG_POSTDIV n) + 1) * 2000 * s.fJudge
  let tol := num * s.rd Reg.CLK_JUDGE_CFG_TOL / (den * 1000000) + 2
  decide (cnt * den ≤ num + tol * den) && decide (num ≤ cnt * den + tol * den)

/-- A running clock is lost (R194): FALLBACK or FAULT by FAULT_ACT. -/
def State.clkLost (s : State) (n cause : Nat) : State :=
  if s.rd (Reg.ISL_CLK_STAT_STATE n) = 5 then s.clkFault n (if s.on (Reg.ISL_CLK_CFG_FAULT_ACT n) then 8 else 7) cause else s

/-- JUDGE_WINDOW (R193, R194): a window of a locked generator ends with its count; none is evaluated in holdover (R186). -/
def execJudgeWindow (n : Fin 80) (cnt : Word) (s : State) : Host.Outcome State Fault Refusal :=
  .next (
    let st := s.rd (Reg.ISL_CLK_STAT_STATE n)
    if s.on Reg.CLK_STAT_HOLDOVER || decide (st < 2) || decide (6 < st) then s
    else
      let ok := s.windowPasses n cnt.toNat
      let s1 := s.wr (Reg.ISL_CLK_MEAS n) cnt.toNat
      if st = 2 then
        let p := if ok then s.rd (Hid.clkPass n) + 1 else 0
        let w := s.rd (Hid.clkWin n) + 1
        if s.rd Reg.CLK_JUDGE_CFG_PASSES ≤ p then
          ((s1.wr (Reg.ISL_CLK_STAT_STATE n) 3).wr (Reg.ISL_CLK_STAT_STABLE n) 1).clkSettle n
        else if 32 ≤ w then s1.clkFault n 8 2
        else (s1.wr (Hid.clkPass n) p).wr (Hid.clkWin n) w
      else if st = 5 then
        if ok then s1.wr (Hid.clkBad n) 0
        else if s.rd (Hid.clkBad n) = 0 then s1.wr (Hid.clkBad n) 1
        else s1.clkLost n 4
      else s1)

/-- ISL_CLK_LOST (R194): the lock of a running clock is lost, or its second window in a row has failed. -/
def execIslClkLost (n : Fin 80) (lock : Bool) (s : State) : Host.Outcome State Fault Refusal :=
  .next (if !lock && s.on Reg.CLK_STAT_HOLDOVER then s else s.clkLost n (if lock then 3 else 4))

/-! ### Sluice crossings (R202 to R205) -/

/-- The place of a bank: edge `e` (0 west, 1 east, 2 south, 3 north) and bank `b` of the receiving island. -/
def slcAt (n e b : Nat) : Nat := (4 * n + e) * 4 + b

/-- The island across an edge, none at the border of the grid (R20, R202). -/
def across (n e : Nat) : Option Nat :=
  if e = 0 then (if n % 10 = 0 then none else some (n - 1))
  else if e = 1 then (if n % 10 = 9 then none else some (n + 1))
  else if e = 2 then (if n < 10 then none else some (n - 10))
  else (if 70 ≤ n then none else some (n + 10))

/-- ISL_SLC_STAT[e] follows the banks of the edge. -/
def State.slcStat (s : State) (n e : Nat) : State :=
  let len (b : Nat) := (Tab.getD s.sluices (slcAt n e b) []).length
  (s.wr (Reg.ISL_SLC_STAT_OCC n e) (len 0 + 32 * len 1 + 1024 * len 2 + 32768 * len 3)).wr (Reg.ISL_SLC_STAT_STALL n e)
    (b2n (len 0 == 16) + 2 * b2n (len 1 == 16) + 4 * b2n (len 2 == 16) + 8 * b2n (len 3 == 16))

/-- Set the words of a bank. -/
def State.setBank (s : State) (n e b : Nat) (l : List Nat) : State :=
  { s with sluices := Tab.set s.sluices (slcAt n e b) [] l }.slcStat n e

/-- Flush a bank (R204): its words are discarded and counted. -/
def State.slcFlush (s : State) (n e b : Nat) : State :=
  (s.inc (Reg.ISL_SLC_DROP n e) (Tab.getD s.sluices (slcAt n e b) []).length).setBank n e b []

/-- Flush every inbound bank of an island. -/
def State.slcFlushAll (s : State) (n : Nat) : State :=
  State.each (List.range 4) (fun e t => State.each (List.range 4) (fun b u => u.slcFlush n e b) t) s

/-- A bank is open (R204): the receiving island is neither OFF nor powering down, nor has it been reset without being RUN since. -/
def State.slcOpen (s : State) (n e b : Nat) : Bool :=
  s.bitOf (Reg.ISL_SLC_CTRL_EN n e) b && s.rd (Reg.ISL_STAT_STATE n) != 5 && s.rd (Reg.ISL_PWR_STAT_PSTATE n) == 0
    && !s.on (Hid.slcShut n)

/-- SLUICE_SEND (R203, R204): the island across edge `e` of the receiving island `n` presents a word to bank `b`; it is
accepted where S_READY = 1, and held under back-pressure otherwise. -/
def execSluiceSend (n : Fin 80) (e b : Fin 4) (data : BitVec 256) (s : State) : Host.Outcome State Fault Refusal :=
  .next (match across n e with
    | none => s.answer .held []
    | some m =>
      let q := Tab.getD s.sluices (slcAt n e b) []
      if s.fabricLive m && s.slcOpen n e b && !s.on (Reg.ISL_WEIR_STAT_CLOSED n) && decide (q.length < 16) then
        (s.setBank n e b (q ++ [data.toNat])).answer .ok []
      else s.answer .held [])

/-- SLUICE_DELIVER (R203, R204): the receiving island consumes the head word of a bank. -/
def execSluiceDeliver (n : Fin 80) (e b : Fin 4) (s : State) : Host.Outcome State Fault Refusal :=
  .next (match Tab.getD s.sluices (slcAt n e b) [] with
    | [] => s.answer .held []
    | w :: r => if s.fabricLive n then (s.setBank n e b r).answer .ok (leBytes 32 w) else s.answer .held [])

/-- A write of ISL_SLC_CTRL[e] (R205): EN, and a flush of banks whose EN is 0; ignored on a border edge. -/
def State.slcCtrl (s : State) (n e w : Nat) : State :=
  if (across n e).isNone then s
  else
    let en := bits w 3 0
    let was := s.rd (Reg.ISL_SLC_CTRL_EN n e)
    let fl := bits w 11 8
    let bad := fl &&& (was &&& en)
    let s1 := (s.wr (Reg.ISL_SLC_CTRL_EN n e) en).wr (Reg.ISL_SLC_CTRL_FLUSH n e)
      (s.rd (Reg.ISL_SLC_CTRL_FLUSH n e) ||| (fl - bad))
    if bad = 0 then s1 else s1.deny (0x040 + n)

/-- SLUICE_FLUSH_WRITE (R205). -/
def execSluiceFlushWrite (n : Fin 80) (e : Fin 4) (w : Word) (s : State) : Host.Outcome State Fault Refusal :=
  .next (s.slcCtrl n e w.toNat)

/-- SLUICE_FLUSH_DONE (R205): a flush completes. -/
def execSluiceFlushDone (n : Fin 80) (e b : Fin 4) (s : State) : Host.Outcome State Fault Refusal :=
  .next (if s.bitOf (Reg.ISL_SLC_CTRL_FLUSH n e) b then (s.slcFlush n e b).clrB (Reg.ISL_SLC_CTRL_FLUSH n e) b else s)

/-! ### Entering RUN, and the release of an island's reset (R180, R200, R204, R316) -/

/-- The Weir of an island closes: the clamp codes of its user I/O are sampled, and its pins follow them (R417). -/
def State.weirShut (s : State) (n : Nat) : State :=
  let s1 := s.wr (Reg.ISL_WEIR_STAT_CLOSED n) 1
  if !hasIo n || s.on (Reg.ISL_WEIR_STAT_CLOSED n) then s1
  else (State.each (List.range 3) (fun m t => t.wr (Hid.weirIoAt (n - 70) m) (t.rd (Reg.ISL_WEIR_IO n m))) s1).ioDrive n

/-- An island enters RUN: its Weir opens, its flip-flops run, its Sluice banks may open, the fence of its NI lifts. -/
def State.enterRun (s : State) (n : Nat) : State :=
  ((((((s.wr (Reg.ISL_STAT_STATE n) 3).wr (Reg.ISL_WEIR_STAT_CLOSED n) 0).wr (Reg.ISL_WEIR_STAT_HELD n) 0).wr
    (Reg.ISL_WEIR_STAT_FIRST_START n) 0).wr (Hid.slcShut n) 0).wr (Reg.NOC_NI_STAT_FENCED n) 0).ioDrive n

/-- The voltage range that fits an I/O standard (R169): 1 SE12, 2 SE15, 3 SE18, 4 LVDS_RX, 5 LVDS_TX, against the nominal
voltage measured, 0 for below 1.08 V, 1 for 1.2 V, 2 for 1.5 V, 3 for 1.8 V; standard 0 is an unused cell. -/
def ioFits (std vnom : Nat) : Bool :=
  std == 0 || (std == 4 && decide (1 ≤ vnom)) || (std == 5 && vnom == 3) || (decide (1 ≤ std) && decide (std ≤ 3) && std == vnom)

/-- The outputs of an island's I/O bank are released at start-up (R169): cells whose standard does not fit are left high
impedance and marked. -/
def State.ioRelease (s : State) (n : Nat) : State :=
  if 70 ≤ n ∧ n < 78 then
    let v := s.rd (Reg.ISL_IOB_STAT_VNOM n)
    let mis := ((List.range 48).filter (fun x => !ioFits (s.planeItem n 0 (64 + x) % 6) v)).foldl (fun a x => a + 2 ^ x) 0
    let s1 := (s.wr (Reg.ISL_IOB_MIS n) mis).wr (Hid.ioOut (n - 70)) 1
    if mis = 0 then s1.ioDrive n
    else (((s1.ioDrive n).wr (Reg.ISL_IOB_STAT_MISMATCH n) 1).wr (Reg.ISL_EVT_IOB_MISMATCH n) 1).islEvent n 5
  else s

/-- START brings the flip-flops of an island to their initial values (R173, R412): F0 and, of context `c`, F1 and D2. -/
def State.fabricStart (s : State) (n c : Nat) : State :=
  (((s.wr (Hid.ff0 n) (s.planeItem n c 2)).wr (Hid.ff1 n c) (s.planeItem n c 3)).d2Clear n c).ioInit n c

/-- An island completes its start-up stages alone (R180, R412, R414). -/
def State.startAlone (s : State) (n : Nat) : State :=
  let c := s.rd (Reg.ISL_STAT_CUR_CTX n)
  let s1 := if s.on (Reg.ISL_WEIR_STAT_FIRST_START n) then s.ioRelease n else s
  (s1.fabricStart n c).enterRun n

/-- The plane that an island enters when its reset is released (R173, R180): RESET_CTX, or plane 0 where that is not VALID
or the reset is an ENGINE reset. -/
def State.entryPlane (s : State) (n : Nat) : Nat :=
  let r := s.rd (Reg.ISL_CTRL_RESET_CTX n)
  if s.bitOf (Reg.ISL_CTX_VALID_VALID n) r && !s.on (Hid.engRst n) then r else 0

/-- The reset of an island is released (R180): it enters its entry plane and STARTING; with no VALID entry plane it enters
BLANK. Its clock is requested RUNNING (R412), and where it is RUNNING already the island completes its stages at once. -/
def State.resetRelease (s : State) (n : Nat) : State :=
  let c := s.entryPlane n
  let s1 := (((s.wr (Hid.pwrUp n) 0).wr (Hid.engRst n) 0).wr (Hid.startLate n) 0).wr (Reg.ISL_STAT_CUR_CTX n) c
  if !s.bitOf (Reg.ISL_CTX_VALID_VALID n) c then s1.wr (Reg.ISL_STAT_STATE n) 0
  else
    let s2 := ((s1.wr (Reg.ISL_STAT_STATE n) 2).wr (Reg.ISL_CLK_CTRL_REQ n) 2).clkSettle n
    if s2.rd (Reg.ISL_CLK_STAT_STATE n) = 5 then s2.startAlone n else s2

/-! ### Ramps and their admission (R194, R198 to R200, R500) -/

/-- What a ramp of an island changes the fabric current by, in units of 10 mA (R500). -/
def State.rampCost (s : State) (n : Nat) : Nat :=
  if s.on (Reg.ISL_WEIR_STAT_FIRST_START n) then 300 else s.iCtx n (s.rd (Reg.ISL_STAT_CUR_CTX n))

/-- The fence of a power-down is complete (R199, R316): nothing that was accepted is outstanding, or NOC_DRAIN_TMO has
passed. -/
def State.fenceClear (s : State) (n : Nat) : Bool :=
  (Tab.getD s.slvReqs n [] == [] && !s.packets.any (fun p => p.src == n && !p.void))
    || decide (4000 * s.rd Reg.NOC_DRAIN_TMO ≤ s.now - s.rd (Hid.fenceAt n))

/-- The ramp that an island waits for. -/
inductive Ramp where
  | none | clkUp | clkDown | pwrDown | pwrUp
deriving DecidableEq, Repr

def State.rampWaits (s : State) (n : Nat) : Ramp :=
  let st := s.rd (Reg.ISL_CLK_STAT_STATE n)
  let q := s.rd (Reg.ISL_CLK_CTRL_REQ n)
  let p := s.rd (Reg.ISL_PWR_STAT_PSTATE n)
  if p = 1 then
    if !s.fenceClear n then .none
    else if st = 5 ∨ st = 7 then .clkDown
    else if st = 4 ∨ st = 6 then .none
    else .pwrDown
  else if p = 3 then (if s.on (Reg.ISL_PWR_CTRL_REQ n) || s.astStop then .none else .pwrUp)
  else if p ≠ 0 then .none
  else if st = 3 then (if q = 2 ∧ !s.astStop ∧ !s.on (Reg.ISL_STAT_SWITCHING n) then .clkUp else .none)
  else if st = 5 then (if q ≠ 2 ∨ s.on Hid.stopGate ∨ s.on (Hid.clkPairV n) then .clkDown else .none)
  else if st = 7 then (if q = 0 then .clkDown else .none)
  else .none

/-- What is abandoned when the fence of a power-down ends without its responses (R316). -/
def State.fenceAbandon (s : State) (n : Nat) : State :=
  { s.fpCut n with packets := s.packets.map (fun p => if p.src == n then { p with void := true } else p) }

/-- A ramp begins. The first one of a power-down closes and flushes the inbound Sluice banks (R199 step 2). -/
def State.rampBegin (s : State) (n : Nat) : State :=
  let s1 := if s.rd (Reg.ISL_PWR_STAT_PSTATE n) = 1 then ((s.fenceAbandon n).slcFlushAll n).wr (Hid.slcShut n) 1 else s
  match s.rampWaits n with
  | .none => s
  | .clkUp => s.wr (Reg.ISL_CLK_STAT_STATE n) 4
  | .clkDown => (s1.wr (Hid.clkFb n) (b2n (s.rd (Reg.ISL_CLK_STAT_STATE n) == 7))).wr (Reg.ISL_CLK_STAT_STATE n) 6
  | .pwrDown => (s1.pllOff n 0).wr (Reg.ISL_PWR_STAT_PSTATE n) 2
  | .pwrUp => s.wr (Reg.ISL_PWR_STAT_PSTATE n) 4

/-- Admit the ramp that an island waits for, where it fits the share left in the present 1 us (R500). -/
def State.rampAdmit (s : State) (n : Nat) : State :=
  if s.rampWaits n = .none then s
  else if s.rd Hid.slewUsed + s.rampCost n ≤ 2400 then
    (s.wr Hid.slewUsed (s.rd Hid.slewUsed + s.rampCost n)).rampBegin n
  else s

/-- RAMP_ADMIT (R198, R500): the waiting ramps are admitted in ascending island order, so that of an island is admitted when no
lower island waits. -/
def execRampAdmit (n : Fin 80) (s : State) : Host.Outcome State Fault Refusal :=
  .next (if (List.range n.val).any (fun m => s.rampWaits m != .none) then s else s.rampAdmit n)

/-- RAMP_UP_DONE (R194, R200): the clock is RUNNING; an island that was powered up leaves its reset. -/
def execRampUpDone (n : Fin 80) (s : State) : Host.Outcome State Fault Refusal :=
  .next (if s.rd (Reg.ISL_CLK_STAT_STATE n) = 4 then
      let s1 := (s.wr (Reg.ISL_CLK_STAT_STATE n) 5).wr (Hid.clkBad n) 0
      if s.on (Hid.pwrUp n) && s.rd (Reg.ISL_STAT_STATE n) == 4 then s1.resetRelease n else s1
    else s)

/-- RAMP_DOWN_DONE (R194, R199): the clock is GATED, or PLL_OFF by request, from FALLBACK or in a power-down. -/
def execRampDownDone (n : Fin 80) (s : State) : Host.Outcome State Fault Refusal :=
  .next (if s.rd (Reg.ISL_CLK_STAT_STATE n) = 6 then
      if s.rd (Reg.ISL_PWR_STAT_PSTATE n) = 1 then s.pllOff n 0
      else if s.on (Hid.clkFb n) then ((s.pllOff n 0).wr (Reg.ISL_CLK_STAT_FAULT_CAUSE n) 0).clkSettle n
      else if s.rd (Reg.ISL_CLK_CTRL_REQ n) = 0 ∧ !s.on (Hid.clkPairV n) then s.pllOff n 0
      else (s.wr (Reg.ISL_CLK_STAT_STATE n) 3).clkSettle n
    else s)

/-! ### Island power (R199, R200) -/

/-- A power-down is permitted (R199). -/
def State.pwrOffOk (s : State) (n : Nat) : Bool :=
  let st := s.rd (Reg.ISL_STAT_STATE n)
  (st == 0 || st == 3 || st == 4) && !s.on (Reg.ISL_STAT_SWITCHING n) && s.rd (Reg.ISL_CTX_VALID_LOADING n) == 0
    && !s.bstOn 2 n && !s.bstOn 3 n
    && !(List.range 4).any (fun p => s.on (Reg.PRB_BIND_DELIV_EN p) && s.rd (Reg.PRB_BIND_ISLAND p) == n)

/-- A write of ISL_PWR_CTRL (R199, R200). -/
def State.pwrWrite (s : State) (n v : Nat) : State :=
  if v = s.rd (Reg.ISL_PWR_CTRL_REQ n) then s
  else if v = 0 then s.wr (Reg.ISL_PWR_CTRL_REQ n) 0
  else if !s.pwrOffOk n then s.deny (0x040 + n)
  else
    let s1 := s.wr (Reg.ISL_PWR_CTRL_REQ n) 1
    if s.rd (Reg.ISL_PWR_STAT_PSTATE n) = 0 then
      ((s1.wr (Reg.ISL_PWR_STAT_PSTATE n) 1).wr (Reg.NOC_NI_STAT_FENCED n) 1).wr (Hid.fenceAt n) s.now
    else s1

/-- ISL_PWR_OFF_REQ (R199, R316): ISL_PWR_CTRL.REQ = OFF is written. -/
def execIslPwrOffReq (n : Fin 80) (s : State) : Host.Outcome State Fault Refusal := .next (s.pwrWrite n 1)

/-- ISL_PWR_ON_REQ (R200): ISL_PWR_CTRL.REQ = ON is written; an island that is OFF then waits for its ramp. -/
def execIslPwrOnReq (n : Fin 80) (s : State) : Host.Outcome State Fault Refusal := .next (s.pwrWrite n 0)

/-- POWER_DOWN_DONE (R180, R199): the power ramp completes. -/
def execPowerDownDone (n : Fin 80) (s : State) : Host.Outcome State Fault Refusal :=
  .next (if s.rd (Reg.ISL_PWR_STAT_PSTATE n) = 2 then
      (((((s.wr (Reg.ISL_PWR_STAT_PSTATE n) 3).wr (Reg.ISL_STAT_STATE n) 5).wr (Reg.ISL_TAP_LIVE n) 0).wr (Hid.muOut n) 0).wr
        (Reg.ISL_WEIR_STAT_CLOSED n) 1).wr (Reg.ISL_WEIR_STAT_HELD n) 1
    else s)

/-- POWER_UP_DONE (R200): the island is in RESET and waits there for its clock. -/
def execPowerUpDone (n : Fin 80) (s : State) : Host.Outcome State Fault Refusal :=
  .next (if s.rd (Reg.ISL_PWR_STAT_PSTATE n) = 4 then
      ((((s.wr (Reg.ISL_PWR_STAT_PSTATE n) 0).wr (Reg.ISL_STAT_STATE n) 4).wr (Hid.pwrUp n) 1).fabricReset n
        (s.rd (Reg.ISL_STAT_CUR_CTX n))).clkSettle n
    else s)

end Sys2Proof.Machine
end

