-- ==== Sys2Proof/Machine/Runner.lean ====
section
/-! DEFINITION. Runner: channels, sources, templates, instructions, and frames on the line (chapter 3, R95 to R104). -/

namespace Sys2Proof.Machine

/-! ### The timeline of a port (R29, R34, R103). Positions are in UI/WIDTH from the start of transmission, so that a
block slot is 66 and a row is 66 x WIDTH. -/

/-- UI of a port's line rate per unit of the timebase, as a fraction (R29): f_REF is 100 or 156.25 MHz. -/
def State.uiRate (s : State) (p : Nat) : Nat × Nat :=
  let b := if s.on (Reg.PRB_PLL_CFG_REFSEL p) then s.on Reg.CLK_REF_CFG_FREQ_B else s.on Reg.CLK_REF_CFG_FREQ_A
  ((if b then 625 else 400) * (s.rd (Reg.PRB_PLL_CFG_FBDIV p) * 2 ^ 24 + s.rd (Reg.PRB_PLL_FRAC_FRAC p)) * 625, 10000000 * 2 ^ 24)

/-- The first position of the next row that the port sends. -/
def State.txPos (s : State) (p : Nat) : Nat := 66 * s.rd (Reg.PRB_CTRL_WIDTH p) * s.rd (Hid.txRows p)

/-- The position of a port's timeline now: the row under way began with the last one sent. -/
def State.txNow (s : State) (p : Nat) : Nat :=
  s.txPos p + s.rd (Reg.PRB_CTRL_WIDTH p) * s.rd (Hid.txAcc p) / (s.uiRate p).2 - 66 * s.rd (Reg.PRB_CTRL_WIDTH p)

/-- The timebase value at a position, not before now, on the timeline of a port. -/
def State.tsAt (s : State) (p pos : Nat) : Nat :=
  s.now + (pos - s.txNow p) * (s.uiRate p).2 / (s.rd (Reg.PRB_CTRL_WIDTH p) * (s.uiRate p).1)

/-- The first slot boundary at or after a position. -/
def slotCeil (x : Nat) : Nat := (x + 65) / 66 * 66

/-- A slot boundary, moved past a marker row, in which no frame starts (R34, R103). -/
def skipMarker (w x : Nat) : Nat :=
  let row := x / (66 * w)
  if row % 16384 = 0 then (row + 1) * (66 * w) else x

/-- The end of `b` slots from a slot boundary outside the marker rows, which carry no slot of a frame. -/
def afterSlots (w x b : Nat) : Nat :=
  if b = 0 then x
  else
    let k := x / 66
    let e := k / (16384 * w) * (16383 * w) + (k % (16384 * w) - w) + (b - 1)
    66 * (e / (16383 * w) * (16384 * w) + w + e % (16383 * w) + 1)

/-! ### Sources (R96) -/

/-- Base address and size in bytes of a source. -/
def State.srcBase (s : State) (k : Nat) : Nat := 8 * s.rd (Reg.RUN_SRC_BASE k)
def State.srcSize (s : State) (k : Nat) : Nat := 8 * s.rd (Reg.RUN_SRC_SIZE k)

/-- `n` bytes whose value the manual leaves open. -/
def State.freshBytes (s : State) (n : Nat) : List Byte × State := (leBytes n s.fresh.1, s.fresh.2)

/-- Read `n` bytes for Runner: what a bus error returns is open; an uncorrectable word is taken as stored (R247). -/
def State.runRead (s : State) (key a n : Nat) : MRes × List Byte × State :=
  if n = 0 then (.ok, [], s)
  else match s.memRead (s.req .runner key) a n with
  | (_, .held, t) => (.held, [], t)
  | (_, .err, t) => (.ok, (t.freshBytes n).1, (t.freshBytes n).2)
  | (bs, _, t) => (.ok, bs, t)

/-- `n` bytes from the cursor of a source, wrapping at SIZE with WRAP = 1; none where they would reach beyond SIZE. -/
def State.srcRead (s : State) (k n : Nat) : Option (MRes × List Byte × State) :=
  let sz := s.srcSize k
  let cur := s.rd (Reg.RUN_SRC_CUR k)
  let key := s.rd (Reg.RUN_SRC_CFG_KEY k)
  if cur + n ≤ sz then some (s.runRead key (s.srcBase k + cur) n)
  else if !s.on (Reg.RUN_SRC_CFG_WRAP k) || sz = 0 then none
  else
    let whole := (n - (sz - cur)) / sz
    let parts := (cur, sz - cur) :: List.replicate whole (0, sz) ++ [(0, (n - (sz - cur)) % sz)]
    some (parts.foldl (fun acc p =>
      let (r, bs, t) := acc.2.2.runRead key (s.srcBase k + p.1) p.2
      ((if acc.1 = .held then .held else r), acc.2.1 ++ bs, t)) (.ok, [], s))

/-- The cursor after `n` bytes (R96, R101). -/
def State.srcAdvance (s : State) (k n : Nat) : State :=
  let c := s.rd (Reg.RUN_SRC_CUR k) + n
  let sz := s.srcSize k
  s.wr (Reg.RUN_SRC_CUR k) (if s.on (Reg.RUN_SRC_CFG_WRAP k) && decide (sz ≤ c) then c % sz else c)

/-! ### Templates (R97, R100) -/

/-- The address of a template. -/
def State.tplAddr (s : State) (t : Nat) : Nat := 512 * s.rd Reg.RUN_TPL_BASE + 512 * t

/-- Write a held template back to the template area, under key index 0: done, or held because the area's bank is asleep
(R256). -/
def State.tplBack (s : State) (x : Tpl) : Bool × State :=
  let q := s.req .runner 0
  match s.memWrite q (s.tplAddr x.num + 392) (x.vals.flatMap (leBytes 8)) with
  | (.held, t) => (false, t)
  | (_, t) =>
    match t.memWrite q (s.tplAddr x.num + 504) (leBytes 8 x.frames) with
    | (.held, u) => (false, u)
    | (_, u) => (true, u)

/-- Write back the templates of a list in order; those whose write is held stay held in channel `c`, after the others. -/
def State.tplBackAll (s : State) (c : Nat) (l : List Tpl) : State :=
  State.each l (fun x t =>
    match t.tplBack x with
    | (true, u) => u
    | (false, u) => { u with tplCache := Tab.set u.tplCache c [] (Tab.getD u.tplCache c [] ++ [x]) }) s

/-- Write every template that a channel holds back, as it leaves RUNNING or WAITING. -/
def State.tplFlush (s : State) (c : Nat) : State :=
  { s with tplCache := Tab.del s.tplCache c }.tplBackAll c (Tab.getD s.tplCache c [])

/-- A channel that neither runs nor waits goes on writing back what was held (R100, R256). -/
def State.tplRetry (s : State) (c : Nat) : State :=
  let st := s.rd (Reg.RUN_CH_STAT_STATE c)
  if st = 1 ∨ st = 2 ∨ Tab.getD s.tplCache c [] = [] then s else s.tplFlush c

/-- The counters of template `t`: from the templates `l` that a channel holds, or else from memory. -/
def State.tplGet (s : State) (l : List Tpl) (t : Nat) : Option Tpl × State :=
  match l.find? (fun x => x.num == t) with
  | some x => (some x, s)
  | none =>
    match s.runRead 0 (s.tplAddr t + 392) 56 with
    | (.held, _, u) => (none, u)
    | (_, bs, u) =>
      let (_, cs, v) := u.runRead 0 (s.tplAddr t + 504) 8
      (some ⟨t, (List.range 7).map (fun i => ofLeBytes ((bs.drop (8 * i)).take 8)), ofLeBytes cs⟩, v)

/-- The template `t` as held in channel `c`, read from the template area where it is not held; none while the area's
bank is asleep. It becomes the most recently used, and a 65th is written back. -/
def State.tplLoad (s : State) (c t : Nat) : Option Tpl × State :=
  let l := Tab.getD s.tplCache c []
  match s.tplGet l t with
  | (none, u) => (none, u)
  | (some x, u) =>
    let l2 := x :: l.filter (fun y => y.num != t)
    (some x, { u with tplCache := Tab.set u.tplCache c [] (l2.take 64) }.tplBackAll c (l2.drop 64))

/-- Change a held template. -/
def State.tplSet (s : State) (c : Nat) (x : Tpl) : State :=
  { s with tplCache := Tab.set s.tplCache c [] ((Tab.getD s.tplCache c []).map (fun y => if y.num = x.num then x else y)) }

/-! ### Channel states (R104) -/

/-- A channel leaves RUNNING or WAITING for a state: its templates are written back and nothing waits to be sent. -/
def State.chLeave (s : State) (c st : Nat) : State :=
  let s1 := ({ s with runQueue := Tab.del s.runQueue c }).tplFlush c
  ((s1.wr (Reg.RUN_CH_STAT_STATE c) st).wr (Hid.chTs c) 0)

/-- A channel faults (R104). -/
def State.chFault (s : State) (c cause : Nat) : State :=
  ((s.chLeave c 5).wr (Reg.RUN_CH_STAT_FAULT_CAUSE c) cause).raise (325 + c)

/-- The error control block (R95): type 0x1E, its eight characters 0x1E. -/
def errBlk : TxBlk :=
  ⟨0, 2, (List.range 8).foldl (fun x i => x + 0x1E * 2 ^ (8 + 7 * i)) 0x1E, false, none⟩

/-- A frame of template `t` that was cut is not counted (R95, R97). -/
def State.chUncount (s : State) (c t : Nat) : State :=
  let s1 := s.wr (Reg.RUN_CH_FRAMES c) (s.rd (Reg.RUN_CH_FRAMES c) - 1)
  match s1.tplLoad c t with
  | (some x, u) => u.tplSet c { x with frames := x.frames - 1 }
  | (none, u) => u

/-- The blocks of the channel leave the line: a frame partly sent ends with the error control block in the next slot, and
no frame whose last block is unsent is counted (R95, R104). -/
def State.lineCut (s : State) (c : Nat) : State :=
  let l := Tab.getD s.txLine c []
  let s1 := State.each (l.filterMap (fun b => b.tpl)) (fun t u => u.chUncount c t) s
  let rest := match l with
    | b :: _ => if b.first then [] else [errBlk]
    | [] => []
  { s1 with txLine := Tab.set s1.txLine c [] rest }.wr (Hid.chEnd c) 0

/-- A channel in RUNNING or WAITING faults with PORT_DOWN or TX_SRC, and a frame partly on the line is cut (R95, R104). -/
def State.chCut (s : State) (c cause : Nat) : State :=
  let st := s.rd (Reg.RUN_CH_STAT_STATE c)
  if st ≠ 1 ∧ st ≠ 2 then s else (s.lineCut c).chFault c cause

/-- START's conditions on a channel (R104, R105). -/
def State.chMayStart (s : State) (c : Nat) : Bool :=
  let st := s.rd (Reg.RUN_CH_STAT_STATE c)
  s.on Reg.RUN_CTRL_EN && (st == 0 || st == 3 || st == 4) && s.rd (Reg.PRB_STAT_STATE c) == 7
    && s.rd (Reg.PRB_CTRL_TX_SRC c) == 1 && s.rd (Reg.PRB_CTRL_LOOP c) != 3

/-- The next frame's nominal start counts from the first slot after now (R103). A slot boundary that coincides with now is taken:
DESIGN CHOICE, log entry 76. -/
def State.chRebase (s : State) (c : Nat) : State :=
  (s.wr (Hid.chFirst c) 1).wr (Hid.chBase c) (slotCeil (s.txNow c))

/-- A channel starts. -/
def State.chStart (s : State) (c : Nat) : State :=
  let s1 := (((s.wr (Reg.RUN_CH_STAT_STATE c) 1).wr (Reg.RUN_CH_PC_PC c) (s.rd (Reg.RUN_CH_CTRL_START_ADDR c))).wr
    (Hid.chGap c) 0).wr (Hid.chWait c) 0
  ({ s1 with runLoops := Tab.del s1.runLoops c }.wr (Reg.RUN_CH_FRAMES c) 0).chRebase c

/-- GO: a WAITING channel goes on, and its timeline restarts (R103, R104). -/
def State.chGo (s : State) (c : Nat) : State := (s.wr (Reg.RUN_CH_STAT_STATE c) 1).chRebase c

/-- A Lantern start of a channel (R104). -/
def State.runStartAct (c : Nat) (s : State) : State :=
  if s.rd (Reg.RUN_CH_STAT_STATE c) = 2 then s.chGo c
  else if s.chMayStart c then s.chStart c
  else s.inc (Reg.RUN_CH_IGN c) 1

/-- A Lantern stop of a channel (R104): it acts on a RUNNING one. -/
def State.runStopAct (c : Nat) (s : State) : State :=
  if s.rd (Reg.RUN_CH_STAT_STATE c) = 1 then s.chLeave c 4 else s

/-- A Runner command out of its legal states. -/
def State.runReject (s : State) (code : Nat) : State := s.reject 0x016 code 320

def State.runStart (s : State) (c : Nat) : State := if s.chMayStart c then s.chStart c else s.runReject 1
def State.runStop (s : State) (c : Nat) : State :=
  let st := s.rd (Reg.RUN_CH_STAT_STATE c)
  if st = 1 ∨ st = 2 then s.chLeave c 4 else s.runReject 2
def State.runGo (s : State) (c : Nat) : State := if s.rd (Reg.RUN_CH_STAT_STATE c) = 2 then s.chGo c else s.runReject 3
def State.runClear (s : State) (c : Nat) : State :=
  let st := s.rd (Reg.RUN_CH_STAT_STATE c)
  if st = 3 ∨ st = 4 ∨ st = 5 then (s.wr (Reg.RUN_CH_STAT_STATE c) 0).wr (Reg.RUN_CH_STAT_FAULT_CAUSE c) 0 else s.runReject 4

/-- RUN_START (R104, R105). -/
def execRunStart (c : Fin 4) (s : State) : Host.Outcome State Fault Refusal := .next (s.runStart c)
/-- RUN_STOP (R100, R104, R105): the frame on the line is finished. -/
def execRunStop (c : Fin 4) (s : State) : Host.Outcome State Fault Refusal := .next (s.runStop c)
/-- RUN_GO (R103 to R105). -/
def execRunGo (c : Fin 4) (s : State) : Host.Outcome State Fault Refusal := .next (s.runGo c)
/-- RUN_CLEAR (R104, R105). -/
def execRunClear (c : Fin 4) (s : State) : Host.Outcome State Fault Refusal := .next (s.runClear c)

/-- A write of RUN_CMD. -/
def State.runCmd (s : State) (code c : Nat) : State :=
  if code = 1 then s.runStart c else if code = 2 then s.runStop c else if code = 3 then s.runGo c
  else if code = 4 then s.runClear c else s.runReject code

/-! ### Instructions (R101). The command of an instruction acts where the channel runs, has nothing waiting for the
line, and its next instruction has that opcode (log entry 15). -/

/-- The instruction at the PC of a channel. -/
def State.insn (s : State) (c : Nat) : Nat := s.rd (Reg.RUN_PROG (s.rd (Reg.RUN_CH_PC_PC c)))

/-- The channel executes: RUNNING, not in a WAITTS, with no frame waiting for its start. -/
def State.chReady (s : State) (c : Nat) : Bool :=
  s.rd (Reg.RUN_CH_STAT_STATE c) == 1 && !s.on (Hid.chTs c) && Tab.getD s.runQueue c [] == []

/-- The channel executes, and its next instruction has the opcode. -/
def State.runsOp (s : State) (c op : Nat) : Bool := s.chReady c && s.insn c / 2 ^ 58 == op

/-- Step to the next instruction; past address 65,535 the channel faults with PC_RANGE. The fault comes at once, so that the frame of
a SEND or RAW there is not sent and a WAITG there does not wait: DESIGN CHOICE, log entry 77. -/
def State.chNext (s : State) (c : Nat) : State :=
  let pc := s.rd (Reg.RUN_CH_PC_PC c)
  if pc = 65535 then s.chFault c 3 else s.wr (Reg.RUN_CH_PC_PC c) (pc + 1)

/-- INSN_NOP. -/
def execInsnNop (c : Fin 4) (s : State) : Host.Outcome State Fault Refusal :=
  .next (if s.runsOp c 0 then s.chNext c else s)

/-- The SEND of channel `c` once its body is read (R97, R98): the template image gives the header and the frame's
shape, and the frame is queued. -/
def State.sendFrame (s : State) (c i : Nat) (body : List Byte) : State :=
  let t := bits i 57 46
  let k := bits i 45 42
  let len := bits i 41 28
  match s.runRead 0 (s.tplAddr t) 392 with
  | (.held, _, v) => v
  | (_, img, v) =>
    let ctl := ofLeBytes ((img.drop 384).take 2)
    let hl := ctl % 512
    let app := bit ctl 9
    let crc := if app then 2 ^ min (s.rd (Reg.RUN_CRC_CFG_WIDTH c 0)) 2 else 0
    let l := hl + len + crc
    if hl > 384 ∨ l = 0 ∨ 16384 < l then v.chFault c 5
    else
      let (_, ds, w) := v.runRead 0 (v.tplAddr t + 448) 56
      match w.tplLoad c t with
      | (none, x) => x
      | (some _, x) =>
        let descs := (List.range 7).map (fun j => ofLeBytes ((ds.drop (8 * j)).take 8))
        let fr : Frame := ⟨false, t, img.take hl, body, descs, app, l / 8 + 2, s.rd (Hid.chGap c)⟩
        let y := if bit i 24 then x else x.srcAdvance k len
        ({ y with runQueue := Tab.set y.runQueue c [] [fr] }).chNext c

/-- INSN_SEND (R96 to R102): LEN payload bytes are taken from the source, and the frame waits for its start. A source that ends
first faults with SRC_END, a frame of a length outside 1 to 16,384 with FRAME_LEN, before anything is sent. -/
def execInsnSend (c : Fin 4) (s : State) : Host.Outcome State Fault Refusal :=
  let i := s.insn c
  .next (if !s.runsOp c 1 then s
    else match s.srcRead (bits i 45 42) (bits i 41 28) with
    | none => s.chFault c 4
    | some (.held, _, u) => u
    | some (_, body, u) => u.sendFrame c i body)

/-- INSN_GAP (R101, R103). -/
def execInsnGap (c : Fin 4) (s : State) : Host.Outcome State Fault Refusal :=
  .next (if s.runsOp c 2 then (s.wr (Hid.chGap c) (bits (s.insn c) 39 0)).chNext c else s)

/-- INSN_WAITUI (R101, R103). -/
def execInsnWaitui (c : Fin 4) (s : State) : Host.Outcome State Fault Refusal :=
  .next (if s.runsOp c 3 then (s.add (Hid.chWait c) (bits (s.insn c) 39 0)).chNext c else s)

/-- The loop stack of a channel. -/
def State.loops (s : State) (c : Nat) : List (Nat × Nat) := Tab.getD s.runLoops c []
def State.setLoops (s : State) (c : Nat) (l : List (Nat × Nat)) : State := { s with runLoops := Tab.set s.runLoops c [] l }

/-- INSN_LOOP (R101): a fifth nested level faults. -/
def execInsnLoop (c : Fin 4) (s : State) : Host.Outcome State Fault Refusal :=
  .next (if !s.runsOp c 4 then s
    else if 4 ≤ (s.loops c).length then s.chFault c 2
    else (s.setLoops c ((bits (s.insn c) 31 0, s.rd (Reg.RUN_CH_PC_PC c) + 1) :: s.loops c)).chNext c)

/-- INSN_ENDL (R101): back to the instruction after the LOOP until the count is 0; count 0 at the LOOP never ends. -/
def execInsnEndl (c : Fin 4) (s : State) : Host.Outcome State Fault Refusal :=
  .next (if !s.runsOp c 5 then s
    else match s.loops c with
    | [] => s.chFault c 2
    | (0, ret) :: _ => s.wr (Reg.RUN_CH_PC_PC c) ret
    | (1, _) :: rest => (s.setLoops c rest).chNext c
    | (n + 2, ret) :: rest => (s.setLoops c ((n + 1, ret) :: rest)).wr (Reg.RUN_CH_PC_PC c) ret)

/-- INSN_JMP (R101). -/
def execInsnJmp (c : Fin 4) (s : State) : Host.Outcome State Fault Refusal :=
  .next (if s.runsOp c 6 then s.wr (Reg.RUN_CH_PC_PC c) (bits (s.insn c) 15 0) else s)

/-- INSN_WAITG (R101, R104): WAITING until GO, which continues at the next instruction. -/
def execInsnWaitg (c : Fin 4) (s : State) : Host.Outcome State Fault Refusal :=
  .next (if s.runsOp c 7 then
      let s1 := s.chNext c
      if s1.rd (Reg.RUN_CH_STAT_STATE c) = 1 then s1.wr (Reg.RUN_CH_STAT_STATE c) 2 else s1
    else s)

/-- INSN_WAITTS (R101, R103): idle blocks until the timebase reaches T. -/
def execInsnWaitts (c : Fin 4) (s : State) : Host.Outcome State Fault Refusal :=
  .next (if s.runsOp c 8 then ((s.wr (Hid.chTs c) 1).wr (Hid.chTsVal c) (bits (s.insn c) 55 0)) else s)

/-- WAITTS_REACHED (R103): timebase[55:0] is at or after T; the next frame's nominal start is the first slot boundary
from now, and the gap and the WAITUI operands before are superseded. -/
def execWaittsReached (c : Fin 4) (s : State) : Host.Outcome State Fault Refusal :=
  .next (if s.rd (Reg.RUN_CH_STAT_STATE c) = 1 ∧ s.on (Hid.chTs c) = true
        ∧ s.rd (Hid.chTsVal c) ≤ s.now % 2 ^ 56 then
      (((s.wr (Hid.chTs c) 0).wr (Hid.chWait c) 0).chRebase c).chNext c
    else s)

/-- INSN_SEEK (R101): an offset at or above SIZE faults with SRC_END. -/
def execInsnSeek (c : Fin 4) (s : State) : Host.Outcome State Fault Refusal :=
  let i := s.insn c
  let k := bits i 45 42
  .next (if !s.runsOp c 9 then s
    else if s.srcSize k ≤ bits i 39 0 then s.chFault c 4
    else (s.wr (Reg.RUN_SRC_CUR k) (bits i 39 0)).chNext c)

/-- INSN_SETF (R101): a field value of a template, upper 32 bits 0; field 7 faults with ILLEGAL_OP. -/
def execInsnSetf (c : Fin 4) (s : State) : Host.Outcome State Fault Refusal :=
  let i := s.insn c
  let j := bits i 45 43
  .next (if !s.runsOp c 10 then s
    else if j = 7 then s.chFault c 1
    else match s.tplLoad c (bits i 57 46) with
    | (none, u) => u
    | (some x, u) => (u.tplSet c { x with vals := updAt (fun _ => bits i 31 0) j x.vals }).chNext c)

/-- INSN_SIGNAL (R101): the channel's SIGNAL pulses to Lantern. -/
def execInsnSignal (c : Fin 4) (s : State) : Host.Outcome State Fault Refusal :=
  .next (if s.runsOp c 11 then ((s.wr (Hid.sigLatch c) 1).raise (329 + c)).chNext c else s)

/-- INSN_RAW (R101, R102): NBLK blocks of 16 source bytes wait for their start. -/
def execInsnRaw (c : Fin 4) (s : State) : Host.Outcome State Fault Refusal :=
  let i := s.insn c
  let k := bits i 45 42
  let n := bits i 41 28
  .next (if !s.runsOp c 12 then s
    else match s.srcRead k (16 * n) with
    | none => s.chFault c 4
    | some (.held, _, u) => u
    | some (_, body, u) =>
      let y := u.srcAdvance k (16 * n)
      ({ y with runQueue := Tab.set y.runQueue c [] [⟨true, 0, [], body, [], false, n, s.rd (Hid.chGap c)⟩] }).chNext c)

/-- INSN_HALT (R101, R104). -/
def execInsnHalt (c : Fin 4) (s : State) : Host.Outcome State Fault Refusal :=
  .next (if s.runsOp c 0x3F then (s.chLeave c 3).raise (321 + c) else s)

/-- INSN_ILLEGAL (R101): an opcode that the table does not list faults with ILLEGAL_OP. -/
def execInsnIllegal (c : Fin 4) (s : State) : Host.Outcome State Fault Refusal :=
  let op := s.insn c / 2 ^ 58
  .next (if s.chReady c && decide (12 < op) && op != 0x3F then s.chFault c 1 else s)

/-! ### Frames on the line (R98 to R103) -/

/-- Write the low `w` bits of a value into bytes, most significant first, from bit position `pos` (bit 0 of byte 0 is its most
significant); bits outside the bytes are dropped. -/
def putField (bs : List Byte) (pos : Int) (v : Nat) : Nat → List Byte
  | 0 => bs
  | w + 1 =>
    let bs1 :=
      if pos < 0 then bs
      else updAt (fun b => BitVec.ofNat 8 (setBitsAt b.toNat (7 - pos.toNat % 8) (7 - pos.toNat % 8) (v / 2 ^ w % 2)))
        (pos.toNat / 8) bs
    putField bs1 (pos + 1) v w

/-- The bit position of a field in a frame of `l` bytes (R98). -/
def fieldPos (l d : Nat) : Int :=
  let off : Int := if bit d 14 then (l : Int) - (bits d 13 0 : Int) else (bits d 13 0 : Int)
  8 * off + (bits d 24 22 : Int)

/-- The result of CRC unit `u` of a channel over bytes (R100). -/
def State.crcOf (s : State) (c u : Nat) (bs : List Byte) : Nat :=
  let w := 8 * 2 ^ min (s.rd (Reg.RUN_CRC_CFG_WIDTH c u)) 2
  let inp := if s.on (Reg.RUN_CRC_CFG_REFIN c u) then bs.map (fun b => BitVec.ofNat 8 (revBits 8 b.toNat)) else bs
  let r := crcBytes w (s.rd (Reg.RUN_CRC_POLY c u) % 2 ^ w) (s.rd (Reg.RUN_CRC_INIT c u) % 2 ^ w) inp
  let o := if s.on (Reg.RUN_CRC_CFG_REFOUT c u) then revBits w r else r
  o ^^^ (s.rd (Reg.RUN_CRC_XOR c u) % 2 ^ w)

/-- The bytes from START to a byte position (R99). -/
def State.crcSpan (s : State) (c u : Nat) (bs : List Byte) (stop : Nat) : List Byte :=
  (bs.take stop).drop (s.rd (Reg.RUN_CRC_CFG_START c u))

/-- What the first pass of field ops builds: the bytes, the field values after INC, and the FAB values left. -/
structure Build where
  bytes : List Byte
  vals  : List Nat
  fab   : List Nat

/-- One field op other than CRC (R98, R99). -/
def fieldOp (l plen ts : Nat) (d : Nat) (j : Nat) (b : Build) : Build :=
  let w := bits d 21 16 + 1
  let step := toSigned 16 (bits d 47 32)
  let put (v : Nat) : List Byte := putField b.bytes (fieldPos l d) (v % 2 ^ w) w
  let v := b.vals.getD j 0
  match bits d 27 25 with
  | 1 => { b with bytes := put v }
  | 2 => { b with bytes := put v, vals := updAt (fun x => ofSigned 64 ((x : Int) + step)) j b.vals }
  | 3 => { b with bytes := put (ofSigned 64 ((l : Int) + step)) }
  | 5 => { b with bytes := put ts }
  | 6 => { b with bytes := put (b.fab.headD 0), fab := b.fab.tail }
  | 7 => { b with bytes := put (ofSigned 64 ((plen : Int) + step)) }
  | _ => b

/-- The CRC fields of one unit, in field order (R99). -/
def State.crcFields (s : State) (c u l : Nat) (descs : List Nat) (bs : List Byte) : List Byte :=
  descs.foldl (fun a d =>
    if bits d 27 25 = 4 ∧ bits d 28 28 = u then
      let p := fieldPos l d
      let w := bits d 21 16 + 1
      putField a p (s.crcOf c u (s.crcSpan c u a (p / 8).toNat) % 2 ^ w) w
    else a) bs

/-- FAB fields of a frame. -/
def Frame.fabs (fr : Frame) : Nat := (fr.descs.filter (fun d => bits d 27 25 == 6)).length

/-- The bytes of a frame as sent, in the order of R99: field ops, CRC fields of unit 1, of unit 0, the appended CRC. -/
def State.frameBytes (s : State) (c : Nat) (fr : Frame) (vals fab : List Nat) (ts : Nat) : Build :=
  let w := s.rd (Reg.RUN_CRC_CFG_WIDTH c 0)
  let n := if fr.append then 2 ^ min w 2 else 0
  let b0 := fr.hdr ++ fr.body ++ List.replicate n 0
  let l := b0.length
  let b1 := ((List.range 7).zip fr.descs).foldl (fun b x => fieldOp l fr.body.length ts x.2 x.1 b) ⟨b0, vals, fab⟩
  let c0 := s.crcFields c 0 l fr.descs (s.crcFields c 1 l fr.descs b1.bytes)
  let out :=
    if fr.append then
      let k := l - n
      let v := leBytes n (s.crcOf c 0 (s.crcSpan c 0 c0 k))
      c0.take k ++ (if s.on (Reg.RUN_CRC_CFG_REFOUT c 0) then v else v.reverse)
    else c0
  { b1 with bytes := out }

/-- The nominal start of the next frame of a channel (R103). -/
def State.nominal (s : State) (c : Nat) : Nat :=
  (if s.on (Hid.chFirst c) then s.rd (Hid.chBase c) else s.rd (Hid.chNom c))
    + s.rd (Hid.chWait c) * s.rd (Reg.PRB_CTRL_WIDTH c)

/-- The type of the terminate block that carries `k` characters (R66). -/
def termType (k : Nat) : Nat := [0x87, 0x99, 0xAA, 0xB4, 0xCC, 0xD2, 0xE1, 0xFF].getD k 0x87

/-- The blocks of a SEND frame (R102): the start block with the characters after /S/, the data blocks, and the terminate
block; each a sync header and a payload. -/
def sendBlocks (pre : Nat) (bytes : List Byte) : List (Nat × Nat) :=
  let n := bytes.length / 8
  (2, 0x78 + 256 * pre) :: (List.range n).map (fun i => (1, ofLeBytes ((bytes.drop (8 * i)).take 8)))
    ++ [(2, termType (bytes.length % 8) + 256 * ofLeBytes (bytes.drop (8 * n)))]

/-- The blocks of a RAW run (R101): of 16 source bytes each, the payload and the sync header. -/
def rawBlocks (bytes : List Byte) : List (Nat × Nat) :=
  (List.range (bytes.length / 16)).map (fun i =>
    (((bytes.drop (16 * i + 8)).headD 0).toNat % 4, ofLeBytes ((bytes.drop (16 * i)).take 8)))

/-- The blocks of a frame in their slots from `a` on, past the marker rows (R34, R103). -/
def placed (w a : Nat) (tpl : Option Nat) (l : List (Nat × Nat)) : List TxBlk :=
  ((List.range l.length).zip l).map (fun x =>
    ⟨afterSlots w a (x.1 + 1) - 66, x.2.1, x.2.2, x.1 == 0, if x.1 + 1 == l.length then tpl else none⟩)

/-- The line takes the blocks of a frame that starts at `a`. -/
def State.lineAdd (s : State) (c a : Nat) (tpl : Option Nat) (l : List (Nat × Nat)) : State :=
  { s with txLine := Tab.set s.txLine c [] (Tab.getD s.txLine c [] ++ placed (s.rd (Reg.PRB_CTRL_WIDTH c)) a tpl l) }

/-- Where the frame `fr` of a channel starts (R103): on time, and actually. -/
def State.startsAt (s : State) (c : Nat) : Nat × Nat :=
  let w := s.rd (Reg.PRB_CTRL_WIDTH c)
  let t := skipMarker w (slotCeil (s.nominal c))
  (t, skipMarker w (max t (slotCeil (max (s.rd (Hid.chEnd c)) (s.txPos c)))))

/-- The bound island's fabric presents values on the rewrite bus of channel `c` (R100, R417): none while its Weir is closed or it
does not run. -/
def State.rewriteBus (s : State) (c : Nat) (fab : List DWord) : State :=
  if s.on (Reg.PRB_BIND_DELIV_EN c) && s.fabricLive (s.rd (Reg.PRB_BIND_ISLAND c)) then
    { s with fabVals := Tab.set s.fabVals c [] (Tab.getD s.fabVals c [] ++ fab.map (fun d => d.toNat)) }
  else s

/-- The frame that waits is placed on the line from `a` on (R98 to R103). -/
def State.framePlace (s : State) (c a : Nat) (fr : Frame) : State :=
  let w := s.rd (Reg.PRB_CTRL_WIDTH c)
  let nom := s.nominal c
  let s1 := { s with runQueue := Tab.del s.runQueue c }
  let s2 := (((s1.wr (Hid.chFirst c) 0).wr (Hid.chWait c) 0).wr (Hid.chNom c) (nom + 66 * fr.slots + fr.gap * w)).wr
    (Hid.chEnd c) (afterSlots w a fr.slots)
  let s3 := if (s.startsAt c).1 < a then (s2.inc (Reg.RUN_CH_LATE c) 1).raise (333 + c) else s2
  if fr.raw then s3.lineAdd c a none (rawBlocks fr.body)
  else
    let x := ((Tab.getD s3.tplCache c []).find? (fun y => y.num == fr.tpl)).getD ⟨fr.tpl, List.replicate 7 0, 0⟩
    let b := s3.frameBytes c fr x.vals (Tab.getD s3.fabVals c []) (s.tsAt c a)
    let s4 := s3.tplSet c { x with vals := b.vals, frames := (x.frames + 1) % 2 ^ 64 }
    let s5 := { s4 with fabVals := Tab.set s4.fabVals c [] b.fab }
    (s5.add (Reg.RUN_CH_FRAMES c) 1).lineAdd c a (some fr.tpl) (sendBlocks (s.rd (Reg.RUN_CH_PRE c)) b.bytes)

/-- FRAME_START (R46, R98 to R103): the port sends Runner's stream, and the frame that waits starts at the first slot at or after its
nominal start and the end of the frame before, not in a marker row, or later where the channel was not ready. Until that
slot lies in the next row to be sent, it waits. `fab` are values that the bound island presents on the rewrite bus; a
frame with FAB fields waits until there are enough. -/
def execFrameStart (c : Fin 4) (fab : List DWord) (s : State) : Host.Outcome State Fault Refusal :=
  let s0 := s.rewriteBus c fab
  .next (match Tab.getD s0.runQueue c [] with
    | [] => s0
    | fr :: _ =>
      let a := (s0.startsAt c).2
      if !s0.on (Hid.txRun c) || s0.rd (Hid.txSrcNow c) != 1 || s0.rd (Reg.PRB_CTRL_LOOP c) == 3
        || decide ((Tab.getD s0.fabVals c []).length < fr.fabs)
        || decide (s0.txPos c + 66 * s0.rd (Reg.PRB_CTRL_WIDTH c) ≤ a) then s0
      else s0.framePlace c a fr)

/-- ENGINE reset of Runner (R104): every channel is IDLE and the registers return to their reset values; the program
store and the templates keep their contents. -/
def State.runReset (s0 : State) : State :=
  let s := State.each [0, 1, 2, 3] (fun c t => t.tplFlush c) s0
  { s.discardBlocks 0x016 0x017 with
    cells := (Tab.delRange s.cells (cellKey 0x016 0 0) (cellKey 0x016 0x80000 0)).filter (fun e =>
      !(decide (cellKey Hid.grpRUN.1 0 0 ≤ e.1) && decide (e.1 < cellKey Hid.grpRUN.2 0 0)))
    runLoops := [], runQueue := [], txLine := [], fabVals := [] }

end Sys2Proof.Machine
end

