-- ==== Sys2Proof/Machine/Lantern.lean ====
section
/-! DEFINITION. Lantern: sources, arcs, actions, counters, timers and pins (chapter 3, R85 to R94). -/

namespace Sys2Proof.Machine

/-! ### Sources (R85, R86, R371) -/

/-- Match input `i`: the tap that LAN_MSEL selects, asserted now or since the last Lantern cycle (R85). -/
def State.matchLevel (s : State) (i : Nat) : Bool :=
  let n := s.rd (Reg.LAN_MSEL_ISLAND i)
  let t := s.rd (Reg.LAN_MSEL_TAP i)
  s.on (Reg.LAN_MSEL_EN i) && (s.bitOf (Hid.tapLatch n) t || s.bitOf (Reg.ISL_TAP_LIVE n) t)

/-- Counter `c` stands at its terminal. -/
def State.ctrTerm (s : State) (c : Nat) : Bool := decide (s.rd (Reg.LAN_CTR_TERM c) ≤ s.rd (Reg.LAN_CTR_VAL c))

/-- A received shared trigger line shows a pulse in this cycle (R371). -/
def State.rlkLevel (s : State) (l k : Nat) : Bool :=
  let v := s.rd (Hid.rlkTrig l k)
  s.rd (Reg.RLK_LINK_STAT_STATE l) == 4 && v != 0 && v % 2 == 0

/-- The level of a source code (R86); the counter terminals as they stand in this state. -/
def State.srcLevel (s : State) (code : Nat) : Bool :=
  if code < 128 then s.matchLevel code
  else if code < 136 then s.bitOf Hid.trigIn (code - 128) != s.bitOf Reg.LAN_TIN_CFG_POL (code - 128)
  else if code < 152 then s.ctrTerm (code - 136)
  else if code < 160 then s.on (Hid.tmrExp (code - 152))
  else if code < 168 then s.rlkLevel ((code - 160) / 4) (code % 4)
  else if code < 172 then s.rd (Reg.PRB_STAT_STATE (code - 168)) == 7
  else if code < 176 then s.on (Hid.sigLatch (code - 172))
  else code == 254

/-- The levels of all codes as one number. -/
def State.srcLevels (s : State) : Nat :=
  (List.range 256).foldl (fun m i => m + b2n (s.srcLevel i) * 2 ^ i) 0

/-- The counter terminals as one number. -/
def State.ctrTerms (s : State) : Nat :=
  (List.range 16).foldl (fun m c => m + b2n (s.ctrTerm c) * 2 ^ c) 0

/-! ### Timers, counters and pins (R91, R92) -/

/-- Load a timer and start it (R89); one loaded with 0 has expired at once. -/
def State.tmrStart (t : Nat) (s : State) : State :=
  let v := s.rd (Reg.LAN_TMR_LOAD t)
  (((s.wr (Reg.LAN_TMR_VAL t) v).wr (Hid.tmrSub t) 0).wr (Hid.tmrRun t) (b2n (v != 0))).wr (Hid.tmrExp t) (b2n (v == 0))

/-- Stop a timer and clear its expiry (R89). -/
def State.tmrStop (t : Nat) (s : State) : State := (s.wr (Hid.tmrRun t) 0).wr (Hid.tmrExp t) 0

/-- One Lantern cycle of a timer (R91): 1 µs is 1,500 cycles. -/
def State.tmrTick (t : Nat) (s : State) : State :=
  if !s.on (Hid.tmrRun t) then s
  else
    let sub := s.rd (Hid.tmrSub t) + 1
    if s.on (Reg.LAN_TMR_CFG_UNIT t) && sub != 1500 then s.wr (Hid.tmrSub t) sub
    else
      let v := s.rd (Reg.LAN_TMR_VAL t) - 1
      let s1 := (s.wr (Hid.tmrSub t) 0).wr (Reg.LAN_TMR_VAL t) v
      if v = 0 then (s1.wr (Hid.tmrRun t) 0).wr (Hid.tmrExp t) 1 else s1

/-- One Lantern cycle of a pin's pulse (R92). -/
def State.pinTick (k : Nat) (s : State) : State :=
  let v := s.rd (Hid.toutPulse k)
  if v = 0 then s else if v = 1 then (s.wr (Hid.toutPulse k) 0).wr (Hid.toutLvl k) 0 else s.wr (Hid.toutPulse k) (v - 1)

/-- The counters whose source rises in this cycle (R86, R91): `now` are the levels of the sources before any count. -/
def State.ctrEdges (s : State) (now prev : Nat) : List Nat :=
  (List.range 16).filter (fun c =>
    let k := s.rd (Reg.LAN_CTR_CFG_SRC c)
    if 136 ≤ k ∧ k < 152 then bit now k && !s.bitOf Hid.ctrPrev (k - 136)
    else bit now k && !bit prev k)

/-! ### Arcs (R87 to R90) -/

/-- One operand of a condition (R88): the source, inverted, and its rise. -/
def operandOn (now prev src : Nat) (inv edge : Bool) : Bool :=
  let a := bit now src != inv
  let b := bit prev src != inv
  if edge then a && !b else a

/-- The condition of arc `a` of state `q` (R88). -/
def State.arcTrue (s : State) (now prev q a : Nat) : Bool :=
  let x := operandOn now prev (s.rd (Reg.LAN_COND_SRC_A q a)) (s.on (Reg.LAN_COND_INV_A q a)) (s.on (Reg.LAN_COND_EDGE_A q a))
  let y := operandOn now prev (s.rd (Reg.LAN_COND_SRC_B q a)) (s.on (Reg.LAN_COND_INV_B q a)) (s.on (Reg.LAN_COND_EDGE_B q a))
  let op := s.rd (Reg.LAN_COND_OP q a)
  if op = 0 then x else if op = 1 then x && y else if op = 2 then x || y else false

/-- A pin action (R89, R92): 1 set, 2 clear, 3 pulse, on a pin that Lantern drives. -/
def State.pinAct (op k : Nat) (s : State) : State :=
  if s.on (Reg.LAN_TOUT_SRC k) then s
  else if op = 1 then (s.wr (Hid.toutLvl k) 1).wr (Hid.toutPulse k) 0
  else if op = 2 then (s.wr (Hid.toutLvl k) 0).wr (Hid.toutPulse k) 0
  else if op = 3 then s.touPulse k
  else s

/-- Reset a counter; an edge of the same cycle is counted after the reset (R89). -/
def State.ctrReset (edges : List Nat) (c : Nat) (s : State) : State := s.wr (Reg.LAN_CTR_VAL c) (b2n (edges.contains c))

/-- A pulse on a shared trigger line (R371): lost while the link is not ACTIVE, and beyond three between two rows sent. -/
def State.rlkPulse (l k : Nat) (s : State) : State :=
  if s.rd (Reg.RLK_LINK_STAT_STATE l) ≠ 4 then s.inc (Reg.RLK_TRIG_LOST l) 1
  else if s.rd (Hid.rlkTrigNew l k) = 3 then (s.inc (Reg.RLK_TRIG_LOST l) 1).raiseB Reg.RLK_EVT_EVT 7 255
  else (s.add (Hid.rlkTrigTx l k) 1).add (Hid.rlkTrigNew l k) 1

/-- The context-switch action (R90). -/
def State.lanCtx (s : State) (g c : Nat) : State :=
  (s.ctxRequest g c).getD ((s.inc Reg.LAN_CTX_DROP 1).raise 290)

/-- The actions of arc `a` of state `q` (R89). -/
def State.arcActs (s : State) (edges : List Nat) (q a : Nat) : State :=
  let s1 := State.each (setBits 8 (s.rd (Reg.LAN_ACT0_TOUT_MASK q a))) (State.pinAct (s.rd (Reg.LAN_ACT0_TOUT_OP q a))) s
  let s2 := State.each (setBits 16 (s.rd (Reg.LAN_ACT0_CTR_RST q a))) (State.ctrReset edges) s1
  let s3 := State.each (setBits 8 (s.rd (Reg.LAN_ACT1_TMR_STOP q a))) State.tmrStop s2
  let s4 := State.each (setBits 8 (s.rd (Reg.LAN_ACT1_TMR_START q a))) State.tmrStart s3
  let s5 := State.each (setBits 16 (s.rd (Reg.LAN_ACT1_HOP_TRIG q a))) State.hopTrig s4
  let s6 := State.each (setBits 4 (s.rd (Reg.LAN_ACT2_RUN_START q a))) State.runStartAct s5
  let s7 := State.each (setBits 4 (s.rd (Reg.LAN_ACT2_RUN_STOP q a))) State.runStopAct s6
  let s8 := if s.on (Reg.LAN_ACT2_CTX_EN q a) then s7.lanCtx (s.rd (Reg.LAN_ACT2_CTX_GROUP q a)) (s.rd (Reg.LAN_ACT2_CTX q a)) else s7
  let s9 := State.each (setBits 4 (s.rd (Reg.LAN_ACT2_RLK0 q a))) (State.rlkPulse 0) s8
  let s10 := State.each (setBits 4 (s.rd (Reg.LAN_ACT2_RLK1 q a))) (State.rlkPulse 1) s9
  if s.on (Reg.LAN_ACT2_RAISE q a) then ((s10.wr Reg.LAN_ARC_LAST_STATE q).wr Reg.LAN_ARC_LAST_ARC a).raise 289 else s10

/-- The part of a cycle that only runs in RUN (R87, R91, R94): timers and counters count, and the first true arc is
taken. The levels that the arcs used are given back. -/
def State.lanRun (s : State) (prev : Nat) : State × Nat :=
  let s1 := State.each (List.range 8) State.tmrTick s
  let now0 := s1.srcLevels
  let edges := s1.ctrEdges now0 prev
  let s2 := State.each edges (fun c t => t.inc (Reg.LAN_CTR_VAL c) 1) s1
  let now := s2.srcLevels
  let q := s.rd Reg.LAN_STAT_CUR_STATE
  match [0, 1, 2, 3].find? (fun a => s2.arcTrue now prev q a) with
  | none => (s2, now)
  | some a =>
    (((s2.arcActs edges q a).wr Reg.LAN_STAT_CUR_STATE (s.rd (Reg.LAN_COND_NEXT q a))).wr Reg.LAN_ARC_TS s.now, now)

/-- LANTERN_CYCLE (R85 to R92, R371): one Lantern cycle, with the levels of the TRIG_IN pins. Pulses of pins run on, sources that
last one cycle are taken, and in RUN the arcs of the current state are evaluated. -/
def execLanternCycle (trigIn : BitVec 8) (s : State) : Host.Outcome State Fault Refusal :=
  let s0 := State.each (List.range 8) State.pinTick (s.wr Hid.trigIn trigIn.toNat)
  let prev := s.rd Hid.lanPrev ||| 2 ^ 254
  let terms := s0.ctrTerms
  let (t, now) := if s.on Reg.LAN_STAT_RUN then s0.lanRun prev else (s0, s0.srcLevels)
  let t1 := (t.wr Hid.lanPrev now).wr Hid.ctrPrev terms
  let t2 := State.each (List.range 80) (fun n u => u.wr (Hid.tapLatch n) 0) t1
  let t3 := State.each (List.range 4) (fun c u => u.wr (Hid.sigLatch c) (if s.on (Hid.sigLatch c) then 0 else u.rd (Hid.sigLatch c))) t2
  .next (State.each [0, 1] (fun l u => State.each (List.range 4) (fun k v => v.wr (Hid.rlkTrig l k) (v.rd (Hid.rlkTrig l k) - 1)) u) t3)

/-- LAN_TIMER_EXPIRE (R91): a running timer reaches 0. -/
def execLanTimerExpire (t : Fin 8) (s : State) : Host.Outcome State Fault Refusal :=
  .next (if s.on Reg.LAN_STAT_RUN && s.on (Hid.tmrRun t) then
      (((s.wr (Reg.LAN_TMR_VAL t) 0).wr (Hid.tmrSub t) 0).wr (Hid.tmrRun t) 0).wr (Hid.tmrExp t) 1
    else s)

/-- TRIG_OUT_PULSE_END (R92): the width of a running pulse is over. -/
def execTrigOutPulseEnd (k : Fin 8) (s : State) : Host.Outcome State Fault Refusal :=
  .next (if s.rd (Hid.toutPulse k) = 0 then s else (s.wr (Hid.toutPulse k) 0).wr (Hid.toutLvl k) 0)

/-! ### Commands (R94, R105) -/

/-- A Lantern command that is rejected. -/
def State.lanReject (s : State) (code : Nat) : State := s.reject 0x015 code 288

/-- Counters at 0, timers stopped with their expiry cleared. -/
def State.lanClear (s : State) : State :=
  let s1 := State.each (List.range 16) (fun c t => t.wr (Reg.LAN_CTR_VAL c) 0) s
  State.each (List.range 8) (fun k t => (t.tmrStop k).wr (Reg.LAN_TMR_VAL k) 0) s1

/-- START (R94): counters 0, timers stopped, RUN at INIT_STATE. -/
def State.lanStart (s : State) : State :=
  if s.on Reg.LAN_STAT_RUN || s.bstIs 0 then s.lanReject 0x01
  else ((s.lanClear).wr Reg.LAN_STAT_CUR_STATE (s.rd Reg.LAN_CTRL_INIT_STATE)).wr Reg.LAN_STAT_RUN 1

/-- STOP (R94). -/
def State.lanStop (s : State) : State := if s.on Reg.LAN_STAT_RUN then s.wr Reg.LAN_STAT_RUN 0 else s.lanReject 0x02

/-- FORCE (R105): the state changes without actions. -/
def State.lanForce (s : State) (q : Nat) : State :=
  if s.on Reg.LAN_STAT_RUN then s.wr Reg.LAN_STAT_CUR_STATE q else s.lanReject 0x03

/-- CLR_OUT (R92): every pin returns to its inactive level. -/
def State.lanClrOut (s : State) : State :=
  if s.on Reg.LAN_STAT_RUN then s.lanReject 0x04
  else State.each (List.range 8) (fun k t => (t.wr (Hid.toutLvl k) 0).wr (Hid.toutPulse k) 0) s

/-- CLR_CNT (R105): counters, timers and LAN_CTX_DROP. -/
def State.lanClrCnt (s : State) : State :=
  if s.on Reg.LAN_STAT_RUN then s.lanReject 0x05 else s.lanClear.wr Reg.LAN_CTX_DROP 0

/-- A command written to LAN_CMD. -/
def State.lanCmd (s : State) (code q : Nat) : State :=
  if code = 0x01 then s.lanStart else if code = 0x02 then s.lanStop else if code = 0x03 then s.lanForce q
  else if code = 0x04 then s.lanClrOut else if code = 0x05 then s.lanClrCnt else s.lanReject code

/-- LAN_START (R94, R105). -/
def execLanStart (s : State) : Host.Outcome State Fault Refusal := .next s.lanStart
/-- LAN_STOP (R94, R105). -/
def execLanStop (s : State) : Host.Outcome State Fault Refusal := .next s.lanStop
/-- LAN_FORCE (R105). -/
def execLanForce (q : Fin 32) (s : State) : Host.Outcome State Fault Refusal := .next (s.lanForce q)
/-- LAN_CLR_OUT (R92, R105). -/
def execLanClrOut (s : State) : Host.Outcome State Fault Refusal := .next s.lanClrOut
/-- LAN_CLR_CNT (R105). -/
def execLanClrCnt (s : State) : Host.Outcome State Fault Refusal := .next s.lanClrCnt

/-- An ENGINE reset of Lantern (R94): HALT, every register at its reset value, every pin inactive. The received trigger
lines belong to the link and stay. -/
def State.lanReset (s : State) : State :=
  let keep := (List.range 2).flatMap (fun l => (List.range 4).flatMap (fun k =>
    [Hid.rlkTrig l k, Hid.rlkTrigTx l k, Hid.rlkTrigNew l k, Hid.rlkTrigRx l k])) ++ [Hid.lanSetBusy, Hid.trigIn]
  State.keeping keep (fun t => (t.resetBlocks 0x015 0x016).resetBlocks Hid.grpLAN.1 Hid.grpLAN.2) s

/-- The level of TRIG_OUT pin `k` (R92), none while the boundary-scan chain drives the pin (R532). -/
def State.trigOut (s : State) (k : Nat) : Option Bool :=
  if s.scanHolds then none else some (s.on (Hid.toutLvl k) != s.on (Reg.LAN_TOUT_POL k))

end Sys2Proof.Machine
end

