-- ==== Sys2Proof/Machine/Probe.lean ====
section
/-! DEFINITION. Probe ports and serial lanes (chapter 2): bring-up, blocks and markers, rows, loss, calibration, faults. -/

namespace Sys2Proof.Machine

/-! ### States (R43) and events (R58) -/

/-- Event 192 + 8 p + i with its bit of PRB_EVT (R58). -/
def State.prbEvent (s : State) (p i : Nat) : State := s.raiseB (Reg.PRB_EVT_EVT p) i (192 + 8 * p + i)

/-- A rejected command of a port (R57). -/
def State.prbReject (s : State) (p code : Nat) : State := s.reject (0x010 + p) code (224 + p)

/-- The sixteen lanes of a port. -/
def lanes : List Nat := List.range 16

/-- A lane is in use: MARKER_LOCK gave it a logical number (R43, R44). -/
def State.laneUsed (s : State) (p k : Nat) : Bool := s.bitOf (Hid.laneIn p) k

/-- Forget what a lane has locked to (R57). -/
def State.laneUnlock (p k : Nat) (s : State) : State :=
  let s1 := (((((s.wr (Reg.PRB_LN_STAT_BLOCK_LOCK p k) 0).wr (Reg.PRB_LN_STAT_MARKER_LOCK p k) 0).wr
    (Reg.PRB_LN_STAT_POL_INV p k) 0).wr (Reg.PRB_LN_STAT_LOGICAL p k) 15).wr (Reg.PRB_LN_STAT_SKEW p k) 0)
  let s2 := (((((((s1.wr (Hid.okRun p k) 0).wr (Hid.hdrHist p k) 0).wr (Hid.mkrSeen p k) 0).wr (Hid.mkrMiss p k) 0).wr
    (Hid.mkrGot p k) 0).wr (Hid.laneLoss p k) 0).wr (Hid.idleRun p k) 0)
  { s2 with laneBuf := Tab.del s2.laneBuf (16 * p + k) }

/-- Lanes unlock, and a calibration in progress is abandoned without a handover (R57). -/
def State.prbUnlock (s : State) (p : Nat) : State :=
  (State.each lanes (fun k t => (t.laneUnlock p k).wr (Hid.calPend p k) 0) s).wr (Hid.laneIn p) 0

/-- The receive terminations are on from FCLK_ACQ on, but for the near-end loopbacks (R43, R48). -/
def State.prbTerm (s : State) (p : Nat) : State :=
  let l := s.rd (Reg.PRB_CTRL_LOOP p)
  s.wr (Hid.rxTerm p) (b2n (l != 1 && l != 2))

/-- The port generates its transmit stream: TX_EN, or a near-end loopback (R43, R46, R49). -/
def State.txWanted (s : State) (p : Nat) : Bool :=
  let l := s.rd (Reg.PRB_CTRL_LOOP p)
  s.on (Reg.PRB_CTRL_TX_EN p) || l == 1 || l == 2

/-- What is left of frames leaves the line; an error control block that waits for its slot stays (R104). -/
def State.lineDrop (s : State) (p : Nat) : State :=
  { s with txLine := Tab.set s.txLine p [] ((Tab.getD s.txLine p []).takeWhile (fun b => b.pos == 0)) }

/-- The source in effect changes: a frame of the channel partly on the line is cut (R46, R95). -/
def State.txSrcApply (s : State) (p : Nat) : State :=
  let n := s.rd (Reg.PRB_CTRL_TX_SRC p)
  if s.rd (Hid.txSrcNow p) = 1 ∧ n ≠ 1 then ((s.chCut p 7).lineDrop p).wr (Hid.txSrcNow p) n
  else s.wr (Hid.txSrcNow p) n

/-- The timeline of the port and its channel stands at its beginning, `acc` from the first row. -/
def State.txOrigin (s : State) (p acc : Nat) : State :=
  (((((s.lineDrop p).wr (Hid.txRows p) 0).wr (Hid.txAcc p) acc).wr (Hid.chEnd p) 0).wr (Hid.chFirst p) 1).wr (Hid.chBase p) 0

/-- Transmission starts: the first slot of every lane carries a marker (R34, R43). TX_FCLK_ON shows that the forwarded clock is
generated, in NES and NEP too, where the pins stay idle (R49): DESIGN CHOICE, log entry 78. -/
def State.txStart (s : State) (p : Nat) : State :=
  if s.on (Hid.txRun p) then s
  else ((s.txOrigin p (66 * (s.uiRate p).2)).wr (Hid.txRun p) 1).wr (Reg.PRB_FCLK_TX_FCLK_ON p) 1

/-- Transmission stops; a TX_SRC that waited for a marker takes effect (R46, R95). -/
def State.txStop (s : State) (p : Nat) : State :=
  (((s.txSrcApply p).txOrigin p 0).wr (Hid.txRun p) 0).wr (Reg.PRB_FCLK_TX_FCLK_ON p) 0

/-- The port leaves UP, if it is there: its rows end, its pipeline closes, and its channel faults (R43, R68, R104). -/
def State.prbDown (s : State) (p : Nat) : State :=
  if s.rd (Reg.PRB_STAT_STATE p) = 7 then (s.hopPortDown p).chCut p 6 else s

/-- A bring-up state is entered. -/
def State.prbGo (s : State) (p st : Nat) : State :=
  let s1 := (s.prbDown p).wr (Reg.PRB_STAT_STATE p) st
  s1.wr (Reg.PRB_STAT_FAULT_CAUSE p) 0

/-- FAULT is entered with a cause (R43). -/
def State.prbFault (s : State) (p cause : Nat) : State := (s.prbGo p 8).wr (Reg.PRB_STAT_FAULT_CAUSE p) cause

/-- FCLK_ACQ is entered: terminations on, locks cleared. -/
def State.prbAcquire (s : State) (p : Nat) : State := ((s.prbGo p 2).prbUnlock p).prbTerm p

/-- DISABLED is entered (R43, R55). -/
def State.prbOff (s : State) (p : Nat) : State :=
  let s1 := ((s.prbGo p 0).prbUnlock p).txStop p
  let s2 := (((((s1.wr (Reg.PRB_STAT_PLL_LOCK p) 0).wr (Hid.rxTerm p) 0).wr (Reg.PRB_LANE_MAP_MAP p) (2 ^ 64 - 1)).wr
    (Reg.PRB_STAT_REVERSED p) 0).wr (Reg.PRB_FCLK_RX_FCLK_DET p) 0).wr (Hid.fclkLost p) 0
  State.each lanes (fun k t => t.wr (Reg.PRB_LN_STAT_SIG_DET p k) 0) s2

/-- The line rate lies within R29: f_REF x (FBDIV + FRAC / 2^24) from 10.3125 to 40 Gb/s. -/
def State.rateOk (s : State) (p : Nat) : Bool :=
  let b := if s.on (Reg.PRB_PLL_CFG_REFSEL p) then s.on Reg.CLK_REF_CFG_FREQ_B else s.on Reg.CLK_REF_CFG_FREQ_A
  let r := (if b then 15625 else 10000) * (s.rd (Reg.PRB_PLL_CFG_FBDIV p) * 2 ^ 24 + s.rd (Reg.PRB_PLL_FRAC_FRAC p))
  decide (1031250 * 2 ^ 24 ≤ r) && decide (r ≤ 4000000 * 2 ^ 24)

/-- The port sends markers of its own (R46, R48). -/
def State.sendsMarkers (s : State) (p : Nat) : Bool := s.on (Hid.txRun p) && s.rd (Reg.PRB_CTRL_LOOP p) != 3

/-- A write of PRB_CTRL (R29, R43, R46, R60). -/
def State.prbCtrlWrite (s : State) (p w : Nat) : State :=
  let was := s.on (Reg.PRB_CTRL_EN p)
  let s1 := s.writeReg (0x010 + p) 0x8 w
  let en := s1.on (Reg.PRB_CTRL_EN p)
  let s2 :=
    if !en && (was || s1.rd (Reg.PRB_STAT_STATE p) != 0) then s1.prbOff p
    else if !was && en then
      if s1.rateOk p && !s.bstOn 8 p && !s.bstIs 0 then
        State.each lanes (fun k t => t.wr (Hid.laneIdle p k) 0) ((s1.prbGo p 1).wr (Hid.drvOff p) 0)
      else (s1.wr (Reg.PRB_CTRL_EN p) 0).deny (0x010 + p)
    else s1
  let on := decide (2 ≤ s2.rd (Reg.PRB_STAT_STATE p)) && s2.on (Reg.PRB_STAT_PLL_LOCK p)
  let s3 := if on && s2.txWanted p then s2.txStart p else if s2.on (Hid.txRun p) then s2.txStop p else s2
  if s3.sendsMarkers p then s3 else s3.txSrcApply p

/-- PRB_ENABLE (R29, R43): a write of PRB_CTRL with EN = 1. -/
def execPrbEnable (p : Fin 4) (w : Word) (s : State) : Host.Outcome State Fault Refusal :=
  .next (s.prbCtrlWrite p (setBit w.toNat 0))

/-- PRB_DISABLE (R43): a write of PRB_CTRL with EN = 0. -/
def execPrbDisable (p : Fin 4) (w : Word) (s : State) : Host.Outcome State Fault Refusal :=
  .next (s.prbCtrlWrite p (clrBit w.toNat 0))

/-- A write of PRB_BIND (R40, R60): the fields are judged on the binding that would stand after the write. -/
def State.prbBindWrite (s : State) (p w : Nat) : State :=
  let cur := s.rd (Reg.PRB_BIND_ISLAND p)
  let v := bits w 6 0
  let wantEn := bit w 8
  let taken (n : Nat) : Bool := [0, 1, 2, 3].any (fun q => q != p && s.on (Reg.PRB_BIND_DELIV_EN q) && s.rd (Reg.PRB_BIND_ISLAND q) == n)
  let okIsl := v == cur || (decide (v < 80) && decide (8 ≤ v % 10) && !taken v && !s.on (Reg.PRB_BIND_DELIV_EN p))
  let s1 := if v = cur then s
    else if okIsl then
      { s.wr (Reg.PRB_BIND_ISLAND p) v with islFifo := Tab.del s.islFifo p, fabVals := Tab.del s.fabVals p }
    else s.deny (0x010 + p)
  let isl := if okIsl then v else cur
  if wantEn && !s.on (Reg.PRB_BIND_DELIV_EN p) && taken isl then s1.deny (0x010 + p)
  else s1.wr (Reg.PRB_BIND_DELIV_EN p) (b2n wantEn)

/-- PRB_BIND_WRITE (R40, R60). -/
def execPrbBindWrite (p : Fin 4) (w : Word) (s : State) : Host.Outcome State Fault Refusal := .next (s.prbBindWrite p w.toNat)

/-- TX_SRC_CHANGE (R46, R95): the next row is a marker row, or the port sends no markers, and a TX_SRC that waits takes
effect. -/
def execTxSrcChange (p : Fin 4) (s : State) : Host.Outcome State Fault Refusal :=
  .next (if s.sendsMarkers p && s.rd (Hid.txRows p) % 16384 != 0 then s else s.txSrcApply p)

/-! ### Bring-up (R43) -/

/-- PRB_PLL_LOCKED (R43, R49). -/
def execPrbPllLocked (p : Fin 4) (s : State) : Host.Outcome State Fault Refusal :=
  .next (if s.rd (Reg.PRB_STAT_STATE p) = 1 then
      let s1 := (s.wr (Reg.PRB_STAT_PLL_LOCK p) 1).prbAcquire p
      if s1.txWanted p then s1.txStart p else s1
    else s)

/-- PRB_PLL_TIMEOUT (R43): 1 ms without lock. -/
def execPrbPllTimeout (p : Fin 4) (s : State) : Host.Outcome State Fault Refusal :=
  .next (if s.rd (Reg.PRB_STAT_STATE p) = 1 then s.prbFault p 1 else s)

/-- FCLK_ACQUIRED (R30, R43): the received forwarded clock is within tolerance. -/
def execFclkAcquired (p : Fin 4) (s : State) : Host.Outcome State Fault Refusal :=
  .next (let s1 := (s.wr (Reg.PRB_FCLK_RX_FCLK_DET p) 1).wr (Hid.fclkLost p) 0
    if s.rd (Reg.PRB_STAT_STATE p) = 2 then s1.prbGo p 3
    else if s.rd (Reg.PRB_STAT_STATE p) = 0 then s else s1)

/-- FCLK_TIMEOUT (R43): 10 ms without it. -/
def execFclkTimeout (p : Fin 4) (s : State) : Host.Outcome State Fault Refusal :=
  .next (if s.rd (Reg.PRB_STAT_STATE p) = 2 then s.prbFault p 2 else s)

/-- EQ_ADAPT_DONE (R43): 2 ms of adaptation have elapsed. -/
def execEqAdaptDone (p : Fin 4) (s : State) : Host.Outcome State Fault Refusal :=
  .next (if s.rd (Reg.PRB_STAT_STATE p) = 3 then s.prbGo p 4 else s)

/-- BLOCK_LOCK_TIMEOUT (R43): 1 ms with fewer than WIDTH lanes in block lock. -/
def execBlockLockTimeout (p : Fin 4) (s : State) : Host.Outcome State Fault Refusal :=
  .next (if s.rd (Reg.PRB_STAT_STATE p) = 4 then s.prbFault p 3 else s)

/-- MARKER_LOCK_TIMEOUT (R43): 4 marker periods without completion. -/
def execMarkerLockTimeout (p : Fin 4) (s : State) : Host.Outcome State Fault Refusal :=
  .next (if s.rd (Reg.PRB_STAT_STATE p) = 5 then s.prbFault p 4 else s)

/-! ### Blocks (R32, R33, R44, R52) -/

/-- A lane handover (R52 to R54): the redundant sampler becomes the main one. A lane whose redundant sampler has failed keeps its main
one (R484), and none completes its calibration while CALREF_V is out of range (R485). -/
def State.laneHandover (p k : Nat) (s : State) : State :=
  if s.calBlocked 0 || s.on (Hid.calDeg 0 (16 * p + k)) then s
  else (((((s.add (Reg.PRB_LN_CAL_CAL_COUNT p k) 1).wr (Hid.lnCalAt p k) s.now).wr (Reg.PRB_LN_STAT_CAL_AGED p k) 0).wr
    (Hid.calPend p k) 0).wr (Hid.calIvals p k) 0).calDone 0 (16 * p + k)

/-- The descrambled payload, and the scrambler state after it (R32): x^58 + x^39 + 1, the newest bit highest. -/
def descramble (st payload : Nat) : Nat × Nat :=
  let x := st + payload * 2 ^ 58
  ((x / 2 ^ 58 ^^^ x / 2 ^ 19 ^^^ x) % 2 ^ 64, x / 2 ^ 64)

/-- The scrambled payload, and the scrambler state after it: bit by bit, as its output feeds it (R32). -/
def scramble (st payload : Nat) : Nat × Nat :=
  (List.range 64).foldl (fun acc i =>
    let o := (payload / 2 ^ i + acc.2 / 2 ^ 19 + acc.2) % 2
    (acc.1 + o * 2 ^ i, acc.2 / 2 + o * 2 ^ 57)) (0, st)

/-- A sync header and payload as the lane takes them: inverted where the lane is (R36). -/
def takenAs (inv : Bool) (hdr payload : Nat) : Nat × Nat :=
  if inv then (3 - hdr % 4, 2 ^ 64 - 1 - payload % 2 ^ 64) else (hdr % 4, payload % 2 ^ 64)

/-- Blocks are processed on this lane: the port has reached BLOCK_LOCK and the lane is not set OFF. -/
def State.laneListens (s : State) (p k : Nat) : Bool :=
  let st := s.rd (Reg.PRB_STAT_STATE p)
  decide (4 ≤ st) && decide (st ≤ 7) && !s.on (Reg.PRB_LN_CTRL_OFF p k)

/-- One slot joins the lane's deskew buffer, from its marker of DESKEW on. -/
def State.laneSlot (s : State) (p k : Nat) (x : Slot) : State :=
  if s.rd (Reg.PRB_STAT_STATE p) = 7 && s.laneUsed p k || s.on (Hid.mkrGot p k) then
    { s with laneBuf := Tab.set s.laneBuf (16 * p + k) [] (Tab.getD s.laneBuf (16 * p + k) [] ++ [x]) }
  else s

/-- A sync header is checked (R33, R44): an invalid one is counted, and the sixteenth within 64 blocks is a condition
of loss on a lane in use. -/
def State.laneHeader (s : State) (p k : Nat) (bad : Bool) : State :=
  let h := (2 * s.rd (Hid.hdrHist p k) + b2n bad) % 2 ^ 64
  let s1 := (s.wr (Hid.hdrHist p k) h).wrIf bad (Reg.PRB_LN_HDR_ERR p k) (min (s.rd (Reg.PRB_LN_HDR_ERR p k) + 1) (2 ^ 32 - 1))
  s1.wrIf (s.rd (Reg.PRB_STAT_STATE p) == 7 && s.laneUsed p k && decide (16 ≤ popCount 64 h)) (Hid.laneLoss p k) 1

/-- The idle run of a lane (R52): consecutive clause 49 idle blocks. A marker between them does not break the run: DESIGN CHOICE,
log entry 80. -/
def State.laneIdleRun (s : State) (p k hdr d : Nat) : State :=
  s.wr (Hid.idleRun p k) (if hdr = 2 ∧ d = 0x1E then min 32 (s.rd (Hid.idleRun p k) + 1) else 0)

/-- A lane in the marker slot without a marker (R37, R44): it is missing; the fourth in a row is a condition of loss. -/
def State.markerMissing (s : State) (p k : Nat) : State :=
  let m := min 4 (s.rd (Hid.mkrMiss p k) + 1)
  ((s.wr (Hid.mkrMiss p k) m).wr (Hid.sinceMkr p k) 0).wrIf (s.laneUsed p k && m == 4) (Hid.laneLoss p k) 1

/-- A block that is no marker, on a lane in block lock (R32, R33, R37, R44). -/
def State.laneBlock (s : State) (p k hdr payload : Nat) : State :=
  let bad := hdr == 0 || hdr == 3
  let (d, st) := descramble (s.rd (Hid.descr p k)) payload
  let s1 := (s.laneHeader p k bad).laneIdleRun p k hdr d
  if s.rd (Reg.PRB_STAT_STATE p) = 7 ∧ s.rd (Hid.sinceMkr p k) = 16383 then
    (s1.markerMissing p k).laneSlot p k ⟨hdr, BitVec.ofNat 64 d, bad, true⟩
  else
    ((s1.wr (Hid.descr p k) st).wr (Hid.sinceMkr p k) (min (s.rd (Hid.sinceMkr p k) + 1) 16384)).laneSlot p k
      ⟨hdr, BitVec.ofNat 64 d, bad, false⟩

/-- A block on a lane that has not locked (R33): the 64th valid header in a row gives block lock, and WIDTH lanes in lock
take the port on. -/
def State.laneHunt (s : State) (p k hdr payload : Nat) : State :=
  let bad := hdr == 0 || hdr == 3
  let n := if bad then 0 else s.rd (Hid.okRun p k) + 1
  let s1 := ((s.wr (Hid.okRun p k) n).wr (Hid.descr p k) (descramble (s.rd (Hid.descr p k)) payload).2).wrIf bad
    (Reg.PRB_LN_HDR_ERR p k) (min (s.rd (Reg.PRB_LN_HDR_ERR p k) + 1) (2 ^ 32 - 1))
  if n < 64 then s1
  else
    let s2 := s1.wr (Reg.PRB_LN_STAT_BLOCK_LOCK p k) 1
    let m := (lanes.filter (fun j => s2.on (Reg.PRB_LN_STAT_BLOCK_LOCK p j))).length
    if s2.rd (Reg.PRB_STAT_STATE p) = 4 ∧ s2.rd (Reg.PRB_CTRL_WIDTH p) ≤ m then s2.prbGo p 5 else s2

/-- The lanes in use on which a lane condition of loss is met (R44). -/
def State.lostLanes (s : State) (p : Nat) : List Nat :=
  if s.rd (Reg.PRB_STAT_STATE p) = 7 then lanes.filter (fun k => s.laneUsed p k && s.on (Hid.laneLoss p k)) else []

/-- A loss is declared with its cause (R44): the clock, one lane, or lanes together; the port retrains or faults. -/
def State.lossDeclare (s : State) (p : Nat) (clk one : Bool) : State :=
  let s1 := if clk then ((s.wr (Hid.fclkLost p) 1).wr (Reg.PRB_FCLK_RX_FCLK_DET p) 0).prbEvent p 3
    else if one then s.prbEvent p 2 else s
  let s2 := s1.prbEvent p 1
  if s2.on (Reg.PRB_CTRL_AUTO_RETRAIN p) then s2.prbAcquire p else s2.prbFault p 7

/-- The lane conditions met so far, in one cycle, are declared (R44). A cycle lasts until time passes, the loss is declared, or a lane
that has met a condition receives its next block: DESIGN CHOICE, log entry 79. -/
def State.lossSettle (s : State) (p : Nat) : State :=
  match s.lostLanes p with
  | [] => s
  | l => s.lossDeclare p false (l.length == 1)

/-- A block arrives on a lane, as it is received. -/
def State.blockIn (s0 : State) (p k hdr payload : Nat) : State :=
  let s := if (s0.lostLanes p).contains k then s0.lossSettle p else s0
  if !s.laneListens p k then s
  else
    let (h, x) := takenAs (s.on (Reg.PRB_LN_STAT_POL_INV p k)) hdr payload
    let s1 := s.wr (Reg.PRB_LN_STAT_SIG_DET p k) 1
    if s.on (Reg.PRB_LN_STAT_BLOCK_LOCK p k) then s1.laneBlock p k h x else s1.laneHunt p k h x

/-- The receivers listen to the pins: in NES and NEP they are fed by the port's own stream (R48). -/
def State.rxPins (s : State) (p : Nat) : Bool :=
  s.rd (Reg.PRB_CTRL_LOOP p) != 1 && s.rd (Reg.PRB_CTRL_LOOP p) != 2

/-- The driver of a physical transmit lane is on (R48, R49, R55, R435): the port runs with TX_EN and no near-end loopback, and neither an
upset, a rail, a short nor OFF keeps it in electrical idle. -/
def State.txDrives (s : State) (p k : Nat) : Bool :=
  s.on (Reg.PRB_CTRL_TX_EN p) && s.on (Hid.txRun p) && s.rxPins p && !s.on (Hid.drvOff p)
    && !s.on (Hid.laneIdle p k) && !s.on (Reg.PRB_LN_CTRL_OFF p k)

/-- In FAR a block on a lane in block lock is retransmitted unchanged on the same physical lane (R48). -/
def State.farBlock (s : State) (p k hdr payload : Nat) : State :=
  if s.rd (Reg.PRB_CTRL_LOOP p) == 3 && s.laneListens p k && s.on (Reg.PRB_LN_STAT_BLOCK_LOCK p k) && s.txDrives p k then
    s.emit (.txRow p [(k, hdr, payload)])
  else s

/-- Blocks are processed on this lane of a Ramzel link (R362, R367): the link's PHY runs and the lane is not set OFF. -/
def State.rlkListens (s : State) (l k : Nat) : Bool :=
  let st := s.rd (Reg.RLK_LINK_STAT_STATE l)
  decide (1 ≤ st) && decide (st ≤ 4) && !s.on (Reg.RLK_LN_CTRL_OFF l k)

/-- A block on a link lane (R33, R37, R362): an invalid sync header is counted, and the lane's marker flywheel moves on. -/
def State.rlkBlockIn (s : State) (l k hdr : Nat) : State :=
  if !s.rlkListens l k then s
  else
    let n := s.rd (Hid.rlkSinceMkr l k)
    let s1 := if hdr = 0 ∨ hdr = 3 then s.inc (Reg.RLK_LN_HDR_ERR l k) 1 else s
    s1.wr (Hid.rlkSinceMkr l k) (if n = 0 then 0 else if n = 16384 then 1 else n + 1)

/-- BLOCK_RECEIVED (R31 to R33, R48, R362): a block with its sync header and its 64 scrambled bits, bit 0 first on the wire, at the
pins of a lane of a port, or of Ramzel link p - 4. -/
def execBlockReceived (p : Fin 6) (k : Fin 16) (hdr : Fin 4) (payload : DWord) (s : State) :
    Host.Outcome State Fault Refusal :=
  .next (if 4 ≤ p.val then s.rlkBlockIn (p - 4) k hdr
    else if s.rxPins p then (s.farBlock p k hdr payload.toNat).blockIn p k hdr payload.toNat
    else s)

/-! ### Markers (R34 to R38, R43 to R45, R53) -/

/-- The CRC of a marker (R35): over payload bytes 1 to 6, in byte 7. -/
def markerCrcOk (x : Nat) : Bool := crc8 (((leBytes 8 x).drop 1).take 6) == bits x 63 56

/-- A block has the form of a marker: header, TYPE and POLREF (R35, R36). -/
def markerForm (hdr x : Nat) : Bool := hdr == 2 && bits x 7 0 == 0x3C && bits x 23 16 == 0xF0

/-- A valid marker: its form, its CRC, and zeros in the fields that are 0 (R35). -/
def markerOk (hdr x : Nat) : Bool := markerForm hdr x && markerCrcOk x && bits x 15 12 == 0 && bits x 55 48 == 0

/-- How a lane with RX_POL reads a block as a marker: the polarity in which it is valid, if any (R36). -/
def State.markerPol (s : State) (p k hdr x : Nat) : Option Bool :=
  let m := s.rd (Reg.PRB_LN_CTRL_RX_POL p k)
  let (ih, ix) := takenAs true hdr x
  if m ≠ 2 ∧ markerOk hdr x then some false else if m ≠ 1 ∧ markerOk ih ix then some true else none

/-- The lanes with two valid markers, with their logical numbers below WIDTH (R43). -/
def State.foundLanes (s : State) (p : Nat) : List (Nat × Nat) :=
  (lanes.filter (fun k => s.rd (Hid.mkrSeen p k) == 2 && decide (s.rd (Hid.mkrLane p k) < s.rd (Reg.PRB_CTRL_WIDTH p)))).map
    (fun k => (k, s.rd (Hid.mkrLane p k)))

/-- MARKER_LOCK completes when each logical lane is found on exactly one lane (R43, R45): the map is filled and the
port enters DESKEW; a logical number found twice is a fault. -/
def State.markerLock (s : State) (p : Nat) : State :=
  let l := s.foundLanes p
  let w := s.rd (Reg.PRB_CTRL_WIDTH p)
  if (l.map Prod.snd).dedup.length ≠ l.length then s.prbFault p 5
  else if l.length < w then s
  else
    let s1 := State.each l (fun x t => (t.wr (Reg.PRB_LN_STAT_LOGICAL p x.1) x.2).setB (Hid.laneIn p) x.1) s
    let map := lanes.foldl (fun m k => m + (s1.rd (Reg.PRB_LN_STAT_LOGICAL p k)) * 2 ^ (4 * k)) 0
    let rev := l.all (fun x => x.1 + x.2 + 1 == w)
    let s2 := ((s1.wr (Reg.PRB_LANE_MAP_MAP p) map).wr (Reg.PRB_STAT_REVERSED p) (b2n rev)).prbGo p 6
    State.each lanes (fun k t => { t.wr (Hid.mkrGot p k) 0 with laneBuf := Tab.del t.laneBuf (16 * p + k) }) s2

/-- A valid marker in MARKER_LOCK (R36, R43). -/
def State.markerHunt (s : State) (p k x : Nat) (inv : Bool) : State :=
  let lane := bits x 11 8
  let again := s.rd (Hid.mkrSeen p k) != 0 && s.rd (Hid.sinceMkr p k) == 16383 && s.rd (Hid.mkrLane p k) == lane
  let s1 := ((s.wr (Hid.sinceMkr p k) 0).wr (Hid.mkrLane p k) lane).wr (Hid.mkrSeen p k) (if again then 2 else 1)
  let s2 := if inv then s1.wr (Reg.PRB_LN_STAT_POL_INV p k) 1 else s1
  let s3 := s2.wrIf again (Reg.PRB_LN_STAT_MARKER_LOCK p k) 1
  if decide (lane < s.rd (Reg.PRB_CTRL_WIDTH p)) && s.on (Reg.PRB_RX_CFG_TAG_CHECK p)
      && bits x 31 24 != s.rd (Reg.PRB_RX_CFG_EXP_TAG p) then s3.prbFault p 8
  else s3.markerLock p

/-- The window of DSK_WIN in UI (R38). -/
def dskWin (v : Nat) : Nat := [64, 128, 160, 192, 256].getD v 160

/-- DESKEW is judged once every lane in use has its marker of the period (R38, R43): SKEW and PRB_SKEW are set and the
port enters UP, or it faults. -/
def State.deskew (s : State) (p : Nat) : State :=
  let used := lanes.filter (fun k => s.laneUsed p k)
  let got := used.filter (fun k => s.on (Hid.mkrGot p k))
  let first := got.foldl (fun m k => min m (s.rd (Hid.mkrAt p k))) (2 ^ 64)
  let skew (k : Nat) : Nat := s.rd (Hid.mkrAt p k) - first
  if got.any (fun k => decide (dskWin (s.rd (Reg.PRB_CTRL_DSK_WIN p)) < skew k)) then (s.prbFault p 6).prbEvent p 4
  else if got.length < used.length then s
  else
    let s1 := State.each used (fun k t => (t.wr (Reg.PRB_LN_STAT_SKEW p k) (skew k)).wr (Hid.mkrMiss p k) 0) s
    let mx := used.foldl (fun m k => max m (skew k)) 0
    let latest := (used.filter (fun k => skew k == mx)).foldl (fun m k => min m (s.rd (Reg.PRB_LN_STAT_LOGICAL p k))) 15
    let s2 := (((s1.wr (Reg.PRB_SKEW_MAX_SKEW p) mx).wr (Reg.PRB_SKEW_LATEST p) latest).prbGo p 7).wr (Hid.rowNo p) 0
    s2.prbEvent p 0

/-- A valid marker in DESKEW: the lane's slots of the first row begin with it (R38, R43). -/
def State.markerDeskew (s : State) (p k x at_ : Nat) : State :=
  let s1 := (((s.wr (Hid.sinceMkr p k) 0).wr (Hid.mkrAt p k) at_).wr (Hid.mkrGot p k) 1)
  if !s.laneUsed p k then (s.wr (Hid.sinceMkr p k) 0)
  else
    { s1 with laneBuf := Tab.set s1.laneBuf (16 * p + k) [] [⟨2, BitVec.ofNat 64 x, false, true⟩] }.deskew p

/-- A marker in the marker slot in UP (R37, R44, R53): a good one ends a run of missing ones, and one with another LANE
is a condition of loss; a bad one is counted, and the lane keeps its timing. In STRICT a calibrated lane hands over. -/
def State.markerUp (s : State) (p k hdr x at_ : Nat) : State :=
  let good := markerOk hdr x && !(s.on (Reg.PRB_RX_CFG_TAG_CHECK p) && bits x 31 24 != s.rd (Reg.PRB_RX_CFG_EXP_TAG p))
  let s1 := ((s.wr (Hid.sinceMkr p k) 0).wr (Hid.mkrMiss p k) 0).wr (Hid.mkrAt p k) at_
  let s2 := if good then s1 else s1.inc (Reg.PRB_LN_MKR_ERR p k) 1
  let s3 := s2.wrIf (good && s.laneUsed p k && bits x 11 8 != s.rd (Hid.mkrLane p k)) (Hid.laneLoss p k) 1
  let s4 := if s.on (Hid.calMode p k) && s.on (Hid.calPend p k) then s3.laneHandover p k else s3
  s4.laneSlot p k ⟨2, BitVec.ofNat 64 x, false, true⟩

/-- A block arrives that stands where, or has the form in which, a marker is sent, at `arrival` in UI. Out of its slot in
UP it is a block like any other. -/
def State.markerIn (s0 : State) (p k hdr x arrival : Nat) : State :=
  let s := if (s0.lostLanes p).contains k then s0.lossSettle p else s0
  let st := s.rd (Reg.PRB_STAT_STATE p)
  let (h, y) := takenAs (s.on (Reg.PRB_LN_STAT_POL_INV p k)) hdr x
  if !s.laneListens p k then s
    else if !s.on (Reg.PRB_LN_STAT_BLOCK_LOCK p k) then s.blockIn p k hdr x
    else if st = 7 then
      if s.rd (Hid.sinceMkr p k) = 16383 then (s.laneHeader p k (h == 0 || h == 3)).markerUp p k h y arrival
      else s.blockIn p k hdr x
    else if st = 5 then
      match s.markerPol p k hdr x with
      | some inv => (s.laneHeader p k false).markerHunt p k (takenAs inv hdr x).2 inv
      | none => s.blockIn p k hdr x
    else if st = 6 then
      if markerOk h y then (s.laneHeader p k false).markerDeskew p k y arrival else s.blockIn p k hdr x
    else s.blockIn p k hdr x

/-- A marker on a lane of a Ramzel link (R35 to R37, R362): the first good one after lock sets the flywheel, and one in its slot that
fails its CRC, or is not of this lane, is counted while the lane keeps its timing; elsewhere it is a block like any other. -/
def State.rlkMarkerIn (s : State) (l k hdr x : Nat) : State :=
  let n := s.rd (Hid.rlkSinceMkr l k)
  let (h, y) := takenAs (s.on (Reg.RLK_LN_STAT_POL_INV l k)) hdr x
  let good := markerOk h y && bits y 11 8 == s.rd (Reg.RLK_LN_STAT_LOGICAL l k)
  if s.rlkListens l k && s.on (Reg.RLK_LN_STAT_MARKER_LOCK l k) && (n == 16384 || n == 0 && good) then
    let s1 := (s.rlkBlockIn l k hdr).wr (Hid.rlkSinceMkr l k) 1
    if good then s1 else s1.inc (Reg.RLK_LN_MKR_ERR l k) 1
  else s.rlkBlockIn l k hdr

/-- MARKER_RECEIVED (R34 to R38, R43, R48, R362): such a block at the pins of a lane of a port, or of Ramzel link p - 4; `arrival` is
its arrival there in UI. -/
def execMarkerReceived (p : Fin 6) (k : Fin 16) (hdr : Fin 4) (payload : DWord) (arrival : Nat) (s : State) :
    Host.Outcome State Fault Refusal :=
  .next (if 4 ≤ p.val then s.rlkMarkerIn (p - 4) k hdr payload.toNat
    else if s.rxPins p then (s.farBlock p k hdr payload.toNat).markerIn p k hdr payload.toNat arrival
    else s)

/-! ### Rows (R38 to R42) -/

/-- T_RXLAT in units of the timebase, rounded down (R42): 3 blocks, 2 ns and DSK_WIN UI. -/
def State.rxLat (s : State) (p : Nat) : Nat :=
  let r := s.uiRate p
  8 + (198 + dskWin (s.rd (Reg.PRB_CTRL_DSK_WIN p))) * r.2 / r.1

/-- The physical lanes of the row, in logical order. -/
def State.rowLanes (s : State) (p : Nat) : List Nat :=
  (List.range (s.rd (Reg.PRB_CTRL_WIDTH p))).filterMap (fun j =>
    lanes.find? (fun k => s.laneUsed p k && s.rd (Reg.PRB_LN_STAT_LOGICAL p k) == j))

/-- The bound island cannot take rows (R41): it is in reset, or its context is being loaded or switched. -/
def State.islDropsRows (s : State) (n : Nat) : Bool :=
  let st := s.rd (Reg.ISL_STAT_STATE n)
  st == 4 || st == 1 || st == 2 || s.on (Reg.ISL_STAT_SWITCHING n) || s.bitOf (Reg.ISL_CTX_VALID_LOADING n) (s.rd (Reg.ISL_STAT_CUR_CTX n))

/-- A valid row goes to the bound island (R39 to R41). -/
def State.deliverRow (s : State) (p : Nat) (r : PRow) : State :=
  if !s.on (Reg.PRB_BIND_DELIV_EN p) then s
  else if s.islDropsRows (s.rd (Reg.PRB_BIND_ISLAND p)) then s.inc (Reg.PRB_DROP p) 1
  else
    let q := Tab.getD s.islFifo p []
    if 64 ≤ q.length then (s.inc (Reg.PRB_DROP p) 1).prbEvent p 5
    else { s with islFifo := Tab.set s.islFifo p [] (q ++ [r]) }

/-- ROW_RELEASE (R38 to R42, R44, R63): once every lane in use has a slot, a row is released to the island and to Hopper. The
row in whose slot the markers stood is not valid, and neither is any row once a condition of loss is met. -/
def execRowRelease (p : Fin 4) (s : State) : Host.Outcome State Fault Refusal :=
  let ls := s.rowLanes p
  let bufs := ls.map (fun k => Tab.getD s.laneBuf (16 * p + k) [])
  .next (if s.rd (Reg.PRB_STAT_STATE p) ≠ 7 ∨ s.lostLanes p ≠ [] ∨ ls = [] ∨ bufs.any (fun b => b.isEmpty) then s
    else
      let slots := bufs.filterMap (fun b => b.head?)
      let s1 := State.each ls (fun k t =>
        { t with laneBuf := Tab.set t.laneBuf (16 * p + k) [] ((Tab.getD t.laneBuf (16 * p + k) []).drop 1) }) s
      let r : PRow := ⟨slots, s.now - s.rxLat p, s.rd (Hid.rowNo p)⟩
      let s2 := (s1.add (Hid.rowNo p) 1).wr (Hid.rowTs p (r.num % 128)) r.time
      if slots.any (fun x => x.marker) then s1 else (s2.deliverRow p r).hopDeliver p r)

/-- A slot as the island takes it (R39): its payload, and a byte with the sync header and the header-error flag. -/
def Slot.bytes (x : Slot) : List Byte := leBytes 8 x.payload.toNat ++ leBytes 1 (x.hdr + 4 * b2n x.err)

/-- ISLAND_ROW_READ (R39, R40): the island bound to a port reads the oldest row of its FIFO at its own clock. -/
def execIslandRowRead (n : Fin 80) (s : State) : Host.Outcome State Fault Refusal :=
  .next (match s.portOf n with
    | none => s
    | some p =>
      if s.rd (Reg.ISL_STAT_STATE n) ≠ 3 ∨ s.clkRuns n = false then s
      else match Tab.getD s.islFifo p [] with
        | [] => s
        | r :: rest =>
          ({ s with islFifo := Tab.set s.islFifo p [] rest }).answer .ok (r.slots.flatMap Slot.bytes))

/-! ### Loss (R44) -/

/-- PORT_LOSS (R44): the clock has left its tolerance for 1 µs (`clk`), or lanes in use have met a condition; the loss is
declared once, for the condition met first. -/
def execPortLoss (p : Fin 4) (clk : Bool) (s : State) : Host.Outcome State Fault Refusal :=
  .next (if s.rd (Reg.PRB_STAT_STATE p) ≠ 7 then s
    else if s.lostLanes p ≠ [] then s.lossSettle p
    else if clk then s.lossDeclare p true false
    else s)

/-! ### Commands (R57) and frequency measurement (R50, R51) -/

/-- RETRAIN (R43, R57). -/
def State.prbRetrain (s : State) (p : Nat) : State :=
  let st := s.rd (Reg.PRB_STAT_STATE p)
  if !s.on (Reg.PRB_CTRL_EN p) || decide (st ≤ 1) then s.prbReject p 0x01
  else
    let s1 := if st = 7 then s.prbEvent p 1 else s
    if st = 8 ∧ s.rd (Reg.PRB_STAT_FAULT_CAUSE p) = 1 then (s1.prbGo p 1).prbUnlock p else s1.prbAcquire p

/-- FMEAS_START. -/
def State.fmeasStart (s : State) (p : Nat) : State :=
  if s.on (Reg.PRB_STAT_FMEAS_BUSY p) then s.prbReject p 0x02
  else (s.wr (Reg.PRB_STAT_FMEAS_BUSY p) 1).wr (Reg.PRB_FMEAS_CTRL_DONE p) 0

/-- FMEAS_STOP. -/
def State.fmeasStop (s : State) (p : Nat) : State :=
  if s.on (Reg.PRB_STAT_FMEAS_BUSY p) then s.wr (Reg.PRB_STAT_FMEAS_BUSY p) 0 else s.prbReject p 0x03

/-- CAL_NOW (R54, R57): every lane in use calibrates and hands over. -/
def State.prbCalNow (s : State) (p : Nat) : State :=
  if s.rd (Reg.PRB_STAT_STATE p) = 7 ∧ s.rd (Reg.PRB_CTRL_LOOP p) ≠ 2 then
    State.each (lanes.filter (fun k => s.laneUsed p k)) (fun k t => t.laneHandover p k) s
  else s.prbReject p 0x04

/-- CLR_CNT (R57). -/
def State.prbClrCnt (s : State) (p : Nat) : State :=
  State.each lanes (fun k t => (t.wr (Reg.PRB_LN_HDR_ERR p k) 0).wr (Reg.PRB_LN_MKR_ERR p k) 0) (s.wr (Reg.PRB_DROP p) 0)

/-- A command written to PRB_CMD. -/
def State.prbCmd (s : State) (p code : Nat) : State :=
  if code = 0x01 then s.prbRetrain p else if code = 0x02 then s.fmeasStart p else if code = 0x03 then s.fmeasStop p
  else if code = 0x04 then s.prbCalNow p else if code = 0x05 then s.prbClrCnt p else s.prbReject p code

/-- PRB_RETRAIN (R57). -/
def execPrbRetrain (p : Fin 4) (s : State) : Host.Outcome State Fault Refusal := .next (s.prbRetrain p)
/-- FMEAS_START (R50, R57). -/
def execFmeasStart (p : Fin 4) (s : State) : Host.Outcome State Fault Refusal := .next (s.fmeasStart p)
/-- FMEAS_STOP (R57). -/
def execFmeasStop (p : Fin 4) (s : State) : Host.Outcome State Fault Refusal := .next (s.fmeasStop p)
/-- CAL_NOW (R54, R57). -/
def execCalNow (p : Fin 4) (s : State) : Host.Outcome State Fault Refusal := .next (s.prbCalNow p)
/-- PRB_CLR_CNT (R57). -/
def execPrbClrCnt (p : Fin 4) (s : State) : Host.Outcome State Fault Refusal := .next (s.prbClrCnt p)

/-- FMEAS_GATE_END (R50): the gate ends with a count of the edges of the source. -/
def execFmeasGateEnd (p : Fin 4) (count : Word) (s : State) : Host.Outcome State Fault Refusal :=
  .next (if !s.on (Reg.PRB_STAT_FMEAS_BUSY p) then s
    else
      let c := count.toNat
      let ok := decide (s.rd (Reg.PRB_FMEAS_MIN p) ≤ c) && decide (c ≤ s.rd (Reg.PRB_FMEAS_MAX p))
      let s1 := (((s.wr (Reg.PRB_FMEAS_CNT p) c).wr (Reg.PRB_FMEAS_CTRL_DONE p) 1).wr (Reg.PRB_FMEAS_CTRL_IN_RANGE p) (b2n ok)).wr
        (Reg.PRB_STAT_FMEAS_BUSY p) (s.rd (Reg.PRB_FMEAS_CTRL_CONT p))
      if ok then s1 else s1.prbEvent p 7)

/-! ### Lane calibration (R52 to R54) -/

/-- A lane's interval falls due (R22, R52 to R54, R484, R485): the mode takes effect, and the redundant sampler is calibrated and waits
for its handover, unless it fails, has failed, or CALREF_V is out of range. A lane whose last handover is older than AGE_LIMIT
intervals is marked. In NEP calibration is suspended. -/
def State.laneInterval (s : State) (p k : Nat) (failed : Bool) : State :=
  if s.rd (Reg.PRB_STAT_STATE p) = 0 ∨ s.on (Reg.PRB_LN_CTRL_OFF p k) ∨ s.rd (Reg.PRB_CTRL_LOOP p) = 2 then s
  else
    let n := min (s.rd (Hid.calIvals p k) + 1) 65535
    let s1 := (s.wr (Hid.calMode p k) (s.rd (Reg.PRB_CAL_CTRL_MODE p))).wr (Hid.calIvals p k) n
    let s2 := if s.calBlocked 0 || s.on (Hid.calDeg 0 (16 * p + k)) then s1
      else if failed then s1.calFails 0 (16 * p + k)
      else s1.wr (Hid.calPend p k) 1
    if s.rd (Reg.PRB_CAL_CTRL_AGE_LIMIT p) < n && !s.on (Reg.PRB_LN_STAT_CAL_AGED p k) then
      (s2.wr (Reg.PRB_LN_STAT_CAL_AGED p k) 1).prbEvent p 6
    else s2

/-- LANE_CAL_INTERVAL (R22, R52 to R54): a lane's interval falls due. -/
def execLaneCalInterval (p : Fin 4) (k : Fin 16) (s : State) : Host.Outcome State Fault Refusal := .next (s.laneInterval p k false)

/-- CAL_HANDOVER (R52): in GAPS a calibrated lane hands over within a run of at least 32 idle blocks. -/
def execCalHandover (p : Fin 4) (k : Fin 16) (s : State) : Host.Outcome State Fault Refusal :=
  .next (if s.on (Hid.calPend p k) && !s.on (Hid.calMode p k) && s.rd (Hid.idleRun p k) == 32 then s.laneHandover p k else s)

/-- CAL_AGE of a lane (R54): milliseconds since its last handover, saturating. -/
def State.lnCalAge (s : State) (p k : Nat) : Nat := min 65535 ((s.now - s.rd (Hid.lnCalAt p k)) / 4000000)

/-! ### Pin energy (R55) -/

/-- LANE_RAIL_FAULT (R55): a lane rail, which serves every port and partner link, falls below 90 % of nominal, or VCC_AUX is lost:
every driver goes off. -/
def execLaneRailFault (s : State) : Host.Outcome State Fault Refusal :=
  .next (State.each [0, 1] (fun l t => t.wr (Hid.rlkDrvOff l) 1) (State.each [0, 1, 2, 3] (fun p t => t.wr (Hid.drvOff p) 1) s))

/-- PIN_SHORT (R55, R58): the current limit of a pin has been active for 10 µs; its lane goes to electrical idle. `p` is
the port, or 4 + l for a lane of Ramzel link l, which has no event for it. -/
def execPinShort (p : Fin 6) (k : Fin 16) (s : State) : Host.Outcome State Fault Refusal :=
  .next (if p.val < 4 then (s.wr (Hid.laneIdle p k) 1).prbEvent p 2 else s.wr (Hid.rlkLaneIdle (p - 4) k) 1)

/-- PORT_CONFIG_UPSET (R43, R55): an upset in the port's control registers; TX goes to electrical idle and the port to FAULT, but for
EN = 0, which forces DISABLED. No table gives the cause code, which is open. -/
def execPortConfigUpset (p : Fin 4) (s : State) : Host.Outcome State Fault Refusal :=
  .next (if s.on (Reg.PRB_CTRL_EN p) then ((s.prbGo p 8).wr (Hid.drvOff p) 1).wrFree (Reg.PRB_STAT_FAULT_CAUSE p)
    else s.wr (Hid.drvOff p) 1)

/-- An ENGINE reset of a port (R59): DISABLED, every register at its reset value but PRB_CAL_CTRL.MODE. -/
def State.prbReset (s : State) (p : Nat) : State :=
  let s1 := s.prbOff p
  let s2 := State.keeping [Reg.PRB_CAL_CTRL_MODE p] (fun t => t.resetBlocks (0x010 + p) (0x011 + p)) s1
  let s3 := State.each lanes (fun k t =>
    ((((t.wr (Hid.calPend p k) 0).wr (Hid.calIvals p k) 0).wr (Hid.laneIdle p k) 0).wr (Hid.lnCalAt p k) t.now)) s2
  { (s3.wr (Hid.txSrcNow p) 0).wr (Hid.drvOff p) 0 with islFifo := Tab.del s3.islFifo p }

end Sys2Proof.Machine
end

