-- ==== Sys2Proof/Machine/Marigold.lean ====
section
/-! DEFINITION. Marigold: keys, flows, counters, epochs and the counter tree, and what memory errors do (chapter 4). -/

namespace Sys2Proof.Machine

/-! ### The flow-table region (R107, R115) -/

/-- Base of the flow-table region (R107). -/
def marBase : Nat := 0x100F400000
def ctxAddr (f : Nat) : Nat := marBase + 0x20000 + f * 128
def slotAddr (b j : Nat) : Nat := marBase + b * 512 + j * 16
def histAddr (k : Nat) : Nat := marBase + 0xA0000 + k % 32 * 0x9000
def rlogAddr (n : Nat) : Nat := marBase + 0x1C0000 + n % 1024 * 256

/-- Events 352 + i with their bits of MAR_EVT (R142). -/
def State.marEvent (s : State) (i : Nat) : State := s.raiseB Reg.MAR_EVT_EVT i (352 + i)

/-- A rejected command (R141). -/
def State.marReject (s : State) (code : Nat) : State := (s.rejMark 0x017 code).marEvent 0

/-- Marigold's own request: the engine path, key index 0. -/
def State.marReq (s : State) : Req := s.req .marigold 0

/-- Write bytes of whole words into the region. -/
def State.marWrite (s : State) (a : Nat) (bs : List Byte) : State :=
  State.each (List.range (bs.length / 8)) (fun i t => t.putWord 0 (a + 8 * i) (ofLeBytes ((bs.drop (8 * i)).take 8))) s

/-- Read `n` words of the region with their checks: the bytes, whether one was uncorrectable, and the state after. -/
def State.marRead (s : State) (a n : Nat) : List Byte × Bool × State :=
  (List.range n).foldl (fun (acc : List Byte × Bool × State) i =>
    let (d, bad, t) := acc.2.2.readWord s.marReq (a + 8 * i)
    (acc.1 ++ leBytes 8 d, acc.2.1 || bad, t)) ([], false, s)

/-- A word of the region as it stands, without its check. -/
def State.marWord (s : State) (a : Nat) : Nat := s.wordAs 0 a

/-- Empty the table and the contexts: every word zero, under key index 0 of the key table in force. -/
def State.marWipe (s : State) : State :=
  let lo := marBase
  let n := 0xA0000
  let e := s.rd Hid.keyEpoch
  let fresh := if e = 0 then [] else (List.range (n / 8)).map (fun i => (lo / 8 + i, (⟨0, e, 0, 0⟩ : Info)))
  { s with
    mem := Tab.delRange s.mem lo (lo + n)
    info := s.info.filter (fun x => decide (x.1 < lo / 8)) ++ fresh ++ s.info.filter (fun x => decide ((lo + n) / 8 ≤ x.1))
    wback := s.wback.filter (fun w => !(decide (lo / 8 ≤ w) && decide (w < (lo + n) / 8))) }

/-! ### Keys and their hash (R112, R114) -/

/-- The hash of a key (R114): CRC-64 of ECMA-182 over its bytes and one byte holding KLEN. -/
def State.keyHash (s : State) (key : List Byte) : Nat :=
  crcBytes 64 0x42F0E1EBA9EA3693 (s.rd Reg.MAR_HASH_SEED) (key ++ [BitVec.ofNat 8 (key.length - 1)])

/-- The two candidate buckets (R114). -/
def buckets (h : Nat) : Nat × Nat :=
  let b1 := bits h 7 0
  let b2 := bits h 15 8
  (b1, if b1 = b2 then b1 ^^^ 1 else b2)

/-- A key as 64 bytes, with zeros beyond it. -/
def keyPad (key : List Byte) : List Byte := key ++ List.replicate (64 - key.length) 0

/-! ### The flow store (R109, R130) -/

/-- The present epoch: one more than the last close (R129). -/
def State.epoch (s : State) : Nat := s.rd Hid.epNum + 1

/-- Before a leaf first changes after a close, LIVE is copied to SNAP (R130). -/
def State.leafTouch (s : State) (f : Nat) : State :=
  if s.rd (Hid.epTag f) = s.epoch then s
  else
    let s1 := State.each (List.range 16) (fun c t => t.wr (Hid.snap f c) (t.rd (Hid.live f c))) s
    (s1.wr (Hid.epTag f) s.epoch).wr (Hid.evSince f) 0

/-- EV_SINCE: the events applied to a leaf since the last close (R109), none where it has not changed since. -/
def State.evNow (s : State) (f : Nat) : Nat := if s.rd (Hid.epTag f) = s.epoch then s.rd (Hid.evSince f) else 0

/-- The published value of a leaf (R130). -/
def State.leafAt (s : State) (f c : Nat) : Nat :=
  if s.rd (Hid.epTag f) = s.epoch then s.rd (Hid.snap f c) else s.rd (Hid.live f c)

/-- Zero LIVE, the histogram and the tracker. -/
def State.leafZero (s : State) (f : Nat) : State :=
  let s1 := State.each (List.range 16) (fun c t => t.wr (Hid.live f c) 0) s
  let s2 := State.each (List.range 32) (fun b t => t.wr (Hid.hist f b) 0) s1
  (((s2.wr (Hid.flowSeqV f) 0).wr (Hid.flowHigh f) 0).wr (Hid.flowWin f) 0).wr (Hid.flowResync f) 0

/-- From when a flow has been idle (R119): its LAST, or its CREATE_TS where it has had no event since. -/
def State.idleFrom (s : State) (f : Nat) : Nat :=
  if s.on (Hid.flowSeen f) then s.rd (Hid.flowLast f) else s.rd (Hid.flowMade f)

/-! ### Retiring (R120, R121) -/

/-- The slot that holds a flow, if any. -/
def State.slotOf (s : State) (f : Nat) : Option (Nat × Nat) :=
  ((List.range 256).flatMap (fun b => (List.range 32).map (fun j => (b, j)))).find? (fun x =>
    let w := s.marWord (slotAddr x.1 x.2)
    bit w 60 && bits w 59 48 == f)

/-- The retire-log entry of a flow (R121). -/
def State.rlogEntry (s : State) (f reason : Nat) : List Byte :=
  (List.range 8).flatMap (fun i => leBytes 8 (s.marWord (ctxAddr f + 8 * i)))
  ++ (List.range 16).flatMap (fun c => leBytes 8 (s.rd (Hid.live f c)))
  ++ leBytes 8 (s.rd (Hid.flowFirst f)) ++ leBytes 8 (s.rd (Hid.flowLast f)) ++ leBytes 2 f ++ leBytes 1 reason
  ++ leBytes 1 (s.rd (Hid.flowLost f) + 2 * s.rd (Hid.flowSeqV f)) ++ leBytes 4 (s.rd (Hid.flowHigh f))
  ++ leBytes 8 s.now ++ List.replicate 32 0

/-- Write the entry, or count it where the log is full (R121). -/
def State.rlogWrite (s : State) (f reason : Nat) : State :=
  let n := s.rd Reg.MAR_RLOG_WR
  if (n + 2 ^ 32 - s.rd Reg.MAR_RLOG_RD) % 2 ^ 32 = 1024 then (s.inc Reg.MAR_RLOG_DROP 1).marEvent 7
  else (s.marWrite (rlogAddr n) (s.rlogEntry f reason)).add Reg.MAR_RLOG_WR 1

/-- Retire a flow with a reason: 1 AGED, 2 EVICTED, 3 COMMAND, 4 CTX_LOST (R120). -/
def State.retire (s : State) (f reason : Nat) : State :=
  let s1 := s.leafTouch f
  let s2 := State.each (List.range 16) (fun c t => t.add (Hid.ledger (f / 16) c) (t.rd (Hid.live f c))) s1
  let s3 := if s.on Reg.MAR_CTRL_RLOG_EN then s2.rlogWrite f reason else s2
  let s4 := match s3.slotOf f with
    | some (b, j) => s3.marWrite (slotAddr b j) (List.replicate 16 0)
    | none => s3
  let s5 := (s4.marWrite (ctxAddr f) (List.replicate 128 0)).leafZero f
  let s6 := ((((s5.wr (Hid.flowValid f) 0).wr (Hid.flowLost f) 0).wr (Hid.flowSeen f) 0).wr (Hid.flowFirst f) 0).wr (Hid.flowLast f) 0
  ((((s6.wr (Hid.flowPort f) 0).wr (Hid.flowMade f) 0).wr (Hid.keyUse f) 0).wr (Hid.evSince f) 0).wr Reg.MAR_LIVE (s.rd Reg.MAR_LIVE - 1)

/-! ### Key entries (R110, R111, R113, R127) -/

/-- The entries of pipeline `p`: it takes them from its 16-entry FIFO as long as its pending buffer of 256 has room, and
FULL shows that the FIFO holds no more (R110, R127). -/
def State.setKeys (s : State) (p : Nat) (q : List KeyEntry) : State :=
  { s.wr (Hid.keyFull p) (b2n (decide (272 ≤ q.length))) with keyFifo := Tab.set s.keyFifo p [] q }

/-- KEY_PRESENT (R110, R111, R113): the bound island presents a key entry that refers to a row delivered to it. -/
def execKeyPresent (n : Fin 80) (row : Nat) (key : List Byte) (klen : Fin 64) (len : BitVec 16) (seq lat : Option Word)
    (umask : BitVec 10) (add : Option (Fin 16 × Word)) (s : State) : Host.Outcome State Fault Refusal :=
  .next (match s.portOf n with
    | none => s
    | some p =>
      if s.rd (Reg.ISL_STAT_STATE n) ≠ 3 ∨ s.on (Reg.ISL_STAT_SWITCHING n) ∨ s.on Reg.MAR_STAT_STATE = false
          ∨ s.on Hid.marStop ∨ s.bitOf Reg.MAR_CTRL_PIPE_EN p = false ∨ s.rd (Hid.rowNo p) ≤ row then s
      else
        let first := (Tab.getD s.hopDelay p []).any (fun d => d.row.num == row && d.key == 0)
        let drop (t : State) : State := if first then t.keyResult p row 2 else t
        let q := Tab.getD s.keyFifo p []
        if s.rd (Reg.HOP_PORT_CFG_MARK_DELAY p) < s.rd (Hid.rowNo p) - 1 - row then drop (s.inc (Reg.MAR_PIPE_LATE p) 1)
        else if s.on (Hid.keyFull p) then drop ((s.inc (Reg.MAR_PIPE_DROP p) 1).marEvent 3)
        else
          let e : KeyEntry :=
            { row := row, ts := s.rd (Hid.rowTs p (row % 128)), first := first
              key := (List.range (klen.val + 1)).map (fun i => key.getD i 0), len := len.toNat
              seq := seq.map (fun w => w.toNat), lat := lat.map (fun w => w.toNat), umask := umask.toNat
              add := add.map (fun x => (x.1.val, x.2.toNat)) }
          let s1 := s.setKeys p (q ++ [e])
          if first then s1.keyResult p row 1 else s1)

/-! ### Lookup and creation (R116 to R118, R140) -/

/-- A flow takes its place in the key cache, and the least recently used of more than 1,024 leaves it (R116). -/
def State.cacheUse (s : State) (f : Nat) (key : List Byte) : State :=
  let n := s.rd Hid.keyClock + 1
  let s1 := ((((s.wr Hid.keyClock n).wr (Hid.keyUse f) n).wr (Hid.cKey f) (ofLeBytes (keyPad key))).wr (Hid.cLen f) (key.length - 1))
  let used := (List.range 4096).filter (fun g => s1.rd (Hid.keyUse g) != 0)
  if used.length ≤ 1024 then s1
  else
    let old := used.foldl (fun m g => min m (s1.rd (Hid.keyUse g))) (n + 1)
    State.each (used.filter (fun g => s1.rd (Hid.keyUse g) == old)) (fun g t => t.wr (Hid.keyUse g) 0) s1

/-- The flow in the key cache with a key (R112, R116). -/
def State.cacheFind (s : State) (key : List Byte) : Option Nat :=
  (List.range 4096).find? (fun f => s.rd (Hid.keyUse f) != 0 && s.on (Hid.flowValid f)
    && s.rd (Hid.cLen f) == key.length - 1 && s.rd (Hid.cKey f) == ofLeBytes (keyPad key))

/-- What the search of a bucket comes to. -/
inductive Found where
  | flow (f : Nat) | missing | wait
deriving DecidableEq, Repr

/-- The contexts that a list of slots names are read until one holds the key; a context that cannot be read retires its
flow (R116, R140). -/
def State.matchSlots (s : State) (key : List Byte) : List Nat → Found × State
  | [] => (.missing, s)
  | f :: r =>
    let (bs, bad, t) := s.marRead (ctxAddr f) 16
    if bad then (t.retire f 4).matchSlots key r
    else if bs.take key.length = key ∧ (bs.getD 80 0).toNat % 64 = key.length - 1 then (.flow f, t)
    else t.matchSlots key r

/-- The flows of a bucket's valid slots whose TAG and KLEN agree, slots 0 to 31. -/
def slotFlows (row : List Byte) (tag klen : Nat) : List Nat :=
  (List.range 32).filterMap (fun j =>
    let w0 := ofLeBytes ((row.drop (16 * j)).take 8)
    let w1 := ofLeBytes ((row.drop (16 * j + 8)).take 8)
    if bit w0 60 && bits w0 47 0 == tag && bits w1 5 0 == klen then some (bits w0 59 48) else none)

/-- A bucket is read: its 512 bytes. One with an uncorrectable word is to be rebuilt, and gives none (R116, R140). -/
def State.bucketRead (s : State) (b : Nat) : Option (List Byte) × State :=
  if s.on (Hid.bktBad b) then (none, s)
  else
    let (row, bad, t) := s.marRead (slotAddr b 0) 64
    if bad then (none, t.wr (Hid.bktBad b) 1) else (some row, t)

/-- The search of one bucket's bytes (R116, R140): one that cannot be read is waited for. -/
def State.searchBucket (s : State) (row : Option (List Byte)) (key : List Byte) (h : Nat) : Found × State :=
  match row with
  | none => (.wait, s)
  | some r => s.matchSlots key (slotFlows r (h / 2 ^ 16) (key.length - 1))

/-- The lookup of a key of pipeline `p` (R116): on a miss in the key cache both buckets are read, then B1 is searched and
B2. A lookup that has waited for a bucket (`again`) is counted in MAR_MISS already. -/
def State.lookup (s : State) (p : Nat) (key : List Byte) (again : Bool) : Found × State :=
  match s.cacheFind key with
  | some f => (.flow f, s)
  | none =>
    let s1 := if again then s else s.inc (Reg.MAR_MISS p) 1
    let h := s.keyHash key
    let r1 := s1.bucketRead (buckets h).1
    let r2 := r1.2.bucketRead (buckets h).2
    match r2.2.searchBucket r1.1 key h with
    | (.missing, t) => t.searchBucket r2.1 key h
    | x => x

/-- The free slots of a bucket, lowest first. -/
def State.freeSlots (s : State) (b : Nat) : List Nat :=
  (List.range 32).filter (fun j => !bit (s.marWord (slotAddr b j)) 60)

/-- Create a flow for a key in a free index (R117). -/
def State.createFlow (s : State) (p : Nat) (e : KeyEntry) (f : Nat) : State :=
  let h := s.keyHash e.key
  let (b1, b2) := buckets h
  let f1 := s.freeSlots b1
  let f2 := s.freeSlots b2
  let (b, j) := if f2.length ≤ f1.length then (b1, f1.headD 0) else (b2, f2.headD 0)
  let ctx := keyPad e.key ++ leBytes 8 h ++ leBytes 8 e.ts ++ leBytes 1 (e.key.length - 1) ++ leBytes 1 p ++ leBytes 1 1
    ++ List.replicate 45 0
  let s1 := s.marWrite (ctxAddr f) ctx
  let s2 := s1.marWrite (slotAddr b j) (leBytes 8 (h / 2 ^ 16 + f * 2 ^ 48 + 2 ^ 60) ++ leBytes 8 (e.key.length - 1))
  let s3 := (s2.leafTouch f).leafZero f
  (((s3.wr (Hid.flowValid f) 1).wr (Hid.flowMade f) e.ts).wr (Hid.epTag f) s.epoch).add Reg.MAR_LIVE 1

/-- The live flow that EVICT_IDLE would retire: the one with the oldest LAST, if it has been idle for MAR_AGE_MIN (R118). -/
def State.evictable (s : State) : Option Nat :=
  let l := (List.range 4096).filter (fun f => s.on (Hid.flowValid f))
  let old := l.foldl (fun m f => min m (s.idleFrom f)) (2 ^ 64)
  if old + 4000 * s.rd Reg.MAR_AGE_MIN ≤ s.now then l.find? (fun f => s.idleFrom f == old) else none

/-- A flow index for a key that matched no flow (R117, R118): none where Marigold refuses it. -/
def State.flowFor (s : State) (p : Nat) (e : KeyEntry) : Option (Nat × State) :=
  let (b1, b2) := buckets (s.keyHash e.key)
  let full (t : State) : Bool := t.freeSlots b1 == [] && t.freeSlots b2 == []
  match (List.range 4096).find? (fun f => !s.on (Hid.flowValid f)) with
  | some f => if full s then none else some (f, s.createFlow p e f)
  | none =>
    if full s || !s.on Reg.MAR_CTRL_FULL_POLICY then none
    else match s.evictable with
      | some f => some (f, (s.retire f 2).createFlow p e f)
      | none => none

/-! ### What an entry does to its flow (R122 to R126) -/

/-- Add to a counter of LIVE; it wraps (R122). -/
def State.count (s : State) (f c n : Nat) : State := s.add (Hid.live f c) n

/-- The sequence tracker (R124). -/
def State.trackSeq (s : State) (f seq : Nat) : State :=
  let high := s.rd (Hid.flowHigh f)
  let win := s.rd (Hid.flowWin f)
  let d := toSigned 32 (seq + 2 ^ 32 - high)
  if !s.on (Hid.flowSeqV f) then ((s.wr (Hid.flowHigh f) seq).wr (Hid.flowWin f) 0).wr (Hid.flowSeqV f) 1
  else if d = 0 then s.count f 3 1
  else if 0 < d then
    let k := d.toNat
    if s.rd Reg.MAR_SEQ_CFG_RESYNC < k then
      ((s.wr (Hid.flowHigh f) seq).wr (Hid.flowWin f) 0).inc (Hid.flowResync f) 1
    else
      ((s.count f 2 (k - 1)).wr (Hid.flowWin f) (if k ≤ 64 then win * 2 ^ k ||| 2 ^ (k - 1) else 0)).wr (Hid.flowHigh f) seq
  else
    let k := (-d).toNat
    if 64 < k then s.count f 5 1
    else if bit win (k - 1) then s.count f 3 1
    else (s.wr (Hid.flowWin f) (setBit win (k - 1))).count f 4 1

/-- The histogram bin of a latency (R125). -/
def State.latBin (s : State) (p lat : Nat) : Nat :=
  let base := s.rd (Reg.MAR_HIST_BASE p)
  if lat < base then 0
  else
    let v := (lat - base) / 2 ^ s.rd (Reg.MAR_HIST_CFG_SHIFT p)
    if s.on (Reg.MAR_HIST_CFG_MODE p) then min 31 (1 + Nat.log2 (v + 1)) else min 31 (1 + v)

/-- Apply an entry to its flow (R122, R124 to R126, R130). -/
def State.applyEntry (s : State) (p f : Nat) (e : KeyEntry) : State :=
  let s1 := s.leafTouch f
  let s2 := ((s1.count f 0 1).count f 1 e.len)
  let s3 := State.each (setBits 10 e.umask) (fun i t => t.count f (6 + i) 1) s2
  let s4 := match e.add with
    | some (sel, v) => if sel < 10 then s3.count f (6 + sel) v else s3
    | none => s3
  let s5 := match e.seq with | some q => s4.trackSeq f q | none => s4
  let s6 := match e.lat with | some l => s5.inc (Hid.hist f (s5.latBin p l)) 1 | none => s5
  let seen := s6.on (Hid.flowSeen f)
  let lo := if seen then min (s6.rd (Hid.flowFirst f)) e.ts else e.ts
  let hi := if seen then max (s6.rd (Hid.flowLast f)) e.ts else e.ts
  (((((s6.wr (Hid.flowFirst f) lo).wr (Hid.flowLast f) hi).wr (Hid.flowSeen f) 1).wr (Hid.flowPort f) p).add (Hid.evSince f) 1).cacheUse f e.key

/-- ENTRY_APPLY (R116 to R118, R122, R123): an entry of pipeline `p` is looked up and applied, or refused. Entries with
one key are applied in order, so one with an earlier entry of its key before it is not taken; one that needs a bucket
that is being rebuilt waits. An entry that the pipeline has not taken from its FIFO yet is not applied (R127). -/
def execEntryApply (p : Fin 4) (i : Fin 272) (s : State) : Host.Outcome State Fault Refusal :=
  let q := Tab.getD s.keyFifo p []
  .next (match q[i.val]? with
    | none => s
    | some e =>
      if s.on Reg.MAR_STAT_STATE = false ∨ 256 ≤ i.val ∨ (q.take i).any (fun x => x.key == e.key) then s
      else
        let rest (t : State) : State := t.setKeys p (q.take i ++ q.drop (i + 1))
        let told (t : State) (v : Nat) : State := if e.first then t.keyResult p e.row v else t
        match s.lookup p e.key e.sought with
        | (.wait, t) => t.setKeys p (q.set i.val { e with sought := true })
        | (.flow f, t) => told (rest (t.applyEntry p f e)) (3 + f)
        | (.missing, t) =>
          match t.flowFor p e with
          | some (f, u) => told (rest (u.applyEntry p f e)) (3 + f)
          | none => told (rest ((t.inc (Reg.MAR_NOFLOW p) 1).marEvent 2)) 2)

/-- FLOW_AGE_RETIRE (R119): a flow idle for MAR_AGE_TIME is retired. -/
def execFlowAgeRetire (f : Fin 4096) (s : State) : Host.Outcome State Fault Refusal :=
  .next (if s.on Reg.MAR_STAT_STATE && s.on (Hid.flowValid f) && s.rd Reg.MAR_AGE_TIME != 0
        && decide (s.idleFrom f + 4000 * s.rd Reg.MAR_AGE_TIME ≤ s.now) then s.retire f 1
    else s)

/-! ### Epochs and the tree (R128 to R134) -/

/-- A close (R129, R130): the leaves freeze, the ledgers are kept as they stand, and publication is due. -/
def State.epochClose (s : State) : State :=
  let k := s.epoch
  let unit := 4000 * s.rd Reg.MAR_EPOCH_LEN_LEN
  let s1 := State.each (List.range 256) (fun i t => State.each (List.range 16)
    (fun c u => u.wr (Hid.ledCopy i c) (u.rd (Hid.ledger i c))) t) s
  let s2 := ((s1.wr Hid.epNum k).wr Reg.MAR_SNAP_EP k).wr Hid.pubTs (s.now / unit * unit)
  let s3 := ((s2.wr Hid.pubSkip (min 255 (s.rd Hid.epSkip))).wr Hid.epSkip 0).wr Hid.pubLost (s.rd Hid.epLost)
  (s3.wr Hid.epLost 0).wr Hid.pubPend 1

/-- The timebase passes `n` multiples of the epoch length at once (R129, R134): all but the last are skipped, and all
are while HOLD or an EXPORT keeps the close away. -/
def State.epochPass (s : State) (n : Nat) : State :=
  if !s.on Reg.MAR_STAT_STATE || n == 0 then s
  else if s.on Reg.MAR_CTRL_HOLD || s.on Reg.MAR_STAT_EXPORT_BUSY then s.inc Hid.epSkip n
  else (s.inc Hid.epSkip (n - 1)).epochClose

/-- EPOCH_CLOSE (R129, R130, R134): the timebase passes a multiple of the epoch length. -/
def execEpochClose (s : State) : Host.Outcome State Fault Refusal := .next (s.epochPass 1)

/-- A node's value at the last close (R128, R131). -/
def State.nodeSum (s : State) (n c : Nat) : Nat :=
  let l1 (i : Nat) : Nat := (List.range 16).foldl (fun a j => a + s.leafAt (16 * i + j) c) (s.rd (Hid.ledCopy i c))
  let l2 (j : Nat) : Nat := (List.range 16).foldl (fun a i => a + l1 (16 * j + i)) 0
  (if n = 0 then (List.range 16).foldl (fun a j => a + l2 j) 0 else if n < 17 then l2 (n - 1) else l1 (n - 17)) % 2 ^ 64

/-- MAR_SNAP_FLAGS as a word. -/
def State.snapFlags (s : State) : Nat :=
  s.rd Reg.MAR_SNAP_FLAGS_LOST + s.rd Reg.MAR_SNAP_FLAGS_SKIPPED * 2 ^ 16 + s.rd Reg.MAR_SNAP_FLAGS_INEXACT * 2 ^ 30
    + s.rd Reg.MAR_SNAP_FLAGS_REBUILT * 2 ^ 31

/-- Some level-1 node is inexact (R139). -/
def State.inexact (s : State) : Bool := (List.range 8).any (fun m => s.rd (Reg.MAR_INEXACT m) != 0)

/-- TREE_PUBLISH (R131, R132, R136): the interior nodes of the last close are published, and the history entry is
written. `rebuilt` says that the sweep met an uncorrectable node that it had built, and recomputed it. -/
def execTreePublish (rebuilt : Bool) (s : State) : Host.Outcome State Fault Refusal :=
  .next (if !s.on Hid.pubPend then s
    else
      let reb := rebuilt || (List.range 273).any (fun n => s.on (Hid.nodeBad n))
      let s0 := if rebuilt then s.classErr 4 true else s
      let s1 := State.each (List.range 273) (fun n t =>
        (State.each (List.range 16) (fun c u => u.wr (Hid.node n c) (s.nodeSum n c)) t).wr (Hid.nodeBad n) 0) s0
      let s2 := (((((s1.wr Reg.MAR_SNAP_TS (s.rd Hid.pubTs)).wr Reg.MAR_SNAP_FLAGS_REBUILT (b2n reb)).wr
        Reg.MAR_SNAP_FLAGS_INEXACT (b2n s.inexact)).wr Reg.MAR_SNAP_FLAGS_SKIPPED (s.rd Hid.pubSkip)).wr
        Reg.MAR_SNAP_FLAGS_LOST (s.rd Hid.pubLost)).wr Hid.pubPend 0
      let k := s.rd Hid.epNum
      let s3 := if k % 2 ^ s.rd Reg.MAR_CTRL_EP_EVT_SHIFT = 0 then s2.marEvent 1 else s2
      let s4 := if reb then s3.marEvent 5 else s3
      let body := (List.range 273).flatMap (fun n => (List.range 16).flatMap (fun c => leBytes 8 (s4.rd (Hid.node n c))))
      s4.marWrite (histAddr k)
        (leBytes 8 k ++ leBytes 8 (s.rd Hid.pubTs) ++ leBytes 4 s4.snapFlags ++ List.replicate 108 0 ++ body))

/-- A read meets a node with an uncorrectable error (R109, R136): it is BAD. -/
def State.nodeErr (s : State) (n : Nat) : State :=
  ((s.classErr 4 true).wr Reg.MAR_STAT_NODE_ERR 1).wr (Hid.nodeBad n) 1

/-- A read of a node through the tree window (R131, R136): it waits until publication, and gives all ones for a node that
cannot be read, which is then BAD. -/
def State.nodeRead (s : State) (n c : Nat) (bad : Bool) : Option (Nat × State) :=
  if s.on Hid.pubPend then none
  else if bad || s.on (Hid.nodeBad n) then some (2 ^ 64 - 1, s.nodeErr n)
  else some (s.rd (Hid.node n c), s)

/-- TREE_WINDOW_READ (R131, R136). -/
def execTreeWindowRead (n : Fin 273) (c : Fin 16) (bad : Bool) (s : State) : Host.Outcome State Fault Refusal :=
  .next (match s.nodeRead n c bad with
    | none => s.answer .held []
    | some (v, t) => t.answer .ok (leBytes 8 v))

/-- LEAF_WINDOW_READ (R130, R133): a leaf at the last close. -/
def execLeafWindowRead (f : Fin 4096) (c : Fin 16) (s : State) : Host.Outcome State Fault Refusal :=
  .next (s.answer .ok (leBytes 8 (s.leafAt f c)))

/-! ### Errors of the flow store (R136 to R140) -/

/-- The leaf that a part belongs to. -/
def storeLeaf : StorePart → Option Nat
  | .live f | .snap f | .tag f | .tracker f | .bins f | .times f => some f
  | .ledger _ | .ledCopy _ => none

/-- The fields of a part that word `w` of it may hold: sixteen counters word by word, and for the other parts, whose layout
the spec does not give, all of them. -/
def storeFlds (w : Nat) : StorePart → List Fld
  | .live f => [Hid.live f w]
  | .snap f => [Hid.snap f w]
  | .ledger i => [Hid.ledger i w]
  | .ledCopy i => [Hid.ledCopy i w]
  | .tag f => [Hid.epTag f, Hid.evSince f]
  | .tracker f => [Hid.flowSeqV f, Hid.flowHigh f, Hid.flowWin f, Hid.flowResync f]
  | .bins f => (List.range 32).map (Hid.hist f)
  | .times f => [Hid.flowFirst f, Hid.flowLast f]

/-- What the code says of an upset word of the flow store (R109, R244). -/
def storeVerdict (u : StoreUpset) : Verdict :=
  let y := codeOf 8 u.data.toNat ^^^ u.chk.toNat
  verdict 8 (y % 256) (y / 256)

/-- The data bits that an upset leaves inverted after correction. -/
def storeLeft (u : StoreUpset) : Nat :=
  match storeVerdict u with
  | .fix (some b) => u.data.toNat ^^^ 2 ^ b
  | _ => u.data.toNat

/-- An upset that the code does not call uncorrectable: a correctable error is counted and corrected; bits that the code
leaves inverted stand so in a counter, and give the fields of another part values that the spec leaves open. -/
def State.storeFix (u : StoreUpset) (s : State) : State :=
  let s1 := match storeVerdict u with
    | .fix _ => s.classErr 4 false
    | _ => s
  if storeLeft u = 0 then s1
  else match storeFlds u.word.val u.part with
    | [f] => s1.wr f (s1.rd f ^^^ storeLeft u)
    | l => State.each l (fun f t => t.wrFree f) s1

/-- A level-1 node is no longer exact (R139). -/
def State.markInexact (s : State) (i : Nat) : State := (s.setB (Reg.MAR_INEXACT (i / 32)) (i % 32)).marEvent 8

/-- The close value of a leaf of whose entry some parts cannot be read (R130, R137): SNAP or LIVE, whichever holds it, or
what its parent's published value leaves; none where neither can be had. Between a close and its publication the parent's
published value is that of the close before. -/
def State.closeValue (s : State) (bad : List StorePart) (f c : Nat) : Option Nat :=
  let g := Fin.ofNat 4096 f
  let i := f / 16
  let cur := s.rd (Hid.epTag f) == s.epoch
  if !bad.contains (.tag g) && cur && !bad.contains (.snap g) then some (s.rd (Hid.snap f c))
  else if !bad.contains (.tag g) && !cur && !bad.contains (.live g) then some (s.rd (Hid.live f c))
  else if bad.any (fun b => (storeLeaf b).any (fun h => h != f && h / 16 == i)) || bad.contains (.ledCopy (Fin.ofNat 256 i))
      || s.on (Hid.nodeBad (17 + i)) || s.on Hid.pubPend then none
  else
    let rest := (List.range 16).foldl (fun a j => if 16 * i + j = f then a else a + s.leafAt (16 * i + j) c) (s.rd (Hid.ledCopy i c))
    some ((s.rd (Hid.node (17 + i) c) + 2 ^ 72 - rest) % 2 ^ 64)

/-- Steps 1 and 2 of R137 for the ledger of a LOST leaf's parent: it takes LIVE where that can be read, or else the close
value; where that cannot be had, it is left unchanged and the node is not exact (R139). -/
def State.lostLedger (s : State) (bad : List StorePart) (f : Nat) : State :=
  let i := f / 16
  if !bad.contains (.live (Fin.ofNat 4096 f)) then
    State.each (List.range 16) (fun c t => t.add (Hid.ledger i c) (s.rd (Hid.live f c))) s
  else if (List.range 16).all (fun c => (s.closeValue bad f c).isSome) then
    State.each (List.range 16) (fun c t => t.add (Hid.ledger i c) ((s.closeValue bad f c).getD 0)) s
  else s.markInexact i

/-- A LOST leaf shows its close value until the next close (R130, R137); where it cannot be had, what it shows is open. -/
def State.lostSnap (s : State) (close : Nat → Option Nat) (f : Nat) : State :=
  (State.each (List.range 16) (fun c t => match close c with
    | some v => t.wr (Hid.snap f c) v
    | none => t.wrFree (Hid.snap f c)) s).wr (Hid.epTag f) s.epoch

/-- Step 4 of R137: `ev` is EV_SINCE; where the tag word cannot be read it is not known, and UNBOUNDED says so (R138). -/
def State.lostCount (s : State) (ev : Option Nat) : State :=
  let s1 := match ev with
    | some n => s.add Reg.MAR_LOSS n
    | none =>
      let v := s.fresh
      (v.2.add Reg.MAR_LOSS v.1).wr Reg.MAR_LOSS_STAT_UNBOUNDED 1
  ((s1.inc Reg.MAR_LOSS_STAT_LEAVES 1).inc Hid.epLost 1).marEvent 4

/-- A leaf becomes LOST (R137, R138). -/
def State.leafLost (bad : List StorePart) (f : Nat) (s : State) : State :=
  let s1 := ((s.lostLedger bad f).lostSnap (s.closeValue bad f) f).leafZero f
  let s2 := (((s1.wr (Hid.flowFirst f) 0).wr (Hid.flowLast f) 0).wr (Hid.flowSeen f) 0).wr (Hid.flowLost f) 1
  (s2.wr (Hid.evSince f) 0).lostCount (if bad.contains (.tag (Fin.ofNat 4096 f)) then none else some (s.evNow f))

/-- An unreadable ledger is set to zero (R139). -/
def State.ledgerLost (i : Nat) (s : State) : State :=
  (State.each (List.range 16) (fun c t => t.wr (Hid.ledger i c) 0) s).markInexact i

/-- FLOW_STORE_SCRUB (R109, R137 to R139, R244): the store is read through, and `ups` are the words that have been upset.
Each is judged by its code: single errors are corrected, and parts with an uncorrectable word cannot be read.
DESIGN CHOICE (log 93): a copy of a ledger that cannot be read, kept for the pending close, is treated as R139 treats a ledger
in that the node is not exact; the ledger itself is left as it is. -/
def execFlowStoreScrub (ups : List StoreUpset) (s : State) : Host.Outcome State Fault Refusal :=
  let bad := ((ups.filter (fun u => storeVerdict u == .bad)).map (fun u => u.part)).dedup
  let s0 := State.each (ups.filter (fun u => storeVerdict u != .bad)) State.storeFix s
  let s1 := State.each (ups.filter (fun u => storeVerdict u == .bad)) (fun _ t => t.classErr 4 true) s0
  let s2 := State.each (bad.filterMap storeLeaf).dedup (State.leafLost bad) s1
  .next (State.each bad (fun b t => match b with
    | .ledger i => t.ledgerLost i
    | .ledCopy i => t.markInexact i
    | _ => t) s2)

/-- BUCKET_REBUILD (R140): a bucket is built again from the contexts whose H names it and that are not found in their other
bucket; a context that cannot be read retires its flow. -/
def execBucketRebuild (b : Fin 256) (s : State) : Host.Outcome State Fault Refusal :=
  .next (if !s.on (Hid.bktBad b) then s
    else
      let s0 := State.each (List.range 4096) (fun f t =>
        if t.on (Hid.flowValid f) then
          let (_, bad, u) := t.marRead (ctxAddr f + 64) 1
          if bad then u.retire f 4 else u
        else t) s
      let want (f : Nat) : Bool :=
        let (x, y) := buckets (s0.marWord (ctxAddr f + 64))
        let other := if x = b.val then y else x
        s0.on (Hid.flowValid f) && (x == b.val || y == b.val) && (List.range 32).all (fun j =>
          let w := s0.marWord (slotAddr other j)
          !(bit w 60 && bits w 59 48 == f))
      let fs := (List.range 4096).filter want
      let s1 := s0.marWrite (slotAddr b 0) (List.replicate 512 0)
      let s2 := State.each (fs.zip (List.range 32)) (fun x t =>
        let h := s0.marWord (ctxAddr x.1 + 64)
        t.marWrite (slotAddr b x.2) (leBytes 8 (h / 2 ^ 16 + x.1 * 2 ^ 48 + 2 ^ 60) ++ leBytes 8 (s0.marWord (ctxAddr x.1 + 80) % 64))) s1
      (s2.wr (Hid.bktBad b) 0).marEvent 9)

/-! ### Export (R135) -/

/-- The flow status of a flow as in the MAR_FLOW window, 32 bytes. -/
def State.flowStatus (s : State) (f : Nat) : List Byte :=
  leBytes 4 (s.rd (Hid.flowValid f) + 2 * s.rd (Hid.flowLost f) + 4 * s.rd (Hid.flowSeqV f) + 16 * s.rd (Hid.flowPort f)
    + 2 ^ 16 * s.rd (Hid.flowResync f))
  ++ leBytes 4 (s.rd (Hid.flowHigh f)) ++ leBytes 8 (s.rd (Hid.flowFirst f)) ++ leBytes 8 (s.rd (Hid.flowLast f))
  ++ leBytes 8 (s.rd (Hid.flowWin f))

/-- One flow of the export image. -/
def State.exportFlow (s : State) (f : Nat) : List Byte :=
  if !s.on (Hid.flowValid f) then List.replicate 512 0
  else
    (List.range 16).flatMap (fun i => leBytes 8 (s.marWord (ctxAddr f + 8 * i)))
    ++ (List.range 16).flatMap (fun c => leBytes 8 (s.leafAt f c))
    ++ (List.range 32).flatMap (fun b => leBytes 4 (s.rd (Hid.hist f b)))
    ++ s.flowStatus f ++ List.replicate 96 0

/-- When EXPORT is accepted each flow is copied, with what the header says of that moment (R135). -/
def State.exportTake (s : State) : State :=
  let s1 := State.each (List.range 4096) (fun f t => t.wr (Hid.expFlow f) (ofLeBytes (s.exportFlow f))) s
  (((s1.wr Hid.expTs s.now).wr Hid.expLive (s.rd Reg.MAR_LIVE)).wr Hid.expBase (s.rd Reg.MAR_EXP_BASE)).wr Hid.expKey
    (s.rd Reg.MAR_EXP_CFG_KEY)

/-- The export image, of the published epoch and the copies taken at acceptance (R135). A node that cannot be read gives all
ones (R136). -/
def State.exportImage (s : State) : List Byte :=
  leBytes 8 (s.rd Hid.epNum) ++ leBytes 8 (s.rd Reg.MAR_SNAP_TS) ++ leBytes 8 (s.rd Hid.expTs) ++ leBytes 4 s.snapFlags
  ++ leBytes 4 (s.rd Hid.expLive) ++ List.replicate 480 0
  ++ (List.range 273).flatMap (fun n => (List.range 16).flatMap (fun c =>
      leBytes 8 (if s.on (Hid.nodeBad n) then 2 ^ 64 - 1 else s.rd (Hid.node n c))))
  ++ (List.range 4096).flatMap (fun f => leBytes 512 (s.rd (Hid.expFlow f)))

/-! ### Commands (R141, R144) -/

/-- Empty the table, contexts, flow store, ledgers and trees; the epoch number is 0 (R141, R144). DESIGN CHOICE (log 94): with the
trees MAR_SNAP_TS and MAR_SNAP_FLAGS, which describe the snapshot that is gone, are 0 too; the spec does not name them. -/
def State.marEmpty (s : State) : State :=
  let s1 := (s.resetBlocks Hid.grpMAR.1 Hid.grpMAR.2).marWipe
  let s2 := State.each (List.range 8) (fun m t => t.wr (Reg.MAR_INEXACT m) 0) s1
  { ((((((s2.wr Reg.MAR_LIVE 0).wr Reg.MAR_SNAP_EP 0).wr Reg.MAR_SNAP_TS 0).wr Reg.MAR_SNAP_FLAGS_REBUILT 0).wr
      Reg.MAR_SNAP_FLAGS_INEXACT 0).wr Reg.MAR_SNAP_FLAGS_SKIPPED 0).wr Reg.MAR_SNAP_FLAGS_LOST 0 with keyFifo := [] }

def State.marStart (s : State) : State :=
  if !s.on Reg.MAR_STAT_STATE && !s.on Reg.MAR_STAT_BUSY && !s.bstIs 0 then s.wr Reg.MAR_STAT_STATE 1 else s.marReject 0x01
def State.marStopCmd (s : State) : State :=
  if s.on Reg.MAR_STAT_STATE then s.wr Hid.marStop 1 else s.marReject 0x02
def State.marClearAll (s : State) : State :=
  if !s.on Reg.MAR_STAT_STATE && !s.on Reg.MAR_STAT_BUSY && !s.on Reg.MAR_STAT_EXPORT_BUSY then
    s.marEmpty.wr Reg.MAR_STAT_BUSY 1
  else s.marReject 0x03
def State.marExport (s : State) : State :=
  if !s.on Reg.MAR_STAT_BUSY && !s.on Reg.MAR_STAT_EXPORT_BUSY && s.rd Hid.epNum != 0 then
    s.exportTake.wr Reg.MAR_STAT_EXPORT_BUSY 1
  else s.marReject 0x04
def State.marRetireCmd (s : State) (f : Nat) : State :=
  if s.on (Hid.flowValid f) && !s.on Reg.MAR_STAT_BUSY then s.retire f 3 else s.marReject 0x05
def State.marClrCnt (s : State) : State :=
  let s1 := State.each (List.range 4) (fun p t => (((t.wr (Reg.MAR_NOFLOW p) 0).wr (Reg.MAR_PIPE_DROP p) 0).wr
    (Reg.MAR_PIPE_LATE p) 0).wr (Reg.MAR_MISS p) 0) s
  (((s1.wr Reg.MAR_RLOG_DROP 0).wr Reg.MAR_LOSS 0).wr Reg.MAR_LOSS_STAT_UNBOUNDED 0).wr Reg.MAR_LOSS_STAT_LEAVES 0

/-- A command written to MAR_CMD (R141). -/
def State.marCmd (s : State) (code f : Nat) : State :=
  if code = 0x01 then s.marStart else if code = 0x02 then s.marStopCmd else if code = 0x03 then s.marClearAll
  else if code = 0x04 then s.marExport else if code = 0x05 then s.marRetireCmd f else if code = 0x06 then s.marClrCnt
  else s.marReject code

/-- MAR_START (R141). -/
def execMarStart (s : State) : Host.Outcome State Fault Refusal := .next s.marStart
/-- MAR_STOP (R141): the pending entries are applied first. -/
def execMarStop (s : State) : Host.Outcome State Fault Refusal := .next s.marStopCmd
/-- MAR_STOP_DONE (R141): no entry is pending, and Marigold enters OFF without a close. -/
def execMarStopDone (s : State) : Host.Outcome State Fault Refusal :=
  .next (if s.on Hid.marStop && s.keyFifo == [] then (s.wr Hid.marStop 0).wr Reg.MAR_STAT_STATE 0 else s)
/-- MAR_CLEAR_ALL (R141). -/
def execMarClearAll (s : State) : Host.Outcome State Fault Refusal := .next s.marClearAll
/-- MAR_CLEAR_DONE (R141, R144): clearing has ended. -/
def execMarClearDone (s : State) : Host.Outcome State Fault Refusal := .next (s.wr Reg.MAR_STAT_BUSY 0)
/-- MAR_EXPORT (R135, R141). -/
def execMarExport (s : State) : Host.Outcome State Fault Refusal := .next s.marExport
/-- MAR_EXPORT_DONE (R135): the image is written. It waits for the publication of a close that came just before EXPORT, and
while memory holds the write. DESIGN CHOICE (log 95): an image that memory refuses is lost, and the export ends all the same. -/
def execMarExportDone (s : State) : Host.Outcome State Fault Refusal :=
  .next (if s.on Reg.MAR_STAT_EXPORT_BUSY = false ∨ s.on Hid.pubPend then s
    else match s.memWrite (s.req .marigold (s.rd Hid.expKey)) (s.rd Hid.expBase) s.exportImage with
      | (.held, t) => t
      | (_, t) =>
        let t1 := State.each (List.range 273) (fun n u => if s.on (Hid.nodeBad n) then u.nodeErr n else u) t
        (t1.wr Reg.MAR_STAT_EXPORT_BUSY 0).marEvent 6)
/-- MAR_RETIRE (R120, R141). -/
def execMarRetire (f : Fin 4096) (s : State) : Host.Outcome State Fault Refusal := .next (s.marRetireCmd f)
/-- MAR_CLR_CNT (R141). -/
def execMarClrCnt (s : State) : Host.Outcome State Fault Refusal := .next s.marClrCnt

/-- An ENGINE reset of Marigold (R144). -/
def State.marReset (s : State) : State := (s.marEmpty.resetBlocks 0x017 0x018).wr Reg.MAR_STAT_BUSY 1

end Sys2Proof.Machine
end

