-- ==== Sys2Proof/Machine/Ramzel.lean ====
section
/-! DEFINITION. The Ramzel links, the timestamp exchange and the timebase (chapter 12, R362 to R374). -/

namespace Sys2Proof.Machine

/-- Bit `i` of RLK_EVT with event 248 + `i` (R380). -/
def State.rlkEvt (s : State) (i : Nat) : State := s.raiseB Reg.RLK_EVT_EVT i (248 + i)

/-- Bit `i` of TSB_EVT with event 228 + `i` (R380). -/
def State.tsbEvt (s : State) (i : Nat) : State := s.raiseB Reg.TSB_EVT_EVT i (228 + i)

/-- The 48-bit device identity (R366, R444). -/
def State.devId (s : State) : Nat := s.rd (Reg.PEO_FUSE 0) + s.rd (Reg.PEO_FUSE 1) % 2 ^ 16 * 2 ^ 32

/-- State of a link (R367): 0 DISABLED, 1 PHY, 2 OFFER, 3 RATE, 4 ACTIVE, 5 FAULT. -/
def State.rlkState (s : State) (l : Nat) : Nat := s.rd (Reg.RLK_LINK_STAT_STATE l)

/-- Credits held for a channel: 0 DATA0, 1 DATA1, 2 MGMT (R369). -/
def rlkCredit (l c : Nat) : Fld :=
  if c = 0 then Reg.RLK_CREDIT_DATA0 l else if c = 1 then Reg.RLK_CREDIT_DATA1 l else Reg.RLK_CREDIT_MGMT l

/-- Rows that a channel's receiver holds (R369). -/
def rlkDepth (c : Nat) : Nat := if c = 2 then 8 else 64

/-- The retry buffer of a link. -/
def State.retry (s : State) (l : Nat) : List RlkRow := Tab.getD s.rlkRetry l []

/-- Set the retry buffer of a link. -/
def State.setRetry (s : State) (l : Nat) (x : List RlkRow) : State := { s with rlkRetry := Tab.set s.rlkRetry l [] x }

/-- The receive FIFO of a stream. -/
def State.rlkRows (s : State) (l c : Nat) : List RlkRow := Tab.getD s.rlkFifo (2 * l + c) []

/-- Set the receive FIFO of a stream. -/
def State.setRlkRows (s : State) (l c : Nat) (x : List RlkRow) : State :=
  { s with rlkFifo := Tab.set s.rlkFifo (2 * l + c) [] x }

/-! ### The row (R364) -/

/-- Bits [479:0] of a row. -/
def rlkBits (r : RlkRow) : Nat :=
  r.type.val + r.seq.toNat * 2 ^ 4 + r.ack.toNat * 2 ^ 12 + r.crCh.val * 2 ^ 20 + r.crCnt.val * 2 ^ 22 + r.trig.toNat * 2 ^ 28
    + b2n r.last * 2 ^ 36 + r.payload.toNat * 2 ^ 64

/-- The CRC of a row: CRC-32 over bits [479:0]. DESIGN CHOICE, log entry 40: bytes in ascending order, each most significant bit
first, and no final XOR. -/
def rlkCrc (x : Nat) : Nat := crcBytes 32 0x04C11DB7 0xFFFFFFFF (leBytes 60 x)

/-- The 512 bits of a row; logical lane k carries bits [64k+63:64k]. -/
def rlkWord (r : RlkRow) : BitVec 512 := BitVec.ofNat 512 (rlkBits r + rlkCrc (rlkBits r) * 2 ^ 480)

/-- The fields of a row. -/
def rowOf (w : BitVec 512) : RlkRow :=
  let x := w.toNat
  ⟨Fin.ofNat 16 (bits x 3 0), BitVec.ofNat 8 (bits x 11 4), BitVec.ofNat 8 (bits x 19 12), Fin.ofNat 4 (bits x 21 20),
    Fin.ofNat 64 (bits x 27 22), BitVec.ofNat 8 (bits x 35 28), bit x 36, BitVec.ofNat 416 (bits x 479 64)⟩

/-- The CRC of a received row is right. -/
def rowCrcOk (w : BitVec 512) : Bool := rlkCrc (w.toNat % 2 ^ 480) == w.toNat / 2 ^ 480

/-! ### Sending rows (R364, R368, R369, R371) -/

/-- The lanes of a link that its rows go out on, as a mask: those whose drivers are on, which neither a rail nor a short keeps in
electrical idle (R55); in fallback logical lanes 0 to 3 alone, each row spread over two slots (R365). -/
def State.rlkLanes (s : State) (l : Nat) : Nat :=
  if s.on (Hid.rlkDrvOff l) then 0
  else (List.range (if s.on (Reg.RLK_LINK_STAT_FALLBACK l) then 4 else 8)).foldl (fun m k => m + b2n (!s.on (Hid.rlkLaneIdle l k)) * 2 ^ k) 0

/-- The channels whose credits the link's version has (R365): 1.0 has no DATA1. -/
def State.rlkChans (s : State) (l : Nat) : List Nat := if s.rd (Reg.RLK_LINK_STAT_VER l) = 0 then [0, 2] else [0, 1, 2]

/-- A row is sent with the link's ACK, credits of one channel and trigger counts (R364, R365, R369, R371). -/
def State.rlkSend (s : State) (l : Nat) (type : Fin 16) (seq : Nat) (last : Bool) (payload : BitVec 416) : State :=
  let c := ((s.rlkChans l).find? (fun c => s.rd (Hid.rlkRet l c) != 0)).getD 3
  let n := if c = 3 then 0 else min 63 (s.rd (Hid.rlkRet l c))
  let trig := (List.range 4).foldl (fun a k => a + s.rd (Hid.rlkTrigTx l k) * 4 ^ k) 0
  let row : RlkRow := ⟨type, BitVec.ofNat 8 seq, BitVec.ofNat 8 (s.rd (Hid.rlkSeqRx l) + 255), Fin.ofNat 4 (if c = 3 then 0 else c + 1),
    Fin.ofNat 64 n, BitVec.ofNat 8 trig, last, payload⟩
  let s1 := if c = 3 then s else s.wr (Hid.rlkRet l c) (s.rd (Hid.rlkRet l c) - n)
  let s2 := State.each (List.range 4) (fun k t => t.wr (Hid.rlkTrigNew l k) 0) s1
  if s.rlkLanes l = 0 then s2 else s2.emit (.rlkRow l (s.rlkLanes l) (rlkWord row))

/-- An IDLE row is sent while the link is ACTIVE. -/
def State.rlkIdle (s : State) (l : Nat) : State := if s.rlkState l = 4 then s.rlkSend l 0 0 false 0 else s

/-- A numbered row can be sent on a channel: ACTIVE, room in the retry buffer, and a credit (R368, R369). -/
def State.rlkMay (s : State) (l c : Nat) : Bool :=
  s.rlkState l == 4 && decide ((s.retry l).length < 128) && s.rd (rlkCredit l c) != 0

/-- A numbered row is sent against a credit and kept in the retry buffer (R368, R369). -/
def State.rlkNumbered (s : State) (l c : Nat) (last : Bool) (payload : BitVec 416) : State :=
  let seq := s.rd (Hid.rlkSeqTx l)
  let row : RlkRow := ⟨Fin.ofNat 16 (c + 1), BitVec.ofNat 8 seq, 0, 0, 0, 0, last, payload⟩
  (((s.setRetry l (s.retry l ++ [row])).wr (rlkCredit l c) (s.rd (rlkCredit l c) - 1)).add (Hid.rlkSeqTx l) 1).rlkSend l
    (Fin.ofNat 16 (c + 1)) seq last payload

/-- Replay of every row in the retry buffer (R367, R368). -/
def State.rlkReplay (s : State) (l : Nat) : State :=
  if (s.retry l).isEmpty then s
  else (s.retry l).foldl (fun t r => t.rlkSend l r.type r.seq.toNat r.last r.payload) (s.inc (Reg.RLK_REPLAY l) 1)

/-- The part's READY in an offer (R366): start-up is complete and HOLD = 0. -/
def State.rlkReady (s : State) (l : Nat) : Bool := s.rd Reg.SYS_BOOT_STAT_PHASE == 5 && !s.on (Reg.RLK_CTRL_HOLD l)

/-- The payload of the part's OFFER (R366). -/
def State.offerPayload (s : State) (l : Nat) : Nat :=
  s.rd (Reg.RLK_CTRL_MAX_VER l) + s.rd (Reg.RLK_CTRL_MIN_VER l) * 2 ^ 4 + b2n (s.rlkReady l) * 2 ^ 8
    + s.rd (Reg.RLK_CTRL_RATE_MAX l) * 2 ^ 9 + s.rd (Reg.RLK_CTRL_TS_ROLE l) * 2 ^ 12
    + s.rd (Reg.RLK_LINK_STAT_FALLBACK l) * 2 ^ 14 + s.devId * 2 ^ 16

/-- An OFFER row is sent in OFFER state. -/
def State.sendOffer (s : State) (l : Nat) : State :=
  if s.rlkState l = 2 then s.rlkSend l 4 0 false (BitVec.ofNat 416 (s.offerPayload l)) else s

/-! ### States of a link (R367) -/

/-- The retry buffer and the receive FIFOs are discarded and counted; the sequence starts anew. -/
def State.rlkDiscard (s : State) (l : Nat) : State :=
  let n := (s.retry l).length + (s.rlkRows l 0).length + (s.rlkRows l 1).length
  let s1 := ((s.setRetry l []).setRlkRows l 0 []).setRlkRows l 1 []
  let s2 := [Hid.rlkSeqTx l, Hid.rlkSeqRx l, Hid.rlkWait l, Hid.rlkRet l 0, Hid.rlkRet l 1, Hid.rlkRet l 2, Hid.rlkNakSeq l,
    Hid.rlkNakCnt l].foldl (fun t f => t.clr f) s1
  if n = 0 then s2 else (s2.inc (Reg.RLK_LOST l) n).rlkEvt 7

/-- Lanes and shared trigger sources of a link that does not run. -/
def State.rlkQuiet (s : State) (l : Nat) : State :=
  let s1 := State.each (List.range 8) (fun k t =>
    [Reg.RLK_LN_STAT_SKEW l k, Reg.RLK_LN_STAT_LOGICAL l k, Reg.RLK_LN_STAT_POL_INV l k, Reg.RLK_LN_STAT_MARKER_LOCK l k,
      Reg.RLK_LN_STAT_BLOCK_LOCK l k, Reg.RLK_LN_STAT_SIG_DET l k, Hid.rlkSinceMkr l k].foldl (fun u f => u.clr f) t) s
  State.each (List.range 4) (fun k t => t.wr (Hid.rlkTrig l k) 0) s1

/-- FBDIV and FRAC of a link's PLL at a rate (R363): 0 25.0, 1 32.0, 2 40.0 Gb/s, from the 156.25 MHz or the 100 MHz clock. -/
def rlkPll (rate refsel : Nat) : Nat × Nat :=
  match rate, refsel with
  | 0, 0 => (160, 0)
  | 0, _ => (250, 0)
  | 1, 0 => (204, 0xCCCCCC)
  | 1, _ => (320, 0)
  | _, 0 => (256, 0)
  | _, _ => (400, 0)

/-- Enter PHY at a rate: 0 25.0, 1 32.0, 2 40.0 Gb/s. The part programs the link's PLL (R363). -/
def State.rlkPhy (s : State) (l rate : Nat) : State :=
  let f := rlkPll rate (s.rd (Reg.RLK_CTRL_REFSEL l))
  (((((s.rlkQuiet l).wr (Hid.rlkFbdiv l) f.1).wr (Hid.rlkFrac l) f.2).wr (Reg.RLK_LINK_STAT_STATE l) 1).wr
    (Reg.RLK_LINK_STAT_RATE l) rate).wr (Reg.RLK_LINK_STAT_FALLBACK l) 0

/-- Enter FAULT with a cause: 1 PHY, 2 VERSION. -/
def State.rlkFault (s : State) (l cause : Nat) : State :=
  ((((s.rlkQuiet l).wr (Reg.RLK_LINK_STAT_STATE l) 5).wr (Reg.RLK_LINK_STAT_FAULT_CAUSE l) cause).rlkDiscard l).rlkEvt (3 + 3 * l)

/-- An ACTIVE link goes down: PHY at 25.0 Gb/s, event 250 + 3l. -/
def State.rlkDown (s : State) (l : Nat) : State := (s.rlkPhy l 0).rlkEvt (2 + 3 * l)

/-- EN = 0 (R367). -/
def State.rlkOff (s : State) (l : Nat) : State :=
  let s1 := (s.rlkQuiet l).rlkDiscard l
  [Reg.RLK_LINK_STAT_STATE l, Reg.RLK_LINK_STAT_RATE l, Reg.RLK_LINK_STAT_VER l, Reg.RLK_LINK_STAT_FALLBACK l,
    Reg.RLK_LINK_STAT_PEER_READY l, Reg.RLK_LINK_STAT_TS_CONFLICT l, Reg.RLK_LINK_STAT_FAULT_CAUSE l, Hid.rlkOfferV l,
    rlkCredit l 0, rlkCredit l 1, rlkCredit l 2].foldl (fun t f => t.clr f) s1

/-- Enter ACTIVE: RLK_PEER is filled, credits start full; the same peer gets every unacknowledged row again. -/
def State.rlkActive (s : State) (l : Nat) : State :=
  let o := s.rd (Hid.rlkOffer l)
  let peer := bits o 63 16
  let role := bits o 13 12
  let mine := s.rd (Reg.RLK_CTRL_TS_ROLE l)
  let s1 := if peer = s.rd (Reg.RLK_PEER l) then s else s.rlkDiscard l
  let s2 := ((s1.wr (Reg.RLK_PEER l) peer).wr (Hid.rlkPeerRole l) role).wr (Reg.RLK_LINK_STAT_TS_CONFLICT l)
    (b2n (mine == role && mine != 0))
  let s3 := State.each [0, 1, 2] (fun c t => (t.wr (rlkCredit l c) (rlkDepth c)).wr (Hid.rlkRet l c) 0) s2
  (((s3.wr (Reg.RLK_LINK_STAT_STATE l) 4).wr (Hid.rlkNakCnt l) 0).rlkEvt (1 + 3 * l)).rlkReplay l

/-- Offers have been exchanged (R365, R367): version, then readiness and rate, are agreed. -/
def State.rlkAgree (s : State) (l : Nat) : State :=
  if s.rlkState l ≠ 2 ∨ !s.on (Hid.rlkOfferV l) then s
  else
    let o := s.rd (Hid.rlkOffer l)
    let ver := min (s.rd (Reg.RLK_CTRL_MAX_VER l)) (bits o 1 0)
    if ver < max (s.rd (Reg.RLK_CTRL_MIN_VER l)) (bits o 5 4) then s.rlkFault l 2
    else if !s.rlkReady l || !bit o 8 then s
    else
      let rate := if ver = 0 then 0 else min (s.rd (Reg.RLK_CTRL_RATE_MAX l)) (bits o 10 9)
      let s1 := s.wr (Reg.RLK_LINK_STAT_VER l) ver
      if s.rd (Reg.RLK_LINK_STAT_RATE l) < rate then (s1.wr (Hid.rlkAgreed l) rate).wr (Reg.RLK_LINK_STAT_STATE l) 3
      else s1.rlkActive l

/-- The part's own READY has changed: it offers at once (R366), and the link may agree. -/
def State.rlkReadyChanged (s : State) (l : Nat) : State := (s.sendOffer l).rlkAgree l

/-- A write of RLK_CTRL. -/
def State.rlkCtrlWrite (s : State) (l w : Nat) : State :=
  let t := s.writeReg 0x00A (0x100 + 0x100 * l) w
  let was := s.on (Reg.RLK_CTRL_EN l)
  let now := t.on (Reg.RLK_CTRL_EN l)
  if was && !now then t.rlkOff l
  else if !was && now then
    State.each (List.range 8) (fun k u => u.wr (Hid.rlkLaneIdle l k) 0) ((t.rlkPhy l 0).wr (Hid.rlkDrvOff l) 0)
  else if s.rlkReady l != t.rlkReady l then t.rlkReadyChanged l
  else t

/-- RLK_ENABLE (R367): RLK_CTRL is written with EN = 1. -/
def execRlkEnable (l : Fin 2) (w : Word) (s : State) : Host.Outcome State Fault Refusal := .next (s.rlkCtrlWrite l (w.toNat ||| 1))

/-- RLK_DISABLE (R367): RLK_CTRL is written with EN = 0. -/
def execRlkDisable (l : Fin 2) (w : Word) (s : State) : Host.Outcome State Fault Refusal :=
  .next (s.rlkCtrlWrite l (clrBit w.toNat 0))

/-- A lane that has locked in a bring-up: physical and logical lane, inverted polarity, skew in UI. -/
def State.rlkLane (l : Nat) (x : Fin 8 × Fin 8 × Bool × Fin 512) (s : State) : State :=
  let k := x.1.val
  (((((s.wr (Reg.RLK_LN_STAT_LOGICAL l k) x.2.1).wr (Reg.RLK_LN_STAT_POL_INV l k) (b2n x.2.2.1)).wr (Reg.RLK_LN_STAT_SKEW l k)
    x.2.2.2).wr (Reg.RLK_LN_STAT_MARKER_LOCK l k) 1).wr (Reg.RLK_LN_STAT_BLOCK_LOCK l k) 1).wr (Reg.RLK_LN_STAT_SIG_DET l k) 1

/-- A lane of a bring-up whose marker came within the link's DSK_WIN (R38, R362). -/
def State.rlkInWindow (s : State) (l : Nat) (x : Fin 8 × Fin 8 × Bool × Fin 512) : Bool :=
  decide (x.2.2.2.val ≤ dskWin (s.rd (Reg.RLK_CTRL_DSK_WIN l)))

/-- RLK_PHY_UP (R38, R362, R365, R367): bring-up ends with the lanes that have locked: all eight, or logical 0 to 3 at least where
MAX_VER is 2.1, which is fallback; otherwise it fails, as it does with a lane out of window. -/
def execRlkPhyUp (l : Fin 2) (lanes : List (Fin 8 × Fin 8 × Bool × Fin 512)) (s : State) : Host.Outcome State Fault Refusal :=
  .next (if s.rlkState l ≠ 1 then s
    else
      let has (n : Nat) : Bool := (List.range n).all (fun k => lanes.any (fun x => x.2.1.val == k))
      let s1 := State.each lanes (State.rlkLane l) s
      if !lanes.all (s.rlkInWindow l) then s.rlkFault l 1
      else if has 8 then ((s1.wr (Reg.RLK_LINK_STAT_STATE l) 2).wr (Hid.rlkOfferV l) 0).sendOffer l
      else if has 4 && s.rd (Reg.RLK_CTRL_MAX_VER l) == 2 then
        (((s1.wr (Reg.RLK_LINK_STAT_STATE l) 2).wr (Reg.RLK_LINK_STAT_FALLBACK l) 1).wr (Hid.rlkOfferV l) 0).sendOffer l
      else s.rlkFault l 1)

/-- RLK_PHY_FAULT (R367): bring-up fails. -/
def execRlkPhyFault (l : Fin 2) (s : State) : Host.Outcome State Fault Refusal :=
  .next (if s.rlkState l = 1 then s.rlkFault l 1 else s)

/-- RLK_OFFER_TIMER (R366): every 1 ms in OFFER. -/
def execRlkOfferTimer (l : Fin 2) (s : State) : Host.Outcome State Fault Refusal := .next (s.sendOffer l)

/-- RLK_RATE_SWITCH (R367): the second marker after agreement has passed. -/
def execRlkRateSwitch (l : Fin 2) (s : State) : Host.Outcome State Fault Refusal :=
  .next (if s.rlkState l = 3 then s.rlkPhy l (s.rd (Hid.rlkAgreed l)) else s)

/-- RLK_LINK_DOWN (R367): an ACTIVE link loses its PHY. -/
def execRlkLinkDown (l : Fin 2) (s : State) : Host.Outcome State Fault Refusal :=
  .next (if s.rlkState l = 4 then s.rlkDown l else s)

/-! ### Receiving rows (R364, R366 to R369, R371) -/

/-- The trigger counts of a received row (R371): each pulse is shown for a Lantern cycle of its own. -/
def State.rlkTakeTrig (s : State) (l : Nat) (trig : Nat) : State :=
  State.each (List.range 4) (fun k t =>
    let v := trig / 4 ^ k % 4
    let d := (v + 4 - s.rd (Hid.rlkTrigRx l k)) % 4
    (t.wr (Hid.rlkTrigRx l k) v).wr (Hid.rlkTrig l k) (min 65534 (s.rd (Hid.rlkTrig l k) + 2 * d))) s

/-- Rows that an ACK covers leave the retry buffer (R368). -/
def State.rlkTakeAck (s : State) (l ack : Nat) : State :=
  s.setRetry l ((s.retry l).filter (fun r => decide (128 ≤ (ack + 256 - r.seq.toNat) % 256)))

/-- Credits returned in a row (R369); those of a channel that the version does not have are ignored (R365). -/
def State.rlkTakeCredit (s : State) (l ch cnt : Nat) : State :=
  if ch = 0 ∨ !(s.rlkChans l).contains (ch - 1) then s
  else s.wr (rlkCredit l (ch - 1)) (min (rlkDepth (ch - 1)) (s.rd (rlkCredit l (ch - 1)) + cnt))

/-- The part answers with a NAK, and discards numbered rows until the replay arrives (R368). -/
def State.rlkNak (s : State) (l : Nat) : State := (s.wr (Hid.rlkWait l) 1).rlkSend l 5 0 false 0

/-- A NAK is received (R367, R368): the rows after its ACK are sent again; the sixteenth for one SEQ takes the link down. -/
def State.rlkTakeNak (s : State) (l ack : Nat) : State :=
  let q := (ack + 1) % 256
  let n := if s.rd (Hid.rlkNakCnt l) ≠ 0 ∧ s.rd (Hid.rlkNakSeq l) = q then s.rd (Hid.rlkNakCnt l) + 1 else 1
  let s1 := (s.wr (Hid.rlkNakSeq l) q).wr (Hid.rlkNakCnt l) n
  if 16 ≤ n then (s1.wr (Hid.rlkNakCnt l) 0).rlkDown l else s1.rlkReplay l

/-- An OFFER is received (R366, R367). -/
def State.rlkTakeOffer (s : State) (l : Nat) (p : Nat) : State :=
  if s.rlkState l ≠ 2 then s
  else (((s.wr (Hid.rlkOffer l) p).wr (Hid.rlkOfferV l) 1).wr (Reg.RLK_LINK_STAT_PEER_READY l) (b2n (bit p 8))).rlkAgree l

/-- A numbered row is received (R368): whether it is accepted, and the state after. -/
def State.rlkTakeSeq (s : State) (l : Nat) (r : RlkRow) : Bool × State :=
  let d := (r.seq.toNat + 256 - s.rd (Hid.rlkSeqRx l)) % 256
  if d = 0 then (true, (s.add (Hid.rlkSeqRx l) 1).wr (Hid.rlkWait l) 0)
  else if 128 ≤ d ∨ s.on (Hid.rlkWait l) = true then (false, s)
  else (false, s.rlkNak l)

/-- A row arrives; `crc` says that its CRC is right. Whether a MGMT row has been accepted, and the state after. -/
def State.rlkRecv (s : State) (l : Nat) (r : RlkRow) (crc : Bool) : Bool × State :=
  let st := s.rlkState l
  let ty := r.type.val
  if st ≠ 2 ∧ st ≠ 4 then (false, s)
  else if !crc then
    let t := s.inc (Reg.RLK_CRC_ERR l) 1
    (false, if st = 4 then t.rlkNak l else t)
  else if 6 ≤ ty then (false, s.inc (Reg.RLK_CRC_ERR l) 1)
  else if st = 2 then (false, if ty = 4 then s.rlkTakeOffer l (r.payload.toNat % 2 ^ 64) else s)
  else
    let s1 := ((s.rlkTakeTrig l r.trig.toNat).rlkTakeAck l r.ack.toNat).rlkTakeCredit l r.crCh r.crCnt
    if ty = 5 then (false, s1.rlkTakeNak l r.ack.toNat)
    else if ty = 0 ∨ ty = 4 then (false, s1)
    else
      match s1.rlkTakeSeq l r with
      | (true, t) =>
        if ty = 3 then (true, (t.wr (Hid.rlkRet l 2) (min 255 (t.rd (Hid.rlkRet l 2) + 1))).rlkIdle l)
        else (false, (t.setRlkRows l (ty - 1) (t.rlkRows l (ty - 1) ++ [r])).rlkIdle l)
      | (false, t) => (false, t)

/-- ROW_OFFER (R366, R367). -/
def execRowOffer (l : Fin 2) (w : BitVec 512) (s : State) : Host.Outcome State Fault Refusal :=
  .next (s.rlkRecv l (rowOf w) (rowCrcOk w)).2

/-- ROW_DATA (R364, R368). -/
def execRowData (l : Fin 2) (w : BitVec 512) (s : State) : Host.Outcome State Fault Refusal :=
  .next (s.rlkRecv l (rowOf w) (rowCrcOk w)).2

/-- ROW_IDLE (R364). -/
def execRowIdle (l : Fin 2) (w : BitVec 512) (s : State) : Host.Outcome State Fault Refusal :=
  .next (s.rlkRecv l (rowOf w) (rowCrcOk w)).2

/-- ROW_NAK (R368). -/
def execRowNak (l : Fin 2) (w : BitVec 512) (s : State) : Host.Outcome State Fault Refusal :=
  .next (s.rlkRecv l (rowOf w) (rowCrcOk w)).2

/-! ### Streams (R369, R370) -/

/-- The island that a stream is bound to, where it is enabled. -/
def State.streamIsland (s : State) (l c : Nat) : Option Nat :=
  if c = 0 then (if s.on (Reg.RLK_BIND_EN0 l) then some (s.rd (Reg.RLK_BIND_ISL0 l)) else none)
  else (if s.on (Reg.RLK_BIND_EN1 l) then some (s.rd (Reg.RLK_BIND_ISL1 l)) else none)

/-- The island of a stream takes part: its fabric is live and it is neither switching nor loading. -/
def State.streamLive (s : State) (n : Nat) : Bool :=
  s.fabricLive n && !s.on (Reg.ISL_STAT_SWITCHING n) && s.rd (Reg.ISL_CTX_VALID_LOADING n) == 0

/-- STREAM_WORD_SEND (R365, R368 to R370): the bound island presents a word; it is held where it cannot be sent. -/
def execStreamWordSend (l c : Fin 2) (data : BitVec 416) (last : Bool) (s : State) : Host.Outcome State Fault Refusal :=
  .next (match s.streamIsland l c with
    | none => s.answer .held []
    | some n =>
      if s.fabricLive n && s.rlkMay l c && !(c.val == 1 && s.rd (Reg.RLK_LINK_STAT_VER l) == 0) then
        (s.rlkNumbered l c last data).answer .ok []
      else s.answer .held [])

/-- RLK_STREAM_ROW_READ (R369, R370): the bound island takes a row, whose credit becomes returnable. -/
def execRlkStreamRowRead (l c : Fin 2) (s : State) : Host.Outcome State Fault Refusal :=
  .next (match s.streamIsland l c, s.rlkRows l c with
    | some n, r :: rest =>
      if s.streamLive n then
        (((s.setRlkRows l c rest).wr (Hid.rlkRet l c) (min 255 (s.rd (Hid.rlkRet l c) + 1))).rlkIdle l).answer .ok
          (leBytes 52 r.payload.toNat)
      else s.answer .held []
    | _, _ => s.answer .held [])

/-- An ISLAND reset flushes the receive FIFOs bound to the island, returns their credits and counts the rows (R370). -/
def State.rlkFlush (s : State) (n : Nat) : State :=
  State.each [0, 1] (fun l t => State.each [0, 1] (fun c u =>
    let q := u.rlkRows l c
    if u.streamIsland l c = some n ∧ q ≠ [] then
      (((u.setRlkRows l c []).inc (Reg.RLK_DROP l) q.length).wr (Hid.rlkRet l c) (min 255 (u.rd (Hid.rlkRet l c) + q.length))).rlkIdle l
    else u) t) s

/-! ### Commands (R379) -/

/-- RETRAIN: legal with EN = 1 in FAULT or ACTIVE. -/
def State.rlkRetrain (s : State) (l : Nat) : State :=
  if s.on (Reg.RLK_CTRL_EN l) && s.rlkState l == 5 then (s.wr (Reg.RLK_LINK_STAT_FAULT_CAUSE l) 0).rlkPhy l 0
  else if s.on (Reg.RLK_CTRL_EN l) && s.rlkState l == 4 then s.rlkDown l
  else (s.rejMark 0x00A 1).rlkEvt 0

/-- CLR_CNT: the counters of a link and of its lanes. -/
def State.rlkClrCnt (s : State) (l : Nat) : State :=
  let s1 := [Reg.RLK_CRC_ERR l, Reg.RLK_REPLAY l, Reg.RLK_TRIG_LOST l, Reg.RLK_DROP l, Reg.RLK_LOST l].foldl (fun t f => t.wr f 0) s
  State.each (List.range 8) (fun k t => (t.wr (Reg.RLK_LN_HDR_ERR l k) 0).wr (Reg.RLK_LN_MKR_ERR l k) 0) s1

/-- RLK_RETRAIN (R367, R379). -/
def execRlkRetrain (l : Fin 2) (s : State) : Host.Outcome State Fault Refusal := .next (s.rlkRetrain l)

/-- RLK_CLR_CNT (R379). -/
def execRlkClrCnt (l : Fin 2) (s : State) : Host.Outcome State Fault Refusal := .next (s.rlkClrCnt l)

/-- A write of RLK_CMD. -/
def State.rlkCmd (s : State) (code l : Nat) : State :=
  if code = 1 then s.rlkRetrain l else if code = 2 then s.rlkClrCnt l else (s.rejMark 0x00A code).rlkEvt 0

/-! ### Timebase (R373, R374) -/

/-- A step of the timebase (R374): event 231; a forward step closes one Marigold epoch for the multiples that it passes. -/
def State.tsbStepTo (s : State) (v : Nat) : State :=
  let unit := 4000 * max 1 (s.rd Reg.MAR_EPOCH_LEN_LEN)
  let n := v / unit - s.now / unit
  let s1 := s.wr Reg.TSB_NOW v
  (if s.now < v then s1.epochPass n else s1).tsbEvt 3

/-- A backward step may be applied (R374): no file is ARMED or TRIGGERED, and Marigold is OFF. -/
def State.backOk (s : State) : Bool :=
  (List.range 16).all (fun f => s.rd (Reg.HOP_FILE_STAT_STATE f) != 1 && s.rd (Reg.HOP_FILE_STAT_STATE f) != 2)
    && !s.on Reg.MAR_STAT_STATE

/-- The timebase moved by −θ, θ in ps. -/
def State.tsbMoved (s : State) (th : Int) : Nat := ofSigned 64 ((s.now : Int) - th / 250)

/-- SYNC leaves LOCKED (R373). -/
def State.tsbUnlock (s : State) : State :=
  if s.rd Reg.TSB_STAT_SYNC = 2 then ((s.wr Reg.TSB_STAT_SYNC 1).wr Hid.tsGood 0).tsbEvt 2 else s

/-- The quality of an exchange (R373): LOCKED after 8 good ones in a row, out of it after 4 bad ones. -/
def State.tsbQuality (s : State) (th : Int) : State :=
  let good := if th.natAbs ≤ 250 then min 8 (s.rd Hid.tsGood + 1) else 0
  let bad := if 500 < th.natAbs then min 4 (s.rd Hid.tsBad + 1) else 0
  let s1 := (s.wr Hid.tsGood good).wr Hid.tsBad bad
  if s.rd Reg.TSB_STAT_SYNC = 1 ∧ good = 8 then (s1.wr Reg.TSB_STAT_SYNC 2).tsbEvt 1
  else if bad = 4 then s1.tsbUnlock
  else s1

/-- The part uses an offset θ, in ps, of an exchange every `interval` ms (R373, R374): it steps beyond 1 us, or slews where
the step is held back, and trims its rate otherwise. -/
def State.tsbUse (s : State) (th : Int) (interval : Nat) : State :=
  let s1 := (s.wr Reg.TSB_OFFSET (ofSigned 32 th)).tsbQuality th
  if 1000000 < th.natAbs then
    if th < 0 ∨ s.backOk = true then (((s1.wr Reg.TSB_STAT_STEP_HELD 0).wr Reg.TSB_FREQ 0).tsbStepTo (s.tsbMoved th))
    else ((s1.wr Reg.TSB_STAT_STEP_HELD 1).wr Hid.tsHeld (ofSigned 32 th)).wr Reg.TSB_FREQ (ofSigned 32 (-1000000))
  else
    let f : Int := max (-100000) (min 100000 (-th / (max 1 interval : Nat)))
    (s1.wr Reg.TSB_STAT_STEP_HELD 0).wr Reg.TSB_FREQ (ofSigned 32 f)

/-- A write of TSB_CTRL: SRC = NONE is FREE; another source is acquired anew. -/
def State.tsbCtrlWrite (s : State) (w : Nat) : State :=
  let t := s.writeReg 0x019 0x008 w
  if t.rd Reg.TSB_CTRL_SRC = s.rd Reg.TSB_CTRL_SRC then t
  else
    ((((t.wr Reg.TSB_STAT_SYNC (if t.rd Reg.TSB_CTRL_SRC = 0 then 0 else 1)).wr Hid.tsGood 0).wr Hid.tsBad 0).wr
      Reg.TSB_STAT_STEP_HELD 0).wr Reg.TSB_FREQ 0

/-- TSB_SYNC_LOST (R373): 8 intervals have passed with no exchange. -/
def execTsbSyncLost (s : State) : Host.Outcome State Fault Refusal := .next s.tsbUnlock

/-- STEP (R373, R374, R379). -/
def State.tsbStep (s : State) : State :=
  let v := s.rd Reg.TSB_SET
  if s.rd Reg.TSB_CTRL_SRC = 0 ∧ (s.now ≤ v ∨ s.backOk = true) then s.tsbStepTo v
  else (s.rejMark 0x019 1).tsbEvt 0

/-- TSB_STEP (R379). -/
def execTsbStep (s : State) : Host.Outcome State Fault Refusal := .next s.tsbStep

/-- A write of TSB_CMD. -/
def State.tsbCmd (s : State) (code : Nat) : State := if code = 1 then s.tsbStep else (s.rejMark 0x019 code).tsbEvt 0

/-- TSB_STEP_RELEASE (R374): a held backward step is applied. -/
def execTsbStepRelease (s : State) : Host.Outcome State Fault Refusal :=
  .next (if s.on Reg.TSB_STAT_STEP_HELD && s.backOk then
      ((s.wr Reg.TSB_STAT_STEP_HELD 0).wr Reg.TSB_FREQ 0).tsbStepTo (s.tsbMoved (toSigned 32 (s.rd Hid.tsHeld)))
    else s)

/-! ### Timestamp exchange (R372, R373) -/

/-- The part is MASTER (1) or SLAVE (2) of an exchange on an ACTIVE link. -/
def State.tsRole (s : State) (l role : Nat) : Bool :=
  s.rlkState l == 4 && s.rd (Reg.RLK_CTRL_TS_ROLE l) == role && s.rd (Hid.rlkPeerRole l) == 3 - role

/-- The payload of a message of the exchange. -/
def tsPayload (msg x stamp : Nat) : BitVec 416 := BitVec.ofNat 416 (msg + x % 256 * 2 ^ 8 + stamp % 2 ^ 64 * 2 ^ 64)

/-- A MGMT message is sent, where it can be. -/
def State.tsSend (s : State) (l msg x stamp : Nat) : State :=
  if s.rlkMay l 2 then s.rlkNumbered l 2 false (tsPayload msg x stamp) else s

/-- An accepted MGMT row carries a message of the exchange. -/
def tsIs (r : RlkRow) (msg : Nat) : Bool := r.payload.toNat % 256 == msg

def tsNum (r : RlkRow) : Nat := bits r.payload.toNat 15 8
def tsStamp (r : RlkRow) : Nat := bits r.payload.toNat 127 64

/-- TS_SYNC_INTERVAL (R372): the master sends SYNC at t1, and FOLLOW with t1. -/
def execTsSyncInterval (l : Fin 2) (t1 : DWord) (s : State) : Host.Outcome State Fault Refusal :=
  .next (if s.tsRole l 1 then
      let x := (s.rd (Hid.tsX l) + 1) % 256
      ((s.wr (Hid.tsX l) x).tsSend l 1 x 0).tsSend l 2 x t1.toNat
    else s)

/-- MGMT_SYNC (R372): the slave receives SYNC at t2 and sends DELAY_REQ at t3. -/
def execMgmtSync (l : Fin 2) (w : BitVec 512) (t2 t3 : DWord) (s : State) : Host.Outcome State Fault Refusal :=
  let r := rowOf w
  .next (match s.rlkRecv l r (rowCrcOk w) with
    | (true, t) =>
      if tsIs r 1 && t.tsRole l 2 then
        (((t.wr (Hid.tsX l) (tsNum r)).wr (Hid.tsT2 l) t2.toNat).wr (Hid.tsT3 l) t3.toNat).tsSend l 3 (tsNum r) 0
      else t
    | (false, t) => t)

/-- MGMT_FOLLOW (R372): the slave receives t1. -/
def execMgmtFollow (l : Fin 2) (w : BitVec 512) (s : State) : Host.Outcome State Fault Refusal :=
  let r := rowOf w
  .next (match s.rlkRecv l r (rowCrcOk w) with
    | (true, t) => if tsIs r 2 && t.tsRole l 2 then t.wr (Hid.tsT1 l) (tsStamp r) else t
    | (false, t) => t)

/-- MGMT_DELAY_REQ (R372): the master receives it at t4 and returns DELAY_RESP with t4. -/
def execMgmtDelayReq (l : Fin 2) (w : BitVec 512) (t4 : DWord) (s : State) : Host.Outcome State Fault Refusal :=
  let r := rowOf w
  .next (match s.rlkRecv l r (rowCrcOk w) with
    | (true, t) => if tsIs r 3 && t.tsRole l 1 then t.tsSend l 4 (tsNum r) t4.toNat else t
    | (false, t) => t)

/-- θ in ps of an exchange (R372): half the difference of the two directions in the unit of the link's version, less
ASYM_PS. -/
def State.theta (s : State) (l t4 : Nat) : Int :=
  let d := toSigned 64 (s.rd (Hid.tsT2 l) + 2 ^ 64 - s.rd (Hid.tsT1 l)) - toSigned 64 (t4 + 2 ^ 64 - s.rd (Hid.tsT3 l))
  let ps := if s.rd (Reg.RLK_LINK_STAT_VER l) = 0 then d * 1000 / 2 else d * 15625 / 2000
  ps - toSigned 16 (s.rd (Reg.RLK_TS_CFG_ASYM_PS l))

/-- MGMT_DELAY_RESP (R372, R373): the slave computes θ, and uses it where TSB_CTRL.SRC names the link. -/
def execMgmtDelayResp (l : Fin 2) (w : BitVec 512) (s : State) : Host.Outcome State Fault Refusal :=
  let r := rowOf w
  .next (match s.rlkRecv l r (rowCrcOk w) with
    | (true, t) =>
      if tsIs r 4 && t.tsRole l 2 && tsNum r == t.rd (Hid.tsX l) then
        let th := t.theta l (tsStamp r)
        let u := t.wr (Reg.RLK_TS_OFF l) (ofSigned 32 th)
        if t.rd Reg.TSB_CTRL_SRC = l.val + 1 then u.tsbUse th (t.rd (Reg.RLK_TS_CFG_INTERVAL l)) else u
      else t
    | (false, t) => t)

end Sys2Proof.Machine
end

