-- ==== Sys2Proof/Machine/Millstone.lean ====
section
/-! DEFINITION. Millstone (chapter 11): rings, jobs, the selection of records, and their results. -/

namespace Sys2Proof.Machine

/-- Bit `i` of MST_EVT with event 384 + `i` (R348). -/
def State.mstEvt (s : State) (i : Nat) : State := s.raiseB Reg.MST_EVT_EVT i (384 + i)

/-- A rejected Millstone command (R347). -/
def State.mstReject (s : State) (code : Nat) : State := (s.rejMark 0x018 code).mstEvt 0

/-! ### Rings (R338) -/

/-- A write of MST_RING_WR: denied where WR − RD would exceed SIZE. -/
def State.mstRingWr (s : State) (r w : Nat) : State :=
  if s.rd (Reg.MST_RING_SIZE r) < (w + 2 ^ 32 - s.rd (Reg.MST_RING_RD r)) % 2 ^ 32 then s.deny 0x018
  else s.wr (Reg.MST_RING_WR r) w

/-- MST_RING_WR_WRITE (R338). -/
def execMstRingWrWrite (r : Fin 4) (w : Word) (s : State) : Host.Outcome State Fault Refusal :=
  .next (s.mstRingWr r w.toNat)

/-- The ring that Millstone serves next: enabled, with a descriptor pending, round robin (R338). -/
def State.mstNextRing (s : State) : Option Nat :=
  [1, 2, 3, 4].map (fun d => (s.rd Hid.mstRr + d) % 4) |>.find? (fun r =>
    s.bitOf Reg.MST_CTRL_RING_EN r && s.rd (Reg.MST_RING_RD r) != s.rd (Reg.MST_RING_WR r))

/-- Address of the oldest pending descriptor of a ring. -/
def State.mstDescAddr (s : State) (r : Nat) : Nat :=
  128 * s.rd (Reg.MST_RING_BASE r) + s.rd (Reg.MST_RING_RD r) % max 1 (s.rd (Reg.MST_RING_SIZE r)) * 128

/-! ### The descriptor (R339) -/

/-- `n` bytes from byte `o` of the current descriptor, as a number. -/
def State.desc (s : State) (o n : Nat) : Nat := s.rd Hid.mstDesc / 2 ^ (8 * o) % 2 ^ (8 * n)

def State.jobOp (s : State) : Nat := bits (s.desc 0 4) 3 0
def State.jobFile (s : State) : Nat := bits (s.desc 0 4) 11 8
def State.jobKey (s : State) : Nat := bits (s.desc 0 4) 15 12
def State.jobPorts (s : State) : Nat := bits (s.desc 0 4) 19 16
def State.jobUseIdx (s : State) : Bool := bit (s.desc 0 4) 20
def State.jobQueue (s : State) : Nat := bits (s.desc 4 4) 5 0
def State.jobOutBase (s : State) : Nat := s.desc 40 8
def State.jobOutSize (s : State) : Nat := s.desc 48 8

/-- Millstone's requests under the job's key index. -/
def State.jobReq (s : State) : Req := s.req .millstone s.jobKey

/-- The result buffer is permitted (R339): 64-byte aligned, in HBM or in SRAM where Millstone may write. -/
def State.outOk (s : State) : Bool :=
  let a := s.jobOutBase
  let n := s.jobOutSize
  a % 64 == 0 && n % 64 == 0 && decide (0 < n)
    && (match s.rangeOfReq a n with
        | some .hbm | some (.bank _) => true
        | some .hub => hubWritable s.jobReq a n
        | _ => false)

/-! ### The blocks of a file (R341) -/

/-- How often the writer has entered block `i` of segment `g`. -/
def State.blkTimes (s : State) (g i : Nat) : Nat :=
  let n := s.rd (Reg.HOP_SEG_SIZE g)
  (s.rd (Hid.segEnt g) + n - 1 - i) / max 1 n

/-- Block `i` of segment `g`, of which `size` bytes hold records. -/
def State.blkAt (s : State) (g i size : Nat) : MBlk := ⟨s.segBase g + 65536 * i, size, g, i, s.blkTimes g i⟩

/-- The block of a segment that holds its write point, and the bytes of it that are written. -/
def State.segEnd (s : State) (g : Nat) : Nat × Nat :=
  let o := s.rd (Reg.HOP_SEG_WOFF g)
  if o = 0 then (0, 0) else ((o - 1) / 65536, (o - 1) % 65536 + 1)

/-- The retained blocks of one segment in SEGMENTED mode, from its oldest to its write point. -/
def State.segBlocks (s : State) (g : Nat) : List MBlk :=
  let n := s.rd (Reg.HOP_SEG_SIZE g)
  let (e, sz) := s.segEnd g
  if s.rd (Reg.HOP_SEG_STAT_STATE g) = 0 ∨ sz = 0 then []
  else
    let idx := if s.on (Reg.HOP_SEG_STAT_WRAPPED g) then (List.range n).map (fun k => (e + 1 + k) % n) else List.range (e + 1)
    idx.map (fun i => s.blkAt g i (if i = e then sz else 65536))

/-- The retained blocks of a RING file: from HOP_FILE_OLD round to the write point. -/
def State.ringBlocks (s : State) (f : Nat) : List MBlk :=
  let all := (s.fileSegs f).flatMap (fun g => (List.range (s.rd (Reg.HOP_SEG_SIZE g))).map (fun i => (g, i)))
  let cur := s.rd (Reg.HOP_FILE_STAT_CUR_SEG f)
  let (e, sz) := s.segEnd cur
  if sz = 0 then []
  else
    let old := all.findIdx (fun x => s.segBase x.1 + 65536 * x.2 == s.rd (Reg.HOP_FILE_OLD f))
    let rot := all.drop old ++ all.take old
    let stop := rot.findIdx (fun x => x == (cur, e))
    (rot.take (stop + 1)).map (fun x => s.blkAt x.1 x.2 (if x = (cur, e) then sz else 65536))

/-- The blocks of a file in file order; the bytes of its last line that wait to be written are not there yet (R75). -/
def State.fileBlocks (s : State) (f : Nat) : List MBlk :=
  let l := if s.on (Reg.HOP_FILE_MODE f) then (s.fileSegs f).flatMap s.segBlocks else s.ringBlocks f
  let cut := (Tab.getD s.hopTail f []).length
  let cur := s.rd (Reg.HOP_FILE_STAT_CUR_SEG f)
  let e := (s.segEnd cur).1
  l.map (fun b => if b.seg = cur ∧ b.idx = e then { b with size := b.size - cut } else b)

/-- The write point of a file. -/
def State.filePoint (s : State) (f : Nat) : Nat :=
  let g := s.rd (Reg.HOP_FILE_STAT_CUR_SEG f)
  s.segBase g + s.rd (Reg.HOP_SEG_WOFF g)

/-! ### Jobs start (R338, R339, R341, R344) -/

/-- The current job is over: 1 DONE, 2 ABORTED, 3 FAULT, with its cause. -/
def State.jobOver (s : State) (r cause : Nat) : State := (s.wr Hid.mstEnd r).wr Hid.mstCause cause

/-- The entries of an index that matches the file (R344); none where it does not, or cannot be read. A read that is held is
answered so. -/
def State.jobIndex (s : State) : Option (List (List Byte)) × State :=
  let (h, r, t) := s.coRead s.jobReq (s.desc 56 8) 64
  let field (o n : Nat) : Nat := ofLeBytes ((h.drop o).take n)
  if r = .held then (none, t.answer .held [])
  else if r ≠ .ok ∨ field 0 4 ≠ s.jobFile ∨ field 24 8 ≠ s.rd Hid.mstWp ∨ field 16 8 ≠ s.rd Hid.mstOld then (none, t)
  else
    let n := field 8 8
    let (e, r2, u) := t.coRead s.jobReq (s.desc 56 8 + 64) (32 * n)
    if r2 = .held then (none, u.answer .held [])
    else if r2 ≠ .ok then (none, u)
    else (some ((List.range n).map (fun i => (e.drop (32 * i)).take 32)), u)

/-- An index entry lets a job skip its block (R344). -/
def State.idxSkips (s : State) (e : List Byte) : Bool :=
  let field (o n : Nat) : Nat := ofLeBytes ((e.drop o).take n)
  decide (s.desc 16 8 < field 8 8) || decide (field 16 8 < s.desc 8 8) || (field 26 1 &&& s.jobPorts) == 0 || bit (field 27 1) 0

/-- The SHB of a stream (R345). -/
def pcapShb : List Byte :=
  leBytes 4 0x0A0D0D0A ++ leBytes 4 28 ++ leBytes 4 0x1A2B3C4D ++ leBytes 2 1 ++ leBytes 2 0 ++ leBytes 8 (2 ^ 64 - 1)
    ++ leBytes 4 28

/-- The IDB of port `p` (R345). -/
def pcapIdb (linktype snap p : Nat) : List Byte :=
  leBytes 4 1 ++ leBytes 4 40 ++ leBytes 2 linktype ++ leBytes 2 0 ++ leBytes 4 snap
    ++ leBytes 2 9 ++ leBytes 2 1 ++ leBytes 4 12 ++ leBytes 2 2 ++ leBytes 2 2 ++ leBytes 4 (0x50 + 256 * (0x30 + p))
    ++ leBytes 4 0 ++ leBytes 4 40

/-- The EPB of a record on interface `i` (R345). -/
def pcapEpb (i ts orig : Nat) (pay : List Byte) : List Byte :=
  let pad := (4 - pay.length % 4) % 4
  let n := 32 + pay.length + pad
  leBytes 4 6 ++ leBytes 4 n ++ leBytes 4 i ++ leBytes 4 (ts / 2 ^ 32) ++ leBytes 4 (ts % 2 ^ 32) ++ leBytes 4 pay.length
    ++ leBytes 4 orig ++ pay ++ List.replicate pad 0 ++ leBytes 4 n

/-- Append blocks to the stream of a queue. -/
def State.streamOut (s : State) (q : Nat) (bs : List (List Byte)) : State :=
  { s with streams := Tab.set s.streams q [] (Tab.getD s.streams q [] ++ bs) }

/-- Forget the stream of a queue. -/
def State.streamCut (s : State) (q : Nat) : State := { s with streams := Tab.del s.streams q }.wr (Hid.strFin q) 0

/-- A queue is enabled for Millstone: of type STREAM, and RUNNING (R339, R357). -/
def State.streamQueue (s : State) (q : Nat) : Bool := s.rd (Reg.HST_Q_CFG_DIR q) == 2 && s.rd (Reg.HST_Q_STAT_STATE q) == 1

/-- The blocks a job will read: those of its file, less those that a used index rules out. -/
def State.jobPlan (s s0 : State) : State :=
  let blocks := s.fileBlocks s.jobFile
  if s.jobOp ≠ 3 ∧ s.jobUseIdx then
    match s0.jobIndex with
    | (none, t) => { t.wr Hid.mstStale 1 with mstQueue := blocks }
    | (some l, t) => { t with
        mstQueue := blocks.filter (fun b => !(l.any (fun e => ofLeBytes (e.take 8) == b.addr && s.idxSkips e))) }
  else { s0 with mstQueue := blocks }

/-- A job has been taken: its faults, its blocks, and what its operation sets up. -/
def State.jobSetUp (s : State) : State :=
  let f := s.jobFile
  let op := s.jobOp
  let s0 := ((s.wr Hid.mstOld (s.rd (Reg.HOP_FILE_OLD f))).wr Hid.mstWp (s.filePoint f)).wr Hid.mstGen (s.rd (Hid.fileGen f))
  if op = 0 ∨ 4 < op then s0.jobOver 3 1
  else if s.rd (Reg.HOP_FILE_STAT_STATE f) = 0 then s0.jobOver 3 2
  else if (op = 2 ∨ op = 3) ∧ !s.outOk then s0.jobOver 3 6
  else if op = 4 ∧ !s.streamQueue s.jobQueue then s0.jobOver 3 4
  else
    let s1 := s.jobPlan s0
    if op = 4 then (s1.streamCut s.jobQueue).streamOut s.jobQueue [pcapShb]
    else if op = 3 then s1.wr Hid.mstOut 64
    else s1

/-- Take the next job, where its operation is `op`, or is none of the four (R338). -/
def State.mstTake (s : State) (op : Nat) : State :=
  if s.rd Reg.MST_STAT_STATE ≠ 1 then s
  else
    match s.mstNextRing with
    | none => s
    | some r =>
      let a := s.mstDescAddr r
      let (d, res, t) := s.coRead (s.req .millstone (s.rd (Reg.MST_RING_KEY r))) a 128
      if res = .held then t.answer .held []
      else
        let v := if res = .ok then ofLeBytes d else 0
        let o := v % 16
        if o ≠ op ∧ 1 ≤ o ∧ o ≤ 4 then s
        else
          let clean := [Hid.mstEnd, Hid.mstCause, Hid.mstSel, Hid.mstOut, Hid.mstRead, Hid.mstLost, Hid.mstBad, Hid.mstOver,
            Hid.mstRun, Hid.mstTrunc, Hid.mstLimit, Hid.mstStale, Hid.mstIdx, Hid.mstPorts 0, Hid.mstPorts 1, Hid.mstPorts 2,
            Hid.mstPorts 3].foldl (fun u f => u.clr f) t
          let c : State := { clean with mstQueue := [] }
          let u := (((((c.wr Hid.mstDesc v).wr Hid.mstRr r).wr Reg.MST_STAT_RING r).wr
            Reg.MST_STAT_STATE 2).wr Reg.MST_JOB_ADDR a |>.answer .ok []).jobSetUp
          if u.last.res = .held then s.answer .held [] else u

/-- MST_JOB_COUNT (R338, R339, R343). -/
def execMstJobCount (s : State) : Host.Outcome State Fault Refusal := .next (s.mstTake 1)

/-- MST_JOB_LIST (R338, R339, R343). -/
def execMstJobList (s : State) : Host.Outcome State Fault Refusal := .next (s.mstTake 2)

/-- MST_JOB_INDEX (R338, R339, R343). -/
def execMstJobIndex (s : State) : Host.Outcome State Fault Refusal := .next (s.mstTake 3)

/-- MST_JOB_EXPORT (R338, R339, R345). -/
def execMstJobExport (s : State) : Host.Outcome State Fault Refusal := .next (s.mstTake 4)

/-! ### Records (R340, R342) -/

/-- A record as Millstone finds it in a block. -/
structure MRecord where
  addr : Nat
  ts   : Nat
  w1   : Nat
  pay  : List Byte
deriving DecidableEq, Repr

def MRecord.port (r : MRecord) : Nat := bits r.w1 33 32
def MRecord.cap (r : MRecord) : Nat := bits r.w1 15 0

/-- The records of a block's bytes from position `p` on; the flags say whether a bad header ended it, and whether it ended
inside a record. The first argument bounds the number of records. -/
def parseBlock : Nat → Nat → List Byte → List MRecord × Bool × Bool
  | 0, _, _ => ([], false, false)
  | n + 1, a, bs =>
    if bs.length < 32 then ([], false, false)
    else
      let h := bs.take 32
      if crc8 (h.take 31) ≠ ((h[31]?).getD 0).toNat then ([], true, false)
      else
        let w1 := ofLeBytes ((h.drop 8).take 8)
        let cap := bits w1 15 0
        if bits w1 35 34 = 2 then ([], false, false)
        else if bs.length < 32 + cap then ([], false, true)
        else
          let r : MRecord := ⟨a, ofLeBytes (h.take 8), w1, (bs.drop 32).take cap⟩
          let (l, bad, cut) := parseBlock n (a + 32 + cap) (bs.drop (32 + cap))
          (r :: l, bad, cut)

/-- Byte `i` of a pattern register set. -/
def patByte (rd : Nat → Nat) (i : Nat) : Nat := rd (i / 4) / 2 ^ (8 * (i % 4)) % 256

/-- Pattern `k` is found in a payload at offset `o` (R340). -/
def State.patAt (s : State) (k : Nat) (pay : List Byte) (o : Nat) : Bool :=
  let len := s.rd (Reg.MST_PAT_CFG_LEN k)
  decide (o + len ≤ pay.length) && (List.range len).all (fun i =>
    ((((pay[o + i]?).getD 0).toNat ^^^ patByte (fun w => s.rd (Reg.MST_PAT_VAL k w)) i)
      &&& patByte (fun w => s.rd (Reg.MST_PAT_MASK k w)) i) == 0)

/-- Pattern `k` is found in a payload (R340). -/
def State.patFound (s : State) (k : Nat) (pay : List Byte) : Bool :=
  s.on (Reg.MST_PAT_CFG_EN k) && (if s.on (Reg.MST_PAT_CFG_ANCHOR k) then s.patAt k pay (s.rd (Reg.MST_PAT_CFG_OFFSET k))
    else (List.range (pay.length + 1)).any (s.patAt k pay))

/-- A record is selected (R340); PAD records are none of these. -/
def State.selects (s : State) (r : MRecord) : Bool :=
  bit s.jobPorts r.port && decide (s.desc 8 8 ≤ r.ts) && decide (r.ts ≤ s.desc 16 8)
    && (!bit (s.desc 76 4) 31 || (bit r.w1 43 && bits r.w1 55 44 == bits (s.desc 76 4) 11 0))
    && (setBits 64 (s.desc 24 8)).all (fun k => s.patFound k r.pay)
    && (setBits 64 (s.desc 32 8)).all (fun k => !s.patFound k r.pay)

/-! ### Results (R343, R345) -/

/-- Write to the result buffer at offset `o`; a refused write ends the job as FAULT with cause OUT. -/
def State.jobWrite (s : State) (o : Nat) (bs : List Byte) : State :=
  match s.coWrite s.jobReq (s.jobOutBase + o) bs with
  | (.ok, t) => t
  | (_, t) => t.jobOver 3 6

/-- The interface of a port in the stream, in the order in which the IDBs were written; none before its IDB. -/
def State.ifaceOf (s : State) (p : Nat) : Option Nat := (List.range 4).find? (fun i => s.rd (Hid.mstPorts i) == p + 1)

/-- The EPB of a record goes to the stream, after the IDB of its port where it is the port's first. -/
def State.exportRec (s : State) (r : MRecord) : State :=
  let q := s.jobQueue
  let epb (i : Nat) : List Byte := pcapEpb i ((r.ts * 250 + s.desc 64 8) % 2 ^ 64) (bits r.w1 31 16) r.pay
  match s.ifaceOf r.port with
  | some i => s.streamOut q [epb i]
  | none =>
    let i := ((List.range 4).find? (fun j => s.rd (Hid.mstPorts j) == 0)).getD 0
    (s.wr (Hid.mstPorts i) (r.port + 1)).streamOut q
      [pcapIdb (bits (s.desc 4 4) 31 16) (s.rd (Reg.HOP_PORT_LEN_MAX_LEN r.port)) r.port, epb i]

/-- A selected record is given out; MAX_REC and the end of the buffer end the job. -/
def State.emitRec (s : State) (r : MRecord) : State :=
  if s.on Hid.mstEnd then s
  else
    let count (t : State) : State :=
      let t1 := t.add Hid.mstSel 1
      if s.desc 72 4 ≠ 0 ∧ s.rd Hid.mstSel + 1 = s.desc 72 4 then (t1.wr Hid.mstLimit 1).jobOver 1 0 else t1
    match s.jobOp with
    | 2 =>
      let o := s.rd Hid.mstOut
      if s.jobOutSize < o + 16 then (s.wr Hid.mstTrunc 1).jobOver 1 0
      else
        let e := leBytes 8 r.ts ++ leBytes 8 (r.addr % 2 ^ 46 + r.port * 2 ^ 46 + r.cap * 2 ^ 48)
        let t := s.jobWrite o e
        if t.on Hid.mstEnd then t else count (t.add Hid.mstOut 16)
    | 4 => count (s.exportRec r)
    | _ => count s

/-- The INDEX entry of a block. The least and greatest TS of a block without records are open values. -/
def State.indexBlock (s : State) (a : Nat) (l : List MRecord) (lost : Bool) : State :=
  let o := s.rd Hid.mstOut
  if s.on Hid.mstEnd then s
  else if s.jobOutSize < o + 32 then (s.wr Hid.mstTrunc 1).jobOver 1 0
  else
    let (mn, mx, t) := match l with
      | [] => (s.fresh.1 % 2 ^ 64, s.fresh.2.fresh.1 % 2 ^ 64, s.fresh.2.fresh.2)
      | r :: rs => (rs.foldl (fun m (x : MRecord) => min m x.ts) r.ts, rs.foldl (fun m (x : MRecord) => max m x.ts) r.ts, s)
    let mask := l.foldl (fun m (x : MRecord) => m ||| 2 ^ x.port) 0
    let e := leBytes 8 a ++ leBytes 8 mn ++ leBytes 8 mx ++ leBytes 2 l.length ++ leBytes 1 mask
      ++ leBytes 1 (b2n lost + 2 * b2n (l.any (fun x => bit x.w1 41))) ++ leBytes 4 0
    let u := t.jobWrite o e
    if u.on Hid.mstEnd then u else (u.add Hid.mstOut 32).add Hid.mstIdx 1

/-! ### Reading a block (R341, R342) -/

/-- The lines of a block, until one has an uncorrectable verdict. -/
def State.readBlock (s : State) (a n : Nat) : List Byte × Bool × State :=
  (unitsOf 32 a n).foldl (fun (acc : List Byte × Bool × State) u =>
    if acc.2.1 then acc
    else
      let (d, bad, t) := acc.2.2.readLine s.jobReq u
      if bad then (acc.1, true, t) else (acc.1 ++ leBytes 32 d, false, t)) ([], false, s.openRows false a n)

/-- The writer has entered a block since the job started (R341). -/
def State.overrun (s : State) (b : MBlk) : Bool := s.blkTimes b.seg b.idx != b.times

/-- The gate of a read of a block by a job: over Millstone's own path to HBM (R298, R346). -/
def State.jobGate (s : State) (b : MBlk) : MRes × State :=
  match s.guard s.jobReq false b.addr b.size with
  | some t => (.err, t)
  | none => s.memGate s.jobReq b.addr b.size

/-- The bytes of the block once the gate has answered `r`, and whether they are bad. -/
def State.jobBytes (t : State) (r : MRes) (b : MBlk) : List Byte × Bool × State :=
  if r = .ok then t.readBlock b.addr b.size else ([], true, t)

/-- A block is read and its records are emitted. -/
def State.jobBlock (s : State) (b : MBlk) (rest : List MBlk) : State :=
  let gate := s.jobGate b
  if gate.1 = .held then gate.2.answer .held []
  else
    let (bs, bad, t) := gate.2.jobBytes gate.1 b
    let (l, badHdr, cut) := parseBlock 2049 b.addr (bs.take b.size)
    let lost := bad || badHdr
    let s1 := ({ t with mstQueue := rest }).add Hid.mstRead 1
    let s2 := if badHdr then s1.add Hid.mstBad 1 else s1
    let s3 := if lost then ((s2.add Hid.mstLost 1).inc Reg.MST_BLK_LOST 1).mstEvt 3 else s2
    let s4 := if s.jobOp = 3 then s3.indexBlock b.addr l (lost || (cut && decide (b.size = 65536)))
      else (l.filter s.selects).foldl (fun u r => u.emitRec r) s3
    let run := if lost then s.rd Hid.mstRun + 1 else 0
    let s5 := s4.wr Hid.mstRun run
    if 16 ≤ run then s5.jobOver 3 3 else s5

/-- The file of the job has been cleared or armed since the job started (R341). -/
def State.jobStale (s : State) : Bool := s.rd (Hid.fileGen s.jobFile) != s.rd Hid.mstGen

/-- The stream of the job waits for a host buffer (R345). -/
def State.jobWaits (s : State) : Bool :=
  s.jobOp == 4 && !(Tab.getD s.streams s.jobQueue []).isEmpty
    && s.rd (Reg.HST_Q_HEAD s.jobQueue) == s.rd (Reg.HST_Q_TAIL s.jobQueue)

/-- MST_BLOCK_READ (R341 to R345): the current job reads its next block and emits its selected records. Blocks that the
writer has entered since are skipped. -/
def execMstBlockRead (s : State) : Host.Outcome State Fault Refusal :=
  .next (if s.rd Reg.MST_STAT_STATE ≠ 2 ∨ s.on Hid.mstEnd then s
    else if s.jobStale then s.jobOver 2 5
    else if s.jobWaits then s.answer .held []
    else
      let skipped := s.mstQueue.takeWhile s.overrun
      let s1 := if skipped.isEmpty then s
        else (({ s with mstQueue := s.mstQueue.drop skipped.length }).add Hid.mstOver skipped.length).mstEvt 3
      match s1.mstQueue with
      | [] => s1
      | b :: rest => s1.jobBlock b rest)

/-! ### The end of a job (R338, R339, R343) -/

/-- The status words of a job, from byte 80 of its descriptor; bytes 84 to 87 are not written. -/
def State.jobStatus (s : State) (r : Nat) : List (Option Byte) :=
  let w (n v : Nat) : List (Option Byte) := (leBytes n v).map some
  w 4 (r + s.rd Hid.mstCause * 2 ^ 8 + s.rd Hid.mstTrunc * 2 ^ 16 + s.rd Hid.mstLimit * 2 ^ 17 + s.rd Hid.mstStale * 2 ^ 18)
    ++ [none, none, none, none] ++ w 8 (s.rd Hid.mstSel) ++ w 8 (s.rd Hid.mstOut) ++ w 4 (s.rd Hid.mstRead)
    ++ w 4 (s.rd Hid.mstLost) ++ w 4 (s.rd Hid.mstBad) ++ w 4 (s.rd Hid.mstOver) ++ w 8 s.now

/-- The header of an INDEX result (R343). -/
def State.indexHeader (s : State) : State :=
  s.jobWrite 0 (leBytes 4 s.jobFile ++ leBytes 4 0 ++ leBytes 8 (s.rd Hid.mstIdx) ++ leBytes 8 (s.rd Hid.mstOld)
    ++ leBytes 8 (s.rd Hid.mstWp) ++ leBytes 8 s.now ++ leBytes 24 0)

/-- The current job is over with result `r`. -/
def State.jobClose (s0 : State) (r0 : Nat) : State :=
  let s := if s0.jobOp = 3 ∧ r0 = 1 then (s0.jobOver r0 0).indexHeader else s0.jobOver r0 (s0.rd Hid.mstCause)
  let r := s.rd Hid.mstEnd
  let ring := s.rd Reg.MST_STAT_RING
  let (res, t) := s.coWriteBe (s.req .millstone (s.rd (Reg.MST_RING_KEY ring))) (s.rd Reg.MST_JOB_ADDR + 80) (s.jobStatus r)
  if res = .held then s0.answer .held []
  else
    let t1 := if s.jobOp = 4 then t.streamCut s.jobQueue else t
    let t2 := (({ t1 with mstQueue := [] }).add (Reg.MST_RING_RD ring) 1).inc Reg.MST_JOBS 1
    let t3 := ((t2.wr Reg.MST_STAT_STATE (if s.on Hid.mstStop then 0 else 1)).wr Hid.mstStop 0).wr Hid.mstEnd 0
    t3.mstEvt (if r = 1 then 1 else 2)

/-- MST_JOB_END (R338): a job that is over, or has no block left, writes its status words and RD increments. The last blocks
of an EXPORT first reach their buffers, the end mark with them (R345). -/
def execMstJobEnd (s : State) : Host.Outcome State Fault Refusal :=
  .next (if s.rd Reg.MST_STAT_STATE ≠ 2 then s
    else if s.rd Hid.mstEnd = 2 ∨ s.rd Hid.mstEnd = 3 then s.jobClose (s.rd Hid.mstEnd)
    else if s.jobStale then (s.jobOver 2 5).jobClose 2
    else if s.mstQueue ≠ [] ∧ !s.on Hid.mstEnd then s
    else if s.jobOp = 4 ∧ !(Tab.getD s.streams s.jobQueue []).isEmpty then (s.wr (Hid.strFin s.jobQueue) 1).answer .held []
    else s.jobClose 1)

/-! ### Commands (R347) -/

/-- START. -/
def State.mstStart (s : State) : State := if s.rd Reg.MST_STAT_STATE = 0 ∧ !s.bstIs 0 then s.wr Reg.MST_STAT_STATE 1 else s.mstReject 1

/-- STOP. -/
def State.mstStop (s : State) : State :=
  if s.rd Reg.MST_STAT_STATE = 0 then s.mstReject 2
  else if s.rd Reg.MST_STAT_STATE = 1 then s.wr Reg.MST_STAT_STATE 0
  else s.wr Hid.mstStop 1

/-- ABORT. -/
def State.mstAbort (s : State) : State := if s.rd Reg.MST_STAT_STATE = 2 then s.jobOver 2 0 else s.mstReject 3

/-- CLR_CNT. -/
def State.mstClrCnt (s : State) : State := (s.wr Reg.MST_JOBS 0).wr Reg.MST_BLK_LOST 0

/-- MST_START (R347). -/
def execMstStart (s : State) : Host.Outcome State Fault Refusal := .next s.mstStart

/-- MST_STOP (R347). -/
def execMstStop (s : State) : Host.Outcome State Fault Refusal := .next s.mstStop

/-- MST_ABORT (R347). -/
def execMstAbort (s : State) : Host.Outcome State Fault Refusal := .next s.mstAbort

/-- MST_CLR_CNT (R347). -/
def execMstClrCnt (s : State) : Host.Outcome State Fault Refusal := .next s.mstClrCnt

/-- A write of MST_CMD. -/
def State.mstCmd (s : State) (code : Nat) : State :=
  match code with
  | 1 => s.mstStart
  | 2 => s.mstStop
  | 3 => s.mstAbort
  | 4 => s.mstClrCnt
  | _ => s.mstReject code

/-- An ENGINE reset (R347): a running job ends without a status, RD stays, and Millstone is OFF. -/
def State.mstEngineReset (s : State) : State :=
  let s1 := if s.rd Reg.MST_STAT_STATE = 2 ∧ s.jobOp = 4 then s.streamCut s.jobQueue else s
  (((({ s1 with mstQueue := [] }).wr Reg.MST_STAT_STATE 0).wr Hid.mstEnd 0).wr Hid.mstStop 0)

/-- A host port reset cuts a stream (R353): the job ends as FAULT with cause QUEUE. -/
def State.mstHostReset (s : State) : State :=
  if s.rd Reg.MST_STAT_STATE = 2 ∧ s.jobOp = 4 ∧ !s.on Hid.mstEnd then (s.streamCut s.jobQueue).jobOver 3 4 else s

end Sys2Proof.Machine
end

