-- ==== Sys2Proof/Machine/Miller.lean ====
section
/-! DEFINITION. The Miller core complex (chapter 11): accesses, timers, watchdogs, UARTs, mailboxes,
semaphores, service firmware, and the halting of a core. -/

namespace Sys2Proof.Machine

/-- Bit `i` of MIL_EVT with event 48 + `i` (R349). -/
def State.milEvt (s : State) (i : Nat) : State := s.raiseB Reg.MIL_EVT_EVT i (48 + i)

/-- A rejected MIL command (R10, R349). -/
def State.milReject (s : State) (code : Nat) : State := (s.rejMark 0x00B code).milEvt 8

/-- Core `c` is halted (R540). -/
def State.halted (s : State) (c : Nat) : Bool := s.on (Reg.DBG_CORE_STAT_HALTED c)

/-- The cores of a mask, lowest first. -/
def coresOf (m : Nat) : List Nat := setBits 4 m

/-! ### Core accesses (R325, R326, R328) -/

/-- The access takes an exception, by its number of the RISC-V privileged architecture; the trap ends the core's reservation
(R328). -/
def State.coreTrap (s : State) (c cause : Nat) : State := (s.wr (Hid.lrV c) 0).answer .err [BitVec.ofNat 8 cause]

/-- The access fault of an access (R247, R325). -/
def accFault : CoreAcc → Nat
  | .fetch | .fenceI => 1
  | .load | .lr => 5
  | .store | .amo _ | .sc => 7

/-- The address-misaligned exception of an access (R326). -/
def accMisaligned : CoreAcc → Nat
  | .fetch | .fenceI => 0
  | .load | .lr => 4
  | .store | .amo _ | .sc => 6

/-- The access writes memory. -/
def accWrites : CoreAcc → Bool
  | .store | .amo _ | .sc => true
  | .load | .lr | .fetch | .fenceI => false

/-- The access is atomic: an AMO, LR or SC. -/
def accAtomic : CoreAcc → Bool
  | .amo _ | .lr | .sc => true
  | .load | .store | .fetch | .fenceI => false

/-- The result of an AMO on `n` bytes: the value stored, from the old value and the operand. -/
def amoResult (o : Amo) (n old v : Nat) : Nat :=
  let w := 8 * n
  let x := old % 2 ^ w
  let y := v % 2 ^ w
  let smaller : Bool := decide (toSigned w x < toSigned w y)
  match o with
  | .swap => y
  | .add => (x + y) % 2 ^ w
  | .xor => x ^^^ y
  | .and => x &&& y
  | .or => x ||| y
  | .min => if smaller then x else y
  | .max => if smaller then y else x
  | .minu => min x y
  | .maxu => max x y

/-- An access to memory whose lines are at hand with the bytes `bs`. -/
def State.coreDone (s : State) (c : Nat) (k : CoreAcc) (a n : Nat) (v : Nat) (bs : List Byte) : State :=
  let old := (bs.drop (a % 64)).take n
  let put (x : Nat) (t : State) : State := t.cacheStore c a bs (leBytes n x)
  match k with
  | .load | .fetch | .fenceI => s.answer .ok old
  | .store => (put v s).answer .ok []
  | .amo o => (put (amoResult o n (ofLeBytes old) v) s).answer .ok old
  | .lr => ((s.wr (Hid.lrV c) 1).wr (Hid.lrAt c) (a / 64)).answer .ok old
  | .sc =>
    let ok := s.on (Hid.lrV c) && s.rd (Hid.lrAt c) == a / 64
    let t := s.wr (Hid.lrV c) 0
    if ok then (put v t).answer .ok [0] else t.answer .ok [1]

/-- An access through the caches. -/
def State.coreCached (s : State) (c : Nat) (k : CoreAcc) (a n v : Nat) (e : ArrayErr) : State :=
  match s.linesFor e (linesOf a n) with
  | (bs, .ok, t) => t.coreDone c k a n v bs
  | (_, .held, t) => t.answer .held []
  | (_, _, t) => t.coreTrap c (accFault k)

/-- A store reaches memory only where its regions permit it (R236, R325, R460). -/
def State.coreMayWrite (s : State) (a n : Nat) : Option State :=
  let q := s.req .miller s.milKey
  if s.rangeOfReq a n = some .hub ∧ hubWritable q a n = false then some s else s.guard q true a n

/-- The lines of a fetch: from the L1I of the core, or read and allocated there. -/
def State.fetchLines (s : State) (c : Nat) (ls : List Nat) (e : ArrayErr) : List Byte × MRes × State :=
  ls.foldl (fun (acc : List Byte × MRes × State) l =>
    match Tab.find acc.2.2.icache (2 ^ 40 * c + l) with
    | some d => (acc.1 ++ d, acc.2.1, acc.2.2)
    | none =>
      match acc.2.2.lineFor e l with
      | (d, .ok, u) =>
        let v := u.l1iRoom c
        (acc.1 ++ d, acc.2.1, { v with icache := Tab.put v.icache (2 ^ 40 * c + l) d })
      | (d, x, u) => (acc.1 ++ d, acc.2.1.join x, u)) ([], .ok, s)

/-- The word or line that an instruction comes from is uncorrectable. -/
def State.fetchBad (s : State) (a n : Nat) : Bool :=
  if isSram a then (unitsOf 8 a n).any (fun u => s.wordVerdict u == .bad)
  else (unitsOf 32 a n).any (fun u => s.lineVerdict s.milKey u == .bad)

/-- An instruction is at hand. One outside the boot ROM moves a core from ROM to RUN. -/
def State.fetched (s : State) (c a n : Nat) (bs : List Byte) : State :=
  (s.wrIf (s.rangeOf a != some .rom) (Reg.MIL_CORE_STAT_STATE c) 2).answer .ok ((bs.drop (a % 64)).take n)

/-- An instruction fetch. Where memory gave an uncorrectable word, the core traps if the instruction comes from it (R247); what the
check of a cache array finds uncorrectable traps at once (R324). -/
def State.coreFetch (s : State) (c a n : Nat) (e : ArrayErr) : State :=
  match s.fetchLines c (linesOf a n) e with
  | (bs, .ok, t) => t.fetched c a n bs
  | (_, .held, t) => t.answer .held []
  | (bs, .ue, t) => if e = .ue ∨ s.fetchBad a n = true then t.coreTrap c 1 else t.fetched c a n bs
  | (_, .err, t) => t.coreTrap c 1

/-- FENCE.I: the L1I of the core forgets its lines (R324). -/
def State.fenceI (s : State) (c : Nat) : State :=
  { s with icache := Tab.delRange s.icache (2 ^ 40 * c) (2 ^ 40 * (c + 1)) }

/-- An access to an I/O range (R326): each starts after the core's previous one has completed; its result comes with the
response on the network. -/
def State.coreIo (s : State) (c : Nat) (k : CoreAcc) (a n v : Nat) : State :=
  if accAtomic k then s.coreTrap c 7
  else if k = CoreAcc.fetch then s.coreTrap c 1
  else if a % n ≠ 0 then s.coreTrap c (accMisaligned k)
  else if s.packets.any (fun p => p.src == 93 && p.tid == c) then s.answer .held []
  else
    match s.targetOf a with
    | none => s.coreTrap c (accFault k)
    | some e =>
      let bytes : List (Option Byte) := if accWrites k then (leBytes n v).map some else List.replicate n none
      s.issue 93 e (if accWrites k then 1 else 0) s.milKey (s.rd (Reg.NOC_NI_CFG_URG 93)) c a bytes

/-- CORE_MEMORY_ACCESS (R324 to R328, R239): a core in ROM or RUN makes an access of `n` bytes to a physical address.
`mmode` says whether it runs in machine mode, `lines` the lines that the caches give up for it, `arr` what the check of the
cache arrays finds. The answer holds the bytes read, or the number of the exception taken. -/
def execCoreMemoryAccess (c : Fin 4) (k : CoreAcc) (mmode : Bool) (a : BitVec 46) (size : Fin 4) (v : DWord)
    (lines : List Nat) (ce ue : Bool) (s0 : State) : Host.Outcome State Fault Refusal :=
  .next (
    let st := s0.rd (Reg.MIL_CORE_STAT_STATE c)
    let n := 2 ^ size.val
    let x := a.toNat
    let e : ArrayErr := if ue then .ue else if ce then .ce else .none
    if st ≠ 1 ∧ st ≠ 2 then s0.answer .held []
    else
      let s := State.each lines (fun l t => t.giveUp l) s0
      if k = CoreAcc.fenceI then (s.fenceI c).answer .ok []
      else
        match s.rangeOfReq x n with
        | none => s.coreTrap c (accFault k)
        | some (.fabric _) | some .regs => s.coreIo c k x n v.toNat
        | some .rom =>
          if accWrites k || accAtomic k then s.coreTrap c (accFault k)
          else if k = CoreAcc.fetch then (if mmode then s.coreFetch c x n e else s.coreTrap c 1)
          else s.coreCached c k x n v.toNat e
        | some .dahlia =>
          if accWrites k then s.coreTrap c 7
          else if accAtomic k then s.coreTrap c (accFault k)
          else if k = CoreAcc.fetch then s.coreFetch c x n e
          else s.coreCached c k x n v.toNat e
        | some _ =>
          if accAtomic k && x % n != 0 then s.coreTrap c (accMisaligned k)
          else if k = CoreAcc.fetch then s.coreFetch c x n e
          else if accWrites k then
            match s.coreMayWrite x n with
            | some t => t.coreTrap c 7
            | none => s.coreCached c k x n v.toNat e
          else s.coreCached c k x n v.toNat e)

/-! ### Cache maintenance (R327) -/

/-- CMO commands: 0 CLEAN, 1 INVAL, 2 FLUSH. Rejected while one is in progress or where the range is not wholly in HBM or
SRAM. -/
def State.cmoCmd (s : State) (op : Nat) : State :=
  let a := 64 * s.rd Reg.MIL_CMO_BASE
  let n := s.rd Reg.MIL_CMO_SIZE
  let inMem := match s.rangeOfReq a (64 * n) with
    | some .hbm | some (.bank _) | some .hub => true
    | _ => false
  if s.on Reg.MIL_STAT_CMO_BUSY || s.bstIs 7 || !inMem then s.milReject (5 + op)
  else (((s.wr Reg.MIL_STAT_CMO_BUSY 1).wr Hid.cmoOp op).wr Hid.cmoBase a).wr Hid.cmoSize n

/-- MIL_CMO_CLEAN (R327). -/
def execMilCmoClean (s : State) : Host.Outcome State Fault Refusal := .next (s.cmoCmd 0)

/-- MIL_CMO_INVAL (R327). -/
def execMilCmoInval (s : State) : Host.Outcome State Fault Refusal := .next (s.cmoCmd 1)

/-- MIL_CMO_FLUSH (R327). -/
def execMilCmoFlush (s : State) : Host.Outcome State Fault Refusal := .next (s.cmoCmd 2)

/-- Discard every line of a byte range from every cache of the complex. -/
def State.cacheDrop (s : State) (a n : Nat) : State :=
  let keep (l : Nat) : Bool := !(decide (a / 64 ≤ l) && decide (l < (a + n + 63) / 64))
  { s with
    cache := s.cache.filter (fun x => keep x.1)
    icache := s.icache.filter (fun x => keep (x.1 % 2 ^ 40)) }

/-- CMO_DONE (R327): the command has covered every cache, and each line written back has been acknowledged. It goes on
while a write-back is held. -/
def execCmoDone (s : State) : Host.Outcome State Fault Refusal :=
  .next (if !s.on Reg.MIL_STAT_CMO_BUSY then s
    else
      let op := s.rd Hid.cmoOp
      let a := s.rd Hid.cmoBase
      let n := s.rd Hid.cmoSize
      let hit (x : Nat × CLine) : Bool := decide (a / 64 ≤ x.1) && decide (x.1 < a / 64 + n)
      let s1 := if op = 1 then s else State.each (s.cache.filter hit) (fun x t => t.cleanLine x.1) s
      if op ≠ 1 ∧ (s1.cache.filter hit).any (fun x => x.2.dirty) then s1.answer .held []
      else (if op = 0 then s1 else s1.cacheDrop a (64 * n)).wr Reg.MIL_STAT_CMO_BUSY 0)

/-! ### Halting and resuming a core (R333, R540, R546 to R548) -/

/-- SEM_OWNER.HALTED of the semaphores that core `c` holds (R333). -/
def State.semHalted (s : State) (c : Nat) (h : Bool) : State :=
  State.each (List.range 64) (fun i t =>
    t.wrIf (s.on (Reg.SEM_OWNER_HELD i) && s.rd (Reg.SEM_OWNER_OWNER i) == 0x80 + c) (Reg.SEM_OWNER_HALTED i) (b2n h)) s

/-- Some core is halted. -/
def State.anyHalted (s : State) : Bool := (List.range 4).any s.halted

/-- The supervisor watchdog pauses while HALT_HOLDS_SUP = 1 and a core is halted; when it goes on, it does so from the larger
of its count and DBG_WDG_GRACE, given in us (R547, R548). -/
def State.supPause (s : State) : State :=
  let p := s.on Reg.DBG_CTRL_HALT_HOLDS_SUP && s.anyHalted && s.on Reg.DBG_SUP_CFG_EN
  if s.on Reg.DBG_STAT_SUP_PAUSED && !p then
    (s.wr Reg.DBG_STAT_SUP_PAUSED 0).wrIf (s.on Reg.DBG_SUP_CFG_EN) Reg.DBG_SUP_VAL
      (max (s.rd Reg.DBG_SUP_VAL) ((s.rd Reg.DBG_WDG_GRACE + 999) / 1000))
  else s.wr Reg.DBG_STAT_SUP_PAUSED (b2n p)

/-- Bit `i` of DBG_EVT with event 72 + `i` (R550). -/
def State.dbgEvt (s : State) (i : Nat) : State := s.raiseB Reg.DBG_EVT_EVT i (72 + i)

/-- Core `c` halts with a cause, at the PC at which it will resume (R540). -/
def State.coreHalt (s : State) (c cause pc : Nat) : State :=
  let was := s.rd (Reg.MIL_CORE_STAT_STATE c)
  let s1 := ((s.wr (Hid.coreWas c) (if was = 3 then 2 else was)).wr (Reg.MIL_CORE_STAT_STATE c) 4).wr (Reg.DBG_CORE_STAT_HALTED c) 1
  let s2 := ((s1.wr (Reg.DBG_CORE_STAT_CAUSE c) cause).wr (Reg.DBG_CORE_DPC c) pc).setB Reg.DBG_STAT_HALTED c
  ((s2.semHalted c true).supPause).dbgEvt (1 + c)

/-! ### Mailboxes and UARTs (R331, R332, R546) -/

/-- The words of a FIFO. -/
def State.fifo (s : State) (k : Nat) : List Nat := Tab.getD s.fifos k []

/-- Set the words of a FIFO, with the count that its status register shows. -/
def State.setFifo (s : State) (k : Nat) (l : List Nat) : State :=
  let t := { s with fifos := Tab.set s.fifos k [] l }
  if k < 16 then t.wr (Reg.MIL_MB_STAT_COUNT k) l.length
  else if k < 18 then t.wr (Reg.MIL_UART_STAT_TX_CNT (k - 16)) l.length
  else t.wr (Reg.MIL_UART_STAT_RX_CNT (k - 18)) l.length

/-- Mailbox channels keep event 58 + RECV raised while they hold a message and their receiver is not halted. -/
def State.mbLevel (s : State) (k : Nat) : Bool :=
  let r := s.rd (Reg.MIL_MB_CFG_RECV k)
  !(s.fifo k).isEmpty && !(decide (r < 4) && s.halted r)

/-- UART `u` asks for event 63. -/
def State.uartLevel (s : State) (u : Nat) : Bool :=
  !s.halted (s.rd (Reg.MIL_UART_CFG_OWNER u))
    && (decide (s.rd (Reg.MIL_UART_CFG_RX_THRESH u) ≤ s.rd (Reg.MIL_UART_STAT_RX_CNT u))
      || s.on (Reg.MIL_UART_STAT_TX_OVF u) || s.on (Reg.MIL_UART_STAT_RX_OVF u))

/-- Raise the events of the conditions that hold and whose event is not pending (R331, R332). -/
def State.milLevels (s : State) : State :=
  let s1 := State.each (List.range 16) (fun k t =>
    let i := 10 + s.rd (Reg.MIL_MB_CFG_RECV k)
    if s.mbLevel k && !t.pend (48 + i) then t.milEvt i else t) s
  if (List.range 2).any s.uartLevel && !s1.pend 63 then s1.milEvt 15 else s1

/-- The transmitter of a UART takes up its next character, unless its owner is halted. -/
def State.uartKick (s : State) (u : Nat) : State :=
  s.wrIf (s.on (Reg.MIL_UART_CFG_EN u) && !s.halted (s.rd (Reg.MIL_UART_CFG_OWNER u)) && !(s.fifo (16 + u)).isEmpty)
    (Hid.uartBusy u) 1

/-- A write of MIL_UART_DATA. -/
def State.uartWrite (s : State) (u w : Nat) : State :=
  let q := s.fifo (16 + u)
  if 64 ≤ q.length then (s.wr (Reg.MIL_UART_STAT_TX_OVF u) 1).milLevels
  else (s.setFifo (16 + u) (q ++ [w % 256])).uartKick u

/-- UART_TX_WRITE (R331). -/
def execUartTxWrite (u : Fin 2) (w : Word) (s : State) : Host.Outcome State Fault Refusal :=
  .next (s.uartWrite u w.toNat)

/-- The frame of a character on the line (R331): a start bit, 8 data bits, the least significant first, the parity bit if any, and one or
two stop bits. The start bit and the order are PRESUMED, log entry 110. -/
def State.uartFrame (s : State) (u x : Nat) : List Bool :=
  let data := (List.range 8).map (bit x)
  let odd := (data.filter id).length % 2 == 1
  let p := s.rd (Reg.MIL_UART_CFG_PARITY u)
  false :: data ++ (if p = 1 then [odd] else if p = 2 then [!odd] else [])
    ++ List.replicate (1 + s.rd (Reg.MIL_UART_CFG_STOP2 u)) true

/-- UART_TX_CHARACTER (R331, R532, R546): the character in progress has been sent. -/
def execUartTxCharacter (u : Fin 2) (s : State) : Host.Outcome State Fault Refusal :=
  .next (if s.on (Hid.uartBusy u) then
      match s.fifo (16 + u) with
      | [] => s.wr (Hid.uartBusy u) 0
      | x :: r =>
        (((s.setFifo (16 + u) r).emitPins (.uartTx u (s.rd (Reg.MIL_UART_CFG_DIV u)) (s.uartFrame u x))).wr (Hid.uartBusy u) 0).uartKick u
    else s)

/-- UART_RX_BYTE (R331). -/
def execUartRxByte (u : Fin 2) (x : Byte) (s : State) : Host.Outcome State Fault Refusal :=
  .next (if !s.on (Reg.MIL_UART_CFG_EN u) then s
    else
      let q := s.fifo (18 + u)
      (if 64 ≤ q.length then s.wr (Reg.MIL_UART_STAT_RX_OVF u) 1 else s.setFifo (18 + u) (q ++ [x.toNat])).milLevels)

/-- What a read of MIL_UART_DATA returns and does; `peek` leaves the FIFO as it is (R5). An empty FIFO gives an open value. -/
def State.uartRead (s : State) (u : Nat) (peek : Bool) : Nat × State :=
  match s.fifo (18 + u) with
  | [] => (s.fresh.1 % 256, s.fresh.2)
  | x :: r => (x, if peek then s else (s.setFifo (18 + u) r).milLevels)

/-- UART_RX_READ (R331). -/
def execUartRxRead (u : Fin 2) (s : State) : Host.Outcome State Fault Refusal :=
  .next (let r := s.uartRead u false; r.2.answer .ok (leBytes 4 r.1))

/-- A message is sent on a mailbox channel. -/
def State.mbSend (s : State) (k w : Nat) : State :=
  let q := s.fifo k
  (if 16 ≤ q.length then s.wr (Reg.MIL_MB_STAT_OVF k) 1 else s.setFifo k (q ++ [w])).milLevels

/-- MB_SEND (R332). -/
def execMbSend (k : Fin 16) (w : Word) (s : State) : Host.Outcome State Fault Refusal := .next (s.mbSend k w.toNat)

/-- What a read of MIL_MB_RECV returns and does. -/
def State.mbRecv (s : State) (k : Nat) (peek : Bool) : Nat × State :=
  match s.fifo k with
  | [] => (0, s)
  | x :: r => (x, if peek then s else (s.setFifo k r).milLevels)

/-- MB_RECV (R332). -/
def execMbRecv (k : Fin 16) (s : State) : Host.Outcome State Fault Refusal :=
  .next (let r := s.mbRecv k false; r.2.answer .ok (leBytes 4 r.1))

/-! ### Semaphores (R333) -/

/-- The code of a master as the owner of a semaphore. -/
def semCode : Master → Nat
  | .core c => 0x80 + c
  | .host => 94
  | .debug => 91
  | .fabric n => n
  | .fanout => 89

/-- A write of SEM_TAKE. -/
def State.semTake (s : State) (m : Master) (i : Nat) : State :=
  if s.on (Reg.SEM_OWNER_HELD i) then s
  else
    let h := match m with | .core c => s.halted c | _ => false
    ((s.wr (Reg.SEM_OWNER_HELD i) 1).wr (Reg.SEM_OWNER_OWNER i) (semCode m)).wr (Reg.SEM_OWNER_HALTED i) (b2n h)

/-- Semaphore `i` is released. -/
def State.semFree (s : State) (i : Nat) : State :=
  ((s.wr (Reg.SEM_OWNER_HELD i) 0).wr (Reg.SEM_OWNER_OWNER i) 0).wr (Reg.SEM_OWNER_HALTED i) 0

/-- A write of SEM_GIVE. -/
def State.semGive (s : State) (m : Master) (i : Nat) : State :=
  if s.on (Reg.SEM_OWNER_HELD i) && s.rd (Reg.SEM_OWNER_OWNER i) == semCode m then s.semFree i
  else s.wr Reg.SEM_STAT_GIVE_ERR 1

/-- A write of SEM_FORCE. -/
def State.semForce (s : State) (m : Master) (i : Nat) : State :=
  match m with
  | .host | .debug => s.semFree i
  | _ => s

/-- SEM_TAKE (R333). -/
def execSemTake (m : Master) (i : Fin 64) (s : State) : Host.Outcome State Fault Refusal := .next (s.semTake m i)

/-- SEM_GIVE (R333). -/
def execSemGive (m : Master) (i : Fin 64) (s : State) : Host.Outcome State Fault Refusal := .next (s.semGive m i)

/-- SEM_FORCE (R333). -/
def execSemForce (m : Master) (i : Fin 64) (s : State) : Host.Outcome State Fault Refusal := .next (s.semForce m i)

/-! ### CORE reset (R333, R337, R545) -/

/-- A CORE reset of core `c`. Its I/O accesses in flight complete, and their responses are discarded (R321). -/
def State.coreReset (s : State) (c : Nat) : State :=
  let s1 := State.each (List.range 64) (fun i t =>
    if s.on (Reg.SEM_OWNER_HELD i) && s.rd (Reg.SEM_OWNER_OWNER i) == 0x80 + c then t.semFree i else t) s
  let s2 := ((s1.wr Reg.SEM_STAT_RESET_REL 1).wr (Reg.MIL_CORE_STAT_STATE c) 0).fenceI c
  let s3 := [Reg.MIL_MTIMECMP c, Reg.MIL_MSIP c, Reg.MIL_WDG_CFG_EN c, Reg.MIL_WDG_CFG_ACTION c, Reg.MIL_WDG_CFG_LOAD c,
    Reg.MIL_WDG_VAL c, Hid.mtip c, Hid.wdgWarn c, Hid.lrV c, Hid.haltWant c, Reg.DBG_CORE_STAT_HALTED c].foldl (fun t f => t.clr f) s2
  let s4 : State := { s3 with packets := s3.packets.map (fun p => if p.src = 93 ∧ p.tid = c then { p with void := true } else p) }
  ((((s4.discardMaster (2 + c)).clrB Reg.DBG_STAT_HALTED c).supPause).uartKick 0 |>.uartKick 1).milLevels

/-! ### Timers and watchdogs (R329, R330) -/

/-- CORE_TIMER_IRQ (R329): the timebase, in ns, is at or above MIL_MTIMECMP, and the core takes note; a core in WFI wakes. -/
def execCoreTimerIrq (c : Fin 4) (s : State) : Host.Outcome State Fault Refusal :=
  .next (if s.rd (Reg.MIL_MTIMECMP c) ≤ s.now / 4 ∧ !s.halted c then
      (s.wr (Hid.mtip c) 1).wrIf (s.rd (Reg.MIL_CORE_STAT_STATE c) == 3) (Reg.MIL_CORE_STAT_STATE c) 2
    else s)

/-- A write of MIL_WDG_KICK; kicks of a halted core's watchdog are ignored (R546). -/
def State.wdgKick (s : State) (c w : Nat) : State :=
  if w = 0x5AFE ∧ s.on (Reg.MIL_WDG_CFG_EN c) ∧ !s.halted c then
    (s.wr (Reg.MIL_WDG_VAL c) (s.rd (Reg.MIL_WDG_CFG_LOAD c))).wr (Hid.wdgWarn c) 0
  else s

/-- WDG_KICK (R330). -/
def execWdgKick (c : Fin 4) (w : Word) (s : State) : Host.Outcome State Fault Refusal := .next (s.wdgKick c w.toNat)

/-- MIL_WDG_CFG has been written: a watchdog that EN starts counts from LOAD, and one that it stops shows 0. -/
def State.wdgCfgDone (s0 s : State) (c : Nat) : State :=
  let was := s0.on (Reg.MIL_WDG_CFG_EN c)
  let now := s.on (Reg.MIL_WDG_CFG_EN c)
  if was = now then s
  else (s.wr (Reg.MIL_WDG_VAL c) (if now then s.rd (Reg.MIL_WDG_CFG_LOAD c) else 0)).wr (Hid.wdgWarn c) 0

/-- WDG_EXPIRE (R330): the count of an enabled watchdog, whose core is not halted, reaches 0 from its last microsecond. -/
def execWdgExpire (c : Fin 4) (s : State) : Host.Outcome State Fault Refusal :=
  .next (if !s.on (Reg.MIL_WDG_CFG_EN c) || s.halted c || decide (1 < s.rd (Reg.MIL_WDG_VAL c)) then s
    else
      let s1 := (s.wr (Reg.MIL_WDG_VAL c) (s.rd (Reg.MIL_WDG_CFG_LOAD c))).wr (Hid.wdgWarn c) 1
      if s.on (Hid.wdgWarn c) && s.on (Reg.MIL_WDG_CFG_ACTION c) then ((s1.milEvt (4 + c)).journal 3 c).coreReset c
      else s1.milEvt c)

/-! ### Service firmware (R334 to R336, R446, R452) -/

/-- The minimum firmware SVN: the highest-numbered entry of the fuses that is not 0 (R446). -/
def State.minSvn (s : State) : Nat :=
  (List.range 16).foldl (fun a j =>
    let v := bits (s.rd (Reg.PEO_FUSE (84 + j / 2))) (16 * (j % 2) + 15) (16 * (j % 2))
    if v = 0 then a else v) 0

/-- Owner slot 0 to 7 is not revoked and has the usage `u` (R444, R454): 0 BITSTREAM, 1 FIRMWARE, 2 DEBUG. -/
def State.slotAllows (s : State) (id u : Nat) : Bool :=
  let w := s.rd (Reg.PEO_FUSE 83)
  decide (id < 8) && !bit w (24 + id) && bit w (3 * id + u)

/-- The digest that the fuses hold for an owner slot (R444). -/
def State.slotDigest (s : State) (i : Nat) : Nat :=
  (List.range 8).foldr (fun j a => s.rd (Reg.PEO_FUSE (19 + 8 * i + j)) + 2 ^ 32 * a) 0

/-- The key that KEY_ID names may be used (R452): its slot allows the use, its digest has been written, and the key installed
for it has that digest. -/
def State.keyUsable (s : State) (id u : Nat) : Bool :=
  s.slotAllows id u && s.slotDigest id != 0 && s.on (Hid.ownerKeyV id) && s.rd (Hid.ownerDig id) == s.slotDigest id

/-- The source of a firmware image: `n` bytes from offset `o`, with the cause of a failed read. -/
def State.fwBytes (s : State) (o n : Nat) : List Byte × MRes × State :=
  if s.on Hid.fwMem then s.coRead (s.req .peony s.milKey) (s.rd Hid.fwSrc + o) n
  else (s.dahBytes (0x1B000000 + s.rd Hid.fwSlot * 0x01100000 + 64 + o) n, .ok, s)

/-- The range of a load: wholly in HBM, in the general region, or in the island banks (R335). -/
def State.fwRangeOk (s : State) (a n : Nat) : Bool :=
  match s.rangeOfReq a n with
  | some .hbm | some (.bank _) => true
  | some .hub => decide (0x100FE00000 ≤ a)
  | _ => false

/-- Little-endian field of a header. -/
def hdrField (h : List Byte) (o n : Nat) : Nat := ofLeBytes ((h.drop o).take n)

/-- The header is well formed (R334). -/
def fwHeaderOk (h : List Byte) : Bool :=
  let len := hdrField h 32 4
  let load := hdrField h 16 8
  let entry := hdrField h 24 8
  h.length == 256 && hdrField h 0 4 == 0x57464C4D && hdrField h 4 2 == 1 && hdrField h 6 2 / 16 == 0
    && decide (hdrField h 12 4 < 65536) && load % 64 == 0 && decide (load ≤ entry) && decide (entry < load + len)
    && decide (64 ≤ len) && decide (len ≤ 2 ^ 24) && len % 64 == 0
    && ((h.drop 40).take 56).all (fun b => b == 0) && ((h.drop 160).take 96).all (fun b => b == 0)

/-- LOAD_SLOT or LOAD_MEM is accepted (R335): the load runs, and the range that its header names is blocked. `auto` names
the cores that start once it succeeds (R433). -/
def State.fwLoad (s : State) (mem : Bool) (slot auto : Nat) : State :=
  if s.on Reg.MIL_STAT_FW_BUSY || !s.coresInReset then s.milReject (if mem then 2 else 1)
  else
    let s1 := ((((s.wr Reg.MIL_STAT_FW_BUSY 1).wr Hid.fwMem (b2n mem)).wr Hid.fwSlot slot).wr Hid.fwSrc
      (64 * s.rd Reg.MIL_FW_SRC)).wr Hid.fwAuto auto
    let (h, r, s2) := s1.fwBytes 0 256
    let load := hdrField h 16 8
    let len := hdrField h 32 4
    if r = .ok ∧ fwHeaderOk h ∧ s2.fwRangeOk load len then
      ((s2.wr Hid.fwProt 1).wr Hid.fwProtBase load).wr Hid.fwProtSize len
    else s2

/-- MIL_LOAD_SLOT (R335). -/
def execMilLoadSlot (slot : Fin 4) (s : State) : Host.Outcome State Fault Refusal := .next (s.fwLoad false slot 0)

/-- MIL_LOAD_MEM (R335). -/
def execMilLoadMem (s : State) : Host.Outcome State Fault Refusal := .next (s.fwLoad true 0 0)

/-- Core `c` leaves RESET into the boot ROM (R336): a0 holds its hart ID and a1 LOAD; HALT_ON_RESET halts it at once
(R540). -/
def State.coreStart (s : State) (c : Nat) : State :=
  let s1 := ((s.wr (Reg.MIL_CORE_STAT_STATE c) 1).wr (Hid.coreGpr c 10) c).wr (Hid.coreGpr c 11) (s.rd Hid.fwLoad)
  if s.on (Reg.DBG_CORE_CTRL_HALT_ON_RESET c) then s1.coreHalt c 6 0x3F00000000 else s1

/-- START (R336). -/
def State.milStart (s : State) (cores : Nat) : State :=
  let l := coresOf cores
  if s.on Reg.MIL_STAT_FW_LOADED && !l.isEmpty && !s.bstIs 7
      && l.all (fun c => s.rd (Reg.MIL_CORE_STAT_STATE c) == 0 && bit (s.rd Hid.fwCores) c) then
    State.each l (fun c t => t.coreStart c) s
  else s.milReject 3

/-- MIL_START (R336). -/
def execMilStart (cores : Fin 16) (s : State) : Host.Outcome State Fault Refusal := .next (s.milStart cores)

/-- RESET_CORES (R337). -/
def State.milResetCores (s : State) (cores : Nat) : State :=
  if cores % 16 = 0 then s.milReject 4 else State.each (coresOf cores) (fun c t => t.coreReset c) s

/-- MIL_RESET_CORES (R337). -/
def execMilResetCores (cores : Fin 16) (s : State) : Host.Outcome State Fault Refusal := .next (s.milResetCores cores)

/-- A failed load (R335): the range is filled with zeros, FW_LOADED clears, and event 57 is raised. -/
def State.fwFail (s : State) (cause : Nat) : State :=
  let s1 := if s.on Hid.fwProt then
      (s.coWrite (s.req .peony s.milKey) (s.rd Hid.fwProtBase) (List.replicate (s.rd Hid.fwProtSize) 0)).2
    else s
  (((((s1.wr Hid.fwProt 0).wr Reg.MIL_STAT_FW_BUSY 0).wr Reg.MIL_STAT_FW_LOADED 0).wr Reg.MIL_FW_STAT_CAUSE cause).wr
    Reg.MIL_FW_STAT_RESULT 2).milEvt 9

/-- A load that has passed every check. -/
def State.fwPass (s : State) (h : List Byte) : State :=
  let ver := hdrField h 8 4
  let s1 := (((s.wr Reg.MIL_FW_VER_MAJOR (bits ver 31 24)).wr Reg.MIL_FW_VER_MINOR (bits ver 23 16)).wr Reg.MIL_FW_VER_PATCH
    (bits ver 15 0)).wr Reg.MIL_FW_SVN_SVN (hdrField h 12 4)
  let s2 := ((((s1.wr Hid.fwCores (hdrField h 6 2)).wr Hid.fwLoad (hdrField h 16 8)).wr Hid.fwEntry (hdrField h 24 8)).wr
    Hid.fwKeyId (hdrField h 36 4)).wr Hid.fwDigest (hdrField h 96 64)
  let s3 := s2.cacheDrop (hdrField h 16 8) (hdrField h 32 4)
  let s4 := (((((s3.wr Hid.fwProt 0).wr Reg.MIL_STAT_FW_BUSY 0).wr Reg.MIL_STAT_FW_LOADED 1).wr Reg.MIL_FW_STAT_CAUSE 0).wr
    Reg.MIL_FW_STAT_RESULT 1).milEvt 9
  if s.rd Hid.fwAuto = 0 then s4 else (s4.wr Hid.fwAuto 0).milStart (s.rd Hid.fwAuto)

/-- The slot of a load from Dahlia holds an image (R335, cause SOURCE). -/
def State.fwSourceOk (s : State) : Bool :=
  s.on Hid.fwMem || s.rd (Reg.DAH_FW_STAT_STATE (s.rd Hid.fwSlot)) == 2

/-- FW_LOAD_DONE (R335): Peony copies the body, checks it, and ends the load. `read` says whether Dahlia's reads succeeded (R424),
`digest` whether the body as copied has the header's DIGEST, `sig` whether the signature verifies under the key that the
header names. A load whose memory is held waits. -/
def execFwLoadDone (read digest sig : Bool) (s : State) : Host.Outcome State Fault Refusal :=
  .next (if !s.on Reg.MIL_STAT_FW_BUSY then s
    else if !s.fwSourceOk then s.fwFail 6
    else if !read && !s.on Hid.fwMem then s.dahReadErr.fwFail 6
    else
      let (h, r, s1) := s.fwBytes 0 256
      if r = .held then s1.answer .held []
      else if r ≠ .ok then s1.fwFail 5
      else if !fwHeaderOk h then s1.fwFail 1
      else
        let load := hdrField h 16 8
        let len := hdrField h 32 4
        if !s1.fwRangeOk load len then s1.fwFail 4
        else
          let s2 := ((s1.wr Hid.fwProt 1).wr Hid.fwProtBase load).wr Hid.fwProtSize len
          let (body, rb, s3) := s2.fwBytes 256 (len + 1284)
          if rb = .held then s3.answer .held []
          else if rb ≠ .ok then s3.fwFail 5
          else
            let (rw, s4) := s3.coWrite (s3.req .peony s3.milKey) load (body.take len)
            if rw = .held then s4.answer .held []
            else if rw ≠ .ok then s4.fwFail 5
            else if !digest || !sig || !s4.keyUsable (hdrField h 36 4) 1 then s4.fwFail 2
            else if hdrField h 12 4 < s4.minSvn then s4.fwFail 3
            else s4.fwPass h)

/-- A write of MIL_CMD (R349). -/
def State.milCmd (s : State) (code slot cores : Nat) : State :=
  match code with
  | 1 => s.fwLoad false slot 0
  | 2 => s.fwLoad true 0 0
  | 3 => s.milStart cores
  | 4 => s.milResetCores cores
  | 5 => s.cmoCmd 0
  | 6 => s.cmoCmd 1
  | 7 => s.cmoCmd 2
  | _ => s.milReject code

/-- What an ENGINE reset does to the complex (R337). -/
def State.milEngineReset (s : State) : State := State.each (List.range 4) (fun c t => t.coreReset c) s

end Sys2Proof.Machine
end

