-- ==== Sys2Proof/Machine/Stream.lean ====
section
/-! DEFINITION. Configuration: frames, the stream and its packets, the controller's states, sources, start-up and partial
reconfiguration (chapter 13). -/

namespace Sys2Proof.Machine

/-! ### Events and rejects (R425) -/

/-- Bits of CFG_EVT with their device events (R425): 0 to 3 are events 1 to 4, 4 is event 7. -/
def State.cfgEvt (s : State) (i : Nat) : State := s.raiseB Reg.CFG_EVT_EVT i (if i = 4 then 7 else i + 1)

/-- A rejected CFG command (R401). -/
def State.cfgReject (s : State) (code : Nat) : State := (s.rejMark 0x002 code).cfgEvt 2

/-! ### Frame addresses (R382, R383, R385) -/

def farPlane (f : Nat) : Nat := bits f 26 24
def farIsl (f : Nat) : Nat := bits f 22 16
def farType (f : Nat) : Nat := bits f 13 12
def farCol (f : Nat) : Nat := bits f 10 8
def farMinor (f : Nat) : Nat := bits f 7 0

/-- The word of a frame address. -/
def farOf (plane isl type col minor : Nat) : Nat := plane * 2 ^ 24 + isl * 2 ^ 16 + type * 2 ^ 12 + col * 2 ^ 8 + minor

/-- First and number of the populated minors of a type (R383). -/
def minorBase (t : Nat) : Nat := if t = 3 then 196 else 0
def minorCount (t : Nat) : Nat := if t = 0 then 100 else if t = 1 then 80 else if t = 2 then 16 else 4

/-- A frame address is populated, with no other bit set (R382, R383). -/
def farOk (f : Nat) : Bool :=
  f == farOf (farPlane f) (farIsl f) (farType f) (farCol f) (farMinor f) && decide (farIsl f < 80)
    && decide (minorBase (farType f) ≤ farMinor f) && decide (farMinor f < minorBase (farType f) + minorCount (farType f))

/-- The number of a frame in its plane of its island, 0 to 1,599, in the order of R385. -/
def frameIdx (f : Nat) : Nat :=
  (if farType f = 0 then 0 else if farType f = 1 then 800 else if farType f = 2 then 1440 else 1568)
    + farCol f * minorCount (farType f) + (farMinor f - minorBase (farType f))

/-- The next populated address, none past the last one (R385). -/
def farNext (f : Nat) : Option Nat :=
  let p := farPlane f
  let n := farIsl f
  let t := farType f
  let c := farCol f
  if farMinor f + 1 < minorBase t + minorCount t then some (f + 1)
  else if c < 7 then some (farOf p n t (c + 1) (minorBase t))
  else if t < 3 then some (farOf p n (t + 1) 0 (minorBase (t + 1)))
  else if n < 79 then some (farOf p (n + 1) 0 0 0)
  else if p < 7 then some (farOf (p + 1) 0 0 0 0)
  else none

/-- The number that 32-bit words spell, word 0 lowest. -/
def ofWords (l : List Nat) : Nat := l.foldr (fun w a => w % 2 ^ 32 + 2 ^ 32 * a) 0

/-- The check of a frame's data (R384): 32 row parities, then 64 column parities. -/
def frameCheck (d : Nat) : Nat :=
  (List.range 32).foldl (fun a j => a + popCount 64 (d / 2 ^ (64 * j)) % 2 * 2 ^ j) 0
    + (List.range 32).foldl (fun a j => a ^^^ (d / 2 ^ (64 * j) % 2 ^ 64)) 0 * 2 ^ 32

/-! ### Aborts (R393, R394) -/

/-- A region island that has received no frame of its active plane runs on, and one that has is BLANK; an island that was
being loaded from BLANK, or was starting, is BLANK again (R180, R394). -/
def State.abortIsland (n : Nat) (s : State) : State :=
  let l := s.rd (Reg.ISL_CTX_VALID_LOADING n)
  let s1 := (s.wr (Reg.ISL_CTX_VALID_VALID n) (s.rd (Reg.ISL_CTX_VALID_VALID n) - (s.rd (Reg.ISL_CTX_VALID_VALID n) &&& l))).wr
    (Reg.ISL_CTX_VALID_LOADING n) 0
  let st := s.rd (Reg.ISL_STAT_STATE n)
  let s2 :=
    if st = 1 ∧ s.on (Hid.prIsl n) ∧ !s.on (Hid.prGot n) then
      (s1.wr (Reg.ISL_STAT_STATE n) 3).wr (Reg.ISL_WEIR_STAT_CLOSED n) 0
    else if st = 1 ∨ (st = 2 ∧ bit (s.rd Hid.startSet) n) then s1.wr (Reg.ISL_STAT_STATE n) 0
    else s1
  (s2.wr (Hid.prIsl n) 0).wr (Hid.prGot n) 0

/-- The section, the encrypted section and the packet in progress are forgotten. -/
def State.cfgForget (s : State) : State :=
  let s1 := ((((s.wr Hid.cfgAuth 0).wr Hid.cfgSig 0).wr Hid.cfgEnc 0).wr Hid.cfgEncLeft 0).wr Hid.cfgLeft 0
  { s1 with fifos := Tab.del s1.fifos 33 }

/-- The load aborts into HALTED_LOAD with a cause (R393, R394). -/
def State.cfgAbort (s : State) (cause : Nat) : State :=
  let s1 := (((((s.wr Reg.CFG_STAT_LSTATE 7).wr Reg.CFG_LOAD_STAT_CAUSE cause).wr Reg.CFG_LOAD_STAT_RESULT 2).wr
    Reg.CFG_ERR_WORD (s.rd Reg.CFG_WORDS)).wr Reg.CFG_ERR_FAR (s.rd Hid.cfgFar)).wr Reg.CFG_STAT_DONE_WAITING 0
  let s2 := (State.each (List.range 80) State.abortIsland s1).cfgForget
  let s3 := (s2.wr Hid.startSet 0).wrIf (!s.on Reg.CFG_STAT_OPERATING) Reg.CFG_PINS_INIT_N 0
  s3.cfgEvt 1

/-- A stream is under way: HEADER to COMMITTED. -/
def State.cfgOpen (s : State) : Bool := decide (2 ≤ s.rd Reg.CFG_STAT_LSTATE) && decide (s.rd Reg.CFG_STAT_LSTATE ≤ 5)

/-! ### The words of the active source (R400 to R402, R408) -/

/-- FREE of the host FIFO follows its bytes, and a held write enters as soon as a word is free (R402). -/
def State.cfgFifoStat (s : State) : State :=
  let q := Tab.getD s.fifos 32 []
  if s.on Hid.cfgHeldV ∧ q.length ≤ 1020 then
    let nq := q ++ (leBytes 4 (s.rd Hid.cfgHeld)).map BitVec.toNat
    { s.wr Hid.cfgHeldV 0 with fifos := Tab.set s.fifos 32 [] nq }.wr Reg.CFG_FIFO_STAT_FREE (256 - (nq.length + 3) / 4)
  else s.wr Reg.CFG_FIFO_STAT_FREE (256 - (q.length + 3) / 4)

/-- The next `n` bytes of the active source, with the result of their read and the state after they have been taken; none
where the source has fewer. What a flash or a ganged leader sends is what the command brings (`given`). -/
def State.srcBytes (s : State) (given : List Byte) : Option (List Byte × MRes × State) :=
  let n := given.length
  let p := s.rd Hid.cfgPtr
  match s.rd Reg.CFG_LOAD_STAT_SOURCE with
  | 1 => if s.on Hid.flashOk then some (given, .ok, s) else none
  | 2 => some (given, .ok, s)
  | 3 =>
    if p + n ≤ s.rd Hid.cfgEnd then some (s.dahBytes p n, .ok, s.wr Hid.cfgPtr (p + n)) else none
  | 4 =>
    if p + n ≤ s.rd Hid.cfgEnd then
      let (d, r, t) := s.coRead (s.req .config (s.rd Reg.CFG_MEM_KEY)) p n
      if r = .held then none else some (d, r, t.wr Hid.cfgPtr (p + n))
    else none
  | 5 =>
    let q := Tab.getD s.fifos 32 []
    if n ≤ q.length then
      some ((q.take n).map (BitVec.ofNat 8), .ok, { s with fifos := Tab.set s.fifos 32 [] (q.drop n) }.cfgFifoStat)
    else none
  | _ => none

/-- The bytes of words. -/
def wordBytes (ws : List Nat) : List Byte := ws.flatMap (leBytes 4)

/-- Take words from the source: they must be the next that it delivers. The words of a read that cannot be corrected are
not known (`ue`). CFG_WORDS counts them (R427). -/
def State.srcWords (s : State) (ws : List Nat) : Option (Bool × State) :=
  if !s.on Reg.CFG_STAT_SRC_ACTIVE then none
  else if ws = [] then some (false, s)
  else match s.srcBytes (wordBytes ws) with
  | none => none
  | some (d, r, t) =>
    let t1 := t.add Reg.CFG_WORDS ws.length
    if r ≠ .ok then some (true, t1) else if d = wordBytes ws then some (false, t1) else none

/-- Take words of the stream: in an encrypted section those of its verified plaintext come first (R400). -/
def State.takeWords (s : State) (ws : List Nat) : Option (Bool × State) :=
  if !s.on Hid.cfgEnc then s.srcWords ws
  else
    let q := Tab.getD s.fifos 33 []
    let k := min q.length ws.length
    if q.take k ≠ ws.take k ∨ (k < ws.length ∧ s.rd Hid.cfgEncLeft ≠ 0) then none
    else
      let t := { s with fifos := Tab.set s.fifos 33 [] (q.drop k) }
      let t1 := t.wrIf (q.length == k && t.rd Hid.cfgEncLeft == 0) Hid.cfgEnc 0
      t1.srcWords (ws.drop k)

/-- The running CRC takes the bytes of words (R390). -/
def State.cfgCrcAdd (s : State) (ws : List Nat) : State :=
  s.wr Hid.cfgCrc ((wordBytes ws).foldl (fun r b => crcByte 32 0x1EDC6F41 r (revBits 8 b.toNat)) (s.rd Hid.cfgCrc))

/-- The running CRC (R390). -/
def State.cfgCrcNow (s : State) : Nat := revBits 32 (s.rd Hid.cfgCrc) ^^^ 0xFFFFFFFF

/-! ### Packets (R387, R388) -/

/-- A packet header: a NOOP, a write of a stream register with its COUNT and the number of header words, or malformed. -/
inductive PktHead where
  | noop | write (reg count len : Nat) | bad (len : Nat) | short
deriving DecidableEq, Repr

/-- The rule that COUNT must meet for a stream register (R388); ZDATA's WORDS is checked with its payload. -/
def countOk (reg count : Nat) : Bool :=
  match reg with
  | 0 | 1 | 2 | 4 | 5 | 10 => count == 1
  | 3 => count % 67 == 0
  | 6 => count == 3
  | 7 | 8 => decide (3 ≤ count)
  | 9 => decide (6 ≤ count)
  | _ => false

/-- Read a packet header (R387). -/
def pktHead (ws : List Nat) : PktHead :=
  match ws with
  | [] => .short
  | w :: r =>
    let k := bits w 31 28
    let reg := bits w 27 20
    let c := bits w 19 0
    if k = 0 then (if w = 0 then .noop else .bad 1)
    else if k = 1 then (if c = 0 ∨ !countOk reg c then .bad 1 else .write reg c 1)
    else if k = 2 then
      if c ≠ 0 then .bad 1
      else match r with
      | [] => .short
      | n :: _ => if n = 0 ∨ 2 ^ 28 ≤ n ∨ !countOk reg n then .bad 2 else .write reg n 2
    else .bad 1

/-- The controller reads the stream now: HEADER to COMMITTED, a source is active, no packet is open and no verification
is awaited. -/
def State.cfgReads (s : State) : Bool := s.cfgOpen && s.on Reg.CFG_STAT_SRC_ACTIVE && !s.on Hid.cfgSig

/-- A packet of register `reg` arrives, whole: its header is judged, its words are taken and enter the CRC, and its payload has the
given effect. Nothing happens where the words are not what the source delivers next, or are not such a packet. `size` is
how many payload words belong to it, of a COUNT. -/
def State.packet (s : State) (reg : Nat) (size : Nat → Nat) (p : Packet) (eff : List Nat → State → State) : State :=
  let ws := p.words.map BitVec.toNat
  if !s.cfgReads || s.rd Hid.cfgLeft != 0 then s
  else
    let go (l : List Nat) (crc : Bool) (f : State → State) : State :=
      match s.takeWords l with
      | none => s
      | some (ue, t) =>
        if ue || p.lost then
          (if s.rd Reg.CFG_LOAD_STAT_SOURCE = 3 then t.dahReadErr
            else t).cfgAbort 13
        else f (if crc then t.cfgCrcAdd l else t)
    match pktHead ws with
    | .short | .noop => s
    | .bad n => go (ws.take n) true (fun t => t.cfgAbort 2)
    | .write r c n =>
      if r ≠ reg ∨ ws.length ≠ n + size c then s
      else go ws (reg != 0) (eff (ws.drop n))

/-- The part of the effect that needs one of some states: otherwise the packet is state-illegal (R392). -/
def State.legalIn (s : State) (ok : Bool) (op : State → State) : State := if ok then op s else s.cfgAbort 1

/-- HEADER, OPEN or COMMITTED. -/
def State.betweenFrames (s : State) : Bool :=
  let l := s.rd Reg.CFG_STAT_LSTATE
  l == 2 || l == 3 || l == 5

/-- CFG_SYNC_WORD (R386, R391): in WAIT_SYNC or HALTED_LOAD the sync word comes `skip` bytes on in the active source; no
earlier bytes spell it. -/
def execCfgSyncWord (skip : List Byte) (s : State) : Host.Outcome State Fault Refusal :=
  let l := s.rd Reg.CFG_STAT_LSTATE
  let sync : List Byte := leBytes 4 0x6D31E0A5
  let all := skip ++ sync
  .next (if !s.on Reg.CFG_STAT_SRC_ACTIVE || (l != 1 && l != 7) then s
    else match s.srcBytes all with
    | none => s
    | some (d, _, t) =>
      if d.drop skip.length ≠ sync ∨ (List.range skip.length).any (fun i => (d.drop i).take 4 == sync) then s
      else
        let t1 := t.cfgForget
        let t2 := ((((((t1.wr Reg.CFG_STAT_LSTATE 2).wr Hid.cfgCrc 0xFFFFFFFF).wr Hid.cfgGsel 255).wr Reg.CFG_STARTUP 0x1024).wr
          Reg.CFG_WORDS 0).wr Hid.cfgFar 0).wr Hid.cfgFarEnd 0
        let t3 := State.each (List.range 3) (fun w a => a.wr (Reg.CFG_REGION w) 0) t2
        State.each (List.range 80) (fun n a => State.each (List.range 8) (fun c b => b.wr (Hid.cfgRef n c) 0) a) t3)

/-- PKT_NOOP (R387). -/
def execPktNoop (s : State) : Host.Outcome State Fault Refusal :=
  .next (if !s.cfgReads || s.rd Hid.cfgLeft != 0 then s
    else match s.takeWords [0] with
    | none => s
    | some (ue, t) => if ue then t.cfgAbort 13 else t.cfgCrcAdd [0])

/-- The one payload word. -/
def word0 (l : List Nat) : Nat := l.headD 0

/-- PKT_CRC (R390). -/
def execPktCrc (p : Packet) (s : State) : Host.Outcome State Fault Refusal :=
  .next (s.packet 0 id p (fun l t => if word0 l = t.cfgCrcNow then t else t.cfgAbort 6))

/-- PKT_IDCODE (R388, R391). -/
def execPktIdcode (p : Packet) (s : State) : Host.Outcome State Fault Refusal :=
  .next (s.packet 1 id p (fun l t => t.legalIn (t.rd Reg.CFG_STAT_LSTATE == 2) (fun a =>
    if word0 l % 2 ^ 28 = 0x09260A13 then a.wr Reg.CFG_STAT_LSTATE 3 else a.cfgAbort 3)))

/-- PKT_FAR (R382, R393). -/
def execPktFar (p : Packet) (s : State) : Host.Outcome State Fault Refusal :=
  .next (s.packet 2 id p (fun l t =>
    t.legalIn (t.rd Reg.CFG_STAT_LSTATE == 3 || t.rd Reg.CFG_STAT_LSTATE == 4) (fun a =>
      if farOk (word0 l) then (a.wr Hid.cfgFar (word0 l)).wr Hid.cfgFarEnd 0 else a.cfgAbort 4)))

/-- The bits of a STARTUP value are in order (R413). -/
def startupOk (w : Nat) : Bool :=
  let a := bits w 1 0
  let b := bits w 3 2
  let c := bits w 5 4
  w == a + 4 * b + 16 * c + 256 * bits w 8 8 + 4096 * bits w 15 12
    && decide (a < 3) && decide (b < 3) && decide (c < 3) && a != b && a != c && b != c

/-- PKT_STARTUP (R413). -/
def execPktStartup (p : Packet) (s : State) : Host.Outcome State Fault Refusal :=
  .next (s.packet 5 id p (fun l t =>
    if !startupOk (word0 l) then t.cfgAbort 2
    else t.legalIn (t.rd Reg.CFG_STAT_LSTATE == 3) (fun a => a.wr Reg.CFG_STARTUP (word0 l))))

/-- Some island is LOADING under PR_BEGIN. -/
def State.prOpen (s : State) : Bool :=
  (List.range 80).any (fun n => s.on (Hid.prIsl n) && s.rd (Reg.ISL_STAT_STATE n) == 1)

/-- PKT_REGION (R388, R392). -/
def execPktRegion (p : Packet) (s : State) : Host.Outcome State Fault Refusal :=
  .next (s.packet 6 id p (fun l t =>
    if 2 ^ 16 ≤ (l[2]?).getD 0 then t.cfgAbort 2
    else t.legalIn (t.rd Reg.CFG_STAT_LSTATE == 3 && !t.prOpen) (fun a =>
      State.each (List.range 3) (fun w b => b.wr (Reg.CFG_REGION w) ((l[w]?).getD 0)) a)))

/-- PKT_GSEL (R388, R406). -/
def execPktGsel (p : Packet) (s : State) : Host.Outcome State Fault Refusal :=
  .next (s.packet 10 id p (fun l t => t.wr Hid.cfgGsel (word0 l)))

/-- PKT_AUTH (R398). -/
def execPktAuth (p : Packet) (s : State) : Host.Outcome State Fault Refusal :=
  .next (s.packet 8 id p (fun l t =>
    let n := (l[1]?).getD 0
    if n = 0 ∨ 1280 < n then t.cfgAbort 7
    else if l.length ≠ 2 + (n + 3) / 4 ∧ l.length ≠ 322 then t.cfgAbort 2
    else t.legalIn (t.betweenFrames && !t.on Hid.cfgAuth && !t.on Hid.cfgEnc) (fun a =>
      (a.wr Hid.cfgAuth 1).wr Hid.cfgAuthKey (word0 l))))

/-- PKT_ENC (R400): the six words that open an encrypted section; its segments follow as ENC_SEGMENT, whether COUNT
includes them or not. -/
def execPktEnc (p : Packet) (s : State) : Host.Outcome State Fault Refusal :=
  .next (s.packet 9 (fun _ => 6) p (fun l t =>
    let len := (l[4]?).getD 0
    let seg := (l[5]?).getD 0
    let count := (match pktHead (p.words.map BitVec.toNat) with | .write _ c _ => c | _ => 0)
    if 1 < word0 l ∨ (seg ≠ 256 ∧ seg ≠ 1024 ∧ seg ≠ 4096) ∨ 2 ^ 28 ≤ len
        ∨ (count ≠ 6 ∧ count ≠ 6 + len + 4 * ((len + seg - 1) / seg)) then t.cfgAbort 2
    else t.legalIn (t.betweenFrames && !t.on Hid.cfgEnc) (fun a =>
      (((a.wr Hid.cfgEnc (b2n (len != 0))).wr Hid.cfgEncLeft len).wr Hid.cfgEncSeg seg).wr Hid.cfgEncKey (word0 l))))

/-- The key that the section names may be used (R448, R450): written or sealed, and not RETURNED. -/
def State.encKeyOk (s : State) : Bool :=
  s.rd Reg.PEO_LCS != 3
    && (if s.on Hid.cfgEncKey then s.on Hid.sealedV else (List.range 8).any (fun j => s.rd (Reg.PEO_FUSE (11 + j)) != 0))

/-- ENC_SEGMENT (R400): the next segment, with its tag, arrives. `plain` is its plaintext where the tag verifies, none
where it fails; `cipher` holds its words and the four of the tag. -/
def execEncSegment (cipher : List Word) (plain : Option (List Word)) (s : State) : Host.Outcome State Fault Refusal :=
  let n := min (s.rd Hid.cfgEncSeg) (s.rd Hid.cfgEncLeft)
  .next (if !s.cfgReads || !s.on Hid.cfgEnc || n == 0 || cipher.length != n + 4 then s
    else match s.srcWords (cipher.map BitVec.toNat) with
    | none => s
    | some (ue, t) =>
      if ue then t.cfgAbort 13
      else match if s.encKeyOk then plain else none with
      | none => t.cfgAbort 8
      | some ws =>
        if ws.length ≠ n then s
        else { t.wr Hid.cfgEncLeft (t.rd Hid.cfgEncLeft - n) with
          fifos := Tab.set t.fifos 33 [] (Tab.getD t.fifos 33 [] ++ ws.map BitVec.toNat) })

/-! ### Frame writes (R395, R411, R416) -/

/-- A frame of plane `c` is skipped (R395, R401, R406). -/
def State.frameSkipped (s : State) (c : Nat) : Bool :=
  !s.bitOf Hid.cfgGsel (s.rd Reg.CFG_PINS_GANG_POS) || !s.bitOf Hid.cfgPlanes c

/-- The target of a frame write is legal (R395): an active plane only in an island that is BLANK, LOADING or OFF. -/
def State.frameLegal (s : State) (n c : Nat) : Bool :=
  let st := s.rd (Reg.ISL_STAT_STATE n)
  s.rd (Reg.ISL_STAT_CUR_CTX n) != c || st == 0 || st == 1 || st == 5

/-- Configuration writes do not reach the island (R395). -/
def State.frameFenced (s : State) (n : Nat) : Bool :=
  s.cfgFenced n || s.bstOn 2 n || s.bstOn 3 n || (s.rd (bunMode (.riser 0)) == 2 && s.rd (bunMode (.riser 1)) == 2)

/-- A refused frame (R395). -/
def State.frameRefused (s : State) (n c : Nat) : State :=
  (((s.wr (Hid.cfgRef n c) 1).inc Reg.CFG_REJ_FRAMES 1).wr Reg.CFG_ERR_FAR (s.rd Hid.cfgFar)).cfgEvt 4

/-- The header of a starting island's entry plane drives its clock (R411). -/
def State.headerClock (s : State) (n d : Nat) : State :=
  let fb := bits d 54 48
  let fr := bits d 87 64
  let post := bits d 98 96
  let en := bits d 100 100
  let pct := bits d 106 104
  let act := bits d 108 108
  let freq := if s.on Reg.CLK_REF_CFG_SEL then s.rd Reg.CLK_REF_CFG_FREQ_B else s.rd Reg.CLK_REF_CFG_FREQ_A
  let same := s.rd (Reg.ISL_CLK_CFG_FBDIV n) == fb && s.rd (Reg.ISL_CLK_FRAC_FRAC n) == fr
    && s.rd (Reg.ISL_CLK_CFG_POSTDIV n) == post && s.rd (Reg.ISL_CLK_CFG_SSC_EN n) == en
    && s.rd (Reg.ISL_CLK_CFG_SSC_PCT n) == pct && s.rd (Reg.ISL_CLK_CFG_FAULT_ACT n) == act
  if same then s.wr (Hid.hdrBad n) 0
  else if bits d 109 109 = freq ∧ clkPairOk s.fDist fb fr post ∧ post ≤ 4 ∧ pct ≤ 5 then
    let w := fb + 2 ^ 8 * post + 2 ^ 16 * en + 2 ^ 18 * pct + 2 ^ 24 * act
    let s1 := (((s.wr (Hid.hdrBad n) 0).wr (Hid.clkPairV n) 1).wr (Hid.clkPairCfg n) w).wr (Hid.clkPairFrac n) fr
    let st := s.rd (Reg.ISL_CLK_STAT_STATE n)
    let s2 := if st = 0 ∨ st = 8 then s1.pairApply n else s1
    (s2.wr (Reg.ISL_CLK_CTRL_REQ n) 1).clkSettle n
  else s.wr (Hid.hdrBad n) 1

/-- A frame whose check has passed is written to an island that its bundle reaches (R180, R395, R396, R410, R411, R416). -/
def State.frameStore (s : State) (n c f d : Nat) : State :=
  let entry := s.rd (Reg.ISL_STAT_CUR_CTX n) == c
  let s1 := ((((s.wr (Hid.cfgFrame n c f) d).wr (Hid.frameSyn n c f) 0).setB (Hid.cfgSeen n c) f).setB (Reg.ISL_CTX_VALID_LOADING n) c).add Reg.CFG_FRAMES 1
  let s2 := if entry && s.rd (Reg.ISL_STAT_STATE n) == 0 then s1.wr (Reg.ISL_STAT_STATE n) 1 else s1
  let s3 := if entry && s.on (Hid.prIsl n) && s.rd (Reg.ISL_STAT_STATE n) == 1 && !s.on (Hid.prGot n) then
      ((s2.wr (Hid.prGot n) 1).wr (Reg.ISL_WEIR_STAT_HELD n) 1).d2Clear n c
    else s2
  let s4 := if f = 1568 then s3.wr (Reg.ISL_CTX_CUR_I_CTX n c) (bits d 40 32) else s3
  if f = 1568 ∧ entry ∧ s4.rd (Reg.ISL_STAT_STATE n) = 1 then s4.headerClock n d else s4

/-- FAR advances (R385). -/
def State.farAdvance (s : State) : State :=
  match farNext (s.rd Hid.cfgFar) with
  | some f => s.wr Hid.cfgFar f
  | none => s.wr Hid.cfgFarEnd 1

/-- One frame at FAR: its data, and whether its check bits match (R395). -/
def State.frameWrite (s : State) (d : Nat) (ok : Bool) : State :=
  if s.rd Reg.CFG_STAT_LSTATE ≠ 4 then s
  else if s.on Hid.cfgFarEnd then s.cfgAbort 4
  else
    let far := s.rd Hid.cfgFar
    let n := farIsl far
    let c := farPlane far
    let f := frameIdx far
    if s.frameSkipped c then s.farAdvance
    else if !ok then (s.clrB (Hid.cfgSeen n c) f).cfgAbort 5
    else if s.frameFenced n then (s.frameRefused n c).farAdvance
    else if f = 1599 ∧ !steerOk d then ((s.wr Reg.CFG_STAT_CONTENTION 1).frameRefused n c).farAdvance
    else (s.frameStore n c f d).farAdvance

/-- The addresses that `k` frames from FAR take. -/
def farsFrom : Nat → Nat → List Nat
  | 0, _ => []
  | k + 1, f => f :: (match farNext f with | some g => farsFrom k g | none => [])

/-- Frames of a packet: they wait while a target switches, and while their way is held (R224); none is written where one has no
legal target (R392, R395). -/
def State.framesHeld (s : State) (k : Nat) : Bool :=
  (farsFrom k (s.rd Hid.cfgFar)).any (fun f =>
    !s.frameSkipped (farPlane f) && (s.on (Reg.ISL_STAT_SWITCHING (farIsl f)) || s.cfgHeld (farIsl f)))

def State.framesLegal (s : State) (k : Nat) : Bool :=
  s.rd Reg.CFG_STAT_LSTATE == 4
    && (farsFrom k (s.rd Hid.cfgFar)).all (fun f => s.frameSkipped (farPlane f) || s.frameLegal (farIsl f) (farPlane f))

/-- A list cut into pieces of `k` entries. -/
def pieces {α : Type} (k : Nat) (l : List α) : List (List α) :=
  (List.range (l.length / k)).map (fun i => (l.drop (k * i)).take k)

/-- Write the frames of an FDRI payload (R384). -/
def State.fdriFrames (s : State) (l : List Nat) : State :=
  State.each (pieces 67 l) (fun w t =>
    let d := ofWords (w.take 64)
    t.frameWrite d (frameCheck d == ofWords (w.drop 64))) s

/-- PKT_FDRI (R384, R385, R392, R395): whole frames of an FDRI packet arrive: its header and the frames received so far,
or, where the packet is open, more of its frames. `errs` are the wire errors on their way (R213). -/
def execPktFdri (p : Packet) (errs : List (Bundle × SigErr)) (s : State) : Host.Outcome State Fault Refusal :=
  let ws := p.words.map BitVec.toNat
  let left := s.rd Hid.cfgLeft
  let body (t : State) (l : List Nat) (rest : Nat) : State :=
    if !t.framesLegal (l.length / 67) then t.cfgAbort 1
    else
      let t1 := (t.cfgErrors errs).fdriFrames l
      t1.wrIf (t1.rd Reg.CFG_STAT_LSTATE == 4) Hid.cfgLeft rest
  .next (if !s.cfgReads then s
    else if left = 0 then
      match pktHead ws with
      | .write 3 c n =>
        let k := ws.length - n
        if ws.length < n ∨ k % 67 ≠ 0 ∨ c < k then s
        else if s.rd Reg.CFG_STAT_LSTATE = 4 ∧ s.framesHeld (k / 67) then s.answer .held []
        else s.packet 3 (fun _ => k) p (fun l t => body t l (c - k))
      | .bad _ => s.packet 3 id p (fun _ t => t)
      | _ => s
    else if ws.length % 67 ≠ 0 ∨ left < ws.length then s
    else if s.framesHeld (ws.length / 67) then s.answer .held []
    else match s.takeWords ws with
    | none => s
    | some (ue, t) => if ue || p.lost then t.cfgAbort 13 else body (t.cfgCrcAdd ws) ws (left - ws.length))

/-! ### Compression (R397) -/

/-- The decoder: words still to read, output words newest first, and its state: 0 decoding, 1 ended, 2 malformed. -/
structure ZState where
  rest : List Nat
  out  : List Nat
  st   : Nat
deriving DecidableEq, Repr

/-- Copy `k` words one at a time from `d` words back. -/
def zCopy (d : Nat) : Nat → List Nat → List Nat
  | 0, o => o
  | k + 1, o => zCopy d k (((o[d - 1]?).getD 0) :: o)

/-- The code EXT with its extension word (R397). -/
def zExt (z : ZState) : ZState :=
  match z.rest with
  | [] => { z with st := 2 }
  | e :: r =>
    let dist := bits e 29 16
    let len := bits e 15 0
    match bits e 31 30 with
    | 0 => if dist ≠ 0 then { z with st := 2 } else ⟨r, List.replicate (len + 1) 0 ++ z.out, 0⟩
    | 1 => if dist = 0 ∨ z.out.length < dist then { z with st := 2 } else ⟨r, zCopy dist (len + 1) z.out, 0⟩
    | 2 =>
      match r with
      | [] => { z with st := 2 }
      | w :: r2 => if dist ≠ 0 then { z with st := 2 } else ⟨r2, List.replicate (len + 1) w ++ z.out, 0⟩
    | _ => if dist ≠ 0 ∨ len ≠ 0 ∨ r ≠ [] then { z with st := 2 } else ⟨r, z.out, 1⟩

/-- One code of a control word. -/
def zCode (c : Nat) (z : ZState) : ZState :=
  if z.st = 2 then z
  else if z.st = 1 then (if c = 0 then z else { z with st := 2 })
  else match c with
  | 0 => ⟨z.rest, 0 :: z.out, 0⟩
  | 1 => (match z.rest with | [] => { z with st := 2 } | w :: r => ⟨r, w :: z.out, 0⟩)
  | 2 => if z.out.length < 64 then { z with st := 2 } else ⟨z.rest, ((z.out[63]?).getD 0) :: z.out, 0⟩
  | _ => zExt z

/-- Decode control words until END; each reads at least one word, so `fuel` words suffice. -/
def zRun : Nat → ZState → ZState
  | 0, z => if z.st = 0 then { z with st := 2 } else z
  | k + 1, z =>
    if z.st ≠ 0 then z
    else match z.rest with
    | [] => { z with st := 2 }
    | c :: r => zRun k ((List.range 16).foldl (fun a i => zCode (bits c (2 * i + 1) (2 * i)) a) ⟨r, z.out, 0⟩)

/-- The output words of coded words, oldest first, and whether they are well formed. -/
def zDecode (l : List Nat) : List Nat × Bool :=
  let z := zRun (l.length + 1) ⟨l, [], 0⟩
  (z.out.reverse, z.st == 1 && z.out.length % 64 == 0)

/-- PKT_ZDATA (R392, R395, R397), with the wire errors on the way of its frames (R213). -/
def execPktZdata (p : Packet) (errs : List (Bundle × SigErr)) (s : State) : Host.Outcome State Fault Refusal :=
  let ws := p.words.map BitVec.toNat
  let coded := (match pktHead ws with | .write 7 _ n => ws.drop (n + 1) | _ => [])
  let (out, ok) := zDecode coded
  .next (if s.rd Reg.CFG_STAT_LSTATE = 4 ∧ s.framesHeld (out.length / 64) then s.answer .held []
    else s.packet 7 id p (fun l t =>
      if l.length ≠ word0 l + 1 then t.cfgAbort 2
      else if !t.framesLegal (out.length / 64) then t.cfgAbort 1
      else
        let t1 := State.each (pieces 64 out) (fun w a => a.frameWrite (ofWords w) true) (t.cfgErrors errs)
        if !ok && t1.rd Reg.CFG_STAT_LSTATE == 4 then t1.cfgAbort 2 else t1))

/-! ### Commands of the stream (R389) -/

/-- A CMD packet of one code (R389): a code that no command has is a FORMAT fault. -/
def State.cmdPacket (s : State) (code : Nat) (p : Packet) (eff : State → State) : State :=
  let c := (match pktHead (p.words.map BitVec.toNat) with
    | .write 4 _ n => word0 ((p.words.map BitVec.toNat).drop n)
    | _ => code)
  if c ≤ 7 ∧ c ≠ code then s
  else s.packet 4 id p (fun _ t => if 7 < c then t.cfgAbort 2 else eff t)

/-- CMD_NULL (R389). -/
def execCmdNull (p : Packet) (s : State) : Host.Outcome State Fault Refusal := .next (s.cmdPacket 0 p id)

/-- CMD_RCRC (R390). -/
def execCmdRcrc (p : Packet) (s : State) : Host.Outcome State Fault Refusal :=
  .next (s.cmdPacket 1 p (fun t => t.wr Hid.cfgCrc 0xFFFFFFFF))

/-- CMD_WCFG (R391, R392, R399). -/
def execCmdWcfg (p : Packet) (s : State) : Host.Outcome State Fault Refusal :=
  .next (s.cmdPacket 2 p (fun t =>
    t.legalIn ((t.rd Reg.CFG_STAT_LSTATE == 3 || t.rd Reg.CFG_STAT_LSTATE == 5)
      && (!t.on Reg.CFG_STAT_SIG_REQ || t.on Hid.cfgAuth)) (fun a => a.wr Reg.CFG_STAT_LSTATE 4)))

/-- Plane `c` of island `n` at LFRM (R396). -/
def State.lfrmPlane (n c : Nat) (s : State) : State :=
  if s.bitOf (Reg.ISL_CTX_VALID_LOADING n) c then
    let ok := s.rd (Hid.cfgSeen n c) == 2 ^ 1600 - 1 && !s.on (Hid.cfgRef n c)
    let s1 := s.clrB (Reg.ISL_CTX_VALID_LOADING n) c
    if ok then
      (((s1.setB (Reg.ISL_CTX_VALID_VALID n) c).clrB (Reg.SCB_GOLD_PRESENT n) c).buildQueue n c).planeLoaded n c
    else s1.clrB (Reg.ISL_CTX_VALID_VALID n) c
  else if s.on (Hid.cfgRef n c) then s.clrB (Reg.ISL_CTX_VALID_VALID n) c
  else s

/-- The checks of LFRM have passed (R391, R396). -/
def State.lfrmPass (s : State) : State :=
  let s1 := State.each (List.range 80) (fun n a => State.each (List.range 8) (fun c b => b.lfrmPlane n c) a) s
  ((s1.wr Reg.CFG_STAT_LSTATE 5).wr Reg.CFG_LOAD_STAT_RESULT 1).cfgEvt 0

/-- CMD_LFRM (R391, R396, R398): without a section the planes are marked at once; otherwise the stream waits for Peony. -/
def execCmdLfrm (p : Packet) (s : State) : Host.Outcome State Fault Refusal :=
  .next (s.cmdPacket 3 p (fun t => t.legalIn (t.rd Reg.CFG_STAT_LSTATE == 4) (fun a =>
    if a.on Hid.cfgAuth then a.wr Hid.cfgSig 1 else a.lfrmPass)))

/-- SIG_VERIFY_DONE (R398, R452): Peony has verified the section's signature over the digest given, under the key that
KEY_ID names. -/
def execSigVerifyDone (ok : Bool) (digest : BitVec 512) (s : State) : Host.Outcome State Fault Refusal :=
  .next (if !s.on Hid.cfgSig then s
    else if ok && s.keyUsable (s.rd Hid.cfgAuthKey) 0 then
      (((s.wr Hid.cfgSecKey (s.rd Hid.cfgAuthKey)).wr Hid.cfgSecDig digest.toNat).wr Hid.cfgAuth 0).wr Hid.cfgSig 0 |>.lfrmPass
    else s.cfgAbort 7)

/-- The part enters OPERATING (R412, R432, R439). -/
def State.enterOperating (s : State) : State :=
  if s.on Reg.CFG_STAT_OPERATING then s
  else
    let s1 := ((s.wr Reg.CFG_STAT_OPERATING 1).wr Reg.SYS_BOOT_STAT_PHASE 5).wr Reg.SYS_BOOT_STAT_RETRY_CNT 0
    (s1.rlkReadyChanged 0).rlkReadyChanged 1

/-- Islands that START starts (R411). -/
def State.startIslands (s : State) : List Nat :=
  (List.range 80).filter (fun n =>
    let c := s.rd (Reg.ISL_STAT_CUR_CTX n)
    s.rd (Reg.ISL_STAT_STATE n) == 1 && s.bitOf (Reg.ISL_CTX_VALID_VALID n) c && !s.bitOf (Reg.ISL_CTX_VALID_LOADING n) c)

/-- Start-up is complete (R391, R412). -/
def State.startupDone (s : State) : State :=
  (((s.wr Reg.CFG_STAT_LSTATE 5).wr Hid.startSet 0).enterOperating).cfgEvt 3

/-- CMD_START (R411, R412): the starting islands enter STARTING and their clocks are requested RUNNING; with none it
completes at once. -/
def execCmdStart (p : Packet) (s : State) : Host.Outcome State Fault Refusal :=
  .next (s.cmdPacket 4 p (fun t => t.legalIn (t.rd Reg.CFG_STAT_LSTATE == 5) (fun a =>
    let l := a.startIslands
    if l = [] then (a.wrIf (!a.on Reg.CFG_STAT_OPERATING) Reg.CFG_PINS_DONE 1).startupDone
    else
      let b := State.each l (fun n u =>
        let v := (u.wr (Reg.ISL_STAT_STATE n) 2).wr (Hid.startLate n) 0
        if u.on (Hid.hdrBad n) then v else (v.wr (Reg.ISL_CLK_CTRL_REQ n) 2).clkSettle n) a
      (((b.wr Reg.CFG_STAT_LSTATE 6).wr Hid.startSet (l.foldl (fun m n => m + 2 ^ n) 0)).wr Hid.startStage 0).wr
        Hid.startAt a.now)))

/-- The active source ends. -/
def State.srcOff (s : State) : State :=
  (((s.wr Reg.CFG_STAT_SRC_ACTIVE 0).wr Hid.cfgBoot 0).wr Hid.cfgPlanes 255).wr Hid.flashOk 0

/-- CMD_DESYNC (R391, R392, R405): the stream ends, and with it a boot source or the flash. -/
def execCmdDesync (p : Packet) (s : State) : Host.Outcome State Fault Refusal :=
  .next (s.cmdPacket 5 p (fun t =>
    t.legalIn ((t.rd Reg.CFG_STAT_LSTATE == 3 || t.rd Reg.CFG_STAT_LSTATE == 5) && !t.on Hid.cfgAuth && !t.prOpen) (fun a =>
      let b := (a.wr Reg.CFG_STAT_LSTATE 1).cfgForget
      if b.on Hid.cfgBoot || b.rd Reg.CFG_LOAD_STAT_SOURCE == 1 then b.srcOff else b)))

/-- The islands in REGION. -/
def State.regionIslands (s : State) : List Nat :=
  setBits 80 (s.rd (Reg.CFG_REGION 0) + 2 ^ 32 * s.rd (Reg.CFG_REGION 1) + 2 ^ 64 * s.rd (Reg.CFG_REGION 2))

/-- The Weir of an island closes under PR_BEGIN (R416 to R418). -/
def State.weirClose (n : Nat) (s : State) : State :=
  let s1 := (s.fpCut n).weirShut n
  let s2 := { s1 with
    packets := s1.packets.map (fun (p : Pkt) => if p.src == n then { p with void := true } else p)
    fpResps := Tab.del s1.fpResps n
    mrQueue := Tab.del s1.mrQueue n
    fabVals := match s1.portOf n with
      | some p => Tab.del s1.fabVals p
      | none => s1.fabVals }
  ((((s2.wr (Reg.ISL_STAT_STATE n) 1).wr (Reg.ISL_TAP_LIVE n) 0).wr (Hid.prIsl n) 1).wr (Hid.prGot n) 0).wr
    (Hid.hdrBad n) 0

/-- CMD_PR_BEGIN (R392, R416 to R418, R420). -/
def execCmdPrBegin (p : Packet) (s : State) : Host.Outcome State Fault Refusal :=
  .next (s.cmdPacket 6 p (fun t =>
    let l := t.regionIslands
    t.legalIn (t.rd Reg.CFG_STAT_LSTATE == 3 && t.on Reg.CFG_STAT_OPERATING && !l.isEmpty
      && l.all (fun n => t.rd (Reg.ISL_STAT_STATE n) == 3 && !t.on (Reg.ISL_STAT_SWITCHING n) && !t.frameFenced n))
      (State.each l State.weirClose)))

/-- CMD_PR_CANCEL (R392, R419). -/
def execCmdPrCancel (p : Packet) (s : State) : Host.Outcome State Fault Refusal :=
  .next (s.cmdPacket 7 p (fun t =>
    let l := (List.range 80).filter (fun n => t.on (Hid.prIsl n) && t.rd (Reg.ISL_STAT_STATE n) == 1)
    t.legalIn ((t.rd Reg.CFG_STAT_LSTATE == 3 || t.rd Reg.CFG_STAT_LSTATE == 5) && l.all (fun n => !t.on (Hid.prGot n)))
      (State.each l (fun n a =>
        ((a.wr (Reg.ISL_STAT_STATE n) 3).wr (Reg.ISL_WEIR_STAT_CLOSED n) 0).wr (Hid.prIsl n) 0))))

/-! ### Start-up stages (R412 to R414) -/

/-- Islands of the present start-up. -/
def State.starting (s : State) : List Nat := setBits 80 (s.rd Hid.startSet)

/-- STARTUP_CLOCKS_DONE (R412, R414): every starting clock whose settings fitted is RUNNING, or 5 ms have passed since START;
islands without a running clock are left out. With DONE_WAIT at the first start-up, DONE is released here. -/
def execStartupClocksDone (s : State) : Host.Outcome State Fault Refusal :=
  .next (
    let run (n : Nat) : Bool := s.rd (Reg.ISL_CLK_STAT_STATE n) == 5 && !s.on (Hid.hdrBad n)
    if s.rd Reg.CFG_STAT_LSTATE ≠ 6 ∨ s.rd Hid.startStage ≠ 0 then s
    else if !s.starting.all (fun n => run n || s.on (Hid.hdrBad n)) && decide (s.now < s.rd Hid.startAt + 20000000) then s
    else
      let late := s.starting.filter (fun n => !run n)
      let s1 := State.each late (fun n t => (t.wr (Hid.startLate n) 1).clrB Hid.startSet n) s
      let s2 := (s1.wr Hid.startStage 1).wr Hid.startPrev s.now
      if !s.on Reg.CFG_STAT_OPERATING && bit (s.rd Reg.CFG_STARTUP) 8 then s2.wr Reg.CFG_STAT_DONE_WAITING 1 else s2)

/-- The stage numbered `k` of a start-up begins now: it is the next, GAP us have passed since the one before, and DONE is not
awaited. -/
def State.stageAt (s : State) (k : Nat) : Bool :=
  s.rd Reg.CFG_STAT_LSTATE == 6 && !s.on Reg.CFG_STAT_DONE_WAITING && s.rd Hid.startStage == k
    && decide (s.rd Hid.startPrev + 4000 * bits (s.rd Reg.CFG_STARTUP) 15 12 ≤ s.now)

/-- A release stage comes: its position in STARTUP is the stage to come. -/
def State.stageNow (s : State) (lo : Nat) : Bool := s.stageAt (1 + bits (s.rd Reg.CFG_STARTUP) (lo + 1) lo)

/-- A stage takes a time, in units of 250 ps; the next comes after it. -/
def State.stageNext (s : State) (t : Nat) : State :=
  (s.wr Hid.startStage (s.rd Hid.startStage + 1)).wr Hid.startPrev (s.now + t)

/-- VNOM of a measured supply in mV (R183): below 1.08 V 0, otherwise the nearest nominal voltage. That the limits between the nominal
voltages lie half-way is a DESIGN CHOICE, log entry 87. -/
def vnomOf (mv : Nat) : Nat := if mv < 1080 then 0 else if mv < 1350 then 1 else if mv < 1650 then 2 else 3

/-- The measured supply of each I/O bank, in mV (R169, R183). -/
def State.vioMeasure (s : State) (vio : List (BitVec 12)) : State :=
  State.each (List.range 8) (fun b t => match vio[b]? with
    | some v => (t.wr (Reg.ISL_IOB_STAT_VCCIO_MV (70 + b)) v.toNat).wr (Reg.ISL_IOB_STAT_VNOM (70 + b)) (vnomOf v.toNat)
    | none => t) s

/-- STARTUP_OUT (R169, R412): at an island's first start its user I/O follow the configuration; `vio` are the measured
supplies of the I/O banks. -/
def execStartupOut (vio : List (BitVec 12)) (s : State) : Host.Outcome State Fault Refusal :=
  .next (if !s.stageNow 0 then s
    else (State.each (s.starting.filter (fun n => s.on (Reg.ISL_WEIR_STAT_FIRST_START n))) (fun n t => t.ioRelease n)
      (s.vioMeasure vio)).stageNext 0)

/-- STARTUP_WE (R176, R412): write enable goes high in waves, 0.5 us apart. -/
def execStartupWe (s : State) : Host.Outcome State Fault Refusal :=
  .next (if !s.stageNow 2 then s else s.stageNext s.weTime)

/-- STARTUP_RST (R412): F0 and the entered context's F1 leave reset at their initial values; D2 stages are empty. -/
def execStartupRst (s : State) : Host.Outcome State Fault Refusal :=
  .next (if !s.stageNow 4 then s
    else (State.each s.starting (fun n t =>
      (t.fabricStart n (t.rd (Reg.ISL_STAT_CUR_CTX n))).wr (Reg.ISL_WEIR_STAT_HELD n) 0) s).stageNext 0)

/-- STARTUP_DONE (R412): DONE is released at the first start-up. -/
def execStartupDone (s : State) : Host.Outcome State Fault Refusal :=
  .next (if !s.stageAt 4 then s
    else (s.wrIf (!s.on Reg.CFG_STAT_OPERATING && !bit (s.rd Reg.CFG_STARTUP) 8) Reg.CFG_PINS_DONE 1).stageNext 0)

/-- DONE_PIN_HIGH (R412): with DONE_WAIT the pin reads high, or 1 s has passed. -/
def execDonePinHigh (high : Bool) (s : State) : Host.Outcome State Fault Refusal :=
  .next (if !s.on Reg.CFG_STAT_DONE_WAITING then s
    else if high then ((s.wr Reg.CFG_STAT_DONE_WAITING 0).wr Reg.CFG_PINS_DONE 1).wr Hid.startPrev s.now
    else s.cfgAbort 14)

/-- An island that START started enters RUN (R412, R419). -/
def State.startRun (n : Nat) (s : State) : State :=
  let s1 := if s.on (Hid.prIsl n) then (s.add (Reg.ISL_PR_CNT n) 1).wr (Hid.prIsl n) 0 else s
  ((s1.wr (Reg.ISL_PR_TS n) s.now).wr (Hid.prGot n) 0).enterRun n

/-- STARTUP_WEIR (R412): Weirs open, the islands enter RUN, and start-up is complete. -/
def execStartupWeir (s : State) : Host.Outcome State Fault Refusal :=
  .next (if !s.stageAt 5 then s else (State.each s.starting State.startRun s).startupDone)

/-- STARTUP_LATE_ISLAND (R180, R414): a STARTING island outside the present start-up, whose clock is RUNNING, completes its
stages alone; event 4 is raised where START had started it. -/
def execStartupLateIsland (n : Fin 80) (vio : List (BitVec 12)) (s : State) : Host.Outcome State Fault Refusal :=
  .next (if s.rd (Reg.ISL_STAT_STATE n) ≠ 2 ∨ bit (s.rd Hid.startSet) n ∨ s.rd (Reg.ISL_CLK_STAT_STATE n) ≠ 5 then s
    else
      let late := s.on (Hid.startLate n)
      let s1 := ((s.vioMeasure vio).startAlone n).wr (Hid.startLate n) 0
      if !late then s1 else (State.startRun n s1).cfgEvt 3)

/-! ### Sources (R401 to R408, R423) -/

/-- A boot image: its source (1 flash, 3 slot), its INDEX, and its boot position. -/
structure Image where
  source : Nat
  index  : Nat
  pos    : Nat
deriving DecidableEq, Repr

/-- The images that follow a boot position, in order (R405, R423). `flash` holds the images of the flash header. -/
def State.bootImages (s : State) : List Image :=
  let fl := ((List.range 4).filter (fun i => s.rd (Hid.flashImg i) != 0xFFFFFFFF)).map (fun i => (⟨1, i, 2⟩ : Image))
  if s.rd Reg.CFG_PINS_CFG_MODE = 3 ∧ s.on Hid.cfgBoot then
    let a := s.rd Reg.DAH_BOOT_PRIMARY
    let b := s.rd Reg.DAH_BOOT_FALLBACK
    (if s.rd (Reg.DAH_SLOT_STAT_STATE a) = 2 then [(⟨3, a, 0⟩ : Image)] else [])
      ++ (if s.on Reg.DAH_BOOT_FB_EN ∧ s.rd (Reg.DAH_SLOT_STAT_STATE b) = 2 then [(⟨3, b, 1⟩ : Image)] else [])
      ++ (if s.on Reg.DAH_BOOT_FLASH_FB then (if s.on Hid.flashOk then fl else [⟨1, 0, 2⟩]) else [])
  else fl

/-- Byte offset in Dahlia of an image slot's content (R421, R422). -/
def slotContent (i : Nat) : Nat := i * 0x05400000 + 64

/-- Begin to read an image from its start: INIT_N is released (R394). -/
def State.imageStart (s : State) (m : Image) : State :=
  let s1 := ((((s.wr Reg.CFG_STAT_SRC_ACTIVE 1).wr Reg.CFG_LOAD_STAT_SOURCE m.source).wr Reg.CFG_LOAD_STAT_INDEX m.index).wr
    Hid.cfgPos m.pos).wr Reg.CFG_PINS_INIT_N 1
  let s2 := if m.source = 3 then
      (s1.wr Hid.cfgPtr (slotContent m.index)).wr Hid.cfgEnd (slotContent m.index + s.rd (Reg.DAH_SLOT_LEN m.index))
    else s1
  if s.on Hid.cfgBoot then
    ((s2.wr Reg.CFG_BOOT_STAT_SOURCE (if m.source = 3 then 1 else 0)).wr Reg.CFG_BOOT_STAT_INDEX m.index).inc
      Reg.CFG_BOOT_STAT_ATTEMPTS 1
  else s2

/-- Every boot image has failed (R405, R439). -/
def State.bootFailed (s : State) : State :=
  if s.on Hid.cfgBoot then
    let s1 := ((s.srcOff.wr Reg.CFG_BOOT_STAT_FAILED 1).wr Reg.SYS_BOOT_STAT_PHASE 6).wr Reg.SYS_BOOT_STAT_FAILED 1
    (s1.wr Reg.CFG_PINS_INIT_N 0).raiseB Reg.SYS_EVT_EVT 2 16
  else s.srcOff

/-- The image being read has failed: once more, then the next (R405). -/
def State.imageFailed (s : State) : State :=
  let here (m : Image) : Bool := m.source == s.rd Reg.CFG_LOAD_STAT_SOURCE && m.pos == s.rd Hid.cfgPos
    && m.index == s.rd Reg.CFG_LOAD_STAT_INDEX
  let l := s.bootImages.dropWhile (fun m => !here m)
  if !s.on Hid.cfgTry then
    match l with
    | m :: _ => (s.wr Hid.cfgTry 1).imageStart m
    | [] => s.bootFailed
  else
    match l.drop 1 with
    | m :: _ => (s.wr Hid.cfgTry 0).imageStart m
    | [] => s.bootFailed

/-- The boot source becomes active at the end of CLEARING (R391, R403, R423). -/
def State.bootStart (s : State) : State :=
  let m := s.rd Reg.CFG_PINS_CFG_MODE
  let s0 := s.wr Reg.CFG_PINS_INIT_N 1
  let flash : Image := ⟨1, 0, 2⟩
  if m ≤ 1 then (s0.wr Hid.cfgBoot 1).imageStart flash
  else if m = 2 then
    (((s0.wr Hid.cfgBoot 1).wr Reg.CFG_STAT_SRC_ACTIVE 1).wr Reg.CFG_LOAD_STAT_SOURCE 2).wr Reg.CFG_BOOT_STAT_SOURCE 2
  else if m = 3 then
    let s1 := s0.wr Hid.cfgBoot 1
    match s1.bootImages with
    | i :: _ => s1.imageStart i
    | [] => s1.bootFailed
  else s0.wr Reg.CFG_BOOT_STAT_SOURCE 3

/-- CLEARING_DONE (R391, R403, R432, R433): every plane holds zero frames; `mode` and `gang` are the pins as sampled. The
part is READY and takes its automatic actions. -/
def execClearingDone (mode gang : Fin 8) (s : State) : Host.Outcome State Fault Refusal :=
  .next (if s.rd Reg.SYS_BOOT_STAT_PHASE ≠ 3 ∨ s.rd Reg.CFG_STAT_LSTATE ≠ 0 then s
    else
      let s1 := ((((s.resetBlocks Hid.grpCFM.1 Hid.grpCFM.2).wr Reg.CFG_STAT_LSTATE 1).wr Reg.CFG_PINS_CFG_MODE mode).wr
        Reg.CFG_PINS_GANG_POS gang).wr Reg.SYS_BOOT_STAT_PHASE 4
      let s2 := State.each (List.range 80) (fun n t => t.wr (Reg.ISL_CTX_VALID_VALID n) 0) s1
      let s3 := (s2.wr Reg.HST_STAT_READY 1).raiseB Reg.SYS_EVT_EVT 0 0
      let s4 := if s3.on Reg.SYS_AUTO_HBM_EN then
          (s3.wrIf (s3.spareOk (s3.rd Reg.SYS_AUTO_HBM_SPARE)) Reg.HBM_MODE_SPARE (s3.rd Reg.SYS_AUTO_HBM_SPARE)).hbmCtrlWrite
            (1 + 2 * s3.rd Reg.HBM_CTRL_INIT_FILL)
        else s3
      let s5 := if s4.on Reg.SYS_AUTO_FW_EN then s4.fwLoad false (s4.rd Reg.SYS_AUTO_FW_SLOT) (s4.rd Reg.SYS_AUTO_FW_CORES) else s4
      s5.bootStart)

/-- A LOAD command may begin (R401). -/
def State.loadLegal (s : State) : Bool :=
  !s.on Reg.CFG_STAT_SRC_ACTIVE && (s.rd Reg.CFG_STAT_LSTATE == 1 || s.rd Reg.CFG_STAT_LSTATE == 7)
    && s.rd Reg.CFG_PINS_CFG_MODE != 2

/-- LOAD_FLASH (R401, R404). -/
def State.loadFlash (s : State) (planes : Nat) : State :=
  if !s.loadLegal then s.cfgReject 1
  else (((s.wr Hid.cfgPlanes planes).wr Hid.cfgTry 0).wr Hid.flashOk 0).imageStart ⟨1, 0, 2⟩

/-- LOAD_SLOT (R401, R408). -/
def State.loadSlot (s : State) (slot planes : Nat) : State :=
  if !s.loadLegal || s.rd (Reg.DAH_SLOT_STAT_STATE slot) != 2 then s.cfgReject 2
  else ((s.wr Hid.cfgPlanes planes).wr Hid.cfgTry 0).imageStart ⟨3, slot, 0⟩

/-- A range wholly in HBM below the top, or in SRAM (R401). -/
def State.inMemory (s : State) (a n : Nat) : Bool :=
  decide (0 < n) && (decide (a + n ≤ s.hbmTop) || (decide (0x1000000000 ≤ a) && decide (a + n ≤ 0x1010000000)))

/-- LOAD_MEM (R401, R402). -/
def State.loadMem (s : State) (planes : Nat) : State :=
  let a := 4 * s.rd Reg.CFG_MEM_BASE
  let n := 4 * s.rd Reg.CFG_MEM_LEN
  if !s.loadLegal || !s.inMemory a n then s.cfgReject 3
  else ((((s.wr Hid.cfgPlanes planes).wr Hid.cfgTry 0).imageStart ⟨4, 0, 0⟩).wr Hid.cfgPtr a).wr Hid.cfgEnd (a + n)

/-- ABORT (R401). -/
def State.cfgAbortCmd (s : State) : State :=
  let l := s.rd Reg.CFG_STAT_LSTATE
  if !s.on Reg.CFG_STAT_SRC_ACTIVE || l == 0 || l == 6 then s.cfgReject 4 else s.cfgAbort 11

/-- CLR_ERR (R391, R401). -/
def State.cfgClrErr (s : State) : State :=
  if s.rd Reg.CFG_STAT_LSTATE ≠ 7 ∨ s.on Reg.CFG_STAT_SRC_ACTIVE then s.cfgReject 5
  else (s.wr Reg.CFG_STAT_LSTATE 1).wr Reg.CFG_LOAD_STAT_CAUSE 0

/-- A plane is written with zero frames and is not VALID (R401). -/
def State.clearPlane (n c : Nat) (s : State) : State :=
  let cut (l : Tab Nat) (a b : Fld) : Tab Nat := Tab.delRange l a.key (b.key + 1)
  let s1 := { s with cells := cut (cut s.cells (Hid.cfgFrame n c 0) (Hid.cfgFrame n c 1599)) (Hid.frameSyn n c 0) (Hid.frameSyn n c 1599) }
  ((s1.wr (Hid.cfgSeen n c) 0).wr (Reg.ISL_CTX_CUR_I_CTX n c) 0).clrB (Reg.ISL_CTX_VALID_VALID n) c

/-- CLEAR_PLANES (R401). -/
def State.clearPlanes (s : State) (isl planes : Nat) (all : Bool) : State :=
  let l := if all then List.range 80 else [isl]
  let ps := setBits 8 planes
  let bad (n c : Nat) : Bool := s.bitOf (Reg.ISL_CTX_VALID_LOADING n) c
    || (s.rd (Reg.ISL_STAT_CUR_CTX n) == c && s.rd (Reg.ISL_STAT_STATE n) != 0)
  if s.rd Reg.CFG_STAT_LSTATE ≠ 1 ∨ (!all ∧ 80 ≤ isl) ∨ l.any (fun n => ps.any (bad n)) then s.cfgReject 6
  else State.each l (fun n t => State.each ps (fun c a => a.clearPlane n c) t) s

/-- CLR_CNT (R401). -/
def State.cfgClrCnt (s : State) : State :=
  ((s.wr Reg.CFG_FRAMES 0).wr Reg.CFG_REJ_FRAMES 0).wr Reg.CFG_FIFO_DROP 0

/-- A write of CFG_CMD (R401). -/
def State.cfgCmd (s : State) (w : Nat) : State :=
  let planes := bits w 23 16
  match bits w 7 0 with
  | 1 => s.loadFlash planes
  | 2 => s.loadSlot (bits w 9 8) planes
  | 3 => s.loadMem planes
  | 4 => s.cfgAbortCmd
  | 5 => s.cfgClrErr
  | 6 => s.clearPlanes (bits w 30 24) planes (bit w 10)
  | 7 => s.cfgClrCnt
  | c => s.cfgReject c

/-- CFG_LOAD_FLASH (R401, R404). -/
def execCfgLoadFlash (planes : Byte) (s : State) : Host.Outcome State Fault Refusal := .next (s.loadFlash planes.toNat)
/-- CFG_LOAD_SLOT (R401, R408). -/
def execCfgLoadSlot (slot : Fin 4) (planes : Byte) (s : State) : Host.Outcome State Fault Refusal :=
  .next (s.loadSlot slot planes.toNat)
/-- CFG_LOAD_MEM (R401, R402). -/
def execCfgLoadMem (planes : Byte) (s : State) : Host.Outcome State Fault Refusal := .next (s.loadMem planes.toNat)
/-- CFG_ABORT (R394, R401). -/
def execCfgAbort (s : State) : Host.Outcome State Fault Refusal := .next s.cfgAbortCmd
/-- CFG_CLR_ERR (R391, R401). -/
def execCfgClrErr (s : State) : Host.Outcome State Fault Refusal := .next s.cfgClrErr
/-- CFG_CLEAR_PLANES (R401). -/
def execCfgClearPlanes (isl : Fin 128) (planes : Byte) (all : Bool) (s : State) : Host.Outcome State Fault Refusal :=
  .next (s.clearPlanes isl planes.toNat all)
/-- CFG_CLR_CNT (R401). -/
def execCfgClrCnt (s : State) : Host.Outcome State Fault Refusal := .next s.cfgClrCnt

/-- The source ended or was ended in the middle of a stream (R393). -/
def State.truncate (s : State) : State :=
  if 2 ≤ s.rd Reg.CFG_STAT_LSTATE ∧ s.rd Reg.CFG_STAT_LSTATE ≤ 6 then s.cfgAbort 9 else s

/-- A write of CFG_CTRL (R402, R427): TMO, and FIFO_EN, which is set only while no source is active; clearing it ends the FIFO as
a source. -/
def State.cfgCtrl (s : State) (w : Nat) : State :=
  let tmo := bits w 23 8
  let en := bit w 0
  let was := s.on Reg.CFG_CTRL_FIFO_EN
  let s1 := if tmo = 0 then s.deny 0x002 else s.wr Reg.CFG_CTRL_TMO tmo
  if en && !was then
    if s.on Reg.CFG_STAT_SRC_ACTIVE then s1.deny 0x002
    else (s1.wr Reg.CFG_CTRL_FIFO_EN 1).imageStart ⟨5, 0, 0⟩
  else if !en && was then
    let s2 := (((s1.wr Reg.CFG_CTRL_FIFO_EN 0).truncate).srcOff).wr Hid.cfgHeldV 0
    { s2 with fifos := Tab.del s2.fifos 32 }.cfgFifoStat
  else s1

/-- CFG_FIFO_WRITE (R402): the word enters the FIFO, or is held at a full one; with FIFO_EN = 0 it is dropped and counted. -/
def State.cfgFifo (s : State) (w : Nat) : State :=
  let q := Tab.getD s.fifos 32 []
  if !s.on Reg.CFG_CTRL_FIFO_EN then (s.inc Reg.CFG_FIFO_DROP 1).answer .ok []
  else if s.on Hid.cfgHeldV then s.answer .held []
  else if q.length ≤ 1020 then
    ({ s with fifos := Tab.set s.fifos 32 [] (q ++ (leBytes 4 w).map BitVec.toNat) }.cfgFifoStat).answer .ok []
  else ((s.wr Hid.cfgHeldV 1).wr Hid.cfgHeld w).answer .ok []

/-- CFG_FIFO_WRITE (R402): a word is written to the host FIFO. -/
def execCfgFifoWrite (w : Word) (s : State) : Host.Outcome State Fault Refusal := .next (s.cfgFifo w.toNat)

/-- CFG_FIFO_DROP (R393, R402): the held write is dropped after 10 us. -/
def execCfgFifoDrop (s : State) : Host.Outcome State Fault Refusal :=
  .next (if !s.on Hid.cfgHeldV then s
    else
      let s1 := (s.wr Hid.cfgHeldV 0).inc Reg.CFG_FIFO_DROP 1
      if s.cfgOpen || s.rd Reg.CFG_STAT_LSTATE == 6 then s1.cfgAbort 15 else s1)

/-- LOAD_TIMEOUT (R393, R402): no word has arrived for TMO ms; not of the boot flash. -/
def execLoadTimeout (s : State) : Host.Outcome State Fault Refusal :=
  .next (if s.cfgReads && !(s.on Hid.cfgBoot && s.rd Reg.CFG_LOAD_STAT_SOURCE == 1) then s.cfgAbort 10 else s)

/-- Words that the stream still calls for from the source before its next packet is whole; none where that is not known. -/
def State.wordsNeeded (s : State) (peek : List Nat) : Nat :=
  if s.on Hid.cfgEnc then min (s.rd Hid.cfgEncSeg) (s.rd Hid.cfgEncLeft) + 4
  else if s.rd Hid.cfgLeft ≠ 0 then 67
  else match pktHead peek with
  | .noop | .bad _ => 1
  | .short => peek.length + 1
  | .write 3 _ n => n
  | .write 9 _ n => n + 6
  | .write _ c n => n + c

/-- The bytes that a slot or memory source still holds. -/
def State.srcLeft (s : State) : Nat := s.rd Hid.cfgEnd - s.rd Hid.cfgPtr

/-- The next bytes of a slot or memory source, looked at and not taken. -/
def State.srcPeek (s : State) (n : Nat) : List Byte :=
  if s.rd Reg.CFG_LOAD_STAT_SOURCE = 3 then s.dahBytes (s.rd Hid.cfgPtr) n
  else (s.coRead (s.req .config (s.rd Reg.CFG_MEM_KEY)) (s.rd Hid.cfgPtr) n).1

/-- A source has no further word for the controller: a flash or leader says so; a slot or a memory range holds no further
sync word, or not the next packet. -/
def State.srcEnded (s : State) : Bool :=
  match s.rd Reg.CFG_LOAD_STAT_SOURCE with
  | 1 | 2 => true
  | 3 | 4 =>
    if s.cfgOpen then
      let words := s.srcLeft / 4
      let head := s.srcPeek (4 * min 2 words)
      let peek := (List.range (head.length / 4)).map (fun i => ofLeBytes ((head.drop (4 * i)).take 4))
      decide (words < s.wordsNeeded peek)
    else
      let d := s.srcPeek s.srcLeft
      !(List.range d.length).any (fun i => (d.drop i).take 4 == leBytes 4 0x6D31E0A5)
  | _ => false

/-- SOURCE_END (R393, R401, R405): the active source has no further word. A stream cut short is TRUNCATED; a boot image, or
one of LOAD_FLASH, that has not reached its DESYNC is read once more and then gives way to the next. -/
def execSourceEnd (s : State) : Host.Outcome State Fault Refusal :=
  .next (if !s.on Reg.CFG_STAT_SRC_ACTIVE || s.rd Reg.CFG_STAT_LSTATE == 6 || s.on Hid.cfgSig then s
    else if s.rd Reg.CFG_STAT_LSTATE = 7 ∧ (s.on Hid.cfgBoot ∨ s.rd Reg.CFG_LOAD_STAT_SOURCE = 1)
        ∧ s.rd Reg.CFG_LOAD_STAT_SOURCE ≠ 2 then s.imageFailed
    else if !s.srcEnded then s
    else
      let s1 := s.truncate
      if s1.rd Reg.CFG_LOAD_STAT_SOURCE = 2 then s1
      else if s1.on Hid.cfgBoot || s1.rd Reg.CFG_LOAD_STAT_SOURCE == 1 then s1.imageFailed
      else s1.srcOff)

/-- A flash header as read in a mode is valid (R404). -/
def flashHeaderOk (h : List Byte) : Bool :=
  h.length == 64 && ofLeBytes (h.take 4) == 0x48464C57 && ofLeBytes ((h.drop 4).take 2) == 1
    && crcBytesRefl 32 0x1EDC6F41 0xFFFFFFFF (h.take 60) ^^^ 0xFFFFFFFF == ofLeBytes (h.drop 60)

/-- XSPI_HEADER_READ (R404): the leader reads the header, in 8D-8D-8D unless CFG_MODE is 1, then in 1S-1S-1S; `oct` and
`single` are the 64 bytes that the flash answers in each mode. -/
def execXspiHeaderRead (oct single : List Byte) (s : State) : Host.Outcome State Fault Refusal :=
  .next (if !s.on Reg.CFG_STAT_SRC_ACTIVE || s.rd Reg.CFG_LOAD_STAT_SOURCE != 1 || s.on Hid.flashOk then s
    else
      let h := if s.rd Reg.CFG_PINS_CFG_MODE ≠ 1 ∧ flashHeaderOk oct then oct else single
      if !flashHeaderOk h then s.bootFailed
      else
        let at8 (i : Nat) : Nat := ((h[i]?).getD 0).toNat
        let s1 := (((s.wr Hid.flashOk 1).wr Hid.flashMode (at8 8)).wr Hid.flashClk (at8 7)).wr Hid.flashDummy (at8 6)
        let s2 := State.each (List.range 4) (fun i t => t.wr (Hid.flashImg i) (ofLeBytes ((h.drop (16 + 4 * i)).take 4))) s1
        match s2.bootImages.filter (fun m => m.source == 1) with
        | m :: _ => (s2.wr Reg.CFG_LOAD_STAT_INDEX m.index).wrIf (s2.on Hid.cfgBoot) Reg.CFG_BOOT_STAT_INDEX m.index
        | [] => s2.bootFailed)

/-- GANG_INIT_LOW (R406): the leader of a ganged set sees INIT_N low in an initial load. -/
def execGangInitLow (s : State) : Host.Outcome State Fault Refusal :=
  .next (if s.on Reg.CFG_STAT_OPERATING || !s.on Hid.cfgBoot || s.rd Reg.CFG_LOAD_STAT_SOURCE != 1 then s
    else
      let s1 := s.wr Reg.CFG_PINS_INIT_N 0
      if s.cfgOpen || s.rd Reg.CFG_STAT_LSTATE == 6 then s1.cfgAbort 14 else s1)

/-- FOLLOWER_RELEASE (R406): XSPI_CS_N has been high for 10 us. -/
def execFollowerRelease (s : State) : Host.Outcome State Fault Refusal :=
  .next (if s.rd Reg.CFG_STAT_LSTATE = 7 ∧ s.rd Reg.CFG_PINS_CFG_MODE = 2 then
      (s.wr Reg.CFG_PINS_INIT_N 1).wr Reg.CFG_STAT_LSTATE 1
    else s)

/-- PRECFG_PD_CHANGE (R415): the pin changes level. -/
def execPrecfgPdChange (high : Bool) (s : State) : Host.Outcome State Fault Refusal :=
  .next (s.wr Reg.CFG_PINS_PRECFG_PD (b2n high))

/-- An ENGINE reset (R426): a load aborts with cause RESET, the active source ends, FIFO_EN clears. -/
def State.cfgEngineReset (s : State) : State :=
  let s1 := if s.cfgOpen || s.rd Reg.CFG_STAT_LSTATE == 6 then s.cfgAbort 12 else s
  let s2 := ((s1.srcOff).wr Reg.CFG_CTRL_FIFO_EN 0).wr Hid.cfgHeldV 0
  { s2 with fifos := Tab.del s2.fifos 32 }.cfgFifoStat

/-- CFG_DESIGN (R410, R427): DESIGN_ID in the header of the active plane. -/
def State.cfgDesign (s : State) (n : Nat) : Nat :=
  s.rd (Hid.cfgFrame n (s.rd (Reg.ISL_STAT_CUR_CTX n)) 1568) % 2 ^ 32

end Sys2Proof.Machine
end

