-- ==== Sys2Proof/Machine/Dahlia.lean ====
section
/-! DEFINITION. The Dahlia store: slots, the boot choice and wear (R421 to R424). -/

namespace Sys2Proof.Machine

/-- Bits of DAH_EVT with device events 5, 6, 9 and 10 (R425). -/
def State.dahEvt (s : State) (i : Nat) : State :=
  s.raiseB Reg.DAH_EVT_EVT i (if i = 0 then 5 else if i = 1 then 6 else if i = 2 then 9 else 10)

/-- A rejected DAH command (R10, R425). -/
def State.dahReject (s : State) (code : Nat) : State := (s.rejMark 0x003 code).dahEvt 1

/-- Byte offset and size of a slot: image slots for `fw` false, firmware slots otherwise (R421). -/
def slotBase (fw : Bool) (i : Nat) : Nat := if fw then 0x1B000000 + i * 0x01100000 else i * 0x05400000
def slotSize (fw : Bool) : Nat := if fw then 0x01100000 else 0x05400000

/-- The registers of a slot. -/
def slotStat (fw : Bool) (i : Nat) : Fld := if fw then Reg.DAH_FW_STAT_STATE i else Reg.DAH_SLOT_STAT_STATE i
def slotLen (fw : Bool) (i : Nat) : Fld := if fw then Reg.DAH_FW_LEN i else Reg.DAH_SLOT_LEN i
def slotWrites (fw : Bool) (i : Nat) : Fld := if fw then Reg.DAH_FW_WRITES i else Reg.DAH_SLOT_WRITES i
def slotCrc (fw : Bool) (i : Nat) : Fld := if fw then Reg.DAH_FW_CRC i else Reg.DAH_SLOT_CRC i

/-- Write bytes at an offset in Dahlia. -/
def State.dahWrite (s : State) (off : Nat) (l : List Byte) : State := s.writeMem (0x1100000000 + off) l

/-- A load reads the slot. -/
def State.slotRead (s : State) (fw : Bool) (i : Nat) : Bool :=
  if fw then s.on Reg.MIL_STAT_FW_BUSY && !s.on Hid.fwMem && s.rd Hid.fwSlot == i
  else s.on Reg.CFG_STAT_SRC_ACTIVE && s.rd Reg.CFG_LOAD_STAT_SOURCE == 3 && s.rd Reg.CFG_LOAD_STAT_INDEX == i

/-- The header of a slot is invalid, and the slot EMPTY (R422). -/
def State.slotEmpty (s : State) (fw : Bool) (i : Nat) : State :=
  (((s.dahWrite (slotBase fw i) (List.replicate 64 0)).wr (slotStat fw i) 0).wr (slotLen fw i) 0).wr (slotCrc fw i) 0

/-- WRITE_SLOT (R422, R425). -/
def State.writeSlot (s : State) (fw : Bool) (i : Nat) : State :=
  let n := s.rd Reg.DAH_LEN
  if s.on Reg.DAH_STAT_BUSY || s.bstIs 10 || s.slotRead fw i || !s.inMemory (64 * s.rd Reg.DAH_SRC) n || decide (slotSize fw < n + 64) then
    s.dahReject 1
  else
    (((((s.slotEmpty fw i).wr (slotStat fw i) 1).wr Reg.DAH_STAT_BUSY 1).wr Hid.dahKind (b2n fw)).wr Hid.dahSlot i).wr
      Reg.DAH_PROG 0

/-- ERASE_SLOT (R425). -/
def State.eraseSlot (s : State) (fw : Bool) (i : Nat) : State :=
  if s.on Reg.DAH_STAT_BUSY || s.bstIs 10 || s.slotRead fw i then s.dahReject 2 else (s.slotEmpty fw i).dahEvt 0

/-- SET_BOOT (R423). -/
def State.setBoot (s : State) : State :=
  if s.on Reg.DAH_STAT_BUSY || s.bstIs 10 then s.dahReject 3
  else
    ((((s.wr Reg.DAH_BOOT_FLASH_FB (s.rd Reg.DAH_BOOT_NEW_FLASH_FB)).wr Reg.DAH_BOOT_FB_EN (s.rd Reg.DAH_BOOT_NEW_FB_EN)).wr
      Reg.DAH_BOOT_FALLBACK (s.rd Reg.DAH_BOOT_NEW_FALLBACK)).wr Reg.DAH_BOOT_PRIMARY (s.rd Reg.DAH_BOOT_NEW_PRIMARY)).dahEvt 0

/-- A write of DAH_CMD (R425). -/
def State.dahCmd (s : State) (w : Nat) : State :=
  let fw := bit w 12
  let i := bits w 9 8
  match bits w 7 0 with
  | 1 => s.writeSlot fw i
  | 2 => s.eraseSlot fw i
  | 3 => s.setBoot
  | 4 => s.wr Reg.DAH_RD_ERR 0
  | c => s.dahReject c

/-- DAH_WRITE_SLOT (R422). -/
def execDahWriteSlot (fw : Bool) (i : Fin 4) (s : State) : Host.Outcome State Fault Refusal := .next (s.writeSlot fw i)
/-- DAH_ERASE_SLOT (R425). -/
def execDahEraseSlot (fw : Bool) (i : Fin 4) (s : State) : Host.Outcome State Fault Refusal := .next (s.eraseSlot fw i)
/-- DAH_SET_BOOT (R423). -/
def execDahSetBoot (s : State) : Host.Outcome State Fault Refusal := .next s.setBoot
/-- DAH_CLR_CNT (R425). -/
def execDahClrCnt (s : State) : Host.Outcome State Fault Refusal := .next (s.wr Reg.DAH_RD_ERR 0)

/-- The highest and the mean write count per cell of Dahlia (R424): shown, and the endurance warning raised once. -/
def State.dahWear (s : State) (top mean : Nat) : State :=
  let s1 := (s.wr Reg.DAH_WEAR_MAX (top / 65536)).wr Reg.DAH_WEAR_MEAN (mean / 65536)
  if 90000000 ≤ top ∧ !s.on Hid.dahWarned then (s1.wr Hid.dahWarned 1).dahEvt 2 else s1

/-- CRC-32C of bytes (R390). -/
def crc32c (l : List Byte) : Nat := crcBytesRefl 32 0x1EDC6F41 0xFFFFFFFF l ^^^ 0xFFFFFFFF

/-- DAH_WRITE_DONE (R422, R424): the copy ends. `ok` says that the read-back matches; `top` and `mean` are the write counts of
Dahlia's cells after it. A source whose memory holds the read waits; one that cannot be read ends as a failed write. -/
def execDahWriteDone (ok : Bool) (top mean : Nat) (s : State) : Host.Outcome State Fault Refusal :=
  .next (if !s.on Reg.DAH_STAT_BUSY then s
    else
      let fw := s.on Hid.dahKind
      let i := s.rd Hid.dahSlot
      let n := s.rd Reg.DAH_LEN
      let (d, r, s1) := s.coRead (s.req .config (s.rd Reg.DAH_KEY)) (64 * s.rd Reg.DAH_SRC) n
      if r = .held then s.answer .held []
      else
        let s2 := (s1.wr Reg.DAH_STAT_BUSY 0).dahWear top mean
        if r ≠ .ok then ((s2.wr (slotStat fw i) 0).dahEvt 3).dahEvt 0
        else
          let s3 := (s2.dahWrite (slotBase fw i + 64) d).wr Reg.DAH_PROG n
          if !ok then ((s3.wr (slotStat fw i) 0).dahEvt 3).dahEvt 0
          else
            let wn := (s.rd (slotWrites fw i) + 1) % 2 ^ 32
            let h := leBytes 4 0x44414853 ++ leBytes 4 n ++ leBytes 4 (crc32c d) ++ leBytes 4 wn
            (((((s3.dahWrite (slotBase fw i) (h ++ List.replicate 48 0)).wr (slotStat fw i) 2).wr (slotLen fw i) n).wr
              (slotWrites fw i) wn).wr (slotCrc fw i) (crc32c d)).dahEvt 0)

/-- A DEVICE reset abandons a slot write in progress (R426). -/
def State.dahAbandon (s : State) : State :=
  if s.on Reg.DAH_STAT_BUSY then (s.slotEmpty (s.on Hid.dahKind) (s.rd Hid.dahSlot)).wr Reg.DAH_STAT_BUSY 0 else s

end Sys2Proof.Machine
end

