-- ==== Sys2Proof/Machine/Peony.lean ====
section
/-! DEFINITION. The security processor: fuses, life-cycle, tokens, attestation and its commands (chapter 15); resuming halted cores
and what follows a fall of the debug level (R538, R546, R547). -/

namespace Sys2Proof.Machine

/-! ### Debug level (R535, R538, R546, R547) -/

/-- A halted core resumes: its watchdog continues with the grace, and what was held for it is raised (R546, R547). -/
def State.coreResume (s : State) (c : Nat) : State :=
  let s1 := ((s.wr (Reg.MIL_CORE_STAT_STATE c) (s.rd (Hid.coreWas c))).wr (Reg.DBG_CORE_STAT_HALTED c) 0).clrB
    Reg.DBG_STAT_HALTED c
  let s2 := s1.wrIf (s1.on (Reg.MIL_WDG_CFG_EN c)) (Reg.MIL_WDG_VAL c) (max (s.rd (Reg.MIL_WDG_VAL c)) (s.rd Reg.DBG_WDG_GRACE))
  ((((s2.semHalted c false).supPause).uartKick 0).uartKick 1).milLevels

/-- ATTACHED follows ATTACH at FULL (R552). -/
def State.attached (s : State) : State :=
  s.wr Reg.DBG_STAT_ATTACHED (b2n (s.on Reg.DBG_CTRL_ATTACH && s.rd Reg.DBG_STAT_LEVEL == 2))

/-- The level in force changes; when it falls below FULL the session's halts, those still
asked for among them, breakpoints and pin control end (R538). -/
def State.setLevel (s : State) (l : Nat) : State :=
  let s1 := (s.wr Reg.PEO_DBG_LEVEL l).wr Reg.DBG_STAT_LEVEL l
  if s.rd Reg.PEO_DBG_LEVEL ≠ 2 ∨ l = 2 then s1.attached
  else
    let s2 := State.each ((List.range 4).filter (fun c => s.on (Reg.DBG_CORE_STAT_HALTED c))) (fun c t => t.coreResume c) s1
    let s3 := State.each (List.range 4) (fun c t =>
      let a := (t.wr (Reg.DBG_CORE_CTRL_EBREAK_HALT c) 0).wr (Reg.DBG_CORE_CTRL_HALT_ON_RESET c) 0
      let b := State.each (List.range 8) (fun k u => u.wr (Reg.DBG_BP_CTL_EN c k) 0) (a.wr (Hid.haltWant c) 0)
      State.each (List.range 4) (fun k u => u.wr (Reg.DBG_WP_CTL_EN c k) 0) b) s2
    let s4 := ((s3.wr Reg.DBG_CTRL_ATTACH 0).wr Reg.DBG_ACC_CONSUME 0).attached
    let ir := s4.rd Hid.tapIr
    (s4.wrIf (ir == 0 || ir == 3 || ir == 4) Hid.tapIr 0xFF).dbgEvt 5

/-! ### Life-cycle (R447, R448) -/

/-- The life-cycle state that fuse word 10 gives: 0 BLANK, 1 PROVISIONED, 2 DEPLOYED, 3 RETURNED (R447). -/
def lcsOf (w : Nat) : Nat :=
  let burned (i : Nat) : Bool := decide (3 ≤ popCount 4 (w / 2 ^ (4 * i)))
  if burned 2 then 3 else if burned 1 then 2 else if burned 0 then 1 else 0

/-- The life-cycle state. -/
def State.lcs (s : State) : Nat := lcsOf (s.rd (Reg.PEO_FUSE 10))

/-- The debug level without a token (R448). -/
def lcsLevel (l : Nat) : Nat := if l = 0 then 2 else if l = 2 then 0 else 1

/-- What follows from the life-cycle state (R448, R450). -/
def State.lcsApply (s : State) : State :=
  let l := s.lcs
  let s1 := (s.wr Reg.PEO_LCS l).wr Reg.CFG_STAT_SIG_REQ (b2n (l != 0))
  if s.on Hid.tokenV then s1 else s1.setLevel (lcsLevel l)

/-! ### Events and rejects (R466) -/

/-- Bits of PEO_EVT with events 18 to 21. -/
def State.peoEvt (s : State) (i : Nat) : State := s.raiseB Reg.PEO_EVT_EVT i (18 + i)

/-- A rejected PEO command. -/
def State.peoReject (s : State) (code : Nat) : State := (s.rejMark 0x004 code).peoEvt 0

/-- The class of a master (R443); 5 for one that no class names. -/
def classOf : Master → Nat
  | .host => 0
  | .debug => 1
  | .core _ => 2
  | .fabric _ => 3
  | .fanout => 5

/-! ### Fuses (R444 to R446) -/

/-- A word of fuses as PEO_FUSE shows it (R444). -/
def State.peoFuse (s : State) (w : Nat) : Nat :=
  if (2 ≤ w ∧ w ≤ 9) ∨ (11 ≤ w ∧ w ≤ 18) then 0 else s.rd (Reg.PEO_FUSE w)

/-- Burn bits of a fuse word and read it back: bits of `fail` that were to be burned stay 0 (R464). -/
def State.burn (s : State) (w v : Nat) (fail : Option (Fin 512 × Word)) : State × Bool :=
  let old := s.rd (Reg.PEO_FUSE w)
  let new := v - (v &&& old)
  let stuck := match fail with
    | some (x, m) => if x.val = w then new &&& m.toNat else 0
    | none => 0
  (s.wr (Reg.PEO_FUSE w) (old + (new - stuck)), stuck == 0)

/-- The digest of an owner slot has been written. -/
def State.slotWritten (s : State) (i : Nat) : Bool := s.slotDigest i != 0

/-- The next unused SVN entry, if any (R446). -/
def State.nextSvn (s : State) : Option Nat :=
  let used (j : Nat) : Bool := bits (s.rd (Reg.PEO_FUSE (84 + j / 2))) (16 * (j % 2) + 15) (16 * (j % 2)) != 0
  (List.range 16).find? (fun j => (List.range 16).all (fun i => decide (i < j) || !used i))

/-- The free fused repair words. -/
def State.freeRepair (s : State) : List Nat := ((List.range 384).map (128 + ·)).filter (fun w => s.rd (Reg.PEO_FUSE w) == 0)

/-- Soft repair records not fused yet. -/
def State.unfused (s : State) : List Nat := s.records.filter (fun r => !s.fusedRecs.contains r)

/-! ### Commands (R464) -/

/-- A revocation leaves an unrevoked slot with BITSTREAM usage (R454). -/
def State.revokeOk (s : State) (i : Nat) : Bool := (List.range 8).any (fun j => j != i && s.slotAllows j 0)

/-- The legal states of a command, beside BUSY = 0 (R448, R449, R464). -/
def State.peoLegal (s : State) (code : Nat) : Bool :=
  let l := s.lcs
  let d := s.rd Reg.PEO_FUSE_DATA
  match code with
  | 1 => !s.on Reg.PEO_STAT_TRNG_FAIL
  | 2 => s.on Hid.chalV
  | 3 | 4 | 14 | 15 => true
  | 5 => decide (11 ≤ s.rd Reg.PEO_FUSE_ADDR) && decide (s.rd Reg.PEO_FUSE_ADDR ≤ 83) && decide (l < 2)
  | 6 => !s.freeRepair.isEmpty
  | 7 => decide (l < 3) && s.nextSvn.isSome && decide (s.minSvn < d % 2 ^ 16)
  | 8 => decide (l < 3) && s.revokeOk (d % 8)
  | 9 => s.slotWritten (d % 8)
  | 10 => l == 1 || l == 2
  | 11 => l == 0 && s.slotWritten 0 && s.rd (Reg.PEO_FUSE 83) % 8 != 0
  | 12 => l == 1
  | 13 => l == 1 || l == 2
  | _ => false

/-- The body of an attestation report (R457). -/
def State.attestBody (s : State) : List Byte :=
  let fw := s.on Reg.MIL_STAT_FW_LOADED
  let dev := s.rd (Reg.PEO_FUSE 0) + 2 ^ 32 * (s.rd (Reg.PEO_FUSE 1) % 2 ^ 16)
  let ver := s.rd Reg.MIL_FW_VER_PATCH + 2 ^ 16 * s.rd Reg.MIL_FW_VER_MINOR + 2 ^ 24 * s.rd Reg.MIL_FW_VER_MAJOR
  leBytes 4 0x54414757 ++ leBytes 2 1 ++ leBytes 1 s.lcs ++ leBytes 1 (s.rd Reg.PEO_DBG_LEVEL) ++ leBytes 6 dev
    ++ [14, 15].map (fun o => BitVec.ofNat 8 (Config.reportByte o))
    ++ (List.range 16).flatMap (fun j => leBytes 4 (s.rd (Reg.PEO_NONCE j))) ++ leBytes 8 s.now ++ leBytes 2 s.minSvn
    ++ leBytes 1 (s.rd (Reg.PEO_FUSE 83) / 2 ^ 24) ++ leBytes 1 s.alarmBits
    ++ leBytes 4 (if fw then ver else 0)
    ++ leBytes 4 (if fw then s.rd Reg.MIL_FW_SVN_SVN % 2 ^ 16 + 2 ^ 16 * (s.rd Hid.fwKeyId % 256) else 0)
    ++ leBytes 64 (if fw then s.rd Hid.fwDigest else 0) ++ leBytes 64 (s.rd Hid.cfgSecDig) ++ leBytes 4 (s.rd Hid.cfgSecKey)
    ++ (List.range 80).flatMap (fun n => leBytes 4 (s.cfgDesign n)) ++ List.replicate 472 0

/-- An accepted command runs, with the operands that the registers hold now: that it does not follow later writes of them is a
DESIGN CHOICE, log entry 101. -/
def State.peoBegin (s : State) (code : Nat) : State :=
  (((((s.wr Reg.PEO_STAT_BUSY 1).wr Hid.peoCode code).wr Hid.peoBuf (s.rd Reg.PEO_BUF)).wr Hid.peoBufKey (s.rd Reg.PEO_BUF_KEY)).wr
    Hid.peoAddr (s.rd Reg.PEO_FUSE_ADDR)).wr Hid.peoData (s.rd Reg.PEO_FUSE_DATA)

/-- A write of PEO_CMD by a master (R461, R464): the admin rule, the legal state, and then the command runs. -/
def State.peoCmd (s : State) (m : Master) (code : Nat) : State :=
  let admin := decide (5 ≤ code) && decide (code ≤ 15)
  if admin && !(decide (classOf m < 5) && s.bitOf Reg.PEO_ADMIN (classOf m)) then s.alarm Reg.PEO_ALARM_ADMIN
  else if s.on Reg.PEO_STAT_BUSY || !s.peoLegal code then s.peoReject code
  else if code = 3 then (s.peoBegin code).wr Hid.peoBody (ofLeBytes s.attestBody)
  else s.peoBegin code

/-- PEO_CHALLENGE (R464). -/
def execPeoChallenge (m : Master) (s : State) : Host.Outcome State Fault Refusal := .next (s.peoCmd m 1)
/-- PEO_TOKEN (R455). -/
def execPeoToken (m : Master) (s : State) : Host.Outcome State Fault Refusal := .next (s.peoCmd m 2)
/-- PEO_ATTEST (R457). -/
def execPeoAttest (m : Master) (s : State) : Host.Outcome State Fault Refusal := .next (s.peoCmd m 3)
/-- PEO_GET_CERT (R456). -/
def execPeoGetCert (m : Master) (s : State) : Host.Outcome State Fault Refusal := .next (s.peoCmd m 4)
/-- PEO_FUSE_WRITE (R444, R464). -/
def execPeoFuseWrite (m : Master) (s : State) : Host.Outcome State Fault Refusal := .next (s.peoCmd m 5)
/-- PEO_FUSE_REPAIR (R464). -/
def execPeoFuseRepair (m : Master) (s : State) : Host.Outcome State Fault Refusal := .next (s.peoCmd m 6)
/-- PEO_SET_SVN (R446). -/
def execPeoSetSvn (m : Master) (s : State) : Host.Outcome State Fault Refusal := .next (s.peoCmd m 7)
/-- PEO_REVOKE (R454). -/
def execPeoRevoke (m : Master) (s : State) : Host.Outcome State Fault Refusal := .next (s.peoCmd m 8)
/-- PEO_INSTALL_KEY (R452, R464). -/
def execPeoInstallKey (m : Master) (s : State) : Host.Outcome State Fault Refusal := .next (s.peoCmd m 9)
/-- PEO_SEAL_KEY (R464). -/
def execPeoSealKey (m : Master) (s : State) : Host.Outcome State Fault Refusal := .next (s.peoCmd m 10)
/-- PEO_PROVISION (R449, R450). -/
def execPeoProvision (m : Master) (s : State) : Host.Outcome State Fault Refusal := .next (s.peoCmd m 11)
/-- PEO_DEPLOY (R449, R450). -/
def execPeoDeploy (m : Master) (s : State) : Host.Outcome State Fault Refusal := .next (s.peoCmd m 12)
/-- PEO_RETURN (R449, R450). -/
def execPeoReturn (m : Master) (s : State) : Host.Outcome State Fault Refusal := .next (s.peoCmd m 13)
/-- PEO_WIPE_SECURE (R258, R464). -/
def execPeoWipeSecure (m : Master) (s : State) : Host.Outcome State Fault Refusal := .next (s.peoCmd m 14)
/-- PEO_LOCK (R461). -/
def execPeoLock (m : Master) (s : State) : Host.Outcome State Fault Refusal := .next (s.peoCmd m 15)

/-! ### Completion (R464) -/

/-- The running command ends: `cause` 0 is OK (RESULT 1), otherwise FAIL; commands of the debug port report in
DBG_AUTH_STAT instead (R537). -/
def State.peoEnd (s : State) (len cause : Nat) : State :=
  let r := if cause = 0 then 1 else 2
  let s1 := s.wr Reg.PEO_STAT_BUSY 0
  if 0x40 ≤ s.rd Hid.peoCode then
    ((s1.wr Reg.DBG_AUTH_STAT_BUSY 0).wr Reg.DBG_AUTH_STAT_CAUSE cause).wr Reg.DBG_AUTH_STAT_RESULT r
  else (((s1.wr Reg.PEO_RESULT_LEN len).wr Reg.PEO_RESULT_CAUSE cause).wr Reg.PEO_RESULT_RESULT r).peoEvt 1

/-- Read a buffer of Peony: none where it waits; the cause is 6 BUFFER where it does not lie in memory or cannot be read. -/
def State.peoRead (s : State) (n : Nat) : Option (List Byte × Nat × State) :=
  let a := 64 * s.rd Hid.peoBuf
  if !s.inMemory a n then some ([], 6, s)
  else
    let (d, r, t) := s.coRead (s.req .peony (s.rd Hid.peoBufKey)) a n
    if r = .held then none else some (d, if r = .ok then 0 else 6, t)

/-- Write a buffer of Peony. -/
def State.peoWrite (s : State) (d : List Byte) : Option (Nat × State) :=
  let a := 64 * s.rd Hid.peoBuf
  if !s.inMemory a d.length then some (6, s)
  else
    let (r, t) := s.coWrite (s.req .peony (s.rd Hid.peoBufKey)) a d
    if r = .held then none else some (if r = .ok then 0 else 6, t)

/-- The cause with which a token of 1,412 bytes fails, 0 where it passes (R455): `sig` says that its signature verifies under
its key. `ret` asks for a RETURN token, which an owner slot must sign (R449). -/
def State.tokenCause (s : State) (t : List Byte) (sig ret : Bool) : Nat :=
  let f (o n : Nat) : Nat := hdrField t o n
  let key := f 80 4
  if f 0 4 ≠ 0x544B4757 ∨ f 4 2 ≠ 1 ∨ f 6 1 = 0 ∨ 3 < f 6 1 ∨ f 7 1 ≠ 0 ∨ f 14 2 ≠ 0 ∨ f 84 4 = 0 ∨ 604800 < f 84 4
      ∨ f 88 40 ≠ 0 ∨ (ret ∧ f 6 1 ≠ 3) then 4
  else if f 8 6 ≠ s.rd (Reg.PEO_FUSE 0) + 2 ^ 32 * (s.rd (Reg.PEO_FUSE 1) % 2 ^ 16) ∨ !s.on Hid.chalV
      ∨ f 16 64 ≠ s.rd Hid.chal ∨ s.rd Hid.chalAt + 240000000000 ≤ s.now then 3
  else if !(s.keyUsable key 2 || (key == 0x100 && s.lcs == 3 && !ret)) then 2
  else if !sig then 1
  else 0

/-- TOKEN with its bytes (R455): the challenge is consumed; a pass of LEVEL 1 or 2 sets the level for LIFETIME seconds. -/
def State.tokenRun (s : State) (t : List Byte) (sig : Bool) : Nat × State :=
  let c := s.tokenCause t sig false
  let s1 := s.wr Hid.chalV 0
  if c ≠ 0 then (c, s1.alarm Reg.PEO_ALARM_TOKEN)
  else if hdrField t 6 1 = 3 then (0, s1)
  else (0, ((s1.wr Hid.tokenV 1).wr Reg.PEO_DBG_REMAIN (hdrField t 84 4)).setLevel (hdrField t 6 1))

/-- A challenge of 64 bytes from the TRNG: a free value (R442, R455). -/
def State.challenge (s : State) : State :=
  let (v, s1) := s.fresh
  ((s1.wr Hid.chal v).wr Hid.chalV 1).wr Hid.chalAt s.now

/-- A signature block of the identity key: its bytes are free (R451, R456). -/
def State.signBlock (s : State) : List Byte × State :=
  let (v, s1) := s.fresh
  (leBytes 1284 v, s1.wr Reg.PEO_STAT_ID_READY 1)

/-- The identity certificate (R456). -/
def State.cert (s : State) : List Byte :=
  let dev := s.rd (Reg.PEO_FUSE 0) + 2 ^ 32 * (s.rd (Reg.PEO_FUSE 1) % 2 ^ 16)
  let open8 (a n : Nat) : List Byte := (List.range n).map (fun i => BitVec.ofNat 8 (Config.certByte (a + i)))
  leBytes 4 0x54434557 ++ leBytes 2 1 ++ open8 6 2 ++ leBytes 6 dev ++ open8 14 2 ++ open8 16 8 ++ List.replicate 40 0
    ++ open8 64 1793 ++ List.replicate 3 0 ++ open8 1860 1284

/-- A life-cycle transition burns its field and applies what follows (R447, R450). -/
def State.transition (s : State) (i : Nat) (fail : Option (Fin 512 × Word)) : State :=
  let old := s.lcs
  let (s1, ok) := s.startWipe.burn 10 (15 * 2 ^ (4 * i)) fail
  let s2 := if s1.lcs = old then s1
    else ((if i = 2 then (s1.wr Hid.sealedV 0).wr Hid.sealedKey 0 else s1).lcsApply).peoEvt 3
  s2.peoEnd 0 (if ok then 0 else 5)

/-- FUSE_REPAIR: each soft record not fused goes into the next free repair word, until one fails or none is left. -/
def State.fuseRepair (s : State) (fail : Option (Fin 512 × Word)) : State :=
  let (t, cause) := s.unfused.foldl (fun (acc : State × Nat) r =>
    if acc.2 ≠ 0 then acc
    else match acc.1.freeRepair with
    | [] => (acc.1, 5)
    | w :: _ =>
      let (u, ok) := acc.1.burn w r fail
      (u.inc Reg.CFG_VB_REC_FUSED 1, if ok then 0 else 5)) (s, 0)
  t.peoEnd 0 cause

/-- INSTALL_KEY: `good` says that the digest of the key is that of its slot (R452). -/
def State.installKey (s : State) (good : Bool) : State :=
  let i := s.rd Hid.peoData % 8
  match s.peoRead 1793 with
  | none => s.answer .held []
  | some (d, c, t) =>
    if c ≠ 0 then t.peoEnd 0 c
    else if !good then t.peoEnd 0 2
    else (((t.wr (Hid.ownerKey i) (ofLeBytes d)).wr (Hid.ownerDig i) (t.slotDigest i)).wr (Hid.ownerKeyV i) 1).peoEnd 0 0

/-- SEAL_KEY: the buffer lies wholly in the secure region, and is wiped afterwards. -/
def State.sealKey (s : State) : State :=
  let a := 64 * s.rd Hid.peoBuf
  if a < secBase ∨ secBase + secSize < a + 32 then s.peoEnd 0 6
  else match s.peoRead 32 with
  | none => s.answer .held []
  | some (d, c, t) =>
    if c ≠ 0 then t.peoEnd 0 c
    else match ((t.wr Hid.sealedKey (ofLeBytes d)).wr Hid.sealedV 1).peoWrite (List.replicate 32 0) with
    | none => s.answer .held []
    | some (c2, u) => u.peoEnd 0 c2

/-- PEO_CMD_DONE (R464): the running command completes. `good` is the outcome of its cryptographic check: the signature of a
token, or the digest of a key; `fail` names fuse bits that do not read 1 after burning. -/
def execPeoCmdDone (good : Bool) (fail : Option (Fin 512 × Word)) (s : State) : Host.Outcome State Fault Refusal :=
  .next (if !s.on Reg.PEO_STAT_BUSY then s
    else
      let d := s.rd Hid.peoData
      match s.rd Hid.peoCode with
      | 1 | 0x40 =>
        if s.on Reg.PEO_STAT_TRNG_FAIL then s.peoEnd 0 0 |>.wr (if s.rd Hid.peoCode = 1 then Reg.PEO_RESULT_RESULT else
          Reg.DBG_AUTH_STAT_RESULT) 2
        else
          let s1 := s.challenge
          let v := s1.rd Hid.chal
          let s2 := State.each (List.range 16) (fun j t =>
            t.wr (if s.rd Hid.peoCode = 1 then Reg.PEO_CHAL j else Reg.DBG_CHAL j) (v / 2 ^ (32 * j))) s1
          s2.peoEnd 64 0
      | 2 =>
        match s.peoRead 1412 with
        | none => s.answer .held []
        | some (t, c, s1) =>
          if c ≠ 0 then ((s1.wr Hid.chalV 0).alarm Reg.PEO_ALARM_TOKEN).peoEnd 0 c
          else
            let (c2, s2) := s1.tokenRun t good
            s2.peoEnd 0 c2
      | 0x41 =>
        let (c2, s2) := s.tokenRun ((List.range 353).flatMap (fun j => leBytes 4 (s.rd (Reg.DBG_TOKEN j)))) good
        s2.peoEnd 0 c2
      | 3 =>
        let (b, s1) := s.signBlock
        match s1.peoWrite (leBytes 1024 (s.rd Hid.peoBody) ++ b) with
        | none => s.answer .held []
        | some (c, s2) => s2.peoEnd (if c = 0 then 2308 else 0) c
      | 4 =>
        match s.peoWrite s.cert with
        | none => s.answer .held []
        | some (c, s2) => s2.peoEnd (if c = 0 then 3144 else 0) c
      | 5 =>
        let (s1, ok) := s.burn (s.rd Hid.peoAddr) d fail
        s1.peoEnd 0 (if ok then 0 else 5)
      | 6 => s.fuseRepair fail
      | 7 =>
        match s.nextSvn with
        | none => s.peoEnd 0 5
        | some j =>
          let (s1, ok) := s.burn (84 + j / 2) (d % 2 ^ 16 * 2 ^ (16 * (j % 2))) fail
          s1.peoEnd 0 (if ok then 0 else 5)
      | 8 =>
        let (s1, ok) := s.burn 83 (2 ^ (24 + d % 8)) fail
        s1.peoEnd 0 (if ok then 0 else 5)
      | 9 => s.installKey good
      | 10 => s.sealKey
      | 11 => s.transition 0 fail
      | 12 => s.transition 1 fail
      | 13 =>
        match s.peoRead 1412 with
        | none => s.answer .held []
        | some (t, c, s1) =>
          let c2 := if c ≠ 0 then c else s1.tokenCause t good true
          if c2 ≠ 0 then (s1.alarm Reg.PEO_ALARM_TOKEN).peoEnd 0 c2 else s1.transition 2 fail
      | 14 => s.startWipe.peoEnd 0 0
      | _ => (s.wr Reg.PEO_STAT_LOCKED 1).peoEnd 0 0)

/-- TRNG_FAIL (R442, R463). -/
def execTrngFail (s : State) : Host.Outcome State Fault Refusal :=
  .next ((s.wr Reg.PEO_STAT_TRNG_FAIL 1).alarm Reg.PEO_ALARM_TRNG)

/-- A tamper source is enabled (R462): 0 and 1 the pins, 2 the glitch detector. -/
def State.tampOn (s : State) (k : Nat) : Bool :=
  if k = 2 then s.on Reg.PEO_TAMP_CFG_GLITCH_EN else s.bitOf Reg.PEO_TAMP_CFG_PIN_EN k

/-- TAMPER_REPEAT (R462): a source that is still active wipes again. -/
def execTamperRepeat (k : Fin 3) (s : State) : Host.Outcome State Fault Refusal :=
  .next (if s.tampOn k then s.startWipe else s)

/-- The wipe, the latch and the events of a tamper (R462, R463). -/
def State.tamperLatch (s : State) (k : Nat) : State :=
  let s1 := s.startWipe.inc Reg.PEO_TAMP_STAT_COUNT 1
  let s2 := if k = 2 then s1.wr Reg.PEO_TAMP_STAT_GLITCH 1 else s1.setB Reg.PEO_TAMP_STAT_PIN k
  (s2.peoEvt 2).alarm Reg.PEO_ALARM_TAMPER

/-- The grant of a token ends (R455). -/
def State.tokenEnd (s : State) : State :=
  if s.on Hid.tokenV then ((s.wr Hid.tokenV 0).wr Reg.PEO_DBG_REMAIN 0).setLevel (lcsLevel s.lcs) else s

/-- TOKEN_EXPIRE (R455, R538): the last second of the grant is over. -/
def execTokenExpire (s : State) : Host.Outcome State Fault Refusal :=
  .next (if s.rd Reg.PEO_DBG_REMAIN ≤ 1 then s.tokenEnd else s)

end Sys2Proof.Machine
end

