-- ==== Sys2Proof/Machine/Scrub.lean ====
section
/-! DEFINITION. Frame scrubbing, golden copies, the scrub engines and the class buckets (chapter 16). -/

namespace Sys2Proof.Machine

/-- Bits of SCB_EVT with events 30 to 35 (R493). -/
def State.scbEvt (s : State) (i : Nat) : State := s.raiseB Reg.SCB_EVT_EVT i (30 + i)

/-- A rejected SCB command. -/
def State.scbReject (s : State) (code : Nat) : State := (s.rejMark 0x00C code).scbEvt 5

/-! ### Verdicts and repair (R470 to R474) -/

/-- The verdict of a frame's syndromes (R470). -/
def frameVerdict (y : Nat) : Verdict :=
  let sr := y % 2 ^ 32
  let sc := y / 2 ^ 32
  if y = 0 then .clean
  else match oneBit 32 sr, oneBit 64 sc with
  | some j, some k => .fix (some (64 * j + k))
  | some _, none => if sc = 0 then .fix none else .bad
  | none, some _ => if sr = 0 then .fix none else .bad
  | none, none => .bad

/-- The address of frame `f` of plane `c` of island `n` (R382, R385). -/
def farAt (n c f : Nat) : Nat :=
  if f < 800 then farOf c n 0 (f / 100) (f % 100)
  else if f < 1440 then farOf c n 1 ((f - 800) / 80) ((f - 800) % 80)
  else if f < 1568 then farOf c n 2 ((f - 1440) / 16) ((f - 1440) % 16)
  else farOf c n 3 ((f - 1568) / 4) (196 + (f - 1568) % 4)

/-- A frame written by a scrub, with a fresh check; one that R395 would refuse is not written (R472). -/
def State.scrubStore (s : State) (n c f d : Nat) : State :=
  if f = 1599 ∧ !steerOk d then s
  else
    let s1 := (s.wr (Hid.cfgFrame n c f) d).wr (Hid.frameSyn n c f) 0
    if f = 1599 then (s1.wr (Hid.mrDir n c) (steerDir d)).wr (Hid.vbHeld (80 + n)) 0 else s1

/-- A frame that cannot be repaired (R470, R489). -/
def State.unrepairable (s : State) (n c f : Nat) : State :=
  let s1 := (s.inc Reg.SCB_UNREP 1).scbEvt 3
  let s2 := if s1.on Reg.SCB_UNREP_FAR_VALID then s1
    else (s1.wr Reg.SCB_UNREP_FAR_VALID 1).wr Reg.SCB_UNREP_FAR_FAR (farAt n c f)
  let s3 := if s.rd (Reg.ISL_STAT_CUR_CTX n) = c then s2 else s2.clrB (Reg.ISL_CTX_VALID_VALID n) c
  s3.journal 7 1

/-- The golden copy of a frame as it can be used: `gold` is 0 where its chunk is right, 1 where its CRC fails, and 2 where
Dahlia cannot correct it (R473, R474). -/
def State.goldRead (s : State) (n c f gold : Nat) : Option Nat × State :=
  if !s.bitOf (Reg.SCB_GOLD_PRESENT n) c then (none, s)
  else if gold = 0 then (some (s.rd (Hid.gold n c f)), s)
  else if gold = 1 then (none, s)
  else (none, s.dahReadErr)

/-- A golden chunk that cannot be used is built again from the plane where all 64 of its frames pass their check (R474). -/
def State.goldRebuild (s : State) (n c f : Nat) : State :=
  let fs := (List.range 64).map (fun i => f / 64 * 64 + i)
  if s.bitOf (Reg.SCB_GOLD_PRESENT n) c && fs.all (fun g => s.rd (Hid.frameSyn n c g) == 0) then
    State.each fs (fun g t => t.wr (Hid.gold n c g) (t.rd (Hid.cfgFrame n c g))) s
  else s

/-- An engine checks one frame (R470, R471): `deep` compares a clean frame with its golden copy. -/
def State.scrubFrame (s : State) (n c f gold : Nat) (deep : Bool) : State :=
  let d := s.rd (Hid.cfgFrame n c f)
  match frameVerdict (s.rd (Hid.frameSyn n c f)) with
  | .clean =>
    if !deep then s
    else match s.goldRead n c f gold with
    | (some g, t) => if g = d then t else ((t.scrubStore n c f g).inc Reg.SCB_REPAIRED 1).classErr 0 true
    | (none, t) => t.goldRebuild n c f
  | .fix b =>
    ((s.scrubStore n c f (match b with | some i => d ^^^ 2 ^ i | none => d)).inc Reg.SCB_CORR 1).classErr 0 false
  | .bad =>
    match s.goldRead n c f gold with
    | (some g, t) => ((t.scrubStore n c f g).inc Reg.SCB_REPAIRED 1).classErr 0 true
    | (none, t) => (t.classErr 0 true).unrepairable n c f

/-! ### The scrub engines (R475 to R478) -/

/-- The engine is in service. -/
def State.engOn (s : State) (e : Nat) : Bool := s.rd (Reg.SCB_ENG_STATE e) == 0

/-- The engines in service. -/
def State.engines (s : State) : List Nat := (List.range 3).filter s.engOn

/-- The engine that serves an island (R475, R477, R478): its own, or, while that is out, by parity one of the others. -/
def State.engineOf (s : State) (n : Nat) : Option Nat :=
  let b := if n < 27 then 0 else if n < 54 then 1 else 2
  let serves (e : Nat) : Bool := s.engOn e && s.on (Hid.engShare e)
  let x := if n % 2 = 0 then (b + 1) % 3 else (b + 2) % 3
  let y := if n % 2 = 0 then (b + 2) % 3 else (b + 1) % 3
  if serves b then some b else if s.engOn x then some x else if s.engOn y then some y
  else if s.engOn b then some b else none

/-- A plane that scrubbing reads (R469). -/
def State.scrubbed (s : State) (n c : Nat) : Bool :=
  s.bitOf (Reg.ISL_CTX_VALID_VALID n) c && !s.bitOf (Reg.ISL_CTX_VALID_LOADING n) c && !s.frameFenced n

/-- The pass is one in which frames are compared with their golden copies (R471). -/
def State.deepPass (s : State) : Bool :=
  let k := s.rd Reg.SCB_CTRL_DEEP_EVERY
  k != 0 && (s.rd Reg.SCB_PASSES + 1) % k == 0

/-! ### The pass (R467, R469) -/

/-- The planes of the part, 8 n + c: islands in ascending order. -/
def planeList : List Nat := List.range 640

/-- The plane numbered `k` has frames that the present pass has still to check, by engine `e`. -/
def State.toScrub (s : State) (e k : Nat) : Bool :=
  s.engineOf (k / 8) == some e && s.scrubbed (k / 8) (k % 8) && decide (s.rd (Hid.scrProg (k / 8) (k % 8)) < 1600)

/-- The next frame that engine `e` checks, as its plane and its number in it: none where its part of the pass is done. -/
def State.scrubNext (s : State) (e : Nat) : Option (Nat × Nat) :=
  (planeList.find? (s.toScrub e)).map (fun k => (k, s.rd (Hid.scrProg (k / 8) (k % 8))))

/-- Cycles in a percent of a period of a riser: 250 M frames/s, or half of it at HALF (R467, R469). -/
def State.riserUnit (s : State) (r : Fin 2) : Nat := if s.rd (bunMode (.riser r)) = 1 then 125 else 250

/-- The planes that SCRUB_NOW has asked for, in the order of the commands (R492). -/
def State.asked (s : State) : List Nat := Tab.getD s.fifos 51 []

/-- The frame that engine `e` checks ahead of the pass, as its plane and its number in it (R492). A plane whose island is SWITCHING
waits (R472). -/
def State.askNext (s : State) (e : Nat) : Option (Nat × Nat) :=
  (s.asked.find? (fun k => s.engineOf (k / 8) == some e && s.scrubbed (k / 8) (k % 8) && !s.on (Reg.ISL_STAT_SWITCHING (k / 8))
    && !s.cfgHeld (k / 8))).map (fun k => (k, s.rd (Hid.scrAsk (k / 8) (k % 8))))

/-- A plane joins those asked for, or leaves them with its last frame. -/
def State.ask (s : State) (k : Nat) : State := { s with fifos := Tab.set s.fifos 51 [] (s.asked.filter (fun j => j != k) ++ [k]) }
def State.unask (s : State) (k : Nat) : State := { s with fifos := Tab.set s.fifos 51 [] (s.asked.filter (fun j => j != k)) }

/-- A frame that SCRUB_NOW asks for has been checked. -/
def State.askOn (s : State) (n c f : Nat) : State :=
  if f = 1599 then (s.unask (8 * n + c)).wr (Hid.scrAsk n c) 0 else s.wr (Hid.scrAsk n c) (f + 1)

/-- The share of the engine and of the riser that a frame of an island takes; the pass waits while a golden copy is to be built over
the same riser (R467). -/
def State.frameShare (s : State) (e n : Nat) (urgent : Bool) : Option State :=
  let r := s.riserOf n
  if !urgent && s.builds.any (fun k => s.riserOf (k / 8) == r) then none
  else match s.engTake e with
  | none => none
  | some t => t.bgTake r.val 1 (s.riserUnit r)

/-- The pass is complete (R469): the next begins, and engines take their share back (R477). -/
def State.passEnd (s : State) : State :=
  let s1 := State.each planeList (fun k t => t.wr (Hid.scrProg (k / 8) (k % 8)) 0) s
  let s2 := State.each s1.engines (fun x t => t.wr (Hid.engShare x) 1) s1
  ((s2.add Reg.SCB_PASSES 1).wr Reg.SCB_PASS_MS (min 65535 ((s.now - s.rd Hid.passAt) / 4000000))).wr Hid.passAt s.now

/-- A frame of the pass has been checked. -/
def State.passOn (s : State) (n c f : Nat) : State :=
  let t := s.wr (Hid.scrProg n c) (f + 1)
  if f = 1599 ∧ [0, 1, 2].all (fun e => (t.scrubNext e).isNone) then t.passEnd else t

/-- SCRUB_FRAME (R467, R469 to R475): the engine that serves the island checks the frame whose turn it is. `data` and `chk` are the
stored bits that an upset has changed since the last check, `gold` how the golden chunk reads (0 right, 1 CRC wrong, 2
uncorrectable); `errs` are the wire errors on the frame's way (R213). A frame that is not the engine's next, or that does not fit in the
background share, waits; what SCRUB_NOW asks for comes ahead of the pass (R492). A steering frame is checked on request out of turn, and even while EN = 0 (R224). -/
def execScrubFrame (n : Fin 80) (c : Fin 8) (f : Fin 1600) (data : BitVec 2048) (chk : BitVec 96) (gold : Fin 3)
    (errs : List (Bundle × SigErr)) (s : State) : Host.Outcome State Fault Refusal :=
  .next (
    let urgent := f.val == 1599 && s.on (Hid.vbHeld (80 + n))
    if !s.scrubbed n c then s
    else match s.engineOf n with
    | none => s
    | some e =>
      let turn := some (8 * n.val + c.val, f.val)
      let asked := !urgent && s.askNext e == turn
      if !urgent && !asked && !s.on Reg.SCB_CTRL_EN then s
      else if s.on (Reg.ISL_STAT_SWITCHING n) || s.cfgHeld n then s.answer .held []
      else if !urgent && !asked && ((s.askNext e).isSome || s.scrubNext e != turn) then s.answer .held []
      else match s.frameShare e n urgent with
      | none => s.answer .held []
      | some s0 =>
        let s1 := (s0.wr (Hid.cfgFrame n c f) (s0.rd (Hid.cfgFrame n c f) ^^^ data.toNat)).wr (Hid.frameSyn n c f)
          (s0.rd (Hid.frameSyn n c f) ^^^ frameCheck data.toNat ^^^ chk.toNat)
        let s2 := ((s1.cfgErrors errs).add (Reg.SCB_ENG_FRAMES e) 1).scrubFrame n c f gold (!asked && s.deepPass)
        if urgent then s2 else if asked then s2.askOn n c f else s2.passOn n c f)

/-- SCB_STAT.BUILDING follows the planes whose build waits or runs. -/
def State.building (s : State) : State :=
  s.wr Reg.SCB_STAT_BUILDING (b2n ((List.range 80).any (fun n => s.rd (Reg.SCB_GOLD_BUILDING n) != 0)))

/-- The plane whose golden copy is built next: active planes first, otherwise in the order of their LFRM (R473). -/
def State.buildNext (s : State) : Option Nat :=
  match s.builds.find? (fun k => s.rd (Reg.ISL_STAT_CUR_CTX (k / 8)) == k % 8) with
  | some k => some k
  | none => s.builds.head?

/-- The frames of a plane cross their riser, and its chunks go to Dahlia, within the background share (R467). -/
def State.buildShare (s : State) (n units : Nat) : Option State :=
  let r := s.riserOf n
  match s.bgTake r.val 1600 (s.riserUnit r) with
  | none => none
  | some t => t.dahTake (65536 * units) t.jnlWaits

/-- The golden copy of a plane as its frames make it, with its chunks taking `units` of 64 KiB (R473, R474). -/
def State.buildPlane (s : State) (n c units : Nat) : State :=
  let fs := List.range 1600
  if !s.scrubbed n c || fs.any (fun f => frameVerdict (s.rd (Hid.frameSyn n c f)) == .bad) then s
  else if s.rd Reg.SCB_GOLD_FREE < units then s.scbEvt 4
  else
    let s2 := State.each fs (fun f t => t.scrubFrame n c f 0 false) s
    let s3 := State.each fs (fun f t => t.wr (Hid.gold n c f) (t.rd (Hid.cfgFrame n c f))) s2
    let old := s.rd (Hid.goldUnits n c)
    ((s3.wr (Hid.goldUnits n c) units).wr Reg.SCB_GOLD_FREE (s.rd Reg.SCB_GOLD_FREE + old - units)).setB (Reg.SCB_GOLD_PRESENT n) c

/-- GOLDEN_BUILD (R467, R473, R474): the build of a plane ends, its chunks taking `units` of 64 KiB. Frames with one wrong bit are
corrected first; where the plane holds a frame that is wrong otherwise, or the partition has no room, no copy stands. A plane before
which another is to be built, or that does not fit in the share, waits. -/
def execGoldenBuild (n : Fin 80) (c : Fin 8) (units : Fin 65536) (s : State) : Host.Outcome State Fault Refusal :=
  .next (if !s.bitOf (Reg.SCB_GOLD_BUILDING n) c then s
    else if s.buildNext != some (8 * n.val + c.val) then s.answer .held []
    else match s.buildShare n units with
    | none => s.answer .held []
    | some t =>
      let t1 : State := { t with fifos := Tab.set t.fifos 50 [] (t.builds.filter (fun k => k != 8 * n.val + c.val)) }
      (t1.clrB (Reg.SCB_GOLD_BUILDING n) c).building.buildPlane n c units)

/-- IN_SERVICE and UNCHECKED follow the engines; event 32 where fewer than two have become one, or none (R478). -/
def State.engCount (was : Nat) (s : State) : State :=
  let k := s.engines.length
  let s1 := (s.wr Reg.SCB_STAT_IN_SERVICE (s.engines.foldl (fun m e => m + 2 ^ e) 0)).wr Reg.SCB_STAT_UNCHECKED (b2n (k == 1))
  if k < was ∧ k < 2 then s1.scbEvt 2 else s1

/-- An engine is faulty (R477): it stops and is reloaded, or, at its third fault within an hour, it is RETIRED. -/
def State.engFaulty (s : State) (e cause : Nat) : State :=
  let was := s.engines.length
  let t2 := s.rd (Hid.engFault e 1)
  let third := t2 != 0 && decide (s.now + 1 ≤ t2 + 14400000000000)
  let s1 := (((s.inc (Reg.SCB_ENG_FAULTS e) 1).wr (Reg.SCB_ENG_LAST_CAUSE e) cause).wr (Hid.engFault e 1)
    (s.rd (Hid.engFault e 0))).wr (Hid.engFault e 0) (s.now + 1)
  let s2 := (((s1.wr (Reg.SCB_ENG_STATE e) (if third then 2 else 1)).wr (Hid.engShare e) 0).wr (Hid.engReady e) 0).scbEvt 0
  let s3 := if third then (s2.scbEvt 1).journal 7 0 else s2
  s3.engCount was

/-- The engine that checks `e`: A checks B, B checks C, C checks A. -/
def checker (e : Nat) : Nat := (e + 2) % 3

/-- ENGINE_XCHECK (R476 to R478): engine `e` is checked by its checker; `found` is the cause found, 1 REG to 4 STALL. With
three in service the third is asked first; with two both are stopped and reloaded. A reloaded engine that passes returns to service. -/
def execEngineXcheck (e : Fin 3) (found : Option (Fin 4)) (s : State) : Host.Outcome State Fault Refusal :=
  .next (if !s.engOn (checker e) then s
    else match found with
    | none =>
      if s.rd (Reg.SCB_ENG_STATE e) = 1 ∧ s.on (Hid.engReady e) then
        ((s.wr (Reg.SCB_ENG_STATE e) 0).wr (Hid.engReady e) 0).engCount 3
      else s
    | some k =>
      if s.rd (Reg.SCB_ENG_STATE e) = 1 then s.wr (Hid.engReady e) 0
      else if !s.engOn e then s
      else if s.engines.length = 3 then ((s.wr Hid.accV 1).wr Hid.accEng e).wr Hid.accCause (k + 1)
      else (s.engFaulty e (k + 1)).engFaulty (checker e) 5)

/-- ENGINE_RECHECK (R477): the third engine agrees, and the accused engine is faulty, or it does not, and the accuser is. -/
def execEngineRecheck (agree : Bool) (s : State) : Host.Outcome State Fault Refusal :=
  .next (if !s.on Hid.accV then s
    else
      let e := s.rd Hid.accEng
      let s1 := s.wr Hid.accV 0
      if agree then s1.engFaulty e (s.rd Hid.accCause) else s1.engFaulty (checker e) 5)

/-- ENGINE_RELOAD_DONE (R477, R478): the engine waits for its check, or, where no engine can check it, returns to service. -/
def execEngineReloadDone (e : Fin 3) (s : State) : Host.Outcome State Fault Refusal :=
  .next (if s.rd (Reg.SCB_ENG_STATE e) ≠ 1 then s
    else if s.engOn (checker e) then s.wr (Hid.engReady e) 1
    else (s.wr (Reg.SCB_ENG_STATE e) 0).engCount 3)

/-! ### SCB commands (R492) -/

/-- SCRUB_NOW: the plane is checked ahead of the pass. -/
def State.scrubNow (s : State) (n c : Nat) : State :=
  if 80 ≤ n ∨ !s.scrubbed n c ∨ s.engines = [] then s.scbReject 1 else (s.ask (8 * n + c)).wr (Hid.scrAsk n c) 0

/-- REBUILD_GOLD (R474). -/
def State.rebuildGold (s : State) (n c : Nat) : State :=
  if 80 ≤ n ∨ !s.bitOf (Reg.ISL_CTX_VALID_VALID n) c ∨ s.bitOf (Reg.ISL_CTX_VALID_LOADING n) c
      ∨ s.bitOf (Reg.SCB_GOLD_BUILDING n) c then s.scbReject 2
  else s.buildQueue n c

/-- RESTORE (R477). -/
def State.restoreEng (s : State) (e : Nat) : State :=
  if 3 ≤ e ∨ s.rd (Reg.SCB_ENG_STATE e) ≠ 2 then s.scbReject 3
  else (((s.wr (Reg.SCB_ENG_STATE e) 1).wr (Hid.engReady e) 0).wr (Hid.engFault e 0) 0).wr (Hid.engFault e 1) 0

/-- CLR_CNT. -/
def State.scbClrCnt (s : State) : State :=
  ((((s.wr Reg.SCB_CORR 0).wr Reg.SCB_REPAIRED 0).wr Reg.SCB_UNREP 0).wr Reg.SCB_UNREP_FAR_VALID 0).wr Reg.SCB_UNREP_FAR_FAR 0

/-- A write of SCB_CMD (R492). -/
def State.scbCmd (s : State) (w : Nat) : State :=
  match bits w 7 0 with
  | 1 => s.scrubNow (bits w 14 8) (bits w 18 16)
  | 2 => s.rebuildGold (bits w 14 8) (bits w 18 16)
  | 3 => s.restoreEng (bits w 21 20)
  | 4 => s.scbClrCnt
  | c => s.scbReject c

/-- SCB_SCRUB_NOW (R492). -/
def execScbScrubNow (n : Fin 128) (c : Fin 8) (s : State) : Host.Outcome State Fault Refusal := .next (s.scrubNow n c)
/-- SCB_REBUILD_GOLD (R474). -/
def execScbRebuildGold (n : Fin 128) (c : Fin 8) (s : State) : Host.Outcome State Fault Refusal := .next (s.rebuildGold n c)
/-- SCB_RESTORE (R477). -/
def execScbRestore (e : Fin 4) (s : State) : Host.Outcome State Fault Refusal := .next (s.restoreEng e)
/-- SCB_CLR_CNT (R492). -/
def execScbClrCnt (s : State) : Host.Outcome State Fault Refusal := .next s.scbClrCnt

/-- CLASS_BUCKET_LEAK (R479). -/
def execClassBucketLeak (k : Fin 8) (s : State) : Host.Outcome State Fault Refusal :=
  .next (s.leak (Reg.TEL_LB_LEVEL k) (Reg.TEL_LB_TRIP k) (s.rd (Reg.TEL_LB_CFG_THRESH k)))

end Sys2Proof.Machine
end

