-- ==== Sys2Proof/Machine/Upkeep.lean ====
section
/-! DEFINITION. Self-test, calibration, telemetry and the journal (chapter 16). -/

namespace Sys2Proof.Machine

/-! ### Self-test (R480 to R482) -/

/-- Bits of BST_EVT with events 26 to 29 (R493). -/
def State.bstEvt (s : State) (i : Nat) : State := s.raiseB Reg.BST_EVT_EVT i (26 + i)

/-- A rejected BST command. -/
def State.bstReject (s : State) (code : Nat) : State := (s.rejMark 0x00D code).bstEvt 0

/-- A test of a target may run (R480). -/
def State.bstLegal (s : State) (t i : Nat) : Bool :=
  match t with
  | 0 => !s.on Reg.HOP_CTRL_EN && !s.on Reg.RUN_CTRL_EN && !s.on Reg.LAN_STAT_RUN && !s.on Reg.MAR_STAT_STATE
      && s.rd Reg.MST_STAT_STATE == 0 && (List.range 4).all (fun p => s.rd (Reg.PRB_STAT_STATE p) == 0)
  | 1 => decide (i < 80) && s.rd (Reg.NOC_RTR_STAT_STATE i) == 0
  | 2 | 3 => decide (i < 80) && s.rd (Reg.ISL_STAT_STATE i) == 0 && s.rd (Reg.ISL_CTX_VALID_VALID i) == 0
      && s.rd (Reg.ISL_CTX_VALID_LOADING i) == 0 && !s.frameFenced i
  | 4 => decide (i < 80) && s.rd (Reg.SRM_BANK_PSTAT_PSTATE i) == 0
  | 5 => s.rd Reg.HBM_STAT_STATE == 0
  | 6 => decide (i < 48) && s.rd Reg.HBM_STAT_STATE == 3 && s.rd (Reg.HBM_RANK_ROLE i) == 1 && !s.on Reg.HBM_STAT_MIGRATING
  | 7 => s.coresInReset && !s.on Reg.MIL_STAT_CMO_BUSY
  | 8 => decide (i < 4) && !s.on (Reg.PRB_CTRL_EN i)
  | 9 => true
  | 10 => !s.on Reg.DAH_STAT_BUSY
  | _ => false

/-- RUN (R480): the test runs, and its target is busy. -/
def State.bstRun (s : State) (t i : Nat) : State :=
  if s.on Reg.BST_STAT_BUSY || !s.bstLegal t i then s.bstReject 1
  else
    let s1 := ((s.wr Reg.BST_STAT_BUSY 1).wr Hid.bstTgt t).wr Hid.bstIdx i
    if t = 1 then s1.rtrDrain i 2
    else if t = 5 then s1.wr Reg.HBM_STAT_FILLED 0
    else if t = 7 then State.each s1.cache (fun x u => u.cleanLine x.1) s1
    else s1

/-- What a test leaves its target as, finished or aborted (R480). -/
def State.bstEffect (s : State) (t i : Nat) : State :=
  match t with
  | 0 => s.hopReset.runReset.lanReset.marReset.mstEngineReset
  | 2 | 3 => State.each (List.range 8) (fun c u => u.clearPlane i c) s
  | 4 => s.zeroWords (0x1000000000 + i * 0x300000) 0x300000
  | 5 => { s with
      mem := Tab.delRange s.mem 0 0x600000000
      info := Tab.delRange s.info 0 (0x600000000 / 32)
      wback := s.wback.filter (fun w => decide (0x600000000 / 32 ≤ w % 2 ^ 40)) }
  | 7 => { s with cache := [], icache := [] }
  | _ => s

/-- ABORT (R481). -/
def State.bstAbort (s : State) : State :=
  if !s.on Reg.BST_STAT_BUSY then s.bstReject 2
  else
    let t := s.rd Hid.bstTgt
    let i := s.rd Hid.bstIdx
    let s1 := (s.bstEffect t i).bstAborted
    if t = 1 then s1.rtrActive i else s1

/-- CLR_CNT. -/
def State.bstClrCnt (s : State) : State :=
  State.each (List.range 11) (fun t u => (u.wr (Reg.BST_HIST_FAILS t) 0).wr (Reg.BST_HIST_RUNS t) 0) s

/-- A write of BST_CMD (R492). -/
def State.bstCmd (s : State) (w : Nat) : State :=
  match bits w 7 0 with
  | 1 => s.bstRun (bits w 11 8) (bits w 22 16)
  | 2 => s.bstAbort
  | 3 => s.bstClrCnt
  | c => s.bstReject c

/-- BST_RUN_ENGINES (R480). -/
def execBstRunEngines (i : Fin 128) (s : State) : Host.Outcome State Fault Refusal := .next (s.bstRun 0 i)
/-- BST_RUN_ROUTER (R314, R480). -/
def execBstRunRouter (i : Fin 128) (s : State) : Host.Outcome State Fault Refusal := .next (s.bstRun 1 i)
/-- BST_RUN_ISLAND (R480). -/
def execBstRunIsland (i : Fin 128) (s : State) : Host.Outcome State Fault Refusal := .next (s.bstRun 2 i)
/-- BST_RUN_PLANES (R480). -/
def execBstRunPlanes (i : Fin 128) (s : State) : Host.Outcome State Fault Refusal := .next (s.bstRun 3 i)
/-- BST_RUN_BANK (R480). -/
def execBstRunBank (i : Fin 128) (s : State) : Host.Outcome State Fault Refusal := .next (s.bstRun 4 i)
/-- BST_RUN_HBM (R480). -/
def execBstRunHbm (i : Fin 128) (s : State) : Host.Outcome State Fault Refusal := .next (s.bstRun 5 i)
/-- BST_RUN_SPARE_RANK (R480). -/
def execBstRunSpareRank (i : Fin 128) (s : State) : Host.Outcome State Fault Refusal := .next (s.bstRun 6 i)
/-- BST_RUN_CACHES (R480). -/
def execBstRunCaches (i : Fin 128) (s : State) : Host.Outcome State Fault Refusal := .next (s.bstRun 7 i)
/-- BST_RUN_PORT (R480). -/
def execBstRunPort (i : Fin 128) (s : State) : Host.Outcome State Fault Refusal := .next (s.bstRun 8 i)
/-- BST_RUN_ANALOG (R480). -/
def execBstRunAnalog (i : Fin 128) (s : State) : Host.Outcome State Fault Refusal := .next (s.bstRun 9 i)
/-- BST_RUN_DAHLIA (R480). -/
def execBstRunDahlia (i : Fin 128) (s : State) : Host.Outcome State Fault Refusal := .next (s.bstRun 10 i)
/-- BST_ABORT (R481). -/
def execBstAbort (s : State) : Host.Outcome State Fault Refusal := .next s.bstAbort
/-- BST_CLR_CNT (R492). -/
def execBstClrCnt (s : State) : Host.Outcome State Fault Refusal := .next s.bstClrCnt

/-- Failing rows of a bank are spared with their records (R482). -/
def State.spareRows (s : State) (b : Nat) (rows : List Nat) : State := State.each rows (fun r t => t.rowFail b r) s

/-- A failing rank is recorded: for retirement, with the spare that will serve it where no record names that, or a spare as BAD (R480,
R482). -/
def State.failRank (r : Nat) (s : State) : State :=
  if s.rd (Reg.HBM_RANK_ROLE r) = 1 then
    (s.repairRecord (9 * 2 ^ 28 + r * 2 ^ 22 + r * 2 ^ 16)).getD s
  else match s.spareFor r with
  | some sp =>
    if s.rankRecs.any (fun p => p.2 == sp) then s else (s.repairRecord (9 * 2 ^ 28 + r * 2 ^ 22 + sp * 2 ^ 16)).getD s
  | none => s

/-- BST_DONE (R480 to R482): the test finishes, that of a router once it is DRAINED. `pass` is its verdict, `rows` the failing rows of a bank in the order found,
`mask` the failing ranks, or the failing lanes and PLL of a port, and `us` its duration. -/
def execBstDone (pass : Bool) (rows : List (Fin 6144)) (mask : BitVec 48) (us : Word) (s : State) :
    Host.Outcome State Fault Refusal :=
  .next (if !s.on Reg.BST_STAT_BUSY || (s.bstIs 1 && s.rd (Reg.NOC_RTR_STAT_STATE (s.rd Hid.bstIdx)) == 1) then s
    else
      let t := s.rd Hid.bstTgt
      let i := s.rd Hid.bstIdx
      let rl := rows.map (fun r => r.val)
      let failing := setBits 48 mask.toNat
      let spares := failing.filter (fun r => s.rd (Reg.HBM_RANK_ROLE r) == 1)
      let before := s.records.length
      let s1 := s.bstEffect t i
      let s2 :=
        if t = 4 then s1.spareRows i rl
        else if t = 5 then State.each (spares ++ failing.filter (fun r => !spares.contains r)) State.failRank s1
        else if t = 6 ∧ !pass then (s1.wr (Reg.HBM_RANK_BAD i) 1).failRank i
        else if t = 1 ∧ s.rd (Reg.NOC_RTR_STAT_STATE i) = 2 then (if pass then s1.rtrActive i else s1.rtrFault i)
        else s1
      let fail := if t = 4 then rl.headD 0 + 2 ^ 16 * (rl.length % 2 ^ 16) else if t = 5 ∨ t = 8 then mask.toNat else 0
      let s3 := ((((s2.wr Reg.BST_RESULT_REPAIRS (min 255 (s2.records.length - before))).wr Reg.BST_RESULT_INDEX i).wr
        Reg.BST_RESULT_TARGET t).wr Reg.BST_RESULT_RESULT (if pass then 1 else 2)).wr Reg.BST_FAIL fail
      let s4 := ((s3.wr Reg.BST_TIME us.toNat).wr Reg.BST_STAT_BUSY 0).inc (Reg.BST_HIST_RUNS t) 1
      if pass then s4.bstEvt 1 else (s4.inc (Reg.BST_HIST_FAILS t) 1).bstEvt 2)

/-- An ENGINE reset aborts a test of targets 0, 1, 7 and 8; an ISLAND reset one of that island (R481). -/
def State.bstEngineReset (s : State) : State :=
  if s.bstIs 0 || s.bstIs 1 || s.bstIs 7 || s.bstIs 8 then s.bstAbort else s
def State.bstIslandReset (s : State) (n : Nat) : State := if s.bstOn 2 n || s.bstOn 3 n then s.bstAbort else s

/-! ### Calibration (R483 to R486) -/


/-- A rejected CAL command. -/
def State.calReject (s : State) (code : Nat) : State := (s.rejMark 0x00E code).calEvt 0


/-- The item has a redundant element (R483). -/
def calRedundant (i : Nat) : Bool := i == 0 || i == 3 || i == 4 || i == 5

/-- Instance `j` of item `i` calibrates; `failed` says that its element fails (R484). Ramzel lanes hand over here; lanes of
probe ports have their own rules (R52 to R54). -/
def State.calRun (i j : Nat) (failed : Bool) (s : State) : State :=
  if s.calBlocked i then s
  else
    let s1 := s.calDone i j
    let s2 := if i = 0 ∧ 64 ≤ j then s1.wr (Hid.rlkCalAt ((j - 64) / 8) ((j - 64) % 8)) s.now else s1
    let s3 := if i = 2 then s2.wr (Hid.hbmDqDue j) 0 else s2
    if !failed then s3 else if calRedundant i then s3.calFails i j else s3.calEvt 3

/-- CAL_ITEM_DUE (R483 to R486): the interval of an instance falls due. A due HBM_DQ calibration waits for its window; a
lane of a probe port calibrates its redundant sampler and waits for its handover (R52 to R54). -/
def execCalItemDue (i : Fin 7) (j : Fin 169) (failed : Bool) (s : State) : Host.Outcome State Fault Refusal :=
  .next (if calInstances i ≤ j.val then s
    else if i.val = 2 then (s.wrIf (!s.on (Hid.hbmDqDue j)) (Hid.hbmDqAt j) s.now).wr (Hid.hbmDqDue j) 1
    else if i.val = 0 ∧ j.val < 64 then s.laneInterval (j / 16) (j % 16) failed
    else s.calRun i j failed)

/-- VREF_CHECK (R485): CALREF_V as measured, in units of 0.1 mV. -/
def execVrefCheck (mv : BitVec 16) (s : State) : Host.Outcome State Fault Refusal :=
  let bad := decide (mv.toNat < 9800) || decide (10200 < mv.toNat)
  let s1 := (s.wr Reg.CAL_VREF mv.toNat).wr Reg.CAL_STAT_VREF_BAD (b2n bad)
  .next (if bad then s1.calEvt 1 else s1)

/-- HBM_DQ_CAL (R486): a due calibration runs in a window with empty queues. -/
def execHbmDqCal (pc : Fin 16) (s : State) : Host.Outcome State Fault Refusal :=
  .next (if s.on (Hid.hbmDqDue pc) && (s.writeQueue pc).isEmpty then s.calRun 2 pc false else s)

/-- A due HBM_DQ calibration may be forced (R486): GRACE has passed since it fell due, or 1 s more under HBM_HOLD. -/
def State.dqGrace (s : State) (pc : Nat) : Bool :=
  decide (s.rd (Hid.hbmDqAt pc) + 4000000 * s.rd Reg.CAL_CTRL_GRACE + (if s.on Reg.CAL_CTRL_HBM_HOLD then 4000000000 else 0) ≤ s.now)

/-- HBM_DQ_FORCED (R486): no window has come within GRACE, or within 1 s beyond it under HBM_HOLD. -/
def execHbmDqForced (pc : Fin 16) (s : State) : Host.Outcome State Fault Refusal :=
  .next (if !s.on (Hid.hbmDqDue pc) || !s.dqGrace pc then s
    else
      let s1 := (s.calRun 2 pc false).inc (Reg.CAL_ITEM_FORCED 2) 1
      if s.rd Hid.hbmDqEvt = 0 ∨ s.rd Hid.hbmDqEvt + 4000000000 ≤ s.now + 1 then (s1.wr Hid.hbmDqEvt (s.now + 1)).calEvt 2
      else s1)

/-- CAL_NOW (R492). -/
def State.calNow (s : State) (i j : Nat) : State :=
  let all := j == 255
  if i < 2 ∨ 6 < i ∨ (!all ∧ calInstances i ≤ j) ∨ s.calBlocked i then s.calReject 1
  else State.each (if all then List.range (calInstances i) else [j]) (fun k t => State.calRun i k false t) s

/-- CLR_CNT of CAL (R492). -/
def State.calClrCnt (s : State) : State := State.each (List.range 7) (fun i t => t.wr (Reg.CAL_ITEM_FORCED i) 0) s

/-- A write of CAL_CMD (R492). -/
def State.calCmd (s : State) (w : Nat) : State :=
  match bits w 7 0 with
  | 1 => s.calNow (bits w 19 16) (bits w 15 8)
  | 2 => s.calClrCnt
  | c => s.calReject c

/-- CAL_CAL_NOW (R492). -/
def execCalCalNow (i : Fin 16) (j : Byte) (s : State) : Host.Outcome State Fault Refusal := .next (s.calNow i j.toNat)
/-- CAL_CLR_CNT (R492). -/
def execCalClrCnt (s : State) : Host.Outcome State Fault Refusal := .next s.calClrCnt

/-! ### Telemetry and the journal (R487 to R490) -/

/-- A rejected TEL command. -/
def State.telReject (s : State) (code : Nat) : State := (s.rejMark 0x00F code).telEvt 0

/-- The temperature of a channel in whole °C, signed, as a byte. -/
def State.tempByte (s : State) (i : Nat) : Nat := ofSigned 8 (Int.fdiv (s.tUsed i) 16)

/-- A telemetry record (R488). -/
def State.telRecord (s : State) : List Byte :=
  let eight (f : Nat → Fld) (n : Nat) : List Byte := (List.range 8).flatMap (fun k => leBytes n (s.rd (f k)))
  let retired := (List.range 48).foldl (fun m r => m + (if s.rd (Reg.HBM_RANK_ROLE r) = 3 then 2 ^ r else 0)) 0
  let body := leBytes 8 s.now ++ leBytes 4 (s.rd Reg.TEL_SESSION) ++ leBytes 4 (s.rd Reg.TEL_BOOTS)
    ++ (List.range 16).flatMap (fun i => leBytes 1 (s.tempByte i)) ++ leBytes 2 (s.rd Reg.AST_PWR_DEV)
    ++ leBytes 2 (s.rd Reg.AST_PWR_LIMIT_LIMIT) ++ leBytes 4 (s.rd Hid.telThr)
    ++ eight Reg.TEL_CLS_CE 4 ++ eight Reg.TEL_CLS_UE 4 ++ eight Reg.TEL_LB_LEVEL 1
    ++ (List.range 7).flatMap (fun i => leBytes 2 (min 65535 (s.calOldest i))) ++ leBytes 2 0
    ++ leBytes 4 (s.rd Reg.SCB_PASSES) ++ leBytes 2 (s.rd Reg.SCB_PASS_MS) ++ leBytes 2 (s.rd Reg.SCB_STAT_IN_SERVICE)
    ++ leBytes 8 retired ++ leBytes 4 s.alarmBits ++ List.replicate 104 0
  body ++ leBytes 4 (crc32c body)

/-- A telemetry record is written within the background share, unless the write fails (R467, R488, R493). -/
def State.telWrite (s : State) (ok : Bool) : State :=
  match s.dahTake 256 s.jnlWaits with
  | none => s.answer .held []
  | some t =>
    if !ok then t.telEvt 3
    else
      let n := s.rd Reg.TEL_REC_WR
      ((t.dahWrite (0x1F500000 + n % 32768 * 256) s.telRecord).wr Reg.TEL_REC_WR (n + 1)).wr Hid.telThr 0

/-- TEL_RECORD (R488): an INTERVAL has passed; `ok` says that Dahlia takes the write. -/
def execTelRecord (ok : Bool) (s : State) : Host.Outcome State Fault Refusal :=
  .next (if s.on Reg.TEL_CTRL_EN then s.telWrite ok else s)

/-- SNAPSHOT (R488, R492). -/
def State.telSnapshot (s : State) (ok : Bool) : State := if s.on Reg.TEL_CTRL_EN then s.telWrite ok else s.telReject 1

/-- TEL_SNAPSHOT. -/
def execTelSnapshot (ok : Bool) (s : State) : Host.Outcome State Fault Refusal := .next (s.telSnapshot ok)

/-- JOURNAL_USER (R489, R492): the data are read from memory as the entry is captured. -/
def State.journalUser (s : State) : State :=
  let a := s.rd Reg.TEL_SRC
  let n := s.rd Reg.TEL_LEN
  if n = 0 ∨ 3836 < n ∨ !s.inMemory a n ∨ 64 ≤ s.rd Hid.jnlCount then s.telReject 2
  else
    let (d, r, t) := s.coRead (s.req .sys (s.rd Reg.TEL_SRC_KEY)) a n
    if r = .held then s.answer .held []
    else t.journalWith 8 0 (d ++ List.replicate (n - d.length) 0)

/-- TEL_JOURNAL_USER. -/
def execTelJournalUser (s : State) : Host.Outcome State Fault Refusal := .next s.journalUser

/-- CLR_CNT of TEL (R492). -/
def State.telClrCnt (s : State) : State :=
  State.each (List.range 8) (fun k t =>
    (((t.wr (Reg.TEL_CLS_CE k) 0).wr (Reg.TEL_CLS_UE k) 0).wr (Reg.TEL_LB_LEVEL k) 0).wr (Reg.TEL_LB_TRIP k) 0) s

/-- TEL_CLR_CNT. -/
def execTelClrCnt (s : State) : Host.Outcome State Fault Refusal := .next s.telClrCnt

/-- A write of TEL_CMD (R492). -/
def State.telCmd (s : State) (w : Nat) : State :=
  match bits w 7 0 with
  | 1 => s.telSnapshot true
  | 2 => s.journalUser
  | 3 => s.telClrCnt
  | c => s.telReject c

/-- JOURNAL_WRITE (R467, R489): the captured entry is written once Dahlia is reachable, after CLEARING, within the background share. -/
def execJournalWrite (ok : Bool) (s : State) : Host.Outcome State Fault Refusal :=
  .next (if !s.jnlWaits then s
    else match s.dahTake 4096 false with
    | none => s.answer .held []
    | some t =>
      let s1 := (t.wr Hid.jnlV 0).wr Hid.jnlBody 0
      if !ok then s1.telEvt 3
      else
        let m := s.rd Reg.TEL_JNL_WR
        let s2 := s1.dahWrite (0x1FD00000 + m % 512 * 4096) (leBytes 4096 (s.rd Hid.jnlBody))
        ((s2.wr Reg.TEL_JNL_WR (m + 1)).inc Hid.jnlCount 1).telEvt 1)

end Sys2Proof.Machine
end

