-- ==== Sys2Proof/Machine/Aster.lean ====
section
/-! DEFINITION. Aster: power, the current-slew rule, temperatures, throttling and stops (chapter 17). -/

namespace Sys2Proof.Machine

/-- Bits of AST_EVT with their events (R525). -/
def State.astEvt (s : State) (i : Nat) : State :=
  s.raiseB Reg.AST_EVT_EVT i (if i ≤ 5 then 64 + i else if i = 6 then 71 else 34 + i)

/-- An AST command out of its legal state (R524). -/
def State.astReject (s : State) (code : Nat) : State := (s.rejMark 0x005 code).astEvt 7

/-! ### The mode fields: limit, staging, method (R22 to R24, R523) -/

/-- The power limit takes a value (R24). -/
def State.limitSet (s : State) (v : Nat) : State :=
  if 150 < v ∧ s.on Reg.AST_CTX_CTRL_STAGING then
    let s1 := (s.wr Reg.AST_CTX_CTRL_STAGING 0).wr Reg.AST_STAT_STAGE_FORCED 1
    if s.on Hid.swBusy then s1.wr Hid.astLimPend v else (s1.wr Reg.AST_PWR_LIMIT_LIMIT v).wr Hid.astLimPend 0
  else if 150 < v ∧ s.rd Hid.astLimPend ≠ 0 ∧ s.on Hid.swBusy then s.wr Hid.astLimPend v
  else (s.wr Reg.AST_PWR_LIMIT_LIMIT v).wr Hid.astLimPend 0

/-- STAGING takes a value (R23, R24): UNSTAGED is denied above 150 W, and while such a limit waits. -/
def State.stagingSet (s : State) (v : Nat) : State :=
  if v = 1 ∧ (150 < s.rd Reg.AST_PWR_LIMIT_LIMIT ∨ s.rd Hid.astLimPend ≠ 0) then s.deny 0x005
  else s.wr Reg.AST_CTX_CTRL_STAGING v

/-- The method in force follows METHOD where no throttle is active (R22, R516). -/
def State.methodSettle (s : State) : State :=
  if s.rd Reg.AST_LEVEL_LEVEL = 64 then s.wr Hid.astMeth (s.rd Reg.AST_THR_CTRL_METHOD) else s

/-- METHOD takes a value (R22). -/
def State.methodSet (s : State) (v : Nat) : State := (s.wr Reg.AST_THR_CTRL_METHOD v).methodSettle

/-- A write of AST_PWR_LIMIT (R24, R498, R523, R527). -/
def State.astPwrLimit (s : State) (w : Nat) : State :=
  let v := bits w 8 0
  if v < 120 ∨ 300 < v then s.deny 0x005
  else if s.astStop then s.wr Hid.astStopLim v
  else s.limitSet v

/-- A write of AST_CTX_CTRL (R22, R523). -/
def State.astStaging (s : State) (w : Nat) : State :=
  if s.astStop then s.wr Hid.astStopStg (1 + w % 2) else s.stagingSet (w % 2)

/-- A write of METHOD (R22, R523, R527). -/
def State.astMethodWr (s : State) (v : Nat) : State :=
  if v = 3 then s.deny 0x005
  else if s.astStop then s.wr Hid.astStopMeth (1 + v)
  else s.methodSet v

/-- A write of AST_THR_CTRL (R514, R516, R517, R527): each field by itself. -/
def State.astMethod (s : State) (w : Nat) : State :=
  let m := bits w 21 16
  let s1 := (s.wr Reg.AST_THR_CTRL_RATE_ACT (bits w 24 24)).wr Reg.AST_THR_CTRL_TARGETS (bits w 11 8)
  let s2 := if m = 0 then s1.deny 0x005 else s1.wr Reg.AST_THR_CTRL_MIN_LEVEL m
  s2.astMethodWr (bits w 1 0)

/-- A write of AST_THRESH[c] (R513, R527): STOP and HARD above the defaults of STACK and HBM are denied; then the order of
the four is judged. -/
def State.astThresh (s : State) (c w : Nat) : State :=
  let h := bits w 31 24
  let p := bits w 23 16
  let t := bits w 15 8
  let a := bits w 7 0
  let badH := decide (c < 2) && decide (thrHard c < h)
  let badP := decide (c < 2) && decide (thrStop c < p)
  let h1 := if badH then s.rd (Reg.AST_THRESH_HARD c) else h
  let p1 := if badP then s.rd (Reg.AST_THRESH_STOP c) else p
  let s1 := if badH || badP then s.deny 0x005 else s
  if a ≤ t ∧ t ≤ p1 ∧ p1 ≤ h1 then
    (((s1.wr (Reg.AST_THRESH_HARD c) h1).wr (Reg.AST_THRESH_STOP c) p1).wr (Reg.AST_THRESH_THR c) t).wr (Reg.AST_THRESH_WARN c) a
  else s1.deny 0x005

/-- A write of AST_CH_CFG[i] (R508, R527): in-stack channels ignore it. -/
def State.astChCfg (s : State) (i w : Nat) : State :=
  if i < 12 then s
  else
    let s1 := (s.wr (Reg.AST_CH_CFG_BETA i) (bits w 31 16)).wr (Reg.AST_CH_CFG_IDEAL i) (bits w 15 4)
    if bits w 1 0 = 3 then s1.deny 0x005 else s1.wr (Reg.AST_CH_CFG_MODE i) (bits w 1 0)

/-- AST_PWR_LIMIT_WRITE (R24, R498). -/
def execAstPwrLimitWrite (w : Word) (s : State) : Host.Outcome State Fault Refusal := .next (s.astPwrLimit w.toNat)

/-- AST_STAGING_WRITE (R22 to R24). -/
def execAstStagingWrite (unstaged : Bool) (s : State) : Host.Outcome State Fault Refusal := .next (s.astStaging (b2n unstaged))

/-- AST_METHOD_WRITE (R22). -/
def execAstMethodWrite (m : Fin 4) (s : State) : Host.Outcome State Fault Refusal := .next (s.astMethodWr m)

/-- METHOD_APPLY (R22): the throttle is released. -/
def execMethodApply (s : State) : Host.Outcome State Fault Refusal := .next s.methodSettle

/-! ### The ballast (R501 to R503) -/

/-- The largest I_CTX of an island's VALID planes, in units of 10 mA. -/
def State.maxICtx (s : State) (n : Nat) : Nat :=
  (setBits 8 (s.rd (Reg.ISL_CTX_VALID_VALID n))).foldl (fun a c => max a (s.iCtx n c)) 0

/-- I_HOLD of an island, 0 where its ballast is off (R501). -/
def State.iHold (s : State) (n : Nat) : Nat :=
  if s.on Reg.AST_CTX_CTRL_STAGING && s.rd (Reg.ISL_STAT_STATE n) == 3 then s.maxICtx n * s.rd Reg.AST_LEVEL_LEVEL / 64 else 0

/-- What an island draws under the ballast, or by its declaration where the ballast is off. -/
def State.islDraw (s : State) (n : Nat) : Nat :=
  if s.rd (Hid.held n) ≠ 0 then s.rd (Hid.held n)
  else if s.rd (Reg.ISL_STAT_STATE n) = 3 then s.iCtx n (s.rd (Reg.ISL_STAT_CUR_CTX n)) * s.rd Reg.AST_LEVEL_LEVEL / 64
  else 0

/-- BAL_READY and AST_BAL.TOTAL follow the ballast (R502). -/
def State.balShow (s : State) : State :=
  let ready := s.on Reg.AST_CTX_CTRL_STAGING && (List.range 80).all (fun n =>
    s.rd (Reg.ISL_STAT_STATE n) != 3 || (decide (s.rd (Hid.held n) ≤ s.iHold n + 10) && decide (s.iHold n ≤ s.rd (Hid.held n) + 10)))
  let total := (List.range 80).foldl (fun a n => a + (s.rd (Hid.held n) - s.rd (Hid.islCur n))) 0
  (s.wr Reg.AST_STAT_BAL_READY (b2n ready)).wr Reg.AST_BAL_TOTAL total

/-- The ballast of an island moves where the change fits the fabric share (R500, R501). -/
def State.balStep (n : Nat) (s : State) : State :=
  let t := s.iHold n
  let d := s.islDraw n
  let cost := (t - d) + (d - t)
  if s.rd (Hid.held n) = t then s
  else if s.rd Hid.slewUsed + cost ≤ 2400 then (s.wr (Hid.held n) t).inc Hid.slewUsed cost
  else s

/-- The cap of PWR_LEVEL under UNSTAGED (R503). -/
def State.heldCap (s : State) : Nat :=
  let sum := (List.range 80).foldl (fun a n => a + if s.rd (Reg.ISL_STAT_STATE n) = 3 then s.maxICtx n else 0) 0
  if sum = 0 then 64 else 25600 * (s.rd Reg.AST_PWR_LIMIT_LIMIT - 50) / (3 * sum)

/-! ### The governor (R497, R498, R500) -/

/-- Device power over the last 100 us, as the sum of ten steps in units of 0.1 W. -/
def State.pwrSum (s : State) : Nat := (List.range 10).foldl (fun a i => a + s.rd (Hid.pwrHist i)) 0

/-- The governor steps PWR_LEVEL (R498, R503). -/
def State.govStep (s : State) : State :=
  let lim := s.rd Reg.AST_PWR_LIMIT_LIMIT
  let lvl := s.rd Reg.AST_LEVEL_PWR_LEVEL
  let wait := s.rd Hid.govWait - 1
  let sum := s.pwrSum
  let up := decide (sum < 97 * lim) && wait == 0 && decide (lvl < 64)
  let l1 := if 100 * lim < sum then lvl - 1 else if up then lvl + 1 else lvl
  let l2 := max 1 (if s.on Reg.AST_CTX_CTRL_STAGING then min l1 s.heldCap else l1)
  let k := if l2 ≤ s.rd Reg.AST_THR_CTRL_MIN_LEVEL then min 1000 (s.rd Hid.govMin + 1) else 0
  let unmet := k == 1000 && decide (100 * lim < sum)
  let s1 := (((s.wr Reg.AST_LEVEL_PWR_LEVEL l2).wr Hid.govWait (if up then 10 else wait)).wr Hid.govMin k)
  let s2 := if unmet && !s.on Reg.AST_STAT_LIMIT_UNMET then s1.astEvt 3 else s1
  s2.wr Reg.AST_STAT_LIMIT_UNMET (b2n unmet)

/-- An island's measured current against its declaration (R500). -/
def State.declStep (n : Nat) (s : State) : State :=
  let above := s.rd (Reg.ISL_STAT_STATE n) == 3
    && decide (11 * s.iCtx n (s.rd (Reg.ISL_STAT_CUR_CTX n)) < 10 * s.rd (Hid.islCur n))
  let k := if above then min 100 (s.rd (Hid.declRun n) + 1) else 0
  (s.wr (Hid.declRun n) k).wrIf (k == 100) Reg.AST_STAT_DECL_EXCEED 1

/-- POWER_MEASURE (R497, R498, R500): the powers of the ten consumers in units of 0.1 W, and the current of each island's logic in
units of 10 mA, those not given 0. -/
def execPowerMeasure (power current : List (BitVec 16)) (s : State) : Host.Outcome State Fault Refusal :=
  .next (
    let p (k : Nat) : Nat := (power.getD k 0).toNat
    let dev := (List.range 10).foldl (fun a k => a + p k) 0
    let s1 := State.each (List.range 10) (fun k t => t.wr (Reg.AST_PWR k) (p k)) s
    let s2 := s1.wr Reg.AST_PWR_DEV dev
    let s3 := State.each (List.range 9) (fun i t => t.wr (Hid.pwrHist (i + 1)) (s.rd (Hid.pwrHist i))) s2
    let s4 := State.each (List.range 80) (fun n t => (t.wr (Hid.islCur n) (current.getD n 0).toNat).declStep n)
      (s3.wr (Hid.pwrHist 0) dev)
    s4.govStep.balShow)

/-! ### Throttling (R516 to R518) -/

/-- The share of 64 edges that a method delivers at a level (R518). -/
def throttleShare (method level : Nat) : Nat :=
  if method = 1 then (if level = 64 then 64 else if 32 ≤ level then 32 else if 16 ≤ level then 16 else 8)
  else if method = 2 then max 16 (level / 4 * 4)
  else level

/-- An island is bound to a port that delivers (R517). -/
def State.islBound (s : State) (n : Nat) : Bool :=
  (List.range 4).any (fun p => s.on (Reg.PRB_BIND_DELIV_EN p) && s.rd (Reg.PRB_BIND_ISLAND p) == n)

/-- The throttle acts on an island (R517). -/
def State.islThrottled (s : State) (n : Nat) : Bool :=
  s.bitOf Reg.AST_THR_CTRL_TARGETS (if s.islBound n then 1 else 0)

/-- The share that an island is to have. -/
def State.shareWant (s : State) (n : Nat) : Nat :=
  if s.islThrottled n then throttleShare (s.rd Hid.astMeth) (s.rd Reg.AST_LEVEL_LEVEL) else 64

/-- What a change of an island's share changes the fabric current by, in units of 10 mA. -/
def State.shareCost (s : State) (n was want : Nat) : Nat :=
  if s.rd (Reg.ISL_STAT_STATE n) = 3 ∧ s.clkRuns n then
    (s.iCtx n (s.rd (Reg.ISL_STAT_CUR_CTX n)) * ((was - want) + (want - was)) + 63) / 64
  else 0

/-- One wave of share changes, islands ascending, formed as a context-switch wave (R176, R518). -/
def State.shareWave : List Nat → Nat → Nat → State → State
  | [], _, _, s => s
  | n :: r, k, sum, s =>
    let w := s.shareWant n
    let h := s.rd (Hid.thrShare n)
    if w = h then s.shareWave r k sum
    else
      let d := s.shareCost n h w
      if 16 ≤ k ∨ (k ≠ 0 ∧ 1200 < sum + d) ∨ 2400 < s.rd Hid.slewUsed + d then s
      else ((s.wr (Hid.thrShare n) w).inc Hid.slewUsed d).shareWave r (k + 1) (sum + d)

/-- AST_LEVEL.APPLIED and the shares of the cores and of Millstone follow once every island has its share; an orderly stop
holds the cores at 8 of 64 edges and gates Millstone (R517 to R519). -/
def State.shareShow (s : State) : State :=
  let sh := throttleShare (s.rd Hid.astMeth) (s.rd Reg.AST_LEVEL_LEVEL)
  let s1 := if (List.range 80).all (fun n => s.rd (Hid.thrShare n) == s.shareWant n) then s.wr Reg.AST_LEVEL_APPLIED sh else s
  let a := s1.rd Reg.AST_LEVEL_APPLIED
  let tg (i : Nat) : Nat := if s1.bitOf Reg.AST_THR_CTRL_TARGETS i then a else 64
  if s1.on Hid.stopGate then (s1.wr Hid.coreShare 8).wr Hid.mstShare 0
  else (s1.wr Hid.coreShare (tg 2)).wr Hid.mstShare (tg 3)

/-- The level that is to be in force (R516). -/
def State.levelWant (s : State) : Nat :=
  max (s.rd Reg.AST_THR_CTRL_MIN_LEVEL) (min (s.rd Reg.AST_LEVEL_PWR_LEVEL) (s.rd Reg.AST_LEVEL_THM_LEVEL))

/-- PROPORTIONAL: the level moves by single steps, each admitted as a whole (R500, R518). -/
def State.levelSteps : Nat → State → State
  | 0, s => s
  | k + 1, s =>
    let l := s.rd Reg.AST_LEVEL_LEVEL
    let w := s.levelWant
    if l = w then s
    else
      let t := s.wr Reg.AST_LEVEL_LEVEL (if l < w then l + 1 else l - 1)
      let cost := (List.range 80).foldl (fun a n => a + s.shareCost n (s.rd (Hid.thrShare n)) (t.shareWant n)) 0
      if 2400 < s.rd Hid.slewUsed + cost then s
      else (State.each (List.range 80) (fun n u => u.wr (Hid.thrShare n) (u.shareWant n)) (t.inc Hid.slewUsed cost)).levelSteps k

/-- The waiting level and share changes, as far as the share left admits them (R500, R518). -/
def State.levelAdmit (s : State) : State :=
  let s1 := if s.rd Hid.astMeth = 0 then s.levelSteps 64 else s.wr Reg.AST_LEVEL_LEVEL s.levelWant
  ((s1.shareWave (List.range 80) 0 0).shareWave (List.range 80) 0 0).shareShow

/-- The waiting ramps in order; one that does not fit holds up those after it (R500). -/
def State.rampsAdmit : List Nat → State → State
  | [], s => s
  | n :: r, s =>
    if s.rampWaits n = .none then s.rampsAdmit r
    else if s.rd Hid.slewUsed + s.rampCost n ≤ 2400 then (s.rampAdmit n).rampsAdmit r
    else s

/-- SLEW_WINDOW (R500, R501): a new window of 1 us, with the largest change of current seen in the last in units of 0.1 A. Stops are
admitted first, then ramps in ascending island order, then level changes and the ballast; a switch wave takes its share at
its own instant. -/
def execSlewWindow (didt : BitVec 16) (s : State) : Host.Outcome State Fault Refusal :=
  .next (
    let s1 := (s.wr Hid.slewUsed 0).wr Reg.AST_DIDT_MAX (max (s.rd Reg.AST_DIDT_MAX) didt.toNat)
    let stop (n : Nat) : Bool := s.on Hid.stopGate && s.rampWaits n == .clkDown
    let all := List.range 80
    let s2 := s1.rampsAdmit (all.filter stop ++ all.filter (fun n => !stop n))
    let s3 := if all.any (fun n => s2.rampWaits n != .none) then s2 else State.each all State.balStep s2.levelAdmit
    s3.balShow)

/-! ### Temperatures (R507 to R514) -/

/-- The threshold class of a channel (R507). -/
def chClass (i : Nat) : Nat := if i < 9 then 0 else if i < 12 then 1 else 2

/-- The base of an in-stack channel: a channel, or T_CASE (16) (R510). -/
def chBase (i : Nat) : Nat := [4, 7, 5, 8, 6, 6, 16, 16, 9, 10, 11, 16].getD i 16

/-- The consumers whose power heats a channel (R510). -/
def chPower (i : Nat) : List Nat :=
  [[0], [8, 4], [9], [5, 6], [0], [2], [0, 1], [8, 4, 1], [5, 6], [3], [3], [3]].getD i []

/-- θ of a channel, in hundredths of °C/W (R510). -/
def chTheta (i : Nat) : Nat := [4, 10, 30, 35, 3, 50, 10, 25, 30, 25, 20, 30].getD i 0

/-- T_CASE, in units of 0.0625 °C (R510). -/
def State.tCase (s : State) : Int :=
  let c := 12 + s.rd Reg.AST_MODEL_CFG_CASE_CH
  if s.on Reg.AST_MODEL_CFG_CASE_EN && !s.on (Reg.AST_CH_STAT_FAULT c) then toSigned 16 (s.rd (Reg.AST_CH_TEMP_MEAS c))
  else 16 * s.rd Reg.AST_MODEL_CFG_CASE_ASSUME

/-- T_USED of a channel, or T_CASE. -/
def State.tBase (s : State) (i : Nat) : Int := if i = 16 then s.tCase else s.tUsed i

/-- A channel's conversion (R507 to R509): its reading in units of 0.0625 °C, none where its input is open or shorted. -/
def State.chConvert (r : Option (BitVec 16)) (i : Nat) (s : State) : State :=
  if 12 ≤ i ∧ s.rd (Reg.AST_CH_CFG_MODE i) = 0 then (s.wr (Reg.AST_CH_TEMP_MEAS i) 0).wr (Reg.AST_CH_STAT_FAULT i) 0
  else
    match r with
    | some x => (s.wr (Reg.AST_CH_TEMP_MEAS i) x.toNat).wr (Reg.AST_CH_STAT_FAULT i) 0
    | none => if s.on (Reg.AST_CH_STAT_FAULT i) then s else (s.wr (Reg.AST_CH_STAT_FAULT i) 1).astEvt 9

/-- A channel's prediction (R510). How the filter is computed and the result rounded is open: the filtered power lies
between its last value and the present power, and the prediction is within one unit of the formula. -/
def State.chPredict (i : Nat) (s : State) : State :=
  let p := (chPower i).foldl (fun a k => a + s.rd (Reg.AST_PWR k)) 0
  let f := s.rd (Hid.filt i)
  let lo := min p f
  let a := s.fresh
  let b := a.2.fresh
  let g := if p = f then f else lo + a.1 % (max p f - lo + 1)
  let x := 16 * chTheta i * g
  let up := if x % 1000 = 0 then 0 else b.1 % 2
  ((if p = f ∧ x % 1000 = 0 then s else b.2).wr (Hid.filt i) g).wr (Reg.AST_CH_TEMP_PRED i)
    (ofSigned 16 (s.tBase (chBase i) + (x / 1000 + up : Nat)))

/-- T_USED of channel `i` (or T_CASE, 16), `k` conversions before the present one. -/
def State.tAgo (s : State) (i k : Nat) : Int := toSigned 16 (s.rd (Hid.tHist i ((s.rd Hid.convNo + 65 - k) % 64)))

/-- The rise of a channel's T_USED over as many of the last `k` conversions as there have been. -/
def State.tRise (s : State) (i k : Nat) : Int :=
  if s.rd Hid.convNo = 0 then 0 else s.tBase i - s.tAgo i (min k (s.rd Hid.convNo))

/-- An in-stack channel is judged against its prediction (R512). -/
def State.chJudge (i : Nat) (s : State) : State :=
  let m := toSigned 16 (s.rd (Reg.AST_CH_TEMP_MEAS i))
  let p := toSigned 16 (s.rd (Reg.AST_CH_TEMP_PRED i))
  let good := !s.on (Reg.AST_CH_STAT_FAULT i)
  let run := if good && decide (m < p - 128) then min 63 (s.rd (Hid.suspRun i) + 1) else 0
  let near := if good && decide (p - 64 ≤ m) && decide (m ≤ p + 64) then min 1023 (s.rd (Hid.nearRun i) + 1) else 0
  let s1 := (s.wr (Hid.suspRun i) run).wr (Hid.nearRun i) near
  if 52 ≤ run ∧ 32 ≤ s.tRise (chBase i) 51 ∧ !s.on (Reg.AST_CH_STAT_SUSPECT i) then
    (s1.wr (Reg.AST_CH_STAT_SUSPECT i) 1).astEvt 0
  else s1

/-- A channel counts in decisions: a pin channel in FAULT or OFF is ignored (R508, R509). -/
def State.chCounts (s : State) (i : Nat) : Bool :=
  decide (i < 12) || (!s.on (Reg.AST_CH_STAT_FAULT i) && s.rd (Reg.AST_CH_CFG_MODE i) != 0)

/-- A channel's rise, its highest temperature and its rate (R511, R514). -/
def State.chTrack (i : Nat) (s : State) : State :=
  let t := s.tUsed i
  let rise := s.tRise i 10
  let rate := (s.rd Reg.AST_RATE_RATE : Int)
  let used := decide (i < 12) && (s.on (Reg.AST_CH_STAT_SUSPECT i) || s.on (Reg.AST_CH_STAT_FAULT i)
    || decide (toSigned 16 (s.rd (Reg.AST_CH_TEMP_MEAS i)) < toSigned 16 (s.rd (Reg.AST_CH_TEMP_PRED i))))
  let s1 := ((s.wr (Reg.AST_CH_RISE i) (ofSigned 16 rise)).wr (Reg.AST_CH_STAT_TMAX i)
    (ofSigned 16 (max t (toSigned 16 (s.rd (Reg.AST_CH_STAT_TMAX i)))))).wr (Reg.AST_CH_STAT_USED_PRED i) (b2n used)
  let hot := s.on (Hid.rateHot i)
  if s.chCounts i && decide (16 * rate ≤ rise) then (if hot then s1 else (s1.wr (Hid.rateHot i) 1).astEvt 4)
  else if rise < 8 * rate ∨ !s.chCounts i then s1.wr (Hid.rateHot i) 0
  else s1

/-! ### Thermal states (R513 to R516) -/

/-- The thresholds of a class in units of 0.0625 °C, none where disabled: 0 WARN, 1 THR, 2 STOP, 3 HARD. -/
def State.thresh (s : State) (k c : Nat) : Option Int :=
  let v := s.rd (match k with
    | 0 => Reg.AST_THRESH_WARN c | 1 => Reg.AST_THRESH_THR c | 2 => Reg.AST_THRESH_STOP c | _ => Reg.AST_THRESH_HARD c)
  if v = 255 then none else some (16 * v)

/-- Any T_USED is at or above a threshold. -/
def State.anyAt (s : State) (k : Nat) : Bool :=
  (List.range 16).any (fun i => s.chCounts i && match s.thresh k (chClass i) with
    | none => false
    | some v => decide (v ≤ s.tUsed i))

/-- Every T_USED is more than `d` °C below a threshold. -/
def State.allBelow (s : State) (k d : Nat) : Bool :=
  (List.range 16).all (fun i => !s.chCounts i || match s.thresh k (chClass i) with
    | none => true
    | some v => decide (s.tUsed i < v - 16 * d))

/-- A channel is treated as having reached THR for its rate of rise (R514). -/
def State.rateActs (s : State) : Bool :=
  s.on Reg.AST_THR_CTRL_RATE_ACT && (List.range 16).any (fun i =>
    s.on (Hid.rateHot i) && s.chCounts i && (s.thresh 1 (chClass i)).isSome)

/-- A cause of a hard stop (R521 step 1): event 71 and journal entry KIND 5; steps 2 to 5 follow with HARD_STOP. -/
def State.hardCause (s : State) : State :=
  if s.rd Reg.AST_STAT_TSTATE = 5 then s
  else
    let s1 := if s.rd Reg.AST_STAT_TSTATE = 2 then s.astEvt 2 else s
    (((s1.wr Reg.AST_STAT_TSTATE 5).wr Hid.hardPend 1).astEvt 6).journal 5 0

/-- STOPPING is entered (R515, R519). -/
def State.stopBegin (s : State) : State :=
  let s1 := if s.rd Reg.AST_STAT_TSTATE = 2 then s.astEvt 2 else s
  (s1.wr Reg.AST_STAT_TSTATE 3).astEvt 5

/-- A mode field written during a stop applies (R523). -/
def State.stopWrites (s : State) : State :=
  let l := s.rd Hid.astStopLim
  let g := s.rd Hid.astStopStg
  let m := s.rd Hid.astStopMeth
  let s1 := if l = 0 then s else s.limitSet l
  let s2 := if g = 0 then s1 else s1.stagingSet (g - 1)
  let s3 := if m = 0 then s2 else s2.methodSet (m - 1)
  ((s3.wr Hid.astStopLim 0).wr Hid.astStopStg 0).wr Hid.astStopMeth 0

/-- STOPPED ends (R520): clocks return to their requests, the cores to their edges, and THROTTLE begins at MIN_LEVEL. -/
def State.stopEnd (s : State) : State :=
  let s1 := ((s.wr Hid.stopGate 0).wr Reg.AST_STAT_TSTATE 2).wr Reg.AST_LEVEL_THM_LEVEL (s.rd Reg.AST_THR_CTRL_MIN_LEVEL)
  let s2 := (s1.wr Hid.thmUp 0).stopWrites
  (State.each (List.range 80) (fun n t => t.clkSettle n) s2).shareShow.astEvt 2

/-- One transition of R515, or none. -/
def State.thermalStep (s : State) : State :=
  let st := s.rd Reg.AST_STAT_TSTATE
  if st = 5 then s
  else if s.anyAt 3 then s.hardCause
  else if st ≤ 2 ∧ s.anyAt 2 then s.stopBegin
  else if st = 0 then (if s.anyAt 0 then (s.wr Reg.AST_STAT_TSTATE 1).astEvt 1 else s)
  else if st = 1 then
    if s.anyAt 1 || s.rateActs then (((s.wr Reg.AST_STAT_TSTATE 2).wr Reg.AST_LEVEL_THM_LEVEL 64).wr Hid.thmUp 0).astEvt 2
    else if s.allBelow 0 3 then s.wr Reg.AST_STAT_TSTATE 0
    else s
  else if st = 2 then
    if s.allBelow 1 3 && !s.rateActs && s.rd Reg.AST_LEVEL_THM_LEVEL == 64 then (s.wr Reg.AST_STAT_TSTATE 1).astEvt 2 else s
  else if st = 4 then
    if s.allBelow 2 (s.rd Reg.AST_STOP_CFG_HYST_STOP) && s.on Reg.AST_STOP_CFG_AUTO_RESUME then s.stopEnd else s
  else s

/-- TEMP_CONVERT (R507 to R516): the sixteen readings, none for an open or shorted input. Predictions follow the order in which
their bases are given; the decisions of the thermal states follow. A millisecond with the throttle active is counted. -/
def execTempConvert (readings : List (Option (BitVec 16))) (s : State) : Host.Outcome State Fault Refusal :=
  .next (
    let s1 := State.each (List.range 16) (fun i t => t.chConvert (readings.getD i none) i) s
    let s2 := State.each [11, 10, 9, 8, 7, 6, 5, 4, 3, 2, 1, 0] State.chPredict s1
    let s3 := State.each (List.range 12) State.chJudge s2
    let s4 := State.each (List.range 16) State.chTrack s3
    let k := s4.rd Hid.convNo + 1
    let s5 := State.each (List.range 17) (fun i t => t.wr (Hid.tHist i (k % 64)) (ofSigned 16 (t.tBase i))) s4
    let s6 := s5.wr Hid.convNo k
    let s7 := if s6.rd Reg.AST_LEVEL_LEVEL < 64 then (s6.inc Reg.AST_THR_CNT 1).inc Hid.telThr 1 else s6
    s7.thermalStep.thermalStep.thermalStep)

/-- THM_LEVEL_STEP (R516, R519): a millisecond passes in THROTTLE, or in STOPPING until its notice ends. -/
def execThmLevelStep (s : State) : Host.Outcome State Fault Refusal :=
  .next (
    let st := s.rd Reg.AST_STAT_TSTATE
    let l := s.rd Reg.AST_LEVEL_THM_LEVEL
    if st ≠ 2 ∧ (st ≠ 3 ∨ s.on Hid.stopGate) then s
    else if s.anyAt 1 || s.rateActs then (s.wr Reg.AST_LEVEL_THM_LEVEL (max 1 (l - 1))).wr Hid.thmUp 0
    else if s.allBelow 1 3 then
      if 9 ≤ s.rd Hid.thmUp then (s.wr Reg.AST_LEVEL_THM_LEVEL (min 64 (l + 1))).wr Hid.thmUp 0
      else s.wr Hid.thmUp (s.rd Hid.thmUp + 1)
    else s.wr Hid.thmUp 0)

/-! ### Stops (R519 to R521) -/

/-- The engines are stopped as if by their commands (R519 step 3). -/
def State.enginesStop (s : State) : State :=
  let s1 := State.each (List.range 4) (fun c t =>
    if t.rd (Reg.RUN_CH_STAT_STATE c) = 1 ∨ t.rd (Reg.RUN_CH_STAT_STATE c) = 2 then t.runStop c else t) s
  let s2 := State.each (List.range 16) (fun f t =>
    if t.rd (Reg.HOP_FILE_STAT_STATE f) = 1 ∨ t.rd (Reg.HOP_FILE_STAT_STATE f) = 2 then t.hopStop f else t) s1
  let s3 := if s2.on Reg.LAN_STAT_RUN then s2.lanStop else s2
  let s4 := if s3.on Reg.MAR_STAT_STATE then s3.marStopCmd else s3
  let s5 := if s4.rd Reg.MST_STAT_STATE = 2 then s4.mstAbort else s4
  if s5.rd Reg.MST_STAT_STATE = 0 then s5 else s5.mstStop

/-- STOP_NOTICE_END (R519 steps 2 to 4): the notice is over and no switch set is in progress. -/
def execStopNoticeEnd (s : State) : Host.Outcome State Fault Refusal :=
  .next (if s.rd Reg.AST_STAT_TSTATE = 3 ∧ !s.on Hid.stopGate ∧ !s.on Hid.swBusy then (s.enginesStop.wr Hid.stopGate 1).shareShow
    else s)

/-- ORDERLY_STOP_DONE (R519 steps 4 and 5): every island clock that ran is GATED. -/
def execOrderlyStopDone (s : State) : Host.Outcome State Fault Refusal :=
  .next (if s.rd Reg.AST_STAT_TSTATE = 3 ∧ s.on Hid.stopGate
      ∧ (List.range 80).all (fun n => let c := s.rd (Reg.ISL_CLK_STAT_STATE n); c != 4 && c != 5 && c != 6) then
      ((s.wr Reg.AST_STAT_TSTATE 4).wr Reg.AST_LEVEL_THM_LEVEL 64).wr Hid.thmUp 0
    else s)

/-- OVERCURRENT (R521). -/
def execOvercurrent (s : State) : Host.Outcome State Fault Refusal := .next s.hardCause

/-- STOP_TIMEOUT (R521): STOPPING has lasted NOTICE + 10 ms. -/
def execStopTimeout (s : State) : Host.Outcome State Fault Refusal :=
  .next (if s.rd Reg.AST_STAT_TSTATE = 3 then s.hardCause else s)

/-! ### Commands (R524) -/

def State.astResume (s : State) : State :=
  if s.rd Reg.AST_STAT_TSTATE = 4 ∧ s.allBelow 2 (s.rd Reg.AST_STOP_CFG_HYST_STOP) then s.stopEnd else s.astReject 0x01
def State.astStopCmd (s : State) : State := if s.rd Reg.AST_STAT_TSTATE ≤ 2 then s.stopBegin else s.astReject 0x02
def State.astClrSuspect (s : State) (i : Nat) : State :=
  if i < 12 ∧ s.on (Reg.AST_CH_STAT_SUSPECT i) ∧ 1001 ≤ s.rd (Hid.nearRun i) then s.wr (Reg.AST_CH_STAT_SUSPECT i) 0
  else s.astReject 0x03
def State.astClrCnt (s : State) : State :=
  State.each (List.range 16) (fun i t => t.wr (Reg.AST_CH_STAT_TMAX i) 0) ((s.wr Reg.AST_THR_CNT 0).wr Reg.AST_DIDT_MAX 0)

/-- A command written to AST_CMD (R524). -/
def State.astCmd (s : State) (code ch : Nat) : State :=
  if code = 0x01 then s.astResume else if code = 0x02 then s.astStopCmd else if code = 0x03 then s.astClrSuspect ch
  else if code = 0x04 then s.astClrCnt else s.astReject code

/-- AST_RESUME (R520, R524). -/
def execAstResume (s : State) : Host.Outcome State Fault Refusal := .next s.astResume
/-- AST_STOP (R519, R524). -/
def execAstStop (s : State) : Host.Outcome State Fault Refusal := .next s.astStopCmd
/-- AST_CLR_SUSPECT (R512, R524). -/
def execAstClrSuspect (ch : Fin 32) (s : State) : Host.Outcome State Fault Refusal := .next (s.astClrSuspect ch)
/-- AST_CLR_CNT (R524). -/
def execAstClrCnt (s : State) : Host.Outcome State Fault Refusal := .next s.astClrCnt

end Sys2Proof.Machine
end

