-- ==== Sys2Proof/Machine/Boot.lean ====
section
/-! DEFINITION. Power-up, the boot phases and the reset classes (chapter 14). -/

namespace Sys2Proof.Machine

/-- Bits of SYS_EVT with events 0 and 15 to 17 (R440). -/
def State.sysEvt (s : State) (i : Nat) : State := s.raiseB Reg.SYS_EVT_EVT i (if i = 0 then 0 else 14 + i)

/-- A SYS command out of its legal state (R440). -/
def State.sysReject (s : State) (code : Nat) : State := (s.rejMark 0x000 code).sysEvt 3

/-! ### ISLAND and ENGINE resets of an island (R173, R180, R220, R370, R419) -/

/-- A reset of an island takes effect: its Weir closes, its ports are cut, its banks are flushed, its fabric takes the initial
values of the plane that it will enter. Rows that wait in the delivery FIFO stay there for it: DESIGN CHOICE, log entry 85. -/
def State.islandReset (s : State) (n : Nat) (eng : Bool) : State :=
  let s0 := (((s.discardMaster (6 + n)).wr (Hid.rstAsked n) 0).wr (Hid.engRst n) (b2n eng)).wr (Hid.startLate n) 0
  let s1 := s0.fpCut n
  let s2 := { s1 with
    packets := s1.packets.map (fun (p : Pkt) => if p.src == n then { p with void := true } else p)
    fpResps := Tab.del s1.fpResps n
    mrQueue := Tab.del s1.mrQueue n }
  let s3 := (((s2.slcFlushAll n).wr (Hid.slcShut n) 1).rlkFlush n).fabricReset n (s2.entryPlane n)
  let s4 := (s3.weirShut n).wr (Reg.ISL_WEIR_STAT_HELD n) 1
  let st := s.rd (Reg.ISL_STAT_STATE n)
  let s5 := if eng || st == 0 then s4.wr (Reg.ISL_STAT_CUR_CTX n) (s2.entryPlane n) else s4
  if st = 2 ∨ st = 3 then s5.wr (Reg.ISL_STAT_STATE n) 4 else s5

/-- A waiting ISLAND reset takes effect once the island is RUN or BLANK and its switch is complete (R419). -/
def State.resetSettle (s : State) (n : Nat) : State :=
  let st := s.rd (Reg.ISL_STAT_STATE n)
  if s.on (Hid.rstAsked n) && (st == 0 || st == 3 || st == 4) && !s.on (Reg.ISL_STAT_SWITCHING n) then
    if st = 4 then s.wr (Hid.rstAsked n) 0 else (s.bstIslandReset n).islandReset n false
  else s

/-- RESET_ISLAND (R419, R440). -/
def State.resetIsland (s : State) (n : Nat) : State :=
  if s.rd (Reg.ISL_STAT_STATE n) = 5 then s.sysReject 0x03 else (s.wr (Hid.rstAsked n) 1).resetSettle n

/-- ISLAND_RESET_RELEASE (R180, R200): the reset of an island is released. One that still waits under R419 takes effect first,
and an island that was powered up waits for its clock. -/
def execIslandResetRelease (n : Fin 80) (s : State) : Host.Outcome State Fault Refusal :=
  .next (
    let s1 := s.resetSettle n
    if s1.rd (Reg.ISL_STAT_STATE n) = 4 ∧ (!s1.on (Hid.pwrUp n) ∨ s1.rd (Reg.ISL_CLK_STAT_STATE n) = 5) then s1.resetRelease n
    else s1)

/-! ### ENGINE reset (R437) -/

/-- The registers of an island that an ENGINE reset returns to their reset values: RESET_CTX, and the EN bits of its Sluice banks (R183,
R204). -/
def State.islCtrlReset (s : State) (n : Nat) : State :=
  State.each (List.range 4) (fun e t => (t.clr (Reg.ISL_SLC_CTRL_EN n e)).clr (Reg.ISL_SLC_CTRL_FLUSH n e)) (s.clr (Reg.ISL_CTRL_RESET_CTX n))

/-- An ENGINE reset: R59, R82, R94, R104, R144, R173, R179, R208, R321, R337, R347, R426, R481, R489. -/
def State.engineReset (s : State) : State :=
  let s1 := (s.journal 2 0).bstEngineReset.cfgEngineReset.swAbandon
  let s2 := s1.hopReset.runReset.lanReset.marReset
  let s3 := State.each [0, 1, 2, 3] (fun p t => t.prbReset p) s2
  let s4 := s3.mstEngineReset.milEngineReset.nocEngineReset
  State.each (List.range 80) (fun n t =>
    if t.rd (Reg.ISL_STAT_STATE n) = 5 then ((t.slcFlushAll n).islCtrlReset n).wr (Reg.ISL_STAT_CUR_CTX n) 0
    else (t.islandReset n true).islCtrlReset n) s4

/-! ### DEVICE reset (R26, R232, R260, R292, R353, R378, R426, R437, R466, R494, R526) -/

/-- A cell that lies in a range of blocks. -/
def inBlocks (r : Nat × Nat) (k : Nat) : Bool := decide (r.1 ≤ k / 2 ^ 26) && decide (k / 2 ^ 26 < r.2)

/-- Cells of Dahlia, of the fuses and of the model itself, which survive loss of VCC_AUX: the fuses, SYS_AUTO, the slots and
DAH_BOOT, the counts that Dahlia holds, the repair records, the service area, and which key table is loaded. -/
def keptAlways (k : Nat) : Bool :=
  let blk := k / 2 ^ 26
  let off := k / 64 % 2 ^ 20
  (blk == 0x004 && decide (0x1000 ≤ off)) || (blk == 0x000 && off == 0x014)
    || (blk == 0x003 && (off == 0x024 || off == 0x030 || off == 0x034 || decide (0x100 ≤ off)))
    || (blk == 0x00F && (off == 0x020 || off == 0x024 || off == 0x02C || off == 0x034))
    || (blk == 0x002 && off == 0x314) || inBlocks Hid.grpSVC k || inBlocks Hid.grpKEYS k

/-- Cells of the AUX domain, which survive a DEVICE reset other than power-on: the debug port, Aster, PEO_DBG,
PEO_TAMP_STAT, the boot's own, the journal's capture, and the PROG_N and PRECFG_PD pins. -/
def keptAux (k : Nat) : Bool :=
  let blk := k / 2 ^ 26
  let off := k / 64 % 2 ^ 20
  let lo := k % 64
  blk == 0x007 || blk == 0x005 || (blk == 0x004 && (off == 0x040 || off == 0x044 || (off == 0x004 && lo == 2)))
    || (blk == 0x000 && off == 0x010 && (lo == 16 || lo == 4)) || (blk == 0x002 && off == 0x050 && (lo == 11 || lo == 8))
    || inBlocks Hid.grpAUX k || inBlocks Hid.grpJNL k || inBlocks Hid.grpAST k || inBlocks Hid.grpBTS k

/-- The main domain returns to its reset state; cells for which `keep` holds stay. Memory arrays keep what they hold under the old
keys; the records and Dahlia stay. Which wires have failed is taken again from the records and the bundle self-test (R228, R232). -/
def State.mainReset (s : State) (keep : Nat → Bool) : State :=
  let s0 := s.dahAbandon
  { s0.discard (fun k => !keep (cellKey (k / 2 ^ 20 % 2 ^ 12) 0 0) || k / 2 ^ 32 != 1) with
    cells := s0.cells.filter (fun e => keep e.1)
    wback := [], laneBuf := [], islFifo := [], hopDelay := [], hopOpen := [], hopStage := [], hopTail := [], runLoops := []
    runQueue := [], txLine := [], fabVals := [], tplCache := [], keyFifo := [], sluices := [], fifos := [], cache := [], icache := []
    mstQueue := [], streams := [], rlkRetry := [], rlkFifo := [], packets := [], slvReqs := [], fpResps := [], mrQueue := []
    wires := [], walkFail := [], wireErrs := [], guards := [] }

/-- What a DEVICE reset does to the AUX domain: Aster's levels, STAGING and METHOD, and the debug port's supervisor and halts
(R526, R530, R545, R548); Peony's running command ends with its registers (R466). -/
def State.auxReset (s : State) : State :=
  let hard := s.on Reg.AST_STAT_HARD_STOPPED
  let s1 := [Reg.AST_CTX_CTRL_STAGING, Reg.AST_THR_CTRL_METHOD, Reg.AST_LEVEL_APPLIED, Reg.AST_LEVEL_LEVEL, Reg.AST_LEVEL_THM_LEVEL,
    Reg.AST_LEVEL_PWR_LEVEL, Reg.AST_STAT_BAL_READY, Reg.AST_BAL_TOTAL, Hid.astLimPend, Hid.astStopLim, Hid.astStopStg, Hid.astStopMeth,
    Hid.astMeth, Hid.coreShare, Hid.mstShare, Hid.thmUp, Hid.govMin, Hid.hardPend, Reg.DBG_SUP_CFG_EN,
    Reg.DBG_STAT_SUP_PAUSED, Reg.DBG_AUTH_STAT_BUSY].foldl (fun t f => t.clr f) s
  let s2 := State.each (List.range 80) (fun n t => ((t.clr (Hid.held n)).clr (Hid.thrShare n)).clr (Hid.declRun n)) s1
  let s3 := State.each (List.range 4) (fun c t => ((t.wr (Reg.DBG_CORE_STAT_HALTED c) 0).wr (Hid.haltWant c) 0).clrB Reg.DBG_STAT_HALTED c) s2
  s3.wr Reg.AST_STAT_TSTATE (if hard then 5 else 0)

/-- A DEVICE reset other than power-on, with its LAST_RESET code: 1 PROG_N, 2 COMMAND, 3 POWER_LOSS, 4 RETRY. The part restarts at
the main power-on reset, in phase AUX. -/
def State.deviceReset (s : State) (cause : Nat) : State :=
  let s1 := ((s.journal 1 cause).mainReset (fun k => keptAlways k || keptAux k)).auxReset
  let s2 := ((s1.wr Hid.jnlCount 0).wr Reg.SYS_BOOT_STAT_LAST_RESET cause).add Reg.TEL_BOOTS 1
  s2.lcsApply

/-! ### Tamper (R462) -/

/-- TAMPER (R462, R463): a source becomes active. -/
def execTamper (k : Fin 3) (s : State) : Host.Outcome State Fault Refusal :=
  .next (if !s.tampOn k then s
    else
      let s1 := s.tamperLatch k
      if s.rd Reg.PEO_TAMP_CFG_ACTION = 1 then s1.engineReset
      else if s.rd Reg.PEO_TAMP_CFG_ACTION = 2 then s1.deviceReset 2
      else s1)

/-! ### The hard stop (R521, R522) -/

/-- Steps 2 to 5 of a hard stop (R521). -/
def State.hardStop (s : State) : State :=
  if !s.on Hid.hardPend then s
  else
    let s1 := (s.mainReset (fun k => keptAlways k || keptAux k)).wr Reg.AST_STAT_HARD_STOPPED 1
    s1.auxReset.wr Hid.hardHold 1

/-- HARD_STOP (R521). -/
def execHardStop (s : State) : Host.Outcome State Fault Refusal := .next s.hardStop

/-! ### Rails, power-on resets and PROG_N (R428 to R431, R438) -/

/-- The main power-on reset may be released (R429, R438, R445, R522). -/
def State.porReady (s : State) : Bool :=
  s.rd Reg.SYS_BOOT_STAT_PHASE == 0 && s.rd Hid.railOk == 1023 && s.on Hid.auxUp && !s.on Hid.progLow && !s.on Reg.PEO_STAT_FUSE_ERR
    && (!s.on Reg.AST_STAT_HARD_STOPPED || (!s.on Hid.hardHold && s.allBelow 3 (s.rd Reg.AST_STOP_CFG_HYST_HARD)))

/-- The main power-on reset is released: phase CLOCKS begins (R430, R432), the repair records are applied and the bundle
self-test finds the wires `failing` (R232), and a hard stop ends (R522). -/
def State.porRelease (s : State) (failing : List (Bundle × WireErr)) : State :=
  if !s.porReady then s
  else
    let s1 := (s.bundlesApply failing).wr Reg.SYS_BOOT_STAT_PHASE 1
    if s.on Reg.AST_STAT_HARD_STOPPED then (s1.wr Reg.AST_STAT_HARD_STOPPED 0).wr Reg.AST_STAT_TSTATE 0 else s1

/-- PROG_N_LOW (R437, R438): PROG_N is low for 1 us or more. -/
def execProgNLow (s : State) : Host.Outcome State Fault Refusal :=
  .next ((((s.deviceReset 1).wr Hid.progLow 1).wr Hid.hardHold 0).wr Reg.CFG_PINS_PROG_N 0)

/-- PROG_N_RELEASE (R232, R438). -/
def execProgNRelease (failing : List (Bundle × WireErr)) (s : State) : Host.Outcome State Fault Refusal :=
  .next (((s.wr Hid.progLow 0).wr Reg.CFG_PINS_PROG_N 1).porRelease failing)

/-- RAIL_VALID (R428): a rail, numbered as Hid.railOk numbers them, has stayed at or above its threshold for 100 us. -/
def execRailValid (r : Fin 10) (s : State) : Host.Outcome State Fault Refusal := .next (s.setB Hid.railOk r)

/-- AUX_POR_RELEASE (R429, R432, R445): Peony boots and senses the fuses; `agree` says that both senses of every bit in words 0 to 91
agree, and `weak` are the repair words, counted from word 128, of which they do not. -/
def execAuxPorRelease (agree : Bool) (weak : List (Fin 384)) (s : State) : Host.Outcome State Fault Refusal :=
  .next (if s.bitOf Hid.railOk 0 && !s.on Hid.auxUp then
      (((s.wr Hid.auxUp 1).wr Hid.fuseWeak ((weak.map (fun i => i.val)).dedup.foldl (fun a i => a + 2 ^ i) 0)).wr
        Reg.PEO_STAT_FUSE_ERR (b2n !agree)).lcsApply
    else s)

/-- MAIN_POR_RELEASE (R232, R429, R430, R432). -/
def execMainPorRelease (failing : List (Bundle × WireErr)) (s : State) : Host.Outcome State Fault Refusal := .next (s.porRelease failing)

/-- ISLAND_POWER_STAGE (R430): the switches of group `g` of eight islands close, in ascending order. -/
def execIslandPowerStage (g : Fin 10) (s : State) : Host.Outcome State Fault Refusal :=
  .next (if s.rd Reg.SYS_BOOT_STAT_PHASE ≠ 0 ∧ s.rd Hid.islPower = 2 ^ g.val - 1 then s.setB Hid.islPower g else s)

/-- SRAM has lost its contents with its supply (R259): it holds what unlisted memory holds. -/
def State.sramLost (s : State) : State := s.zeroWords 0x1000000000 0x10000000

/-- HBM has lost its contents with its supplies. -/
def State.hbmLost (s : State) : State :=
  { s with mem := Tab.delRange s.mem 0 0x600000000, info := Tab.delRange s.info 0 (0x600000000 / 32) }

/-- What the loss of a main rail takes with it: SRAM with VCC_SRM or VCC_SRM_RET, HBM with VPP_HBM or VDD_HBM. -/
def State.railTakes (s : State) (r : Nat) : State :=
  if r = 3 ∨ r = 4 then s.sramLost else if r = 6 ∨ r = 7 then s.hbmLost else s

/-- MAIN_RAIL_LOSS (R259, R431, R523): a main rail has been below its threshold for 2 us after the release of the main power-on reset.
The lane drivers go off with the ports and links that the reset disables; a hard stop in progress completes first. -/
def execMainRailLoss (r : Fin 10) (s : State) : Host.Outcome State Fault Refusal :=
  .next (
    let s1 := (s.hardStop.clrB Hid.railOk r).railTakes r
    if r.val = 0 then s else if s.rd Reg.SYS_BOOT_STAT_PHASE = 0 then s1 else (s1.deviceReset 3).wr Hid.islPower 0)

/-- VCC_AUX_POWER_ON (R437): VCC_AUX has been lost and has returned. Fuses and Dahlia stay; SRAM and HBM have lost their contents. -/
def execVccAuxPowerOn (s : State) : Host.Outcome State Fault Refusal :=
  .next ((s.mainReset keptAlways).sramLost.hbmLost.add Reg.TEL_BOOTS 1)

/-- PCIE_PERST (R435): PCIE_PERST_N goes high. -/
def execPciePerst (s : State) : Host.Outcome State Fault Refusal := .next (s.wr Hid.perst 1)

/-! ### Boot phases (R432, R433, R439) -/

/-- PHASE_CLOCKS_DONE (R190, R432): every fixed-class and CORE generator is STABLE. -/
def execPhaseClocksDone (s : State) : Host.Outcome State Fault Refusal :=
  .next (if s.rd Reg.SYS_BOOT_STAT_PHASE = 1 then
      ((s.wr Reg.CLK_CLS_STAT_LOCK 63).wr Reg.SYS_BOOT_STAT_NO_REF 0).wr Reg.SYS_BOOT_STAT_PHASE 2
    else s)

/-- NO_REF_TIMEOUT (R432): 100 ms in phase CLOCKS with no PRESENT REFCLK. -/
def execNoRefTimeout (s : State) : Host.Outcome State Fault Refusal :=
  .next (if s.rd Reg.SYS_BOOT_STAT_PHASE = 1 ∧ !s.on Reg.CLK_REF_STAT_A_PRES ∧ !s.on Reg.CLK_REF_STAT_B_PRES then
      (s.wr Reg.SYS_BOOT_STAT_NO_REF 1).sysEvt 1
    else s)

/-- PHASE_KEYS_DONE (R259, R432, R435, R458): a new key table is loaded, the secure region is wiped, CLEARING begins, and the links
begin bring-up. -/
def execPhaseKeysDone (s : State) : Host.Outcome State Fault Refusal :=
  .next (if s.rd Reg.SYS_BOOT_STAT_PHASE = 2 ∧ !s.on Reg.PEO_STAT_TRNG_FAIL then
      let s1 := ((s.add Hid.keyEpoch 1).wipeWords).wr Reg.SYS_BOOT_STAT_PHASE 3
      State.each [0, 1] (fun l t => if t.on (Reg.RLK_CTRL_EN l) then t.rlkPhy l 0 else t) s1
    else s)

/-- BOOT_RETRY (R439): 100 ms in FAILED, with retries left. -/
def execBootRetry (s : State) : Host.Outcome State Fault Refusal :=
  .next (if s.rd Reg.SYS_BOOT_STAT_PHASE = 6 ∧ s.rd Reg.SYS_BOOT_STAT_RETRY_CNT < s.rd Reg.SYS_AUTO_RETRIES then
      (s.add Reg.SYS_BOOT_STAT_RETRY_CNT 1).deviceReset 4
    else s)

/-! ### SYS commands (R440) -/

/-- SAVE_AUTO. -/
def State.saveAuto (s : State) : State :=
  if s.on Reg.DAH_STAT_BUSY then s.sysReject 0x04
  else
    [(Reg.SYS_AUTO_FW_EN, Reg.SYS_AUTO_NEW_FW_EN), (Reg.SYS_AUTO_FW_CORES, Reg.SYS_AUTO_NEW_FW_CORES),
     (Reg.SYS_AUTO_FW_SLOT, Reg.SYS_AUTO_NEW_FW_SLOT), (Reg.SYS_AUTO_HBM_EN, Reg.SYS_AUTO_NEW_HBM_EN),
     (Reg.SYS_AUTO_HBM_SPARE, Reg.SYS_AUTO_NEW_HBM_SPARE), (Reg.SYS_AUTO_RETRIES, Reg.SYS_AUTO_NEW_RETRIES)].foldl
      (fun t p => t.wr p.1 (s.rd p.2)) s

/-- The reset commands, which ask for the key (R440). -/
def State.sysResetDevice (s : State) (key : Nat) : State := if key ≠ 0xA5 then s.deny 0x000 else s.deviceReset 2
def State.sysResetEngine (s : State) (key : Nat) : State :=
  if key ≠ 0xA5 then s.deny 0x000 else if s.rd Reg.SYS_BOOT_STAT_PHASE < 4 then s.sysReject 0x02 else s.engineReset
def State.sysResetIsland (s : State) (key n : Nat) : State :=
  if key ≠ 0xA5 ∨ 80 ≤ n then s.deny 0x000 else s.resetIsland n

/-- A word written to SYS_CMD (R440). -/
def State.sysCmd (s : State) (w : Nat) : State :=
  let key := bits w 31 24
  let code := bits w 7 0
  if code = 0x01 then s.sysResetDevice key
  else if code = 0x02 then s.sysResetEngine key
  else if code = 0x03 then s.sysResetIsland key (bits w 14 8)
  else if code = 0x04 then s.saveAuto
  else s.sysReject code

/-- SYS_RESET_DEVICE (R437, R440). -/
def execSysResetDevice (key : Byte) (s : State) : Host.Outcome State Fault Refusal := .next (s.sysResetDevice key.toNat)
/-- SYS_RESET_ENGINE (R437, R440). -/
def execSysResetEngine (key : Byte) (s : State) : Host.Outcome State Fault Refusal := .next (s.sysResetEngine key.toNat)
/-- SYS_RESET_ISLAND (R419, R437, R440). -/
def execSysResetIsland (key : Byte) (n : Fin 128) (s : State) : Host.Outcome State Fault Refusal := .next (s.sysResetIsland key.toNat n)
/-- SYS_SAVE_AUTO (R440). -/
def execSysSaveAuto (s : State) : Host.Outcome State Fault Refusal := .next s.saveAuto

end Sys2Proof.Machine
end

