-- ==== Sys2Proof/Machine/Debug.lean ====
section
/-! DEFINITION. The debug port (chapter 18, R529 to R550): the TAP, halting and stepping, breakpoints, the core registers, the
supervisor watchdog and the commands of DBG_CMD. The transport is in Serve.lean. -/

namespace Sys2Proof.Machine

/-- A rejected DBG command (R549). -/
def State.dbgReject (s : State) (code : Nat) : State := (s.rejMark 0x007 code).dbgEvt 0

/-- The level in force is FULL. -/
def State.full (s : State) : Bool := s.rd Reg.DBG_STAT_LEVEL == 2

/-! ### TAP (R530, R531) -/

/-- TAP_RESET (R530, R577): TRST_N low, or Test-Logic-Reset. -/
def execTapReset (s : State) : Host.Outcome State Fault Refusal :=
  .next (((((((s.discardMaster 1).wr Hid.tapIr 2).wr Hid.tapD 0).wr Hid.accBusy 0).wr Reg.DBG_CTRL_ATTACH 0).wr
    Reg.DBG_ACC_CONSUME 0).attached)

/-- The least level of a TAP instruction (R531): EXTEST, HIGHZ and CLAMP need FULL, SAMPLE/PRELOAD needs OBSERVE. -/
def tapLevel (op : Nat) : Nat := if op = 0 ∨ op = 3 ∨ op = 4 then 2 else if op = 1 then 1 else 0

/-- TAP_UPDATE_IR (R531): an instruction that the level does not permit acts as BYPASS, as does every opcode not listed. -/
def execTapUpdateIr (op : Byte) (s : State) : Host.Outcome State Fault Refusal :=
  .next (if s.rd Reg.DBG_STAT_LEVEL < tapLevel op.toNat then
      ((s.wr Hid.tapIr 0xFF).wr Hid.tapD 1).wr Reg.DBG_STAT_TAP_DENY 1
    else
      let known := [0, 1, 2, 3, 4, 0x10].contains op.toNat
      (s.wr Hid.tapIr (if known then op.toNat else 0xFF)).wr Hid.tapD 0)

/-! ### Halting, resuming and stepping (R540 to R543) -/

/-- Core `c` is in ROM, RUN or WFI. -/
def State.coreLive (s : State) (c : Nat) : Bool :=
  let t := s.rd (Reg.MIL_CORE_STAT_STATE c)
  t == 1 || t == 2 || t == 3

/-- HALT (R540, R549): every named core receives the request. -/
def State.dbgHalt (s : State) (cores : Nat) : State :=
  if s.full && !(coresOf cores).isEmpty && (coresOf cores).all s.coreLive then
    State.each (coresOf cores) (fun c t => t.wr (Hid.haltWant c) 1) s
  else s.dbgReject 1

/-- DBG_HALT (R540). -/
def execDbgHalt (cores : Fin 16) (s : State) : Host.Outcome State Fault Refusal := .next (s.dbgHalt cores)

/-- A halt of core `c` that has been asked for takes place, with DPC `pc`; a reservation that the core still holds at a
HALT is lost (R541). -/
def State.haltNow (s : State) (c pc : Nat) : State :=
  let lost := s.rd (Hid.haltWant c) == 1 && s.on (Hid.lrV c)
  let s1 := s.wrIf (s.rd (Hid.haltWant c) == 1) (Reg.DBG_CORE_STAT_RESV_LOST c) (b2n lost)
  ((s1.wrIf lost (Hid.lrV c) 0).wr (Hid.haltWant c) 0).coreHalt c (s.rd (Hid.haltWant c)) pc

/-- CORE_HALTED (R540 to R542): core `c` reaches the instruction boundary at which it halts. -/
def execCoreHalted (c : Fin 4) (pc : DWord) (s : State) : Host.Outcome State Fault Refusal :=
  .next (if s.on (Hid.haltWant c) && s.coreLive c then s.haltNow c pc.toNat else s)

/-- RESUME (R546, R547, R549). -/
def State.dbgResume (s : State) (cores : Nat) : State :=
  if s.full && (coresOf cores).all s.halted then State.each (coresOf cores) (fun c t => t.coreResume c) s
  else s.dbgReject 2

/-- DBG_RESUME (R546). -/
def execDbgResume (cores : Fin 16) (s : State) : Host.Outcome State Fault Refusal := .next (s.dbgResume cores)

/-- STEP (R542, R549): the named cores resume for one instruction. -/
def State.dbgStep (s : State) (cores : Nat) : State :=
  if s.full && (coresOf cores).all s.halted then
    State.each (coresOf cores) (fun c t => (t.coreResume c).wr (Hid.haltWant c) 2) s
  else s.dbgReject 3

/-- DBG_STEP (R542). -/
def execDbgStep (cores : Fin 16) (s : State) : Host.Outcome State Fault Refusal := .next (s.dbgStep cores)

/-- A core halts at a breakpoint, an EBREAK or a watchpoint, unless a HALT waits, which comes first (R543). -/
def State.haltBy (s : State) (c cause pc : Nat) (idx : Option Nat) : State :=
  if s.rd (Hid.haltWant c) = 1 then s.haltNow c pc
  else
    let s1 := (s.wr (Hid.haltWant c) 0).coreHalt c cause pc
    match idx with
    | some k => s1.wr (Reg.DBG_CORE_STAT_IDX c) k
    | none => s1

/-- BREAKPOINT_HIT (R543): core `c` is about to execute the instruction at breakpoint `k`, at privilege `priv` (0 U, 1 S,
2 M). -/
def execBreakpointHit (c : Fin 4) (k : Fin 8) (priv : Fin 3) (s : State) : Host.Outcome State Fault Refusal :=
  .next (if s.coreLive c && s.on (Reg.DBG_BP_CTL_EN c k) && s.bitOf (Reg.DBG_BP_CTL_PRIV c k) priv then
      s.haltBy c 3 (s.rd (Reg.DBG_BP_ADDR c k)) (some k)
    else s)

/-- Bytes `a` to `a + n − 1` touch the range of a watchpoint (R543). -/
def State.watchTouches (s : State) (c w a n : Nat) : Bool :=
  let z := s.rd (Reg.DBG_WP_CTL_SIZE c w)
  let b := s.rd (Reg.DBG_WP_BASE c w) / 2 ^ z * 2 ^ z
  decide (b < a + n) && decide (a < b + 2 ^ z)

/-- WATCHPOINT_HIT (R543): core `c` has completed an access of 2^`size` bytes at `a`; `pc` is the next instruction. -/
def execWatchpointHit (c : Fin 4) (w : Fin 4) (a : DWord) (size : Fin 4) (load store : Bool) (priv : Fin 3) (pc : DWord)
    (s : State) : Host.Outcome State Fault Refusal :=
  .next (if s.coreLive c && s.on (Reg.DBG_WP_CTL_EN c w) && s.bitOf (Reg.DBG_WP_CTL_PRIV c w) priv
      && ((load && s.on (Reg.DBG_WP_CTL_LOAD c w)) || (store && s.on (Reg.DBG_WP_CTL_STORE c w)))
      && s.watchTouches c w a.toNat (2 ^ size.val) then
      s.haltBy c 4 pc.toNat none
    else s)

/-- EBREAK_HALT (R543): core `c` executes the EBREAK at `pc`. -/
def execEbreakHalt (c : Fin 4) (pc : DWord) (s : State) : Host.Outcome State Fault Refusal :=
  .next (if s.coreLive c && s.on (Reg.DBG_CORE_CTRL_EBREAK_HALT c) then s.haltBy c 5 pc.toNat none else s)

/-! ### Core registers (R323, R544) -/

/-- The control and status registers of a core: those of machine, supervisor and user mode with F, D, 16 PMP entries and four
event counters. PRESUMED from the RISC-V privileged architecture, log entry 20. -/
def csrExists (n : Nat) : Bool :=
  (decide (0x001 ≤ n) && decide (n ≤ 0x003)) || (decide (0xC00 ≤ n) && decide (n ≤ 0xC06))
    || [0x100, 0x104, 0x105, 0x106, 0x140, 0x141, 0x142, 0x143, 0x144, 0x180].contains n
    || (decide (0x300 ≤ n) && decide (n ≤ 0x306)) || n == 0x320 || (decide (0x323 ≤ n) && decide (n ≤ 0x326))
    || (decide (0x340 ≤ n) && decide (n ≤ 0x344)) || n == 0x3A0 || n == 0x3A2 || (decide (0x3B0 ≤ n) && decide (n ≤ 0x3BF))
    || n == 0xB00 || (decide (0xB02 ≤ n) && decide (n ≤ 0xB06)) || (decide (0xF11 ≤ n) && decide (n ≤ 0xF14))

/-- The register that REGSEL names exists. -/
def regExists (space n : Nat) : Bool := if space = 2 then csrExists n else decide (space < 2) && decide (n < 32)

/-- SSTATUS is this part of MSTATUS. PRESUMED, log entry 20. -/
def sstatusMask : Nat := 0x80000003000DE762

/-- A control and status register as it reads (R323). -/
def State.csrRead (s : State) (c n : Nat) : Nat :=
  let r (k : Nat) : Nat := s.rd (Hid.coreCsr c k)
  if !csrExists n then 0
  else if n = 0x301 then 0x800000000014112D
  else if n = 0xF11 then 0
  else if n = 0xF13 then 0x100
  else if n = 0xF14 then c
  else if n = 0xC01 then s.now / 4
  else if n = 0x001 then r 3 % 32
  else if n = 0x002 then r 3 / 32 % 8
  else if n = 0x100 then r 0x300 &&& sstatusMask
  else if n = 0x104 then r 0x304 &&& r 0x303
  else if n = 0x144 then r 0x344 &&& r 0x303
  else if 0xC00 ≤ n ∧ n < 0xD00 then r (n - 0x100)
  else r n

/-- A number with the bits of a 64-bit mask taken from another. -/
def maskIn (m old new : Nat) : Nat := (old &&& (2 ^ 64 - 1 - m)) ||| (new &&& m)

/-- A write of a control and status register with machine privilege; the read-only ones keep their value. -/
def State.csrWrite (s : State) (c n v : Nat) : State :=
  let r (k : Nat) : Nat := s.rd (Hid.coreCsr c k)
  if !csrExists n || decide (0xC00 ≤ n) || n == 0x301 then s
  else if n = 0x001 then s.wr (Hid.coreCsr c 3) (r 3 / 32 * 32 + v % 32)
  else if n = 0x002 then s.wr (Hid.coreCsr c 3) (r 3 % 32 + v % 8 * 32)
  else if n = 0x003 then s.wr (Hid.coreCsr c 3) (v % 256)
  else if n = 0x100 then s.wr (Hid.coreCsr c 0x300) (maskIn sstatusMask (r 0x300) v)
  else if n = 0x104 then s.wr (Hid.coreCsr c 0x304) (maskIn (r 0x303) (r 0x304) v)
  else if n = 0x144 then s.wr (Hid.coreCsr c 0x344) (maskIn (r 0x303) (r 0x344) v)
  else s.wr (Hid.coreCsr c n) v

/-- The register of core `c` that REGSEL names, and what follows from reading it: open while the core is not HALTED (R544). -/
def State.regData (s : State) (c : Nat) : Nat × State :=
  let sp := s.rd (Reg.DBG_CORE_REGSEL_SPACE c)
  let n := s.rd (Reg.DBG_CORE_REGSEL_NUM c)
  if !s.halted c then (s.fresh.1 % 2 ^ 64, s.fresh.2)
  else if !regExists sp n then (0, s)
  else if sp = 2 then (s.csrRead c n, s)
  else if sp = 1 then (s.rd (Hid.coreFpr c n), s)
  else (if n = 0 then 0 else s.rd (Hid.coreGpr c n), s)

/-- A write of DBG_CORE_REGDATA (R544). -/
def State.regDataWrite (s : State) (c v : Nat) : State :=
  let sp := s.rd (Reg.DBG_CORE_REGSEL_SPACE c)
  let n := s.rd (Reg.DBG_CORE_REGSEL_NUM c)
  if !s.full || !s.halted c then s.deny 0x007
  else if !regExists sp n then s
  else if sp = 2 then s.csrWrite c n v
  else if sp = 1 then s.wr (Hid.coreFpr c n) v
  else if n = 0 then s
  else s.wr (Hid.coreGpr c n) v

/-- DBG_REGDATA_WRITE (R544): the debug port writes both halves. -/
def execDbgRegdataWrite (c : Fin 4) (v : DWord) (s : State) : Host.Outcome State Fault Refusal :=
  .next (s.regDataWrite c v.toNat)

/-- REGSEL has been written: ERR says whether the register exists (R544). -/
def State.regSelDone (s : State) (c : Nat) : State :=
  s.wr (Reg.DBG_CORE_REGSEL_ERR c)
    (b2n (!regExists (s.rd (Reg.DBG_CORE_REGSEL_SPACE c)) (s.rd (Reg.DBG_CORE_REGSEL_NUM c))))

/-! ### The supervisor watchdog (R548) -/

/-- A write of DBG_SUP_CFG (R548, R575): EN can be set but not cleared, LOAD changes only while EN = 0, and setting EN starts
the count from the LOAD it carries. -/
def State.supCfg (s : State) (w : Nat) : State :=
  let en := s.on Reg.DBG_SUP_CFG_EN
  let load := w % 2 ^ 16
  let s1 := if load = s.rd Reg.DBG_SUP_CFG_LOAD then s
    else if load = 0 ∨ en then s.deny 0x007
    else s.wr Reg.DBG_SUP_CFG_LOAD load
  if en && !bit w 31 then s1.deny 0x007
  else if !en && bit w 31 then
    ((s1.wr Reg.DBG_SUP_CFG_EN 1).wr Reg.DBG_SUP_VAL (s1.rd Reg.DBG_SUP_CFG_LOAD)).supPause
  else s1

/-- A write of DBG_SUP_KICK (R548). -/
def State.supKick (s : State) (w : Nat) : State :=
  if w = 0x5AFE ∧ s.on Reg.DBG_SUP_CFG_EN then s.wr Reg.DBG_SUP_VAL (s.rd Reg.DBG_SUP_CFG_LOAD) else s

/-- SUP_WDG_KICK (R548): any master writes DBG_SUP_KICK. -/
def execSupWdgKick (w : Word) (s : State) : Host.Outcome State Fault Refusal := .next (s.supKick w.toNat)

/-- SUP_WDG_EXPIRE (R548): the count of the supervisor, enabled and not paused, reaches 0 from its last millisecond. -/
def execSupWdgExpire (s : State) : Host.Outcome State Fault Refusal :=
  .next (if !s.on Reg.DBG_SUP_CFG_EN || s.on Reg.DBG_STAT_SUP_PAUSED || decide (1 < s.rd Reg.DBG_SUP_VAL) then s
    else
      let s1 := (s.raise 40).journal 4 0
      if s.on Reg.DBG_CTRL_ATTACH && s.full then s1.wr Reg.DBG_SUP_VAL (s.rd Reg.DBG_SUP_CFG_LOAD) else s1.deviceReset 2)

/-! ### Commands (R537, R549) -/

/-- RESET_DEVICE (R522, R549). -/
def State.dbgResetDevice (s : State) : State := if s.full then (s.wr Hid.hardHold 0).deviceReset 2 else s.dbgReject 4

/-- DBG_RESET_DEVICE (R549). -/
def execDbgResetDevice (s : State) : Host.Outcome State Fault Refusal := .next s.dbgResetDevice

/-- Peony runs a command of the debug port (R537): 0x40 a challenge, 0x41 a token check. -/
def State.dbgPeony (s : State) (code : Nat) : State :=
  ((s.wr Reg.PEO_STAT_BUSY 1).wr Reg.DBG_AUTH_STAT_BUSY 1).wr Hid.peoCode code

/-- AUTH_CHALLENGE (R537, R549). -/
def State.dbgChallenge (s : State) : State :=
  if s.on Reg.DBG_AUTH_STAT_BUSY || s.on Reg.PEO_STAT_BUSY || s.on Reg.PEO_STAT_TRNG_FAIL then s.dbgReject 5
  else s.dbgPeony 0x40

/-- AUTH_TOKEN (R537, R549). -/
def State.dbgToken (s : State) : State :=
  if s.on Reg.DBG_AUTH_STAT_BUSY || s.on Reg.PEO_STAT_BUSY || !s.on Hid.chalV then s.dbgReject 6 else s.dbgPeony 0x41

/-- DBG_AUTH_CHALLENGE (R537). -/
def execDbgAuthChallenge (s : State) : Host.Outcome State Fault Refusal := .next s.dbgChallenge

/-- DBG_AUTH_TOKEN (R537). -/
def execDbgAuthToken (s : State) : Host.Outcome State Fault Refusal := .next s.dbgToken

/-- A write of DBG_CMD by the debug port (R549). -/
def State.dbgCmd (s : State) (w : Nat) : State :=
  let code := w % 256
  let cores := bits w 19 16
  match code with
  | 1 => s.dbgHalt cores
  | 2 => s.dbgResume cores
  | 3 => s.dbgStep cores
  | 4 => s.dbgResetDevice
  | 5 => s.dbgChallenge
  | 6 => s.dbgToken
  | _ => s.dbgReject code

end Sys2Proof.Machine
end

