-- ==== Sys2Proof/Machine/Events.lean ====
section
/-! DEFINITION. The event controller (chapter 12, R375 to R378). -/

namespace Sys2Proof.Machine

/-- The event numbers that are reserved (R560). -/
def eventReserved (e : Nat) : Bool :=
  [(78, 127), (135, 135), (153, 191), (263, 287), (291, 319), (337, 351), (362, 383), (388, 511)].any
    (fun r => decide (r.1 ≤ e) && decide (e ≤ r.2))

/-- EVENT_RAISE (R375, R376): a reserved event is never raised (R560). -/
def execEventRaise (e : Fin 1024) (s : State) : Host.Outcome State Fault Refusal :=
  .next (if eventReserved e then s else s.raise e)

/-- The lowest pending event routed to core `c` at privilege `p` (R376). -/
def State.claimable (s : State) (c p : Nat) : Option Nat :=
  (List.range 1024).find? (fun e => s.pend e && s.on (Reg.EVT_ROUTE_A_EN e) && s.bitOf (Reg.EVT_ROUTE_A_CORES e) c
    && s.rd (Reg.EVT_ROUTE_A_PRIV e) == p)

/-- What a read of EVT_CLAIM[c][p] returns and does; `peek` clears nothing. -/
def State.evtClaim (s : State) (c p : Nat) (peek : Bool) : Nat × State :=
  match s.claimable c p with
  | none => (0, s)
  | some e => (2 ^ 31 + e, if peek then s else (s.clrB (Reg.EVT_PEND (e / 32)) (e % 32)).milLevels)

/-- EVT_CLAIM_READ (R376). -/
def execEvtClaimRead (c : Fin 4) (p : Fin 2) (peek : Bool) (s : State) : Host.Outcome State Fault Refusal :=
  .next (let r := s.evtClaim c p peek; r.2.answer .ok (leBytes 4 r.1))

/-- A write of EVT_ROUTE_A[e] (R376): a pending event that becomes enabled for MSI-X sends its message. -/
def State.evtRouteA (s : State) (e w : Nat) : State :=
  let both (t : State) : Bool := t.on (Reg.EVT_ROUTE_A_EN e) && t.on (Reg.EVT_ROUTE_A_MSIX_EN e)
  let t := s.writeReg 0x001 (0x10000 + 8 * e) w
  if s.pend e && !both s && both t then t.msixSend (t.rd (Reg.EVT_ROUTE_A_VECTOR e)) else t

/-- EVT_ROUTE_A_WRITE (R376). -/
def execEvtRouteAWrite (e : Fin 1024) (w : Word) (s : State) : Host.Outcome State Fault Refusal :=
  .next (s.evtRouteA e w.toNat)

/-- A write of EVT_USER_RAISE (R377). -/
def State.evtUser (s : State) (u : Nat) : State := s.raise (992 + u % 32)

/-- EVT_USER_RAISE (R377). -/
def execEvtUserRaise (u : Fin 32) (s : State) : Host.Outcome State Fault Refusal := .next (s.evtUser u)

end Sys2Proof.Machine
end

