-- ==== Sys2Proof/Machine/Host.lean ====
section
/-! DEFINITION. The host port (chapter 12, R350 to R361): configuration requests, resets, the driver interface version, DMA
queues and MSI-X. BAR0 and BAR2 requests are in Serve.lean. -/

namespace Sys2Proof.Machine

/-- A rejected HST command (R379). -/
def State.hstReject (s : State) (code : Nat) : State := (s.rejMark 0x009 code).hstEvt 0

/-! ### Configuration space, link and resets (R350, R351, R353) -/

/-- Messages of vectors that are pending and no longer masked are sent. -/
def State.msixRelease (s : State) : State :=
  State.each (List.range 512) (fun v t =>
    if t.on (Hid.msixPba v) && !t.on (Hid.msixMask v) && !t.on Hid.msixFnMask && t.on Hid.msixEnable then
      (t.wr (Hid.msixPba v) 0).emit (.msix v (t.rd (Hid.msixAddr v)) (t.rd (Hid.msixData v)))
    else t) s

/-- A base address register (R354): BAR0, BAR2 and BAR4 are 64-bit, of 1 GiB, 64 GiB (prefetchable) and 16 KiB; the bits below the
size are fixed. `w` is what the host has written last. -/
def barRead (r w : Nat) : Nat :=
  match r with
  | 4 => w / 2 ^ 30 % 4 * 2 ^ 30 + 4
  | 6 => 12
  | 7 => w / 2 ^ 4 % 2 ^ 28 * 2 ^ 4
  | 8 => w / 2 ^ 14 % 2 ^ 18 * 2 ^ 14 + 4
  | _ => w

/-- A DWORD of configuration space (R350, R354): the identity and the BARs as the manual gives them, with the Subsystem ID of the fuses (R444), and no expansion ROM; the rest
of the standard layout is open. -/
def State.pcieRead (s : State) (r : Nat) : Nat × State :=
  let f := s.fresh.1
  if r = 0 then (Config.pcieVendor % 2 ^ 16 + 0x2600 * 2 ^ 16, s)
  else if r = 2 then (s.rd Reg.SYS_IDCODE_REV + 0x118000 * 2 ^ 8, s)
  else if 4 ≤ r ∧ r ≤ 9 then (barRead r (s.rd (Hid.pcieCfg r)), s)
  else if r = 12 then (0, s)
  else if r = 11 then (Config.pcieVendor % 2 ^ 16 + bits (s.rd (Reg.PEO_FUSE 1)) 31 16 * 2 ^ 16, s)
  else if r = 15 then (f % 2 ^ 8 + f / 2 ^ 8 % 2 ^ 16 * 2 ^ 16, s.fresh.2)
  else (f % 2 ^ 32, s.fresh.2)

/-- PCIE_CONFIG_REQUEST (R350, R351): a Configuration Request for a DWORD, answered with Retry Status until READY. `wr` is
the value written, and `msix` the enable and function mask bits where the write reaches the MSI-X capability. -/
def execPcieConfigRequest (r : Fin 1024) (wr : Option Word) (msix : Option (Bool × Bool)) (s : State) :
    Host.Outcome State Fault Refusal :=
  .next (if !s.on Reg.HST_STAT_READY then s.answer .held []
    else
      match wr with
      | none => let x := s.pcieRead r; x.2.answer .ok (leBytes 4 x.1)
      | some w =>
        let s1 := s.wr (Hid.pcieCfg r) w.toNat
        let s2 := match msix with
          | none => s1
          | some (en, mask) => ((s1.wr Hid.msixEnable (b2n en)).wr Hid.msixFnMask (b2n mask)).msixRelease
        s2.answer .ok [])

/-- What a reset of the host port does (R353). `linkDown` also clears what the link shows. -/
def State.hostReset (s : State) (linkDown : Bool) : State :=
  let s1 := s.mstHostReset
  let keep := if linkDown then [Reg.HST_STAT_READY] else
    [Reg.HST_STAT_READY, Reg.HST_STAT_LINK_UP, Reg.HST_LINK_STAT_WIDTH, Reg.HST_LINK_STAT_SPEED]
  let s2 := s1.keeping keep (fun t => (t.resetBlocks 0x009 0x00A).resetBlocks Hid.grpHST.1 Hid.grpHST.2)
  let s3 := State.each (List.range 512) (fun v t =>
    (((t.clr (Hid.msixAddr v)).clr (Hid.msixData v)).clr (Hid.msixMask v)).clr (Hid.msixPba v)) s2
  (((({ s3 with streams := [] }.discardMaster 0).clr Hid.msixEnable).clr Hid.msixFnMask)).hstEvt 5

/-- HOST_RESET (R353): Function Level Reset, hot reset, or link down. -/
def execHostReset (k : HostReset) (s : State) : Host.Outcome State Fault Refusal := .next (s.hostReset (k == .linkDown))

/-- PCIE_LINK_CHANGE (R350, R380, R435): the link runs at a speed (1 to 5) and width; 0 is no link. The port does not train
before the main power-on reset is released and PCIE_PERST_N is high. -/
def execPcieLinkChange (speed : Fin 6) (width : Fin 17) (s : State) : Host.Outcome State Fault Refusal :=
  .next (if speed.val = 0 ∨ width.val = 0 then s.hostReset true
    else if !s.on Hid.perst || s.rd Reg.SYS_BOOT_STAT_PHASE == 0 then s
    else
      let t := ((s.wr Reg.HST_LINK_STAT_SPEED speed).wr Reg.HST_LINK_STAT_WIDTH width).wr Reg.HST_STAT_LINK_UP 1
      if s.rd Reg.HST_LINK_STAT_SPEED = speed ∧ s.rd Reg.HST_LINK_STAT_WIDTH = width then t else t.hstEvt 2)

/-- AER_ERROR_LOGGED (R380). -/
def execAerErrorLogged (uncorrectable : Bool) (s : State) : Host.Outcome State Fault Refusal :=
  .next (s.hstEvt (if uncorrectable then 4 else 3))

/-! ### Driver interface version (R356) -/

/-- A write of HST_DRV_HELLO. While a queue is not DISABLED, one that would change a value is denied, and one that carries the present
values does nothing (R356, R575). -/
def State.drvHello (s : State) (w : Nat) : State :=
  if (List.range 64).any (fun q => s.rd (Reg.HST_Q_STAT_STATE q) != 0) then
    if bits w 23 16 = s.rd Reg.HST_DRV_HELLO_DRV_MIN ∧ bits w 15 8 = s.rd Reg.HST_DRV_HELLO_DRV_MAX
        ∧ bits w 7 0 = s.rd Reg.HST_DRV_HELLO_DRV_MINOR then s
    else s.deny 0x009
  else
    let lo := bits w 23 16
    let hi := bits w 15 8
    let minor := bits w 7 0
    let s1 := ((s.wr Reg.HST_DRV_HELLO_DRV_MIN lo).wr Reg.HST_DRV_HELLO_DRV_MAX hi).wr Reg.HST_DRV_HELLO_DRV_MINOR minor
    let major := min (s.rd Reg.HST_IF_VER_IF_MAJOR) hi
    let ok := decide (max (s.rd Reg.HST_IF_VER_MIN_MAJOR) lo ≤ major)
    let m := min (s.rd Reg.HST_IF_VER_MAX_MINOR) minor
    ((((s1.wr Reg.HST_IF_STAT_AGREED (b2n ok)).wr Reg.HST_IF_STAT_REFUSED (b2n !ok)).wr Reg.HST_IF_STAT_MAJOR
      (if ok then major else 0)).wr Reg.HST_IF_STAT_MINOR (if ok then m else 0)).hstEvt 6

/-- DRV_HELLO (R356). -/
def execDrvHello (w : Word) (s : State) : Host.Outcome State Fault Refusal := .next (s.drvHello w.toNat)

/-! ### Queues (R357 to R361) -/

/-- The ring configuration of a queue is valid (R358). -/
def State.ringOk (s : State) (q : Nat) : Bool :=
  let n := s.rd (Reg.HST_Q_SIZE q)
  (List.range 13).any (fun k => n == 16 * 2 ^ k) && s.rd (Reg.HST_Q_RING q) % 32 == 0
    && decide ((s.rd (Reg.HST_Q_TAIL q) + 2 ^ 32 - s.rd (Reg.HST_Q_HEAD q)) % 2 ^ 32 ≤ n)

/-- Q_START. -/
def State.qStart (s : State) (q : Nat) : State :=
  if s.rd (Reg.HST_Q_STAT_STATE q) = 0 ∧ s.on Reg.HST_IF_STAT_AGREED = true ∧ s.ringOk q = true then
    (s.wr (Reg.HST_Q_STAT_STATE q) 1).wr (Reg.HST_Q_STAT_CAUSE q) 0
  else s.hstReject 1

/-- A descriptor of a queue is in progress: one is pending, and a STREAM queue has something to put into it. -/
def State.qBusy (s : State) (q : Nat) : Bool :=
  s.rd (Reg.HST_Q_HEAD q) != s.rd (Reg.HST_Q_TAIL q)
    && (s.rd (Reg.HST_Q_CFG_DIR q) != 2 || !(Tab.getD s.streams q []).isEmpty)

/-- Q_STOP: a descriptor in progress is finished first. -/
def State.qStop (s : State) (q : Nat) : State :=
  if s.rd (Reg.HST_Q_STAT_STATE q) = 1 then s.wr (Reg.HST_Q_STAT_STATE q) (if s.qBusy q then 2 else 0) else s.hstReject 2

/-- Q_RESET: HEAD and TAIL are kept. -/
def State.qReset (s : State) (q : Nat) : State :=
  if s.rd (Reg.HST_Q_STAT_STATE q) = 3 then s.wr (Reg.HST_Q_STAT_STATE q) 0 else s.hstReject 3

/-- CLR_CNT: HST_ERR_CNT and the log. -/
def State.hstClrCnt (s : State) : State :=
  [Reg.HST_ERR_CNT, Reg.HST_ERR_ADDR, Reg.HST_ERR_INFO_VALID, Reg.HST_ERR_INFO_OVF, Reg.HST_ERR_INFO_KIND].foldl
    (fun t f => t.wr f 0) s

/-- Q_START (R361, R379). -/
def execQStart (q : Fin 64) (s : State) : Host.Outcome State Fault Refusal := .next (s.qStart q)

/-- Q_STOP (R361, R379). -/
def execQStop (q : Fin 64) (s : State) : Host.Outcome State Fault Refusal := .next (s.qStop q)

/-- Q_RESET (R361, R379). -/
def execQReset (q : Fin 64) (s : State) : Host.Outcome State Fault Refusal := .next (s.qReset q)

/-- HST_CLR_CNT (R379). -/
def execHstClrCnt (s : State) : Host.Outcome State Fault Refusal := .next s.hstClrCnt

/-- A write of HST_CMD. -/
def State.hstCmd (s : State) (code q : Nat) : State :=
  match code with
  | 1 => s.qStart q
  | 2 => s.qStop q
  | 3 => s.qReset q
  | 4 => s.hstClrCnt
  | _ => s.hstReject code

/-- A write of HST_Q_TAIL: denied where TAIL − HEAD would exceed SIZE (R358). -/
def State.qTail (s : State) (q w : Nat) : State :=
  if s.rd (Reg.HST_Q_SIZE q) < (w + 2 ^ 32 - s.rd (Reg.HST_Q_HEAD q)) % 2 ^ 32 then s.deny 0x009
  else s.wr (Reg.HST_Q_TAIL q) w

/-- Q_TAIL_WRITE (R358). -/
def execQTailWrite (q : Fin 64) (w : Word) (s : State) : Host.Outcome State Fault Refusal := .next (s.qTail q w.toNat)

/-- What a descriptor comes to: its cause (0 for OK), the bytes transferred, END and POISONED. -/
structure DescEnd where
  cause  : Nat
  done   : Nat
  last   : Bool
  poison : Bool
deriving DecidableEq, Repr

/-- The message of a queue (R359), within its interrupt moderation. -/
def State.qMessage (s : State) (q : Nat) : State :=
  if s.rd (Reg.HST_Q_IMOD q) = 0 ∨ !s.minorAtLeast 2 then s.msixSend (s.rd (Reg.HST_Q_CFG_VEC q))
  else if s.on (Hid.imodRun q) then s.wr (Hid.imodPend q) 1
  else (s.wr (Hid.imodRun q) 1).msixSend (s.rd (Reg.HST_Q_CFG_VEC q))

/-- A cause halts its queue (R360). -/
def haltsQueue (c : Nat) : Bool := c == 1 || c == 2 || c == 5 || c == 6

/-- A descriptor is completed in the order of R359: status, HEAD, write-back, message. -/
def State.descDone (s : State) (q : Nat) (irq : Bool) (e : DescEnd) : State :=
  let head := s.rd (Reg.HST_Q_HEAD q)
  let at_ := s.rd (Reg.HST_Q_RING q) + head % max 1 (s.rd (Reg.HST_Q_SIZE q)) * 32 + 24
  let st := (if e.cause = 0 then 1 else 2) + e.cause * 2 ^ 4 + b2n e.last * 2 ^ 8 + b2n e.poison * 2 ^ 9
  let s1 := (s.add (Reg.HST_Q_BYTES q) e.done).emit (.hostWrite at_ false false (leBytes 4 st ++ leBytes 4 e.done))
  let s2 := s1.add (Reg.HST_Q_HEAD q) 1
  let s3 := if s.on (Reg.HST_Q_CFG_WB_EN q) && s.minorAtLeast 1 then
      s2.emit (.hostWrite (4 * s.rd (Reg.HST_Q_WB q)) false false (leBytes 4 (s2.rd (Reg.HST_Q_HEAD q)))) else s2
  let s4 := if irq then s3.qMessage q else s3
  if haltsQueue e.cause then
    ((s4.wr (Reg.HST_Q_STAT_STATE q) 3).wr (Reg.HST_Q_STAT_CAUSE q) e.cause).hstEvt 1
  else s4.wrIf (s.rd (Reg.HST_Q_STAT_STATE q) == 2) (Reg.HST_Q_STAT_STATE q) 0

/-- Where the card range of a descriptor lies, as R357 permits it. -/
inductive Card where
  | bad | mem | dahlia | fabric (n : Nat)
deriving DecidableEq, Repr

def State.cardOf (s : State) (q : Req) (wr : Bool) (a n : Nat) : Card :=
  match s.rangeOfReq a n with
  | some .hbm | some (.bank _) => .mem
  | some .hub => if hubOneRegion a n && (!wr || hubWritable q a n) then .mem else .bad
  | some (.fabric m) => if a / 0x20000000 = (a + n - 1) / 0x20000000 then .fabric m else .bad
  | some .dahlia => if wr then .bad else .dahlia
  | _ => .bad

/-- Whole pcapng blocks that fit in `n` bytes, and the rest. -/
def takeBlocks : Nat → List (List Byte) → List Byte × List (List Byte)
  | _, [] => ([], [])
  | n, b :: r =>
    if b.length ≤ n then
      let (d, rest) := takeBlocks (n - b.length) r
      (b ++ d, rest)
    else ([], b :: r)

/-- A STREAM descriptor (R345, R359): it waits until its buffer is full or the job's last block is in it. -/
def State.descStream (s : State) (q host len : Nat) (irq : Bool) : State :=
  let blocks := Tab.getD s.streams q []
  let (d, rest) := takeBlocks len blocks
  let fin := rest.isEmpty && s.on (Hid.strFin q)
  if blocks.isEmpty || (rest.isEmpty && !fin) then s.answer .held []
  else
    let s1 := ({ s with streams := Tab.set s.streams q [] rest }).wrIf fin (Hid.strFin q) 0
    let s2 := (s1.add Hid.mstOut d.length).emit (.hostWrite host (s.on (Reg.HST_Q_CFG_RO q)) false d)
    s2.descDone q irq ⟨0, d.length, fin, false⟩

/-- A C2H descriptor: `data` is what a fabric window returned, none where its access failed. -/
def State.descC2h (s : State) (q host card len : Nat) (irq : Bool) (data : Option (List Byte)) : State :=
  let r := s.req .host (s.rd (Reg.HST_Q_CFG_KEY q))
  let out (t : State) (bs : List Byte) (bad : Bool) : State :=
    (t.emit (.hostWrite host (s.on (Reg.HST_Q_CFG_RO q)) bad bs)).descDone q irq
      ⟨if bad then 4 else 0, bs.length, false, bad⟩
  match s.cardOf r false card len with
  | .bad => s.descDone q irq ⟨1, 0, false, false⟩
  | c =>
    let u := some (s.rd (Reg.HST_Q_CFG_URG q))
    match c with
    | .mem =>
      match s.coReadU r u card len with
      | (_, .held, t) => t.answer .held []
      | (_, .err, t) => t.descDone q irq ⟨3, 0, false, false⟩
      | (bs, .ok, t) => out t bs false
      | (bs, .ue, t) => out t bs true
    | .dahlia =>
      match s.dahRead r u card len with
      | (bs, .ok, t) => out t bs false
      | (_, .held, t) => t.answer .held []
      | (_, _, t) => t.descDone q irq ⟨3, 0, false, false⟩
    | .fabric n =>
      match s.netFor r u false card len with
      | (.ok, t) =>
        if t.fpAccepts n then
          match data with
          | some bs => out (t.emit (.fabDma n (card % 0x20000000) false (bs.take len))) (bs.take len) false
          | none => t.descDone q irq ⟨3, 0, false, false⟩
        else t.descDone q irq ⟨3, 0, false, false⟩
      | (.held, t) => t.answer .held []
      | (_, t) => t.descDone q irq ⟨3, 0, false, false⟩
    | .bad => s

/-- An H2C descriptor: `data` is what the host's memory returned, none where its completion failed; `fabOk` says whether a
fabric window accepted the write. -/
def State.descH2c (s : State) (q card len : Nat) (irq : Bool) (data : Option (List Byte)) (fabOk : Bool) : State :=
  let r := s.req .host (s.rd (Reg.HST_Q_CFG_KEY q))
  match s.cardOf r true card len with
  | .bad => s.descDone q irq ⟨1, 0, false, false⟩
  | c =>
    match data with
    | none => s.descDone q irq ⟨2, 0, false, false⟩
    | some d =>
      match s.netFor r (some (s.rd (Reg.HST_Q_CFG_URG q))) true card len with
      | (.held, t) => t.answer .held []
      | (.ok, v) =>
        let bs := d.take len
        match c with
        | .fabric n =>
          if v.fpAccepts n && fabOk then
            (v.emit (.fabDma n (card % 0x20000000) true bs)).descDone q irq ⟨0, len, false, false⟩
          else v.descDone q irq ⟨3, 0, false, false⟩
        | _ =>
          match (v.snoopFor r true card len).2.memGate r card len with
          | (.held, t) => t.answer .held []
          | (.ok, t) =>
            match t.writeUnits r card (bs.map some) with
            | (.ok, u) => u.descDone q irq ⟨0, len, false, false⟩
            | (_, u) => u.descDone q irq ⟨4, len, false, false⟩
          | (_, t) => t.descDone q irq ⟨3, 0, false, false⟩
      | (_, t) => t.descDone q irq ⟨3, 0, false, false⟩

/-! ### The turns of the queues (R359) -/

/-- A queue is RUNNING or STOPPING with a descriptor pending. -/
def State.qOpen (s : State) (q : Nat) : Bool :=
  (s.rd (Reg.HST_Q_STAT_STATE q) == 1 || s.rd (Reg.HST_Q_STAT_STATE q) == 2)
    && s.rd (Reg.HST_Q_HEAD q) != s.rd (Reg.HST_Q_TAIL q)

/-- A queue takes its turn among the others: a STREAM queue once blocks for the least LEN, or the last of its job, wait for it. -/
def State.qTakes (s : State) (q : Nat) : Bool :=
  let bs := Tab.getD s.streams q []
  s.qOpen q && (s.rd (Reg.HST_Q_CFG_DIR q) != 2
    || (!bs.isEmpty && (s.on (Hid.strFin q) || decide (65536 ≤ (bs.map List.length).foldl (· + ·) 0))))

/-- How many turns after the queue served last a queue comes. -/
def State.qAfter (s : State) (q : Nat) : Nat := (q + 63 - s.rd Hid.qLast) % 64

/-- The turn is `q`'s: no other queue that takes one comes before it. -/
def State.qTurn (s : State) (q : Nat) : Bool :=
  (List.range 64).all (fun p => p == q || !s.qTakes p || decide (s.qAfter q < s.qAfter p))

/-- The next unit of a queue's descriptor of `len` bytes is served: whether it is the descriptor's last. While no other queue takes
a turn, its units follow one another to the last. -/
def State.qServe (s : State) (q len : Nat) : Bool × State :=
  let t := s.wr Hid.qLast q
  if (List.range 64).any (fun p => p != q && s.qTakes p) && decide (s.rd (Hid.qUnits q) + 1 < (len + 4095) / 4096) then
    (false, (t.wr (Hid.qUnits q) (s.rd (Hid.qUnits q) + 1)).answer .held [])
  else (true, t.wr (Hid.qUnits q) 0)

/-- The descriptor at HEAD of a queue, all but its last unit served. -/
def State.descGo (s : State) (q host card len : Nat) (irq : Bool) (data : Option (List Byte)) (fabOk : Bool) : State :=
  if s.rd (Reg.HST_Q_CFG_DIR q) = 2 then s.descStream q host len irq
  else if s.rd (Reg.HST_Q_CFG_DIR q) = 1 then s.descC2h q host card len irq data
  else s.descH2c q card len irq data fabOk

/-- A queue that runs while the link is lost halts with cause LINK; nothing reaches the host (R360). -/
def State.descLost (s : State) (q : Nat) : State :=
  ((((s.add (Reg.HST_Q_HEAD q) 1).wr (Hid.qUnits q) 0).wr (Reg.HST_Q_STAT_STATE q) 3).wr (Reg.HST_Q_STAT_CAUSE q) 5).hstEvt 1

/-- LEN, CTL or HOST_ADDR of a descriptor is out of range (R358, R360). -/
def descBad (dir host len ctl : Nat) : Bool :=
  decide (len < (if dir = 2 then 65536 else 1)) || decide (2 ^ 24 < len) || (dir == 2 && len % 4 != 0) || decide (2 ≤ ctl)
    || host % 4 != 0

/-- DESC_PROCESS (R357 to R361): a RUNNING or STOPPING queue processes the descriptor at HEAD, in its turn. `desc` is the descriptor
as read from the host's memory and `data` the bytes that the host (H2C) or a fabric window (C2H) returned; none where that
failed. `fabOk` says whether a fabric window accepted an H2C write. -/
def execDescProcess (q : Fin 64) (desc : Option (BitVec 256)) (data : Option (List Byte)) (fabOk : Bool) (s : State) :
    Host.Outcome State Fault Refusal :=
  .next (if !s.qOpen q then s
    else if !s.on Reg.HST_STAT_LINK_UP then s.descLost q
    else if !s.qTurn q then s.answer .held []
    else
      match desc with
      | none => (s.wr Hid.qLast q).descDone q false ⟨2, 0, false, false⟩
      | some d =>
        let x := d.toNat
        let host := bits x 63 0
        let card := bits x 109 64
        let len := bits x 159 128
        let ctl := bits x 191 160
        if descBad (s.rd (Reg.HST_Q_CFG_DIR q)) host len ctl then
          (s.wr Hid.qLast q).descDone q (bit ctl 0) ⟨6, 0, false, false⟩
        else
          match s.qServe q len with
          | (false, t) => t
          | (true, t) => t.descGo q host card len (bit ctl 0) data fabOk)

/-- IMOD_EXPIRE (R359): a moderation period ends; the completions in it send one message, which starts the next. -/
def execImodExpire (q : Fin 64) (s : State) : Host.Outcome State Fault Refusal :=
  .next (if !s.on (Hid.imodRun q) then s
    else if s.on (Hid.imodPend q) then (s.wr (Hid.imodPend q) 0).msixSend (s.rd (Reg.HST_Q_CFG_VEC q))
    else s.wr (Hid.imodRun q) 0)

/-! ### MSI-X table (R354) -/

/-- A write of a DWORD of an MSI-X table entry; unmasking a vector that is pending sends its message. -/
def State.msixTableWrite (s : State) (v d w : Nat) : State :=
  if d = 0 then s.wr (Hid.msixAddr v) (s.rd (Hid.msixAddr v) / 2 ^ 32 * 2 ^ 32 + w)
  else if d = 1 then s.wr (Hid.msixAddr v) (s.rd (Hid.msixAddr v) % 2 ^ 32 + w * 2 ^ 32)
  else if d = 2 then s.wr (Hid.msixData v) w
  else (s.wr (Hid.msixMask v) (w % 2)).msixRelease

/-- A read of a DWORD of BAR4. -/
def State.msixRead (s : State) (x : Nat) : Nat :=
  if x < 2048 then
    let v := x / 4
    if x % 4 = 0 then s.rd (Hid.msixAddr v) % 2 ^ 32
    else if x % 4 = 1 then s.rd (Hid.msixAddr v) / 2 ^ 32
    else if x % 4 = 2 then s.rd (Hid.msixData v)
    else s.rd (Hid.msixMask v)
  else if x < 2064 then (List.range 32).foldl (fun a j => a + s.rd (Hid.msixPba (32 * (x - 2048) + j)) * 2 ^ j) 0
  else 0

/-- MSIX_TABLE_ACCESS (R354): the host reads or writes DWORD `x` of BAR4. The pending bit array is read only. -/
def execMsixTableAccess (x : Fin 4096) (wr : Option Word) (s : State) : Host.Outcome State Fault Refusal :=
  .next (match wr with
    | none => s.answer .ok (leBytes 4 (s.msixRead x))
    | some w => (if x.val < 2048 then s.msixTableWrite (x / 4) (x % 4) w.toNat else s).answer .ok [])

end Sys2Proof.Machine
end

