-- ==== Sys2Proof/Machine/Bus.lean ====
section
/-! DEFINITION. Register space (R7, R8, R552 to R559, R577): the windows, the pairs, what each register's access does beyond the
rules of its fields, and the aliases. -/

namespace Sys2Proof.Machine

/-! ### Masters and places -/

/-- The number of a master: 0 host, 1 debug, 2 + c a core, 6 + n an island's fabric, 86 SYS for the aliases. -/
def masterCode : Master → Nat
  | .host => 0
  | .debug => 1
  | .core c => 2 + c
  | .fabric n => 6 + n
  | .fanout => 86

/-- The NI of a master (R298). -/
def masterNi : Master → Nat
  | .host => 94
  | .debug => 91
  | .core _ => 93
  | .fabric n => n
  | .fanout => 89

/-- The transaction ID of a master's accesses: a core's number. -/
def masterTid : Master → Nat
  | .core c => c
  | _ => 0

/-- The requester that a master is (R443). -/
def masterReq : Master → Requester
  | .host => .host
  | .debug => .debug
  | .core _ => .miller
  | .fabric n => .fabric n
  | .fanout => .sys

/-- The first address of register space. -/
def regBase : Nat := 0x3000000000

/-! ### Reading -/

/-- The node counter, leaf counter or word of flow status at an offset of the MAR windows, a pair's by its _LO half; none
where the read waits for publication (R130, R131). -/
def State.marWindow (s : State) (off : Nat) : Option (Nat × State) :=
  if off < 0x10000 + 0x80 * 273 then s.nodeRead ((off - 0x10000) / 0x80) (off % 0x80 / 8) false
  else if 0x20000 ≤ off ∧ off < 0x40000 then
    let bs := (s.flowStatus ((off - 0x20000) / 0x20)).drop (off % 0x20)
    some (ofLeBytes (bs.take (if off % 0x20 < 8 then 4 else 8)), s)
  else if 0x80000 ≤ off then some (s.leafAt ((off - 0x80000) / 0x80) (off % 0x80 / 8), s)
  else some (0, s)

/-- An offset of the MAR windows is half of a pair. -/
def marPair (off : Nat) : Bool :=
  (decide (0x10000 ≤ off) && decide (off < 0x10000 + 0x80 * 273)) || decide (0x80000 ≤ off)
    || (decide (0x20000 ≤ off) && decide (off < 0x40000) && decide (8 ≤ off % 0x20))

/-- An access to half of a pair: none at an offset that no pair names, otherwise whether it is the _HI half (R8). -/
def pairHalf (blk off : Nat) : Option Bool :=
  if blk = 0x017 ∧ 0x10000 ≤ off then (if marPair off then some (off % 8 == 4) else none)
  else match blockRows blk with
    | none => none
    | some (_, rows) =>
      match findRow rows off with
      | some (r, _, hi) => if r.pair then some hi else none
      | none => none

/-- CFG_PINS as it reads: DONE and INIT_N are open while the boundary-scan chain drives their pins (R532). -/
def State.pinsRead (s : State) (v : Nat) : Nat × State :=
  if s.scanHolds then (v / 2 ^ 11 * 2 ^ 11 + s.fresh.1 % 4 * 2 ^ 9 + v % 2 ^ 9, s.fresh.2) else (v, s)

/-- The value of a register as its row gives it, whatever the form of its access, and what a read without the peek attribute
does beyond clearing: `off` is its offset, that of _LO for a pair. -/
def State.regValue (s : State) (peek : Bool) (blk off b : Nat) (r : Row) (ix : List Nat) : Nat × State :=
  let i := ixAt ix 0
  let j := ixAt ix 1
  let plain := s.readRow blk off b r ix
  match r.hnd with
  | .lnCal => (s.rd (Reg.PRB_LN_CAL_CAL_COUNT b i) * 2 ^ 16 + s.lnCalAge b i, s)
  | .rlnCal => (s.rd (Reg.RLK_LN_CAL_CAL_COUNT i j) * 2 ^ 16 + min 65535 ((s.now - s.rd (Hid.rlkCalAt i j)) / 4000000), s)
  | .minSvn => (plain % 2 ^ 16 + s.minSvn * 2 ^ 16, s)
  | .uartData => s.uartRead i peek
  | .mbRecv => s.mbRecv i peek
  | .evtClaim => s.evtClaim i j peek
  | .peoFuse => (s.peoFuse i, s)
  | .calOldest => (s.calOldest i, s)
  | .cfgDesign => (s.cfgDesign i, s)
  | .regData => s.regData i
  | .muStage | .muCommit =>
    let t := s.muCheck b i j (ixAt ix 2)
    (t.readRow blk off b r ix, t)
  | .slcCtrl => (if (across b i).isNone then 0 else plain, s)
  | _ =>
    if blk = 0x007 ∧ r.off = 0x110 then
      let t := s.corePc i
      (t.readRow blk off b r ix, t)
    else if 0x040 ≤ blk ∧ blk < 0x090 ∧ r.off = 0x314 then (s.mrStat (blk - 0x040), s)
    else if 0x030 ≤ blk ∧ blk < 0x040 ∧ r.off = 0x50 then (2 ^ 16 * (s.writeQueue (blk - 0x030)).length, s)
    else if blk = 0x002 ∧ r.off = 0x50 then s.pinsRead plain
    else (plain, s)

/-- What a read of _HI alone clears of a pair of access type rc: the part above bit 31 (R8). -/
def State.clearHi (s : State) (blk off b : Nat) (r : Row) (ix : List Nat) : State :=
  (r.flds b ix).foldl (fun t f =>
    if f.acc == .rc then t.wr (f.cell blk off) (t.rd (f.cell blk off) % 2 ^ (32 - min 32 f.lo)) else t) s

/-- A read of the _HI half that returns the shadow of its master, if one is pending (R8). -/
def State.takeShadow (s : State) (m : Master) (blk off : Nat) : Option (Nat × State) :=
  let k := pairKey (masterCode m) blk off
  (Tab.find s.hiShadow k).map (fun v => (v, { s with hiShadow := Tab.del s.hiShadow k }))

/-- A read of the _LO half captures _HI (R8). -/
def State.capture (s : State) (m : Master) (blk off v : Nat) : State :=
  { s with hiShadow := Tab.put s.hiShadow (pairKey (masterCode m) blk off) v }

/-- A read of the word at an offset of a listed block (R5, R8, R9, R539, R555): its value, whether it is answered or held, and
the state after it. -/
def State.regRead (s : State) (m : Master) (peek : Bool) (blk off : Nat) : Nat × MRes × State :=
  if off = 0 then (0x100, .ok, s)
  else if blk = 0x017 ∧ 0x10000 ≤ off then
    let base := if marPair off then off / 8 * 8 else off
    match (if off = base then none else s.takeShadow m blk base) with
    | some (v, t) => (v, .ok, t)
    | none =>
      match s.marWindow base with
      | none => (0, .held, s)
      | some (v, t) =>
        if off ≠ base then (v / 2 ^ 32, .ok, t)
        else (v % 2 ^ 32, .ok, if marPair off then t.capture m blk base (v / 2 ^ 32) else t)
  else match blockRows blk with
    | none => (0, .err, s)
    | some (b, rows) =>
      match findRow rows off with
      | none => (0, .ok, s)
      | some (r, ix, hi) =>
        let base := if hi then off - 4 else off
        match (if hi then s.takeShadow m blk base else none) with
        | some (v, t) => (v, .ok, t)
        | none =>
          let (v, t) := s.regValue peek blk base b r ix
          if hi then (v / 2 ^ 32, .ok, if peek then t else t.clearHi blk base b r ix)
          else
            let t1 := if peek then t else t.clearRc blk base b r ix
            (v % 2 ^ 32, .ok, if r.pair then t1.capture m blk base (v / 2 ^ 32) else t1)

/-! ### Writing -/

/-- A write of a register that no handler takes: the rules of its fields, and what follows from the new values. -/
def State.plainWrite (s : State) (blk off b : Nat) (r : Row) (ix : List Nat) (w : Nat) : State :=
  let t := s.writeRow blk off b r ix w
  if blk = 0x001 then t.milLevels
  else if blk = 0x00B then ((t.uartKick 0).uartKick 1).milLevels
  else if blk = 0x007 then
    (if r.off = 0x118 then t.regSelDone (ixAt ix 0) else if r.off = 0x008 then t.supPause.attached else t)
  else t

/-- A write of a whole register by a master, the word of a pair having 64 bits. -/
def State.regStore (s : State) (m : Master) (blk off b : Nat) (r : Row) (ix : List Nat) (w : Nat) : State :=
  let i := ixAt ix 0
  let j := ixAt ix 1
  let k := ixAt ix 2
  let code := w % 256
  match r.hnd with
  | .plain | .calOldest | .cfgDesign | .evtClaim | .lnCal | .mbRecv | .minSvn | .peoFuse | .rlnCal => s.plainWrite blk off b r ix w
  | .astChCfg => s.astChCfg i w
  | .astCmd => s.astCmd code (bits w 12 8)
  | .astMethod => s.astMethod w
  | .astPwrLimit => s.astPwrLimit w
  | .astStaging => s.astStaging w
  | .astThresh => s.astThresh i w
  | .bstCmd => s.bstCmd w
  | .calCmd => s.calCmd w
  | .cfgCmd => s.cfgCmd w
  | .cfgCtrl => s.cfgCtrl w
  | .cfgFifo => s.cfgFifo w
  | .clkRefCfg => s.clkRefCfg w
  | .dahCmd => s.dahCmd w
  | .dbgCmd => s.dbgCmd w
  | .drvHello => s.drvHello w
  | .evtRouteA => s.evtRouteA i w
  | .evtUser => s.evtUser (w % 32)
  | .hbmCmd => s.hbmCmd code (bits w 13 8)
  | .hbmCtrl => s.hbmCtrlWrite w
  | .hopCmd => s.hopCmd code (bits w 11 8)
  | .hopPortCfg => s.hopPortCfgWrite i w
  | .hstCmd => s.hstCmd code (bits w 21 16)
  | .islClkCfg => s.clkCfg b (r.off == 0x104) w
  | .islClkReq => s.clkReq b (w % 4)
  | .islCmd => s.islCmd [b] code (bits w 10 8)
  | .islPwr => s.pwrWrite b (w % 2)
  | .lanCmd => s.lanCmd code (bits w 12 8)
  | .marCmd => s.marCmd code (bits w 27 16)
  | .mbSend => s.mbSend i w
  | .milCmd => s.milCmd code (bits w 9 8) (bits w 19 16)
  | .mstCmd => s.mstCmd code
  | .mstRingWr => s.mstRingWr i w
  | .muCommit => s.muCommit b i j k w
  | .muCtrl => s.muCtrl b i j k w
  | .muStage => s.muStage b i j k (r.off % 16 / 4) w
  | .nocCmd => s.nocCmd code (bits w 22 16)
  | .peoCmd => s.peoCmd m code
  | .prbBind => s.prbBindWrite b w
  | .prbCmd => s.prbCmd b code
  | .prbCtrl => s.prbCtrlWrite b w
  | .qTail => s.qTail i w
  | .regData => s.regDataWrite i w
  | .rlkCmd => s.rlkCmd code (bits w 8 8)
  | .rlkCtrl => s.rlkCtrlWrite i w
  | .rtCtl => s.routeUpdate i j w
  | .rtRoute => ((s.wr (Hid.rtStgDir i j) w).wr (Hid.rtStgHops i j) (bits w 52 48)).wr (Hid.rtStgSet i j) 1
  | .runCmd => s.runCmd code (bits w 9 8)
  | .scbCmd => s.scbCmd w
  | .semForce => s.semForce m i
  | .semGive => s.semGive m i
  | .semTake => s.semTake m i
  | .slcCtrl => s.slcCtrl b i w
  | .srbCmd => s.srbCmd b code (bits w 27 16)
  | .srbCtrl => s.srbCtrl b w
  | .srmCmd => s.srmCmd code
  | .supCfg => s.supCfg w
  | .supKick => s.supKick w
  | .sysCmd => s.sysCmd w
  | .telCmd => s.telCmd w
  | .tsbCmd => s.tsbCmd code
  | .tsbCtrl => s.tsbCtrlWrite w
  | .uartCfg => ((s.writeRow blk off b r ix w).uartKick i).milLevels
  | .uartData => s.uartWrite i w
  | .wdgCfg => s.wdgCfgDone (s.writeRow blk off b r ix w) i
  | .wdgKick => s.wdgKick i w

/-- The value of a register's cells, whatever its access type. -/
def State.rawRow (s : State) (blk off b : Nat) (r : Row) (ix : List Nat) : Nat :=
  (r.flds b ix).foldl (fun a f => a + s.rd (f.cell blk off) * 2 ^ f.lo) 0

/-- The low half that stays where _HI is written alone (R8): what the register holds, which for the selected register of a halted
core is that register, and for a route held until its commit the held one. -/
def State.lowHalf (s : State) (blk off b : Nat) (r : Row) (ix : List Nat) : Nat × State :=
  match r.hnd with
  | .regData => ((s.regData (ixAt ix 0)).1 % 2 ^ 32, (s.regData (ixAt ix 0)).2)
  | .rtRoute => ((if s.on (Hid.rtStgSet (ixAt ix 0) (ixAt ix 1)) then s.rd (Hid.rtStgDir (ixAt ix 0) (ixAt ix 1))
      else s.rawRow blk off b r ix) % 2 ^ 32, s)
  | _ => (s.rawRow blk off b r ix % 2 ^ 32, s)

/-! ### Who may reach DBG registers (R536, R552) -/

/-- The least level at which the debug port reads an offset of the DBG block (R536). -/
def dbgReadLevel (off : Nat) : Nat :=
  if off = 0 ∨ off = 4 ∨ off = 0x0C ∨ off = 0x24 ∨ (0x80 ≤ off ∧ off < 0xC0) ∨ (0x1000 ≤ off ∧ off < 0x1584) then 0
  else if off = 0x10 ∨ off = 0x14 ∨ off = 0x1C ∨ off = 0x20 ∨ off = 0x28
      ∨ (0x110 ≤ off ∧ off < 0x200 ∧ (off % 0x40 = 0x10 ∨ off % 0x40 = 0x14)) then 1
  else 2

/-- The least level at which the debug port writes an offset of the DBG block (R536). -/
def dbgWriteLevel (off : Nat) : Nat :=
  if off = 0 ∨ off = 4 ∨ off = 0x0C ∨ off = 0x1C ∨ (0x1000 ≤ off ∧ off < 0x1584) then 0
  else if off = 0x10 ∨ off = 0x28 then 1
  else 2

/-- An access of the debug port to an address is permitted at the level in force (R536). -/
def State.dbgMay (s : State) (wr : Bool) (a : Nat) : Bool :=
  let x := a - regBase
  let need :=
    if regBase ≤ a ∧ x < 0x10000000 ∧ x / 2 ^ 20 = 7 then (if wr then dbgWriteLevel (x % 2 ^ 20) else dbgReadLevel (x % 2 ^ 20))
    else if a = regBase + 0x10 ∧ !wr then 0
    else if wr then 2 else 1
  decide (need ≤ s.rd Reg.DBG_STAT_LEVEL)

/-- A write of a DBG register is one that its master may make, at the level in force (R552). -/
def State.dbgWritable (s : State) (m : Master) (off : Nat) : Bool :=
  if off = 0x18 ∨ off = 0x1C ∨ off = 0x28 then m != .debug || decide (dbgWriteLevel off ≤ s.rd Reg.DBG_STAT_LEVEL)
  else m == .debug && decide (dbgWriteLevel off ≤ s.rd Reg.DBG_STAT_LEVEL)

/-- DBG_ACC below FULL: KEY and URG take the write, CONSUME = 1 is denied (R536, R552). -/
def State.dbgAccWord (s : State) (blk off w : Nat) : Nat × State :=
  if blk = 0x007 ∧ off = 0x10 ∧ !s.full ∧ bit w 8 then (w - 256, s.deny 0x007) else (w, s)

/-- A write of the word at an offset of a listed block (R8, R23, R552, R555). -/
def State.regWrite (s : State) (m : Master) (blk off w0 : Nat) : State :=
  if blk = 0x007 ∧ !s.dbgWritable m off then s.deny 0x007
  else
    let (w, s) := s.dbgAccWord blk off w0
    match blockRows blk with
    | none => s
    | some (b, rows) =>
      match findRow rows off with
      | none => s
      | some (r, ix, hi) =>
        let base := if hi then off - 4 else off
        let k := pairKey (masterCode m) blk base
        if !r.pair then s.regStore m blk off b r ix w
        else if !hi then { s with loHeld := Tab.put s.loHeld k w }
        else
          match Tab.find s.loHeld k with
          | some lo => { s with loHeld := Tab.del s.loHeld k }.regStore m blk base b r ix (lo + w * 2 ^ 32)
          | none =>
            let lo := s.lowHalf blk base b r ix
            lo.2.regStore m blk base b r ix (lo.1 + w * 2 ^ 32)

/-! ### The path of an access -/

/-- A block answers an access (R7, R230, R432, R555): `x` is the offset in register space. -/
def State.blockAnswers (s : State) (x : Nat) : Bool :=
  let blk := x / 2 ^ 20
  x % 4 == 0 && decide (x < 0x10000000) && (blockRows blk).isSome
    && (decide (4 ≤ s.rd Reg.SYS_BOOT_STAT_PHASE) || blk == 0x007 || x == 0x10)
    && !((blk == 0x002 || blk == 0x003 || blk == 0x00C) && s.rd (bunMode .svc) == 2)
    && !(blk == 0x004 && s.rd (bunMode .peo) == 2)

/-- The debug port reaches an offset over its direct path (R529). -/
def dbgDirect (m : Master) (x : Nat) : Bool := m == .debug && (x / 2 ^ 20 == 7 || x == 0x10)

/-- The way of an access from a master's NI to register space: open, held, or ended in a bus error; a request that a
protected range refuses is recorded (R304, R460). -/
def State.busPath (s : State) (m : Master) (wr : Bool) (x : Nat) : MRes × State :=
  if dbgDirect m x then (.ok, s)
  else
    let q := s.req (masterReq m) (if m = .debug then s.rd Reg.DBG_ACC_KEY else 0)
    if m = .debug ∧ !s.keyAllowed q then (.err, s.alarm Reg.PEO_ALARM_KEY)
    else if s.protHit q wr (regBase + x) 4 then (.err, s.logProt q (regBase + x))
    else s.netPass q (if m = .debug then some (s.rd Reg.DBG_ACC_URG) else none) (b2n wr) (masterTid m) (regBase + x) 4

/-! ### Aliases (R556 to R559) -/

/-- Members of a class: 0 ISL, 1 SRB, 2 PC, 3 LANE. -/
def classSize (c : Nat) : Nat := [80, 80, 16, 64].getD c 0

/-- The offset in unicast space of an offset of member `i` of a class. -/
def memberAddr (c i off : Nat) : Nat :=
  if c = 0 then (0x040 + i) * 2 ^ 20 + off
  else if c = 1 then (0x0A0 + i) * 2 ^ 20 + off
  else if c = 2 then (0x030 + i) * 2 ^ 20 + off
  else (0x010 + i / 16) * 2 ^ 20 + i % 16 * 0x1000 + off

/-- An offset of a lane page that the LANE class reaches. -/
def laneOff (off : Nat) : Bool := decide (0x800 ≤ off) && decide (off < 0x900)

/-- Membership of a group (R557). -/
def State.groupBits (s : State) (c g : Nat) : Nat :=
  if c = 0 then s.rd (Reg.SYS_GRP_ISL0 g) + 2 ^ 32 * s.rd (Reg.SYS_GRP_ISL1 g) + 2 ^ 64 * s.rd (Reg.SYS_GRP_ISL2 g)
  else if c = 1 then s.rd (Reg.SYS_GRP_SRB0 g) + 2 ^ 32 * s.rd (Reg.SYS_GRP_SRB1 g) + 2 ^ 64 * s.rd (Reg.SYS_GRP_SRB2 g)
  else if c = 2 then s.rd (Reg.SYS_GRP_PC g)
  else s.rd (Reg.SYS_GRP_LANE g)

/-- What an alias address names: the class, the members in ascending order and the offset; none where it ends in a bus
error (R556, R557). -/
def State.aliasOf (s : State) (x : Nat) : Option (Nat × List Nat × Nat) :=
  if x % 4 ≠ 0 then none
  else if 0x10000000 ≤ x ∧ x < 0x20000000 then
    let blk := x / 2 ^ 20 - 0x100
    let off := x % 2 ^ 20
    if 0x040 ≤ blk ∧ blk < 0x090 then some (0, List.range 80, off)
    else if 0x0A0 ≤ blk ∧ blk < 0x0F0 then some (1, List.range 80, off)
    else if 0x030 ≤ blk ∧ blk < 0x040 then some (2, List.range 16, off)
    else if 0x010 ≤ blk ∧ blk < 0x014 ∧ off < 0x10000 ∧ laneOff (off % 0x1000) then some (3, List.range 64, off % 0x1000)
    else none
  else if 0x20000000 ≤ x ∧ x < 0x24000000 then
    let c := x / 2 ^ 24 % 4
    let off := x % 2 ^ 20
    if c = 3 ∧ !laneOff off then none
    else some (c, setBits (classSize c) (s.groupBits c (x / 2 ^ 20 % 16)), off)
  else none

/-- A posted write of SYS to the NI that serves an address is still to be applied, so that none may follow it (R309). -/
def State.sysBehind (s : State) (a : Nat) : Bool :=
  s.packets.any (fun p => p.src == 89 && p.op == 2 && decide (p.phase < 2) && s.targetOf p.addr == s.targetOf a)

/-- The members of a class whose requests SYS brings to their NIs and back (R299), in order, each a posted write (`op` 2) or a read;
none where one of them is held. One that its NI refuses ends in an error and reaches no register. -/
def State.fanOut (s : State) (op c off : Nat) : List Nat → Option (List Nat × State)
  | [] => some ([], s)
  | i :: r =>
    let a := regBase + memberAddr c i off
    if op = 2 ∧ s.sysBehind a = true then none
    else
      match s.passPiece 89 op 0 (s.rd (Reg.NOC_NI_CFG_URG 89)) 0 a 4 with
      | (.ok, t) => (t.fanOut op c off r).map (fun x => (i :: x.1, x.2))
      | (.held, _) => none
      | _ => s.fanOut op c off r

/-- An alias write (R558): one write to each member, in order; a SWITCH forms one set of the members (R174). It waits as a whole
while the write of a member is held. -/
def State.aliasWrite (s : State) (x w : Nat) : State :=
  match s.aliasOf x with
  | none => s.answer .err []
  | some (c, ms, off) =>
    if ms.isEmpty then (s.answer .ok []).wr Reg.SYS_ALIAS_STAT_EMPTY 1
    else
      match s.fanOut 2 c off ms with
      | none => s.answer .held []
      | some (l, t0) =>
        let t := t0.answer .ok []
        if c = 0 ∧ off = 0x00C then (if l.isEmpty then t else t.islCmd l (w % 256) (bits w 10 8))
        else State.each l (fun i t =>
          let u := memberAddr c i off
          t.regWrite .fanout (u / 2 ^ 20) (u % 2 ^ 20) w) t

/-- The values that an alias read finds, in member order. -/
def State.aliasValues (s : State) (c off : Nat) : List Nat → List Nat × State
  | [] => ([], s)
  | i :: r =>
    let u := memberAddr c i off
    let a := s.regRead .fanout true (u / 2 ^ 20) (u % 2 ^ 20)
    let b := State.aliasValues a.2.2 c off r
    (a.1 :: b.1, b.2)

/-- An alias read (R559): the lowest member's value; DIFFER and FIRST_DIFF where a member's value differs from it. It waits while
the read of a member is held, and ends in a bus error where that of the lowest member does; another member whose read ends so has
no value. -/
def State.aliasRead (s : State) (x : Nat) : State :=
  match s.aliasOf x with
  | none => s.answer .err []
  | some (c, ms, off) =>
    if ms.isEmpty then
      ((s.wr Reg.SYS_ALIAS_STAT_CLASS c).wr Reg.SYS_ALIAS_STAT_EMPTY 1).answer .ok (leBytes 4 0)
    else match s.fanOut 0 c off ms with
    | none => s.answer .held []
    | some (l, t0) =>
      let s0 := t0.wr Reg.SYS_ALIAS_STAT_CLASS c
      let (vs, s1) := s0.aliasValues c off l
      let v := vs.headD 0
      let s2 := match (l.zip vs).find? (fun p => p.2 != v) with
        | some p => (s1.wr Reg.SYS_ALIAS_STAT_DIFFER 1).wr Reg.SYS_ALIAS_STAT_FIRST_DIFF p.1
        | none => s1
      if l.headD 80 = ms.headD 80 then s2.answer .ok (leBytes 4 v) else s2.answer .err []

/-! ### Register space -/

/-- The peek attribute of a master's next access outside the DBG block, and the state in which it has been used (R539). -/
def State.takePeek (s : State) (m : Master) (x : Nat) : Bool × State :=
  if m != .debug then (false, s)
  else if x / 2 ^ 20 = 7 then (true, s)
  else (!s.on Reg.DBG_ACC_CONSUME, s.wr Reg.DBG_ACC_CONSUME 0)

/-- A write that has reached register space, at `x` bytes from its start (R554). -/
def State.spaceWrite (s : State) (m : Master) (x w : Nat) : State :=
  if 0x10000000 ≤ x then (if s.blockAnswers 0 then s.aliasWrite x w else s.answer .err [])
  else if s.blockAnswers x then (s.answer .ok []).regWrite m (x / 2 ^ 20) (x % 2 ^ 20) w
  else s.answer .err []

/-- A read that has reached register space. -/
def State.spaceRead (s : State) (m : Master) (peek : Bool) (x : Nat) : State :=
  if 0x10000000 ≤ x then (if s.blockAnswers 0 then s.aliasRead x else s.answer .err [])
  else if s.blockAnswers x then
    let r := s.regRead m peek (x / 2 ^ 20) (x % 2 ^ 20)
    r.2.2.answer r.2.1 (if r.2.1 = .ok then leBytes 4 r.1 else [])
  else s.answer .err []

/-- A 32-bit write that its master has issued (R7, R554). -/
def State.sendWrite (s : State) (m : Master) (x w : Nat) : State :=
  match (s.takePeek m x).2.busPath m true x with
  | (.ok, t) => t.spaceWrite m x w
  | (r, t) => t.answer r []

/-- A 32-bit read that its master has issued. -/
def State.sendRead (s : State) (m : Master) (x : Nat) : State :=
  let p := s.takePeek m x
  match p.2.busPath m false x with
  | (.ok, t) => t.spaceRead m p.1 x
  | (r, t) => t.answer r []

/-- A 32-bit write by a master; the debug port issues none that its level does not permit (R536), but a DBG register judges
one itself (R552). -/
def State.busWrite (s : State) (m : Master) (x w : Nat) : State :=
  if m = .debug ∧ !s.dbgMay true (regBase + x) ∧ x / 2 ^ 20 ≠ 7 then s.answer .err [] else s.sendWrite m x w

/-- A 32-bit read by a master. -/
def State.busRead (s : State) (m : Master) (x : Nat) : State :=
  if m = .debug ∧ !s.dbgMay false (regBase + x) then s.answer .err [] else s.sendRead m x

/-- A register address whose access is to the given half of a pair. -/
def isHalf (x : Nat) (hi : Bool) : Bool :=
  x % 4 == 0 && decide (x < 0x10000000) && pairHalf (x / 2 ^ 20) (x % 2 ^ 20) == some hi

/-- REGISTER_WRITE (R5, R7, R8, R23, R555, R575): a master writes a word of register space. -/
def execRegisterWrite (m : Master) (x : BitVec 30) (w : Word) (s : State) : Host.Outcome State Fault Refusal :=
  .next (s.busWrite m x.toNat w.toNat)

/-- LO_READ (R8). -/
def execLoRead (m : Master) (x : BitVec 30) (s : State) : Host.Outcome State Fault Refusal :=
  .next (if isHalf x.toNat false then s.busRead m x.toNat else s)

/-- HI_READ (R8). -/
def execHiRead (m : Master) (x : BitVec 30) (s : State) : Host.Outcome State Fault Refusal :=
  .next (if isHalf x.toNat true then s.busRead m x.toNat else s)

/-- LO_WRITE (R8). -/
def execLoWrite (m : Master) (x : BitVec 30) (w : Word) (s : State) : Host.Outcome State Fault Refusal :=
  .next (if isHalf x.toNat false then s.busWrite m x.toNat w.toNat else s)

/-- HI_WRITE (R8). -/
def execHiWrite (m : Master) (x : BitVec 30) (w : Word) (s : State) : Host.Outcome State Fault Refusal :=
  .next (if isHalf x.toNat true then s.busWrite m x.toNat w.toNat else s)

/-- ALIAS_WRITE (R556 to R558): a write to a broadcast or group address. -/
def execAliasWrite (m : Master) (x : BitVec 30) (w : Word) (s : State) : Host.Outcome State Fault Refusal :=
  .next (if 0x10000000 ≤ x.toNat then s.busWrite m x.toNat w.toNat else s)

/-- ALIAS_READ (R556, R557, R559). -/
def execAliasRead (m : Master) (x : BitVec 30) (s : State) : Host.Outcome State Fault Refusal :=
  .next (if 0x10000000 ≤ x.toNat then s.busRead m x.toNat else s)

end Sys2Proof.Machine
end

