-- ==== Sys2Proof/Machine/Serve.lean ====
section
/-! DEFINITION. Requests served at their targets: those of the network (R302, R303), of the host through its BARs (R352, R354,
R355), and of the debug transport (R533, R534, R536). -/

namespace Sys2Proof.Machine

/-! ### Delivery on the network (R302, R303, R309, R316) -/

/-- The destination NI of a request: that of its entry while it is held at its source. -/
def State.pktDst (s : State) (p : Pkt) : Nat :=
  if p.phase ≠ 0 then p.dst
  else if s.on (Reg.NOC_RT_CTL_PENDING p.src p.entry) then bits (s.rd (Hid.rtPend p.src p.entry)) 60 54
  else s.rd (Reg.NOC_RT_CTL_DST p.src p.entry)

/-- The slave side of a fabric port has taken the request and has not answered. -/
def State.presented (s : State) (p : Pkt) : Bool := s.slvReqs.any (fun e => e.2.any (fun r => r.pkt == some p.id))

/-- An earlier posted write of the same source and destination is still to be applied (R309). -/
def State.postedBefore (s : State) (p : Pkt) : Bool :=
  p.op == 2 && s.packets.any (fun q =>
    q.op == 2 && q.src == p.src && decide (q.id < p.id) && decide (q.phase < 2) && s.pktDst q == p.dst && !s.presented q)

/-- The master that a request comes from, for a register: a core by its transaction ID (R163, R298). -/
def pktMaster (p : Pkt) : Master :=
  if p.src = 93 then .core (Fin.ofNat 4 p.tid)
  else if p.src < 80 then .fabric (Fin.ofNat 80 p.src)
  else if p.src = 94 then .host
  else if p.src = 91 then .debug
  else .fanout

/-- The bytes of a write, where every byte enable is set. -/
def allBytes (l : List (Option Byte)) : Option (List Byte) := if l.all (fun b => b.isSome) then some (l.filterMap id) else none

/-- A memory request at its target: the answer, ERR and the bytes read. An uncorrectable word ends it in BUS_ERROR (R247). -/
def State.serveMem (s : State) (p : Pkt) : MRes × List Byte × State :=
  let q := s.req (niMaster p.src) p.key
  let n := p.bytes.length
  match s.memGate q p.addr n with
  | (.ok, g) =>
    let t := if networked q && s.coherent p.addr n then g.snoop (p.op != 0) p.addr n else g
    if p.op = 0 ∧ networked q = true ∧ s.coherent p.addr n = true ∧ t.dirtyIn p.addr n = true then (.held, [], t)
    else if p.op = 0 then
      match t.readUnits q p.addr n with
      | (bs, .ok, u) => (.ok, bs, u)
      | (_, _, u) => (.err, [], u)
    else if s.rangeOfReq p.addr n = some .hub ∧ hubWritable q p.addr n = false then (.err, [], t)
    else
      let r := t.writeUnits q p.addr p.bytes
      (r.1, [], r.2)
  | (r, t) => (r, [], t)

/-- A register request at its target (R7): one whole, naturally aligned word. -/
def State.serveReg (s : State) (p : Pkt) : MRes × List Byte × State :=
  let m := pktMaster p
  let x := p.addr - regBase
  let keep := s.last
  if p.bytes.length ≠ 4 ∨ p.addr % 4 ≠ 0 then (.err, [], s)
  else if p.op = 0 then
    let k := s.takePeek m x
    let t := k.2.spaceRead m k.1 x
    (t.last.res, t.last.data, { t with last := keep })
  else match allBytes p.bytes with
    | none => (.err, [], s)
    | some d =>
      let t := (s.takePeek m x).2.spaceWrite m x (ofLeBytes d)
      (t.last.res, [], { t with last := keep })

/-- A request at a fabric window (R165, R316). -/
def State.serveFab (s : State) (p : Pkt) (n : Nat) : Option Nat × State :=
  if p.addr / 0x20000000 ≠ (p.addr + p.bytes.length - 1) / 0x20000000 then (some 1, s)
  else
    let r := s.slvTake n (p.addr % 0x20000000) (p.op != 0) p.bytes (some p.id)
    match r.1 with
    | some e =>
      let t := if e = 4 then r.2 else r.2.postLost p
      (some e, if e = 3 ∧ p.op = 2 then t.nocDropped p.dst p else t)
    | none => r

/-- A request has been served with an ERR code and its bytes: its response waits at the target's NI (R302). -/
def State.served (s : State) (p : Pkt) (err : Nat) (d : List Byte) : State := s.setPkt (s.turned p err d)

/-- A request that has reached its target is served, or is held there with nothing of it done. -/
def State.deliver (s : State) (p : Pkt) : State :=
  let finish (r : MRes × List Byte × State) : State :=
    if r.1 = .held then (if s.rangeOfReq p.addr p.bytes.length = some .regs then s else r.2.2).answer .held []
    else (r.2.2.served p (if r.1 = .ok then 0 else 1) r.2.1).answer .ok []
  match s.rangeOfReq p.addr p.bytes.length with
  | some .hbm | some (.bank _) | some .hub => finish (s.serveMem p)
  | some .dahlia =>
    finish (if p.op = 0 ∧ s.rd (bunMode .svc) ≠ 2 then (.ok, s.readMem p.addr p.bytes.length, s) else (.err, [], s))
  | some .regs => finish (s.serveReg p)
  | some (.fabric n) =>
    match s.serveFab p n with
    | (none, t) => t.answer .ok []
    | (some 4, _) => s.answer .held []
    | (some e, t) => (t.served p e []).answer .ok []
  | some .rom | none => finish (.err, [], s)

/-- NOC_DELIVER (R302, R303, R307 to R309, R315, R317): the head of the request numbered `id` goes on to its target NI, and the
request is served there; `waits` are the cycles that the head waits in each router from where it stands on. One that its source
holds is taken as far as the source lets it go; one that another head precedes, or that a router does not take, stays where it
has come to. -/
def execNocDeliver (id : Nat) (waits : List Nat) (s : State) : Host.Outcome State Fault Refusal :=
  .next (match s.pkt id with
    | none => s
    | some p =>
      if p.phase = 0 then s.launch p
      else if p.phase ≠ 1 ∨ s.presented p then s.answer .held []
      else
        let a := s.travel p (stopsLeft p) waits
        let t := a.2.setPkt a.1
        if !arrived a.1 ∨ t.postedBefore a.1 then t.answer .held [] else t.deliver a.1)

/-! ### BAR0 (R352, R354) -/

/-- The host port is not ready, so that no request of the host reaches it (R351). -/
def State.hostUp (s : State) : Bool := s.on Reg.HST_STAT_READY && s.on Reg.HST_STAT_LINK_UP

/-- BAR0_READ (R352, R354): a read of `n` bytes at offset `x` of BAR0. -/
def execBar0Read (x : BitVec 30) (n : Fin 4097) (s : State) : Host.Outcome State Fault Refusal :=
  let a := regBase + x.toNat
  .next (if !s.hostUp then s.answer .err []
    else if n.val ≠ 4 ∨ x.toNat % 4 ≠ 0 then (s.hostErr 1 a).answer .err []
    else
      let t := s.busRead .host x.toNat
      if t.last.res = .err then (t.hostErr 1 a).answer .err [] else t)

/-- BAR0_WRITE (R352, R354): a write of `n` bytes, whose word is `w`. -/
def execBar0Write (x : BitVec 30) (n : Fin 4097) (w : Word) (s : State) : Host.Outcome State Fault Refusal :=
  let a := regBase + x.toNat
  .next (if !s.hostUp then s.answer .err []
    else if n.val ≠ 4 ∨ x.toNat % 4 ≠ 0 then (s.hostErr 3 a).answer .err []
    else
      let t := s.busWrite .host x.toNat w.toNat
      if t.last.res = .err then (t.hostErr 3 a).answer .err [] else t)

/-! ### BAR2 (R352, R355) -/

/-- The physical address, key index and urgency of `n` bytes at an offset of BAR2; none where no enabled window holds them. -/
def State.window (s : State) (x n : Nat) : Option (Nat × Nat × Nat) :=
  let w := x / 2 ^ 32
  let o := x % 2 ^ 32
  if s.on (Reg.HST_WIN_CTL_EN w) ∧ o + n ≤ 4096 * s.rd (Reg.HST_WIN_SIZE w) then
    some (4096 * s.rd (Reg.HST_WIN_BASE w) + o, s.rd (Reg.HST_WIN_CTL_KEY w), s.rd (Reg.HST_WIN_CTL_URG w))
  else none

/-- BAR2_READ (R247, R352, R355): a read of `n` bytes. One of a fabric window is answered by the response on the network. -/
def execBar2Read (x : BitVec 36) (n : Fin 4097) (s : State) : Host.Outcome State Fault Refusal :=
  .next (if !s.hostUp then s.answer .err []
    else match s.window x.toNat n with
    | none => (s.hostErr 0 x.toNat).answer .err []
    | some (a, key, urg) =>
      let q := s.req .host key
      let bad (t : State) : State := (t.hostErr 1 a).answer .err []
      match s.rangeOfReq a n with
      | some (.fabric m) => s.issue 94 m 0 key urg 0 a (List.replicate n none)
      | some .dahlia =>
        match s.dahRead q (some urg) a n with
        | (d, .ok, t) => t.answer .ok d
        | (_, .held, t) => t.answer .held []
        | (_, _, t) => bad t
      | some .hbm | some (.bank _) | some .hub =>
        match s.coReadU q (some urg) a n with
        | (d, .ok, t) => t.answer .ok d
        | (d, .ue, t) => (t.hostErr 2 a).answer .ue d
        | (_, .held, t) => t.answer .held []
        | (_, .err, t) => bad t
      | _ => bad s)

/-- BAR2_WRITE (R352, R355): a write of bytes with their enables. -/
def execBar2Write (x : BitVec 36) (d : List (Option Byte)) (s : State) : Host.Outcome State Fault Refusal :=
  let n := d.length
  .next (if !s.hostUp then s.answer .err []
    else match s.window x.toNat n with
    | none => (s.hostErr 3 x.toNat).answer .err []
    | some (a, key, urg) =>
      let bad (t : State) : State := (t.hostErr 3 a).answer .err []
      match s.rangeOfReq a n with
      | some (.fabric m) => s.issue 94 m 1 key urg 0 a d
      | some .hbm | some (.bank _) | some .hub =>
        match s.coWriteU (s.req .host key) (some urg) a d with
        | (.ok, t) => t.answer .ok []
        | (.held, t) => t.answer .held []
        | (_, t) => bad t
      | _ => bad s)

/-! ### The debug transport (R533, R534, R536, R539) -/

/-- DBGACC_UPDATE_DR (R533, R534, R536): the 78 bits shifted in launch an operation. -/
def execDbgaccUpdateDr (dr : BitVec 78) (s : State) : Host.Outcome State Fault Refusal :=
  let op := dr.toNat % 4
  let a := bits dr.toNat 45 2 * 4
  let d := bits dr.toNat 77 46
  .next (if s.rd Hid.tapIr ≠ 0x10 ∨ s.on Hid.accBusy = true ∨ op = 0 ∨ op = 3 then s
    else
      let s1 := (s.wr Hid.accAddr a).wr Hid.accWr (op - 1)
      if s.dbgMay (op == 2) a then (s1.wr Hid.accData d).wr Hid.accBusy 1
      else (s1.wr Hid.accData 0).wr Hid.accStat 3)

/-- The operation in progress ends with a status and the data read (R533). -/
def State.accEnd (s : State) (st d : Nat) : State := ((s.wr Hid.accBusy 0).wr Hid.accStat st).wr Hid.accData d

/-- An access of the transport to memory or a fabric window: `fab` is what a fabric window answered, none for an error. -/
def State.accMem (s0 : State) (a : Nat) (wr : Bool) (w : Nat) (fab : Option Word) : MRes × List Byte × State :=
  let s := s0.wr Reg.DBG_ACC_CONSUME 0
  let q := s.req .debug (s.rd Reg.DBG_ACC_KEY)
  let u := some (s.rd Reg.DBG_ACC_URG)
  match s.rangeOfReq a 4 with
  | some .hbm | some (.bank _) | some .hub =>
    if wr then
      let r := s.coWriteU q u a ((leBytes 4 w).map some)
      (r.1, [], r.2)
    else
      let r := s.coReadU q u a 4
      (r.2.1, r.1, r.2.2)
  | some .dahlia =>
    if wr then (.err, [], (s.netFor q u true a 4).2)
    else
      let r := s.dahRead q u a 4
      (r.2.1, r.1, r.2.2)
  | some (.fabric n) =>
    match s.netFor q u wr a 4 with
    | (.ok, t) =>
      match s.fpAccepts n, fab with
      | true, some v =>
        let d := if wr then leBytes 4 w else leBytes 4 v.toNat
        (.ok, d, t.emit (.fabDma n (a % 0x20000000) wr d))
      | _, _ => (.err, [], t)
    | (r, t) => (r, [], t)
  | _ => (.err, [], s)

/-- An access of DBG_ACC: to the register space as the debug master, or to memory. -/
def State.accGo (s : State) (a : Nat) (wr : Bool) (w : Nat) (fab : Option Word) : MRes × List Byte × State :=
  if regBase ≤ a ∧ a < regBase + 0x40000000 then
    let t := if wr then s.sendWrite .debug (a - regBase) w else s.sendRead .debug (a - regBase)
    (t.last.res, t.last.data, { t with last := s.last })
  else s.accMem a wr w fab

/-- DBGACC_OP_DONE (R529, R533, R534): the operation that has been launched is performed and completes; it goes on while its
way is held. -/
def execDbgaccOpDone (fab : Option Word) (s : State) : Host.Outcome State Fault Refusal :=
  .next (if !s.on Hid.accBusy then s
    else
      let a := s.rd Hid.accAddr
      let wr := s.on Hid.accWr
      let w := s.rd Hid.accData
      match s.accGo a wr w fab with
      | (.held, _, _) => s
      | (.ok, d, t) => t.accEnd 0 (if wr then 0 else ofLeBytes d)
      | (_, _, t) => t.accEnd 2 0)

/-- DBGACC_TIMEOUT (R534): 1 ms has passed since the operation was launched. -/
def execDbgaccTimeout (s : State) : Host.Outcome State Fault Refusal := .next (if s.on Hid.accBusy then s.accEnd 2 0 else s)

end Sys2Proof.Machine
end

