-- ==== Sys2Proof/Machine/Dispatch.lean ====
section
/-! DEFINITION. The commands and their meanings, arm by arm, in the order of the opcode table. -/

namespace Sys2Proof.Machine

def exec (i : Instr) (s : State) : Host.Outcome State Fault Refusal :=
  match i with
  | .registerWrite m x w => Sys2Proof.Machine.execRegisterWrite m x w s
  | .loRead m x => Sys2Proof.Machine.execLoRead m x s
  | .hiRead m x => Sys2Proof.Machine.execHiRead m x s
  | .loWrite m x w => Sys2Proof.Machine.execLoWrite m x w s
  | .hiWrite m x w => Sys2Proof.Machine.execHiWrite m x w s
  | .aliasWrite m x w => Sys2Proof.Machine.execAliasWrite m x w s
  | .aliasRead m x => Sys2Proof.Machine.execAliasRead m x s
  | .prbEnable p w => Sys2Proof.Machine.execPrbEnable p w s
  | .prbDisable p w => Sys2Proof.Machine.execPrbDisable p w s
  | .prbBindWrite p w => Sys2Proof.Machine.execPrbBindWrite p w s
  | .txSrcChange p => Sys2Proof.Machine.execTxSrcChange p s
  | .prbPllLocked p => Sys2Proof.Machine.execPrbPllLocked p s
  | .prbPllTimeout p => Sys2Proof.Machine.execPrbPllTimeout p s
  | .fclkAcquired p => Sys2Proof.Machine.execFclkAcquired p s
  | .fclkTimeout p => Sys2Proof.Machine.execFclkTimeout p s
  | .eqAdaptDone p => Sys2Proof.Machine.execEqAdaptDone p s
  | .blockReceived p k hdr payload => Sys2Proof.Machine.execBlockReceived p k hdr payload s
  | .blockLockTimeout p => Sys2Proof.Machine.execBlockLockTimeout p s
  | .markerReceived p k hdr payload arrival => Sys2Proof.Machine.execMarkerReceived p k hdr payload arrival s
  | .markerLockTimeout p => Sys2Proof.Machine.execMarkerLockTimeout p s
  | .rowRelease p => Sys2Proof.Machine.execRowRelease p s
  | .portLoss p clk => Sys2Proof.Machine.execPortLoss p clk s
  | .prbRetrain p => Sys2Proof.Machine.execPrbRetrain p s
  | .fmeasStart p => Sys2Proof.Machine.execFmeasStart p s
  | .fmeasStop p => Sys2Proof.Machine.execFmeasStop p s
  | .fmeasGateEnd p count => Sys2Proof.Machine.execFmeasGateEnd p count s
  | .calNow p => Sys2Proof.Machine.execCalNow p s
  | .prbClrCnt p => Sys2Proof.Machine.execPrbClrCnt p s
  | .laneCalInterval p k => Sys2Proof.Machine.execLaneCalInterval p k s
  | .calHandover p k => Sys2Proof.Machine.execCalHandover p k s
  | .laneRailFault => Sys2Proof.Machine.execLaneRailFault s
  | .pinShort p k => Sys2Proof.Machine.execPinShort p k s
  | .portConfigUpset p => Sys2Proof.Machine.execPortConfigUpset p s
  | .markEntry n row start stop drop tag => Sys2Proof.Machine.execMarkEntry n row start stop drop tag s
  | .drainRecord f ue => Sys2Proof.Machine.execDrainRecord f ue s
  | .hopArm f => Sys2Proof.Machine.execHopArm f s
  | .hopStop f => Sys2Proof.Machine.execHopStop f s
  | .hopForceTrig f => Sys2Proof.Machine.execHopForceTrig f s
  | .hopClear f => Sys2Proof.Machine.execHopClear f s
  | .hopClrCnt => Sys2Proof.Machine.execHopClrCnt s
  | .lanternCycle trigIn => Sys2Proof.Machine.execLanternCycle trigIn s
  | .lanTimerExpire t => Sys2Proof.Machine.execLanTimerExpire t s
  | .trigOutPulseEnd k => Sys2Proof.Machine.execTrigOutPulseEnd k s
  | .lanStart => Sys2Proof.Machine.execLanStart s
  | .lanStop => Sys2Proof.Machine.execLanStop s
  | .lanForce q => Sys2Proof.Machine.execLanForce q s
  | .lanClrOut => Sys2Proof.Machine.execLanClrOut s
  | .lanClrCnt => Sys2Proof.Machine.execLanClrCnt s
  | .runStart c => Sys2Proof.Machine.execRunStart c s
  | .runStop c => Sys2Proof.Machine.execRunStop c s
  | .runGo c => Sys2Proof.Machine.execRunGo c s
  | .runClear c => Sys2Proof.Machine.execRunClear c s
  | .insnNop c => Sys2Proof.Machine.execInsnNop c s
  | .insnSend c => Sys2Proof.Machine.execInsnSend c s
  | .insnGap c => Sys2Proof.Machine.execInsnGap c s
  | .insnWaitui c => Sys2Proof.Machine.execInsnWaitui c s
  | .insnLoop c => Sys2Proof.Machine.execInsnLoop c s
  | .insnEndl c => Sys2Proof.Machine.execInsnEndl c s
  | .insnJmp c => Sys2Proof.Machine.execInsnJmp c s
  | .insnWaitg c => Sys2Proof.Machine.execInsnWaitg c s
  | .insnWaitts c => Sys2Proof.Machine.execInsnWaitts c s
  | .waittsReached c => Sys2Proof.Machine.execWaittsReached c s
  | .insnSeek c => Sys2Proof.Machine.execInsnSeek c s
  | .insnSetf c => Sys2Proof.Machine.execInsnSetf c s
  | .insnSignal c => Sys2Proof.Machine.execInsnSignal c s
  | .insnRaw c => Sys2Proof.Machine.execInsnRaw c s
  | .insnHalt c => Sys2Proof.Machine.execInsnHalt c s
  | .insnIllegal c => Sys2Proof.Machine.execInsnIllegal c s
  | .frameStart c fab => Sys2Proof.Machine.execFrameStart c fab s
  | .keyPresent n row key klen len seq lat umask add => Sys2Proof.Machine.execKeyPresent n row key klen len seq lat umask add s
  | .entryApply p i1 => Sys2Proof.Machine.execEntryApply p i1 s
  | .flowAgeRetire f => Sys2Proof.Machine.execFlowAgeRetire f s
  | .epochClose => Sys2Proof.Machine.execEpochClose s
  | .treePublish rebuilt => Sys2Proof.Machine.execTreePublish rebuilt s
  | .treeWindowRead n c bad => Sys2Proof.Machine.execTreeWindowRead n c bad s
  | .leafWindowRead f c => Sys2Proof.Machine.execLeafWindowRead f c s
  | .flowStoreScrub ups => Sys2Proof.Machine.execFlowStoreScrub ups s
  | .bucketRebuild b => Sys2Proof.Machine.execBucketRebuild b s
  | .marStart => Sys2Proof.Machine.execMarStart s
  | .marStop => Sys2Proof.Machine.execMarStop s
  | .marStopDone => Sys2Proof.Machine.execMarStopDone s
  | .marClearAll => Sys2Proof.Machine.execMarClearAll s
  | .marClearDone => Sys2Proof.Machine.execMarClearDone s
  | .marExport => Sys2Proof.Machine.execMarExport s
  | .marExportDone => Sys2Proof.Machine.execMarExportDone s
  | .marRetire f => Sys2Proof.Machine.execMarRetire f s
  | .marClrCnt => Sys2Proof.Machine.execMarClrCnt s
  | .muStageWrite n c t p r w => Sys2Proof.Machine.execMuStageWrite n c t p r w s
  | .muCommit n c t p w => Sys2Proof.Machine.execMuCommit n c t p w s
  | .muCtrlWrite n c t p w => Sys2Proof.Machine.execMuCtrlWrite n c t p w s
  | .muEntryRead n c t p r => Sys2Proof.Machine.execMuEntryRead n c t p r s
  | .fpMasterRequest n route wr posted tid addr len data last => Sys2Proof.Machine.execFpMasterRequest n route wr posted tid addr len data last s
  | .fpMasterResponse n => Sys2Proof.Machine.execFpMasterResponse n s
  | .fpSlaveRequest n off wr data => Sys2Proof.Machine.execFpSlaveRequest n off wr data s
  | .fpSlaveResponse n tag err data => Sys2Proof.Machine.execFpSlaveResponse n tag err data s
  | .fpSlaveTimeout n tag => Sys2Proof.Machine.execFpSlaveTimeout n tag s
  | .islSwitch n c => Sys2Proof.Machine.execIslSwitch n c s
  | .islClrCnt n => Sys2Proof.Machine.execIslClrCnt n s
  | .waveInstant => Sys2Proof.Machine.execWaveInstant s
  | .islandSwitchCycle n e => Sys2Proof.Machine.execIslandSwitchCycle n e s
  | .refCheck a b c => Sys2Proof.Machine.execRefCheck a b c s
  | .classFallback c lost => Sys2Proof.Machine.execClassFallback c lost s
  | .clkRefCfgWrite w => Sys2Proof.Machine.execClkRefCfgWrite w s
  | .islClkReqWrite n w => Sys2Proof.Machine.execIslClkReqWrite n w s
  | .islClkCfgWrite n frac w => Sys2Proof.Machine.execIslClkCfgWrite n frac w s
  | .islPllLocked n => Sys2Proof.Machine.execIslPllLocked n s
  | .islLockTimeout n => Sys2Proof.Machine.execIslLockTimeout n s
  | .judgeWindow n cnt => Sys2Proof.Machine.execJudgeWindow n cnt s
  | .rampAdmit n => Sys2Proof.Machine.execRampAdmit n s
  | .rampUpDone n => Sys2Proof.Machine.execRampUpDone n s
  | .rampDownDone n => Sys2Proof.Machine.execRampDownDone n s
  | .islClkLost n lock => Sys2Proof.Machine.execIslClkLost n lock s
  | .islPwrOffReq n => Sys2Proof.Machine.execIslPwrOffReq n s
  | .islPwrOnReq n => Sys2Proof.Machine.execIslPwrOnReq n s
  | .powerDownDone n => Sys2Proof.Machine.execPowerDownDone n s
  | .powerUpDone n => Sys2Proof.Machine.execPowerUpDone n s
  | .sluiceSend n e b data => Sys2Proof.Machine.execSluiceSend n e b data s
  | .sluiceDeliver n e b => Sys2Proof.Machine.execSluiceDeliver n e b s
  | .sluiceFlushWrite n e w => Sys2Proof.Machine.execSluiceFlushWrite n e w s
  | .sluiceFlushDone n e b => Sys2Proof.Machine.execSluiceFlushDone n e b s
  | .bundleCal b failing paused => Sys2Proof.Machine.execBundleCal b failing paused s
  | .contentionGuard b g => Sys2Proof.Machine.execContentionGuard b g s
  | .steeringRepair b => Sys2Proof.Machine.execSteeringRepair b s
  | .mrRead n row tag bad errs => Sys2Proof.Machine.execMrRead n row tag bad errs s
  | .mrWrite n row tag data errs => Sys2Proof.Machine.execMrWrite n row tag data errs s
  | .mrWriteMasked n row tag wen data errs => Sys2Proof.Machine.execMrWriteMasked n row tag wen data errs s
  | .mrResponse n => Sys2Proof.Machine.execMrResponse n s
  | .sramRead w key addr n errs => Sys2Proof.Machine.execSramRead w key addr n errs s
  | .sramWrite w key word data errs => Sys2Proof.Machine.execSramWrite w key word data errs s
  | .sramMergeWrite w key addr data errs => Sys2Proof.Machine.execSramMergeWrite w key addr data errs s
  | .sramWriteback word => Sys2Proof.Machine.execSramWriteback word s
  | .sramBucketLeak b => Sys2Proof.Machine.execSramBucketLeak b s
  | .srmRawRead => Sys2Proof.Machine.execSrmRawRead s
  | .srmRawWrData => Sys2Proof.Machine.execSrmRawWrData s
  | .srmRawWrChk => Sys2Proof.Machine.execSrmRawWrChk s
  | .srmRawWrBoth => Sys2Proof.Machine.execSrmRawWrBoth s
  | .srmClrLog => Sys2Proof.Machine.execSrmClrLog s
  | .srbTtRegion b region => Sys2Proof.Machine.execSrbTtRegion b region s
  | .srbClrCnt b => Sys2Proof.Machine.execSrbClrCnt b s
  | .ttRegionStart u => Sys2Proof.Machine.execTtRegionStart u s
  | .ttRegionDone u failing => Sys2Proof.Machine.execTtRegionDone u failing s
  | .srbRetEnter b => Sys2Proof.Machine.execSrbRetEnter b s
  | .retEntered b => Sys2Proof.Machine.execRetEntered b s
  | .srbRetExit b byRequest => Sys2Proof.Machine.execSrbRetExit b byRequest s
  | .retWakeDone b => Sys2Proof.Machine.execRetWakeDone b s
  | .secureWipe => Sys2Proof.Machine.execSecureWipe s
  | .secureWipeDone => Sys2Proof.Machine.execSecureWipeDone s
  | .hbmRead w key addr n errs => Sys2Proof.Machine.execHbmRead w key addr n errs s
  | .hbmWrite w key line data errs => Sys2Proof.Machine.execHbmWrite w key line data errs s
  | .hbmMerge w key addr data errs => Sys2Proof.Machine.execHbmMerge w key addr data errs s
  | .hbmWriteback key line => Sys2Proof.Machine.execHbmWriteback key line s
  | .hbmSchedPeriod => Sys2Proof.Machine.execHbmSchedPeriod s
  | .hbmRefresh r bank postponed => Sys2Proof.Machine.execHbmRefresh r bank postponed s
  | .hbmTempRead die => Sys2Proof.Machine.execHbmTempRead die s
  | .neighbourRefresh i1 => Sys2Proof.Machine.execNeighbourRefresh i1 s
  | .patrolScrubLine => Sys2Proof.Machine.execPatrolScrubLine s
  | .hbmBucketLeak r => Sys2Proof.Machine.execHbmBucketLeak r s
  | .migrationStart r => Sys2Proof.Machine.execMigrationStart r s
  | .migrationCopyLine => Sys2Proof.Machine.execMigrationCopyLine s
  | .migrationDone => Sys2Proof.Machine.execMigrationDone s
  | .hbmEnable initFill => Sys2Proof.Machine.execHbmEnable initFill s
  | .hbmDisable initFill => Sys2Proof.Machine.execHbmDisable initFill s
  | .hbmTrainingDone margins => Sys2Proof.Machine.execHbmTrainingDone margins s
  | .hbmTrainingFault cause margins => Sys2Proof.Machine.execHbmTrainingFault cause margins s
  | .hbmFillDone => Sys2Proof.Machine.execHbmFillDone s
  | .hbmDrainDone => Sys2Proof.Machine.execHbmDrainDone s
  | .hbmMigrate r => Sys2Proof.Machine.execHbmMigrate r s
  | .hbmClrLog => Sys2Proof.Machine.execHbmClrLog s
  | .hbmClrCnt => Sys2Proof.Machine.execHbmClrCnt s
  | .nocRequest w route op key urg tid addr n data => Sys2Proof.Machine.execNocRequest w route op key urg tid addr n data s
  | .nocDeliver id waits => Sys2Proof.Machine.execNocDeliver id waits s
  | .nocResponse id waits => Sys2Proof.Machine.execNocResponse id waits s
  | .postedAck id waits => Sys2Proof.Machine.execPostedAck id waits s
  | .routeUpdate i1 e ctl => Sys2Proof.Machine.execRouteUpdate i1 e ctl s
  | .routeCommit i1 e => Sys2Proof.Machine.execRouteCommit i1 e s
  | .flitReplay m ok => Sys2Proof.Machine.execFlitReplay m ok s
  | .linkRetrain m ok maps => Sys2Proof.Machine.execLinkRetrain m ok maps s
  | .nocDrain n => Sys2Proof.Machine.execNocDrain n s
  | .nocResume n => Sys2Proof.Machine.execNocResume n s
  | .nocClrCnt => Sys2Proof.Machine.execNocClrCnt s
  | .routerDrained n => Sys2Proof.Machine.execRouterDrained n s
  | .routerReconfDone n ok => Sys2Proof.Machine.execRouterReconfDone n ok s
  | .drainTimeout router x => Sys2Proof.Machine.execDrainTimeout router x s
  | .recoveryBarrier => Sys2Proof.Machine.execRecoveryBarrier s
  | .coreMemoryAccess c k mmode a size v lines ce ue => Sys2Proof.Machine.execCoreMemoryAccess c k mmode a size v lines ce ue s
  | .coreTimerIrq c => Sys2Proof.Machine.execCoreTimerIrq c s
  | .wdgKick c w => Sys2Proof.Machine.execWdgKick c w s
  | .wdgExpire c => Sys2Proof.Machine.execWdgExpire c s
  | .uartTxWrite u w => Sys2Proof.Machine.execUartTxWrite u w s
  | .uartRxByte u x => Sys2Proof.Machine.execUartRxByte u x s
  | .uartRxRead u => Sys2Proof.Machine.execUartRxRead u s
  | .mbSend k w => Sys2Proof.Machine.execMbSend k w s
  | .mbRecv k => Sys2Proof.Machine.execMbRecv k s
  | .semTake m i1 => Sys2Proof.Machine.execSemTake m i1 s
  | .semGive m i1 => Sys2Proof.Machine.execSemGive m i1 s
  | .semForce m i1 => Sys2Proof.Machine.execSemForce m i1 s
  | .milLoadSlot slot => Sys2Proof.Machine.execMilLoadSlot slot s
  | .milLoadMem => Sys2Proof.Machine.execMilLoadMem s
  | .fwLoadDone read digest sig => Sys2Proof.Machine.execFwLoadDone read digest sig s
  | .milStart cores => Sys2Proof.Machine.execMilStart cores s
  | .milResetCores cores => Sys2Proof.Machine.execMilResetCores cores s
  | .milCmoClean => Sys2Proof.Machine.execMilCmoClean s
  | .milCmoInval => Sys2Proof.Machine.execMilCmoInval s
  | .milCmoFlush => Sys2Proof.Machine.execMilCmoFlush s
  | .cmoDone => Sys2Proof.Machine.execCmoDone s
  | .mstRingWrWrite r w => Sys2Proof.Machine.execMstRingWrWrite r w s
  | .mstJobCount => Sys2Proof.Machine.execMstJobCount s
  | .mstJobList => Sys2Proof.Machine.execMstJobList s
  | .mstJobIndex => Sys2Proof.Machine.execMstJobIndex s
  | .mstJobExport => Sys2Proof.Machine.execMstJobExport s
  | .mstBlockRead => Sys2Proof.Machine.execMstBlockRead s
  | .mstJobEnd => Sys2Proof.Machine.execMstJobEnd s
  | .mstStart => Sys2Proof.Machine.execMstStart s
  | .mstStop => Sys2Proof.Machine.execMstStop s
  | .mstAbort => Sys2Proof.Machine.execMstAbort s
  | .mstClrCnt => Sys2Proof.Machine.execMstClrCnt s
  | .pcieConfigRequest r wr msix => Sys2Proof.Machine.execPcieConfigRequest r wr msix s
  | .bar0Read x n => Sys2Proof.Machine.execBar0Read x n s
  | .bar0Write x n w => Sys2Proof.Machine.execBar0Write x n w s
  | .bar2Read x n => Sys2Proof.Machine.execBar2Read x n s
  | .bar2Write x d => Sys2Proof.Machine.execBar2Write x d s
  | .hostReset k => Sys2Proof.Machine.execHostReset k s
  | .pcieLinkChange speed width => Sys2Proof.Machine.execPcieLinkChange speed width s
  | .drvHello w => Sys2Proof.Machine.execDrvHello w s
  | .qStart q => Sys2Proof.Machine.execQStart q s
  | .qStop q => Sys2Proof.Machine.execQStop q s
  | .qReset q => Sys2Proof.Machine.execQReset q s
  | .hstClrCnt => Sys2Proof.Machine.execHstClrCnt s
  | .qTailWrite q w => Sys2Proof.Machine.execQTailWrite q w s
  | .descProcess q desc data fabOk => Sys2Proof.Machine.execDescProcess q desc data fabOk s
  | .imodExpire q => Sys2Proof.Machine.execImodExpire q s
  | .rlkEnable l w => Sys2Proof.Machine.execRlkEnable l w s
  | .rlkDisable l w => Sys2Proof.Machine.execRlkDisable l w s
  | .rlkPhyUp l lanes => Sys2Proof.Machine.execRlkPhyUp l lanes s
  | .rlkOfferTimer l => Sys2Proof.Machine.execRlkOfferTimer l s
  | .rowOffer l w => Sys2Proof.Machine.execRowOffer l w s
  | .rlkRateSwitch l => Sys2Proof.Machine.execRlkRateSwitch l s
  | .rowData l w => Sys2Proof.Machine.execRowData l w s
  | .rowIdle l w => Sys2Proof.Machine.execRowIdle l w s
  | .rowNak l w => Sys2Proof.Machine.execRowNak l w s
  | .rlkLinkDown l => Sys2Proof.Machine.execRlkLinkDown l s
  | .rlkRetrain l => Sys2Proof.Machine.execRlkRetrain l s
  | .rlkClrCnt l => Sys2Proof.Machine.execRlkClrCnt l s
  | .streamWordSend l c data last => Sys2Proof.Machine.execStreamWordSend l c data last s
  | .tsSyncInterval l t1 => Sys2Proof.Machine.execTsSyncInterval l t1 s
  | .mgmtSync l w t2 t3 => Sys2Proof.Machine.execMgmtSync l w t2 t3 s
  | .mgmtFollow l w => Sys2Proof.Machine.execMgmtFollow l w s
  | .mgmtDelayReq l w t4 => Sys2Proof.Machine.execMgmtDelayReq l w t4 s
  | .mgmtDelayResp l w => Sys2Proof.Machine.execMgmtDelayResp l w s
  | .tsbSyncLost => Sys2Proof.Machine.execTsbSyncLost s
  | .tsbStep => Sys2Proof.Machine.execTsbStep s
  | .tsbStepRelease => Sys2Proof.Machine.execTsbStepRelease s
  | .eventRaise e => Sys2Proof.Machine.execEventRaise e s
  | .evtClaimRead c p peek => Sys2Proof.Machine.execEvtClaimRead c p peek s
  | .evtRouteAWrite e w => Sys2Proof.Machine.execEvtRouteAWrite e w s
  | .evtUserRaise u => Sys2Proof.Machine.execEvtUserRaise u s
  | .cfgSyncWord skip => Sys2Proof.Machine.execCfgSyncWord skip s
  | .pktNoop => Sys2Proof.Machine.execPktNoop s
  | .pktCrc p => Sys2Proof.Machine.execPktCrc p s
  | .pktIdcode p => Sys2Proof.Machine.execPktIdcode p s
  | .pktFar p => Sys2Proof.Machine.execPktFar p s
  | .pktFdri p errs => Sys2Proof.Machine.execPktFdri p errs s
  | .pktStartup p => Sys2Proof.Machine.execPktStartup p s
  | .pktRegion p => Sys2Proof.Machine.execPktRegion p s
  | .pktZdata p errs => Sys2Proof.Machine.execPktZdata p errs s
  | .pktAuth p => Sys2Proof.Machine.execPktAuth p s
  | .pktEnc p => Sys2Proof.Machine.execPktEnc p s
  | .encSegment cipher plain => Sys2Proof.Machine.execEncSegment cipher plain s
  | .pktGsel p => Sys2Proof.Machine.execPktGsel p s
  | .cmdNull p => Sys2Proof.Machine.execCmdNull p s
  | .cmdRcrc p => Sys2Proof.Machine.execCmdRcrc p s
  | .cmdWcfg p => Sys2Proof.Machine.execCmdWcfg p s
  | .cmdLfrm p => Sys2Proof.Machine.execCmdLfrm p s
  | .sigVerifyDone ok digest => Sys2Proof.Machine.execSigVerifyDone ok digest s
  | .cmdStart p => Sys2Proof.Machine.execCmdStart p s
  | .cmdDesync p => Sys2Proof.Machine.execCmdDesync p s
  | .cmdPrBegin p => Sys2Proof.Machine.execCmdPrBegin p s
  | .cmdPrCancel p => Sys2Proof.Machine.execCmdPrCancel p s
  | .clearingDone mode gang => Sys2Proof.Machine.execClearingDone mode gang s
  | .startupClocksDone => Sys2Proof.Machine.execStartupClocksDone s
  | .startupOut vio => Sys2Proof.Machine.execStartupOut vio s
  | .startupWe => Sys2Proof.Machine.execStartupWe s
  | .startupRst => Sys2Proof.Machine.execStartupRst s
  | .startupDone => Sys2Proof.Machine.execStartupDone s
  | .donePinHigh high => Sys2Proof.Machine.execDonePinHigh high s
  | .startupWeir => Sys2Proof.Machine.execStartupWeir s
  | .startupLateIsland n vio => Sys2Proof.Machine.execStartupLateIsland n vio s
  | .cfgLoadFlash planes => Sys2Proof.Machine.execCfgLoadFlash planes s
  | .cfgLoadSlot slot planes => Sys2Proof.Machine.execCfgLoadSlot slot planes s
  | .cfgLoadMem planes => Sys2Proof.Machine.execCfgLoadMem planes s
  | .cfgAbort => Sys2Proof.Machine.execCfgAbort s
  | .cfgClrErr => Sys2Proof.Machine.execCfgClrErr s
  | .cfgClearPlanes isl planes all => Sys2Proof.Machine.execCfgClearPlanes isl planes all s
  | .cfgClrCnt => Sys2Proof.Machine.execCfgClrCnt s
  | .cfgFifoWrite w => Sys2Proof.Machine.execCfgFifoWrite w s
  | .cfgFifoDrop => Sys2Proof.Machine.execCfgFifoDrop s
  | .loadTimeout => Sys2Proof.Machine.execLoadTimeout s
  | .sourceEnd => Sys2Proof.Machine.execSourceEnd s
  | .xspiHeaderRead oct single => Sys2Proof.Machine.execXspiHeaderRead oct single s
  | .gangInitLow => Sys2Proof.Machine.execGangInitLow s
  | .followerRelease => Sys2Proof.Machine.execFollowerRelease s
  | .dahWriteSlot fw i1 => Sys2Proof.Machine.execDahWriteSlot fw i1 s
  | .dahWriteDone ok top mean => Sys2Proof.Machine.execDahWriteDone ok top mean s
  | .dahEraseSlot fw i1 => Sys2Proof.Machine.execDahEraseSlot fw i1 s
  | .dahSetBoot => Sys2Proof.Machine.execDahSetBoot s
  | .dahClrCnt => Sys2Proof.Machine.execDahClrCnt s
  | .progNLow => Sys2Proof.Machine.execProgNLow s
  | .progNRelease failing => Sys2Proof.Machine.execProgNRelease failing s
  | .railValid r => Sys2Proof.Machine.execRailValid r s
  | .auxPorRelease agree weak => Sys2Proof.Machine.execAuxPorRelease agree weak s
  | .mainPorRelease failing => Sys2Proof.Machine.execMainPorRelease failing s
  | .islandPowerStage g => Sys2Proof.Machine.execIslandPowerStage g s
  | .mainRailLoss r => Sys2Proof.Machine.execMainRailLoss r s
  | .phaseClocksDone => Sys2Proof.Machine.execPhaseClocksDone s
  | .noRefTimeout => Sys2Proof.Machine.execNoRefTimeout s
  | .phaseKeysDone => Sys2Proof.Machine.execPhaseKeysDone s
  | .bootRetry => Sys2Proof.Machine.execBootRetry s
  | .sysResetDevice key => Sys2Proof.Machine.execSysResetDevice key s
  | .sysResetEngine key => Sys2Proof.Machine.execSysResetEngine key s
  | .sysResetIsland key n => Sys2Proof.Machine.execSysResetIsland key n s
  | .islandResetRelease n => Sys2Proof.Machine.execIslandResetRelease n s
  | .sysSaveAuto => Sys2Proof.Machine.execSysSaveAuto s
  | .pciePerst => Sys2Proof.Machine.execPciePerst s
  | .vccAuxPowerOn => Sys2Proof.Machine.execVccAuxPowerOn s
  | .peoChallenge m => Sys2Proof.Machine.execPeoChallenge m s
  | .peoToken m => Sys2Proof.Machine.execPeoToken m s
  | .peoAttest m => Sys2Proof.Machine.execPeoAttest m s
  | .peoGetCert m => Sys2Proof.Machine.execPeoGetCert m s
  | .peoFuseWrite m => Sys2Proof.Machine.execPeoFuseWrite m s
  | .peoFuseRepair m => Sys2Proof.Machine.execPeoFuseRepair m s
  | .peoSetSvn m => Sys2Proof.Machine.execPeoSetSvn m s
  | .peoRevoke m => Sys2Proof.Machine.execPeoRevoke m s
  | .peoInstallKey m => Sys2Proof.Machine.execPeoInstallKey m s
  | .peoSealKey m => Sys2Proof.Machine.execPeoSealKey m s
  | .peoProvision m => Sys2Proof.Machine.execPeoProvision m s
  | .peoDeploy m => Sys2Proof.Machine.execPeoDeploy m s
  | .peoReturn m => Sys2Proof.Machine.execPeoReturn m s
  | .peoWipeSecure m => Sys2Proof.Machine.execPeoWipeSecure m s
  | .peoLock m => Sys2Proof.Machine.execPeoLock m s
  | .peoCmdDone good fail => Sys2Proof.Machine.execPeoCmdDone good fail s
  | .trngFail => Sys2Proof.Machine.execTrngFail s
  | .tamper k => Sys2Proof.Machine.execTamper k s
  | .tamperRepeat k => Sys2Proof.Machine.execTamperRepeat k s
  | .tokenExpire => Sys2Proof.Machine.execTokenExpire s
  | .scrubFrame n c f data chk gold errs => Sys2Proof.Machine.execScrubFrame n c f data chk gold errs s
  | .goldenBuild n c units => Sys2Proof.Machine.execGoldenBuild n c units s
  | .engineXcheck e found => Sys2Proof.Machine.execEngineXcheck e found s
  | .engineRecheck agree => Sys2Proof.Machine.execEngineRecheck agree s
  | .engineReloadDone e => Sys2Proof.Machine.execEngineReloadDone e s
  | .scbScrubNow n c => Sys2Proof.Machine.execScbScrubNow n c s
  | .scbRebuildGold n c => Sys2Proof.Machine.execScbRebuildGold n c s
  | .scbRestore e => Sys2Proof.Machine.execScbRestore e s
  | .scbClrCnt => Sys2Proof.Machine.execScbClrCnt s
  | .bstRunEngines i1 => Sys2Proof.Machine.execBstRunEngines i1 s
  | .bstRunRouter i1 => Sys2Proof.Machine.execBstRunRouter i1 s
  | .bstRunIsland i1 => Sys2Proof.Machine.execBstRunIsland i1 s
  | .bstRunPlanes i1 => Sys2Proof.Machine.execBstRunPlanes i1 s
  | .bstRunBank i1 => Sys2Proof.Machine.execBstRunBank i1 s
  | .bstRunHbm i1 => Sys2Proof.Machine.execBstRunHbm i1 s
  | .bstRunSpareRank i1 => Sys2Proof.Machine.execBstRunSpareRank i1 s
  | .bstRunCaches i1 => Sys2Proof.Machine.execBstRunCaches i1 s
  | .bstRunPort i1 => Sys2Proof.Machine.execBstRunPort i1 s
  | .bstRunAnalog i1 => Sys2Proof.Machine.execBstRunAnalog i1 s
  | .bstRunDahlia i1 => Sys2Proof.Machine.execBstRunDahlia i1 s
  | .bstAbort => Sys2Proof.Machine.execBstAbort s
  | .bstClrCnt => Sys2Proof.Machine.execBstClrCnt s
  | .bstDone pass rows mask us => Sys2Proof.Machine.execBstDone pass rows mask us s
  | .classBucketLeak k => Sys2Proof.Machine.execClassBucketLeak k s
  | .calItemDue i1 j failed => Sys2Proof.Machine.execCalItemDue i1 j failed s
  | .vrefCheck mv => Sys2Proof.Machine.execVrefCheck mv s
  | .hbmDqCal pc => Sys2Proof.Machine.execHbmDqCal pc s
  | .hbmDqForced pc => Sys2Proof.Machine.execHbmDqForced pc s
  | .calCalNow i1 j => Sys2Proof.Machine.execCalCalNow i1 j s
  | .calClrCnt => Sys2Proof.Machine.execCalClrCnt s
  | .telRecord ok => Sys2Proof.Machine.execTelRecord ok s
  | .telSnapshot ok => Sys2Proof.Machine.execTelSnapshot ok s
  | .telJournalUser => Sys2Proof.Machine.execTelJournalUser s
  | .telClrCnt => Sys2Proof.Machine.execTelClrCnt s
  | .journalWrite ok => Sys2Proof.Machine.execJournalWrite ok s
  | .powerMeasure power current => Sys2Proof.Machine.execPowerMeasure power current s
  | .slewWindow didt => Sys2Proof.Machine.execSlewWindow didt s
  | .astPwrLimitWrite w => Sys2Proof.Machine.execAstPwrLimitWrite w s
  | .astStagingWrite unstaged => Sys2Proof.Machine.execAstStagingWrite unstaged s
  | .astMethodWrite m => Sys2Proof.Machine.execAstMethodWrite m s
  | .methodApply => Sys2Proof.Machine.execMethodApply s
  | .tempConvert readings => Sys2Proof.Machine.execTempConvert readings s
  | .thmLevelStep => Sys2Proof.Machine.execThmLevelStep s
  | .stopNoticeEnd => Sys2Proof.Machine.execStopNoticeEnd s
  | .orderlyStopDone => Sys2Proof.Machine.execOrderlyStopDone s
  | .overcurrent => Sys2Proof.Machine.execOvercurrent s
  | .stopTimeout => Sys2Proof.Machine.execStopTimeout s
  | .hardStop => Sys2Proof.Machine.execHardStop s
  | .astResume => Sys2Proof.Machine.execAstResume s
  | .astStop => Sys2Proof.Machine.execAstStop s
  | .astClrSuspect ch => Sys2Proof.Machine.execAstClrSuspect ch s
  | .astClrCnt => Sys2Proof.Machine.execAstClrCnt s
  | .tapReset => Sys2Proof.Machine.execTapReset s
  | .tapUpdateIr op => Sys2Proof.Machine.execTapUpdateIr op s
  | .dbgaccUpdateDr dr => Sys2Proof.Machine.execDbgaccUpdateDr dr s
  | .dbgaccOpDone fab => Sys2Proof.Machine.execDbgaccOpDone fab s
  | .dbgaccTimeout => Sys2Proof.Machine.execDbgaccTimeout s
  | .dbgHalt cores => Sys2Proof.Machine.execDbgHalt cores s
  | .coreHalted c pc => Sys2Proof.Machine.execCoreHalted c pc s
  | .dbgResume cores => Sys2Proof.Machine.execDbgResume cores s
  | .dbgStep cores => Sys2Proof.Machine.execDbgStep cores s
  | .dbgResetDevice => Sys2Proof.Machine.execDbgResetDevice s
  | .dbgAuthChallenge => Sys2Proof.Machine.execDbgAuthChallenge s
  | .dbgAuthToken => Sys2Proof.Machine.execDbgAuthToken s
  | .breakpointHit c k priv => Sys2Proof.Machine.execBreakpointHit c k priv s
  | .watchpointHit c w a size load store priv pc => Sys2Proof.Machine.execWatchpointHit c w a size load store priv pc s
  | .ebreakHalt c pc => Sys2Proof.Machine.execEbreakHalt c pc s
  | .dbgRegdataWrite c v => Sys2Proof.Machine.execDbgRegdataWrite c v s
  | .supWdgKick w => Sys2Proof.Machine.execSupWdgKick w s
  | .supWdgExpire => Sys2Proof.Machine.execSupWdgExpire s
  | .islandRowRead n => Sys2Proof.Machine.execIslandRowRead n s
  | .rlkStreamRowRead l c => Sys2Proof.Machine.execRlkStreamRowRead l c s
  | .uartTxCharacter u => Sys2Proof.Machine.execUartTxCharacter u s
  | .matchUnitCompare n e => Sys2Proof.Machine.execMatchUnitCompare n e s
  | .msixTableAccess x wr => Sys2Proof.Machine.execMsixTableAccess x wr s
  | .precfgPdChange high => Sys2Proof.Machine.execPrecfgPdChange high s
  | .rlkPhyFault l => Sys2Proof.Machine.execRlkPhyFault l s
  | .aerErrorLogged uncorrectable => Sys2Proof.Machine.execAerErrorLogged uncorrectable s

end Sys2Proof.Machine
end

