-- ==== Sys2Proof/Machine/Transmit.lean ====
section
/-! DEFINITION. The transmit side of a probe port (chapter 2): sources, scrambler, markers, lanes, and the near-end
loopbacks (R32, R34, R35, R46 to R49, R95). -/

namespace Sys2Proof.Machine

/-- A clause 49 idle block: type 0x1E, its eight characters 0 (R46, R52). -/
def idleBlock : Nat × Nat := (2, 0x1E)

/-- The payload of a marker (R35). -/
def markerWord (tag lane mseq : Nat) : Nat :=
  let x := 0x3C + lane % 16 * 2 ^ 8 + 0xF0 * 2 ^ 16 + tag % 256 * 2 ^ 24 + mseq % 2 ^ 16 * 2 ^ 32
  x + crc8 (((leBytes 8 x).drop 1).take 6) * 2 ^ 56

/-- What the source in effect gives a slot that no block of Runner's line takes (R46, R417): the transmit bus of the
bound island, whose blocks are open (log entry 19), or an idle block. -/
def State.sourceBlock (s : State) (p : Nat) : (Nat × Nat) × State :=
  if s.rd (Hid.txSrcNow p) == 2 && s.on (Reg.PRB_BIND_DELIV_EN p) && s.fabricLive (s.rd (Reg.PRB_BIND_ISLAND p)) then
    let v := s.fresh
    (if bit v.1 66 then (bits v.1 65 64, v.1 % 2 ^ 64) else idleBlock, v.2)
  else (idleBlock, s)

/-- The block that stands in slot `j` of the next row, before the scrambler (R46, R95, R102). -/
def State.slotBlock (s : State) (p j : Nat) : (Nat × Nat) × State :=
  match Tab.getD s.txLine p [] with
  | b :: r =>
    if b.pos ≤ s.txPos p + 66 * j then ((b.hdr, b.payload), { s with txLine := Tab.set s.txLine p [] r }) else s.sourceBlock p
  | [] => s.sourceBlock p

/-- The block of logical lane `j` in the next row, as it is serialised: a marker past the scrambler, or a scrambled block
(R32, R34). Lanes from WIDTH on carry markers and idle blocks: DESIGN CHOICE, log entry 81. -/
def State.laneOut (s : State) (p j : Nat) : (Nat × Nat) × State :=
  if s.rd (Hid.txRows p) % 16384 = 0 then
    ((2, markerWord (s.rd (Reg.PRB_TX_CFG_PORT_TAG p)) j (s.rd (Hid.txMseq p))), s)
  else
    let b := if j < s.rd (Reg.PRB_CTRL_WIDTH p) then s.slotBlock p j else (idleBlock, s)
    let y := scramble (b.2.rd (Hid.scr p j)) b.1.2
    ((b.1.1, y.1), b.2.wr (Hid.scr p j) y.2)

/-- The physical lane of a logical transmit lane (R47). -/
def State.txPhys (s : State) (p j : Nat) : Nat := if s.on (Reg.PRB_TX_CFG_TX_REVERSE p) then 15 - j else j

/-- A block at the output of a physical lane (R47). -/
def State.txAtPin (s : State) (p k : Nat) (b : Nat × Nat) : Nat × Nat × Nat := (k, takenAs (s.on (Reg.PRB_LN_CTRL_TX_INV p k)) b.1 b.2)

/-- The blocks of some logical lanes, in order. -/
def State.rowOut (s : State) (p : Nat) : List Nat → List (Nat × Nat × Nat) × State
  | [] => ([], s)
  | j :: r =>
    let b := s.laneOut p j
    let t := b.2.rowOut p r
    ((j, b.1) :: t.1, t.2)

/-- A block of the port's own stream reaches the receiver of its physical lane in NES, from the serialiser's output, or in
NEP, before it (R48, R49). A marker of row `n` arrives with no skew in NEP, and with an open one of at most 8 UI in NES. -/
def State.loopIn (s : State) (p n : Nat) (x : Nat × Nat × Nat) : State :=
  let k := s.txPhys p x.1
  if s.rd (Reg.PRB_CTRL_LOOP p) = 1 then
    let b := takenAs (s.on (Reg.PRB_LN_CTRL_TX_INV p k)) x.2.1 x.2.2
    if n % 16384 = 0 then
      let v := s.fresh
      v.2.markerIn p k b.1 b.2 (66 * n + v.1 % 9)
    else s.blockIn p k b.1 b.2
  else if s.rd (Reg.PRB_CTRL_LOOP p) = 2 then
    if n % 16384 = 0 then s.markerIn p k x.2.1 x.2.2 (66 * n) else s.blockIn p k x.2.1 x.2.2
  else s

/-- The port sends a row: one block on every lane (R34, R46 to R49). In a marker row a TX_SRC that waits takes effect. -/
def State.sendRow (s : State) (p : Nat) : State :=
  let n := s.rd (Hid.txRows p)
  let s1 := if n % 16384 = 0 then s.txSrcApply p else s
  let r := s1.rowOut p lanes
  let s2 := (r.2.add (Hid.txRows p) 1).wrIf (n % 16384 == 0) (Hid.txMseq p) (s.rd (Hid.txMseq p) + 1)
  let out := (r.1.map (fun x => s2.txAtPin p (s2.txPhys p x.1) x.2)).filter (fun y => s2.txDrives p y.1)
  let s3 := if out.isEmpty then s2 else s2.emit (.txRow p out)
  State.each r.1 (fun x t => t.loopIn p n x) s3

/-- A nanosecond of a port that sends its own stream: a row goes out whenever 66 UI have passed (R29, R34). -/
def State.txTick (s : State) (p : Nat) : State :=
  if !s.sendsMarkers p then s
  else
    let acc := s.rd (Hid.txAcc p) + 4 * (s.uiRate p).1
    if acc < 66 * (s.uiRate p).2 then s.wr (Hid.txAcc p) acc
    else (s.wr (Hid.txAcc p) (acc - 66 * (s.uiRate p).2)).sendRow p

/-- What time brings a port: a loss that waits is declared, its stream goes on, and its channel writes back templates whose
write was held (R44, R100). -/
def State.portTick (s : State) (p : Nat) : State := ((s.lossSettle p).txTick p).tplRetry p

end Sys2Proof.Machine
end

