-- ==== Sys2Proof/Machine/Tick.lean ====
section
/-! DEFINITION. The passage of time while no command waits (log entry 1): what only counts time goes on. What happens when a time
has elapsed is a command of its own. -/

namespace Sys2Proof.Machine

/-- A count of time that is still above 1 goes down by one; that it reaches 0 is a command. -/
def State.countDown (s : State) (c : Bool) (f : Fld) : State := if c && decide (1 < s.rd f) then s.wr f (s.rd f - 1) else s

/-- A microsecond ends: the core watchdogs (R330, R546). -/
def State.usTick (s : State) : State :=
  State.each (List.range 4) (fun c t =>
    t.countDown (s.on (Reg.MIL_WDG_CFG_EN c) && !s.on (Reg.DBG_CORE_STAT_HALTED c)) (Reg.MIL_WDG_VAL c)) s

/-- A millisecond ends: the supervisor watchdog (R548). -/
def State.msTick (s : State) : State :=
  s.countDown (s.on Reg.DBG_SUP_CFG_EN && !s.on Reg.DBG_STAT_SUP_PAUSED) Reg.DBG_SUP_VAL

/-- A second ends: the counts of seconds (R455, R494). -/
def State.secTick (s : State) : State :=
  ((s.add Reg.TEL_SESSION 1).add Reg.TEL_POWER_S 1).countDown (s.on Hid.tokenV) Reg.PEO_DBG_REMAIN

/-- The timebase goes on by a nanosecond of its clock, at its rate trim in ppb (R373). -/
def State.tsbTick (s : State) : State :=
  let x := s.rd Hid.tsFrac + ((4 * (1000000000 + toSigned 32 (s.rd Reg.TSB_FREQ))).toNat)
  (s.add Reg.TSB_NOW (x / 1000000000)).wr Hid.tsFrac (x % 1000000000)

/-- One nanosecond passes, once the timebase runs (R373, R432): the probe ports send (R34), and the ISLAND resets that wait take effect where they can (R419). -/
def State.tick (s : State) : State :=
  if s.rd Reg.SYS_BOOT_STAT_PHASE < 2 then s
  else
    let s1 := s.tsbTick
    let ends (n : Nat) : Bool := s.now / (4 * n) != s1.now / (4 * n)
    let s2 := if ends 1000 then s1.usTick else s1
    let s3 := if ends 1000000 then s2.msTick else s2
    let s4 := if ends 1000000000 then s3.secTick else s3
    let s5 := State.each [0, 1, 2, 3] (fun p t => t.portTick p) s4
    State.each (List.range 80) (fun i t => t.resetSettle i) s5

end Sys2Proof.Machine
end

