-- ==== Sys2Proof/Safety.lean ====
section
/-! DEFINITION. What the statements take a sound state to be, and what a command keeps. -/

namespace Sys2Proof.Machine

/-- The state is in its one canonical form: the addresses of the bytes of memory rise and none is listed that unlisted memory reads as,
the places of the cells rise, and the soft repair records are no more than 4,096 (R228). -/
structure State.Canon (s : State) : Prop where
  mem     : Memory.wf s.mem = true
  cells   : Tab.wf s.cells = true
  records : s.records.length ≤ 4096

/-- The state is canonical and its queue is `q`. -/
structure State.Ok (q : List Instr) (s : State) : Prop where
  pending : s.pending = q
  canon   : s.Canon

/-- An outcome that, where it is a next state, is one that is canonical and whose queue is `q`. -/
def OutOk (q : List Instr) (o : Host.Outcome State Fault Refusal) : Prop := ∀ t, o = .next t → State.Ok q t

/-- A command answers a next state, and that state is as `P` says. -/
def Answers (i : Instr) (s : State) (P : State → Prop) : Prop := ∃ t, exec i s = .next t ∧ P t

/-- A whole packet of stream register `reg`, nothing of it lost, is what the active source delivers next and the controller reads
now: its payload, and the state after its words have been taken and have entered the CRC (R387, R390). -/
def State.packetAt (s : State) (reg : Nat) (size : Nat → Nat) (p : Packet) : Option (List Nat × State) :=
  let ws := p.words.map BitVec.toNat
  if !s.cfgReads || s.rd Hid.cfgLeft != 0 || p.lost then none
  else match pktHead ws, s.takeWords ws with
  | .write r c n, some (false, t) =>
    if r = reg ∧ ws.length = n + size c then some (ws.drop n, if reg != 0 then t.cfgCrcAdd ws else t) else none
  | _, _ => none

/-- From `s` to `t` no register field or cell but the listed ones differs, and nothing else of the state does: no byte of memory, no
FIFO, no queue, nothing driven to the outside. -/
structure OnlyFields (fs : List Fld) (s t : State) : Prop where
  others : t = { s with cells := t.cells }
  fields : ∀ g : Fld, (∀ f ∈ fs, g.key ≠ f.key) → t.rd g = s.rd g

/-- Registers and memory of `t` are those of `s`. -/
structure SameCells (s t : State) : Prop where
  cells : t.cells = s.cells
  bytes : ∀ a, t.byte a = s.byte a

end Sys2Proof.Machine
end

