-- ==== Sys2Proof/Certificates/Slice0/Obligations.lean ====
section
/-! DEFINITION. The statements about the model, each for the provers. -/

open Sys2Proof Sys2Proof.Machine

/-- A register access whose path is open reaches its block: REGISTER_WRITE, the pair halves and the aliases. -/
def Obligations.RegisterAccessSteps : Prop :=
  (∀ (m : Master) (x : BitVec 30) (w : Word) (s t : State), x.toNat < 0x10000000 →
    ¬(m = .debug ∧ !s.dbgMay true (regBase + x.toNat) ∧ x.toNat / 2 ^ 20 ≠ 7) →
    (s.takePeek m x.toNat).2.busPath m true x.toNat = (.ok, t) → t.blockAnswers x.toNat = true →
    ∀ u, u = (t.answer .ok []).regWrite m (x.toNat / 2 ^ 20) (x.toNat % 2 ^ 20) w.toNat →
      exec (.registerWrite m x w) s = .next u
      ∧ (isHalf x.toNat false = true → exec (.loWrite m x w) s = .next u)
      ∧ (isHalf x.toNat true = true → exec (.hiWrite m x w) s = .next u))
  ∧ (∀ (m : Master) (x : BitVec 30) (s t u : State) (v : Nat) (r : MRes), x.toNat < 0x10000000 →
    ¬(m = .debug ∧ !s.dbgMay false (regBase + x.toNat)) →
    (s.takePeek m x.toNat).2.busPath m false x.toNat = (.ok, t) → t.blockAnswers x.toNat = true →
    t.regRead m (s.takePeek m x.toNat).1 (x.toNat / 2 ^ 20) (x.toNat % 2 ^ 20) = (v, r, u) →
      (isHalf x.toNat false = true → exec (.loRead m x) s = .next (u.answer r (if r = .ok then leBytes 4 v else [])))
      ∧ (isHalf x.toNat true = true → exec (.hiRead m x) s = .next (u.answer r (if r = .ok then leBytes 4 v else []))))
  ∧ (∀ (m : Master) (x : BitVec 30) (w : Word) (s t : State), 0x10000000 ≤ x.toNat →
    ¬(m = .debug ∧ !s.dbgMay true (regBase + x.toNat)) → (s.takePeek m x.toNat).2.busPath m true x.toNat = (.ok, t) → t.blockAnswers 0 = true →
    exec (.aliasWrite m x w) s = .next (t.aliasWrite x.toNat w.toNat))
  ∧ (∀ (m : Master) (x : BitVec 30) (s t : State), 0x10000000 ≤ x.toNat →
    ¬(m = .debug ∧ !s.dbgMay false (regBase + x.toNat)) → (s.takePeek m x.toNat).2.busPath m false x.toNat = (.ok, t) → t.blockAnswers 0 = true →
    exec (.aliasRead m x) s = .next (t.aliasRead x.toNat))
  ∧ (∀ (m : Master) (x : BitVec 30) (w : Word) (s t : State), x.toNat < 0x10000000 →
    ¬(m = .debug ∧ !s.dbgMay true (regBase + x.toNat) ∧ x.toNat / 2 ^ 20 ≠ 7) →
    (s.takePeek m x.toNat).2.busPath m true x.toNat = (.ok, t) → t.blockAnswers x.toNat = false →
    exec (.registerWrite m x w) s = .next (t.answer .err []))
  ∧ (∀ (x : BitVec 30) (w : Word) (s : State), s.dbgMay true (regBase + x.toNat) = false → x.toNat / 2 ^ 20 ≠ 7 →
    exec (.registerWrite .debug x w) s = .next (s.answer .err []))

/-- Bring-up commands of a probe port take effect in the states R43 gives, and a transmit source takes effect at a marker (R46). -/
def Obligations.PortBringUpSteps : Prop :=
  (∀ (p : Fin 4) (w : Word) (s : State), s.on (Reg.PRB_CTRL_EN p) = false →
    ∀ s1, s1 = s.writeReg (0x010 + p) 0x8 (setBit w.toNat 0) → s1.on (Reg.PRB_CTRL_EN p) = true → s1.rateOk p = true →
    s1.bstOn 8 p = false → s1.bstIs 0 = false →
    Answers (.prbEnable p w) s (fun t => ∃ u : State, u.rd (Reg.PRB_STAT_STATE p) = 1 ∧ u.rd (Hid.drvOff p) = 0
      ∧ u = State.each lanes (fun k v => v.wr (Hid.laneIdle p k) 0) ((s1.prbGo p 1).wr (Hid.drvOff p) 0)
      ∧ t = (if u.on (Hid.txRun p) then u.txStop p else u).txSrcApply p))
  ∧ (∀ (p : Fin 4) (w : Word) (s : State), s.on (Reg.PRB_CTRL_EN p) = true →
    (s.writeReg (0x010 + p) 0x8 (clrBit w.toNat 0)).on (Reg.PRB_CTRL_EN p) = false →
    Answers (.prbDisable p w) s (fun t => t = ((s.writeReg (0x010 + p) 0x8 (clrBit w.toNat 0)).prbOff p).txSrcApply p))
  ∧ (∀ (p : Fin 4) (s : State), (s.prbOff p).rd (Reg.PRB_STAT_STATE p) = 0 ∧ (s.prbOff p).rd (Hid.txRun p) = 0)
  ∧ (∀ (p : Fin 4) (s : State), s.rd (Reg.PRB_STAT_STATE p) = 1 →
    Answers (.prbPllLocked p) s (fun t => ∃ u : State, u = (s.wr (Reg.PRB_STAT_PLL_LOCK p) 1).prbAcquire p ∧
      u.rd (Reg.PRB_STAT_STATE p) = 2 ∧ u.rd (Reg.PRB_STAT_PLL_LOCK p) = 1 ∧ t = if u.txWanted p then u.txStart p else u))
  ∧ (∀ (p : Fin 4) (s : State), s.rd (Reg.PRB_STAT_STATE p) = 1 →
    Answers (.prbPllTimeout p) s (fun t => OnlyFields [Reg.PRB_STAT_STATE p, Reg.PRB_STAT_FAULT_CAUSE p] s t
      ∧ t.rd (Reg.PRB_STAT_STATE p) = 8 ∧ t.rd (Reg.PRB_STAT_FAULT_CAUSE p) = 1))
  ∧ (∀ (p : Fin 4) (s : State), s.rd (Reg.PRB_STAT_STATE p) = 2 →
    Answers (.fclkTimeout p) s (fun t => OnlyFields [Reg.PRB_STAT_STATE p, Reg.PRB_STAT_FAULT_CAUSE p] s t
      ∧ t.rd (Reg.PRB_STAT_STATE p) = 8 ∧ t.rd (Reg.PRB_STAT_FAULT_CAUSE p) = 2))
  ∧ (∀ (p : Fin 4) (s : State), s.rd (Reg.PRB_STAT_STATE p) = 4 →
    Answers (.blockLockTimeout p) s (fun t => OnlyFields [Reg.PRB_STAT_STATE p, Reg.PRB_STAT_FAULT_CAUSE p] s t
      ∧ t.rd (Reg.PRB_STAT_STATE p) = 8 ∧ t.rd (Reg.PRB_STAT_FAULT_CAUSE p) = 3))
  ∧ (∀ (p : Fin 4) (s : State), s.rd (Reg.PRB_STAT_STATE p) = 5 →
    Answers (.markerLockTimeout p) s (fun t => OnlyFields [Reg.PRB_STAT_STATE p, Reg.PRB_STAT_FAULT_CAUSE p] s t
      ∧ t.rd (Reg.PRB_STAT_STATE p) = 8 ∧ t.rd (Reg.PRB_STAT_FAULT_CAUSE p) = 4))
  ∧ (∀ (p : Fin 4) (s : State), s.rd (Reg.PRB_STAT_STATE p) = 2 →
    Answers (.fclkAcquired p) s (fun t =>
      OnlyFields [Reg.PRB_STAT_STATE p, Reg.PRB_STAT_FAULT_CAUSE p, Reg.PRB_FCLK_RX_FCLK_DET p, Hid.fclkLost p] s t
      ∧ t.rd (Reg.PRB_STAT_STATE p) = 3 ∧ t.rd (Reg.PRB_FCLK_RX_FCLK_DET p) = 1))
  ∧ (∀ (p : Fin 4) (s : State), s.rd (Reg.PRB_STAT_STATE p) = 3 →
    Answers (.eqAdaptDone p) s (fun t => OnlyFields [Reg.PRB_STAT_STATE p, Reg.PRB_STAT_FAULT_CAUSE p] s t
      ∧ t.rd (Reg.PRB_STAT_STATE p) = 4))
  ∧ (∀ (p : Fin 4) (s : State), s.rd (Hid.txSrcNow p) ≠ 1 → s.sendsMarkers p = false ∨ s.rd (Hid.txRows p) % 16384 = 0 →
    Answers (.txSrcChange p) s (fun t => OnlyFields [Hid.txSrcNow p] s t
      ∧ t.rd (Hid.txSrcNow p) = s.rd (Reg.PRB_CTRL_TX_SRC p) % 4))

/-- Blocks, markers, rows and loss on a probe port, and blocks and markers on a lane of a Ramzel link, complete with the effects
listed, which rest on R32 to R44, R48 and R362; the island bound to the port reads its rows. -/
def Obligations.PortReceptionSteps : Prop :=
  (∀ (p : Fin 6) (k : Fin 16) (hdr : Fin 4) (x : DWord) (s : State), p.val < 4 → s.rxPins p = true → s.laneListens p k = true →
    (s.lostLanes p).contains k.val = false →
    s.on (Reg.PRB_LN_STAT_BLOCK_LOCK p k) = false → s.on (Reg.PRB_LN_STAT_POL_INV p k) = false → hdr = 1 ∨ hdr = 2 →
    s.rd (Hid.okRun p k) < 63 →
    Answers (.blockReceived p k hdr x) s (fun t =>
      OnlyFields [Reg.PRB_LN_STAT_SIG_DET p k, Hid.okRun p k, Hid.descr p k] s t
      ∧ t.rd (Hid.okRun p k) = s.rd (Hid.okRun p k) + 1 ∧ t.rd (Reg.PRB_LN_STAT_SIG_DET p k) = 1))
  ∧ (∀ (p : Fin 6) (k : Fin 16) (hdr : Fin 4) (x : DWord) (s : State), p.val < 4 → s.rd (Reg.PRB_CTRL_LOOP p) = 0 → s.laneListens p k = true →
    (s.lostLanes p).contains k.val = false → s.on (Reg.PRB_LN_STAT_BLOCK_LOCK p k) = true →
    exec (.blockReceived p k hdr x) s = .next ((s.wr (Reg.PRB_LN_STAT_SIG_DET p k) 1).laneBlock p k
      (takenAs (s.on (Reg.PRB_LN_STAT_POL_INV p k)) hdr x.toNat).1 (takenAs (s.on (Reg.PRB_LN_STAT_POL_INV p k)) hdr x.toNat).2))
  ∧ (∀ (p : Fin 6) (k : Fin 16) (hdr : Fin 4) (x : DWord) (s : State), p.val < 4 → s.rd (Reg.PRB_CTRL_LOOP p) = 3 → s.laneListens p k = true →
    (s.lostLanes p).contains k.val = false → s.on (Reg.PRB_LN_STAT_BLOCK_LOCK p k) = true → s.txDrives p k = true →
    exec (.blockReceived p k hdr x) s = .next (((s.emit (.txRow p [(k, hdr, x.toNat)])).wr (Reg.PRB_LN_STAT_SIG_DET p k) 1).laneBlock p k
      (takenAs (s.on (Reg.PRB_LN_STAT_POL_INV p k)) hdr x.toNat).1 (takenAs (s.on (Reg.PRB_LN_STAT_POL_INV p k)) hdr x.toNat).2))
  ∧ (∀ (p : Fin 6) (k : Fin 16) (hdr : Fin 4) (x : DWord) (n : Nat) (s : State), p.val < 4 → s.rd (Reg.PRB_CTRL_LOOP p) = 0 →
    s.laneListens p k = true → (s.lostLanes p).contains k.val = false →
    s.on (Reg.PRB_LN_STAT_BLOCK_LOCK p k) = true → s.on (Reg.PRB_LN_STAT_POL_INV p k) = false →
    markerOk hdr x.toNat = true →
    (s.rd (Reg.PRB_STAT_STATE p) = 5 → s.rd (Reg.PRB_LN_CTRL_RX_POL p k) ≠ 2 →
      exec (.markerReceived p k hdr x n) s = .next ((s.laneHeader p k false).markerHunt p k x.toNat false))
    ∧ (s.rd (Reg.PRB_STAT_STATE p) = 6 →
      exec (.markerReceived p k hdr x n) s = .next ((s.laneHeader p k false).markerDeskew p k x.toNat n))
    ∧ (s.rd (Reg.PRB_STAT_STATE p) = 7 → s.rd (Hid.sinceMkr p k) = 16383 →
      exec (.markerReceived p k hdr x n) s = .next ((s.laneHeader p k false).markerUp p k hdr x.toNat n)))
  ∧ (∀ (p : Fin 4) (s : State), s.rd (Reg.PRB_STAT_STATE p) = 7 → s.lostLanes p = [] → s.rowLanes p ≠ [] →
    (∀ k ∈ s.rowLanes p, (Tab.getD s.laneBuf (16 * p + k) []).isEmpty = false) →
    ∀ slots, slots = (s.rowLanes p).filterMap (fun k => (Tab.getD s.laneBuf (16 * p + k) []).head?) →
    ∀ u, u = State.each (s.rowLanes p) (fun k t =>
      { t with laneBuf := Tab.set t.laneBuf (16 * p + k) [] ((Tab.getD t.laneBuf (16 * p + k) []).drop 1) }) s →
    ∀ r : PRow, r = ⟨slots, s.now - s.rxLat p, s.rd (Hid.rowNo p)⟩ →
    (slots.any (fun x => x.marker) = true → exec (.rowRelease p) s = .next u)
    ∧ (slots.any (fun x => x.marker) = false → exec (.rowRelease p) s =
      .next ((((u.add (Hid.rowNo p) 1).wr (Hid.rowTs p (r.num % 128)) r.time).deliverRow p r).hopDeliver p r)))
  ∧ (∀ (n : Fin 80) (p : Nat) (r : PRow) (rest : List PRow) (s : State), s.portOf n = some p →
    s.rd (Reg.ISL_STAT_STATE n) = 3 → s.clkRuns n = true → Tab.getD s.islFifo p [] = r :: rest →
    Answers (.islandRowRead n) s (fun t => t = { s with islFifo := t.islFifo, last := t.last } ∧ Tab.getD t.islFifo p [] = rest
      ∧ t.last = ⟨.ok, r.slots.flatMap (fun (x : Slot) => leBytes 8 x.payload.toNat ++ leBytes 1 (x.hdr + 4 * b2n x.err))⟩))
  ∧ (∀ (p : Fin 4) (s : State), s.rd (Reg.PRB_STAT_STATE p) = 7 → s.lostLanes p = [] →
    Answers (.portLoss p true) s (fun t => ∃ u,
      u = (((s.wr (Hid.fclkLost p) 1).wr (Reg.PRB_FCLK_RX_FCLK_DET p) 0).prbEvent p 3).prbEvent p 1 ∧
      t = if u.on (Reg.PRB_CTRL_AUTO_RETRAIN p) then u.prbAcquire p else u.prbFault p 7))
  ∧ (∀ (p : Fin 4) (clk : Bool) (k : Nat) (s : State), s.lostLanes p = [k] →
    Answers (.portLoss p clk) s (fun t => ∃ u, u = (s.prbEvent p 2).prbEvent p 1 ∧
      t = if u.on (Reg.PRB_CTRL_AUTO_RETRAIN p) then u.prbAcquire p else u.prbFault p 7))
  ∧ (∀ (p : Fin 4) (clk : Bool) (s : State), 2 ≤ (s.lostLanes p).length →
    Answers (.portLoss p clk) s (fun t => ∃ u, u = s.prbEvent p 1 ∧
      t = if u.on (Reg.PRB_CTRL_AUTO_RETRAIN p) then u.prbAcquire p else u.prbFault p 7))
  ∧ (∀ (p : Fin 6) (k : Fin 16) (hdr : Fin 4) (x : DWord) (s : State) (l : Nat), p.val = l + 4 → s.rlkListens l k = true →
    Answers (.blockReceived p k hdr x) s (fun t =>
      OnlyFields [Reg.RLK_LN_HDR_ERR l k, Hid.rlkSinceMkr l k] s t
      ∧ t.rd (Reg.RLK_LN_HDR_ERR l k) = if hdr = 1 ∨ hdr = 2 then s.rd (Reg.RLK_LN_HDR_ERR l k)
          else min (s.rd (Reg.RLK_LN_HDR_ERR l k) + 1) (2 ^ 32 - 1)))
  ∧ (∀ (p : Fin 6) (k : Fin 16) (hdr : Fin 4) (x : DWord) (n : Nat) (s : State) (l : Nat), p.val = l + 4 →
    s.rlkListens l k = true → s.on (Reg.RLK_LN_STAT_MARKER_LOCK l k) = true → s.rd (Hid.rlkSinceMkr l k) = 16384 →
    ∀ m, m = takenAs (s.on (Reg.RLK_LN_STAT_POL_INV l k)) hdr x.toNat →
    Answers (.markerReceived p k hdr x n) s (fun t =>
      OnlyFields [Reg.RLK_LN_HDR_ERR l k, Reg.RLK_LN_MKR_ERR l k, Hid.rlkSinceMkr l k] s t ∧ t.rd (Hid.rlkSinceMkr l k) = 1
      ∧ t.rd (Reg.RLK_LN_MKR_ERR l k) =
          if markerOk m.1 m.2 && bits m.2 11 8 == s.rd (Reg.RLK_LN_STAT_LOGICAL l k) then s.rd (Reg.RLK_LN_MKR_ERR l k)
          else min (s.rd (Reg.RLK_LN_MKR_ERR l k) + 1) (2 ^ 32 - 1)))

/-- Commands, measurements, calibrations and faults of a probe port complete with the effects listed, which rest on R40, R43, R50 to R58, R60, R484 and R485. -/
def Obligations.PortCommandSteps : Prop :=
  (∀ (p : Fin 4) (s : State), s.on (Reg.PRB_CTRL_EN p) = true → 2 ≤ s.rd (Reg.PRB_STAT_STATE p) →
    s.rd (Reg.PRB_STAT_STATE p) < 7 → exec (.prbRetrain p) s = .next (s.prbAcquire p))
  ∧ (∀ (p : Fin 4) (s : State), s.on (Reg.PRB_STAT_FMEAS_BUSY p) = false →
    Answers (.fmeasStart p) s (fun t => OnlyFields [Reg.PRB_STAT_FMEAS_BUSY p, Reg.PRB_FMEAS_CTRL_DONE p] s t
      ∧ t.rd (Reg.PRB_STAT_FMEAS_BUSY p) = 1 ∧ t.rd (Reg.PRB_FMEAS_CTRL_DONE p) = 0))
  ∧ (∀ (p : Fin 4) (s : State), s.on (Reg.PRB_STAT_FMEAS_BUSY p) = true →
    Answers (.fmeasStop p) s (fun t => OnlyFields [Reg.PRB_STAT_FMEAS_BUSY p] s t ∧ t.rd (Reg.PRB_STAT_FMEAS_BUSY p) = 0))
  ∧ (∀ (p : Fin 4) (c : Word) (s : State), s.on (Reg.PRB_STAT_FMEAS_BUSY p) = true →
    s.rd (Reg.PRB_FMEAS_MIN p) ≤ c.toNat → c.toNat ≤ s.rd (Reg.PRB_FMEAS_MAX p) → s.rd (Reg.PRB_FMEAS_CTRL_CONT p) = 0 →
    Answers (.fmeasGateEnd p c) s (fun t => OnlyFields [Reg.PRB_FMEAS_CNT p, Reg.PRB_FMEAS_CTRL_DONE p,
        Reg.PRB_FMEAS_CTRL_IN_RANGE p, Reg.PRB_STAT_FMEAS_BUSY p] s t
      ∧ t.rd (Reg.PRB_FMEAS_CNT p) = c.toNat ∧ t.rd (Reg.PRB_FMEAS_CTRL_DONE p) = 1
      ∧ t.rd (Reg.PRB_FMEAS_CTRL_IN_RANGE p) = 1 ∧ t.rd (Reg.PRB_STAT_FMEAS_BUSY p) = 0))
  ∧ (∀ (p : Fin 4) (s : State), s.rd (Reg.PRB_STAT_STATE p) = 7 → s.rd (Reg.PRB_CTRL_LOOP p) ≠ 2 →
    exec (.calNow p) s = .next (State.each (lanes.filter (fun k => s.laneUsed p k)) (fun k t => t.laneHandover p k) s))
  ∧ (∀ (p : Fin 4) (s : State), Answers (.prbClrCnt p) s (fun t =>
      OnlyFields (Reg.PRB_DROP p :: lanes.flatMap (fun k => [Reg.PRB_LN_HDR_ERR p k, Reg.PRB_LN_MKR_ERR p k])) s t ∧ t.rd (Reg.PRB_DROP p) = 0
      ∧ ∀ k : Fin 16, t.rd (Reg.PRB_LN_HDR_ERR p k) = 0 ∧ t.rd (Reg.PRB_LN_MKR_ERR p k) = 0))
  ∧ (∀ (p : Fin 4) (k : Fin 16) (s : State), s.rd (Reg.PRB_STAT_STATE p) ≠ 0 → s.on (Reg.PRB_LN_CTRL_OFF p k) = false →
    s.rd (Reg.PRB_CTRL_LOOP p) ≠ 2 → s.calBlocked 0 = false → s.on (Hid.calDeg 0 (16 * p + k)) = false → min (s.rd (Hid.calIvals p k) + 1) 65535 ≤ s.rd (Reg.PRB_CAL_CTRL_AGE_LIMIT p) →
    Answers (.laneCalInterval p k) s (fun t => OnlyFields [Hid.calMode p k, Hid.calIvals p k, Hid.calPend p k] s t
      ∧ t.rd (Hid.calPend p k) = 1))
  ∧ (∀ (p : Fin 4) (k : Fin 16) (s : State), s.on (Hid.calPend p k) = true → s.on (Hid.calMode p k) = false →
    s.rd (Hid.idleRun p k) = 32 → exec (.calHandover p k) s = .next (s.laneHandover p k))
  ∧ (∀ s : State, Answers .laneRailFault s (fun t =>
      OnlyFields [Hid.drvOff 0, Hid.drvOff 1, Hid.drvOff 2, Hid.drvOff 3, Hid.rlkDrvOff 0, Hid.rlkDrvOff 1] s t
      ∧ (∀ p : Fin 4, t.rd (Hid.drvOff p) = 1) ∧ ∀ l : Fin 2, t.rd (Hid.rlkDrvOff l) = 1))
  ∧ (∀ (p : Fin 6) (k : Fin 16) (s : State),
    (p.val < 4 → exec (.pinShort p k) s = .next ((s.wr (Hid.laneIdle p k) 1).prbEvent p 2))
    ∧ (4 ≤ p.val → exec (.pinShort p k) s = .next (s.wr (Hid.rlkLaneIdle (p - 4) k) 1)))
  ∧ (∀ (p : Fin 4) (s : State), s.on (Reg.PRB_CTRL_EN p) = true → s.rd (Reg.PRB_STAT_STATE p) ≠ 7 →
    Answers (.portConfigUpset p) s (fun t =>
      (∃ u, OnlyFields [Reg.PRB_STAT_STATE p, Hid.drvOff p, Reg.PRB_STAT_FAULT_CAUSE p] s u ∧ t = { u with freeCtr := s.freeCtr + 1 })
      ∧ t.rd (Reg.PRB_STAT_STATE p) = 8 ∧ t.rd (Hid.drvOff p) = 1
      ∧ t.rd (Reg.PRB_STAT_FAULT_CAUSE p) = Config.freeValue s.freeCtr % 16))
  ∧ (∀ (p : Fin 4) (w : Word) (s : State), s.on (Reg.PRB_BIND_DELIV_EN p) = false →
    bits w.toNat 6 0 < 80 → 8 ≤ bits w.toNat 6 0 % 10 → bits w.toNat 6 0 ≠ s.rd (Reg.PRB_BIND_ISLAND p) →
    (∀ q : Fin 4, q ≠ p → s.on (Reg.PRB_BIND_DELIV_EN q) = true → s.rd (Reg.PRB_BIND_ISLAND q) ≠ bits w.toNat 6 0) →
    Answers (.prbBindWrite p w) s (fun t =>
      (∃ u, OnlyFields [Reg.PRB_BIND_ISLAND p, Reg.PRB_BIND_DELIV_EN p] s u
        ∧ t = { u with islFifo := Tab.del s.islFifo p, fabVals := Tab.del s.fabVals p })
      ∧ t.rd (Reg.PRB_BIND_ISLAND p) = bits w.toNat 6 0 ∧ t.rd (Reg.PRB_BIND_DELIV_EN p) = b2n (bit w.toNat 8)))

/-- Capture commands complete with the effects listed, which rest on R67, R72 to R79, R105, R113, R237 and R247: a mark reaches its row
in the pipeline's delay, a staged record is stored or lost, and files are armed, stopped, triggered and cleared. -/
def Obligations.CaptureSteps : Prop :=
  (∀ (n : Fin 80) (row : Nat) (a b c : Bool) (tag : Word) (q : Nat) (s : State), s.portOf n = some q →
    s.rd (Reg.ISL_STAT_STATE n) = 3 → s.on (Reg.ISL_STAT_SWITCHING n) = false →
    Answers (.markEntry n row a b c tag) s (fun t => t = { s with hopDelay := t.hopDelay } ∧
      Tab.getD t.hopDelay q [] = (Tab.getD s.hopDelay q []).map (fun r =>
        if r.row.num = row then { r with mark := some ⟨a, b, c, tag.toNat⟩ } else r)))
  ∧ (∀ (f : Fin 16) (q : Nat) (r : Rec) (bs : List Byte) (s t : State), firstRec (s.staged f) = some (q, r) →
    ¬(r.kind = 3 ∧ r.flow = 1) → s.fileTakes f = true → s.bufRead q r.pos r.space = (bs, .ok, t) → t.fileTakes f = true →
    (∀ o, o = t.rd (Reg.HOP_SEG_WOFF (t.rd (Reg.HOP_FILE_STAT_CUR_SEG f))) % 65536 → o = 0 ∨ r.space ≤ 65536 - o) →
    exec (.drainRecord f none) s = .next (((t.takeStaged q r).putRec f q { r with payload := bs.drop 32 }).finishStop f))
  ∧ (∀ (f : Fin 16) (q a : Nat) (r : Rec) (s : State), firstRec (s.staged f) = some (q, r) →
    ¬(r.kind = 3 ∧ r.flow = 1) → s.fileTakes f = true → r.holds q a = true →
    exec (.drainRecord f (some a)) s = .next
      ((((((s.sramUe (s.req .hopper 0) a).takeStaged q r).inc (Reg.HOP_DROP q) 1).raise 257)).finishStop f))
  ∧ (∀ (f : Fin 16) (s : State), s.rd (Reg.HOP_FILE_STAT_STATE f) = 0 → s.on Reg.HOP_CTRL_EN = true →
    s.rd Reg.HBM_STAT_STATE = 3 → ∀ g, g = s.rd (Reg.HOP_FILE_FIRST_SEG f) → g < 1024 →
    (s.fileValid f = true → Answers (.hopArm f) s (fun t =>
      OnlyFields [Hid.fileGen f, Reg.HOP_FILE_STAT_STATE f, Reg.HOP_FILE_STAT_PRE_SHORT f, Reg.HOP_FILE_STAT_POST_SHORT f,
        Reg.HOP_FILE_STAT_FAULT_CAUSE f, Reg.HOP_SEG_STAT_STATE g, Reg.HOP_SEG_WOFF g, Reg.HOP_SEG_STAT_WRAPPED g,
        Reg.HOP_FILE_STAT_CUR_SEG f, Hid.fileArmed f, Hid.filePost f, Hid.fileTrec f, Hid.fileWant f, Hid.fileWrap f,
        Reg.HOP_FILE_OLD f] s t
      ∧ t.rd (Reg.HOP_FILE_STAT_STATE f) = 1
      ∧ t.rd (Reg.HOP_FILE_STAT_PRE_SHORT f) = 0 ∧ t.rd (Reg.HOP_FILE_STAT_POST_SHORT f) = 0
      ∧ t.rd (Reg.HOP_FILE_STAT_CUR_SEG f) = g
      ∧ t.rd (Reg.HOP_SEG_STAT_STATE g) = 1
      ∧ t.rd (Reg.HOP_SEG_WOFF g) = 0))
    ∧ (s.fileValid f = false → exec (.hopArm f) s = .next
      (((s.wr (Reg.HOP_FILE_STAT_STATE f) 5).wr (Reg.HOP_FILE_STAT_FAULT_CAUSE f) 1).raise 261)))
  ∧ (∀ (f : Fin 16) (s : State), s.rd (Reg.HOP_FILE_STAT_STATE f) = 1 → s.staged f ≠ [] →
    Answers (.hopStop f) s (fun t => OnlyFields [Reg.HOP_FILE_STAT_STATE f] s t ∧ t.rd (Reg.HOP_FILE_STAT_STATE f) = 6))
  ∧ (∀ (f : Fin 16) (s : State), s.rd (Reg.HOP_FILE_STAT_STATE f) = 2 → s.staged f ≠ [] →
    Answers (.hopStop f) s (fun t => OnlyFields [Reg.HOP_FILE_STAT_STATE f, Reg.HOP_FILE_STAT_POST_SHORT f] s t
      ∧ t.rd (Reg.HOP_FILE_STAT_STATE f) = 6 ∧ t.rd (Reg.HOP_FILE_STAT_POST_SHORT f) = 1))
  ∧ (∀ (f : Fin 16) (s : State), s.rd (Reg.HOP_FILE_STAT_STATE f) = 1 → s.staged f = [] → Tab.getD s.hopTail f [] = [] →
    Answers (.hopStop f) s (fun t => OnlyFields [Reg.HOP_FILE_STAT_STATE f] s t ∧ t.rd (Reg.HOP_FILE_STAT_STATE f) = 4))
  ∧ (∀ (f : Fin 16) (s : State), s.rd (Reg.HOP_FILE_STAT_STATE f) = 1 →
    exec (.hopForceTrig f) s = .next ((((((s.wr (Reg.HOP_FILE_TTS f) s.now).wr (Reg.HOP_FILE_STAT_STATE f) 2).wr
      (Hid.fileWant f) 1).wr (Hid.filePost f) 0).setB Reg.HOP_EVT_FILE_TRIGGERED f).raise 258))
  ∧ (∀ (f : Fin 16) (s : State), s.rd (Reg.HOP_FILE_STAT_STATE f) = 3 ∨ s.rd (Reg.HOP_FILE_STAT_STATE f) = 4
      ∨ s.rd (Reg.HOP_FILE_STAT_STATE f) = 5 →
    Answers (.hopClear f) s (fun t => (∃ u, OnlyFields (Hid.fileGen f :: Reg.HOP_FILE_STAT_STATE f :: (s.fileSegs f).flatMap (fun g =>
        [Reg.HOP_SEG_STAT_STATE g, Reg.HOP_SEG_STAT_WRAPPED g, Reg.HOP_SEG_WOFF g, Hid.segEnt g])) s u
        ∧ t = { u with hopTail := Tab.del s.hopTail f })
      ∧ t.rd (Reg.HOP_FILE_STAT_STATE f) = 0))
  ∧ (∀ s : State, Answers .hopClrCnt s (fun t =>
      OnlyFields ([0, 1, 2, 3].flatMap (fun q => [Reg.HOP_DROP q, Reg.HOP_FILTERED q])) s t
      ∧ ∀ q : Fin 4, t.rd (Reg.HOP_DROP q) = 0 ∧ t.rd (Reg.HOP_FILTERED q) = 0))

/-- Trigger commands complete with the effects listed, which rest on R85 to R94, R105 and R371: a Lantern cycle, the end of timers and
pulses, and Lantern's commands. -/
def Obligations.TriggerSteps : Prop :=
  (∀ (x : BitVec 8) (s s0 u : State) (prev now : Nat), s0 = State.each (List.range 8) State.pinTick (s.wr Hid.trigIn x.toNat) →
    prev = s.rd Hid.lanPrev ||| 2 ^ 254 → (u, now) = (if s.on Reg.LAN_STAT_RUN then s0.lanRun prev else (s0, s0.srcLevels)) →
    exec (.lanternCycle x) s = .next (State.each [0, 1] (fun l v => State.each (List.range 4) (fun k w =>
        w.wr (Hid.rlkTrig l k) (w.rd (Hid.rlkTrig l k) - 1)) v)
      (State.each (List.range 4) (fun c v => v.wr (Hid.sigLatch c) (if s.on (Hid.sigLatch c) then 0 else v.rd (Hid.sigLatch c)))
        (State.each (List.range 80) (fun n v => v.wr (Hid.tapLatch n) 0) ((u.wr Hid.lanPrev now).wr Hid.ctrPrev s0.ctrTerms)))))
  ∧ (∀ (s s1 t : State) (prev now : Nat) (a : Nat) (edges : List Nat), s1 = State.each (List.range 8) State.tmrTick s →
    edges = s1.ctrEdges s1.srcLevels prev → t = State.each edges (fun c t => t.inc (Reg.LAN_CTR_VAL c) 1) s1 → now = t.srcLevels →
    [0, 1, 2, 3].find? (fun b => t.arcTrue now prev (s.rd Reg.LAN_STAT_CUR_STATE) b) = some a →
    s.lanRun prev = (((t.arcActs edges (s.rd Reg.LAN_STAT_CUR_STATE) a).wr Reg.LAN_STAT_CUR_STATE
      (s.rd (Reg.LAN_COND_NEXT (s.rd Reg.LAN_STAT_CUR_STATE) a))).wr Reg.LAN_ARC_TS s.now, now))
  ∧ (∀ (k : Fin 8) (s : State), s.on Reg.LAN_STAT_RUN = true → s.on (Hid.tmrRun k) = true →
    Answers (.lanTimerExpire k) s (fun t => OnlyFields [Reg.LAN_TMR_VAL k, Hid.tmrSub k, Hid.tmrRun k, Hid.tmrExp k] s t
      ∧ t.rd (Reg.LAN_TMR_VAL k) = 0 ∧ t.rd (Hid.tmrRun k) = 0 ∧ t.rd (Hid.tmrExp k) = 1))
  ∧ (∀ (k : Fin 8) (s : State), s.rd (Hid.toutPulse k) ≠ 0 →
    Answers (.trigOutPulseEnd k) s (fun t => OnlyFields [Hid.toutPulse k, Hid.toutLvl k] s t ∧ t.rd (Hid.toutLvl k) = 0
      ∧ t.rd (Hid.toutPulse k) = 0))
  ∧ (∀ s : State, s.on Reg.LAN_STAT_RUN = false → s.bstIs 0 = false →
    Answers .lanStart s (fun t =>
      OnlyFields ([Reg.LAN_STAT_RUN, Reg.LAN_STAT_CUR_STATE] ++ (List.range 16).map Reg.LAN_CTR_VAL
        ++ (List.range 8).flatMap (fun k => [Hid.tmrRun k, Hid.tmrExp k, Reg.LAN_TMR_VAL k])) s t
      ∧ t.rd Reg.LAN_STAT_RUN = 1
      ∧ t.rd Reg.LAN_STAT_CUR_STATE = s.rd Reg.LAN_CTRL_INIT_STATE % 32 ∧ (∀ c : Fin 16, t.rd (Reg.LAN_CTR_VAL c) = 0)
      ∧ ∀ k : Fin 8, t.rd (Hid.tmrRun k) = 0 ∧ t.rd (Hid.tmrExp k) = 0))
  ∧ (∀ s : State, s.on Reg.LAN_STAT_RUN = true →
    Answers .lanStop s (fun t => OnlyFields [Reg.LAN_STAT_RUN] s t ∧ t.rd Reg.LAN_STAT_RUN = 0))
  ∧ (∀ (q : Fin 32) (s : State), s.on Reg.LAN_STAT_RUN = true →
    Answers (.lanForce q) s (fun t => OnlyFields [Reg.LAN_STAT_CUR_STATE] s t ∧ t.rd Reg.LAN_STAT_CUR_STATE = q))
  ∧ (∀ s : State, s.on Reg.LAN_STAT_RUN = false →
    Answers .lanClrOut s (fun t => OnlyFields ((List.range 8).flatMap (fun k => [Hid.toutLvl k, Hid.toutPulse k])) s t
      ∧ ∀ k : Fin 8, t.rd (Hid.toutLvl k) = 0 ∧ t.rd (Hid.toutPulse k) = 0))
  ∧ (∀ s : State, s.on Reg.LAN_STAT_RUN = false →
    Answers .lanClrCnt s (fun t =>
      OnlyFields (Reg.LAN_CTX_DROP :: (List.range 16).map Reg.LAN_CTR_VAL
        ++ (List.range 8).flatMap (fun k => [Hid.tmrRun k, Hid.tmrExp k, Reg.LAN_TMR_VAL k])) s t
      ∧ t.rd Reg.LAN_CTX_DROP = 0 ∧ (∀ c : Fin 16, t.rd (Reg.LAN_CTR_VAL c) = 0)
      ∧ ∀ k : Fin 8, t.rd (Hid.tmrRun k) = 0 ∧ t.rd (Hid.tmrExp k) = 0))

/-- Runner commands and the frame line complete with the effects listed, which rest on R46, R98 to R105. -/
def Obligations.ChannelSteps : Prop :=
  (∀ (c : Fin 4) (s : State), s.chMayStart c = true →
    Answers (.runStart c) s (fun t => (∃ u, OnlyFields [Reg.RUN_CH_STAT_STATE c, Reg.RUN_CH_PC_PC c, Hid.chGap c, Hid.chWait c,
        Reg.RUN_CH_FRAMES c, Hid.chFirst c, Hid.chBase c] s u ∧ t = { u with runLoops := Tab.del s.runLoops c })
      ∧ t.rd (Reg.RUN_CH_STAT_STATE c) = 1 ∧ t.rd (Reg.RUN_CH_FRAMES c) = 0
      ∧ t.rd (Reg.RUN_CH_PC_PC c) = s.rd (Reg.RUN_CH_CTRL_START_ADDR c) % 65536 ∧ t.rd (Hid.chGap c) = 0
      ∧ t.rd (Hid.chFirst c) = 1 ∧ t.rd (Hid.chBase c) = slotCeil (s.txNow c) % 2 ^ (Hid.chBase c).w))
  ∧ (∀ (c : Fin 4) (s : State), s.rd (Reg.RUN_CH_STAT_STATE c) = 1 ∨ s.rd (Reg.RUN_CH_STAT_STATE c) = 2 →
    Answers (.runStop c) s (fun t => ∃ u : State, u = ({ s with runQueue := Tab.del s.runQueue c }).tplFlush c
      ∧ t = (u.wr (Reg.RUN_CH_STAT_STATE c) 4).wr (Hid.chTs c) 0))
  ∧ (∀ (c : Fin 4) (s : State), s.rd (Reg.RUN_CH_STAT_STATE c) = 2 →
    Answers (.runGo c) s (fun t => OnlyFields [Reg.RUN_CH_STAT_STATE c, Hid.chFirst c, Hid.chBase c] s t
      ∧ t.rd (Reg.RUN_CH_STAT_STATE c) = 1 ∧ t.rd (Hid.chFirst c) = 1
      ∧ t.rd (Hid.chBase c) = slotCeil (s.txNow c) % 2 ^ (Hid.chBase c).w))
  ∧ (∀ (c : Fin 4) (s : State), s.rd (Reg.RUN_CH_STAT_STATE c) = 3 ∨ s.rd (Reg.RUN_CH_STAT_STATE c) = 4
      ∨ s.rd (Reg.RUN_CH_STAT_STATE c) = 5 →
    Answers (.runClear c) s (fun t => OnlyFields [Reg.RUN_CH_STAT_STATE c, Reg.RUN_CH_STAT_FAULT_CAUSE c] s t
      ∧ t.rd (Reg.RUN_CH_STAT_STATE c) = 0 ∧ t.rd (Reg.RUN_CH_STAT_FAULT_CAUSE c) = 0))
  ∧ (∀ (c : Fin 4) (s : State), s.rd (Reg.RUN_CH_STAT_STATE c) = 1 → s.on (Hid.chTs c) = true →
    s.rd (Hid.chTsVal c) ≤ s.now % 2 ^ 56 → s.rd (Reg.RUN_CH_PC_PC c) < 65535 →
    Answers (.waittsReached c) s (fun t =>
      OnlyFields [Hid.chTs c, Hid.chWait c, Hid.chFirst c, Hid.chBase c, Reg.RUN_CH_PC_PC c] s t
      ∧ t.rd (Hid.chTs c) = 0 ∧ t.rd (Hid.chWait c) = 0 ∧ t.rd (Reg.RUN_CH_PC_PC c) = s.rd (Reg.RUN_CH_PC_PC c) + 1
      ∧ t.rd (Hid.chFirst c) = 1 ∧ t.rd (Hid.chBase c) = slotCeil (s.txNow c) % 2 ^ (Hid.chBase c).w))
  ∧ (∀ (c : Fin 4) (fr : Frame) (l : List Frame) (w a : Nat) (s : State), Tab.getD s.runQueue c [] = fr :: l → fr.raw = true →
    fr.fabs = 0 → s.on (Hid.txRun c) = true → s.rd (Hid.txSrcNow c) = 1 → s.rd (Reg.PRB_CTRL_LOOP c) ≠ 3 →
    w = s.rd (Reg.PRB_CTRL_WIDTH c) → a = (s.startsAt c).2 → a < s.txPos c + 66 * w → (s.startsAt c).1 = a →
    Answers (.frameStart c []) s (fun t =>
      (∃ u, OnlyFields [Hid.chFirst c, Hid.chWait c, Hid.chNom c, Hid.chEnd c] s u
        ∧ t = { u with runQueue := Tab.del s.runQueue c, fabVals := t.fabVals, txLine := t.txLine })
      ∧ Tab.getD t.txLine c [] = Tab.getD s.txLine c [] ++ placed w a none (rawBlocks fr.body)
      ∧ Tab.getD t.fabVals c [] = Tab.getD s.fabVals c []
      ∧ t.rd (Hid.chNom c) = (s.nominal c + 66 * fr.slots + fr.gap * w) % 2 ^ (Hid.chNom c).w))
  ∧ (∀ (c : Fin 4) (fr : Frame) (l : List Frame) (x : Tpl) (a : Nat) (b : Build) (s : State), Tab.getD s.runQueue c [] = fr :: l →
    fr.raw = false → fr.fabs = 0 → s.on (Reg.PRB_BIND_DELIV_EN c) = false →
    s.on (Hid.txRun c) = true → s.rd (Hid.txSrcNow c) = 1 → s.rd (Reg.PRB_CTRL_LOOP c) ≠ 3 →
    a = (s.startsAt c).2 → a < s.txPos c + 66 * s.rd (Reg.PRB_CTRL_WIDTH c) → (s.startsAt c).1 = a →
    (Tab.getD s.tplCache c []).find? (fun y => y.num == fr.tpl) = some x →
    b = s.frameBytes c fr x.vals (Tab.getD s.fabVals c []) (s.tsAt c a) →
    Answers (.frameStart c []) s (fun t => t.mem = s.mem
      ∧ Tab.getD t.txLine c [] = Tab.getD s.txLine c [] ++ placed (s.rd (Reg.PRB_CTRL_WIDTH c)) a (some fr.tpl)
        (sendBlocks (s.rd (Reg.RUN_CH_PRE c)) b.bytes)
      ∧ Tab.getD t.tplCache c [] = (Tab.getD s.tplCache c []).map (fun y =>
        if y.num = x.num then { x with vals := b.vals, frames := (x.frames + 1) % 2 ^ 64 } else y)
      ∧ t.rd (Reg.RUN_CH_FRAMES c) = (s.rd (Reg.RUN_CH_FRAMES c) + 1) % 2 ^ (Reg.RUN_CH_FRAMES c).w))

/-- Runner's instructions complete with the effects listed, which rest on R96 to R104, on a channel whose next instruction has their
opcode. -/
def Obligations.InstructionSteps : Prop :=
  (∀ (c : Fin 4) (s : State), s.rd (Reg.RUN_CH_PC_PC c) < 65535 →
    (s.runsOp c 0 = true → Answers (.insnNop c) s (fun t => OnlyFields [Reg.RUN_CH_PC_PC c] s t
      ∧ t.rd (Reg.RUN_CH_PC_PC c) = s.rd (Reg.RUN_CH_PC_PC c) + 1))
    ∧ (s.runsOp c 2 = true → Answers (.insnGap c) s (fun t => OnlyFields [Hid.chGap c, Reg.RUN_CH_PC_PC c] s t
      ∧ t.rd (Hid.chGap c) = bits (s.insn c) 39 0 ∧ t.rd (Reg.RUN_CH_PC_PC c) = s.rd (Reg.RUN_CH_PC_PC c) + 1))
    ∧ (s.runsOp c 3 = true → Answers (.insnWaitui c) s (fun t => OnlyFields [Hid.chWait c, Reg.RUN_CH_PC_PC c] s t
      ∧ t.rd (Hid.chWait c) = (s.rd (Hid.chWait c) + bits (s.insn c) 39 0) % 2 ^ (Hid.chWait c).w
      ∧ t.rd (Reg.RUN_CH_PC_PC c) = s.rd (Reg.RUN_CH_PC_PC c) + 1))
    ∧ (s.runsOp c 4 = true → (s.loops c).length < 4 → Answers (.insnLoop c) s (fun t =>
      (∃ u, OnlyFields [Reg.RUN_CH_PC_PC c] s u ∧ t = { u with runLoops := t.runLoops })
      ∧ t.loops c = (bits (s.insn c) 31 0, s.rd (Reg.RUN_CH_PC_PC c) + 1) :: s.loops c
      ∧ t.rd (Reg.RUN_CH_PC_PC c) = s.rd (Reg.RUN_CH_PC_PC c) + 1))
    ∧ (s.runsOp c 7 = true → Answers (.insnWaitg c) s (fun t =>
      OnlyFields [Reg.RUN_CH_STAT_STATE c, Reg.RUN_CH_PC_PC c] s t ∧ t.rd (Reg.RUN_CH_STAT_STATE c) = 2
      ∧ t.rd (Reg.RUN_CH_PC_PC c) = s.rd (Reg.RUN_CH_PC_PC c) + 1))
    ∧ (s.runsOp c 9 = true → bits (s.insn c) 39 0 < s.srcSize (bits (s.insn c) 45 42) → Answers (.insnSeek c) s (fun t =>
      OnlyFields [Reg.RUN_SRC_CUR (bits (s.insn c) 45 42), Reg.RUN_CH_PC_PC c] s t
      ∧ t.rd (Reg.RUN_SRC_CUR (bits (s.insn c) 45 42)) = bits (s.insn c) 39 0))
    ∧ (s.runsOp c 10 = true → bits (s.insn c) 45 43 ≠ 7 → ∀ x u, s.tplLoad c (bits (s.insn c) 57 46) = (some x, u) →
      exec (.insnSetf c) s = .next ((u.tplSet c { x with vals := updAt (fun _ => bits (s.insn c) 31 0) (bits (s.insn c) 45 43) x.vals }).chNext c))
    ∧ (s.runsOp c 11 = true → exec (.insnSignal c) s = .next (((s.wr (Hid.sigLatch c) 1).raise (329 + c)).chNext c)))
  ∧ (∀ (c : Fin 4) (n ret : Nat) (l : List (Nat × Nat)) (s : State), s.runsOp c 5 = true → s.loops c = (n + 2, ret) :: l →
    Answers (.insnEndl c) s (fun t =>
      (∃ u, OnlyFields [Reg.RUN_CH_PC_PC c] s u ∧ t = { u with runLoops := t.runLoops }) ∧ t.loops c = (n + 1, ret) :: l
      ∧ t.rd (Reg.RUN_CH_PC_PC c) = ret % 65536))
  ∧ (∀ (c : Fin 4) (s : State), s.runsOp c 6 = true →
    Answers (.insnJmp c) s (fun t => OnlyFields [Reg.RUN_CH_PC_PC c] s t
      ∧ t.rd (Reg.RUN_CH_PC_PC c) = bits (s.insn c) 15 0))
  ∧ (∀ (c : Fin 4) (s : State), s.runsOp c 8 = true →
    Answers (.insnWaitts c) s (fun t => OnlyFields [Hid.chTs c, Hid.chTsVal c] s t
      ∧ t.rd (Hid.chTs c) = 1 ∧ t.rd (Hid.chTsVal c) = bits (s.insn c) 55 0))
  ∧ (∀ (c : Fin 4) (r r2 r3 : MRes) (body img ds : List Byte) (x : Tpl) (l ctl crc : Nat) (u v w y z s : State), s.runsOp c 1 = true →
    r ≠ .held → s.srcRead (bits (s.insn c) 45 42) (bits (s.insn c) 41 28) = some (r, body, u) →
    r2 ≠ .held → u.runRead 0 (u.tplAddr (bits (s.insn c) 57 46)) 392 = (r2, img, v) →
    ctl = ofLeBytes ((img.drop 384).take 2) → ctl % 512 ≤ 384 →
    crc = (if bit ctl 9 then 2 ^ min (u.rd (Reg.RUN_CRC_CFG_WIDTH c 0)) 2 else 0) →
    l = ctl % 512 + bits (s.insn c) 41 28 + crc → 0 < l → l ≤ 16384 →
    v.runRead 0 (v.tplAddr (bits (s.insn c) 57 46) + 448) 56 = (r3, ds, w) →
    w.tplLoad c (bits (s.insn c) 57 46) = (some x, y) →
    z = (if bit (s.insn c) 24 then y else y.srcAdvance (bits (s.insn c) 45 42) (bits (s.insn c) 41 28)) →
    z.rd (Reg.RUN_CH_PC_PC c) < 65535 →
    exec (.insnSend c) s = .next (({ z with runQueue := Tab.set z.runQueue c [] [⟨false, bits (s.insn c) 57 46, img.take (ctl % 512),
        body, (List.range 7).map (fun j => ofLeBytes ((ds.drop (8 * j)).take 8)), bit ctl 9, l / 8 + 2, u.rd (Hid.chGap c)⟩] }).wr
      (Reg.RUN_CH_PC_PC c) (z.rd (Reg.RUN_CH_PC_PC c) + 1)))
  ∧ (∀ (c : Fin 4) (r : MRes) (body : List Byte) (u y s : State), s.runsOp c 12 = true → r ≠ .held →
    s.srcRead (bits (s.insn c) 45 42) (16 * bits (s.insn c) 41 28) = some (r, body, u) →
    y = u.srcAdvance (bits (s.insn c) 45 42) (16 * bits (s.insn c) 41 28) → y.rd (Reg.RUN_CH_PC_PC c) < 65535 →
    exec (.insnRaw c) s = .next (({ y with
      runQueue := Tab.set y.runQueue c [] [⟨true, 0, [], body, [], false, bits (s.insn c) 41 28, s.rd (Hid.chGap c)⟩] }).wr
      (Reg.RUN_CH_PC_PC c) (y.rd (Reg.RUN_CH_PC_PC c) + 1)))
  ∧ (∀ (c : Fin 4) (s : State), s.runsOp c 0x3F = true →
    exec (.insnHalt c) s = .next ((s.chLeave c 3).raise (321 + c)))
  ∧ (∀ (c : Fin 4) (s : State), s.chReady c = true → 12 < s.insn c / 2 ^ 58 → s.insn c / 2 ^ 58 ≠ 0x3F →
    exec (.insnIllegal c) s = .next (s.chFault c 1))

/-- Marigold's key, flow, epoch and tree commands complete with the effects listed, which rest on R109 to R140. -/
def Obligations.FlowSteps : Prop :=
  (∀ (n : Fin 80) (row p : Nat) (key : List Byte) (klen : Fin 64) (len : BitVec 16) (seq lat : Option Word) (umask : BitVec 10)
    (add : Option (Fin 16 × Word)) (first : Bool) (e : KeyEntry) (s : State), s.portOf n = some p →
    s.rd (Reg.ISL_STAT_STATE n) = 3 → s.on (Reg.ISL_STAT_SWITCHING n) = false → s.on Reg.MAR_STAT_STATE = true →
    s.on Hid.marStop = false → s.bitOf Reg.MAR_CTRL_PIPE_EN p = true → row < s.rd (Hid.rowNo p) →
    s.rd (Hid.rowNo p) - 1 - row ≤ s.rd (Reg.HOP_PORT_CFG_MARK_DELAY p) → s.on (Hid.keyFull p) = false →
    first = (Tab.getD s.hopDelay p []).any (fun d => d.row.num == row && d.key == 0) →
    e = { row := row, ts := s.rd (Hid.rowTs p (row % 128)), first := first
          key := (List.range (klen.val + 1)).map (fun i => key.getD i 0), len := len.toNat, seq := seq.map (fun w => w.toNat)
          lat := lat.map (fun w => w.toNat), umask := umask.toNat, add := add.map (fun x => (x.1.val, x.2.toNat)) } →
    exec (.keyPresent n row key klen len seq lat umask add) s = .next (if first
      then (s.setKeys p (Tab.getD s.keyFifo p [] ++ [e])).keyResult p row 1 else s.setKeys p (Tab.getD s.keyFifo p [] ++ [e])))
  ∧ (∀ (p : Fin 4) (e : KeyEntry) (l : List KeyEntry) (r : Found) (u s : State), Tab.getD s.keyFifo p [] = e :: l →
    s.on Reg.MAR_STAT_STATE = true → e.first = false → s.lookup p e.key e.sought = (r, u) →
    (∀ f, r = .flow f → exec (.entryApply p 0) s = .next ((u.applyEntry p f e).setKeys p l))
    ∧ (∀ f v, r = .missing → u.flowFor p e = some (f, v) → exec (.entryApply p 0) s = .next ((v.applyEntry p f e).setKeys p l))
    ∧ (r = .missing → u.flowFor p e = none →
      exec (.entryApply p 0) s = .next (((u.inc (Reg.MAR_NOFLOW p) 1).marEvent 2).setKeys p l)))
  ∧ (∀ (f : Fin 4096) (s : State), s.on Reg.MAR_STAT_STATE = true → s.on (Hid.flowValid f) = true → s.rd Reg.MAR_AGE_TIME ≠ 0 →
    s.idleFrom f + 4000 * s.rd Reg.MAR_AGE_TIME ≤ s.now →
    Answers (.flowAgeRetire f) s (fun t => t = s.retire f 1 ∧ t.rd (Hid.flowValid f) = 0 ∧ t.rd Reg.MAR_LIVE = s.rd Reg.MAR_LIVE - 1))
  ∧ (∀ s : State, s.on Reg.MAR_STAT_STATE = true → s.on Reg.MAR_CTRL_HOLD = false → s.on Reg.MAR_STAT_EXPORT_BUSY = false →
    Answers .epochClose s (fun t =>
      OnlyFields ((List.range 256).flatMap (fun i => (List.range 16).map (Hid.ledCopy i)) ++ [Hid.epNum, Reg.MAR_SNAP_EP, Hid.pubTs,
        Hid.pubSkip, Hid.epSkip, Hid.pubLost, Hid.epLost, Hid.pubPend]) s t
      ∧ t.rd Hid.epNum = s.epoch % 2 ^ Hid.epNum.w ∧ t.rd Hid.pubPend = 1 ∧ t.rd Hid.epLost = 0 ∧ t.rd Hid.epSkip = 0
      ∧ ∀ (i : Fin 256) (c : Fin 16), t.rd (Hid.ledCopy i c) = s.rd (Hid.ledger i c)))
  ∧ (∀ s : State, s.on Hid.pubPend = true → (∀ n : Fin 273, s.on (Hid.nodeBad n) = false) →
    Answers (.treePublish false) s (fun t => ∃ u : State, u.rd Hid.pubPend = 0 ∧ u.rd Reg.MAR_SNAP_TS = s.rd Hid.pubTs % 2 ^ 64
      ∧ (∀ (n : Fin 273) (c : Fin 16), u.rd (Hid.node n c) = s.nodeSum n c ∧ u.rd (Hid.nodeBad n) = 0) ∧ u.mem = s.mem
      ∧ t = u.marWrite (histAddr (s.rd Hid.epNum)) (leBytes 8 (s.rd Hid.epNum) ++ leBytes 8 (s.rd Hid.pubTs) ++ leBytes 4 u.snapFlags
        ++ List.replicate 108 0 ++ (List.range 273).flatMap (fun n => (List.range 16).flatMap (fun c => leBytes 8 (s.nodeSum n c))))))
  ∧ (∀ (n : Fin 273) (c : Fin 16) (s : State),
    (s.on Hid.pubPend = false → s.on (Hid.nodeBad n) = false →
      exec (.treeWindowRead n c false) s = .next { s with last := ⟨.ok, leBytes 8 (s.rd (Hid.node n c))⟩ })
    ∧ (s.on Hid.pubPend = true → exec (.treeWindowRead n c false) s = .next { s with last := ⟨.held, []⟩ }))
  ∧ (∀ (f : Fin 4096) (c : Fin 16) (s : State),
    exec (.leafWindowRead f c) s = .next { s with last := ⟨.ok, leBytes 8 (s.leafAt f c)⟩ })
  ∧ (∀ s : State, exec (.flowStoreScrub []) s = .next s)
  ∧ (∀ (x : StoreUpset) (s : State),
    ((∃ b, storeVerdict x = .fix b) → storeLeft x = 0 → exec (.flowStoreScrub [x]) s = .next (s.classErr 4 false))
    ∧ (∀ i, storeVerdict x = .bad → x.part = .ledger i →
      exec (.flowStoreScrub [x]) s = .next (State.ledgerLost i (s.classErr 4 true)))
    ∧ (∀ f, storeVerdict x = .bad → x.part = .live f →
      exec (.flowStoreScrub [x]) s = .next (State.leafLost [.live f] f (s.classErr 4 true))))
  ∧ (∀ (b : Fin 256) (s : State) (fs : List Nat), s.on (Hid.bktBad b) = true →
    (∀ f : Fin 4096, s.on (Hid.flowValid f) = true → (s.marRead (ctxAddr f + 64) 1).2 = (false, s)) →
    fs = (List.range 4096).filter (fun f =>
      let x := buckets (s.marWord (ctxAddr f + 64))
      s.on (Hid.flowValid f) && (x.1 == b.val || x.2 == b.val) && (List.range 32).all (fun j =>
        let w := s.marWord (slotAddr (if x.1 = b.val then x.2 else x.1) j)
        !(bit w 60 && bits w 59 48 == f))) →
    exec (.bucketRebuild b) s = .next (((State.each (fs.zip (List.range 32)) (fun x t =>
        t.marWrite (slotAddr b x.2) (leBytes 8 (s.marWord (ctxAddr x.1 + 64) / 2 ^ 16 + x.1 * 2 ^ 48 + 2 ^ 60)
          ++ leBytes 8 (s.marWord (ctxAddr x.1 + 80) % 64))) (s.marWrite (slotAddr b 0) (List.replicate 512 0))).wr (Hid.bktBad b) 0).marEvent 9))

/-- Marigold's commands complete with the effects listed, which rest on R120, R135, R141 and R144, in their legal
states. -/
def Obligations.FlowCommandSteps : Prop :=
  (∀ s : State, s.on Reg.MAR_STAT_STATE = false → s.on Reg.MAR_STAT_BUSY = false → s.bstIs 0 = false →
    Answers .marStart s (fun t => OnlyFields [Reg.MAR_STAT_STATE] s t ∧ t.rd Reg.MAR_STAT_STATE = 1))
  ∧ (∀ s : State, s.on Reg.MAR_STAT_STATE = true →
    Answers .marStop s (fun t => OnlyFields [Hid.marStop] s t ∧ t.rd Hid.marStop = 1))
  ∧ (∀ s : State, s.on Hid.marStop = true → s.keyFifo = [] →
    Answers .marStopDone s (fun t => OnlyFields [Hid.marStop, Reg.MAR_STAT_STATE] s t ∧ t.rd Hid.marStop = 0
      ∧ t.rd Reg.MAR_STAT_STATE = 0))
  ∧ (∀ s : State, s.on Reg.MAR_STAT_STATE = false → s.on Reg.MAR_STAT_BUSY = false → s.on Reg.MAR_STAT_EXPORT_BUSY = false →
    Answers .marClearAll s (fun t => t = s.marEmpty.wr Reg.MAR_STAT_BUSY 1 ∧ t.rd Reg.MAR_STAT_BUSY = 1 ∧ t.rd Reg.MAR_LIVE = 0
      ∧ t.rd Reg.MAR_SNAP_EP = 0 ∧ t.rd Hid.epNum = 0 ∧ (∀ f : Fin 4096, t.rd (Hid.flowValid f) = 0) ∧ t.keyFifo = []))
  ∧ (∀ s : State, s.on Reg.MAR_STAT_BUSY = true →
    Answers .marClearDone s (fun t => OnlyFields [Reg.MAR_STAT_BUSY] s t ∧ t.rd Reg.MAR_STAT_BUSY = 0))
  ∧ (∀ s : State, s.on Reg.MAR_STAT_BUSY = false → s.on Reg.MAR_STAT_EXPORT_BUSY = false → s.rd Hid.epNum ≠ 0 →
    Answers .marExport s (fun t =>
      OnlyFields ((List.range 4096).map Hid.expFlow ++ [Hid.expTs, Hid.expLive, Hid.expBase, Hid.expKey, Reg.MAR_STAT_EXPORT_BUSY]) s t
      ∧ t.rd Reg.MAR_STAT_EXPORT_BUSY = 1 ∧ t.rd Hid.expTs = s.now % 2 ^ Hid.expTs.w
      ∧ t.rd Hid.expBase = s.rd Reg.MAR_EXP_BASE % 2 ^ Hid.expBase.w
      ∧ ∀ f : Fin 4096, t.rd (Hid.expFlow f) = ofLeBytes (s.exportFlow f) % 2 ^ (Hid.expFlow f).w))
  ∧ (∀ (r : MRes) (u s : State), s.on Reg.MAR_STAT_EXPORT_BUSY = true → s.on Hid.pubPend = false →
    (∀ n : Fin 273, s.on (Hid.nodeBad n) = false) → r ≠ .held →
    s.memWrite (s.req .marigold (s.rd Hid.expKey)) (s.rd Hid.expBase) s.exportImage = (r, u) →
    exec .marExportDone s = .next ((u.wr Reg.MAR_STAT_EXPORT_BUSY 0).raiseB Reg.MAR_EVT_EVT 6 358))
  ∧ (∀ (f : Fin 4096) (s : State), s.on (Hid.flowValid f) = true → s.on Reg.MAR_STAT_BUSY = false →
    Answers (.marRetire f) s (fun t => t = s.retire f 3 ∧ t.rd (Hid.flowValid f) = 0 ∧ t.rd Reg.MAR_LIVE = s.rd Reg.MAR_LIVE - 1))
  ∧ (∀ s : State, Answers .marClrCnt s (fun t =>
      OnlyFields ([Reg.MAR_RLOG_DROP, Reg.MAR_LOSS, Reg.MAR_LOSS_STAT_UNBOUNDED, Reg.MAR_LOSS_STAT_LEAVES] ++ (List.range 4).flatMap
        (fun p => [Reg.MAR_NOFLOW p, Reg.MAR_PIPE_DROP p, Reg.MAR_PIPE_LATE p, Reg.MAR_MISS p])) s t ∧ t.rd Reg.MAR_RLOG_DROP = 0 ∧ t.rd Reg.MAR_LOSS = 0
      ∧ ∀ p : Fin 4, t.rd (Reg.MAR_NOFLOW p) = 0 ∧ t.rd (Reg.MAR_PIPE_DROP p) = 0 ∧ t.rd (Reg.MAR_PIPE_LATE p) = 0
        ∧ t.rd (Reg.MAR_MISS p) = 0))

/-- Match-unit writes, reads and comparisons complete with the effects listed, which rest on R145 to R161: at a clock
edge the flip-flops capture, the match units register their outputs, and the taps follow. -/
def Obligations.MatchUnitSteps : Prop :=
  (∀ (n : Fin 80) (c : Fin 8) (k : Fin 64) (p : Fin 2) (w : Word) (s : State),
    s.bitOf (Reg.ISL_CTX_VALID_LOADING n) c = false →
    (∀ r : Fin 3, Answers (.muStageWrite n c k p r w) s (fun t => OnlyFields [Hid.muStg n c k p] s t
      ∧ t.rd (Hid.muStg n c k p) = setBitsAt (s.rd (Hid.muStg n c k p)) (32 * r + 31) (32 * r) w.toNat % 2 ^ 96))
    ∧ Answers (.muCommit n c k p w) s (fun t => OnlyFields [Reg.ISL_MU_VAL0 n c k p, Reg.ISL_MU_VAL1 n c k p,
        Reg.ISL_MU_MASK0 n c k p, Reg.ISL_MU_MASK1 n c k p, Hid.muSyn n c k p] s t
      ∧ t.rd (Reg.ISL_MU_VAL0 n c k p) = s.rd (Hid.muStg n c k p) % 2 ^ 32
      ∧ t.rd (Reg.ISL_MU_VAL1 n c k p) = s.rd (Hid.muStg n c k p) / 2 ^ 32 % 2 ^ 32
      ∧ t.rd (Reg.ISL_MU_MASK0 n c k p) = s.rd (Hid.muStg n c k p) / 2 ^ 64 % 2 ^ 32
      ∧ t.rd (Reg.ISL_MU_MASK1 n c k p) = w.toNat ∧ t.rd (Hid.muSyn n c k p) = 0)
    ∧ Answers (.muCtrlWrite n c k p w) s (fun t => OnlyFields [Reg.ISL_MU_CTRL_EN n c k p, Reg.ISL_MU_CTRL_ERR n c k p] s t
      ∧ t.rd (Reg.ISL_MU_CTRL_EN n c k p) = w.toNat % 2 ∧ (w.toNat % 2 = 1 → t.rd (Reg.ISL_MU_CTRL_ERR n c k p) = 0)))
  ∧ (∀ (n : Fin 80) (c : Fin 8) (k : Fin 64) (p : Fin 2) (w : Word) (s : State),
    s.bitOf (Reg.ISL_CTX_VALID_LOADING n) c = true →
    exec (.muCommit n c k p w) s = .next (s.deny (0x040 + n)) ∧ exec (.muCtrlWrite n c k p w) s = .next (s.deny (0x040 + n))
      ∧ ∀ r, exec (.muStageWrite n c k p r w) s = .next (s.deny (0x040 + n)))
  ∧ (∀ (n : Fin 80) (c : Fin 8) (k : Fin 64) (p : Fin 2) (r : Fin 4) (s : State), s.rd (Hid.muSyn n c k p) = 0 →
    exec (.muEntryRead n c k p r) s = .next { s with last := ⟨.ok, leBytes 4 (s.muReg n c k p r)⟩ })
  ∧ (∀ (n : Fin 80) (e : EdgeIn) (c : Nat) (r : Roots) (s : State), e.upsets = [] → s.clocked n = true →
    (∀ (k : Fin 64) (p : Fin 2), s.rd (Hid.muSyn n c k p) = 0) → c = s.rd (Reg.ISL_STAT_CUR_CTX n) →
    r = ({ s with freeCtr := s.freeCtr + 1 } : State).roots n c (Config.freeValue s.freeCtr) →
    Answers (.matchUnitCompare n e) s (fun t => t.mem = s.mem
      ∧ t.rd (Hid.ff0 n)
        = (if s.writeOn n then packBits 32768 (ffEdge (s.planeItem n c) r 0 r.q0) % 2 ^ 32768 else s.rd (Hid.ff0 n))
      ∧ t.rd (Hid.ff1 n c)
        = (if s.writeOn n then packBits 32768 (ffEdge (s.planeItem n c) r 1 r.q1) % 2 ^ 32768 else s.rd (Hid.ff1 n c))
      ∧ t.rd (Hid.muOut n) = (muUnits.filter (s.muHit n c r)).foldl (fun m u => m + 2 ^ (2 * u.1 + u.2)) 0 % 2 ^ 128
      ∧ ∀ k : Fin 8, bit (t.rd (Reg.ISL_TAP_LIVE n)) k = t.tapLevel n k))
  ∧ (∀ (n : Fin 80) (e : EdgeIn) (s : State), e.upsets = [] → s.clocked n = false → hasIo n = false →
    exec (.matchUnitCompare n e) s = .next s)
  ∧ (∀ (n : Fin 80) (e : EdgeIn) (s : State), e.upsets = [] → s.clocked n = false → hasIo n = true →
    Answers (.matchUnitCompare n e) s (fun t => OnlyFields [Reg.ISL_IOB_IN n] { s with freeCtr := s.freeCtr + 1 } t
      ∧ ∀ z : Fin 48, s.ioStd n (z.val / 2 * 2) ≠ 4 → t.bitOf (Reg.ISL_IOB_IN n) z = e.rise.getLsbD z))

/-- Fabric-port commands complete with the effects listed, which rest on R163 to R166 and R316. -/
def Obligations.FabricPortSteps : Prop :=
  (∀ (n : Fin 80) (route : Fin 256) (tid : Fin 64) (addr : BitVec 46) (len : Fin 64) (s : State),
    s.on (Reg.ISL_FP_CTRL_EN n) = true → s.rd (Reg.ISL_STAT_STATE n) = 3 → s.fpTidBusy n false tid = false →
    ∀ size, size = 64 * (len.val + 1) - addr.toNat % 64 →
    (addr.toNat / 4096 = (addr.toNat + size - 1) / 4096 →
      exec (.fpMasterRequest n route false false tid addr len [] false) s
        = .next (s.issue n route 0 0 0 tid addr.toNat ((List.range size).map (fun _ => none))))
    ∧ (addr.toNat / 4096 ≠ (addr.toNat + size - 1) / 4096 →
      exec (.fpMasterRequest n route false false tid addr len [] false) s = .next { s with
        fpResps := Tab.set s.fpResps n [] (Tab.getD s.fpResps n [] ++ [⟨tid, false, [], 1⟩]), last := ⟨.ok, []⟩ }))
  ∧ (∀ (n : Fin 80) (route : Fin 256) (posted : Bool) (tid : Fin 64) (addr : BitVec 46) (len : Fin 64) (data : List (Option Byte))
    (s : State), s.on (Reg.ISL_FP_CTRL_EN n) = true → s.rd (Reg.ISL_STAT_STATE n) = 3 → s.fpTidBusy n true tid = false →
    exec (.fpMasterRequest n route true posted tid addr len data false) s = .next ((s.setB (Hid.fpOpen n) tid).answer .ok [])
    ∧ ∀ size, size = 64 * (len.val + 1) - addr.toNat % 64 → addr.toNat / 4096 = (addr.toNat + size - 1) / 4096 →
      s.bitOf (Hid.fpOpen n) tid = false → exec (.fpMasterRequest n route true posted tid addr len data true) s
        = .next (s.issue n route (if posted then 2 else 1) 0 0 tid addr.toNat ((List.range size).map (fun k => (data[k]?).getD none))))
  ∧ (∀ (n : Fin 80) (r : FpResp) (l : List FpResp) (s : State), Tab.getD s.fpResps n [] = r :: l →
    s.rd (Reg.ISL_STAT_STATE n) ≠ 4 → exec (.fpMasterResponse n) s = .next { s with
      fpResps := Tab.set s.fpResps n [] l, out := .fpResp n r.tid r.err r.wr r.data :: s.out })
  ∧ (∀ (n : Fin 80) (off : Fin 536870912) (wr : Bool) (data : List (Option Byte)) (s : State),
    s.on (Reg.NOC_NI_STAT_FENCED n) = false → s.on (Reg.ISL_FP_CTRL_EN n) = true → s.rd (Reg.ISL_STAT_STATE n) = 3 →
    s.bitOf (Hid.slaveCtx n) (s.rd (Reg.ISL_STAT_CUR_CTX n)) = true → (Tab.getD s.slvReqs n []) = [] →
    s.bitOf (Hid.slvLate n) 0 = false →
    Answers (.fpSlaveRequest n off wr data) s (fun t => (∃ u, OnlyFields [Reg.ISL_FP_STAT_SLV_OUT n] s u
        ∧ t = { u with slvReqs := t.slvReqs, out := .slvReq n 0 off wr data :: s.out, last := ⟨.held, []⟩ })
      ∧ Tab.getD t.slvReqs n [] = [⟨0, wr, off, none⟩] ∧ t.rd (Reg.ISL_FP_STAT_SLV_OUT n) = 1))
  ∧ (∀ (n : Fin 80) (tag : Byte) (err : Bool) (data : List Byte) (s : State),
    (∀ r, (Tab.getD s.slvReqs n []).find? (fun x => x.tag == tag.toNat) = some r → r.pkt = none →
      exec (.fpSlaveResponse n tag err data) s = .next ((s.slvRemove n tag.toNat).answer (if err then .err else .ok) data))
    ∧ ((Tab.getD s.slvReqs n []).find? (fun x => x.tag == tag.toNat) = none →
      Answers (.fpSlaveResponse n tag err data) s (fun t => OnlyFields [Hid.slvLate n] s t ∧ t.bitOf (Hid.slvLate n) tag.toNat = false)))
  ∧ (∀ (n : Fin 80) (tag : Byte) (r : SlvReq) (s : State),
    (Tab.getD s.slvReqs n []).find? (fun x => x.tag == tag.toNat) = some r →
    exec (.fpSlaveTimeout n tag) s = .next ((((((s.slvRemove n tag.toNat).slvAnswer r 1 []).setB (Hid.slvLate n) tag.toNat).inc
      (Reg.ISL_FP_TMO_CNT n) 1).wr (Reg.ISL_EVT_FP_TMO n) 1).islEvent n 5))

/-- Context switches complete with the effects listed, which rest on R172 to R178 and R181. -/
def Obligations.SwitchSteps : Prop :=
  (∀ (n : Fin 80) (c : Fin 8) (s : State), s.on Hid.swBusy = false → s.swEligible c n = true →
    exec (.islSwitch n c) s = .next (s.swForm [n.val] c))
  ∧ (∀ s : State, s.on Hid.swBusy = true →
    (setBits 80 (s.rd Hid.swLeft)).filter (fun n => s.rd (Hid.swWave n) == s.rd Hid.swNext && !s.on (Reg.ISL_STAT_SWITCHING n)) = [] →
    Answers .waveInstant s (fun t => OnlyFields [Hid.swNext, Hid.slewUsed] s t
      ∧ t.rd Hid.swNext = (s.rd Hid.swNext + 1) % 2 ^ Hid.swNext.w))
  ∧ (∀ (n : Fin 80) (s : State), s.on Hid.swBusy = true →
    (setBits 80 (s.rd Hid.swLeft)).filter (fun m => s.rd (Hid.swWave m) == s.rd Hid.swNext && !s.on (Reg.ISL_STAT_SWITCHING m)) = [n.val] →
    ∀ u : State, u = ((s.wr Hid.swNext (s.rd Hid.swNext + 1)).inc Hid.slewUsed
      (if s.on Hid.swHeld then 20 else s.deltaI (s.rd (Hid.swTgt n)) n)).wr (Reg.ISL_STAT_SWITCHING n) 1 →
    exec .waveInstant s = .next (if !u.clkRuns n || u.rd (Hid.swTgt n) == u.rd (Reg.ISL_STAT_CUR_CTX n)
      then u.swComplete n false else u))
  ∧ (∀ (n : Fin 80) (e : EdgeIn) (s : State), s.on (Reg.ISL_STAT_SWITCHING n) = true → e.upsets = [] →
    Answers (.islandSwitchCycle n e) s (fun t =>
      t = (if s.clocked n then s.islandEdge n e true else s).swComplete n true ∧ t.rd (Reg.ISL_STAT_CUR_CTX n) = s.rd (Hid.swTgt n)
      ∧ t.rd (Reg.ISL_SW_TS n) = s.now % 2 ^ 64 ∧ t.rd (Reg.ISL_STAT_SWITCHING n) = 0 ∧ t.rd (Reg.ISL_TAP_LIVE n) = 0
      ∧ t.rd (Hid.muOut n) = 0))
  ∧ (∀ (n : Fin 80) (cycle : Bool) (s : State), (s.swComplete n cycle).rd (Reg.ISL_STAT_CUR_CTX n) = s.rd (Hid.swTgt n)
    ∧ (s.swComplete n cycle).rd (Reg.ISL_SW_TS n) = s.now % 2 ^ 64 ∧ (s.swComplete n cycle).rd (Reg.ISL_STAT_SWITCHING n) = 0)
  ∧ (∀ (n : Fin 80) (s : State), Answers (.islClrCnt n) s (fun t => t = { s with cells := t.cells } ∧ t.rd (Reg.ISL_FP_TMO_CNT n) = 0
      ∧ t.rd (Reg.ISL_FP_DISC n) = 0 ∧ (∀ (c : Fin 8) (k : Fin 64) (p : Fin 2), t.rd (Reg.ISL_MU_HITS n c k p) = 0)
      ∧ ∀ g : Fld, g.key < cellKey (0x040 + n) 0x10014 0 ∨ cellKey (0x040 + n) 0x18000 0 ≤ g.key →
        g.key ≠ (Reg.ISL_FP_TMO_CNT n).key → g.key ≠ (Reg.ISL_FP_DISC n).key → t.rd g = s.rd g))

/-- Reference checks, class fallback and writes of the reference configuration complete with the effects listed, which rest on R185 to R190. -/
def Obligations.ReferenceSteps : Prop :=
  (∀ (a b c : BitVec 16) (s : State), s.rd Reg.CLK_REF_CFG_SEL = 0 → present (some a.toInt) = true →
    Answers (.refCheck (some a) (some b) (some c)) s (fun t => t.mem = s.mem ∧ t.rd Reg.CLK_REF_STAT_A_PRES = 1
      ∧ t.rd Reg.CLK_REF_STAT_B_PRES = b2n (present (some b.toInt)) ∧ t.rd Reg.CLK_STAT_HOLDOVER = 0
      ∧ t.rd Reg.CLK_REF_CFG_SEL = 0 ∧ t.rd Reg.CLK_REF_STAT_CAL_PRES = b2n (present (some (c.toInt - a.toInt)))
      ∧ t.rd Reg.CLK_REF_STAT_PPM_A = ofSigned 12 (a.toInt - c.toInt) % 2 ^ 12
      ∧ (present (some (c.toInt - a.toInt)) = true → t.rd Reg.CLK_STAT_JUDGE_SRC = 0)))
  ∧ (∀ (c : Fin 6) (s : State), s.bitOf Reg.CLK_CLS_STAT_LOCK c = true → s.bitOf Reg.CLK_CLS_STAT_FALLBACK c = false →
    exec (.classFallback c true) s = .next (((s.clrB Reg.CLK_CLS_STAT_LOCK c).setB Reg.CLK_CLS_STAT_FALLBACK c).raiseB
      Reg.CLK_EVT_EVT 3 47))
  ∧ (∀ (c : Fin 6) (s : State), s.bitOf Reg.CLK_CLS_STAT_LOCK c = true → s.bitOf Reg.CLK_CLS_STAT_FALLBACK c = false →
    s.on Reg.CLK_STAT_HOLDOVER = false →
    exec (.classFallback c false) s = .next ((s.setB Reg.CLK_CLS_STAT_FALLBACK c).raiseB Reg.CLK_EVT_EVT 3 47))
  ∧ (∀ (w : Word) (s : State), bit w.toNat 1 = bit w.toNat 2 →
    Answers (.clkRefCfgWrite w) s (fun t => OnlyFields [Reg.CLK_REF_CFG_AUTO_SW, Reg.CLK_REF_CFG_FREQ_B,
        Reg.CLK_REF_CFG_FREQ_A, Reg.CLK_REF_CFG_SEL, Reg.CLK_STAT_JUDGE_SRC] s t
      ∧ t.rd Reg.CLK_REF_CFG_AUTO_SW = b2n (bit w.toNat 3) ∧ t.rd Reg.CLK_REF_CFG_FREQ_B = b2n (bit w.toNat 2)
      ∧ t.rd Reg.CLK_REF_CFG_FREQ_A = b2n (bit w.toNat 1) ∧ t.rd Reg.CLK_REF_CFG_SEL = b2n (bit w.toNat 0)
      ∧ (b2n (bit w.toNat 0) = s.rd Reg.CLK_REF_CFG_SEL → t.rd Reg.CLK_STAT_JUDGE_SRC = s.rd Reg.CLK_STAT_JUDGE_SRC)))
  ∧ (∀ (w : Word) (s : State), bit w.toNat 3 = true → bit w.toNat 1 ≠ bit w.toNat 2 → b2n (bit w.toNat 0) = s.rd Reg.CLK_REF_CFG_SEL →
    exec (.clkRefCfgWrite w) s = .next ((s.wr Reg.CLK_REF_CFG_SEL (b2n (bit w.toNat 0))).deny 0x006))

/-- Island clock commands move the generator through the states of R194 as its
requests, settings and judgements say (R191, R193, R194, R196, R198, R500). -/
def Obligations.IslandClockSteps : Prop :=
  (∀ (n : Fin 80) (w : Word) (s : State), bits w.toNat 1 0 ≠ 3 → s.clkOk n = true →
    exec (.islClkReqWrite n w) s = .next ((s.wr (Reg.ISL_CLK_CTRL_REQ n) (bits w.toNat 1 0)).clkSettle n))
  ∧ (∀ (n : Fin 80) (w : Word) (s : State), bits w.toNat 1 0 = 1 ∨ bits w.toNat 1 0 = 2 → s.clkOk n = true → s.astStop = false →
    s.rd (Reg.ISL_CLK_STAT_STATE n) = 0 → s.rd (Reg.ISL_PWR_STAT_PSTATE n) = 0 →
    Answers (.islClkReqWrite n w) s (fun t => OnlyFields [Reg.ISL_CLK_CTRL_REQ n, Reg.ISL_CLK_STAT_STATE n, Reg.ISL_CLK_STAT_LOCK n,
        Reg.ISL_CLK_STAT_STABLE n, Reg.ISL_CLK_STAT_SSC_ACTIVE n, Hid.clkFb n, Hid.clkPass n, Hid.clkWin n, Hid.clkBad n] s t
      ∧ t.rd (Reg.ISL_CLK_CTRL_REQ n) = bits w.toNat 1 0 ∧ t.rd (Reg.ISL_CLK_STAT_STATE n) = 1))
  ∧ (∀ (n : Fin 80) (w : Word) (s : State),
    s.rd (Reg.ISL_CLK_STAT_STATE n) = 8 ∨ (s.rd (Reg.ISL_CLK_STAT_STATE n) = 0 ∧ s.rd (Reg.ISL_CLK_CTRL_REQ n) = 0) →
    Answers (.islClkCfgWrite n true w) s (fun t => OnlyFields [Reg.ISL_CLK_FRAC_FRAC n] s t
      ∧ t.rd (Reg.ISL_CLK_FRAC_FRAC n) = bits w.toNat 23 0)
    ∧ (bits w.toNat 20 18 ≤ 5 → bits w.toNat 10 8 ≤ 4 →
      Answers (.islClkCfgWrite n false w) s (fun t => OnlyFields [Reg.ISL_CLK_CFG_FAULT_ACT n, Reg.ISL_CLK_CFG_SSC_PCT n,
          Reg.ISL_CLK_CFG_SSC_EN n, Reg.ISL_CLK_CFG_POSTDIV n, Reg.ISL_CLK_CFG_FBDIV n] s t
        ∧ t.rd (Reg.ISL_CLK_CFG_FAULT_ACT n) = bits w.toNat 24 24 ∧ t.rd (Reg.ISL_CLK_CFG_SSC_PCT n) = bits w.toNat 20 18
        ∧ t.rd (Reg.ISL_CLK_CFG_SSC_EN n) = bits w.toNat 16 16 ∧ t.rd (Reg.ISL_CLK_CFG_POSTDIV n) = bits w.toNat 10 8
        ∧ t.rd (Reg.ISL_CLK_CFG_FBDIV n) = bits w.toNat 6 0)))
  ∧ (∀ (n : Fin 80) (s : State), s.rd (Reg.ISL_CLK_STAT_STATE n) = 1 →
    Answers (.islPllLocked n) s (fun t => OnlyFields [Reg.ISL_CLK_STAT_STATE n, Reg.ISL_CLK_STAT_LOCK n,
        Reg.ISL_CLK_STAT_SSC_ACTIVE n] s t
      ∧ t.rd (Reg.ISL_CLK_STAT_STATE n) = 2 ∧ t.rd (Reg.ISL_CLK_STAT_LOCK n) = 1)
    ∧ (s.rd (Reg.ISL_CLK_CTRL_REQ n) ≠ 0 →
      exec (.islLockTimeout n) s = .next (((s.pllOff n 8).wr (Reg.ISL_CLK_STAT_FAULT_CAUSE n) 1).islEvent n 4)))
  ∧ (∀ (n : Fin 80) (x : Word) (s : State), s.rd (Reg.ISL_CLK_STAT_STATE n) = 2 → s.on Reg.CLK_STAT_HOLDOVER = false →
    s.windowPasses n x.toNat = true → s.rd Reg.CLK_JUDGE_CFG_PASSES ≤ s.rd (Hid.clkPass n) + 1 →
    s.rd (Reg.ISL_CLK_CTRL_REQ n) ≠ 0 → s.on (Hid.clkPairV n) = false →
    Answers (.judgeWindow n x) s (fun t => OnlyFields [Reg.ISL_CLK_MEAS n, Reg.ISL_CLK_STAT_STATE n, Reg.ISL_CLK_STAT_STABLE n] s t
      ∧ t.rd (Reg.ISL_CLK_MEAS n) = x.toNat ∧ t.rd (Reg.ISL_CLK_STAT_STATE n) = 3 ∧ t.rd (Reg.ISL_CLK_STAT_STABLE n) = 1))
  ∧ (∀ (n : Fin 80) (s : State), (List.range n.val).any (fun m => s.rampWaits m != .none) = false → s.rampWaits n = .clkUp →
    s.rd Hid.slewUsed + s.rampCost n ≤ 2400 → s.rd (Reg.ISL_PWR_STAT_PSTATE n) = 0 →
    Answers (.rampAdmit n) s (fun t => OnlyFields [Hid.slewUsed, Reg.ISL_CLK_STAT_STATE n] s t
      ∧ t.rd Hid.slewUsed = s.rd Hid.slewUsed + s.rampCost n ∧ t.rd (Reg.ISL_CLK_STAT_STATE n) = 4))
  ∧ (∀ (n : Fin 80) (s : State), s.rd (Reg.ISL_CLK_STAT_STATE n) = 4 → s.on (Hid.pwrUp n) = false →
    Answers (.rampUpDone n) s (fun t => OnlyFields [Reg.ISL_CLK_STAT_STATE n, Hid.clkBad n] s t
      ∧ t.rd (Reg.ISL_CLK_STAT_STATE n) = 5))
  ∧ (∀ (n : Fin 80) (s : State), s.rd (Reg.ISL_CLK_STAT_STATE n) = 6 → s.rd (Reg.ISL_PWR_STAT_PSTATE n) ≠ 1 →
    s.on (Hid.clkFb n) = false → s.rd (Reg.ISL_CLK_CTRL_REQ n) ≠ 0 → s.on (Hid.clkPairV n) = false →
    Answers (.rampDownDone n) s (fun t => OnlyFields [Reg.ISL_CLK_STAT_STATE n] s t ∧ t.rd (Reg.ISL_CLK_STAT_STATE n) = 3))
  ∧ (∀ (n : Fin 80) (s : State), s.rd (Reg.ISL_CLK_STAT_STATE n) = 5 →
    s.rd (Reg.ISL_CLK_CTRL_REQ n) ≠ 0 →
    exec (.islClkLost n true) s = .next (((s.pllOff n (if s.on (Reg.ISL_CLK_CFG_FAULT_ACT n) then 8 else 7)).wr
      (Reg.ISL_CLK_STAT_FAULT_CAUSE n) 3).islEvent n 4))

/-- Island power and Sluice commands complete with the effects listed, which rest on R199 to R205. -/
def Obligations.IslandPowerSteps : Prop :=
  (∀ (n : Fin 80) (s : State), s.rd (Reg.ISL_PWR_CTRL_REQ n) = 0 → s.pwrOffOk n = true → s.rd (Reg.ISL_PWR_STAT_PSTATE n) = 0 →
    Answers (.islPwrOffReq n) s (fun t => OnlyFields [Reg.ISL_PWR_CTRL_REQ n, Reg.ISL_PWR_STAT_PSTATE n,
        Reg.NOC_NI_STAT_FENCED n, Hid.fenceAt n] s t
      ∧ t.rd (Reg.ISL_PWR_CTRL_REQ n) = 1 ∧ t.rd (Reg.ISL_PWR_STAT_PSTATE n) = 1 ∧ t.rd (Reg.NOC_NI_STAT_FENCED n) = 1))
  ∧ (∀ (n : Fin 80) (s : State), s.rd (Reg.ISL_PWR_CTRL_REQ n) = 1 →
    Answers (.islPwrOnReq n) s (fun t => OnlyFields [Reg.ISL_PWR_CTRL_REQ n] s t ∧ t.rd (Reg.ISL_PWR_CTRL_REQ n) = 0))
  ∧ (∀ (n : Fin 80) (s : State), s.rd (Reg.ISL_PWR_STAT_PSTATE n) = 2 →
    Answers (.powerDownDone n) s (fun t => OnlyFields [Reg.ISL_PWR_STAT_PSTATE n, Reg.ISL_STAT_STATE n, Reg.ISL_TAP_LIVE n,
        Hid.muOut n, Reg.ISL_WEIR_STAT_CLOSED n, Reg.ISL_WEIR_STAT_HELD n] s t
      ∧ t.rd (Reg.ISL_PWR_STAT_PSTATE n) = 3 ∧ t.rd (Reg.ISL_STAT_STATE n) = 5 ∧ t.rd (Reg.ISL_WEIR_STAT_CLOSED n) = 1
      ∧ t.rd (Reg.ISL_WEIR_STAT_HELD n) = 1))
  ∧ (∀ (n : Fin 80) (s : State), s.rd (Reg.ISL_PWR_STAT_PSTATE n) = 4 →
    exec (.powerUpDone n) s = .next ((((((s.wr (Reg.ISL_PWR_STAT_PSTATE n) 0).wr (Reg.ISL_STAT_STATE n) 4).wr (Hid.pwrUp n) 1).fabricReset
      n (s.rd (Reg.ISL_STAT_CUR_CTX n)))).clkSettle n))
  ∧ (∀ (n m : Fin 80) (e b : Fin 4) (data : BitVec 256) (s : State), across n e = some m.val → s.fabricLive m = true →
    s.slcOpen n e b = true → s.on (Reg.ISL_WEIR_STAT_CLOSED n) = false → (Tab.getD s.sluices (slcAt n e b) []).length < 16 →
    Answers (.sluiceSend n e b data) s (fun t => (∃ u, OnlyFields [Reg.ISL_SLC_STAT_OCC n e, Reg.ISL_SLC_STAT_STALL n e] s u
        ∧ t = { u with sluices := t.sluices, last := ⟨.ok, []⟩ }) ∧
      Tab.getD t.sluices (slcAt n e b) [] = Tab.getD s.sluices (slcAt n e b) [] ++ [data.toNat]
      ∧ ∀ k, k ≠ slcAt n e b → Tab.find t.sluices k = Tab.find s.sluices k))
  ∧ (∀ (n : Fin 80) (e b : Fin 4) (w : Nat) (r : List Nat) (s : State), Tab.getD s.sluices (slcAt n e b) [] = w :: r →
    s.fabricLive n = true →
    Answers (.sluiceDeliver n e b) s (fun t => (∃ u, OnlyFields [Reg.ISL_SLC_STAT_OCC n e, Reg.ISL_SLC_STAT_STALL n e] s u
        ∧ t = { u with sluices := t.sluices, last := ⟨.ok, leBytes 32 w⟩ }) ∧
      Tab.getD t.sluices (slcAt n e b) [] = r ∧ ∀ k, k ≠ slcAt n e b → Tab.find t.sluices k = Tab.find s.sluices k))
  ∧ (∀ (n : Fin 80) (e : Fin 4) (w : Word) (s : State), (across n e).isSome = true →
    bits w.toNat 11 8 &&& (s.rd (Reg.ISL_SLC_CTRL_EN n e) &&& bits w.toNat 3 0) = 0 →
    Answers (.sluiceFlushWrite n e w) s (fun t => OnlyFields [Reg.ISL_SLC_CTRL_EN n e, Reg.ISL_SLC_CTRL_FLUSH n e] s t
      ∧ t.rd (Reg.ISL_SLC_CTRL_EN n e) = bits w.toNat 3 0
      ∧ t.rd (Reg.ISL_SLC_CTRL_FLUSH n e) = (s.rd (Reg.ISL_SLC_CTRL_FLUSH n e) ||| bits w.toNat 11 8) % 16))
  ∧ (∀ (n : Fin 80) (e b : Fin 4) (s : State), s.bitOf (Reg.ISL_SLC_CTRL_FLUSH n e) b = true →
    exec (.sluiceFlushDone n e b) s = .next ((s.slcFlush n e b).clrB (Reg.ISL_SLC_CTRL_FLUSH n e) b))

/-- Vertical-bundle and Millrace commands complete with the effects listed, which rest on R212 to R226. -/
def Obligations.VerticalSteps : Prop :=
  (∀ (b : Bundle) (u s : State), u = s.wrFree (Hid.trims (bunCode b)) →
    (∀ v : State, v = { u with walkFail := s.walkFail.filter (fun w => w.bundle != bunCode b) } →
      exec (.bundleCal b [] false) s = .next (v.calDone 1 (bunCode b))
      ∧ exec (.bundleCal b [] true) s = .next ((v.inc (Reg.CAL_ITEM_FORCED 1) 1).calDone 1 (bunCode b)))
    ∧ (∀ (e : WireErr) (v : State), v = { u with walkFail := s.walkFail.filter (fun w => w.bundle != bunCode b)
        ++ [⟨bunCode b, e.group, e.wire⟩] } →
      (s.walkFail.contains ⟨bunCode b, e.group, e.wire⟩ = false → exec (.bundleCal b [e] false) s = .next (v.calDone 1 (bunCode b)))
      ∧ (s.walkFail.contains ⟨bunCode b, e.group, e.wire⟩ = true →
        exec (.bundleCal b [e] false) s = .next ((State.wireFail b e v).calDone 1 (bunCode b)))))
  ∧ (∀ (b : Bundle) (g : Fin 128) (s : State), bunGuarded b g = true → s.rd (bunMode b) ≠ 2 →
    ∀ near, near = (((bunCode b, s.now) :: s.guards).filter (fun p => p.1 == bunCode b && decide (s.now < p.2 + 4000000000))).length →
    ∀ u : State, u = (((({ s with guards := (bunCode b, s.now) :: s.guards }).wr (bunContention b) 1).wr (bunLastGrp b) g).wr
      (Hid.vbHeld (bunCode b)) 1).bunEvent b 3 →
    exec (.contentionGuard b g) s = .next (if 4 ≤ near then (u.bunRecordWrite b g 0 1).bunFence b g else u))
  ∧ (∀ (b : Bundle) (s : State), Answers (.steeringRepair b) s (fun t => OnlyFields [Hid.vbHeld (bunCode b)] s t
      ∧ t.rd (Hid.vbHeld (bunCode b)) = 0))
  ∧ (∀ (n : Fin 80) (row : Fin 8192) (tag : Fin 16) (errs : List SigErr) (s : State), s.mrAccepts n tag = true →
    s.mrRefused n row false = false → ∀ (q : Req) (bs : List Byte) (rue : Nat) (x v u : State),
    x = s.wireErrors (.mr n) errs → x.on (Reg.ISL_STAT_MR_FENCE n) = false →
    q = x.req (.millrace n) (x.rd (Reg.ISL_MR_CTRL_KEY n)) → x.guard q false (rowAddr n row) 512 = none →
    x.memGate q (rowAddr n row) 512 = (.ok, v) → v.readRowWords q (rowAddr n row) = (bs, rue, u) →
    exec (.mrRead n row tag false errs) s = .next ((((u.inc (Reg.ISL_MR_UE n) (popCount 64 rue)).mrAnswer n
      ⟨tag, bs, if rue = 0 then 0 else 2, rue⟩).add (Reg.ISL_MR_ROWS n) 1).answer .ok []))
  ∧ (∀ (n : Fin 80) (row : Fin 8192) (tag : Fin 16) (data : List DWord) (wen : DWord) (errs : List SigErr) (s : State),
    s.mrAccepts n tag = true → s.mrRefused n row true = false → ∀ (q : Req) (x v : State),
    x = s.wireErrors (.mr n) errs → x.on (Reg.ISL_STAT_MR_FENCE n) = false →
    q = x.req (.millrace n) (x.rd (Reg.ISL_MR_CTRL_KEY n)) → x.guard q true (rowAddr n row) 512 = none →
    x.memGate q (rowAddr n row) 512 = (.ok, v) →
    exec (.mrWrite n row tag data errs) s = .next ((((v.writeRowWords q (rowAddr n row) (2 ^ 64 - 1) data).mrAnswer n
      ⟨tag, [], 0, 0⟩).add (Reg.ISL_MR_ROWS n) 1).answer .ok [])
    ∧ exec (.mrWriteMasked n row tag wen data errs) s = .next ((((v.writeRowWords q (rowAddr n row) wen.toNat data).mrAnswer n
      ⟨tag, [], 0, 0⟩).add (Reg.ISL_MR_ROWS n) 1).answer .ok []))
  ∧ (∀ (n : Fin 80) (row : Fin 8192) (tag : Fin 16) (data : List DWord) (wen : DWord) (errs : List SigErr) (s x : State),
    s.mrAccepts n tag = true → x = s.wireErrors (.mr n) errs →
    (s.mrRefused n row true = true → ∀ t, t = ((s.inc (Reg.ISL_MR_BUSERR n) 1).mrAnswer n ⟨tag, [], 1, 0⟩).answer .ok [] →
      exec (.mrWrite n row tag data errs) s = .next t ∧ exec (.mrWriteMasked n row tag wen data errs) s = .next t)
    ∧ (s.mrRefused n row true = false → x.on (Reg.ISL_STAT_MR_FENCE n) = true →
      ∀ t, t = ((x.inc (Reg.ISL_MR_BUSERR n) 1).mrAnswer n ⟨tag, [], 1, 0⟩).answer .ok [] →
      exec (.mrWrite n row tag data errs) s = .next t ∧ exec (.mrWriteMasked n row tag wen data errs) s = .next t))
  ∧ (∀ (n : Fin 80) (r : MrResp) (l : List MrResp) (s : State), Tab.getD s.mrQueue n [] = r :: l → s.rd (Reg.ISL_STAT_STATE n) ≠ 4 →
    exec (.mrResponse n) s = .next (({ s with mrQueue := Tab.set s.mrQueue n [] l }).emit (.mrResp n r.tag r.rerr r.rue r.data)))

/-- SRAM accesses, write-back, leak and raw test access complete with the effects listed, which rest on R239 to R252
and R467. -/
def Obligations.SramAccessSteps : Prop :=
  (∀ (w : Requester) (key : Fin 16) (a n : Nat) (errs : List (Fin 4 × SigErr)) (bs : List Byte) (s u t : State), isSram a = true →
    u = s.hubErrors errs → u.memRead (u.req w key) a n = (bs, .ok, t) → exec (.sramRead w key a n errs) s = .next (t.answer .ok bs))
  ∧ (∀ (w : Requester) (key : Fin 16) (a : Nat) (data : List DWord) (errs : List (Fin 4 × SigErr)) (s u t : State),
    isSram (8 * a) = true → u = s.hubErrors errs →
    u.memWrite (u.req w key) (8 * a) (data.flatMap (fun d => leBytes 8 d.toNat)) = (.ok, t) →
    exec (.sramWrite w key a data errs) s = .next (t.answer .ok []))
  ∧ (∀ (w : Requester) (key : Fin 16) (a : Nat) (data : List Byte) (errs : List (Fin 4 × SigErr)) (s u t : State), isSram a = true →
    u = s.hubErrors errs → u.memWrite (u.req w key) a data = (.ok, t) →
    exec (.sramMergeWrite w key a data errs) s = .next (t.answer .ok []))
  ∧ (∀ (a b : Nat) (s t : State), isSram (8 * a) = true → s.wback.contains a = true → s.bankTake (srmUnit (8 * a)) 1 true = some t →
    t.wordVerdict (8 * a) = .fix (some b) → exec (.sramWriteback a) s = .next
      ((t.writeMem (8 * a) (leBytes 8 (t.word (8 * a) ^^^ 2 ^ b))).setWordInfo (8 * a) { t.wordInfo (8 * a) with syn := 0 }))
  ∧ (∀ (b : Fin 81) (s : State), Answers (.sramBucketLeak b) s (fun t =>
      OnlyFields [Reg.SRM_BANK_LB_LEVEL b, Reg.SRM_BANK_LB_TRIP b] s t
      ∧ t.rd (Reg.SRM_BANK_LB_LEVEL b) = (s.rd (Reg.SRM_BANK_LB_LEVEL b) - 1) % 2 ^ (Reg.SRM_BANK_LB_LEVEL b).w
      ∧ (s.rd (Reg.SRM_BANK_LB_LEVEL b) - 1 ≤ s.rd Reg.SRM_LB_CFG_THRESH / 2 → t.rd (Reg.SRM_BANK_LB_TRIP b) = 0)))
  ∧ (∀ (a : Nat) (s t : State), s.rawLegal = true → a = s.rd Reg.SRM_TEST_ADDR → s.bankTake (srmUnit a) 1 false = some t →
    exec .srmRawRead s = .next ((t.wr Reg.SRM_TEST_DATA (t.wordStored a)).wr Reg.SRM_TEST_CHK_CHK (t.wordChk a))
    ∧ exec .srmRawWrData s = .next (t.putStored a (t.rd Reg.SRM_TEST_DATA) (t.wordChk a))
    ∧ exec .srmRawWrChk s = .next (t.putStored a (t.wordStored a) (t.rd Reg.SRM_TEST_CHK_CHK))
    ∧ exec .srmRawWrBoth s = .next (t.putStored a (t.rd Reg.SRM_TEST_DATA) (t.rd Reg.SRM_TEST_CHK_CHK)))
  ∧ (∀ (u n : Nat) (back : Bool) (s : State), s.now / 400000 = s.rd (Hid.bgPer (2 + u)) → s.rd (Hid.bgUsed (2 + u)) = 0 →
    n < 2 ^ (Hid.bgUsed (2 + u)).w → s.wback = [] → ∃ t, s.bankTake u n back = some t
      ∧ OnlyFields [Hid.bgPct (2 + u), Hid.bgUsed (2 + u), Hid.bgPer (2 + u)] s t ∧ t.rd (Hid.bgUsed (2 + u)) = n)
  ∧ (∀ (s : State), s.rawLegal = false → exec .srmRawRead s = .next ((s.rejMark 0x090 1).srmEvt 5))

/-- The transparent test, retention, clears and wipe of the SRAM complete with the effects listed, which rest on R253 to R261. -/
def Obligations.SramUpkeepSteps : Prop :=
  (∀ s : State, Answers .srmClrLog s (fun t =>
    OnlyFields [Reg.SRM_ERR_INFO_VALID, Reg.SRM_ERR_INFO_OVF, Reg.SRM_ERR_INFO_KIND, Reg.SRM_ERR_INFO_PATH,
      Reg.SRM_ERR_INFO_KEY, Reg.SRM_ERR_INFO_ID, Reg.SRM_ERR_ADDR] s t
    ∧ t.rd Reg.SRM_ERR_INFO_VALID = 0 ∧ t.rd Reg.SRM_ERR_INFO_OVF = 0 ∧ t.rd Reg.SRM_ERR_ADDR = 0))
  ∧ (∀ (b : Fin 81) (s : State), Answers (.srbClrCnt b) s (fun t =>
    OnlyFields [Reg.SRM_BANK_CE b, Reg.SRM_BANK_UE b, Reg.SRM_BANK_LB_LEVEL b, Reg.SRM_BANK_LB_TRIP b] s t
    ∧ t.rd (Reg.SRM_BANK_CE b) = 0 ∧ t.rd (Reg.SRM_BANK_UE b) = 0 ∧ t.rd (Reg.SRM_BANK_LB_LEVEL b) = 0
    ∧ t.rd (Reg.SRM_BANK_LB_TRIP b) = 0))
  ∧ (∀ (b : Fin 81) (r : Fin 4096) (s : State), b.val < 80 → r.val < 384 → s.on (Reg.SRM_BANK_CTRL_TT_EN b) = true →
    s.rd (Reg.SRM_BANK_PSTAT_PSTATE b) = 0 →
    Answers (.srbTtRegion b r) s (fun t => OnlyFields [Hid.ttNext b, Hid.ttNamed b, Reg.SRM_BANK_TT_REGION b] s t
      ∧ t.rd (Reg.SRM_BANK_TT_REGION b) = r.val ∧ t.rd (Hid.ttNext b) = r.val))
  ∧ (∀ (u : Fin 84) (s v : State), s.ttDue u = true → s.bankTake u 224 false = some v → s.info = [] →
    Answers (.ttRegionStart u) s (fun t => OnlyFields [Hid.ttActive u, Hid.ttCur u, Hid.ttAt u] v t
      ∧ t.on (Hid.ttActive u) = true ∧ t.rd (Hid.ttCur u) = s.rd (Hid.ttNext u) % 2 ^ (Hid.ttCur u).w
      ∧ t.rd (Hid.ttAt u) = (s.now + 1) % 2 ^ (Hid.ttAt u).w))
  ∧ (∀ (u : Fin 80) (s : State), s.on (Hid.ttActive u) = true → s.on (Hid.ttNamed u) = false →
    Answers (.ttRegionDone (u.castLE (by decide)) []) s (fun t =>
      OnlyFields [Hid.ttActive u, Hid.ttNamed u, Hid.ttNext u, Reg.SRM_BANK_TT_REGION u, Reg.SRM_BANK_TT_PASSES u] s t
      ∧ t.on (Hid.ttActive u) = false
      ∧ (s.rd (Hid.ttCur u) < 383 → t.rd (Reg.SRM_BANK_TT_REGION u) = s.rd (Hid.ttCur u) + 1)
      ∧ (383 ≤ s.rd (Hid.ttCur u) → t.rd (Reg.SRM_BANK_TT_REGION u) = 0
        ∧ t.rd (Reg.SRM_BANK_TT_PASSES u) = (s.rd (Reg.SRM_BANK_TT_PASSES u) + 1) % 2 ^ (Reg.SRM_BANK_TT_PASSES u).w)))
  ∧ (∀ (u : Fin 80) (s : State), s.on (Hid.ttActive u) = true → s.on (Hid.ttNamed u) = true → s.rd (Hid.ttCur u) < 383 →
    Answers (.ttRegionDone (u.castLE (by decide)) []) s (fun t =>
      OnlyFields [Hid.ttActive u, Hid.ttNamed u, Hid.ttNext u, Reg.SRM_BANK_TT_REGION u] s t
      ∧ t.on (Hid.ttActive u) = false ∧ t.on (Hid.ttNamed u) = false ∧ t.rd (Hid.ttNext u) = s.rd (Hid.ttNext u)))
  ∧ (∀ (b : Fin 81) (s : State), b.val < 80 → s.bstOn 4 b = false → s.rd (Reg.SRM_BANK_PSTAT_PSTATE b) = 0 →
    Answers (.srbRetEnter b) s (fun t => OnlyFields [Reg.SRM_BANK_CTRL_RET b, Reg.SRM_BANK_PSTAT_PSTATE b] s t
      ∧ t.rd (Reg.SRM_BANK_CTRL_RET b) = 1 ∧ t.rd (Reg.SRM_BANK_PSTAT_PSTATE b) = 1))
  ∧ (∀ (b : Fin 80) (s : State), s.rd (Reg.SRM_BANK_PSTAT_PSTATE b) = 1 → s.on (Hid.ttActive b) = false → s.wback = [] →
    Answers (.retEntered b) s (fun t => OnlyFields [Reg.SRM_BANK_PSTAT_PSTATE b] s t
      ∧ t.rd (Reg.SRM_BANK_PSTAT_PSTATE b) = 2))
  ∧ (∀ (b : Fin 80) (s : State), s.rd (Reg.SRM_BANK_PSTAT_PSTATE b) = 2 →
    Answers (.srbRetExit b false) s (fun t => OnlyFields [Reg.SRM_BANK_CTRL_RET b, Reg.SRM_BANK_PSTAT_PSTATE b] s t
      ∧ t.rd (Reg.SRM_BANK_CTRL_RET b) = 0 ∧ t.rd (Reg.SRM_BANK_PSTAT_PSTATE b) = 3))
  ∧ (∀ (b : Fin 80) (s : State), s.rd (Reg.SRM_BANK_PSTAT_PSTATE b) = 3 →
    Answers (.retWakeDone b) s (fun t => OnlyFields [Reg.SRM_BANK_CTRL_RET b, Reg.SRM_BANK_PSTAT_PSTATE b, Hid.srbWait b] s t
      ∧ t.rd (Reg.SRM_BANK_CTRL_RET b) = 0 ∧ t.rd (Reg.SRM_BANK_PSTAT_PSTATE b) = 0))
  ∧ (∀ (b : Fin 80) (s : State), s.rd (Reg.SRM_BANK_PSTAT_PSTATE b) = 2 → s.on (Reg.SRM_BANK_CTRL_AUTO_WAKE b) = true →
    Answers (.srbRetExit b true) s (fun t => OnlyFields [Hid.srbWait b, Reg.SRM_BANK_PSTAT_PSTATE b] s t
      ∧ t.rd (Hid.srbWait b) = 1 ∧ t.rd (Reg.SRM_BANK_PSTAT_PSTATE b) = 3))
  ∧ (∀ s : State, Answers .secureWipe s (fun t =>
      (∃ u, OnlyFields [Reg.SRM_STAT_WIPING] s u ∧ t = { u with mem := t.mem, info := t.info, wback := t.wback })
      ∧ t.rd Reg.SRM_STAT_WIPING = 1 ∧ t.mem = Tab.delRange s.mem secBase (secBase + secSize)
      ∧ t.info = Tab.delRange s.info (secBase / 8) ((secBase + secSize) / 8)))
  ∧ (∀ s : State, s.on Reg.SRM_STAT_WIPING = true →
    exec .secureWipeDone s = .next (((s.wr Reg.SRM_STAT_WIPING 0).add Reg.SRM_SEC_WIPE_CNT 1).srmEvt 4))

/-- HBM accesses, write-back, periods, refresh, temperature and the patrol scrub complete with the effects listed, which rest on R272 to
R285 and R467. -/
def Obligations.HbmAccessSteps : Prop :=
  (∀ (w : Requester) (key : Fin 16) (a n : Nat) (errs : List SigErr) (bs : List Byte) (s u t : State), s.isHbm a = true →
    u = s.wireErrors .col errs → u.memRead (u.req w key) a n = (bs, .ok, t) →
    exec (.hbmRead w key a n errs) s = .next (t.answer .ok bs))
  ∧ (∀ (w : Requester) (key : Fin 16) (a : Nat) (data : List (BitVec 256)) (errs : List SigErr) (s u t : State),
    s.isHbm (32 * a) = true → u = s.wireErrors .col errs →
    u.memWrite (u.req w key) (32 * a) (data.flatMap (fun d => leBytes 32 d.toNat)) = (.ok, t) →
    exec (.hbmWrite w key a data errs) s = .next (t.answer .ok []))
  ∧ (∀ (w : Requester) (key : Fin 16) (a : Nat) (data : List Byte) (errs : List SigErr) (s u t : State), s.isHbm a = true →
    u = s.wireErrors .col errs → u.memWrite (u.req w key) a data = (.ok, t) →
    exec (.hbmMerge w key a data errs) s = .next (t.answer .ok []))
  ∧ (∀ (key : Fin 16) (a : Nat) (s : State), s.isHbm (32 * a) = true →
    (s.wback.contains (key * 2 ^ 40 + s.place (32 * a) / 32) = false → exec (.hbmWriteback key a) s = .next s)
    ∧ (s.wback.contains (key * 2 ^ 40 + s.place (32 * a) / 32) = true →
      ∀ f, f = Hid.hbmBg (s.rankOf (32 * a) % 16) →
      (288 * s.rd Hid.hbmPct < s.rd f + 32 → exec (.hbmWriteback key a) s = .next (s.answer .held []))
      ∧ (s.rd f + 32 ≤ 288 * s.rd Hid.hbmPct → ∀ (t : State) (i : Info) (y : Nat), t = s.wr f (s.rd f + 32) → i = t.lineInfo (32 * a) →
        y = t.lineSyn key (32 * a) → exec (.hbmWriteback key a) s = .next
          (((t.fixPlace (t.place (32 * a)) (synVerdict y)).setLineInfo (32 * a) { i with syn := i.syn ^^^ y }).countWr (32 * a)))))
  ∧ (∀ s : State, s.on Reg.HBM_STAT_MIGRATING = false → s.rd Reg.HBM_MODE_BW = 0 →
    Answers .hbmSchedPeriod s (fun t => OnlyFields ([Hid.hbmBw, Hid.hbmPeriods, Hid.hbmShare 0, Hid.hbmShare 1, Hid.hbmPct]
        ++ (List.range 16).flatMap (fun i => [Hid.hbmBg i, Hid.hbmMigUsed i])) s t
      ∧ t.rd (Hid.hbmShare 0) = 360 ∧ t.rd (Hid.hbmShare 1) = 16 ∧ t.rd Hid.hbmBw = 0
      ∧ t.rd Hid.hbmPct = s.rd Reg.SCB_BUDGET_PCT ∧ ∀ i : Fin 16, t.rd (Hid.hbmBg i) = 0 ∧ t.rd (Hid.hbmMigUsed i) = 0))
  ∧ (∀ (r : Fin 48) (b : Fin 16) (s : State), s.hbmLive = true → s.on Reg.HBM_REF_CFG_MODE = false →
    Answers (.hbmRefresh r b false) s (fun t => OnlyFields [Hid.hbmDebt r b, Hid.hbmRefs r] s t
      ∧ t.rd (Hid.hbmDebt r b) = s.rd (Hid.hbmDebt r b) - 1)
    ∧ (s.rd (Hid.hbmDebt r b) < 7 → Answers (.hbmRefresh r b true) s (fun t => OnlyFields [Hid.hbmDebt r b] s t
      ∧ t.rd (Hid.hbmDebt r b) = s.rd (Hid.hbmDebt r b) + 1)))
  ∧ (∀ (d : Byte) (s : State), ∀ m u, m = max (16 * d.toNat) s.hbmDiodes →
    u = (s.wr Reg.HBM_TEMP_DIE_MAX d.toNat).wr Reg.HBM_TEMP_AST_MAX (min (s.hbmDiodes / 16) 255) →
    (16 * 85 ≤ m → s.on Reg.HBM_STAT_HOT = false →
      exec (.hbmTempRead d) s = .next (((u.wr Reg.HBM_STAT_HOT 1).wr Reg.HBM_TEMP_HOT 1).hbmEvt 8))
    ∧ (m ≤ 16 * 82 → s.on Reg.HBM_STAT_HOT = true →
      exec (.hbmTempRead d) s = .next (((u.wr Reg.HBM_STAT_HOT 0).wr Reg.HBM_TEMP_HOT 0).hbmEvt 8)))
  ∧ (∀ (i : Fin 16) (x : Nat) (l : List Nat) (s : State), s.hbmLive = true → s.nrefs i = x :: l →
    exec (.neighbourRefresh i) s
      = .next (State.inc { s with fifos := Tab.set s.fifos (80 + i.val) [] l } (Reg.HBM_PC_NREF i) 1))
  ∧ (∀ s : State, s.on Reg.HBM_SCRUB_CTRL_EN = true → s.rd Reg.HBM_STAT_STATE = 3 → s.on Reg.HBM_STAT_MIGRATING = false →
    ∀ n i f, n = s.rd Hid.hbmScrubPtr → i = 32 * n / 2 ^ 29 % 16 → f = Hid.hbmBg i →
    s.wbackWaits i = false → s.rd f + 32 ≤ 288 * s.rd Hid.hbmPct →
    ∀ u : State, u = ((s.wr f (s.rd f + 32)).activate i).scrubPlace (32 * n) →
    exec .patrolScrubLine s = .next (if n + 1 = 48 * 2 ^ 24 then (u.wr Hid.hbmScrubPtr 0).add Reg.HBM_SCRUB_STAT_PASSES 1
      else u.wr Hid.hbmScrubPtr (n + 1)))
  ∧ (∀ (r : Fin 48) (s : State), ∀ f g, f = Reg.HBM_PC_LB_LEVEL (r.val % 16) (r.val / 16) →
    g = Reg.HBM_PC_LB_TRIP (r.val % 16) (r.val / 16) →
    Answers (.hbmBucketLeak r) s (fun t => OnlyFields [f, g] s t ∧ t.rd f = s.rd f - 1
      ∧ t.rd g = if s.rd f - 1 ≤ s.rd Reg.HBM_LB_CFG_THRESH / 2 then 0 else s.rd g))

/-- Migration, enabling, bring-up, draining and the commands of the HBM controller complete with the effects listed, which rest on R286 to
R293. -/
def Obligations.HbmControlSteps : Prop :=
  (∀ (r : Fin 48) (sp : Nat) (s : State), s.on (Hid.hbmMigQueue r) = true → s.on Reg.HBM_STAT_MIGRATING = false →
    s.rd Reg.HBM_STAT_STATE = 3 → s.spareFor r = some sp → exec (.migrationStart r) s = .next (s.migrate r sp))
  ∧ (∀ s : State, s.on Reg.HBM_STAT_MIGRATING = true → s.rd Hid.hbmMigPtr < 2 ^ 24 →
    ∀ p d i j, p = s.rd Reg.HBM_MIG_STAT_SRC * 2 ^ 29 + 32 * s.rd Hid.hbmMigPtr → i = p / 2 ^ 29 % 16 →
    d = s.rd Reg.HBM_MIG_STAT_DST * 2 ^ 29 + 32 * s.rd Hid.hbmMigPtr → j = d / 2 ^ 29 % 16 →
    ∀ t0 t : State, s.migSpend i j = some t0 → t = (t0.activate i).activate j →
    (∀ u : State, u = (match t.trial p with
      | .good | .ambig => t
      | .fix x => (t.hbmCe (p / 2 ^ 29)).fixUnder p x
      | .bad => t.placeBad 3 p) →
    exec .migrationCopyLine s = .next (((u.copyPlace p d).wr Hid.hbmMigPtr (s.rd Hid.hbmMigPtr + 1)).wr
      Reg.HBM_MIG_STAT_PROGRESS ((s.rd Hid.hbmMigPtr + 1) / 2 ^ 16))))
  ∧ (∀ s : State, s.on Reg.HBM_STAT_MIGRATING = true → s.rd Hid.hbmMigPtr = 2 ^ 24 →
    ∀ r sp u, r = s.rd Reg.HBM_MIG_STAT_SRC → sp = s.rd Reg.HBM_MIG_STAT_DST →
    u = ((s.wr (Reg.HBM_RANK_PHYS r) sp).wr (Reg.HBM_RANK_ROLE r) 3).wr (Reg.HBM_RANK_ROLE sp) 2 →
    exec .migrationDone s = .next ((((((((u.repairRecord (9 * 2 ^ 28 + r * 2 ^ 22 + sp * 2 ^ 16)).getD u).wr
      Reg.HBM_STAT_MIGRATING 0).wr Reg.HBM_MIG_STAT_ACTIVE 0).wr Reg.HBM_SCRUB_STAT_PAUSED 0).hbmEvt 4).recEnd 0)))
  ∧ (∀ (fill : Bool) (s : State), s.rd Reg.HBM_STAT_STATE = 0 → s.bstIs 5 = false →
    ∀ u, u = (if b2n fill = s.rd Reg.HBM_CTRL_INIT_FILL then s else s.wr Reg.HBM_CTRL_INIT_FILL (b2n fill)) →
    exec (.hbmEnable fill) s = .next (((u.wr Reg.HBM_CTRL_EN 1).hbmSample).wr Reg.HBM_STAT_STATE 1))
  ∧ (∀ (fill : Bool) (s : State), s.on Reg.HBM_STAT_MIGRATING = false → s.bstIs 6 = false →
    b2n fill = s.rd Reg.HBM_CTRL_INIT_FILL →
    (s.rd Reg.HBM_STAT_STATE = 3 → exec (.hbmDisable fill) s = .next ((s.wr Reg.HBM_CTRL_EN 0).wr Reg.HBM_STAT_STATE 4))
    ∧ (s.rd Reg.HBM_STAT_STATE = 2 → exec (.hbmDisable fill) s = .next
      (((s.hbmFillStop.wr Reg.HBM_CTRL_EN 0).wr Reg.HBM_STAT_STATE 4).wr Reg.HBM_SCRUB_STAT_PAUSED 0)))
  ∧ (∀ (m : List (Byte × Byte)) (s : State), s.rd Reg.HBM_STAT_STATE = 1 →
    Answers (.hbmTrainingDone m) s (fun t => t = { s with cells := t.cells } ∧ t.rd Hid.hbmSelfRef = 0
      ∧ (∀ i : Fin 16, t.rd (Reg.HBM_PC_TRAIN_PASS i) = 1
        ∧ t.rd (Reg.HBM_PC_TRAIN_RD_MARGIN i) = (m.getD i (0, 0)).1.toNat % 2 ^ (Reg.HBM_PC_TRAIN_RD_MARGIN i).w
        ∧ t.rd (Reg.HBM_PC_TRAIN_WR_MARGIN i) = (m.getD i (0, 0)).2.toNat % 2 ^ (Reg.HBM_PC_TRAIN_WR_MARGIN i).w)
      ∧ t.rd Reg.HBM_STAT_STATE = (if s.on Hid.hbmHeldOff then 4
        else if !s.on Reg.HBM_STAT_FILLED && s.on Reg.HBM_CTRL_INIT_FILL then 2 else 3)))
  ∧ (∀ (c : Fin 3) (m : List (Option (Byte × Byte))) (s : State), s.rd Reg.HBM_STAT_STATE = 1 →
    (c.val ≠ 2 → exec (.hbmTrainingFault c m) s = .next ((((s.wr Reg.HBM_STAT_FAULT (c + 1)).wr Reg.HBM_STAT_STATE
      (if s.on Hid.hbmHeldOff then 0 else 5)).wr Hid.hbmHeldOff 0).hbmEvt 7))
    ∧ (c.val = 2 → Answers (.hbmTrainingFault c m) s (fun t => t.rd Reg.HBM_STAT_FAULT = 3
      ∧ t.rd Reg.HBM_STAT_STATE = (if s.on Hid.hbmHeldOff then 0 else 5)
      ∧ ∀ i : Fin 16, t.rd (Reg.HBM_PC_TRAIN_PASS i) = b2n (m.getD i none).isSome)))
  ∧ (∀ s : State, s.rd Reg.HBM_STAT_STATE = 2 → exec .hbmFillDone s = .next
      ((((s.hbmFillTo (48 * 2 ^ 24)).wr Reg.HBM_STAT_FILLED 1).wr Reg.HBM_STAT_STATE 3).wr Reg.HBM_SCRUB_STAT_PAUSED 0)
    ∧ Answers .hbmFillDone s (fun t => t.mem = Tab.delRange s.mem 0 0x600000000))
  ∧ (∀ s : State, s.rd Reg.HBM_STAT_STATE = 4 → exec .hbmDrainDone s = .next
      (((({ s with fifos := Tab.delRange s.fifos 64 80 } : State).wr Reg.HBM_STAT_STATE 0).wr Hid.hbmSelfRef 1)))
  ∧ (∀ (r : Fin 64) (sp : Nat) (s : State), r.val < 48 → s.spareFor r = some sp → s.rd Reg.HBM_STAT_STATE = 3 →
    s.on Reg.HBM_STAT_MIGRATING = false → s.rd (Reg.HBM_RANK_ROLE r) = 0 ∨ s.rd (Reg.HBM_RANK_ROLE r) = 2 →
    exec (.hbmMigrate r) s = .next (s.migrate r sp))
  ∧ (∀ s : State, Answers .hbmClrLog s (fun t => OnlyFields [Reg.HBM_ERRLOG_INFO_VALID, Reg.HBM_ERRLOG_INFO_OVF,
        Reg.HBM_ERRLOG_INFO_KIND, Reg.HBM_ERRLOG_INFO_KMIS, Reg.HBM_ERRLOG_INFO_KEY_V, Reg.HBM_ERRLOG_INFO_RANK,
        Reg.HBM_ERRLOG_INFO_KEY, Reg.HBM_ERRLOG_INFO_PATH, Reg.HBM_ERRLOG_INFO_ID, Reg.HBM_ERRLOG_ADDR, Reg.HBM_ERRLOG_SYN_SC,
        Reg.HBM_ERRLOG_SYN_SR] s t
      ∧ t.rd Reg.HBM_ERRLOG_INFO_VALID = 0 ∧ t.rd Reg.HBM_ERRLOG_INFO_OVF = 0 ∧ t.rd Reg.HBM_ERRLOG_ADDR = 0
      ∧ t.rd Reg.HBM_ERRLOG_SYN_SC = 0 ∧ t.rd Reg.HBM_ERRLOG_SYN_SR = 0))
  ∧ (∀ s : State, Answers .hbmClrCnt s (fun t => t = { s with cells := t.cells } ∧ t.rd Reg.HBM_SCRUB_AMBIG = 0
      ∧ t.rd Reg.HBM_SCRUB_UE = 0
      ∧ (∀ i : Fin 16, t.rd (Reg.HBM_PC_CE i) = 0 ∧ t.rd (Reg.HBM_PC_UE i) = 0 ∧ t.rd (Reg.HBM_PC_KMIS i) = 0
        ∧ t.rd (Reg.HBM_PC_NREF i) = 0)
      ∧ ∀ (i : Fin 16) (k : Fin 3), t.rd (Reg.HBM_PC_LB_LEVEL i k) = 0 ∧ t.rd (Reg.HBM_PC_LB_TRIP i k) = 0))

/-- Network requests, deliveries, responses and route updates complete with the effects listed, which rest on R302 to R310. -/
def Obligations.RequestSteps : Prop :=
  (∀ (w : Requester) (route : Fin 256) (op : Fin 3) (key : Fin 16) (urg : Fin 8) (tid : Fin 64) (addr i : Nat)
    (n : Fin 4097) (data : List (Option Byte)) (s : State), niOf w = some i →
    (s.packets.filter (fun p => p.src == i && !late p && (p.op == 0) == (op.val == 0))).length < 64 →
    ∀ bs, bs = (List.range n).map (fun k => if op.val = 0 then none else (data[k]?).getD none) →
    (80 ≤ i → ∀ e p, s.targetOf addr = some e → p = s.newPkt i e op key urg tid addr bs →
      exec (.nocRequest w route op key (some urg) tid addr n data) s = .next (((s.enqueue p).launch p).answer .ok []))
    ∧ (i < 80 → ∀ p, p = s.newPkt i route op 0 0 tid addr bs →
      exec (.nocRequest w route op key (some urg) tid addr n data) s = .next (((s.enqueue p).launch p).answer .ok [])))
  ∧ (∀ (id : Nat) (waits : List Nat) (p q : Pkt) (s u t : State), s.pkt id = some p → p.phase = 1 → s.presented p = false →
    s.travel p (stopsLeft p) waits = (q, u) → t = u.setPkt q → arrived q = true → t.postedBefore q = false →
    exec (.nocDeliver id waits) s = .next (t.deliver q))
  ∧ (∀ (p : Pkt) (x y : RStop) (r : List RStop) (w : Nat) (l : List Nat) (s : State), ∀ q : Pkt, q = s.stepped p w →
    ∀ t : State, t = s.wr (Hid.rrLast (tripOf p).net x.rtr x.outp) x.inp →
    (s.granted p q.urg x = true → s.enters x y = true →
      s.travel p (x :: y :: r) (w :: l) = (t.probeHead false y.rtr y.inp (headOf q)).travel q (y :: r) l)
    ∧ (s.granted p q.urg x = true → s.travel p [x] (w :: l) = (q, t.probeHead true (tripOf p).dest 0 (headOf q)))
    ∧ (s.granted p q.urg x = false ∨ s.enters x y = false → s.travel p (x :: y :: r) (w :: l) = (p, s)))
  ∧ (∀ (id : Nat) (waits : List Nat) (p : Pkt) (s : State), s.pkt id = some p → p.op ≠ 2 → s.answerable p = true →
    (p.phase = 3 → exec (.nocResponse id waits) s = .next (s.giveBack p))
    ∧ (p.phase ≠ 3 → ∀ (q : Pkt) (u : State), s.move p waits = (q, u) → arrived q = true →
      exec (.nocResponse id waits) s = .next ((u.probeLatency q).giveBack q)))
  ∧ (∀ (id : Nat) (waits : List Nat) (p : Pkt) (s : State), s.pkt id = some p → p.op = 2 → p.phase = 2 →
    ∀ (q : Pkt) (u : State), s.move p waits = (q, u) → arrived q = true →
      exec (.postedAck id waits) s = .next ((u.probeLatency q).dropPkt q))
  ∧ (∀ (i : Fin 97) (e : Fin 256) (w : Word) (s : State), s.on (Hid.rtStgSet i e) = true →
    (bit w.toNat 31 = true → legalRoute i (bits w.toNat 22 16) (s.rd (Hid.rtStgDir i e)) (s.rd (Hid.rtStgHops i e)) = true) →
    exec (.routeUpdate i e w) s = .next ((((s.wr (Hid.rtPend i e) (s.rd (Hid.rtStgDir i e) + 2 ^ 48 * s.rd (Hid.rtStgHops i e)
      + 2 ^ 53 * (b2n (bit w.toNat 31) + 2 * bits w.toNat 22 16 + 2 ^ 8 * bits w.toNat 10 8 + 2 ^ 11 * bits w.toNat 7 4))).wr
      (Hid.rtStgSet i e) 0).wr (Reg.NOC_RT_CTL_PENDING i e) 1).routeCommit i e))
  ∧ (∀ (i : Fin 97) (e : Fin 256) (s : State), s.on (Reg.NOC_RT_CTL_PENDING i e) = true → s.entryBusy i e = false →
    Answers (.routeCommit i e) s (fun t => OnlyFields [Reg.NOC_RT_ROUTE_DIR i e, Reg.NOC_RT_ROUTE_HOPS i e,
        Reg.NOC_RT_CTL_VALID i e, Reg.NOC_RT_CTL_DST i e, Reg.NOC_RT_CTL_URG i e, Reg.NOC_RT_CTL_KEY i e,
        Reg.NOC_RT_CTL_PENDING i e] s t
      ∧ t.rd (Reg.NOC_RT_CTL_PENDING i e) = 0 ∧ t.rd (Reg.NOC_RT_ROUTE_DIR i e) = s.rd (Hid.rtPend i e) % 2 ^ 48
      ∧ t.rd (Reg.NOC_RT_ROUTE_HOPS i e) = s.rd (Hid.rtPend i e) / 2 ^ 48 % 2 ^ (Reg.NOC_RT_ROUTE_HOPS i e).w
      ∧ t.rd (Reg.NOC_RT_CTL_VALID i e) = s.rd (Hid.rtPend i e) / 2 ^ 53 % 2
      ∧ t.rd (Reg.NOC_RT_CTL_DST i e) = s.rd (Hid.rtPend i e) / 2 ^ 54 % 2 ^ 7
      ∧ t.rd (Reg.NOC_RT_CTL_URG i e) = s.rd (Hid.rtPend i e) / 2 ^ 61 % 2 ^ 3
      ∧ t.rd (Reg.NOC_RT_CTL_KEY i e) = s.rd (Hid.rtPend i e) / 2 ^ 64 % 2 ^ 4))

/-- Link and router commands complete with the effects listed, which rest on R312 to R319. -/
def Obligations.LinkRouterSteps : Prop :=
  (∀ (m : Fin 160) (s : State), isLink m = true → s.rd (Reg.NOC_LINK_STAT_STATE m) < 2 →
    Answers (.flitReplay m true) s (fun t => OnlyFields [Reg.NOC_LINK_STAT_RETRIES m, Hid.linkFails m, Reg.NOC_LINK_STAT_STATE m] s t
      ∧ t.rd (Reg.NOC_LINK_STAT_STATE m) = 0 ∧ t.rd (Hid.linkFails m) = 0)
    ∧ (s.rd (Hid.linkFails m) < 15 → Answers (.flitReplay m false) s (fun t =>
      OnlyFields [Reg.NOC_LINK_STAT_RETRIES m, Hid.linkFails m, Reg.NOC_LINK_STAT_STATE m] s t
      ∧ t.rd (Reg.NOC_LINK_STAT_STATE m) = 1 ∧ t.rd (Hid.linkFails m) = s.rd (Hid.linkFails m) + 1))
    ∧ (s.rd (Hid.linkFails m) = 15 → exec (.flitReplay m false) s = .next
      ((((s.inc (Reg.NOC_LINK_STAT_RETRIES m) 1).recBegin.wr (Hid.linkFails m) 0).wr (Reg.NOC_LINK_STAT_STATE m) 2).raiseB
        Reg.NOC_EVT_EVT 5 237)))
  ∧ (∀ (m : Fin 160) (s : State), s.rd (Reg.NOC_LINK_STAT_STATE m) = 2 →
    exec (.linkRetrain m true []) s = .next ((s.wr (Reg.NOC_LINK_STAT_STATE m) 0).recEnd 2)
    ∧ exec (.linkRetrain m false []) s = .next (((s.wr (Reg.NOC_LINK_STAT_STATE m) 3).raiseB Reg.NOC_EVT_EVT 6 238).recEnd 2))
  ∧ (∀ (n : Fin 128) (s : State), n.val < 80 → s.rd (Reg.NOC_RTR_STAT_STATE n) = 0 →
    exec (.nocDrain n) s = .next (((((s.recBegin.wr (Reg.NOC_RTR_STAT_STATE n) 1).wr (Reg.NOC_RTR_STAT_CAUSE n) 0).wr
      (Hid.rtrDone n) 0).wr (Hid.rtrPass n) 0).raiseB Reg.NOC_EVT_EVT 1 233))
  ∧ (∀ (n : Fin 128) (s : State), n.val < 80 → s.rd (Reg.NOC_RTR_STAT_STATE n) = 2 → s.rd (Reg.NOC_RTR_STAT_CAUSE n) = 0 →
    exec (.nocResume n) s = .next ((((s.wr (Reg.NOC_RTR_STAT_STATE n) 0).wr (Hid.rtrPass n) 0).raiseB
      Reg.NOC_EVT_EVT 2 234).recEnd 1))
  ∧ (∀ (n : Fin 80) (s : State), s.rd (Reg.NOC_RTR_STAT_STATE n) = 1 → s.rtrHolds n = false →
    Answers (.routerDrained n) s (fun t => OnlyFields [Reg.NOC_RTR_STAT_STATE n] s t ∧ t.rd (Reg.NOC_RTR_STAT_STATE n) = 2))
  ∧ (∀ (n : Fin 80) (ok : Bool) (s : State), s.rd (Reg.NOC_RTR_STAT_STATE n) = 2 →
    exec (.routerReconfDone n ok) s = .next (if s.rd (Reg.NOC_RTR_STAT_CAUSE n) = 0 then s.wr (Hid.rtrDone n) 1
      else if ok then s.rtrActive n else s.rtrFault n))
  ∧ (∀ (n : Fin 80) (s : State), s.rd (Reg.NOC_RTR_STAT_STATE n) ≠ 0 →
    exec (.drainTimeout true (n.castLE (by decide))) s
      = .next (State.each (s.packets.filter (fun p => s.namesPart p true n)) (fun p t => t.drainTmo p true n) s))
  ∧ (∀ (m : Fin 160) (s : State), s.rd (Reg.NOC_LINK_STAT_STATE m) = 3 → exec (.drainTimeout false m) s
      = .next (State.each (s.packets.filter (fun p => s.namesPart p false m)) (fun p t => t.drainTmo p false m) s))
  ∧ (∀ (p : Pkt) (part : Bool) (x : Nat) (s : State), p.phase < 2 → p.void = false →
    (p.op = 2 → heldFor p part x = true → s.drainTmo p part x = ((s.dropPkt p).nocDropped p.src p).postLost p)
    ∧ (p.op = 2 → heldFor p part x = false → s.drainTmo p part x = s)
    ∧ (p.op ≠ 2 → heldFor p part x = true → s.drainTmo p part x
      = ((s.inc (Reg.NOC_NI_UNAV p.src) 1).raiseB Reg.NOC_EVT_EVT 3 235).setPkt { p with phase := 3, err := 2, rdata := [], pos := 0 }))
  ∧ (∀ (b : Nat) (rest : List Nat) (s : State), s.barriers = b :: rest →
    s.packets.any (fun p => decide (p.id < b / 8) && p.phase != 3 && !late p) = false →
    exec .recoveryBarrier s = .next (((({ s with fifos := Tab.set s.fifos 48 [] rest } : State).add Reg.NOC_BARRIER_COUNT 1).wr
      Reg.NOC_BARRIER_CAUSE (b % 8)).raise 8))
  ∧ (∀ s : State, Answers .nocClrCnt s (fun t => t = { s with cells := t.cells }
      ∧ (∀ k : Fin 8, t.rd (Reg.NOC_PROBE_PKTS k) = 0 ∧ t.rd (Reg.NOC_PROBE_FLITS k) = 0 ∧ t.rd (Reg.NOC_PROBE_LMAX k) = 0
        ∧ t.rd (Reg.NOC_PROBE_LSUM k) = 0 ∧ t.rd (Reg.NOC_PROBE_LOST k) = 0)
      ∧ ∀ i : Fin 97, t.rd (Reg.NOC_NI_DROP i) = 0 ∧ t.rd (Reg.NOC_NI_UNAV i) = 0 ∧ t.rd (Reg.NOC_NI_DROP_SRC_VALID i) = 0))

/-- Core accesses, timers, watchdogs, UARTs, mailboxes and semaphores complete with the effects listed, which rest on R324 to R333. -/
def Obligations.ComplexSteps : Prop :=
  (∀ (c : Fin 4) (m : Bool) (a : BitVec 46) (z : Fin 4) (v : DWord) (s : State),
    s.rd (Reg.MIL_CORE_STAT_STATE c) = 1 ∨ s.rd (Reg.MIL_CORE_STAT_STATE c) = 2 →
    exec (.coreMemoryAccess c .fenceI m a z v [] false false) s = .next ((s.fenceI c).answer .ok [])
    ∧ (s.rangeOfReq a.toNat (2 ^ z.val) = some .hbm → s.coreMayWrite a.toNat (2 ^ z.val) = none →
      exec (.coreMemoryAccess c .store m a z v [] false false) s
        = .next (s.coreCached c .store a.toNat (2 ^ z.val) v.toNat .none))
    ∧ (s.rangeOfReq a.toNat (2 ^ z.val) = some .hbm →
      exec (.coreMemoryAccess c .load m a z v [] false false) s
        = .next (s.coreCached c .load a.toNat (2 ^ z.val) v.toNat .none)))
  ∧ (∀ (c : Fin 4) (s : State), s.rd (Reg.MIL_MTIMECMP c) ≤ s.now / 4 → s.halted c = false → s.rd (Reg.MIL_CORE_STAT_STATE c) = 3 →
    Answers (.coreTimerIrq c) s (fun t => OnlyFields [Hid.mtip c, Reg.MIL_CORE_STAT_STATE c] s t
      ∧ t.rd (Hid.mtip c) = 1 ∧ t.rd (Reg.MIL_CORE_STAT_STATE c) = 2))
  ∧ (∀ (c : Fin 4) (s : State), s.on (Reg.MIL_WDG_CFG_EN c) = true → s.halted c = false →
    Answers (.wdgKick c 0x5AFE) s (fun t => OnlyFields [Reg.MIL_WDG_VAL c, Hid.wdgWarn c] s t
      ∧ t.rd (Reg.MIL_WDG_VAL c) = s.rd (Reg.MIL_WDG_CFG_LOAD c) % 2 ^ (Reg.MIL_WDG_VAL c).w ∧ t.rd (Hid.wdgWarn c) = 0)
    ∧ (s.rd (Reg.MIL_WDG_VAL c) ≤ 1 → exec (.wdgExpire c) s = .next (
      let u := (s.wr (Reg.MIL_WDG_VAL c) (s.rd (Reg.MIL_WDG_CFG_LOAD c))).wr (Hid.wdgWarn c) 1
      if s.on (Hid.wdgWarn c) && s.on (Reg.MIL_WDG_CFG_ACTION c) then ((u.milEvt (4 + c)).journal 3 c).coreReset c
      else u.milEvt c)))
  ∧ (∀ (u : Fin 2) (w : Word) (s : State), (s.fifo (16 + u)).length < 64 →
    exec (.uartTxWrite u w) s = .next ((s.setFifo (16 + u) (s.fifo (16 + u) ++ [w.toNat % 256])).uartKick u))
  ∧ (∀ (u : Fin 2) (x : Nat) (l : List Nat) (s : State), s.on (Hid.uartBusy u) = true → s.fifo (16 + u) = x :: l →
    exec (.uartTxCharacter u) s = .next ((((s.setFifo (16 + u) l).emitPins (.uartTx u (s.rd (Reg.MIL_UART_CFG_DIV u)) (s.uartFrame u x))).wr
      (Hid.uartBusy u) 0).uartKick u))
  ∧ (∀ (u : Fin 2) (x : Byte) (s : State), s.on (Reg.MIL_UART_CFG_EN u) = true → (s.fifo (18 + u)).length < 64 →
    exec (.uartRxByte u x) s = .next ((s.setFifo (18 + u) (s.fifo (18 + u) ++ [x.toNat])).milLevels))
  ∧ (∀ (u : Fin 2) (x : Nat) (l : List Nat) (s : State), s.fifo (18 + u) = x :: l →
    exec (.uartRxRead u) s = .next (((s.setFifo (18 + u) l).milLevels).answer .ok (leBytes 4 x)))
  ∧ (∀ (k : Fin 16) (w : Word) (s : State), (s.fifo k).length < 16 →
    exec (.mbSend k w) s = .next ((s.setFifo k (s.fifo k ++ [w.toNat])).milLevels))
  ∧ (∀ (k : Fin 16) (x : Nat) (l : List Nat) (s : State), s.fifo k = x :: l →
    exec (.mbRecv k) s = .next (((s.setFifo k l).milLevels).answer .ok (leBytes 4 x)))
  ∧ (∀ (i : Fin 64) (s : State), s.on (Reg.SEM_OWNER_HELD i) = false →
    Answers (.semTake .host i) s (fun t => OnlyFields [Reg.SEM_OWNER_HELD i, Reg.SEM_OWNER_OWNER i, Reg.SEM_OWNER_HALTED i] s t
      ∧ t.rd (Reg.SEM_OWNER_HELD i) = 1 ∧ t.rd (Reg.SEM_OWNER_OWNER i) = 94 ∧ t.rd (Reg.SEM_OWNER_HALTED i) = 0))
  ∧ (∀ (m : Master) (i : Fin 64) (s : State), s.on (Reg.SEM_OWNER_HELD i) = true → s.rd (Reg.SEM_OWNER_OWNER i) = semCode m →
    Answers (.semGive m i) s (fun t => OnlyFields [Reg.SEM_OWNER_HELD i, Reg.SEM_OWNER_OWNER i, Reg.SEM_OWNER_HALTED i] s t
      ∧ t.rd (Reg.SEM_OWNER_HELD i) = 0 ∧ t.rd (Reg.SEM_OWNER_OWNER i) = 0 ∧ t.rd (Reg.SEM_OWNER_HALTED i) = 0))
  ∧ (∀ (m : Master) (i : Fin 64) (s : State), m = .host ∨ m = .debug →
    Answers (.semForce m i) s (fun t => OnlyFields [Reg.SEM_OWNER_HELD i, Reg.SEM_OWNER_OWNER i, Reg.SEM_OWNER_HALTED i] s t
      ∧ t.rd (Reg.SEM_OWNER_HELD i) = 0))

/-- Firmware loads, starting and resetting cores and cache maintenance complete with the effects listed, which rest on R327 and R335 to R337. -/
def Obligations.FirmwareSteps : Prop :=
  (∀ (slot : Fin 4) (s u : State) (h : List Byte), s.on Reg.MIL_STAT_FW_BUSY = false → s.coresInReset = true →
    u = ((((s.wr Reg.MIL_STAT_FW_BUSY 1).wr Hid.fwMem 0).wr Hid.fwSlot slot).wr Hid.fwSrc (64 * s.rd Reg.MIL_FW_SRC)).wr Hid.fwAuto 0 →
    h = u.dahBytes (0x1B000000 + slot * 0x01100000 + 64) 256 →
    exec (.milLoadSlot slot) s = .next (if fwHeaderOk h ∧ u.fwRangeOk (hdrField h 16 8) (hdrField h 32 4) then
      ((u.wr Hid.fwProt 1).wr Hid.fwProtBase (hdrField h 16 8)).wr Hid.fwProtSize (hdrField h 32 4) else u))
  ∧ (∀ (s u t : State) (h : List Byte) (r : MRes), s.on Reg.MIL_STAT_FW_BUSY = false → s.coresInReset = true →
    u = ((((s.wr Reg.MIL_STAT_FW_BUSY 1).wr Hid.fwMem 1).wr Hid.fwSlot 0).wr Hid.fwSrc (64 * s.rd Reg.MIL_FW_SRC)).wr Hid.fwAuto 0 →
    u.coRead (u.req .peony u.milKey) (u.rd Hid.fwSrc) 256 = (h, r, t) →
    exec .milLoadMem s = .next (if r = .ok ∧ fwHeaderOk h ∧ t.fwRangeOk (hdrField h 16 8) (hdrField h 32 4) then
      ((t.wr Hid.fwProt 1).wr Hid.fwProtBase (hdrField h 16 8)).wr Hid.fwProtSize (hdrField h 32 4) else t))
  ∧ (∀ (s s1 s3 s4 : State) (h body : List Byte), s.on Reg.MIL_STAT_FW_BUSY = true → s.fwSourceOk = true →
    s.fwBytes 0 256 = (h, .ok, s1) → fwHeaderOk h = true → s1.fwRangeOk (hdrField h 16 8) (hdrField h 32 4) = true →
    (((s1.wr Hid.fwProt 1).wr Hid.fwProtBase (hdrField h 16 8)).wr Hid.fwProtSize (hdrField h 32 4)).fwBytes 256
      (hdrField h 32 4 + 1284) = (body, .ok, s3) →
    s3.coWrite (s3.req .peony s3.milKey) (hdrField h 16 8) (body.take (hdrField h 32 4)) = (.ok, s4) →
    s4.keyUsable (hdrField h 36 4) 1 = true → s4.minSvn ≤ hdrField h 12 4 →
    exec (.fwLoadDone true true true) s = .next (s4.fwPass h))
  ∧ (∀ (r d g : Bool) (s : State), s.on Reg.MIL_STAT_FW_BUSY = true → s.fwSourceOk = false →
    exec (.fwLoadDone r d g) s = .next (s.fwFail 6))
  ∧ (∀ (cores : Fin 16) (s : State), s.on Reg.MIL_STAT_FW_LOADED = true → (coresOf cores).isEmpty = false → s.bstIs 7 = false →
    (coresOf cores).all (fun c => s.rd (Reg.MIL_CORE_STAT_STATE c) == 0 && bit (s.rd Hid.fwCores) c) = true →
    exec (.milStart cores) s = .next ((coresOf cores).foldl (fun t c => t.coreStart c) s))
  ∧ (∀ (cores : Fin 16) (s : State), cores.val ≠ 0 →
    exec (.milResetCores cores) s = .next ((coresOf cores).foldl (fun t c => t.coreReset c) s))
  ∧ (∀ (s : State) (a n : Nat), a = 64 * s.rd Reg.MIL_CMO_BASE → n = s.rd Reg.MIL_CMO_SIZE →
    s.rangeOfReq a (64 * n) = some .hbm → s.on Reg.MIL_STAT_CMO_BUSY = false → s.bstIs 7 = false →
    let go (op : Nat) : State := (((s.wr Reg.MIL_STAT_CMO_BUSY 1).wr Hid.cmoOp op).wr Hid.cmoBase a).wr Hid.cmoSize n
    exec .milCmoClean s = .next (go 0) ∧ exec .milCmoInval s = .next (go 1) ∧ exec .milCmoFlush s = .next (go 2))
  ∧ (∀ s : State, s.on Reg.MIL_STAT_CMO_BUSY = true → s.rd Hid.cmoOp = 1 →
    exec .cmoDone s = .next ((s.cacheDrop (s.rd Hid.cmoBase) (64 * s.rd Hid.cmoSize)).wr Reg.MIL_STAT_CMO_BUSY 0))

/-- Millstone commands complete with the effects listed, which rest on R338 to R347. -/
def Obligations.JobSteps : Prop :=
  (∀ (r : Fin 4) (w : Word) (s : State), (w.toNat + 2 ^ 32 - s.rd (Reg.MST_RING_RD r)) % 2 ^ 32 ≤ s.rd (Reg.MST_RING_SIZE r) →
    Answers (.mstRingWrWrite r w) s (fun t => OnlyFields [Reg.MST_RING_WR r] s t ∧ t.rd (Reg.MST_RING_WR r) = w.toNat))
  ∧ (∀ (op : Fin 4) (r : Nat) (d : List Byte) (s t : State), s.rd Reg.MST_STAT_STATE = 1 → s.mstNextRing = some r →
    s.coRead (s.req .millstone (s.rd (Reg.MST_RING_KEY r))) (s.mstDescAddr r) 128 = (d, .ok, t) →
    ofLeBytes d % 16 = op.val + 1 →
    ∀ c u : State, c = [Hid.mstEnd, Hid.mstCause, Hid.mstSel, Hid.mstOut, Hid.mstRead, Hid.mstLost, Hid.mstBad, Hid.mstOver, Hid.mstRun,
      Hid.mstTrunc, Hid.mstLimit, Hid.mstStale, Hid.mstIdx, Hid.mstPorts 0, Hid.mstPorts 1, Hid.mstPorts 2,
      Hid.mstPorts 3].foldl (fun v f => v.clr f) t →
    u = ((((((({ c with mstQueue := [] } : State).wr Hid.mstDesc (ofLeBytes d)).wr Hid.mstRr r).wr Reg.MST_STAT_RING r).wr
      Reg.MST_STAT_STATE 2).wr Reg.MST_JOB_ADDR (s.mstDescAddr r)).answer .ok []).jobSetUp → u.last.res ≠ .held →
    exec ([Instr.mstJobCount, .mstJobList, .mstJobIndex, .mstJobExport].getD op .mstStart) s = .next u)
  ∧ (∀ (b : MBlk) (l : List MBlk) (s : State), s.rd Reg.MST_STAT_STATE = 2 → s.on Hid.mstEnd = false → s.jobStale = false →
    s.jobWaits = false → s.mstQueue = b :: l → s.overrun b = false → exec .mstBlockRead s = .next (s.jobBlock b l))
  ∧ (∀ s : State, s.rd Reg.MST_STAT_STATE = 2 →
    (s.rd Hid.mstEnd = 2 ∨ s.rd Hid.mstEnd = 3 → exec .mstJobEnd s = .next (s.jobClose (s.rd Hid.mstEnd)))
    ∧ (s.rd Hid.mstEnd = 0 → s.jobStale = false → s.mstQueue = [] →
      s.jobOp ≠ 4 ∨ (Tab.getD s.streams s.jobQueue []).isEmpty = true → exec .mstJobEnd s = .next (s.jobClose 1)))
  ∧ (∀ s : State, s.rd Reg.MST_STAT_STATE = 0 → s.bstIs 0 = false →
    Answers .mstStart s (fun t => OnlyFields [Reg.MST_STAT_STATE] s t ∧ t.rd Reg.MST_STAT_STATE = 1))
  ∧ (∀ s : State, (s.rd Reg.MST_STAT_STATE = 1 →
      Answers .mstStop s (fun t => OnlyFields [Reg.MST_STAT_STATE] s t ∧ t.rd Reg.MST_STAT_STATE = 0))
    ∧ (s.rd Reg.MST_STAT_STATE = 2 → Answers .mstStop s (fun t => OnlyFields [Hid.mstStop] s t ∧ t.rd Hid.mstStop = 1)
      ∧ Answers .mstAbort s (fun t => OnlyFields [Hid.mstEnd, Hid.mstCause] s t ∧ t.rd Hid.mstEnd = 2 ∧ t.rd Hid.mstCause = 0)))
  ∧ (∀ s : State, Answers .mstClrCnt s (fun t => OnlyFields [Reg.MST_JOBS, Reg.MST_BLK_LOST] s t
      ∧ t.rd Reg.MST_JOBS = 0 ∧ t.rd Reg.MST_BLK_LOST = 0))

/-- Configuration, BAR and MSI-X accesses, resets and link changes of the host port complete with the effects listed, which rest on R350 to R355 and R380. -/
def Obligations.HostAccessSteps : Prop :=
  (∀ (r : Fin 1024) (w : Word) (s : State), s.on Reg.HST_STAT_READY = true →
    exec (.pcieConfigRequest r none none) s = .next ((s.pcieRead r).2.answer .ok (leBytes 4 (s.pcieRead r).1))
    ∧ exec (.pcieConfigRequest r (some w) none) s = .next ((s.wr (Hid.pcieCfg r) w.toNat).answer .ok []))
  ∧ (∀ (x : BitVec 30) (w : Word) (s : State), s.hostUp = true → x.toNat % 4 = 0 →
    ((s.busRead .host x.toNat).last.res ≠ .err → exec (.bar0Read x 4) s = .next (s.busRead .host x.toNat))
    ∧ ((s.busWrite .host x.toNat w.toNat).last.res ≠ .err →
      exec (.bar0Write x 4 w) s = .next (s.busWrite .host x.toNat w.toNat)))
  ∧ (∀ (x : BitVec 36) (n : Fin 4097) (a key urg : Nat) (bs : List Byte) (s t : State), s.hostUp = true →
    s.window x.toNat n = some (a, key, urg) →
    (s.rangeOfReq a n = some .hbm → s.coReadU (s.req .host key) (some urg) a n = (bs, .ok, t) →
      exec (.bar2Read x n) s = .next (t.answer .ok bs))
    ∧ (∀ m, s.rangeOfReq a n = some (.fabric m) →
      exec (.bar2Read x n) s = .next (s.issue 94 m 0 key urg 0 a (List.replicate n none))))
  ∧ (∀ (x : BitVec 36) (d : List (Option Byte)) (a key urg : Nat) (s t : State), s.hostUp = true →
    s.window x.toNat d.length = some (a, key, urg) →
    (s.rangeOfReq a d.length = some .hbm → s.coWriteU (s.req .host key) (some urg) a d = (.ok, t) →
      exec (.bar2Write x d) s = .next (t.answer .ok []))
    ∧ (∀ m, s.rangeOfReq a d.length = some (.fabric m) → exec (.bar2Write x d) s = .next (s.issue 94 m 1 key urg 0 a d)))
  ∧ (∀ (v : Fin 512) (w : Word) (s : State),
    exec (.msixTableAccess ⟨4 * v + 2, by omega⟩ (some w)) s = .next ((s.wr (Hid.msixData v) w.toNat).answer .ok [])
    ∧ exec (.msixTableAccess ⟨4 * v, by omega⟩ (some w)) s = .next
      ((s.wr (Hid.msixAddr v) (s.rd (Hid.msixAddr v) / 2 ^ 32 * 2 ^ 32 + w.toNat)).answer .ok [])
    ∧ exec (.msixTableAccess ⟨4 * v + 2, by omega⟩ none) s = .next (s.answer .ok (leBytes 4 (s.rd (Hid.msixData v)))))
  ∧ (∀ (k : HostReset) (s : State), Answers (.hostReset k) s (fun t => t.mem = s.mem ∧ t.streams = []
      ∧ t.rd Reg.HST_STAT_READY = s.rd Reg.HST_STAT_READY
      ∧ t.rd Reg.HST_STAT_LINK_UP = (if k = .linkDown then 0 else s.rd Reg.HST_STAT_LINK_UP)
      ∧ ∀ e ∈ t.loHeld, e.1 / 2 ^ 32 ≠ 0))
  ∧ (∀ (sp : Fin 6) (wd : Fin 17) (s : State), sp.val ≠ 0 → wd.val ≠ 0 → s.on Hid.perst = true → s.rd Reg.SYS_BOOT_STAT_PHASE ≠ 0 →
    ∀ t : State, t = ((s.wr Reg.HST_LINK_STAT_SPEED sp).wr Reg.HST_LINK_STAT_WIDTH wd).wr Reg.HST_STAT_LINK_UP 1 →
    exec (.pcieLinkChange sp wd) s = .next (if s.rd Reg.HST_LINK_STAT_SPEED = sp ∧ s.rd Reg.HST_LINK_STAT_WIDTH = wd then t
      else t.hstEvt 2))
  ∧ (∀ (u : Bool) (s : State), exec (.aerErrorLogged u) s = .next (s.raiseB Reg.HST_EVT_EVT (if u then 4 else 3)
      (if u then 244 else 243)))

/-- Driver agreement, queues, descriptors and interrupt moderation complete with the effects listed, which rest on R356 to R361 and R379. -/
def Obligations.QueueSteps : Prop :=
  (∀ (w : Word) (s : State), (List.range 64).any (fun q => s.rd (Reg.HST_Q_STAT_STATE q) != 0) = false →
    exec (.drvHello w) s = .next (
      let major := min (s.rd Reg.HST_IF_VER_IF_MAJOR) (bits w.toNat 15 8)
      let ok := decide (max (s.rd Reg.HST_IF_VER_MIN_MAJOR) (bits w.toNat 23 16) ≤ major)
      let s1 := ((s.wr Reg.HST_DRV_HELLO_DRV_MIN (bits w.toNat 23 16)).wr Reg.HST_DRV_HELLO_DRV_MAX (bits w.toNat 15 8)).wr
        Reg.HST_DRV_HELLO_DRV_MINOR (bits w.toNat 7 0)
      ((((s1.wr Reg.HST_IF_STAT_AGREED (b2n ok)).wr Reg.HST_IF_STAT_REFUSED (b2n !ok)).wr Reg.HST_IF_STAT_MAJOR
        (if ok then major else 0)).wr Reg.HST_IF_STAT_MINOR
        (if ok then min (s.rd Reg.HST_IF_VER_MAX_MINOR) (bits w.toNat 7 0) else 0)).hstEvt 6))
  ∧ (∀ (q : Fin 64) (s : State), s.rd (Reg.HST_Q_STAT_STATE q) = 0 → s.on Reg.HST_IF_STAT_AGREED = true → s.ringOk q = true →
    Answers (.qStart q) s (fun t => OnlyFields [Reg.HST_Q_STAT_STATE q, Reg.HST_Q_STAT_CAUSE q] s t
      ∧ t.rd (Reg.HST_Q_STAT_STATE q) = 1 ∧ t.rd (Reg.HST_Q_STAT_CAUSE q) = 0))
  ∧ (∀ (q : Fin 64) (s : State), s.rd (Reg.HST_Q_STAT_STATE q) = 1 →
    Answers (.qStop q) s (fun t => OnlyFields [Reg.HST_Q_STAT_STATE q] s t
      ∧ t.rd (Reg.HST_Q_STAT_STATE q) = if s.qBusy q then 2 else 0))
  ∧ (∀ (q : Fin 64) (s : State), s.rd (Reg.HST_Q_STAT_STATE q) = 3 →
    Answers (.qReset q) s (fun t => OnlyFields [Reg.HST_Q_STAT_STATE q] s t ∧ t.rd (Reg.HST_Q_STAT_STATE q) = 0))
  ∧ (∀ s : State, Answers .hstClrCnt s (fun t => OnlyFields [Reg.HST_ERR_CNT, Reg.HST_ERR_ADDR, Reg.HST_ERR_INFO_VALID,
      Reg.HST_ERR_INFO_OVF, Reg.HST_ERR_INFO_KIND] s t ∧ t.rd Reg.HST_ERR_CNT = 0 ∧ t.rd Reg.HST_ERR_INFO_VALID = 0))
  ∧ (∀ (q : Fin 64) (w : Word) (s : State),
    (w.toNat + 2 ^ 32 - s.rd (Reg.HST_Q_HEAD q)) % 2 ^ 32 ≤ s.rd (Reg.HST_Q_SIZE q) →
    Answers (.qTailWrite q w) s (fun t => OnlyFields [Reg.HST_Q_TAIL q] s t ∧ t.rd (Reg.HST_Q_TAIL q) = w.toNat))
  ∧ (∀ (q : Fin 64) (d : BitVec 256) (data : Option (List Byte)) (f : Bool) (s t : State) (card len host dir : Nat) (r : Req)
      (irq : Bool) (u : Option Nat),
    s.qOpen q = true → s.on Reg.HST_STAT_LINK_UP = true → s.qTurn q = true → dir = s.rd (Reg.HST_Q_CFG_DIR q) →
    host = bits d.toNat 63 0 → card = bits d.toNat 109 64 → len = bits d.toNat 159 128 → irq = bit (bits d.toNat 191 160) 0 →
    descBad dir host len (bits d.toNat 191 160) = false →
    (List.range 64).any (fun p => p != q.val && s.qTakes p) = false →
    t = (s.wr Hid.qLast q).wr (Hid.qUnits q) 0 → r = t.req .host (t.rd (Reg.HST_Q_CFG_KEY q)) → u = some (t.rd (Reg.HST_Q_CFG_URG q)) →
    (∀ (bs : List Byte) (v x y : State), dir = 0 → data = some bs → t.cardOf r true card len = .mem →
      t.netFor r u true card len = (.ok, v) → (v.snoopFor r true card len).2.memGate r card len = (.ok, x) →
      x.writeUnits r card ((bs.take len).map some) = (.ok, y) →
      exec (.descProcess q (some d) data f) s = .next (y.descDone q irq ⟨0, len, false, false⟩))
    ∧ (∀ (bs : List Byte) (v : State), dir = 1 → t.cardOf r false card len = .mem → t.coReadU r u card len = (bs, .ok, v) →
      exec (.descProcess q (some d) data f) s = .next
        ((v.emit (.hostWrite host (v.on (Reg.HST_Q_CFG_RO q)) false bs)).descDone q irq ⟨0, bs.length, false, false⟩)))
  ∧ (∀ (q : Fin 64) (d : Option (BitVec 256)) (data : Option (List Byte)) (f : Bool) (s : State), s.qOpen q = true →
    s.on Reg.HST_STAT_LINK_UP = false → exec (.descProcess q d data f) s = .next
      (((((s.add (Reg.HST_Q_HEAD q) 1).wr (Hid.qUnits q) 0).wr (Reg.HST_Q_STAT_STATE q) 3).wr (Reg.HST_Q_STAT_CAUSE q) 5).hstEvt 1))
  ∧ (∀ (q : Fin 64) (s : State), s.on (Hid.imodRun q) = true →
    exec (.imodExpire q) s = .next (if s.on (Hid.imodPend q) then (s.wr (Hid.imodPend q) 0).msixSend (s.rd (Reg.HST_Q_CFG_VEC q))
      else s.wr (Hid.imodRun q) 0))

/-- Bring-up, offers and faults of a Ramzel link complete with the effects listed, which rest on R362 to R367 and R379. -/
def Obligations.LinkBringUpSteps : Prop :=
  (∀ (l : Fin 2) (w : Word) (s : State),
    (s.on (Reg.RLK_CTRL_EN l) = false → (s.writeReg 0x00A (0x100 + 0x100 * l) (w.toNat ||| 1)).on (Reg.RLK_CTRL_EN l) = true →
      exec (.rlkEnable l w) s = .next (State.each (List.range 8) (fun k u => u.wr (Hid.rlkLaneIdle l k) 0)
        (((s.writeReg 0x00A (0x100 + 0x100 * l) (w.toNat ||| 1)).rlkPhy l 0).wr (Hid.rlkDrvOff l) 0)))
    ∧ (s.on (Reg.RLK_CTRL_EN l) = true → (s.writeReg 0x00A (0x100 + 0x100 * l) (clrBit w.toNat 0)).on (Reg.RLK_CTRL_EN l) = false →
      exec (.rlkDisable l w) s = .next ((s.writeReg 0x00A (0x100 + 0x100 * l) (clrBit w.toNat 0)).rlkOff l)))
  ∧ (∀ (l : Fin 2) (x : List (Fin 8 × Fin 8 × Bool × Fin 512)) (s : State), s.rlkState l = 1 →
    (List.range 8).all (fun k => x.any (fun y => y.2.1.val == k)) = true → x.all (s.rlkInWindow l) = true →
    exec (.rlkPhyUp l x) s = .next ((((State.each x (State.rlkLane l) s).wr (Reg.RLK_LINK_STAT_STATE l) 2).wr
      (Hid.rlkOfferV l) 0).sendOffer l))
  ∧ (∀ (l : Fin 2) (s : State), s.rlkState l = 1 → exec (.rlkPhyFault l) s = .next (s.rlkFault l 1))
  ∧ (∀ (l : Fin 2) (s : State), s.rlkState l = 2 → exec (.rlkOfferTimer l) s = .next (s.sendOffer l))
  ∧ (∀ (l : Fin 2) (w : BitVec 512) (r : RlkRow) (s : State), s.rlkState l = 2 → r = rowOf w → rowCrcOk w = true → r.type = 4 →
    exec (.rowOffer l w) s = .next ((((s.wr (Hid.rlkOffer l) (r.payload.toNat % 2 ^ 64)).wr (Hid.rlkOfferV l) 1).wr
      (Reg.RLK_LINK_STAT_PEER_READY l) (b2n (bit (r.payload.toNat % 2 ^ 64) 8))).rlkAgree l))
  ∧ (∀ (l : Fin 2) (s : State), s.rlkState l = 3 →
    exec (.rlkRateSwitch l) s = .next (s.rlkPhy l (s.rd (Hid.rlkAgreed l))))
  ∧ (∀ (l : Fin 2) (s : State), s.rlkState l = 4 → exec (.rlkLinkDown l) s = .next (s.rlkDown l))
  ∧ (∀ (l : Fin 2) (rate : Nat) (s : State), (s.rlkPhy l rate).rlkState l = 1
    ∧ (s.rlkPhy l rate).rd (Reg.RLK_LINK_STAT_RATE l) = rate % 4 ∧ (s.rlkPhy l rate).mem = s.mem)
  ∧ (∀ (l : Fin 2) (s : State), s.on (Reg.RLK_CTRL_EN l) = true → s.rlkState l = 5 →
    exec (.rlkRetrain l) s = .next ((s.wr (Reg.RLK_LINK_STAT_FAULT_CAUSE l) 0).rlkPhy l 0))
  ∧ (∀ (l : Fin 2) (s : State), Answers (.rlkClrCnt l) s (fun t => t = { s with cells := t.cells } ∧ t.rd (Reg.RLK_CRC_ERR l) = 0
      ∧ t.rd (Reg.RLK_REPLAY l) = 0 ∧ t.rd (Reg.RLK_TRIG_LOST l) = 0 ∧ t.rd (Reg.RLK_DROP l) = 0 ∧ t.rd (Reg.RLK_LOST l) = 0
      ∧ ∀ k : Fin 8, t.rd (Reg.RLK_LN_HDR_ERR l k) = 0 ∧ t.rd (Reg.RLK_LN_MKR_ERR l k) = 0))

/-- Rows and stream words on an ACTIVE link complete with the effects listed, which rest on R364 and R368 to R371. -/
def Obligations.LinkRowSteps : Prop :=
  (∀ (l : Fin 2) (w : BitVec 512) (r : RlkRow) (s : State), s.rlkState l = 4 → r = rowOf w → rowCrcOk w = true →
    ∀ u : State, u = ((s.rlkTakeTrig l r.trig.toNat).rlkTakeAck l r.ack.toNat).rlkTakeCredit l r.crCh r.crCnt →
    (r.type = 0 → exec (.rowIdle l w) s = .next u)
    ∧ (r.type = 5 → exec (.rowNak l w) s = .next (u.rlkTakeNak l r.ack.toNat))
    ∧ (r.type = 1 ∨ r.type = 2 → (r.seq.toNat + 256 - u.rd (Hid.rlkSeqRx l)) % 256 = 0 →
      ∀ v : State, v = (u.add (Hid.rlkSeqRx l) 1).wr (Hid.rlkWait l) 0 →
      exec (.rowData l w) s
        = .next ((v.setRlkRows l (r.type.val - 1) (v.rlkRows l (r.type.val - 1) ++ [r])).rlkIdle l)))
  ∧ (∀ (l : Fin 2) (w : BitVec 512) (s : State), s.rlkState l = 4 → rowCrcOk w = false →
    exec (.rowData l w) s = .next ((s.inc (Reg.RLK_CRC_ERR l) 1).rlkNak l))
  ∧ (∀ (l c : Fin 2) (data : BitVec 416) (last : Bool) (n : Nat) (s : State), s.streamIsland l c = some n →
    s.fabricLive n = true → s.rlkMay l c = true → (c.val = 1 → s.rd (Reg.RLK_LINK_STAT_VER l) ≠ 0) →
    exec (.streamWordSend l c data last) s = .next ((s.rlkNumbered l c last data).answer .ok []))
  ∧ (∀ (l c : Fin 2) (n : Nat) (r : RlkRow) (rest : List RlkRow) (s : State), s.streamIsland l c = some n →
    s.rlkRows l c = r :: rest → s.streamLive n = true →
    exec (.rlkStreamRowRead l c) s = .next (((((s.setRlkRows l c rest).wr (Hid.rlkRet l c)
      (min 255 (s.rd (Hid.rlkRet l c) + 1))).rlkIdle l)).answer .ok (leBytes 52 r.payload.toNat)))

/-- The timestamp exchange and steps of the timebase complete with the effects listed, which rest on R372 to R374. -/
def Obligations.TimeSyncSteps : Prop :=
  (∀ (l : Fin 2) (t1 : DWord) (s : State), s.tsRole l 1 = true →
    exec (.tsSyncInterval l t1) s = .next (((s.wr (Hid.tsX l) ((s.rd (Hid.tsX l) + 1) % 256)).tsSend l 1
      ((s.rd (Hid.tsX l) + 1) % 256) 0).tsSend l 2 ((s.rd (Hid.tsX l) + 1) % 256) t1.toNat))
  ∧ (∀ (l : Fin 2) (w : BitVec 512) (r : RlkRow) (t2 t3 t4 : DWord) (s t : State), r = rowOf w → rowCrcOk w = true →
    s.rlkRecv l r true = (true, t) →
    (tsIs r 1 = true → t.tsRole l 2 = true → exec (.mgmtSync l w t2 t3) s
      = .next ((((t.wr (Hid.tsX l) (tsNum r)).wr (Hid.tsT2 l) t2.toNat).wr (Hid.tsT3 l) t3.toNat).tsSend l 3 (tsNum r) 0))
    ∧ (tsIs r 2 = true → t.tsRole l 2 = true → exec (.mgmtFollow l w) s = .next (t.wr (Hid.tsT1 l) (tsStamp r)))
    ∧ (tsIs r 3 = true → t.tsRole l 1 = true →
      exec (.mgmtDelayReq l w t4) s = .next (t.tsSend l 4 (tsNum r) t4.toNat)))
  ∧ (∀ (l : Fin 2) (w : BitVec 512) (r : RlkRow) (s t : State), r = rowOf w → rowCrcOk w = true → s.rlkRecv l r true = (true, t) → tsIs r 4 = true → t.tsRole l 2 = true →
    tsNum r = t.rd (Hid.tsX l) → t.rd Reg.TSB_CTRL_SRC = l.val + 1 →
    exec (.mgmtDelayResp l w) s = .next ((t.wr (Reg.RLK_TS_OFF l) (ofSigned 32 (t.theta l (tsStamp r)))).tsbUse
      (t.theta l (tsStamp r)) (t.rd (Reg.RLK_TS_CFG_INTERVAL l))))
  ∧ (∀ s : State, s.rd Reg.TSB_STAT_SYNC = 2 →
    exec .tsbSyncLost s = .next (((s.wr Reg.TSB_STAT_SYNC 1).wr Hid.tsGood 0).tsbEvt 2))
  ∧ (∀ s : State, s.rd Reg.TSB_CTRL_SRC = 0 → s.now ≤ s.rd Reg.TSB_SET ∨ s.backOk = true →
    exec .tsbStep s = .next (s.tsbStepTo (s.rd Reg.TSB_SET)))
  ∧ (∀ s : State, s.on Reg.TSB_STAT_STEP_HELD = true → s.backOk = true → exec .tsbStepRelease s
      = .next (((s.wr Reg.TSB_STAT_STEP_HELD 0).wr Reg.TSB_FREQ 0).tsbStepTo (s.tsbMoved (toSigned 32 (s.rd Hid.tsHeld)))))

/-- Raising, claiming, routing and user events complete with the effects listed, which rest on R375 to R377 and R560. -/
def Obligations.EventSteps : Prop :=
  (∀ (e : Fin 1024) (s : State), (eventReserved e = true → exec (.eventRaise e) s = .next s)
    ∧ (eventReserved e = false → Answers (.eventRaise e) s (fun t => t.pend e = true ∧ t.mem = s.mem
      ∧ (s.on (Reg.EVT_ROUTE_A_EN e) = false → OnlyFields [Reg.EVT_PEND (e / 32)] s t))))
  ∧ (∀ (c : Fin 4) (p : Fin 2) (s : State),
    (s.claimable c p = none → exec (.evtClaimRead c p false) s = .next (s.answer .ok (leBytes 4 0)))
    ∧ (∀ e, s.claimable c p = some e → exec (.evtClaimRead c p true) s = .next (s.answer .ok (leBytes 4 (2 ^ 31 + e)))
      ∧ exec (.evtClaimRead c p false) s
        = .next (((s.clrB (Reg.EVT_PEND (e / 32)) (e % 32)).milLevels).answer .ok (leBytes 4 (2 ^ 31 + e)))))
  ∧ (∀ (e : Fin 1024) (w : Word) (s t : State), t = s.writeReg 0x001 (0x10000 + 8 * e) w.toNat →
    (s.pend e = false → exec (.evtRouteAWrite e w) s = .next t)
    ∧ (s.pend e = true → s.on (Reg.EVT_ROUTE_A_EN e) = false → t.on (Reg.EVT_ROUTE_A_EN e) = true → t.on (Reg.EVT_ROUTE_A_MSIX_EN e) = true →
      exec (.evtRouteAWrite e w) s = .next (t.msixSend (t.rd (Reg.EVT_ROUTE_A_VECTOR e)))))
  ∧ (∀ (u : Fin 32) (s : State), exec (.evtUserRaise u) s = .next (s.raise (992 + u)))

/-- The packets of the configuration stream complete with the effects listed, which rest on R386 to R400. -/
def Obligations.PacketSteps : Prop :=
  (∀ (k : List Byte) (r : MRes) (s t : State), s.on Reg.CFG_STAT_SRC_ACTIVE = true →
    s.rd Reg.CFG_STAT_LSTATE = 1 ∨ s.rd Reg.CFG_STAT_LSTATE = 7 →
    s.srcBytes (k ++ leBytes 4 0x6D31E0A5) = some (k ++ leBytes 4 0x6D31E0A5, r, t) →
    (∀ i, i < k.length → ((k ++ leBytes 4 0x6D31E0A5).drop i).take 4 ≠ leBytes 4 0x6D31E0A5) →
    Answers (.cfgSyncWord k) s (fun u => u.rd Reg.CFG_STAT_LSTATE = 2 ∧ u.rd Hid.cfgCrc = 0xFFFFFFFF ∧ u.rd Reg.CFG_WORDS = 0
      ∧ u.rd Reg.CFG_STARTUP = 0x1024 ∧ u.mem = t.mem))
  ∧ (∀ s t : State, s.cfgReads = true → s.rd Hid.cfgLeft = 0 → s.takeWords [0] = some (false, t) →
    exec .pktNoop s = .next (t.cfgCrcAdd [0]))
  ∧ (∀ (p : Packet) (l : List Nat) (s t : State),
    (s.packetAt 0 id p = some (l, t) → word0 l = t.cfgCrcNow → exec (.pktCrc p) s = .next t)
    ∧ (s.packetAt 1 id p = some (l, t) → t.rd Reg.CFG_STAT_LSTATE = 2 → word0 l % 2 ^ 28 = 0x09260A13 →
      exec (.pktIdcode p) s = .next (t.wr Reg.CFG_STAT_LSTATE 3))
    ∧ (s.packetAt 2 id p = some (l, t) → t.rd Reg.CFG_STAT_LSTATE = 3 ∨ t.rd Reg.CFG_STAT_LSTATE = 4 → farOk (word0 l) = true →
      exec (.pktFar p) s = .next ((t.wr Hid.cfgFar (word0 l)).wr Hid.cfgFarEnd 0))
    ∧ (s.packetAt 5 id p = some (l, t) → startupOk (word0 l) = true → t.rd Reg.CFG_STAT_LSTATE = 3 →
      exec (.pktStartup p) s = .next (t.wr Reg.CFG_STARTUP (word0 l)))
    ∧ (s.packetAt 6 id p = some (l, t) → (l[2]?).getD 0 < 2 ^ 16 → t.rd Reg.CFG_STAT_LSTATE = 3 → t.prOpen = false →
      Answers (.pktRegion p) s (fun u => OnlyFields [Reg.CFG_REGION 0, Reg.CFG_REGION 1, Reg.CFG_REGION 2] t u
        ∧ u.rd (Reg.CFG_REGION 0) = (l[0]?).getD 0 % 2 ^ (Reg.CFG_REGION 0).w))
    ∧ (s.packetAt 10 id p = some (l, t) → exec (.pktGsel p) s = .next (t.wr Hid.cfgGsel (word0 l)))
    ∧ (s.packetAt 8 id p = some (l, t) → 1 ≤ (l[1]?).getD 0 → (l[1]?).getD 0 ≤ 1280 → l.length = 2 + ((l[1]?).getD 0 + 3) / 4 → t.betweenFrames = true →
      t.on Hid.cfgAuth = false → t.on Hid.cfgEnc = false →
      exec (.pktAuth p) s = .next ((t.wr Hid.cfgAuth 1).wr Hid.cfgAuthKey (word0 l)))
    ∧ (s.packetAt 9 (fun _ => 6) p = some (l, t) → pktHead (p.words.map BitVec.toNat) = .write 9 6 1 → word0 l ≤ 1 →
      (l[5]?).getD 0 = 256 ∨ (l[5]?).getD 0 = 1024 ∨ (l[5]?).getD 0 = 4096 → (l[4]?).getD 0 < 2 ^ 28 → t.betweenFrames = true →
      t.on Hid.cfgEnc = false →
      exec (.pktEnc p) s = .next ((((t.wr Hid.cfgEnc (b2n ((l[4]?).getD 0 != 0))).wr Hid.cfgEncLeft ((l[4]?).getD 0)).wr
        Hid.cfgEncSeg ((l[5]?).getD 0)).wr Hid.cfgEncKey (word0 l)))
    ∧ (s.packetAt 3 id p = some (l, t) → s.framesHeld (l.length / 67) = false → t.framesLegal (l.length / 67) = true →
      exec (.pktFdri p []) s = .next ((t.fdriFrames l).wrIf ((t.fdriFrames l).rd Reg.CFG_STAT_LSTATE == 4) Hid.cfgLeft 0))
    ∧ (∀ out, s.packetAt 7 id p = some (l, t) → l.length = word0 l + 1 → zDecode (l.drop 1) = (out, true) →
      s.framesHeld (out.length / 64) = false → t.framesLegal (out.length / 64) = true →
      exec (.pktZdata p []) s = .next ((pieces 64 out).foldl (fun a w => a.frameWrite (ofWords w) true) t)))
  ∧ (∀ (ws ps : List Word) (n : Nat) (s t : State), n = min (s.rd Hid.cfgEncSeg) (s.rd Hid.cfgEncLeft) → s.cfgReads = true →
    s.on Hid.cfgEnc = true → n ≠ 0 → ws.length = n + 4 → ps.length = n → s.srcWords (ws.map BitVec.toNat) = some (false, t) →
    s.encKeyOk = true → exec (.encSegment ws (some ps)) s = .next { t.wr Hid.cfgEncLeft (t.rd Hid.cfgEncLeft - n) with
      fifos := Tab.set t.fifos 33 [] (Tab.getD t.fifos 33 [] ++ ps.map BitVec.toNat) })

/-- The CMD packets of the configuration stream and its clearing complete with the effects listed, which rest on R389 to R399 and R416 to R419. -/
def Obligations.StreamCommandSteps : Prop :=
  (∀ (p : Packet) (l : List Nat) (s t : State), s.packetAt 4 id p = some (l, t) →
    (word0 l = 0 → exec (.cmdNull p) s = .next t)
    ∧ (word0 l = 1 → exec (.cmdRcrc p) s = .next (t.wr Hid.cfgCrc 0xFFFFFFFF))
    ∧ (word0 l = 2 → t.rd Reg.CFG_STAT_LSTATE = 3 ∨ t.rd Reg.CFG_STAT_LSTATE = 5 →
      t.on Reg.CFG_STAT_SIG_REQ = false ∨ t.on Hid.cfgAuth = true → exec (.cmdWcfg p) s = .next (t.wr Reg.CFG_STAT_LSTATE 4))
    ∧ (word0 l = 3 → t.rd Reg.CFG_STAT_LSTATE = 4 →
      exec (.cmdLfrm p) s = .next (if t.on Hid.cfgAuth then t.wr Hid.cfgSig 1 else t.lfrmPass))
    ∧ (word0 l = 4 → t.rd Reg.CFG_STAT_LSTATE = 5 →
      (t.startIslands = [] → t.on Reg.CFG_STAT_OPERATING = true → exec (.cmdStart p) s = .next t.startupDone)
      ∧ (t.startIslands ≠ [] → Answers (.cmdStart p) s (fun u => u.rd Reg.CFG_STAT_LSTATE = 6 ∧ u.rd Hid.startStage = 0)))
    ∧ (word0 l = 5 → t.rd Reg.CFG_STAT_LSTATE = 3 ∨ t.rd Reg.CFG_STAT_LSTATE = 5 → t.on Hid.cfgAuth = false → t.prOpen = false →
      t.on Hid.cfgBoot = false → t.rd Reg.CFG_LOAD_STAT_SOURCE ≠ 1 →
      exec (.cmdDesync p) s = .next ((t.wr Reg.CFG_STAT_LSTATE 1).cfgForget))
    ∧ (word0 l = 6 → t.rd Reg.CFG_STAT_LSTATE = 3 → t.on Reg.CFG_STAT_OPERATING = true → t.regionIslands ≠ [] →
      t.regionIslands.all (fun n => t.rd (Reg.ISL_STAT_STATE n) == 3 && !t.on (Reg.ISL_STAT_SWITCHING n) && !t.frameFenced n) = true →
      exec (.cmdPrBegin p) s = .next (t.regionIslands.foldl (fun u n => State.weirClose n u) t))
    ∧ (word0 l = 7 → t.rd Reg.CFG_STAT_LSTATE = 3 ∨ t.rd Reg.CFG_STAT_LSTATE = 5 →
      ∀ m, m = (List.range 80).filter (fun n => t.on (Hid.prIsl n) && t.rd (Reg.ISL_STAT_STATE n) == 1) →
      m.all (fun n => !t.on (Hid.prGot n)) = true →
      exec (.cmdPrCancel p) s = .next (m.foldl (fun u n => (((u.wr (Reg.ISL_STAT_STATE n) 3).wr
        (Reg.ISL_WEIR_STAT_CLOSED n) 0).wr (Hid.prIsl n) 0)) t)))
  ∧ (∀ (d : BitVec 512) (s : State), s.on Hid.cfgSig = true → s.keyUsable (s.rd Hid.cfgAuthKey) 0 = true →
    exec (.sigVerifyDone true d) s = .next (((((s.wr Hid.cfgSecKey (s.rd Hid.cfgAuthKey)).wr Hid.cfgSecDig d.toNat).wr
      Hid.cfgAuth 0).wr Hid.cfgSig 0).lfrmPass))
  ∧ (∀ (m g : Fin 8) (s : State), s.rd Reg.SYS_BOOT_STAT_PHASE = 3 → s.rd Reg.CFG_STAT_LSTATE = 0 →
    s.on Reg.SYS_AUTO_HBM_EN = false → s.on Reg.SYS_AUTO_FW_EN = false →
    Answers (.clearingDone m g) s (fun t => ∃ u : State, t = u.bootStart ∧ u.rd Reg.CFG_STAT_LSTATE = 1 ∧ u.on Reg.HST_STAT_READY = true
      ∧ u.rd Reg.CFG_PINS_CFG_MODE = m ∧ u.rd Reg.CFG_PINS_GANG_POS = g ∧ u.rd Reg.SYS_BOOT_STAT_PHASE = 4 ∧ u.pend 0 = true))

/-- The start-up stages and sources of configuration complete with the effects listed, which rest on R401 to R415. -/
def Obligations.StartupSteps : Prop :=
  (∀ s : State, s.rd Reg.CFG_STAT_LSTATE = 6 → s.rd Hid.startStage = 0 → s.on Reg.CFG_STAT_OPERATING = true →
    s.starting.all (fun n => s.rd (Reg.ISL_CLK_STAT_STATE n) == 5 && !s.on (Hid.hdrBad n)) = true →
    Answers .startupClocksDone s (fun t => OnlyFields [Hid.startStage, Hid.startPrev] s t ∧ t.rd Hid.startStage = 1
      ∧ t.rd Hid.startPrev = s.now))
  ∧ (∀ (v : List (BitVec 12)) (s : State),
    (s.stageNow 0 = true → exec (.startupOut v) s = .next (((s.starting.filter (fun n => s.on (Reg.ISL_WEIR_STAT_FIRST_START n))).foldl
      (fun t n => t.ioRelease n) (s.vioMeasure v)).stageNext 0))
    ∧ (s.stageNow 2 = true → exec .startupWe s = .next (s.stageNext s.weTime))
    ∧ (s.stageNow 4 = true → exec .startupRst s = .next ((s.starting.foldl (fun t n =>
      (t.fabricStart n (t.rd (Reg.ISL_STAT_CUR_CTX n))).wr (Reg.ISL_WEIR_STAT_HELD n) 0) s).stageNext 0)))
  ∧ (∀ s : State, ∀ u : State, u = (if !s.on Reg.CFG_STAT_OPERATING && !bit (s.rd Reg.CFG_STARTUP) 8
      then s.wr Reg.CFG_PINS_DONE 1 else s) →
    (s.stageAt 4 = true → exec .startupDone s = .next (u.stageNext 0))
    ∧ (s.stageAt 5 = true → exec .startupWeir s = .next ((s.starting.foldl (fun t n => State.startRun n t) s).startupDone)))
  ∧ (∀ s : State, s.on Reg.CFG_STAT_DONE_WAITING = true →
    Answers (.donePinHigh true) s (fun t => OnlyFields [Reg.CFG_STAT_DONE_WAITING, Reg.CFG_PINS_DONE, Hid.startPrev] s t
      ∧ t.rd Reg.CFG_STAT_DONE_WAITING = 0 ∧ t.rd Reg.CFG_PINS_DONE = 1 ∧ t.rd Hid.startPrev = s.now)
    ∧ exec (.donePinHigh false) s = .next (s.cfgAbort 14))
  ∧ (∀ (n : Fin 80) (v : List (BitVec 12)) (s : State), s.rd (Reg.ISL_STAT_STATE n) = 2 → bit (s.rd Hid.startSet) n = false →
    s.rd (Reg.ISL_CLK_STAT_STATE n) = 5 → s.on (Hid.startLate n) = false →
    exec (.startupLateIsland n v) s = .next (((s.vioMeasure v).startAlone n).wr (Hid.startLate n) 0))
  ∧ (∀ (slot : Fin 4) (pl : Byte) (s : State), s.loadLegal = true →
    ∀ u : State, u = (s.wr Hid.cfgPlanes pl.toNat).wr Hid.cfgTry 0 →
    exec (.cfgLoadFlash pl) s = .next ((u.wr Hid.flashOk 0).imageStart ⟨1, 0, 2⟩)
    ∧ (s.rd (Reg.DAH_SLOT_STAT_STATE slot) = 2 → exec (.cfgLoadSlot slot pl) s = .next (u.imageStart ⟨3, slot, 0⟩))
    ∧ (∀ a n, a = 4 * s.rd Reg.CFG_MEM_BASE → n = 4 * s.rd Reg.CFG_MEM_LEN → s.inMemory a n = true →
      exec (.cfgLoadMem pl) s = .next (((u.imageStart ⟨4, 0, 0⟩).wr Hid.cfgPtr a).wr Hid.cfgEnd (a + n))))
  ∧ (∀ s : State, s.on Reg.CFG_STAT_SRC_ACTIVE = true → s.rd Reg.CFG_STAT_LSTATE = 3 → exec .cfgAbort s = .next (s.cfgAbort 11))
  ∧ (∀ s : State, s.rd Reg.CFG_STAT_LSTATE = 7 → s.on Reg.CFG_STAT_SRC_ACTIVE = false →
    Answers .cfgClrErr s (fun t => OnlyFields [Reg.CFG_STAT_LSTATE, Reg.CFG_LOAD_STAT_CAUSE] s t
      ∧ t.rd Reg.CFG_STAT_LSTATE = 1 ∧ t.rd Reg.CFG_LOAD_STAT_CAUSE = 0))
  ∧ (∀ (n : Fin 80) (c : Fin 8) (s : State), s.rd Reg.CFG_STAT_LSTATE = 1 → s.bitOf (Reg.ISL_CTX_VALID_LOADING n) c = false →
    s.rd (Reg.ISL_STAT_CUR_CTX n) ≠ c →
    exec (.cfgClearPlanes (n.castLE (by decide)) (BitVec.ofNat 8 (2 ^ c.val)) false) s = .next (State.clearPlane n c s))
  ∧ (∀ s : State, Answers .cfgClrCnt s (fun t => OnlyFields [Reg.CFG_FRAMES, Reg.CFG_REJ_FRAMES, Reg.CFG_FIFO_DROP] s t
      ∧ t.rd Reg.CFG_FRAMES = 0 ∧ t.rd Reg.CFG_REJ_FRAMES = 0 ∧ t.rd Reg.CFG_FIFO_DROP = 0))
  ∧ (∀ (w : Word) (s : State), s.on Reg.CFG_CTRL_FIFO_EN = true → s.on Hid.cfgHeldV = false → (Tab.getD s.fifos 32 []).length ≤ 1020 →
    ∀ q, q = Tab.getD s.fifos 32 [] ++ (leBytes 4 w.toNat).map BitVec.toNat →
    exec (.cfgFifoWrite w) s = .next ((State.cfgFifoStat { s with fifos := Tab.set s.fifos 32 [] q }).answer .ok []))
  ∧ (∀ s : State, s.on Hid.cfgHeldV = true → s.rd Reg.CFG_STAT_LSTATE = 1 →
    exec .cfgFifoDrop s = .next ((s.wr Hid.cfgHeldV 0).inc Reg.CFG_FIFO_DROP 1))
  ∧ (∀ s : State, s.cfgReads = true → s.on Hid.cfgBoot = false → exec .loadTimeout s = .next (s.cfgAbort 10))
  ∧ (∀ s : State, s.on Reg.CFG_STAT_SRC_ACTIVE = true → s.rd Reg.CFG_STAT_LSTATE = 3 → s.on Hid.cfgSig = false →
    s.rd Reg.CFG_LOAD_STAT_SOURCE = 2 → (s.cfgAbort 9).rd Reg.CFG_LOAD_STAT_SOURCE = 2 → exec .sourceEnd s = .next (s.cfgAbort 9))
  ∧ (∀ (o h : List Byte) (s : State), s.on Reg.CFG_STAT_SRC_ACTIVE = true → s.rd Reg.CFG_LOAD_STAT_SOURCE = 1 → s.on Hid.flashOk = false →
    s.rd Reg.CFG_PINS_CFG_MODE = 1 → flashHeaderOk h = true → ofLeBytes ((h.drop 16).take 4) ≠ 0xFFFFFFFF →
    Answers (.xspiHeaderRead o h) s (fun t => t.rd Hid.flashOk = 1 ∧ t.rd Reg.CFG_LOAD_STAT_INDEX = 0
      ∧ t.rd (Hid.flashImg 0) = ofLeBytes ((h.drop 16).take 4)))
  ∧ (∀ s : State, s.on Reg.CFG_STAT_OPERATING = false → s.on Hid.cfgBoot = true → s.rd Reg.CFG_LOAD_STAT_SOURCE = 1 →
    s.rd Reg.CFG_STAT_LSTATE = 1 →
    Answers .gangInitLow s (fun t => OnlyFields [Reg.CFG_PINS_INIT_N] s t ∧ t.rd Reg.CFG_PINS_INIT_N = 0))
  ∧ (∀ s : State, s.rd Reg.CFG_STAT_LSTATE = 7 → s.rd Reg.CFG_PINS_CFG_MODE = 2 →
    Answers .followerRelease s (fun t => OnlyFields [Reg.CFG_PINS_INIT_N, Reg.CFG_STAT_LSTATE] s t
      ∧ t.rd Reg.CFG_PINS_INIT_N = 1 ∧ t.rd Reg.CFG_STAT_LSTATE = 1))
  ∧ (∀ (high : Bool) (s : State), Answers (.precfgPdChange high) s (fun t => OnlyFields [Reg.CFG_PINS_PRECFG_PD] s t
      ∧ t.rd Reg.CFG_PINS_PRECFG_PD = b2n high))

/-- Dahlia's commands complete with the effects listed, which rest on R421 to R425. -/
def Obligations.DahliaSteps : Prop :=
  (∀ (fw : Bool) (i : Fin 4) (s : State), s.on Reg.DAH_STAT_BUSY = false → s.bstIs 10 = false → s.slotRead fw i = false →
    (s.inMemory (64 * s.rd Reg.DAH_SRC) (s.rd Reg.DAH_LEN) = true → s.rd Reg.DAH_LEN + 64 ≤ slotSize fw →
      exec (.dahWriteSlot fw i) s = .next ((((((s.slotEmpty fw i).wr (slotStat fw i) 1).wr Reg.DAH_STAT_BUSY 1).wr Hid.dahKind
        (b2n fw)).wr Hid.dahSlot i).wr Reg.DAH_PROG 0))
    ∧ exec (.dahEraseSlot fw i) s = .next ((s.slotEmpty fw i).dahEvt 0)
    ∧ exec .dahSetBoot s = .next (((((s.wr Reg.DAH_BOOT_FLASH_FB (s.rd Reg.DAH_BOOT_NEW_FLASH_FB)).wr Reg.DAH_BOOT_FB_EN
        (s.rd Reg.DAH_BOOT_NEW_FB_EN)).wr Reg.DAH_BOOT_FALLBACK (s.rd Reg.DAH_BOOT_NEW_FALLBACK)).wr Reg.DAH_BOOT_PRIMARY
        (s.rd Reg.DAH_BOOT_NEW_PRIMARY)).dahEvt 0))
  ∧ (∀ (fw : Bool) (i : Nat) (s : State), (s.slotEmpty fw i).rd (slotStat fw i) = 0 ∧ (s.slotEmpty fw i).rd (slotLen fw i) = 0
    ∧ (s.slotEmpty fw i).rd (slotCrc fw i) = 0)
  ∧ (∀ (top mean i n : Nat) (fw : Bool) (d : List Byte) (s t : State), s.on Reg.DAH_STAT_BUSY = true → fw = s.on Hid.dahKind →
    i = s.rd Hid.dahSlot → n = s.rd Reg.DAH_LEN →
    s.coRead (s.req .config (s.rd Reg.DAH_KEY)) (64 * s.rd Reg.DAH_SRC) n = (d, .ok, t) →
    ∀ u : State, ∀ c, c = (s.rd (slotWrites fw i) + 1) % 2 ^ 32 →
    u = (((t.wr Reg.DAH_STAT_BUSY 0).dahWear top mean).dahWrite (slotBase fw i + 64) d).wr Reg.DAH_PROG n →
    exec (.dahWriteDone true top mean) s = .next ((((((u.dahWrite (slotBase fw i) (leBytes 4 0x44414853 ++ leBytes 4 n
      ++ leBytes 4 (crc32c d) ++ leBytes 4 c ++ List.replicate 48 0)).wr (slotStat fw i) 2).wr (slotLen fw i) n).wr
      (slotWrites fw i) c).wr (slotCrc fw i) (crc32c d)).dahEvt 0))
  ∧ (∀ s : State, Answers .dahClrCnt s (fun t => OnlyFields [Reg.DAH_RD_ERR] s t ∧ t.rd Reg.DAH_RD_ERR = 0))

/-- Power-up, boot phases and resets complete with the effects listed, which rest on R428 to R440. -/
def Obligations.PowerUpSteps : Prop :=
  (∀ (f : List (Bundle × WireErr)) (s : State), exec .progNLow s = .next ((((s.deviceReset 1).wr Hid.progLow 1).wr Hid.hardHold 0).wr Reg.CFG_PINS_PROG_N 0)
    ∧ exec (.progNRelease f) s = .next (((s.wr Hid.progLow 0).wr Reg.CFG_PINS_PROG_N 1).porRelease f))
  ∧ (∀ (f : List (Bundle × WireErr)) (s : State), s.porReady = true → s.on Reg.AST_STAT_HARD_STOPPED = false →
    exec (.mainPorRelease f) s = .next ((s.bundlesApply f).wr Reg.SYS_BOOT_STAT_PHASE 1))
  ∧ (∀ (r : Fin 10) (s : State), Answers (.railValid r) s (fun t => OnlyFields [Hid.railOk] s t ∧ t.bitOf Hid.railOk r = true))
  ∧ (∀ (a : Bool) (s : State), s.bitOf Hid.railOk 0 = true → s.on Hid.auxUp = false →
    exec (.auxPorRelease a []) s = .next ((((s.wr Hid.auxUp 1).wr Hid.fuseWeak 0).wr Reg.PEO_STAT_FUSE_ERR (b2n !a)).lcsApply))
  ∧ (∀ (g : Fin 10) (s : State), s.rd Reg.SYS_BOOT_STAT_PHASE ≠ 0 → s.rd Hid.islPower = 2 ^ g.val - 1 →
    Answers (.islandPowerStage g) s (fun t => OnlyFields [Hid.islPower] s t ∧ t.bitOf Hid.islPower g = true))
  ∧ (∀ (r : Fin 10) (s : State), r.val ≠ 0 → s.rd Reg.SYS_BOOT_STAT_PHASE ≠ 0 →
    exec (.mainRailLoss r) s = .next ((((s.hardStop.clrB Hid.railOk r).railTakes r).deviceReset 3).wr Hid.islPower 0))
  ∧ (∀ s : State, s.rd Reg.SYS_BOOT_STAT_PHASE = 1 →
    Answers .phaseClocksDone s (fun t => OnlyFields [Reg.CLK_CLS_STAT_LOCK, Reg.SYS_BOOT_STAT_NO_REF, Reg.SYS_BOOT_STAT_PHASE] s t
      ∧ t.rd Reg.CLK_CLS_STAT_LOCK = 63 ∧ t.rd Reg.SYS_BOOT_STAT_NO_REF = 0 ∧ t.rd Reg.SYS_BOOT_STAT_PHASE = 2)
    ∧ (s.on Reg.CLK_REF_STAT_A_PRES = false → s.on Reg.CLK_REF_STAT_B_PRES = false →
      exec .noRefTimeout s = .next ((s.wr Reg.SYS_BOOT_STAT_NO_REF 1).raiseB Reg.SYS_EVT_EVT 1 15)))
  ∧ (∀ s : State, s.rd Reg.SYS_BOOT_STAT_PHASE = 2 → s.on Reg.PEO_STAT_TRNG_FAIL = false →
    exec .phaseKeysDone s = .next (State.each [0, 1] (fun l t => if t.on (Reg.RLK_CTRL_EN l) then t.rlkPhy l 0 else t)
      (((s.add Hid.keyEpoch 1).wipeWords).wr Reg.SYS_BOOT_STAT_PHASE 3)))
  ∧ (∀ s : State, s.rd Reg.SYS_BOOT_STAT_PHASE = 6 → s.rd Reg.SYS_BOOT_STAT_RETRY_CNT < s.rd Reg.SYS_AUTO_RETRIES →
    exec .bootRetry s = .next ((s.add Reg.SYS_BOOT_STAT_RETRY_CNT 1).deviceReset 4))
  ∧ (∀ (n : Fin 128) (s : State), exec (.sysResetDevice 0xA5) s = .next (s.deviceReset 2)
    ∧ (4 ≤ s.rd Reg.SYS_BOOT_STAT_PHASE → exec (.sysResetEngine 0xA5) s = .next s.engineReset)
    ∧ (n.val < 80 → s.rd (Reg.ISL_STAT_STATE n) = 3 → s.on (Reg.ISL_STAT_SWITCHING n) = false →
      exec (.sysResetIsland 0xA5 n) s = .next (((s.wr (Hid.rstAsked n) 1).bstIslandReset n).islandReset n false)))
  ∧ (∀ (n : Fin 80) (s : State), s.rd (Reg.ISL_STAT_STATE n) = 4 → s.on (Hid.rstAsked n) = false → s.on (Hid.pwrUp n) = false →
    exec (.islandResetRelease n) s = .next (s.resetRelease n))
  ∧ (∀ s : State, s.on Reg.DAH_STAT_BUSY = false → Answers .sysSaveAuto s (fun t =>
      OnlyFields [Reg.SYS_AUTO_FW_EN, Reg.SYS_AUTO_FW_CORES, Reg.SYS_AUTO_FW_SLOT, Reg.SYS_AUTO_HBM_EN, Reg.SYS_AUTO_HBM_SPARE,
        Reg.SYS_AUTO_RETRIES] s t
      ∧ t.rd Reg.SYS_AUTO_RETRIES = s.rd Reg.SYS_AUTO_NEW_RETRIES % 2 ^ Reg.SYS_AUTO_RETRIES.w))
  ∧ (∀ s : State, Answers .pciePerst s (fun t => OnlyFields [Hid.perst] s t ∧ t.rd Hid.perst = 1))
  ∧ (∀ s : State, ∃ t, exec .vccAuxPowerOn s = .next t ∧ t.fifos = [] ∧ t.cache = [] ∧ t.packets = [] ∧ t.records = s.records)

/-- Peony's commands are taken and completed with the effects listed, which rest on R442 to R466. -/
def Obligations.SecurityCommandSteps : Prop :=
  (∀ (m : Master) (c : Fin 15) (s : State), s.on Reg.PEO_STAT_BUSY = false → s.peoLegal (c + 1) = true →
    (4 ≤ c.val → classOf m < 5 ∧ s.bitOf Reg.PEO_ADMIN (classOf m) = true) →
    Answers ([Instr.peoChallenge m, .peoToken m, .peoAttest m, .peoGetCert m, .peoFuseWrite m, .peoFuseRepair m, .peoSetSvn m,
        .peoRevoke m, .peoInstallKey m, .peoSealKey m, .peoProvision m, .peoDeploy m, .peoReturn m, .peoWipeSecure m,
        .peoLock m].getD c (.peoLock m)) s (fun t =>
      OnlyFields [Reg.PEO_STAT_BUSY, Hid.peoCode, Hid.peoBody, Hid.peoBuf, Hid.peoBufKey, Hid.peoAddr, Hid.peoData] s t
      ∧ t.rd Reg.PEO_STAT_BUSY = 1 ∧ t.rd Hid.peoCode = c + 1 ∧ t.rd Hid.peoBuf = s.rd Reg.PEO_BUF
      ∧ t.rd Hid.peoBufKey = s.rd Reg.PEO_BUF_KEY ∧ t.rd Hid.peoAddr = s.rd Reg.PEO_FUSE_ADDR
      ∧ t.rd Hid.peoData = s.rd Reg.PEO_FUSE_DATA))
  ∧ (∀ (g : Bool) (s : State), s.on Reg.PEO_STAT_BUSY = true →
    (s.rd Hid.peoCode = 5 → exec (.peoCmdDone g none) s
      = .next ((s.burn (s.rd Hid.peoAddr) (s.rd Hid.peoData) none).1.peoEnd 0 0))
    ∧ (s.rd Hid.peoCode = 8 → exec (.peoCmdDone g none) s
      = .next ((s.burn 83 (2 ^ (24 + s.rd Hid.peoData % 8)) none).1.peoEnd 0 0))
    ∧ (s.rd Hid.peoCode = 11 → exec (.peoCmdDone g none) s = .next (s.transition 0 none))
    ∧ (s.rd Hid.peoCode = 12 → exec (.peoCmdDone g none) s = .next (s.transition 1 none))
    ∧ (s.rd Hid.peoCode = 14 → exec (.peoCmdDone g none) s = .next (s.startWipe.peoEnd 0 0))
    ∧ (s.rd Hid.peoCode = 15 → exec (.peoCmdDone g none) s = .next ((s.wr Reg.PEO_STAT_LOCKED 1).peoEnd 0 0))
    ∧ (s.on Reg.PEO_STAT_TRNG_FAIL = false → s.rd Hid.peoCode = 1 ∨ s.rd Hid.peoCode = 0x40 →
      exec (.peoCmdDone g none) s = .next ((State.each (List.range 16) (fun j t =>
        t.wr (if s.rd Hid.peoCode = 1 then Reg.PEO_CHAL j else Reg.DBG_CHAL j) (s.challenge.rd Hid.chal / 2 ^ (32 * j))) s.challenge).peoEnd 64 0))
    ∧ (s.rd Hid.peoCode = 0x41 → ∀ r : Nat × State, r = s.tokenRun ((List.range 353).flatMap (fun j => leBytes 4 (s.rd (Reg.DBG_TOKEN j)))) g →
      exec (.peoCmdDone g none) s = .next (r.2.peoEnd 0 r.1))
    ∧ (s.rd Hid.peoCode = 6 → exec (.peoCmdDone g none) s = .next (s.fuseRepair none))
    ∧ (∀ j, s.rd Hid.peoCode = 7 → s.nextSvn = some j → exec (.peoCmdDone g none) s
      = .next ((s.burn (84 + j / 2) (s.rd Hid.peoData % 2 ^ 16 * 2 ^ (16 * (j % 2))) none).1.peoEnd 0 0)))
  ∧ (∀ (g : Bool) (d : List Byte) (s t : State), s.on Reg.PEO_STAT_BUSY = true → s.peoRead 1412 = some (d, 0, t) →
    (s.rd Hid.peoCode = 2 → exec (.peoCmdDone g none) s = .next ((t.tokenRun d g).2.peoEnd 0 (t.tokenRun d g).1))
    ∧ (s.rd Hid.peoCode = 13 → exec (.peoCmdDone g none) s = .next (if t.tokenCause d g true = 0 then t.transition 2 none
      else (t.alarm Reg.PEO_ALARM_TOKEN).peoEnd 0 (t.tokenCause d g true))))
  ∧ (∀ (g : Bool) (c : Nat) (b d : List Byte) (s u t : State), s.on Reg.PEO_STAT_BUSY = true →
    (s.rd Hid.peoCode = 3 → s.signBlock = (b, u) → u.peoWrite (leBytes 1024 (s.rd Hid.peoBody) ++ b) = some (c, t) →
      exec (.peoCmdDone g none) s = .next (t.peoEnd (if c = 0 then 2308 else 0) c))
    ∧ (s.rd Hid.peoCode = 4 → s.peoWrite s.cert = some (c, t) →
      exec (.peoCmdDone g none) s = .next (t.peoEnd (if c = 0 then 3144 else 0) c))
    ∧ (s.rd Hid.peoCode = 9 → s.peoRead 1793 = some (d, 0, t) → exec (.peoCmdDone g none) s = .next (if g then
      (((t.wr (Hid.ownerKey (s.rd Hid.peoData % 8)) (ofLeBytes d)).wr (Hid.ownerDig (s.rd Hid.peoData % 8))
        (t.slotDigest (s.rd Hid.peoData % 8))).wr (Hid.ownerKeyV (s.rd Hid.peoData % 8)) 1).peoEnd 0 0 else t.peoEnd 0 2))
    ∧ (s.rd Hid.peoCode = 10 → secBase ≤ 64 * s.rd Hid.peoBuf → 64 * s.rd Hid.peoBuf + 32 ≤ secBase + secSize →
      s.peoRead 32 = some (d, 0, t) →
      ((t.wr Hid.sealedKey (ofLeBytes d)).wr Hid.sealedV 1).peoWrite (List.replicate 32 0) = some (0, u) →
      exec (.peoCmdDone g none) s = .next (u.peoEnd 0 0)))
  ∧ (∀ (s : State) (len c : Nat), s.rd Hid.peoCode < 0x40 → ∃ u : State, s.peoEnd len c = u.raiseB Reg.PEO_EVT_EVT 1 19
    ∧ OnlyFields [Reg.PEO_STAT_BUSY, Reg.PEO_RESULT_LEN, Reg.PEO_RESULT_CAUSE, Reg.PEO_RESULT_RESULT] s u
    ∧ u.rd Reg.PEO_STAT_BUSY = 0 ∧ u.rd Reg.PEO_RESULT_RESULT = if c = 0 then 1 else 2)
  ∧ (∀ s : State, exec .trngFail s = .next ((s.wr Reg.PEO_STAT_TRNG_FAIL 1).alarm Reg.PEO_ALARM_TRNG))
  ∧ (∀ (k : Fin 3) (s : State), s.tampOn k = true →
    exec (.tamper k) s = .next (if s.rd Reg.PEO_TAMP_CFG_ACTION = 1 then (s.tamperLatch k).engineReset
      else if s.rd Reg.PEO_TAMP_CFG_ACTION = 2 then (s.tamperLatch k).deviceReset 2 else s.tamperLatch k)
    ∧ exec (.tamperRepeat k) s = .next (s.wipeWords.wr Reg.SRM_STAT_WIPING 1))
  ∧ (∀ s : State, s.on Hid.tokenV = true → s.rd Reg.PEO_DBG_REMAIN ≤ 1 →
    exec .tokenExpire s = .next (((s.wr Hid.tokenV 0).wr Reg.PEO_DBG_REMAIN 0).setLevel (lcsLevel s.lcs)))

/-- Scrubbing, golden builds, engine checks and the commands of SCB complete with the effects listed, which rest on R467, R469 to R479 and R492. -/
def Obligations.ScrubSteps : Prop :=
  (∀ (n : Fin 80) (c : Fin 8) (f : Fin 1600) (d : BitVec 2048) (k : BitVec 96) (g : Fin 3) (e : Nat) (urgent : Bool) (s s0 t : State),
    s.scrubbed n c = true → s.on (Reg.ISL_STAT_SWITCHING n) = false → s.cfgHeld n = false → s.engineOf n = some e →
    urgent = (f.val == 1599 && s.on (Hid.vbHeld (80 + n))) → s.frameShare e n urgent = some s0 →
    t = (((s0.wr (Hid.cfgFrame n c f) (s0.rd (Hid.cfgFrame n c f) ^^^ d.toNat)).wr (Hid.frameSyn n c f)
      (s0.rd (Hid.frameSyn n c f) ^^^ frameCheck d.toNat ^^^ k.toNat)).add (Reg.SCB_ENG_FRAMES e) 1).scrubFrame n c f g s.deepPass →
    (urgent = true → exec (.scrubFrame n c f d k g []) s = .next t)
    ∧ (urgent = false → s.on Reg.SCB_CTRL_EN = true → s.askNext e = none → s.scrubNext e = some (8 * n.val + c.val, f.val) →
      exec (.scrubFrame n c f d k g []) s = .next (t.passOn n c f))
    ∧ (urgent = false → s.deepPass = false → s.askNext e = some (8 * n.val + c.val, f.val) →
      exec (.scrubFrame n c f d k g []) s = .next (t.askOn n c f)))
  ∧ (∀ (n c f : Nat) (b : Option Nat) (g : Nat) (deep : Bool) (s : State),
    frameVerdict (s.rd (Hid.frameSyn n c f)) = .fix b → s.scrubFrame n c f g deep
      = ((s.scrubStore n c f (match b with | some i => s.rd (Hid.cfgFrame n c f) ^^^ 2 ^ i | none => s.rd (Hid.cfgFrame n c f))).inc
        Reg.SCB_CORR 1).classErr 0 false)
  ∧ (∀ (n : Fin 80) (c : Fin 8) (u : Fin 65536) (s t v : State), s.bitOf (Reg.SCB_GOLD_BUILDING n) c = true →
    s.buildNext = some (8 * n.val + c.val) → s.buildShare n u = some t →
    v = (({ t with fifos := Tab.set t.fifos 50 [] (t.builds.filter (fun k => k != 8 * n.val + c.val)) } : State).clrB
      (Reg.SCB_GOLD_BUILDING n) c).building →
    v.scrubbed n c = true → (List.range 1600).any (fun f => frameVerdict (v.rd (Hid.frameSyn n c f)) == .bad) = false →
    (v.rd Reg.SCB_GOLD_FREE < u.val → exec (.goldenBuild n c u) s = .next (v.scbEvt 4))
    ∧ (u.val ≤ v.rd Reg.SCB_GOLD_FREE → Answers (.goldenBuild n c u) s (fun x => x.bitOf (Reg.SCB_GOLD_PRESENT n) c = true)))
  ∧ (∀ (e : Fin 3) (k : Fin 4) (s : State), s.engines.length = 3 → s.engOn (checker e) = true → s.engOn e = true →
    Answers (.engineXcheck e (some k)) s (fun t => OnlyFields [Hid.accV, Hid.accEng, Hid.accCause] s t
      ∧ t.rd Hid.accV = 1 ∧ t.rd Hid.accEng = e ∧ t.rd Hid.accCause = k + 1))
  ∧ (∀ (b : Bool) (s : State), s.on Hid.accV = true →
    exec (.engineRecheck b) s = .next (if b then (s.wr Hid.accV 0).engFaulty (s.rd Hid.accEng) (s.rd Hid.accCause)
      else (s.wr Hid.accV 0).engFaulty (checker (s.rd Hid.accEng)) 5))
  ∧ (∀ (e : Fin 3) (s : State), s.rd (Reg.SCB_ENG_STATE e) = 1 → s.engOn (checker e) = true →
    Answers (.engineReloadDone e) s (fun t => OnlyFields [Hid.engReady e] s t ∧ t.rd (Hid.engReady e) = 1))
  ∧ (∀ (n : Fin 128) (c : Fin 8) (s : State), n.val < 80 →
    (s.scrubbed n c = true → s.engines ≠ [] →
      exec (.scbScrubNow n c) s = .next (({ s with
        fifos := Tab.set s.fifos 51 [] (s.asked.filter (fun k => k != 8 * n.val + c.val) ++ [8 * n.val + c.val]) } : State).wr
          (Hid.scrAsk n c) 0))
    ∧ (s.bitOf (Reg.ISL_CTX_VALID_VALID n) c = true → s.bitOf (Reg.ISL_CTX_VALID_LOADING n) c = false →
      s.bitOf (Reg.SCB_GOLD_BUILDING n) c = false →
      exec (.scbRebuildGold n c) s = .next ((({ s with
        fifos := Tab.set s.fifos 50 [] (s.builds.filter (fun k => k != 8 * n.val + c.val) ++ [8 * n.val + c.val]) } : State).setB
          (Reg.SCB_GOLD_BUILDING n) c).wr Reg.SCB_STAT_BUILDING 1)))
  ∧ (∀ (e : Fin 4) (s : State), e.val < 3 → s.rd (Reg.SCB_ENG_STATE e) = 2 →
    Answers (.scbRestore e) s (fun t => OnlyFields [Reg.SCB_ENG_STATE e, Hid.engReady e, Hid.engFault e 0, Hid.engFault e 1] s t
      ∧ t.rd (Reg.SCB_ENG_STATE e) = 1 ∧ t.rd (Hid.engFault e 0) = 0 ∧ t.rd (Hid.engFault e 1) = 0))
  ∧ (∀ s : State, Answers .scbClrCnt s (fun t =>
      OnlyFields [Reg.SCB_CORR, Reg.SCB_REPAIRED, Reg.SCB_UNREP, Reg.SCB_UNREP_FAR_VALID, Reg.SCB_UNREP_FAR_FAR] s t
      ∧ t.rd Reg.SCB_CORR = 0 ∧ t.rd Reg.SCB_REPAIRED = 0 ∧ t.rd Reg.SCB_UNREP = 0 ∧ t.rd Reg.SCB_UNREP_FAR_VALID = 0))
  ∧ (∀ (k : Fin 8) (s : State), Answers (.classBucketLeak k) s (fun t => OnlyFields [Reg.TEL_LB_LEVEL k, Reg.TEL_LB_TRIP k] s t
      ∧ t.rd (Reg.TEL_LB_LEVEL k) = s.rd (Reg.TEL_LB_LEVEL k) - 1 ∧ t.rd (Reg.TEL_LB_TRIP k)
        = if s.rd (Reg.TEL_LB_LEVEL k) - 1 ≤ s.rd (Reg.TEL_LB_CFG_THRESH k) / 2 then 0 else s.rd (Reg.TEL_LB_TRIP k)))

/-- Self-tests complete with the effects listed, which rest on R480 to R482 and R492. -/
def Obligations.SelfTestSteps : Prop :=
  (∀ (i : Fin 128) (t : Fin 11) (s : State), s.on Reg.BST_STAT_BUSY = false → s.bstLegal t i = true →
    ∀ u : State, u = ((s.wr Reg.BST_STAT_BUSY 1).wr Hid.bstTgt t).wr Hid.bstIdx i →
    exec ([Instr.bstRunEngines i, .bstRunRouter i, .bstRunIsland i, .bstRunPlanes i, .bstRunBank i, .bstRunHbm i,
      .bstRunSpareRank i, .bstRunCaches i, .bstRunPort i, .bstRunAnalog i, .bstRunDahlia i].getD t .bstAbort) s
      = .next (if t = 1 then u.rtrDrain i 2 else if t = 5 then u.wr Reg.HBM_STAT_FILLED 0
        else if t = 7 then u.cache.foldl (fun v x => v.cleanLine x.1) u else u))
  ∧ (∀ s : State, s.on Reg.BST_STAT_BUSY = true → s.rd Hid.bstTgt ≠ 1 →
    exec .bstAbort s = .next ((s.bstEffect (s.rd Hid.bstTgt) (s.rd Hid.bstIdx)).bstAborted))
  ∧ (∀ s : State, Answers .bstClrCnt s (fun t => t = { s with cells := t.cells }
      ∧ ∀ k : Fin 11, t.rd (Reg.BST_HIST_FAILS k) = 0 ∧ t.rd (Reg.BST_HIST_RUNS k) = 0))
  ∧ (∀ (us : Word) (s u : State), s.on Reg.BST_STAT_BUSY = true → s.rd Hid.bstTgt = 9 →
    u = ((((s.wr Reg.BST_RESULT_REPAIRS 0).wr Reg.BST_RESULT_INDEX (s.rd Hid.bstIdx)).wr Reg.BST_RESULT_TARGET 9).wr
      Reg.BST_RESULT_RESULT 1).wr Reg.BST_FAIL 0 →
    exec (.bstDone true [] 0 us) s = .next (((((u.wr Reg.BST_TIME us.toNat).wr Reg.BST_STAT_BUSY 0).inc (Reg.BST_HIST_RUNS 9) 1).raiseB
      Reg.BST_EVT_EVT 1 27)))

/-- Calibration, telemetry and the journal complete with the effects listed, which rest on R467, R483 to R490 and R492. -/
def Obligations.CalibrationTelemetrySteps : Prop :=
  (∀ (j : Fin 169) (b : Bool) (s : State),
    (∀ i : Fin 7, j.val < calInstances i → i.val = 1 ∨ 3 ≤ i.val →
      exec (.calItemDue i j b) s = .next (State.calRun i j b s))
    ∧ (j.val < calInstances 2 → Answers (.calItemDue 2 j b) s (fun t => OnlyFields [Hid.hbmDqAt j, Hid.hbmDqDue j] s t
      ∧ t.rd (Hid.hbmDqDue j) = 1 ∧ t.rd (Hid.hbmDqAt j) = if s.on (Hid.hbmDqDue j) then s.rd (Hid.hbmDqAt j) else s.now))
    ∧ (∀ p k n, p = j.val / 16 → k = j.val % 16 → n = min (s.rd (Hid.calIvals p k) + 1) 65535 → j.val < 64 → s.calBlocked 0 = false →
      s.on (Hid.calDeg 0 j) = false → s.rd (Reg.PRB_STAT_STATE p) ≠ 0 → s.on (Reg.PRB_LN_CTRL_OFF p k) = false →
      s.rd (Reg.PRB_CTRL_LOOP p) ≠ 2 → n ≤ s.rd (Reg.PRB_CAL_CTRL_AGE_LIMIT p) →
      Answers (.calItemDue 0 j false) s (fun t => OnlyFields [Hid.calMode p k, Hid.calIvals p k, Hid.calPend p k] s t
        ∧ t.rd (Hid.calMode p k) = s.rd (Reg.PRB_CAL_CTRL_MODE p) ∧ t.rd (Hid.calIvals p k) = n ∧ t.rd (Hid.calPend p k) = 1)))
  ∧ (∀ (x : BitVec 16) (s : State),
    (9800 ≤ x.toNat → x.toNat ≤ 10200 → Answers (.vrefCheck x) s (fun t => OnlyFields [Reg.CAL_VREF, Reg.CAL_STAT_VREF_BAD] s t
      ∧ t.rd Reg.CAL_VREF = x.toNat ∧ t.rd Reg.CAL_STAT_VREF_BAD = 0))
    ∧ (x.toNat < 9800 ∨ 10200 < x.toNat → exec (.vrefCheck x) s
      = .next (((s.wr Reg.CAL_VREF x.toNat).wr Reg.CAL_STAT_VREF_BAD 1).raiseB Reg.CAL_EVT_EVT 1 23)))
  ∧ (∀ (pc : Fin 16) (s : State), s.on (Hid.hbmDqDue pc) = true →
    (s.writeQueue pc = [] → exec (.hbmDqCal pc) s = .next (State.calRun 2 pc false s))
    ∧ (s.dqGrace pc = true → exec (.hbmDqForced pc) s = .next (
      let u := (State.calRun 2 pc false s).inc (Reg.CAL_ITEM_FORCED 2) 1
      if s.rd Hid.hbmDqEvt = 0 ∨ s.rd Hid.hbmDqEvt + 4000000000 ≤ s.now + 1 then
        (u.wr Hid.hbmDqEvt (s.now + 1)).raiseB Reg.CAL_EVT_EVT 2 24 else u)))
  ∧ (∀ (pc : Fin 16) (s : State), s.dqGrace pc = decide (s.rd (Hid.hbmDqAt pc) + 4000000 * s.rd Reg.CAL_CTRL_GRACE
    + (if s.on Reg.CAL_CTRL_HBM_HOLD then 4000000000 else 0) ≤ s.now))
  ∧ (∀ (i : Fin 16) (j : Byte) (s : State), 2 ≤ i.val → i.val ≤ 6 → j.toNat < calInstances i → j ≠ 255 → s.calBlocked i = false →
    exec (.calCalNow i j) s = .next (State.calRun i j.toNat false s))
  ∧ (∀ s : State, Answers .calClrCnt s (fun t => t = { s with cells := t.cells } ∧ ∀ i : Fin 7, t.rd (Reg.CAL_ITEM_FORCED i) = 0))
  ∧ (∀ s v : State, s.on Reg.TEL_CTRL_EN = true → s.dahTake 256 s.jnlWaits = some v →
    ∀ t : State, t = ((v.dahWrite (0x1F500000 + s.rd Reg.TEL_REC_WR % 32768 * 256) s.telRecord).wr Reg.TEL_REC_WR
      (s.rd Reg.TEL_REC_WR + 1)).wr Hid.telThr 0 →
    exec (.telRecord true) s = .next t ∧ exec (.telSnapshot true) s = .next t)
  ∧ (∀ (a n : Nat) (d : List Byte) (s t : State), a = s.rd Reg.TEL_SRC → n = s.rd Reg.TEL_LEN → 1 ≤ n → n ≤ 3836 →
    s.inMemory a n = true → s.rd Hid.jnlCount < 64 → s.coRead (s.req .sys (s.rd Reg.TEL_SRC_KEY)) a n = (d, .ok, t) →
    exec .telJournalUser s = .next (t.journalWith 8 0 (d ++ List.replicate (n - d.length) 0)))
  ∧ (∀ s : State, Answers .telClrCnt s (fun t => t = { s with cells := t.cells } ∧ ∀ k : Fin 8, t.rd (Reg.TEL_CLS_CE k) = 0
      ∧ t.rd (Reg.TEL_CLS_UE k) = 0 ∧ t.rd (Reg.TEL_LB_LEVEL k) = 0 ∧ t.rd (Reg.TEL_LB_TRIP k) = 0))
  ∧ (∀ s v u : State, s.on Hid.jnlV = true → 4 ≤ s.rd Reg.SYS_BOOT_STAT_PHASE → s.dahTake 4096 false = some v →
    u = ((v.wr Hid.jnlV 0).wr Hid.jnlBody 0).dahWrite (0x1FD00000 + s.rd Reg.TEL_JNL_WR % 512 * 4096) (leBytes 4096 (s.rd Hid.jnlBody)) →
    exec (.journalWrite true) s = .next (((u.wr Reg.TEL_JNL_WR (s.rd Reg.TEL_JNL_WR + 1)).inc Hid.jnlCount 1).telEvt 1))

/-- Aster's measurements, stops and commands complete with the effects listed, which rest on R22 to R24, R497, R507 to R509 and R512 to R524. -/
def Obligations.PowerThermalSteps : Prop :=
  (∀ (p c : List (BitVec 16)) (s : State), Answers (.powerMeasure p c) s (fun t =>
      (∀ k : Fin 10, t.rd (Reg.AST_PWR k) = (p.getD k 0).toNat % 2 ^ (Reg.AST_PWR k).w)
      ∧ t.rd Reg.AST_PWR_DEV = ((List.range 10).foldl (fun a k => a + (p.getD k 0).toNat) 0) % 2 ^ Reg.AST_PWR_DEV.w
      ∧ t.rd (Hid.pwrHist 9) = s.rd (Hid.pwrHist 8) ∧ t.mem = s.mem))
  ∧ (∀ (d : BitVec 16) (s : State), Answers (.slewWindow d) s (fun t => t.rd Hid.slewUsed ≤ 2400))
  ∧ (∀ (r : List (Option (BitVec 16))) (s : State), Answers (.tempConvert r) s (fun t =>
      ∀ u : State, u = State.each (List.range 12) State.chJudge (State.each [11, 10, 9, 8, 7, 6, 5, 4, 3, 2, 1, 0] State.chPredict
        (State.each (List.range 16) (fun i t => t.chConvert (r.getD i none) i) s)) →
      ∀ v : State, v = (State.each (List.range 17) (fun i t => t.wr (Hid.tHist i ((u.rd Hid.convNo + 1) % 64)) (ofSigned 16 (t.tBase i)))
        (State.each (List.range 16) State.chTrack u)).wr Hid.convNo (u.rd Hid.convNo + 1) →
      t = (if v.rd Reg.AST_LEVEL_LEVEL < 64 then (v.inc Reg.AST_THR_CNT 1).inc Hid.telThr 1 else v).thermalStep.thermalStep.thermalStep))
  ∧ (∀ (i : Fin 16) (x : BitVec 16) (s : State), (i.val < 12 ∨ s.rd (Reg.AST_CH_CFG_MODE i) ≠ 0) →
    OnlyFields [Reg.AST_CH_TEMP_MEAS i, Reg.AST_CH_STAT_FAULT i] s (s.chConvert (some x) i)
    ∧ (s.chConvert (some x) i).rd (Reg.AST_CH_TEMP_MEAS i) = x.toNat ∧ (s.chConvert (some x) i).rd (Reg.AST_CH_STAT_FAULT i) = 0)
  ∧ (∀ (w : Word) (s : State), 120 ≤ bits w.toNat 8 0 → bits w.toNat 8 0 ≤ 150 → s.astStop = false →
    Answers (.astPwrLimitWrite w) s (fun t => OnlyFields [Reg.AST_PWR_LIMIT_LIMIT, Hid.astLimPend] s t
      ∧ t.rd Reg.AST_PWR_LIMIT_LIMIT = bits w.toNat 8 0))
  ∧ (∀ (w : Word) (s : State), 120 ≤ bits w.toNat 8 0 → bits w.toNat 8 0 ≤ 300 → s.astStop = true →
    Answers (.astPwrLimitWrite w) s (fun t => OnlyFields [Hid.astStopLim] s t ∧ t.rd Hid.astStopLim = bits w.toNat 8 0))
  ∧ (∀ (b : Bool) (s : State), s.astStop = false →
    (b = false ∨ (s.rd Reg.AST_PWR_LIMIT_LIMIT ≤ 150 ∧ s.rd Hid.astLimPend = 0)) →
    Answers (.astStagingWrite b) s (fun t => OnlyFields [Reg.AST_CTX_CTRL_STAGING] s t ∧ t.rd Reg.AST_CTX_CTRL_STAGING = b2n b))
  ∧ (∀ (m : Fin 4) (s : State), m.val < 3 → s.astStop = false → Answers (.astMethodWrite m) s (fun t =>
      OnlyFields [Reg.AST_THR_CTRL_METHOD, Hid.astMeth] s t ∧ t.rd Reg.AST_THR_CTRL_METHOD = m))
  ∧ (∀ s : State, s.rd Reg.AST_LEVEL_LEVEL = 64 → Answers .methodApply s (fun t =>
      OnlyFields [Hid.astMeth] s t ∧ t.rd Hid.astMeth = s.rd Reg.AST_THR_CTRL_METHOD))
  ∧ (∀ s : State, s.rd Reg.AST_STAT_TSTATE = 2 → s.anyAt 1 = true → Answers .thmLevelStep s (fun t =>
      OnlyFields [Reg.AST_LEVEL_THM_LEVEL, Hid.thmUp] s t
      ∧ t.rd Reg.AST_LEVEL_THM_LEVEL = max 1 (s.rd Reg.AST_LEVEL_THM_LEVEL - 1)))
  ∧ (∀ s : State, s.rd Reg.AST_STAT_TSTATE = 3 → s.on Hid.stopGate = false → s.on Hid.swBusy = false →
    exec .stopNoticeEnd s = .next ((s.enginesStop.wr Hid.stopGate 1).shareShow))
  ∧ (∀ s : State, s.rd Reg.AST_STAT_TSTATE = 3 → s.on Hid.stopGate = true →
    (∀ n < 80, s.rd (Reg.ISL_CLK_STAT_STATE n) ≠ 4 ∧ s.rd (Reg.ISL_CLK_STAT_STATE n) ≠ 5 ∧ s.rd (Reg.ISL_CLK_STAT_STATE n) ≠ 6) →
    Answers .orderlyStopDone s (fun t => OnlyFields [Reg.AST_STAT_TSTATE, Reg.AST_LEVEL_THM_LEVEL, Hid.thmUp] s t
      ∧ t.rd Reg.AST_STAT_TSTATE = 4 ∧ t.rd Reg.AST_LEVEL_THM_LEVEL = 64))
  ∧ (∀ s : State, s.rd Reg.AST_STAT_TSTATE ≠ 5 → s.rd Reg.AST_STAT_TSTATE ≠ 2 →
    exec .overcurrent s = .next ((((s.wr Reg.AST_STAT_TSTATE 5).wr Hid.hardPend 1).astEvt 6).journal 5 0))
  ∧ (∀ s : State, s.rd Reg.AST_STAT_TSTATE = 3 →
    exec .stopTimeout s = .next ((((s.wr Reg.AST_STAT_TSTATE 5).wr Hid.hardPend 1).astEvt 6).journal 5 0))
  ∧ (∀ s : State, s.on Hid.hardPend = true → exec .hardStop s =
    .next (((s.mainReset (fun b => keptAlways b || keptAux b)).wr Reg.AST_STAT_HARD_STOPPED 1).auxReset.wr Hid.hardHold 1))
  ∧ (∀ s : State, s.rd Reg.AST_STAT_TSTATE = 4 → s.allBelow 2 (s.rd Reg.AST_STOP_CFG_HYST_STOP) = true →
    exec .astResume s = .next s.stopEnd)
  ∧ (∀ s : State, s.rd Reg.AST_STAT_TSTATE ≤ 1 → exec .astStop s = .next ((s.wr Reg.AST_STAT_TSTATE 3).astEvt 5))
  ∧ (∀ (i : Fin 32) (s : State), i.val < 12 → s.on (Reg.AST_CH_STAT_SUSPECT i) = true → 1001 ≤ s.rd (Hid.nearRun i) →
    Answers (.astClrSuspect i) s (fun t => OnlyFields [Reg.AST_CH_STAT_SUSPECT i] s t ∧ t.rd (Reg.AST_CH_STAT_SUSPECT i) = 0))
  ∧ (∀ s : State, Answers .astClrCnt s (fun t =>
      OnlyFields ([Reg.AST_THR_CNT, Reg.AST_DIDT_MAX] ++ (List.range 16).map Reg.AST_CH_STAT_TMAX) s t
      ∧ t.rd Reg.AST_THR_CNT = 0 ∧ t.rd Reg.AST_DIDT_MAX = 0 ∧ ∀ i < 16, t.rd (Reg.AST_CH_STAT_TMAX i) = 0))

/-- The TAP, the transport, the supervisor watchdog and the authentication commands complete with the effects listed, which rest on R530 to R537, R548 and R549. -/
def Obligations.DebugPortSteps : Prop :=
  (∀ s : State, exec .tapReset s = .next (((((((s.discardMaster 1).wr Hid.tapIr 2).wr Hid.tapD 0).wr Hid.accBusy 0).wr
    Reg.DBG_CTRL_ATTACH 0).wr Reg.DBG_ACC_CONSUME 0).attached))
  ∧ (∀ (op : Byte) (s : State), tapLevel op.toNat ≤ s.rd Reg.DBG_STAT_LEVEL → Answers (.tapUpdateIr op) s (fun t =>
      OnlyFields [Hid.tapIr, Hid.tapD] s t
      ∧ t.rd Hid.tapIr = (if op.toNat ≤ 4 ∨ op.toNat = 0x10 then op.toNat else 0xFF)))
  ∧ (∀ (dr : BitVec 78) (s : State), s.rd Hid.tapIr = 0x10 → s.on Hid.accBusy = false →
    (dr.toNat % 4 = 1 ∨ dr.toNat % 4 = 2) → s.dbgMay (dr.toNat % 4 == 2) (bits dr.toNat 45 2 * 4) = true →
    Answers (.dbgaccUpdateDr dr) s (fun t => OnlyFields [Hid.accAddr, Hid.accWr, Hid.accData, Hid.accBusy] s t
      ∧ t.rd Hid.accAddr = bits dr.toNat 45 2 * 4 ∧ t.rd Hid.accWr = dr.toNat % 4 - 1
      ∧ t.rd Hid.accData = bits dr.toNat 77 46 ∧ t.rd Hid.accBusy = 1))
  ∧ (∀ (fab : Option Word) (s t : State) (d : List Byte), s.on Hid.accBusy = true →
    s.accGo (s.rd Hid.accAddr) (s.on Hid.accWr) (s.rd Hid.accData) fab = (.ok, d, t) →
    exec (.dbgaccOpDone fab) s = .next (t.accEnd 0 (if s.on Hid.accWr = true then 0 else ofLeBytes d)))
  ∧ (∀ s : State, s.on Hid.accBusy = true → Answers .dbgaccTimeout s (fun t =>
      OnlyFields [Hid.accBusy, Hid.accStat, Hid.accData] s t ∧ t.rd Hid.accBusy = 0 ∧ t.rd Hid.accStat = 2 ∧ t.rd Hid.accData = 0))
  ∧ (∀ s : State, s.on Reg.DBG_SUP_CFG_EN = true → Answers (.supWdgKick 0x5AFE) s (fun t =>
      OnlyFields [Reg.DBG_SUP_VAL] s t ∧ t.rd Reg.DBG_SUP_VAL = s.rd Reg.DBG_SUP_CFG_LOAD))
  ∧ (∀ s : State, s.on Reg.DBG_SUP_CFG_EN = true → s.on Reg.DBG_STAT_SUP_PAUSED = false → s.rd Reg.DBG_SUP_VAL ≤ 1 →
    s.on Reg.DBG_CTRL_ATTACH = false →
    exec .supWdgExpire s = .next (((s.raise 40).journal 4 0).deviceReset 2))
  ∧ (∀ s : State, s.full = true → exec .dbgResetDevice s = .next ((s.wr Hid.hardHold 0).deviceReset 2))
  ∧ (∀ s : State, s.on Reg.DBG_AUTH_STAT_BUSY = false → s.on Reg.PEO_STAT_BUSY = false → s.on Reg.PEO_STAT_TRNG_FAIL = false →
    Answers .dbgAuthChallenge s (fun t => OnlyFields [Reg.PEO_STAT_BUSY, Reg.DBG_AUTH_STAT_BUSY, Hid.peoCode] s t
      ∧ t.rd Reg.PEO_STAT_BUSY = 1 ∧ t.rd Reg.DBG_AUTH_STAT_BUSY = 1 ∧ t.rd Hid.peoCode = 0x40))
  ∧ (∀ s : State, s.on Reg.DBG_AUTH_STAT_BUSY = false → s.on Reg.PEO_STAT_BUSY = false → s.on Hid.chalV = true →
    Answers .dbgAuthToken s (fun t => OnlyFields [Reg.PEO_STAT_BUSY, Reg.DBG_AUTH_STAT_BUSY, Hid.peoCode] s t
      ∧ t.rd Reg.PEO_STAT_BUSY = 1 ∧ t.rd Reg.DBG_AUTH_STAT_BUSY = 1 ∧ t.rd Hid.peoCode = 0x41))

/-- Halting, resuming, stepping, breakpoints, watchpoints and core registers complete with the effects listed, which rest on R540 to R547 and R549. -/
def Obligations.CoreDebugSteps : Prop :=
  (∀ (m : Fin 16) (s : State), s.full = true → (∃ c, c ∈ coresOf m) → (∀ c ∈ coresOf m, s.coreLive c = true) →
    exec (.dbgHalt m) s = .next (State.each (coresOf m) (fun c t => t.wr (Hid.haltWant c) 1) s)
    ∧ Answers (.dbgHalt m) s (fun t => OnlyFields ((coresOf m).map Hid.haltWant) s t ∧ ∀ c ∈ coresOf m, t.rd (Hid.haltWant c) = 1))
  ∧ (∀ (c : Fin 4) (pc : DWord) (s : State), s.on (Hid.haltWant c) = true → s.coreLive c = true →
    exec (.coreHalted c pc) s = .next (s.haltNow c pc.toNat))
  ∧ (∀ (m : Fin 16) (s : State), s.full = true → (∀ c ∈ coresOf m, s.halted c = true) →
    exec (.dbgResume m) s = .next (State.each (coresOf m) (fun c t => t.coreResume c) s)
    ∧ exec (.dbgStep m) s = .next (State.each (coresOf m) (fun c t => (t.coreResume c).wr (Hid.haltWant c) 2) s))
  ∧ (∀ (c : Fin 4) (k : Fin 8) (p : Fin 3) (s : State), s.coreLive c = true → s.on (Reg.DBG_BP_CTL_EN c k) = true →
    s.bitOf (Reg.DBG_BP_CTL_PRIV c k) p = true → s.rd (Hid.haltWant c) ≠ 1 →
    exec (.breakpointHit c k p) s = .next (((s.wr (Hid.haltWant c) 0).coreHalt c 3 (s.rd (Reg.DBG_BP_ADDR c k))).wr
      (Reg.DBG_CORE_STAT_IDX c) k))
  ∧ (∀ (c : Fin 4) (w : Fin 4) (a pc : DWord) (z : Fin 4) (st : Bool) (p : Fin 3) (s : State), s.coreLive c = true →
    s.on (Reg.DBG_WP_CTL_EN c w) = true → s.bitOf (Reg.DBG_WP_CTL_PRIV c w) p = true →
    s.on (if st then Reg.DBG_WP_CTL_STORE c w else Reg.DBG_WP_CTL_LOAD c w) = true →
    s.watchTouches c w a.toNat (2 ^ z.val) = true → s.rd (Hid.haltWant c) ≠ 1 →
    exec (.watchpointHit c w a z (!st) st p pc) s = .next ((s.wr (Hid.haltWant c) 0).coreHalt c 4 pc.toNat))
  ∧ (∀ (c : Fin 4) (pc : DWord) (s : State), s.coreLive c = true → s.on (Reg.DBG_CORE_CTRL_EBREAK_HALT c) = true →
    s.rd (Hid.haltWant c) ≠ 1 →
    exec (.ebreakHalt c pc) s = .next ((s.wr (Hid.haltWant c) 0).coreHalt c 5 pc.toNat))
  ∧ (∀ (c : Fin 4) (cause pc : Nat) (s : State), (s.coreHalt c cause pc).rd (Reg.DBG_CORE_STAT_HALTED c) = 1
    ∧ (s.coreHalt c cause pc).rd (Reg.DBG_CORE_STAT_CAUSE c) = cause % 2 ^ (Reg.DBG_CORE_STAT_CAUSE c).w
    ∧ (s.coreHalt c cause pc).rd (Reg.DBG_CORE_DPC c) = pc % 2 ^ 64)
  ∧ (∀ (c : Fin 4) (v : DWord) (s : State) (n : Nat), s.full = true → s.halted c = true → n = s.rd (Reg.DBG_CORE_REGSEL_NUM c) →
    (s.rd (Reg.DBG_CORE_REGSEL_SPACE c) = 0 → n = 0 → exec (.dbgRegdataWrite c v) s = .next s)
    ∧ (s.rd (Reg.DBG_CORE_REGSEL_SPACE c) = 0 → n ≠ 0 → n < 32 → Answers (.dbgRegdataWrite c v) s (fun t =>
        OnlyFields [Hid.coreGpr c n] s t ∧ t.rd (Hid.coreGpr c n) = v.toNat))
    ∧ (s.rd (Reg.DBG_CORE_REGSEL_SPACE c) = 1 → n < 32 → Answers (.dbgRegdataWrite c v) s (fun t =>
        OnlyFields [Hid.coreFpr c n] s t ∧ t.rd (Hid.coreFpr c n) = v.toNat))
    ∧ (s.rd (Reg.DBG_CORE_REGSEL_SPACE c) = 2 → csrExists n = true → exec (.dbgRegdataWrite c v) s = .next (s.csrWrite c n v.toNat)))

/-- A step takes the command at the front of the queue and is its effect on the rest; with none waiting a nanosecond passes. The
queue and the tick are the model's own choices, log entry 1. -/
def Obligations.StepRunsFrontCommand : Prop :=
  (∀ (c : Instr) (s : State), step { s with pending := c :: s.pending } = exec c s)
  ∧ (∀ s : State, s.pending = [] → step s = .next s.tick)
  ∧ (∀ s : State, s.rd Reg.SYS_BOOT_STAT_PHASE < 2 → s.tick = s)
  ∧ (∀ s : State, 2 ≤ s.rd Reg.SYS_BOOT_STAT_PHASE → (∀ n < 80, s.on (Hid.rstAsked n) = false) →
    s.tick.now = (s.now + (s.rd Hid.tsFrac + (4 * (1000000000 + toSigned 32 (s.rd Reg.TSB_FREQ))).toNat) / 1000000000) % 2 ^ 64)
  ∧ (∀ (s : State) (n w : Nat), decodeTableWord n w = none ∧ s.withFetchWord n w = s)

/-- The state at reset: canonical, and with the defaults that R22, R498, R516 and the register tables state. -/
def Obligations.ResetState : Prop :=
  State.reset.pending = [] ∧ State.reset.Canon ∧ State.reset.rd Reg.SYS_BOOT_STAT_PHASE = 0
  ∧ State.reset.rd Reg.HBM_MODE_BW = 1 ∧ State.reset.rd Reg.HBM_MODE_SPARE = 1 ∧ State.reset.rd Reg.AST_CTX_CTRL_STAGING = 0
  ∧ State.reset.rd Reg.SCB_BUDGET_PCT = 2 ∧ State.reset.rd Reg.AST_THR_CTRL_METHOD = 0
  ∧ State.reset.rd Reg.AST_PWR_LIMIT_LIMIT = 300 ∧ State.reset.rd Reg.AST_LEVEL_LEVEL = 64
  ∧ State.reset.rd Reg.AST_LEVEL_THM_LEVEL = 64 ∧ State.reset.rd Reg.AST_LEVEL_PWR_LEVEL = 64
  ∧ State.reset.rd Reg.HBM_STAT_STATE = 0
  ∧ (∀ p < 4, State.reset.rd (Reg.PRB_CAL_CTRL_MODE p) = 0 ∧ State.reset.rd (Reg.PRB_STAT_STATE p) = 0)
  ∧ (∀ n < 80, State.reset.rd (Reg.ISL_STAT_STATE n) = 0)

/-- The invariant of the model that every step keeps, for each of the 422 commands and for the passage of time. -/
def Obligations.StepKeepsCanon : Prop :=
  ∀ s t : State, s.Canon → step s = .next t → t.Canon ∧ t.pending = s.pending.tail

/-- Every command answers a next state from every state, and no step faults or is refused. -/
def Obligations.EveryCommandAnswers : Prop :=
  (∀ (i : Instr) (s : State), ∃ t, exec i s = .next t) ∧ (∀ s : State, ∃ t, step s = .next t)

/-- The pair rule R8, at the pairs of every block whose writes are not judged by the debug level and outside the windows of Marigold. -/
def Obligations.PairHalves : Prop :=
  (∀ (m : Master) (blk off b : Nat) (rows : List Row) (r : Row) (ix : List Nat) (s : State), blk ≠ 7 → blockRows blk = some (b, rows) →
    findRow rows off = some (r, ix, false) → findRow rows (off + 4) = some (r, ix, true) → r.pair = true →
    (∀ lo : Nat, SameCells s (s.regWrite m blk off lo))
    ∧ (∀ (lo lo' hi : Nat) (u : State), u.loHeld = (s.regWrite m blk off lo).loHeld →
      (∃ v, SameCells u v ∧ u.regWrite m blk (off + 4) hi = v.regStore m blk off b r ix (lo + hi * 2 ^ 32))
      ∧ (∃ v, SameCells u v ∧ (u.regWrite m blk off lo').regWrite m blk (off + 4) hi
        = v.regStore m blk off b r ix (lo' + hi * 2 ^ 32)))
    ∧ (∀ hi : Nat, Tab.find s.loHeld (pairKey (masterCode m) blk off) = none →
      s.regWrite m blk (off + 4) hi
        = (s.lowHalf blk off b r ix).2.regStore m blk off b r ix ((s.lowHalf blk off b r ix).1 + hi * 2 ^ 32))
    ∧ (r.hnd ≠ .rtRoute → r.hnd ≠ .regData → s.lowHalf blk off b r ix = (s.rawRow blk off b r ix % 2 ^ 32, s))
    ∧ (r.hnd = .rtRoute → s.on (Hid.rtStgSet (ixAt ix 0) (ixAt ix 1)) = true →
      s.lowHalf blk off b r ix = (s.rd (Hid.rtStgDir (ixAt ix 0) (ixAt ix 1)) % 2 ^ 32, s)))
  ∧ (∀ (m : Master) (p p' : Bool) (blk off b : Nat) (rows : List Row) (r : Row) (ix : List Nat) (s u : State),
    blk ≠ 0x017 → off ≠ 0 → blockRows blk = some (b, rows) →
    findRow rows off = some (r, ix, false) → findRow rows (off + 4) = some (r, ix, true) → r.pair = true →
    u.hiShadow = (s.regRead m p blk off).2.2.hiShadow →
    (s.regRead m p blk off).1 = (s.regValue p blk off b r ix).1 % 2 ^ 32
    ∧ (u.regRead m p' blk (off + 4)).1 = (s.regValue p blk off b r ix).1 / 2 ^ 32
    ∧ SameCells u (u.regRead m p' blk (off + 4)).2.2)

/-- UNSTAGED needs a power limit of 150 W or less, and a higher limit forces STAGED first. -/
def Obligations.PowerLimitAndStaging : Prop :=
  (∀ s : State, s.astStop = false → 150 < s.rd Reg.AST_PWR_LIMIT_LIMIT →
    exec (.astStagingWrite true) s = .next (s.deny 0x005) ∧ Answers (.astStagingWrite true) s (fun t =>
      OnlyFields [Stat.modeDeny 0x005] s t))
  ∧ (∀ s : State, s.astStop = false → s.rd Reg.AST_PWR_LIMIT_LIMIT ≤ 150 → s.rd Hid.astLimPend = 0 →
    Answers (.astStagingWrite true) s (fun t => OnlyFields [Reg.AST_CTX_CTRL_STAGING] s t ∧ t.rd Reg.AST_CTX_CTRL_STAGING = 1))
  ∧ (∀ (w : Word) (s : State), s.astStop = false → 150 < bits w.toNat 8 0 → bits w.toNat 8 0 ≤ 300 →
    s.on Reg.AST_CTX_CTRL_STAGING = true → Answers (.astPwrLimitWrite w) s (fun t =>
      OnlyFields [Reg.AST_CTX_CTRL_STAGING, Reg.AST_STAT_STAGE_FORCED, Reg.AST_PWR_LIMIT_LIMIT, Hid.astLimPend] s t
      ∧ t.rd Reg.AST_CTX_CTRL_STAGING = 0 ∧ t.rd Reg.AST_STAT_STAGE_FORCED = 1
      ∧ (s.on Hid.swBusy = false → t.rd Reg.AST_PWR_LIMIT_LIMIT = bits w.toNat 8 0)
      ∧ (s.on Hid.swBusy = true → t.rd Reg.AST_PWR_LIMIT_LIMIT = s.rd Reg.AST_PWR_LIMIT_LIMIT
        ∧ t.rd Hid.astLimPend = bits w.toNat 8 0 ∧ t.swEnd.rd Reg.AST_PWR_LIMIT_LIMIT = bits w.toNat 8 0)))

/-- A bank's read acts on its two syndromes as the table says. -/
def Obligations.SramVerdicts : Prop :=
  ∀ (q : Req) (a : Nat) (s : State), let y := s.wordChk a ^^^ codeOf 8 (s.wordStored a)
    (y = 0 → s.readWord q a = (s.wordAs q.key a, false, s))
    ∧ (∀ j < 8, ∀ k < 8, y = 2 ^ j + 256 * 2 ^ k → (s.readWord q a).1 = s.wordAs q.key a ^^^ 2 ^ (8 * j + k)
      ∧ (s.readWord q a).2.1 = false ∧ (s.readWord q a).2.2.wback.contains (a / 8) = true
      ∧ (s.readWord q a).2.2.cells = (s.sramCe (bankOf a)).cells)
    ∧ (∀ j < 8, y = 2 ^ j ∨ y = 256 * 2 ^ j → (s.readWord q a).1 = s.wordAs q.key a
      ∧ (s.readWord q a).2.1 = false ∧ (s.readWord q a).2.2.wback.contains (a / 8) = true
      ∧ (s.readWord q a).2.2.cells = (s.sramCe (bankOf a)).cells)
    ∧ (y < 2 ^ 16 → y ≠ 0 → (∀ j < 8, y ≠ 2 ^ j ∧ y ≠ 256 * 2 ^ j) → (∀ j < 8, ∀ k < 8, y ≠ 2 ^ j + 256 * 2 ^ k) →
      s.readWord q a = (s.wordAs q.key a, true, s.sramUe q a))

/-- What R244 and R245 together mean for a stored word: one wrong data bit is found and two are refused. -/
def Obligations.SingleErrorCorrected : Prop :=
  ∀ (x : BitVec 64) (i : Nat), i < 64 →
    (let y := codeOf 8 x.toNat ^^^ codeOf 8 (x.toNat ^^^ 2 ^ i)
     verdict 8 (y % 256) (y / 256) = .fix (some i))
    ∧ ∀ j < 64, j ≠ i → (let y := codeOf 8 x.toNat ^^^ codeOf 8 (x.toNat ^^^ 2 ^ i ^^^ 2 ^ j)
     verdict 8 (y % 256) (y / 256) = .bad)

/-- SRM_ERR holds the first error after CLR_LOG and a later one sets OVF. -/
def Obligations.SramErrorLog : Prop :=
  (∀ s : State, Answers .srmClrLog s (fun t => t.on Reg.SRM_ERR_INFO_VALID = false ∧ t.on Reg.SRM_ERR_INFO_OVF = false))
  ∧ (∀ (k a : Nat) (q : Req) (s : State), s.on Reg.SRM_ERR_INFO_VALID = false →
    (s.sramLog k a q).rd Reg.SRM_ERR_INFO_VALID = 1
    ∧ (s.sramLog k a q).rd Reg.SRM_ERR_ADDR = a % 2 ^ Reg.SRM_ERR_ADDR.w
    ∧ (s.sramLog k a q).rd Reg.SRM_ERR_INFO_KEY = q.key % 2 ^ Reg.SRM_ERR_INFO_KEY.w
    ∧ (s.sramLog k a q).rd Reg.SRM_ERR_INFO_PATH = q.path % 2 ^ Reg.SRM_ERR_INFO_PATH.w
    ∧ (s.sramLog k a q).rd Reg.SRM_ERR_INFO_ID = q.id % 2 ^ Reg.SRM_ERR_INFO_ID.w
    ∧ (s.sramLog k a q).rd Reg.SRM_ERR_INFO_KIND = k % 2 ^ Reg.SRM_ERR_INFO_KIND.w)
  ∧ (∀ (k a : Nat) (q : Req) (s : State), s.on Reg.SRM_ERR_INFO_VALID = true →
    OnlyFields [Reg.SRM_ERR_INFO_OVF] s (s.sramLog k a q) ∧ (s.sramLog k a q).rd Reg.SRM_ERR_INFO_OVF = 1)
  ∧ (∀ (a : Nat) (q : Req) (s : State), s.wordVerdict a = .bad →
    (s.readWord q a).2.2 = ((((s.inc (Reg.SRM_BANK_UE (bankOf a)) 1).sramLog 0 a q).srmEvt 1).classErr 1 true)
    ∧ ∀ ms : List (Option Byte), ms.all (fun m => m.isSome) = false →
      s.mergeWord q a ms = ((((s.inc (Reg.SRM_BANK_UE (bankOf a)) 1).sramLog 1 a q).srmEvt 2).classErr 1 true, false))

/-- A DEVICE reset returns the six mode fields to their defaults and the other resets leave them. -/
def Obligations.ModeFieldsAtResets : Prop :=
  ∀ (p : Fin 4) (f : Fld), f ∈ [Reg.HBM_MODE_BW, Reg.HBM_MODE_SPARE, Reg.AST_CTX_CTRL_STAGING, Reg.SCB_BUDGET_PCT,
      Reg.AST_THR_CTRL_METHOD, Reg.PRB_CAL_CTRL_MODE p] → ∀ s : State,
    (∀ c, (s.deviceReset c).rd f = f.rst)
    ∧ s.engineReset.rd f = s.rd f
    ∧ (∀ (n : Fin 80) (e : Bool), (s.islandReset n e).rd f = s.rd f)
    ∧ (∀ c : Fin 4, (s.coreReset c).rd f = s.rd f)

/-- AST_CMD accepts its four commands in their legal states and rejects the rest; so do the debug port and the raw test access. -/
def Obligations.CommandsOutOfState : Prop :=
  (∀ s : State, ∀ legal : Bool, legal = (s.rd Reg.AST_STAT_TSTATE == 4 && s.allBelow 2 (s.rd Reg.AST_STOP_CFG_HYST_STOP)) →
    exec .astResume s = .next (if legal then s.stopEnd else s.astReject 1))
  ∧ (∀ s : State, exec .astStop s = .next (if s.rd Reg.AST_STAT_TSTATE ≤ 2 then s.stopBegin else s.astReject 2))
  ∧ (∀ (i : Fin 32) (s : State), ∀ legal : Bool,
    legal = (decide (i.val < 12) && s.on (Reg.AST_CH_STAT_SUSPECT i) && decide (1001 ≤ s.rd (Hid.nearRun i))) →
    exec (.astClrSuspect i) s = .next (if legal then s.wr (Reg.AST_CH_STAT_SUSPECT i) 0 else s.astReject 3))
  ∧ (∀ s : State, exec .astClrCnt s = .next s.astClrCnt)
  ∧ (∀ (c ch : Nat) (s : State), c = 0 ∨ 4 < c → s.astCmd c ch = s.astReject c)
  ∧ (∀ (c : Nat) (s : State), (s.astReject c).rd (Stat.cmdReject 0x005) = 1 ∧ (s.astReject c).rd (Stat.rejCode 0x005) = c % 256
    ∧ (s.astReject c).pend 41 = true
    ∧ (s.on (Reg.EVT_ROUTE_A_EN 41) = false →
      OnlyFields [Stat.cmdReject 0x005, Stat.rejCode 0x005, Reg.AST_EVT_EVT, Reg.EVT_PEND 1] s (s.astReject c)))
  ∧ (∀ (m : Fin 16) (s : State), s.full = false → exec (.dbgHalt m) s = .next (s.dbgReject 1)
    ∧ exec (.dbgResume m) s = .next (s.dbgReject 2) ∧ exec (.dbgStep m) s = .next (s.dbgReject 3)
    ∧ exec .dbgResetDevice s = .next (s.dbgReject 4))
  ∧ (∀ s : State, s.on Reg.SRM_CTRL_TEST_EN = false → exec .srmRawRead s = .next ((s.rejMark 0x090 1).srmEvt 5)
    ∧ exec .srmRawWrBoth s = .next ((s.rejMark 0x090 4).srmEvt 5))

/-- The event rules R375 to R377. -/
def Obligations.EventRaised : Prop :=
  (∀ (e f : Fin 1024) (s : State), (s.raise e).pend e = true ∧ (f ≠ e → (s.raise e).pend f = s.pend f))
  ∧ (∀ (e : Fin 1024) (s : State), s.on (Reg.EVT_ROUTE_A_EN e) = false →
    OnlyFields [Reg.EVT_PEND (e / 32)] s (s.raise e))
  ∧ (∀ (e : Fin 1024) (s : State), s.on (Reg.EVT_ROUTE_A_EN e) = true → s.on (Reg.EVT_ROUTE_A_MSIX_EN e) = true →
    s.on (Reg.EVT_ROUTE_B_FAB_EN e) = false → s.on (Reg.EVT_ROUTE_B_TOUT_EN e) = false → ∀ v, v = s.rd (Reg.EVT_ROUTE_A_VECTOR e) →
    (s.pend e = true → OnlyFields [Reg.EVT_PEND (e / 32)] s (s.raise e))
    ∧ (s.pend e = false → s.on (Hid.msixMask v) = false → s.on Hid.msixFnMask = false → s.on Hid.msixEnable = true →
      (s.raise e).out = .msix v (s.rd (Hid.msixAddr v)) (s.rd (Hid.msixData v)) :: s.out)
    ∧ (s.pend e = false → s.on (Hid.msixMask v) = true →
      OnlyFields [Reg.EVT_PEND (e / 32), Hid.msixPba v] s (s.raise e) ∧ (s.raise e).rd (Hid.msixPba v) = 1))
  ∧ (∀ (u : Fin 32) (s : State), exec (.evtUserRaise u) s = .next (s.raise (992 + u)))

/-- Only Marigold writes the flow-table region. A request to the hub bank waits before the phase KEYS is over and while every hub bundle
that works is held; that and what a Miller core sees of a bus error are R224, R248 and R259. -/
def Obligations.FlowTableWrites : Prop :=
  (∀ (w : Requester) (key : Fin 16) (word : Nat) (data : List DWord) (errs : List (Fin 4 × SigErr)) (s u : State),
    w ≠ .marigold → data ≠ [] → overlaps (8 * word) (8 * data.length) 0x100F400000 0x200000 = true →
    u = s.hubErrors errs → u.hubHeld = false → 3 ≤ u.rd Reg.SYS_BOOT_STAT_PHASE → Answers (.sramWrite w key word data errs) s (fun t =>
      t.last.res = .err ∧ ∀ a, t.byte a = s.byte a))
  ∧ (∀ (w : Requester) (key : Fin 16) (addr : Nat) (data : List Byte) (errs : List (Fin 4 × SigErr)) (s u : State),
    w ≠ .marigold → data ≠ [] → overlaps addr data.length 0x100F400000 0x200000 = true →
    u = s.hubErrors errs → u.hubHeld = false → 3 ≤ u.rd Reg.SYS_BOOT_STAT_PHASE → Answers (.sramMergeWrite w key addr data errs) s (fun t =>
      t.last.res = .err ∧ ∀ a, t.byte a = s.byte a))
  ∧ (∀ (w : Requester) (key : Fin 16) (word addr : Nat) (ds : List DWord) (bs : List Byte) (errs : List (Fin 4 × SigErr))
    (i : Instr) (s t : State), w ≠ .marigold →
    i = .sramWrite w key word ds errs ∨ i = .sramMergeWrite w key addr bs errs → exec i s = .next t →
    ∀ a, 0x100F400000 ≤ a → a < 0x100F600000 → t.byte a = s.byte a)
  ∧ (∀ (w : Requester) (addr n : Nat) (errs : List (Fin 4 × SigErr)) (s u : State), 0 < n → 0x100F400000 ≤ addr →
    addr + n ≤ 0x100F600000 → (∀ k, w ≠ .millrace k) → u = s.hubErrors errs → u.guard (u.req w 0) false addr n = none →
    u.on Hid.hubFenced = false → u.hubHeld = false → 3 ≤ u.rd Reg.SYS_BOOT_STAT_PHASE → (u.readUnits (u.req w 0) addr n).2.1 = .ok →
    exec (.sramRead w 0 addr n errs) s = .next ((u.readUnits (u.req w 0) addr n).2.2.answer .ok (u.readUnits (u.req w 0) addr n).1))

/-- What the SRAM commands leave unchanged in memory. -/
def Obligations.SramFrames : Prop :=
  (∀ (w : Requester) (key : Fin 16) (word : Nat) (data : List DWord) (errs : List (Fin 4 × SigErr)) (s t : State),
    exec (.sramWrite w key word data errs) s = .next t →
    ∀ a, (a < 8 * word ∨ 8 * word + 8 * data.length ≤ a) → t.byte a = s.byte a)
  ∧ (∀ (w : Requester) (key : Fin 16) (addr : Nat) (data : List Byte) (errs : List (Fin 4 × SigErr)) (s t : State),
    exec (.sramMergeWrite w key addr data errs) s = .next t →
    ∀ a, (a < addr / 8 * 8 ∨ (addr + data.length + 7) / 8 * 8 ≤ a) → t.byte a = s.byte a)
  ∧ (∀ (word : Nat) (s t : State), exec (.sramWriteback word) s = .next t →
    ∀ a, (a < 8 * word ∨ 8 * word + 8 ≤ a) → t.byte a = s.byte a)
  ∧ (∀ (w : Requester) (key : Fin 16) (addr n : Nat) (errs : List (Fin 4 × SigErr)) (b : Fin 81) (s t : State) (i : Instr),
    i ∈ ([.sramRead w key addr n errs, .sramBucketLeak b, .srmClrLog] : List Instr) → exec i s = .next t → ∀ a, t.byte a = s.byte a)

/-- A word that a write has stored is read back by the same requester under the same key index. -/
def Obligations.SramReadBack : Prop :=
  ∀ (w : Requester) (key : Fin 16) (word : Nat) (d : DWord) (errs : List (Fin 4 × SigErr)) (s t : State),
    exec (.sramWrite w key word [d] errs) s = .next t →
    t.last.res = .ok → t.guard (t.req w key) false (8 * word) 8 = none →
    Answers (.sramRead w key (8 * word) 8 []) t (fun u => u.last = ⟨.ok, leBytes 8 d.toNat⟩ ∧ u.cells = t.cells ∧ u.mem = t.mem)

/-- Commands of power, debug and events that change no byte of memory. -/
def Obligations.StoresNothing : Prop :=
  ∀ (w : Word) (b : Bool) (m c : Fin 4) (ch : Fin 32) (op : Byte) (dr : BitVec 78) (cs : Fin 16) (pc v : DWord) (k : Fin 81) (r : Fin 48)
    (z : Fin 8) (i : Instr) (s t : State),
    i ∈ ([.astPwrLimitWrite w, .astStagingWrite b, .astMethodWrite m, .methodApply, .thmLevelStep, .astClrSuspect ch, .astClrCnt,
      .overcurrent, .tapReset, .tapUpdateIr op, .dbgaccUpdateDr dr, .dbgaccTimeout, .dbgHalt cs, .coreHalted c pc,
      .dbgRegdataWrite c v, .dbgAuthChallenge, .dbgAuthToken, .supWdgKick w, .evtUserRaise ch, .sramBucketLeak k, .hbmBucketLeak r,
      .classBucketLeak z] : List Instr) → exec i s = .next t → ∀ a, t.byte a = s.byte a
end

