-- ==== Sys2Proof/Laws/Tab.lean ====
section
/-! SUPPORT. Laws of tables: every operation keeps the canonical form, and what it changes. -/

namespace Sys2Proof.Machine

/-- Keys that rise from a bound rise from any lower one. -/
theorem risesFrom_mono {b c : Nat} (h : c ≤ b) : ∀ {l : List Nat}, risesFrom b l = true → risesFrom c l = true
  | [], _ => rfl
  | k :: r, hk => by
    simp only [risesFrom, Bool.and_eq_true, decide_eq_true_eq] at hk ⊢
    exact ⟨le_trans h hk.1, hk.2⟩

/-- Every key of a rising list is at least the bound. -/
theorem risesFrom_le {b : Nat} : ∀ {l : List Nat}, risesFrom b l = true → ∀ k ∈ l, b ≤ k
  | [], _, k, hk => by simp at hk
  | x :: r, h, k, hk => by
    simp only [risesFrom, Bool.and_eq_true, decide_eq_true_eq] at h
    rcases List.mem_cons.1 hk with rfl | hk
    · exact h.1
    · exact le_trans (le_trans h.1 (Nat.le_succ _)) (risesFrom_le h.2 k hk)

/-- A part of a rising list, in order, rises. -/
theorem risesFrom_filter (p : Nat → Bool) : ∀ {b : Nat} {l : List Nat}, risesFrom b l = true → risesFrom b (l.filter p) = true
  | _, [], _ => rfl
  | b, k :: r, h => by
    simp only [risesFrom, Bool.and_eq_true, decide_eq_true_eq] at h
    by_cases hp : p k
    · rw [List.filter_cons_of_pos hp]
      simp only [risesFrom, Bool.and_eq_true, decide_eq_true_eq]
      exact ⟨h.1, risesFrom_filter p h.2⟩
    · rw [List.filter_cons_of_neg hp]
      exact risesFrom_mono (le_trans h.1 (Nat.le_succ _)) (risesFrom_filter p h.2)

/-- A filter of a table's entries by their keys commutes with taking the keys; by the entries it gives a part of them. -/
theorem Tab.wf_filter {α : Type} (p : Nat × α → Bool) {t : Tab α} (h : Tab.wf t = true) : Tab.wf (t.filter p) = true := by
  unfold Tab.wf at *
  generalize 0 = b at h ⊢
  induction t generalizing b with
  | nil => rfl
  | cons e r ih =>
    simp only [List.map_cons, risesFrom, Bool.and_eq_true, decide_eq_true_eq] at h
    by_cases hp : p e
    · rw [List.filter_cons_of_pos hp]
      simp only [List.map_cons, risesFrom, Bool.and_eq_true, decide_eq_true_eq]
      exact ⟨h.1, ih _ h.2⟩
    · rw [List.filter_cons_of_neg hp]
      exact risesFrom_mono (le_trans h.1 (Nat.le_succ _)) (ih _ h.2)

theorem Tab.wf_del {α : Type} {t : Tab α} (k : Nat) (h : Tab.wf t = true) : Tab.wf (Tab.del t k) = true :=
  Tab.wf_filter _ h

theorem Tab.wf_delRange {α : Type} {t : Tab α} (lo hi : Nat) (h : Tab.wf t = true) : Tab.wf (Tab.delRange t lo hi) = true :=
  Tab.wf_filter _ h

theorem filter_cons_pos' {α : Type} {p : α → Bool} {a : α} {l : List α} (h : p a = true) : (a :: l).filter p = a :: l.filter p := by
  simp [h]

theorem filter_cons_neg' {α : Type} {p : α → Bool} {a : α} {l : List α} (h : ¬p a = true) : (a :: l).filter p = l.filter p := by
  simp [h]

/-- Setting an entry between the lower and the higher keys keeps the keys rising. -/
theorem risesFrom_put {α : Type} (k : Nat) (v : α) : ∀ {t : Tab α} {b : Nat}, risesFrom b (t.map Prod.fst) = true →
    risesFrom (min b k) (((t.filter (fun e => decide (e.1 < k))) ++ (k, v) :: t.filter (fun e => decide (k < e.1))).map Prod.fst) = true
  | [], b, _ => by simp [risesFrom]
  | e :: r, b, h => by
    simp only [List.map_cons, risesFrom, Bool.and_eq_true, decide_eq_true_eq] at h
    have ih := risesFrom_put k v h.2
    rcases Nat.lt_trichotomy e.1 k with hlt | heq | hgt
    · have h1 : decide (e.1 < k) = true := decide_eq_true hlt
      have h2 : ¬(decide (k < e.1) = true) := by simp; omega
      rw [filter_cons_pos' (p := fun x : Nat × α => decide (x.1 < k)) h1, filter_cons_neg' (p := fun x : Nat × α => decide (k < x.1)) h2]
      simp only [List.cons_append, List.map_cons, risesFrom, Bool.and_eq_true, decide_eq_true_eq]
      refine ⟨by omega, ?_⟩
      have : min (e.1 + 1) k = e.1 + 1 := by omega
      rwa [this] at ih
    · have h1 : ¬(decide (e.1 < k) = true) := by simp; omega
      have h2 : ¬(decide (k < e.1) = true) := by simp; omega
      rw [filter_cons_neg' (p := fun x : Nat × α => decide (x.1 < k)) h1, filter_cons_neg' (p := fun x : Nat × α => decide (k < x.1)) h2]
      exact risesFrom_mono (by omega) ih
    · have h1 : ¬(decide (e.1 < k) = true) := by simp; omega
      have h2 : decide (k < e.1) = true := decide_eq_true hgt
      have hall : ∀ x ∈ r, k < x.1 := fun x hx => by
        have := risesFrom_le h.2 x.1 (List.mem_map_of_mem hx)
        omega
      have hnone : r.filter (fun e => decide (e.1 < k)) = [] := by
        rw [List.filter_eq_nil_iff]
        intro x hx
        have := hall x hx
        simp; omega
      have hsame : r.filter (fun e => decide (k < e.1)) = r := by
        rw [List.filter_eq_self]
        intro x hx
        simpa using hall x hx
      rw [filter_cons_neg' (p := fun x : Nat × α => decide (x.1 < k)) h1, filter_cons_pos' (p := fun x : Nat × α => decide (k < x.1)) h2, hnone, hsame]
      simp only [List.nil_append, List.map_cons, risesFrom, Bool.and_eq_true, decide_eq_true_eq]
      exact ⟨by omega, by omega, h.2⟩

theorem Tab.wf_put {α : Type} {t : Tab α} (k : Nat) (v : α) (h : Tab.wf t = true) : Tab.wf (Tab.put t k v) = true := by
  have := risesFrom_put k v h
  rwa [Nat.zero_min] at this

theorem Tab.wf_set {α : Type} [DecidableEq α] {t : Tab α} (k : Nat) (d v : α) (h : Tab.wf t = true) :
    Tab.wf (Tab.set t k d v) = true := by
  unfold Tab.set
  split
  · exact Tab.wf_del k h
  · exact Tab.wf_put k v h

/-! ### What is found -/

theorem Tab.find_filter {α : Type} (p : Nat → Bool) (t : Tab α) (k : Nat) :
    Tab.find (t.filter (fun e => p e.1)) k = if p k then Tab.find t k else none := by
  induction t with
  | nil => simp [Tab.find]
  | cons e r ih =>
    by_cases hp : p e.1
    · rw [filter_cons_pos' (p := fun x : Nat × α => p x.1) hp]
      by_cases hk : e.1 = k
      · subst hk; simp [Tab.find, hp]
      · simp [Tab.find, hk, ih]
    · rw [filter_cons_neg' (p := fun x : Nat × α => p x.1) hp, ih]
      by_cases hk : e.1 = k
      · subst hk; simp [hp]
      · simp [Tab.find, hk]

theorem Tab.find_append {α : Type} (t u : Tab α) (k : Nat) :
    Tab.find (t ++ u) k = match Tab.find t k with | some v => some v | none => Tab.find u k := by
  induction t with
  | nil => simp [Tab.find]
  | cons e r ih =>
    by_cases hk : e.1 = k
    · simp [Tab.find, hk]
    · simp [Tab.find, hk, ih]

theorem Tab.find_del_same {α : Type} (t : Tab α) (k : Nat) : Tab.find (Tab.del t k) k = none := by
  have := Tab.find_filter (fun x => x != k) t k
  simpa [Tab.del] using this

theorem Tab.find_del_ne {α : Type} (t : Tab α) {k j : Nat} (h : j ≠ k) : Tab.find (Tab.del t k) j = Tab.find t j := by
  have := Tab.find_filter (fun x => x != k) t j
  simpa [Tab.del, h] using this

theorem Tab.find_put_same {α : Type} (t : Tab α) (k : Nat) (v : α) : Tab.find (Tab.put t k v) k = some v := by
  have := Tab.find_filter (fun x => decide (x < k)) t k
  simp only [Tab.put, Tab.find_append, this]
  simp [Tab.find]

theorem Tab.find_put_ne {α : Type} (t : Tab α) {k j : Nat} (v : α) (h : j ≠ k) : Tab.find (Tab.put t k v) j = Tab.find t j := by
  have h1 := Tab.find_filter (fun x => decide (x < k)) t j
  have h2 := Tab.find_filter (fun x => decide (k < x)) t j
  simp only [Tab.put, Tab.find_append, h1]
  have hk : ¬(k = j) := fun e => h e.symm
  rcases Nat.lt_or_gt_of_ne h with hlt | hgt
  · have : ¬(k < j) := by omega
    simp only [decide_eq_true hlt, if_true]
    cases Tab.find t j with
    | some x => rfl
    | none => simp [Tab.find, hk, h2, this]
  · have : ¬(j < k) := by omega
    simp [this, Tab.find, hk, h2, hgt]

theorem Tab.getD_set_same {α : Type} [DecidableEq α] (t : Tab α) (k : Nat) (d v : α) :
    Tab.getD (Tab.set t k d v) k d = v := by
  unfold Tab.getD Tab.set
  split
  · rename_i h; rw [Tab.find_del_same, h]; rfl
  · rw [Tab.find_put_same]; rfl

theorem Tab.getD_set_ne {α : Type} [DecidableEq α] (t : Tab α) {k j : Nat} (d v e : α) (h : j ≠ k) :
    Tab.getD (Tab.set t k d v) j e = Tab.getD t j e := by
  unfold Tab.getD Tab.set
  split
  · rw [Tab.find_del_ne t h]
  · rw [Tab.find_put_ne t v h]

theorem Tab.getD_del_same {α : Type} (t : Tab α) (k : Nat) (d : α) : Tab.getD (Tab.del t k) k d = d := by
  unfold Tab.getD; rw [Tab.find_del_same]; rfl

theorem Tab.getD_del_ne {α : Type} (t : Tab α) {k j : Nat} (d : α) (h : j ≠ k) :
    Tab.getD (Tab.del t k) j d = Tab.getD t j d := by
  unfold Tab.getD; rw [Tab.find_del_ne t h]

theorem Tab.getD_delRange {α : Type} (t : Tab α) (lo hi k : Nat) (d : α) :
    Tab.getD (Tab.delRange t lo hi) k d = if lo ≤ k ∧ k < hi then d else Tab.getD t k d := by
  unfold Tab.getD Tab.delRange
  rw [Tab.find_filter (fun x => !(decide (lo ≤ x) && decide (x < hi)))]
  by_cases h : lo ≤ k ∧ k < hi
  · simp [h]
  · have : k < lo ∨ hi ≤ k := by omega
    simp [h, this]

end Sys2Proof.Machine
end

