-- ==== Sys2Proof/Laws/State.lean ====
section
/-! SUPPORT. Laws of the state: what the first operations leave as it is, what is read after a write, and that they keep the state
canonical. -/

namespace Sys2Proof.Machine

/-! ### What `wr` leaves -/

@[simp] theorem State.wr_pending (s : State) (f : Fld) (v : Nat) : (s.wr f v).pending = s.pending := rfl
@[simp] theorem State.wr_mem (s : State) (f : Fld) (v : Nat) : (s.wr f v).mem = s.mem := rfl
@[simp] theorem State.wr_info (s : State) (f : Fld) (v : Nat) : (s.wr f v).info = s.info := rfl
@[simp] theorem State.wr_wback (s : State) (f : Fld) (v : Nat) : (s.wr f v).wback = s.wback := rfl
@[simp] theorem State.wr_freeCtr (s : State) (f : Fld) (v : Nat) : (s.wr f v).freeCtr = s.freeCtr := rfl
@[simp] theorem State.wr_laneBuf (s : State) (f : Fld) (v : Nat) : (s.wr f v).laneBuf = s.laneBuf := rfl
@[simp] theorem State.wr_islFifo (s : State) (f : Fld) (v : Nat) : (s.wr f v).islFifo = s.islFifo := rfl
@[simp] theorem State.wr_hopDelay (s : State) (f : Fld) (v : Nat) : (s.wr f v).hopDelay = s.hopDelay := rfl
@[simp] theorem State.wr_hopOpen (s : State) (f : Fld) (v : Nat) : (s.wr f v).hopOpen = s.hopOpen := rfl
@[simp] theorem State.wr_hopStage (s : State) (f : Fld) (v : Nat) : (s.wr f v).hopStage = s.hopStage := rfl
@[simp] theorem State.wr_hopTail (s : State) (f : Fld) (v : Nat) : (s.wr f v).hopTail = s.hopTail := rfl
@[simp] theorem State.wr_runLoops (s : State) (f : Fld) (v : Nat) : (s.wr f v).runLoops = s.runLoops := rfl
@[simp] theorem State.wr_runQueue (s : State) (f : Fld) (v : Nat) : (s.wr f v).runQueue = s.runQueue := rfl
@[simp] theorem State.wr_txLine (s : State) (f : Fld) (v : Nat) : (s.wr f v).txLine = s.txLine := rfl
@[simp] theorem State.wr_fabVals (s : State) (f : Fld) (v : Nat) : (s.wr f v).fabVals = s.fabVals := rfl
@[simp] theorem State.wr_tplCache (s : State) (f : Fld) (v : Nat) : (s.wr f v).tplCache = s.tplCache := rfl
@[simp] theorem State.wr_keyFifo (s : State) (f : Fld) (v : Nat) : (s.wr f v).keyFifo = s.keyFifo := rfl
@[simp] theorem State.wr_sluices (s : State) (f : Fld) (v : Nat) : (s.wr f v).sluices = s.sluices := rfl
@[simp] theorem State.wr_fifos (s : State) (f : Fld) (v : Nat) : (s.wr f v).fifos = s.fifos := rfl
@[simp] theorem State.wr_cache (s : State) (f : Fld) (v : Nat) : (s.wr f v).cache = s.cache := rfl
@[simp] theorem State.wr_icache (s : State) (f : Fld) (v : Nat) : (s.wr f v).icache = s.icache := rfl
@[simp] theorem State.wr_mstQueue (s : State) (f : Fld) (v : Nat) : (s.wr f v).mstQueue = s.mstQueue := rfl
@[simp] theorem State.wr_streams (s : State) (f : Fld) (v : Nat) : (s.wr f v).streams = s.streams := rfl
@[simp] theorem State.wr_rlkRetry (s : State) (f : Fld) (v : Nat) : (s.wr f v).rlkRetry = s.rlkRetry := rfl
@[simp] theorem State.wr_rlkFifo (s : State) (f : Fld) (v : Nat) : (s.wr f v).rlkFifo = s.rlkFifo := rfl
@[simp] theorem State.wr_packets (s : State) (f : Fld) (v : Nat) : (s.wr f v).packets = s.packets := rfl
@[simp] theorem State.wr_slvReqs (s : State) (f : Fld) (v : Nat) : (s.wr f v).slvReqs = s.slvReqs := rfl
@[simp] theorem State.wr_fpResps (s : State) (f : Fld) (v : Nat) : (s.wr f v).fpResps = s.fpResps := rfl
@[simp] theorem State.wr_loHeld (s : State) (f : Fld) (v : Nat) : (s.wr f v).loHeld = s.loHeld := rfl
@[simp] theorem State.wr_hiShadow (s : State) (f : Fld) (v : Nat) : (s.wr f v).hiShadow = s.hiShadow := rfl
@[simp] theorem State.wr_last (s : State) (f : Fld) (v : Nat) : (s.wr f v).last = s.last := rfl
@[simp] theorem State.wr_mrQueue (s : State) (f : Fld) (v : Nat) : (s.wr f v).mrQueue = s.mrQueue := rfl
@[simp] theorem State.wr_wires (s : State) (f : Fld) (v : Nat) : (s.wr f v).wires = s.wires := rfl
@[simp] theorem State.wr_walkFail (s : State) (f : Fld) (v : Nat) : (s.wr f v).walkFail = s.walkFail := rfl
@[simp] theorem State.wr_wireErrs (s : State) (f : Fld) (v : Nat) : (s.wr f v).wireErrs = s.wireErrs := rfl
@[simp] theorem State.wr_guards (s : State) (f : Fld) (v : Nat) : (s.wr f v).guards = s.guards := rfl
@[simp] theorem State.wr_records (s : State) (f : Fld) (v : Nat) : (s.wr f v).records = s.records := rfl
@[simp] theorem State.wr_out (s : State) (f : Fld) (v : Nat) : (s.wr f v).out = s.out := rfl

/-! ### What `clr` leaves -/

@[simp] theorem State.clr_pending (s : State) (f : Fld) : (s.clr f).pending = s.pending := rfl
@[simp] theorem State.clr_mem (s : State) (f : Fld) : (s.clr f).mem = s.mem := rfl
@[simp] theorem State.clr_info (s : State) (f : Fld) : (s.clr f).info = s.info := rfl
@[simp] theorem State.clr_wback (s : State) (f : Fld) : (s.clr f).wback = s.wback := rfl
@[simp] theorem State.clr_freeCtr (s : State) (f : Fld) : (s.clr f).freeCtr = s.freeCtr := rfl
@[simp] theorem State.clr_laneBuf (s : State) (f : Fld) : (s.clr f).laneBuf = s.laneBuf := rfl
@[simp] theorem State.clr_islFifo (s : State) (f : Fld) : (s.clr f).islFifo = s.islFifo := rfl
@[simp] theorem State.clr_hopDelay (s : State) (f : Fld) : (s.clr f).hopDelay = s.hopDelay := rfl
@[simp] theorem State.clr_hopOpen (s : State) (f : Fld) : (s.clr f).hopOpen = s.hopOpen := rfl
@[simp] theorem State.clr_hopStage (s : State) (f : Fld) : (s.clr f).hopStage = s.hopStage := rfl
@[simp] theorem State.clr_hopTail (s : State) (f : Fld) : (s.clr f).hopTail = s.hopTail := rfl
@[simp] theorem State.clr_runLoops (s : State) (f : Fld) : (s.clr f).runLoops = s.runLoops := rfl
@[simp] theorem State.clr_runQueue (s : State) (f : Fld) : (s.clr f).runQueue = s.runQueue := rfl
@[simp] theorem State.clr_txLine (s : State) (f : Fld) : (s.clr f).txLine = s.txLine := rfl
@[simp] theorem State.clr_fabVals (s : State) (f : Fld) : (s.clr f).fabVals = s.fabVals := rfl
@[simp] theorem State.clr_tplCache (s : State) (f : Fld) : (s.clr f).tplCache = s.tplCache := rfl
@[simp] theorem State.clr_keyFifo (s : State) (f : Fld) : (s.clr f).keyFifo = s.keyFifo := rfl
@[simp] theorem State.clr_sluices (s : State) (f : Fld) : (s.clr f).sluices = s.sluices := rfl
@[simp] theorem State.clr_fifos (s : State) (f : Fld) : (s.clr f).fifos = s.fifos := rfl
@[simp] theorem State.clr_cache (s : State) (f : Fld) : (s.clr f).cache = s.cache := rfl
@[simp] theorem State.clr_icache (s : State) (f : Fld) : (s.clr f).icache = s.icache := rfl
@[simp] theorem State.clr_mstQueue (s : State) (f : Fld) : (s.clr f).mstQueue = s.mstQueue := rfl
@[simp] theorem State.clr_streams (s : State) (f : Fld) : (s.clr f).streams = s.streams := rfl
@[simp] theorem State.clr_rlkRetry (s : State) (f : Fld) : (s.clr f).rlkRetry = s.rlkRetry := rfl
@[simp] theorem State.clr_rlkFifo (s : State) (f : Fld) : (s.clr f).rlkFifo = s.rlkFifo := rfl
@[simp] theorem State.clr_packets (s : State) (f : Fld) : (s.clr f).packets = s.packets := rfl
@[simp] theorem State.clr_slvReqs (s : State) (f : Fld) : (s.clr f).slvReqs = s.slvReqs := rfl
@[simp] theorem State.clr_fpResps (s : State) (f : Fld) : (s.clr f).fpResps = s.fpResps := rfl
@[simp] theorem State.clr_loHeld (s : State) (f : Fld) : (s.clr f).loHeld = s.loHeld := rfl
@[simp] theorem State.clr_hiShadow (s : State) (f : Fld) : (s.clr f).hiShadow = s.hiShadow := rfl
@[simp] theorem State.clr_last (s : State) (f : Fld) : (s.clr f).last = s.last := rfl
@[simp] theorem State.clr_mrQueue (s : State) (f : Fld) : (s.clr f).mrQueue = s.mrQueue := rfl
@[simp] theorem State.clr_wires (s : State) (f : Fld) : (s.clr f).wires = s.wires := rfl
@[simp] theorem State.clr_walkFail (s : State) (f : Fld) : (s.clr f).walkFail = s.walkFail := rfl
@[simp] theorem State.clr_wireErrs (s : State) (f : Fld) : (s.clr f).wireErrs = s.wireErrs := rfl
@[simp] theorem State.clr_guards (s : State) (f : Fld) : (s.clr f).guards = s.guards := rfl
@[simp] theorem State.clr_records (s : State) (f : Fld) : (s.clr f).records = s.records := rfl
@[simp] theorem State.clr_out (s : State) (f : Fld) : (s.clr f).out = s.out := rfl

/-! ### What `emit` leaves -/

@[simp] theorem State.emit_pending (s : State) (o : Out) : (s.emit o).pending = s.pending := rfl
@[simp] theorem State.emit_cells (s : State) (o : Out) : (s.emit o).cells = s.cells := rfl
@[simp] theorem State.emit_mem (s : State) (o : Out) : (s.emit o).mem = s.mem := rfl
@[simp] theorem State.emit_info (s : State) (o : Out) : (s.emit o).info = s.info := rfl
@[simp] theorem State.emit_wback (s : State) (o : Out) : (s.emit o).wback = s.wback := rfl
@[simp] theorem State.emit_freeCtr (s : State) (o : Out) : (s.emit o).freeCtr = s.freeCtr := rfl
@[simp] theorem State.emit_laneBuf (s : State) (o : Out) : (s.emit o).laneBuf = s.laneBuf := rfl
@[simp] theorem State.emit_islFifo (s : State) (o : Out) : (s.emit o).islFifo = s.islFifo := rfl
@[simp] theorem State.emit_hopDelay (s : State) (o : Out) : (s.emit o).hopDelay = s.hopDelay := rfl
@[simp] theorem State.emit_hopOpen (s : State) (o : Out) : (s.emit o).hopOpen = s.hopOpen := rfl
@[simp] theorem State.emit_hopStage (s : State) (o : Out) : (s.emit o).hopStage = s.hopStage := rfl
@[simp] theorem State.emit_hopTail (s : State) (o : Out) : (s.emit o).hopTail = s.hopTail := rfl
@[simp] theorem State.emit_runLoops (s : State) (o : Out) : (s.emit o).runLoops = s.runLoops := rfl
@[simp] theorem State.emit_runQueue (s : State) (o : Out) : (s.emit o).runQueue = s.runQueue := rfl
@[simp] theorem State.emit_txLine (s : State) (o : Out) : (s.emit o).txLine = s.txLine := rfl
@[simp] theorem State.emit_fabVals (s : State) (o : Out) : (s.emit o).fabVals = s.fabVals := rfl
@[simp] theorem State.emit_tplCache (s : State) (o : Out) : (s.emit o).tplCache = s.tplCache := rfl
@[simp] theorem State.emit_keyFifo (s : State) (o : Out) : (s.emit o).keyFifo = s.keyFifo := rfl
@[simp] theorem State.emit_sluices (s : State) (o : Out) : (s.emit o).sluices = s.sluices := rfl
@[simp] theorem State.emit_fifos (s : State) (o : Out) : (s.emit o).fifos = s.fifos := rfl
@[simp] theorem State.emit_cache (s : State) (o : Out) : (s.emit o).cache = s.cache := rfl
@[simp] theorem State.emit_icache (s : State) (o : Out) : (s.emit o).icache = s.icache := rfl
@[simp] theorem State.emit_mstQueue (s : State) (o : Out) : (s.emit o).mstQueue = s.mstQueue := rfl
@[simp] theorem State.emit_streams (s : State) (o : Out) : (s.emit o).streams = s.streams := rfl
@[simp] theorem State.emit_rlkRetry (s : State) (o : Out) : (s.emit o).rlkRetry = s.rlkRetry := rfl
@[simp] theorem State.emit_rlkFifo (s : State) (o : Out) : (s.emit o).rlkFifo = s.rlkFifo := rfl
@[simp] theorem State.emit_packets (s : State) (o : Out) : (s.emit o).packets = s.packets := rfl
@[simp] theorem State.emit_slvReqs (s : State) (o : Out) : (s.emit o).slvReqs = s.slvReqs := rfl
@[simp] theorem State.emit_fpResps (s : State) (o : Out) : (s.emit o).fpResps = s.fpResps := rfl
@[simp] theorem State.emit_loHeld (s : State) (o : Out) : (s.emit o).loHeld = s.loHeld := rfl
@[simp] theorem State.emit_hiShadow (s : State) (o : Out) : (s.emit o).hiShadow = s.hiShadow := rfl
@[simp] theorem State.emit_last (s : State) (o : Out) : (s.emit o).last = s.last := rfl
@[simp] theorem State.emit_mrQueue (s : State) (o : Out) : (s.emit o).mrQueue = s.mrQueue := rfl
@[simp] theorem State.emit_wires (s : State) (o : Out) : (s.emit o).wires = s.wires := rfl
@[simp] theorem State.emit_walkFail (s : State) (o : Out) : (s.emit o).walkFail = s.walkFail := rfl
@[simp] theorem State.emit_wireErrs (s : State) (o : Out) : (s.emit o).wireErrs = s.wireErrs := rfl
@[simp] theorem State.emit_guards (s : State) (o : Out) : (s.emit o).guards = s.guards := rfl
@[simp] theorem State.emit_records (s : State) (o : Out) : (s.emit o).records = s.records := rfl

/-! ### What `answer` leaves -/

@[simp] theorem State.answer_pending (s : State) (r : MRes) (d : List Byte) : (s.answer r d).pending = s.pending := rfl
@[simp] theorem State.answer_cells (s : State) (r : MRes) (d : List Byte) : (s.answer r d).cells = s.cells := rfl
@[simp] theorem State.answer_mem (s : State) (r : MRes) (d : List Byte) : (s.answer r d).mem = s.mem := rfl
@[simp] theorem State.answer_info (s : State) (r : MRes) (d : List Byte) : (s.answer r d).info = s.info := rfl
@[simp] theorem State.answer_wback (s : State) (r : MRes) (d : List Byte) : (s.answer r d).wback = s.wback := rfl
@[simp] theorem State.answer_freeCtr (s : State) (r : MRes) (d : List Byte) : (s.answer r d).freeCtr = s.freeCtr := rfl
@[simp] theorem State.answer_laneBuf (s : State) (r : MRes) (d : List Byte) : (s.answer r d).laneBuf = s.laneBuf := rfl
@[simp] theorem State.answer_islFifo (s : State) (r : MRes) (d : List Byte) : (s.answer r d).islFifo = s.islFifo := rfl
@[simp] theorem State.answer_hopDelay (s : State) (r : MRes) (d : List Byte) : (s.answer r d).hopDelay = s.hopDelay := rfl
@[simp] theorem State.answer_hopOpen (s : State) (r : MRes) (d : List Byte) : (s.answer r d).hopOpen = s.hopOpen := rfl
@[simp] theorem State.answer_hopStage (s : State) (r : MRes) (d : List Byte) : (s.answer r d).hopStage = s.hopStage := rfl
@[simp] theorem State.answer_hopTail (s : State) (r : MRes) (d : List Byte) : (s.answer r d).hopTail = s.hopTail := rfl
@[simp] theorem State.answer_runLoops (s : State) (r : MRes) (d : List Byte) : (s.answer r d).runLoops = s.runLoops := rfl
@[simp] theorem State.answer_runQueue (s : State) (r : MRes) (d : List Byte) : (s.answer r d).runQueue = s.runQueue := rfl
@[simp] theorem State.answer_txLine (s : State) (r : MRes) (d : List Byte) : (s.answer r d).txLine = s.txLine := rfl
@[simp] theorem State.answer_fabVals (s : State) (r : MRes) (d : List Byte) : (s.answer r d).fabVals = s.fabVals := rfl
@[simp] theorem State.answer_tplCache (s : State) (r : MRes) (d : List Byte) : (s.answer r d).tplCache = s.tplCache := rfl
@[simp] theorem State.answer_keyFifo (s : State) (r : MRes) (d : List Byte) : (s.answer r d).keyFifo = s.keyFifo := rfl
@[simp] theorem State.answer_sluices (s : State) (r : MRes) (d : List Byte) : (s.answer r d).sluices = s.sluices := rfl
@[simp] theorem State.answer_fifos (s : State) (r : MRes) (d : List Byte) : (s.answer r d).fifos = s.fifos := rfl
@[simp] theorem State.answer_cache (s : State) (r : MRes) (d : List Byte) : (s.answer r d).cache = s.cache := rfl
@[simp] theorem State.answer_icache (s : State) (r : MRes) (d : List Byte) : (s.answer r d).icache = s.icache := rfl
@[simp] theorem State.answer_mstQueue (s : State) (r : MRes) (d : List Byte) : (s.answer r d).mstQueue = s.mstQueue := rfl
@[simp] theorem State.answer_streams (s : State) (r : MRes) (d : List Byte) : (s.answer r d).streams = s.streams := rfl
@[simp] theorem State.answer_rlkRetry (s : State) (r : MRes) (d : List Byte) : (s.answer r d).rlkRetry = s.rlkRetry := rfl
@[simp] theorem State.answer_rlkFifo (s : State) (r : MRes) (d : List Byte) : (s.answer r d).rlkFifo = s.rlkFifo := rfl
@[simp] theorem State.answer_packets (s : State) (r : MRes) (d : List Byte) : (s.answer r d).packets = s.packets := rfl
@[simp] theorem State.answer_slvReqs (s : State) (r : MRes) (d : List Byte) : (s.answer r d).slvReqs = s.slvReqs := rfl
@[simp] theorem State.answer_fpResps (s : State) (r : MRes) (d : List Byte) : (s.answer r d).fpResps = s.fpResps := rfl
@[simp] theorem State.answer_loHeld (s : State) (r : MRes) (d : List Byte) : (s.answer r d).loHeld = s.loHeld := rfl
@[simp] theorem State.answer_hiShadow (s : State) (r : MRes) (d : List Byte) : (s.answer r d).hiShadow = s.hiShadow := rfl
@[simp] theorem State.answer_mrQueue (s : State) (r : MRes) (d : List Byte) : (s.answer r d).mrQueue = s.mrQueue := rfl
@[simp] theorem State.answer_wires (s : State) (r : MRes) (d : List Byte) : (s.answer r d).wires = s.wires := rfl
@[simp] theorem State.answer_walkFail (s : State) (r : MRes) (d : List Byte) : (s.answer r d).walkFail = s.walkFail := rfl
@[simp] theorem State.answer_wireErrs (s : State) (r : MRes) (d : List Byte) : (s.answer r d).wireErrs = s.wireErrs := rfl
@[simp] theorem State.answer_guards (s : State) (r : MRes) (d : List Byte) : (s.answer r d).guards = s.guards := rfl
@[simp] theorem State.answer_records (s : State) (r : MRes) (d : List Byte) : (s.answer r d).records = s.records := rfl
@[simp] theorem State.answer_out (s : State) (r : MRes) (d : List Byte) : (s.answer r d).out = s.out := rfl

/-! ### What `setByte` leaves -/

@[simp] theorem State.setByte_pending (s : State) (a : Nat) (b : Byte) : (s.setByte a b).pending = s.pending := rfl
@[simp] theorem State.setByte_cells (s : State) (a : Nat) (b : Byte) : (s.setByte a b).cells = s.cells := rfl
@[simp] theorem State.setByte_info (s : State) (a : Nat) (b : Byte) : (s.setByte a b).info = s.info := rfl
@[simp] theorem State.setByte_wback (s : State) (a : Nat) (b : Byte) : (s.setByte a b).wback = s.wback := rfl
@[simp] theorem State.setByte_freeCtr (s : State) (a : Nat) (b : Byte) : (s.setByte a b).freeCtr = s.freeCtr := rfl
@[simp] theorem State.setByte_laneBuf (s : State) (a : Nat) (b : Byte) : (s.setByte a b).laneBuf = s.laneBuf := rfl
@[simp] theorem State.setByte_islFifo (s : State) (a : Nat) (b : Byte) : (s.setByte a b).islFifo = s.islFifo := rfl
@[simp] theorem State.setByte_hopDelay (s : State) (a : Nat) (b : Byte) : (s.setByte a b).hopDelay = s.hopDelay := rfl
@[simp] theorem State.setByte_hopOpen (s : State) (a : Nat) (b : Byte) : (s.setByte a b).hopOpen = s.hopOpen := rfl
@[simp] theorem State.setByte_hopStage (s : State) (a : Nat) (b : Byte) : (s.setByte a b).hopStage = s.hopStage := rfl
@[simp] theorem State.setByte_hopTail (s : State) (a : Nat) (b : Byte) : (s.setByte a b).hopTail = s.hopTail := rfl
@[simp] theorem State.setByte_runLoops (s : State) (a : Nat) (b : Byte) : (s.setByte a b).runLoops = s.runLoops := rfl
@[simp] theorem State.setByte_runQueue (s : State) (a : Nat) (b : Byte) : (s.setByte a b).runQueue = s.runQueue := rfl
@[simp] theorem State.setByte_txLine (s : State) (a : Nat) (b : Byte) : (s.setByte a b).txLine = s.txLine := rfl
@[simp] theorem State.setByte_fabVals (s : State) (a : Nat) (b : Byte) : (s.setByte a b).fabVals = s.fabVals := rfl
@[simp] theorem State.setByte_tplCache (s : State) (a : Nat) (b : Byte) : (s.setByte a b).tplCache = s.tplCache := rfl
@[simp] theorem State.setByte_keyFifo (s : State) (a : Nat) (b : Byte) : (s.setByte a b).keyFifo = s.keyFifo := rfl
@[simp] theorem State.setByte_sluices (s : State) (a : Nat) (b : Byte) : (s.setByte a b).sluices = s.sluices := rfl
@[simp] theorem State.setByte_fifos (s : State) (a : Nat) (b : Byte) : (s.setByte a b).fifos = s.fifos := rfl
@[simp] theorem State.setByte_cache (s : State) (a : Nat) (b : Byte) : (s.setByte a b).cache = s.cache := rfl
@[simp] theorem State.setByte_icache (s : State) (a : Nat) (b : Byte) : (s.setByte a b).icache = s.icache := rfl
@[simp] theorem State.setByte_mstQueue (s : State) (a : Nat) (b : Byte) : (s.setByte a b).mstQueue = s.mstQueue := rfl
@[simp] theorem State.setByte_streams (s : State) (a : Nat) (b : Byte) : (s.setByte a b).streams = s.streams := rfl
@[simp] theorem State.setByte_rlkRetry (s : State) (a : Nat) (b : Byte) : (s.setByte a b).rlkRetry = s.rlkRetry := rfl
@[simp] theorem State.setByte_rlkFifo (s : State) (a : Nat) (b : Byte) : (s.setByte a b).rlkFifo = s.rlkFifo := rfl
@[simp] theorem State.setByte_packets (s : State) (a : Nat) (b : Byte) : (s.setByte a b).packets = s.packets := rfl
@[simp] theorem State.setByte_slvReqs (s : State) (a : Nat) (b : Byte) : (s.setByte a b).slvReqs = s.slvReqs := rfl
@[simp] theorem State.setByte_fpResps (s : State) (a : Nat) (b : Byte) : (s.setByte a b).fpResps = s.fpResps := rfl
@[simp] theorem State.setByte_loHeld (s : State) (a : Nat) (b : Byte) : (s.setByte a b).loHeld = s.loHeld := rfl
@[simp] theorem State.setByte_hiShadow (s : State) (a : Nat) (b : Byte) : (s.setByte a b).hiShadow = s.hiShadow := rfl
@[simp] theorem State.setByte_last (s : State) (a : Nat) (b : Byte) : (s.setByte a b).last = s.last := rfl
@[simp] theorem State.setByte_mrQueue (s : State) (a : Nat) (b : Byte) : (s.setByte a b).mrQueue = s.mrQueue := rfl
@[simp] theorem State.setByte_wires (s : State) (a : Nat) (b : Byte) : (s.setByte a b).wires = s.wires := rfl
@[simp] theorem State.setByte_walkFail (s : State) (a : Nat) (b : Byte) : (s.setByte a b).walkFail = s.walkFail := rfl
@[simp] theorem State.setByte_wireErrs (s : State) (a : Nat) (b : Byte) : (s.setByte a b).wireErrs = s.wireErrs := rfl
@[simp] theorem State.setByte_guards (s : State) (a : Nat) (b : Byte) : (s.setByte a b).guards = s.guards := rfl
@[simp] theorem State.setByte_records (s : State) (a : Nat) (b : Byte) : (s.setByte a b).records = s.records := rfl
@[simp] theorem State.setByte_out (s : State) (a : Nat) (b : Byte) : (s.setByte a b).out = s.out := rfl

/-! ### Reading after writing -/

theorem State.rd_wr_same (s : State) (f : Fld) (v : Nat) : (s.wr f v).rd f = v % 2 ^ f.w := by
  simp [State.rd, State.wr, Tab.getD_set_same]

theorem State.rd_wr_ne (s : State) {f g : Fld} (v : Nat) (h : g.key ≠ f.key) : (s.wr f v).rd g = s.rd g := by
  simp [State.rd, State.wr, Tab.getD_set_ne _ _ _ _ h]

theorem State.rd_clr_same (s : State) (f : Fld) : (s.clr f).rd f = f.rst % 2 ^ f.w := by
  simp [State.rd, State.clr, Tab.getD_del_same]

/-- Every field is within its width. -/
theorem State.rd_lt (s : State) (f : Fld) : s.rd f < 2 ^ f.w := Nat.mod_lt _ (Nat.two_pow_pos _)

theorem State.rd_clr_ne (s : State) {f g : Fld} (h : g.key ≠ f.key) : (s.clr f).rd g = s.rd g := by
  simp [State.rd, State.clr, Tab.getD_del_ne _ _ h]

@[simp] theorem State.rd_emit (s : State) (o : Out) (f : Fld) : (s.emit o).rd f = s.rd f := rfl
@[simp] theorem State.rd_answer (s : State) (r : MRes) (d : List Byte) (f : Fld) : (s.answer r d).rd f = s.rd f := rfl
@[simp] theorem State.rd_setByte (s : State) (a : Nat) (b : Byte) (f : Fld) : (s.setByte a b).rd f = s.rd f := rfl
@[simp] theorem State.byte_wr (s : State) (f : Fld) (v a : Nat) : (s.wr f v).byte a = s.byte a := rfl
@[simp] theorem State.byte_clr (s : State) (f : Fld) (a : Nat) : (s.clr f).byte a = s.byte a := rfl

/-- A byte read after it has been written. -/
theorem State.byte_setByte_same (s : State) (a : Nat) (b : Byte) : (s.setByte a b).byte a = b := by
  simp [State.byte, State.setByte, Tab.getD_set_same]

/-- Every other byte stays. -/
theorem State.byte_setByte_ne (s : State) {a c : Nat} (b : Byte) (h : c ≠ a) : (s.setByte a b).byte c = s.byte c := by
  simp [State.byte, State.setByte, Tab.getD_set_ne _ _ _ _ h]

/-- Bytes outside those written stay. -/
theorem State.byte_writeMem_out (s : State) (a : Nat) (l : List Byte) (c : Nat) (h : c < a ∨ a + l.length ≤ c) :
    (s.writeMem a l).byte c = s.byte c := by
  induction l generalizing s a with
  | nil => rfl
  | cons x r ih =>
    simp only [State.writeMem, List.length_cons] at h ⊢
    rw [ih _ _ (by omega), State.byte_setByte_ne _ _ (by omega)]

/-- Bytes written read as written. -/
theorem State.byte_writeMem_in (s : State) (a : Nat) (l : List Byte) (i : Nat) (h : i < l.length) :
    (s.writeMem a l).byte (a + i) = l[i] := by
  induction l generalizing s a i with
  | nil => simp at h
  | cons x r ih =>
    cases i with
    | zero =>
      simp only [State.writeMem, Nat.add_zero, List.getElem_cons_zero]
      rw [State.byte_writeMem_out _ _ _ _ (by omega), State.byte_setByte_same]
    | succ n =>
      simp only [State.writeMem, List.getElem_cons_succ]
      have := ih (s.setByte a x) (a + 1) n (by simpa using h)
      rwa [show a + 1 + n = a + (n + 1) by omega] at this

/-! ### The canonical form of memory -/

theorem Memory.wf_filter (p : Nat × Byte → Bool) {m : List Host.Cell} (h : Memory.wf m = true) : Memory.wf (m.filter p) = true := by
  simp only [Memory.wf, Bool.and_eq_true, List.all_eq_true] at h ⊢
  exact ⟨Tab.wf_filter p h.1, fun c hc => h.2 c (List.mem_of_mem_filter hc)⟩

theorem Memory.wf_delRange {m : List Host.Cell} (lo hi : Nat) (h : Memory.wf m = true) :
    Memory.wf (Tab.delRange m lo hi) = true := Memory.wf_filter _ h

theorem Memory.wf_set {m : List Host.Cell} (a : Nat) (b : Byte) (h : Memory.wf m = true) :
    Memory.wf (Tab.set m a memDefault b) = true := by
  unfold Tab.set
  split
  · exact Memory.wf_filter _ h
  · rename_i hb
    simp only [Memory.wf, Bool.and_eq_true, List.all_eq_true] at h ⊢
    refine ⟨Tab.wf_put a b h.1, fun c hc => ?_⟩
    simp only [Tab.put, List.mem_append, List.mem_cons] at hc
    rcases hc with hc | rfl | hc
    · exact h.2 c (List.mem_of_mem_filter hc)
    · simpa using hb
    · exact h.2 c (List.mem_of_mem_filter hc)

/-- Every operation on bytes of memory keeps the canonical form. -/
theorem State.wf_setByte (s : State) (a : Nat) (b : Byte) (h : Memory.wf s.mem = true) : Memory.wf (s.setByte a b).mem = true :=
  Memory.wf_set a b h

theorem State.wf_writeMem (l : List Byte) : ∀ (s : State) (a : Nat), Memory.wf s.mem = true → Memory.wf (s.writeMem a l).mem = true := by
  induction l with
  | nil => exact fun s a h => h
  | cons x r ih => exact fun s a h => ih _ _ (State.wf_setByte s a x h)

end Sys2Proof.Machine
end

