-- ==== Sys2Proof/Laws/Ok.lean ====
section
/-! SUPPORT. The rules by which an operation is seen to keep the state canonical and its queue (`State.Ok`): conditionals, local
definitions, iterations and the first operations. -/

namespace Sys2Proof.Machine

variable {q : List Instr}

theorem ok_ite {c : Prop} [Decidable c] {a b : State} (ha : State.Ok q a) (hb : State.Ok q b) : State.Ok q (if c then a else b) := by
  split <;> assumption

theorem ok_match_opt {o : Option State} {d : State} (h : ∀ t, o = some t → State.Ok q t) (hd : State.Ok q d) :
    State.Ok q (o.getD d) := by
  cases o with
  | none => exact hd
  | some t => exact h t rfl

theorem ok_foldl {α : Type} {f : State → α → State} {l : List α} {s : State} (h : ∀ t a, State.Ok q t → State.Ok q (f t a))
    (hs : State.Ok q s) : State.Ok q (l.foldl f s) := by
  induction l generalizing s with
  | nil => exact hs
  | cons a r ih => exact ih (h s a hs)

theorem ok_foldl2 {α β : Type} {f : β × State → α → β × State} {l : List α} {x : β × State}
    (h : ∀ t a, State.Ok q t.2 → State.Ok q (f t a).2) (hs : State.Ok q x.2) : State.Ok q (l.foldl f x).2 := by
  induction l generalizing x with
  | nil => exact hs
  | cons a r ih => exact ih (h x a hs)

theorem ok_foldl3 {α β γ : Type} {f : β × γ × State → α → β × γ × State} {l : List α} {x : β × γ × State}
    (h : ∀ t a, State.Ok q t.2.2 → State.Ok q (f t a).2.2) (hs : State.Ok q x.2.2) : State.Ok q (l.foldl f x).2.2 := by
  induction l generalizing x with
  | nil => exact hs
  | cons a r ih => exact ih (h x a hs)

theorem ok_foldl1 {α β : Type} {f : State × β → α → State × β} {l : List α} {x : State × β}
    (h : ∀ t a, State.Ok q t.1 → State.Ok q (f t a).1) (hs : State.Ok q x.1) : State.Ok q (l.foldl f x).1 := by
  induction l generalizing x with
  | nil => exact hs
  | cons a r ih => exact ih (h x a hs)

theorem ok_mk {pending cells mem info wback freeCtr laneBuf islFifo hopDelay hopOpen hopStage hopTail runLoops runQueue txLine fabVals
    tplCache keyFifo sluices fifos cache icache mstQueue streams rlkRetry rlkFifo packets slvReqs fpResps loHeld hiShadow
    last mrQueue wires walkFail wireErrs guards records out : _} (h1 : pending = q) (h2 : Memory.wf mem = true)
    (h3 : Tab.wf cells = true) (h4 : records.length ≤ 4096) :
    State.Ok q (State.mk pending cells mem info wback freeCtr laneBuf islFifo hopDelay hopOpen hopStage hopTail runLoops runQueue txLine fabVals
    tplCache keyFifo sluices fifos cache icache mstQueue streams rlkRetry rlkFifo packets slvReqs fpResps loHeld hiShadow
    last mrQueue wires walkFail wireErrs guards records out) := ⟨h1, h2, h3, h4⟩

theorem ok_mk_iff {pending cells mem info wback freeCtr laneBuf islFifo hopDelay hopOpen hopStage hopTail runLoops runQueue txLine fabVals
    tplCache keyFifo sluices fifos cache icache mstQueue streams rlkRetry rlkFifo packets slvReqs fpResps loHeld hiShadow
    last mrQueue wires walkFail wireErrs guards records out : _} :
    State.Ok q (State.mk pending cells mem info wback freeCtr laneBuf islFifo hopDelay hopOpen hopStage hopTail runLoops runQueue txLine fabVals
    tplCache keyFifo sluices fifos cache icache mstQueue streams rlkRetry rlkFifo packets slvReqs fpResps loHeld hiShadow
    last mrQueue wires walkFail wireErrs guards records out) ↔
      pending = q ∧ Memory.wf mem = true ∧ Tab.wf cells = true ∧ records.length ≤ 4096 :=
  ⟨fun h => ⟨h.1, h.2.1, h.2.2, h.2.3⟩, fun h => ⟨h.1, h.2.1, h.2.2.1, h.2.2.2⟩⟩

theorem ok_some {s t : State} (h : State.Ok q s) : some s = some t → State.Ok q t := fun e => Option.some.inj e ▸ h
theorem ok_none {t : State} : none = some t → State.Ok q t := fun e => nomatch e
theorem ok_some2 {β : Type} {s t : β × State} (h : State.Ok q s.2) : some s = some t → State.Ok q t.2 := fun e => Option.some.inj e ▸ h
theorem ok_none2 {β : Type} {t : β × State} : none = some t → State.Ok q t.2 := fun e => nomatch e
theorem ok_some3 {β γ : Type} {s t : β × γ × State} (h : State.Ok q s.2.2) : some s = some t → State.Ok q t.2.2 :=
  fun e => Option.some.inj e ▸ h
theorem ok_none3 {β γ : Type} {t : β × γ × State} : none = some t → State.Ok q t.2.2 := fun e => nomatch e

theorem State.Ok.m {s : State} (h : State.Ok q s) : Memory.wf s.mem = true := h.canon.mem
theorem State.Ok.c {s : State} (h : State.Ok q s) : Tab.wf s.cells = true := h.canon.cells
theorem State.Ok.r {s : State} (h : State.Ok q s) : s.records.length ≤ 4096 := h.canon.records

theorem out_next {s : State} (h : State.Ok q s) : OutOk q (.next s) := by
  intro t ht; cases ht; exact h

theorem out_ite {c : Prop} [Decidable c] {a b : Host.Outcome State Fault Refusal} (ha : OutOk q a) (hb : OutOk q b) :
    OutOk q (if c then a else b) := by
  split <;> assumption

end Sys2Proof.Machine
end

