-- ==== Sys2Proof/Laws/OkOps.lean ====
section
/-! SUPPORT. What the operations of Machine/Ops.lean keep: the canonical form of the state and its queue. -/

namespace Sys2Proof.Machine

theorem State.wr_ok {q : List Instr} (a0 : State) (a1) (a2) (h0 : State.Ok q a0) : State.Ok q (State.wr a0 a1 a2) := by
  unfold State.wr
  repeat' first
    | intro _
    | with_reducible assumption
    | with_reducible apply ok_ite
    | dsimp only
    | (rw [ok_mk_iff]; refine ⟨?_, ?_, ?_, ?_⟩)
    | with_reducible refine State.Ok.pending ?_
    | with_reducible apply State.Ok.m
    | with_reducible apply State.Ok.c
    | with_reducible apply State.Ok.r
    | with_reducible apply Tab.wf_set
    | with_reducible apply Tab.wf_put
    | with_reducible apply Tab.wf_delRange
    | with_reducible apply Tab.wf_del
    | with_reducible apply Tab.wf_filter

theorem State.wrIf_ok {q : List Instr} (a0 : State) (a1) (a2) (a3) (h0 : State.Ok q a0) : State.Ok q (State.wrIf a0 a1 a2 a3) := by
  unfold State.wrIf
  repeat' first
    | intro _
    | with_reducible assumption
    | with_reducible apply ok_ite
    | with_reducible apply State.wr_ok
    | dsimp only
    | split

theorem State.clr_ok {q : List Instr} (a0 : State) (a1) (h0 : State.Ok q a0) : State.Ok q (State.clr a0 a1) := by
  unfold State.clr
  repeat' first
    | intro _
    | with_reducible assumption
    | with_reducible apply ok_ite
    | dsimp only
    | (rw [ok_mk_iff]; refine ⟨?_, ?_, ?_, ?_⟩)
    | with_reducible refine State.Ok.pending ?_
    | with_reducible apply State.Ok.m
    | with_reducible apply State.Ok.c
    | with_reducible apply State.Ok.r
    | with_reducible apply Tab.wf_set
    | with_reducible apply Tab.wf_put
    | with_reducible apply Tab.wf_delRange
    | with_reducible apply Tab.wf_del
    | with_reducible apply Tab.wf_filter

theorem State.inc_ok {q : List Instr} (a0 : State) (a1) (a2) (h0 : State.Ok q a0) : State.Ok q (State.inc a0 a1 a2) := by
  unfold State.inc
  repeat' first
    | intro _
    | with_reducible assumption
    | with_reducible apply ok_ite
    | with_reducible apply State.wr_ok
    | dsimp only

theorem State.add_ok {q : List Instr} (a0 : State) (a1) (a2) (h0 : State.Ok q a0) : State.Ok q (State.add a0 a1 a2) := by
  unfold State.add
  repeat' first
    | intro _
    | with_reducible assumption
    | with_reducible apply ok_ite
    | with_reducible apply State.wr_ok
    | dsimp only

theorem State.setB_ok {q : List Instr} (a0 : State) (a1) (a2) (h0 : State.Ok q a0) : State.Ok q (State.setB a0 a1 a2) := by
  unfold State.setB
  repeat' first
    | intro _
    | with_reducible assumption
    | with_reducible apply ok_ite
    | with_reducible apply State.wr_ok
    | dsimp only

theorem State.clrB_ok {q : List Instr} (a0 : State) (a1) (a2) (h0 : State.Ok q a0) : State.Ok q (State.clrB a0 a1 a2) := by
  unfold State.clrB
  repeat' first
    | intro _
    | with_reducible assumption
    | with_reducible apply ok_ite
    | with_reducible apply State.wr_ok
    | dsimp only

theorem State.each_ok {q : List Instr} {α : Type} (l : List α) (f : α → State → State) (s : State)
    (hf : ∀ a t, State.Ok q t → State.Ok q (f a t)) (h : State.Ok q s) : State.Ok q (State.each l f s) := by
  unfold State.each
  exact ok_foldl (fun t a ht => hf a t ht) h

theorem State.discard_ok {q : List Instr} (a0 : State) (a1) (h0 : State.Ok q a0) : State.Ok q (State.discard a0 a1) := by
  unfold State.discard
  repeat' first
    | intro _
    | with_reducible assumption
    | with_reducible apply ok_ite
    | dsimp only
    | (rw [ok_mk_iff]; refine ⟨?_, ?_, ?_, ?_⟩)
    | with_reducible refine State.Ok.pending ?_
    | with_reducible apply State.Ok.m
    | with_reducible apply State.Ok.c
    | with_reducible apply State.Ok.r

theorem State.discardBlocks_ok {q : List Instr} (a0 : State) (a1) (a2) (h0 : State.Ok q a0) : State.Ok q (State.discardBlocks a0 a1 a2) := by
  unfold State.discardBlocks
  repeat' first
    | intro _
    | with_reducible assumption
    | with_reducible apply ok_ite
    | with_reducible apply State.discard_ok
    | dsimp only

theorem State.discardMaster_ok {q : List Instr} (a0 : State) (a1) (h0 : State.Ok q a0) : State.Ok q (State.discardMaster a0 a1) := by
  unfold State.discardMaster
  repeat' first
    | intro _
    | with_reducible assumption
    | with_reducible apply ok_ite
    | with_reducible apply State.discard_ok
    | dsimp only

theorem State.resetBlocks_ok {q : List Instr} (a0 : State) (a1) (a2) (h0 : State.Ok q a0) : State.Ok q (State.resetBlocks a0 a1 a2) := by
  unfold State.resetBlocks
  repeat' first
    | intro _
    | with_reducible assumption
    | with_reducible apply ok_ite
    | with_reducible apply State.discardBlocks_ok
    | dsimp only
    | (rw [ok_mk_iff]; refine ⟨?_, ?_, ?_, ?_⟩)
    | with_reducible refine State.Ok.pending ?_
    | with_reducible apply State.Ok.m
    | with_reducible apply State.Ok.c
    | with_reducible apply State.Ok.r
    | with_reducible apply Tab.wf_set
    | with_reducible apply Tab.wf_put
    | with_reducible apply Tab.wf_delRange
    | with_reducible apply Tab.wf_del
    | with_reducible apply Tab.wf_filter

theorem State.keeping_ok {q : List Instr} (a0) (a1) (a2 : State) (h1 : ∀ t, State.Ok q t → State.Ok q (a1 t)) (h2 : State.Ok q a2) : State.Ok q (State.keeping a0 a1 a2) := by
  unfold State.keeping
  repeat' first
    | intro _
    | with_reducible assumption
    | with_reducible apply ok_ite
    | with_reducible apply h1
    | with_reducible apply State.wr_ok
    | with_reducible apply ok_foldl
    | with_reducible apply ok_foldl2
    | with_reducible apply ok_foldl3
    | dsimp only

theorem State.fresh_ok {q : List Instr} (a0 : State) (h0 : State.Ok q a0) : State.Ok q (State.fresh a0).2 := by
  unfold State.fresh
  repeat' first
    | intro _
    | with_reducible assumption
    | with_reducible apply ok_ite
    | dsimp only
    | (rw [ok_mk_iff]; refine ⟨?_, ?_, ?_, ?_⟩)
    | with_reducible refine State.Ok.pending ?_
    | with_reducible apply State.Ok.m
    | with_reducible apply State.Ok.c
    | with_reducible apply State.Ok.r

theorem State.fresh_okE {q : List Instr} {a0 : State} {b t} (e : State.fresh a0 = (b, t)) (h0 : State.Ok q a0) : State.Ok q t := by
  have := State.fresh_ok a0 h0
  rw [e] at this; exact this

theorem State.wrFree_ok {q : List Instr} (a0 : State) (a1) (h0 : State.Ok q a0) : State.Ok q (State.wrFree a0 a1) := by
  unfold State.wrFree
  repeat' first
    | intro _
    | with_reducible assumption
    | with_reducible apply ok_ite
    | with_reducible apply State.fresh_ok
    | with_reducible refine State.fresh_okE (by assumption) ?_
    | with_reducible apply State.wr_ok
    | dsimp only

theorem State.emit_ok {q : List Instr} (a0 : State) (a1) (h0 : State.Ok q a0) : State.Ok q (State.emit a0 a1) := by
  unfold State.emit
  repeat' first
    | intro _
    | with_reducible assumption
    | with_reducible apply ok_ite
    | dsimp only
    | (rw [ok_mk_iff]; refine ⟨?_, ?_, ?_, ?_⟩)
    | with_reducible refine State.Ok.pending ?_
    | with_reducible apply State.Ok.m
    | with_reducible apply State.Ok.c
    | with_reducible apply State.Ok.r

theorem State.emitPins_ok {q : List Instr} (a0 : State) (a1) (h0 : State.Ok q a0) : State.Ok q (State.emitPins a0 a1) := by
  unfold State.emitPins
  repeat' first
    | intro _
    | with_reducible assumption
    | with_reducible apply ok_ite
    | with_reducible apply State.emit_ok
    | dsimp only
    | split

theorem State.setByte_ok {q : List Instr} (a0 : State) (a1) (a2) (h0 : State.Ok q a0) : State.Ok q (State.setByte a0 a1 a2) := by
  unfold State.setByte
  repeat' first
    | intro _
    | with_reducible assumption
    | with_reducible apply ok_ite
    | dsimp only
    | (rw [ok_mk_iff]; refine ⟨?_, ?_, ?_, ?_⟩)
    | with_reducible refine State.Ok.pending ?_
    | with_reducible apply State.Ok.m
    | with_reducible apply State.Ok.c
    | with_reducible apply State.Ok.r
    | with_reducible apply Memory.wf_delRange
    | with_reducible apply Memory.wf_set
    | with_reducible apply Memory.wf_filter

theorem State.writeMem_ok {q : List Instr} (a0 : State) (a1) (a2) (h0 : State.Ok q a0) : State.Ok q (State.writeMem a0 a1 a2) := by
  induction a2 generalizing a0 a1 with
  | nil => exact h0
  | cons b r ih => exact ih _ _ (State.setByte_ok _ _ _ h0)

theorem State.touPulse_ok {q : List Instr} (a0 : State) (a1) (h0 : State.Ok q a0) : State.Ok q (State.touPulse a0 a1) := by
  unfold State.touPulse
  repeat' first
    | intro _
    | with_reducible assumption
    | with_reducible apply ok_ite
    | with_reducible apply State.wr_ok
    | dsimp only

theorem State.msixSend_ok {q : List Instr} (a0 : State) (a1) (h0 : State.Ok q a0) : State.Ok q (State.msixSend a0 a1) := by
  unfold State.msixSend
  repeat' first
    | intro _
    | with_reducible assumption
    | with_reducible apply ok_ite
    | with_reducible apply State.wr_ok
    | with_reducible apply State.emit_ok
    | dsimp only
    | split

theorem State.niCounts_ok {q : List Instr} (a0) (a1 : State) (h1 : State.Ok q a1) : State.Ok q (State.niCounts a0 a1) := by
  unfold State.niCounts
  repeat' first
    | intro _
    | with_reducible assumption
    | with_reducible apply ok_ite
    | with_reducible apply State.wr_ok
    | dsimp only
    | split

theorem State.enqueue_ok {q : List Instr} (a0 : State) (a1) (h0 : State.Ok q a0) : State.Ok q (State.enqueue a0 a1) := by
  unfold State.enqueue
  repeat' first
    | intro _
    | with_reducible assumption
    | with_reducible apply ok_ite
    | with_reducible apply State.add_ok
    | with_reducible apply State.niCounts_ok
    | dsimp only
    | (rw [ok_mk_iff]; refine ⟨?_, ?_, ?_, ?_⟩)
    | with_reducible refine State.Ok.pending ?_
    | with_reducible apply State.Ok.m
    | with_reducible apply State.Ok.c
    | with_reducible apply State.Ok.r

theorem State.sysPost_ok {q : List Instr} (a0 : State) (a1) (a2) (a3) (a4) (h0 : State.Ok q a0) : State.Ok q (State.sysPost a0 a1 a2 a3 a4) := by
  unfold State.sysPost
  repeat' first
    | intro _
    | with_reducible assumption
    | with_reducible apply ok_ite
    | with_reducible apply State.enqueue_ok
    | dsimp only

theorem State.evtFab_ok {q : List Instr} (a0 : State) (a1) (h0 : State.Ok q a0) : State.Ok q (State.evtFab a0 a1) := by
  unfold State.evtFab
  repeat' first
    | intro _
    | with_reducible assumption
    | with_reducible apply ok_ite
    | with_reducible apply State.sysPost_ok
    | dsimp only
    | split

theorem State.postLost_ok {q : List Instr} (a0 : State) (a1) (h0 : State.Ok q a0) : State.Ok q (State.postLost a0 a1) := by
  unfold State.postLost
  repeat' first
    | intro _
    | with_reducible assumption
    | with_reducible apply ok_ite
    | with_reducible apply State.inc_ok
    | dsimp only
    | split

theorem State.evtTout_ok {q : List Instr} (a0 : State) (a1) (h0 : State.Ok q a0) : State.Ok q (State.evtTout a0 a1) := by
  unfold State.evtTout
  repeat' first
    | intro _
    | with_reducible assumption
    | with_reducible apply ok_ite
    | with_reducible apply State.touPulse_ok
    | dsimp only
    | split

theorem State.raise_ok {q : List Instr} (a0 : State) (a1) (h0 : State.Ok q a0) : State.Ok q (State.raise a0 a1) := by
  unfold State.raise
  repeat' first
    | intro _
    | with_reducible assumption
    | with_reducible apply ok_ite
    | with_reducible apply State.setB_ok
    | with_reducible apply State.msixSend_ok
    | with_reducible apply State.evtFab_ok
    | with_reducible apply State.evtTout_ok
    | dsimp only
    | split

theorem State.raiseB_ok {q : List Instr} (a0 : State) (a1) (a2) (a3) (h0 : State.Ok q a0) : State.Ok q (State.raiseB a0 a1 a2 a3) := by
  unfold State.raiseB
  repeat' first
    | intro _
    | with_reducible assumption
    | with_reducible apply ok_ite
    | with_reducible apply State.setB_ok
    | with_reducible apply State.raise_ok
    | dsimp only

theorem State.rejMark_ok {q : List Instr} (a0 : State) (a1) (a2) (h0 : State.Ok q a0) : State.Ok q (State.rejMark a0 a1 a2) := by
  unfold State.rejMark
  repeat' first
    | intro _
    | with_reducible assumption
    | with_reducible apply ok_ite
    | with_reducible apply State.wr_ok
    | dsimp only

theorem State.reject_ok {q : List Instr} (a0 : State) (a1) (a2) (a3) (h0 : State.Ok q a0) : State.Ok q (State.reject a0 a1 a2 a3) := by
  unfold State.reject
  repeat' first
    | intro _
    | with_reducible assumption
    | with_reducible apply ok_ite
    | with_reducible apply State.rejMark_ok
    | with_reducible apply State.raise_ok
    | dsimp only

theorem State.deny_ok {q : List Instr} (a0 : State) (a1) (h0 : State.Ok q a0) : State.Ok q (State.deny a0 a1) := by
  unfold State.deny
  repeat' first
    | intro _
    | with_reducible assumption
    | with_reducible apply ok_ite
    | with_reducible apply State.wr_ok
    | dsimp only

theorem State.recBegin_ok {q : List Instr} (a0 : State) (h0 : State.Ok q a0) : State.Ok q (State.recBegin a0) := by
  unfold State.recBegin
  repeat' first
    | intro _
    | with_reducible assumption
    | with_reducible apply ok_ite
    | with_reducible apply State.wr_ok
    | dsimp only

theorem State.recEnd_ok {q : List Instr} (a0 : State) (a1) (h0 : State.Ok q a0) : State.Ok q (State.recEnd a0 a1) := by
  unfold State.recEnd
  repeat' first
    | intro _
    | with_reducible assumption
    | with_reducible apply ok_ite
    | with_reducible apply State.setB_ok
    | with_reducible apply State.wr_ok
    | dsimp only
    | split
    | (rw [ok_mk_iff]; refine ⟨?_, ?_, ?_, ?_⟩)
    | with_reducible refine State.Ok.pending ?_
    | with_reducible apply State.Ok.m
    | with_reducible apply State.Ok.c
    | with_reducible apply State.Ok.r

theorem State.bgRoll_ok {q : List Instr} (a0 : State) (a1) (a2) (h0 : State.Ok q a0) : State.Ok q (State.bgRoll a0 a1 a2) := by
  unfold State.bgRoll
  repeat' first
    | intro _
    | with_reducible assumption
    | with_reducible apply ok_ite
    | with_reducible apply State.wrIf_ok
    | with_reducible apply State.wr_ok
    | dsimp only

theorem State.bgSpend_ok {q : List Instr} (a0 : State) (a1) (a2) (a3) {t} (h0 : State.Ok q a0) (e : State.bgSpend a0 a1 a2 a3 = some t) : State.Ok q t := by
  unfold State.bgSpend at e
  revert e
  repeat' first
    | with_reducible refine ok_none
    | with_reducible refine ok_some ?_
    | with_reducible assumption
    | with_reducible apply ok_ite
    | with_reducible apply State.add_ok
    | dsimp only
    | split
    | intro _

theorem State.bgTake_ok {q : List Instr} (a0 : State) (a1) (a2) (a3) {t} (h0 : State.Ok q a0) (e : State.bgTake a0 a1 a2 a3 = some t) : State.Ok q t := by
  unfold State.bgTake at e
  revert e
  repeat' first
    | with_reducible refine ok_none
    | with_reducible refine ok_some ?_
    | with_reducible assumption
    | with_reducible apply ok_ite
    | with_reducible apply State.bgRoll_ok
    | with_reducible refine State.bgSpend_ok _ _ _ _ ?_ (by assumption)
    | dsimp only
    | intro _

theorem State.engTake_ok {q : List Instr} (a0 : State) (a1) {t} (h0 : State.Ok q a0) (e : State.engTake a0 a1 = some t) : State.Ok q t := by
  unfold State.engTake at e
  revert e
  repeat' first
    | with_reducible refine ok_none
    | with_reducible refine ok_some ?_
    | with_reducible assumption
    | with_reducible apply ok_ite
    | with_reducible apply State.bgRoll_ok
    | with_reducible refine State.bgSpend_ok _ _ _ _ ?_ (by assumption)
    | dsimp only
    | intro _

theorem State.dahTake_ok {q : List Instr} (a0 : State) (a1) (a2) {t} (h0 : State.Ok q a0) (e : State.dahTake a0 a1 a2 = some t) : State.Ok q t := by
  unfold State.dahTake at e
  revert e
  repeat' first
    | with_reducible refine ok_none
    | with_reducible refine ok_some ?_
    | with_reducible assumption
    | with_reducible apply ok_ite
    | with_reducible refine State.bgTake_ok _ _ _ _ ?_ (by assumption)
    | dsimp only
    | split
    | intro _

theorem State.buildQueue_ok {q : List Instr} (a0 : State) (a1) (a2) (h0 : State.Ok q a0) : State.Ok q (State.buildQueue a0 a1 a2) := by
  unfold State.buildQueue
  repeat' first
    | intro _
    | with_reducible assumption
    | with_reducible apply ok_ite
    | with_reducible apply State.setB_ok
    | with_reducible apply State.wr_ok
    | dsimp only
    | (rw [ok_mk_iff]; refine ⟨?_, ?_, ?_, ?_⟩)
    | with_reducible refine State.Ok.pending ?_
    | with_reducible apply State.Ok.m
    | with_reducible apply State.Ok.c
    | with_reducible apply State.Ok.r

theorem State.bstAborted_ok {q : List Instr} (a0 : State) (h0 : State.Ok q a0) : State.Ok q (State.bstAborted a0) := by
  unfold State.bstAborted
  repeat' first
    | intro _
    | with_reducible assumption
    | with_reducible apply ok_ite
    | with_reducible apply State.wr_ok
    | dsimp only

theorem State.telEvt_ok {q : List Instr} (a0 : State) (a1) (h0 : State.Ok q a0) : State.Ok q (State.telEvt a0 a1) := by
  unfold State.telEvt
  repeat' first
    | intro _
    | with_reducible assumption
    | with_reducible apply ok_ite
    | with_reducible apply State.raiseB_ok
    | dsimp only

theorem State.corePc_ok {q : List Instr} (a0 : State) (a1) (h0 : State.Ok q a0) : State.Ok q (State.corePc a0 a1) := by
  unfold State.corePc
  repeat' first
    | intro _
    | with_reducible assumption
    | with_reducible apply ok_ite
    | with_reducible apply State.wr_ok
    | with_reducible apply State.wrFree_ok
    | dsimp only
    | split

theorem State.journalWith_ok {q : List Instr} (a0 : State) (a1) (a2) (a3) (h0 : State.Ok q a0) : State.Ok q (State.journalWith a0 a1 a2 a3) := by
  unfold State.journalWith
  repeat' first
    | intro _
    | with_reducible assumption
    | with_reducible apply ok_ite
    | with_reducible apply State.inc_ok
    | with_reducible apply State.telEvt_ok
    | with_reducible apply State.wr_ok
    | dsimp only
    | split

theorem State.journal_ok {q : List Instr} (a0 : State) (a1) (a2) (h0 : State.Ok q a0) : State.Ok q (State.journal a0 a1 a2) := by
  unfold State.journal
  repeat' first
    | intro _
    | with_reducible assumption
    | with_reducible apply ok_ite
    | with_reducible apply State.each_ok
    | with_reducible apply State.corePc_ok
    | with_reducible apply State.journalWith_ok
    | dsimp only

theorem State.answer_ok {q : List Instr} (a0 : State) (a1) (a2) (h0 : State.Ok q a0) : State.Ok q (State.answer a0 a1 a2) := by
  unfold State.answer
  repeat' first
    | intro _
    | with_reducible assumption
    | with_reducible apply ok_ite
    | dsimp only
    | (rw [ok_mk_iff]; refine ⟨?_, ?_, ?_, ?_⟩)
    | with_reducible refine State.Ok.pending ?_
    | with_reducible apply State.Ok.m
    | with_reducible apply State.Ok.c
    | with_reducible apply State.Ok.r

theorem State.repairRecord_ok {q : List Instr} (a0 : State) (a1) {t} (h0 : State.Ok q a0) (e : State.repairRecord a0 a1 = some t) :
    State.Ok q t := by
  unfold State.repairRecord at e
  split at e
  · exact ok_some h0 e
  · split at e
    · exact ok_none e
    · rename_i hn
      refine ok_some ?_ e
      with_reducible apply State.raiseB_ok
      with_reducible apply State.wr_ok
      with_reducible apply State.wr_ok
      refine ok_mk h0.1 h0.m h0.c ?_
      simp only [List.length_append, List.length_singleton]
      omega

theorem State.calDone_ok {q : List Instr} (a0 : State) (a1) (a2) (h0 : State.Ok q a0) : State.Ok q (State.calDone a0 a1 a2) := by
  unfold State.calDone
  repeat' first
    | intro _
    | with_reducible assumption
    | with_reducible apply ok_ite
    | with_reducible apply State.add_ok
    | with_reducible apply State.wr_ok
    | dsimp only

theorem State.calEvt_ok {q : List Instr} (a0 : State) (a1) (h0 : State.Ok q a0) : State.Ok q (State.calEvt a0 a1) := by
  unfold State.calEvt
  repeat' first
    | intro _
    | with_reducible assumption
    | with_reducible apply ok_ite
    | with_reducible apply State.raiseB_ok
    | dsimp only

theorem State.calFails_ok {q : List Instr} (a0 : State) (a1) (a2) (h0 : State.Ok q a0) : State.Ok q (State.calFails a0 a1 a2) := by
  unfold State.calFails
  repeat' first
    | intro _
    | with_reducible assumption
    | with_reducible apply ok_ite
    | with_reducible apply State.calEvt_ok
    | with_reducible apply State.wr_ok
    | with_reducible apply State.inc_ok
    | dsimp only
    | split

end Sys2Proof.Machine
end

