-- ==== Sys2Proof/Laws/OkOperands.lean ====
section
/-! SUPPORT. What the operations of Machine/Operands.lean keep: the canonical form of the state and its queue. -/

namespace Sys2Proof.Machine

theorem State.writeField_ok {q : List Instr} (a0 : State) (a1) (a2) (a3) (a4) (a5) (a6 : State) (a7) (h0 : State.Ok q a0) (h6 : State.Ok q a6) : State.Ok q (State.writeField a0 a1 a2 a3 a4 a5 a6 a7) := by
  unfold State.writeField
  repeat' first
    | intro _
    | with_reducible assumption
    | with_reducible apply ok_ite
    | with_reducible apply State.wr_ok
    | with_reducible apply State.deny_ok
    | dsimp only
    | split

theorem State.writeRow_ok {q : List Instr} (a0 : State) (a1) (a2) (a3) (a4) (a5) (a6) (h0 : State.Ok q a0) : State.Ok q (State.writeRow a0 a1 a2 a3 a4 a5 a6) := by
  unfold State.writeRow
  repeat' first
    | intro _
    | with_reducible assumption
    | with_reducible apply ok_ite
    | with_reducible apply State.writeField_ok
    | with_reducible apply ok_foldl
    | with_reducible apply ok_foldl2
    | with_reducible apply ok_foldl3
    | dsimp only

theorem State.clearRc_ok {q : List Instr} (a0 : State) (a1) (a2) (a3) (a4) (a5) (h0 : State.Ok q a0) : State.Ok q (State.clearRc a0 a1 a2 a3 a4 a5) := by
  unfold State.clearRc
  repeat' first
    | intro _
    | with_reducible assumption
    | with_reducible apply ok_ite
    | with_reducible apply State.wr_ok
    | with_reducible apply ok_foldl
    | with_reducible apply ok_foldl2
    | with_reducible apply ok_foldl3
    | dsimp only
    | split

theorem State.writeReg_ok {q : List Instr} (a0 : State) (a1) (a2) (a3) (h0 : State.Ok q a0) : State.Ok q (State.writeReg a0 a1 a2 a3) := by
  unfold State.writeReg
  repeat' first
    | intro _
    | with_reducible assumption
    | with_reducible apply ok_ite
    | with_reducible apply State.writeRow_ok
    | dsimp only
    | split

end Sys2Proof.Machine
end

