-- ==== Sys2Proof/Laws/OkMem.lean ====
section
/-! SUPPORT. What the operations of Machine/Mem.lean keep: the canonical form of the state and its queue. -/

namespace Sys2Proof.Machine

theorem State.alarm_ok {q : List Instr} (a0 : State) (a1) (h0 : State.Ok q a0) : State.Ok q (State.alarm a0 a1) := by
  unfold State.alarm
  repeat' first
    | intro _
    | with_reducible assumption
    | with_reducible apply ok_ite
    | with_reducible apply State.wr_ok
    | with_reducible apply State.raise_ok
    | dsimp only

theorem State.logProt_ok {q : List Instr} (a0 : State) (a1) (a2) (h0 : State.Ok q a0) : State.Ok q (State.logProt a0 a1 a2) := by
  unfold State.logProt
  repeat' first
    | intro _
    | with_reducible assumption
    | with_reducible apply ok_ite
    | with_reducible apply State.alarm_ok
    | with_reducible apply State.wr_ok
    | dsimp only
    | split

theorem State.guard_ok {q : List Instr} (a0 : State) (a1) (a2) (a3) (a4) {t} (h0 : State.Ok q a0) (e : State.guard a0 a1 a2 a3 a4 = some t) : State.Ok q t := by
  unfold State.guard at e
  revert e
  repeat' first
    | with_reducible refine ok_none
    | with_reducible refine ok_some ?_
    | with_reducible assumption
    | with_reducible apply ok_ite
    | with_reducible apply State.alarm_ok
    | with_reducible apply State.wr_ok
    | with_reducible apply State.logProt_ok
    | dsimp only
    | split
    | intro _

theorem State.bucket_ok {q : List Instr} (a0 : State) (a1) (a2) (a3) (a4) (a5) (h0 : State.Ok q a0) (h5 : ∀ t, State.Ok q t → State.Ok q (a5 t)) : State.Ok q (State.bucket a0 a1 a2 a3 a4 a5) := by
  unfold State.bucket
  repeat' first
    | intro _
    | with_reducible assumption
    | with_reducible apply ok_ite
    | with_reducible apply h5
    | with_reducible apply State.wr_ok
    | dsimp only
    | split

theorem State.leak_ok {q : List Instr} (a0 : State) (a1) (a2) (a3) (h0 : State.Ok q a0) : State.Ok q (State.leak a0 a1 a2 a3) := by
  unfold State.leak
  repeat' first
    | intro _
    | with_reducible assumption
    | with_reducible apply ok_ite
    | with_reducible apply State.wr_ok
    | dsimp only
    | split

theorem State.classErr_ok {q : List Instr} (a0 : State) (a1) (a2) (h0 : State.Ok q a0) : State.Ok q (State.classErr a0 a1 a2) := by
  unfold State.classErr
  repeat' first
    | intro _
    | with_reducible assumption
    | with_reducible apply ok_ite
    | with_reducible apply State.inc_ok
    | with_reducible apply State.bucket_ok
    | with_reducible apply State.raise_ok
    | dsimp only
    | split

theorem State.dahReadErr_ok {q : List Instr} (a0 : State) (h0 : State.Ok q a0) : State.Ok q (State.dahReadErr a0) := by
  unfold State.dahReadErr
  repeat' first
    | intro _
    | with_reducible assumption
    | with_reducible apply ok_ite
    | with_reducible apply State.inc_ok
    | with_reducible apply State.raiseB_ok
    | with_reducible apply State.classErr_ok
    | dsimp only

theorem State.sramLog_ok {q : List Instr} (a0 : State) (a1) (a2) (a3) (h0 : State.Ok q a0) : State.Ok q (State.sramLog a0 a1 a2 a3) := by
  unfold State.sramLog
  repeat' first
    | intro _
    | with_reducible assumption
    | with_reducible apply ok_ite
    | with_reducible apply State.wr_ok
    | dsimp only
    | split

theorem State.srmEvt_ok {q : List Instr} (a0 : State) (a1) (h0 : State.Ok q a0) : State.Ok q (State.srmEvt a0 a1) := by
  unfold State.srmEvt
  repeat' first
    | intro _
    | with_reducible assumption
    | with_reducible apply ok_ite
    | with_reducible apply State.raiseB_ok
    | dsimp only

theorem State.hbmEvt_ok {q : List Instr} (a0 : State) (a1) (h0 : State.Ok q a0) : State.Ok q (State.hbmEvt a0 a1) := by
  unfold State.hbmEvt
  repeat' first
    | intro _
    | with_reducible assumption
    | with_reducible apply ok_ite
    | with_reducible apply State.raiseB_ok
    | dsimp only

theorem State.setWordInfo_ok {q : List Instr} (a0 : State) (a1) (a2) (h0 : State.Ok q a0) : State.Ok q (State.setWordInfo a0 a1 a2) := by
  unfold State.setWordInfo
  repeat' first
    | intro _
    | with_reducible assumption
    | with_reducible apply ok_ite
    | dsimp only
    | (rw [ok_mk_iff]; refine ⟨?_, ?_, ?_, ?_⟩)
    | with_reducible refine State.Ok.pending ?_
    | with_reducible apply State.Ok.m
    | with_reducible apply State.Ok.c
    | with_reducible apply State.Ok.r

theorem State.putWord_ok {q : List Instr} (a0 : State) (a1) (a2) (a3) (h0 : State.Ok q a0) : State.Ok q (State.putWord a0 a1 a2 a3) := by
  unfold State.putWord
  repeat' first
    | intro _
    | with_reducible assumption
    | with_reducible apply ok_ite
    | with_reducible apply State.writeMem_ok
    | with_reducible apply State.setWordInfo_ok
    | dsimp only

theorem State.sramCe_ok {q : List Instr} (a0 : State) (a1) (h0 : State.Ok q a0) : State.Ok q (State.sramCe a0 a1) := by
  unfold State.sramCe
  repeat' first
    | intro _
    | with_reducible assumption
    | with_reducible apply ok_ite
    | with_reducible apply State.inc_ok
    | with_reducible apply State.bucket_ok
    | with_reducible apply State.srmEvt_ok
    | with_reducible apply State.classErr_ok
    | dsimp only

theorem State.sramBad_ok {q : List Instr} (a0 : State) (a1) (a2) (a3) (h0 : State.Ok q a0) : State.Ok q (State.sramBad a0 a1 a2 a3) := by
  unfold State.sramBad
  repeat' first
    | intro _
    | with_reducible assumption
    | with_reducible apply ok_ite
    | with_reducible apply State.inc_ok
    | with_reducible apply State.sramLog_ok
    | with_reducible apply State.srmEvt_ok
    | with_reducible apply State.classErr_ok
    | dsimp only

theorem State.sramUe_ok {q : List Instr} (a0 : State) (a1) (a2) (h0 : State.Ok q a0) : State.Ok q (State.sramUe a0 a1 a2) := by
  unfold State.sramUe
  repeat' first
    | intro _
    | with_reducible assumption
    | with_reducible apply ok_ite
    | with_reducible apply State.sramBad_ok
    | dsimp only

theorem State.readWord_ok {q : List Instr} (a0 : State) (a1) (a2) (h0 : State.Ok q a0) : State.Ok q (State.readWord a0 a1 a2).2.2 := by
  unfold State.readWord
  dsimp only
  cases a0.wordVerdict a2 with
  | clean => exact h0
  | fix b =>
    have k := State.sramCe_ok a0 (bankOf a2) h0
    exact ok_mk k.1 k.m k.c k.r
  | bad => exact State.sramUe_ok a0 a1 a2 h0

theorem State.readWord_okE {q : List Instr} {a0 : State} {a1} {a2} {b c t} (e : State.readWord a0 a1 a2 = (b, c, t)) (h0 : State.Ok q a0) : State.Ok q t := by
  have := State.readWord_ok a0 a1 a2 h0
  rw [e] at this; exact this

theorem State.writeBackWord_ok {q : List Instr} (a0 : State) (a1) (h0 : State.Ok q a0) : State.Ok q (State.writeBackWord a0 a1) := by
  unfold State.writeBackWord
  repeat' first
    | intro _
    | with_reducible assumption
    | with_reducible apply ok_ite
    | with_reducible apply State.writeMem_ok
    | with_reducible apply State.setWordInfo_ok
    | dsimp only
    | split
    | (rw [ok_mk_iff]; refine ⟨?_, ?_, ?_, ?_⟩)
    | with_reducible refine State.Ok.pending ?_
    | with_reducible apply State.Ok.m
    | with_reducible apply State.Ok.c
    | with_reducible apply State.Ok.r

theorem State.mergeWord_ok {q : List Instr} (a0 : State) (a1) (a2) (a3) (h0 : State.Ok q a0) : State.Ok q (State.mergeWord a0 a1 a2 a3).1 := by
  unfold State.mergeWord
  repeat' first
    | intro _
    | with_reducible assumption
    | with_reducible apply ok_ite
    | dsimp only
    | with_reducible apply State.putWord_ok
    | with_reducible apply State.inc_ok
    | with_reducible apply State.sramLog_ok
    | with_reducible apply State.srmEvt_ok
    | with_reducible apply State.classErr_ok
    | with_reducible apply State.sramCe_ok
    | split

theorem State.mergeWord_okE {q : List Instr} {a0 : State} {a1} {a2} {a3} {t b} (e : State.mergeWord a0 a1 a2 a3 = (t, b)) (h0 : State.Ok q a0) : State.Ok q t := by
  have := State.mergeWord_ok a0 a1 a2 a3 h0
  rw [e] at this; exact this

theorem State.setLineInfo_ok {q : List Instr} (a0 : State) (a1) (a2) (h0 : State.Ok q a0) : State.Ok q (State.setLineInfo a0 a1 a2) := by
  unfold State.setLineInfo
  repeat' first
    | intro _
    | with_reducible assumption
    | with_reducible apply ok_ite
    | dsimp only
    | (rw [ok_mk_iff]; refine ⟨?_, ?_, ?_, ?_⟩)
    | with_reducible refine State.Ok.pending ?_
    | with_reducible apply State.Ok.m
    | with_reducible apply State.Ok.c
    | with_reducible apply State.Ok.r

theorem State.putLine_ok {q : List Instr} (a0 : State) (a1) (a2) (a3) (h0 : State.Ok q a0) : State.Ok q (State.putLine a0 a1 a2 a3) := by
  unfold State.putLine
  repeat' first
    | intro _
    | with_reducible assumption
    | with_reducible apply ok_ite
    | with_reducible apply State.writeMem_ok
    | with_reducible apply State.setLineInfo_ok
    | dsimp only

theorem State.rankTrip_ok {q : List Instr} (a0) (a1 : State) (h1 : State.Ok q a1) : State.Ok q (State.rankTrip a0 a1) := by
  unfold State.rankTrip
  repeat' first
    | intro _
    | with_reducible assumption
    | with_reducible apply ok_ite
    | with_reducible apply State.hbmEvt_ok
    | with_reducible apply State.wr_ok
    | with_reducible refine State.repairRecord_ok _ _ ?_ (by assumption)
    | with_reducible apply State.wrIf_ok
    | with_reducible apply ok_match_opt
    | dsimp only
    | split

theorem State.rankErr_ok {q : List Instr} (a0 : State) (a1) (a2) (h0 : State.Ok q a0) : State.Ok q (State.rankErr a0 a1 a2) := by
  unfold State.rankErr
  repeat' first
    | intro _
    | with_reducible assumption
    | with_reducible apply ok_ite
    | with_reducible apply State.bucket_ok
    | with_reducible apply State.rankTrip_ok
    | dsimp only

theorem State.hbmLog_ok {q : List Instr} (a0 : State) (a1) (a2) (a3) (a4) (a5) (a6) (a7) (h0 : State.Ok q a0) : State.Ok q (State.hbmLog a0 a1 a2 a3 a4 a5 a6 a7) := by
  unfold State.hbmLog
  repeat' first
    | intro _
    | with_reducible assumption
    | with_reducible apply ok_ite
    | with_reducible apply State.wr_ok
    | dsimp only
    | split

theorem State.hbmBad_ok {q : List Instr} (a0 : State) (a1) (a2) (a3) (a4) (a5) (a6) (h0 : State.Ok q a0) : State.Ok q (State.hbmBad a0 a1 a2 a3 a4 a5 a6) := by
  unfold State.hbmBad
  repeat' first
    | intro _
    | with_reducible assumption
    | with_reducible apply ok_ite
    | with_reducible apply State.inc_ok
    | with_reducible apply State.hbmLog_ok
    | with_reducible apply State.hbmEvt_ok
    | with_reducible apply State.alarm_ok
    | with_reducible apply State.rankErr_ok
    | with_reducible apply State.classErr_ok
    | dsimp only
    | split

theorem State.hbmUe_ok {q : List Instr} (a0 : State) (a1) (a2) (a3) (h0 : State.Ok q a0) : State.Ok q (State.hbmUe a0 a1 a2 a3) := by
  unfold State.hbmUe
  repeat' first
    | intro _
    | with_reducible assumption
    | with_reducible apply ok_ite
    | with_reducible apply State.hbmBad_ok
    | dsimp only
    | split

theorem State.hbmCe_ok {q : List Instr} (a0 : State) (a1) (h0 : State.Ok q a0) : State.Ok q (State.hbmCe a0 a1) := by
  unfold State.hbmCe
  repeat' first
    | intro _
    | with_reducible assumption
    | with_reducible apply ok_ite
    | with_reducible apply State.inc_ok
    | with_reducible apply State.rankErr_ok
    | with_reducible apply State.classErr_ok
    | dsimp only

theorem State.countRd_ok {q : List Instr} (a0 : State) (a1) (h0 : State.Ok q a0) : State.Ok q (State.countRd a0 a1) := by
  unfold State.countRd
  repeat' first
    | intro _
    | with_reducible assumption
    | with_reducible apply ok_ite
    | with_reducible apply State.add_ok
    | dsimp only

theorem State.countWr_ok {q : List Instr} (a0 : State) (a1) (h0 : State.Ok q a0) : State.Ok q (State.countWr a0 a1) := by
  unfold State.countWr
  repeat' first
    | intro _
    | with_reducible assumption
    | with_reducible apply ok_ite
    | with_reducible apply State.add_ok
    | dsimp only

theorem State.activate_ok {q : List Instr} (a0 : State) (a1) (h0 : State.Ok q a0) : State.Ok q (State.activate a0 a1) := by
  unfold State.activate
  repeat' first
    | intro _
    | with_reducible assumption
    | with_reducible apply ok_ite
    | with_reducible apply State.fresh_ok
    | with_reducible refine State.fresh_okE (by assumption) ?_
    | dsimp only
    | split
    | (rw [ok_mk_iff]; refine ⟨?_, ?_, ?_, ?_⟩)
    | with_reducible refine State.Ok.pending ?_
    | with_reducible apply State.Ok.m
    | with_reducible apply State.Ok.c
    | with_reducible apply State.Ok.r

theorem State.queueWrite_ok {q : List Instr} (a0 : State) (a1) (h0 : State.Ok q a0) : State.Ok q (State.queueWrite a0 a1) := by
  unfold State.queueWrite
  repeat' first
    | intro _
    | with_reducible assumption
    | with_reducible apply ok_ite
    | dsimp only
    | split
    | (rw [ok_mk_iff]; refine ⟨?_, ?_, ?_, ?_⟩)
    | with_reducible refine State.Ok.pending ?_
    | with_reducible apply State.Ok.m
    | with_reducible apply State.Ok.c
    | with_reducible apply State.Ok.r

theorem State.openRows_ok {q : List Instr} (a0 : State) (a1) (a2) (a3) (h0 : State.Ok q a0) : State.Ok q (State.openRows a0 a1 a2 a3) := by
  unfold State.openRows
  repeat' first
    | intro _
    | with_reducible assumption
    | with_reducible apply ok_ite
    | with_reducible apply State.each_ok
    | with_reducible apply State.wr_ok
    | with_reducible apply State.queueWrite_ok
    | with_reducible apply State.activate_ok
    | dsimp only
    | split

theorem State.hbmSpend_ok {q : List Instr} (a0 : State) (a1) (a2) {t} (h0 : State.Ok q a0) (e : State.hbmSpend a0 a1 a2 = some t) : State.Ok q t := by
  unfold State.hbmSpend at e
  revert e
  repeat' first
    | with_reducible refine ok_none
    | with_reducible refine ok_some ?_
    | with_reducible assumption
    | with_reducible apply ok_ite
    | with_reducible apply State.add_ok
    | dsimp only
    | split
    | intro _

theorem State.readLine_ok {q : List Instr} (a0 : State) (a1) (a2) (h0 : State.Ok q a0) : State.Ok q (State.readLine a0 a1 a2).2.2 := by
  unfold State.readLine
  dsimp only
  have k0 := State.countRd_ok a0 a2 h0
  cases a0.lineVerdict a1.key a2 with
  | clean => exact k0
  | fix b =>
    have k := State.hbmCe_ok _ (a0.rankOf a2) k0
    exact ok_mk k.1 k.m k.c k.r
  | bad => exact State.hbmUe_ok _ a1 _ a2 k0

theorem State.readLine_okE {q : List Instr} {a0 : State} {a1} {a2} {b c t} (e : State.readLine a0 a1 a2 = (b, c, t)) (h0 : State.Ok q a0) : State.Ok q t := by
  have := State.readLine_ok a0 a1 a2 h0
  rw [e] at this; exact this

theorem State.fixPlace_ok {q : List Instr} (a0 : State) (a1) (a2) (h0 : State.Ok q a0) : State.Ok q (State.fixPlace a0 a1 a2) := by
  unfold State.fixPlace
  repeat' first
    | intro _
    | with_reducible assumption
    | with_reducible apply ok_ite
    | with_reducible apply State.writeMem_ok
    | dsimp only
    | split

theorem State.writeBackLine_ok {q : List Instr} (a0 : State) (a1) (a2) (h0 : State.Ok q a0) : State.Ok q (State.writeBackLine a0 a1 a2) := by
  unfold State.writeBackLine
  repeat' first
    | intro _
    | with_reducible assumption
    | with_reducible apply ok_ite
    | with_reducible apply State.fixPlace_ok
    | with_reducible apply State.setLineInfo_ok
    | with_reducible apply State.countWr_ok
    | dsimp only
    | split
    | (rw [ok_mk_iff]; refine ⟨?_, ?_, ?_, ?_⟩)
    | with_reducible refine State.Ok.pending ?_
    | with_reducible apply State.Ok.m
    | with_reducible apply State.Ok.c
    | with_reducible apply State.Ok.r

theorem State.mergeLine_ok {q : List Instr} (a0 : State) (a1) (a2) (a3) (h0 : State.Ok q a0) : State.Ok q (State.mergeLine a0 a1 a2 a3).1 := by
  unfold State.mergeLine
  repeat' first
    | intro _
    | with_reducible assumption
    | with_reducible apply ok_ite
    | dsimp only
    | with_reducible apply State.putLine_ok
    | with_reducible apply State.countWr_ok
    | with_reducible apply State.countRd_ok
    | with_reducible apply State.hbmUe_ok
    | with_reducible apply State.hbmCe_ok
    | split

theorem State.mergeLine_okE {q : List Instr} {a0 : State} {a1} {a2} {a3} {t b} (e : State.mergeLine a0 a1 a2 a3 = (t, b)) (h0 : State.Ok q a0) : State.Ok q t := by
  have := State.mergeLine_ok a0 a1 a2 a3 h0
  rw [e] at this; exact this

theorem State.bankGate_ok {q : List Instr} (a0 : State) (a1) (a2) (a3) (h0 : State.Ok q a0) : State.Ok q (State.bankGate a0 a1 a2 a3).2 := by
  unfold State.bankGate
  repeat' first
    | intro _
    | with_reducible assumption
    | with_reducible apply ok_ite
    | dsimp only
    | with_reducible apply State.wr_ok
    | with_reducible apply State.inc_ok
    | with_reducible apply State.sramLog_ok
    | split

theorem State.bankGate_okE {q : List Instr} {a0 : State} {a1} {a2} {a3} {b t} (e : State.bankGate a0 a1 a2 a3 = (b, t)) (h0 : State.Ok q a0) : State.Ok q t := by
  have := State.bankGate_ok a0 a1 a2 a3 h0
  rw [e] at this; exact this

theorem State.bankGates_ok {q : List Instr} (a0 : State) (a1) (a2) (a3) (h0 : State.Ok q a0) : State.Ok q (State.bankGates a0 a1 a2 a3).2 := by
  unfold State.bankGates
  repeat' first
    | intro _
    | with_reducible assumption
    | with_reducible apply ok_ite
    | dsimp only
    | with_reducible apply State.bankGate_ok
    | with_reducible refine State.bankGate_okE (by assumption) ?_
    | with_reducible apply ok_foldl
    | with_reducible apply ok_foldl2
    | with_reducible apply ok_foldl3

theorem State.bankGates_okE {q : List Instr} {a0 : State} {a1} {a2} {a3} {b t} (e : State.bankGates a0 a1 a2 a3 = (b, t)) (h0 : State.Ok q a0) : State.Ok q t := by
  have := State.bankGates_ok a0 a1 a2 a3 h0
  rw [e] at this; exact this

theorem State.readUnits_ok {q : List Instr} (a0 : State) (a1) (a2) (a3) (h0 : State.Ok q a0) : State.Ok q (State.readUnits a0 a1 a2 a3).2.2 := by
  unfold State.readUnits
  repeat' first
    | intro _
    | with_reducible assumption
    | with_reducible apply ok_ite
    | dsimp only
    | with_reducible apply State.readWord_ok
    | with_reducible refine State.readWord_okE (by assumption) ?_
    | with_reducible apply State.readLine_ok
    | with_reducible refine State.readLine_okE (by assumption) ?_
    | with_reducible apply State.openRows_ok
    | with_reducible apply ok_foldl
    | with_reducible apply ok_foldl2
    | with_reducible apply ok_foldl3
    | split

theorem State.readUnits_okE {q : List Instr} {a0 : State} {a1} {a2} {a3} {b c t} (e : State.readUnits a0 a1 a2 a3 = (b, c, t)) (h0 : State.Ok q a0) : State.Ok q t := by
  have := State.readUnits_ok a0 a1 a2 a3 h0
  rw [e] at this; exact this

theorem State.writeUnits_ok {q : List Instr} (a0 : State) (a1) (a2) (a3) (h0 : State.Ok q a0) : State.Ok q (State.writeUnits a0 a1 a2 a3).2 := by
  unfold State.writeUnits
  repeat' first
    | intro _
    | with_reducible assumption
    | with_reducible apply ok_ite
    | dsimp only
    | with_reducible apply State.mergeWord_ok
    | with_reducible refine State.mergeWord_okE (by assumption) ?_
    | with_reducible apply State.mergeLine_ok
    | with_reducible refine State.mergeLine_okE (by assumption) ?_
    | with_reducible apply State.openRows_ok
    | with_reducible apply ok_foldl
    | with_reducible apply ok_foldl2
    | with_reducible apply ok_foldl3
    | split

theorem State.writeUnits_okE {q : List Instr} {a0 : State} {a1} {a2} {a3} {b t} (e : State.writeUnits a0 a1 a2 a3 = (b, t)) (h0 : State.Ok q a0) : State.Ok q t := by
  have := State.writeUnits_ok a0 a1 a2 a3 h0
  rw [e] at this; exact this

theorem State.memGate_ok {q : List Instr} (a0 : State) (a1) (a2) (a3) (h0 : State.Ok q a0) : State.Ok q (State.memGate a0 a1 a2 a3).2 := by
  unfold State.memGate
  repeat' first
    | intro _
    | with_reducible assumption
    | with_reducible apply ok_ite
    | dsimp only
    | with_reducible apply State.bankGates_ok
    | with_reducible refine State.bankGates_okE (by assumption) ?_
    | split

theorem State.memGate_okE {q : List Instr} {a0 : State} {a1} {a2} {a3} {b t} (e : State.memGate a0 a1 a2 a3 = (b, t)) (h0 : State.Ok q a0) : State.Ok q t := by
  have := State.memGate_ok a0 a1 a2 a3 h0
  rw [e] at this; exact this

theorem State.memRead_ok {q : List Instr} (a0 : State) (a1) (a2) (a3) (h0 : State.Ok q a0) : State.Ok q (State.memRead a0 a1 a2 a3).2.2 := by
  unfold State.memRead
  repeat' first
    | intro _
    | with_reducible assumption
    | with_reducible apply ok_ite
    | dsimp only
    | with_reducible refine State.guard_ok _ _ _ _ _ ?_ (by assumption)
    | with_reducible apply State.memGate_ok
    | with_reducible refine State.memGate_okE (by assumption) ?_
    | with_reducible apply State.readUnits_ok
    | with_reducible refine State.readUnits_okE (by assumption) ?_
    | split

theorem State.memRead_okE {q : List Instr} {a0 : State} {a1} {a2} {a3} {b c t} (e : State.memRead a0 a1 a2 a3 = (b, c, t)) (h0 : State.Ok q a0) : State.Ok q t := by
  have := State.memRead_ok a0 a1 a2 a3 h0
  rw [e] at this; exact this

theorem State.memWriteBe_ok {q : List Instr} (a0 : State) (a1) (a2) (a3) (h0 : State.Ok q a0) : State.Ok q (State.memWriteBe a0 a1 a2 a3).2 := by
  unfold State.memWriteBe
  repeat' first
    | intro _
    | with_reducible assumption
    | with_reducible apply ok_ite
    | dsimp only
    | with_reducible refine State.guard_ok _ _ _ _ _ ?_ (by assumption)
    | with_reducible apply State.memGate_ok
    | with_reducible refine State.memGate_okE (by assumption) ?_
    | with_reducible apply State.writeUnits_ok
    | with_reducible refine State.writeUnits_okE (by assumption) ?_
    | split

theorem State.memWriteBe_okE {q : List Instr} {a0 : State} {a1} {a2} {a3} {b t} (e : State.memWriteBe a0 a1 a2 a3 = (b, t)) (h0 : State.Ok q a0) : State.Ok q t := by
  have := State.memWriteBe_ok a0 a1 a2 a3 h0
  rw [e] at this; exact this

theorem State.memWrite_ok {q : List Instr} (a0 : State) (a1) (a2) (a3) (h0 : State.Ok q a0) : State.Ok q (State.memWrite a0 a1 a2 a3).2 := by
  unfold State.memWrite
  repeat' first
    | intro _
    | with_reducible assumption
    | with_reducible apply ok_ite
    | dsimp only
    | with_reducible apply State.memWriteBe_ok
    | with_reducible refine State.memWriteBe_okE (by assumption) ?_

theorem State.memWrite_okE {q : List Instr} {a0 : State} {a1} {a2} {a3} {b t} (e : State.memWrite a0 a1 a2 a3 = (b, t)) (h0 : State.Ok q a0) : State.Ok q t := by
  have := State.memWrite_ok a0 a1 a2 a3 h0
  rw [e] at this; exact this

end Sys2Proof.Machine
end

