-- ==== Sys2Proof/Laws/OkBundles.lean ====
section
/-! SUPPORT. What the operations of Machine/Bundles.lean keep: the canonical form of the state and its queue. -/

namespace Sys2Proof.Machine

theorem State.bunEvent_ok {q : List Instr} (a0 : State) (a1) (a2) (h0 : State.Ok q a0) : State.Ok q (State.bunEvent a0 a1 a2) := by
  unfold State.bunEvent
  repeat' first
    | intro _
    | with_reducible assumption
    | with_reducible apply ok_ite
    | with_reducible apply State.wr_ok
    | with_reducible apply State.raise_ok
    | dsimp only

theorem State.bunRecordWrite_ok {q : List Instr} (a0 : State) (a1) (a2) (a3) (a4) (h0 : State.Ok q a0) : State.Ok q (State.bunRecordWrite a0 a1 a2 a3 a4) := by
  unfold State.bunRecordWrite
  repeat' first
    | intro _
    | with_reducible assumption
    | with_reducible apply ok_ite
    | with_reducible refine State.repairRecord_ok _ _ ?_ (by assumption)
    | with_reducible apply State.wr_ok
    | with_reducible apply ok_match_opt
    | dsimp only

theorem State.bunHalfEffect_ok {q : List Instr} (a0 : State) (a1) (a2) (h0 : State.Ok q a0) : State.Ok q (State.bunHalfEffect a0 a1 a2) := by
  unfold State.bunHalfEffect
  repeat' first
    | intro _
    | with_reducible assumption
    | with_reducible apply ok_ite
    | with_reducible apply State.wr_ok
    | with_reducible apply State.each_ok
    | with_reducible apply State.setB_ok
    | dsimp only
    | split

theorem State.cfgFence_ok {q : List Instr} (a0) (a1 : State) (h1 : State.Ok q a1) : State.Ok q (State.cfgFence a0 a1) := by
  unfold State.cfgFence
  repeat' first
    | intro _
    | with_reducible assumption
    | with_reducible apply ok_ite
    | with_reducible apply State.wr_ok
    | dsimp only

theorem State.bunFenceEffect_ok {q : List Instr} (a0 : State) (a1) (a2) (h0 : State.Ok q a0) : State.Ok q (State.bunFenceEffect a0 a1 a2) := by
  unfold State.bunFenceEffect
  cases a1 with
  | cfg n => exact State.cfgFence_ok _ _ h0
  | mr n =>
    have k := State.wr_ok _ (Reg.ISL_STAT_DEGRADED n) 1 (State.wr_ok a0 (Reg.ISL_STAT_MR_FENCE n) 1 h0)
    exact ok_mk k.1 k.m k.c k.r
  | riser _ =>
    dsimp only
    split
    · exact State.each_ok _ _ _ (fun a t ht => State.cfgFence_ok _ _ ht) h0
    · exact h0
  | hub _ =>
    dsimp only
    split
    · exact State.wr_ok _ _ _ h0
    · exact h0
  | col => exact State.each_ok _ _ _ (fun a t ht => State.setB_ok _ _ _ ht) h0
  | svc => exact h0
  | peo => exact h0

theorem State.bunFence_ok {q : List Instr} (a0 : State) (a1) (a2) (h0 : State.Ok q a0) : State.Ok q (State.bunFence a0 a1 a2) := by
  unfold State.bunFence
  repeat' first
    | intro _
    | with_reducible assumption
    | with_reducible apply ok_ite
    | with_reducible apply State.wr_ok
    | with_reducible apply State.bunFenceEffect_ok
    | with_reducible apply State.bunEvent_ok
    | with_reducible apply State.journal_ok
    | dsimp only
    | split

theorem State.bunDegrade_ok {q : List Instr} (a0 : State) (a1) (a2) (h0 : State.Ok q a0) : State.Ok q (State.bunDegrade a0 a1 a2) := by
  unfold State.bunDegrade
  repeat' first
    | intro _
    | with_reducible assumption
    | with_reducible apply ok_ite
    | with_reducible apply State.wr_ok
    | with_reducible apply State.bunEvent_ok
    | with_reducible apply State.bunHalfEffect_ok
    | with_reducible apply State.bunFence_ok
    | dsimp only
    | split

theorem State.wireOut_ok {q : List Instr} (a0) (a1) (a2 : State) (h2 : State.Ok q a2) : State.Ok q (State.wireOut a0 a1 a2) := by
  unfold State.wireOut
  repeat' first
    | intro _
    | with_reducible assumption
    | with_reducible apply ok_ite
    | with_reducible apply State.wr_ok
    | with_reducible apply State.inc_ok
    | with_reducible apply State.wrFree_ok
    | with_reducible apply State.bunEvent_ok
    | with_reducible apply State.bunDegrade_ok
    | dsimp only
    | split
    | (rw [ok_mk_iff]; refine ⟨?_, ?_, ?_, ?_⟩)
    | with_reducible refine State.Ok.pending ?_
    | with_reducible apply State.Ok.m
    | with_reducible apply State.Ok.c
    | with_reducible apply State.Ok.r

theorem State.wireFail_ok {q : List Instr} (a0) (a1) (a2 : State) (h2 : State.Ok q a2) : State.Ok q (State.wireFail a0 a1 a2) := by
  unfold State.wireFail
  repeat' first
    | intro _
    | with_reducible assumption
    | with_reducible apply ok_ite
    | with_reducible apply State.bunRecordWrite_ok
    | with_reducible apply State.wireOut_ok
    | dsimp only
    | split

theorem State.wireErr_ok {q : List Instr} (a0) (a1) (a2 : State) (h2 : State.Ok q a2) : State.Ok q (State.wireErr a0 a1 a2) := by
  unfold State.wireErr
  repeat' first
    | intro _
    | with_reducible assumption
    | with_reducible apply ok_ite
    | with_reducible apply State.classErr_ok
    | with_reducible apply State.wireFail_ok
    | dsimp only
    | split
    | (rw [ok_mk_iff]; refine ⟨?_, ?_, ?_, ?_⟩)
    | with_reducible refine State.Ok.pending ?_
    | with_reducible apply State.Ok.m
    | with_reducible apply State.Ok.c
    | with_reducible apply State.Ok.r

theorem State.wireErrors_ok {q : List Instr} (a0 : State) (a1) (a2) (h0 : State.Ok q a0) : State.Ok q (State.wireErrors a0 a1 a2) := by
  unfold State.wireErrors
  repeat' first
    | intro _
    | with_reducible assumption
    | with_reducible apply ok_ite
    | with_reducible apply State.each_ok
    | with_reducible apply State.wireErr_ok
    | dsimp only

theorem State.hubErrors_ok {q : List Instr} (a0 : State) (a1) (h0 : State.Ok q a0) : State.Ok q (State.hubErrors a0 a1) := by
  unfold State.hubErrors
  repeat' first
    | intro _
    | with_reducible assumption
    | with_reducible apply ok_ite
    | with_reducible apply State.each_ok
    | with_reducible apply State.wireErr_ok
    | dsimp only

theorem State.cfgErrors_ok {q : List Instr} (a0 : State) (a1) (h0 : State.Ok q a0) : State.Ok q (State.cfgErrors a0 a1) := by
  unfold State.cfgErrors
  repeat' first
    | intro _
    | with_reducible assumption
    | with_reducible apply ok_ite
    | with_reducible apply State.each_ok
    | with_reducible apply State.wireErr_ok
    | dsimp only
    | split

theorem execBundleCal_ok {q : List Instr} (a0) (a1) (a2) (a3 : State) (h3 : State.Ok q a3) : OutOk q (execBundleCal a0 a1 a2 a3) := by
  unfold execBundleCal
  repeat' first
    | with_reducible apply out_next
    | with_reducible apply out_ite
    | intro _
    | with_reducible assumption
    | with_reducible apply ok_ite
    | with_reducible apply State.wrFree_ok
    | with_reducible apply State.inc_ok
    | with_reducible apply State.each_ok
    | with_reducible apply State.wireFail_ok
    | with_reducible apply State.calDone_ok
    | dsimp only
    | split
    | (rw [ok_mk_iff]; refine ⟨?_, ?_, ?_, ?_⟩)
    | with_reducible refine State.Ok.pending ?_
    | with_reducible apply State.Ok.m
    | with_reducible apply State.Ok.c
    | with_reducible apply State.Ok.r

theorem State.recApply_ok {q : List Instr} (a0) (a1 : State) (h1 : State.Ok q a1) : State.Ok q (State.recApply a0 a1) := by
  unfold State.recApply
  repeat' first
    | intro _
    | with_reducible assumption
    | with_reducible apply ok_ite
    | with_reducible apply State.wr_ok
    | with_reducible apply State.inc_ok
    | with_reducible apply State.bunFence_ok
    | with_reducible apply State.wireOut_ok
    | dsimp only
    | split

theorem State.bundlesApply_ok {q : List Instr} (a0 : State) (a1) (h0 : State.Ok q a0) : State.Ok q (State.bundlesApply a0 a1) := by
  unfold State.bundlesApply
  repeat' first
    | intro _
    | with_reducible assumption
    | with_reducible apply ok_ite
    | with_reducible apply State.each_ok
    | with_reducible apply State.recApply_ok
    | with_reducible apply State.wireFail_ok
    | with_reducible apply State.wrFree_ok
    | dsimp only

theorem execContentionGuard_ok {q : List Instr} (a0) (a1) (a2 : State) (h2 : State.Ok q a2) : OutOk q (execContentionGuard a0 a1 a2) := by
  unfold execContentionGuard
  repeat' first
    | with_reducible apply out_next
    | with_reducible apply out_ite
    | intro _
    | with_reducible assumption
    | with_reducible apply ok_ite
    | with_reducible apply State.wr_ok
    | with_reducible apply State.bunEvent_ok
    | with_reducible apply State.bunRecordWrite_ok
    | with_reducible apply State.bunFence_ok
    | dsimp only
    | split
    | (rw [ok_mk_iff]; refine ⟨?_, ?_, ?_, ?_⟩)
    | with_reducible refine State.Ok.pending ?_
    | with_reducible apply State.Ok.m
    | with_reducible apply State.Ok.c
    | with_reducible apply State.Ok.r

theorem execSteeringRepair_ok {q : List Instr} (a0) (a1 : State) (h1 : State.Ok q a1) : OutOk q (execSteeringRepair a0 a1) := by
  unfold execSteeringRepair
  repeat' first
    | with_reducible apply out_next
    | with_reducible apply out_ite
    | intro _
    | with_reducible assumption
    | with_reducible apply ok_ite
    | with_reducible apply State.wr_ok
    | dsimp only

theorem State.mrAnswer_ok {q : List Instr} (a0 : State) (a1) (a2) (h0 : State.Ok q a0) : State.Ok q (State.mrAnswer a0 a1 a2) := by
  unfold State.mrAnswer
  repeat' first
    | intro _
    | with_reducible assumption
    | with_reducible apply ok_ite
    | with_reducible apply ok_match_opt
    | dsimp only
    | (rw [ok_mk_iff]; refine ⟨?_, ?_, ?_, ?_⟩)
    | with_reducible refine State.Ok.pending ?_
    | with_reducible apply State.Ok.m
    | with_reducible apply State.Ok.c
    | with_reducible apply State.Ok.r

theorem State.readRowWords_ok {q : List Instr} (a0 : State) (a1) (a2) (h0 : State.Ok q a0) : State.Ok q (State.readRowWords a0 a1 a2).2.2 := by
  unfold State.readRowWords
  repeat' first
    | intro _
    | with_reducible assumption
    | with_reducible apply ok_ite
    | dsimp only
    | with_reducible apply State.readWord_ok
    | with_reducible refine State.readWord_okE (by assumption) ?_
    | with_reducible apply ok_foldl
    | with_reducible apply ok_foldl2
    | with_reducible apply ok_foldl3
    | split

theorem State.readRowWords_okE {q : List Instr} {a0 : State} {a1} {a2} {b c t} (e : State.readRowWords a0 a1 a2 = (b, c, t)) (h0 : State.Ok q a0) : State.Ok q t := by
  have := State.readRowWords_ok a0 a1 a2 h0
  rw [e] at this; exact this

theorem State.writeRowWords_ok {q : List Instr} (a0 : State) (a1) (a2) (a3) (a4) (h0 : State.Ok q a0) : State.Ok q (State.writeRowWords a0 a1 a2 a3 a4) := by
  unfold State.writeRowWords
  repeat' first
    | intro _
    | with_reducible assumption
    | with_reducible apply ok_ite
    | with_reducible apply State.each_ok
    | with_reducible apply State.putWord_ok
    | with_reducible apply ok_match_opt
    | dsimp only

theorem State.mrServe_ok {q : List Instr} (n tag) (op) (g : MRes × State) (h : State.Ok q g.2)
    (ho : ∀ t, State.Ok q t → State.Ok q (op t).2) : State.Ok q (State.mrServe n tag op g) := by
  unfold State.mrServe
  split
  · exact State.answer_ok _ _ _ (State.add_ok _ _ _ (State.mrAnswer_ok _ _ _ (ho _ h)))
  · exact State.answer_ok _ _ _ h
  · exact State.answer_ok _ _ _ (State.mrAnswer_ok _ _ _ h)

theorem State.mrBank_ok {q : List Instr} (a0 : State) (a1) (a2) (a3) (a4) (a5) (h0 : State.Ok q a0)
    (h5 : ∀ r a t, State.Ok q t → State.Ok q (a5 r a t).2) : State.Ok q (State.mrBank a0 a1 a2 a3 a4 a5) := by
  rw [State.mrBank]
  cases hg : a0.guard (a0.req (.millrace (Fin.ofNat 80 a1)) (a0.rd (Reg.ISL_MR_CTRL_KEY a1))) a4 (rowAddr a1 a2) 512 with
  | some t =>
    exact State.answer_ok _ _ _ (State.mrAnswer_ok _ _ _ (State.guard_ok _ _ _ _ _ h0 hg))
  | none => exact State.mrServe_ok _ _ _ _ (State.memGate_ok _ _ _ _ h0) (h5 _ _)

theorem State.mrBusErr_ok {q : List Instr} (a0 : State) (a1) (a2) (h0 : State.Ok q a0) : State.Ok q (State.mrBusErr a0 a1 a2) := by
  unfold State.mrBusErr
  repeat' first
    | intro _
    | with_reducible assumption
    | with_reducible apply ok_ite
    | with_reducible apply State.inc_ok
    | with_reducible apply State.mrAnswer_ok
    | with_reducible apply State.answer_ok
    | dsimp only

theorem State.mrCarried_ok {q : List Instr} (a0 : State) (a1) (a2) (a3) (a4) (a5) (h0 : State.Ok q a0)
    (h5 : ∀ r a t, State.Ok q t → State.Ok q (a5 r a t).2) : State.Ok q (State.mrCarried a0 a1 a2 a3 a4 a5) := by
  unfold State.mrCarried
  exact ok_ite (State.mrBusErr_ok _ _ _ h0) (State.mrBank_ok _ _ _ _ _ _ h0 h5)

theorem State.mrRequest_ok {q : List Instr} (a0 : State) (a1) (a2) (a3) (a4) (a5) (a6) (a7) (h0 : State.Ok q a0)
    (h7 : ∀ r a t, State.Ok q t → State.Ok q (a7 r a t).2) : State.Ok q (State.mrRequest a0 a1 a2 a3 a4 a5 a6 a7) := by
  unfold State.mrRequest
  exact ok_ite (State.answer_ok _ _ _ h0) (ok_ite (State.mrBusErr_ok _ _ _ h0)
    (State.mrCarried_ok _ _ _ _ _ _ (State.wireErrors_ok _ _ _ h0) h7))

theorem execMrRead_ok {q : List Instr} (a0) (a1) (a2) (a3) (a4) (a5 : State) (h5 : State.Ok q a5) : OutOk q (execMrRead a0 a1 a2 a3 a4 a5) := by
  unfold execMrRead
  refine out_next (State.mrRequest_ok _ _ _ _ _ _ _ _ h5 (fun r a t ht => ?_))
  have k := State.readRowWords_ok t r a ht
  revert k
  generalize State.readRowWords t r a = x
  obtain ⟨bs, rue, u⟩ := x
  exact State.inc_ok _ _ _

theorem execMrWrite_ok {q : List Instr} (a0) (a1) (a2) (a3) (a4) (a5 : State) (h5 : State.Ok q a5) : OutOk q (execMrWrite a0 a1 a2 a3 a4 a5) := by
  unfold execMrWrite
  exact out_next (State.mrRequest_ok _ _ _ _ _ _ _ _ h5 (fun r a t ht => State.writeRowWords_ok t r a _ _ ht))

theorem execMrWriteMasked_ok {q : List Instr} (a0) (a1) (a2) (a3) (a4) (a5) (a6 : State) (h6 : State.Ok q a6) : OutOk q (execMrWriteMasked a0 a1 a2 a3 a4 a5 a6) := by
  unfold execMrWriteMasked
  exact out_next (State.mrRequest_ok _ _ _ _ _ _ _ _ h6 (fun r a t ht => State.writeRowWords_ok t r a _ _ ht))

theorem execMrResponse_ok {q : List Instr} (a0) (a1 : State) (h1 : State.Ok q a1) : OutOk q (execMrResponse a0 a1) := by
  unfold execMrResponse
  repeat' first
    | with_reducible apply out_next
    | with_reducible apply out_ite
    | intro _
    | with_reducible assumption
    | with_reducible apply ok_ite
    | with_reducible apply State.emit_ok
    | with_reducible apply ok_match_opt
    | dsimp only
    | split
    | (rw [ok_mk_iff]; refine ⟨?_, ?_, ?_, ?_⟩)
    | with_reducible refine State.Ok.pending ?_
    | with_reducible apply State.Ok.m
    | with_reducible apply State.Ok.c
    | with_reducible apply State.Ok.r

end Sys2Proof.Machine
end

