-- ==== Sys2Proof/Laws/OkSram.lean ====
section
/-! SUPPORT. What the operations of Machine/Sram.lean keep: the canonical form of the state and its queue. -/

namespace Sys2Proof.Machine

theorem State.readFor_ok {q : List Instr} (a0 : State) (a1) (a2) (a3) (a4) (h0 : State.Ok q a0) : State.Ok q (State.readFor a0 a1 a2 a3 a4) := by
  unfold State.readFor
  repeat' first
    | intro _
    | with_reducible assumption
    | with_reducible apply ok_ite
    | with_reducible apply State.memRead_ok
    | with_reducible refine State.memRead_okE (by assumption) ?_
    | with_reducible apply State.answer_ok
    | dsimp only
    | split

theorem State.writeFor_ok {q : List Instr} (a0 : State) (a1) (a2) (a3) (a4) (h0 : State.Ok q a0) : State.Ok q (State.writeFor a0 a1 a2 a3 a4) := by
  unfold State.writeFor
  repeat' first
    | intro _
    | with_reducible assumption
    | with_reducible apply ok_ite
    | with_reducible apply State.memWrite_ok
    | with_reducible refine State.memWrite_okE (by assumption) ?_
    | with_reducible apply State.answer_ok
    | dsimp only
    | split

theorem execSramRead_ok {q : List Instr} (a0) (a1) (a2) (a3) (a4) (a5 : State) (h5 : State.Ok q a5) : OutOk q (execSramRead a0 a1 a2 a3 a4 a5) := by
  unfold execSramRead
  repeat' first
    | with_reducible apply out_next
    | with_reducible apply out_ite
    | intro _
    | with_reducible assumption
    | with_reducible apply ok_ite
    | with_reducible apply State.hubErrors_ok
    | with_reducible apply State.readFor_ok
    | with_reducible apply State.answer_ok
    | dsimp only
    | split

theorem execSramWrite_ok {q : List Instr} (a0) (a1) (a2) (a3) (a4) (a5 : State) (h5 : State.Ok q a5) : OutOk q (execSramWrite a0 a1 a2 a3 a4 a5) := by
  unfold execSramWrite
  repeat' first
    | with_reducible apply out_next
    | with_reducible apply out_ite
    | intro _
    | with_reducible assumption
    | with_reducible apply ok_ite
    | with_reducible apply State.hubErrors_ok
    | with_reducible apply State.writeFor_ok
    | with_reducible apply State.answer_ok
    | dsimp only
    | split

theorem execSramMergeWrite_ok {q : List Instr} (a0) (a1) (a2) (a3) (a4) (a5 : State) (h5 : State.Ok q a5) : OutOk q (execSramMergeWrite a0 a1 a2 a3 a4 a5) := by
  unfold execSramMergeWrite
  repeat' first
    | with_reducible apply out_next
    | with_reducible apply out_ite
    | intro _
    | with_reducible assumption
    | with_reducible apply ok_ite
    | with_reducible apply State.hubErrors_ok
    | with_reducible apply State.writeFor_ok
    | with_reducible apply State.answer_ok
    | dsimp only
    | split

theorem State.bankTake_ok {q : List Instr} (a0 : State) (a1) (a2) (a3) {t} (h0 : State.Ok q a0) (e : State.bankTake a0 a1 a2 a3 = some t) : State.Ok q t := by
  unfold State.bankTake at e
  revert e
  repeat' first
    | with_reducible refine ok_none
    | with_reducible refine ok_some ?_
    | with_reducible assumption
    | with_reducible apply ok_ite
    | with_reducible refine State.bgTake_ok _ _ _ _ ?_ (by assumption)
    | dsimp only
    | split
    | intro _

theorem execSramWriteback_ok {q : List Instr} (a0) (a1 : State) (h1 : State.Ok q a1) : OutOk q (execSramWriteback a0 a1) := by
  unfold execSramWriteback
  repeat' first
    | with_reducible apply out_next
    | with_reducible apply out_ite
    | intro _
    | with_reducible assumption
    | with_reducible apply ok_ite
    | with_reducible refine State.bankTake_ok _ _ _ _ ?_ (by assumption)
    | with_reducible apply State.answer_ok
    | with_reducible apply State.writeBackWord_ok
    | dsimp only
    | split

theorem execSramBucketLeak_ok {q : List Instr} (a0) (a1 : State) (h1 : State.Ok q a1) : OutOk q (execSramBucketLeak a0 a1) := by
  unfold execSramBucketLeak
  repeat' first
    | with_reducible apply out_next
    | with_reducible apply out_ite
    | intro _
    | with_reducible assumption
    | with_reducible apply ok_ite
    | with_reducible apply State.leak_ok
    | dsimp only

theorem State.raw_ok {q : List Instr} (a0 : State) (a1) (a2) (h0 : State.Ok q a0) (h2 : ∀ x0 t, State.Ok q t → State.Ok q (a2 x0 t)) : State.Ok q (State.raw a0 a1 a2) := by
  unfold State.raw
  repeat' first
    | intro _
    | with_reducible assumption
    | with_reducible apply ok_ite
    | with_reducible apply h2
    | with_reducible refine State.bankTake_ok _ _ _ _ ?_ (by assumption)
    | with_reducible apply State.answer_ok
    | with_reducible apply State.rejMark_ok
    | with_reducible apply State.srmEvt_ok
    | dsimp only
    | split

theorem State.putStored_ok {q : List Instr} (a0 : State) (a1) (a2) (a3) (h0 : State.Ok q a0) : State.Ok q (State.putStored a0 a1 a2 a3) := by
  unfold State.putStored
  repeat' first
    | intro _
    | with_reducible assumption
    | with_reducible apply ok_ite
    | with_reducible apply State.writeMem_ok
    | with_reducible apply State.setWordInfo_ok
    | dsimp only
    | (rw [ok_mk_iff]; refine ⟨?_, ?_, ?_, ?_⟩)
    | with_reducible refine State.Ok.pending ?_
    | with_reducible apply State.Ok.m
    | with_reducible apply State.Ok.c
    | with_reducible apply State.Ok.r

theorem State.srmRawRead_ok {q : List Instr} (a0 : State) (h0 : State.Ok q a0) : State.Ok q (State.srmRawRead a0) := by
  unfold State.srmRawRead
  repeat' first
    | intro _
    | with_reducible assumption
    | with_reducible apply ok_ite
    | with_reducible apply State.raw_ok
    | with_reducible apply State.wr_ok
    | dsimp only

theorem execSrmRawRead_ok {q : List Instr} (a0 : State) (h0 : State.Ok q a0) : OutOk q (execSrmRawRead a0) := by
  unfold execSrmRawRead
  repeat' first
    | with_reducible apply out_next
    | with_reducible apply out_ite
    | intro _
    | with_reducible assumption
    | with_reducible apply ok_ite
    | with_reducible apply State.srmRawRead_ok
    | dsimp only

theorem State.srmRawWrData_ok {q : List Instr} (a0 : State) (h0 : State.Ok q a0) : State.Ok q (State.srmRawWrData a0) := by
  unfold State.srmRawWrData
  repeat' first
    | intro _
    | with_reducible assumption
    | with_reducible apply ok_ite
    | with_reducible apply State.raw_ok
    | with_reducible apply State.putStored_ok
    | dsimp only

theorem execSrmRawWrData_ok {q : List Instr} (a0 : State) (h0 : State.Ok q a0) : OutOk q (execSrmRawWrData a0) := by
  unfold execSrmRawWrData
  repeat' first
    | with_reducible apply out_next
    | with_reducible apply out_ite
    | intro _
    | with_reducible assumption
    | with_reducible apply ok_ite
    | with_reducible apply State.srmRawWrData_ok
    | dsimp only

theorem State.srmRawWrChk_ok {q : List Instr} (a0 : State) (h0 : State.Ok q a0) : State.Ok q (State.srmRawWrChk a0) := by
  unfold State.srmRawWrChk
  repeat' first
    | intro _
    | with_reducible assumption
    | with_reducible apply ok_ite
    | with_reducible apply State.raw_ok
    | with_reducible apply State.putStored_ok
    | dsimp only

theorem execSrmRawWrChk_ok {q : List Instr} (a0 : State) (h0 : State.Ok q a0) : OutOk q (execSrmRawWrChk a0) := by
  unfold execSrmRawWrChk
  repeat' first
    | with_reducible apply out_next
    | with_reducible apply out_ite
    | intro _
    | with_reducible assumption
    | with_reducible apply ok_ite
    | with_reducible apply State.srmRawWrChk_ok
    | dsimp only

theorem State.srmRawWrBoth_ok {q : List Instr} (a0 : State) (h0 : State.Ok q a0) : State.Ok q (State.srmRawWrBoth a0) := by
  unfold State.srmRawWrBoth
  repeat' first
    | intro _
    | with_reducible assumption
    | with_reducible apply ok_ite
    | with_reducible apply State.raw_ok
    | with_reducible apply State.putStored_ok
    | dsimp only

theorem execSrmRawWrBoth_ok {q : List Instr} (a0 : State) (h0 : State.Ok q a0) : OutOk q (execSrmRawWrBoth a0) := by
  unfold execSrmRawWrBoth
  repeat' first
    | with_reducible apply out_next
    | with_reducible apply out_ite
    | intro _
    | with_reducible assumption
    | with_reducible apply ok_ite
    | with_reducible apply State.srmRawWrBoth_ok
    | dsimp only

theorem State.srmClrLog_ok {q : List Instr} (a0 : State) (h0 : State.Ok q a0) : State.Ok q (State.srmClrLog a0) := by
  unfold State.srmClrLog
  repeat' first
    | intro _
    | with_reducible assumption
    | with_reducible apply ok_ite
    | with_reducible apply State.wr_ok
    | dsimp only

theorem execSrmClrLog_ok {q : List Instr} (a0 : State) (h0 : State.Ok q a0) : OutOk q (execSrmClrLog a0) := by
  unfold execSrmClrLog
  repeat' first
    | with_reducible apply out_next
    | with_reducible apply out_ite
    | intro _
    | with_reducible assumption
    | with_reducible apply ok_ite
    | with_reducible apply State.srmClrLog_ok
    | dsimp only

theorem State.srmCmd_ok {q : List Instr} (a0 : State) (a1) (h0 : State.Ok q a0) : State.Ok q (State.srmCmd a0 a1) := by
  unfold State.srmCmd
  repeat' first
    | intro _
    | with_reducible assumption
    | with_reducible apply ok_ite
    | with_reducible apply State.srmRawRead_ok
    | with_reducible apply State.srmRawWrData_ok
    | with_reducible apply State.srmRawWrChk_ok
    | with_reducible apply State.srmRawWrBoth_ok
    | with_reducible apply State.srmClrLog_ok
    | with_reducible apply State.rejMark_ok
    | with_reducible apply State.srmEvt_ok
    | dsimp only
    | split

theorem State.ttRegion_ok {q : List Instr} (a0 : State) (a1) (a2) (h0 : State.Ok q a0) : State.Ok q (State.ttRegion a0 a1 a2) := by
  unfold State.ttRegion
  repeat' first
    | intro _
    | with_reducible assumption
    | with_reducible apply ok_ite
    | with_reducible apply State.wr_ok
    | with_reducible apply State.rejMark_ok
    | with_reducible apply State.srmEvt_ok
    | dsimp only
    | split

theorem execSrbTtRegion_ok {q : List Instr} (a0) (a1) (a2 : State) (h2 : State.Ok q a2) : OutOk q (execSrbTtRegion a0 a1 a2) := by
  unfold execSrbTtRegion
  repeat' first
    | with_reducible apply out_next
    | with_reducible apply out_ite
    | intro _
    | with_reducible assumption
    | with_reducible apply ok_ite
    | with_reducible apply State.ttRegion_ok
    | dsimp only

theorem State.srbClrCnt_ok {q : List Instr} (a0 : State) (a1) (h0 : State.Ok q a0) : State.Ok q (State.srbClrCnt a0 a1) := by
  unfold State.srbClrCnt
  repeat' first
    | intro _
    | with_reducible assumption
    | with_reducible apply ok_ite
    | with_reducible apply State.wr_ok
    | dsimp only

theorem execSrbClrCnt_ok {q : List Instr} (a0) (a1 : State) (h1 : State.Ok q a1) : OutOk q (execSrbClrCnt a0 a1) := by
  unfold execSrbClrCnt
  repeat' first
    | with_reducible apply out_next
    | with_reducible apply out_ite
    | intro _
    | with_reducible assumption
    | with_reducible apply ok_ite
    | with_reducible apply State.srbClrCnt_ok
    | dsimp only

theorem State.srbCmd_ok {q : List Instr} (a0 : State) (a1) (a2) (a3) (h0 : State.Ok q a0) : State.Ok q (State.srbCmd a0 a1 a2 a3) := by
  unfold State.srbCmd
  repeat' first
    | intro _
    | with_reducible assumption
    | with_reducible apply ok_ite
    | with_reducible apply State.ttRegion_ok
    | with_reducible apply State.srbClrCnt_ok
    | with_reducible apply State.rejMark_ok
    | with_reducible apply State.srmEvt_ok
    | dsimp only
    | split

theorem State.ttCopy_ok {q : List Instr} (a0 : State) (a1) (h0 : State.Ok q a0) : State.Ok q (State.ttCopy a0 a1) := by
  unfold State.ttCopy
  repeat' first
    | intro _
    | with_reducible assumption
    | with_reducible apply ok_ite
    | with_reducible apply State.sramCe_ok
    | with_reducible apply State.writeMem_ok
    | with_reducible apply State.setWordInfo_ok
    | with_reducible apply State.sramBad_ok
    | dsimp only
    | split
    | (rw [ok_mk_iff]; refine ⟨?_, ?_, ?_, ?_⟩)
    | with_reducible refine State.Ok.pending ?_
    | with_reducible apply State.Ok.m
    | with_reducible apply State.Ok.c
    | with_reducible apply State.Ok.r

theorem execTtRegionStart_ok {q : List Instr} (a0) (a1 : State) (h1 : State.Ok q a1) : OutOk q (execTtRegionStart a0 a1) := by
  unfold execTtRegionStart
  repeat' first
    | with_reducible apply out_next
    | with_reducible apply out_ite
    | intro _
    | with_reducible assumption
    | with_reducible apply ok_ite
    | with_reducible refine State.bankTake_ok _ _ _ _ ?_ (by assumption)
    | with_reducible apply State.answer_ok
    | with_reducible apply State.each_ok
    | with_reducible apply State.ttCopy_ok
    | with_reducible apply State.wr_ok
    | dsimp only
    | split

theorem State.rowFail_ok {q : List Instr} (a0) (a1) (a2 : State) (h2 : State.Ok q a2) : State.Ok q (State.rowFail a0 a1 a2) := by
  unfold State.rowFail
  repeat' first
    | intro _
    | with_reducible assumption
    | with_reducible apply ok_ite
    | with_reducible apply State.wr_ok
    | with_reducible apply State.inc_ok
    | with_reducible refine State.repairRecord_ok _ _ ?_ (by assumption)
    | with_reducible apply State.srmEvt_ok
    | with_reducible apply ok_match_opt
    | dsimp only
    | split

theorem execTtRegionDone_ok {q : List Instr} (a0) (a1) (a2 : State) (h2 : State.Ok q a2) : OutOk q (execTtRegionDone a0 a1 a2) := by
  unfold execTtRegionDone
  repeat' first
    | with_reducible apply out_next
    | with_reducible apply out_ite
    | intro _
    | with_reducible assumption
    | with_reducible apply ok_ite
    | with_reducible apply State.each_ok
    | with_reducible apply State.rowFail_ok
    | with_reducible apply State.wr_ok
    | with_reducible apply State.add_ok
    | dsimp only
    | split

theorem State.retEnter_ok {q : List Instr} (a0 : State) (a1) (h0 : State.Ok q a0) : State.Ok q (State.retEnter a0 a1) := by
  unfold State.retEnter
  repeat' first
    | intro _
    | with_reducible assumption
    | with_reducible apply ok_ite
    | with_reducible apply State.deny_ok
    | with_reducible apply State.wr_ok
    | dsimp only
    | split

theorem execSrbRetEnter_ok {q : List Instr} (a0) (a1 : State) (h1 : State.Ok q a1) : OutOk q (execSrbRetEnter a0 a1) := by
  unfold execSrbRetEnter
  repeat' first
    | with_reducible apply out_next
    | with_reducible apply out_ite
    | intro _
    | with_reducible assumption
    | with_reducible apply ok_ite
    | with_reducible apply State.retEnter_ok
    | dsimp only

theorem execRetEntered_ok {q : List Instr} (a0) (a1 : State) (h1 : State.Ok q a1) : OutOk q (execRetEntered a0 a1) := by
  unfold execRetEntered
  repeat' first
    | with_reducible apply out_next
    | with_reducible apply out_ite
    | intro _
    | with_reducible assumption
    | with_reducible apply ok_ite
    | with_reducible apply State.wr_ok
    | dsimp only
    | split

theorem State.retExit_ok {q : List Instr} (a0 : State) (a1) (h0 : State.Ok q a0) : State.Ok q (State.retExit a0 a1) := by
  unfold State.retExit
  repeat' first
    | intro _
    | with_reducible assumption
    | with_reducible apply ok_ite
    | with_reducible apply State.wr_ok
    | dsimp only
    | split

theorem execSrbRetExit_ok {q : List Instr} (a0) (a1) (a2 : State) (h2 : State.Ok q a2) : OutOk q (execSrbRetExit a0 a1 a2) := by
  unfold execSrbRetExit
  repeat' first
    | with_reducible apply out_next
    | with_reducible apply out_ite
    | intro _
    | with_reducible assumption
    | with_reducible apply ok_ite
    | with_reducible apply State.wr_ok
    | with_reducible apply State.retExit_ok
    | dsimp only
    | split

theorem State.srbCtrl_ok {q : List Instr} (a0 : State) (a1) (a2) (h0 : State.Ok q a0) : State.Ok q (State.srbCtrl a0 a1 a2) := by
  unfold State.srbCtrl
  repeat' first
    | intro _
    | with_reducible assumption
    | with_reducible apply ok_ite
    | with_reducible apply State.writeReg_ok
    | with_reducible apply State.retEnter_ok
    | with_reducible apply State.retExit_ok
    | dsimp only
    | split

theorem execRetWakeDone_ok {q : List Instr} (a0) (a1 : State) (h1 : State.Ok q a1) : OutOk q (execRetWakeDone a0 a1) := by
  unfold execRetWakeDone
  repeat' first
    | with_reducible apply out_next
    | with_reducible apply out_ite
    | intro _
    | with_reducible assumption
    | with_reducible apply ok_ite
    | with_reducible apply State.wr_ok
    | dsimp only
    | split

theorem State.zeroWords_ok {q : List Instr} (a0 : State) (a1) (a2) (h0 : State.Ok q a0) : State.Ok q (State.zeroWords a0 a1 a2) := by
  unfold State.zeroWords
  repeat' first
    | intro _
    | with_reducible assumption
    | with_reducible apply ok_ite
    | dsimp only
    | (rw [ok_mk_iff]; refine ⟨?_, ?_, ?_, ?_⟩)
    | with_reducible refine State.Ok.pending ?_
    | with_reducible apply State.Ok.m
    | with_reducible apply State.Ok.c
    | with_reducible apply State.Ok.r
    | with_reducible apply Memory.wf_delRange
    | with_reducible apply Memory.wf_set
    | with_reducible apply Memory.wf_filter

theorem State.wipeWords_ok {q : List Instr} (a0 : State) (h0 : State.Ok q a0) : State.Ok q (State.wipeWords a0) := by
  unfold State.wipeWords
  repeat' first
    | intro _
    | with_reducible assumption
    | with_reducible apply ok_ite
    | with_reducible apply State.zeroWords_ok
    | dsimp only

theorem State.startWipe_ok {q : List Instr} (a0 : State) (h0 : State.Ok q a0) : State.Ok q (State.startWipe a0) := by
  unfold State.startWipe
  repeat' first
    | intro _
    | with_reducible assumption
    | with_reducible apply ok_ite
    | with_reducible apply State.wipeWords_ok
    | with_reducible apply State.wr_ok
    | dsimp only

theorem execSecureWipe_ok {q : List Instr} (a0 : State) (h0 : State.Ok q a0) : OutOk q (execSecureWipe a0) := by
  unfold execSecureWipe
  repeat' first
    | with_reducible apply out_next
    | with_reducible apply out_ite
    | intro _
    | with_reducible assumption
    | with_reducible apply ok_ite
    | with_reducible apply State.startWipe_ok
    | dsimp only

theorem execSecureWipeDone_ok {q : List Instr} (a0 : State) (h0 : State.Ok q a0) : OutOk q (execSecureWipeDone a0) := by
  unfold execSecureWipeDone
  repeat' first
    | with_reducible apply out_next
    | with_reducible apply out_ite
    | intro _
    | with_reducible assumption
    | with_reducible apply ok_ite
    | with_reducible apply State.wr_ok
    | with_reducible apply State.add_ok
    | with_reducible apply State.srmEvt_ok
    | dsimp only
    | split

end Sys2Proof.Machine
end

