-- ==== Sys2Proof/Laws/OkHbm.lean ====
section
/-! SUPPORT. What the operations of Machine/Hbm.lean keep: the canonical form of the state and its queue. -/

namespace Sys2Proof.Machine

theorem execHbmRead_ok {q : List Instr} (a0) (a1) (a2) (a3) (a4) (a5 : State) (h5 : State.Ok q a5) : OutOk q (execHbmRead a0 a1 a2 a3 a4 a5) := by
  unfold execHbmRead
  repeat' first
    | with_reducible apply out_next
    | with_reducible apply out_ite
    | intro _
    | with_reducible assumption
    | with_reducible apply ok_ite
    | with_reducible apply State.wireErrors_ok
    | with_reducible apply State.readFor_ok
    | with_reducible apply State.answer_ok
    | dsimp only
    | split

theorem execHbmWrite_ok {q : List Instr} (a0) (a1) (a2) (a3) (a4) (a5 : State) (h5 : State.Ok q a5) : OutOk q (execHbmWrite a0 a1 a2 a3 a4 a5) := by
  unfold execHbmWrite
  repeat' first
    | with_reducible apply out_next
    | with_reducible apply out_ite
    | intro _
    | with_reducible assumption
    | with_reducible apply ok_ite
    | with_reducible apply State.wireErrors_ok
    | with_reducible apply State.writeFor_ok
    | with_reducible apply State.answer_ok
    | dsimp only
    | split

theorem execHbmMerge_ok {q : List Instr} (a0) (a1) (a2) (a3) (a4) (a5 : State) (h5 : State.Ok q a5) : OutOk q (execHbmMerge a0 a1 a2 a3 a4 a5) := by
  unfold execHbmMerge
  repeat' first
    | with_reducible apply out_next
    | with_reducible apply out_ite
    | intro _
    | with_reducible assumption
    | with_reducible apply ok_ite
    | with_reducible apply State.wireErrors_ok
    | with_reducible apply State.writeFor_ok
    | with_reducible apply State.answer_ok
    | dsimp only
    | split

theorem execHbmWriteback_ok {q : List Instr} (a0) (a1) (a2 : State) (h2 : State.Ok q a2) : OutOk q (execHbmWriteback a0 a1 a2) := by
  unfold execHbmWriteback
  repeat' first
    | with_reducible apply out_next
    | with_reducible apply out_ite
    | intro _
    | with_reducible assumption
    | with_reducible apply ok_ite
    | with_reducible refine State.hbmSpend_ok _ _ _ ?_ (by assumption)
    | with_reducible apply State.writeBackLine_ok
    | with_reducible apply State.answer_ok
    | dsimp only
    | split

theorem execHbmSchedPeriod_ok {q : List Instr} (a0 : State) (h0 : State.Ok q a0) : OutOk q (execHbmSchedPeriod a0) := by
  unfold execHbmSchedPeriod
  repeat' first
    | with_reducible apply out_next
    | with_reducible apply out_ite
    | intro _
    | with_reducible assumption
    | with_reducible apply ok_ite
    | with_reducible apply State.each_ok
    | with_reducible apply State.wr_ok
    | with_reducible apply State.add_ok
    | dsimp only
    | split

theorem State.refreshRank_ok {q : List Instr} (a0 : State) (a1) (h0 : State.Ok q a0) : State.Ok q (State.refreshRank a0 a1) := by
  unfold State.refreshRank
  repeat' first
    | intro _
    | with_reducible assumption
    | with_reducible apply ok_ite
    | with_reducible apply State.each_ok
    | with_reducible apply State.wr_ok
    | with_reducible apply State.add_ok
    | dsimp only

theorem execHbmRefresh_ok {q : List Instr} (a0) (a1) (a2) (a3 : State) (h3 : State.Ok q a3) : OutOk q (execHbmRefresh a0 a1 a2 a3) := by
  unfold execHbmRefresh
  repeat' first
    | with_reducible apply out_next
    | with_reducible apply out_ite
    | intro _
    | with_reducible assumption
    | with_reducible apply ok_ite
    | with_reducible apply State.refreshRank_ok
    | with_reducible apply State.add_ok
    | with_reducible apply State.wr_ok
    | dsimp only
    | split

theorem execHbmTempRead_ok {q : List Instr} (a0) (a1 : State) (h1 : State.Ok q a1) : OutOk q (execHbmTempRead a0 a1) := by
  unfold execHbmTempRead
  repeat' first
    | with_reducible apply out_next
    | with_reducible apply out_ite
    | intro _
    | with_reducible assumption
    | with_reducible apply ok_ite
    | with_reducible apply State.wr_ok
    | with_reducible apply State.hbmEvt_ok
    | dsimp only
    | split

theorem execNeighbourRefresh_ok {q : List Instr} (a0) (a1 : State) (h1 : State.Ok q a1) : OutOk q (execNeighbourRefresh a0 a1) := by
  unfold execNeighbourRefresh
  repeat' first
    | with_reducible apply out_next
    | with_reducible apply out_ite
    | intro _
    | with_reducible assumption
    | with_reducible apply ok_ite
    | with_reducible apply State.inc_ok
    | dsimp only
    | split
    | (rw [ok_mk_iff]; refine ⟨?_, ?_, ?_, ?_⟩)
    | with_reducible refine State.Ok.pending ?_
    | with_reducible apply State.Ok.m
    | with_reducible apply State.Ok.c
    | with_reducible apply State.Ok.r

theorem State.setPlaceInfo_ok {q : List Instr} (a0 : State) (a1) (a2) (h0 : State.Ok q a0) : State.Ok q (State.setPlaceInfo a0 a1 a2) := by
  unfold State.setPlaceInfo
  repeat' first
    | intro _
    | with_reducible assumption
    | with_reducible apply ok_ite
    | dsimp only
    | (rw [ok_mk_iff]; refine ⟨?_, ?_, ?_, ?_⟩)
    | with_reducible refine State.Ok.pending ?_
    | with_reducible apply State.Ok.m
    | with_reducible apply State.Ok.c
    | with_reducible apply State.Ok.r

theorem State.fixUnder_ok {q : List Instr} (a0 : State) (a1) (a2) (h0 : State.Ok q a0) : State.Ok q (State.fixUnder a0 a1 a2) := by
  unfold State.fixUnder
  repeat' first
    | intro _
    | with_reducible assumption
    | with_reducible apply ok_ite
    | with_reducible apply State.fixPlace_ok
    | with_reducible apply State.setPlaceInfo_ok
    | dsimp only
    | split
    | (rw [ok_mk_iff]; refine ⟨?_, ?_, ?_, ?_⟩)
    | with_reducible refine State.Ok.pending ?_
    | with_reducible apply State.Ok.m
    | with_reducible apply State.Ok.c
    | with_reducible apply State.Ok.r

theorem State.placeBad_ok {q : List Instr} (a0 : State) (a1) (a2) (h0 : State.Ok q a0) : State.Ok q (State.placeBad a0 a1 a2) := by
  unfold State.placeBad
  repeat' first
    | intro _
    | with_reducible assumption
    | with_reducible apply ok_ite
    | with_reducible apply State.hbmBad_ok
    | with_reducible apply State.fresh_ok
    | with_reducible refine State.fresh_okE (by assumption) ?_
    | dsimp only
    | split

theorem State.scrubPlace_ok {q : List Instr} (a0 : State) (a1) (h0 : State.Ok q a0) : State.Ok q (State.scrubPlace a0 a1) := by
  unfold State.scrubPlace
  repeat' first
    | intro _
    | with_reducible assumption
    | with_reducible apply ok_ite
    | with_reducible apply State.hbmCe_ok
    | with_reducible apply State.fixUnder_ok
    | with_reducible apply State.inc_ok
    | with_reducible apply State.placeBad_ok
    | dsimp only
    | split

theorem execPatrolScrubLine_ok {q : List Instr} (a0 : State) (h0 : State.Ok q a0) : OutOk q (execPatrolScrubLine a0) := by
  unfold execPatrolScrubLine
  repeat' first
    | with_reducible apply out_next
    | with_reducible apply out_ite
    | intro _
    | with_reducible assumption
    | with_reducible apply ok_ite
    | with_reducible apply State.answer_ok
    | with_reducible refine State.hbmSpend_ok _ _ _ ?_ (by assumption)
    | with_reducible apply State.activate_ok
    | with_reducible apply State.scrubPlace_ok
    | with_reducible apply State.wr_ok
    | with_reducible apply State.add_ok
    | dsimp only
    | split

theorem execHbmBucketLeak_ok {q : List Instr} (a0) (a1 : State) (h1 : State.Ok q a1) : OutOk q (execHbmBucketLeak a0 a1) := by
  unfold execHbmBucketLeak
  repeat' first
    | with_reducible apply out_next
    | with_reducible apply out_ite
    | intro _
    | with_reducible assumption
    | with_reducible apply ok_ite
    | with_reducible apply State.leak_ok
    | dsimp only

theorem State.migrate_ok {q : List Instr} (a0 : State) (a1) (a2) (h0 : State.Ok q a0) : State.Ok q (State.migrate a0 a1 a2) := by
  unfold State.migrate
  repeat' first
    | intro _
    | with_reducible assumption
    | with_reducible apply ok_ite
    | with_reducible apply State.bstAborted_ok
    | with_reducible apply State.recBegin_ok
    | with_reducible apply State.wr_ok
    | with_reducible apply State.hbmEvt_ok
    | dsimp only
    | split

theorem execMigrationStart_ok {q : List Instr} (a0) (a1 : State) (h1 : State.Ok q a1) : OutOk q (execMigrationStart a0 a1) := by
  unfold execMigrationStart
  repeat' first
    | with_reducible apply out_next
    | with_reducible apply out_ite
    | intro _
    | with_reducible assumption
    | with_reducible apply ok_ite
    | with_reducible apply State.migrate_ok
    | with_reducible apply State.wr_ok
    | with_reducible apply State.hbmEvt_ok
    | dsimp only
    | split

theorem State.copyPlace_ok {q : List Instr} (a0 : State) (a1) (a2) (h0 : State.Ok q a0) : State.Ok q (State.copyPlace a0 a1 a2) := by
  unfold State.copyPlace
  repeat' first
    | intro _
    | with_reducible assumption
    | with_reducible apply ok_ite
    | with_reducible apply State.writeMem_ok
    | dsimp only
    | (rw [ok_mk_iff]; refine ⟨?_, ?_, ?_, ?_⟩)
    | with_reducible refine State.Ok.pending ?_
    | with_reducible apply State.Ok.m
    | with_reducible apply State.Ok.c
    | with_reducible apply State.Ok.r

theorem State.migSpend_ok {q : List Instr} (a0 : State) (a1) (a2) {t} (h0 : State.Ok q a0) (e : State.migSpend a0 a1 a2 = some t) : State.Ok q t := by
  unfold State.migSpend at e
  revert e
  repeat' first
    | with_reducible refine ok_none
    | with_reducible refine ok_some ?_
    | with_reducible assumption
    | with_reducible apply ok_ite
    | with_reducible apply State.add_ok
    | dsimp only
    | split
    | intro _

theorem execMigrationCopyLine_ok {q : List Instr} (a0 : State) (h0 : State.Ok q a0) : OutOk q (execMigrationCopyLine a0) := by
  unfold execMigrationCopyLine
  repeat' first
    | with_reducible apply out_next
    | with_reducible apply out_ite
    | intro _
    | with_reducible assumption
    | with_reducible apply ok_ite
    | with_reducible refine State.migSpend_ok _ _ _ ?_ (by assumption)
    | with_reducible apply State.answer_ok
    | with_reducible apply State.activate_ok
    | with_reducible apply State.hbmCe_ok
    | with_reducible apply State.fixUnder_ok
    | with_reducible apply State.placeBad_ok
    | with_reducible apply State.copyPlace_ok
    | with_reducible apply State.wr_ok
    | dsimp only
    | split

theorem execMigrationDone_ok {q : List Instr} (a0 : State) (h0 : State.Ok q a0) : OutOk q (execMigrationDone a0) := by
  unfold execMigrationDone
  repeat' first
    | with_reducible apply out_next
    | with_reducible apply out_ite
    | intro _
    | with_reducible assumption
    | with_reducible apply ok_ite
    | with_reducible apply State.wr_ok
    | with_reducible refine State.repairRecord_ok _ _ ?_ (by assumption)
    | with_reducible apply State.hbmEvt_ok
    | with_reducible apply State.recEnd_ok
    | with_reducible apply ok_match_opt
    | dsimp only
    | split

theorem State.hbmSample_ok {q : List Instr} (a0 : State) (h0 : State.Ok q a0) : State.Ok q (State.hbmSample a0) := by
  unfold State.hbmSample
  repeat' first
    | intro _
    | with_reducible assumption
    | with_reducible apply ok_ite
    | with_reducible apply State.wr_ok
    | with_reducible apply State.each_ok
    | dsimp only

theorem State.hbmFillTo_ok {q : List Instr} (a0 : State) (a1) (h0 : State.Ok q a0) : State.Ok q (State.hbmFillTo a0 a1) := by
  unfold State.hbmFillTo
  repeat' first
    | intro _
    | with_reducible assumption
    | with_reducible apply ok_ite
    | with_reducible apply State.wr_ok
    | with_reducible apply State.each_ok
    | dsimp only
    | (rw [ok_mk_iff]; refine ⟨?_, ?_, ?_, ?_⟩)
    | with_reducible refine State.Ok.pending ?_
    | with_reducible apply State.Ok.m
    | with_reducible apply State.Ok.c
    | with_reducible apply State.Ok.r
    | with_reducible apply Memory.wf_delRange
    | with_reducible apply Memory.wf_set
    | with_reducible apply Memory.wf_filter

theorem State.hbmFillStop_ok {q : List Instr} (a0 : State) (h0 : State.Ok q a0) : State.Ok q (State.hbmFillStop a0) := by
  unfold State.hbmFillStop
  repeat' first
    | intro _
    | with_reducible assumption
    | with_reducible apply ok_ite
    | with_reducible apply State.fresh_ok
    | with_reducible refine State.fresh_okE (by assumption) ?_
    | with_reducible apply State.hbmFillTo_ok
    | dsimp only

theorem State.hbmEnable_ok {q : List Instr} (a0 : State) (h0 : State.Ok q a0) : State.Ok q (State.hbmEnable a0) := by
  unfold State.hbmEnable
  repeat' first
    | intro _
    | with_reducible assumption
    | with_reducible apply ok_ite
    | with_reducible apply State.deny_ok
    | with_reducible apply State.wr_ok
    | with_reducible apply State.hbmSample_ok
    | dsimp only
    | split

theorem State.hbmDisable_ok {q : List Instr} (a0 : State) (h0 : State.Ok q a0) : State.Ok q (State.hbmDisable a0) := by
  unfold State.hbmDisable
  repeat' first
    | intro _
    | with_reducible assumption
    | with_reducible apply ok_ite
    | with_reducible apply State.deny_ok
    | with_reducible apply State.wr_ok
    | with_reducible apply State.hbmFillStop_ok
    | dsimp only
    | split

theorem State.hbmCtrlWrite_ok {q : List Instr} (a0 : State) (a1) (h0 : State.Ok q a0) : State.Ok q (State.hbmCtrlWrite a0 a1) := by
  unfold State.hbmCtrlWrite
  repeat' first
    | intro _
    | with_reducible assumption
    | with_reducible apply ok_ite
    | with_reducible apply State.wr_ok
    | with_reducible apply State.deny_ok
    | with_reducible apply State.hbmEnable_ok
    | with_reducible apply State.hbmDisable_ok
    | dsimp only
    | split

theorem execHbmEnable_ok {q : List Instr} (a0) (a1 : State) (h1 : State.Ok q a1) : OutOk q (execHbmEnable a0 a1) := by
  unfold execHbmEnable
  repeat' first
    | with_reducible apply out_next
    | with_reducible apply out_ite
    | intro _
    | with_reducible assumption
    | with_reducible apply ok_ite
    | with_reducible apply State.hbmCtrlWrite_ok
    | dsimp only

theorem execHbmDisable_ok {q : List Instr} (a0) (a1 : State) (h1 : State.Ok q a1) : OutOk q (execHbmDisable a0 a1) := by
  unfold execHbmDisable
  repeat' first
    | with_reducible apply out_next
    | with_reducible apply out_ite
    | intro _
    | with_reducible assumption
    | with_reducible apply ok_ite
    | with_reducible apply State.hbmCtrlWrite_ok
    | dsimp only

theorem State.applyRankRecs_ok {q : List Instr} (a0 : State) (h0 : State.Ok q a0) : State.Ok q (State.applyRankRecs a0) := by
  unfold State.applyRankRecs
  repeat' first
    | intro _
    | with_reducible assumption
    | with_reducible apply ok_ite
    | with_reducible apply State.each_ok
    | with_reducible apply State.wr_ok
    | dsimp only
    | split

theorem execHbmTrainingDone_ok {q : List Instr} (a0) (a1 : State) (h1 : State.Ok q a1) : OutOk q (execHbmTrainingDone a0 a1) := by
  unfold execHbmTrainingDone
  repeat' first
    | with_reducible apply out_next
    | with_reducible apply out_ite
    | intro _
    | with_reducible assumption
    | with_reducible apply ok_ite
    | with_reducible apply State.each_ok
    | with_reducible apply State.wr_ok
    | with_reducible apply State.applyRankRecs_ok
    | with_reducible apply ok_match_opt
    | dsimp only
    | split

theorem execHbmTrainingFault_ok {q : List Instr} (a0) (a1) (a2 : State) (h2 : State.Ok q a2) : OutOk q (execHbmTrainingFault a0 a1 a2) := by
  unfold execHbmTrainingFault
  repeat' first
    | with_reducible apply out_next
    | with_reducible apply out_ite
    | intro _
    | with_reducible assumption
    | with_reducible apply ok_ite
    | with_reducible apply State.each_ok
    | with_reducible apply State.wr_ok
    | with_reducible apply State.hbmEvt_ok
    | with_reducible apply ok_match_opt
    | dsimp only
    | split

theorem execHbmFillDone_ok {q : List Instr} (a0 : State) (h0 : State.Ok q a0) : OutOk q (execHbmFillDone a0) := by
  unfold execHbmFillDone
  repeat' first
    | with_reducible apply out_next
    | with_reducible apply out_ite
    | intro _
    | with_reducible assumption
    | with_reducible apply ok_ite
    | with_reducible apply State.hbmFillTo_ok
    | with_reducible apply State.wr_ok
    | dsimp only
    | split

theorem execHbmDrainDone_ok {q : List Instr} (a0 : State) (h0 : State.Ok q a0) : OutOk q (execHbmDrainDone a0) := by
  unfold execHbmDrainDone
  repeat' first
    | with_reducible apply out_next
    | with_reducible apply out_ite
    | intro _
    | with_reducible assumption
    | with_reducible apply ok_ite
    | with_reducible apply State.wr_ok
    | dsimp only
    | split
    | (rw [ok_mk_iff]; refine ⟨?_, ?_, ?_, ?_⟩)
    | with_reducible refine State.Ok.pending ?_
    | with_reducible apply State.Ok.m
    | with_reducible apply State.Ok.c
    | with_reducible apply State.Ok.r

theorem State.hbmReject_ok {q : List Instr} (a0 : State) (a1) (h0 : State.Ok q a0) : State.Ok q (State.hbmReject a0 a1) := by
  unfold State.hbmReject
  repeat' first
    | intro _
    | with_reducible assumption
    | with_reducible apply ok_ite
    | with_reducible apply State.rejMark_ok
    | with_reducible apply State.hbmEvt_ok
    | dsimp only

theorem State.hbmMigrate_ok {q : List Instr} (a0 : State) (a1) (h0 : State.Ok q a0) : State.Ok q (State.hbmMigrate a0 a1) := by
  unfold State.hbmMigrate
  repeat' first
    | intro _
    | with_reducible assumption
    | with_reducible apply ok_ite
    | with_reducible apply State.migrate_ok
    | with_reducible apply State.hbmReject_ok
    | dsimp only
    | split

theorem execHbmMigrate_ok {q : List Instr} (a0) (a1 : State) (h1 : State.Ok q a1) : OutOk q (execHbmMigrate a0 a1) := by
  unfold execHbmMigrate
  repeat' first
    | with_reducible apply out_next
    | with_reducible apply out_ite
    | intro _
    | with_reducible assumption
    | with_reducible apply ok_ite
    | with_reducible apply State.hbmMigrate_ok
    | dsimp only

theorem State.hbmClrLog_ok {q : List Instr} (a0 : State) (h0 : State.Ok q a0) : State.Ok q (State.hbmClrLog a0) := by
  unfold State.hbmClrLog
  repeat' first
    | intro _
    | with_reducible assumption
    | with_reducible apply ok_ite
    | with_reducible apply State.wr_ok
    | with_reducible apply ok_foldl
    | with_reducible apply ok_foldl2
    | with_reducible apply ok_foldl3
    | dsimp only

theorem execHbmClrLog_ok {q : List Instr} (a0 : State) (h0 : State.Ok q a0) : OutOk q (execHbmClrLog a0) := by
  unfold execHbmClrLog
  repeat' first
    | with_reducible apply out_next
    | with_reducible apply out_ite
    | intro _
    | with_reducible assumption
    | with_reducible apply ok_ite
    | with_reducible apply State.hbmClrLog_ok
    | dsimp only

theorem State.hbmClrCnt_ok {q : List Instr} (a0 : State) (h0 : State.Ok q a0) : State.Ok q (State.hbmClrCnt a0) := by
  unfold State.hbmClrCnt
  repeat' first
    | intro _
    | with_reducible assumption
    | with_reducible apply ok_ite
    | with_reducible apply State.each_ok
    | with_reducible apply State.wr_ok
    | dsimp only

theorem execHbmClrCnt_ok {q : List Instr} (a0 : State) (h0 : State.Ok q a0) : OutOk q (execHbmClrCnt a0) := by
  unfold execHbmClrCnt
  repeat' first
    | with_reducible apply out_next
    | with_reducible apply out_ite
    | intro _
    | with_reducible assumption
    | with_reducible apply ok_ite
    | with_reducible apply State.hbmClrCnt_ok
    | dsimp only

theorem State.hbmCmd_ok {q : List Instr} (a0 : State) (a1) (a2) (h0 : State.Ok q a0) : State.Ok q (State.hbmCmd a0 a1 a2) := by
  unfold State.hbmCmd
  repeat' first
    | intro _
    | with_reducible assumption
    | with_reducible apply ok_ite
    | with_reducible apply State.hbmMigrate_ok
    | with_reducible apply State.hbmClrLog_ok
    | with_reducible apply State.hbmClrCnt_ok
    | with_reducible apply State.hbmReject_ok
    | dsimp only
    | split

end Sys2Proof.Machine
end

