-- ==== Sys2Proof/Laws/OkHopper.lean ====
section
/-! SUPPORT. What the operations of Machine/Hopper.lean keep: the canonical form of the state and its queue. -/

namespace Sys2Proof.Machine

theorem State.hopSee_ok {q : List Instr} (a0 : State) (h0 : State.Ok q a0) : State.Ok q (State.hopSee a0) := by
  unfold State.hopSee
  repeat' first
    | intro _
    | with_reducible assumption
    | with_reducible apply ok_ite
    | with_reducible apply State.each_ok
    | with_reducible apply ok_match_opt
    | dsimp only
    | split
    | (rw [ok_mk_iff]; refine ⟨?_, ?_, ?_, ?_⟩)
    | with_reducible refine State.Ok.pending ?_
    | with_reducible apply State.Ok.m
    | with_reducible apply State.Ok.c
    | with_reducible apply State.Ok.r

theorem State.bufWrite_ok {q : List Instr} (a0 : State) (a1) (a2) (a3) (h0 : State.Ok q a0) : State.Ok q (State.bufWrite a0 a1 a2 a3).2 := by
  unfold State.bufWrite
  repeat' first
    | intro _
    | with_reducible assumption
    | with_reducible apply ok_ite
    | dsimp only
    | with_reducible apply State.memWrite_ok
    | with_reducible refine State.memWrite_okE (by assumption) ?_
    | split

theorem State.bufWrite_okE {q : List Instr} {a0 : State} {a1} {a2} {a3} {b t} (e : State.bufWrite a0 a1 a2 a3 = (b, t)) (h0 : State.Ok q a0) : State.Ok q t := by
  have := State.bufWrite_ok a0 a1 a2 a3 h0
  rw [e] at this; exact this

theorem State.bufRead_ok {q : List Instr} (a0 : State) (a1) (a2) (a3) (h0 : State.Ok q a0) : State.Ok q (State.bufRead a0 a1 a2 a3).2.2 := by
  unfold State.bufRead
  repeat' first
    | intro _
    | with_reducible assumption
    | with_reducible apply ok_ite
    | dsimp only
    | with_reducible apply State.memRead_ok
    | with_reducible refine State.memRead_okE (by assumption) ?_
    | split

theorem State.bufRead_okE {q : List Instr} {a0 : State} {a1} {a2} {a3} {b c t} (e : State.bufRead a0 a1 a2 a3 = (b, c, t)) (h0 : State.Ok q a0) : State.Ok q t := by
  have := State.bufRead_ok a0 a1 a2 a3 h0
  rw [e] at this; exact this

theorem State.stage_ok {q : List Instr} (a0 : State) (a1) (a2) (a3) (h0 : State.Ok q a0) : State.Ok q (State.stage a0 a1 a2 a3) := by
  unfold State.stage
  extract_lets o r1 s1 drop
  have h1 : State.Ok q s1 := State.add_ok _ _ _ h0
  have hd : ∀ t, State.Ok q t → State.Ok q (drop t) := fun t ht => State.raise_ok _ _ (State.inc_ok _ _ _ ht)
  split
  · split
    · rename_i t e
      have k := State.bufWrite_okE e h1
      exact State.add_ok _ _ _ (State.wr_ok _ _ _ (State.add_ok _ _ _ (ok_mk k.1 k.m k.c k.r)))
    · rename_i t _ e
      exact hd _ (State.bufWrite_okE e h1)
  · exact hd _ h1

theorem State.closeRec_ok {q : List Instr} (a0 : State) (a1) (a2) (h0 : State.Ok q a0) : State.Ok q (State.closeRec a0 a1 a2) := by
  unfold State.closeRec
  repeat' first
    | intro _
    | with_reducible assumption
    | with_reducible apply ok_ite
    | with_reducible apply State.inc_ok
    | with_reducible apply State.stage_ok
    | dsimp only
    | split

theorem State.closeOpen_ok {q : List Instr} (a0 : State) (a1) (a2) (h0 : State.Ok q a0) : State.Ok q (State.closeOpen a0 a1 a2) := by
  unfold State.closeOpen
  repeat' first
    | intro _
    | with_reducible assumption
    | with_reducible apply ok_ite
    | with_reducible apply State.closeRec_ok
    | dsimp only
    | split
    | (rw [ok_mk_iff]; refine ⟨?_, ?_, ?_, ?_⟩)
    | with_reducible refine State.Ok.pending ?_
    | with_reducible apply State.Ok.m
    | with_reducible apply State.Ok.c
    | with_reducible apply State.Ok.r

theorem State.setOpen_ok {q : List Instr} (a0 : State) (a1) (a2) (h0 : State.Ok q a0) : State.Ok q (State.setOpen a0 a1 a2) := by
  unfold State.setOpen
  repeat' first
    | intro _
    | with_reducible assumption
    | with_reducible apply ok_ite
    | dsimp only
    | (rw [ok_mk_iff]; refine ⟨?_, ?_, ?_, ?_⟩)
    | with_reducible refine State.Ok.pending ?_
    | with_reducible apply State.Ok.m
    | with_reducible apply State.Ok.c
    | with_reducible apply State.Ok.r

theorem State.rowsRow_ok {q : List Instr} (a0 : State) (a1) (a2) (h0 : State.Ok q a0) : State.Ok q (State.rowsRow a0 a1 a2) := by
  unfold State.rowsRow
  repeat' first
    | intro _
    | with_reducible assumption
    | with_reducible apply ok_ite
    | with_reducible apply State.setOpen_ok
    | with_reducible apply State.closeOpen_ok
    | with_reducible apply ok_match_opt
    | dsimp only
    | split

theorem State.fabricRow_ok {q : List Instr} (a0 : State) (a1) (a2) (h0 : State.Ok q a0) : State.Ok q (State.fabricRow a0 a1 a2) := by
  unfold State.fabricRow
  repeat' first
    | intro _
    | with_reducible assumption
    | with_reducible apply ok_ite
    | with_reducible apply State.closeOpen_ok
    | with_reducible apply State.setOpen_ok
    | with_reducible apply ok_match_opt
    | dsimp only
    | split
    | (rw [ok_mk_iff]; refine ⟨?_, ?_, ?_, ?_⟩)
    | with_reducible refine State.Ok.pending ?_
    | with_reducible apply State.Ok.m
    | with_reducible apply State.Ok.c
    | with_reducible apply State.Ok.r

theorem State.cl49Block_ok {q : List Instr} (a0) (a1) (a2 : State) (a3) (h2 : State.Ok q a2) : State.Ok q (State.cl49Block a0 a1 a2 a3) := by
  unfold State.cl49Block
  repeat' first
    | intro _
    | with_reducible assumption
    | with_reducible apply ok_ite
    | with_reducible apply State.setOpen_ok
    | with_reducible apply State.closeOpen_ok
    | dsimp only
    | split
    | (rw [ok_mk_iff]; refine ⟨?_, ?_, ?_, ?_⟩)
    | with_reducible refine State.Ok.pending ?_
    | with_reducible apply State.Ok.m
    | with_reducible apply State.Ok.c
    | with_reducible apply State.Ok.r

theorem State.hopRow_ok {q : List Instr} (a0 : State) (a1) (a2) (h0 : State.Ok q a0) : State.Ok q (State.hopRow a0 a1 a2) := by
  unfold State.hopRow
  repeat' first
    | intro _
    | with_reducible assumption
    | with_reducible apply ok_ite
    | with_reducible apply State.rowsRow_ok
    | with_reducible apply State.fabricRow_ok
    | with_reducible apply State.cl49Block_ok
    | with_reducible apply ok_foldl
    | with_reducible apply ok_foldl2
    | with_reducible apply ok_foldl3
    | dsimp only
    | split

theorem State.hopDeliver_ok {q : List Instr} (a0 : State) (a1) (a2) (h0 : State.Ok q a0) : State.Ok q (State.hopDeliver a0 a1 a2) := by
  unfold State.hopDeliver
  repeat' first
    | intro _
    | with_reducible assumption
    | with_reducible apply ok_ite
    | with_reducible apply State.hopRow_ok
    | with_reducible apply ok_match_opt
    | dsimp only
    | split
    | (rw [ok_mk_iff]; refine ⟨?_, ?_, ?_, ?_⟩)
    | with_reducible refine State.Ok.pending ?_
    | with_reducible apply State.Ok.m
    | with_reducible apply State.Ok.c
    | with_reducible apply State.Ok.r

theorem State.hopPortDown_ok {q : List Instr} (a0 : State) (a1) (h0 : State.Ok q a0) : State.Ok q (State.hopPortDown a0 a1) := by
  unfold State.hopPortDown
  repeat' first
    | intro _
    | with_reducible assumption
    | with_reducible apply ok_ite
    | with_reducible apply State.hopRow_ok
    | with_reducible apply State.closeOpen_ok
    | with_reducible apply ok_match_opt
    | with_reducible apply ok_foldl
    | with_reducible apply ok_foldl2
    | with_reducible apply ok_foldl3
    | dsimp only
    | (rw [ok_mk_iff]; refine ⟨?_, ?_, ?_, ?_⟩)
    | with_reducible refine State.Ok.pending ?_
    | with_reducible apply State.Ok.m
    | with_reducible apply State.Ok.c
    | with_reducible apply State.Ok.r

theorem State.hopPipeOff_ok {q : List Instr} (a0 : State) (a1) (h0 : State.Ok q a0) : State.Ok q (State.hopPipeOff a0 a1) := by
  unfold State.hopPipeOff
  repeat' first
    | intro _
    | with_reducible assumption
    | with_reducible apply ok_ite
    | dsimp only
    | (rw [ok_mk_iff]; refine ⟨?_, ?_, ?_, ?_⟩)
    | with_reducible refine State.Ok.pending ?_
    | with_reducible apply State.Ok.m
    | with_reducible apply State.Ok.c
    | with_reducible apply State.Ok.r

theorem State.hopPortCfgWrite_ok {q : List Instr} (a0 : State) (a1) (a2) (h0 : State.Ok q a0) : State.Ok q (State.hopPortCfgWrite a0 a1 a2) := by
  unfold State.hopPortCfgWrite
  repeat' first
    | intro _
    | with_reducible assumption
    | with_reducible apply ok_ite
    | with_reducible apply State.writeReg_ok
    | with_reducible apply State.hopPipeOff_ok
    | dsimp only
    | split

theorem execMarkEntry_ok {q : List Instr} (a0) (a1) (a2) (a3) (a4) (a5) (a6 : State) (h6 : State.Ok q a6) : OutOk q (execMarkEntry a0 a1 a2 a3 a4 a5 a6) := by
  unfold execMarkEntry
  repeat' first
    | with_reducible apply out_next
    | with_reducible apply out_ite
    | intro _
    | with_reducible assumption
    | with_reducible apply ok_ite
    | with_reducible apply ok_match_opt
    | dsimp only
    | split
    | (rw [ok_mk_iff]; refine ⟨?_, ?_, ?_, ?_⟩)
    | with_reducible refine State.Ok.pending ?_
    | with_reducible apply State.Ok.m
    | with_reducible apply State.Ok.c
    | with_reducible apply State.Ok.r

theorem State.keyResult_ok {q : List Instr} (a0 : State) (a1) (a2) (a3) (h0 : State.Ok q a0) : State.Ok q (State.keyResult a0 a1 a2 a3) := by
  unfold State.keyResult
  repeat' first
    | intro _
    | with_reducible assumption
    | with_reducible apply ok_ite
    | with_reducible apply ok_match_opt
    | dsimp only
    | split
    | (rw [ok_mk_iff]; refine ⟨?_, ?_, ?_, ?_⟩)
    | with_reducible refine State.Ok.pending ?_
    | with_reducible apply State.Ok.m
    | with_reducible apply State.Ok.c
    | with_reducible apply State.Ok.r

theorem State.openSeg_ok {q : List Instr} (a0 : State) (a1) (a2) (h0 : State.Ok q a0) : State.Ok q (State.openSeg a0 a1 a2) := by
  unfold State.openSeg
  repeat' first
    | intro _
    | with_reducible assumption
    | with_reducible apply ok_ite
    | with_reducible apply State.wr_ok
    | with_reducible apply State.wrIf_ok
    | dsimp only

theorem State.enterBlock_ok {q : List Instr} (a0 : State) (a1) (h0 : State.Ok q a0) : State.Ok q (State.enterBlock a0 a1) := by
  unfold State.enterBlock
  repeat' first
    | intro _
    | with_reducible assumption
    | with_reducible apply ok_ite
    | with_reducible apply State.wr_ok
    | with_reducible apply State.openSeg_ok
    | with_reducible apply State.wrIf_ok
    | with_reducible apply State.add_ok
    | dsimp only
    | split

theorem State.unstage_ok {q : List Instr} (a0 : State) (a1) (a2) (h0 : State.Ok q a0) : State.Ok q (State.unstage a0 a1 a2) := by
  unfold State.unstage
  repeat' first
    | intro _
    | with_reducible assumption
    | with_reducible apply ok_ite
    | with_reducible apply State.wr_ok
    | with_reducible apply ok_match_opt
    | dsimp only
    | (rw [ok_mk_iff]; refine ⟨?_, ?_, ?_, ?_⟩)
    | with_reducible refine State.Ok.pending ?_
    | with_reducible apply State.Ok.m
    | with_reducible apply State.Ok.c
    | with_reducible apply State.Ok.r

theorem State.dropLater_ok {q : List Instr} (a0 : State) (a1) (h0 : State.Ok q a0) : State.Ok q (State.dropLater a0 a1) := by
  unfold State.dropLater
  repeat' first
    | intro _
    | with_reducible assumption
    | with_reducible apply ok_ite
    | with_reducible apply State.each_ok
    | with_reducible apply State.unstage_ok
    | with_reducible apply State.wr_ok
    | with_reducible apply ok_match_opt
    | dsimp only
    | split

theorem State.fileFault_ok {q : List Instr} (a0 : State) (a1) (h0 : State.Ok q a0) : State.Ok q (State.fileFault a0 a1) := by
  unfold State.fileFault
  repeat' first
    | intro _
    | with_reducible assumption
    | with_reducible apply ok_ite
    | with_reducible apply State.each_ok
    | with_reducible apply State.unstage_ok
    | with_reducible apply State.inc_ok
    | with_reducible apply State.wr_ok
    | with_reducible apply State.raise_ok
    | with_reducible apply ok_match_opt
    | dsimp only

theorem State.fileWrite_ok {q : List Instr} (a0 : State) (a1) (a2) (h0 : State.Ok q a0) : State.Ok q (State.fileWrite a0 a1 a2).2 := by
  unfold State.fileWrite
  repeat' first
    | intro _
    | with_reducible assumption
    | with_reducible apply ok_ite
    | dsimp only
    | with_reducible apply State.wr_ok
    | with_reducible apply State.memWrite_ok
    | with_reducible refine State.memWrite_okE (by assumption) ?_
    | with_reducible apply ok_match_opt
    | split
    | (rw [ok_mk_iff]; refine ⟨?_, ?_, ?_, ?_⟩)
    | with_reducible refine State.Ok.pending ?_
    | with_reducible apply State.Ok.m
    | with_reducible apply State.Ok.c
    | with_reducible apply State.Ok.r

theorem State.fileWrite_okE {q : List Instr} {a0 : State} {a1} {a2} {b t} (e : State.fileWrite a0 a1 a2 = (b, t)) (h0 : State.Ok q a0) : State.Ok q t := by
  have := State.fileWrite_ok a0 a1 a2 h0
  rw [e] at this; exact this

theorem State.fileFlush_ok {q : List Instr} (a0 : State) (a1) (h0 : State.Ok q a0) : State.Ok q (State.fileFlush a0 a1).2 := by
  unfold State.fileFlush
  repeat' first
    | intro _
    | with_reducible assumption
    | with_reducible apply ok_ite
    | dsimp only
    | with_reducible apply State.memWrite_ok
    | with_reducible refine State.memWrite_okE (by assumption) ?_
    | with_reducible apply ok_match_opt
    | split
    | (rw [ok_mk_iff]; refine ⟨?_, ?_, ?_, ?_⟩)
    | with_reducible refine State.Ok.pending ?_
    | with_reducible apply State.Ok.m
    | with_reducible apply State.Ok.c
    | with_reducible apply State.Ok.r

theorem State.fileFlush_okE {q : List Instr} {a0 : State} {a1} {b t} (e : State.fileFlush a0 a1 = (b, t)) (h0 : State.Ok q a0) : State.Ok q t := by
  have := State.fileFlush_ok a0 a1 h0
  rw [e] at this; exact this

theorem State.flushOr_ok {q : List Instr} (a0 : State) (a1) (a2) (h0 : State.Ok q a0) (h2 : ∀ t, State.Ok q t → State.Ok q (a2 t)) : State.Ok q (State.flushOr a0 a1 a2) := by
  unfold State.flushOr
  repeat' first
    | intro _
    | with_reducible assumption
    | with_reducible apply ok_ite
    | with_reducible apply h2
    | with_reducible apply State.fileFlush_ok
    | with_reducible refine State.fileFlush_okE (by assumption) ?_
    | with_reducible apply State.fileFault_ok
    | dsimp only
    | split

theorem State.postReached_ok {q : List Instr} (a0 : State) (a1) (h0 : State.Ok q a0) : State.Ok q (State.postReached a0 a1) := by
  unfold State.postReached
  repeat' first
    | intro _
    | with_reducible assumption
    | with_reducible apply ok_ite
    | with_reducible apply State.flushOr_ok
    | with_reducible apply State.dropLater_ok
    | with_reducible apply State.wr_ok
    | with_reducible apply State.setB_ok
    | with_reducible apply State.raise_ok
    | with_reducible apply State.openSeg_ok
    | dsimp only
    | split

theorem State.advanced_ok {q : List Instr} (a0 : State) (a1) (a2) (h0 : State.Ok q a0) : State.Ok q (State.advanced a0 a1 a2) := by
  unfold State.advanced
  repeat' first
    | intro _
    | with_reducible assumption
    | with_reducible apply ok_ite
    | with_reducible apply State.add_ok
    | with_reducible apply State.postReached_ok
    | dsimp only
    | split

theorem State.padBlock_ok {q : List Instr} (a0 : State) (a1) (a2) (h0 : State.Ok q a0) : State.Ok q (State.padBlock a0 a1 a2) := by
  unfold State.padBlock
  repeat' first
    | intro _
    | with_reducible assumption
    | with_reducible apply ok_ite
    | with_reducible apply State.fileWrite_ok
    | with_reducible refine State.fileWrite_okE (by assumption) ?_
    | with_reducible apply State.flushOr_ok
    | with_reducible apply State.add_ok
    | with_reducible apply State.advanced_ok
    | with_reducible apply State.fileFault_ok
    | dsimp only
    | split

theorem State.trigRecord_ok {q : List Instr} (a0 : State) (a1) (a2) (h0 : State.Ok q a0) : State.Ok q (State.trigRecord a0 a1 a2) := by
  unfold State.trigRecord
  repeat' first
    | intro _
    | with_reducible assumption
    | with_reducible apply ok_ite
    | with_reducible apply State.wr_ok
    | with_reducible apply State.raise_ok
    | dsimp only
    | split

theorem State.putRec_ok {q : List Instr} (a0 : State) (a1) (a2) (a3) (h0 : State.Ok q a0) : State.Ok q (State.putRec a0 a1 a2 a3) := by
  unfold State.putRec
  repeat' first
    | intro _
    | with_reducible assumption
    | with_reducible apply ok_ite
    | with_reducible apply State.enterBlock_ok
    | with_reducible apply State.trigRecord_ok
    | with_reducible apply State.fileWrite_ok
    | with_reducible refine State.fileWrite_okE (by assumption) ?_
    | with_reducible apply State.wr_ok
    | with_reducible apply State.advanced_ok
    | with_reducible apply State.fileFault_ok
    | dsimp only
    | split
    | (rw [ok_mk_iff]; refine ⟨?_, ?_, ?_, ?_⟩)
    | with_reducible refine State.Ok.pending ?_
    | with_reducible apply State.Ok.m
    | with_reducible apply State.Ok.c
    | with_reducible apply State.Ok.r

theorem State.finishStop_ok {q : List Instr} (a0 : State) (a1) (h0 : State.Ok q a0) : State.Ok q (State.finishStop a0 a1) := by
  unfold State.finishStop
  repeat' first
    | intro _
    | with_reducible assumption
    | with_reducible apply ok_ite
    | with_reducible apply State.flushOr_ok
    | with_reducible apply State.wr_ok
    | dsimp only
    | split

theorem State.takeStaged_ok {q : List Instr} (a0 : State) (a1) (a2) (h0 : State.Ok q a0) : State.Ok q (State.takeStaged a0 a1 a2) := by
  unfold State.takeStaged
  repeat' first
    | intro _
    | with_reducible assumption
    | with_reducible apply ok_ite
    | with_reducible apply State.wr_ok
    | with_reducible apply ok_match_opt
    | dsimp only
    | (rw [ok_mk_iff]; refine ⟨?_, ?_, ?_, ?_⟩)
    | with_reducible refine State.Ok.pending ?_
    | with_reducible apply State.Ok.m
    | with_reducible apply State.Ok.c
    | with_reducible apply State.Ok.r

theorem State.drainTo_ok {q : List Instr} (a0 : State) (a1) (a2) (a3) (a4) (h0 : State.Ok q a0) : State.Ok q (State.drainTo a0 a1 a2 a3 a4) := by
  unfold State.drainTo
  repeat' first
    | intro _
    | with_reducible assumption
    | with_reducible apply ok_ite
    | with_reducible apply State.padBlock_ok
    | with_reducible apply State.takeStaged_ok
    | with_reducible apply State.putRec_ok
    | dsimp only
    | split
    | (rw [ok_mk_iff]; refine ⟨?_, ?_, ?_, ?_⟩)
    | with_reducible refine State.Ok.pending ?_
    | with_reducible apply State.Ok.m
    | with_reducible apply State.Ok.c
    | with_reducible apply State.Ok.r

theorem State.drainLost_ok {q : List Instr} (a0 : State) (a1) (a2) (h0 : State.Ok q a0) : State.Ok q (State.drainLost a0 a1 a2) := by
  unfold State.drainLost
  repeat' first
    | intro _
    | with_reducible assumption
    | with_reducible apply ok_ite
    | with_reducible apply State.takeStaged_ok
    | with_reducible apply State.inc_ok
    | with_reducible apply State.raise_ok
    | dsimp only

theorem execDrainRecord_ok {q : List Instr} (a0) (a1) (a2 : State) (h2 : State.Ok q a2) : OutOk q (execDrainRecord a0 a1 a2) := by
  unfold execDrainRecord
  repeat' first
    | with_reducible apply out_next
    | with_reducible apply out_ite
    | intro _
    | with_reducible assumption
    | with_reducible apply ok_ite
    | with_reducible apply State.finishStop_ok
    | with_reducible apply State.unstage_ok
    | with_reducible apply State.sramUe_ok
    | with_reducible apply State.drainLost_ok
    | with_reducible apply State.bufRead_ok
    | with_reducible refine State.bufRead_okE (by assumption) ?_
    | with_reducible apply State.drainTo_ok
    | dsimp only
    | split

theorem State.hopReject_ok {q : List Instr} (a0 : State) (a1) (h0 : State.Ok q a0) : State.Ok q (State.hopReject a0 a1) := by
  unfold State.hopReject
  repeat' first
    | intro _
    | with_reducible assumption
    | with_reducible apply ok_ite
    | with_reducible apply State.reject_ok
    | dsimp only

theorem State.hopArm_ok {q : List Instr} (a0 : State) (a1) (h0 : State.Ok q a0) : State.Ok q (State.hopArm a0 a1) := by
  unfold State.hopArm
  repeat' first
    | intro _
    | with_reducible assumption
    | with_reducible apply ok_ite
    | with_reducible apply State.add_ok
    | with_reducible apply State.wr_ok
    | with_reducible apply State.openSeg_ok
    | with_reducible apply State.raise_ok
    | with_reducible apply State.hopReject_ok
    | dsimp only
    | split

theorem execHopArm_ok {q : List Instr} (a0) (a1 : State) (h1 : State.Ok q a1) : OutOk q (execHopArm a0 a1) := by
  unfold execHopArm
  repeat' first
    | with_reducible apply out_next
    | with_reducible apply out_ite
    | intro _
    | with_reducible assumption
    | with_reducible apply ok_ite
    | with_reducible apply State.hopArm_ok
    | dsimp only

theorem State.hopStop_ok {q : List Instr} (a0 : State) (a1) (h0 : State.Ok q a0) : State.Ok q (State.hopStop a0 a1) := by
  unfold State.hopStop
  repeat' first
    | intro _
    | with_reducible assumption
    | with_reducible apply ok_ite
    | with_reducible apply State.wr_ok
    | with_reducible apply State.finishStop_ok
    | with_reducible apply State.hopReject_ok
    | dsimp only
    | split

theorem execHopStop_ok {q : List Instr} (a0) (a1 : State) (h1 : State.Ok q a1) : OutOk q (execHopStop a0 a1) := by
  unfold execHopStop
  repeat' first
    | with_reducible apply out_next
    | with_reducible apply out_ite
    | intro _
    | with_reducible assumption
    | with_reducible apply ok_ite
    | with_reducible apply State.hopStop_ok
    | dsimp only

theorem State.fileTrigger_ok {q : List Instr} (a0 : State) (a1) (h0 : State.Ok q a0) : State.Ok q (State.fileTrigger a0 a1) := by
  unfold State.fileTrigger
  repeat' first
    | intro _
    | with_reducible assumption
    | with_reducible apply ok_ite
    | with_reducible apply State.wr_ok
    | with_reducible apply State.setB_ok
    | with_reducible apply State.raise_ok
    | dsimp only

theorem State.hopTrig_ok {q : List Instr} (a0) (a1 : State) (h1 : State.Ok q a1) : State.Ok q (State.hopTrig a0 a1) := by
  unfold State.hopTrig
  repeat' first
    | intro _
    | with_reducible assumption
    | with_reducible apply ok_ite
    | with_reducible apply State.fileTrigger_ok
    | with_reducible apply State.inc_ok
    | dsimp only
    | split

theorem State.hopForce_ok {q : List Instr} (a0 : State) (a1) (h0 : State.Ok q a0) : State.Ok q (State.hopForce a0 a1) := by
  unfold State.hopForce
  repeat' first
    | intro _
    | with_reducible assumption
    | with_reducible apply ok_ite
    | with_reducible apply State.fileTrigger_ok
    | with_reducible apply State.hopReject_ok
    | dsimp only
    | split

theorem execHopForceTrig_ok {q : List Instr} (a0) (a1 : State) (h1 : State.Ok q a1) : OutOk q (execHopForceTrig a0 a1) := by
  unfold execHopForceTrig
  repeat' first
    | with_reducible apply out_next
    | with_reducible apply out_ite
    | intro _
    | with_reducible assumption
    | with_reducible apply ok_ite
    | with_reducible apply State.hopForce_ok
    | dsimp only

theorem State.hopClear_ok {q : List Instr} (a0 : State) (a1) (h0 : State.Ok q a0) : State.Ok q (State.hopClear a0 a1) := by
  unfold State.hopClear
  repeat' first
    | intro _
    | with_reducible assumption
    | with_reducible apply ok_ite
    | with_reducible apply State.each_ok
    | with_reducible apply State.wr_ok
    | with_reducible apply State.add_ok
    | with_reducible apply State.hopReject_ok
    | dsimp only
    | split
    | (rw [ok_mk_iff]; refine ⟨?_, ?_, ?_, ?_⟩)
    | with_reducible refine State.Ok.pending ?_
    | with_reducible apply State.Ok.m
    | with_reducible apply State.Ok.c
    | with_reducible apply State.Ok.r

theorem execHopClear_ok {q : List Instr} (a0) (a1 : State) (h1 : State.Ok q a1) : OutOk q (execHopClear a0 a1) := by
  unfold execHopClear
  repeat' first
    | with_reducible apply out_next
    | with_reducible apply out_ite
    | intro _
    | with_reducible assumption
    | with_reducible apply ok_ite
    | with_reducible apply State.hopClear_ok
    | dsimp only

theorem State.hopClrCnt_ok {q : List Instr} (a0 : State) (h0 : State.Ok q a0) : State.Ok q (State.hopClrCnt a0) := by
  unfold State.hopClrCnt
  repeat' first
    | intro _
    | with_reducible assumption
    | with_reducible apply ok_ite
    | with_reducible apply State.each_ok
    | with_reducible apply State.wr_ok
    | dsimp only

theorem execHopClrCnt_ok {q : List Instr} (a0 : State) (h0 : State.Ok q a0) : OutOk q (execHopClrCnt a0) := by
  unfold execHopClrCnt
  repeat' first
    | with_reducible apply out_next
    | with_reducible apply out_ite
    | intro _
    | with_reducible assumption
    | with_reducible apply ok_ite
    | with_reducible apply State.hopClrCnt_ok
    | dsimp only

theorem State.hopCmd_ok {q : List Instr} (a0 : State) (a1) (a2) (h0 : State.Ok q a0) : State.Ok q (State.hopCmd a0 a1 a2) := by
  unfold State.hopCmd
  repeat' first
    | intro _
    | with_reducible assumption
    | with_reducible apply ok_ite
    | with_reducible apply State.hopArm_ok
    | with_reducible apply State.hopStop_ok
    | with_reducible apply State.hopForce_ok
    | with_reducible apply State.hopClear_ok
    | with_reducible apply State.hopClrCnt_ok
    | with_reducible apply State.hopReject_ok
    | dsimp only
    | split

theorem State.hopReset_ok {q : List Instr} (a0 : State) (h0 : State.Ok q a0) : State.Ok q (State.hopReset a0) := by
  unfold State.hopReset
  repeat' first
    | intro _
    | with_reducible assumption
    | with_reducible apply ok_ite
    | with_reducible apply State.each_ok
    | with_reducible apply State.flushOr_ok
    | with_reducible apply State.wrIf_ok
    | with_reducible apply State.wr_ok
    | with_reducible apply State.discardBlocks_ok
    | dsimp only
    | split
    | (rw [ok_mk_iff]; refine ⟨?_, ?_, ?_, ?_⟩)
    | with_reducible refine State.Ok.pending ?_
    | with_reducible apply State.Ok.m
    | with_reducible apply State.Ok.c
    | with_reducible apply State.Ok.r
    | with_reducible apply Tab.wf_set
    | with_reducible apply Tab.wf_put
    | with_reducible apply Tab.wf_delRange
    | with_reducible apply Tab.wf_del
    | with_reducible apply Tab.wf_filter

end Sys2Proof.Machine
end

