-- ==== Sys2Proof/Laws/OkMesh.lean ====
section
/-! SUPPORT. What the operations of Machine/Mesh.lean keep: the canonical form of the state and its queue. -/

namespace Sys2Proof.Machine

theorem State.traceRec_ok {q : List Instr} (a0 : State) (a1) (a2) (a3) (h0 : State.Ok q a0) : State.Ok q (State.traceRec a0 a1 a2 a3) := by
  unfold State.traceRec
  repeat' first
    | intro _
    | with_reducible assumption
    | with_reducible apply ok_ite
    | with_reducible apply State.inc_ok
    | with_reducible apply State.raiseB_ok
    | with_reducible apply State.sysPost_ok
    | with_reducible apply State.add_ok
    | dsimp only
    | split

theorem State.probeHead_ok {q : List Instr} (a0 : State) (a1) (a2) (a3) (a4) (h0 : State.Ok q a0) : State.Ok q (State.probeHead a0 a1 a2 a3 a4) := by
  unfold State.probeHead
  repeat' first
    | intro _
    | with_reducible assumption
    | with_reducible apply ok_ite
    | with_reducible apply State.each_ok
    | with_reducible apply State.add_ok
    | with_reducible apply State.traceRec_ok
    | dsimp only
    | split

theorem State.travel_ok {q : List Instr} (a0 : State) (a1) (a2) (a3) (h0 : State.Ok q a0) : State.Ok q (State.travel a0 a1 a2 a3).2 := by
  induction a2 generalizing a0 a1 a3 with
  | nil => exact h0
  | cons x r ih =>
    unfold State.travel
    dsimp only
    have k := State.wr_ok _ (Hid.rrLast (tripOf a1).net x.rtr x.outp) x.inp h0
    repeat' split
    all_goals first
      | exact h0
      | exact ih _ _ _ (State.probeHead_ok _ _ _ _ _ k)
      | exact State.probeHead_ok _ _ _ _ _ k

theorem State.travel_okE {q : List Instr} {a0 : State} {a1} {a2} {a3} {b t} (e : State.travel a0 a1 a2 a3 = (b, t)) (h0 : State.Ok q a0) : State.Ok q t := by
  have := State.travel_ok a0 a1 a2 a3 h0
  rw [e] at this; exact this

theorem State.inject_ok {q : List Instr} (a0 : State) (a1) (a2) (h0 : State.Ok q a0) : State.Ok q (State.inject a0 a1 a2).2 := by
  unfold State.inject
  repeat' first
    | intro _
    | with_reducible assumption
    | with_reducible apply ok_ite
    | dsimp only
    | with_reducible apply State.probeHead_ok
    | split

theorem State.inject_okE {q : List Instr} {a0 : State} {a1} {a2} {b t} (e : State.inject a0 a1 a2 = (b, t)) (h0 : State.Ok q a0) : State.Ok q t := by
  have := State.inject_ok a0 a1 a2 h0
  rw [e] at this; exact this

theorem State.probeLatency_ok {q : List Instr} (a0 : State) (a1) (h0 : State.Ok q a0) : State.Ok q (State.probeLatency a0 a1) := by
  unfold State.probeLatency
  repeat' first
    | intro _
    | with_reducible assumption
    | with_reducible apply ok_ite
    | with_reducible apply State.each_ok
    | with_reducible apply State.wr_ok
    | with_reducible apply State.add_ok
    | dsimp only
    | split

theorem State.passPiece_ok {q : List Instr} (a0 : State) (a1) (a2) (a3) (a4) (a5) (a6) (a7) (h0 : State.Ok q a0) : State.Ok q (State.passPiece a0 a1 a2 a3 a4 a5 a6 a7).2 := by
  unfold State.passPiece
  split
  · exact h0
  · split
    · extract_lets p0 p
      split
      rename_i p1 s1 e1
      have k1 := State.inject_okE e1 h0
      split
      rename_i p2 s2 e2
      have k2 := State.travel_okE e2 k1
      split
      · exact h0
      · split
        rename_i p3 s3 e3
        have k3 := State.inject_okE e3 k2
        split
        rename_i p4 s4 e4
        split
        · exact State.probeLatency_ok _ _ (State.travel_okE e4 k3)
        · exact h0
    · exact h0

theorem State.passPiece_okE {q : List Instr} {a0 : State} {a1} {a2} {a3} {a4} {a5} {a6} {a7} {b t} (e : State.passPiece a0 a1 a2 a3 a4 a5 a6 a7 = (b, t)) (h0 : State.Ok q a0) : State.Ok q t := by
  have := State.passPiece_ok a0 a1 a2 a3 a4 a5 a6 a7 h0
  rw [e] at this; exact this

theorem State.passAll_ok {q : List Instr} (a0 : State) (a1) (a2) (a3) (a4) (a5) (a6) (h0 : State.Ok q a0) : State.Ok q (State.passAll a0 a1 a2 a3 a4 a5 a6).2 := by
  induction a6 generalizing a0 with
  | nil => exact h0
  | cons x r ih =>
    unfold State.passAll
    split
    · rename_i t e
      exact ih _ (State.passPiece_okE e h0)
    · exact h0

theorem State.passAll_okE {q : List Instr} {a0 : State} {a1} {a2} {a3} {a4} {a5} {a6} {b t} (e : State.passAll a0 a1 a2 a3 a4 a5 a6 = (b, t)) (h0 : State.Ok q a0) : State.Ok q t := by
  have := State.passAll_ok a0 a1 a2 a3 a4 a5 a6 h0
  rw [e] at this; exact this

theorem State.netPass_ok {q : List Instr} (a0 : State) (a1) (a2) (a3) (a4) (a5) (a6) (h0 : State.Ok q a0) : State.Ok q (State.netPass a0 a1 a2 a3 a4 a5 a6).2 := by
  unfold State.netPass
  repeat' first
    | intro _
    | with_reducible assumption
    | with_reducible apply ok_ite
    | dsimp only
    | with_reducible apply State.passAll_ok
    | with_reducible refine State.passAll_okE (by assumption) ?_
    | split

theorem State.netPass_okE {q : List Instr} {a0 : State} {a1} {a2} {a3} {a4} {a5} {a6} {b t} (e : State.netPass a0 a1 a2 a3 a4 a5 a6 = (b, t)) (h0 : State.Ok q a0) : State.Ok q t := by
  have := State.netPass_ok a0 a1 a2 a3 a4 a5 a6 h0
  rw [e] at this; exact this

end Sys2Proof.Machine
end

