-- ==== Sys2Proof/Laws/OkCache.lean ====
section
/-! SUPPORT. What the operations of Machine/Cache.lean keep: the canonical form of the state and its queue. -/

namespace Sys2Proof.Machine

theorem State.netFor_ok {q : List Instr} (a0 : State) (a1) (a2) (a3) (a4) (a5) (h0 : State.Ok q a0) : State.Ok q (State.netFor a0 a1 a2 a3 a4 a5).2 := by
  unfold State.netFor
  repeat' first
    | intro _
    | with_reducible assumption
    | with_reducible apply ok_ite
    | dsimp only
    | with_reducible refine State.guard_ok _ _ _ _ _ ?_ (by assumption)
    | with_reducible apply State.wr_ok
    | with_reducible apply State.netPass_ok
    | with_reducible refine State.netPass_okE (by assumption) ?_
    | split

theorem State.netFor_okE {q : List Instr} {a0 : State} {a1} {a2} {a3} {a4} {a5} {b t} (e : State.netFor a0 a1 a2 a3 a4 a5 = (b, t)) (h0 : State.Ok q a0) : State.Ok q t := by
  have := State.netFor_ok a0 a1 a2 a3 a4 a5 h0
  rw [e] at this; exact this

theorem State.dahRead_ok {q : List Instr} (a0 : State) (a1) (a2) (a3) (a4) (h0 : State.Ok q a0) : State.Ok q (State.dahRead a0 a1 a2 a3 a4).2.2 := by
  unfold State.dahRead
  repeat' first
    | intro _
    | with_reducible assumption
    | with_reducible apply ok_ite
    | dsimp only
    | with_reducible apply State.netFor_ok
    | with_reducible refine State.netFor_okE (by assumption) ?_
    | split

theorem State.dahRead_okE {q : List Instr} {a0 : State} {a1} {a2} {a3} {a4} {b c t} (e : State.dahRead a0 a1 a2 a3 a4 = (b, c, t)) (h0 : State.Ok q a0) : State.Ok q t := by
  have := State.dahRead_ok a0 a1 a2 a3 a4 h0
  rw [e] at this; exact this

theorem State.lineRead_ok {q : List Instr} (a0 : State) (a1) (h0 : State.Ok q a0) : State.Ok q (State.lineRead a0 a1).2.2 := by
  unfold State.lineRead
  repeat' first
    | intro _
    | with_reducible assumption
    | with_reducible apply ok_ite
    | dsimp only
    | with_reducible apply State.dahRead_ok
    | with_reducible refine State.dahRead_okE (by assumption) ?_
    | with_reducible apply State.netFor_ok
    | with_reducible refine State.netFor_okE (by assumption) ?_
    | with_reducible apply State.memRead_ok
    | with_reducible refine State.memRead_okE (by assumption) ?_
    | split

theorem State.lineRead_okE {q : List Instr} {a0 : State} {a1} {b c t} (e : State.lineRead a0 a1 = (b, c, t)) (h0 : State.Ok q a0) : State.Ok q t := by
  have := State.lineRead_ok a0 a1 h0
  rw [e] at this; exact this

theorem State.lineWrite_ok {q : List Instr} (a0 : State) (a1) (a2) (h0 : State.Ok q a0) : State.Ok q (State.lineWrite a0 a1 a2).2 := by
  unfold State.lineWrite
  repeat' first
    | intro _
    | with_reducible assumption
    | with_reducible apply ok_ite
    | dsimp only
    | with_reducible apply State.netFor_ok
    | with_reducible refine State.netFor_okE (by assumption) ?_
    | with_reducible apply State.memWrite_ok
    | with_reducible refine State.memWrite_okE (by assumption) ?_
    | split

theorem State.lineWrite_okE {q : List Instr} {a0 : State} {a1} {a2} {b t} (e : State.lineWrite a0 a1 a2 = (b, t)) (h0 : State.Ok q a0) : State.Ok q t := by
  have := State.lineWrite_ok a0 a1 a2 h0
  rw [e] at this; exact this

theorem State.setLine_ok {q : List Instr} (a0 : State) (a1) (a2) (h0 : State.Ok q a0) : State.Ok q (State.setLine a0 a1 a2) := by
  unfold State.setLine
  repeat' first
    | intro _
    | with_reducible assumption
    | with_reducible apply ok_ite
    | dsimp only
    | (rw [ok_mk_iff]; refine ⟨?_, ?_, ?_, ?_⟩)
    | with_reducible refine State.Ok.pending ?_
    | with_reducible apply State.Ok.m
    | with_reducible apply State.Ok.c
    | with_reducible apply State.Ok.r

theorem State.dropLine_ok {q : List Instr} (a0 : State) (a1) (h0 : State.Ok q a0) : State.Ok q (State.dropLine a0 a1) := by
  unfold State.dropLine
  repeat' first
    | intro _
    | with_reducible assumption
    | with_reducible apply ok_ite
    | dsimp only
    | (rw [ok_mk_iff]; refine ⟨?_, ?_, ?_, ?_⟩)
    | with_reducible refine State.Ok.pending ?_
    | with_reducible apply State.Ok.m
    | with_reducible apply State.Ok.c
    | with_reducible apply State.Ok.r

theorem State.cleanLine_ok {q : List Instr} (a0 : State) (a1) (h0 : State.Ok q a0) : State.Ok q (State.cleanLine a0 a1) := by
  unfold State.cleanLine
  repeat' first
    | intro _
    | with_reducible assumption
    | with_reducible apply ok_ite
    | with_reducible apply State.lineWrite_ok
    | with_reducible refine State.lineWrite_okE (by assumption) ?_
    | with_reducible apply State.setLine_ok
    | dsimp only
    | split

theorem State.giveUp_ok {q : List Instr} (a0 : State) (a1) (h0 : State.Ok q a0) : State.Ok q (State.giveUp a0 a1) := by
  unfold State.giveUp
  repeat' first
    | intro _
    | with_reducible assumption
    | with_reducible apply ok_ite
    | with_reducible apply State.cleanLine_ok
    | with_reducible apply State.dropLine_ok
    | dsimp only
    | split

theorem State.l2Room_ok {q : List Instr} (a0 : State) (h0 : State.Ok q a0) : State.Ok q (State.l2Room a0) := by
  unfold State.l2Room
  repeat' first
    | intro _
    | with_reducible assumption
    | with_reducible apply ok_ite
    | with_reducible apply State.fresh_ok
    | with_reducible refine State.fresh_okE (by assumption) ?_
    | with_reducible apply State.giveUp_ok
    | dsimp only
    | split

theorem State.l1iRoom_ok {q : List Instr} (a0 : State) (a1) (h0 : State.Ok q a0) : State.Ok q (State.l1iRoom a0 a1) := by
  unfold State.l1iRoom
  repeat' first
    | intro _
    | with_reducible assumption
    | with_reducible apply ok_ite
    | with_reducible apply State.fresh_ok
    | with_reducible refine State.fresh_okE (by assumption) ?_
    | dsimp only
    | split
    | (rw [ok_mk_iff]; refine ⟨?_, ?_, ?_, ?_⟩)
    | with_reducible refine State.Ok.pending ?_
    | with_reducible apply State.Ok.m
    | with_reducible apply State.Ok.c
    | with_reducible apply State.Ok.r

theorem State.lineFor_ok {q : List Instr} (a0 : State) (a1) (a2) (h0 : State.Ok q a0) : State.Ok q (State.lineFor a0 a1 a2).2.2 := by
  unfold State.lineFor
  repeat' first
    | intro _
    | with_reducible assumption
    | with_reducible apply ok_ite
    | dsimp only
    | with_reducible apply State.l2Room_ok
    | with_reducible apply State.lineRead_ok
    | with_reducible refine State.lineRead_okE (by assumption) ?_
    | with_reducible apply State.setLine_ok
    | with_reducible apply State.classErr_ok
    | with_reducible apply State.srmEvt_ok
    | with_reducible apply State.dropLine_ok
    | split

theorem State.lineFor_okE {q : List Instr} {a0 : State} {a1} {a2} {b c t} (e : State.lineFor a0 a1 a2 = (b, c, t)) (h0 : State.Ok q a0) : State.Ok q t := by
  have := State.lineFor_ok a0 a1 a2 h0
  rw [e] at this; exact this

theorem State.linesFor_ok {q : List Instr} (a0 : State) (a1) (a2) (h0 : State.Ok q a0) : State.Ok q (State.linesFor a0 a1 a2).2.2 := by
  unfold State.linesFor
  repeat' first
    | intro _
    | with_reducible assumption
    | with_reducible apply ok_ite
    | dsimp only
    | with_reducible apply State.lineFor_ok
    | with_reducible refine State.lineFor_okE (by assumption) ?_
    | with_reducible apply ok_foldl
    | with_reducible apply ok_foldl2
    | with_reducible apply ok_foldl3
    | split

theorem State.linesFor_okE {q : List Instr} {a0 : State} {a1} {a2} {b c t} (e : State.linesFor a0 a1 a2 = (b, c, t)) (h0 : State.Ok q a0) : State.Ok q t := by
  have := State.linesFor_ok a0 a1 a2 h0
  rw [e] at this; exact this

theorem State.cacheStore_ok {q : List Instr} (a0 : State) (a1) (a2) (a3) (a4) (h0 : State.Ok q a0) : State.Ok q (State.cacheStore a0 a1 a2 a3 a4) := by
  unfold State.cacheStore
  repeat' first
    | intro _
    | with_reducible assumption
    | with_reducible apply ok_ite
    | with_reducible apply State.each_ok
    | with_reducible apply State.setLine_ok
    | with_reducible apply State.wrIf_ok
    | dsimp only

theorem State.snoop_ok {q : List Instr} (a0 : State) (a1) (a2) (a3) (h0 : State.Ok q a0) : State.Ok q (State.snoop a0 a1 a2 a3) := by
  unfold State.snoop
  repeat' first
    | intro _
    | with_reducible assumption
    | with_reducible apply ok_ite
    | with_reducible apply State.each_ok
    | with_reducible apply State.wr_ok
    | with_reducible apply State.wrIf_ok
    | with_reducible apply State.dropLine_ok
    | with_reducible apply State.cleanLine_ok
    | dsimp only
    | split

theorem State.snoopFor_ok {q : List Instr} (a0 : State) (a1) (a2) (a3) (a4) (h0 : State.Ok q a0) : State.Ok q (State.snoopFor a0 a1 a2 a3 a4).2 := by
  unfold State.snoopFor
  repeat' first
    | intro _
    | with_reducible assumption
    | with_reducible apply ok_ite
    | dsimp only
    | with_reducible refine State.guard_ok _ _ _ _ _ ?_ (by assumption)
    | with_reducible apply State.wr_ok
    | with_reducible apply State.memGate_ok
    | with_reducible refine State.memGate_okE (by assumption) ?_
    | with_reducible apply State.snoop_ok
    | split

theorem State.snoopFor_okE {q : List Instr} {a0 : State} {a1} {a2} {a3} {a4} {b t} (e : State.snoopFor a0 a1 a2 a3 a4 = (b, t)) (h0 : State.Ok q a0) : State.Ok q t := by
  have := State.snoopFor_ok a0 a1 a2 a3 a4 h0
  rw [e] at this; exact this

theorem State.coReadU_ok {q : List Instr} (a0 : State) (a1) (a2) (a3) (a4) (h0 : State.Ok q a0) : State.Ok q (State.coReadU a0 a1 a2 a3 a4).2.2 := by
  unfold State.coReadU
  repeat' first
    | intro _
    | with_reducible assumption
    | with_reducible apply ok_ite
    | dsimp only
    | with_reducible apply State.netFor_ok
    | with_reducible refine State.netFor_okE (by assumption) ?_
    | with_reducible apply State.snoopFor_ok
    | with_reducible refine State.snoopFor_okE (by assumption) ?_
    | with_reducible apply State.memRead_ok
    | with_reducible refine State.memRead_okE (by assumption) ?_
    | split

theorem State.coReadU_okE {q : List Instr} {a0 : State} {a1} {a2} {a3} {a4} {b c t} (e : State.coReadU a0 a1 a2 a3 a4 = (b, c, t)) (h0 : State.Ok q a0) : State.Ok q t := by
  have := State.coReadU_ok a0 a1 a2 a3 a4 h0
  rw [e] at this; exact this

theorem State.coRead_ok {q : List Instr} (a0 : State) (a1) (a2) (a3) (h0 : State.Ok q a0) : State.Ok q (State.coRead a0 a1 a2 a3).2.2 := by
  unfold State.coRead
  repeat' first
    | intro _
    | with_reducible assumption
    | with_reducible apply ok_ite
    | dsimp only
    | with_reducible apply State.coReadU_ok
    | with_reducible refine State.coReadU_okE (by assumption) ?_

theorem State.coRead_okE {q : List Instr} {a0 : State} {a1} {a2} {a3} {b c t} (e : State.coRead a0 a1 a2 a3 = (b, c, t)) (h0 : State.Ok q a0) : State.Ok q t := by
  have := State.coRead_ok a0 a1 a2 a3 h0
  rw [e] at this; exact this

theorem State.coWriteU_ok {q : List Instr} (a0 : State) (a1) (a2) (a3) (a4) (h0 : State.Ok q a0) : State.Ok q (State.coWriteU a0 a1 a2 a3 a4).2 := by
  unfold State.coWriteU
  repeat' first
    | intro _
    | with_reducible assumption
    | with_reducible apply ok_ite
    | dsimp only
    | with_reducible apply State.netFor_ok
    | with_reducible refine State.netFor_okE (by assumption) ?_
    | with_reducible apply State.snoopFor_ok
    | with_reducible refine State.snoopFor_okE (by assumption) ?_
    | with_reducible apply State.memWriteBe_ok
    | with_reducible refine State.memWriteBe_okE (by assumption) ?_
    | split

theorem State.coWriteU_okE {q : List Instr} {a0 : State} {a1} {a2} {a3} {a4} {b t} (e : State.coWriteU a0 a1 a2 a3 a4 = (b, t)) (h0 : State.Ok q a0) : State.Ok q t := by
  have := State.coWriteU_ok a0 a1 a2 a3 a4 h0
  rw [e] at this; exact this

theorem State.coWriteBe_ok {q : List Instr} (a0 : State) (a1) (a2) (a3) (h0 : State.Ok q a0) : State.Ok q (State.coWriteBe a0 a1 a2 a3).2 := by
  unfold State.coWriteBe
  repeat' first
    | intro _
    | with_reducible assumption
    | with_reducible apply ok_ite
    | dsimp only
    | with_reducible apply State.coWriteU_ok
    | with_reducible refine State.coWriteU_okE (by assumption) ?_

theorem State.coWriteBe_okE {q : List Instr} {a0 : State} {a1} {a2} {a3} {b t} (e : State.coWriteBe a0 a1 a2 a3 = (b, t)) (h0 : State.Ok q a0) : State.Ok q t := by
  have := State.coWriteBe_ok a0 a1 a2 a3 h0
  rw [e] at this; exact this

theorem State.coWrite_ok {q : List Instr} (a0 : State) (a1) (a2) (a3) (h0 : State.Ok q a0) : State.Ok q (State.coWrite a0 a1 a2 a3).2 := by
  unfold State.coWrite
  repeat' first
    | intro _
    | with_reducible assumption
    | with_reducible apply ok_ite
    | dsimp only
    | with_reducible apply State.coWriteBe_ok
    | with_reducible refine State.coWriteBe_okE (by assumption) ?_

theorem State.coWrite_okE {q : List Instr} {a0 : State} {a1} {a2} {a3} {b t} (e : State.coWrite a0 a1 a2 a3 = (b, t)) (h0 : State.Ok q a0) : State.Ok q t := by
  have := State.coWrite_ok a0 a1 a2 a3 h0
  rw [e] at this; exact this

end Sys2Proof.Machine
end

