-- ==== Sys2Proof/Laws/OkNoc.lean ====
section
/-! SUPPORT. What the operations of Machine/Noc.lean keep: the canonical form of the state and its queue. -/

namespace Sys2Proof.Machine

theorem State.setPkt_ok {q : List Instr} (a0 : State) (a1) (h0 : State.Ok q a0) : State.Ok q (State.setPkt a0 a1) := by
  unfold State.setPkt
  repeat' first
    | intro _
    | with_reducible assumption
    | with_reducible apply ok_ite
    | dsimp only
    | split
    | (rw [ok_mk_iff]; refine ⟨?_, ?_, ?_, ?_⟩)
    | with_reducible refine State.Ok.pending ?_
    | with_reducible apply State.Ok.m
    | with_reducible apply State.Ok.c
    | with_reducible apply State.Ok.r

theorem State.dropPkt_ok {q : List Instr} (a0 : State) (a1) (h0 : State.Ok q a0) : State.Ok q (State.dropPkt a0 a1) := by
  unfold State.dropPkt
  repeat' first
    | intro _
    | with_reducible assumption
    | with_reducible apply ok_ite
    | with_reducible apply State.niCounts_ok
    | dsimp only
    | (rw [ok_mk_iff]; refine ⟨?_, ?_, ?_, ?_⟩)
    | with_reducible refine State.Ok.pending ?_
    | with_reducible apply State.Ok.m
    | with_reducible apply State.Ok.c
    | with_reducible apply State.Ok.r

theorem State.answerAtSource_ok {q : List Instr} (a0 : State) (a1) (a2) (h0 : State.Ok q a0) : State.Ok q (State.answerAtSource a0 a1 a2) := by
  unfold State.answerAtSource
  repeat' first
    | intro _
    | with_reducible assumption
    | with_reducible apply ok_ite
    | with_reducible apply State.dropPkt_ok
    | with_reducible apply State.postLost_ok
    | with_reducible apply State.setPkt_ok
    | dsimp only
    | split
    | (rw [ok_mk_iff]; refine ⟨?_, ?_, ?_, ?_⟩)
    | with_reducible refine State.Ok.pending ?_
    | with_reducible apply State.Ok.m
    | with_reducible apply State.Ok.c
    | with_reducible apply State.Ok.r

theorem State.launch_ok {q : List Instr} (a0 : State) (a1) (h0 : State.Ok q a0) : State.Ok q (State.launch a0 a1) := by
  unfold State.launch
  repeat' first
    | intro _
    | with_reducible assumption
    | with_reducible apply ok_ite
    | with_reducible apply State.answerAtSource_ok
    | with_reducible refine State.guard_ok _ _ _ _ _ ?_ (by assumption)
    | with_reducible apply State.inject_ok
    | with_reducible refine State.inject_okE (by assumption) ?_
    | with_reducible apply State.setPkt_ok
    | dsimp only
    | split
    | (rw [ok_mk_iff]; refine ⟨?_, ?_, ?_, ?_⟩)
    | with_reducible refine State.Ok.pending ?_
    | with_reducible apply State.Ok.m
    | with_reducible apply State.Ok.c
    | with_reducible apply State.Ok.r

theorem State.issue_ok {q : List Instr} (a0 : State) (a1) (a2) (a3) (a4) (a5) (a6) (a7) (a8) (h0 : State.Ok q a0) : State.Ok q (State.issue a0 a1 a2 a3 a4 a5 a6 a7 a8) := by
  unfold State.issue
  repeat' first
    | intro _
    | with_reducible assumption
    | with_reducible apply ok_ite
    | with_reducible apply State.answer_ok
    | with_reducible apply State.enqueue_ok
    | with_reducible apply State.launch_ok
    | dsimp only
    | split

theorem execNocRequest_ok {q : List Instr} (a0) (a1) (a2) (a3) (a4) (a5) (a6) (a7) (a8) (a9 : State) (h9 : State.Ok q a9) : OutOk q (execNocRequest a0 a1 a2 a3 a4 a5 a6 a7 a8 a9) := by
  unfold execNocRequest
  repeat' first
    | with_reducible apply out_next
    | with_reducible apply out_ite
    | intro _
    | with_reducible assumption
    | with_reducible apply ok_ite
    | with_reducible apply State.answer_ok
    | with_reducible apply State.issue_ok
    | with_reducible apply ok_match_opt
    | dsimp only
    | split

theorem State.hstEvt_ok {q : List Instr} (a0 : State) (a1) (h0 : State.Ok q a0) : State.Ok q (State.hstEvt a0 a1) := by
  unfold State.hstEvt
  repeat' first
    | intro _
    | with_reducible assumption
    | with_reducible apply ok_ite
    | with_reducible apply State.raiseB_ok
    | dsimp only

theorem State.hostErr_ok {q : List Instr} (a0 : State) (a1) (a2) (h0 : State.Ok q a0) : State.Ok q (State.hostErr a0 a1 a2) := by
  unfold State.hostErr
  repeat' first
    | intro _
    | with_reducible assumption
    | with_reducible apply ok_ite
    | with_reducible apply State.inc_ok
    | with_reducible apply State.wr_ok
    | with_reducible apply State.hstEvt_ok
    | dsimp only
    | split

theorem State.giveBack_ok {q : List Instr} (a0 : State) (a1) (h0 : State.Ok q a0) : State.Ok q (State.giveBack a0 a1) := by
  unfold State.giveBack
  repeat' first
    | intro _
    | with_reducible assumption
    | with_reducible apply ok_ite
    | with_reducible apply State.dropPkt_ok
    | with_reducible apply State.wr_ok
    | with_reducible apply State.answer_ok
    | with_reducible apply State.hostErr_ok
    | with_reducible apply ok_match_opt
    | dsimp only
    | split
    | (rw [ok_mk_iff]; refine ⟨?_, ?_, ?_, ?_⟩)
    | with_reducible refine State.Ok.pending ?_
    | with_reducible apply State.Ok.m
    | with_reducible apply State.Ok.c
    | with_reducible apply State.Ok.r

theorem State.move_ok {q : List Instr} (a0 : State) (a1) (a2) (h0 : State.Ok q a0) : State.Ok q (State.move a0 a1 a2).2 := by
  unfold State.move
  repeat' first
    | intro _
    | with_reducible assumption
    | with_reducible apply ok_ite
    | dsimp only
    | with_reducible apply State.inject_ok
    | with_reducible refine State.inject_okE (by assumption) ?_
    | with_reducible apply State.travel_ok
    | with_reducible refine State.travel_okE (by assumption) ?_
    | split

theorem State.move_okE {q : List Instr} {a0 : State} {a1} {a2} {b t} (e : State.move a0 a1 a2 = (b, t)) (h0 : State.Ok q a0) : State.Ok q t := by
  have := State.move_ok a0 a1 a2 h0
  rw [e] at this; exact this

theorem execNocResponse_ok {q : List Instr} (a0) (a1) (a2 : State) (h2 : State.Ok q a2) : OutOk q (execNocResponse a0 a1 a2) := by
  unfold execNocResponse
  repeat' first
    | with_reducible apply out_next
    | with_reducible apply out_ite
    | intro _
    | with_reducible assumption
    | with_reducible apply ok_ite
    | with_reducible apply State.answer_ok
    | with_reducible apply State.giveBack_ok
    | with_reducible apply State.move_ok
    | with_reducible refine State.move_okE (by assumption) ?_
    | with_reducible apply State.probeLatency_ok
    | with_reducible apply State.setPkt_ok
    | dsimp only
    | split

theorem execPostedAck_ok {q : List Instr} (a0) (a1) (a2 : State) (h2 : State.Ok q a2) : OutOk q (execPostedAck a0 a1 a2) := by
  unfold execPostedAck
  repeat' first
    | with_reducible apply out_next
    | with_reducible apply out_ite
    | intro _
    | with_reducible assumption
    | with_reducible apply ok_ite
    | with_reducible apply State.answer_ok
    | with_reducible apply State.move_ok
    | with_reducible refine State.move_okE (by assumption) ?_
    | with_reducible apply State.probeLatency_ok
    | with_reducible apply State.dropPkt_ok
    | with_reducible apply State.setPkt_ok
    | dsimp only
    | split

theorem State.routeCommit_ok {q : List Instr} (a0 : State) (a1) (a2) (h0 : State.Ok q a0) : State.Ok q (State.routeCommit a0 a1 a2) := by
  unfold State.routeCommit
  repeat' first
    | intro _
    | with_reducible assumption
    | with_reducible apply ok_ite
    | with_reducible apply State.wr_ok
    | dsimp only
    | split

theorem State.routeUpdate_ok {q : List Instr} (a0 : State) (a1) (a2) (a3) (h0 : State.Ok q a0) : State.Ok q (State.routeUpdate a0 a1 a2 a3) := by
  unfold State.routeUpdate
  repeat' first
    | intro _
    | with_reducible assumption
    | with_reducible apply ok_ite
    | with_reducible apply State.deny_ok
    | with_reducible apply State.wr_ok
    | with_reducible apply State.routeCommit_ok
    | dsimp only
    | split

theorem execRouteUpdate_ok {q : List Instr} (a0) (a1) (a2) (a3 : State) (h3 : State.Ok q a3) : OutOk q (execRouteUpdate a0 a1 a2 a3) := by
  unfold execRouteUpdate
  repeat' first
    | with_reducible apply out_next
    | with_reducible apply out_ite
    | intro _
    | with_reducible assumption
    | with_reducible apply ok_ite
    | with_reducible apply State.routeUpdate_ok
    | dsimp only

theorem execRouteCommit_ok {q : List Instr} (a0) (a1) (a2 : State) (h2 : State.Ok q a2) : OutOk q (execRouteCommit a0 a1 a2) := by
  unfold execRouteCommit
  repeat' first
    | with_reducible apply out_next
    | with_reducible apply out_ite
    | intro _
    | with_reducible assumption
    | with_reducible apply ok_ite
    | with_reducible apply State.routeCommit_ok
    | dsimp only

theorem execFlitReplay_ok {q : List Instr} (a0) (a1) (a2 : State) (h2 : State.Ok q a2) : OutOk q (execFlitReplay a0 a1 a2) := by
  unfold execFlitReplay
  repeat' first
    | with_reducible apply out_next
    | with_reducible apply out_ite
    | intro _
    | with_reducible assumption
    | with_reducible apply ok_ite
    | with_reducible apply State.inc_ok
    | with_reducible apply State.wr_ok
    | with_reducible apply State.recBegin_ok
    | with_reducible apply State.raiseB_ok
    | dsimp only
    | split

theorem State.rtrDrain_ok {q : List Instr} (a0 : State) (a1) (a2) (h0 : State.Ok q a0) : State.Ok q (State.rtrDrain a0 a1 a2) := by
  unfold State.rtrDrain
  repeat' first
    | intro _
    | with_reducible assumption
    | with_reducible apply ok_ite
    | with_reducible apply State.recBegin_ok
    | with_reducible apply State.wr_ok
    | with_reducible apply State.raiseB_ok
    | dsimp only
    | split

theorem State.rtrActive_ok {q : List Instr} (a0 : State) (a1) (h0 : State.Ok q a0) : State.Ok q (State.rtrActive a0 a1) := by
  unfold State.rtrActive
  repeat' first
    | intro _
    | with_reducible assumption
    | with_reducible apply ok_ite
    | with_reducible apply State.wr_ok
    | with_reducible apply State.raiseB_ok
    | with_reducible apply State.recEnd_ok
    | dsimp only

theorem State.rtrFault_ok {q : List Instr} (a0 : State) (a1) (h0 : State.Ok q a0) : State.Ok q (State.rtrFault a0 a1) := by
  unfold State.rtrFault
  repeat' first
    | intro _
    | with_reducible assumption
    | with_reducible apply ok_ite
    | with_reducible apply State.wr_ok
    | with_reducible apply State.raiseB_ok
    | with_reducible apply State.journal_ok
    | dsimp only

theorem execLinkRetrain_ok {q : List Instr} (a0) (a1) (a2) (a3 : State) (h3 : State.Ok q a3) : OutOk q (execLinkRetrain a0 a1 a2 a3) := by
  unfold execLinkRetrain
  repeat' first
    | with_reducible apply out_next
    | with_reducible apply out_ite
    | intro _
    | with_reducible assumption
    | with_reducible apply ok_ite
    | with_reducible apply State.each_ok
    | with_reducible apply State.rtrDrain_ok
    | with_reducible apply State.wr_ok
    | with_reducible apply State.recEnd_ok
    | with_reducible apply State.raiseB_ok
    | dsimp only
    | split

theorem State.nocReject_ok {q : List Instr} (a0 : State) (a1) (h0 : State.Ok q a0) : State.Ok q (State.nocReject a0 a1) := by
  unfold State.nocReject
  repeat' first
    | intro _
    | with_reducible assumption
    | with_reducible apply ok_ite
    | with_reducible apply State.rejMark_ok
    | with_reducible apply State.raiseB_ok
    | dsimp only

theorem State.nocDrain_ok {q : List Instr} (a0 : State) (a1) (h0 : State.Ok q a0) : State.Ok q (State.nocDrain a0 a1) := by
  unfold State.nocDrain
  repeat' first
    | intro _
    | with_reducible assumption
    | with_reducible apply ok_ite
    | with_reducible apply State.rtrDrain_ok
    | with_reducible apply State.nocReject_ok
    | dsimp only
    | split

theorem State.nocResume_ok {q : List Instr} (a0 : State) (a1) (h0 : State.Ok q a0) : State.Ok q (State.nocResume a0 a1) := by
  unfold State.nocResume
  repeat' first
    | intro _
    | with_reducible assumption
    | with_reducible apply ok_ite
    | with_reducible apply State.rtrActive_ok
    | with_reducible apply State.nocReject_ok
    | dsimp only
    | split

theorem State.nocClrCnt_ok {q : List Instr} (a0 : State) (h0 : State.Ok q a0) : State.Ok q (State.nocClrCnt a0) := by
  unfold State.nocClrCnt
  repeat' first
    | intro _
    | with_reducible assumption
    | with_reducible apply ok_ite
    | with_reducible apply State.each_ok
    | with_reducible apply State.wr_ok
    | dsimp only

theorem State.nocCmd_ok {q : List Instr} (a0 : State) (a1) (a2) (h0 : State.Ok q a0) : State.Ok q (State.nocCmd a0 a1 a2) := by
  unfold State.nocCmd
  repeat' first
    | intro _
    | with_reducible assumption
    | with_reducible apply ok_ite
    | with_reducible apply State.nocDrain_ok
    | with_reducible apply State.nocResume_ok
    | with_reducible apply State.nocClrCnt_ok
    | with_reducible apply State.nocReject_ok
    | dsimp only
    | split

theorem execNocDrain_ok {q : List Instr} (a0) (a1 : State) (h1 : State.Ok q a1) : OutOk q (execNocDrain a0 a1) := by
  unfold execNocDrain
  repeat' first
    | with_reducible apply out_next
    | with_reducible apply out_ite
    | intro _
    | with_reducible assumption
    | with_reducible apply ok_ite
    | with_reducible apply State.nocDrain_ok
    | dsimp only

theorem execNocResume_ok {q : List Instr} (a0) (a1 : State) (h1 : State.Ok q a1) : OutOk q (execNocResume a0 a1) := by
  unfold execNocResume
  repeat' first
    | with_reducible apply out_next
    | with_reducible apply out_ite
    | intro _
    | with_reducible assumption
    | with_reducible apply ok_ite
    | with_reducible apply State.nocResume_ok
    | dsimp only

theorem execNocClrCnt_ok {q : List Instr} (a0 : State) (h0 : State.Ok q a0) : OutOk q (execNocClrCnt a0) := by
  unfold execNocClrCnt
  repeat' first
    | with_reducible apply out_next
    | with_reducible apply out_ite
    | intro _
    | with_reducible assumption
    | with_reducible apply ok_ite
    | with_reducible apply State.nocClrCnt_ok
    | dsimp only

theorem execRouterDrained_ok {q : List Instr} (a0) (a1 : State) (h1 : State.Ok q a1) : OutOk q (execRouterDrained a0 a1) := by
  unfold execRouterDrained
  repeat' first
    | with_reducible apply out_next
    | with_reducible apply out_ite
    | intro _
    | with_reducible assumption
    | with_reducible apply ok_ite
    | with_reducible apply State.wr_ok
    | dsimp only
    | split

theorem execRouterReconfDone_ok {q : List Instr} (a0) (a1) (a2 : State) (h2 : State.Ok q a2) : OutOk q (execRouterReconfDone a0 a1 a2) := by
  unfold execRouterReconfDone
  repeat' first
    | with_reducible apply out_next
    | with_reducible apply out_ite
    | intro _
    | with_reducible assumption
    | with_reducible apply ok_ite
    | with_reducible apply State.wr_ok
    | with_reducible apply State.rtrActive_ok
    | with_reducible apply State.rtrFault_ok
    | dsimp only
    | split

theorem State.nocDropped_ok {q : List Instr} (a0 : State) (a1) (a2) (h0 : State.Ok q a0) : State.Ok q (State.nocDropped a0 a1 a2) := by
  unfold State.nocDropped
  repeat' first
    | intro _
    | with_reducible assumption
    | with_reducible apply ok_ite
    | with_reducible apply State.inc_ok
    | with_reducible apply State.wr_ok
    | with_reducible apply State.raiseB_ok
    | dsimp only
    | split

theorem State.drainTmo_ok {q : List Instr} (a0 : State) (a1) (a2) (a3) (h0 : State.Ok q a0) : State.Ok q (State.drainTmo a0 a1 a2 a3) := by
  unfold State.drainTmo
  repeat' first
    | intro _
    | with_reducible assumption
    | with_reducible apply ok_ite
    | with_reducible apply State.dropPkt_ok
    | with_reducible apply State.nocDropped_ok
    | with_reducible apply State.postLost_ok
    | with_reducible apply State.inc_ok
    | with_reducible apply State.raiseB_ok
    | with_reducible apply State.setPkt_ok
    | with_reducible apply State.enqueue_ok
    | dsimp only
    | split
    | (rw [ok_mk_iff]; refine ⟨?_, ?_, ?_, ?_⟩)
    | with_reducible refine State.Ok.pending ?_
    | with_reducible apply State.Ok.m
    | with_reducible apply State.Ok.c
    | with_reducible apply State.Ok.r

theorem execDrainTimeout_ok {q : List Instr} (a0) (a1) (a2 : State) (h2 : State.Ok q a2) : OutOk q (execDrainTimeout a0 a1 a2) := by
  unfold execDrainTimeout
  repeat' first
    | with_reducible apply out_next
    | with_reducible apply out_ite
    | intro _
    | with_reducible assumption
    | with_reducible apply ok_ite
    | with_reducible apply State.each_ok
    | with_reducible apply State.drainTmo_ok
    | dsimp only
    | split

theorem execRecoveryBarrier_ok {q : List Instr} (a0 : State) (h0 : State.Ok q a0) : OutOk q (execRecoveryBarrier a0) := by
  unfold execRecoveryBarrier
  repeat' first
    | with_reducible apply out_next
    | with_reducible apply out_ite
    | intro _
    | with_reducible assumption
    | with_reducible apply ok_ite
    | with_reducible apply State.add_ok
    | with_reducible apply State.wr_ok
    | with_reducible apply State.raise_ok
    | dsimp only
    | split
    | (rw [ok_mk_iff]; refine ⟨?_, ?_, ?_, ?_⟩)
    | with_reducible refine State.Ok.pending ?_
    | with_reducible apply State.Ok.m
    | with_reducible apply State.Ok.c
    | with_reducible apply State.Ok.r

theorem State.nocEngineReset_ok {q : List Instr} (a0 : State) (h0 : State.Ok q a0) : State.Ok q (State.nocEngineReset a0) := by
  unfold State.nocEngineReset
  repeat' first
    | intro _
    | with_reducible assumption
    | with_reducible apply ok_ite
    | with_reducible apply State.each_ok
    | with_reducible apply State.wr_ok
    | dsimp only
    | split
    | (rw [ok_mk_iff]; refine ⟨?_, ?_, ?_, ?_⟩)
    | with_reducible refine State.Ok.pending ?_
    | with_reducible apply State.Ok.m
    | with_reducible apply State.Ok.c
    | with_reducible apply State.Ok.r

end Sys2Proof.Machine
end

