-- ==== Sys2Proof/Laws/OkFabric.lean ====
section
/-! SUPPORT. What the operations of Machine/Fabric.lean keep: the canonical form of the state and its queue. -/

namespace Sys2Proof.Machine

theorem State.islEvent_ok {q : List Instr} (a0 : State) (a1) (a2) (h0 : State.Ok q a0) : State.Ok q (State.islEvent a0 a1 a2) := by
  unfold State.islEvent
  repeat' first
    | intro _
    | with_reducible assumption
    | with_reducible apply ok_ite
    | with_reducible apply State.raiseB_ok
    | dsimp only

theorem State.islReject_ok {q : List Instr} (a0 : State) (a1) (a2) (h0 : State.Ok q a0) : State.Ok q (State.islReject a0 a1 a2) := by
  unfold State.islReject
  repeat' first
    | intro _
    | with_reducible assumption
    | with_reducible apply ok_ite
    | with_reducible apply State.rejMark_ok
    | with_reducible apply State.islEvent_ok
    | dsimp only

theorem State.d2Clear_ok {q : List Instr} (a0 : State) (a1) (a2) (h0 : State.Ok q a0) : State.Ok q (State.d2Clear a0 a1 a2) := by
  unfold State.d2Clear
  repeat' first
    | intro _
    | with_reducible assumption
    | with_reducible apply ok_ite
    | with_reducible apply State.wr_ok
    | dsimp only
    | split

theorem State.ioInit_ok {q : List Instr} (a0 : State) (a1) (a2) (h0 : State.Ok q a0) : State.Ok q (State.ioInit a0 a1 a2) := by
  unfold State.ioInit
  repeat' first
    | intro _
    | with_reducible assumption
    | with_reducible apply ok_ite
    | with_reducible apply State.wr_ok
    | dsimp only
    | split

theorem State.planeLoaded_ok {q : List Instr} (a0 : State) (a1) (a2) (h0 : State.Ok q a0) : State.Ok q (State.planeLoaded a0 a1 a2) := by
  unfold State.planeLoaded
  repeat' first
    | intro _
    | with_reducible assumption
    | with_reducible apply ok_ite
    | with_reducible apply State.each_ok
    | with_reducible apply State.wr_ok
    | with_reducible apply State.d2Clear_ok
    | dsimp only
    | split

theorem State.muCheck_ok {q : List Instr} (a0 : State) (a1) (a2) (a3) (a4) (h0 : State.Ok q a0) : State.Ok q (State.muCheck a0 a1 a2 a3 a4) := by
  unfold State.muCheck
  repeat' first
    | intro _
    | with_reducible assumption
    | with_reducible apply ok_ite
    | with_reducible apply State.wr_ok
    | with_reducible apply State.islEvent_ok
    | with_reducible apply State.classErr_ok
    | dsimp only
    | split

theorem State.muWrite_ok {q : List Instr} (a0 : State) (a1) (a2) (a3) (h0 : State.Ok q a0) (h3 : ∀ t, State.Ok q t → State.Ok q (a3 t)) : State.Ok q (State.muWrite a0 a1 a2 a3) := by
  unfold State.muWrite
  repeat' first
    | intro _
    | with_reducible assumption
    | with_reducible apply ok_ite
    | with_reducible apply h3
    | with_reducible apply State.deny_ok
    | dsimp only
    | split

theorem State.muStage_ok {q : List Instr} (a0 : State) (a1) (a2) (a3) (a4) (a5) (a6) (h0 : State.Ok q a0) : State.Ok q (State.muStage a0 a1 a2 a3 a4 a5 a6) := by
  unfold State.muStage
  repeat' first
    | intro _
    | with_reducible assumption
    | with_reducible apply ok_ite
    | with_reducible apply State.muWrite_ok
    | with_reducible apply State.wr_ok
    | dsimp only

theorem State.muCommit_ok {q : List Instr} (a0 : State) (a1) (a2) (a3) (a4) (a5) (h0 : State.Ok q a0) : State.Ok q (State.muCommit a0 a1 a2 a3 a4 a5) := by
  unfold State.muCommit
  repeat' first
    | intro _
    | with_reducible assumption
    | with_reducible apply ok_ite
    | with_reducible apply State.muWrite_ok
    | with_reducible apply State.wr_ok
    | dsimp only

theorem State.muCtrl_ok {q : List Instr} (a0 : State) (a1) (a2) (a3) (a4) (a5) (h0 : State.Ok q a0) : State.Ok q (State.muCtrl a0 a1 a2 a3 a4 a5) := by
  unfold State.muCtrl
  repeat' first
    | intro _
    | with_reducible assumption
    | with_reducible apply ok_ite
    | with_reducible apply State.muWrite_ok
    | with_reducible apply State.wr_ok
    | dsimp only
    | split

theorem execMuStageWrite_ok {q : List Instr} (a0) (a1) (a2) (a3) (a4) (a5) (a6 : State) (h6 : State.Ok q a6) : OutOk q (execMuStageWrite a0 a1 a2 a3 a4 a5 a6) := by
  unfold execMuStageWrite
  repeat' first
    | with_reducible apply out_next
    | with_reducible apply out_ite
    | intro _
    | with_reducible assumption
    | with_reducible apply ok_ite
    | with_reducible apply State.muStage_ok
    | dsimp only

theorem execMuCommit_ok {q : List Instr} (a0) (a1) (a2) (a3) (a4) (a5 : State) (h5 : State.Ok q a5) : OutOk q (execMuCommit a0 a1 a2 a3 a4 a5) := by
  unfold execMuCommit
  repeat' first
    | with_reducible apply out_next
    | with_reducible apply out_ite
    | intro _
    | with_reducible assumption
    | with_reducible apply ok_ite
    | with_reducible apply State.muCommit_ok
    | dsimp only

theorem execMuCtrlWrite_ok {q : List Instr} (a0) (a1) (a2) (a3) (a4) (a5 : State) (h5 : State.Ok q a5) : OutOk q (execMuCtrlWrite a0 a1 a2 a3 a4 a5) := by
  unfold execMuCtrlWrite
  repeat' first
    | with_reducible apply out_next
    | with_reducible apply out_ite
    | intro _
    | with_reducible assumption
    | with_reducible apply ok_ite
    | with_reducible apply State.muCtrl_ok
    | dsimp only

theorem execMuEntryRead_ok {q : List Instr} (a0) (a1) (a2) (a3) (a4) (a5 : State) (h5 : State.Ok q a5) : OutOk q (execMuEntryRead a0 a1 a2 a3 a4 a5) := by
  unfold execMuEntryRead
  repeat' first
    | with_reducible apply out_next
    | with_reducible apply out_ite
    | intro _
    | with_reducible assumption
    | with_reducible apply ok_ite
    | with_reducible apply State.muCheck_ok
    | with_reducible apply State.answer_ok
    | dsimp only

theorem execFpMasterRequest_ok {q : List Instr} (a0) (a1) (a2) (a3) (a4) (a5) (a6) (a7) (a8) (a9 : State) (h9 : State.Ok q a9) : OutOk q (execFpMasterRequest a0 a1 a2 a3 a4 a5 a6 a7 a8 a9) := by
  unfold execFpMasterRequest
  repeat' first
    | with_reducible apply out_next
    | with_reducible apply out_ite
    | intro _
    | with_reducible assumption
    | with_reducible apply ok_ite
    | with_reducible apply State.wr_ok
    | with_reducible apply State.answer_ok
    | with_reducible apply State.clrB_ok
    | with_reducible apply State.setB_ok
    | with_reducible apply State.issue_ok
    | with_reducible apply ok_match_opt
    | dsimp only
    | split
    | (rw [ok_mk_iff]; refine ⟨?_, ?_, ?_, ?_⟩)
    | with_reducible refine State.Ok.pending ?_
    | with_reducible apply State.Ok.m
    | with_reducible apply State.Ok.c
    | with_reducible apply State.Ok.r

theorem execFpMasterResponse_ok {q : List Instr} (a0) (a1 : State) (h1 : State.Ok q a1) : OutOk q (execFpMasterResponse a0 a1) := by
  unfold execFpMasterResponse
  repeat' first
    | with_reducible apply out_next
    | with_reducible apply out_ite
    | intro _
    | with_reducible assumption
    | with_reducible apply ok_ite
    | with_reducible apply State.emit_ok
    | with_reducible apply State.wr_ok
    | with_reducible apply ok_match_opt
    | dsimp only
    | split
    | (rw [ok_mk_iff]; refine ⟨?_, ?_, ?_, ?_⟩)
    | with_reducible refine State.Ok.pending ?_
    | with_reducible apply State.Ok.m
    | with_reducible apply State.Ok.c
    | with_reducible apply State.Ok.r

theorem State.slvCount_ok {q : List Instr} (a0 : State) (a1) (h0 : State.Ok q a0) : State.Ok q (State.slvCount a0 a1) := by
  unfold State.slvCount
  repeat' first
    | intro _
    | with_reducible assumption
    | with_reducible apply ok_ite
    | with_reducible apply State.wr_ok
    | with_reducible apply ok_match_opt
    | dsimp only

theorem State.slvAnswer_ok {q : List Instr} (a0 : State) (a1) (a2) (a3) (h0 : State.Ok q a0) : State.Ok q (State.slvAnswer a0 a1 a2 a3) := by
  unfold State.slvAnswer
  repeat' first
    | intro _
    | with_reducible assumption
    | with_reducible apply ok_ite
    | with_reducible apply State.answer_ok
    | with_reducible apply State.setPkt_ok
    | with_reducible apply State.postLost_ok
    | dsimp only
    | split

theorem State.slvTake_ok {q : List Instr} (a0 : State) (a1) (a2) (a3) (a4) (a5) (h0 : State.Ok q a0) : State.Ok q (State.slvTake a0 a1 a2 a3 a4 a5).2 := by
  unfold State.slvTake
  repeat' first
    | intro _
    | with_reducible assumption
    | with_reducible apply ok_ite
    | dsimp only
    | with_reducible apply State.wr_ok
    | with_reducible apply State.slvCount_ok
    | with_reducible apply State.emit_ok
    | with_reducible apply ok_match_opt
    | split
    | (rw [ok_mk_iff]; refine ⟨?_, ?_, ?_, ?_⟩)
    | with_reducible refine State.Ok.pending ?_
    | with_reducible apply State.Ok.m
    | with_reducible apply State.Ok.c
    | with_reducible apply State.Ok.r

theorem State.slvTake_okE {q : List Instr} {a0 : State} {a1} {a2} {a3} {a4} {a5} {b t} (e : State.slvTake a0 a1 a2 a3 a4 a5 = (b, t)) (h0 : State.Ok q a0) : State.Ok q t := by
  have := State.slvTake_ok a0 a1 a2 a3 a4 a5 h0
  rw [e] at this; exact this

theorem execFpSlaveRequest_ok {q : List Instr} (a0) (a1) (a2) (a3) (a4 : State) (h4 : State.Ok q a4) : OutOk q (execFpSlaveRequest a0 a1 a2 a3 a4) := by
  unfold execFpSlaveRequest
  repeat' first
    | with_reducible apply out_next
    | with_reducible apply out_ite
    | intro _
    | with_reducible assumption
    | with_reducible apply ok_ite
    | with_reducible apply State.slvTake_ok
    | with_reducible refine State.slvTake_okE (by assumption) ?_
    | with_reducible apply State.wr_ok
    | with_reducible apply State.answer_ok
    | dsimp only
    | split

theorem State.slvRemove_ok {q : List Instr} (a0 : State) (a1) (a2) (h0 : State.Ok q a0) : State.Ok q (State.slvRemove a0 a1 a2) := by
  unfold State.slvRemove
  repeat' first
    | intro _
    | with_reducible assumption
    | with_reducible apply ok_ite
    | with_reducible apply State.slvCount_ok
    | with_reducible apply ok_match_opt
    | dsimp only
    | (rw [ok_mk_iff]; refine ⟨?_, ?_, ?_, ?_⟩)
    | with_reducible refine State.Ok.pending ?_
    | with_reducible apply State.Ok.m
    | with_reducible apply State.Ok.c
    | with_reducible apply State.Ok.r

theorem execFpSlaveResponse_ok {q : List Instr} (a0) (a1) (a2) (a3) (a4 : State) (h4 : State.Ok q a4) : OutOk q (execFpSlaveResponse a0 a1 a2 a3 a4) := by
  unfold execFpSlaveResponse
  repeat' first
    | with_reducible apply out_next
    | with_reducible apply out_ite
    | intro _
    | with_reducible assumption
    | with_reducible apply ok_ite
    | with_reducible apply State.clrB_ok
    | with_reducible apply State.slvRemove_ok
    | with_reducible apply State.slvAnswer_ok
    | with_reducible apply ok_match_opt
    | dsimp only
    | split

theorem execFpSlaveTimeout_ok {q : List Instr} (a0) (a1) (a2 : State) (h2 : State.Ok q a2) : OutOk q (execFpSlaveTimeout a0 a1 a2) := by
  unfold execFpSlaveTimeout
  repeat' first
    | with_reducible apply out_next
    | with_reducible apply out_ite
    | intro _
    | with_reducible assumption
    | with_reducible apply ok_ite
    | with_reducible apply State.slvRemove_ok
    | with_reducible apply State.slvAnswer_ok
    | with_reducible apply State.setB_ok
    | with_reducible apply State.inc_ok
    | with_reducible apply State.wr_ok
    | with_reducible apply State.islEvent_ok
    | with_reducible apply ok_match_opt
    | dsimp only
    | split

theorem State.fpCut_ok {q : List Instr} (a0 : State) (a1) (h0 : State.Ok q a0) : State.Ok q (State.fpCut a0 a1) := by
  unfold State.fpCut
  repeat' first
    | intro _
    | with_reducible assumption
    | with_reducible apply ok_ite
    | with_reducible apply State.inc_ok
    | with_reducible apply State.wr_ok
    | with_reducible apply State.each_ok
    | with_reducible apply State.slvRemove_ok
    | with_reducible apply State.slvAnswer_ok
    | with_reducible apply ok_match_opt
    | dsimp only

theorem State.swEnd_ok {q : List Instr} (a0 : State) (h0 : State.Ok q a0) : State.Ok q (State.swEnd a0) := by
  unfold State.swEnd
  repeat' first
    | intro _
    | with_reducible assumption
    | with_reducible apply ok_ite
    | with_reducible apply State.wr_ok
    | dsimp only
    | split

theorem State.swForm_ok {q : List Instr} (a0 : State) (a1) (a2) (h0 : State.Ok q a0) : State.Ok q (State.swForm a0 a1 a2) := by
  unfold State.swForm
  repeat' first
    | intro _
    | with_reducible assumption
    | with_reducible apply ok_ite
    | with_reducible apply State.wr_ok
    | with_reducible apply State.raiseB_ok
    | with_reducible apply State.each_ok
    | with_reducible apply ok_foldl
    | with_reducible apply ok_foldl2
    | with_reducible apply ok_foldl3
    | dsimp only
    | split

theorem State.swComplete_ok {q : List Instr} (a0 : State) (a1) (a2) (h0 : State.Ok q a0) : State.Ok q (State.swComplete a0 a1 a2) := by
  unfold State.swComplete
  repeat' first
    | intro _
    | with_reducible assumption
    | with_reducible apply ok_ite
    | with_reducible apply State.fpCut_ok
    | with_reducible apply State.wr_ok
    | with_reducible apply State.add_ok
    | with_reducible apply State.islEvent_ok
    | with_reducible apply State.clrB_ok
    | with_reducible apply State.swEnd_ok
    | dsimp only
    | split

theorem State.switchCmd_ok {q : List Instr} (a0 : State) (a1) (a2) (h0 : State.Ok q a0) : State.Ok q (State.switchCmd a0 a1 a2) := by
  unfold State.switchCmd
  repeat' first
    | intro _
    | with_reducible assumption
    | with_reducible apply ok_ite
    | with_reducible apply State.each_ok
    | with_reducible apply State.islReject_ok
    | with_reducible apply State.swForm_ok
    | dsimp only

theorem State.ctxRequest_ok {q : List Instr} (a0 : State) (a1) (a2) {t} (h0 : State.Ok q a0) (e : State.ctxRequest a0 a1 a2 = some t) : State.Ok q t := by
  unfold State.ctxRequest at e
  revert e
  repeat' first
    | with_reducible refine ok_none
    | with_reducible refine ok_some ?_
    | with_reducible assumption
    | with_reducible apply ok_ite
    | with_reducible apply State.each_ok
    | with_reducible apply State.wr_ok
    | with_reducible apply State.islEvent_ok
    | with_reducible apply State.swForm_ok
    | dsimp only
    | split
    | intro _

theorem State.islClrCnt_ok {q : List Instr} (a0 : State) (a1) (h0 : State.Ok q a0) : State.Ok q (State.islClrCnt a0 a1) := by
  unfold State.islClrCnt
  repeat' first
    | intro _
    | with_reducible assumption
    | with_reducible apply ok_ite
    | with_reducible apply State.wr_ok
    | dsimp only
    | (rw [ok_mk_iff]; refine ⟨?_, ?_, ?_, ?_⟩)
    | with_reducible refine State.Ok.pending ?_
    | with_reducible apply State.Ok.m
    | with_reducible apply State.Ok.c
    | with_reducible apply State.Ok.r
    | with_reducible apply Tab.wf_set
    | with_reducible apply Tab.wf_put
    | with_reducible apply Tab.wf_delRange
    | with_reducible apply Tab.wf_del
    | with_reducible apply Tab.wf_filter

theorem State.islCmd_ok {q : List Instr} (a0 : State) (a1) (a2) (a3) (h0 : State.Ok q a0) : State.Ok q (State.islCmd a0 a1 a2 a3) := by
  unfold State.islCmd
  repeat' first
    | intro _
    | with_reducible assumption
    | with_reducible apply ok_ite
    | with_reducible apply State.switchCmd_ok
    | with_reducible apply State.each_ok
    | with_reducible apply State.islClrCnt_ok
    | with_reducible apply State.islReject_ok
    | dsimp only
    | split

theorem execIslSwitch_ok {q : List Instr} (a0) (a1) (a2 : State) (h2 : State.Ok q a2) : OutOk q (execIslSwitch a0 a1 a2) := by
  unfold execIslSwitch
  repeat' first
    | with_reducible apply out_next
    | with_reducible apply out_ite
    | intro _
    | with_reducible assumption
    | with_reducible apply ok_ite
    | with_reducible apply State.switchCmd_ok
    | dsimp only

theorem execIslClrCnt_ok {q : List Instr} (a0) (a1 : State) (h1 : State.Ok q a1) : OutOk q (execIslClrCnt a0 a1) := by
  unfold execIslClrCnt
  repeat' first
    | with_reducible apply out_next
    | with_reducible apply out_ite
    | intro _
    | with_reducible assumption
    | with_reducible apply ok_ite
    | with_reducible apply State.islClrCnt_ok
    | dsimp only

theorem execWaveInstant_ok {q : List Instr} (a0 : State) (h0 : State.Ok q a0) : OutOk q (execWaveInstant a0) := by
  unfold execWaveInstant
  repeat' first
    | with_reducible apply out_next
    | with_reducible apply out_ite
    | intro _
    | with_reducible assumption
    | with_reducible apply ok_ite
    | with_reducible apply State.wr_ok
    | with_reducible apply State.inc_ok
    | with_reducible apply State.each_ok
    | with_reducible apply State.swComplete_ok
    | with_reducible apply ok_foldl
    | with_reducible apply ok_foldl2
    | with_reducible apply ok_foldl3
    | dsimp only
    | split

theorem State.swAbandon_ok {q : List Instr} (a0 : State) (h0 : State.Ok q a0) : State.Ok q (State.swAbandon a0) := by
  unfold State.swAbandon
  repeat' first
    | intro _
    | with_reducible assumption
    | with_reducible apply ok_ite
    | with_reducible apply State.each_ok
    | with_reducible apply State.wr_ok
    | with_reducible apply State.swEnd_ok
    | dsimp only

theorem State.fabricReset_ok {q : List Instr} (a0 : State) (a1) (a2) (h0 : State.Ok q a0) : State.Ok q (State.fabricReset a0 a1 a2) := by
  unfold State.fabricReset
  repeat' first
    | intro _
    | with_reducible assumption
    | with_reducible apply ok_ite
    | with_reducible apply State.wr_ok
    | with_reducible apply State.each_ok
    | with_reducible apply State.d2Clear_ok
    | with_reducible apply State.ioInit_ok
    | dsimp only

end Sys2Proof.Machine
end

