-- ==== Sys2Proof/Laws/OkEdge.lean ====
section
/-! SUPPORT. What the operations of Machine/Edge.lean keep: the canonical form of the state and its queue. -/

namespace Sys2Proof.Machine

theorem State.ioDrive_ok {q : List Instr} (a0 : State) (a1) (h0 : State.Ok q a0) : State.Ok q (State.ioDrive a0 a1) := by
  unfold State.ioDrive
  repeat' first
    | intro _
    | with_reducible assumption
    | with_reducible apply ok_ite
    | with_reducible apply State.emitPins_ok
    | with_reducible apply State.wr_ok
    | dsimp only
    | split

theorem State.ioSees_ok {q : List Instr} (a0 : State) (a1) (a2) (a3) (h0 : State.Ok q a0) : State.Ok q (State.ioSees a0 a1 a2 a3) := by
  unfold State.ioSees
  repeat' first
    | intro _
    | with_reducible assumption
    | with_reducible apply ok_ite
    | with_reducible apply State.wr_ok
    | dsimp only
    | split

theorem State.ioEdge_ok {q : List Instr} (a0 : State) (a1) (a2) (a3) (a4) (a5) (a6) (a7) (h0 : State.Ok q a0) : State.Ok q (State.ioEdge a0 a1 a2 a3 a4 a5 a6 a7) := by
  unfold State.ioEdge
  repeat' first
    | intro _
    | with_reducible assumption
    | with_reducible apply ok_ite
    | with_reducible apply State.wrIf_ok
    | with_reducible apply State.wr_ok
    | dsimp only
    | split

theorem State.muUpset_ok {q : List Instr} (a0) (a1) (a2 : State) (h2 : State.Ok q a2) : State.Ok q (State.muUpset a0 a1 a2) := by
  unfold State.muUpset
  repeat' first
    | intro _
    | with_reducible assumption
    | with_reducible apply ok_ite
    | with_reducible apply State.wr_ok
    | dsimp only

theorem State.muCheckAll_ok {q : List Instr} (a0 : State) (a1) (a2) (h0 : State.Ok q a0) : State.Ok q (State.muCheckAll a0 a1 a2) := by
  unfold State.muCheckAll
  repeat' first
    | intro _
    | with_reducible assumption
    | with_reducible apply ok_ite
    | with_reducible apply State.each_ok
    | with_reducible apply State.muCheck_ok
    | dsimp only

theorem State.edgeRegs_ok {q : List Instr} (a0 : State) (a1) (a2) (a3) (h0 : State.Ok q a0) : State.Ok q (State.edgeRegs a0 a1 a2 a3) := by
  unfold State.edgeRegs
  repeat' first
    | intro _
    | with_reducible assumption
    | with_reducible apply ok_ite
    | with_reducible apply State.wrIf_ok
    | with_reducible apply State.wr_ok
    | with_reducible apply State.ioEdge_ok
    | with_reducible apply State.ioDrive_ok
    | dsimp only
    | split

theorem State.edgeMatch_ok {q : List Instr} (a0 : State) (a1) (a2) (h0 : State.Ok q a0) : State.Ok q (State.edgeMatch a0 a1 a2) := by
  unfold State.edgeMatch
  repeat' first
    | intro _
    | with_reducible assumption
    | with_reducible apply ok_ite
    | with_reducible apply State.each_ok
    | with_reducible apply State.inc_ok
    | with_reducible apply State.wr_ok
    | with_reducible apply ok_foldl
    | with_reducible apply ok_foldl2
    | with_reducible apply ok_foldl3
    | dsimp only

theorem State.tapsFollow_ok {q : List Instr} (a0 : State) (a1) (h0 : State.Ok q a0) : State.Ok q (State.tapsFollow a0 a1) := by
  unfold State.tapsFollow
  repeat' first
    | intro _
    | with_reducible assumption
    | with_reducible apply ok_ite
    | with_reducible apply State.wr_ok
    | with_reducible apply State.hopSee_ok
    | dsimp only

theorem State.islandEdge_ok {q : List Instr} (a0 : State) (a1) (a2) (a3) (h0 : State.Ok q a0) : State.Ok q (State.islandEdge a0 a1 a2 a3) := by
  unfold State.islandEdge
  repeat' first
    | intro _
    | with_reducible assumption
    | with_reducible apply ok_ite
    | with_reducible apply State.fresh_ok
    | with_reducible refine State.fresh_okE (by assumption) ?_
    | with_reducible apply State.ioSees_ok
    | with_reducible apply State.muCheckAll_ok
    | with_reducible apply State.edgeRegs_ok
    | with_reducible apply State.edgeMatch_ok
    | with_reducible apply State.tapsFollow_ok
    | dsimp only
    | split

theorem State.muUpsets_ok {q : List Instr} (a0 : State) (a1) (a2) (h0 : State.Ok q a0) : State.Ok q (State.muUpsets a0 a1 a2) := by
  unfold State.muUpsets
  repeat' first
    | intro _
    | with_reducible assumption
    | with_reducible apply ok_ite
    | with_reducible apply State.each_ok
    | with_reducible apply State.muUpset_ok
    | dsimp only

theorem execMatchUnitCompare_ok {q : List Instr} (a0) (a1) (a2 : State) (h2 : State.Ok q a2) : OutOk q (execMatchUnitCompare a0 a1 a2) := by
  unfold execMatchUnitCompare
  repeat' first
    | with_reducible apply out_next
    | with_reducible apply out_ite
    | intro _
    | with_reducible assumption
    | with_reducible apply ok_ite
    | with_reducible apply State.muUpsets_ok
    | with_reducible apply State.islandEdge_ok
    | with_reducible apply State.fresh_ok
    | with_reducible refine State.fresh_okE (by assumption) ?_
    | with_reducible apply State.ioSees_ok
    | dsimp only
    | split

theorem execIslandSwitchCycle_ok {q : List Instr} (a0) (a1) (a2 : State) (h2 : State.Ok q a2) : OutOk q (execIslandSwitchCycle a0 a1 a2) := by
  unfold execIslandSwitchCycle
  repeat' first
    | with_reducible apply out_next
    | with_reducible apply out_ite
    | intro _
    | with_reducible assumption
    | with_reducible apply ok_ite
    | with_reducible apply State.muUpsets_ok
    | with_reducible apply State.islandEdge_ok
    | with_reducible apply State.swComplete_ok
    | dsimp only
    | split

end Sys2Proof.Machine
end

