-- ==== Sys2Proof/Laws/OkClocks.lean ====
section
/-! SUPPORT. What the operations of Machine/Clocks.lean keep: the canonical form of the state and its queue. -/

namespace Sys2Proof.Machine

theorem State.ppmWrite_ok {q : List Instr} (a0 : State) (a1) (a2) (a3) (h0 : State.Ok q a0) : State.Ok q (State.ppmWrite a0 a1 a2 a3) := by
  unfold State.ppmWrite
  repeat' first
    | intro _
    | with_reducible assumption
    | with_reducible apply ok_ite
    | with_reducible apply State.wr_ok
    | with_reducible apply State.wrFree_ok
    | dsimp only
    | split

theorem State.refSelect_ok {q : List Instr} (a0 : State) (a1) (a2) (h0 : State.Ok q a0) : State.Ok q (State.refSelect a0 a1 a2) := by
  unfold State.refSelect
  repeat' first
    | intro _
    | with_reducible assumption
    | with_reducible apply ok_ite
    | with_reducible apply State.wr_ok
    | with_reducible apply State.raiseB_ok
    | dsimp only
    | split

theorem State.judgeSelect_ok {q : List Instr} (a0 : State) (a1) (a2) (a3) (h0 : State.Ok q a0) : State.Ok q (State.judgeSelect a0 a1 a2 a3) := by
  unfold State.judgeSelect
  repeat' first
    | intro _
    | with_reducible assumption
    | with_reducible apply ok_ite
    | with_reducible apply State.wr_ok
    | with_reducible apply State.raiseB_ok
    | dsimp only
    | split

theorem execRefCheck_ok {q : List Instr} (a0) (a1) (a2) (a3 : State) (h3 : State.Ok q a3) : OutOk q (execRefCheck a0 a1 a2 a3) := by
  unfold execRefCheck
  repeat' first
    | with_reducible apply out_next
    | with_reducible apply out_ite
    | intro _
    | with_reducible assumption
    | with_reducible apply ok_ite
    | with_reducible apply State.wr_ok
    | with_reducible apply State.ppmWrite_ok
    | with_reducible apply State.refSelect_ok
    | with_reducible apply State.judgeSelect_ok
    | with_reducible apply ok_match_opt
    | dsimp only
    | split

theorem execClassFallback_ok {q : List Instr} (a0) (a1) (a2 : State) (h2 : State.Ok q a2) : OutOk q (execClassFallback a0 a1 a2) := by
  unfold execClassFallback
  repeat' first
    | with_reducible apply out_next
    | with_reducible apply out_ite
    | intro _
    | with_reducible assumption
    | with_reducible apply ok_ite
    | with_reducible apply State.clrB_ok
    | with_reducible apply State.setB_ok
    | with_reducible apply State.raiseB_ok
    | dsimp only
    | split

theorem State.clkRefCfg_ok {q : List Instr} (a0 : State) (a1) (h0 : State.Ok q a0) : State.Ok q (State.clkRefCfg a0 a1) := by
  unfold State.clkRefCfg
  repeat' first
    | intro _
    | with_reducible assumption
    | with_reducible apply ok_ite
    | with_reducible apply State.wr_ok
    | with_reducible apply State.deny_ok
    | dsimp only
    | split

theorem execClkRefCfgWrite_ok {q : List Instr} (a0) (a1 : State) (h1 : State.Ok q a1) : OutOk q (execClkRefCfgWrite a0 a1) := by
  unfold execClkRefCfgWrite
  repeat' first
    | with_reducible apply out_next
    | with_reducible apply out_ite
    | intro _
    | with_reducible assumption
    | with_reducible apply ok_ite
    | with_reducible apply State.clkRefCfg_ok
    | dsimp only

theorem State.pllOff_ok {q : List Instr} (a0 : State) (a1) (a2) (h0 : State.Ok q a0) : State.Ok q (State.pllOff a0 a1 a2) := by
  unfold State.pllOff
  repeat' first
    | intro _
    | with_reducible assumption
    | with_reducible apply ok_ite
    | with_reducible apply State.wr_ok
    | dsimp only

theorem State.pllStart_ok {q : List Instr} (a0 : State) (a1) (h0 : State.Ok q a0) : State.Ok q (State.pllStart a0 a1) := by
  unfold State.pllStart
  repeat' first
    | intro _
    | with_reducible assumption
    | with_reducible apply ok_ite
    | with_reducible apply State.pllOff_ok
    | with_reducible apply State.wr_ok
    | dsimp only

theorem State.pairApply_ok {q : List Instr} (a0 : State) (a1) (h0 : State.Ok q a0) : State.Ok q (State.pairApply a0 a1) := by
  unfold State.pairApply
  repeat' first
    | intro _
    | with_reducible assumption
    | with_reducible apply ok_ite
    | with_reducible apply State.wr_ok
    | dsimp only

theorem State.clkSettle_ok {q : List Instr} (a0 : State) (a1) (h0 : State.Ok q a0) : State.Ok q (State.clkSettle a0 a1) := by
  unfold State.clkSettle
  repeat' first
    | intro _
    | with_reducible assumption
    | with_reducible apply ok_ite
    | with_reducible apply State.pllStart_ok
    | with_reducible apply State.pairApply_ok
    | with_reducible apply State.pllOff_ok
    | with_reducible apply State.wr_ok
    | dsimp only
    | split

theorem State.clkFault_ok {q : List Instr} (a0 : State) (a1) (a2) (a3) (h0 : State.Ok q a0) : State.Ok q (State.clkFault a0 a1 a2 a3) := by
  unfold State.clkFault
  repeat' first
    | intro _
    | with_reducible assumption
    | with_reducible apply ok_ite
    | with_reducible apply State.pllOff_ok
    | with_reducible apply State.wr_ok
    | with_reducible apply State.islEvent_ok
    | with_reducible apply State.clkSettle_ok
    | dsimp only

theorem State.clkReq_ok {q : List Instr} (a0 : State) (a1) (a2) (h0 : State.Ok q a0) : State.Ok q (State.clkReq a0 a1 a2) := by
  unfold State.clkReq
  repeat' first
    | intro _
    | with_reducible assumption
    | with_reducible apply ok_ite
    | with_reducible apply State.deny_ok
    | with_reducible apply State.wr_ok
    | with_reducible apply State.clkSettle_ok
    | dsimp only
    | split

theorem execIslClkReqWrite_ok {q : List Instr} (a0) (a1) (a2 : State) (h2 : State.Ok q a2) : OutOk q (execIslClkReqWrite a0 a1 a2) := by
  unfold execIslClkReqWrite
  repeat' first
    | with_reducible apply out_next
    | with_reducible apply out_ite
    | intro _
    | with_reducible assumption
    | with_reducible apply ok_ite
    | with_reducible apply State.clkReq_ok
    | dsimp only

theorem State.clkCfg_ok {q : List Instr} (a0 : State) (a1) (a2) (a3) (h0 : State.Ok q a0) : State.Ok q (State.clkCfg a0 a1 a2 a3) := by
  unfold State.clkCfg
  repeat' first
    | intro _
    | with_reducible assumption
    | with_reducible apply ok_ite
    | with_reducible apply State.deny_ok
    | with_reducible apply State.wr_ok
    | with_reducible apply State.clkSettle_ok
    | with_reducible apply State.pllStart_ok
    | dsimp only
    | split

theorem execIslClkCfgWrite_ok {q : List Instr} (a0) (a1) (a2) (a3 : State) (h3 : State.Ok q a3) : OutOk q (execIslClkCfgWrite a0 a1 a2 a3) := by
  unfold execIslClkCfgWrite
  repeat' first
    | with_reducible apply out_next
    | with_reducible apply out_ite
    | intro _
    | with_reducible assumption
    | with_reducible apply ok_ite
    | with_reducible apply State.clkCfg_ok
    | dsimp only

theorem execIslPllLocked_ok {q : List Instr} (a0) (a1 : State) (h1 : State.Ok q a1) : OutOk q (execIslPllLocked a0 a1) := by
  unfold execIslPllLocked
  repeat' first
    | with_reducible apply out_next
    | with_reducible apply out_ite
    | intro _
    | with_reducible assumption
    | with_reducible apply ok_ite
    | with_reducible apply State.wr_ok
    | dsimp only
    | split

theorem execIslLockTimeout_ok {q : List Instr} (a0) (a1 : State) (h1 : State.Ok q a1) : OutOk q (execIslLockTimeout a0 a1) := by
  unfold execIslLockTimeout
  repeat' first
    | with_reducible apply out_next
    | with_reducible apply out_ite
    | intro _
    | with_reducible assumption
    | with_reducible apply ok_ite
    | with_reducible apply State.clkFault_ok
    | dsimp only
    | split

theorem State.clkLost_ok {q : List Instr} (a0 : State) (a1) (a2) (h0 : State.Ok q a0) : State.Ok q (State.clkLost a0 a1 a2) := by
  unfold State.clkLost
  repeat' first
    | intro _
    | with_reducible assumption
    | with_reducible apply ok_ite
    | with_reducible apply State.clkFault_ok
    | dsimp only
    | split

theorem execJudgeWindow_ok {q : List Instr} (a0) (a1) (a2 : State) (h2 : State.Ok q a2) : OutOk q (execJudgeWindow a0 a1 a2) := by
  unfold execJudgeWindow
  repeat' first
    | with_reducible apply out_next
    | with_reducible apply out_ite
    | intro _
    | with_reducible assumption
    | with_reducible apply ok_ite
    | with_reducible apply State.wr_ok
    | with_reducible apply State.clkSettle_ok
    | with_reducible apply State.clkFault_ok
    | with_reducible apply State.clkLost_ok
    | dsimp only
    | split

theorem execIslClkLost_ok {q : List Instr} (a0) (a1) (a2 : State) (h2 : State.Ok q a2) : OutOk q (execIslClkLost a0 a1 a2) := by
  unfold execIslClkLost
  repeat' first
    | with_reducible apply out_next
    | with_reducible apply out_ite
    | intro _
    | with_reducible assumption
    | with_reducible apply ok_ite
    | with_reducible apply State.clkLost_ok
    | dsimp only
    | split

theorem State.slcStat_ok {q : List Instr} (a0 : State) (a1) (a2) (h0 : State.Ok q a0) : State.Ok q (State.slcStat a0 a1 a2) := by
  unfold State.slcStat
  repeat' first
    | intro _
    | with_reducible assumption
    | with_reducible apply ok_ite
    | with_reducible apply State.wr_ok
    | with_reducible apply ok_match_opt
    | dsimp only

theorem State.setBank_ok {q : List Instr} (a0 : State) (a1) (a2) (a3) (a4) (h0 : State.Ok q a0) : State.Ok q (State.setBank a0 a1 a2 a3 a4) := by
  unfold State.setBank
  repeat' first
    | intro _
    | with_reducible assumption
    | with_reducible apply ok_ite
    | with_reducible apply State.slcStat_ok
    | dsimp only
    | (rw [ok_mk_iff]; refine ⟨?_, ?_, ?_, ?_⟩)
    | with_reducible refine State.Ok.pending ?_
    | with_reducible apply State.Ok.m
    | with_reducible apply State.Ok.c
    | with_reducible apply State.Ok.r

theorem State.slcFlush_ok {q : List Instr} (a0 : State) (a1) (a2) (a3) (h0 : State.Ok q a0) : State.Ok q (State.slcFlush a0 a1 a2 a3) := by
  unfold State.slcFlush
  repeat' first
    | intro _
    | with_reducible assumption
    | with_reducible apply ok_ite
    | with_reducible apply State.inc_ok
    | with_reducible apply State.setBank_ok
    | with_reducible apply ok_match_opt
    | dsimp only

theorem State.slcFlushAll_ok {q : List Instr} (a0 : State) (a1) (h0 : State.Ok q a0) : State.Ok q (State.slcFlushAll a0 a1) := by
  unfold State.slcFlushAll
  repeat' first
    | intro _
    | with_reducible assumption
    | with_reducible apply ok_ite
    | with_reducible apply State.each_ok
    | with_reducible apply State.slcFlush_ok
    | dsimp only

theorem execSluiceSend_ok {q : List Instr} (a0) (a1) (a2) (a3) (a4 : State) (h4 : State.Ok q a4) : OutOk q (execSluiceSend a0 a1 a2 a3 a4) := by
  unfold execSluiceSend
  repeat' first
    | with_reducible apply out_next
    | with_reducible apply out_ite
    | intro _
    | with_reducible assumption
    | with_reducible apply ok_ite
    | with_reducible apply State.answer_ok
    | with_reducible apply State.setBank_ok
    | with_reducible apply ok_match_opt
    | dsimp only
    | split

theorem execSluiceDeliver_ok {q : List Instr} (a0) (a1) (a2) (a3 : State) (h3 : State.Ok q a3) : OutOk q (execSluiceDeliver a0 a1 a2 a3) := by
  unfold execSluiceDeliver
  repeat' first
    | with_reducible apply out_next
    | with_reducible apply out_ite
    | intro _
    | with_reducible assumption
    | with_reducible apply ok_ite
    | with_reducible apply State.answer_ok
    | with_reducible apply State.setBank_ok
    | with_reducible apply ok_match_opt
    | dsimp only
    | split

theorem State.slcCtrl_ok {q : List Instr} (a0 : State) (a1) (a2) (a3) (h0 : State.Ok q a0) : State.Ok q (State.slcCtrl a0 a1 a2 a3) := by
  unfold State.slcCtrl
  repeat' first
    | intro _
    | with_reducible assumption
    | with_reducible apply ok_ite
    | with_reducible apply State.wr_ok
    | with_reducible apply State.deny_ok
    | dsimp only
    | split

theorem execSluiceFlushWrite_ok {q : List Instr} (a0) (a1) (a2) (a3 : State) (h3 : State.Ok q a3) : OutOk q (execSluiceFlushWrite a0 a1 a2 a3) := by
  unfold execSluiceFlushWrite
  repeat' first
    | with_reducible apply out_next
    | with_reducible apply out_ite
    | intro _
    | with_reducible assumption
    | with_reducible apply ok_ite
    | with_reducible apply State.slcCtrl_ok
    | dsimp only

theorem execSluiceFlushDone_ok {q : List Instr} (a0) (a1) (a2) (a3 : State) (h3 : State.Ok q a3) : OutOk q (execSluiceFlushDone a0 a1 a2 a3) := by
  unfold execSluiceFlushDone
  repeat' first
    | with_reducible apply out_next
    | with_reducible apply out_ite
    | intro _
    | with_reducible assumption
    | with_reducible apply ok_ite
    | with_reducible apply State.slcFlush_ok
    | with_reducible apply State.clrB_ok
    | dsimp only
    | split

theorem State.weirShut_ok {q : List Instr} (a0 : State) (a1) (h0 : State.Ok q a0) : State.Ok q (State.weirShut a0 a1) := by
  unfold State.weirShut
  repeat' first
    | intro _
    | with_reducible assumption
    | with_reducible apply ok_ite
    | with_reducible apply State.wr_ok
    | with_reducible apply State.each_ok
    | with_reducible apply State.ioDrive_ok
    | dsimp only
    | split

theorem State.enterRun_ok {q : List Instr} (a0 : State) (a1) (h0 : State.Ok q a0) : State.Ok q (State.enterRun a0 a1) := by
  unfold State.enterRun
  repeat' first
    | intro _
    | with_reducible assumption
    | with_reducible apply ok_ite
    | with_reducible apply State.wr_ok
    | with_reducible apply State.ioDrive_ok
    | dsimp only

theorem State.ioRelease_ok {q : List Instr} (a0 : State) (a1) (h0 : State.Ok q a0) : State.Ok q (State.ioRelease a0 a1) := by
  unfold State.ioRelease
  repeat' first
    | intro _
    | with_reducible assumption
    | with_reducible apply ok_ite
    | with_reducible apply State.wr_ok
    | with_reducible apply State.ioDrive_ok
    | with_reducible apply State.islEvent_ok
    | with_reducible apply ok_foldl
    | with_reducible apply ok_foldl2
    | with_reducible apply ok_foldl3
    | dsimp only
    | split

theorem State.fabricStart_ok {q : List Instr} (a0 : State) (a1) (a2) (h0 : State.Ok q a0) : State.Ok q (State.fabricStart a0 a1 a2) := by
  unfold State.fabricStart
  repeat' first
    | intro _
    | with_reducible assumption
    | with_reducible apply ok_ite
    | with_reducible apply State.wr_ok
    | with_reducible apply State.d2Clear_ok
    | with_reducible apply State.ioInit_ok
    | dsimp only

theorem State.startAlone_ok {q : List Instr} (a0 : State) (a1) (h0 : State.Ok q a0) : State.Ok q (State.startAlone a0 a1) := by
  unfold State.startAlone
  repeat' first
    | intro _
    | with_reducible assumption
    | with_reducible apply ok_ite
    | with_reducible apply State.ioRelease_ok
    | with_reducible apply State.fabricStart_ok
    | with_reducible apply State.enterRun_ok
    | dsimp only
    | split

theorem State.resetRelease_ok {q : List Instr} (a0 : State) (a1) (h0 : State.Ok q a0) : State.Ok q (State.resetRelease a0 a1) := by
  unfold State.resetRelease
  repeat' first
    | intro _
    | with_reducible assumption
    | with_reducible apply ok_ite
    | with_reducible apply State.wr_ok
    | with_reducible apply State.clkSettle_ok
    | with_reducible apply State.startAlone_ok
    | dsimp only
    | split

theorem State.fenceAbandon_ok {q : List Instr} (a0 : State) (a1) (h0 : State.Ok q a0) : State.Ok q (State.fenceAbandon a0 a1) := by
  unfold State.fenceAbandon
  repeat' first
    | intro _
    | with_reducible assumption
    | with_reducible apply ok_ite
    | with_reducible apply State.fpCut_ok
    | dsimp only
    | split
    | (rw [ok_mk_iff]; refine ⟨?_, ?_, ?_, ?_⟩)
    | with_reducible refine State.Ok.pending ?_
    | with_reducible apply State.Ok.m
    | with_reducible apply State.Ok.c
    | with_reducible apply State.Ok.r

theorem State.rampBegin_ok {q : List Instr} (a0 : State) (a1) (h0 : State.Ok q a0) : State.Ok q (State.rampBegin a0 a1) := by
  unfold State.rampBegin
  repeat' first
    | intro _
    | with_reducible assumption
    | with_reducible apply ok_ite
    | with_reducible apply State.fenceAbandon_ok
    | with_reducible apply State.slcFlushAll_ok
    | with_reducible apply State.wr_ok
    | with_reducible apply State.pllOff_ok
    | dsimp only
    | split

theorem State.rampAdmit_ok {q : List Instr} (a0 : State) (a1) (h0 : State.Ok q a0) : State.Ok q (State.rampAdmit a0 a1) := by
  unfold State.rampAdmit
  repeat' first
    | intro _
    | with_reducible assumption
    | with_reducible apply ok_ite
    | with_reducible apply State.wr_ok
    | with_reducible apply State.rampBegin_ok
    | dsimp only
    | split

theorem execRampAdmit_ok {q : List Instr} (a0) (a1 : State) (h1 : State.Ok q a1) : OutOk q (execRampAdmit a0 a1) := by
  unfold execRampAdmit
  repeat' first
    | with_reducible apply out_next
    | with_reducible apply out_ite
    | intro _
    | with_reducible assumption
    | with_reducible apply ok_ite
    | with_reducible apply State.rampAdmit_ok
    | dsimp only
    | split

theorem execRampUpDone_ok {q : List Instr} (a0) (a1 : State) (h1 : State.Ok q a1) : OutOk q (execRampUpDone a0 a1) := by
  unfold execRampUpDone
  repeat' first
    | with_reducible apply out_next
    | with_reducible apply out_ite
    | intro _
    | with_reducible assumption
    | with_reducible apply ok_ite
    | with_reducible apply State.wr_ok
    | with_reducible apply State.resetRelease_ok
    | dsimp only
    | split

theorem execRampDownDone_ok {q : List Instr} (a0) (a1 : State) (h1 : State.Ok q a1) : OutOk q (execRampDownDone a0 a1) := by
  unfold execRampDownDone
  repeat' first
    | with_reducible apply out_next
    | with_reducible apply out_ite
    | intro _
    | with_reducible assumption
    | with_reducible apply ok_ite
    | with_reducible apply State.pllOff_ok
    | with_reducible apply State.wr_ok
    | with_reducible apply State.clkSettle_ok
    | dsimp only
    | split

theorem State.pwrWrite_ok {q : List Instr} (a0 : State) (a1) (a2) (h0 : State.Ok q a0) : State.Ok q (State.pwrWrite a0 a1 a2) := by
  unfold State.pwrWrite
  repeat' first
    | intro _
    | with_reducible assumption
    | with_reducible apply ok_ite
    | with_reducible apply State.wr_ok
    | with_reducible apply State.deny_ok
    | dsimp only
    | split

theorem execIslPwrOffReq_ok {q : List Instr} (a0) (a1 : State) (h1 : State.Ok q a1) : OutOk q (execIslPwrOffReq a0 a1) := by
  unfold execIslPwrOffReq
  repeat' first
    | with_reducible apply out_next
    | with_reducible apply out_ite
    | intro _
    | with_reducible assumption
    | with_reducible apply ok_ite
    | with_reducible apply State.pwrWrite_ok
    | dsimp only

theorem execIslPwrOnReq_ok {q : List Instr} (a0) (a1 : State) (h1 : State.Ok q a1) : OutOk q (execIslPwrOnReq a0 a1) := by
  unfold execIslPwrOnReq
  repeat' first
    | with_reducible apply out_next
    | with_reducible apply out_ite
    | intro _
    | with_reducible assumption
    | with_reducible apply ok_ite
    | with_reducible apply State.pwrWrite_ok
    | dsimp only

theorem execPowerDownDone_ok {q : List Instr} (a0) (a1 : State) (h1 : State.Ok q a1) : OutOk q (execPowerDownDone a0 a1) := by
  unfold execPowerDownDone
  repeat' first
    | with_reducible apply out_next
    | with_reducible apply out_ite
    | intro _
    | with_reducible assumption
    | with_reducible apply ok_ite
    | with_reducible apply State.wr_ok
    | dsimp only
    | split

theorem execPowerUpDone_ok {q : List Instr} (a0) (a1 : State) (h1 : State.Ok q a1) : OutOk q (execPowerUpDone a0 a1) := by
  unfold execPowerUpDone
  repeat' first
    | with_reducible apply out_next
    | with_reducible apply out_ite
    | intro _
    | with_reducible assumption
    | with_reducible apply ok_ite
    | with_reducible apply State.wr_ok
    | with_reducible apply State.fabricReset_ok
    | with_reducible apply State.clkSettle_ok
    | dsimp only
    | split

end Sys2Proof.Machine
end

