-- ==== Sys2Proof/Laws/OkRunner.lean ====
section
/-! SUPPORT. What the operations of Machine/Runner.lean keep: the canonical form of the state and its queue. -/

namespace Sys2Proof.Machine

theorem State.freshBytes_ok {q : List Instr} (a0 : State) (a1) (h0 : State.Ok q a0) : State.Ok q (State.freshBytes a0 a1).2 := by
  unfold State.freshBytes
  repeat' first
    | intro _
    | with_reducible assumption
    | with_reducible apply ok_ite
    | dsimp only
    | with_reducible apply State.fresh_ok
    | with_reducible refine State.fresh_okE (by assumption) ?_

theorem State.freshBytes_okE {q : List Instr} {a0 : State} {a1} {b t} (e : State.freshBytes a0 a1 = (b, t)) (h0 : State.Ok q a0) : State.Ok q t := by
  have := State.freshBytes_ok a0 a1 h0
  rw [e] at this; exact this

theorem State.runRead_ok {q : List Instr} (a0 : State) (a1) (a2) (a3) (h0 : State.Ok q a0) : State.Ok q (State.runRead a0 a1 a2 a3).2.2 := by
  unfold State.runRead
  repeat' first
    | intro _
    | with_reducible assumption
    | with_reducible apply ok_ite
    | dsimp only
    | with_reducible apply State.memRead_ok
    | with_reducible refine State.memRead_okE (by assumption) ?_
    | with_reducible apply State.freshBytes_ok
    | with_reducible refine State.freshBytes_okE (by assumption) ?_
    | split

theorem State.runRead_okE {q : List Instr} {a0 : State} {a1} {a2} {a3} {b c t} (e : State.runRead a0 a1 a2 a3 = (b, c, t)) (h0 : State.Ok q a0) : State.Ok q t := by
  have := State.runRead_ok a0 a1 a2 a3 h0
  rw [e] at this; exact this

theorem State.srcRead_ok {q : List Instr} (a0 : State) (a1) (a2) {t} (h0 : State.Ok q a0) (e : State.srcRead a0 a1 a2 = some t) : State.Ok q t.2.2 := by
  unfold State.srcRead at e
  dsimp only at e
  split at e
  · exact ok_some3 (State.runRead_ok _ _ _ _ h0) e
  · split at e
    · exact ok_none3 e
    · refine ok_some3 ?_ e
      exact ok_foldl3 (fun t p ht => State.runRead_ok _ _ _ _ ht) h0

theorem State.srcAdvance_ok {q : List Instr} (a0 : State) (a1) (a2) (h0 : State.Ok q a0) : State.Ok q (State.srcAdvance a0 a1 a2) := by
  unfold State.srcAdvance
  repeat' first
    | intro _
    | with_reducible assumption
    | with_reducible apply ok_ite
    | with_reducible apply State.wr_ok
    | dsimp only
    | split

theorem State.tplBack_ok {q : List Instr} (a0 : State) (a1) (h0 : State.Ok q a0) : State.Ok q (State.tplBack a0 a1).2 := by
  unfold State.tplBack
  repeat' first
    | intro _
    | with_reducible assumption
    | with_reducible apply ok_ite
    | dsimp only
    | with_reducible apply State.memWrite_ok
    | with_reducible refine State.memWrite_okE (by assumption) ?_
    | split

theorem State.tplBack_okE {q : List Instr} {a0 : State} {a1} {b t} (e : State.tplBack a0 a1 = (b, t)) (h0 : State.Ok q a0) : State.Ok q t := by
  have := State.tplBack_ok a0 a1 h0
  rw [e] at this; exact this

theorem State.tplBackAll_ok {q : List Instr} (a0 : State) (a1) (a2) (h0 : State.Ok q a0) : State.Ok q (State.tplBackAll a0 a1 a2) := by
  unfold State.tplBackAll
  refine State.each_ok _ _ _ (fun x t ht => ?_) h0
  split
  · rename_i u e
    exact State.tplBack_okE e ht
  · rename_i u e
    have k := State.tplBack_okE e ht
    exact ok_mk k.1 k.m k.c k.r

theorem State.tplFlush_ok {q : List Instr} (a0 : State) (a1) (h0 : State.Ok q a0) : State.Ok q (State.tplFlush a0 a1) := by
  unfold State.tplFlush
  repeat' first
    | intro _
    | with_reducible assumption
    | with_reducible apply ok_ite
    | with_reducible apply State.tplBackAll_ok
    | with_reducible apply ok_match_opt
    | dsimp only
    | (rw [ok_mk_iff]; refine ⟨?_, ?_, ?_, ?_⟩)
    | with_reducible refine State.Ok.pending ?_
    | with_reducible apply State.Ok.m
    | with_reducible apply State.Ok.c
    | with_reducible apply State.Ok.r

theorem State.tplRetry_ok {q : List Instr} (a0 : State) (a1) (h0 : State.Ok q a0) : State.Ok q (State.tplRetry a0 a1) := by
  unfold State.tplRetry
  repeat' first
    | intro _
    | with_reducible assumption
    | with_reducible apply ok_ite
    | with_reducible apply State.tplFlush_ok
    | with_reducible apply ok_match_opt
    | dsimp only
    | split

theorem State.tplGet_ok {q : List Instr} (a0 : State) (a1) (a2) (h0 : State.Ok q a0) : State.Ok q (State.tplGet a0 a1 a2).2 := by
  unfold State.tplGet
  repeat' first
    | intro _
    | with_reducible assumption
    | with_reducible apply ok_ite
    | dsimp only
    | with_reducible apply State.runRead_ok
    | with_reducible refine State.runRead_okE (by assumption) ?_
    | split

theorem State.tplGet_okE {q : List Instr} {a0 : State} {a1} {a2} {b t} (e : State.tplGet a0 a1 a2 = (b, t)) (h0 : State.Ok q a0) : State.Ok q t := by
  have := State.tplGet_ok a0 a1 a2 h0
  rw [e] at this; exact this

theorem State.tplLoad_ok {q : List Instr} (a0 : State) (a1) (a2) (h0 : State.Ok q a0) : State.Ok q (State.tplLoad a0 a1 a2).2 := by
  unfold State.tplLoad
  extract_lets l
  have k := State.tplGet_ok a0 l a2 h0
  revert k
  generalize State.tplGet a0 l a2 = x
  obtain ⟨o, t⟩ := x
  intro k
  cases o with
  | none => exact k
  | some x => exact State.tplBackAll_ok _ _ _ (ok_mk k.1 k.m k.c k.r)

theorem State.tplLoad_okE {q : List Instr} {a0 : State} {a1} {a2} {b t} (e : State.tplLoad a0 a1 a2 = (b, t)) (h0 : State.Ok q a0) : State.Ok q t := by
  have := State.tplLoad_ok a0 a1 a2 h0
  rw [e] at this; exact this

theorem State.tplSet_ok {q : List Instr} (a0 : State) (a1) (a2) (h0 : State.Ok q a0) : State.Ok q (State.tplSet a0 a1 a2) := by
  unfold State.tplSet
  repeat' first
    | intro _
    | with_reducible assumption
    | with_reducible apply ok_ite
    | with_reducible apply ok_match_opt
    | dsimp only
    | split
    | (rw [ok_mk_iff]; refine ⟨?_, ?_, ?_, ?_⟩)
    | with_reducible refine State.Ok.pending ?_
    | with_reducible apply State.Ok.m
    | with_reducible apply State.Ok.c
    | with_reducible apply State.Ok.r

theorem State.chLeave_ok {q : List Instr} (a0 : State) (a1) (a2) (h0 : State.Ok q a0) : State.Ok q (State.chLeave a0 a1 a2) := by
  unfold State.chLeave
  repeat' first
    | intro _
    | with_reducible assumption
    | with_reducible apply ok_ite
    | with_reducible apply State.tplFlush_ok
    | with_reducible apply State.wr_ok
    | dsimp only
    | (rw [ok_mk_iff]; refine ⟨?_, ?_, ?_, ?_⟩)
    | with_reducible refine State.Ok.pending ?_
    | with_reducible apply State.Ok.m
    | with_reducible apply State.Ok.c
    | with_reducible apply State.Ok.r

theorem State.chFault_ok {q : List Instr} (a0 : State) (a1) (a2) (h0 : State.Ok q a0) : State.Ok q (State.chFault a0 a1 a2) := by
  unfold State.chFault
  repeat' first
    | intro _
    | with_reducible assumption
    | with_reducible apply ok_ite
    | with_reducible apply State.chLeave_ok
    | with_reducible apply State.wr_ok
    | with_reducible apply State.raise_ok
    | dsimp only

theorem State.chUncount_ok {q : List Instr} (a0 : State) (a1) (a2) (h0 : State.Ok q a0) : State.Ok q (State.chUncount a0 a1 a2) := by
  unfold State.chUncount
  repeat' first
    | intro _
    | with_reducible assumption
    | with_reducible apply ok_ite
    | with_reducible apply State.wr_ok
    | with_reducible apply State.tplLoad_ok
    | with_reducible refine State.tplLoad_okE (by assumption) ?_
    | with_reducible apply State.tplSet_ok
    | dsimp only
    | split
    | (rw [ok_mk_iff]; refine ⟨?_, ?_, ?_, ?_⟩)
    | with_reducible refine State.Ok.pending ?_
    | with_reducible apply State.Ok.m
    | with_reducible apply State.Ok.c
    | with_reducible apply State.Ok.r

theorem State.lineCut_ok {q : List Instr} (a0 : State) (a1) (h0 : State.Ok q a0) : State.Ok q (State.lineCut a0 a1) := by
  unfold State.lineCut
  repeat' first
    | intro _
    | with_reducible assumption
    | with_reducible apply ok_ite
    | with_reducible apply State.each_ok
    | with_reducible apply State.chUncount_ok
    | with_reducible apply State.wr_ok
    | with_reducible apply ok_match_opt
    | dsimp only
    | split
    | (rw [ok_mk_iff]; refine ⟨?_, ?_, ?_, ?_⟩)
    | with_reducible refine State.Ok.pending ?_
    | with_reducible apply State.Ok.m
    | with_reducible apply State.Ok.c
    | with_reducible apply State.Ok.r

theorem State.chCut_ok {q : List Instr} (a0 : State) (a1) (a2) (h0 : State.Ok q a0) : State.Ok q (State.chCut a0 a1 a2) := by
  unfold State.chCut
  repeat' first
    | intro _
    | with_reducible assumption
    | with_reducible apply ok_ite
    | with_reducible apply State.lineCut_ok
    | with_reducible apply State.chFault_ok
    | dsimp only
    | split

theorem State.chRebase_ok {q : List Instr} (a0 : State) (a1) (h0 : State.Ok q a0) : State.Ok q (State.chRebase a0 a1) := by
  unfold State.chRebase
  repeat' first
    | intro _
    | with_reducible assumption
    | with_reducible apply ok_ite
    | with_reducible apply State.wr_ok
    | dsimp only

theorem State.chStart_ok {q : List Instr} (a0 : State) (a1) (h0 : State.Ok q a0) : State.Ok q (State.chStart a0 a1) := by
  unfold State.chStart
  repeat' first
    | intro _
    | with_reducible assumption
    | with_reducible apply ok_ite
    | with_reducible apply State.wr_ok
    | with_reducible apply State.chRebase_ok
    | dsimp only
    | (rw [ok_mk_iff]; refine ⟨?_, ?_, ?_, ?_⟩)
    | with_reducible refine State.Ok.pending ?_
    | with_reducible apply State.Ok.m
    | with_reducible apply State.Ok.c
    | with_reducible apply State.Ok.r

theorem State.chGo_ok {q : List Instr} (a0 : State) (a1) (h0 : State.Ok q a0) : State.Ok q (State.chGo a0 a1) := by
  unfold State.chGo
  repeat' first
    | intro _
    | with_reducible assumption
    | with_reducible apply ok_ite
    | with_reducible apply State.wr_ok
    | with_reducible apply State.chRebase_ok
    | dsimp only

theorem State.runStartAct_ok {q : List Instr} (a0) (a1 : State) (h1 : State.Ok q a1) : State.Ok q (State.runStartAct a0 a1) := by
  unfold State.runStartAct
  repeat' first
    | intro _
    | with_reducible assumption
    | with_reducible apply ok_ite
    | with_reducible apply State.chGo_ok
    | with_reducible apply State.chStart_ok
    | with_reducible apply State.inc_ok
    | dsimp only
    | split

theorem State.runStopAct_ok {q : List Instr} (a0) (a1 : State) (h1 : State.Ok q a1) : State.Ok q (State.runStopAct a0 a1) := by
  unfold State.runStopAct
  repeat' first
    | intro _
    | with_reducible assumption
    | with_reducible apply ok_ite
    | with_reducible apply State.chLeave_ok
    | dsimp only
    | split

theorem State.runReject_ok {q : List Instr} (a0 : State) (a1) (h0 : State.Ok q a0) : State.Ok q (State.runReject a0 a1) := by
  unfold State.runReject
  repeat' first
    | intro _
    | with_reducible assumption
    | with_reducible apply ok_ite
    | with_reducible apply State.reject_ok
    | dsimp only

theorem State.runStart_ok {q : List Instr} (a0 : State) (a1) (h0 : State.Ok q a0) : State.Ok q (State.runStart a0 a1) := by
  unfold State.runStart
  repeat' first
    | intro _
    | with_reducible assumption
    | with_reducible apply ok_ite
    | with_reducible apply State.chStart_ok
    | with_reducible apply State.runReject_ok
    | dsimp only
    | split

theorem State.runStop_ok {q : List Instr} (a0 : State) (a1) (h0 : State.Ok q a0) : State.Ok q (State.runStop a0 a1) := by
  unfold State.runStop
  repeat' first
    | intro _
    | with_reducible assumption
    | with_reducible apply ok_ite
    | with_reducible apply State.chLeave_ok
    | with_reducible apply State.runReject_ok
    | dsimp only
    | split

theorem State.runGo_ok {q : List Instr} (a0 : State) (a1) (h0 : State.Ok q a0) : State.Ok q (State.runGo a0 a1) := by
  unfold State.runGo
  repeat' first
    | intro _
    | with_reducible assumption
    | with_reducible apply ok_ite
    | with_reducible apply State.chGo_ok
    | with_reducible apply State.runReject_ok
    | dsimp only
    | split

theorem State.runClear_ok {q : List Instr} (a0 : State) (a1) (h0 : State.Ok q a0) : State.Ok q (State.runClear a0 a1) := by
  unfold State.runClear
  repeat' first
    | intro _
    | with_reducible assumption
    | with_reducible apply ok_ite
    | with_reducible apply State.wr_ok
    | with_reducible apply State.runReject_ok
    | dsimp only
    | split

theorem execRunStart_ok {q : List Instr} (a0) (a1 : State) (h1 : State.Ok q a1) : OutOk q (execRunStart a0 a1) := by
  unfold execRunStart
  repeat' first
    | with_reducible apply out_next
    | with_reducible apply out_ite
    | intro _
    | with_reducible assumption
    | with_reducible apply ok_ite
    | with_reducible apply State.runStart_ok
    | dsimp only

theorem execRunStop_ok {q : List Instr} (a0) (a1 : State) (h1 : State.Ok q a1) : OutOk q (execRunStop a0 a1) := by
  unfold execRunStop
  repeat' first
    | with_reducible apply out_next
    | with_reducible apply out_ite
    | intro _
    | with_reducible assumption
    | with_reducible apply ok_ite
    | with_reducible apply State.runStop_ok
    | dsimp only

theorem execRunGo_ok {q : List Instr} (a0) (a1 : State) (h1 : State.Ok q a1) : OutOk q (execRunGo a0 a1) := by
  unfold execRunGo
  repeat' first
    | with_reducible apply out_next
    | with_reducible apply out_ite
    | intro _
    | with_reducible assumption
    | with_reducible apply ok_ite
    | with_reducible apply State.runGo_ok
    | dsimp only

theorem execRunClear_ok {q : List Instr} (a0) (a1 : State) (h1 : State.Ok q a1) : OutOk q (execRunClear a0 a1) := by
  unfold execRunClear
  repeat' first
    | with_reducible apply out_next
    | with_reducible apply out_ite
    | intro _
    | with_reducible assumption
    | with_reducible apply ok_ite
    | with_reducible apply State.runClear_ok
    | dsimp only

theorem State.runCmd_ok {q : List Instr} (a0 : State) (a1) (a2) (h0 : State.Ok q a0) : State.Ok q (State.runCmd a0 a1 a2) := by
  unfold State.runCmd
  repeat' first
    | intro _
    | with_reducible assumption
    | with_reducible apply ok_ite
    | with_reducible apply State.runStart_ok
    | with_reducible apply State.runStop_ok
    | with_reducible apply State.runGo_ok
    | with_reducible apply State.runClear_ok
    | with_reducible apply State.runReject_ok
    | dsimp only
    | split

theorem State.chNext_ok {q : List Instr} (a0 : State) (a1) (h0 : State.Ok q a0) : State.Ok q (State.chNext a0 a1) := by
  unfold State.chNext
  repeat' first
    | intro _
    | with_reducible assumption
    | with_reducible apply ok_ite
    | with_reducible apply State.chFault_ok
    | with_reducible apply State.wr_ok
    | dsimp only
    | split

theorem execInsnNop_ok {q : List Instr} (a0) (a1 : State) (h1 : State.Ok q a1) : OutOk q (execInsnNop a0 a1) := by
  unfold execInsnNop
  repeat' first
    | with_reducible apply out_next
    | with_reducible apply out_ite
    | intro _
    | with_reducible assumption
    | with_reducible apply ok_ite
    | with_reducible apply State.chNext_ok
    | dsimp only
    | split

theorem State.sendFrame_ok {q : List Instr} (a0 : State) (a1) (a2) (a3) (h0 : State.Ok q a0) :
    State.Ok q (State.sendFrame a0 a1 a2 a3) := by
  unfold State.sendFrame
  extract_lets t k len
  have k1 := State.runRead_ok a0 0 (a0.tplAddr t) 392 h0
  revert k1
  generalize State.runRead a0 0 (a0.tplAddr t) 392 = x
  obtain ⟨r, img, v⟩ := x
  intro k1
  split
  · rename_i e; cases e; exact k1
  · rename_i e
    cases e
    extract_lets ctl hl app crc l
    split
    · exact State.chFault_ok _ _ _ k1
    · have k2 := State.runRead_ok v 0 (v.tplAddr t + 448) 56 k1
      revert k2
      generalize State.runRead v 0 (v.tplAddr t + 448) 56 = x
      obtain ⟨r2, ds, w⟩ := x
      intro k2
      have k3 := State.tplLoad_ok w a1 t k2
      revert k3
      dsimp only
      generalize State.tplLoad w a1 t = x
      obtain ⟨o, y⟩ := x
      intro k3
      cases o with
      | none => exact k3
      | some z =>
        refine State.chNext_ok _ _ ?_
        have k4 : State.Ok q (if bit a2 24 then y else y.srcAdvance k len) := ok_ite k3 (State.srcAdvance_ok _ _ _ k3)
        exact ok_mk k4.1 k4.m k4.c k4.r

theorem execInsnSend_ok {q : List Instr} (a0) (a1 : State) (h1 : State.Ok q a1) : OutOk q (execInsnSend a0 a1) := by
  unfold execInsnSend
  repeat' first
    | with_reducible apply out_next
    | with_reducible apply out_ite
    | intro _
    | with_reducible assumption
    | with_reducible apply ok_ite
    | with_reducible refine State.srcRead_ok _ _ _ ?_ (by assumption)
    | with_reducible apply State.chFault_ok
    | with_reducible apply State.sendFrame_ok
    | dsimp only
    | split

theorem execInsnGap_ok {q : List Instr} (a0) (a1 : State) (h1 : State.Ok q a1) : OutOk q (execInsnGap a0 a1) := by
  unfold execInsnGap
  repeat' first
    | with_reducible apply out_next
    | with_reducible apply out_ite
    | intro _
    | with_reducible assumption
    | with_reducible apply ok_ite
    | with_reducible apply State.wr_ok
    | with_reducible apply State.chNext_ok
    | dsimp only
    | split

theorem execInsnWaitui_ok {q : List Instr} (a0) (a1 : State) (h1 : State.Ok q a1) : OutOk q (execInsnWaitui a0 a1) := by
  unfold execInsnWaitui
  repeat' first
    | with_reducible apply out_next
    | with_reducible apply out_ite
    | intro _
    | with_reducible assumption
    | with_reducible apply ok_ite
    | with_reducible apply State.add_ok
    | with_reducible apply State.chNext_ok
    | dsimp only
    | split

theorem State.setLoops_ok {q : List Instr} (a0 : State) (a1) (a2) (h0 : State.Ok q a0) : State.Ok q (State.setLoops a0 a1 a2) := by
  unfold State.setLoops
  repeat' first
    | intro _
    | with_reducible assumption
    | with_reducible apply ok_ite
    | dsimp only
    | (rw [ok_mk_iff]; refine ⟨?_, ?_, ?_, ?_⟩)
    | with_reducible refine State.Ok.pending ?_
    | with_reducible apply State.Ok.m
    | with_reducible apply State.Ok.c
    | with_reducible apply State.Ok.r

theorem execInsnLoop_ok {q : List Instr} (a0) (a1 : State) (h1 : State.Ok q a1) : OutOk q (execInsnLoop a0 a1) := by
  unfold execInsnLoop
  repeat' first
    | with_reducible apply out_next
    | with_reducible apply out_ite
    | intro _
    | with_reducible assumption
    | with_reducible apply ok_ite
    | with_reducible apply State.chFault_ok
    | with_reducible apply State.setLoops_ok
    | with_reducible apply State.chNext_ok
    | dsimp only
    | split

theorem execInsnEndl_ok {q : List Instr} (a0) (a1 : State) (h1 : State.Ok q a1) : OutOk q (execInsnEndl a0 a1) := by
  unfold execInsnEndl
  repeat' first
    | with_reducible apply out_next
    | with_reducible apply out_ite
    | intro _
    | with_reducible assumption
    | with_reducible apply ok_ite
    | with_reducible apply State.chFault_ok
    | with_reducible apply State.wr_ok
    | with_reducible apply State.setLoops_ok
    | with_reducible apply State.chNext_ok
    | dsimp only
    | split

theorem execInsnJmp_ok {q : List Instr} (a0) (a1 : State) (h1 : State.Ok q a1) : OutOk q (execInsnJmp a0 a1) := by
  unfold execInsnJmp
  repeat' first
    | with_reducible apply out_next
    | with_reducible apply out_ite
    | intro _
    | with_reducible assumption
    | with_reducible apply ok_ite
    | with_reducible apply State.wr_ok
    | dsimp only
    | split

theorem execInsnWaitg_ok {q : List Instr} (a0) (a1 : State) (h1 : State.Ok q a1) : OutOk q (execInsnWaitg a0 a1) := by
  unfold execInsnWaitg
  repeat' first
    | with_reducible apply out_next
    | with_reducible apply out_ite
    | intro _
    | with_reducible assumption
    | with_reducible apply ok_ite
    | with_reducible apply State.chNext_ok
    | with_reducible apply State.wr_ok
    | dsimp only
    | split

theorem execInsnWaitts_ok {q : List Instr} (a0) (a1 : State) (h1 : State.Ok q a1) : OutOk q (execInsnWaitts a0 a1) := by
  unfold execInsnWaitts
  repeat' first
    | with_reducible apply out_next
    | with_reducible apply out_ite
    | intro _
    | with_reducible assumption
    | with_reducible apply ok_ite
    | with_reducible apply State.wr_ok
    | dsimp only
    | split

theorem execWaittsReached_ok {q : List Instr} (a0) (a1 : State) (h1 : State.Ok q a1) : OutOk q (execWaittsReached a0 a1) := by
  unfold execWaittsReached
  repeat' first
    | with_reducible apply out_next
    | with_reducible apply out_ite
    | intro _
    | with_reducible assumption
    | with_reducible apply ok_ite
    | with_reducible apply State.wr_ok
    | with_reducible apply State.chRebase_ok
    | with_reducible apply State.chNext_ok
    | dsimp only
    | split

theorem execInsnSeek_ok {q : List Instr} (a0) (a1 : State) (h1 : State.Ok q a1) : OutOk q (execInsnSeek a0 a1) := by
  unfold execInsnSeek
  repeat' first
    | with_reducible apply out_next
    | with_reducible apply out_ite
    | intro _
    | with_reducible assumption
    | with_reducible apply ok_ite
    | with_reducible apply State.chFault_ok
    | with_reducible apply State.wr_ok
    | with_reducible apply State.chNext_ok
    | dsimp only
    | split

theorem execInsnSetf_ok {q : List Instr} (a0) (a1 : State) (h1 : State.Ok q a1) : OutOk q (execInsnSetf a0 a1) := by
  unfold execInsnSetf
  repeat' first
    | with_reducible apply out_next
    | with_reducible apply out_ite
    | intro _
    | with_reducible assumption
    | with_reducible apply ok_ite
    | with_reducible apply State.chFault_ok
    | with_reducible apply State.tplLoad_ok
    | with_reducible refine State.tplLoad_okE (by assumption) ?_
    | with_reducible apply State.tplSet_ok
    | with_reducible apply State.chNext_ok
    | dsimp only
    | split
    | (rw [ok_mk_iff]; refine ⟨?_, ?_, ?_, ?_⟩)
    | with_reducible refine State.Ok.pending ?_
    | with_reducible apply State.Ok.m
    | with_reducible apply State.Ok.c
    | with_reducible apply State.Ok.r

theorem execInsnSignal_ok {q : List Instr} (a0) (a1 : State) (h1 : State.Ok q a1) : OutOk q (execInsnSignal a0 a1) := by
  unfold execInsnSignal
  repeat' first
    | with_reducible apply out_next
    | with_reducible apply out_ite
    | intro _
    | with_reducible assumption
    | with_reducible apply ok_ite
    | with_reducible apply State.wr_ok
    | with_reducible apply State.raise_ok
    | with_reducible apply State.chNext_ok
    | dsimp only
    | split

theorem execInsnRaw_ok {q : List Instr} (a0) (a1 : State) (h1 : State.Ok q a1) : OutOk q (execInsnRaw a0 a1) := by
  unfold execInsnRaw
  repeat' first
    | with_reducible apply out_next
    | with_reducible apply out_ite
    | intro _
    | with_reducible assumption
    | with_reducible apply ok_ite
    | with_reducible refine State.srcRead_ok _ _ _ ?_ (by assumption)
    | with_reducible apply State.chFault_ok
    | with_reducible apply State.srcAdvance_ok
    | with_reducible apply State.chNext_ok
    | dsimp only
    | split
    | (rw [ok_mk_iff]; refine ⟨?_, ?_, ?_, ?_⟩)
    | with_reducible refine State.Ok.pending ?_
    | with_reducible apply State.Ok.m
    | with_reducible apply State.Ok.c
    | with_reducible apply State.Ok.r

theorem execInsnHalt_ok {q : List Instr} (a0) (a1 : State) (h1 : State.Ok q a1) : OutOk q (execInsnHalt a0 a1) := by
  unfold execInsnHalt
  repeat' first
    | with_reducible apply out_next
    | with_reducible apply out_ite
    | intro _
    | with_reducible assumption
    | with_reducible apply ok_ite
    | with_reducible apply State.chLeave_ok
    | with_reducible apply State.raise_ok
    | dsimp only
    | split

theorem execInsnIllegal_ok {q : List Instr} (a0) (a1 : State) (h1 : State.Ok q a1) : OutOk q (execInsnIllegal a0 a1) := by
  unfold execInsnIllegal
  repeat' first
    | with_reducible apply out_next
    | with_reducible apply out_ite
    | intro _
    | with_reducible assumption
    | with_reducible apply ok_ite
    | with_reducible apply State.chFault_ok
    | dsimp only
    | split

theorem State.lineAdd_ok {q : List Instr} (a0 : State) (a1) (a2) (a3) (a4) (h0 : State.Ok q a0) : State.Ok q (State.lineAdd a0 a1 a2 a3 a4) := by
  unfold State.lineAdd
  repeat' first
    | intro _
    | with_reducible assumption
    | with_reducible apply ok_ite
    | with_reducible apply ok_match_opt
    | dsimp only
    | (rw [ok_mk_iff]; refine ⟨?_, ?_, ?_, ?_⟩)
    | with_reducible refine State.Ok.pending ?_
    | with_reducible apply State.Ok.m
    | with_reducible apply State.Ok.c
    | with_reducible apply State.Ok.r

theorem State.rewriteBus_ok {q : List Instr} (a0 : State) (a1) (a2) (h0 : State.Ok q a0) : State.Ok q (State.rewriteBus a0 a1 a2) := by
  unfold State.rewriteBus
  repeat' first
    | intro _
    | with_reducible assumption
    | with_reducible apply ok_ite
    | with_reducible apply ok_match_opt
    | dsimp only
    | split
    | (rw [ok_mk_iff]; refine ⟨?_, ?_, ?_, ?_⟩)
    | with_reducible refine State.Ok.pending ?_
    | with_reducible apply State.Ok.m
    | with_reducible apply State.Ok.c
    | with_reducible apply State.Ok.r

theorem State.framePlace_ok {q : List Instr} (a0 : State) (a1) (a2) (a3) (h0 : State.Ok q a0) : State.Ok q (State.framePlace a0 a1 a2 a3) := by
  unfold State.framePlace
  repeat' first
    | intro _
    | with_reducible assumption
    | with_reducible apply ok_ite
    | with_reducible apply State.wr_ok
    | with_reducible apply State.inc_ok
    | with_reducible apply State.raise_ok
    | with_reducible apply State.raw_ok
    | with_reducible apply State.lineAdd_ok
    | with_reducible apply State.tplSet_ok
    | with_reducible apply State.add_ok
    | with_reducible apply ok_match_opt
    | dsimp only
    | split
    | (rw [ok_mk_iff]; refine ⟨?_, ?_, ?_, ?_⟩)
    | with_reducible refine State.Ok.pending ?_
    | with_reducible apply State.Ok.m
    | with_reducible apply State.Ok.c
    | with_reducible apply State.Ok.r

theorem execFrameStart_ok {q : List Instr} (a0) (a1) (a2 : State) (h2 : State.Ok q a2) : OutOk q (execFrameStart a0 a1 a2) := by
  unfold execFrameStart
  repeat' first
    | with_reducible apply out_next
    | with_reducible apply out_ite
    | intro _
    | with_reducible assumption
    | with_reducible apply ok_ite
    | with_reducible apply State.rewriteBus_ok
    | with_reducible apply State.framePlace_ok
    | with_reducible apply ok_match_opt
    | dsimp only
    | split

theorem State.runReset_ok {q : List Instr} (a0 : State) (h0 : State.Ok q a0) : State.Ok q (State.runReset a0) := by
  unfold State.runReset
  repeat' first
    | intro _
    | with_reducible assumption
    | with_reducible apply ok_ite
    | with_reducible apply State.each_ok
    | with_reducible apply State.tplFlush_ok
    | with_reducible apply State.discardBlocks_ok
    | dsimp only
    | (rw [ok_mk_iff]; refine ⟨?_, ?_, ?_, ?_⟩)
    | with_reducible refine State.Ok.pending ?_
    | with_reducible apply State.Ok.m
    | with_reducible apply State.Ok.c
    | with_reducible apply State.Ok.r
    | with_reducible apply Tab.wf_set
    | with_reducible apply Tab.wf_put
    | with_reducible apply Tab.wf_delRange
    | with_reducible apply Tab.wf_del
    | with_reducible apply Tab.wf_filter

end Sys2Proof.Machine
end

