-- ==== Sys2Proof/Laws/OkLantern.lean ====
section
/-! SUPPORT. What the operations of Machine/Lantern.lean keep: the canonical form of the state and its queue. -/

namespace Sys2Proof.Machine

theorem State.tmrStart_ok {q : List Instr} (a0) (a1 : State) (h1 : State.Ok q a1) : State.Ok q (State.tmrStart a0 a1) := by
  unfold State.tmrStart
  repeat' first
    | intro _
    | with_reducible assumption
    | with_reducible apply ok_ite
    | with_reducible apply State.wr_ok
    | dsimp only

theorem State.tmrStop_ok {q : List Instr} (a0) (a1 : State) (h1 : State.Ok q a1) : State.Ok q (State.tmrStop a0 a1) := by
  unfold State.tmrStop
  repeat' first
    | intro _
    | with_reducible assumption
    | with_reducible apply ok_ite
    | with_reducible apply State.wr_ok
    | dsimp only

theorem State.tmrTick_ok {q : List Instr} (a0) (a1 : State) (h1 : State.Ok q a1) : State.Ok q (State.tmrTick a0 a1) := by
  unfold State.tmrTick
  repeat' first
    | intro _
    | with_reducible assumption
    | with_reducible apply ok_ite
    | with_reducible apply State.wr_ok
    | dsimp only
    | split

theorem State.pinTick_ok {q : List Instr} (a0) (a1 : State) (h1 : State.Ok q a1) : State.Ok q (State.pinTick a0 a1) := by
  unfold State.pinTick
  repeat' first
    | intro _
    | with_reducible assumption
    | with_reducible apply ok_ite
    | with_reducible apply State.wr_ok
    | dsimp only
    | split

theorem State.pinAct_ok {q : List Instr} (a0) (a1) (a2 : State) (h2 : State.Ok q a2) : State.Ok q (State.pinAct a0 a1 a2) := by
  unfold State.pinAct
  repeat' first
    | intro _
    | with_reducible assumption
    | with_reducible apply ok_ite
    | with_reducible apply State.wr_ok
    | with_reducible apply State.touPulse_ok
    | dsimp only
    | split

theorem State.ctrReset_ok {q : List Instr} (a0) (a1) (a2 : State) (h2 : State.Ok q a2) : State.Ok q (State.ctrReset a0 a1 a2) := by
  unfold State.ctrReset
  repeat' first
    | intro _
    | with_reducible assumption
    | with_reducible apply ok_ite
    | with_reducible apply State.wr_ok
    | dsimp only

theorem State.rlkPulse_ok {q : List Instr} (a0) (a1) (a2 : State) (h2 : State.Ok q a2) : State.Ok q (State.rlkPulse a0 a1 a2) := by
  unfold State.rlkPulse
  repeat' first
    | intro _
    | with_reducible assumption
    | with_reducible apply ok_ite
    | with_reducible apply State.inc_ok
    | with_reducible apply State.raiseB_ok
    | with_reducible apply State.add_ok
    | dsimp only
    | split

theorem State.lanCtx_ok {q : List Instr} (a0 : State) (a1) (a2) (h0 : State.Ok q a0) : State.Ok q (State.lanCtx a0 a1 a2) := by
  unfold State.lanCtx
  repeat' first
    | intro _
    | with_reducible assumption
    | with_reducible apply ok_ite
    | with_reducible refine State.ctxRequest_ok _ _ _ ?_ (by assumption)
    | with_reducible apply State.inc_ok
    | with_reducible apply State.raise_ok
    | with_reducible apply ok_match_opt
    | dsimp only

theorem State.arcActs_ok {q : List Instr} (a0 : State) (a1) (a2) (a3) (h0 : State.Ok q a0) : State.Ok q (State.arcActs a0 a1 a2 a3) := by
  unfold State.arcActs
  repeat' first
    | intro _
    | with_reducible assumption
    | with_reducible apply ok_ite
    | with_reducible apply State.each_ok
    | with_reducible apply State.pinAct_ok
    | with_reducible apply State.ctrReset_ok
    | with_reducible apply State.tmrStop_ok
    | with_reducible apply State.tmrStart_ok
    | with_reducible apply State.hopTrig_ok
    | with_reducible apply State.runStartAct_ok
    | with_reducible apply State.runStopAct_ok
    | with_reducible apply State.lanCtx_ok
    | with_reducible apply State.rlkPulse_ok
    | with_reducible apply State.wr_ok
    | with_reducible apply State.raise_ok
    | dsimp only
    | split

theorem State.lanRun_ok {q : List Instr} (a0 : State) (a1) (h0 : State.Ok q a0) : State.Ok q (State.lanRun a0 a1).1 := by
  unfold State.lanRun
  repeat' first
    | intro _
    | with_reducible assumption
    | with_reducible apply ok_ite
    | dsimp only
    | with_reducible apply State.each_ok
    | with_reducible apply State.tmrTick_ok
    | with_reducible apply State.inc_ok
    | with_reducible apply State.arcActs_ok
    | with_reducible apply State.wr_ok
    | split

theorem State.lanRun_okE {q : List Instr} {a0 : State} {a1} {t b} (e : State.lanRun a0 a1 = (t, b)) (h0 : State.Ok q a0) : State.Ok q t := by
  have := State.lanRun_ok a0 a1 h0
  rw [e] at this; exact this

theorem execLanternCycle_ok {q : List Instr} (a0) (a1 : State) (h1 : State.Ok q a1) : OutOk q (execLanternCycle a0 a1) := by
  unfold execLanternCycle
  repeat' first
    | with_reducible apply out_next
    | with_reducible apply out_ite
    | intro _
    | with_reducible assumption
    | with_reducible apply ok_ite
    | with_reducible apply State.each_ok
    | with_reducible apply State.pinTick_ok
    | with_reducible apply State.wr_ok
    | with_reducible apply State.lanRun_ok
    | with_reducible refine State.lanRun_okE (by assumption) ?_
    | dsimp only
    | split

theorem execLanTimerExpire_ok {q : List Instr} (a0) (a1 : State) (h1 : State.Ok q a1) : OutOk q (execLanTimerExpire a0 a1) := by
  unfold execLanTimerExpire
  repeat' first
    | with_reducible apply out_next
    | with_reducible apply out_ite
    | intro _
    | with_reducible assumption
    | with_reducible apply ok_ite
    | with_reducible apply State.wr_ok
    | dsimp only
    | split

theorem execTrigOutPulseEnd_ok {q : List Instr} (a0) (a1 : State) (h1 : State.Ok q a1) : OutOk q (execTrigOutPulseEnd a0 a1) := by
  unfold execTrigOutPulseEnd
  repeat' first
    | with_reducible apply out_next
    | with_reducible apply out_ite
    | intro _
    | with_reducible assumption
    | with_reducible apply ok_ite
    | with_reducible apply State.wr_ok
    | dsimp only
    | split

theorem State.lanReject_ok {q : List Instr} (a0 : State) (a1) (h0 : State.Ok q a0) : State.Ok q (State.lanReject a0 a1) := by
  unfold State.lanReject
  repeat' first
    | intro _
    | with_reducible assumption
    | with_reducible apply ok_ite
    | with_reducible apply State.reject_ok
    | dsimp only

theorem State.lanClear_ok {q : List Instr} (a0 : State) (h0 : State.Ok q a0) : State.Ok q (State.lanClear a0) := by
  unfold State.lanClear
  repeat' first
    | intro _
    | with_reducible assumption
    | with_reducible apply ok_ite
    | with_reducible apply State.each_ok
    | with_reducible apply State.wr_ok
    | with_reducible apply State.tmrStop_ok
    | dsimp only

theorem State.lanStart_ok {q : List Instr} (a0 : State) (h0 : State.Ok q a0) : State.Ok q (State.lanStart a0) := by
  unfold State.lanStart
  repeat' first
    | intro _
    | with_reducible assumption
    | with_reducible apply ok_ite
    | with_reducible apply State.lanReject_ok
    | with_reducible apply State.lanClear_ok
    | with_reducible apply State.wr_ok
    | dsimp only
    | split

theorem State.lanStop_ok {q : List Instr} (a0 : State) (h0 : State.Ok q a0) : State.Ok q (State.lanStop a0) := by
  unfold State.lanStop
  repeat' first
    | intro _
    | with_reducible assumption
    | with_reducible apply ok_ite
    | with_reducible apply State.wr_ok
    | with_reducible apply State.lanReject_ok
    | dsimp only
    | split

theorem State.lanForce_ok {q : List Instr} (a0 : State) (a1) (h0 : State.Ok q a0) : State.Ok q (State.lanForce a0 a1) := by
  unfold State.lanForce
  repeat' first
    | intro _
    | with_reducible assumption
    | with_reducible apply ok_ite
    | with_reducible apply State.wr_ok
    | with_reducible apply State.lanReject_ok
    | dsimp only
    | split

theorem State.lanClrOut_ok {q : List Instr} (a0 : State) (h0 : State.Ok q a0) : State.Ok q (State.lanClrOut a0) := by
  unfold State.lanClrOut
  repeat' first
    | intro _
    | with_reducible assumption
    | with_reducible apply ok_ite
    | with_reducible apply State.lanReject_ok
    | with_reducible apply State.each_ok
    | with_reducible apply State.wr_ok
    | dsimp only
    | split

theorem State.lanClrCnt_ok {q : List Instr} (a0 : State) (h0 : State.Ok q a0) : State.Ok q (State.lanClrCnt a0) := by
  unfold State.lanClrCnt
  repeat' first
    | intro _
    | with_reducible assumption
    | with_reducible apply ok_ite
    | with_reducible apply State.lanReject_ok
    | with_reducible apply State.lanClear_ok
    | with_reducible apply State.wr_ok
    | dsimp only
    | split

theorem State.lanCmd_ok {q : List Instr} (a0 : State) (a1) (a2) (h0 : State.Ok q a0) : State.Ok q (State.lanCmd a0 a1 a2) := by
  unfold State.lanCmd
  repeat' first
    | intro _
    | with_reducible assumption
    | with_reducible apply ok_ite
    | with_reducible apply State.lanStart_ok
    | with_reducible apply State.lanStop_ok
    | with_reducible apply State.lanForce_ok
    | with_reducible apply State.lanClrOut_ok
    | with_reducible apply State.lanClrCnt_ok
    | with_reducible apply State.lanReject_ok
    | dsimp only
    | split

theorem execLanStart_ok {q : List Instr} (a0 : State) (h0 : State.Ok q a0) : OutOk q (execLanStart a0) := by
  unfold execLanStart
  repeat' first
    | with_reducible apply out_next
    | with_reducible apply out_ite
    | intro _
    | with_reducible assumption
    | with_reducible apply ok_ite
    | with_reducible apply State.lanStart_ok
    | dsimp only

theorem execLanStop_ok {q : List Instr} (a0 : State) (h0 : State.Ok q a0) : OutOk q (execLanStop a0) := by
  unfold execLanStop
  repeat' first
    | with_reducible apply out_next
    | with_reducible apply out_ite
    | intro _
    | with_reducible assumption
    | with_reducible apply ok_ite
    | with_reducible apply State.lanStop_ok
    | dsimp only

theorem execLanForce_ok {q : List Instr} (a0) (a1 : State) (h1 : State.Ok q a1) : OutOk q (execLanForce a0 a1) := by
  unfold execLanForce
  repeat' first
    | with_reducible apply out_next
    | with_reducible apply out_ite
    | intro _
    | with_reducible assumption
    | with_reducible apply ok_ite
    | with_reducible apply State.lanForce_ok
    | dsimp only

theorem execLanClrOut_ok {q : List Instr} (a0 : State) (h0 : State.Ok q a0) : OutOk q (execLanClrOut a0) := by
  unfold execLanClrOut
  repeat' first
    | with_reducible apply out_next
    | with_reducible apply out_ite
    | intro _
    | with_reducible assumption
    | with_reducible apply ok_ite
    | with_reducible apply State.lanClrOut_ok
    | dsimp only

theorem execLanClrCnt_ok {q : List Instr} (a0 : State) (h0 : State.Ok q a0) : OutOk q (execLanClrCnt a0) := by
  unfold execLanClrCnt
  repeat' first
    | with_reducible apply out_next
    | with_reducible apply out_ite
    | intro _
    | with_reducible assumption
    | with_reducible apply ok_ite
    | with_reducible apply State.lanClrCnt_ok
    | dsimp only

theorem State.lanReset_ok {q : List Instr} (a0 : State) (h0 : State.Ok q a0) : State.Ok q (State.lanReset a0) := by
  unfold State.lanReset
  repeat' first
    | intro _
    | with_reducible assumption
    | with_reducible apply ok_ite
    | with_reducible apply State.keeping_ok
    | with_reducible apply State.resetBlocks_ok
    | dsimp only

end Sys2Proof.Machine
end

