-- ==== Sys2Proof/Laws/OkProbe.lean ====
section
/-! SUPPORT. What the operations of Machine/Probe.lean keep: the canonical form of the state and its queue. -/

namespace Sys2Proof.Machine

theorem State.prbEvent_ok {q : List Instr} (a0 : State) (a1) (a2) (h0 : State.Ok q a0) : State.Ok q (State.prbEvent a0 a1 a2) := by
  unfold State.prbEvent
  repeat' first
    | intro _
    | with_reducible assumption
    | with_reducible apply ok_ite
    | with_reducible apply State.raiseB_ok
    | dsimp only

theorem State.prbReject_ok {q : List Instr} (a0 : State) (a1) (a2) (h0 : State.Ok q a0) : State.Ok q (State.prbReject a0 a1 a2) := by
  unfold State.prbReject
  repeat' first
    | intro _
    | with_reducible assumption
    | with_reducible apply ok_ite
    | with_reducible apply State.reject_ok
    | dsimp only

theorem State.laneUnlock_ok {q : List Instr} (a0) (a1) (a2 : State) (h2 : State.Ok q a2) : State.Ok q (State.laneUnlock a0 a1 a2) := by
  unfold State.laneUnlock
  repeat' first
    | intro _
    | with_reducible assumption
    | with_reducible apply ok_ite
    | with_reducible apply State.wr_ok
    | dsimp only
    | (rw [ok_mk_iff]; refine ⟨?_, ?_, ?_, ?_⟩)
    | with_reducible refine State.Ok.pending ?_
    | with_reducible apply State.Ok.m
    | with_reducible apply State.Ok.c
    | with_reducible apply State.Ok.r

theorem State.prbUnlock_ok {q : List Instr} (a0 : State) (a1) (h0 : State.Ok q a0) : State.Ok q (State.prbUnlock a0 a1) := by
  unfold State.prbUnlock
  repeat' first
    | intro _
    | with_reducible assumption
    | with_reducible apply ok_ite
    | with_reducible apply State.each_ok
    | with_reducible apply State.laneUnlock_ok
    | with_reducible apply State.wr_ok
    | dsimp only

theorem State.prbTerm_ok {q : List Instr} (a0 : State) (a1) (h0 : State.Ok q a0) : State.Ok q (State.prbTerm a0 a1) := by
  unfold State.prbTerm
  repeat' first
    | intro _
    | with_reducible assumption
    | with_reducible apply ok_ite
    | with_reducible apply State.wr_ok
    | dsimp only

theorem State.lineDrop_ok {q : List Instr} (a0 : State) (a1) (h0 : State.Ok q a0) : State.Ok q (State.lineDrop a0 a1) := by
  unfold State.lineDrop
  repeat' first
    | intro _
    | with_reducible assumption
    | with_reducible apply ok_ite
    | with_reducible apply ok_match_opt
    | dsimp only
    | (rw [ok_mk_iff]; refine ⟨?_, ?_, ?_, ?_⟩)
    | with_reducible refine State.Ok.pending ?_
    | with_reducible apply State.Ok.m
    | with_reducible apply State.Ok.c
    | with_reducible apply State.Ok.r

theorem State.txSrcApply_ok {q : List Instr} (a0 : State) (a1) (h0 : State.Ok q a0) : State.Ok q (State.txSrcApply a0 a1) := by
  unfold State.txSrcApply
  repeat' first
    | intro _
    | with_reducible assumption
    | with_reducible apply ok_ite
    | with_reducible apply State.chCut_ok
    | with_reducible apply State.lineDrop_ok
    | with_reducible apply State.wr_ok
    | dsimp only
    | split

theorem State.txOrigin_ok {q : List Instr} (a0 : State) (a1) (a2) (h0 : State.Ok q a0) : State.Ok q (State.txOrigin a0 a1 a2) := by
  unfold State.txOrigin
  repeat' first
    | intro _
    | with_reducible assumption
    | with_reducible apply ok_ite
    | with_reducible apply State.lineDrop_ok
    | with_reducible apply State.wr_ok
    | dsimp only

theorem State.txStart_ok {q : List Instr} (a0 : State) (a1) (h0 : State.Ok q a0) : State.Ok q (State.txStart a0 a1) := by
  unfold State.txStart
  repeat' first
    | intro _
    | with_reducible assumption
    | with_reducible apply ok_ite
    | with_reducible apply State.txOrigin_ok
    | with_reducible apply State.wr_ok
    | dsimp only
    | split

theorem State.txStop_ok {q : List Instr} (a0 : State) (a1) (h0 : State.Ok q a0) : State.Ok q (State.txStop a0 a1) := by
  unfold State.txStop
  repeat' first
    | intro _
    | with_reducible assumption
    | with_reducible apply ok_ite
    | with_reducible apply State.txSrcApply_ok
    | with_reducible apply State.txOrigin_ok
    | with_reducible apply State.wr_ok
    | dsimp only

theorem State.prbDown_ok {q : List Instr} (a0 : State) (a1) (h0 : State.Ok q a0) : State.Ok q (State.prbDown a0 a1) := by
  unfold State.prbDown
  repeat' first
    | intro _
    | with_reducible assumption
    | with_reducible apply ok_ite
    | with_reducible apply State.hopPortDown_ok
    | with_reducible apply State.chCut_ok
    | dsimp only
    | split

theorem State.prbGo_ok {q : List Instr} (a0 : State) (a1) (a2) (h0 : State.Ok q a0) : State.Ok q (State.prbGo a0 a1 a2) := by
  unfold State.prbGo
  repeat' first
    | intro _
    | with_reducible assumption
    | with_reducible apply ok_ite
    | with_reducible apply State.prbDown_ok
    | with_reducible apply State.wr_ok
    | dsimp only

theorem State.prbFault_ok {q : List Instr} (a0 : State) (a1) (a2) (h0 : State.Ok q a0) : State.Ok q (State.prbFault a0 a1 a2) := by
  unfold State.prbFault
  repeat' first
    | intro _
    | with_reducible assumption
    | with_reducible apply ok_ite
    | with_reducible apply State.prbGo_ok
    | with_reducible apply State.wr_ok
    | dsimp only

theorem State.prbAcquire_ok {q : List Instr} (a0 : State) (a1) (h0 : State.Ok q a0) : State.Ok q (State.prbAcquire a0 a1) := by
  unfold State.prbAcquire
  repeat' first
    | intro _
    | with_reducible assumption
    | with_reducible apply ok_ite
    | with_reducible apply State.prbGo_ok
    | with_reducible apply State.prbUnlock_ok
    | with_reducible apply State.prbTerm_ok
    | dsimp only

theorem State.prbOff_ok {q : List Instr} (a0 : State) (a1) (h0 : State.Ok q a0) : State.Ok q (State.prbOff a0 a1) := by
  unfold State.prbOff
  repeat' first
    | intro _
    | with_reducible assumption
    | with_reducible apply ok_ite
    | with_reducible apply State.prbGo_ok
    | with_reducible apply State.prbUnlock_ok
    | with_reducible apply State.txStop_ok
    | with_reducible apply State.wr_ok
    | with_reducible apply State.each_ok
    | dsimp only

theorem State.prbCtrlWrite_ok {q : List Instr} (a0 : State) (a1) (a2) (h0 : State.Ok q a0) : State.Ok q (State.prbCtrlWrite a0 a1 a2) := by
  unfold State.prbCtrlWrite
  repeat' first
    | intro _
    | with_reducible assumption
    | with_reducible apply ok_ite
    | with_reducible apply State.writeReg_ok
    | with_reducible apply State.prbOff_ok
    | with_reducible apply State.each_ok
    | with_reducible apply State.wr_ok
    | with_reducible apply State.prbGo_ok
    | with_reducible apply State.deny_ok
    | with_reducible apply State.txStart_ok
    | with_reducible apply State.txStop_ok
    | with_reducible apply State.txSrcApply_ok
    | dsimp only
    | split

theorem execPrbEnable_ok {q : List Instr} (a0) (a1) (a2 : State) (h2 : State.Ok q a2) : OutOk q (execPrbEnable a0 a1 a2) := by
  unfold execPrbEnable
  repeat' first
    | with_reducible apply out_next
    | with_reducible apply out_ite
    | intro _
    | with_reducible assumption
    | with_reducible apply ok_ite
    | with_reducible apply State.prbCtrlWrite_ok
    | dsimp only

theorem execPrbDisable_ok {q : List Instr} (a0) (a1) (a2 : State) (h2 : State.Ok q a2) : OutOk q (execPrbDisable a0 a1 a2) := by
  unfold execPrbDisable
  repeat' first
    | with_reducible apply out_next
    | with_reducible apply out_ite
    | intro _
    | with_reducible assumption
    | with_reducible apply ok_ite
    | with_reducible apply State.prbCtrlWrite_ok
    | dsimp only

theorem State.prbBindWrite_ok {q : List Instr} (a0 : State) (a1) (a2) (h0 : State.Ok q a0) : State.Ok q (State.prbBindWrite a0 a1 a2) := by
  unfold State.prbBindWrite
  repeat' first
    | intro _
    | with_reducible assumption
    | with_reducible apply ok_ite
    | with_reducible apply State.wr_ok
    | with_reducible apply State.deny_ok
    | dsimp only
    | split
    | (rw [ok_mk_iff]; refine ⟨?_, ?_, ?_, ?_⟩)
    | with_reducible refine State.Ok.pending ?_
    | with_reducible apply State.Ok.m
    | with_reducible apply State.Ok.c
    | with_reducible apply State.Ok.r

theorem execPrbBindWrite_ok {q : List Instr} (a0) (a1) (a2 : State) (h2 : State.Ok q a2) : OutOk q (execPrbBindWrite a0 a1 a2) := by
  unfold execPrbBindWrite
  repeat' first
    | with_reducible apply out_next
    | with_reducible apply out_ite
    | intro _
    | with_reducible assumption
    | with_reducible apply ok_ite
    | with_reducible apply State.prbBindWrite_ok
    | dsimp only

theorem execTxSrcChange_ok {q : List Instr} (a0) (a1 : State) (h1 : State.Ok q a1) : OutOk q (execTxSrcChange a0 a1) := by
  unfold execTxSrcChange
  repeat' first
    | with_reducible apply out_next
    | with_reducible apply out_ite
    | intro _
    | with_reducible assumption
    | with_reducible apply ok_ite
    | with_reducible apply State.txSrcApply_ok
    | dsimp only
    | split

theorem execPrbPllLocked_ok {q : List Instr} (a0) (a1 : State) (h1 : State.Ok q a1) : OutOk q (execPrbPllLocked a0 a1) := by
  unfold execPrbPllLocked
  repeat' first
    | with_reducible apply out_next
    | with_reducible apply out_ite
    | intro _
    | with_reducible assumption
    | with_reducible apply ok_ite
    | with_reducible apply State.wr_ok
    | with_reducible apply State.prbAcquire_ok
    | with_reducible apply State.txStart_ok
    | dsimp only
    | split

theorem execPrbPllTimeout_ok {q : List Instr} (a0) (a1 : State) (h1 : State.Ok q a1) : OutOk q (execPrbPllTimeout a0 a1) := by
  unfold execPrbPllTimeout
  repeat' first
    | with_reducible apply out_next
    | with_reducible apply out_ite
    | intro _
    | with_reducible assumption
    | with_reducible apply ok_ite
    | with_reducible apply State.prbFault_ok
    | dsimp only
    | split

theorem execFclkAcquired_ok {q : List Instr} (a0) (a1 : State) (h1 : State.Ok q a1) : OutOk q (execFclkAcquired a0 a1) := by
  unfold execFclkAcquired
  repeat' first
    | with_reducible apply out_next
    | with_reducible apply out_ite
    | intro _
    | with_reducible assumption
    | with_reducible apply ok_ite
    | with_reducible apply State.wr_ok
    | with_reducible apply State.prbGo_ok
    | dsimp only
    | split

theorem execFclkTimeout_ok {q : List Instr} (a0) (a1 : State) (h1 : State.Ok q a1) : OutOk q (execFclkTimeout a0 a1) := by
  unfold execFclkTimeout
  repeat' first
    | with_reducible apply out_next
    | with_reducible apply out_ite
    | intro _
    | with_reducible assumption
    | with_reducible apply ok_ite
    | with_reducible apply State.prbFault_ok
    | dsimp only
    | split

theorem execEqAdaptDone_ok {q : List Instr} (a0) (a1 : State) (h1 : State.Ok q a1) : OutOk q (execEqAdaptDone a0 a1) := by
  unfold execEqAdaptDone
  repeat' first
    | with_reducible apply out_next
    | with_reducible apply out_ite
    | intro _
    | with_reducible assumption
    | with_reducible apply ok_ite
    | with_reducible apply State.prbGo_ok
    | dsimp only
    | split

theorem execBlockLockTimeout_ok {q : List Instr} (a0) (a1 : State) (h1 : State.Ok q a1) : OutOk q (execBlockLockTimeout a0 a1) := by
  unfold execBlockLockTimeout
  repeat' first
    | with_reducible apply out_next
    | with_reducible apply out_ite
    | intro _
    | with_reducible assumption
    | with_reducible apply ok_ite
    | with_reducible apply State.prbFault_ok
    | dsimp only
    | split

theorem execMarkerLockTimeout_ok {q : List Instr} (a0) (a1 : State) (h1 : State.Ok q a1) : OutOk q (execMarkerLockTimeout a0 a1) := by
  unfold execMarkerLockTimeout
  repeat' first
    | with_reducible apply out_next
    | with_reducible apply out_ite
    | intro _
    | with_reducible assumption
    | with_reducible apply ok_ite
    | with_reducible apply State.prbFault_ok
    | dsimp only
    | split

theorem State.laneHandover_ok {q : List Instr} (a0) (a1) (a2 : State) (h2 : State.Ok q a2) : State.Ok q (State.laneHandover a0 a1 a2) := by
  unfold State.laneHandover
  repeat' first
    | intro _
    | with_reducible assumption
    | with_reducible apply ok_ite
    | with_reducible apply State.add_ok
    | with_reducible apply State.wr_ok
    | with_reducible apply State.calDone_ok
    | dsimp only
    | split

theorem State.laneSlot_ok {q : List Instr} (a0 : State) (a1) (a2) (a3) (h0 : State.Ok q a0) : State.Ok q (State.laneSlot a0 a1 a2 a3) := by
  unfold State.laneSlot
  repeat' first
    | intro _
    | with_reducible assumption
    | with_reducible apply ok_ite
    | with_reducible apply ok_match_opt
    | dsimp only
    | split
    | (rw [ok_mk_iff]; refine ⟨?_, ?_, ?_, ?_⟩)
    | with_reducible refine State.Ok.pending ?_
    | with_reducible apply State.Ok.m
    | with_reducible apply State.Ok.c
    | with_reducible apply State.Ok.r

theorem State.laneHeader_ok {q : List Instr} (a0 : State) (a1) (a2) (a3) (h0 : State.Ok q a0) : State.Ok q (State.laneHeader a0 a1 a2 a3) := by
  unfold State.laneHeader
  repeat' first
    | intro _
    | with_reducible assumption
    | with_reducible apply ok_ite
    | with_reducible apply State.wr_ok
    | with_reducible apply State.wrIf_ok
    | dsimp only

theorem State.laneIdleRun_ok {q : List Instr} (a0 : State) (a1) (a2) (a3) (a4) (h0 : State.Ok q a0) : State.Ok q (State.laneIdleRun a0 a1 a2 a3 a4) := by
  unfold State.laneIdleRun
  repeat' first
    | intro _
    | with_reducible assumption
    | with_reducible apply ok_ite
    | with_reducible apply State.wr_ok
    | dsimp only
    | split

theorem State.markerMissing_ok {q : List Instr} (a0 : State) (a1) (a2) (h0 : State.Ok q a0) : State.Ok q (State.markerMissing a0 a1 a2) := by
  unfold State.markerMissing
  repeat' first
    | intro _
    | with_reducible assumption
    | with_reducible apply ok_ite
    | with_reducible apply State.wr_ok
    | with_reducible apply State.wrIf_ok
    | dsimp only

theorem State.laneBlock_ok {q : List Instr} (a0 : State) (a1) (a2) (a3) (a4) (h0 : State.Ok q a0) : State.Ok q (State.laneBlock a0 a1 a2 a3 a4) := by
  unfold State.laneBlock
  repeat' first
    | intro _
    | with_reducible assumption
    | with_reducible apply ok_ite
    | with_reducible apply State.laneHeader_ok
    | with_reducible apply State.laneIdleRun_ok
    | with_reducible apply State.markerMissing_ok
    | with_reducible apply State.laneSlot_ok
    | with_reducible apply State.wr_ok
    | dsimp only
    | split

theorem State.laneHunt_ok {q : List Instr} (a0 : State) (a1) (a2) (a3) (a4) (h0 : State.Ok q a0) : State.Ok q (State.laneHunt a0 a1 a2 a3 a4) := by
  unfold State.laneHunt
  repeat' first
    | intro _
    | with_reducible assumption
    | with_reducible apply ok_ite
    | with_reducible apply State.wr_ok
    | with_reducible apply State.wrIf_ok
    | with_reducible apply State.prbGo_ok
    | dsimp only
    | split

theorem State.lossDeclare_ok {q : List Instr} (a0 : State) (a1) (a2) (a3) (h0 : State.Ok q a0) : State.Ok q (State.lossDeclare a0 a1 a2 a3) := by
  unfold State.lossDeclare
  repeat' first
    | intro _
    | with_reducible assumption
    | with_reducible apply ok_ite
    | with_reducible apply State.wr_ok
    | with_reducible apply State.prbEvent_ok
    | with_reducible apply State.prbAcquire_ok
    | with_reducible apply State.prbFault_ok
    | dsimp only
    | split

theorem State.lossSettle_ok {q : List Instr} (a0 : State) (a1) (h0 : State.Ok q a0) : State.Ok q (State.lossSettle a0 a1) := by
  unfold State.lossSettle
  repeat' first
    | intro _
    | with_reducible assumption
    | with_reducible apply ok_ite
    | with_reducible apply State.lossDeclare_ok
    | dsimp only
    | split

theorem State.blockIn_ok {q : List Instr} (a0 : State) (a1) (a2) (a3) (a4) (h0 : State.Ok q a0) : State.Ok q (State.blockIn a0 a1 a2 a3 a4) := by
  unfold State.blockIn
  repeat' first
    | intro _
    | with_reducible assumption
    | with_reducible apply ok_ite
    | with_reducible apply State.lossSettle_ok
    | with_reducible apply State.wr_ok
    | with_reducible apply State.laneBlock_ok
    | with_reducible apply State.laneHunt_ok
    | dsimp only
    | split

theorem State.farBlock_ok {q : List Instr} (a0 : State) (a1) (a2) (a3) (a4) (h0 : State.Ok q a0) : State.Ok q (State.farBlock a0 a1 a2 a3 a4) := by
  unfold State.farBlock
  repeat' first
    | intro _
    | with_reducible assumption
    | with_reducible apply ok_ite
    | with_reducible apply State.emit_ok
    | dsimp only
    | split

theorem State.rlkBlockIn_ok {q : List Instr} (a0 : State) (a1) (a2) (a3) (h0 : State.Ok q a0) : State.Ok q (State.rlkBlockIn a0 a1 a2 a3) := by
  unfold State.rlkBlockIn
  repeat' first
    | intro _
    | with_reducible assumption
    | with_reducible apply ok_ite
    | with_reducible apply State.inc_ok
    | with_reducible apply State.wr_ok
    | dsimp only
    | split

theorem execBlockReceived_ok {q : List Instr} (a0) (a1) (a2) (a3) (a4 : State) (h4 : State.Ok q a4) : OutOk q (execBlockReceived a0 a1 a2 a3 a4) := by
  unfold execBlockReceived
  repeat' first
    | with_reducible apply out_next
    | with_reducible apply out_ite
    | intro _
    | with_reducible assumption
    | with_reducible apply ok_ite
    | with_reducible apply State.rlkBlockIn_ok
    | with_reducible apply State.farBlock_ok
    | with_reducible apply State.blockIn_ok
    | dsimp only
    | split

theorem State.markerLock_ok {q : List Instr} (a0 : State) (a1) (h0 : State.Ok q a0) : State.Ok q (State.markerLock a0 a1) := by
  unfold State.markerLock
  repeat' first
    | intro _
    | with_reducible assumption
    | with_reducible apply ok_ite
    | with_reducible apply State.prbFault_ok
    | with_reducible apply State.each_ok
    | with_reducible apply State.wr_ok
    | with_reducible apply State.setB_ok
    | with_reducible apply State.prbGo_ok
    | with_reducible apply ok_foldl
    | with_reducible apply ok_foldl2
    | with_reducible apply ok_foldl3
    | dsimp only
    | split
    | (rw [ok_mk_iff]; refine ⟨?_, ?_, ?_, ?_⟩)
    | with_reducible refine State.Ok.pending ?_
    | with_reducible apply State.Ok.m
    | with_reducible apply State.Ok.c
    | with_reducible apply State.Ok.r

theorem State.markerHunt_ok {q : List Instr} (a0 : State) (a1) (a2) (a3) (a4) (h0 : State.Ok q a0) : State.Ok q (State.markerHunt a0 a1 a2 a3 a4) := by
  unfold State.markerHunt
  repeat' first
    | intro _
    | with_reducible assumption
    | with_reducible apply ok_ite
    | with_reducible apply State.wr_ok
    | with_reducible apply State.wrIf_ok
    | with_reducible apply State.prbFault_ok
    | with_reducible apply State.markerLock_ok
    | dsimp only
    | split

theorem State.deskew_ok {q : List Instr} (a0 : State) (a1) (h0 : State.Ok q a0) : State.Ok q (State.deskew a0 a1) := by
  unfold State.deskew
  repeat' first
    | intro _
    | with_reducible assumption
    | with_reducible apply ok_ite
    | with_reducible apply State.prbFault_ok
    | with_reducible apply State.prbEvent_ok
    | with_reducible apply State.each_ok
    | with_reducible apply State.wr_ok
    | with_reducible apply State.prbGo_ok
    | with_reducible apply ok_foldl
    | with_reducible apply ok_foldl2
    | with_reducible apply ok_foldl3
    | dsimp only
    | split

theorem State.markerDeskew_ok {q : List Instr} (a0 : State) (a1) (a2) (a3) (a4) (h0 : State.Ok q a0) : State.Ok q (State.markerDeskew a0 a1 a2 a3 a4) := by
  unfold State.markerDeskew
  repeat' first
    | intro _
    | with_reducible assumption
    | with_reducible apply ok_ite
    | with_reducible apply State.wr_ok
    | with_reducible apply State.deskew_ok
    | dsimp only
    | split
    | (rw [ok_mk_iff]; refine ⟨?_, ?_, ?_, ?_⟩)
    | with_reducible refine State.Ok.pending ?_
    | with_reducible apply State.Ok.m
    | with_reducible apply State.Ok.c
    | with_reducible apply State.Ok.r

theorem State.markerUp_ok {q : List Instr} (a0 : State) (a1) (a2) (a3) (a4) (a5) (h0 : State.Ok q a0) : State.Ok q (State.markerUp a0 a1 a2 a3 a4 a5) := by
  unfold State.markerUp
  repeat' first
    | intro _
    | with_reducible assumption
    | with_reducible apply ok_ite
    | with_reducible apply State.wr_ok
    | with_reducible apply State.inc_ok
    | with_reducible apply State.wrIf_ok
    | with_reducible apply State.laneHandover_ok
    | with_reducible apply State.laneSlot_ok
    | dsimp only
    | split

theorem State.markerIn_ok {q : List Instr} (a0 : State) (a1) (a2) (a3) (a4) (a5) (h0 : State.Ok q a0) : State.Ok q (State.markerIn a0 a1 a2 a3 a4 a5) := by
  unfold State.markerIn
  repeat' first
    | intro _
    | with_reducible assumption
    | with_reducible apply ok_ite
    | with_reducible apply State.lossSettle_ok
    | with_reducible apply State.blockIn_ok
    | with_reducible apply State.laneHeader_ok
    | with_reducible apply State.markerUp_ok
    | with_reducible apply State.markerHunt_ok
    | with_reducible apply State.markerDeskew_ok
    | dsimp only
    | split

theorem State.rlkMarkerIn_ok {q : List Instr} (a0 : State) (a1) (a2) (a3) (a4) (h0 : State.Ok q a0) : State.Ok q (State.rlkMarkerIn a0 a1 a2 a3 a4) := by
  unfold State.rlkMarkerIn
  repeat' first
    | intro _
    | with_reducible assumption
    | with_reducible apply ok_ite
    | with_reducible apply State.rlkBlockIn_ok
    | with_reducible apply State.wr_ok
    | with_reducible apply State.inc_ok
    | dsimp only
    | split

theorem execMarkerReceived_ok {q : List Instr} (a0) (a1) (a2) (a3) (a4) (a5 : State) (h5 : State.Ok q a5) : OutOk q (execMarkerReceived a0 a1 a2 a3 a4 a5) := by
  unfold execMarkerReceived
  repeat' first
    | with_reducible apply out_next
    | with_reducible apply out_ite
    | intro _
    | with_reducible assumption
    | with_reducible apply ok_ite
    | with_reducible apply State.rlkMarkerIn_ok
    | with_reducible apply State.farBlock_ok
    | with_reducible apply State.markerIn_ok
    | dsimp only
    | split

theorem State.deliverRow_ok {q : List Instr} (a0 : State) (a1) (a2) (h0 : State.Ok q a0) : State.Ok q (State.deliverRow a0 a1 a2) := by
  unfold State.deliverRow
  repeat' first
    | intro _
    | with_reducible assumption
    | with_reducible apply ok_ite
    | with_reducible apply State.inc_ok
    | with_reducible apply State.prbEvent_ok
    | with_reducible apply ok_match_opt
    | dsimp only
    | split
    | (rw [ok_mk_iff]; refine ⟨?_, ?_, ?_, ?_⟩)
    | with_reducible refine State.Ok.pending ?_
    | with_reducible apply State.Ok.m
    | with_reducible apply State.Ok.c
    | with_reducible apply State.Ok.r

theorem execRowRelease_ok {q : List Instr} (a0) (a1 : State) (h1 : State.Ok q a1) : OutOk q (execRowRelease a0 a1) := by
  unfold execRowRelease
  repeat' first
    | with_reducible apply out_next
    | with_reducible apply out_ite
    | intro _
    | with_reducible assumption
    | with_reducible apply ok_ite
    | with_reducible apply State.each_ok
    | with_reducible apply State.add_ok
    | with_reducible apply State.wr_ok
    | with_reducible apply State.deliverRow_ok
    | with_reducible apply State.hopDeliver_ok
    | with_reducible apply ok_match_opt
    | dsimp only
    | split
    | (rw [ok_mk_iff]; refine ⟨?_, ?_, ?_, ?_⟩)
    | with_reducible refine State.Ok.pending ?_
    | with_reducible apply State.Ok.m
    | with_reducible apply State.Ok.c
    | with_reducible apply State.Ok.r

theorem execIslandRowRead_ok {q : List Instr} (a0) (a1 : State) (h1 : State.Ok q a1) : OutOk q (execIslandRowRead a0 a1) := by
  unfold execIslandRowRead
  repeat' first
    | with_reducible apply out_next
    | with_reducible apply out_ite
    | intro _
    | with_reducible assumption
    | with_reducible apply ok_ite
    | with_reducible apply State.answer_ok
    | with_reducible apply ok_match_opt
    | dsimp only
    | split
    | (rw [ok_mk_iff]; refine ⟨?_, ?_, ?_, ?_⟩)
    | with_reducible refine State.Ok.pending ?_
    | with_reducible apply State.Ok.m
    | with_reducible apply State.Ok.c
    | with_reducible apply State.Ok.r

theorem execPortLoss_ok {q : List Instr} (a0) (a1) (a2 : State) (h2 : State.Ok q a2) : OutOk q (execPortLoss a0 a1 a2) := by
  unfold execPortLoss
  repeat' first
    | with_reducible apply out_next
    | with_reducible apply out_ite
    | intro _
    | with_reducible assumption
    | with_reducible apply ok_ite
    | with_reducible apply State.lossSettle_ok
    | with_reducible apply State.lossDeclare_ok
    | dsimp only
    | split

theorem State.prbRetrain_ok {q : List Instr} (a0 : State) (a1) (h0 : State.Ok q a0) : State.Ok q (State.prbRetrain a0 a1) := by
  unfold State.prbRetrain
  repeat' first
    | intro _
    | with_reducible assumption
    | with_reducible apply ok_ite
    | with_reducible apply State.prbReject_ok
    | with_reducible apply State.prbEvent_ok
    | with_reducible apply State.prbGo_ok
    | with_reducible apply State.prbUnlock_ok
    | with_reducible apply State.prbAcquire_ok
    | dsimp only
    | split

theorem State.fmeasStart_ok {q : List Instr} (a0 : State) (a1) (h0 : State.Ok q a0) : State.Ok q (State.fmeasStart a0 a1) := by
  unfold State.fmeasStart
  repeat' first
    | intro _
    | with_reducible assumption
    | with_reducible apply ok_ite
    | with_reducible apply State.prbReject_ok
    | with_reducible apply State.wr_ok
    | dsimp only
    | split

theorem State.fmeasStop_ok {q : List Instr} (a0 : State) (a1) (h0 : State.Ok q a0) : State.Ok q (State.fmeasStop a0 a1) := by
  unfold State.fmeasStop
  repeat' first
    | intro _
    | with_reducible assumption
    | with_reducible apply ok_ite
    | with_reducible apply State.wr_ok
    | with_reducible apply State.prbReject_ok
    | dsimp only
    | split

theorem State.prbCalNow_ok {q : List Instr} (a0 : State) (a1) (h0 : State.Ok q a0) : State.Ok q (State.prbCalNow a0 a1) := by
  unfold State.prbCalNow
  repeat' first
    | intro _
    | with_reducible assumption
    | with_reducible apply ok_ite
    | with_reducible apply State.each_ok
    | with_reducible apply State.laneHandover_ok
    | with_reducible apply State.prbReject_ok
    | dsimp only
    | split

theorem State.prbClrCnt_ok {q : List Instr} (a0 : State) (a1) (h0 : State.Ok q a0) : State.Ok q (State.prbClrCnt a0 a1) := by
  unfold State.prbClrCnt
  repeat' first
    | intro _
    | with_reducible assumption
    | with_reducible apply ok_ite
    | with_reducible apply State.each_ok
    | with_reducible apply State.wr_ok
    | dsimp only

theorem State.prbCmd_ok {q : List Instr} (a0 : State) (a1) (a2) (h0 : State.Ok q a0) : State.Ok q (State.prbCmd a0 a1 a2) := by
  unfold State.prbCmd
  repeat' first
    | intro _
    | with_reducible assumption
    | with_reducible apply ok_ite
    | with_reducible apply State.prbRetrain_ok
    | with_reducible apply State.fmeasStart_ok
    | with_reducible apply State.fmeasStop_ok
    | with_reducible apply State.prbCalNow_ok
    | with_reducible apply State.prbClrCnt_ok
    | with_reducible apply State.prbReject_ok
    | dsimp only
    | split

theorem execPrbRetrain_ok {q : List Instr} (a0) (a1 : State) (h1 : State.Ok q a1) : OutOk q (execPrbRetrain a0 a1) := by
  unfold execPrbRetrain
  repeat' first
    | with_reducible apply out_next
    | with_reducible apply out_ite
    | intro _
    | with_reducible assumption
    | with_reducible apply ok_ite
    | with_reducible apply State.prbRetrain_ok
    | dsimp only

theorem execFmeasStart_ok {q : List Instr} (a0) (a1 : State) (h1 : State.Ok q a1) : OutOk q (execFmeasStart a0 a1) := by
  unfold execFmeasStart
  repeat' first
    | with_reducible apply out_next
    | with_reducible apply out_ite
    | intro _
    | with_reducible assumption
    | with_reducible apply ok_ite
    | with_reducible apply State.fmeasStart_ok
    | dsimp only

theorem execFmeasStop_ok {q : List Instr} (a0) (a1 : State) (h1 : State.Ok q a1) : OutOk q (execFmeasStop a0 a1) := by
  unfold execFmeasStop
  repeat' first
    | with_reducible apply out_next
    | with_reducible apply out_ite
    | intro _
    | with_reducible assumption
    | with_reducible apply ok_ite
    | with_reducible apply State.fmeasStop_ok
    | dsimp only

theorem execCalNow_ok {q : List Instr} (a0) (a1 : State) (h1 : State.Ok q a1) : OutOk q (execCalNow a0 a1) := by
  unfold execCalNow
  repeat' first
    | with_reducible apply out_next
    | with_reducible apply out_ite
    | intro _
    | with_reducible assumption
    | with_reducible apply ok_ite
    | with_reducible apply State.prbCalNow_ok
    | dsimp only

theorem execPrbClrCnt_ok {q : List Instr} (a0) (a1 : State) (h1 : State.Ok q a1) : OutOk q (execPrbClrCnt a0 a1) := by
  unfold execPrbClrCnt
  repeat' first
    | with_reducible apply out_next
    | with_reducible apply out_ite
    | intro _
    | with_reducible assumption
    | with_reducible apply ok_ite
    | with_reducible apply State.prbClrCnt_ok
    | dsimp only

theorem execFmeasGateEnd_ok {q : List Instr} (a0) (a1) (a2 : State) (h2 : State.Ok q a2) : OutOk q (execFmeasGateEnd a0 a1 a2) := by
  unfold execFmeasGateEnd
  repeat' first
    | with_reducible apply out_next
    | with_reducible apply out_ite
    | intro _
    | with_reducible assumption
    | with_reducible apply ok_ite
    | with_reducible apply State.wr_ok
    | with_reducible apply State.prbEvent_ok
    | dsimp only
    | split

theorem State.laneInterval_ok {q : List Instr} (a0 : State) (a1) (a2) (a3) (h0 : State.Ok q a0) : State.Ok q (State.laneInterval a0 a1 a2 a3) := by
  unfold State.laneInterval
  repeat' first
    | intro _
    | with_reducible assumption
    | with_reducible apply ok_ite
    | with_reducible apply State.wr_ok
    | with_reducible apply State.calFails_ok
    | with_reducible apply State.prbEvent_ok
    | dsimp only
    | split

theorem execLaneCalInterval_ok {q : List Instr} (a0) (a1) (a2 : State) (h2 : State.Ok q a2) : OutOk q (execLaneCalInterval a0 a1 a2) := by
  unfold execLaneCalInterval
  repeat' first
    | with_reducible apply out_next
    | with_reducible apply out_ite
    | intro _
    | with_reducible assumption
    | with_reducible apply ok_ite
    | with_reducible apply State.laneInterval_ok
    | dsimp only

theorem execCalHandover_ok {q : List Instr} (a0) (a1) (a2 : State) (h2 : State.Ok q a2) : OutOk q (execCalHandover a0 a1 a2) := by
  unfold execCalHandover
  repeat' first
    | with_reducible apply out_next
    | with_reducible apply out_ite
    | intro _
    | with_reducible assumption
    | with_reducible apply ok_ite
    | with_reducible apply State.laneHandover_ok
    | dsimp only
    | split

theorem execLaneRailFault_ok {q : List Instr} (a0 : State) (h0 : State.Ok q a0) : OutOk q (execLaneRailFault a0) := by
  unfold execLaneRailFault
  repeat' first
    | with_reducible apply out_next
    | with_reducible apply out_ite
    | intro _
    | with_reducible assumption
    | with_reducible apply ok_ite
    | with_reducible apply State.each_ok
    | with_reducible apply State.wr_ok
    | dsimp only

theorem execPinShort_ok {q : List Instr} (a0) (a1) (a2 : State) (h2 : State.Ok q a2) : OutOk q (execPinShort a0 a1 a2) := by
  unfold execPinShort
  repeat' first
    | with_reducible apply out_next
    | with_reducible apply out_ite
    | intro _
    | with_reducible assumption
    | with_reducible apply ok_ite
    | with_reducible apply State.wr_ok
    | with_reducible apply State.prbEvent_ok
    | dsimp only
    | split

theorem execPortConfigUpset_ok {q : List Instr} (a0) (a1 : State) (h1 : State.Ok q a1) : OutOk q (execPortConfigUpset a0 a1) := by
  unfold execPortConfigUpset
  repeat' first
    | with_reducible apply out_next
    | with_reducible apply out_ite
    | intro _
    | with_reducible assumption
    | with_reducible apply ok_ite
    | with_reducible apply State.prbGo_ok
    | with_reducible apply State.wr_ok
    | with_reducible apply State.wrFree_ok
    | dsimp only
    | split

theorem State.prbReset_ok {q : List Instr} (a0 : State) (a1) (h0 : State.Ok q a0) : State.Ok q (State.prbReset a0 a1) := by
  unfold State.prbReset
  repeat' first
    | intro _
    | with_reducible assumption
    | with_reducible apply ok_ite
    | with_reducible apply State.prbOff_ok
    | with_reducible apply State.keeping_ok
    | with_reducible apply State.resetBlocks_ok
    | with_reducible apply State.each_ok
    | with_reducible apply State.wr_ok
    | dsimp only
    | (rw [ok_mk_iff]; refine ⟨?_, ?_, ?_, ?_⟩)
    | with_reducible refine State.Ok.pending ?_
    | with_reducible apply State.Ok.m
    | with_reducible apply State.Ok.c
    | with_reducible apply State.Ok.r

end Sys2Proof.Machine
end

