-- ==== Sys2Proof/Laws/OkMarigold.lean ====
section
/-! SUPPORT. What the operations of Machine/Marigold.lean keep: the canonical form of the state and its queue. -/

namespace Sys2Proof.Machine

theorem State.marEvent_ok {q : List Instr} (a0 : State) (a1) (h0 : State.Ok q a0) : State.Ok q (State.marEvent a0 a1) := by
  unfold State.marEvent
  repeat' first
    | intro _
    | with_reducible assumption
    | with_reducible apply ok_ite
    | with_reducible apply State.raiseB_ok
    | dsimp only

theorem State.marReject_ok {q : List Instr} (a0 : State) (a1) (h0 : State.Ok q a0) : State.Ok q (State.marReject a0 a1) := by
  unfold State.marReject
  repeat' first
    | intro _
    | with_reducible assumption
    | with_reducible apply ok_ite
    | with_reducible apply State.rejMark_ok
    | with_reducible apply State.marEvent_ok
    | dsimp only

theorem State.marWrite_ok {q : List Instr} (a0 : State) (a1) (a2) (h0 : State.Ok q a0) : State.Ok q (State.marWrite a0 a1 a2) := by
  unfold State.marWrite
  repeat' first
    | intro _
    | with_reducible assumption
    | with_reducible apply ok_ite
    | with_reducible apply State.each_ok
    | with_reducible apply State.putWord_ok
    | dsimp only

theorem State.marRead_ok {q : List Instr} (a0 : State) (a1) (a2) (h0 : State.Ok q a0) : State.Ok q (State.marRead a0 a1 a2).2.2 := by
  unfold State.marRead
  repeat' first
    | intro _
    | with_reducible assumption
    | with_reducible apply ok_ite
    | dsimp only
    | with_reducible apply State.readWord_ok
    | with_reducible refine State.readWord_okE (by assumption) ?_
    | with_reducible apply ok_foldl
    | with_reducible apply ok_foldl2
    | with_reducible apply ok_foldl3
    | split

theorem State.marRead_okE {q : List Instr} {a0 : State} {a1} {a2} {b c t} (e : State.marRead a0 a1 a2 = (b, c, t)) (h0 : State.Ok q a0) : State.Ok q t := by
  have := State.marRead_ok a0 a1 a2 h0
  rw [e] at this; exact this

theorem State.marWipe_ok {q : List Instr} (a0 : State) (h0 : State.Ok q a0) : State.Ok q (State.marWipe a0) := by
  unfold State.marWipe
  repeat' first
    | intro _
    | with_reducible assumption
    | with_reducible apply ok_ite
    | with_reducible apply State.fresh_ok
    | with_reducible refine State.fresh_okE (by assumption) ?_
    | dsimp only
    | split
    | (rw [ok_mk_iff]; refine ⟨?_, ?_, ?_, ?_⟩)
    | with_reducible refine State.Ok.pending ?_
    | with_reducible apply State.Ok.m
    | with_reducible apply State.Ok.c
    | with_reducible apply State.Ok.r
    | with_reducible apply Memory.wf_delRange
    | with_reducible apply Memory.wf_set
    | with_reducible apply Memory.wf_filter

theorem State.leafTouch_ok {q : List Instr} (a0 : State) (a1) (h0 : State.Ok q a0) : State.Ok q (State.leafTouch a0 a1) := by
  unfold State.leafTouch
  repeat' first
    | intro _
    | with_reducible assumption
    | with_reducible apply ok_ite
    | with_reducible apply State.each_ok
    | with_reducible apply State.wr_ok
    | dsimp only
    | split

theorem State.leafZero_ok {q : List Instr} (a0 : State) (a1) (h0 : State.Ok q a0) : State.Ok q (State.leafZero a0 a1) := by
  unfold State.leafZero
  repeat' first
    | intro _
    | with_reducible assumption
    | with_reducible apply ok_ite
    | with_reducible apply State.each_ok
    | with_reducible apply State.wr_ok
    | dsimp only

theorem State.rlogWrite_ok {q : List Instr} (a0 : State) (a1) (a2) (h0 : State.Ok q a0) : State.Ok q (State.rlogWrite a0 a1 a2) := by
  unfold State.rlogWrite
  repeat' first
    | intro _
    | with_reducible assumption
    | with_reducible apply ok_ite
    | with_reducible apply State.inc_ok
    | with_reducible apply State.marEvent_ok
    | with_reducible apply State.marWrite_ok
    | with_reducible apply State.add_ok
    | dsimp only
    | split

theorem State.retire_ok {q : List Instr} (a0 : State) (a1) (a2) (h0 : State.Ok q a0) : State.Ok q (State.retire a0 a1 a2) := by
  unfold State.retire
  repeat' first
    | intro _
    | with_reducible assumption
    | with_reducible apply ok_ite
    | with_reducible apply State.leafTouch_ok
    | with_reducible apply State.each_ok
    | with_reducible apply State.add_ok
    | with_reducible apply State.rlogWrite_ok
    | with_reducible apply State.marWrite_ok
    | with_reducible apply State.leafZero_ok
    | with_reducible apply State.wr_ok
    | dsimp only
    | split

theorem State.setKeys_ok {q : List Instr} (a0 : State) (a1) (a2) (h0 : State.Ok q a0) : State.Ok q (State.setKeys a0 a1 a2) := by
  unfold State.setKeys
  repeat' first
    | intro _
    | with_reducible assumption
    | with_reducible apply ok_ite
    | with_reducible apply State.wr_ok
    | dsimp only
    | (rw [ok_mk_iff]; refine ⟨?_, ?_, ?_, ?_⟩)
    | with_reducible refine State.Ok.pending ?_
    | with_reducible apply State.Ok.m
    | with_reducible apply State.Ok.c
    | with_reducible apply State.Ok.r

theorem execKeyPresent_ok {q : List Instr} (a0) (a1) (a2) (a3) (a4) (a5) (a6) (a7) (a8) (a9 : State) (h9 : State.Ok q a9) : OutOk q (execKeyPresent a0 a1 a2 a3 a4 a5 a6 a7 a8 a9) := by
  unfold execKeyPresent
  repeat' first
    | with_reducible apply out_next
    | with_reducible apply out_ite
    | intro _
    | with_reducible assumption
    | with_reducible apply ok_ite
    | with_reducible apply State.keyResult_ok
    | with_reducible apply State.inc_ok
    | with_reducible apply State.marEvent_ok
    | with_reducible apply State.add_ok
    | with_reducible apply State.setKeys_ok
    | with_reducible apply ok_match_opt
    | dsimp only
    | split
    | (rw [ok_mk_iff]; refine ⟨?_, ?_, ?_, ?_⟩)
    | with_reducible refine State.Ok.pending ?_
    | with_reducible apply State.Ok.m
    | with_reducible apply State.Ok.c
    | with_reducible apply State.Ok.r

theorem State.cacheUse_ok {q : List Instr} (a0 : State) (a1) (a2) (h0 : State.Ok q a0) : State.Ok q (State.cacheUse a0 a1 a2) := by
  unfold State.cacheUse
  repeat' first
    | intro _
    | with_reducible assumption
    | with_reducible apply ok_ite
    | with_reducible apply State.wr_ok
    | with_reducible apply State.each_ok
    | with_reducible apply ok_foldl
    | with_reducible apply ok_foldl2
    | with_reducible apply ok_foldl3
    | dsimp only
    | split

theorem State.matchSlots_ok {q : List Instr} (a0 : State) (a1) (a2) (h0 : State.Ok q a0) : State.Ok q (State.matchSlots a0 a1 a2).2 := by
  induction a2 generalizing a0 with
  | nil => exact h0
  | cons f r ih =>
    unfold State.matchSlots
    have k := State.marRead_ok a0 (ctxAddr f) 16 h0
    revert k
    generalize State.marRead a0 (ctxAddr f) 16 = x
    obtain ⟨bs, bad, t⟩ := x
    intro k
    split
    rename_i e
    cases e
    split
    · exact ih _ (State.retire_ok _ _ _ k)
    · split
      · exact k
      · exact ih _ k

theorem State.bucketRead_ok {q : List Instr} (a0 : State) (a1) (h0 : State.Ok q a0) : State.Ok q (State.bucketRead a0 a1).2 := by
  unfold State.bucketRead
  repeat' first
    | intro _
    | with_reducible assumption
    | with_reducible apply ok_ite
    | dsimp only
    | with_reducible apply State.marRead_ok
    | with_reducible refine State.marRead_okE (by assumption) ?_
    | with_reducible apply State.wr_ok
    | split

theorem State.bucketRead_okE {q : List Instr} {a0 : State} {a1} {b t} (e : State.bucketRead a0 a1 = (b, t)) (h0 : State.Ok q a0) : State.Ok q t := by
  have := State.bucketRead_ok a0 a1 h0
  rw [e] at this; exact this

theorem State.searchBucket_ok {q : List Instr} (a0 : State) (a1) (a2) (a3) (h0 : State.Ok q a0) : State.Ok q (State.searchBucket a0 a1 a2 a3).2 := by
  unfold State.searchBucket
  repeat' first
    | intro _
    | with_reducible assumption
    | with_reducible apply ok_ite
    | dsimp only
    | with_reducible apply State.matchSlots_ok
    | split

theorem State.searchBucket_okE {q : List Instr} {a0 : State} {a1} {a2} {a3} {b t} (e : State.searchBucket a0 a1 a2 a3 = (b, t)) (h0 : State.Ok q a0) : State.Ok q t := by
  have := State.searchBucket_ok a0 a1 a2 a3 h0
  rw [e] at this; exact this

theorem State.lookup_ok {q : List Instr} (a0 : State) (a1) (a2) (a3) (h0 : State.Ok q a0) : State.Ok q (State.lookup a0 a1 a2 a3).2 := by
  unfold State.lookup
  repeat' first
    | intro _
    | with_reducible assumption
    | with_reducible apply ok_ite
    | dsimp only
    | with_reducible apply State.inc_ok
    | with_reducible apply State.bucketRead_ok
    | with_reducible refine State.bucketRead_okE (by assumption) ?_
    | with_reducible apply State.searchBucket_ok
    | with_reducible refine State.searchBucket_okE (by assumption) ?_
    | split

theorem State.lookup_okE {q : List Instr} {a0 : State} {a1} {a2} {a3} {b t} (e : State.lookup a0 a1 a2 a3 = (b, t)) (h0 : State.Ok q a0) : State.Ok q t := by
  have := State.lookup_ok a0 a1 a2 a3 h0
  rw [e] at this; exact this

theorem State.createFlow_ok {q : List Instr} (a0 : State) (a1) (a2) (a3) (h0 : State.Ok q a0) : State.Ok q (State.createFlow a0 a1 a2 a3) := by
  unfold State.createFlow
  repeat' first
    | intro _
    | with_reducible assumption
    | with_reducible apply ok_ite
    | with_reducible apply State.marWrite_ok
    | with_reducible apply State.leafTouch_ok
    | with_reducible apply State.leafZero_ok
    | with_reducible apply State.wr_ok
    | with_reducible apply State.add_ok
    | dsimp only
    | split

theorem State.flowFor_ok {q : List Instr} (a0 : State) (a1) (a2) {t} (h0 : State.Ok q a0) (e : State.flowFor a0 a1 a2 = some t) : State.Ok q t.2 := by
  unfold State.flowFor at e
  dsimp only at e
  split at e
  · split at e
    · exact ok_none2 e
    · exact ok_some2 (State.createFlow_ok _ _ _ _ h0) e
  · split at e
    · exact ok_none2 e
    · split at e
      · exact ok_some2 (State.createFlow_ok _ _ _ _ (State.retire_ok _ _ _ h0)) e
      · exact ok_none2 e

theorem State.count_ok {q : List Instr} (a0 : State) (a1) (a2) (a3) (h0 : State.Ok q a0) : State.Ok q (State.count a0 a1 a2 a3) := by
  unfold State.count
  repeat' first
    | intro _
    | with_reducible assumption
    | with_reducible apply ok_ite
    | with_reducible apply State.add_ok
    | dsimp only

theorem State.trackSeq_ok {q : List Instr} (a0 : State) (a1) (a2) (h0 : State.Ok q a0) : State.Ok q (State.trackSeq a0 a1 a2) := by
  unfold State.trackSeq
  repeat' first
    | intro _
    | with_reducible assumption
    | with_reducible apply ok_ite
    | with_reducible apply State.wr_ok
    | with_reducible apply State.count_ok
    | with_reducible apply State.inc_ok
    | dsimp only
    | split

theorem State.applyEntry_ok {q : List Instr} (a0 : State) (a1) (a2) (a3) (h0 : State.Ok q a0) : State.Ok q (State.applyEntry a0 a1 a2 a3) := by
  unfold State.applyEntry
  repeat' first
    | intro _
    | with_reducible assumption
    | with_reducible apply ok_ite
    | with_reducible apply State.leafTouch_ok
    | with_reducible apply State.count_ok
    | with_reducible apply State.each_ok
    | with_reducible apply State.add_ok
    | with_reducible apply State.trackSeq_ok
    | with_reducible apply State.inc_ok
    | with_reducible apply State.wr_ok
    | with_reducible apply State.cacheUse_ok
    | dsimp only
    | split

theorem execEntryApply_ok {q : List Instr} (a0) (a1) (a2 : State) (h2 : State.Ok q a2) : OutOk q (execEntryApply a0 a1 a2) := by
  unfold execEntryApply
  extract_lets kq
  refine out_next ?_
  split
  · exact h2
  · rename_i e _
    refine ok_ite h2 ?_
    extract_lets told
    have hr : ∀ (t : State) l, State.Ok q t → State.Ok q (t.setKeys a0 l) := fun t l k => State.setKeys_ok _ _ _ k
    have ht : ∀ t v, State.Ok q t → State.Ok q (told t v) := fun t v k => ok_ite (State.keyResult_ok _ _ _ _ k) k
    have k := State.lookup_ok a2 a0 e.key e.sought h2
    revert k
    generalize State.lookup a2 a0 e.key e.sought = x
    obtain ⟨f, t⟩ := x
    intro k
    cases f with
    | wait => exact State.setKeys_ok _ _ _ k
    | flow f => exact ht _ _ (hr _ _ (State.applyEntry_ok _ _ _ _ k))
    | missing =>
      dsimp only
      split
      · rename_i f u e2
        exact ht _ _ (hr _ _ (State.applyEntry_ok _ _ _ _ (State.flowFor_ok _ _ _ k e2)))
      · exact ht _ _ (hr _ _ (State.marEvent_ok _ _ (State.inc_ok _ _ _ k)))

theorem execFlowAgeRetire_ok {q : List Instr} (a0) (a1 : State) (h1 : State.Ok q a1) : OutOk q (execFlowAgeRetire a0 a1) := by
  unfold execFlowAgeRetire
  repeat' first
    | with_reducible apply out_next
    | with_reducible apply out_ite
    | intro _
    | with_reducible assumption
    | with_reducible apply ok_ite
    | with_reducible apply State.retire_ok
    | dsimp only
    | split

theorem State.epochClose_ok {q : List Instr} (a0 : State) (h0 : State.Ok q a0) : State.Ok q (State.epochClose a0) := by
  unfold State.epochClose
  repeat' first
    | intro _
    | with_reducible assumption
    | with_reducible apply ok_ite
    | with_reducible apply State.each_ok
    | with_reducible apply State.wr_ok
    | dsimp only

theorem State.epochPass_ok {q : List Instr} (a0 : State) (a1) (h0 : State.Ok q a0) : State.Ok q (State.epochPass a0 a1) := by
  unfold State.epochPass
  repeat' first
    | intro _
    | with_reducible assumption
    | with_reducible apply ok_ite
    | with_reducible apply State.inc_ok
    | with_reducible apply State.epochClose_ok
    | dsimp only
    | split

theorem execEpochClose_ok {q : List Instr} (a0 : State) (h0 : State.Ok q a0) : OutOk q (execEpochClose a0) := by
  unfold execEpochClose
  repeat' first
    | with_reducible apply out_next
    | with_reducible apply out_ite
    | intro _
    | with_reducible assumption
    | with_reducible apply ok_ite
    | with_reducible apply State.epochPass_ok
    | dsimp only

theorem execTreePublish_ok {q : List Instr} (a0) (a1 : State) (h1 : State.Ok q a1) : OutOk q (execTreePublish a0 a1) := by
  unfold execTreePublish
  repeat' first
    | with_reducible apply out_next
    | with_reducible apply out_ite
    | intro _
    | with_reducible assumption
    | with_reducible apply ok_ite
    | with_reducible apply State.classErr_ok
    | with_reducible apply State.each_ok
    | with_reducible apply State.wr_ok
    | with_reducible apply State.marEvent_ok
    | with_reducible apply State.marWrite_ok
    | dsimp only
    | split

theorem State.nodeErr_ok {q : List Instr} (a0 : State) (a1) (h0 : State.Ok q a0) : State.Ok q (State.nodeErr a0 a1) := by
  unfold State.nodeErr
  repeat' first
    | intro _
    | with_reducible assumption
    | with_reducible apply ok_ite
    | with_reducible apply State.classErr_ok
    | with_reducible apply State.wr_ok
    | dsimp only

theorem State.nodeRead_ok {q : List Instr} (a0 : State) (a1) (a2) (a3) {t} (h0 : State.Ok q a0) (e : State.nodeRead a0 a1 a2 a3 = some t) : State.Ok q t.2 := by
  unfold State.nodeRead at e
  revert e
  repeat' first
    | with_reducible refine ok_none2
    | with_reducible refine ok_some2 ?_
    | with_reducible assumption
    | with_reducible apply ok_ite
    | with_reducible apply State.nodeErr_ok
    | dsimp only
    | split
    | intro _

theorem execTreeWindowRead_ok {q : List Instr} (a0) (a1) (a2) (a3 : State) (h3 : State.Ok q a3) : OutOk q (execTreeWindowRead a0 a1 a2 a3) := by
  unfold execTreeWindowRead
  repeat' first
    | with_reducible apply out_next
    | with_reducible apply out_ite
    | intro _
    | with_reducible assumption
    | with_reducible apply ok_ite
    | with_reducible refine State.nodeRead_ok _ _ _ _ ?_ (by assumption)
    | with_reducible apply State.answer_ok
    | dsimp only
    | split

theorem execLeafWindowRead_ok {q : List Instr} (a0) (a1) (a2 : State) (h2 : State.Ok q a2) : OutOk q (execLeafWindowRead a0 a1 a2) := by
  unfold execLeafWindowRead
  repeat' first
    | with_reducible apply out_next
    | with_reducible apply out_ite
    | intro _
    | with_reducible assumption
    | with_reducible apply ok_ite
    | with_reducible apply State.answer_ok
    | dsimp only

theorem State.storeFix_ok {q : List Instr} (a0) (a1 : State) (h1 : State.Ok q a1) : State.Ok q (State.storeFix a0 a1) := by
  unfold State.storeFix
  repeat' first
    | intro _
    | with_reducible assumption
    | with_reducible apply ok_ite
    | with_reducible apply State.classErr_ok
    | with_reducible apply State.wr_ok
    | with_reducible apply State.each_ok
    | with_reducible apply State.wrFree_ok
    | dsimp only
    | split

theorem State.markInexact_ok {q : List Instr} (a0 : State) (a1) (h0 : State.Ok q a0) : State.Ok q (State.markInexact a0 a1) := by
  unfold State.markInexact
  repeat' first
    | intro _
    | with_reducible assumption
    | with_reducible apply ok_ite
    | with_reducible apply State.setB_ok
    | with_reducible apply State.marEvent_ok
    | dsimp only

theorem State.lostLedger_ok {q : List Instr} (a0 : State) (a1) (a2) (h0 : State.Ok q a0) : State.Ok q (State.lostLedger a0 a1 a2) := by
  unfold State.lostLedger
  repeat' first
    | intro _
    | with_reducible assumption
    | with_reducible apply ok_ite
    | with_reducible apply State.each_ok
    | with_reducible apply State.add_ok
    | with_reducible apply State.markInexact_ok
    | with_reducible apply ok_match_opt
    | dsimp only
    | split

theorem State.lostSnap_ok {q : List Instr} (a0 : State) (a1) (a2) (h0 : State.Ok q a0) : State.Ok q (State.lostSnap a0 a1 a2) := by
  unfold State.lostSnap
  repeat' first
    | intro _
    | with_reducible assumption
    | with_reducible apply ok_ite
    | with_reducible apply State.each_ok
    | with_reducible apply State.wr_ok
    | with_reducible apply State.wrFree_ok
    | dsimp only
    | split

theorem State.lostCount_ok {q : List Instr} (a0 : State) (a1) (h0 : State.Ok q a0) : State.Ok q (State.lostCount a0 a1) := by
  unfold State.lostCount
  repeat' first
    | intro _
    | with_reducible assumption
    | with_reducible apply ok_ite
    | with_reducible apply State.add_ok
    | with_reducible apply State.fresh_ok
    | with_reducible refine State.fresh_okE (by assumption) ?_
    | with_reducible apply State.wr_ok
    | with_reducible apply State.inc_ok
    | with_reducible apply State.marEvent_ok
    | dsimp only
    | split

theorem State.leafLost_ok {q : List Instr} (a0) (a1) (a2 : State) (h2 : State.Ok q a2) : State.Ok q (State.leafLost a0 a1 a2) := by
  unfold State.leafLost
  repeat' first
    | intro _
    | with_reducible assumption
    | with_reducible apply ok_ite
    | with_reducible apply State.lostLedger_ok
    | with_reducible apply State.lostSnap_ok
    | with_reducible apply State.leafZero_ok
    | with_reducible apply State.wr_ok
    | with_reducible apply State.lostCount_ok
    | dsimp only
    | split

theorem State.ledgerLost_ok {q : List Instr} (a0) (a1 : State) (h1 : State.Ok q a1) : State.Ok q (State.ledgerLost a0 a1) := by
  unfold State.ledgerLost
  repeat' first
    | intro _
    | with_reducible assumption
    | with_reducible apply ok_ite
    | with_reducible apply State.each_ok
    | with_reducible apply State.wr_ok
    | with_reducible apply State.markInexact_ok
    | dsimp only

theorem execFlowStoreScrub_ok {q : List Instr} (a0) (a1 : State) (h1 : State.Ok q a1) : OutOk q (execFlowStoreScrub a0 a1) := by
  unfold execFlowStoreScrub
  repeat' first
    | with_reducible apply out_next
    | with_reducible apply out_ite
    | intro _
    | with_reducible assumption
    | with_reducible apply ok_ite
    | with_reducible apply State.each_ok
    | with_reducible apply State.storeFix_ok
    | with_reducible apply State.classErr_ok
    | with_reducible apply State.leafLost_ok
    | with_reducible apply State.ledgerLost_ok
    | with_reducible apply State.markInexact_ok
    | dsimp only
    | split

theorem execBucketRebuild_ok {q : List Instr} (a0) (a1 : State) (h1 : State.Ok q a1) : OutOk q (execBucketRebuild a0 a1) := by
  unfold execBucketRebuild
  repeat' first
    | with_reducible apply out_next
    | with_reducible apply out_ite
    | intro _
    | with_reducible assumption
    | with_reducible apply ok_ite
    | with_reducible apply State.each_ok
    | with_reducible apply State.marRead_ok
    | with_reducible refine State.marRead_okE (by assumption) ?_
    | with_reducible apply State.retire_ok
    | with_reducible apply State.marWrite_ok
    | with_reducible apply State.wr_ok
    | with_reducible apply State.marEvent_ok
    | dsimp only
    | split

theorem State.exportTake_ok {q : List Instr} (a0 : State) (h0 : State.Ok q a0) : State.Ok q (State.exportTake a0) := by
  unfold State.exportTake
  repeat' first
    | intro _
    | with_reducible assumption
    | with_reducible apply ok_ite
    | with_reducible apply State.each_ok
    | with_reducible apply State.wr_ok
    | dsimp only

theorem State.marEmpty_ok {q : List Instr} (a0 : State) (h0 : State.Ok q a0) : State.Ok q (State.marEmpty a0) := by
  unfold State.marEmpty
  repeat' first
    | intro _
    | with_reducible assumption
    | with_reducible apply ok_ite
    | with_reducible apply State.resetBlocks_ok
    | with_reducible apply State.marWipe_ok
    | with_reducible apply State.each_ok
    | with_reducible apply State.wr_ok
    | dsimp only
    | (rw [ok_mk_iff]; refine ⟨?_, ?_, ?_, ?_⟩)
    | with_reducible refine State.Ok.pending ?_
    | with_reducible apply State.Ok.m
    | with_reducible apply State.Ok.c
    | with_reducible apply State.Ok.r

theorem State.marStart_ok {q : List Instr} (a0 : State) (h0 : State.Ok q a0) : State.Ok q (State.marStart a0) := by
  unfold State.marStart
  repeat' first
    | intro _
    | with_reducible assumption
    | with_reducible apply ok_ite
    | with_reducible apply State.wr_ok
    | with_reducible apply State.marReject_ok
    | dsimp only
    | split

theorem State.marStopCmd_ok {q : List Instr} (a0 : State) (h0 : State.Ok q a0) : State.Ok q (State.marStopCmd a0) := by
  unfold State.marStopCmd
  repeat' first
    | intro _
    | with_reducible assumption
    | with_reducible apply ok_ite
    | with_reducible apply State.wr_ok
    | with_reducible apply State.marReject_ok
    | dsimp only
    | split

theorem State.marClearAll_ok {q : List Instr} (a0 : State) (h0 : State.Ok q a0) : State.Ok q (State.marClearAll a0) := by
  unfold State.marClearAll
  repeat' first
    | intro _
    | with_reducible assumption
    | with_reducible apply ok_ite
    | with_reducible apply State.marEmpty_ok
    | with_reducible apply State.wr_ok
    | with_reducible apply State.marReject_ok
    | dsimp only
    | split

theorem State.marExport_ok {q : List Instr} (a0 : State) (h0 : State.Ok q a0) : State.Ok q (State.marExport a0) := by
  unfold State.marExport
  repeat' first
    | intro _
    | with_reducible assumption
    | with_reducible apply ok_ite
    | with_reducible apply State.exportTake_ok
    | with_reducible apply State.wr_ok
    | with_reducible apply State.marReject_ok
    | dsimp only
    | split

theorem State.marRetireCmd_ok {q : List Instr} (a0 : State) (a1) (h0 : State.Ok q a0) : State.Ok q (State.marRetireCmd a0 a1) := by
  unfold State.marRetireCmd
  repeat' first
    | intro _
    | with_reducible assumption
    | with_reducible apply ok_ite
    | with_reducible apply State.retire_ok
    | with_reducible apply State.marReject_ok
    | dsimp only
    | split

theorem State.marClrCnt_ok {q : List Instr} (a0 : State) (h0 : State.Ok q a0) : State.Ok q (State.marClrCnt a0) := by
  unfold State.marClrCnt
  repeat' first
    | intro _
    | with_reducible assumption
    | with_reducible apply ok_ite
    | with_reducible apply State.each_ok
    | with_reducible apply State.wr_ok
    | dsimp only

theorem State.marCmd_ok {q : List Instr} (a0 : State) (a1) (a2) (h0 : State.Ok q a0) : State.Ok q (State.marCmd a0 a1 a2) := by
  unfold State.marCmd
  repeat' first
    | intro _
    | with_reducible assumption
    | with_reducible apply ok_ite
    | with_reducible apply State.marStart_ok
    | with_reducible apply State.marStopCmd_ok
    | with_reducible apply State.marClearAll_ok
    | with_reducible apply State.marExport_ok
    | with_reducible apply State.marRetireCmd_ok
    | with_reducible apply State.marClrCnt_ok
    | with_reducible apply State.marReject_ok
    | dsimp only
    | split

theorem execMarStart_ok {q : List Instr} (a0 : State) (h0 : State.Ok q a0) : OutOk q (execMarStart a0) := by
  unfold execMarStart
  repeat' first
    | with_reducible apply out_next
    | with_reducible apply out_ite
    | intro _
    | with_reducible assumption
    | with_reducible apply ok_ite
    | with_reducible apply State.marStart_ok
    | dsimp only

theorem execMarStop_ok {q : List Instr} (a0 : State) (h0 : State.Ok q a0) : OutOk q (execMarStop a0) := by
  unfold execMarStop
  repeat' first
    | with_reducible apply out_next
    | with_reducible apply out_ite
    | intro _
    | with_reducible assumption
    | with_reducible apply ok_ite
    | with_reducible apply State.marStopCmd_ok
    | dsimp only

theorem execMarStopDone_ok {q : List Instr} (a0 : State) (h0 : State.Ok q a0) : OutOk q (execMarStopDone a0) := by
  unfold execMarStopDone
  repeat' first
    | with_reducible apply out_next
    | with_reducible apply out_ite
    | intro _
    | with_reducible assumption
    | with_reducible apply ok_ite
    | with_reducible apply State.wr_ok
    | dsimp only
    | split

theorem execMarClearAll_ok {q : List Instr} (a0 : State) (h0 : State.Ok q a0) : OutOk q (execMarClearAll a0) := by
  unfold execMarClearAll
  repeat' first
    | with_reducible apply out_next
    | with_reducible apply out_ite
    | intro _
    | with_reducible assumption
    | with_reducible apply ok_ite
    | with_reducible apply State.marClearAll_ok
    | dsimp only

theorem execMarClearDone_ok {q : List Instr} (a0 : State) (h0 : State.Ok q a0) : OutOk q (execMarClearDone a0) := by
  unfold execMarClearDone
  repeat' first
    | with_reducible apply out_next
    | with_reducible apply out_ite
    | intro _
    | with_reducible assumption
    | with_reducible apply ok_ite
    | with_reducible apply State.wr_ok
    | dsimp only

theorem execMarExport_ok {q : List Instr} (a0 : State) (h0 : State.Ok q a0) : OutOk q (execMarExport a0) := by
  unfold execMarExport
  repeat' first
    | with_reducible apply out_next
    | with_reducible apply out_ite
    | intro _
    | with_reducible assumption
    | with_reducible apply ok_ite
    | with_reducible apply State.marExport_ok
    | dsimp only

theorem execMarExportDone_ok {q : List Instr} (a0 : State) (h0 : State.Ok q a0) : OutOk q (execMarExportDone a0) := by
  unfold execMarExportDone
  repeat' first
    | with_reducible apply out_next
    | with_reducible apply out_ite
    | intro _
    | with_reducible assumption
    | with_reducible apply ok_ite
    | with_reducible apply State.memWrite_ok
    | with_reducible refine State.memWrite_okE (by assumption) ?_
    | with_reducible apply State.each_ok
    | with_reducible apply State.nodeErr_ok
    | with_reducible apply State.wr_ok
    | with_reducible apply State.marEvent_ok
    | dsimp only
    | split

theorem execMarRetire_ok {q : List Instr} (a0) (a1 : State) (h1 : State.Ok q a1) : OutOk q (execMarRetire a0 a1) := by
  unfold execMarRetire
  repeat' first
    | with_reducible apply out_next
    | with_reducible apply out_ite
    | intro _
    | with_reducible assumption
    | with_reducible apply ok_ite
    | with_reducible apply State.marRetireCmd_ok
    | dsimp only

theorem execMarClrCnt_ok {q : List Instr} (a0 : State) (h0 : State.Ok q a0) : OutOk q (execMarClrCnt a0) := by
  unfold execMarClrCnt
  repeat' first
    | with_reducible apply out_next
    | with_reducible apply out_ite
    | intro _
    | with_reducible assumption
    | with_reducible apply ok_ite
    | with_reducible apply State.marClrCnt_ok
    | dsimp only

theorem State.marReset_ok {q : List Instr} (a0 : State) (h0 : State.Ok q a0) : State.Ok q (State.marReset a0) := by
  unfold State.marReset
  repeat' first
    | intro _
    | with_reducible assumption
    | with_reducible apply ok_ite
    | with_reducible apply State.marEmpty_ok
    | with_reducible apply State.resetBlocks_ok
    | with_reducible apply State.wr_ok
    | dsimp only

end Sys2Proof.Machine
end

