-- ==== Sys2Proof/Laws/OkRamzel.lean ====
section
/-! SUPPORT. What the operations of Machine/Ramzel.lean keep: the canonical form of the state and its queue. -/

namespace Sys2Proof.Machine

theorem State.rlkEvt_ok {q : List Instr} (a0 : State) (a1) (h0 : State.Ok q a0) : State.Ok q (State.rlkEvt a0 a1) := by
  unfold State.rlkEvt
  repeat' first
    | intro _
    | with_reducible assumption
    | with_reducible apply ok_ite
    | with_reducible apply State.raiseB_ok
    | dsimp only

theorem State.tsbEvt_ok {q : List Instr} (a0 : State) (a1) (h0 : State.Ok q a0) : State.Ok q (State.tsbEvt a0 a1) := by
  unfold State.tsbEvt
  repeat' first
    | intro _
    | with_reducible assumption
    | with_reducible apply ok_ite
    | with_reducible apply State.raiseB_ok
    | dsimp only

theorem State.setRetry_ok {q : List Instr} (a0 : State) (a1) (a2) (h0 : State.Ok q a0) : State.Ok q (State.setRetry a0 a1 a2) := by
  unfold State.setRetry
  repeat' first
    | intro _
    | with_reducible assumption
    | with_reducible apply ok_ite
    | dsimp only
    | (rw [ok_mk_iff]; refine ⟨?_, ?_, ?_, ?_⟩)
    | with_reducible refine State.Ok.pending ?_
    | with_reducible apply State.Ok.m
    | with_reducible apply State.Ok.c
    | with_reducible apply State.Ok.r

theorem State.setRlkRows_ok {q : List Instr} (a0 : State) (a1) (a2) (a3) (h0 : State.Ok q a0) : State.Ok q (State.setRlkRows a0 a1 a2 a3) := by
  unfold State.setRlkRows
  repeat' first
    | intro _
    | with_reducible assumption
    | with_reducible apply ok_ite
    | dsimp only
    | (rw [ok_mk_iff]; refine ⟨?_, ?_, ?_, ?_⟩)
    | with_reducible refine State.Ok.pending ?_
    | with_reducible apply State.Ok.m
    | with_reducible apply State.Ok.c
    | with_reducible apply State.Ok.r

theorem State.rlkSend_ok {q : List Instr} (a0 : State) (a1) (a2) (a3) (a4) (a5) (h0 : State.Ok q a0) : State.Ok q (State.rlkSend a0 a1 a2 a3 a4 a5) := by
  unfold State.rlkSend
  repeat' first
    | intro _
    | with_reducible assumption
    | with_reducible apply ok_ite
    | with_reducible apply State.wr_ok
    | with_reducible apply State.each_ok
    | with_reducible apply State.emit_ok
    | with_reducible apply ok_match_opt
    | with_reducible apply ok_foldl
    | with_reducible apply ok_foldl2
    | with_reducible apply ok_foldl3
    | dsimp only
    | split

theorem State.rlkIdle_ok {q : List Instr} (a0 : State) (a1) (h0 : State.Ok q a0) : State.Ok q (State.rlkIdle a0 a1) := by
  unfold State.rlkIdle
  repeat' first
    | intro _
    | with_reducible assumption
    | with_reducible apply ok_ite
    | with_reducible apply State.rlkSend_ok
    | dsimp only
    | split

theorem State.rlkNumbered_ok {q : List Instr} (a0 : State) (a1) (a2) (a3) (a4) (h0 : State.Ok q a0) : State.Ok q (State.rlkNumbered a0 a1 a2 a3 a4) := by
  unfold State.rlkNumbered
  repeat' first
    | intro _
    | with_reducible assumption
    | with_reducible apply ok_ite
    | with_reducible apply State.setRetry_ok
    | with_reducible apply State.wr_ok
    | with_reducible apply State.add_ok
    | with_reducible apply State.rlkSend_ok
    | dsimp only

theorem State.rlkReplay_ok {q : List Instr} (a0 : State) (a1) (h0 : State.Ok q a0) : State.Ok q (State.rlkReplay a0 a1) := by
  unfold State.rlkReplay
  repeat' first
    | intro _
    | with_reducible assumption
    | with_reducible apply ok_ite
    | with_reducible apply State.rlkSend_ok
    | with_reducible apply State.inc_ok
    | with_reducible apply ok_foldl
    | with_reducible apply ok_foldl2
    | with_reducible apply ok_foldl3
    | dsimp only
    | split

theorem State.sendOffer_ok {q : List Instr} (a0 : State) (a1) (h0 : State.Ok q a0) : State.Ok q (State.sendOffer a0 a1) := by
  unfold State.sendOffer
  repeat' first
    | intro _
    | with_reducible assumption
    | with_reducible apply ok_ite
    | with_reducible apply State.rlkSend_ok
    | dsimp only
    | split

theorem State.rlkDiscard_ok {q : List Instr} (a0 : State) (a1) (h0 : State.Ok q a0) : State.Ok q (State.rlkDiscard a0 a1) := by
  unfold State.rlkDiscard
  repeat' first
    | intro _
    | with_reducible assumption
    | with_reducible apply ok_ite
    | with_reducible apply State.setRetry_ok
    | with_reducible apply State.setRlkRows_ok
    | with_reducible apply State.clr_ok
    | with_reducible apply State.inc_ok
    | with_reducible apply State.rlkEvt_ok
    | with_reducible apply ok_foldl
    | with_reducible apply ok_foldl2
    | with_reducible apply ok_foldl3
    | dsimp only
    | split

theorem State.rlkQuiet_ok {q : List Instr} (a0 : State) (a1) (h0 : State.Ok q a0) : State.Ok q (State.rlkQuiet a0 a1) := by
  unfold State.rlkQuiet
  repeat' first
    | intro _
    | with_reducible assumption
    | with_reducible apply ok_ite
    | with_reducible apply State.each_ok
    | with_reducible apply State.clr_ok
    | with_reducible apply State.wr_ok
    | with_reducible apply ok_foldl
    | with_reducible apply ok_foldl2
    | with_reducible apply ok_foldl3
    | dsimp only

theorem State.rlkPhy_ok {q : List Instr} (a0 : State) (a1) (a2) (h0 : State.Ok q a0) : State.Ok q (State.rlkPhy a0 a1 a2) := by
  unfold State.rlkPhy
  repeat' first
    | intro _
    | with_reducible assumption
    | with_reducible apply ok_ite
    | with_reducible apply State.rlkQuiet_ok
    | with_reducible apply State.wr_ok
    | dsimp only

theorem State.rlkFault_ok {q : List Instr} (a0 : State) (a1) (a2) (h0 : State.Ok q a0) : State.Ok q (State.rlkFault a0 a1 a2) := by
  unfold State.rlkFault
  repeat' first
    | intro _
    | with_reducible assumption
    | with_reducible apply ok_ite
    | with_reducible apply State.rlkQuiet_ok
    | with_reducible apply State.wr_ok
    | with_reducible apply State.rlkDiscard_ok
    | with_reducible apply State.rlkEvt_ok
    | dsimp only

theorem State.rlkDown_ok {q : List Instr} (a0 : State) (a1) (h0 : State.Ok q a0) : State.Ok q (State.rlkDown a0 a1) := by
  unfold State.rlkDown
  repeat' first
    | intro _
    | with_reducible assumption
    | with_reducible apply ok_ite
    | with_reducible apply State.rlkPhy_ok
    | with_reducible apply State.rlkEvt_ok
    | dsimp only

theorem State.rlkOff_ok {q : List Instr} (a0 : State) (a1) (h0 : State.Ok q a0) : State.Ok q (State.rlkOff a0 a1) := by
  unfold State.rlkOff
  repeat' first
    | intro _
    | with_reducible assumption
    | with_reducible apply ok_ite
    | with_reducible apply State.rlkQuiet_ok
    | with_reducible apply State.rlkDiscard_ok
    | with_reducible apply State.clr_ok
    | with_reducible apply ok_foldl
    | with_reducible apply ok_foldl2
    | with_reducible apply ok_foldl3
    | dsimp only

theorem State.rlkActive_ok {q : List Instr} (a0 : State) (a1) (h0 : State.Ok q a0) : State.Ok q (State.rlkActive a0 a1) := by
  unfold State.rlkActive
  repeat' first
    | intro _
    | with_reducible assumption
    | with_reducible apply ok_ite
    | with_reducible apply State.rlkDiscard_ok
    | with_reducible apply State.wr_ok
    | with_reducible apply State.each_ok
    | with_reducible apply State.rlkEvt_ok
    | with_reducible apply State.rlkReplay_ok
    | dsimp only
    | split

theorem State.rlkAgree_ok {q : List Instr} (a0 : State) (a1) (h0 : State.Ok q a0) : State.Ok q (State.rlkAgree a0 a1) := by
  unfold State.rlkAgree
  repeat' first
    | intro _
    | with_reducible assumption
    | with_reducible apply ok_ite
    | with_reducible apply State.rlkFault_ok
    | with_reducible apply State.wr_ok
    | with_reducible apply State.rlkActive_ok
    | dsimp only
    | split

theorem State.rlkReadyChanged_ok {q : List Instr} (a0 : State) (a1) (h0 : State.Ok q a0) : State.Ok q (State.rlkReadyChanged a0 a1) := by
  unfold State.rlkReadyChanged
  repeat' first
    | intro _
    | with_reducible assumption
    | with_reducible apply ok_ite
    | with_reducible apply State.sendOffer_ok
    | with_reducible apply State.rlkAgree_ok
    | dsimp only

theorem State.rlkCtrlWrite_ok {q : List Instr} (a0 : State) (a1) (a2) (h0 : State.Ok q a0) : State.Ok q (State.rlkCtrlWrite a0 a1 a2) := by
  unfold State.rlkCtrlWrite
  repeat' first
    | intro _
    | with_reducible assumption
    | with_reducible apply ok_ite
    | with_reducible apply State.writeReg_ok
    | with_reducible apply State.rlkOff_ok
    | with_reducible apply State.each_ok
    | with_reducible apply State.wr_ok
    | with_reducible apply State.rlkPhy_ok
    | with_reducible apply State.rlkReadyChanged_ok
    | dsimp only
    | split

theorem execRlkEnable_ok {q : List Instr} (a0) (a1) (a2 : State) (h2 : State.Ok q a2) : OutOk q (execRlkEnable a0 a1 a2) := by
  unfold execRlkEnable
  repeat' first
    | with_reducible apply out_next
    | with_reducible apply out_ite
    | intro _
    | with_reducible assumption
    | with_reducible apply ok_ite
    | with_reducible apply State.rlkCtrlWrite_ok
    | dsimp only

theorem execRlkDisable_ok {q : List Instr} (a0) (a1) (a2 : State) (h2 : State.Ok q a2) : OutOk q (execRlkDisable a0 a1 a2) := by
  unfold execRlkDisable
  repeat' first
    | with_reducible apply out_next
    | with_reducible apply out_ite
    | intro _
    | with_reducible assumption
    | with_reducible apply ok_ite
    | with_reducible apply State.rlkCtrlWrite_ok
    | dsimp only

theorem State.rlkLane_ok {q : List Instr} (a0) (a1) (a2 : State) (h2 : State.Ok q a2) : State.Ok q (State.rlkLane a0 a1 a2) := by
  unfold State.rlkLane
  repeat' first
    | intro _
    | with_reducible assumption
    | with_reducible apply ok_ite
    | with_reducible apply State.wr_ok
    | dsimp only

theorem execRlkPhyUp_ok {q : List Instr} (a0) (a1) (a2 : State) (h2 : State.Ok q a2) : OutOk q (execRlkPhyUp a0 a1 a2) := by
  unfold execRlkPhyUp
  repeat' first
    | with_reducible apply out_next
    | with_reducible apply out_ite
    | intro _
    | with_reducible assumption
    | with_reducible apply ok_ite
    | with_reducible apply State.each_ok
    | with_reducible apply State.rlkLane_ok
    | with_reducible apply State.rlkFault_ok
    | with_reducible apply State.wr_ok
    | with_reducible apply State.sendOffer_ok
    | dsimp only
    | split

theorem execRlkPhyFault_ok {q : List Instr} (a0) (a1 : State) (h1 : State.Ok q a1) : OutOk q (execRlkPhyFault a0 a1) := by
  unfold execRlkPhyFault
  repeat' first
    | with_reducible apply out_next
    | with_reducible apply out_ite
    | intro _
    | with_reducible assumption
    | with_reducible apply ok_ite
    | with_reducible apply State.rlkFault_ok
    | dsimp only
    | split

theorem execRlkOfferTimer_ok {q : List Instr} (a0) (a1 : State) (h1 : State.Ok q a1) : OutOk q (execRlkOfferTimer a0 a1) := by
  unfold execRlkOfferTimer
  repeat' first
    | with_reducible apply out_next
    | with_reducible apply out_ite
    | intro _
    | with_reducible assumption
    | with_reducible apply ok_ite
    | with_reducible apply State.sendOffer_ok
    | dsimp only

theorem execRlkRateSwitch_ok {q : List Instr} (a0) (a1 : State) (h1 : State.Ok q a1) : OutOk q (execRlkRateSwitch a0 a1) := by
  unfold execRlkRateSwitch
  repeat' first
    | with_reducible apply out_next
    | with_reducible apply out_ite
    | intro _
    | with_reducible assumption
    | with_reducible apply ok_ite
    | with_reducible apply State.rlkPhy_ok
    | dsimp only
    | split

theorem execRlkLinkDown_ok {q : List Instr} (a0) (a1 : State) (h1 : State.Ok q a1) : OutOk q (execRlkLinkDown a0 a1) := by
  unfold execRlkLinkDown
  repeat' first
    | with_reducible apply out_next
    | with_reducible apply out_ite
    | intro _
    | with_reducible assumption
    | with_reducible apply ok_ite
    | with_reducible apply State.rlkDown_ok
    | dsimp only
    | split

theorem State.rlkTakeTrig_ok {q : List Instr} (a0 : State) (a1) (a2) (h0 : State.Ok q a0) : State.Ok q (State.rlkTakeTrig a0 a1 a2) := by
  unfold State.rlkTakeTrig
  repeat' first
    | intro _
    | with_reducible assumption
    | with_reducible apply ok_ite
    | with_reducible apply State.each_ok
    | with_reducible apply State.wr_ok
    | dsimp only

theorem State.rlkTakeAck_ok {q : List Instr} (a0 : State) (a1) (a2) (h0 : State.Ok q a0) : State.Ok q (State.rlkTakeAck a0 a1 a2) := by
  unfold State.rlkTakeAck
  repeat' first
    | intro _
    | with_reducible assumption
    | with_reducible apply ok_ite
    | with_reducible apply State.setRetry_ok
    | dsimp only

theorem State.rlkTakeCredit_ok {q : List Instr} (a0 : State) (a1) (a2) (a3) (h0 : State.Ok q a0) : State.Ok q (State.rlkTakeCredit a0 a1 a2 a3) := by
  unfold State.rlkTakeCredit
  repeat' first
    | intro _
    | with_reducible assumption
    | with_reducible apply ok_ite
    | with_reducible apply State.wr_ok
    | dsimp only
    | split

theorem State.rlkNak_ok {q : List Instr} (a0 : State) (a1) (h0 : State.Ok q a0) : State.Ok q (State.rlkNak a0 a1) := by
  unfold State.rlkNak
  repeat' first
    | intro _
    | with_reducible assumption
    | with_reducible apply ok_ite
    | with_reducible apply State.wr_ok
    | with_reducible apply State.rlkSend_ok
    | dsimp only

theorem State.rlkTakeNak_ok {q : List Instr} (a0 : State) (a1) (a2) (h0 : State.Ok q a0) : State.Ok q (State.rlkTakeNak a0 a1 a2) := by
  unfold State.rlkTakeNak
  repeat' first
    | intro _
    | with_reducible assumption
    | with_reducible apply ok_ite
    | with_reducible apply State.wr_ok
    | with_reducible apply State.rlkDown_ok
    | with_reducible apply State.rlkReplay_ok
    | dsimp only
    | split

theorem State.rlkTakeOffer_ok {q : List Instr} (a0 : State) (a1) (a2) (h0 : State.Ok q a0) : State.Ok q (State.rlkTakeOffer a0 a1 a2) := by
  unfold State.rlkTakeOffer
  repeat' first
    | intro _
    | with_reducible assumption
    | with_reducible apply ok_ite
    | with_reducible apply State.wr_ok
    | with_reducible apply State.rlkAgree_ok
    | dsimp only
    | split

theorem State.rlkTakeSeq_ok {q : List Instr} (a0 : State) (a1) (a2) (h0 : State.Ok q a0) : State.Ok q (State.rlkTakeSeq a0 a1 a2).2 := by
  unfold State.rlkTakeSeq
  repeat' first
    | intro _
    | with_reducible assumption
    | with_reducible apply ok_ite
    | dsimp only
    | with_reducible apply State.add_ok
    | with_reducible apply State.wr_ok
    | with_reducible apply State.rlkNak_ok
    | split

theorem State.rlkTakeSeq_okE {q : List Instr} {a0 : State} {a1} {a2} {b t} (e : State.rlkTakeSeq a0 a1 a2 = (b, t)) (h0 : State.Ok q a0) : State.Ok q t := by
  have := State.rlkTakeSeq_ok a0 a1 a2 h0
  rw [e] at this; exact this

theorem State.rlkRecv_ok {q : List Instr} (a0 : State) (a1) (a2) (a3) (h0 : State.Ok q a0) : State.Ok q (State.rlkRecv a0 a1 a2 a3).2 := by
  unfold State.rlkRecv
  repeat' first
    | intro _
    | with_reducible assumption
    | with_reducible apply ok_ite
    | dsimp only
    | with_reducible apply State.inc_ok
    | with_reducible apply State.rlkNak_ok
    | with_reducible apply State.rlkTakeOffer_ok
    | with_reducible apply State.rlkTakeTrig_ok
    | with_reducible apply State.rlkTakeAck_ok
    | with_reducible apply State.rlkTakeCredit_ok
    | with_reducible apply State.rlkTakeNak_ok
    | with_reducible apply State.rlkTakeSeq_ok
    | with_reducible refine State.rlkTakeSeq_okE (by assumption) ?_
    | with_reducible apply State.wr_ok
    | with_reducible apply State.rlkIdle_ok
    | with_reducible apply State.setRlkRows_ok
    | split

theorem State.rlkRecv_okE {q : List Instr} {a0 : State} {a1} {a2} {a3} {b t} (e : State.rlkRecv a0 a1 a2 a3 = (b, t)) (h0 : State.Ok q a0) : State.Ok q t := by
  have := State.rlkRecv_ok a0 a1 a2 a3 h0
  rw [e] at this; exact this

theorem execRowOffer_ok {q : List Instr} (a0) (a1) (a2 : State) (h2 : State.Ok q a2) : OutOk q (execRowOffer a0 a1 a2) := by
  unfold execRowOffer
  repeat' first
    | with_reducible apply out_next
    | with_reducible apply out_ite
    | intro _
    | with_reducible assumption
    | with_reducible apply ok_ite
    | with_reducible apply State.rlkRecv_ok
    | with_reducible refine State.rlkRecv_okE (by assumption) ?_
    | dsimp only

theorem execRowData_ok {q : List Instr} (a0) (a1) (a2 : State) (h2 : State.Ok q a2) : OutOk q (execRowData a0 a1 a2) := by
  unfold execRowData
  repeat' first
    | with_reducible apply out_next
    | with_reducible apply out_ite
    | intro _
    | with_reducible assumption
    | with_reducible apply ok_ite
    | with_reducible apply State.rlkRecv_ok
    | with_reducible refine State.rlkRecv_okE (by assumption) ?_
    | dsimp only

theorem execRowIdle_ok {q : List Instr} (a0) (a1) (a2 : State) (h2 : State.Ok q a2) : OutOk q (execRowIdle a0 a1 a2) := by
  unfold execRowIdle
  repeat' first
    | with_reducible apply out_next
    | with_reducible apply out_ite
    | intro _
    | with_reducible assumption
    | with_reducible apply ok_ite
    | with_reducible apply State.rlkRecv_ok
    | with_reducible refine State.rlkRecv_okE (by assumption) ?_
    | dsimp only

theorem execRowNak_ok {q : List Instr} (a0) (a1) (a2 : State) (h2 : State.Ok q a2) : OutOk q (execRowNak a0 a1 a2) := by
  unfold execRowNak
  repeat' first
    | with_reducible apply out_next
    | with_reducible apply out_ite
    | intro _
    | with_reducible assumption
    | with_reducible apply ok_ite
    | with_reducible apply State.rlkRecv_ok
    | with_reducible refine State.rlkRecv_okE (by assumption) ?_
    | dsimp only

theorem execStreamWordSend_ok {q : List Instr} (a0) (a1) (a2) (a3) (a4 : State) (h4 : State.Ok q a4) : OutOk q (execStreamWordSend a0 a1 a2 a3 a4) := by
  unfold execStreamWordSend
  repeat' first
    | with_reducible apply out_next
    | with_reducible apply out_ite
    | intro _
    | with_reducible assumption
    | with_reducible apply ok_ite
    | with_reducible apply State.answer_ok
    | with_reducible apply State.rlkNumbered_ok
    | dsimp only
    | split

theorem execRlkStreamRowRead_ok {q : List Instr} (a0) (a1) (a2 : State) (h2 : State.Ok q a2) : OutOk q (execRlkStreamRowRead a0 a1 a2) := by
  unfold execRlkStreamRowRead
  repeat' first
    | with_reducible apply out_next
    | with_reducible apply out_ite
    | intro _
    | with_reducible assumption
    | with_reducible apply ok_ite
    | with_reducible apply State.setRlkRows_ok
    | with_reducible apply State.wr_ok
    | with_reducible apply State.rlkIdle_ok
    | with_reducible apply State.answer_ok
    | dsimp only
    | split

theorem State.rlkFlush_ok {q : List Instr} (a0 : State) (a1) (h0 : State.Ok q a0) : State.Ok q (State.rlkFlush a0 a1) := by
  unfold State.rlkFlush
  repeat' first
    | intro _
    | with_reducible assumption
    | with_reducible apply ok_ite
    | with_reducible apply State.each_ok
    | with_reducible apply State.setRlkRows_ok
    | with_reducible apply State.inc_ok
    | with_reducible apply State.wr_ok
    | with_reducible apply State.rlkIdle_ok
    | dsimp only
    | split

theorem State.rlkRetrain_ok {q : List Instr} (a0 : State) (a1) (h0 : State.Ok q a0) : State.Ok q (State.rlkRetrain a0 a1) := by
  unfold State.rlkRetrain
  repeat' first
    | intro _
    | with_reducible assumption
    | with_reducible apply ok_ite
    | with_reducible apply State.wr_ok
    | with_reducible apply State.rlkPhy_ok
    | with_reducible apply State.rlkDown_ok
    | with_reducible apply State.rejMark_ok
    | with_reducible apply State.rlkEvt_ok
    | dsimp only
    | split

theorem State.rlkClrCnt_ok {q : List Instr} (a0 : State) (a1) (h0 : State.Ok q a0) : State.Ok q (State.rlkClrCnt a0 a1) := by
  unfold State.rlkClrCnt
  repeat' first
    | intro _
    | with_reducible assumption
    | with_reducible apply ok_ite
    | with_reducible apply State.wr_ok
    | with_reducible apply State.each_ok
    | with_reducible apply ok_foldl
    | with_reducible apply ok_foldl2
    | with_reducible apply ok_foldl3
    | dsimp only

theorem execRlkRetrain_ok {q : List Instr} (a0) (a1 : State) (h1 : State.Ok q a1) : OutOk q (execRlkRetrain a0 a1) := by
  unfold execRlkRetrain
  repeat' first
    | with_reducible apply out_next
    | with_reducible apply out_ite
    | intro _
    | with_reducible assumption
    | with_reducible apply ok_ite
    | with_reducible apply State.rlkRetrain_ok
    | dsimp only

theorem execRlkClrCnt_ok {q : List Instr} (a0) (a1 : State) (h1 : State.Ok q a1) : OutOk q (execRlkClrCnt a0 a1) := by
  unfold execRlkClrCnt
  repeat' first
    | with_reducible apply out_next
    | with_reducible apply out_ite
    | intro _
    | with_reducible assumption
    | with_reducible apply ok_ite
    | with_reducible apply State.rlkClrCnt_ok
    | dsimp only

theorem State.rlkCmd_ok {q : List Instr} (a0 : State) (a1) (a2) (h0 : State.Ok q a0) : State.Ok q (State.rlkCmd a0 a1 a2) := by
  unfold State.rlkCmd
  repeat' first
    | intro _
    | with_reducible assumption
    | with_reducible apply ok_ite
    | with_reducible apply State.rlkRetrain_ok
    | with_reducible apply State.rlkClrCnt_ok
    | with_reducible apply State.rejMark_ok
    | with_reducible apply State.rlkEvt_ok
    | dsimp only
    | split

theorem State.tsbStepTo_ok {q : List Instr} (a0 : State) (a1) (h0 : State.Ok q a0) : State.Ok q (State.tsbStepTo a0 a1) := by
  unfold State.tsbStepTo
  repeat' first
    | intro _
    | with_reducible assumption
    | with_reducible apply ok_ite
    | with_reducible apply State.wr_ok
    | with_reducible apply State.epochPass_ok
    | with_reducible apply State.tsbEvt_ok
    | dsimp only
    | split

theorem State.tsbUnlock_ok {q : List Instr} (a0 : State) (h0 : State.Ok q a0) : State.Ok q (State.tsbUnlock a0) := by
  unfold State.tsbUnlock
  repeat' first
    | intro _
    | with_reducible assumption
    | with_reducible apply ok_ite
    | with_reducible apply State.wr_ok
    | with_reducible apply State.tsbEvt_ok
    | dsimp only
    | split

theorem State.tsbQuality_ok {q : List Instr} (a0 : State) (a1) (h0 : State.Ok q a0) : State.Ok q (State.tsbQuality a0 a1) := by
  unfold State.tsbQuality
  repeat' first
    | intro _
    | with_reducible assumption
    | with_reducible apply ok_ite
    | with_reducible apply State.wr_ok
    | with_reducible apply State.tsbEvt_ok
    | with_reducible apply State.tsbUnlock_ok
    | dsimp only
    | split

theorem State.tsbUse_ok {q : List Instr} (a0 : State) (a1) (a2) (h0 : State.Ok q a0) : State.Ok q (State.tsbUse a0 a1 a2) := by
  unfold State.tsbUse
  repeat' first
    | intro _
    | with_reducible assumption
    | with_reducible apply ok_ite
    | with_reducible apply State.wr_ok
    | with_reducible apply State.tsbQuality_ok
    | with_reducible apply State.tsbStepTo_ok
    | dsimp only
    | split

theorem State.tsbCtrlWrite_ok {q : List Instr} (a0 : State) (a1) (h0 : State.Ok q a0) : State.Ok q (State.tsbCtrlWrite a0 a1) := by
  unfold State.tsbCtrlWrite
  repeat' first
    | intro _
    | with_reducible assumption
    | with_reducible apply ok_ite
    | with_reducible apply State.writeReg_ok
    | with_reducible apply State.wr_ok
    | dsimp only
    | split

theorem execTsbSyncLost_ok {q : List Instr} (a0 : State) (h0 : State.Ok q a0) : OutOk q (execTsbSyncLost a0) := by
  unfold execTsbSyncLost
  repeat' first
    | with_reducible apply out_next
    | with_reducible apply out_ite
    | intro _
    | with_reducible assumption
    | with_reducible apply ok_ite
    | with_reducible apply State.tsbUnlock_ok
    | dsimp only

theorem State.tsbStep_ok {q : List Instr} (a0 : State) (h0 : State.Ok q a0) : State.Ok q (State.tsbStep a0) := by
  unfold State.tsbStep
  repeat' first
    | intro _
    | with_reducible assumption
    | with_reducible apply ok_ite
    | with_reducible apply State.tsbStepTo_ok
    | with_reducible apply State.rejMark_ok
    | with_reducible apply State.tsbEvt_ok
    | dsimp only
    | split

theorem execTsbStep_ok {q : List Instr} (a0 : State) (h0 : State.Ok q a0) : OutOk q (execTsbStep a0) := by
  unfold execTsbStep
  repeat' first
    | with_reducible apply out_next
    | with_reducible apply out_ite
    | intro _
    | with_reducible assumption
    | with_reducible apply ok_ite
    | with_reducible apply State.tsbStep_ok
    | dsimp only

theorem State.tsbCmd_ok {q : List Instr} (a0 : State) (a1) (h0 : State.Ok q a0) : State.Ok q (State.tsbCmd a0 a1) := by
  unfold State.tsbCmd
  repeat' first
    | intro _
    | with_reducible assumption
    | with_reducible apply ok_ite
    | with_reducible apply State.tsbStep_ok
    | with_reducible apply State.rejMark_ok
    | with_reducible apply State.tsbEvt_ok
    | dsimp only
    | split

theorem execTsbStepRelease_ok {q : List Instr} (a0 : State) (h0 : State.Ok q a0) : OutOk q (execTsbStepRelease a0) := by
  unfold execTsbStepRelease
  repeat' first
    | with_reducible apply out_next
    | with_reducible apply out_ite
    | intro _
    | with_reducible assumption
    | with_reducible apply ok_ite
    | with_reducible apply State.wr_ok
    | with_reducible apply State.tsbStepTo_ok
    | dsimp only
    | split

theorem State.tsSend_ok {q : List Instr} (a0 : State) (a1) (a2) (a3) (a4) (h0 : State.Ok q a0) : State.Ok q (State.tsSend a0 a1 a2 a3 a4) := by
  unfold State.tsSend
  repeat' first
    | intro _
    | with_reducible assumption
    | with_reducible apply ok_ite
    | with_reducible apply State.rlkNumbered_ok
    | dsimp only
    | split

theorem execTsSyncInterval_ok {q : List Instr} (a0) (a1) (a2 : State) (h2 : State.Ok q a2) : OutOk q (execTsSyncInterval a0 a1 a2) := by
  unfold execTsSyncInterval
  repeat' first
    | with_reducible apply out_next
    | with_reducible apply out_ite
    | intro _
    | with_reducible assumption
    | with_reducible apply ok_ite
    | with_reducible apply State.wr_ok
    | with_reducible apply State.tsSend_ok
    | dsimp only
    | split

theorem execMgmtSync_ok {q : List Instr} (a0) (a1) (a2) (a3) (a4 : State) (h4 : State.Ok q a4) : OutOk q (execMgmtSync a0 a1 a2 a3 a4) := by
  unfold execMgmtSync
  repeat' first
    | with_reducible apply out_next
    | with_reducible apply out_ite
    | intro _
    | with_reducible assumption
    | with_reducible apply ok_ite
    | with_reducible apply State.rlkRecv_ok
    | with_reducible refine State.rlkRecv_okE (by assumption) ?_
    | with_reducible apply State.wr_ok
    | with_reducible apply State.tsSend_ok
    | dsimp only
    | split

theorem execMgmtFollow_ok {q : List Instr} (a0) (a1) (a2 : State) (h2 : State.Ok q a2) : OutOk q (execMgmtFollow a0 a1 a2) := by
  unfold execMgmtFollow
  repeat' first
    | with_reducible apply out_next
    | with_reducible apply out_ite
    | intro _
    | with_reducible assumption
    | with_reducible apply ok_ite
    | with_reducible apply State.rlkRecv_ok
    | with_reducible refine State.rlkRecv_okE (by assumption) ?_
    | with_reducible apply State.wr_ok
    | dsimp only
    | split

theorem execMgmtDelayReq_ok {q : List Instr} (a0) (a1) (a2) (a3 : State) (h3 : State.Ok q a3) : OutOk q (execMgmtDelayReq a0 a1 a2 a3) := by
  unfold execMgmtDelayReq
  repeat' first
    | with_reducible apply out_next
    | with_reducible apply out_ite
    | intro _
    | with_reducible assumption
    | with_reducible apply ok_ite
    | with_reducible apply State.rlkRecv_ok
    | with_reducible refine State.rlkRecv_okE (by assumption) ?_
    | with_reducible apply State.tsSend_ok
    | dsimp only
    | split

theorem execMgmtDelayResp_ok {q : List Instr} (a0) (a1) (a2 : State) (h2 : State.Ok q a2) : OutOk q (execMgmtDelayResp a0 a1 a2) := by
  unfold execMgmtDelayResp
  repeat' first
    | with_reducible apply out_next
    | with_reducible apply out_ite
    | intro _
    | with_reducible assumption
    | with_reducible apply ok_ite
    | with_reducible apply State.rlkRecv_ok
    | with_reducible refine State.rlkRecv_okE (by assumption) ?_
    | with_reducible apply State.wr_ok
    | with_reducible apply State.tsbUse_ok
    | dsimp only
    | split

end Sys2Proof.Machine
end

