-- ==== Sys2Proof/Laws/OkMillstone.lean ====
section
/-! SUPPORT. What the operations of Machine/Millstone.lean keep: the canonical form of the state and its queue. -/

namespace Sys2Proof.Machine

theorem State.mstEvt_ok {q : List Instr} (a0 : State) (a1) (h0 : State.Ok q a0) : State.Ok q (State.mstEvt a0 a1) := by
  unfold State.mstEvt
  repeat' first
    | intro _
    | with_reducible assumption
    | with_reducible apply ok_ite
    | with_reducible apply State.raiseB_ok
    | dsimp only

theorem State.mstReject_ok {q : List Instr} (a0 : State) (a1) (h0 : State.Ok q a0) : State.Ok q (State.mstReject a0 a1) := by
  unfold State.mstReject
  repeat' first
    | intro _
    | with_reducible assumption
    | with_reducible apply ok_ite
    | with_reducible apply State.rejMark_ok
    | with_reducible apply State.mstEvt_ok
    | dsimp only

theorem State.mstRingWr_ok {q : List Instr} (a0 : State) (a1) (a2) (h0 : State.Ok q a0) : State.Ok q (State.mstRingWr a0 a1 a2) := by
  unfold State.mstRingWr
  repeat' first
    | intro _
    | with_reducible assumption
    | with_reducible apply ok_ite
    | with_reducible apply State.deny_ok
    | with_reducible apply State.wr_ok
    | dsimp only
    | split

theorem execMstRingWrWrite_ok {q : List Instr} (a0) (a1) (a2 : State) (h2 : State.Ok q a2) : OutOk q (execMstRingWrWrite a0 a1 a2) := by
  unfold execMstRingWrWrite
  repeat' first
    | with_reducible apply out_next
    | with_reducible apply out_ite
    | intro _
    | with_reducible assumption
    | with_reducible apply ok_ite
    | with_reducible apply State.mstRingWr_ok
    | dsimp only

theorem State.jobOver_ok {q : List Instr} (a0 : State) (a1) (a2) (h0 : State.Ok q a0) : State.Ok q (State.jobOver a0 a1 a2) := by
  unfold State.jobOver
  repeat' first
    | intro _
    | with_reducible assumption
    | with_reducible apply ok_ite
    | with_reducible apply State.wr_ok
    | dsimp only

theorem State.jobIndex_ok {q : List Instr} (a0 : State) (h0 : State.Ok q a0) : State.Ok q (State.jobIndex a0).2 := by
  unfold State.jobIndex
  repeat' first
    | intro _
    | with_reducible assumption
    | with_reducible apply ok_ite
    | dsimp only
    | with_reducible apply State.coRead_ok
    | with_reducible refine State.coRead_okE (by assumption) ?_
    | with_reducible apply State.answer_ok
    | split

theorem State.jobIndex_okE {q : List Instr} {a0 : State} {b t} (e : State.jobIndex a0 = (b, t)) (h0 : State.Ok q a0) : State.Ok q t := by
  have := State.jobIndex_ok a0 h0
  rw [e] at this; exact this

theorem State.streamOut_ok {q : List Instr} (a0 : State) (a1) (a2) (h0 : State.Ok q a0) : State.Ok q (State.streamOut a0 a1 a2) := by
  unfold State.streamOut
  repeat' first
    | intro _
    | with_reducible assumption
    | with_reducible apply ok_ite
    | with_reducible apply ok_match_opt
    | dsimp only
    | (rw [ok_mk_iff]; refine ⟨?_, ?_, ?_, ?_⟩)
    | with_reducible refine State.Ok.pending ?_
    | with_reducible apply State.Ok.m
    | with_reducible apply State.Ok.c
    | with_reducible apply State.Ok.r

theorem State.streamCut_ok {q : List Instr} (a0 : State) (a1) (h0 : State.Ok q a0) : State.Ok q (State.streamCut a0 a1) := by
  unfold State.streamCut
  repeat' first
    | intro _
    | with_reducible assumption
    | with_reducible apply ok_ite
    | with_reducible apply State.wr_ok
    | dsimp only
    | (rw [ok_mk_iff]; refine ⟨?_, ?_, ?_, ?_⟩)
    | with_reducible refine State.Ok.pending ?_
    | with_reducible apply State.Ok.m
    | with_reducible apply State.Ok.c
    | with_reducible apply State.Ok.r

theorem State.jobPlan_ok {q : List Instr} (a0 : State) (a1 : State) (h0 : State.Ok q a0) (h1 : State.Ok q a1) : State.Ok q (State.jobPlan a0 a1) := by
  unfold State.jobPlan
  extract_lets blocks
  split
  · have k := State.jobIndex_ok a1 h1
    revert k
    generalize State.jobIndex a1 = x
    obtain ⟨o, t⟩ := x
    intro k
    cases o with
    | none =>
      have k := State.wr_ok _ Hid.mstStale 1 k
      exact ok_mk k.1 k.m k.c k.r
    | some l => exact ok_mk k.1 k.m k.c k.r
  · exact ok_mk h1.1 h1.m h1.c h1.r

theorem State.jobSetUp_ok {q : List Instr} (a0 : State) (h0 : State.Ok q a0) : State.Ok q (State.jobSetUp a0) := by
  unfold State.jobSetUp
  repeat' first
    | intro _
    | with_reducible assumption
    | with_reducible apply ok_ite
    | with_reducible apply State.wr_ok
    | with_reducible apply State.jobOver_ok
    | with_reducible apply State.jobPlan_ok
    | with_reducible apply State.streamCut_ok
    | with_reducible apply State.streamOut_ok
    | dsimp only
    | split

theorem State.mstTake_ok {q : List Instr} (a0 : State) (a1) (h0 : State.Ok q a0) : State.Ok q (State.mstTake a0 a1) := by
  unfold State.mstTake
  repeat' first
    | intro _
    | with_reducible assumption
    | with_reducible apply ok_ite
    | with_reducible apply State.coRead_ok
    | with_reducible refine State.coRead_okE (by assumption) ?_
    | with_reducible apply State.answer_ok
    | with_reducible apply State.clr_ok
    | with_reducible apply State.wr_ok
    | with_reducible apply State.jobSetUp_ok
    | with_reducible apply ok_foldl
    | with_reducible apply ok_foldl2
    | with_reducible apply ok_foldl3
    | dsimp only
    | split
    | (rw [ok_mk_iff]; refine ⟨?_, ?_, ?_, ?_⟩)
    | with_reducible refine State.Ok.pending ?_
    | with_reducible apply State.Ok.m
    | with_reducible apply State.Ok.c
    | with_reducible apply State.Ok.r

theorem execMstJobCount_ok {q : List Instr} (a0 : State) (h0 : State.Ok q a0) : OutOk q (execMstJobCount a0) := by
  unfold execMstJobCount
  repeat' first
    | with_reducible apply out_next
    | with_reducible apply out_ite
    | intro _
    | with_reducible assumption
    | with_reducible apply ok_ite
    | with_reducible apply State.mstTake_ok
    | dsimp only

theorem execMstJobList_ok {q : List Instr} (a0 : State) (h0 : State.Ok q a0) : OutOk q (execMstJobList a0) := by
  unfold execMstJobList
  repeat' first
    | with_reducible apply out_next
    | with_reducible apply out_ite
    | intro _
    | with_reducible assumption
    | with_reducible apply ok_ite
    | with_reducible apply State.mstTake_ok
    | dsimp only

theorem execMstJobIndex_ok {q : List Instr} (a0 : State) (h0 : State.Ok q a0) : OutOk q (execMstJobIndex a0) := by
  unfold execMstJobIndex
  repeat' first
    | with_reducible apply out_next
    | with_reducible apply out_ite
    | intro _
    | with_reducible assumption
    | with_reducible apply ok_ite
    | with_reducible apply State.mstTake_ok
    | dsimp only

theorem execMstJobExport_ok {q : List Instr} (a0 : State) (h0 : State.Ok q a0) : OutOk q (execMstJobExport a0) := by
  unfold execMstJobExport
  repeat' first
    | with_reducible apply out_next
    | with_reducible apply out_ite
    | intro _
    | with_reducible assumption
    | with_reducible apply ok_ite
    | with_reducible apply State.mstTake_ok
    | dsimp only

theorem State.jobWrite_ok {q : List Instr} (a0 : State) (a1) (a2) (h0 : State.Ok q a0) : State.Ok q (State.jobWrite a0 a1 a2) := by
  unfold State.jobWrite
  repeat' first
    | intro _
    | with_reducible assumption
    | with_reducible apply ok_ite
    | with_reducible apply State.coWrite_ok
    | with_reducible refine State.coWrite_okE (by assumption) ?_
    | with_reducible apply State.jobOver_ok
    | dsimp only
    | split

theorem State.exportRec_ok {q : List Instr} (a0 : State) (a1) (h0 : State.Ok q a0) : State.Ok q (State.exportRec a0 a1) := by
  unfold State.exportRec
  repeat' first
    | intro _
    | with_reducible assumption
    | with_reducible apply ok_ite
    | with_reducible apply State.streamOut_ok
    | with_reducible apply State.wr_ok
    | with_reducible apply ok_match_opt
    | dsimp only
    | split

theorem State.emitRec_ok {q : List Instr} (a0 : State) (a1) (h0 : State.Ok q a0) : State.Ok q (State.emitRec a0 a1) := by
  unfold State.emitRec
  repeat' first
    | intro _
    | with_reducible assumption
    | with_reducible apply ok_ite
    | with_reducible apply State.count_ok
    | with_reducible apply State.add_ok
    | with_reducible apply State.wr_ok
    | with_reducible apply State.jobOver_ok
    | with_reducible apply State.jobWrite_ok
    | with_reducible apply State.exportRec_ok
    | dsimp only
    | split

theorem State.indexBlock_ok {q : List Instr} (a0 : State) (a1) (a2) (a3) (h0 : State.Ok q a0) : State.Ok q (State.indexBlock a0 a1 a2 a3) := by
  unfold State.indexBlock
  repeat' first
    | intro _
    | with_reducible assumption
    | with_reducible apply ok_ite
    | with_reducible apply State.wr_ok
    | with_reducible apply State.jobOver_ok
    | with_reducible apply State.fresh_ok
    | with_reducible refine State.fresh_okE (by assumption) ?_
    | with_reducible apply State.jobWrite_ok
    | with_reducible apply State.add_ok
    | with_reducible apply ok_foldl
    | with_reducible apply ok_foldl2
    | with_reducible apply ok_foldl3
    | dsimp only
    | split

theorem State.readBlock_ok {q : List Instr} (a0 : State) (a1) (a2) (h0 : State.Ok q a0) : State.Ok q (State.readBlock a0 a1 a2).2.2 := by
  unfold State.readBlock
  repeat' first
    | intro _
    | with_reducible assumption
    | with_reducible apply ok_ite
    | dsimp only
    | with_reducible apply State.readLine_ok
    | with_reducible refine State.readLine_okE (by assumption) ?_
    | with_reducible apply State.openRows_ok
    | with_reducible apply ok_foldl
    | with_reducible apply ok_foldl2
    | with_reducible apply ok_foldl3
    | split

theorem State.readBlock_okE {q : List Instr} {a0 : State} {a1} {a2} {b c t} (e : State.readBlock a0 a1 a2 = (b, c, t)) (h0 : State.Ok q a0) : State.Ok q t := by
  have := State.readBlock_ok a0 a1 a2 h0
  rw [e] at this; exact this

theorem State.jobGate_ok {q : List Instr} (a0 : State) (a1) (h0 : State.Ok q a0) : State.Ok q (State.jobGate a0 a1).2 := by
  unfold State.jobGate
  repeat' first
    | intro _
    | with_reducible assumption
    | with_reducible apply ok_ite
    | dsimp only
    | with_reducible refine State.guard_ok _ _ _ _ _ ?_ (by assumption)
    | with_reducible apply State.memGate_ok
    | with_reducible refine State.memGate_okE (by assumption) ?_
    | split

theorem State.jobGate_okE {q : List Instr} {a0 : State} {a1} {b t} (e : State.jobGate a0 a1 = (b, t)) (h0 : State.Ok q a0) : State.Ok q t := by
  have := State.jobGate_ok a0 a1 h0
  rw [e] at this; exact this

theorem State.jobBytes_ok {q : List Instr} (a0 : State) (a1) (a2) (h0 : State.Ok q a0) : State.Ok q (State.jobBytes a0 a1 a2).2.2 := by
  unfold State.jobBytes
  repeat' first
    | intro _
    | with_reducible assumption
    | with_reducible apply ok_ite
    | dsimp only
    | with_reducible apply State.readBlock_ok
    | with_reducible refine State.readBlock_okE (by assumption) ?_
    | split

theorem State.jobBytes_okE {q : List Instr} {a0 : State} {a1} {a2} {b c t} (e : State.jobBytes a0 a1 a2 = (b, c, t)) (h0 : State.Ok q a0) : State.Ok q t := by
  have := State.jobBytes_ok a0 a1 a2 h0
  rw [e] at this; exact this

theorem State.jobBlock_ok {q : List Instr} (a0 : State) (a1) (a2) (h0 : State.Ok q a0) : State.Ok q (State.jobBlock a0 a1 a2) := by
  unfold State.jobBlock
  repeat' first
    | intro _
    | with_reducible assumption
    | with_reducible apply ok_ite
    | with_reducible apply State.jobGate_ok
    | with_reducible refine State.jobGate_okE (by assumption) ?_
    | with_reducible apply State.answer_ok
    | with_reducible apply State.jobBytes_ok
    | with_reducible refine State.jobBytes_okE (by assumption) ?_
    | with_reducible apply State.add_ok
    | with_reducible apply State.inc_ok
    | with_reducible apply State.mstEvt_ok
    | with_reducible apply State.indexBlock_ok
    | with_reducible apply State.emitRec_ok
    | with_reducible apply State.wr_ok
    | with_reducible apply State.jobOver_ok
    | with_reducible apply ok_foldl
    | with_reducible apply ok_foldl2
    | with_reducible apply ok_foldl3
    | dsimp only
    | split
    | (rw [ok_mk_iff]; refine ⟨?_, ?_, ?_, ?_⟩)
    | with_reducible refine State.Ok.pending ?_
    | with_reducible apply State.Ok.m
    | with_reducible apply State.Ok.c
    | with_reducible apply State.Ok.r

theorem execMstBlockRead_ok {q : List Instr} (a0 : State) (h0 : State.Ok q a0) : OutOk q (execMstBlockRead a0) := by
  unfold execMstBlockRead
  repeat' first
    | with_reducible apply out_next
    | with_reducible apply out_ite
    | intro _
    | with_reducible assumption
    | with_reducible apply ok_ite
    | with_reducible apply State.jobOver_ok
    | with_reducible apply State.answer_ok
    | with_reducible apply State.add_ok
    | with_reducible apply State.mstEvt_ok
    | with_reducible apply State.jobBlock_ok
    | dsimp only
    | split
    | (rw [ok_mk_iff]; refine ⟨?_, ?_, ?_, ?_⟩)
    | with_reducible refine State.Ok.pending ?_
    | with_reducible apply State.Ok.m
    | with_reducible apply State.Ok.c
    | with_reducible apply State.Ok.r

theorem State.indexHeader_ok {q : List Instr} (a0 : State) (h0 : State.Ok q a0) : State.Ok q (State.indexHeader a0) := by
  unfold State.indexHeader
  repeat' first
    | intro _
    | with_reducible assumption
    | with_reducible apply ok_ite
    | with_reducible apply State.jobWrite_ok
    | dsimp only

theorem State.jobClose_ok {q : List Instr} (a0 : State) (a1) (h0 : State.Ok q a0) : State.Ok q (State.jobClose a0 a1) := by
  unfold State.jobClose
  repeat' first
    | intro _
    | with_reducible assumption
    | with_reducible apply ok_ite
    | with_reducible apply State.jobOver_ok
    | with_reducible apply State.indexHeader_ok
    | with_reducible apply State.coWriteBe_ok
    | with_reducible refine State.coWriteBe_okE (by assumption) ?_
    | with_reducible apply State.answer_ok
    | with_reducible apply State.streamCut_ok
    | with_reducible apply State.add_ok
    | with_reducible apply State.inc_ok
    | with_reducible apply State.wr_ok
    | with_reducible apply State.mstEvt_ok
    | dsimp only
    | split
    | (rw [ok_mk_iff]; refine ⟨?_, ?_, ?_, ?_⟩)
    | with_reducible refine State.Ok.pending ?_
    | with_reducible apply State.Ok.m
    | with_reducible apply State.Ok.c
    | with_reducible apply State.Ok.r

theorem execMstJobEnd_ok {q : List Instr} (a0 : State) (h0 : State.Ok q a0) : OutOk q (execMstJobEnd a0) := by
  unfold execMstJobEnd
  repeat' first
    | with_reducible apply out_next
    | with_reducible apply out_ite
    | intro _
    | with_reducible assumption
    | with_reducible apply ok_ite
    | with_reducible apply State.jobClose_ok
    | with_reducible apply State.jobOver_ok
    | with_reducible apply State.wr_ok
    | with_reducible apply State.answer_ok
    | with_reducible apply ok_match_opt
    | dsimp only
    | split

theorem State.mstStart_ok {q : List Instr} (a0 : State) (h0 : State.Ok q a0) : State.Ok q (State.mstStart a0) := by
  unfold State.mstStart
  repeat' first
    | intro _
    | with_reducible assumption
    | with_reducible apply ok_ite
    | with_reducible apply State.wr_ok
    | with_reducible apply State.mstReject_ok
    | dsimp only
    | split

theorem State.mstStop_ok {q : List Instr} (a0 : State) (h0 : State.Ok q a0) : State.Ok q (State.mstStop a0) := by
  unfold State.mstStop
  repeat' first
    | intro _
    | with_reducible assumption
    | with_reducible apply ok_ite
    | with_reducible apply State.mstReject_ok
    | with_reducible apply State.wr_ok
    | dsimp only
    | split

theorem State.mstAbort_ok {q : List Instr} (a0 : State) (h0 : State.Ok q a0) : State.Ok q (State.mstAbort a0) := by
  unfold State.mstAbort
  repeat' first
    | intro _
    | with_reducible assumption
    | with_reducible apply ok_ite
    | with_reducible apply State.jobOver_ok
    | with_reducible apply State.mstReject_ok
    | dsimp only
    | split

theorem State.mstClrCnt_ok {q : List Instr} (a0 : State) (h0 : State.Ok q a0) : State.Ok q (State.mstClrCnt a0) := by
  unfold State.mstClrCnt
  repeat' first
    | intro _
    | with_reducible assumption
    | with_reducible apply ok_ite
    | with_reducible apply State.wr_ok
    | dsimp only

theorem execMstStart_ok {q : List Instr} (a0 : State) (h0 : State.Ok q a0) : OutOk q (execMstStart a0) := by
  unfold execMstStart
  repeat' first
    | with_reducible apply out_next
    | with_reducible apply out_ite
    | intro _
    | with_reducible assumption
    | with_reducible apply ok_ite
    | with_reducible apply State.mstStart_ok
    | dsimp only

theorem execMstStop_ok {q : List Instr} (a0 : State) (h0 : State.Ok q a0) : OutOk q (execMstStop a0) := by
  unfold execMstStop
  repeat' first
    | with_reducible apply out_next
    | with_reducible apply out_ite
    | intro _
    | with_reducible assumption
    | with_reducible apply ok_ite
    | with_reducible apply State.mstStop_ok
    | dsimp only

theorem execMstAbort_ok {q : List Instr} (a0 : State) (h0 : State.Ok q a0) : OutOk q (execMstAbort a0) := by
  unfold execMstAbort
  repeat' first
    | with_reducible apply out_next
    | with_reducible apply out_ite
    | intro _
    | with_reducible assumption
    | with_reducible apply ok_ite
    | with_reducible apply State.mstAbort_ok
    | dsimp only

theorem execMstClrCnt_ok {q : List Instr} (a0 : State) (h0 : State.Ok q a0) : OutOk q (execMstClrCnt a0) := by
  unfold execMstClrCnt
  repeat' first
    | with_reducible apply out_next
    | with_reducible apply out_ite
    | intro _
    | with_reducible assumption
    | with_reducible apply ok_ite
    | with_reducible apply State.mstClrCnt_ok
    | dsimp only

theorem State.mstCmd_ok {q : List Instr} (a0 : State) (a1) (h0 : State.Ok q a0) : State.Ok q (State.mstCmd a0 a1) := by
  unfold State.mstCmd
  repeat' first
    | intro _
    | with_reducible assumption
    | with_reducible apply ok_ite
    | with_reducible apply State.mstStart_ok
    | with_reducible apply State.mstStop_ok
    | with_reducible apply State.mstAbort_ok
    | with_reducible apply State.mstClrCnt_ok
    | with_reducible apply State.mstReject_ok
    | dsimp only
    | split

theorem State.mstEngineReset_ok {q : List Instr} (a0 : State) (h0 : State.Ok q a0) : State.Ok q (State.mstEngineReset a0) := by
  unfold State.mstEngineReset
  repeat' first
    | intro _
    | with_reducible assumption
    | with_reducible apply ok_ite
    | with_reducible apply State.streamCut_ok
    | with_reducible apply State.wr_ok
    | with_reducible apply State.mstStop_ok
    | dsimp only
    | split
    | (rw [ok_mk_iff]; refine ⟨?_, ?_, ?_, ?_⟩)
    | with_reducible refine State.Ok.pending ?_
    | with_reducible apply State.Ok.m
    | with_reducible apply State.Ok.c
    | with_reducible apply State.Ok.r

theorem State.mstHostReset_ok {q : List Instr} (a0 : State) (h0 : State.Ok q a0) : State.Ok q (State.mstHostReset a0) := by
  unfold State.mstHostReset
  repeat' first
    | intro _
    | with_reducible assumption
    | with_reducible apply ok_ite
    | with_reducible apply State.streamCut_ok
    | with_reducible apply State.jobOver_ok
    | dsimp only
    | split

end Sys2Proof.Machine
end

