-- ==== Sys2Proof/Laws/OkMiller.lean ====
section
/-! SUPPORT. What the operations of Machine/Miller.lean keep: the canonical form of the state and its queue. -/

namespace Sys2Proof.Machine

theorem State.milEvt_ok {q : List Instr} (a0 : State) (a1) (h0 : State.Ok q a0) : State.Ok q (State.milEvt a0 a1) := by
  unfold State.milEvt
  repeat' first
    | intro _
    | with_reducible assumption
    | with_reducible apply ok_ite
    | with_reducible apply State.raiseB_ok
    | dsimp only

theorem State.milReject_ok {q : List Instr} (a0 : State) (a1) (h0 : State.Ok q a0) : State.Ok q (State.milReject a0 a1) := by
  unfold State.milReject
  repeat' first
    | intro _
    | with_reducible assumption
    | with_reducible apply ok_ite
    | with_reducible apply State.rejMark_ok
    | with_reducible apply State.milEvt_ok
    | dsimp only

theorem State.coreTrap_ok {q : List Instr} (a0 : State) (a1) (a2) (h0 : State.Ok q a0) : State.Ok q (State.coreTrap a0 a1 a2) := by
  unfold State.coreTrap
  repeat' first
    | intro _
    | with_reducible assumption
    | with_reducible apply ok_ite
    | with_reducible apply State.wr_ok
    | with_reducible apply State.answer_ok
    | dsimp only

theorem State.coreDone_ok {q : List Instr} (a0 : State) (a1) (a2) (a3) (a4) (a5) (a6) (h0 : State.Ok q a0) : State.Ok q (State.coreDone a0 a1 a2 a3 a4 a5 a6) := by
  unfold State.coreDone
  repeat' first
    | intro _
    | with_reducible assumption
    | with_reducible apply ok_ite
    | with_reducible apply State.cacheStore_ok
    | with_reducible apply State.answer_ok
    | with_reducible apply State.wr_ok
    | dsimp only
    | split

theorem State.coreCached_ok {q : List Instr} (a0 : State) (a1) (a2) (a3) (a4) (a5) (a6) (h0 : State.Ok q a0) : State.Ok q (State.coreCached a0 a1 a2 a3 a4 a5 a6) := by
  unfold State.coreCached
  repeat' first
    | intro _
    | with_reducible assumption
    | with_reducible apply ok_ite
    | with_reducible apply State.linesFor_ok
    | with_reducible refine State.linesFor_okE (by assumption) ?_
    | with_reducible apply State.coreDone_ok
    | with_reducible apply State.answer_ok
    | with_reducible apply State.coreTrap_ok
    | dsimp only
    | split

theorem State.coreMayWrite_ok {q : List Instr} (a0 : State) (a1) (a2) {t} (h0 : State.Ok q a0) (e : State.coreMayWrite a0 a1 a2 = some t) : State.Ok q t := by
  unfold State.coreMayWrite at e
  dsimp only at e
  split at e
  · exact ok_some h0 e
  · exact State.guard_ok _ _ _ _ _ h0 e

theorem State.fetchLines_ok {q : List Instr} (a0 : State) (a1) (a2) (a3) (h0 : State.Ok q a0) : State.Ok q (State.fetchLines a0 a1 a2 a3).2.2 := by
  unfold State.fetchLines
  refine ok_foldl3 ?_ h0
  intro acc l h
  split
  · exact h
  · have k := State.lineFor_ok acc.2.2 a3 l h
    split
    · rename_i d u e
      rw [e] at k
      have k2 := State.l1iRoom_ok u a1 k
      exact ok_mk k2.1 k2.m k2.c k2.r
    · rename_i e; rw [e] at k; exact k

theorem State.fetchLines_okE {q : List Instr} {a0 : State} {a1} {a2} {a3} {b c t} (e : State.fetchLines a0 a1 a2 a3 = (b, c, t)) (h0 : State.Ok q a0) : State.Ok q t := by
  have := State.fetchLines_ok a0 a1 a2 a3 h0
  rw [e] at this; exact this

theorem State.fetched_ok {q : List Instr} (a0 : State) (a1) (a2) (a3) (a4) (h0 : State.Ok q a0) : State.Ok q (State.fetched a0 a1 a2 a3 a4) := by
  unfold State.fetched
  repeat' first
    | intro _
    | with_reducible assumption
    | with_reducible apply ok_ite
    | with_reducible apply State.wrIf_ok
    | with_reducible apply State.answer_ok
    | dsimp only

theorem State.coreFetch_ok {q : List Instr} (a0 : State) (a1) (a2) (a3) (a4) (h0 : State.Ok q a0) : State.Ok q (State.coreFetch a0 a1 a2 a3 a4) := by
  unfold State.coreFetch
  repeat' first
    | intro _
    | with_reducible assumption
    | with_reducible apply ok_ite
    | with_reducible apply State.fetchLines_ok
    | with_reducible refine State.fetchLines_okE (by assumption) ?_
    | with_reducible apply State.fetched_ok
    | with_reducible apply State.answer_ok
    | with_reducible apply State.coreTrap_ok
    | dsimp only
    | split

theorem State.fenceI_ok {q : List Instr} (a0 : State) (a1) (h0 : State.Ok q a0) : State.Ok q (State.fenceI a0 a1) := by
  unfold State.fenceI
  repeat' first
    | intro _
    | with_reducible assumption
    | with_reducible apply ok_ite
    | dsimp only
    | (rw [ok_mk_iff]; refine ⟨?_, ?_, ?_, ?_⟩)
    | with_reducible refine State.Ok.pending ?_
    | with_reducible apply State.Ok.m
    | with_reducible apply State.Ok.c
    | with_reducible apply State.Ok.r

theorem State.coreIo_ok {q : List Instr} (a0 : State) (a1) (a2) (a3) (a4) (a5) (h0 : State.Ok q a0) : State.Ok q (State.coreIo a0 a1 a2 a3 a4 a5) := by
  unfold State.coreIo
  repeat' first
    | intro _
    | with_reducible assumption
    | with_reducible apply ok_ite
    | with_reducible apply State.coreTrap_ok
    | with_reducible apply State.answer_ok
    | with_reducible apply State.issue_ok
    | dsimp only
    | split

theorem execCoreMemoryAccess_ok {q : List Instr} (a0) (a1) (a2) (a3) (a4) (a5) (a6) (a7) (a8) (a9 : State) (h9 : State.Ok q a9) : OutOk q (execCoreMemoryAccess a0 a1 a2 a3 a4 a5 a6 a7 a8 a9) := by
  unfold execCoreMemoryAccess
  repeat' first
    | with_reducible apply out_next
    | with_reducible apply out_ite
    | intro _
    | with_reducible assumption
    | with_reducible apply ok_ite
    | with_reducible apply State.answer_ok
    | with_reducible apply State.each_ok
    | with_reducible apply State.giveUp_ok
    | with_reducible apply State.fenceI_ok
    | with_reducible apply State.coreTrap_ok
    | with_reducible apply State.coreIo_ok
    | with_reducible apply State.coreFetch_ok
    | with_reducible apply State.coreCached_ok
    | with_reducible refine State.coreMayWrite_ok _ _ _ ?_ (by assumption)
    | dsimp only
    | split

theorem State.cmoCmd_ok {q : List Instr} (a0 : State) (a1) (h0 : State.Ok q a0) : State.Ok q (State.cmoCmd a0 a1) := by
  unfold State.cmoCmd
  repeat' first
    | intro _
    | with_reducible assumption
    | with_reducible apply ok_ite
    | with_reducible apply State.milReject_ok
    | with_reducible apply State.wr_ok
    | dsimp only
    | split

theorem execMilCmoClean_ok {q : List Instr} (a0 : State) (h0 : State.Ok q a0) : OutOk q (execMilCmoClean a0) := by
  unfold execMilCmoClean
  repeat' first
    | with_reducible apply out_next
    | with_reducible apply out_ite
    | intro _
    | with_reducible assumption
    | with_reducible apply ok_ite
    | with_reducible apply State.cmoCmd_ok
    | dsimp only

theorem execMilCmoInval_ok {q : List Instr} (a0 : State) (h0 : State.Ok q a0) : OutOk q (execMilCmoInval a0) := by
  unfold execMilCmoInval
  repeat' first
    | with_reducible apply out_next
    | with_reducible apply out_ite
    | intro _
    | with_reducible assumption
    | with_reducible apply ok_ite
    | with_reducible apply State.cmoCmd_ok
    | dsimp only

theorem execMilCmoFlush_ok {q : List Instr} (a0 : State) (h0 : State.Ok q a0) : OutOk q (execMilCmoFlush a0) := by
  unfold execMilCmoFlush
  repeat' first
    | with_reducible apply out_next
    | with_reducible apply out_ite
    | intro _
    | with_reducible assumption
    | with_reducible apply ok_ite
    | with_reducible apply State.cmoCmd_ok
    | dsimp only

theorem State.cacheDrop_ok {q : List Instr} (a0 : State) (a1) (a2) (h0 : State.Ok q a0) : State.Ok q (State.cacheDrop a0 a1 a2) := by
  unfold State.cacheDrop
  repeat' first
    | intro _
    | with_reducible assumption
    | with_reducible apply ok_ite
    | dsimp only
    | (rw [ok_mk_iff]; refine ⟨?_, ?_, ?_, ?_⟩)
    | with_reducible refine State.Ok.pending ?_
    | with_reducible apply State.Ok.m
    | with_reducible apply State.Ok.c
    | with_reducible apply State.Ok.r

theorem execCmoDone_ok {q : List Instr} (a0 : State) (h0 : State.Ok q a0) : OutOk q (execCmoDone a0) := by
  unfold execCmoDone
  repeat' first
    | with_reducible apply out_next
    | with_reducible apply out_ite
    | intro _
    | with_reducible assumption
    | with_reducible apply ok_ite
    | with_reducible apply State.each_ok
    | with_reducible apply State.cleanLine_ok
    | with_reducible apply State.answer_ok
    | with_reducible apply State.cacheDrop_ok
    | with_reducible apply State.wr_ok
    | dsimp only
    | split

theorem State.semHalted_ok {q : List Instr} (a0 : State) (a1) (a2) (h0 : State.Ok q a0) : State.Ok q (State.semHalted a0 a1 a2) := by
  unfold State.semHalted
  repeat' first
    | intro _
    | with_reducible assumption
    | with_reducible apply ok_ite
    | with_reducible apply State.each_ok
    | with_reducible apply State.wrIf_ok
    | dsimp only

theorem State.supPause_ok {q : List Instr} (a0 : State) (h0 : State.Ok q a0) : State.Ok q (State.supPause a0) := by
  unfold State.supPause
  repeat' first
    | intro _
    | with_reducible assumption
    | with_reducible apply ok_ite
    | with_reducible apply State.wr_ok
    | with_reducible apply State.wrIf_ok
    | dsimp only
    | split

theorem State.dbgEvt_ok {q : List Instr} (a0 : State) (a1) (h0 : State.Ok q a0) : State.Ok q (State.dbgEvt a0 a1) := by
  unfold State.dbgEvt
  repeat' first
    | intro _
    | with_reducible assumption
    | with_reducible apply ok_ite
    | with_reducible apply State.raiseB_ok
    | dsimp only

theorem State.coreHalt_ok {q : List Instr} (a0 : State) (a1) (a2) (a3) (h0 : State.Ok q a0) : State.Ok q (State.coreHalt a0 a1 a2 a3) := by
  unfold State.coreHalt
  repeat' first
    | intro _
    | with_reducible assumption
    | with_reducible apply ok_ite
    | with_reducible apply State.wr_ok
    | with_reducible apply State.setB_ok
    | with_reducible apply State.semHalted_ok
    | with_reducible apply State.supPause_ok
    | with_reducible apply State.dbgEvt_ok
    | dsimp only
    | split

theorem State.setFifo_ok {q : List Instr} (a0 : State) (a1) (a2) (h0 : State.Ok q a0) : State.Ok q (State.setFifo a0 a1 a2) := by
  unfold State.setFifo
  repeat' first
    | intro _
    | with_reducible assumption
    | with_reducible apply ok_ite
    | with_reducible apply State.wr_ok
    | dsimp only
    | split
    | (rw [ok_mk_iff]; refine ⟨?_, ?_, ?_, ?_⟩)
    | with_reducible refine State.Ok.pending ?_
    | with_reducible apply State.Ok.m
    | with_reducible apply State.Ok.c
    | with_reducible apply State.Ok.r

theorem State.milLevels_ok {q : List Instr} (a0 : State) (h0 : State.Ok q a0) : State.Ok q (State.milLevels a0) := by
  unfold State.milLevels
  repeat' first
    | intro _
    | with_reducible assumption
    | with_reducible apply ok_ite
    | with_reducible apply State.each_ok
    | with_reducible apply State.milEvt_ok
    | dsimp only
    | split

theorem State.uartKick_ok {q : List Instr} (a0 : State) (a1) (h0 : State.Ok q a0) : State.Ok q (State.uartKick a0 a1) := by
  unfold State.uartKick
  repeat' first
    | intro _
    | with_reducible assumption
    | with_reducible apply ok_ite
    | with_reducible apply State.wrIf_ok
    | dsimp only

theorem State.uartWrite_ok {q : List Instr} (a0 : State) (a1) (a2) (h0 : State.Ok q a0) : State.Ok q (State.uartWrite a0 a1 a2) := by
  unfold State.uartWrite
  repeat' first
    | intro _
    | with_reducible assumption
    | with_reducible apply ok_ite
    | with_reducible apply State.wr_ok
    | with_reducible apply State.milLevels_ok
    | with_reducible apply State.setFifo_ok
    | with_reducible apply State.uartKick_ok
    | dsimp only
    | split

theorem execUartTxWrite_ok {q : List Instr} (a0) (a1) (a2 : State) (h2 : State.Ok q a2) : OutOk q (execUartTxWrite a0 a1 a2) := by
  unfold execUartTxWrite
  repeat' first
    | with_reducible apply out_next
    | with_reducible apply out_ite
    | intro _
    | with_reducible assumption
    | with_reducible apply ok_ite
    | with_reducible apply State.uartWrite_ok
    | dsimp only

theorem execUartTxCharacter_ok {q : List Instr} (a0) (a1 : State) (h1 : State.Ok q a1) : OutOk q (execUartTxCharacter a0 a1) := by
  unfold execUartTxCharacter
  repeat' first
    | with_reducible apply out_next
    | with_reducible apply out_ite
    | intro _
    | with_reducible assumption
    | with_reducible apply ok_ite
    | with_reducible apply State.wr_ok
    | with_reducible apply State.setFifo_ok
    | with_reducible apply State.emitPins_ok
    | with_reducible apply State.uartKick_ok
    | dsimp only
    | split

theorem execUartRxByte_ok {q : List Instr} (a0) (a1) (a2 : State) (h2 : State.Ok q a2) : OutOk q (execUartRxByte a0 a1 a2) := by
  unfold execUartRxByte
  repeat' first
    | with_reducible apply out_next
    | with_reducible apply out_ite
    | intro _
    | with_reducible assumption
    | with_reducible apply ok_ite
    | with_reducible apply State.wr_ok
    | with_reducible apply State.setFifo_ok
    | with_reducible apply State.milLevels_ok
    | dsimp only
    | split

theorem State.uartRead_ok {q : List Instr} (a0 : State) (a1) (a2) (h0 : State.Ok q a0) : State.Ok q (State.uartRead a0 a1 a2).2 := by
  unfold State.uartRead
  repeat' first
    | intro _
    | with_reducible assumption
    | with_reducible apply ok_ite
    | dsimp only
    | with_reducible apply State.fresh_ok
    | with_reducible refine State.fresh_okE (by assumption) ?_
    | with_reducible apply State.setFifo_ok
    | with_reducible apply State.milLevels_ok
    | split

theorem State.uartRead_okE {q : List Instr} {a0 : State} {a1} {a2} {b t} (e : State.uartRead a0 a1 a2 = (b, t)) (h0 : State.Ok q a0) : State.Ok q t := by
  have := State.uartRead_ok a0 a1 a2 h0
  rw [e] at this; exact this

theorem execUartRxRead_ok {q : List Instr} (a0) (a1 : State) (h1 : State.Ok q a1) : OutOk q (execUartRxRead a0 a1) := by
  unfold execUartRxRead
  repeat' first
    | with_reducible apply out_next
    | with_reducible apply out_ite
    | intro _
    | with_reducible assumption
    | with_reducible apply ok_ite
    | with_reducible apply State.uartRead_ok
    | with_reducible refine State.uartRead_okE (by assumption) ?_
    | with_reducible apply State.answer_ok
    | dsimp only

theorem State.mbSend_ok {q : List Instr} (a0 : State) (a1) (a2) (h0 : State.Ok q a0) : State.Ok q (State.mbSend a0 a1 a2) := by
  unfold State.mbSend
  repeat' first
    | intro _
    | with_reducible assumption
    | with_reducible apply ok_ite
    | with_reducible apply State.wr_ok
    | with_reducible apply State.setFifo_ok
    | with_reducible apply State.milLevels_ok
    | dsimp only
    | split

theorem execMbSend_ok {q : List Instr} (a0) (a1) (a2 : State) (h2 : State.Ok q a2) : OutOk q (execMbSend a0 a1 a2) := by
  unfold execMbSend
  repeat' first
    | with_reducible apply out_next
    | with_reducible apply out_ite
    | intro _
    | with_reducible assumption
    | with_reducible apply ok_ite
    | with_reducible apply State.mbSend_ok
    | dsimp only

theorem State.mbRecv_ok {q : List Instr} (a0 : State) (a1) (a2) (h0 : State.Ok q a0) : State.Ok q (State.mbRecv a0 a1 a2).2 := by
  unfold State.mbRecv
  repeat' first
    | intro _
    | with_reducible assumption
    | with_reducible apply ok_ite
    | dsimp only
    | with_reducible apply State.setFifo_ok
    | with_reducible apply State.milLevels_ok
    | split

theorem State.mbRecv_okE {q : List Instr} {a0 : State} {a1} {a2} {b t} (e : State.mbRecv a0 a1 a2 = (b, t)) (h0 : State.Ok q a0) : State.Ok q t := by
  have := State.mbRecv_ok a0 a1 a2 h0
  rw [e] at this; exact this

theorem execMbRecv_ok {q : List Instr} (a0) (a1 : State) (h1 : State.Ok q a1) : OutOk q (execMbRecv a0 a1) := by
  unfold execMbRecv
  repeat' first
    | with_reducible apply out_next
    | with_reducible apply out_ite
    | intro _
    | with_reducible assumption
    | with_reducible apply ok_ite
    | with_reducible apply State.mbRecv_ok
    | with_reducible refine State.mbRecv_okE (by assumption) ?_
    | with_reducible apply State.answer_ok
    | dsimp only

theorem State.semTake_ok {q : List Instr} (a0 : State) (a1) (a2) (h0 : State.Ok q a0) : State.Ok q (State.semTake a0 a1 a2) := by
  unfold State.semTake
  repeat' first
    | intro _
    | with_reducible assumption
    | with_reducible apply ok_ite
    | with_reducible apply State.wr_ok
    | dsimp only
    | split

theorem State.semFree_ok {q : List Instr} (a0 : State) (a1) (h0 : State.Ok q a0) : State.Ok q (State.semFree a0 a1) := by
  unfold State.semFree
  repeat' first
    | intro _
    | with_reducible assumption
    | with_reducible apply ok_ite
    | with_reducible apply State.wr_ok
    | dsimp only

theorem State.semGive_ok {q : List Instr} (a0 : State) (a1) (a2) (h0 : State.Ok q a0) : State.Ok q (State.semGive a0 a1 a2) := by
  unfold State.semGive
  repeat' first
    | intro _
    | with_reducible assumption
    | with_reducible apply ok_ite
    | with_reducible apply State.semFree_ok
    | with_reducible apply State.wr_ok
    | dsimp only
    | split

theorem State.semForce_ok {q : List Instr} (a0 : State) (a1) (a2) (h0 : State.Ok q a0) : State.Ok q (State.semForce a0 a1 a2) := by
  unfold State.semForce
  repeat' first
    | intro _
    | with_reducible assumption
    | with_reducible apply ok_ite
    | with_reducible apply State.semFree_ok
    | dsimp only
    | split

theorem execSemTake_ok {q : List Instr} (a0) (a1) (a2 : State) (h2 : State.Ok q a2) : OutOk q (execSemTake a0 a1 a2) := by
  unfold execSemTake
  repeat' first
    | with_reducible apply out_next
    | with_reducible apply out_ite
    | intro _
    | with_reducible assumption
    | with_reducible apply ok_ite
    | with_reducible apply State.semTake_ok
    | dsimp only

theorem execSemGive_ok {q : List Instr} (a0) (a1) (a2 : State) (h2 : State.Ok q a2) : OutOk q (execSemGive a0 a1 a2) := by
  unfold execSemGive
  repeat' first
    | with_reducible apply out_next
    | with_reducible apply out_ite
    | intro _
    | with_reducible assumption
    | with_reducible apply ok_ite
    | with_reducible apply State.semGive_ok
    | dsimp only

theorem execSemForce_ok {q : List Instr} (a0) (a1) (a2 : State) (h2 : State.Ok q a2) : OutOk q (execSemForce a0 a1 a2) := by
  unfold execSemForce
  repeat' first
    | with_reducible apply out_next
    | with_reducible apply out_ite
    | intro _
    | with_reducible assumption
    | with_reducible apply ok_ite
    | with_reducible apply State.semForce_ok
    | dsimp only

theorem State.coreReset_ok {q : List Instr} (a0 : State) (a1) (h0 : State.Ok q a0) : State.Ok q (State.coreReset a0 a1) := by
  unfold State.coreReset
  repeat' first
    | intro _
    | with_reducible assumption
    | with_reducible apply ok_ite
    | with_reducible apply State.each_ok
    | with_reducible apply State.semFree_ok
    | with_reducible apply State.wr_ok
    | with_reducible apply State.fenceI_ok
    | with_reducible apply State.clr_ok
    | with_reducible apply State.discardMaster_ok
    | with_reducible apply State.clrB_ok
    | with_reducible apply State.supPause_ok
    | with_reducible apply State.uartKick_ok
    | with_reducible apply State.milLevels_ok
    | with_reducible apply ok_foldl
    | with_reducible apply ok_foldl2
    | with_reducible apply ok_foldl3
    | dsimp only
    | split
    | (rw [ok_mk_iff]; refine ⟨?_, ?_, ?_, ?_⟩)
    | with_reducible refine State.Ok.pending ?_
    | with_reducible apply State.Ok.m
    | with_reducible apply State.Ok.c
    | with_reducible apply State.Ok.r

theorem execCoreTimerIrq_ok {q : List Instr} (a0) (a1 : State) (h1 : State.Ok q a1) : OutOk q (execCoreTimerIrq a0 a1) := by
  unfold execCoreTimerIrq
  repeat' first
    | with_reducible apply out_next
    | with_reducible apply out_ite
    | intro _
    | with_reducible assumption
    | with_reducible apply ok_ite
    | with_reducible apply State.wr_ok
    | with_reducible apply State.wrIf_ok
    | dsimp only
    | split

theorem State.wdgKick_ok {q : List Instr} (a0 : State) (a1) (a2) (h0 : State.Ok q a0) : State.Ok q (State.wdgKick a0 a1 a2) := by
  unfold State.wdgKick
  repeat' first
    | intro _
    | with_reducible assumption
    | with_reducible apply ok_ite
    | with_reducible apply State.wr_ok
    | dsimp only
    | split

theorem execWdgKick_ok {q : List Instr} (a0) (a1) (a2 : State) (h2 : State.Ok q a2) : OutOk q (execWdgKick a0 a1 a2) := by
  unfold execWdgKick
  repeat' first
    | with_reducible apply out_next
    | with_reducible apply out_ite
    | intro _
    | with_reducible assumption
    | with_reducible apply ok_ite
    | with_reducible apply State.wdgKick_ok
    | dsimp only

theorem State.wdgCfgDone_ok {q : List Instr} (a0 : State) (a1 : State) (a2) (h0 : State.Ok q a0) (h1 : State.Ok q a1) : State.Ok q (State.wdgCfgDone a0 a1 a2) := by
  unfold State.wdgCfgDone
  repeat' first
    | intro _
    | with_reducible assumption
    | with_reducible apply ok_ite
    | with_reducible apply State.wr_ok
    | dsimp only
    | split

theorem execWdgExpire_ok {q : List Instr} (a0) (a1 : State) (h1 : State.Ok q a1) : OutOk q (execWdgExpire a0 a1) := by
  unfold execWdgExpire
  repeat' first
    | with_reducible apply out_next
    | with_reducible apply out_ite
    | intro _
    | with_reducible assumption
    | with_reducible apply ok_ite
    | with_reducible apply State.wr_ok
    | with_reducible apply State.milEvt_ok
    | with_reducible apply State.journal_ok
    | with_reducible apply State.coreReset_ok
    | dsimp only
    | split

theorem State.fwBytes_ok {q : List Instr} (a0 : State) (a1) (a2) (h0 : State.Ok q a0) : State.Ok q (State.fwBytes a0 a1 a2).2.2 := by
  unfold State.fwBytes
  repeat' first
    | intro _
    | with_reducible assumption
    | with_reducible apply ok_ite
    | dsimp only
    | with_reducible apply State.coRead_ok
    | with_reducible refine State.coRead_okE (by assumption) ?_
    | split

theorem State.fwBytes_okE {q : List Instr} {a0 : State} {a1} {a2} {b c t} (e : State.fwBytes a0 a1 a2 = (b, c, t)) (h0 : State.Ok q a0) : State.Ok q t := by
  have := State.fwBytes_ok a0 a1 a2 h0
  rw [e] at this; exact this

theorem State.fwLoad_ok {q : List Instr} (a0 : State) (a1) (a2) (a3) (h0 : State.Ok q a0) : State.Ok q (State.fwLoad a0 a1 a2 a3) := by
  unfold State.fwLoad
  repeat' first
    | intro _
    | with_reducible assumption
    | with_reducible apply ok_ite
    | with_reducible apply State.milReject_ok
    | with_reducible apply State.wr_ok
    | with_reducible apply State.fwBytes_ok
    | with_reducible refine State.fwBytes_okE (by assumption) ?_
    | dsimp only
    | split

theorem execMilLoadSlot_ok {q : List Instr} (a0) (a1 : State) (h1 : State.Ok q a1) : OutOk q (execMilLoadSlot a0 a1) := by
  unfold execMilLoadSlot
  repeat' first
    | with_reducible apply out_next
    | with_reducible apply out_ite
    | intro _
    | with_reducible assumption
    | with_reducible apply ok_ite
    | with_reducible apply State.fwLoad_ok
    | dsimp only

theorem execMilLoadMem_ok {q : List Instr} (a0 : State) (h0 : State.Ok q a0) : OutOk q (execMilLoadMem a0) := by
  unfold execMilLoadMem
  repeat' first
    | with_reducible apply out_next
    | with_reducible apply out_ite
    | intro _
    | with_reducible assumption
    | with_reducible apply ok_ite
    | with_reducible apply State.fwLoad_ok
    | dsimp only

theorem State.coreStart_ok {q : List Instr} (a0 : State) (a1) (h0 : State.Ok q a0) : State.Ok q (State.coreStart a0 a1) := by
  unfold State.coreStart
  repeat' first
    | intro _
    | with_reducible assumption
    | with_reducible apply ok_ite
    | with_reducible apply State.wr_ok
    | with_reducible apply State.fwLoad_ok
    | with_reducible apply State.coreHalt_ok
    | dsimp only
    | split

theorem State.milStart_ok {q : List Instr} (a0 : State) (a1) (h0 : State.Ok q a0) : State.Ok q (State.milStart a0 a1) := by
  unfold State.milStart
  repeat' first
    | intro _
    | with_reducible assumption
    | with_reducible apply ok_ite
    | with_reducible apply State.each_ok
    | with_reducible apply State.coreStart_ok
    | with_reducible apply State.milReject_ok
    | dsimp only
    | split

theorem execMilStart_ok {q : List Instr} (a0) (a1 : State) (h1 : State.Ok q a1) : OutOk q (execMilStart a0 a1) := by
  unfold execMilStart
  repeat' first
    | with_reducible apply out_next
    | with_reducible apply out_ite
    | intro _
    | with_reducible assumption
    | with_reducible apply ok_ite
    | with_reducible apply State.milStart_ok
    | dsimp only

theorem State.milResetCores_ok {q : List Instr} (a0 : State) (a1) (h0 : State.Ok q a0) : State.Ok q (State.milResetCores a0 a1) := by
  unfold State.milResetCores
  repeat' first
    | intro _
    | with_reducible assumption
    | with_reducible apply ok_ite
    | with_reducible apply State.milReject_ok
    | with_reducible apply State.each_ok
    | with_reducible apply State.coreReset_ok
    | dsimp only
    | split

theorem execMilResetCores_ok {q : List Instr} (a0) (a1 : State) (h1 : State.Ok q a1) : OutOk q (execMilResetCores a0 a1) := by
  unfold execMilResetCores
  repeat' first
    | with_reducible apply out_next
    | with_reducible apply out_ite
    | intro _
    | with_reducible assumption
    | with_reducible apply ok_ite
    | with_reducible apply State.milResetCores_ok
    | dsimp only

theorem State.fwFail_ok {q : List Instr} (a0 : State) (a1) (h0 : State.Ok q a0) : State.Ok q (State.fwFail a0 a1) := by
  unfold State.fwFail
  repeat' first
    | intro _
    | with_reducible assumption
    | with_reducible apply ok_ite
    | with_reducible apply State.coWrite_ok
    | with_reducible refine State.coWrite_okE (by assumption) ?_
    | with_reducible apply State.wr_ok
    | with_reducible apply State.milEvt_ok
    | dsimp only
    | split

theorem State.fwPass_ok {q : List Instr} (a0 : State) (a1) (h0 : State.Ok q a0) : State.Ok q (State.fwPass a0 a1) := by
  unfold State.fwPass
  repeat' first
    | intro _
    | with_reducible assumption
    | with_reducible apply ok_ite
    | with_reducible apply State.wr_ok
    | with_reducible apply State.fwLoad_ok
    | with_reducible apply State.cacheDrop_ok
    | with_reducible apply State.milEvt_ok
    | with_reducible apply State.milStart_ok
    | dsimp only
    | split

theorem execFwLoadDone_ok {q : List Instr} (a0) (a1) (a2) (a3 : State) (h3 : State.Ok q a3) : OutOk q (execFwLoadDone a0 a1 a2 a3) := by
  unfold execFwLoadDone
  repeat' first
    | with_reducible apply out_next
    | with_reducible apply out_ite
    | intro _
    | with_reducible assumption
    | with_reducible apply ok_ite
    | with_reducible apply State.fwFail_ok
    | with_reducible apply State.dahReadErr_ok
    | with_reducible apply State.fwBytes_ok
    | with_reducible refine State.fwBytes_okE (by assumption) ?_
    | with_reducible apply State.answer_ok
    | with_reducible apply State.wr_ok
    | with_reducible apply State.coWrite_ok
    | with_reducible refine State.coWrite_okE (by assumption) ?_
    | with_reducible apply State.fwPass_ok
    | dsimp only
    | split

theorem State.milCmd_ok {q : List Instr} (a0 : State) (a1) (a2) (a3) (h0 : State.Ok q a0) : State.Ok q (State.milCmd a0 a1 a2 a3) := by
  unfold State.milCmd
  repeat' first
    | intro _
    | with_reducible assumption
    | with_reducible apply ok_ite
    | with_reducible apply State.fwLoad_ok
    | with_reducible apply State.milStart_ok
    | with_reducible apply State.milResetCores_ok
    | with_reducible apply State.cmoCmd_ok
    | with_reducible apply State.milReject_ok
    | dsimp only
    | split

theorem State.milEngineReset_ok {q : List Instr} (a0 : State) (h0 : State.Ok q a0) : State.Ok q (State.milEngineReset a0) := by
  unfold State.milEngineReset
  repeat' first
    | intro _
    | with_reducible assumption
    | with_reducible apply ok_ite
    | with_reducible apply State.each_ok
    | with_reducible apply State.coreReset_ok
    | dsimp only

end Sys2Proof.Machine
end

