-- ==== Sys2Proof/Laws/OkStream.lean ====
section
/-! SUPPORT. What the operations of Machine/Stream.lean keep: the canonical form of the state and its queue. -/

namespace Sys2Proof.Machine

theorem State.cfgEvt_ok {q : List Instr} (a0 : State) (a1) (h0 : State.Ok q a0) : State.Ok q (State.cfgEvt a0 a1) := by
  unfold State.cfgEvt
  repeat' first
    | intro _
    | with_reducible assumption
    | with_reducible apply ok_ite
    | with_reducible apply State.raiseB_ok
    | dsimp only
    | split

theorem State.cfgReject_ok {q : List Instr} (a0 : State) (a1) (h0 : State.Ok q a0) : State.Ok q (State.cfgReject a0 a1) := by
  unfold State.cfgReject
  repeat' first
    | intro _
    | with_reducible assumption
    | with_reducible apply ok_ite
    | with_reducible apply State.rejMark_ok
    | with_reducible apply State.cfgEvt_ok
    | dsimp only

theorem State.abortIsland_ok {q : List Instr} (a0) (a1 : State) (h1 : State.Ok q a1) : State.Ok q (State.abortIsland a0 a1) := by
  unfold State.abortIsland
  repeat' first
    | intro _
    | with_reducible assumption
    | with_reducible apply ok_ite
    | with_reducible apply State.wr_ok
    | dsimp only
    | split

theorem State.cfgForget_ok {q : List Instr} (a0 : State) (h0 : State.Ok q a0) : State.Ok q (State.cfgForget a0) := by
  unfold State.cfgForget
  repeat' first
    | intro _
    | with_reducible assumption
    | with_reducible apply ok_ite
    | with_reducible apply State.wr_ok
    | dsimp only
    | (rw [ok_mk_iff]; refine ⟨?_, ?_, ?_, ?_⟩)
    | with_reducible refine State.Ok.pending ?_
    | with_reducible apply State.Ok.m
    | with_reducible apply State.Ok.c
    | with_reducible apply State.Ok.r

theorem State.cfgAbort_ok {q : List Instr} (a0 : State) (a1) (h0 : State.Ok q a0) : State.Ok q (State.cfgAbort a0 a1) := by
  unfold State.cfgAbort
  repeat' first
    | intro _
    | with_reducible assumption
    | with_reducible apply ok_ite
    | with_reducible apply State.wr_ok
    | with_reducible apply State.each_ok
    | with_reducible apply State.abortIsland_ok
    | with_reducible apply State.cfgForget_ok
    | with_reducible apply State.wrIf_ok
    | with_reducible apply State.cfgEvt_ok
    | dsimp only

theorem State.cfgFifoStat_ok {q : List Instr} (a0 : State) (h0 : State.Ok q a0) : State.Ok q (State.cfgFifoStat a0) := by
  unfold State.cfgFifoStat
  repeat' first
    | intro _
    | with_reducible assumption
    | with_reducible apply ok_ite
    | with_reducible apply State.wr_ok
    | with_reducible apply ok_match_opt
    | dsimp only
    | split
    | (rw [ok_mk_iff]; refine ⟨?_, ?_, ?_, ?_⟩)
    | with_reducible refine State.Ok.pending ?_
    | with_reducible apply State.Ok.m
    | with_reducible apply State.Ok.c
    | with_reducible apply State.Ok.r

theorem State.srcBytes_ok {q : List Instr} (a0 : State) (a1) {t} (h0 : State.Ok q a0) (e : State.srcBytes a0 a1 = some t) : State.Ok q t.2.2 := by
  unfold State.srcBytes at e
  dsimp only at e
  split at e
  · split at e
    · exact ok_some3 h0 e
    · exact ok_none3 e
  · exact ok_some3 h0 e
  · split at e
    · exact ok_some3 (State.wr_ok _ _ _ h0) e
    · exact ok_none3 e
  · split at e
    · split at e
      · exact ok_none3 e
      · exact ok_some3 (State.wr_ok _ _ _ (State.coRead_ok _ _ _ _ h0)) e
    · exact ok_none3 e
  · split at e
    · exact ok_some3 (State.cfgFifoStat_ok _ (ok_mk h0.1 h0.m h0.c h0.r)) e
    · exact ok_none3 e
  · exact ok_none3 e

theorem State.srcWords_ok {q : List Instr} (a0 : State) (a1) {t} (h0 : State.Ok q a0) (e : State.srcWords a0 a1 = some t) : State.Ok q t.2 := by
  unfold State.srcWords at e
  revert e
  repeat' first
    | with_reducible refine ok_none2
    | with_reducible refine ok_some2 ?_
    | with_reducible assumption
    | with_reducible apply ok_ite
    | with_reducible refine State.srcBytes_ok _ _ ?_ (by assumption)
    | with_reducible apply State.add_ok
    | dsimp only
    | split
    | intro _

theorem State.takeWords_ok {q : List Instr} (a0 : State) (a1) {t} (h0 : State.Ok q a0) (e : State.takeWords a0 a1 = some t) : State.Ok q t.2 := by
  unfold State.takeWords at e
  dsimp only at e
  split at e
  · exact State.srcWords_ok _ _ h0 e
  · split at e
    · exact ok_none2 e
    · exact State.srcWords_ok _ _ (State.wrIf_ok _ _ _ _ (ok_mk h0.1 h0.m h0.c h0.r)) e

theorem State.cfgCrcAdd_ok {q : List Instr} (a0 : State) (a1) (h0 : State.Ok q a0) : State.Ok q (State.cfgCrcAdd a0 a1) := by
  unfold State.cfgCrcAdd
  repeat' first
    | intro _
    | with_reducible assumption
    | with_reducible apply ok_ite
    | with_reducible apply State.wr_ok
    | with_reducible apply ok_foldl
    | with_reducible apply ok_foldl2
    | with_reducible apply ok_foldl3
    | dsimp only

theorem State.packet_ok {q : List Instr} (a0 : State) (a1) (a2) (a3) (a4) (h0 : State.Ok q a0) (h4 : ∀ x0 t, State.Ok q t → State.Ok q (a4 x0 t)) : State.Ok q (State.packet a0 a1 a2 a3 a4) := by
  unfold State.packet
  repeat' first
    | intro _
    | with_reducible assumption
    | with_reducible apply ok_ite
    | with_reducible apply h4
    | with_reducible refine State.takeWords_ok _ _ ?_ (by assumption)
    | with_reducible apply State.dahReadErr_ok
    | with_reducible apply State.cfgAbort_ok
    | with_reducible apply State.cfgCrcAdd_ok
    | dsimp only
    | split

theorem State.legalIn_ok {q : List Instr} (a0 : State) (a1) (a2) (h0 : State.Ok q a0) (h2 : ∀ t, State.Ok q t → State.Ok q (a2 t)) : State.Ok q (State.legalIn a0 a1 a2) := by
  unfold State.legalIn
  repeat' first
    | intro _
    | with_reducible assumption
    | with_reducible apply ok_ite
    | with_reducible apply h2
    | with_reducible apply State.cfgAbort_ok
    | dsimp only
    | split

theorem execCfgSyncWord_ok {q : List Instr} (a0) (a1 : State) (h1 : State.Ok q a1) : OutOk q (execCfgSyncWord a0 a1) := by
  unfold execCfgSyncWord
  repeat' first
    | with_reducible apply out_next
    | with_reducible apply out_ite
    | intro _
    | with_reducible assumption
    | with_reducible apply ok_ite
    | with_reducible refine State.srcBytes_ok _ _ ?_ (by assumption)
    | with_reducible apply State.cfgForget_ok
    | with_reducible apply State.wr_ok
    | with_reducible apply State.each_ok
    | dsimp only
    | split

theorem execPktNoop_ok {q : List Instr} (a0 : State) (h0 : State.Ok q a0) : OutOk q (execPktNoop a0) := by
  unfold execPktNoop
  repeat' first
    | with_reducible apply out_next
    | with_reducible apply out_ite
    | intro _
    | with_reducible assumption
    | with_reducible apply ok_ite
    | with_reducible refine State.takeWords_ok _ _ ?_ (by assumption)
    | with_reducible apply State.cfgAbort_ok
    | with_reducible apply State.cfgCrcAdd_ok
    | dsimp only
    | split

theorem execPktCrc_ok {q : List Instr} (a0) (a1 : State) (h1 : State.Ok q a1) : OutOk q (execPktCrc a0 a1) := by
  unfold execPktCrc
  repeat' first
    | with_reducible apply out_next
    | with_reducible apply out_ite
    | intro _
    | with_reducible assumption
    | with_reducible apply ok_ite
    | with_reducible apply State.packet_ok
    | with_reducible apply State.cfgAbort_ok
    | dsimp only
    | split

theorem execPktIdcode_ok {q : List Instr} (a0) (a1 : State) (h1 : State.Ok q a1) : OutOk q (execPktIdcode a0 a1) := by
  unfold execPktIdcode
  repeat' first
    | with_reducible apply out_next
    | with_reducible apply out_ite
    | intro _
    | with_reducible assumption
    | with_reducible apply ok_ite
    | with_reducible apply State.packet_ok
    | with_reducible apply State.legalIn_ok
    | with_reducible apply State.wr_ok
    | with_reducible apply State.cfgAbort_ok
    | dsimp only
    | split

theorem execPktFar_ok {q : List Instr} (a0) (a1 : State) (h1 : State.Ok q a1) : OutOk q (execPktFar a0 a1) := by
  unfold execPktFar
  repeat' first
    | with_reducible apply out_next
    | with_reducible apply out_ite
    | intro _
    | with_reducible assumption
    | with_reducible apply ok_ite
    | with_reducible apply State.packet_ok
    | with_reducible apply State.legalIn_ok
    | with_reducible apply State.wr_ok
    | with_reducible apply State.cfgAbort_ok
    | dsimp only
    | split

theorem execPktStartup_ok {q : List Instr} (a0) (a1 : State) (h1 : State.Ok q a1) : OutOk q (execPktStartup a0 a1) := by
  unfold execPktStartup
  repeat' first
    | with_reducible apply out_next
    | with_reducible apply out_ite
    | intro _
    | with_reducible assumption
    | with_reducible apply ok_ite
    | with_reducible apply State.packet_ok
    | with_reducible apply State.cfgAbort_ok
    | with_reducible apply State.legalIn_ok
    | with_reducible apply State.wr_ok
    | dsimp only
    | split

theorem execPktRegion_ok {q : List Instr} (a0) (a1 : State) (h1 : State.Ok q a1) : OutOk q (execPktRegion a0 a1) := by
  unfold execPktRegion
  repeat' first
    | with_reducible apply out_next
    | with_reducible apply out_ite
    | intro _
    | with_reducible assumption
    | with_reducible apply ok_ite
    | with_reducible apply State.packet_ok
    | with_reducible apply State.cfgAbort_ok
    | with_reducible apply State.legalIn_ok
    | with_reducible apply State.each_ok
    | with_reducible apply State.wr_ok
    | with_reducible apply ok_match_opt
    | dsimp only
    | split

theorem execPktGsel_ok {q : List Instr} (a0) (a1 : State) (h1 : State.Ok q a1) : OutOk q (execPktGsel a0 a1) := by
  unfold execPktGsel
  repeat' first
    | with_reducible apply out_next
    | with_reducible apply out_ite
    | intro _
    | with_reducible assumption
    | with_reducible apply ok_ite
    | with_reducible apply State.packet_ok
    | with_reducible apply State.wr_ok
    | dsimp only

theorem execPktAuth_ok {q : List Instr} (a0) (a1 : State) (h1 : State.Ok q a1) : OutOk q (execPktAuth a0 a1) := by
  unfold execPktAuth
  repeat' first
    | with_reducible apply out_next
    | with_reducible apply out_ite
    | intro _
    | with_reducible assumption
    | with_reducible apply ok_ite
    | with_reducible apply State.packet_ok
    | with_reducible apply State.cfgAbort_ok
    | with_reducible apply State.legalIn_ok
    | with_reducible apply State.wr_ok
    | with_reducible apply ok_match_opt
    | dsimp only
    | split

theorem execPktEnc_ok {q : List Instr} (a0) (a1 : State) (h1 : State.Ok q a1) : OutOk q (execPktEnc a0 a1) := by
  unfold execPktEnc
  repeat' first
    | with_reducible apply out_next
    | with_reducible apply out_ite
    | intro _
    | with_reducible assumption
    | with_reducible apply ok_ite
    | with_reducible apply State.packet_ok
    | with_reducible apply State.count_ok
    | with_reducible apply State.cfgAbort_ok
    | with_reducible apply State.legalIn_ok
    | with_reducible apply State.wr_ok
    | with_reducible apply ok_match_opt
    | dsimp only
    | split

theorem execEncSegment_ok {q : List Instr} (a0) (a1) (a2 : State) (h2 : State.Ok q a2) : OutOk q (execEncSegment a0 a1 a2) := by
  unfold execEncSegment
  repeat' first
    | with_reducible apply out_next
    | with_reducible apply out_ite
    | intro _
    | with_reducible assumption
    | with_reducible apply ok_ite
    | with_reducible refine State.srcWords_ok _ _ ?_ (by assumption)
    | with_reducible apply State.cfgAbort_ok
    | with_reducible apply State.wr_ok
    | with_reducible apply ok_match_opt
    | dsimp only
    | split
    | (rw [ok_mk_iff]; refine ⟨?_, ?_, ?_, ?_⟩)
    | with_reducible refine State.Ok.pending ?_
    | with_reducible apply State.Ok.m
    | with_reducible apply State.Ok.c
    | with_reducible apply State.Ok.r

theorem State.frameRefused_ok {q : List Instr} (a0 : State) (a1) (a2) (h0 : State.Ok q a0) : State.Ok q (State.frameRefused a0 a1 a2) := by
  unfold State.frameRefused
  repeat' first
    | intro _
    | with_reducible assumption
    | with_reducible apply ok_ite
    | with_reducible apply State.wr_ok
    | with_reducible apply State.inc_ok
    | with_reducible apply State.cfgEvt_ok
    | dsimp only

theorem State.headerClock_ok {q : List Instr} (a0 : State) (a1) (a2) (h0 : State.Ok q a0) : State.Ok q (State.headerClock a0 a1 a2) := by
  unfold State.headerClock
  repeat' first
    | intro _
    | with_reducible assumption
    | with_reducible apply ok_ite
    | with_reducible apply State.wr_ok
    | with_reducible apply State.pairApply_ok
    | with_reducible apply State.clkSettle_ok
    | dsimp only
    | split

theorem State.frameStore_ok {q : List Instr} (a0 : State) (a1) (a2) (a3) (a4) (h0 : State.Ok q a0) : State.Ok q (State.frameStore a0 a1 a2 a3 a4) := by
  unfold State.frameStore
  repeat' first
    | intro _
    | with_reducible assumption
    | with_reducible apply ok_ite
    | with_reducible apply State.wr_ok
    | with_reducible apply State.setB_ok
    | with_reducible apply State.add_ok
    | with_reducible apply State.d2Clear_ok
    | with_reducible apply State.headerClock_ok
    | dsimp only
    | split

theorem State.farAdvance_ok {q : List Instr} (a0 : State) (h0 : State.Ok q a0) : State.Ok q (State.farAdvance a0) := by
  unfold State.farAdvance
  repeat' first
    | intro _
    | with_reducible assumption
    | with_reducible apply ok_ite
    | with_reducible apply State.wr_ok
    | dsimp only
    | split

theorem State.frameWrite_ok {q : List Instr} (a0 : State) (a1) (a2) (h0 : State.Ok q a0) : State.Ok q (State.frameWrite a0 a1 a2) := by
  unfold State.frameWrite
  repeat' first
    | intro _
    | with_reducible assumption
    | with_reducible apply ok_ite
    | with_reducible apply State.cfgAbort_ok
    | with_reducible apply State.farAdvance_ok
    | with_reducible apply State.clrB_ok
    | with_reducible apply State.frameRefused_ok
    | with_reducible apply State.wr_ok
    | with_reducible apply State.frameStore_ok
    | dsimp only
    | split

theorem State.fdriFrames_ok {q : List Instr} (a0 : State) (a1) (h0 : State.Ok q a0) : State.Ok q (State.fdriFrames a0 a1) := by
  unfold State.fdriFrames
  repeat' first
    | intro _
    | with_reducible assumption
    | with_reducible apply ok_ite
    | with_reducible apply State.each_ok
    | with_reducible apply State.frameWrite_ok
    | dsimp only

theorem execPktFdri_ok {q : List Instr} (a0) (a1) (a2 : State) (h2 : State.Ok q a2) : OutOk q (execPktFdri a0 a1 a2) := by
  unfold execPktFdri
  repeat' first
    | with_reducible apply out_next
    | with_reducible apply out_ite
    | intro _
    | with_reducible assumption
    | with_reducible apply ok_ite
    | with_reducible apply State.cfgAbort_ok
    | with_reducible apply State.cfgErrors_ok
    | with_reducible apply State.fdriFrames_ok
    | with_reducible apply State.wrIf_ok
    | with_reducible apply State.answer_ok
    | with_reducible apply State.packet_ok
    | with_reducible refine State.takeWords_ok _ _ ?_ (by assumption)
    | with_reducible apply State.cfgCrcAdd_ok
    | dsimp only
    | split

theorem execPktZdata_ok {q : List Instr} (a0) (a1) (a2 : State) (h2 : State.Ok q a2) : OutOk q (execPktZdata a0 a1 a2) := by
  unfold execPktZdata
  repeat' first
    | with_reducible apply out_next
    | with_reducible apply out_ite
    | intro _
    | with_reducible assumption
    | with_reducible apply ok_ite
    | with_reducible apply State.answer_ok
    | with_reducible apply State.packet_ok
    | with_reducible apply State.cfgAbort_ok
    | with_reducible apply State.each_ok
    | with_reducible apply State.frameWrite_ok
    | with_reducible apply State.cfgErrors_ok
    | dsimp only
    | split

theorem State.cmdPacket_ok {q : List Instr} (a0 : State) (a1) (a2) (a3) (h0 : State.Ok q a0) (h3 : ∀ t, State.Ok q t → State.Ok q (a3 t)) : State.Ok q (State.cmdPacket a0 a1 a2 a3) := by
  unfold State.cmdPacket
  repeat' first
    | intro _
    | with_reducible assumption
    | with_reducible apply ok_ite
    | with_reducible apply h3
    | with_reducible apply State.packet_ok
    | with_reducible apply State.cfgAbort_ok
    | dsimp only
    | split

theorem execCmdNull_ok {q : List Instr} (a0) (a1 : State) (h1 : State.Ok q a1) : OutOk q (execCmdNull a0 a1) := by
  unfold execCmdNull
  exact out_next (State.cmdPacket_ok _ _ _ _ h1 (fun _ h => h))

theorem execCmdRcrc_ok {q : List Instr} (a0) (a1 : State) (h1 : State.Ok q a1) : OutOk q (execCmdRcrc a0 a1) := by
  unfold execCmdRcrc
  repeat' first
    | with_reducible apply out_next
    | with_reducible apply out_ite
    | intro _
    | with_reducible assumption
    | with_reducible apply ok_ite
    | with_reducible apply State.cmdPacket_ok
    | with_reducible apply State.wr_ok
    | dsimp only

theorem execCmdWcfg_ok {q : List Instr} (a0) (a1 : State) (h1 : State.Ok q a1) : OutOk q (execCmdWcfg a0 a1) := by
  unfold execCmdWcfg
  repeat' first
    | with_reducible apply out_next
    | with_reducible apply out_ite
    | intro _
    | with_reducible assumption
    | with_reducible apply ok_ite
    | with_reducible apply State.cmdPacket_ok
    | with_reducible apply State.legalIn_ok
    | with_reducible apply State.wr_ok
    | dsimp only

theorem State.lfrmPlane_ok {q : List Instr} (a0) (a1) (a2 : State) (h2 : State.Ok q a2) : State.Ok q (State.lfrmPlane a0 a1 a2) := by
  unfold State.lfrmPlane
  repeat' first
    | intro _
    | with_reducible assumption
    | with_reducible apply ok_ite
    | with_reducible apply State.clrB_ok
    | with_reducible apply State.setB_ok
    | with_reducible apply State.buildQueue_ok
    | with_reducible apply State.planeLoaded_ok
    | dsimp only
    | split

theorem State.lfrmPass_ok {q : List Instr} (a0 : State) (h0 : State.Ok q a0) : State.Ok q (State.lfrmPass a0) := by
  unfold State.lfrmPass
  repeat' first
    | intro _
    | with_reducible assumption
    | with_reducible apply ok_ite
    | with_reducible apply State.each_ok
    | with_reducible apply State.lfrmPlane_ok
    | with_reducible apply State.wr_ok
    | with_reducible apply State.cfgEvt_ok
    | dsimp only

theorem execCmdLfrm_ok {q : List Instr} (a0) (a1 : State) (h1 : State.Ok q a1) : OutOk q (execCmdLfrm a0 a1) := by
  unfold execCmdLfrm
  repeat' first
    | with_reducible apply out_next
    | with_reducible apply out_ite
    | intro _
    | with_reducible assumption
    | with_reducible apply ok_ite
    | with_reducible apply State.cmdPacket_ok
    | with_reducible apply State.legalIn_ok
    | with_reducible apply State.wr_ok
    | with_reducible apply State.lfrmPass_ok
    | dsimp only
    | split

theorem execSigVerifyDone_ok {q : List Instr} (a0) (a1) (a2 : State) (h2 : State.Ok q a2) : OutOk q (execSigVerifyDone a0 a1 a2) := by
  unfold execSigVerifyDone
  repeat' first
    | with_reducible apply out_next
    | with_reducible apply out_ite
    | intro _
    | with_reducible assumption
    | with_reducible apply ok_ite
    | with_reducible apply State.wr_ok
    | with_reducible apply State.lfrmPass_ok
    | with_reducible apply State.cfgAbort_ok
    | dsimp only
    | split

theorem State.enterOperating_ok {q : List Instr} (a0 : State) (h0 : State.Ok q a0) : State.Ok q (State.enterOperating a0) := by
  unfold State.enterOperating
  repeat' first
    | intro _
    | with_reducible assumption
    | with_reducible apply ok_ite
    | with_reducible apply State.wr_ok
    | with_reducible apply State.rlkReadyChanged_ok
    | dsimp only
    | split

theorem State.startupDone_ok {q : List Instr} (a0 : State) (h0 : State.Ok q a0) : State.Ok q (State.startupDone a0) := by
  unfold State.startupDone
  repeat' first
    | intro _
    | with_reducible assumption
    | with_reducible apply ok_ite
    | with_reducible apply State.wr_ok
    | with_reducible apply State.enterOperating_ok
    | with_reducible apply State.cfgEvt_ok
    | dsimp only

theorem execCmdStart_ok {q : List Instr} (a0) (a1 : State) (h1 : State.Ok q a1) : OutOk q (execCmdStart a0 a1) := by
  unfold execCmdStart
  repeat' first
    | with_reducible apply out_next
    | with_reducible apply out_ite
    | intro _
    | with_reducible assumption
    | with_reducible apply ok_ite
    | with_reducible apply State.cmdPacket_ok
    | with_reducible apply State.legalIn_ok
    | with_reducible apply State.wrIf_ok
    | with_reducible apply State.startupDone_ok
    | with_reducible apply State.each_ok
    | with_reducible apply State.wr_ok
    | with_reducible apply State.clkSettle_ok
    | with_reducible apply ok_foldl
    | with_reducible apply ok_foldl2
    | with_reducible apply ok_foldl3
    | dsimp only
    | split

theorem State.srcOff_ok {q : List Instr} (a0 : State) (h0 : State.Ok q a0) : State.Ok q (State.srcOff a0) := by
  unfold State.srcOff
  repeat' first
    | intro _
    | with_reducible assumption
    | with_reducible apply ok_ite
    | with_reducible apply State.wr_ok
    | dsimp only

theorem execCmdDesync_ok {q : List Instr} (a0) (a1 : State) (h1 : State.Ok q a1) : OutOk q (execCmdDesync a0 a1) := by
  unfold execCmdDesync
  repeat' first
    | with_reducible apply out_next
    | with_reducible apply out_ite
    | intro _
    | with_reducible assumption
    | with_reducible apply ok_ite
    | with_reducible apply State.cmdPacket_ok
    | with_reducible apply State.legalIn_ok
    | with_reducible apply State.wr_ok
    | with_reducible apply State.cfgForget_ok
    | with_reducible apply State.srcOff_ok
    | dsimp only
    | split

theorem State.weirClose_ok {q : List Instr} (a0) (a1 : State) (h1 : State.Ok q a1) : State.Ok q (State.weirClose a0 a1) := by
  unfold State.weirClose
  repeat' first
    | intro _
    | with_reducible assumption
    | with_reducible apply ok_ite
    | with_reducible apply State.fpCut_ok
    | with_reducible apply State.weirShut_ok
    | with_reducible apply State.wr_ok
    | dsimp only
    | split
    | (rw [ok_mk_iff]; refine ⟨?_, ?_, ?_, ?_⟩)
    | with_reducible refine State.Ok.pending ?_
    | with_reducible apply State.Ok.m
    | with_reducible apply State.Ok.c
    | with_reducible apply State.Ok.r

theorem execCmdPrBegin_ok {q : List Instr} (a0) (a1 : State) (h1 : State.Ok q a1) : OutOk q (execCmdPrBegin a0 a1) := by
  unfold execCmdPrBegin
  repeat' first
    | with_reducible apply out_next
    | with_reducible apply out_ite
    | intro _
    | with_reducible assumption
    | with_reducible apply ok_ite
    | with_reducible apply State.cmdPacket_ok
    | with_reducible apply State.legalIn_ok
    | with_reducible apply State.each_ok
    | with_reducible apply State.weirClose_ok
    | dsimp only

theorem execCmdPrCancel_ok {q : List Instr} (a0) (a1 : State) (h1 : State.Ok q a1) : OutOk q (execCmdPrCancel a0 a1) := by
  unfold execCmdPrCancel
  repeat' first
    | with_reducible apply out_next
    | with_reducible apply out_ite
    | intro _
    | with_reducible assumption
    | with_reducible apply ok_ite
    | with_reducible apply State.cmdPacket_ok
    | with_reducible apply State.legalIn_ok
    | with_reducible apply State.each_ok
    | with_reducible apply State.wr_ok
    | dsimp only

theorem execStartupClocksDone_ok {q : List Instr} (a0 : State) (h0 : State.Ok q a0) : OutOk q (execStartupClocksDone a0) := by
  unfold execStartupClocksDone
  repeat' first
    | with_reducible apply out_next
    | with_reducible apply out_ite
    | intro _
    | with_reducible assumption
    | with_reducible apply ok_ite
    | with_reducible apply State.each_ok
    | with_reducible apply State.wr_ok
    | with_reducible apply State.clrB_ok
    | dsimp only
    | split

theorem State.stageNext_ok {q : List Instr} (a0 : State) (a1) (h0 : State.Ok q a0) : State.Ok q (State.stageNext a0 a1) := by
  unfold State.stageNext
  repeat' first
    | intro _
    | with_reducible assumption
    | with_reducible apply ok_ite
    | with_reducible apply State.wr_ok
    | dsimp only

theorem State.vioMeasure_ok {q : List Instr} (a0 : State) (a1) (h0 : State.Ok q a0) : State.Ok q (State.vioMeasure a0 a1) := by
  unfold State.vioMeasure
  repeat' first
    | intro _
    | with_reducible assumption
    | with_reducible apply ok_ite
    | with_reducible apply State.each_ok
    | with_reducible apply State.wr_ok
    | dsimp only
    | split

theorem execStartupOut_ok {q : List Instr} (a0) (a1 : State) (h1 : State.Ok q a1) : OutOk q (execStartupOut a0 a1) := by
  unfold execStartupOut
  repeat' first
    | with_reducible apply out_next
    | with_reducible apply out_ite
    | intro _
    | with_reducible assumption
    | with_reducible apply ok_ite
    | with_reducible apply State.each_ok
    | with_reducible apply State.ioRelease_ok
    | with_reducible apply State.vioMeasure_ok
    | with_reducible apply State.stageNext_ok
    | dsimp only
    | split

theorem execStartupWe_ok {q : List Instr} (a0 : State) (h0 : State.Ok q a0) : OutOk q (execStartupWe a0) := by
  unfold execStartupWe
  repeat' first
    | with_reducible apply out_next
    | with_reducible apply out_ite
    | intro _
    | with_reducible assumption
    | with_reducible apply ok_ite
    | with_reducible apply State.stageNext_ok
    | dsimp only
    | split

theorem execStartupRst_ok {q : List Instr} (a0 : State) (h0 : State.Ok q a0) : OutOk q (execStartupRst a0) := by
  unfold execStartupRst
  repeat' first
    | with_reducible apply out_next
    | with_reducible apply out_ite
    | intro _
    | with_reducible assumption
    | with_reducible apply ok_ite
    | with_reducible apply State.each_ok
    | with_reducible apply State.fabricStart_ok
    | with_reducible apply State.wr_ok
    | with_reducible apply State.stageNext_ok
    | dsimp only
    | split

theorem execStartupDone_ok {q : List Instr} (a0 : State) (h0 : State.Ok q a0) : OutOk q (execStartupDone a0) := by
  unfold execStartupDone
  repeat' first
    | with_reducible apply out_next
    | with_reducible apply out_ite
    | intro _
    | with_reducible assumption
    | with_reducible apply ok_ite
    | with_reducible apply State.wrIf_ok
    | with_reducible apply State.stageNext_ok
    | dsimp only
    | split

theorem execDonePinHigh_ok {q : List Instr} (a0) (a1 : State) (h1 : State.Ok q a1) : OutOk q (execDonePinHigh a0 a1) := by
  unfold execDonePinHigh
  repeat' first
    | with_reducible apply out_next
    | with_reducible apply out_ite
    | intro _
    | with_reducible assumption
    | with_reducible apply ok_ite
    | with_reducible apply State.wr_ok
    | with_reducible apply State.cfgAbort_ok
    | dsimp only
    | split

theorem State.startRun_ok {q : List Instr} (a0) (a1 : State) (h1 : State.Ok q a1) : State.Ok q (State.startRun a0 a1) := by
  unfold State.startRun
  repeat' first
    | intro _
    | with_reducible assumption
    | with_reducible apply ok_ite
    | with_reducible apply State.add_ok
    | with_reducible apply State.wr_ok
    | with_reducible apply State.enterRun_ok
    | dsimp only
    | split

theorem execStartupWeir_ok {q : List Instr} (a0 : State) (h0 : State.Ok q a0) : OutOk q (execStartupWeir a0) := by
  unfold execStartupWeir
  repeat' first
    | with_reducible apply out_next
    | with_reducible apply out_ite
    | intro _
    | with_reducible assumption
    | with_reducible apply ok_ite
    | with_reducible apply State.each_ok
    | with_reducible apply State.startRun_ok
    | with_reducible apply State.startupDone_ok
    | dsimp only
    | split

theorem execStartupLateIsland_ok {q : List Instr} (a0) (a1) (a2 : State) (h2 : State.Ok q a2) : OutOk q (execStartupLateIsland a0 a1 a2) := by
  unfold execStartupLateIsland
  repeat' first
    | with_reducible apply out_next
    | with_reducible apply out_ite
    | intro _
    | with_reducible assumption
    | with_reducible apply ok_ite
    | with_reducible apply State.vioMeasure_ok
    | with_reducible apply State.startAlone_ok
    | with_reducible apply State.wr_ok
    | with_reducible apply State.startRun_ok
    | with_reducible apply State.cfgEvt_ok
    | dsimp only
    | split

theorem State.imageStart_ok {q : List Instr} (a0 : State) (a1) (h0 : State.Ok q a0) : State.Ok q (State.imageStart a0 a1) := by
  unfold State.imageStart
  repeat' first
    | intro _
    | with_reducible assumption
    | with_reducible apply ok_ite
    | with_reducible apply State.wr_ok
    | with_reducible apply State.inc_ok
    | dsimp only
    | split

theorem State.bootFailed_ok {q : List Instr} (a0 : State) (h0 : State.Ok q a0) : State.Ok q (State.bootFailed a0) := by
  unfold State.bootFailed
  repeat' first
    | intro _
    | with_reducible assumption
    | with_reducible apply ok_ite
    | with_reducible apply State.srcOff_ok
    | with_reducible apply State.wr_ok
    | with_reducible apply State.raiseB_ok
    | dsimp only
    | split

theorem State.imageFailed_ok {q : List Instr} (a0 : State) (h0 : State.Ok q a0) : State.Ok q (State.imageFailed a0) := by
  unfold State.imageFailed
  repeat' first
    | intro _
    | with_reducible assumption
    | with_reducible apply ok_ite
    | with_reducible apply State.wr_ok
    | with_reducible apply State.imageStart_ok
    | with_reducible apply State.bootFailed_ok
    | dsimp only
    | split

theorem State.bootStart_ok {q : List Instr} (a0 : State) (h0 : State.Ok q a0) : State.Ok q (State.bootStart a0) := by
  unfold State.bootStart
  repeat' first
    | intro _
    | with_reducible assumption
    | with_reducible apply ok_ite
    | with_reducible apply State.wr_ok
    | with_reducible apply State.imageStart_ok
    | with_reducible apply State.bootFailed_ok
    | dsimp only
    | split

theorem execClearingDone_ok {q : List Instr} (a0) (a1) (a2 : State) (h2 : State.Ok q a2) : OutOk q (execClearingDone a0 a1 a2) := by
  unfold execClearingDone
  repeat' first
    | with_reducible apply out_next
    | with_reducible apply out_ite
    | intro _
    | with_reducible assumption
    | with_reducible apply ok_ite
    | with_reducible apply State.resetBlocks_ok
    | with_reducible apply State.wr_ok
    | with_reducible apply State.each_ok
    | with_reducible apply State.raiseB_ok
    | with_reducible apply State.wrIf_ok
    | with_reducible apply State.hbmCtrlWrite_ok
    | with_reducible apply State.fwLoad_ok
    | with_reducible apply State.bootStart_ok
    | dsimp only
    | split

theorem State.loadFlash_ok {q : List Instr} (a0 : State) (a1) (h0 : State.Ok q a0) : State.Ok q (State.loadFlash a0 a1) := by
  unfold State.loadFlash
  repeat' first
    | intro _
    | with_reducible assumption
    | with_reducible apply ok_ite
    | with_reducible apply State.cfgReject_ok
    | with_reducible apply State.wr_ok
    | with_reducible apply State.imageStart_ok
    | dsimp only
    | split

theorem State.loadSlot_ok {q : List Instr} (a0 : State) (a1) (a2) (h0 : State.Ok q a0) : State.Ok q (State.loadSlot a0 a1 a2) := by
  unfold State.loadSlot
  repeat' first
    | intro _
    | with_reducible assumption
    | with_reducible apply ok_ite
    | with_reducible apply State.cfgReject_ok
    | with_reducible apply State.wr_ok
    | with_reducible apply State.imageStart_ok
    | dsimp only
    | split

theorem State.loadMem_ok {q : List Instr} (a0 : State) (a1) (h0 : State.Ok q a0) : State.Ok q (State.loadMem a0 a1) := by
  unfold State.loadMem
  repeat' first
    | intro _
    | with_reducible assumption
    | with_reducible apply ok_ite
    | with_reducible apply State.cfgReject_ok
    | with_reducible apply State.wr_ok
    | with_reducible apply State.imageStart_ok
    | dsimp only
    | split

theorem State.cfgAbortCmd_ok {q : List Instr} (a0 : State) (h0 : State.Ok q a0) : State.Ok q (State.cfgAbortCmd a0) := by
  unfold State.cfgAbortCmd
  repeat' first
    | intro _
    | with_reducible assumption
    | with_reducible apply ok_ite
    | with_reducible apply State.cfgReject_ok
    | with_reducible apply State.cfgAbort_ok
    | dsimp only
    | split

theorem State.cfgClrErr_ok {q : List Instr} (a0 : State) (h0 : State.Ok q a0) : State.Ok q (State.cfgClrErr a0) := by
  unfold State.cfgClrErr
  repeat' first
    | intro _
    | with_reducible assumption
    | with_reducible apply ok_ite
    | with_reducible apply State.cfgReject_ok
    | with_reducible apply State.wr_ok
    | dsimp only
    | split

theorem State.clearPlane_ok {q : List Instr} (a0) (a1) (a2 : State) (h2 : State.Ok q a2) : State.Ok q (State.clearPlane a0 a1 a2) := by
  unfold State.clearPlane
  repeat' first
    | intro _
    | with_reducible assumption
    | with_reducible apply ok_ite
    | with_reducible apply State.wr_ok
    | with_reducible apply State.clrB_ok
    | dsimp only
    | (rw [ok_mk_iff]; refine ⟨?_, ?_, ?_, ?_⟩)
    | with_reducible refine State.Ok.pending ?_
    | with_reducible apply State.Ok.m
    | with_reducible apply State.Ok.c
    | with_reducible apply State.Ok.r
    | with_reducible apply Tab.wf_set
    | with_reducible apply Tab.wf_put
    | with_reducible apply Tab.wf_delRange
    | with_reducible apply Tab.wf_del
    | with_reducible apply Tab.wf_filter

theorem State.clearPlanes_ok {q : List Instr} (a0 : State) (a1) (a2) (a3) (h0 : State.Ok q a0) : State.Ok q (State.clearPlanes a0 a1 a2 a3) := by
  unfold State.clearPlanes
  repeat' first
    | intro _
    | with_reducible assumption
    | with_reducible apply ok_ite
    | with_reducible apply State.cfgReject_ok
    | with_reducible apply State.each_ok
    | with_reducible apply State.clearPlane_ok
    | dsimp only
    | split

theorem State.cfgClrCnt_ok {q : List Instr} (a0 : State) (h0 : State.Ok q a0) : State.Ok q (State.cfgClrCnt a0) := by
  unfold State.cfgClrCnt
  repeat' first
    | intro _
    | with_reducible assumption
    | with_reducible apply ok_ite
    | with_reducible apply State.wr_ok
    | dsimp only

theorem State.cfgCmd_ok {q : List Instr} (a0 : State) (a1) (h0 : State.Ok q a0) : State.Ok q (State.cfgCmd a0 a1) := by
  unfold State.cfgCmd
  repeat' first
    | intro _
    | with_reducible assumption
    | with_reducible apply ok_ite
    | with_reducible apply State.loadFlash_ok
    | with_reducible apply State.loadSlot_ok
    | with_reducible apply State.loadMem_ok
    | with_reducible apply State.cfgAbortCmd_ok
    | with_reducible apply State.cfgClrErr_ok
    | with_reducible apply State.clearPlanes_ok
    | with_reducible apply State.cfgClrCnt_ok
    | with_reducible apply State.cfgReject_ok
    | dsimp only
    | split

theorem execCfgLoadFlash_ok {q : List Instr} (a0) (a1 : State) (h1 : State.Ok q a1) : OutOk q (execCfgLoadFlash a0 a1) := by
  unfold execCfgLoadFlash
  repeat' first
    | with_reducible apply out_next
    | with_reducible apply out_ite
    | intro _
    | with_reducible assumption
    | with_reducible apply ok_ite
    | with_reducible apply State.loadFlash_ok
    | dsimp only

theorem execCfgLoadSlot_ok {q : List Instr} (a0) (a1) (a2 : State) (h2 : State.Ok q a2) : OutOk q (execCfgLoadSlot a0 a1 a2) := by
  unfold execCfgLoadSlot
  repeat' first
    | with_reducible apply out_next
    | with_reducible apply out_ite
    | intro _
    | with_reducible assumption
    | with_reducible apply ok_ite
    | with_reducible apply State.loadSlot_ok
    | dsimp only

theorem execCfgLoadMem_ok {q : List Instr} (a0) (a1 : State) (h1 : State.Ok q a1) : OutOk q (execCfgLoadMem a0 a1) := by
  unfold execCfgLoadMem
  repeat' first
    | with_reducible apply out_next
    | with_reducible apply out_ite
    | intro _
    | with_reducible assumption
    | with_reducible apply ok_ite
    | with_reducible apply State.loadMem_ok
    | dsimp only

theorem execCfgAbort_ok {q : List Instr} (a0 : State) (h0 : State.Ok q a0) : OutOk q (execCfgAbort a0) := by
  unfold execCfgAbort
  repeat' first
    | with_reducible apply out_next
    | with_reducible apply out_ite
    | intro _
    | with_reducible assumption
    | with_reducible apply ok_ite
    | with_reducible apply State.cfgAbortCmd_ok
    | dsimp only

theorem execCfgClrErr_ok {q : List Instr} (a0 : State) (h0 : State.Ok q a0) : OutOk q (execCfgClrErr a0) := by
  unfold execCfgClrErr
  repeat' first
    | with_reducible apply out_next
    | with_reducible apply out_ite
    | intro _
    | with_reducible assumption
    | with_reducible apply ok_ite
    | with_reducible apply State.cfgClrErr_ok
    | dsimp only

theorem execCfgClearPlanes_ok {q : List Instr} (a0) (a1) (a2) (a3 : State) (h3 : State.Ok q a3) : OutOk q (execCfgClearPlanes a0 a1 a2 a3) := by
  unfold execCfgClearPlanes
  repeat' first
    | with_reducible apply out_next
    | with_reducible apply out_ite
    | intro _
    | with_reducible assumption
    | with_reducible apply ok_ite
    | with_reducible apply State.clearPlanes_ok
    | dsimp only

theorem execCfgClrCnt_ok {q : List Instr} (a0 : State) (h0 : State.Ok q a0) : OutOk q (execCfgClrCnt a0) := by
  unfold execCfgClrCnt
  repeat' first
    | with_reducible apply out_next
    | with_reducible apply out_ite
    | intro _
    | with_reducible assumption
    | with_reducible apply ok_ite
    | with_reducible apply State.cfgClrCnt_ok
    | dsimp only

theorem State.truncate_ok {q : List Instr} (a0 : State) (h0 : State.Ok q a0) : State.Ok q (State.truncate a0) := by
  unfold State.truncate
  repeat' first
    | intro _
    | with_reducible assumption
    | with_reducible apply ok_ite
    | with_reducible apply State.cfgAbort_ok
    | dsimp only
    | split

theorem State.cfgCtrl_ok {q : List Instr} (a0 : State) (a1) (h0 : State.Ok q a0) : State.Ok q (State.cfgCtrl a0 a1) := by
  unfold State.cfgCtrl
  repeat' first
    | intro _
    | with_reducible assumption
    | with_reducible apply ok_ite
    | with_reducible apply State.deny_ok
    | with_reducible apply State.wr_ok
    | with_reducible apply State.imageStart_ok
    | with_reducible apply State.truncate_ok
    | with_reducible apply State.srcOff_ok
    | with_reducible apply State.cfgFifoStat_ok
    | dsimp only
    | split
    | (rw [ok_mk_iff]; refine ⟨?_, ?_, ?_, ?_⟩)
    | with_reducible refine State.Ok.pending ?_
    | with_reducible apply State.Ok.m
    | with_reducible apply State.Ok.c
    | with_reducible apply State.Ok.r

theorem State.cfgFifo_ok {q : List Instr} (a0 : State) (a1) (h0 : State.Ok q a0) : State.Ok q (State.cfgFifo a0 a1) := by
  unfold State.cfgFifo
  repeat' first
    | intro _
    | with_reducible assumption
    | with_reducible apply ok_ite
    | with_reducible apply State.inc_ok
    | with_reducible apply State.answer_ok
    | with_reducible apply State.cfgFifoStat_ok
    | with_reducible apply State.wr_ok
    | with_reducible apply ok_match_opt
    | dsimp only
    | split
    | (rw [ok_mk_iff]; refine ⟨?_, ?_, ?_, ?_⟩)
    | with_reducible refine State.Ok.pending ?_
    | with_reducible apply State.Ok.m
    | with_reducible apply State.Ok.c
    | with_reducible apply State.Ok.r

theorem execCfgFifoWrite_ok {q : List Instr} (a0) (a1 : State) (h1 : State.Ok q a1) : OutOk q (execCfgFifoWrite a0 a1) := by
  unfold execCfgFifoWrite
  repeat' first
    | with_reducible apply out_next
    | with_reducible apply out_ite
    | intro _
    | with_reducible assumption
    | with_reducible apply ok_ite
    | with_reducible apply State.cfgFifo_ok
    | dsimp only

theorem execCfgFifoDrop_ok {q : List Instr} (a0 : State) (h0 : State.Ok q a0) : OutOk q (execCfgFifoDrop a0) := by
  unfold execCfgFifoDrop
  repeat' first
    | with_reducible apply out_next
    | with_reducible apply out_ite
    | intro _
    | with_reducible assumption
    | with_reducible apply ok_ite
    | with_reducible apply State.wr_ok
    | with_reducible apply State.inc_ok
    | with_reducible apply State.cfgAbort_ok
    | dsimp only
    | split

theorem execLoadTimeout_ok {q : List Instr} (a0 : State) (h0 : State.Ok q a0) : OutOk q (execLoadTimeout a0) := by
  unfold execLoadTimeout
  repeat' first
    | with_reducible apply out_next
    | with_reducible apply out_ite
    | intro _
    | with_reducible assumption
    | with_reducible apply ok_ite
    | with_reducible apply State.cfgAbort_ok
    | dsimp only
    | split

theorem execSourceEnd_ok {q : List Instr} (a0 : State) (h0 : State.Ok q a0) : OutOk q (execSourceEnd a0) := by
  unfold execSourceEnd
  repeat' first
    | with_reducible apply out_next
    | with_reducible apply out_ite
    | intro _
    | with_reducible assumption
    | with_reducible apply ok_ite
    | with_reducible apply State.imageFailed_ok
    | with_reducible apply State.truncate_ok
    | with_reducible apply State.srcOff_ok
    | dsimp only
    | split

theorem execXspiHeaderRead_ok {q : List Instr} (a0) (a1) (a2 : State) (h2 : State.Ok q a2) : OutOk q (execXspiHeaderRead a0 a1 a2) := by
  unfold execXspiHeaderRead
  repeat' first
    | with_reducible apply out_next
    | with_reducible apply out_ite
    | intro _
    | with_reducible assumption
    | with_reducible apply ok_ite
    | with_reducible apply State.bootFailed_ok
    | with_reducible apply State.wr_ok
    | with_reducible apply State.each_ok
    | with_reducible apply State.wrIf_ok
    | with_reducible apply ok_match_opt
    | dsimp only
    | split

theorem execGangInitLow_ok {q : List Instr} (a0 : State) (h0 : State.Ok q a0) : OutOk q (execGangInitLow a0) := by
  unfold execGangInitLow
  repeat' first
    | with_reducible apply out_next
    | with_reducible apply out_ite
    | intro _
    | with_reducible assumption
    | with_reducible apply ok_ite
    | with_reducible apply State.wr_ok
    | with_reducible apply State.cfgAbort_ok
    | dsimp only
    | split

theorem execFollowerRelease_ok {q : List Instr} (a0 : State) (h0 : State.Ok q a0) : OutOk q (execFollowerRelease a0) := by
  unfold execFollowerRelease
  repeat' first
    | with_reducible apply out_next
    | with_reducible apply out_ite
    | intro _
    | with_reducible assumption
    | with_reducible apply ok_ite
    | with_reducible apply State.wr_ok
    | dsimp only
    | split

theorem execPrecfgPdChange_ok {q : List Instr} (a0) (a1 : State) (h1 : State.Ok q a1) : OutOk q (execPrecfgPdChange a0 a1) := by
  unfold execPrecfgPdChange
  repeat' first
    | with_reducible apply out_next
    | with_reducible apply out_ite
    | intro _
    | with_reducible assumption
    | with_reducible apply ok_ite
    | with_reducible apply State.wr_ok
    | dsimp only

theorem State.cfgEngineReset_ok {q : List Instr} (a0 : State) (h0 : State.Ok q a0) : State.Ok q (State.cfgEngineReset a0) := by
  unfold State.cfgEngineReset
  repeat' first
    | intro _
    | with_reducible assumption
    | with_reducible apply ok_ite
    | with_reducible apply State.cfgAbort_ok
    | with_reducible apply State.srcOff_ok
    | with_reducible apply State.wr_ok
    | with_reducible apply State.cfgFifoStat_ok
    | dsimp only
    | split
    | (rw [ok_mk_iff]; refine ⟨?_, ?_, ?_, ?_⟩)
    | with_reducible refine State.Ok.pending ?_
    | with_reducible apply State.Ok.m
    | with_reducible apply State.Ok.c
    | with_reducible apply State.Ok.r

end Sys2Proof.Machine
end

