-- ==== Sys2Proof/Laws/OkDahlia.lean ====
section
/-! SUPPORT. What the operations of Machine/Dahlia.lean keep: the canonical form of the state and its queue. -/

namespace Sys2Proof.Machine

theorem State.dahEvt_ok {q : List Instr} (a0 : State) (a1) (h0 : State.Ok q a0) : State.Ok q (State.dahEvt a0 a1) := by
  unfold State.dahEvt
  repeat' first
    | intro _
    | with_reducible assumption
    | with_reducible apply ok_ite
    | with_reducible apply State.raiseB_ok
    | dsimp only
    | split

theorem State.dahReject_ok {q : List Instr} (a0 : State) (a1) (h0 : State.Ok q a0) : State.Ok q (State.dahReject a0 a1) := by
  unfold State.dahReject
  repeat' first
    | intro _
    | with_reducible assumption
    | with_reducible apply ok_ite
    | with_reducible apply State.rejMark_ok
    | with_reducible apply State.dahEvt_ok
    | dsimp only

theorem State.dahWrite_ok {q : List Instr} (a0 : State) (a1) (a2) (h0 : State.Ok q a0) : State.Ok q (State.dahWrite a0 a1 a2) := by
  unfold State.dahWrite
  repeat' first
    | intro _
    | with_reducible assumption
    | with_reducible apply ok_ite
    | with_reducible apply State.writeMem_ok
    | dsimp only

theorem State.slotEmpty_ok {q : List Instr} (a0 : State) (a1) (a2) (h0 : State.Ok q a0) : State.Ok q (State.slotEmpty a0 a1 a2) := by
  unfold State.slotEmpty
  repeat' first
    | intro _
    | with_reducible assumption
    | with_reducible apply ok_ite
    | with_reducible apply State.dahWrite_ok
    | with_reducible apply State.wr_ok
    | dsimp only

theorem State.writeSlot_ok {q : List Instr} (a0 : State) (a1) (a2) (h0 : State.Ok q a0) : State.Ok q (State.writeSlot a0 a1 a2) := by
  unfold State.writeSlot
  repeat' first
    | intro _
    | with_reducible assumption
    | with_reducible apply ok_ite
    | with_reducible apply State.dahReject_ok
    | with_reducible apply State.slotEmpty_ok
    | with_reducible apply State.wr_ok
    | dsimp only
    | split

theorem State.eraseSlot_ok {q : List Instr} (a0 : State) (a1) (a2) (h0 : State.Ok q a0) : State.Ok q (State.eraseSlot a0 a1 a2) := by
  unfold State.eraseSlot
  repeat' first
    | intro _
    | with_reducible assumption
    | with_reducible apply ok_ite
    | with_reducible apply State.dahReject_ok
    | with_reducible apply State.slotEmpty_ok
    | with_reducible apply State.dahEvt_ok
    | dsimp only
    | split

theorem State.setBoot_ok {q : List Instr} (a0 : State) (h0 : State.Ok q a0) : State.Ok q (State.setBoot a0) := by
  unfold State.setBoot
  repeat' first
    | intro _
    | with_reducible assumption
    | with_reducible apply ok_ite
    | with_reducible apply State.dahReject_ok
    | with_reducible apply State.wr_ok
    | with_reducible apply State.dahEvt_ok
    | dsimp only
    | split

theorem State.dahCmd_ok {q : List Instr} (a0 : State) (a1) (h0 : State.Ok q a0) : State.Ok q (State.dahCmd a0 a1) := by
  unfold State.dahCmd
  repeat' first
    | intro _
    | with_reducible assumption
    | with_reducible apply ok_ite
    | with_reducible apply State.writeSlot_ok
    | with_reducible apply State.eraseSlot_ok
    | with_reducible apply State.setBoot_ok
    | with_reducible apply State.wr_ok
    | with_reducible apply State.dahReject_ok
    | dsimp only
    | split

theorem execDahWriteSlot_ok {q : List Instr} (a0) (a1) (a2 : State) (h2 : State.Ok q a2) : OutOk q (execDahWriteSlot a0 a1 a2) := by
  unfold execDahWriteSlot
  repeat' first
    | with_reducible apply out_next
    | with_reducible apply out_ite
    | intro _
    | with_reducible assumption
    | with_reducible apply ok_ite
    | with_reducible apply State.writeSlot_ok
    | dsimp only

theorem execDahEraseSlot_ok {q : List Instr} (a0) (a1) (a2 : State) (h2 : State.Ok q a2) : OutOk q (execDahEraseSlot a0 a1 a2) := by
  unfold execDahEraseSlot
  repeat' first
    | with_reducible apply out_next
    | with_reducible apply out_ite
    | intro _
    | with_reducible assumption
    | with_reducible apply ok_ite
    | with_reducible apply State.eraseSlot_ok
    | dsimp only

theorem execDahSetBoot_ok {q : List Instr} (a0 : State) (h0 : State.Ok q a0) : OutOk q (execDahSetBoot a0) := by
  unfold execDahSetBoot
  repeat' first
    | with_reducible apply out_next
    | with_reducible apply out_ite
    | intro _
    | with_reducible assumption
    | with_reducible apply ok_ite
    | with_reducible apply State.setBoot_ok
    | dsimp only

theorem execDahClrCnt_ok {q : List Instr} (a0 : State) (h0 : State.Ok q a0) : OutOk q (execDahClrCnt a0) := by
  unfold execDahClrCnt
  repeat' first
    | with_reducible apply out_next
    | with_reducible apply out_ite
    | intro _
    | with_reducible assumption
    | with_reducible apply ok_ite
    | with_reducible apply State.wr_ok
    | dsimp only

theorem State.dahWear_ok {q : List Instr} (a0 : State) (a1) (a2) (h0 : State.Ok q a0) : State.Ok q (State.dahWear a0 a1 a2) := by
  unfold State.dahWear
  repeat' first
    | intro _
    | with_reducible assumption
    | with_reducible apply ok_ite
    | with_reducible apply State.wr_ok
    | with_reducible apply State.dahEvt_ok
    | dsimp only
    | split

theorem execDahWriteDone_ok {q : List Instr} (a0) (a1) (a2) (a3 : State) (h3 : State.Ok q a3) : OutOk q (execDahWriteDone a0 a1 a2 a3) := by
  unfold execDahWriteDone
  repeat' first
    | with_reducible apply out_next
    | with_reducible apply out_ite
    | intro _
    | with_reducible assumption
    | with_reducible apply ok_ite
    | with_reducible apply State.coRead_ok
    | with_reducible refine State.coRead_okE (by assumption) ?_
    | with_reducible apply State.answer_ok
    | with_reducible apply State.wr_ok
    | with_reducible apply State.dahWear_ok
    | with_reducible apply State.dahEvt_ok
    | with_reducible apply State.dahWrite_ok
    | dsimp only
    | split

theorem State.dahAbandon_ok {q : List Instr} (a0 : State) (h0 : State.Ok q a0) : State.Ok q (State.dahAbandon a0) := by
  unfold State.dahAbandon
  repeat' first
    | intro _
    | with_reducible assumption
    | with_reducible apply ok_ite
    | with_reducible apply State.slotEmpty_ok
    | with_reducible apply State.wr_ok
    | dsimp only
    | split

end Sys2Proof.Machine
end

