-- ==== Sys2Proof/Laws/OkPeony.lean ====
section
/-! SUPPORT. What the operations of Machine/Peony.lean keep: the canonical form of the state and its queue. -/

namespace Sys2Proof.Machine

theorem State.coreResume_ok {q : List Instr} (a0 : State) (a1) (h0 : State.Ok q a0) : State.Ok q (State.coreResume a0 a1) := by
  unfold State.coreResume
  repeat' first
    | intro _
    | with_reducible assumption
    | with_reducible apply ok_ite
    | with_reducible apply State.wr_ok
    | with_reducible apply State.clrB_ok
    | with_reducible apply State.wrIf_ok
    | with_reducible apply State.semHalted_ok
    | with_reducible apply State.supPause_ok
    | with_reducible apply State.uartKick_ok
    | with_reducible apply State.milLevels_ok
    | dsimp only

theorem State.attached_ok {q : List Instr} (a0 : State) (h0 : State.Ok q a0) : State.Ok q (State.attached a0) := by
  unfold State.attached
  repeat' first
    | intro _
    | with_reducible assumption
    | with_reducible apply ok_ite
    | with_reducible apply State.wr_ok
    | dsimp only

theorem State.setLevel_ok {q : List Instr} (a0 : State) (a1) (h0 : State.Ok q a0) : State.Ok q (State.setLevel a0 a1) := by
  unfold State.setLevel
  repeat' first
    | intro _
    | with_reducible assumption
    | with_reducible apply ok_ite
    | with_reducible apply State.wr_ok
    | with_reducible apply State.attached_ok
    | with_reducible apply State.each_ok
    | with_reducible apply State.coreResume_ok
    | with_reducible apply State.wrIf_ok
    | with_reducible apply State.dbgEvt_ok
    | dsimp only
    | split

theorem State.lcsApply_ok {q : List Instr} (a0 : State) (h0 : State.Ok q a0) : State.Ok q (State.lcsApply a0) := by
  unfold State.lcsApply
  repeat' first
    | intro _
    | with_reducible assumption
    | with_reducible apply ok_ite
    | with_reducible apply State.wr_ok
    | with_reducible apply State.setLevel_ok
    | dsimp only
    | split

theorem State.peoEvt_ok {q : List Instr} (a0 : State) (a1) (h0 : State.Ok q a0) : State.Ok q (State.peoEvt a0 a1) := by
  unfold State.peoEvt
  repeat' first
    | intro _
    | with_reducible assumption
    | with_reducible apply ok_ite
    | with_reducible apply State.raiseB_ok
    | dsimp only

theorem State.peoReject_ok {q : List Instr} (a0 : State) (a1) (h0 : State.Ok q a0) : State.Ok q (State.peoReject a0 a1) := by
  unfold State.peoReject
  repeat' first
    | intro _
    | with_reducible assumption
    | with_reducible apply ok_ite
    | with_reducible apply State.rejMark_ok
    | with_reducible apply State.peoEvt_ok
    | dsimp only

theorem State.burn_ok {q : List Instr} (a0 : State) (a1) (a2) (a3) (h0 : State.Ok q a0) : State.Ok q (State.burn a0 a1 a2 a3).1 := by
  unfold State.burn
  repeat' first
    | intro _
    | with_reducible assumption
    | with_reducible apply ok_ite
    | dsimp only
    | with_reducible apply State.wr_ok
    | split

theorem State.burn_okE {q : List Instr} {a0 : State} {a1} {a2} {a3} {t b} (e : State.burn a0 a1 a2 a3 = (t, b)) (h0 : State.Ok q a0) : State.Ok q t := by
  have := State.burn_ok a0 a1 a2 a3 h0
  rw [e] at this; exact this

theorem State.peoBegin_ok {q : List Instr} (a0 : State) (a1) (h0 : State.Ok q a0) : State.Ok q (State.peoBegin a0 a1) := by
  unfold State.peoBegin
  repeat' first
    | intro _
    | with_reducible assumption
    | with_reducible apply ok_ite
    | with_reducible apply State.wr_ok
    | dsimp only

theorem State.peoCmd_ok {q : List Instr} (a0 : State) (a1) (a2) (h0 : State.Ok q a0) : State.Ok q (State.peoCmd a0 a1 a2) := by
  unfold State.peoCmd
  repeat' first
    | intro _
    | with_reducible assumption
    | with_reducible apply ok_ite
    | with_reducible apply State.alarm_ok
    | with_reducible apply State.peoReject_ok
    | with_reducible apply State.peoBegin_ok
    | with_reducible apply State.wr_ok
    | dsimp only
    | split

theorem execPeoChallenge_ok {q : List Instr} (a0) (a1 : State) (h1 : State.Ok q a1) : OutOk q (execPeoChallenge a0 a1) := by
  unfold execPeoChallenge
  repeat' first
    | with_reducible apply out_next
    | with_reducible apply out_ite
    | intro _
    | with_reducible assumption
    | with_reducible apply ok_ite
    | with_reducible apply State.peoCmd_ok
    | dsimp only

theorem execPeoToken_ok {q : List Instr} (a0) (a1 : State) (h1 : State.Ok q a1) : OutOk q (execPeoToken a0 a1) := by
  unfold execPeoToken
  repeat' first
    | with_reducible apply out_next
    | with_reducible apply out_ite
    | intro _
    | with_reducible assumption
    | with_reducible apply ok_ite
    | with_reducible apply State.peoCmd_ok
    | dsimp only

theorem execPeoAttest_ok {q : List Instr} (a0) (a1 : State) (h1 : State.Ok q a1) : OutOk q (execPeoAttest a0 a1) := by
  unfold execPeoAttest
  repeat' first
    | with_reducible apply out_next
    | with_reducible apply out_ite
    | intro _
    | with_reducible assumption
    | with_reducible apply ok_ite
    | with_reducible apply State.peoCmd_ok
    | dsimp only

theorem execPeoGetCert_ok {q : List Instr} (a0) (a1 : State) (h1 : State.Ok q a1) : OutOk q (execPeoGetCert a0 a1) := by
  unfold execPeoGetCert
  repeat' first
    | with_reducible apply out_next
    | with_reducible apply out_ite
    | intro _
    | with_reducible assumption
    | with_reducible apply ok_ite
    | with_reducible apply State.peoCmd_ok
    | dsimp only

theorem execPeoFuseWrite_ok {q : List Instr} (a0) (a1 : State) (h1 : State.Ok q a1) : OutOk q (execPeoFuseWrite a0 a1) := by
  unfold execPeoFuseWrite
  repeat' first
    | with_reducible apply out_next
    | with_reducible apply out_ite
    | intro _
    | with_reducible assumption
    | with_reducible apply ok_ite
    | with_reducible apply State.peoCmd_ok
    | dsimp only

theorem execPeoFuseRepair_ok {q : List Instr} (a0) (a1 : State) (h1 : State.Ok q a1) : OutOk q (execPeoFuseRepair a0 a1) := by
  unfold execPeoFuseRepair
  repeat' first
    | with_reducible apply out_next
    | with_reducible apply out_ite
    | intro _
    | with_reducible assumption
    | with_reducible apply ok_ite
    | with_reducible apply State.peoCmd_ok
    | dsimp only

theorem execPeoSetSvn_ok {q : List Instr} (a0) (a1 : State) (h1 : State.Ok q a1) : OutOk q (execPeoSetSvn a0 a1) := by
  unfold execPeoSetSvn
  repeat' first
    | with_reducible apply out_next
    | with_reducible apply out_ite
    | intro _
    | with_reducible assumption
    | with_reducible apply ok_ite
    | with_reducible apply State.peoCmd_ok
    | dsimp only

theorem execPeoRevoke_ok {q : List Instr} (a0) (a1 : State) (h1 : State.Ok q a1) : OutOk q (execPeoRevoke a0 a1) := by
  unfold execPeoRevoke
  repeat' first
    | with_reducible apply out_next
    | with_reducible apply out_ite
    | intro _
    | with_reducible assumption
    | with_reducible apply ok_ite
    | with_reducible apply State.peoCmd_ok
    | dsimp only

theorem execPeoInstallKey_ok {q : List Instr} (a0) (a1 : State) (h1 : State.Ok q a1) : OutOk q (execPeoInstallKey a0 a1) := by
  unfold execPeoInstallKey
  repeat' first
    | with_reducible apply out_next
    | with_reducible apply out_ite
    | intro _
    | with_reducible assumption
    | with_reducible apply ok_ite
    | with_reducible apply State.peoCmd_ok
    | dsimp only

theorem execPeoSealKey_ok {q : List Instr} (a0) (a1 : State) (h1 : State.Ok q a1) : OutOk q (execPeoSealKey a0 a1) := by
  unfold execPeoSealKey
  repeat' first
    | with_reducible apply out_next
    | with_reducible apply out_ite
    | intro _
    | with_reducible assumption
    | with_reducible apply ok_ite
    | with_reducible apply State.peoCmd_ok
    | dsimp only

theorem execPeoProvision_ok {q : List Instr} (a0) (a1 : State) (h1 : State.Ok q a1) : OutOk q (execPeoProvision a0 a1) := by
  unfold execPeoProvision
  repeat' first
    | with_reducible apply out_next
    | with_reducible apply out_ite
    | intro _
    | with_reducible assumption
    | with_reducible apply ok_ite
    | with_reducible apply State.peoCmd_ok
    | dsimp only

theorem execPeoDeploy_ok {q : List Instr} (a0) (a1 : State) (h1 : State.Ok q a1) : OutOk q (execPeoDeploy a0 a1) := by
  unfold execPeoDeploy
  repeat' first
    | with_reducible apply out_next
    | with_reducible apply out_ite
    | intro _
    | with_reducible assumption
    | with_reducible apply ok_ite
    | with_reducible apply State.peoCmd_ok
    | dsimp only

theorem execPeoReturn_ok {q : List Instr} (a0) (a1 : State) (h1 : State.Ok q a1) : OutOk q (execPeoReturn a0 a1) := by
  unfold execPeoReturn
  repeat' first
    | with_reducible apply out_next
    | with_reducible apply out_ite
    | intro _
    | with_reducible assumption
    | with_reducible apply ok_ite
    | with_reducible apply State.peoCmd_ok
    | dsimp only

theorem execPeoWipeSecure_ok {q : List Instr} (a0) (a1 : State) (h1 : State.Ok q a1) : OutOk q (execPeoWipeSecure a0 a1) := by
  unfold execPeoWipeSecure
  repeat' first
    | with_reducible apply out_next
    | with_reducible apply out_ite
    | intro _
    | with_reducible assumption
    | with_reducible apply ok_ite
    | with_reducible apply State.peoCmd_ok
    | dsimp only

theorem execPeoLock_ok {q : List Instr} (a0) (a1 : State) (h1 : State.Ok q a1) : OutOk q (execPeoLock a0 a1) := by
  unfold execPeoLock
  repeat' first
    | with_reducible apply out_next
    | with_reducible apply out_ite
    | intro _
    | with_reducible assumption
    | with_reducible apply ok_ite
    | with_reducible apply State.peoCmd_ok
    | dsimp only

theorem State.peoEnd_ok {q : List Instr} (a0 : State) (a1) (a2) (h0 : State.Ok q a0) : State.Ok q (State.peoEnd a0 a1 a2) := by
  unfold State.peoEnd
  repeat' first
    | intro _
    | with_reducible assumption
    | with_reducible apply ok_ite
    | with_reducible apply State.wr_ok
    | with_reducible apply State.peoEvt_ok
    | dsimp only
    | split

theorem State.peoRead_ok {q : List Instr} (a0 : State) (a1) {t} (h0 : State.Ok q a0) (e : State.peoRead a0 a1 = some t) : State.Ok q t.2.2 := by
  unfold State.peoRead at e
  dsimp only at e
  split at e
  · exact ok_some3 h0 e
  · split at e
    · exact ok_none3 e
    · exact ok_some3 (State.coRead_ok _ _ _ _ h0) e

theorem State.peoWrite_ok {q : List Instr} (a0 : State) (a1) {t} (h0 : State.Ok q a0) (e : State.peoWrite a0 a1 = some t) : State.Ok q t.2 := by
  unfold State.peoWrite at e
  dsimp only at e
  split at e
  · exact ok_some2 h0 e
  · split at e
    · exact ok_none2 e
    · exact ok_some2 (State.coWrite_ok _ _ _ _ h0) e

theorem State.tokenRun_ok {q : List Instr} (a0 : State) (a1) (a2) (h0 : State.Ok q a0) : State.Ok q (State.tokenRun a0 a1 a2).2 := by
  unfold State.tokenRun
  repeat' first
    | intro _
    | with_reducible assumption
    | with_reducible apply ok_ite
    | dsimp only
    | with_reducible apply State.wr_ok
    | with_reducible apply State.alarm_ok
    | with_reducible apply State.setLevel_ok
    | split

theorem State.tokenRun_okE {q : List Instr} {a0 : State} {a1} {a2} {b t} (e : State.tokenRun a0 a1 a2 = (b, t)) (h0 : State.Ok q a0) : State.Ok q t := by
  have := State.tokenRun_ok a0 a1 a2 h0
  rw [e] at this; exact this

theorem State.challenge_ok {q : List Instr} (a0 : State) (h0 : State.Ok q a0) : State.Ok q (State.challenge a0) := by
  unfold State.challenge
  repeat' first
    | intro _
    | with_reducible assumption
    | with_reducible apply ok_ite
    | with_reducible apply State.fresh_ok
    | with_reducible refine State.fresh_okE (by assumption) ?_
    | with_reducible apply State.wr_ok
    | dsimp only
    | split

theorem State.signBlock_ok {q : List Instr} (a0 : State) (h0 : State.Ok q a0) : State.Ok q (State.signBlock a0).2 := by
  unfold State.signBlock
  repeat' first
    | intro _
    | with_reducible assumption
    | with_reducible apply ok_ite
    | dsimp only
    | with_reducible apply State.fresh_ok
    | with_reducible refine State.fresh_okE (by assumption) ?_
    | with_reducible apply State.wr_ok
    | split

theorem State.signBlock_okE {q : List Instr} {a0 : State} {b t} (e : State.signBlock a0 = (b, t)) (h0 : State.Ok q a0) : State.Ok q t := by
  have := State.signBlock_ok a0 h0
  rw [e] at this; exact this

theorem State.transition_ok {q : List Instr} (a0 : State) (a1) (a2) (h0 : State.Ok q a0) : State.Ok q (State.transition a0 a1 a2) := by
  unfold State.transition
  repeat' first
    | intro _
    | with_reducible assumption
    | with_reducible apply ok_ite
    | with_reducible apply State.startWipe_ok
    | with_reducible apply State.burn_ok
    | with_reducible refine State.burn_okE (by assumption) ?_
    | with_reducible apply State.wr_ok
    | with_reducible apply State.lcsApply_ok
    | with_reducible apply State.peoEvt_ok
    | with_reducible apply State.peoEnd_ok
    | dsimp only
    | split

theorem State.fuseRepair_ok {q : List Instr} (a0 : State) (a1) (h0 : State.Ok q a0) : State.Ok q (State.fuseRepair a0 a1) := by
  unfold State.fuseRepair
  refine State.peoEnd_ok _ _ _ (ok_foldl1 (fun t r ht => ?_) h0)
  split
  · exact ht
  · split
    · exact ht
    · exact State.inc_ok _ _ _ (State.burn_ok _ _ _ _ ht)

theorem State.installKey_ok {q : List Instr} (a0 : State) (a1) (h0 : State.Ok q a0) : State.Ok q (State.installKey a0 a1) := by
  unfold State.installKey
  repeat' first
    | intro _
    | with_reducible assumption
    | with_reducible apply ok_ite
    | with_reducible refine State.peoRead_ok _ _ ?_ (by assumption)
    | with_reducible apply State.answer_ok
    | with_reducible apply State.peoEnd_ok
    | with_reducible apply State.wr_ok
    | dsimp only
    | split

theorem State.sealKey_ok {q : List Instr} (a0 : State) (h0 : State.Ok q a0) : State.Ok q (State.sealKey a0) := by
  unfold State.sealKey
  repeat' first
    | intro _
    | with_reducible assumption
    | with_reducible apply ok_ite
    | with_reducible apply State.peoEnd_ok
    | with_reducible refine State.peoRead_ok _ _ ?_ (by assumption)
    | with_reducible apply State.answer_ok
    | with_reducible apply State.wr_ok
    | with_reducible refine State.peoWrite_ok _ _ ?_ (by assumption)
    | dsimp only
    | split

theorem execPeoCmdDone_ok {q : List Instr} (a0) (a1) (a2 : State) (h2 : State.Ok q a2) : OutOk q (execPeoCmdDone a0 a1 a2) := by
  unfold execPeoCmdDone
  repeat' first
    | with_reducible apply out_next
    | with_reducible apply out_ite
    | intro _
    | with_reducible assumption
    | with_reducible apply ok_ite
    | with_reducible apply State.peoEnd_ok
    | with_reducible apply State.wr_ok
    | with_reducible apply State.challenge_ok
    | with_reducible apply State.each_ok
    | with_reducible refine State.peoRead_ok _ _ ?_ (by assumption)
    | with_reducible apply State.answer_ok
    | with_reducible apply State.alarm_ok
    | with_reducible apply State.tokenRun_ok
    | with_reducible refine State.tokenRun_okE (by assumption) ?_
    | with_reducible apply State.signBlock_ok
    | with_reducible refine State.signBlock_okE (by assumption) ?_
    | with_reducible refine State.peoWrite_ok _ _ ?_ (by assumption)
    | with_reducible apply State.burn_ok
    | with_reducible refine State.burn_okE (by assumption) ?_
    | with_reducible apply State.fuseRepair_ok
    | with_reducible apply State.installKey_ok
    | with_reducible apply State.sealKey_ok
    | with_reducible apply State.transition_ok
    | with_reducible apply State.startWipe_ok
    | dsimp only
    | split

theorem execTrngFail_ok {q : List Instr} (a0 : State) (h0 : State.Ok q a0) : OutOk q (execTrngFail a0) := by
  unfold execTrngFail
  repeat' first
    | with_reducible apply out_next
    | with_reducible apply out_ite
    | intro _
    | with_reducible assumption
    | with_reducible apply ok_ite
    | with_reducible apply State.wr_ok
    | with_reducible apply State.alarm_ok
    | dsimp only

theorem execTamperRepeat_ok {q : List Instr} (a0) (a1 : State) (h1 : State.Ok q a1) : OutOk q (execTamperRepeat a0 a1) := by
  unfold execTamperRepeat
  repeat' first
    | with_reducible apply out_next
    | with_reducible apply out_ite
    | intro _
    | with_reducible assumption
    | with_reducible apply ok_ite
    | with_reducible apply State.startWipe_ok
    | dsimp only
    | split

theorem State.tamperLatch_ok {q : List Instr} (a0 : State) (a1) (h0 : State.Ok q a0) : State.Ok q (State.tamperLatch a0 a1) := by
  unfold State.tamperLatch
  repeat' first
    | intro _
    | with_reducible assumption
    | with_reducible apply ok_ite
    | with_reducible apply State.startWipe_ok
    | with_reducible apply State.inc_ok
    | with_reducible apply State.wr_ok
    | with_reducible apply State.setB_ok
    | with_reducible apply State.peoEvt_ok
    | with_reducible apply State.alarm_ok
    | dsimp only
    | split

theorem State.tokenEnd_ok {q : List Instr} (a0 : State) (h0 : State.Ok q a0) : State.Ok q (State.tokenEnd a0) := by
  unfold State.tokenEnd
  repeat' first
    | intro _
    | with_reducible assumption
    | with_reducible apply ok_ite
    | with_reducible apply State.wr_ok
    | with_reducible apply State.setLevel_ok
    | dsimp only
    | split

theorem execTokenExpire_ok {q : List Instr} (a0 : State) (h0 : State.Ok q a0) : OutOk q (execTokenExpire a0) := by
  unfold execTokenExpire
  repeat' first
    | with_reducible apply out_next
    | with_reducible apply out_ite
    | intro _
    | with_reducible assumption
    | with_reducible apply ok_ite
    | with_reducible apply State.tokenEnd_ok
    | dsimp only
    | split

end Sys2Proof.Machine
end

