-- ==== Sys2Proof/Laws/OkScrub.lean ====
section
/-! SUPPORT. What the operations of Machine/Scrub.lean keep: the canonical form of the state and its queue. -/

namespace Sys2Proof.Machine

theorem State.scbEvt_ok {q : List Instr} (a0 : State) (a1) (h0 : State.Ok q a0) : State.Ok q (State.scbEvt a0 a1) := by
  unfold State.scbEvt
  repeat' first
    | intro _
    | with_reducible assumption
    | with_reducible apply ok_ite
    | with_reducible apply State.raiseB_ok
    | dsimp only

theorem State.scbReject_ok {q : List Instr} (a0 : State) (a1) (h0 : State.Ok q a0) : State.Ok q (State.scbReject a0 a1) := by
  unfold State.scbReject
  repeat' first
    | intro _
    | with_reducible assumption
    | with_reducible apply ok_ite
    | with_reducible apply State.rejMark_ok
    | with_reducible apply State.scbEvt_ok
    | dsimp only

theorem State.scrubStore_ok {q : List Instr} (a0 : State) (a1) (a2) (a3) (a4) (h0 : State.Ok q a0) : State.Ok q (State.scrubStore a0 a1 a2 a3 a4) := by
  unfold State.scrubStore
  repeat' first
    | intro _
    | with_reducible assumption
    | with_reducible apply ok_ite
    | with_reducible apply State.wr_ok
    | dsimp only
    | split

theorem State.unrepairable_ok {q : List Instr} (a0 : State) (a1) (a2) (a3) (h0 : State.Ok q a0) : State.Ok q (State.unrepairable a0 a1 a2 a3) := by
  unfold State.unrepairable
  repeat' first
    | intro _
    | with_reducible assumption
    | with_reducible apply ok_ite
    | with_reducible apply State.inc_ok
    | with_reducible apply State.scbEvt_ok
    | with_reducible apply State.wr_ok
    | with_reducible apply State.clrB_ok
    | with_reducible apply State.journal_ok
    | dsimp only
    | split

theorem State.goldRead_ok {q : List Instr} (a0 : State) (a1) (a2) (a3) (a4) (h0 : State.Ok q a0) : State.Ok q (State.goldRead a0 a1 a2 a3 a4).2 := by
  unfold State.goldRead
  repeat' first
    | intro _
    | with_reducible assumption
    | with_reducible apply ok_ite
    | dsimp only
    | with_reducible apply State.dahReadErr_ok
    | split

theorem State.goldRead_okE {q : List Instr} {a0 : State} {a1} {a2} {a3} {a4} {b t} (e : State.goldRead a0 a1 a2 a3 a4 = (b, t)) (h0 : State.Ok q a0) : State.Ok q t := by
  have := State.goldRead_ok a0 a1 a2 a3 a4 h0
  rw [e] at this; exact this

theorem State.goldRebuild_ok {q : List Instr} (a0 : State) (a1) (a2) (a3) (h0 : State.Ok q a0) : State.Ok q (State.goldRebuild a0 a1 a2 a3) := by
  unfold State.goldRebuild
  repeat' first
    | intro _
    | with_reducible assumption
    | with_reducible apply ok_ite
    | with_reducible apply State.each_ok
    | with_reducible apply State.wr_ok
    | dsimp only
    | split

theorem State.scrubFrame_ok {q : List Instr} (a0 : State) (a1) (a2) (a3) (a4) (a5) (h0 : State.Ok q a0) : State.Ok q (State.scrubFrame a0 a1 a2 a3 a4 a5) := by
  unfold State.scrubFrame
  repeat' first
    | intro _
    | with_reducible assumption
    | with_reducible apply ok_ite
    | with_reducible apply State.goldRead_ok
    | with_reducible refine State.goldRead_okE (by assumption) ?_
    | with_reducible apply State.scrubStore_ok
    | with_reducible apply State.inc_ok
    | with_reducible apply State.classErr_ok
    | with_reducible apply State.goldRebuild_ok
    | with_reducible apply State.unrepairable_ok
    | dsimp only
    | split

theorem State.ask_ok {q : List Instr} (a0 : State) (a1) (h0 : State.Ok q a0) : State.Ok q (State.ask a0 a1) := by
  unfold State.ask
  repeat' first
    | intro _
    | with_reducible assumption
    | with_reducible apply ok_ite
    | dsimp only
    | (rw [ok_mk_iff]; refine ⟨?_, ?_, ?_, ?_⟩)
    | with_reducible refine State.Ok.pending ?_
    | with_reducible apply State.Ok.m
    | with_reducible apply State.Ok.c
    | with_reducible apply State.Ok.r

theorem State.unask_ok {q : List Instr} (a0 : State) (a1) (h0 : State.Ok q a0) : State.Ok q (State.unask a0 a1) := by
  unfold State.unask
  repeat' first
    | intro _
    | with_reducible assumption
    | with_reducible apply ok_ite
    | dsimp only
    | (rw [ok_mk_iff]; refine ⟨?_, ?_, ?_, ?_⟩)
    | with_reducible refine State.Ok.pending ?_
    | with_reducible apply State.Ok.m
    | with_reducible apply State.Ok.c
    | with_reducible apply State.Ok.r

theorem State.askOn_ok {q : List Instr} (a0 : State) (a1) (a2) (a3) (h0 : State.Ok q a0) : State.Ok q (State.askOn a0 a1 a2 a3) := by
  unfold State.askOn
  repeat' first
    | intro _
    | with_reducible assumption
    | with_reducible apply ok_ite
    | with_reducible apply State.unask_ok
    | with_reducible apply State.wr_ok
    | dsimp only
    | split

theorem State.frameShare_ok {q : List Instr} (a0 : State) (a1) (a2) (a3) {t} (h0 : State.Ok q a0) (e : State.frameShare a0 a1 a2 a3 = some t) : State.Ok q t := by
  unfold State.frameShare at e
  revert e
  repeat' first
    | with_reducible refine ok_none
    | with_reducible refine ok_some ?_
    | with_reducible assumption
    | with_reducible apply ok_ite
    | with_reducible refine State.engTake_ok _ _ ?_ (by assumption)
    | with_reducible refine State.bgTake_ok _ _ _ _ ?_ (by assumption)
    | dsimp only
    | split
    | intro _

theorem State.passEnd_ok {q : List Instr} (a0 : State) (h0 : State.Ok q a0) : State.Ok q (State.passEnd a0) := by
  unfold State.passEnd
  repeat' first
    | intro _
    | with_reducible assumption
    | with_reducible apply ok_ite
    | with_reducible apply State.each_ok
    | with_reducible apply State.wr_ok
    | with_reducible apply State.add_ok
    | dsimp only

theorem State.passOn_ok {q : List Instr} (a0 : State) (a1) (a2) (a3) (h0 : State.Ok q a0) : State.Ok q (State.passOn a0 a1 a2 a3) := by
  unfold State.passOn
  repeat' first
    | intro _
    | with_reducible assumption
    | with_reducible apply ok_ite
    | with_reducible apply State.wr_ok
    | with_reducible apply State.passEnd_ok
    | dsimp only
    | split

theorem execScrubFrame_ok {q : List Instr} (a0) (a1) (a2) (a3) (a4) (a5) (a6) (a7 : State) (h7 : State.Ok q a7) : OutOk q (execScrubFrame a0 a1 a2 a3 a4 a5 a6 a7) := by
  unfold execScrubFrame
  repeat' first
    | with_reducible apply out_next
    | with_reducible apply out_ite
    | intro _
    | with_reducible assumption
    | with_reducible apply ok_ite
    | with_reducible apply State.answer_ok
    | with_reducible refine State.frameShare_ok _ _ _ _ ?_ (by assumption)
    | with_reducible apply State.wr_ok
    | with_reducible apply State.cfgErrors_ok
    | with_reducible apply State.add_ok
    | with_reducible apply State.scrubFrame_ok
    | with_reducible apply State.askOn_ok
    | with_reducible apply State.passOn_ok
    | dsimp only
    | split

theorem State.building_ok {q : List Instr} (a0 : State) (h0 : State.Ok q a0) : State.Ok q (State.building a0) := by
  unfold State.building
  repeat' first
    | intro _
    | with_reducible assumption
    | with_reducible apply ok_ite
    | with_reducible apply State.wr_ok
    | dsimp only

theorem State.buildShare_ok {q : List Instr} (a0 : State) (a1) (a2) {t} (h0 : State.Ok q a0) (e : State.buildShare a0 a1 a2 = some t) : State.Ok q t := by
  unfold State.buildShare at e
  revert e
  repeat' first
    | with_reducible refine ok_none
    | with_reducible refine ok_some ?_
    | with_reducible assumption
    | with_reducible apply ok_ite
    | with_reducible refine State.bgTake_ok _ _ _ _ ?_ (by assumption)
    | with_reducible refine State.dahTake_ok _ _ _ ?_ (by assumption)
    | dsimp only
    | split
    | intro _

theorem State.buildPlane_ok {q : List Instr} (a0 : State) (a1) (a2) (a3) (h0 : State.Ok q a0) : State.Ok q (State.buildPlane a0 a1 a2 a3) := by
  unfold State.buildPlane
  repeat' first
    | intro _
    | with_reducible assumption
    | with_reducible apply ok_ite
    | with_reducible apply State.scbEvt_ok
    | with_reducible apply State.each_ok
    | with_reducible apply State.scrubFrame_ok
    | with_reducible apply State.wr_ok
    | with_reducible apply State.setB_ok
    | dsimp only
    | split

theorem execGoldenBuild_ok {q : List Instr} (a0) (a1) (a2) (a3 : State) (h3 : State.Ok q a3) : OutOk q (execGoldenBuild a0 a1 a2 a3) := by
  unfold execGoldenBuild
  refine out_next (ok_ite h3 (ok_ite (State.answer_ok _ _ _ h3) ?_))
  split
  · exact State.answer_ok _ _ _ h3
  · rename_i t e
    have k := State.buildShare_ok _ _ _ h3 e
    exact State.buildPlane_ok _ _ _ _ (State.building_ok _ (State.clrB_ok _ _ _ (ok_mk k.1 k.m k.c k.r)))

theorem State.engCount_ok {q : List Instr} (a0) (a1 : State) (h1 : State.Ok q a1) : State.Ok q (State.engCount a0 a1) := by
  unfold State.engCount
  repeat' first
    | intro _
    | with_reducible assumption
    | with_reducible apply ok_ite
    | with_reducible apply State.wr_ok
    | with_reducible apply State.scbEvt_ok
    | with_reducible apply ok_foldl
    | with_reducible apply ok_foldl2
    | with_reducible apply ok_foldl3
    | dsimp only
    | split

theorem State.engFaulty_ok {q : List Instr} (a0 : State) (a1) (a2) (h0 : State.Ok q a0) : State.Ok q (State.engFaulty a0 a1 a2) := by
  unfold State.engFaulty
  repeat' first
    | intro _
    | with_reducible assumption
    | with_reducible apply ok_ite
    | with_reducible apply State.inc_ok
    | with_reducible apply State.wr_ok
    | with_reducible apply State.scbEvt_ok
    | with_reducible apply State.journal_ok
    | with_reducible apply State.engCount_ok
    | dsimp only
    | split

theorem execEngineXcheck_ok {q : List Instr} (a0) (a1) (a2 : State) (h2 : State.Ok q a2) : OutOk q (execEngineXcheck a0 a1 a2) := by
  unfold execEngineXcheck
  repeat' first
    | with_reducible apply out_next
    | with_reducible apply out_ite
    | intro _
    | with_reducible assumption
    | with_reducible apply ok_ite
    | with_reducible apply State.wr_ok
    | with_reducible apply State.engCount_ok
    | with_reducible apply State.engFaulty_ok
    | dsimp only
    | split

theorem execEngineRecheck_ok {q : List Instr} (a0) (a1 : State) (h1 : State.Ok q a1) : OutOk q (execEngineRecheck a0 a1) := by
  unfold execEngineRecheck
  repeat' first
    | with_reducible apply out_next
    | with_reducible apply out_ite
    | intro _
    | with_reducible assumption
    | with_reducible apply ok_ite
    | with_reducible apply State.wr_ok
    | with_reducible apply State.engFaulty_ok
    | dsimp only
    | split

theorem execEngineReloadDone_ok {q : List Instr} (a0) (a1 : State) (h1 : State.Ok q a1) : OutOk q (execEngineReloadDone a0 a1) := by
  unfold execEngineReloadDone
  repeat' first
    | with_reducible apply out_next
    | with_reducible apply out_ite
    | intro _
    | with_reducible assumption
    | with_reducible apply ok_ite
    | with_reducible apply State.wr_ok
    | with_reducible apply State.engCount_ok
    | dsimp only
    | split

theorem State.scrubNow_ok {q : List Instr} (a0 : State) (a1) (a2) (h0 : State.Ok q a0) : State.Ok q (State.scrubNow a0 a1 a2) := by
  unfold State.scrubNow
  repeat' first
    | intro _
    | with_reducible assumption
    | with_reducible apply ok_ite
    | with_reducible apply State.scbReject_ok
    | with_reducible apply State.ask_ok
    | with_reducible apply State.wr_ok
    | dsimp only
    | split

theorem State.rebuildGold_ok {q : List Instr} (a0 : State) (a1) (a2) (h0 : State.Ok q a0) : State.Ok q (State.rebuildGold a0 a1 a2) := by
  unfold State.rebuildGold
  repeat' first
    | intro _
    | with_reducible assumption
    | with_reducible apply ok_ite
    | with_reducible apply State.scbReject_ok
    | with_reducible apply State.buildQueue_ok
    | dsimp only
    | split

theorem State.restoreEng_ok {q : List Instr} (a0 : State) (a1) (h0 : State.Ok q a0) : State.Ok q (State.restoreEng a0 a1) := by
  unfold State.restoreEng
  repeat' first
    | intro _
    | with_reducible assumption
    | with_reducible apply ok_ite
    | with_reducible apply State.scbReject_ok
    | with_reducible apply State.wr_ok
    | dsimp only
    | split

theorem State.scbClrCnt_ok {q : List Instr} (a0 : State) (h0 : State.Ok q a0) : State.Ok q (State.scbClrCnt a0) := by
  unfold State.scbClrCnt
  repeat' first
    | intro _
    | with_reducible assumption
    | with_reducible apply ok_ite
    | with_reducible apply State.wr_ok
    | dsimp only

theorem State.scbCmd_ok {q : List Instr} (a0 : State) (a1) (h0 : State.Ok q a0) : State.Ok q (State.scbCmd a0 a1) := by
  unfold State.scbCmd
  repeat' first
    | intro _
    | with_reducible assumption
    | with_reducible apply ok_ite
    | with_reducible apply State.scrubNow_ok
    | with_reducible apply State.rebuildGold_ok
    | with_reducible apply State.restoreEng_ok
    | with_reducible apply State.scbClrCnt_ok
    | with_reducible apply State.scbReject_ok
    | dsimp only
    | split

theorem execScbScrubNow_ok {q : List Instr} (a0) (a1) (a2 : State) (h2 : State.Ok q a2) : OutOk q (execScbScrubNow a0 a1 a2) := by
  unfold execScbScrubNow
  repeat' first
    | with_reducible apply out_next
    | with_reducible apply out_ite
    | intro _
    | with_reducible assumption
    | with_reducible apply ok_ite
    | with_reducible apply State.scrubNow_ok
    | dsimp only

theorem execScbRebuildGold_ok {q : List Instr} (a0) (a1) (a2 : State) (h2 : State.Ok q a2) : OutOk q (execScbRebuildGold a0 a1 a2) := by
  unfold execScbRebuildGold
  repeat' first
    | with_reducible apply out_next
    | with_reducible apply out_ite
    | intro _
    | with_reducible assumption
    | with_reducible apply ok_ite
    | with_reducible apply State.rebuildGold_ok
    | dsimp only

theorem execScbRestore_ok {q : List Instr} (a0) (a1 : State) (h1 : State.Ok q a1) : OutOk q (execScbRestore a0 a1) := by
  unfold execScbRestore
  repeat' first
    | with_reducible apply out_next
    | with_reducible apply out_ite
    | intro _
    | with_reducible assumption
    | with_reducible apply ok_ite
    | with_reducible apply State.restoreEng_ok
    | dsimp only

theorem execScbClrCnt_ok {q : List Instr} (a0 : State) (h0 : State.Ok q a0) : OutOk q (execScbClrCnt a0) := by
  unfold execScbClrCnt
  repeat' first
    | with_reducible apply out_next
    | with_reducible apply out_ite
    | intro _
    | with_reducible assumption
    | with_reducible apply ok_ite
    | with_reducible apply State.scbClrCnt_ok
    | dsimp only

theorem execClassBucketLeak_ok {q : List Instr} (a0) (a1 : State) (h1 : State.Ok q a1) : OutOk q (execClassBucketLeak a0 a1) := by
  unfold execClassBucketLeak
  repeat' first
    | with_reducible apply out_next
    | with_reducible apply out_ite
    | intro _
    | with_reducible assumption
    | with_reducible apply ok_ite
    | with_reducible apply State.leak_ok
    | dsimp only

end Sys2Proof.Machine
end

