-- ==== Sys2Proof/Laws/OkUpkeep.lean ====
section
/-! SUPPORT. What the operations of Machine/Upkeep.lean keep: the canonical form of the state and its queue. -/

namespace Sys2Proof.Machine

theorem State.bstEvt_ok {q : List Instr} (a0 : State) (a1) (h0 : State.Ok q a0) : State.Ok q (State.bstEvt a0 a1) := by
  unfold State.bstEvt
  repeat' first
    | intro _
    | with_reducible assumption
    | with_reducible apply ok_ite
    | with_reducible apply State.raiseB_ok
    | dsimp only

theorem State.bstReject_ok {q : List Instr} (a0 : State) (a1) (h0 : State.Ok q a0) : State.Ok q (State.bstReject a0 a1) := by
  unfold State.bstReject
  repeat' first
    | intro _
    | with_reducible assumption
    | with_reducible apply ok_ite
    | with_reducible apply State.rejMark_ok
    | with_reducible apply State.bstEvt_ok
    | dsimp only

theorem State.bstRun_ok {q : List Instr} (a0 : State) (a1) (a2) (h0 : State.Ok q a0) : State.Ok q (State.bstRun a0 a1 a2) := by
  unfold State.bstRun
  repeat' first
    | intro _
    | with_reducible assumption
    | with_reducible apply ok_ite
    | with_reducible apply State.bstReject_ok
    | with_reducible apply State.wr_ok
    | with_reducible apply State.rtrDrain_ok
    | with_reducible apply State.each_ok
    | with_reducible apply State.cleanLine_ok
    | dsimp only
    | split

theorem State.bstEffect_ok {q : List Instr} (a0 : State) (a1) (a2) (h0 : State.Ok q a0) : State.Ok q (State.bstEffect a0 a1 a2) := by
  unfold State.bstEffect
  repeat' first
    | intro _
    | with_reducible assumption
    | with_reducible apply ok_ite
    | with_reducible apply State.hopReset_ok
    | with_reducible apply State.runReset_ok
    | with_reducible apply State.lanReset_ok
    | with_reducible apply State.marReset_ok
    | with_reducible apply State.mstEngineReset_ok
    | with_reducible apply State.each_ok
    | with_reducible apply State.clearPlane_ok
    | with_reducible apply State.zeroWords_ok
    | dsimp only
    | split
    | (rw [ok_mk_iff]; refine ⟨?_, ?_, ?_, ?_⟩)
    | with_reducible refine State.Ok.pending ?_
    | with_reducible apply State.Ok.m
    | with_reducible apply State.Ok.c
    | with_reducible apply State.Ok.r
    | with_reducible apply Memory.wf_delRange
    | with_reducible apply Memory.wf_set
    | with_reducible apply Memory.wf_filter

theorem State.bstAbort_ok {q : List Instr} (a0 : State) (h0 : State.Ok q a0) : State.Ok q (State.bstAbort a0) := by
  unfold State.bstAbort
  repeat' first
    | intro _
    | with_reducible assumption
    | with_reducible apply ok_ite
    | with_reducible apply State.bstReject_ok
    | with_reducible apply State.bstEffect_ok
    | with_reducible apply State.bstAborted_ok
    | with_reducible apply State.rtrActive_ok
    | dsimp only
    | split

theorem State.bstClrCnt_ok {q : List Instr} (a0 : State) (h0 : State.Ok q a0) : State.Ok q (State.bstClrCnt a0) := by
  unfold State.bstClrCnt
  repeat' first
    | intro _
    | with_reducible assumption
    | with_reducible apply ok_ite
    | with_reducible apply State.each_ok
    | with_reducible apply State.wr_ok
    | dsimp only

theorem State.bstCmd_ok {q : List Instr} (a0 : State) (a1) (h0 : State.Ok q a0) : State.Ok q (State.bstCmd a0 a1) := by
  unfold State.bstCmd
  repeat' first
    | intro _
    | with_reducible assumption
    | with_reducible apply ok_ite
    | with_reducible apply State.bstRun_ok
    | with_reducible apply State.bstAbort_ok
    | with_reducible apply State.bstClrCnt_ok
    | with_reducible apply State.bstReject_ok
    | dsimp only
    | split

theorem execBstRunEngines_ok {q : List Instr} (a0) (a1 : State) (h1 : State.Ok q a1) : OutOk q (execBstRunEngines a0 a1) := by
  unfold execBstRunEngines
  repeat' first
    | with_reducible apply out_next
    | with_reducible apply out_ite
    | intro _
    | with_reducible assumption
    | with_reducible apply ok_ite
    | with_reducible apply State.bstRun_ok
    | dsimp only

theorem execBstRunRouter_ok {q : List Instr} (a0) (a1 : State) (h1 : State.Ok q a1) : OutOk q (execBstRunRouter a0 a1) := by
  unfold execBstRunRouter
  repeat' first
    | with_reducible apply out_next
    | with_reducible apply out_ite
    | intro _
    | with_reducible assumption
    | with_reducible apply ok_ite
    | with_reducible apply State.bstRun_ok
    | dsimp only

theorem execBstRunIsland_ok {q : List Instr} (a0) (a1 : State) (h1 : State.Ok q a1) : OutOk q (execBstRunIsland a0 a1) := by
  unfold execBstRunIsland
  repeat' first
    | with_reducible apply out_next
    | with_reducible apply out_ite
    | intro _
    | with_reducible assumption
    | with_reducible apply ok_ite
    | with_reducible apply State.bstRun_ok
    | dsimp only

theorem execBstRunPlanes_ok {q : List Instr} (a0) (a1 : State) (h1 : State.Ok q a1) : OutOk q (execBstRunPlanes a0 a1) := by
  unfold execBstRunPlanes
  repeat' first
    | with_reducible apply out_next
    | with_reducible apply out_ite
    | intro _
    | with_reducible assumption
    | with_reducible apply ok_ite
    | with_reducible apply State.bstRun_ok
    | dsimp only

theorem execBstRunBank_ok {q : List Instr} (a0) (a1 : State) (h1 : State.Ok q a1) : OutOk q (execBstRunBank a0 a1) := by
  unfold execBstRunBank
  repeat' first
    | with_reducible apply out_next
    | with_reducible apply out_ite
    | intro _
    | with_reducible assumption
    | with_reducible apply ok_ite
    | with_reducible apply State.bstRun_ok
    | dsimp only

theorem execBstRunHbm_ok {q : List Instr} (a0) (a1 : State) (h1 : State.Ok q a1) : OutOk q (execBstRunHbm a0 a1) := by
  unfold execBstRunHbm
  repeat' first
    | with_reducible apply out_next
    | with_reducible apply out_ite
    | intro _
    | with_reducible assumption
    | with_reducible apply ok_ite
    | with_reducible apply State.bstRun_ok
    | dsimp only

theorem execBstRunSpareRank_ok {q : List Instr} (a0) (a1 : State) (h1 : State.Ok q a1) : OutOk q (execBstRunSpareRank a0 a1) := by
  unfold execBstRunSpareRank
  repeat' first
    | with_reducible apply out_next
    | with_reducible apply out_ite
    | intro _
    | with_reducible assumption
    | with_reducible apply ok_ite
    | with_reducible apply State.bstRun_ok
    | dsimp only

theorem execBstRunCaches_ok {q : List Instr} (a0) (a1 : State) (h1 : State.Ok q a1) : OutOk q (execBstRunCaches a0 a1) := by
  unfold execBstRunCaches
  repeat' first
    | with_reducible apply out_next
    | with_reducible apply out_ite
    | intro _
    | with_reducible assumption
    | with_reducible apply ok_ite
    | with_reducible apply State.bstRun_ok
    | dsimp only

theorem execBstRunPort_ok {q : List Instr} (a0) (a1 : State) (h1 : State.Ok q a1) : OutOk q (execBstRunPort a0 a1) := by
  unfold execBstRunPort
  repeat' first
    | with_reducible apply out_next
    | with_reducible apply out_ite
    | intro _
    | with_reducible assumption
    | with_reducible apply ok_ite
    | with_reducible apply State.bstRun_ok
    | dsimp only

theorem execBstRunAnalog_ok {q : List Instr} (a0) (a1 : State) (h1 : State.Ok q a1) : OutOk q (execBstRunAnalog a0 a1) := by
  unfold execBstRunAnalog
  repeat' first
    | with_reducible apply out_next
    | with_reducible apply out_ite
    | intro _
    | with_reducible assumption
    | with_reducible apply ok_ite
    | with_reducible apply State.bstRun_ok
    | dsimp only

theorem execBstRunDahlia_ok {q : List Instr} (a0) (a1 : State) (h1 : State.Ok q a1) : OutOk q (execBstRunDahlia a0 a1) := by
  unfold execBstRunDahlia
  repeat' first
    | with_reducible apply out_next
    | with_reducible apply out_ite
    | intro _
    | with_reducible assumption
    | with_reducible apply ok_ite
    | with_reducible apply State.bstRun_ok
    | dsimp only

theorem execBstAbort_ok {q : List Instr} (a0 : State) (h0 : State.Ok q a0) : OutOk q (execBstAbort a0) := by
  unfold execBstAbort
  repeat' first
    | with_reducible apply out_next
    | with_reducible apply out_ite
    | intro _
    | with_reducible assumption
    | with_reducible apply ok_ite
    | with_reducible apply State.bstAbort_ok
    | dsimp only

theorem execBstClrCnt_ok {q : List Instr} (a0 : State) (h0 : State.Ok q a0) : OutOk q (execBstClrCnt a0) := by
  unfold execBstClrCnt
  repeat' first
    | with_reducible apply out_next
    | with_reducible apply out_ite
    | intro _
    | with_reducible assumption
    | with_reducible apply ok_ite
    | with_reducible apply State.bstClrCnt_ok
    | dsimp only

theorem State.spareRows_ok {q : List Instr} (a0 : State) (a1) (a2) (h0 : State.Ok q a0) : State.Ok q (State.spareRows a0 a1 a2) := by
  unfold State.spareRows
  repeat' first
    | intro _
    | with_reducible assumption
    | with_reducible apply ok_ite
    | with_reducible apply State.each_ok
    | with_reducible apply State.rowFail_ok
    | dsimp only

theorem State.failRank_ok {q : List Instr} (a0) (a1 : State) (h1 : State.Ok q a1) : State.Ok q (State.failRank a0 a1) := by
  unfold State.failRank
  repeat' first
    | intro _
    | with_reducible assumption
    | with_reducible apply ok_ite
    | with_reducible refine State.repairRecord_ok _ _ ?_ (by assumption)
    | with_reducible apply ok_match_opt
    | dsimp only
    | split

theorem execBstDone_ok {q : List Instr} (a0) (a1) (a2) (a3) (a4 : State) (h4 : State.Ok q a4) : OutOk q (execBstDone a0 a1 a2 a3 a4) := by
  unfold execBstDone
  repeat' first
    | with_reducible apply out_next
    | with_reducible apply out_ite
    | intro _
    | with_reducible assumption
    | with_reducible apply ok_ite
    | with_reducible apply State.bstEffect_ok
    | with_reducible apply State.spareRows_ok
    | with_reducible apply State.each_ok
    | with_reducible apply State.failRank_ok
    | with_reducible apply State.wr_ok
    | with_reducible apply State.rtrActive_ok
    | with_reducible apply State.rtrFault_ok
    | with_reducible apply State.inc_ok
    | with_reducible apply State.bstEvt_ok
    | dsimp only
    | split

theorem State.bstEngineReset_ok {q : List Instr} (a0 : State) (h0 : State.Ok q a0) : State.Ok q (State.bstEngineReset a0) := by
  unfold State.bstEngineReset
  repeat' first
    | intro _
    | with_reducible assumption
    | with_reducible apply ok_ite
    | with_reducible apply State.bstAbort_ok
    | dsimp only
    | split

theorem State.bstIslandReset_ok {q : List Instr} (a0 : State) (a1) (h0 : State.Ok q a0) : State.Ok q (State.bstIslandReset a0 a1) := by
  unfold State.bstIslandReset
  repeat' first
    | intro _
    | with_reducible assumption
    | with_reducible apply ok_ite
    | with_reducible apply State.bstAbort_ok
    | dsimp only
    | split

theorem State.calReject_ok {q : List Instr} (a0 : State) (a1) (h0 : State.Ok q a0) : State.Ok q (State.calReject a0 a1) := by
  unfold State.calReject
  repeat' first
    | intro _
    | with_reducible assumption
    | with_reducible apply ok_ite
    | with_reducible apply State.rejMark_ok
    | with_reducible apply State.calEvt_ok
    | dsimp only

theorem State.calRun_ok {q : List Instr} (a0) (a1) (a2) (a3 : State) (h3 : State.Ok q a3) : State.Ok q (State.calRun a0 a1 a2 a3) := by
  unfold State.calRun
  repeat' first
    | intro _
    | with_reducible assumption
    | with_reducible apply ok_ite
    | with_reducible apply State.calDone_ok
    | with_reducible apply State.wr_ok
    | with_reducible apply State.calFails_ok
    | with_reducible apply State.calEvt_ok
    | dsimp only
    | split

theorem execCalItemDue_ok {q : List Instr} (a0) (a1) (a2) (a3 : State) (h3 : State.Ok q a3) : OutOk q (execCalItemDue a0 a1 a2 a3) := by
  unfold execCalItemDue
  repeat' first
    | with_reducible apply out_next
    | with_reducible apply out_ite
    | intro _
    | with_reducible assumption
    | with_reducible apply ok_ite
    | with_reducible apply State.wrIf_ok
    | with_reducible apply State.wr_ok
    | with_reducible apply State.laneInterval_ok
    | with_reducible apply State.calRun_ok
    | dsimp only
    | split

theorem execVrefCheck_ok {q : List Instr} (a0) (a1 : State) (h1 : State.Ok q a1) : OutOk q (execVrefCheck a0 a1) := by
  unfold execVrefCheck
  repeat' first
    | with_reducible apply out_next
    | with_reducible apply out_ite
    | intro _
    | with_reducible assumption
    | with_reducible apply ok_ite
    | with_reducible apply State.wr_ok
    | with_reducible apply State.calEvt_ok
    | dsimp only
    | split

theorem execHbmDqCal_ok {q : List Instr} (a0) (a1 : State) (h1 : State.Ok q a1) : OutOk q (execHbmDqCal a0 a1) := by
  unfold execHbmDqCal
  repeat' first
    | with_reducible apply out_next
    | with_reducible apply out_ite
    | intro _
    | with_reducible assumption
    | with_reducible apply ok_ite
    | with_reducible apply State.calRun_ok
    | dsimp only
    | split

theorem execHbmDqForced_ok {q : List Instr} (a0) (a1 : State) (h1 : State.Ok q a1) : OutOk q (execHbmDqForced a0 a1) := by
  unfold execHbmDqForced
  repeat' first
    | with_reducible apply out_next
    | with_reducible apply out_ite
    | intro _
    | with_reducible assumption
    | with_reducible apply ok_ite
    | with_reducible apply State.calRun_ok
    | with_reducible apply State.inc_ok
    | with_reducible apply State.wr_ok
    | with_reducible apply State.calEvt_ok
    | dsimp only
    | split

theorem State.calNow_ok {q : List Instr} (a0 : State) (a1) (a2) (h0 : State.Ok q a0) : State.Ok q (State.calNow a0 a1 a2) := by
  unfold State.calNow
  repeat' first
    | intro _
    | with_reducible assumption
    | with_reducible apply ok_ite
    | with_reducible apply State.calReject_ok
    | with_reducible apply State.each_ok
    | with_reducible apply State.calRun_ok
    | dsimp only
    | split

theorem State.calClrCnt_ok {q : List Instr} (a0 : State) (h0 : State.Ok q a0) : State.Ok q (State.calClrCnt a0) := by
  unfold State.calClrCnt
  repeat' first
    | intro _
    | with_reducible assumption
    | with_reducible apply ok_ite
    | with_reducible apply State.each_ok
    | with_reducible apply State.wr_ok
    | dsimp only

theorem State.calCmd_ok {q : List Instr} (a0 : State) (a1) (h0 : State.Ok q a0) : State.Ok q (State.calCmd a0 a1) := by
  unfold State.calCmd
  repeat' first
    | intro _
    | with_reducible assumption
    | with_reducible apply ok_ite
    | with_reducible apply State.calNow_ok
    | with_reducible apply State.calClrCnt_ok
    | with_reducible apply State.calReject_ok
    | dsimp only
    | split

theorem execCalCalNow_ok {q : List Instr} (a0) (a1) (a2 : State) (h2 : State.Ok q a2) : OutOk q (execCalCalNow a0 a1 a2) := by
  unfold execCalCalNow
  repeat' first
    | with_reducible apply out_next
    | with_reducible apply out_ite
    | intro _
    | with_reducible assumption
    | with_reducible apply ok_ite
    | with_reducible apply State.calNow_ok
    | dsimp only

theorem execCalClrCnt_ok {q : List Instr} (a0 : State) (h0 : State.Ok q a0) : OutOk q (execCalClrCnt a0) := by
  unfold execCalClrCnt
  repeat' first
    | with_reducible apply out_next
    | with_reducible apply out_ite
    | intro _
    | with_reducible assumption
    | with_reducible apply ok_ite
    | with_reducible apply State.calClrCnt_ok
    | dsimp only

theorem State.telReject_ok {q : List Instr} (a0 : State) (a1) (h0 : State.Ok q a0) : State.Ok q (State.telReject a0 a1) := by
  unfold State.telReject
  repeat' first
    | intro _
    | with_reducible assumption
    | with_reducible apply ok_ite
    | with_reducible apply State.rejMark_ok
    | with_reducible apply State.telEvt_ok
    | dsimp only

theorem State.telWrite_ok {q : List Instr} (a0 : State) (a1) (h0 : State.Ok q a0) : State.Ok q (State.telWrite a0 a1) := by
  unfold State.telWrite
  repeat' first
    | intro _
    | with_reducible assumption
    | with_reducible apply ok_ite
    | with_reducible refine State.dahTake_ok _ _ _ ?_ (by assumption)
    | with_reducible apply State.answer_ok
    | with_reducible apply State.telEvt_ok
    | with_reducible apply State.dahWrite_ok
    | with_reducible apply State.wr_ok
    | dsimp only
    | split

theorem execTelRecord_ok {q : List Instr} (a0) (a1 : State) (h1 : State.Ok q a1) : OutOk q (execTelRecord a0 a1) := by
  unfold execTelRecord
  repeat' first
    | with_reducible apply out_next
    | with_reducible apply out_ite
    | intro _
    | with_reducible assumption
    | with_reducible apply ok_ite
    | with_reducible apply State.telWrite_ok
    | dsimp only
    | split

theorem State.telSnapshot_ok {q : List Instr} (a0 : State) (a1) (h0 : State.Ok q a0) : State.Ok q (State.telSnapshot a0 a1) := by
  unfold State.telSnapshot
  repeat' first
    | intro _
    | with_reducible assumption
    | with_reducible apply ok_ite
    | with_reducible apply State.telWrite_ok
    | with_reducible apply State.telReject_ok
    | dsimp only
    | split

theorem execTelSnapshot_ok {q : List Instr} (a0) (a1 : State) (h1 : State.Ok q a1) : OutOk q (execTelSnapshot a0 a1) := by
  unfold execTelSnapshot
  repeat' first
    | with_reducible apply out_next
    | with_reducible apply out_ite
    | intro _
    | with_reducible assumption
    | with_reducible apply ok_ite
    | with_reducible apply State.telSnapshot_ok
    | dsimp only

theorem State.journalUser_ok {q : List Instr} (a0 : State) (h0 : State.Ok q a0) : State.Ok q (State.journalUser a0) := by
  unfold State.journalUser
  repeat' first
    | intro _
    | with_reducible assumption
    | with_reducible apply ok_ite
    | with_reducible apply State.telReject_ok
    | with_reducible apply State.coRead_ok
    | with_reducible refine State.coRead_okE (by assumption) ?_
    | with_reducible apply State.answer_ok
    | with_reducible apply State.journalWith_ok
    | dsimp only
    | split

theorem execTelJournalUser_ok {q : List Instr} (a0 : State) (h0 : State.Ok q a0) : OutOk q (execTelJournalUser a0) := by
  unfold execTelJournalUser
  repeat' first
    | with_reducible apply out_next
    | with_reducible apply out_ite
    | intro _
    | with_reducible assumption
    | with_reducible apply ok_ite
    | with_reducible apply State.journalUser_ok
    | dsimp only

theorem State.telClrCnt_ok {q : List Instr} (a0 : State) (h0 : State.Ok q a0) : State.Ok q (State.telClrCnt a0) := by
  unfold State.telClrCnt
  repeat' first
    | intro _
    | with_reducible assumption
    | with_reducible apply ok_ite
    | with_reducible apply State.each_ok
    | with_reducible apply State.wr_ok
    | dsimp only

theorem execTelClrCnt_ok {q : List Instr} (a0 : State) (h0 : State.Ok q a0) : OutOk q (execTelClrCnt a0) := by
  unfold execTelClrCnt
  repeat' first
    | with_reducible apply out_next
    | with_reducible apply out_ite
    | intro _
    | with_reducible assumption
    | with_reducible apply ok_ite
    | with_reducible apply State.telClrCnt_ok
    | dsimp only

theorem State.telCmd_ok {q : List Instr} (a0 : State) (a1) (h0 : State.Ok q a0) : State.Ok q (State.telCmd a0 a1) := by
  unfold State.telCmd
  repeat' first
    | intro _
    | with_reducible assumption
    | with_reducible apply ok_ite
    | with_reducible apply State.telSnapshot_ok
    | with_reducible apply State.journalUser_ok
    | with_reducible apply State.telClrCnt_ok
    | with_reducible apply State.telReject_ok
    | dsimp only
    | split

theorem execJournalWrite_ok {q : List Instr} (a0) (a1 : State) (h1 : State.Ok q a1) : OutOk q (execJournalWrite a0 a1) := by
  unfold execJournalWrite
  repeat' first
    | with_reducible apply out_next
    | with_reducible apply out_ite
    | intro _
    | with_reducible assumption
    | with_reducible apply ok_ite
    | with_reducible refine State.dahTake_ok _ _ _ ?_ (by assumption)
    | with_reducible apply State.answer_ok
    | with_reducible apply State.wr_ok
    | with_reducible apply State.telEvt_ok
    | with_reducible apply State.dahWrite_ok
    | with_reducible apply State.inc_ok
    | dsimp only
    | split

end Sys2Proof.Machine
end

