-- ==== Sys2Proof/Laws/OkAster.lean ====
section
/-! SUPPORT. What the operations of Machine/Aster.lean keep: the canonical form of the state and its queue. -/

namespace Sys2Proof.Machine

theorem State.astEvt_ok {q : List Instr} (a0 : State) (a1) (h0 : State.Ok q a0) : State.Ok q (State.astEvt a0 a1) := by
  unfold State.astEvt
  repeat' first
    | intro _
    | with_reducible assumption
    | with_reducible apply ok_ite
    | with_reducible apply State.raiseB_ok
    | dsimp only
    | split

theorem State.astReject_ok {q : List Instr} (a0 : State) (a1) (h0 : State.Ok q a0) : State.Ok q (State.astReject a0 a1) := by
  unfold State.astReject
  repeat' first
    | intro _
    | with_reducible assumption
    | with_reducible apply ok_ite
    | with_reducible apply State.rejMark_ok
    | with_reducible apply State.astEvt_ok
    | dsimp only

theorem State.limitSet_ok {q : List Instr} (a0 : State) (a1) (h0 : State.Ok q a0) : State.Ok q (State.limitSet a0 a1) := by
  unfold State.limitSet
  repeat' first
    | intro _
    | with_reducible assumption
    | with_reducible apply ok_ite
    | with_reducible apply State.wr_ok
    | dsimp only
    | split

theorem State.stagingSet_ok {q : List Instr} (a0 : State) (a1) (h0 : State.Ok q a0) : State.Ok q (State.stagingSet a0 a1) := by
  unfold State.stagingSet
  repeat' first
    | intro _
    | with_reducible assumption
    | with_reducible apply ok_ite
    | with_reducible apply State.deny_ok
    | with_reducible apply State.wr_ok
    | dsimp only
    | split

theorem State.methodSettle_ok {q : List Instr} (a0 : State) (h0 : State.Ok q a0) : State.Ok q (State.methodSettle a0) := by
  unfold State.methodSettle
  repeat' first
    | intro _
    | with_reducible assumption
    | with_reducible apply ok_ite
    | with_reducible apply State.wr_ok
    | dsimp only
    | split

theorem State.methodSet_ok {q : List Instr} (a0 : State) (a1) (h0 : State.Ok q a0) : State.Ok q (State.methodSet a0 a1) := by
  unfold State.methodSet
  repeat' first
    | intro _
    | with_reducible assumption
    | with_reducible apply ok_ite
    | with_reducible apply State.wr_ok
    | with_reducible apply State.methodSettle_ok
    | dsimp only

theorem State.astPwrLimit_ok {q : List Instr} (a0 : State) (a1) (h0 : State.Ok q a0) : State.Ok q (State.astPwrLimit a0 a1) := by
  unfold State.astPwrLimit
  repeat' first
    | intro _
    | with_reducible assumption
    | with_reducible apply ok_ite
    | with_reducible apply State.deny_ok
    | with_reducible apply State.wr_ok
    | with_reducible apply State.limitSet_ok
    | dsimp only
    | split

theorem State.astStaging_ok {q : List Instr} (a0 : State) (a1) (h0 : State.Ok q a0) : State.Ok q (State.astStaging a0 a1) := by
  unfold State.astStaging
  repeat' first
    | intro _
    | with_reducible assumption
    | with_reducible apply ok_ite
    | with_reducible apply State.wr_ok
    | with_reducible apply State.stagingSet_ok
    | dsimp only
    | split

theorem State.astMethodWr_ok {q : List Instr} (a0 : State) (a1) (h0 : State.Ok q a0) : State.Ok q (State.astMethodWr a0 a1) := by
  unfold State.astMethodWr
  repeat' first
    | intro _
    | with_reducible assumption
    | with_reducible apply ok_ite
    | with_reducible apply State.deny_ok
    | with_reducible apply State.wr_ok
    | with_reducible apply State.methodSet_ok
    | dsimp only
    | split

theorem State.astMethod_ok {q : List Instr} (a0 : State) (a1) (h0 : State.Ok q a0) : State.Ok q (State.astMethod a0 a1) := by
  unfold State.astMethod
  repeat' first
    | intro _
    | with_reducible assumption
    | with_reducible apply ok_ite
    | with_reducible apply State.wr_ok
    | with_reducible apply State.deny_ok
    | with_reducible apply State.astMethodWr_ok
    | dsimp only
    | split

theorem State.astThresh_ok {q : List Instr} (a0 : State) (a1) (a2) (h0 : State.Ok q a0) : State.Ok q (State.astThresh a0 a1 a2) := by
  unfold State.astThresh
  repeat' first
    | intro _
    | with_reducible assumption
    | with_reducible apply ok_ite
    | with_reducible apply State.deny_ok
    | with_reducible apply State.wr_ok
    | dsimp only
    | split

theorem State.astChCfg_ok {q : List Instr} (a0 : State) (a1) (a2) (h0 : State.Ok q a0) : State.Ok q (State.astChCfg a0 a1 a2) := by
  unfold State.astChCfg
  repeat' first
    | intro _
    | with_reducible assumption
    | with_reducible apply ok_ite
    | with_reducible apply State.wr_ok
    | with_reducible apply State.deny_ok
    | dsimp only
    | split

theorem execAstPwrLimitWrite_ok {q : List Instr} (a0) (a1 : State) (h1 : State.Ok q a1) : OutOk q (execAstPwrLimitWrite a0 a1) := by
  unfold execAstPwrLimitWrite
  repeat' first
    | with_reducible apply out_next
    | with_reducible apply out_ite
    | intro _
    | with_reducible assumption
    | with_reducible apply ok_ite
    | with_reducible apply State.astPwrLimit_ok
    | dsimp only

theorem execAstStagingWrite_ok {q : List Instr} (a0) (a1 : State) (h1 : State.Ok q a1) : OutOk q (execAstStagingWrite a0 a1) := by
  unfold execAstStagingWrite
  repeat' first
    | with_reducible apply out_next
    | with_reducible apply out_ite
    | intro _
    | with_reducible assumption
    | with_reducible apply ok_ite
    | with_reducible apply State.astStaging_ok
    | dsimp only

theorem execAstMethodWrite_ok {q : List Instr} (a0) (a1 : State) (h1 : State.Ok q a1) : OutOk q (execAstMethodWrite a0 a1) := by
  unfold execAstMethodWrite
  repeat' first
    | with_reducible apply out_next
    | with_reducible apply out_ite
    | intro _
    | with_reducible assumption
    | with_reducible apply ok_ite
    | with_reducible apply State.astMethodWr_ok
    | dsimp only

theorem execMethodApply_ok {q : List Instr} (a0 : State) (h0 : State.Ok q a0) : OutOk q (execMethodApply a0) := by
  unfold execMethodApply
  repeat' first
    | with_reducible apply out_next
    | with_reducible apply out_ite
    | intro _
    | with_reducible assumption
    | with_reducible apply ok_ite
    | with_reducible apply State.methodSettle_ok
    | dsimp only

theorem State.balShow_ok {q : List Instr} (a0 : State) (h0 : State.Ok q a0) : State.Ok q (State.balShow a0) := by
  unfold State.balShow
  repeat' first
    | intro _
    | with_reducible assumption
    | with_reducible apply ok_ite
    | with_reducible apply State.wr_ok
    | with_reducible apply ok_foldl
    | with_reducible apply ok_foldl2
    | with_reducible apply ok_foldl3
    | dsimp only

theorem State.balStep_ok {q : List Instr} (a0) (a1 : State) (h1 : State.Ok q a1) : State.Ok q (State.balStep a0 a1) := by
  unfold State.balStep
  repeat' first
    | intro _
    | with_reducible assumption
    | with_reducible apply ok_ite
    | with_reducible apply State.wr_ok
    | with_reducible apply State.inc_ok
    | dsimp only
    | split

theorem State.govStep_ok {q : List Instr} (a0 : State) (h0 : State.Ok q a0) : State.Ok q (State.govStep a0) := by
  unfold State.govStep
  repeat' first
    | intro _
    | with_reducible assumption
    | with_reducible apply ok_ite
    | with_reducible apply State.wr_ok
    | with_reducible apply State.astEvt_ok
    | dsimp only
    | split

theorem State.declStep_ok {q : List Instr} (a0) (a1 : State) (h1 : State.Ok q a1) : State.Ok q (State.declStep a0 a1) := by
  unfold State.declStep
  repeat' first
    | intro _
    | with_reducible assumption
    | with_reducible apply ok_ite
    | with_reducible apply State.wr_ok
    | with_reducible apply State.wrIf_ok
    | dsimp only
    | split

theorem execPowerMeasure_ok {q : List Instr} (a0) (a1) (a2 : State) (h2 : State.Ok q a2) : OutOk q (execPowerMeasure a0 a1 a2) := by
  unfold execPowerMeasure
  repeat' first
    | with_reducible apply out_next
    | with_reducible apply out_ite
    | intro _
    | with_reducible assumption
    | with_reducible apply ok_ite
    | with_reducible apply State.each_ok
    | with_reducible apply State.wr_ok
    | with_reducible apply State.declStep_ok
    | with_reducible apply State.govStep_ok
    | with_reducible apply State.balShow_ok
    | with_reducible apply ok_match_opt
    | with_reducible apply ok_foldl
    | with_reducible apply ok_foldl2
    | with_reducible apply ok_foldl3
    | dsimp only

theorem State.shareWave_ok {q : List Instr} (a0) (a1) (a2) (a3 : State) (h3 : State.Ok q a3) : State.Ok q (State.shareWave a0 a1 a2 a3) := by
  induction a0 generalizing a1 a2 a3 with
  | nil => exact h3
  | cons n r ih =>
    unfold State.shareWave
    dsimp only
    split
    · exact ih _ _ _ h3
    · split
      · exact h3
      · exact ih _ _ _ (State.inc_ok _ _ _ (State.wr_ok _ _ _ h3))

theorem State.shareShow_ok {q : List Instr} (a0 : State) (h0 : State.Ok q a0) : State.Ok q (State.shareShow a0) := by
  unfold State.shareShow
  repeat' first
    | intro _
    | with_reducible assumption
    | with_reducible apply ok_ite
    | with_reducible apply State.wr_ok
    | dsimp only
    | split

theorem State.levelSteps_ok {q : List Instr} (a0) (a1 : State) (h1 : State.Ok q a1) : State.Ok q (State.levelSteps a0 a1) := by
  induction a0 generalizing a1 with
  | zero => exact h1
  | succ k ih =>
    unfold State.levelSteps
    extract_lets l w t cost
    split
    · exact h1
    · split
      · exact h1
      · exact ih _ (State.each_ok _ _ _ (fun n u hu => State.wr_ok _ _ _ hu) (State.inc_ok _ _ _ (State.wr_ok _ _ _ h1)))

theorem State.levelAdmit_ok {q : List Instr} (a0 : State) (h0 : State.Ok q a0) : State.Ok q (State.levelAdmit a0) := by
  unfold State.levelAdmit
  repeat' first
    | intro _
    | with_reducible assumption
    | with_reducible apply ok_ite
    | with_reducible apply State.levelSteps_ok
    | with_reducible apply State.wr_ok
    | with_reducible apply State.shareWave_ok
    | with_reducible apply State.shareShow_ok
    | dsimp only
    | split

theorem State.rampsAdmit_ok {q : List Instr} (a0) (a1 : State) (h1 : State.Ok q a1) : State.Ok q (State.rampsAdmit a0 a1) := by
  induction a0 generalizing a1 with
  | nil => exact h1
  | cons n r ih =>
    unfold State.rampsAdmit
    split
    · exact ih _ h1
    · split
      · exact ih _ (State.rampAdmit_ok _ _ h1)
      · exact h1

theorem execSlewWindow_ok {q : List Instr} (a0) (a1 : State) (h1 : State.Ok q a1) : OutOk q (execSlewWindow a0 a1) := by
  unfold execSlewWindow
  repeat' first
    | with_reducible apply out_next
    | with_reducible apply out_ite
    | intro _
    | with_reducible assumption
    | with_reducible apply ok_ite
    | with_reducible apply State.wr_ok
    | with_reducible apply State.rampsAdmit_ok
    | with_reducible apply State.each_ok
    | with_reducible apply State.balStep_ok
    | with_reducible apply State.levelAdmit_ok
    | with_reducible apply State.balShow_ok
    | dsimp only
    | split

theorem State.chConvert_ok {q : List Instr} (a0) (a1) (a2 : State) (h2 : State.Ok q a2) : State.Ok q (State.chConvert a0 a1 a2) := by
  unfold State.chConvert
  repeat' first
    | intro _
    | with_reducible assumption
    | with_reducible apply ok_ite
    | with_reducible apply State.wr_ok
    | with_reducible apply State.astEvt_ok
    | dsimp only
    | split

theorem State.chPredict_ok {q : List Instr} (a0) (a1 : State) (h1 : State.Ok q a1) : State.Ok q (State.chPredict a0 a1) := by
  unfold State.chPredict
  repeat' first
    | intro _
    | with_reducible assumption
    | with_reducible apply ok_ite
    | with_reducible apply State.fresh_ok
    | with_reducible refine State.fresh_okE (by assumption) ?_
    | with_reducible apply State.wr_ok
    | with_reducible apply ok_foldl
    | with_reducible apply ok_foldl2
    | with_reducible apply ok_foldl3
    | dsimp only
    | split

theorem State.chJudge_ok {q : List Instr} (a0) (a1 : State) (h1 : State.Ok q a1) : State.Ok q (State.chJudge a0 a1) := by
  unfold State.chJudge
  repeat' first
    | intro _
    | with_reducible assumption
    | with_reducible apply ok_ite
    | with_reducible apply State.wr_ok
    | with_reducible apply State.astEvt_ok
    | dsimp only
    | split

theorem State.chTrack_ok {q : List Instr} (a0) (a1 : State) (h1 : State.Ok q a1) : State.Ok q (State.chTrack a0 a1) := by
  unfold State.chTrack
  repeat' first
    | intro _
    | with_reducible assumption
    | with_reducible apply ok_ite
    | with_reducible apply State.wr_ok
    | with_reducible apply State.astEvt_ok
    | dsimp only
    | split

theorem State.hardCause_ok {q : List Instr} (a0 : State) (h0 : State.Ok q a0) : State.Ok q (State.hardCause a0) := by
  unfold State.hardCause
  repeat' first
    | intro _
    | with_reducible assumption
    | with_reducible apply ok_ite
    | with_reducible apply State.astEvt_ok
    | with_reducible apply State.wr_ok
    | with_reducible apply State.journal_ok
    | dsimp only
    | split

theorem State.stopBegin_ok {q : List Instr} (a0 : State) (h0 : State.Ok q a0) : State.Ok q (State.stopBegin a0) := by
  unfold State.stopBegin
  repeat' first
    | intro _
    | with_reducible assumption
    | with_reducible apply ok_ite
    | with_reducible apply State.astEvt_ok
    | with_reducible apply State.wr_ok
    | dsimp only
    | split

theorem State.stopWrites_ok {q : List Instr} (a0 : State) (h0 : State.Ok q a0) : State.Ok q (State.stopWrites a0) := by
  unfold State.stopWrites
  repeat' first
    | intro _
    | with_reducible assumption
    | with_reducible apply ok_ite
    | with_reducible apply State.limitSet_ok
    | with_reducible apply State.stagingSet_ok
    | with_reducible apply State.methodSet_ok
    | with_reducible apply State.wr_ok
    | dsimp only
    | split

theorem State.stopEnd_ok {q : List Instr} (a0 : State) (h0 : State.Ok q a0) : State.Ok q (State.stopEnd a0) := by
  unfold State.stopEnd
  repeat' first
    | intro _
    | with_reducible assumption
    | with_reducible apply ok_ite
    | with_reducible apply State.wr_ok
    | with_reducible apply State.stopWrites_ok
    | with_reducible apply State.each_ok
    | with_reducible apply State.clkSettle_ok
    | with_reducible apply State.shareShow_ok
    | with_reducible apply State.astEvt_ok
    | dsimp only

theorem State.thermalStep_ok {q : List Instr} (a0 : State) (h0 : State.Ok q a0) : State.Ok q (State.thermalStep a0) := by
  unfold State.thermalStep
  repeat' first
    | intro _
    | with_reducible assumption
    | with_reducible apply ok_ite
    | with_reducible apply State.hardCause_ok
    | with_reducible apply State.stopBegin_ok
    | with_reducible apply State.wr_ok
    | with_reducible apply State.astEvt_ok
    | with_reducible apply State.stopEnd_ok
    | dsimp only
    | split

theorem execTempConvert_ok {q : List Instr} (a0) (a1 : State) (h1 : State.Ok q a1) : OutOk q (execTempConvert a0 a1) := by
  unfold execTempConvert
  repeat' first
    | with_reducible apply out_next
    | with_reducible apply out_ite
    | intro _
    | with_reducible assumption
    | with_reducible apply ok_ite
    | with_reducible apply State.each_ok
    | with_reducible apply State.chConvert_ok
    | with_reducible apply State.chPredict_ok
    | with_reducible apply State.chJudge_ok
    | with_reducible apply State.chTrack_ok
    | with_reducible apply State.wr_ok
    | with_reducible apply State.inc_ok
    | with_reducible apply State.thermalStep_ok
    | with_reducible apply ok_match_opt
    | dsimp only
    | split

theorem execThmLevelStep_ok {q : List Instr} (a0 : State) (h0 : State.Ok q a0) : OutOk q (execThmLevelStep a0) := by
  unfold execThmLevelStep
  repeat' first
    | with_reducible apply out_next
    | with_reducible apply out_ite
    | intro _
    | with_reducible assumption
    | with_reducible apply ok_ite
    | with_reducible apply State.wr_ok
    | dsimp only
    | split

theorem State.enginesStop_ok {q : List Instr} (a0 : State) (h0 : State.Ok q a0) : State.Ok q (State.enginesStop a0) := by
  unfold State.enginesStop
  repeat' first
    | intro _
    | with_reducible assumption
    | with_reducible apply ok_ite
    | with_reducible apply State.each_ok
    | with_reducible apply State.runStop_ok
    | with_reducible apply State.hopStop_ok
    | with_reducible apply State.lanStop_ok
    | with_reducible apply State.marStopCmd_ok
    | with_reducible apply State.mstAbort_ok
    | with_reducible apply State.mstStop_ok
    | dsimp only
    | split

theorem execStopNoticeEnd_ok {q : List Instr} (a0 : State) (h0 : State.Ok q a0) : OutOk q (execStopNoticeEnd a0) := by
  unfold execStopNoticeEnd
  repeat' first
    | with_reducible apply out_next
    | with_reducible apply out_ite
    | intro _
    | with_reducible assumption
    | with_reducible apply ok_ite
    | with_reducible apply State.enginesStop_ok
    | with_reducible apply State.wr_ok
    | with_reducible apply State.shareShow_ok
    | dsimp only
    | split

theorem execOrderlyStopDone_ok {q : List Instr} (a0 : State) (h0 : State.Ok q a0) : OutOk q (execOrderlyStopDone a0) := by
  unfold execOrderlyStopDone
  repeat' first
    | with_reducible apply out_next
    | with_reducible apply out_ite
    | intro _
    | with_reducible assumption
    | with_reducible apply ok_ite
    | with_reducible apply State.wr_ok
    | dsimp only
    | split

theorem execOvercurrent_ok {q : List Instr} (a0 : State) (h0 : State.Ok q a0) : OutOk q (execOvercurrent a0) := by
  unfold execOvercurrent
  repeat' first
    | with_reducible apply out_next
    | with_reducible apply out_ite
    | intro _
    | with_reducible assumption
    | with_reducible apply ok_ite
    | with_reducible apply State.hardCause_ok
    | dsimp only

theorem execStopTimeout_ok {q : List Instr} (a0 : State) (h0 : State.Ok q a0) : OutOk q (execStopTimeout a0) := by
  unfold execStopTimeout
  repeat' first
    | with_reducible apply out_next
    | with_reducible apply out_ite
    | intro _
    | with_reducible assumption
    | with_reducible apply ok_ite
    | with_reducible apply State.hardCause_ok
    | dsimp only
    | split

theorem State.astResume_ok {q : List Instr} (a0 : State) (h0 : State.Ok q a0) : State.Ok q (State.astResume a0) := by
  unfold State.astResume
  repeat' first
    | intro _
    | with_reducible assumption
    | with_reducible apply ok_ite
    | with_reducible apply State.stopEnd_ok
    | with_reducible apply State.astReject_ok
    | dsimp only
    | split

theorem State.astStopCmd_ok {q : List Instr} (a0 : State) (h0 : State.Ok q a0) : State.Ok q (State.astStopCmd a0) := by
  unfold State.astStopCmd
  repeat' first
    | intro _
    | with_reducible assumption
    | with_reducible apply ok_ite
    | with_reducible apply State.stopBegin_ok
    | with_reducible apply State.astReject_ok
    | dsimp only
    | split

theorem State.astClrSuspect_ok {q : List Instr} (a0 : State) (a1) (h0 : State.Ok q a0) : State.Ok q (State.astClrSuspect a0 a1) := by
  unfold State.astClrSuspect
  repeat' first
    | intro _
    | with_reducible assumption
    | with_reducible apply ok_ite
    | with_reducible apply State.wr_ok
    | with_reducible apply State.astReject_ok
    | dsimp only
    | split

theorem State.astClrCnt_ok {q : List Instr} (a0 : State) (h0 : State.Ok q a0) : State.Ok q (State.astClrCnt a0) := by
  unfold State.astClrCnt
  repeat' first
    | intro _
    | with_reducible assumption
    | with_reducible apply ok_ite
    | with_reducible apply State.each_ok
    | with_reducible apply State.wr_ok
    | dsimp only

theorem State.astCmd_ok {q : List Instr} (a0 : State) (a1) (a2) (h0 : State.Ok q a0) : State.Ok q (State.astCmd a0 a1 a2) := by
  unfold State.astCmd
  repeat' first
    | intro _
    | with_reducible assumption
    | with_reducible apply ok_ite
    | with_reducible apply State.astResume_ok
    | with_reducible apply State.astStopCmd_ok
    | with_reducible apply State.astClrSuspect_ok
    | with_reducible apply State.astClrCnt_ok
    | with_reducible apply State.astReject_ok
    | dsimp only
    | split

theorem execAstResume_ok {q : List Instr} (a0 : State) (h0 : State.Ok q a0) : OutOk q (execAstResume a0) := by
  unfold execAstResume
  repeat' first
    | with_reducible apply out_next
    | with_reducible apply out_ite
    | intro _
    | with_reducible assumption
    | with_reducible apply ok_ite
    | with_reducible apply State.astResume_ok
    | dsimp only

theorem execAstStop_ok {q : List Instr} (a0 : State) (h0 : State.Ok q a0) : OutOk q (execAstStop a0) := by
  unfold execAstStop
  repeat' first
    | with_reducible apply out_next
    | with_reducible apply out_ite
    | intro _
    | with_reducible assumption
    | with_reducible apply ok_ite
    | with_reducible apply State.astStopCmd_ok
    | dsimp only

theorem execAstClrSuspect_ok {q : List Instr} (a0) (a1 : State) (h1 : State.Ok q a1) : OutOk q (execAstClrSuspect a0 a1) := by
  unfold execAstClrSuspect
  repeat' first
    | with_reducible apply out_next
    | with_reducible apply out_ite
    | intro _
    | with_reducible assumption
    | with_reducible apply ok_ite
    | with_reducible apply State.astClrSuspect_ok
    | dsimp only

theorem execAstClrCnt_ok {q : List Instr} (a0 : State) (h0 : State.Ok q a0) : OutOk q (execAstClrCnt a0) := by
  unfold execAstClrCnt
  repeat' first
    | with_reducible apply out_next
    | with_reducible apply out_ite
    | intro _
    | with_reducible assumption
    | with_reducible apply ok_ite
    | with_reducible apply State.astClrCnt_ok
    | dsimp only

end Sys2Proof.Machine
end

