-- ==== Sys2Proof/Laws/OkBoot.lean ====
section
/-! SUPPORT. What the operations of Machine/Boot.lean keep: the canonical form of the state and its queue. -/

namespace Sys2Proof.Machine

theorem State.sysEvt_ok {q : List Instr} (a0 : State) (a1) (h0 : State.Ok q a0) : State.Ok q (State.sysEvt a0 a1) := by
  unfold State.sysEvt
  repeat' first
    | intro _
    | with_reducible assumption
    | with_reducible apply ok_ite
    | with_reducible apply State.raiseB_ok
    | dsimp only
    | split

theorem State.sysReject_ok {q : List Instr} (a0 : State) (a1) (h0 : State.Ok q a0) : State.Ok q (State.sysReject a0 a1) := by
  unfold State.sysReject
  repeat' first
    | intro _
    | with_reducible assumption
    | with_reducible apply ok_ite
    | with_reducible apply State.rejMark_ok
    | with_reducible apply State.sysEvt_ok
    | dsimp only

theorem State.islandReset_ok {q : List Instr} (a0 : State) (a1) (a2) (h0 : State.Ok q a0) : State.Ok q (State.islandReset a0 a1 a2) := by
  unfold State.islandReset
  repeat' first
    | intro _
    | with_reducible assumption
    | with_reducible apply ok_ite
    | with_reducible apply State.discardMaster_ok
    | with_reducible apply State.wr_ok
    | with_reducible apply State.fpCut_ok
    | with_reducible apply State.slcFlushAll_ok
    | with_reducible apply State.rlkFlush_ok
    | with_reducible apply State.fabricReset_ok
    | with_reducible apply State.weirShut_ok
    | dsimp only
    | split
    | (rw [ok_mk_iff]; refine ⟨?_, ?_, ?_, ?_⟩)
    | with_reducible refine State.Ok.pending ?_
    | with_reducible apply State.Ok.m
    | with_reducible apply State.Ok.c
    | with_reducible apply State.Ok.r

theorem State.resetSettle_ok {q : List Instr} (a0 : State) (a1) (h0 : State.Ok q a0) : State.Ok q (State.resetSettle a0 a1) := by
  unfold State.resetSettle
  repeat' first
    | intro _
    | with_reducible assumption
    | with_reducible apply ok_ite
    | with_reducible apply State.wr_ok
    | with_reducible apply State.bstIslandReset_ok
    | with_reducible apply State.islandReset_ok
    | dsimp only
    | split

theorem State.resetIsland_ok {q : List Instr} (a0 : State) (a1) (h0 : State.Ok q a0) : State.Ok q (State.resetIsland a0 a1) := by
  unfold State.resetIsland
  repeat' first
    | intro _
    | with_reducible assumption
    | with_reducible apply ok_ite
    | with_reducible apply State.sysReject_ok
    | with_reducible apply State.wr_ok
    | with_reducible apply State.resetSettle_ok
    | dsimp only
    | split

theorem execIslandResetRelease_ok {q : List Instr} (a0) (a1 : State) (h1 : State.Ok q a1) : OutOk q (execIslandResetRelease a0 a1) := by
  unfold execIslandResetRelease
  repeat' first
    | with_reducible apply out_next
    | with_reducible apply out_ite
    | intro _
    | with_reducible assumption
    | with_reducible apply ok_ite
    | with_reducible apply State.resetSettle_ok
    | with_reducible apply State.resetRelease_ok
    | dsimp only
    | split

theorem State.islCtrlReset_ok {q : List Instr} (a0 : State) (a1) (h0 : State.Ok q a0) : State.Ok q (State.islCtrlReset a0 a1) := by
  unfold State.islCtrlReset
  repeat' first
    | intro _
    | with_reducible assumption
    | with_reducible apply ok_ite
    | with_reducible apply State.each_ok
    | with_reducible apply State.clr_ok
    | dsimp only

theorem State.engineReset_ok {q : List Instr} (a0 : State) (h0 : State.Ok q a0) : State.Ok q (State.engineReset a0) := by
  unfold State.engineReset
  repeat' first
    | intro _
    | with_reducible assumption
    | with_reducible apply ok_ite
    | with_reducible apply State.journal_ok
    | with_reducible apply State.bstEngineReset_ok
    | with_reducible apply State.cfgEngineReset_ok
    | with_reducible apply State.swAbandon_ok
    | with_reducible apply State.hopReset_ok
    | with_reducible apply State.runReset_ok
    | with_reducible apply State.lanReset_ok
    | with_reducible apply State.marReset_ok
    | with_reducible apply State.each_ok
    | with_reducible apply State.prbReset_ok
    | with_reducible apply State.mstEngineReset_ok
    | with_reducible apply State.milEngineReset_ok
    | with_reducible apply State.nocEngineReset_ok
    | with_reducible apply State.slcFlushAll_ok
    | with_reducible apply State.islCtrlReset_ok
    | with_reducible apply State.wr_ok
    | with_reducible apply State.islandReset_ok
    | dsimp only
    | split

theorem State.mainReset_ok {q : List Instr} (a0 : State) (a1) (h0 : State.Ok q a0) : State.Ok q (State.mainReset a0 a1) := by
  unfold State.mainReset
  repeat' first
    | intro _
    | with_reducible assumption
    | with_reducible apply ok_ite
    | with_reducible apply State.dahAbandon_ok
    | with_reducible apply State.discard_ok
    | dsimp only
    | (rw [ok_mk_iff]; refine ⟨?_, ?_, ?_, ?_⟩)
    | with_reducible refine State.Ok.pending ?_
    | with_reducible apply State.Ok.m
    | with_reducible apply State.Ok.c
    | with_reducible apply State.Ok.r
    | with_reducible apply Tab.wf_set
    | with_reducible apply Tab.wf_put
    | with_reducible apply Tab.wf_delRange
    | with_reducible apply Tab.wf_del
    | with_reducible apply Tab.wf_filter

theorem State.auxReset_ok {q : List Instr} (a0 : State) (h0 : State.Ok q a0) : State.Ok q (State.auxReset a0) := by
  unfold State.auxReset
  repeat' first
    | intro _
    | with_reducible assumption
    | with_reducible apply ok_ite
    | with_reducible apply State.clr_ok
    | with_reducible apply State.each_ok
    | with_reducible apply State.wr_ok
    | with_reducible apply State.clrB_ok
    | with_reducible apply ok_foldl
    | with_reducible apply ok_foldl2
    | with_reducible apply ok_foldl3
    | dsimp only
    | split

theorem State.deviceReset_ok {q : List Instr} (a0 : State) (a1) (h0 : State.Ok q a0) : State.Ok q (State.deviceReset a0 a1) := by
  unfold State.deviceReset
  repeat' first
    | intro _
    | with_reducible assumption
    | with_reducible apply ok_ite
    | with_reducible apply State.journal_ok
    | with_reducible apply State.mainReset_ok
    | with_reducible apply State.auxReset_ok
    | with_reducible apply State.wr_ok
    | with_reducible apply State.add_ok
    | with_reducible apply State.lcsApply_ok
    | dsimp only

theorem execTamper_ok {q : List Instr} (a0) (a1 : State) (h1 : State.Ok q a1) : OutOk q (execTamper a0 a1) := by
  unfold execTamper
  repeat' first
    | with_reducible apply out_next
    | with_reducible apply out_ite
    | intro _
    | with_reducible assumption
    | with_reducible apply ok_ite
    | with_reducible apply State.tamperLatch_ok
    | with_reducible apply State.engineReset_ok
    | with_reducible apply State.deviceReset_ok
    | dsimp only
    | split

theorem State.hardStop_ok {q : List Instr} (a0 : State) (h0 : State.Ok q a0) : State.Ok q (State.hardStop a0) := by
  unfold State.hardStop
  repeat' first
    | intro _
    | with_reducible assumption
    | with_reducible apply ok_ite
    | with_reducible apply State.mainReset_ok
    | with_reducible apply State.wr_ok
    | with_reducible apply State.auxReset_ok
    | dsimp only
    | split

theorem execHardStop_ok {q : List Instr} (a0 : State) (h0 : State.Ok q a0) : OutOk q (execHardStop a0) := by
  unfold execHardStop
  repeat' first
    | with_reducible apply out_next
    | with_reducible apply out_ite
    | intro _
    | with_reducible assumption
    | with_reducible apply ok_ite
    | with_reducible apply State.hardStop_ok
    | dsimp only

theorem State.porRelease_ok {q : List Instr} (a0 : State) (a1) (h0 : State.Ok q a0) : State.Ok q (State.porRelease a0 a1) := by
  unfold State.porRelease
  repeat' first
    | intro _
    | with_reducible assumption
    | with_reducible apply ok_ite
    | with_reducible apply State.bundlesApply_ok
    | with_reducible apply State.wr_ok
    | dsimp only
    | split

theorem execProgNLow_ok {q : List Instr} (a0 : State) (h0 : State.Ok q a0) : OutOk q (execProgNLow a0) := by
  unfold execProgNLow
  repeat' first
    | with_reducible apply out_next
    | with_reducible apply out_ite
    | intro _
    | with_reducible assumption
    | with_reducible apply ok_ite
    | with_reducible apply State.deviceReset_ok
    | with_reducible apply State.wr_ok
    | dsimp only

theorem execProgNRelease_ok {q : List Instr} (a0) (a1 : State) (h1 : State.Ok q a1) : OutOk q (execProgNRelease a0 a1) := by
  unfold execProgNRelease
  repeat' first
    | with_reducible apply out_next
    | with_reducible apply out_ite
    | intro _
    | with_reducible assumption
    | with_reducible apply ok_ite
    | with_reducible apply State.wr_ok
    | with_reducible apply State.porRelease_ok
    | dsimp only

theorem execRailValid_ok {q : List Instr} (a0) (a1 : State) (h1 : State.Ok q a1) : OutOk q (execRailValid a0 a1) := by
  unfold execRailValid
  repeat' first
    | with_reducible apply out_next
    | with_reducible apply out_ite
    | intro _
    | with_reducible assumption
    | with_reducible apply ok_ite
    | with_reducible apply State.setB_ok
    | dsimp only

theorem execAuxPorRelease_ok {q : List Instr} (a0) (a1) (a2 : State) (h2 : State.Ok q a2) : OutOk q (execAuxPorRelease a0 a1 a2) := by
  unfold execAuxPorRelease
  repeat' first
    | with_reducible apply out_next
    | with_reducible apply out_ite
    | intro _
    | with_reducible assumption
    | with_reducible apply ok_ite
    | with_reducible apply State.wr_ok
    | with_reducible apply State.lcsApply_ok
    | with_reducible apply ok_foldl
    | with_reducible apply ok_foldl2
    | with_reducible apply ok_foldl3
    | dsimp only
    | split

theorem execMainPorRelease_ok {q : List Instr} (a0) (a1 : State) (h1 : State.Ok q a1) : OutOk q (execMainPorRelease a0 a1) := by
  unfold execMainPorRelease
  repeat' first
    | with_reducible apply out_next
    | with_reducible apply out_ite
    | intro _
    | with_reducible assumption
    | with_reducible apply ok_ite
    | with_reducible apply State.porRelease_ok
    | dsimp only

theorem execIslandPowerStage_ok {q : List Instr} (a0) (a1 : State) (h1 : State.Ok q a1) : OutOk q (execIslandPowerStage a0 a1) := by
  unfold execIslandPowerStage
  repeat' first
    | with_reducible apply out_next
    | with_reducible apply out_ite
    | intro _
    | with_reducible assumption
    | with_reducible apply ok_ite
    | with_reducible apply State.setB_ok
    | dsimp only
    | split

theorem State.sramLost_ok {q : List Instr} (a0 : State) (h0 : State.Ok q a0) : State.Ok q (State.sramLost a0) := by
  unfold State.sramLost
  repeat' first
    | intro _
    | with_reducible assumption
    | with_reducible apply ok_ite
    | with_reducible apply State.zeroWords_ok
    | dsimp only

theorem State.hbmLost_ok {q : List Instr} (a0 : State) (h0 : State.Ok q a0) : State.Ok q (State.hbmLost a0) := by
  unfold State.hbmLost
  repeat' first
    | intro _
    | with_reducible assumption
    | with_reducible apply ok_ite
    | dsimp only
    | (rw [ok_mk_iff]; refine ⟨?_, ?_, ?_, ?_⟩)
    | with_reducible refine State.Ok.pending ?_
    | with_reducible apply State.Ok.m
    | with_reducible apply State.Ok.c
    | with_reducible apply State.Ok.r
    | with_reducible apply Memory.wf_delRange
    | with_reducible apply Memory.wf_set
    | with_reducible apply Memory.wf_filter

theorem State.railTakes_ok {q : List Instr} (a0 : State) (a1) (h0 : State.Ok q a0) : State.Ok q (State.railTakes a0 a1) := by
  unfold State.railTakes
  repeat' first
    | intro _
    | with_reducible assumption
    | with_reducible apply ok_ite
    | with_reducible apply State.sramLost_ok
    | with_reducible apply State.hbmLost_ok
    | dsimp only
    | split

theorem execMainRailLoss_ok {q : List Instr} (a0) (a1 : State) (h1 : State.Ok q a1) : OutOk q (execMainRailLoss a0 a1) := by
  unfold execMainRailLoss
  repeat' first
    | with_reducible apply out_next
    | with_reducible apply out_ite
    | intro _
    | with_reducible assumption
    | with_reducible apply ok_ite
    | with_reducible apply State.hardStop_ok
    | with_reducible apply State.clrB_ok
    | with_reducible apply State.railTakes_ok
    | with_reducible apply State.deviceReset_ok
    | with_reducible apply State.wr_ok
    | dsimp only
    | split

theorem execVccAuxPowerOn_ok {q : List Instr} (a0 : State) (h0 : State.Ok q a0) : OutOk q (execVccAuxPowerOn a0) := by
  unfold execVccAuxPowerOn
  repeat' first
    | with_reducible apply out_next
    | with_reducible apply out_ite
    | intro _
    | with_reducible assumption
    | with_reducible apply ok_ite
    | with_reducible apply State.mainReset_ok
    | with_reducible apply State.sramLost_ok
    | with_reducible apply State.hbmLost_ok
    | with_reducible apply State.add_ok
    | dsimp only

theorem execPciePerst_ok {q : List Instr} (a0 : State) (h0 : State.Ok q a0) : OutOk q (execPciePerst a0) := by
  unfold execPciePerst
  repeat' first
    | with_reducible apply out_next
    | with_reducible apply out_ite
    | intro _
    | with_reducible assumption
    | with_reducible apply ok_ite
    | with_reducible apply State.wr_ok
    | dsimp only

theorem execPhaseClocksDone_ok {q : List Instr} (a0 : State) (h0 : State.Ok q a0) : OutOk q (execPhaseClocksDone a0) := by
  unfold execPhaseClocksDone
  repeat' first
    | with_reducible apply out_next
    | with_reducible apply out_ite
    | intro _
    | with_reducible assumption
    | with_reducible apply ok_ite
    | with_reducible apply State.wr_ok
    | dsimp only
    | split

theorem execNoRefTimeout_ok {q : List Instr} (a0 : State) (h0 : State.Ok q a0) : OutOk q (execNoRefTimeout a0) := by
  unfold execNoRefTimeout
  repeat' first
    | with_reducible apply out_next
    | with_reducible apply out_ite
    | intro _
    | with_reducible assumption
    | with_reducible apply ok_ite
    | with_reducible apply State.wr_ok
    | with_reducible apply State.sysEvt_ok
    | dsimp only
    | split

theorem execPhaseKeysDone_ok {q : List Instr} (a0 : State) (h0 : State.Ok q a0) : OutOk q (execPhaseKeysDone a0) := by
  unfold execPhaseKeysDone
  repeat' first
    | with_reducible apply out_next
    | with_reducible apply out_ite
    | intro _
    | with_reducible assumption
    | with_reducible apply ok_ite
    | with_reducible apply State.add_ok
    | with_reducible apply State.wipeWords_ok
    | with_reducible apply State.wr_ok
    | with_reducible apply State.each_ok
    | with_reducible apply State.rlkPhy_ok
    | dsimp only
    | split

theorem execBootRetry_ok {q : List Instr} (a0 : State) (h0 : State.Ok q a0) : OutOk q (execBootRetry a0) := by
  unfold execBootRetry
  repeat' first
    | with_reducible apply out_next
    | with_reducible apply out_ite
    | intro _
    | with_reducible assumption
    | with_reducible apply ok_ite
    | with_reducible apply State.add_ok
    | with_reducible apply State.deviceReset_ok
    | dsimp only
    | split

theorem State.saveAuto_ok {q : List Instr} (a0 : State) (h0 : State.Ok q a0) : State.Ok q (State.saveAuto a0) := by
  unfold State.saveAuto
  repeat' first
    | intro _
    | with_reducible assumption
    | with_reducible apply ok_ite
    | with_reducible apply State.sysReject_ok
    | with_reducible apply State.wr_ok
    | with_reducible apply ok_foldl
    | with_reducible apply ok_foldl2
    | with_reducible apply ok_foldl3
    | dsimp only
    | split

theorem State.sysResetDevice_ok {q : List Instr} (a0 : State) (a1) (h0 : State.Ok q a0) : State.Ok q (State.sysResetDevice a0 a1) := by
  unfold State.sysResetDevice
  repeat' first
    | intro _
    | with_reducible assumption
    | with_reducible apply ok_ite
    | with_reducible apply State.deny_ok
    | with_reducible apply State.deviceReset_ok
    | dsimp only
    | split

theorem State.sysResetEngine_ok {q : List Instr} (a0 : State) (a1) (h0 : State.Ok q a0) : State.Ok q (State.sysResetEngine a0 a1) := by
  unfold State.sysResetEngine
  repeat' first
    | intro _
    | with_reducible assumption
    | with_reducible apply ok_ite
    | with_reducible apply State.deny_ok
    | with_reducible apply State.sysReject_ok
    | with_reducible apply State.engineReset_ok
    | dsimp only
    | split

theorem State.sysResetIsland_ok {q : List Instr} (a0 : State) (a1) (a2) (h0 : State.Ok q a0) : State.Ok q (State.sysResetIsland a0 a1 a2) := by
  unfold State.sysResetIsland
  repeat' first
    | intro _
    | with_reducible assumption
    | with_reducible apply ok_ite
    | with_reducible apply State.deny_ok
    | with_reducible apply State.resetIsland_ok
    | dsimp only
    | split

theorem State.sysCmd_ok {q : List Instr} (a0 : State) (a1) (h0 : State.Ok q a0) : State.Ok q (State.sysCmd a0 a1) := by
  unfold State.sysCmd
  repeat' first
    | intro _
    | with_reducible assumption
    | with_reducible apply ok_ite
    | with_reducible apply State.sysResetDevice_ok
    | with_reducible apply State.sysResetEngine_ok
    | with_reducible apply State.sysResetIsland_ok
    | with_reducible apply State.saveAuto_ok
    | with_reducible apply State.sysReject_ok
    | dsimp only
    | split

theorem execSysResetDevice_ok {q : List Instr} (a0) (a1 : State) (h1 : State.Ok q a1) : OutOk q (execSysResetDevice a0 a1) := by
  unfold execSysResetDevice
  repeat' first
    | with_reducible apply out_next
    | with_reducible apply out_ite
    | intro _
    | with_reducible assumption
    | with_reducible apply ok_ite
    | with_reducible apply State.sysResetDevice_ok
    | dsimp only

theorem execSysResetEngine_ok {q : List Instr} (a0) (a1 : State) (h1 : State.Ok q a1) : OutOk q (execSysResetEngine a0 a1) := by
  unfold execSysResetEngine
  repeat' first
    | with_reducible apply out_next
    | with_reducible apply out_ite
    | intro _
    | with_reducible assumption
    | with_reducible apply ok_ite
    | with_reducible apply State.sysResetEngine_ok
    | dsimp only

theorem execSysResetIsland_ok {q : List Instr} (a0) (a1) (a2 : State) (h2 : State.Ok q a2) : OutOk q (execSysResetIsland a0 a1 a2) := by
  unfold execSysResetIsland
  repeat' first
    | with_reducible apply out_next
    | with_reducible apply out_ite
    | intro _
    | with_reducible assumption
    | with_reducible apply ok_ite
    | with_reducible apply State.sysResetIsland_ok
    | dsimp only

theorem execSysSaveAuto_ok {q : List Instr} (a0 : State) (h0 : State.Ok q a0) : OutOk q (execSysSaveAuto a0) := by
  unfold execSysSaveAuto
  repeat' first
    | with_reducible apply out_next
    | with_reducible apply out_ite
    | intro _
    | with_reducible assumption
    | with_reducible apply ok_ite
    | with_reducible apply State.saveAuto_ok
    | dsimp only

end Sys2Proof.Machine
end

