-- ==== Sys2Proof/Laws/OkDebug.lean ====
section
/-! SUPPORT. What the operations of Machine/Debug.lean keep: the canonical form of the state and its queue. -/

namespace Sys2Proof.Machine

theorem State.dbgReject_ok {q : List Instr} (a0 : State) (a1) (h0 : State.Ok q a0) : State.Ok q (State.dbgReject a0 a1) := by
  unfold State.dbgReject
  repeat' first
    | intro _
    | with_reducible assumption
    | with_reducible apply ok_ite
    | with_reducible apply State.rejMark_ok
    | with_reducible apply State.dbgEvt_ok
    | dsimp only

theorem execTapReset_ok {q : List Instr} (a0 : State) (h0 : State.Ok q a0) : OutOk q (execTapReset a0) := by
  unfold execTapReset
  repeat' first
    | with_reducible apply out_next
    | with_reducible apply out_ite
    | intro _
    | with_reducible assumption
    | with_reducible apply ok_ite
    | with_reducible apply State.discardMaster_ok
    | with_reducible apply State.wr_ok
    | with_reducible apply State.attached_ok
    | dsimp only

theorem execTapUpdateIr_ok {q : List Instr} (a0) (a1 : State) (h1 : State.Ok q a1) : OutOk q (execTapUpdateIr a0 a1) := by
  unfold execTapUpdateIr
  repeat' first
    | with_reducible apply out_next
    | with_reducible apply out_ite
    | intro _
    | with_reducible assumption
    | with_reducible apply ok_ite
    | with_reducible apply State.wr_ok
    | dsimp only
    | split

theorem State.dbgHalt_ok {q : List Instr} (a0 : State) (a1) (h0 : State.Ok q a0) : State.Ok q (State.dbgHalt a0 a1) := by
  unfold State.dbgHalt
  repeat' first
    | intro _
    | with_reducible assumption
    | with_reducible apply ok_ite
    | with_reducible apply State.each_ok
    | with_reducible apply State.wr_ok
    | with_reducible apply State.dbgReject_ok
    | dsimp only
    | split

theorem execDbgHalt_ok {q : List Instr} (a0) (a1 : State) (h1 : State.Ok q a1) : OutOk q (execDbgHalt a0 a1) := by
  unfold execDbgHalt
  repeat' first
    | with_reducible apply out_next
    | with_reducible apply out_ite
    | intro _
    | with_reducible assumption
    | with_reducible apply ok_ite
    | with_reducible apply State.dbgHalt_ok
    | dsimp only

theorem State.haltNow_ok {q : List Instr} (a0 : State) (a1) (a2) (h0 : State.Ok q a0) : State.Ok q (State.haltNow a0 a1 a2) := by
  unfold State.haltNow
  repeat' first
    | intro _
    | with_reducible assumption
    | with_reducible apply ok_ite
    | with_reducible apply State.wrIf_ok
    | with_reducible apply State.wr_ok
    | with_reducible apply State.coreHalt_ok
    | dsimp only

theorem execCoreHalted_ok {q : List Instr} (a0) (a1) (a2 : State) (h2 : State.Ok q a2) : OutOk q (execCoreHalted a0 a1 a2) := by
  unfold execCoreHalted
  repeat' first
    | with_reducible apply out_next
    | with_reducible apply out_ite
    | intro _
    | with_reducible assumption
    | with_reducible apply ok_ite
    | with_reducible apply State.haltNow_ok
    | dsimp only
    | split

theorem State.dbgResume_ok {q : List Instr} (a0 : State) (a1) (h0 : State.Ok q a0) : State.Ok q (State.dbgResume a0 a1) := by
  unfold State.dbgResume
  repeat' first
    | intro _
    | with_reducible assumption
    | with_reducible apply ok_ite
    | with_reducible apply State.each_ok
    | with_reducible apply State.coreResume_ok
    | with_reducible apply State.dbgReject_ok
    | dsimp only
    | split

theorem execDbgResume_ok {q : List Instr} (a0) (a1 : State) (h1 : State.Ok q a1) : OutOk q (execDbgResume a0 a1) := by
  unfold execDbgResume
  repeat' first
    | with_reducible apply out_next
    | with_reducible apply out_ite
    | intro _
    | with_reducible assumption
    | with_reducible apply ok_ite
    | with_reducible apply State.dbgResume_ok
    | dsimp only

theorem State.dbgStep_ok {q : List Instr} (a0 : State) (a1) (h0 : State.Ok q a0) : State.Ok q (State.dbgStep a0 a1) := by
  unfold State.dbgStep
  repeat' first
    | intro _
    | with_reducible assumption
    | with_reducible apply ok_ite
    | with_reducible apply State.each_ok
    | with_reducible apply State.coreResume_ok
    | with_reducible apply State.wr_ok
    | with_reducible apply State.dbgReject_ok
    | dsimp only
    | split

theorem execDbgStep_ok {q : List Instr} (a0) (a1 : State) (h1 : State.Ok q a1) : OutOk q (execDbgStep a0 a1) := by
  unfold execDbgStep
  repeat' first
    | with_reducible apply out_next
    | with_reducible apply out_ite
    | intro _
    | with_reducible assumption
    | with_reducible apply ok_ite
    | with_reducible apply State.dbgStep_ok
    | dsimp only

theorem State.haltBy_ok {q : List Instr} (a0 : State) (a1) (a2) (a3) (a4) (h0 : State.Ok q a0) : State.Ok q (State.haltBy a0 a1 a2 a3 a4) := by
  unfold State.haltBy
  repeat' first
    | intro _
    | with_reducible assumption
    | with_reducible apply ok_ite
    | with_reducible apply State.haltNow_ok
    | with_reducible apply State.wr_ok
    | with_reducible apply State.coreHalt_ok
    | dsimp only
    | split

theorem execBreakpointHit_ok {q : List Instr} (a0) (a1) (a2) (a3 : State) (h3 : State.Ok q a3) : OutOk q (execBreakpointHit a0 a1 a2 a3) := by
  unfold execBreakpointHit
  repeat' first
    | with_reducible apply out_next
    | with_reducible apply out_ite
    | intro _
    | with_reducible assumption
    | with_reducible apply ok_ite
    | with_reducible apply State.haltBy_ok
    | dsimp only
    | split

theorem execWatchpointHit_ok {q : List Instr} (a0) (a1) (a2) (a3) (a4) (a5) (a6) (a7) (a8 : State) (h8 : State.Ok q a8) : OutOk q (execWatchpointHit a0 a1 a2 a3 a4 a5 a6 a7 a8) := by
  unfold execWatchpointHit
  repeat' first
    | with_reducible apply out_next
    | with_reducible apply out_ite
    | intro _
    | with_reducible assumption
    | with_reducible apply ok_ite
    | with_reducible apply State.haltBy_ok
    | dsimp only
    | split

theorem execEbreakHalt_ok {q : List Instr} (a0) (a1) (a2 : State) (h2 : State.Ok q a2) : OutOk q (execEbreakHalt a0 a1 a2) := by
  unfold execEbreakHalt
  repeat' first
    | with_reducible apply out_next
    | with_reducible apply out_ite
    | intro _
    | with_reducible assumption
    | with_reducible apply ok_ite
    | with_reducible apply State.haltBy_ok
    | dsimp only
    | split

theorem State.csrWrite_ok {q : List Instr} (a0 : State) (a1) (a2) (a3) (h0 : State.Ok q a0) : State.Ok q (State.csrWrite a0 a1 a2 a3) := by
  unfold State.csrWrite
  repeat' first
    | intro _
    | with_reducible assumption
    | with_reducible apply ok_ite
    | with_reducible apply State.wr_ok
    | dsimp only
    | split

theorem State.regData_ok {q : List Instr} (a0 : State) (a1) (h0 : State.Ok q a0) : State.Ok q (State.regData a0 a1).2 := by
  unfold State.regData
  repeat' first
    | intro _
    | with_reducible assumption
    | with_reducible apply ok_ite
    | dsimp only
    | with_reducible apply State.fresh_ok
    | with_reducible refine State.fresh_okE (by assumption) ?_
    | split

theorem State.regData_okE {q : List Instr} {a0 : State} {a1} {b t} (e : State.regData a0 a1 = (b, t)) (h0 : State.Ok q a0) : State.Ok q t := by
  have := State.regData_ok a0 a1 h0
  rw [e] at this; exact this

theorem State.regDataWrite_ok {q : List Instr} (a0 : State) (a1) (a2) (h0 : State.Ok q a0) : State.Ok q (State.regDataWrite a0 a1 a2) := by
  unfold State.regDataWrite
  repeat' first
    | intro _
    | with_reducible assumption
    | with_reducible apply ok_ite
    | with_reducible apply State.deny_ok
    | with_reducible apply State.csrWrite_ok
    | with_reducible apply State.wr_ok
    | dsimp only
    | split

theorem execDbgRegdataWrite_ok {q : List Instr} (a0) (a1) (a2 : State) (h2 : State.Ok q a2) : OutOk q (execDbgRegdataWrite a0 a1 a2) := by
  unfold execDbgRegdataWrite
  repeat' first
    | with_reducible apply out_next
    | with_reducible apply out_ite
    | intro _
    | with_reducible assumption
    | with_reducible apply ok_ite
    | with_reducible apply State.regDataWrite_ok
    | dsimp only

theorem State.regSelDone_ok {q : List Instr} (a0 : State) (a1) (h0 : State.Ok q a0) : State.Ok q (State.regSelDone a0 a1) := by
  unfold State.regSelDone
  repeat' first
    | intro _
    | with_reducible assumption
    | with_reducible apply ok_ite
    | with_reducible apply State.wr_ok
    | dsimp only

theorem State.supCfg_ok {q : List Instr} (a0 : State) (a1) (h0 : State.Ok q a0) : State.Ok q (State.supCfg a0 a1) := by
  unfold State.supCfg
  repeat' first
    | intro _
    | with_reducible assumption
    | with_reducible apply ok_ite
    | with_reducible apply State.deny_ok
    | with_reducible apply State.wr_ok
    | with_reducible apply State.supPause_ok
    | dsimp only
    | split

theorem State.supKick_ok {q : List Instr} (a0 : State) (a1) (h0 : State.Ok q a0) : State.Ok q (State.supKick a0 a1) := by
  unfold State.supKick
  repeat' first
    | intro _
    | with_reducible assumption
    | with_reducible apply ok_ite
    | with_reducible apply State.wr_ok
    | dsimp only
    | split

theorem execSupWdgKick_ok {q : List Instr} (a0) (a1 : State) (h1 : State.Ok q a1) : OutOk q (execSupWdgKick a0 a1) := by
  unfold execSupWdgKick
  repeat' first
    | with_reducible apply out_next
    | with_reducible apply out_ite
    | intro _
    | with_reducible assumption
    | with_reducible apply ok_ite
    | with_reducible apply State.supKick_ok
    | dsimp only

theorem execSupWdgExpire_ok {q : List Instr} (a0 : State) (h0 : State.Ok q a0) : OutOk q (execSupWdgExpire a0) := by
  unfold execSupWdgExpire
  repeat' first
    | with_reducible apply out_next
    | with_reducible apply out_ite
    | intro _
    | with_reducible assumption
    | with_reducible apply ok_ite
    | with_reducible apply State.raise_ok
    | with_reducible apply State.journal_ok
    | with_reducible apply State.wr_ok
    | with_reducible apply State.deviceReset_ok
    | dsimp only
    | split

theorem State.dbgResetDevice_ok {q : List Instr} (a0 : State) (h0 : State.Ok q a0) : State.Ok q (State.dbgResetDevice a0) := by
  unfold State.dbgResetDevice
  repeat' first
    | intro _
    | with_reducible assumption
    | with_reducible apply ok_ite
    | with_reducible apply State.wr_ok
    | with_reducible apply State.deviceReset_ok
    | with_reducible apply State.dbgReject_ok
    | dsimp only
    | split

theorem execDbgResetDevice_ok {q : List Instr} (a0 : State) (h0 : State.Ok q a0) : OutOk q (execDbgResetDevice a0) := by
  unfold execDbgResetDevice
  repeat' first
    | with_reducible apply out_next
    | with_reducible apply out_ite
    | intro _
    | with_reducible assumption
    | with_reducible apply ok_ite
    | with_reducible apply State.dbgResetDevice_ok
    | dsimp only

theorem State.dbgPeony_ok {q : List Instr} (a0 : State) (a1) (h0 : State.Ok q a0) : State.Ok q (State.dbgPeony a0 a1) := by
  unfold State.dbgPeony
  repeat' first
    | intro _
    | with_reducible assumption
    | with_reducible apply ok_ite
    | with_reducible apply State.wr_ok
    | dsimp only

theorem State.dbgChallenge_ok {q : List Instr} (a0 : State) (h0 : State.Ok q a0) : State.Ok q (State.dbgChallenge a0) := by
  unfold State.dbgChallenge
  repeat' first
    | intro _
    | with_reducible assumption
    | with_reducible apply ok_ite
    | with_reducible apply State.dbgReject_ok
    | with_reducible apply State.dbgPeony_ok
    | dsimp only
    | split

theorem State.dbgToken_ok {q : List Instr} (a0 : State) (h0 : State.Ok q a0) : State.Ok q (State.dbgToken a0) := by
  unfold State.dbgToken
  repeat' first
    | intro _
    | with_reducible assumption
    | with_reducible apply ok_ite
    | with_reducible apply State.dbgReject_ok
    | with_reducible apply State.dbgPeony_ok
    | dsimp only
    | split

theorem execDbgAuthChallenge_ok {q : List Instr} (a0 : State) (h0 : State.Ok q a0) : OutOk q (execDbgAuthChallenge a0) := by
  unfold execDbgAuthChallenge
  repeat' first
    | with_reducible apply out_next
    | with_reducible apply out_ite
    | intro _
    | with_reducible assumption
    | with_reducible apply ok_ite
    | with_reducible apply State.dbgChallenge_ok
    | dsimp only

theorem execDbgAuthToken_ok {q : List Instr} (a0 : State) (h0 : State.Ok q a0) : OutOk q (execDbgAuthToken a0) := by
  unfold execDbgAuthToken
  repeat' first
    | with_reducible apply out_next
    | with_reducible apply out_ite
    | intro _
    | with_reducible assumption
    | with_reducible apply ok_ite
    | with_reducible apply State.dbgToken_ok
    | dsimp only

theorem State.dbgCmd_ok {q : List Instr} (a0 : State) (a1) (h0 : State.Ok q a0) : State.Ok q (State.dbgCmd a0 a1) := by
  unfold State.dbgCmd
  repeat' first
    | intro _
    | with_reducible assumption
    | with_reducible apply ok_ite
    | with_reducible apply State.dbgHalt_ok
    | with_reducible apply State.dbgResume_ok
    | with_reducible apply State.dbgStep_ok
    | with_reducible apply State.dbgResetDevice_ok
    | with_reducible apply State.dbgChallenge_ok
    | with_reducible apply State.dbgToken_ok
    | with_reducible apply State.dbgReject_ok
    | dsimp only
    | split

end Sys2Proof.Machine
end

