-- ==== Sys2Proof/Laws/OkEvents.lean ====
section
/-! SUPPORT. What the operations of Machine/Events.lean keep: the canonical form of the state and its queue. -/

namespace Sys2Proof.Machine

theorem execEventRaise_ok {q : List Instr} (a0) (a1 : State) (h1 : State.Ok q a1) : OutOk q (execEventRaise a0 a1) := by
  unfold execEventRaise
  repeat' first
    | with_reducible apply out_next
    | with_reducible apply out_ite
    | intro _
    | with_reducible assumption
    | with_reducible apply ok_ite
    | with_reducible apply State.raise_ok
    | dsimp only
    | split

theorem State.evtClaim_ok {q : List Instr} (a0 : State) (a1) (a2) (a3) (h0 : State.Ok q a0) : State.Ok q (State.evtClaim a0 a1 a2 a3).2 := by
  unfold State.evtClaim
  repeat' first
    | intro _
    | with_reducible assumption
    | with_reducible apply ok_ite
    | dsimp only
    | with_reducible apply State.clrB_ok
    | with_reducible apply State.milLevels_ok
    | split

theorem State.evtClaim_okE {q : List Instr} {a0 : State} {a1} {a2} {a3} {b t} (e : State.evtClaim a0 a1 a2 a3 = (b, t)) (h0 : State.Ok q a0) : State.Ok q t := by
  have := State.evtClaim_ok a0 a1 a2 a3 h0
  rw [e] at this; exact this

theorem execEvtClaimRead_ok {q : List Instr} (a0) (a1) (a2) (a3 : State) (h3 : State.Ok q a3) : OutOk q (execEvtClaimRead a0 a1 a2 a3) := by
  unfold execEvtClaimRead
  repeat' first
    | with_reducible apply out_next
    | with_reducible apply out_ite
    | intro _
    | with_reducible assumption
    | with_reducible apply ok_ite
    | with_reducible apply State.evtClaim_ok
    | with_reducible refine State.evtClaim_okE (by assumption) ?_
    | with_reducible apply State.answer_ok
    | dsimp only

theorem State.evtRouteA_ok {q : List Instr} (a0 : State) (a1) (a2) (h0 : State.Ok q a0) : State.Ok q (State.evtRouteA a0 a1 a2) := by
  unfold State.evtRouteA
  repeat' first
    | intro _
    | with_reducible assumption
    | with_reducible apply ok_ite
    | with_reducible apply State.writeReg_ok
    | with_reducible apply State.msixSend_ok
    | dsimp only
    | split

theorem execEvtRouteAWrite_ok {q : List Instr} (a0) (a1) (a2 : State) (h2 : State.Ok q a2) : OutOk q (execEvtRouteAWrite a0 a1 a2) := by
  unfold execEvtRouteAWrite
  repeat' first
    | with_reducible apply out_next
    | with_reducible apply out_ite
    | intro _
    | with_reducible assumption
    | with_reducible apply ok_ite
    | with_reducible apply State.evtRouteA_ok
    | dsimp only

theorem State.evtUser_ok {q : List Instr} (a0 : State) (a1) (h0 : State.Ok q a0) : State.Ok q (State.evtUser a0 a1) := by
  unfold State.evtUser
  repeat' first
    | intro _
    | with_reducible assumption
    | with_reducible apply ok_ite
    | with_reducible apply State.raise_ok
    | dsimp only

theorem execEvtUserRaise_ok {q : List Instr} (a0) (a1 : State) (h1 : State.Ok q a1) : OutOk q (execEvtUserRaise a0 a1) := by
  unfold execEvtUserRaise
  repeat' first
    | with_reducible apply out_next
    | with_reducible apply out_ite
    | intro _
    | with_reducible assumption
    | with_reducible apply ok_ite
    | with_reducible apply State.evtUser_ok
    | dsimp only

end Sys2Proof.Machine
end

