-- ==== Sys2Proof/Laws/OkHost.lean ====
section
/-! SUPPORT. What the operations of Machine/Host.lean keep: the canonical form of the state and its queue. -/

namespace Sys2Proof.Machine

theorem State.hstReject_ok {q : List Instr} (a0 : State) (a1) (h0 : State.Ok q a0) : State.Ok q (State.hstReject a0 a1) := by
  unfold State.hstReject
  repeat' first
    | intro _
    | with_reducible assumption
    | with_reducible apply ok_ite
    | with_reducible apply State.rejMark_ok
    | with_reducible apply State.hstEvt_ok
    | dsimp only

theorem State.msixRelease_ok {q : List Instr} (a0 : State) (h0 : State.Ok q a0) : State.Ok q (State.msixRelease a0) := by
  unfold State.msixRelease
  repeat' first
    | intro _
    | with_reducible assumption
    | with_reducible apply ok_ite
    | with_reducible apply State.each_ok
    | with_reducible apply State.wr_ok
    | with_reducible apply State.emit_ok
    | dsimp only
    | split

theorem State.pcieRead_ok {q : List Instr} (a0 : State) (a1) (h0 : State.Ok q a0) : State.Ok q (State.pcieRead a0 a1).2 := by
  unfold State.pcieRead
  repeat' first
    | intro _
    | with_reducible assumption
    | with_reducible apply ok_ite
    | dsimp only
    | with_reducible apply State.fresh_ok
    | with_reducible refine State.fresh_okE (by assumption) ?_
    | split

theorem State.pcieRead_okE {q : List Instr} {a0 : State} {a1} {b t} (e : State.pcieRead a0 a1 = (b, t)) (h0 : State.Ok q a0) : State.Ok q t := by
  have := State.pcieRead_ok a0 a1 h0
  rw [e] at this; exact this

theorem execPcieConfigRequest_ok {q : List Instr} (a0) (a1) (a2) (a3 : State) (h3 : State.Ok q a3) : OutOk q (execPcieConfigRequest a0 a1 a2 a3) := by
  unfold execPcieConfigRequest
  repeat' first
    | with_reducible apply out_next
    | with_reducible apply out_ite
    | intro _
    | with_reducible assumption
    | with_reducible apply ok_ite
    | with_reducible apply State.answer_ok
    | with_reducible apply State.wr_ok
    | with_reducible apply State.pcieRead_ok
    | with_reducible refine State.pcieRead_okE (by assumption) ?_
    | with_reducible apply State.msixRelease_ok
    | dsimp only
    | split

theorem State.hostReset_ok {q : List Instr} (a0 : State) (a1) (h0 : State.Ok q a0) : State.Ok q (State.hostReset a0 a1) := by
  unfold State.hostReset
  repeat' first
    | intro _
    | with_reducible assumption
    | with_reducible apply ok_ite
    | with_reducible apply State.mstHostReset_ok
    | with_reducible apply State.keeping_ok
    | with_reducible apply State.resetBlocks_ok
    | with_reducible apply State.each_ok
    | with_reducible apply State.clr_ok
    | with_reducible apply State.discardMaster_ok
    | with_reducible apply State.hstEvt_ok
    | dsimp only
    | split
    | (rw [ok_mk_iff]; refine ⟨?_, ?_, ?_, ?_⟩)
    | with_reducible refine State.Ok.pending ?_
    | with_reducible apply State.Ok.m
    | with_reducible apply State.Ok.c
    | with_reducible apply State.Ok.r

theorem execHostReset_ok {q : List Instr} (a0) (a1 : State) (h1 : State.Ok q a1) : OutOk q (execHostReset a0 a1) := by
  unfold execHostReset
  repeat' first
    | with_reducible apply out_next
    | with_reducible apply out_ite
    | intro _
    | with_reducible assumption
    | with_reducible apply ok_ite
    | with_reducible apply State.hostReset_ok
    | dsimp only

theorem execPcieLinkChange_ok {q : List Instr} (a0) (a1) (a2 : State) (h2 : State.Ok q a2) : OutOk q (execPcieLinkChange a0 a1 a2) := by
  unfold execPcieLinkChange
  repeat' first
    | with_reducible apply out_next
    | with_reducible apply out_ite
    | intro _
    | with_reducible assumption
    | with_reducible apply ok_ite
    | with_reducible apply State.hostReset_ok
    | with_reducible apply State.wr_ok
    | with_reducible apply State.hstEvt_ok
    | dsimp only
    | split

theorem execAerErrorLogged_ok {q : List Instr} (a0) (a1 : State) (h1 : State.Ok q a1) : OutOk q (execAerErrorLogged a0 a1) := by
  unfold execAerErrorLogged
  repeat' first
    | with_reducible apply out_next
    | with_reducible apply out_ite
    | intro _
    | with_reducible assumption
    | with_reducible apply ok_ite
    | with_reducible apply State.hstEvt_ok
    | dsimp only
    | split

theorem State.drvHello_ok {q : List Instr} (a0 : State) (a1) (h0 : State.Ok q a0) : State.Ok q (State.drvHello a0 a1) := by
  unfold State.drvHello
  repeat' first
    | intro _
    | with_reducible assumption
    | with_reducible apply ok_ite
    | with_reducible apply State.deny_ok
    | with_reducible apply State.wr_ok
    | with_reducible apply State.hstEvt_ok
    | dsimp only
    | split

theorem execDrvHello_ok {q : List Instr} (a0) (a1 : State) (h1 : State.Ok q a1) : OutOk q (execDrvHello a0 a1) := by
  unfold execDrvHello
  repeat' first
    | with_reducible apply out_next
    | with_reducible apply out_ite
    | intro _
    | with_reducible assumption
    | with_reducible apply ok_ite
    | with_reducible apply State.drvHello_ok
    | dsimp only

theorem State.qStart_ok {q : List Instr} (a0 : State) (a1) (h0 : State.Ok q a0) : State.Ok q (State.qStart a0 a1) := by
  unfold State.qStart
  repeat' first
    | intro _
    | with_reducible assumption
    | with_reducible apply ok_ite
    | with_reducible apply State.wr_ok
    | with_reducible apply State.hstReject_ok
    | dsimp only
    | split

theorem State.qStop_ok {q : List Instr} (a0 : State) (a1) (h0 : State.Ok q a0) : State.Ok q (State.qStop a0 a1) := by
  unfold State.qStop
  repeat' first
    | intro _
    | with_reducible assumption
    | with_reducible apply ok_ite
    | with_reducible apply State.wr_ok
    | with_reducible apply State.hstReject_ok
    | dsimp only
    | split

theorem State.qReset_ok {q : List Instr} (a0 : State) (a1) (h0 : State.Ok q a0) : State.Ok q (State.qReset a0 a1) := by
  unfold State.qReset
  repeat' first
    | intro _
    | with_reducible assumption
    | with_reducible apply ok_ite
    | with_reducible apply State.wr_ok
    | with_reducible apply State.hstReject_ok
    | dsimp only
    | split

theorem State.hstClrCnt_ok {q : List Instr} (a0 : State) (h0 : State.Ok q a0) : State.Ok q (State.hstClrCnt a0) := by
  unfold State.hstClrCnt
  repeat' first
    | intro _
    | with_reducible assumption
    | with_reducible apply ok_ite
    | with_reducible apply State.wr_ok
    | with_reducible apply ok_foldl
    | with_reducible apply ok_foldl2
    | with_reducible apply ok_foldl3
    | dsimp only

theorem execQStart_ok {q : List Instr} (a0) (a1 : State) (h1 : State.Ok q a1) : OutOk q (execQStart a0 a1) := by
  unfold execQStart
  repeat' first
    | with_reducible apply out_next
    | with_reducible apply out_ite
    | intro _
    | with_reducible assumption
    | with_reducible apply ok_ite
    | with_reducible apply State.qStart_ok
    | dsimp only

theorem execQStop_ok {q : List Instr} (a0) (a1 : State) (h1 : State.Ok q a1) : OutOk q (execQStop a0 a1) := by
  unfold execQStop
  repeat' first
    | with_reducible apply out_next
    | with_reducible apply out_ite
    | intro _
    | with_reducible assumption
    | with_reducible apply ok_ite
    | with_reducible apply State.qStop_ok
    | dsimp only

theorem execQReset_ok {q : List Instr} (a0) (a1 : State) (h1 : State.Ok q a1) : OutOk q (execQReset a0 a1) := by
  unfold execQReset
  repeat' first
    | with_reducible apply out_next
    | with_reducible apply out_ite
    | intro _
    | with_reducible assumption
    | with_reducible apply ok_ite
    | with_reducible apply State.qReset_ok
    | dsimp only

theorem execHstClrCnt_ok {q : List Instr} (a0 : State) (h0 : State.Ok q a0) : OutOk q (execHstClrCnt a0) := by
  unfold execHstClrCnt
  repeat' first
    | with_reducible apply out_next
    | with_reducible apply out_ite
    | intro _
    | with_reducible assumption
    | with_reducible apply ok_ite
    | with_reducible apply State.hstClrCnt_ok
    | dsimp only

theorem State.hstCmd_ok {q : List Instr} (a0 : State) (a1) (a2) (h0 : State.Ok q a0) : State.Ok q (State.hstCmd a0 a1 a2) := by
  unfold State.hstCmd
  repeat' first
    | intro _
    | with_reducible assumption
    | with_reducible apply ok_ite
    | with_reducible apply State.qStart_ok
    | with_reducible apply State.qStop_ok
    | with_reducible apply State.qReset_ok
    | with_reducible apply State.hstClrCnt_ok
    | with_reducible apply State.hstReject_ok
    | dsimp only
    | split

theorem State.qTail_ok {q : List Instr} (a0 : State) (a1) (a2) (h0 : State.Ok q a0) : State.Ok q (State.qTail a0 a1 a2) := by
  unfold State.qTail
  repeat' first
    | intro _
    | with_reducible assumption
    | with_reducible apply ok_ite
    | with_reducible apply State.deny_ok
    | with_reducible apply State.wr_ok
    | dsimp only
    | split

theorem execQTailWrite_ok {q : List Instr} (a0) (a1) (a2 : State) (h2 : State.Ok q a2) : OutOk q (execQTailWrite a0 a1 a2) := by
  unfold execQTailWrite
  repeat' first
    | with_reducible apply out_next
    | with_reducible apply out_ite
    | intro _
    | with_reducible assumption
    | with_reducible apply ok_ite
    | with_reducible apply State.qTail_ok
    | dsimp only

theorem State.qMessage_ok {q : List Instr} (a0 : State) (a1) (h0 : State.Ok q a0) : State.Ok q (State.qMessage a0 a1) := by
  unfold State.qMessage
  repeat' first
    | intro _
    | with_reducible assumption
    | with_reducible apply ok_ite
    | with_reducible apply State.msixSend_ok
    | with_reducible apply State.wr_ok
    | dsimp only
    | split

theorem State.descDone_ok {q : List Instr} (a0 : State) (a1) (a2) (a3) (h0 : State.Ok q a0) : State.Ok q (State.descDone a0 a1 a2 a3) := by
  unfold State.descDone
  repeat' first
    | intro _
    | with_reducible assumption
    | with_reducible apply ok_ite
    | with_reducible apply State.add_ok
    | with_reducible apply State.emit_ok
    | with_reducible apply State.qMessage_ok
    | with_reducible apply State.wr_ok
    | with_reducible apply State.hstEvt_ok
    | with_reducible apply State.wrIf_ok
    | dsimp only
    | split

theorem State.descStream_ok {q : List Instr} (a0 : State) (a1) (a2) (a3) (a4) (h0 : State.Ok q a0) : State.Ok q (State.descStream a0 a1 a2 a3 a4) := by
  unfold State.descStream
  repeat' first
    | intro _
    | with_reducible assumption
    | with_reducible apply ok_ite
    | with_reducible apply State.answer_ok
    | with_reducible apply State.wrIf_ok
    | with_reducible apply State.add_ok
    | with_reducible apply State.emit_ok
    | with_reducible apply State.descDone_ok
    | with_reducible apply ok_match_opt
    | dsimp only
    | split
    | (rw [ok_mk_iff]; refine ⟨?_, ?_, ?_, ?_⟩)
    | with_reducible refine State.Ok.pending ?_
    | with_reducible apply State.Ok.m
    | with_reducible apply State.Ok.c
    | with_reducible apply State.Ok.r

theorem State.descC2h_ok {q : List Instr} (a0 : State) (a1) (a2) (a3) (a4) (a5) (a6) (h0 : State.Ok q a0) : State.Ok q (State.descC2h a0 a1 a2 a3 a4 a5 a6) := by
  unfold State.descC2h
  repeat' first
    | intro _
    | with_reducible assumption
    | with_reducible apply ok_ite
    | with_reducible apply State.emit_ok
    | with_reducible apply State.descDone_ok
    | with_reducible apply State.coReadU_ok
    | with_reducible refine State.coReadU_okE (by assumption) ?_
    | with_reducible apply State.answer_ok
    | with_reducible apply State.dahRead_ok
    | with_reducible refine State.dahRead_okE (by assumption) ?_
    | with_reducible apply State.netFor_ok
    | with_reducible refine State.netFor_okE (by assumption) ?_
    | dsimp only
    | split

theorem State.descH2c_ok {q : List Instr} (a0 : State) (a1) (a2) (a3) (a4) (a5) (a6) (h0 : State.Ok q a0) : State.Ok q (State.descH2c a0 a1 a2 a3 a4 a5 a6) := by
  unfold State.descH2c
  repeat' first
    | intro _
    | with_reducible assumption
    | with_reducible apply ok_ite
    | with_reducible apply State.descDone_ok
    | with_reducible apply State.netFor_ok
    | with_reducible refine State.netFor_okE (by assumption) ?_
    | with_reducible apply State.answer_ok
    | with_reducible apply State.emit_ok
    | with_reducible apply State.snoopFor_ok
    | with_reducible refine State.snoopFor_okE (by assumption) ?_
    | with_reducible apply State.memGate_ok
    | with_reducible refine State.memGate_okE (by assumption) ?_
    | with_reducible apply State.writeUnits_ok
    | with_reducible refine State.writeUnits_okE (by assumption) ?_
    | dsimp only
    | split

theorem State.qServe_ok {q : List Instr} (a0 : State) (a1) (a2) (h0 : State.Ok q a0) : State.Ok q (State.qServe a0 a1 a2).2 := by
  unfold State.qServe
  repeat' first
    | intro _
    | with_reducible assumption
    | with_reducible apply ok_ite
    | dsimp only
    | with_reducible apply State.wr_ok
    | with_reducible apply State.answer_ok
    | split

theorem State.qServe_okE {q : List Instr} {a0 : State} {a1} {a2} {b t} (e : State.qServe a0 a1 a2 = (b, t)) (h0 : State.Ok q a0) : State.Ok q t := by
  have := State.qServe_ok a0 a1 a2 h0
  rw [e] at this; exact this

theorem State.descGo_ok {q : List Instr} (a0 : State) (a1) (a2) (a3) (a4) (a5) (a6) (a7) (h0 : State.Ok q a0) : State.Ok q (State.descGo a0 a1 a2 a3 a4 a5 a6 a7) := by
  unfold State.descGo
  repeat' first
    | intro _
    | with_reducible assumption
    | with_reducible apply ok_ite
    | with_reducible apply State.descStream_ok
    | with_reducible apply State.descC2h_ok
    | with_reducible apply State.descH2c_ok
    | dsimp only
    | split

theorem State.descLost_ok {q : List Instr} (a0 : State) (a1) (h0 : State.Ok q a0) : State.Ok q (State.descLost a0 a1) := by
  unfold State.descLost
  repeat' first
    | intro _
    | with_reducible assumption
    | with_reducible apply ok_ite
    | with_reducible apply State.add_ok
    | with_reducible apply State.wr_ok
    | with_reducible apply State.hstEvt_ok
    | dsimp only

theorem execDescProcess_ok {q : List Instr} (a0) (a1) (a2) (a3) (a4 : State) (h4 : State.Ok q a4) : OutOk q (execDescProcess a0 a1 a2 a3 a4) := by
  unfold execDescProcess
  repeat' first
    | with_reducible apply out_next
    | with_reducible apply out_ite
    | intro _
    | with_reducible assumption
    | with_reducible apply ok_ite
    | with_reducible apply State.descLost_ok
    | with_reducible apply State.answer_ok
    | with_reducible apply State.wr_ok
    | with_reducible apply State.descDone_ok
    | with_reducible apply State.qServe_ok
    | with_reducible refine State.qServe_okE (by assumption) ?_
    | with_reducible apply State.descGo_ok
    | dsimp only
    | split

theorem execImodExpire_ok {q : List Instr} (a0) (a1 : State) (h1 : State.Ok q a1) : OutOk q (execImodExpire a0 a1) := by
  unfold execImodExpire
  repeat' first
    | with_reducible apply out_next
    | with_reducible apply out_ite
    | intro _
    | with_reducible assumption
    | with_reducible apply ok_ite
    | with_reducible apply State.wr_ok
    | with_reducible apply State.msixSend_ok
    | dsimp only
    | split

theorem State.msixTableWrite_ok {q : List Instr} (a0 : State) (a1) (a2) (a3) (h0 : State.Ok q a0) : State.Ok q (State.msixTableWrite a0 a1 a2 a3) := by
  unfold State.msixTableWrite
  repeat' first
    | intro _
    | with_reducible assumption
    | with_reducible apply ok_ite
    | with_reducible apply State.wr_ok
    | with_reducible apply State.msixRelease_ok
    | dsimp only
    | split

theorem execMsixTableAccess_ok {q : List Instr} (a0) (a1) (a2 : State) (h2 : State.Ok q a2) : OutOk q (execMsixTableAccess a0 a1 a2) := by
  unfold execMsixTableAccess
  repeat' first
    | with_reducible apply out_next
    | with_reducible apply out_ite
    | intro _
    | with_reducible assumption
    | with_reducible apply ok_ite
    | with_reducible apply State.wr_ok
    | with_reducible apply State.answer_ok
    | with_reducible apply State.msixTableWrite_ok
    | dsimp only
    | split

end Sys2Proof.Machine
end

