-- ==== Sys2Proof/Laws/OkBus.lean ====
section
/-! SUPPORT. What the operations of Machine/Bus.lean keep: the canonical form of the state and its queue. -/

namespace Sys2Proof.Machine

theorem State.marWindow_ok {q : List Instr} (a0 : State) (a1) {t} (h0 : State.Ok q a0) (e : State.marWindow a0 a1 = some t) : State.Ok q t.2 := by
  unfold State.marWindow at e
  revert e
  repeat' first
    | with_reducible refine ok_none2
    | with_reducible refine ok_some2 ?_
    | with_reducible assumption
    | with_reducible apply ok_ite
    | with_reducible refine State.nodeRead_ok _ _ _ _ ?_ (by assumption)
    | dsimp only
    | split
    | intro _

theorem State.pinsRead_ok {q : List Instr} (a0 : State) (a1) (h0 : State.Ok q a0) : State.Ok q (State.pinsRead a0 a1).2 := by
  unfold State.pinsRead
  repeat' first
    | intro _
    | with_reducible assumption
    | with_reducible apply ok_ite
    | dsimp only
    | with_reducible apply State.fresh_ok
    | with_reducible refine State.fresh_okE (by assumption) ?_
    | split

theorem State.pinsRead_okE {q : List Instr} {a0 : State} {a1} {b t} (e : State.pinsRead a0 a1 = (b, t)) (h0 : State.Ok q a0) : State.Ok q t := by
  have := State.pinsRead_ok a0 a1 h0
  rw [e] at this; exact this

theorem State.regValue_ok {q : List Instr} (a0 : State) (a1) (a2) (a3) (a4) (a5) (a6) (h0 : State.Ok q a0) : State.Ok q (State.regValue a0 a1 a2 a3 a4 a5 a6).2 := by
  unfold State.regValue
  repeat' first
    | intro _
    | with_reducible assumption
    | with_reducible apply ok_ite
    | dsimp only
    | with_reducible apply State.uartRead_ok
    | with_reducible refine State.uartRead_okE (by assumption) ?_
    | with_reducible apply State.mbRecv_ok
    | with_reducible refine State.mbRecv_okE (by assumption) ?_
    | with_reducible apply State.evtClaim_ok
    | with_reducible refine State.evtClaim_okE (by assumption) ?_
    | with_reducible apply State.regData_ok
    | with_reducible refine State.regData_okE (by assumption) ?_
    | with_reducible apply State.muStage_ok
    | with_reducible apply State.muCommit_ok
    | with_reducible apply State.muCheck_ok
    | with_reducible apply State.slcCtrl_ok
    | with_reducible apply State.corePc_ok
    | with_reducible apply State.pinsRead_ok
    | with_reducible refine State.pinsRead_okE (by assumption) ?_
    | split

theorem State.regValue_okE {q : List Instr} {a0 : State} {a1} {a2} {a3} {a4} {a5} {a6} {b t} (e : State.regValue a0 a1 a2 a3 a4 a5 a6 = (b, t)) (h0 : State.Ok q a0) : State.Ok q t := by
  have := State.regValue_ok a0 a1 a2 a3 a4 a5 a6 h0
  rw [e] at this; exact this

theorem State.clearHi_ok {q : List Instr} (a0 : State) (a1) (a2) (a3) (a4) (a5) (h0 : State.Ok q a0) : State.Ok q (State.clearHi a0 a1 a2 a3 a4 a5) := by
  unfold State.clearHi
  repeat' first
    | intro _
    | with_reducible assumption
    | with_reducible apply ok_ite
    | with_reducible apply State.wr_ok
    | with_reducible apply ok_foldl
    | with_reducible apply ok_foldl2
    | with_reducible apply ok_foldl3
    | dsimp only
    | split

theorem State.takeShadow_ok {q : List Instr} (a0 : State) (a1) (a2) (a3) {t} (h0 : State.Ok q a0) (e : State.takeShadow a0 a1 a2 a3 = some t) : State.Ok q t.2 := by
  unfold State.takeShadow at e
  dsimp only at e
  obtain ⟨v, -, rfl⟩ := Option.map_eq_some_iff.mp e
  exact ok_mk h0.1 h0.m h0.c h0.r

theorem State.capture_ok {q : List Instr} (a0 : State) (a1) (a2) (a3) (a4) (h0 : State.Ok q a0) : State.Ok q (State.capture a0 a1 a2 a3 a4) := by
  unfold State.capture
  repeat' first
    | intro _
    | with_reducible assumption
    | with_reducible apply ok_ite
    | dsimp only
    | (rw [ok_mk_iff]; refine ⟨?_, ?_, ?_, ?_⟩)
    | with_reducible refine State.Ok.pending ?_
    | with_reducible apply State.Ok.m
    | with_reducible apply State.Ok.c
    | with_reducible apply State.Ok.r

theorem State.regRead_ok {q : List Instr} (a0 : State) (a1) (a2) (a3) (a4) (h0 : State.Ok q a0) : State.Ok q (State.regRead a0 a1 a2 a3 a4).2.2 := by
  unfold State.regRead
  split
  · exact h0
  · split
    · extract_lets base
      split
      · rename_i v t e
        split at e
        · cases e
        · exact State.takeShadow_ok _ _ _ _ h0 e
      · split
        · exact h0
        · rename_i v t e
          have k := State.marWindow_ok _ _ h0 e
          split
          · exact k
          · exact ok_ite (State.capture_ok _ _ _ _ _ k) k
    · split
      · exact h0
      · split
        · exact h0
        · rename_i b rows _ _ r ix hi _
          extract_lets base
          split
          · rename_i v t e
            split at e
            · exact State.takeShadow_ok _ _ _ _ h0 e
            · cases e
          · have k := State.regValue_ok a0 a2 a3 base b r ix h0
            revert k
            generalize State.regValue a0 a2 a3 base b r ix = x
            obtain ⟨v, t⟩ := x
            intro k
            split
            rename_i e
            cases e
            split
            · exact ok_ite k (State.clearHi_ok _ _ _ _ _ _ k)
            · have k2 : State.Ok q (if a2 then t else t.clearRc a3 base b r ix) := ok_ite k (State.clearRc_ok _ _ _ _ _ _ k)
              exact ok_ite (State.capture_ok _ _ _ _ _ k2) k2

theorem State.regRead_okE {q : List Instr} {a0 : State} {a1} {a2} {a3} {a4} {b c t} (e : State.regRead a0 a1 a2 a3 a4 = (b, c, t)) (h0 : State.Ok q a0) : State.Ok q t := by
  have := State.regRead_ok a0 a1 a2 a3 a4 h0
  rw [e] at this; exact this

theorem State.plainWrite_ok {q : List Instr} (a0 : State) (a1) (a2) (a3) (a4) (a5) (a6) (h0 : State.Ok q a0) : State.Ok q (State.plainWrite a0 a1 a2 a3 a4 a5 a6) := by
  unfold State.plainWrite
  repeat' first
    | intro _
    | with_reducible assumption
    | with_reducible apply ok_ite
    | with_reducible apply State.writeRow_ok
    | with_reducible apply State.milLevels_ok
    | with_reducible apply State.uartKick_ok
    | with_reducible apply State.regSelDone_ok
    | with_reducible apply State.supPause_ok
    | with_reducible apply State.attached_ok
    | dsimp only
    | split

theorem State.regStore_ok {q : List Instr} (a0 : State) (a1) (a2) (a3) (a4) (a5) (a6) (a7) (h0 : State.Ok q a0) : State.Ok q (State.regStore a0 a1 a2 a3 a4 a5 a6 a7) := by
  unfold State.regStore
  repeat' first
    | intro _
    | with_reducible assumption
    | with_reducible apply ok_ite
    | with_reducible apply State.evtClaim_ok
    | with_reducible refine State.evtClaim_okE (by assumption) ?_
    | with_reducible apply State.mbRecv_ok
    | with_reducible refine State.mbRecv_okE (by assumption) ?_
    | with_reducible apply State.plainWrite_ok
    | with_reducible apply State.astChCfg_ok
    | with_reducible apply State.astCmd_ok
    | with_reducible apply State.astMethod_ok
    | with_reducible apply State.astPwrLimit_ok
    | with_reducible apply State.astStaging_ok
    | with_reducible apply State.astThresh_ok
    | with_reducible apply State.bstCmd_ok
    | with_reducible apply State.calCmd_ok
    | with_reducible apply State.cfgCmd_ok
    | with_reducible apply State.cfgCtrl_ok
    | with_reducible apply State.cfgFifo_ok
    | with_reducible apply State.clkRefCfg_ok
    | with_reducible apply State.dahCmd_ok
    | with_reducible apply State.dbgCmd_ok
    | with_reducible apply State.drvHello_ok
    | with_reducible apply State.evtRouteA_ok
    | with_reducible apply State.evtUser_ok
    | with_reducible apply State.hbmCmd_ok
    | with_reducible apply State.hbmCtrlWrite_ok
    | with_reducible apply State.hopCmd_ok
    | with_reducible apply State.hopPortCfgWrite_ok
    | with_reducible apply State.hstCmd_ok
    | with_reducible apply State.clkCfg_ok
    | with_reducible apply State.clkReq_ok
    | with_reducible apply State.islCmd_ok
    | with_reducible apply State.pwrWrite_ok
    | with_reducible apply State.lanCmd_ok
    | with_reducible apply State.marCmd_ok
    | with_reducible apply State.mbSend_ok
    | with_reducible apply State.milCmd_ok
    | with_reducible apply State.mstCmd_ok
    | with_reducible apply State.mstRingWr_ok
    | with_reducible apply State.muCommit_ok
    | with_reducible apply State.muCtrl_ok
    | with_reducible apply State.muStage_ok
    | with_reducible apply State.nocCmd_ok
    | with_reducible apply State.peoCmd_ok
    | with_reducible apply State.prbBindWrite_ok
    | with_reducible apply State.prbCmd_ok
    | with_reducible apply State.prbCtrlWrite_ok
    | with_reducible apply State.qTail_ok
    | with_reducible apply State.regData_ok
    | with_reducible refine State.regData_okE (by assumption) ?_
    | with_reducible apply State.regDataWrite_ok
    | with_reducible apply State.rlkCmd_ok
    | with_reducible apply State.rlkCtrlWrite_ok
    | with_reducible apply State.routeUpdate_ok
    | with_reducible apply State.wr_ok
    | with_reducible apply State.runCmd_ok
    | with_reducible apply State.scbCmd_ok
    | with_reducible apply State.semForce_ok
    | with_reducible apply State.semGive_ok
    | with_reducible apply State.semTake_ok
    | with_reducible apply State.slcCtrl_ok
    | with_reducible apply State.srbCmd_ok
    | with_reducible apply State.srbCtrl_ok
    | with_reducible apply State.srmCmd_ok
    | with_reducible apply State.supCfg_ok
    | with_reducible apply State.supKick_ok
    | with_reducible apply State.sysCmd_ok
    | with_reducible apply State.telCmd_ok
    | with_reducible apply State.tsbCmd_ok
    | with_reducible apply State.tsbCtrlWrite_ok
    | with_reducible apply State.writeRow_ok
    | with_reducible apply State.uartKick_ok
    | with_reducible apply State.milLevels_ok
    | with_reducible apply State.uartWrite_ok
    | with_reducible apply State.wdgCfgDone_ok
    | with_reducible apply State.wdgKick_ok
    | dsimp only
    | split

theorem State.lowHalf_ok {q : List Instr} (a0 : State) (a1) (a2) (a3) (a4) (a5) (h0 : State.Ok q a0) : State.Ok q (State.lowHalf a0 a1 a2 a3 a4 a5).2 := by
  unfold State.lowHalf
  repeat' first
    | intro _
    | with_reducible assumption
    | with_reducible apply ok_ite
    | dsimp only
    | with_reducible apply State.regData_ok
    | with_reducible refine State.regData_okE (by assumption) ?_
    | split

theorem State.lowHalf_okE {q : List Instr} {a0 : State} {a1} {a2} {a3} {a4} {a5} {b t} (e : State.lowHalf a0 a1 a2 a3 a4 a5 = (b, t)) (h0 : State.Ok q a0) : State.Ok q t := by
  have := State.lowHalf_ok a0 a1 a2 a3 a4 a5 h0
  rw [e] at this; exact this

theorem State.dbgAccWord_ok {q : List Instr} (a0 : State) (a1) (a2) (a3) (h0 : State.Ok q a0) : State.Ok q (State.dbgAccWord a0 a1 a2 a3).2 := by
  unfold State.dbgAccWord
  repeat' first
    | intro _
    | with_reducible assumption
    | with_reducible apply ok_ite
    | dsimp only
    | with_reducible apply State.deny_ok
    | split

theorem State.dbgAccWord_okE {q : List Instr} {a0 : State} {a1} {a2} {a3} {b t} (e : State.dbgAccWord a0 a1 a2 a3 = (b, t)) (h0 : State.Ok q a0) : State.Ok q t := by
  have := State.dbgAccWord_ok a0 a1 a2 a3 h0
  rw [e] at this; exact this

theorem State.regWrite_ok {q : List Instr} (a0 : State) (a1) (a2) (a3) (a4) (h0 : State.Ok q a0) : State.Ok q (State.regWrite a0 a1 a2 a3 a4) := by
  unfold State.regWrite
  repeat' first
    | intro _
    | with_reducible assumption
    | with_reducible apply ok_ite
    | with_reducible apply State.deny_ok
    | with_reducible apply State.dbgAccWord_ok
    | with_reducible refine State.dbgAccWord_okE (by assumption) ?_
    | with_reducible apply State.regStore_ok
    | with_reducible apply State.lowHalf_ok
    | with_reducible refine State.lowHalf_okE (by assumption) ?_
    | dsimp only
    | split
    | (rw [ok_mk_iff]; refine ⟨?_, ?_, ?_, ?_⟩)
    | with_reducible refine State.Ok.pending ?_
    | with_reducible apply State.Ok.m
    | with_reducible apply State.Ok.c
    | with_reducible apply State.Ok.r

theorem State.busPath_ok {q : List Instr} (a0 : State) (a1) (a2) (a3) (h0 : State.Ok q a0) : State.Ok q (State.busPath a0 a1 a2 a3).2 := by
  unfold State.busPath
  repeat' first
    | intro _
    | with_reducible assumption
    | with_reducible apply ok_ite
    | dsimp only
    | with_reducible apply State.alarm_ok
    | with_reducible apply State.wr_ok
    | with_reducible apply State.logProt_ok
    | with_reducible apply State.netPass_ok
    | with_reducible refine State.netPass_okE (by assumption) ?_
    | split

theorem State.busPath_okE {q : List Instr} {a0 : State} {a1} {a2} {a3} {b t} (e : State.busPath a0 a1 a2 a3 = (b, t)) (h0 : State.Ok q a0) : State.Ok q t := by
  have := State.busPath_ok a0 a1 a2 a3 h0
  rw [e] at this; exact this

theorem State.fanOut_ok {q : List Instr} (a0 : State) (a1) (a2) (a3) (a4) {t} (h0 : State.Ok q a0)
    (e : State.fanOut a0 a1 a2 a3 a4 = some t) : State.Ok q t.2 := by
  induction a4 generalizing a0 t with
  | nil => exact ok_some2 (by exact h0) e
  | cons i r ih =>
    unfold State.fanOut at e
    dsimp only at e
    split at e
    · cases e
    · split at e
      · rename_i t1 e1
        obtain ⟨x, hx, rfl⟩ := Option.map_eq_some_iff.mp e
        change State.Ok q x.2
        exact ih _ (t := x) (State.passPiece_okE e1 h0) hx
      · cases e
      · exact ih _ h0 e

theorem State.aliasWrite_ok {q : List Instr} (a0 : State) (a1) (a2) (h0 : State.Ok q a0) : State.Ok q (State.aliasWrite a0 a1 a2) := by
  unfold State.aliasWrite
  repeat' first
    | intro _
    | with_reducible assumption
    | with_reducible apply ok_ite
    | with_reducible apply State.answer_ok
    | with_reducible apply State.wr_ok
    | with_reducible refine State.fanOut_ok _ _ _ _ _ ?_ (by assumption)
    | with_reducible apply State.islCmd_ok
    | with_reducible apply State.each_ok
    | with_reducible apply State.regWrite_ok
    | dsimp only
    | split

theorem State.aliasValues_ok {q : List Instr} (a0 : State) (a1) (a2) (a3) (h0 : State.Ok q a0) : State.Ok q (State.aliasValues a0 a1 a2 a3).2 := by
  induction a3 generalizing a0 with
  | nil => exact h0
  | cons i r ih =>
    unfold State.aliasValues
    exact ih _ (State.regRead_ok _ _ _ _ _ h0)

theorem State.aliasRead_ok {q : List Instr} (a0 : State) (a1) (h0 : State.Ok q a0) : State.Ok q (State.aliasRead a0 a1) := by
  unfold State.aliasRead
  repeat' first
    | intro _
    | with_reducible assumption
    | with_reducible apply ok_ite
    | with_reducible apply State.answer_ok
    | with_reducible apply State.wr_ok
    | with_reducible refine State.fanOut_ok _ _ _ _ _ ?_ (by assumption)
    | with_reducible apply State.aliasValues_ok
    | dsimp only
    | split

theorem State.takePeek_ok {q : List Instr} (a0 : State) (a1) (a2) (h0 : State.Ok q a0) : State.Ok q (State.takePeek a0 a1 a2).2 := by
  unfold State.takePeek
  repeat' first
    | intro _
    | with_reducible assumption
    | with_reducible apply ok_ite
    | dsimp only
    | with_reducible apply State.wr_ok
    | split

theorem State.takePeek_okE {q : List Instr} {a0 : State} {a1} {a2} {b t} (e : State.takePeek a0 a1 a2 = (b, t)) (h0 : State.Ok q a0) : State.Ok q t := by
  have := State.takePeek_ok a0 a1 a2 h0
  rw [e] at this; exact this

theorem State.spaceWrite_ok {q : List Instr} (a0 : State) (a1) (a2) (a3) (h0 : State.Ok q a0) : State.Ok q (State.spaceWrite a0 a1 a2 a3) := by
  unfold State.spaceWrite
  repeat' first
    | intro _
    | with_reducible assumption
    | with_reducible apply ok_ite
    | with_reducible apply State.aliasWrite_ok
    | with_reducible apply State.answer_ok
    | with_reducible apply State.regWrite_ok
    | dsimp only
    | split

theorem State.spaceRead_ok {q : List Instr} (a0 : State) (a1) (a2) (a3) (h0 : State.Ok q a0) : State.Ok q (State.spaceRead a0 a1 a2 a3) := by
  unfold State.spaceRead
  repeat' first
    | intro _
    | with_reducible assumption
    | with_reducible apply ok_ite
    | with_reducible apply State.aliasRead_ok
    | with_reducible apply State.answer_ok
    | with_reducible apply State.regRead_ok
    | with_reducible refine State.regRead_okE (by assumption) ?_
    | dsimp only
    | split

theorem State.sendWrite_ok {q : List Instr} (a0 : State) (a1) (a2) (a3) (h0 : State.Ok q a0) : State.Ok q (State.sendWrite a0 a1 a2 a3) := by
  unfold State.sendWrite
  repeat' first
    | intro _
    | with_reducible assumption
    | with_reducible apply ok_ite
    | with_reducible apply State.takePeek_ok
    | with_reducible refine State.takePeek_okE (by assumption) ?_
    | with_reducible apply State.busPath_ok
    | with_reducible refine State.busPath_okE (by assumption) ?_
    | with_reducible apply State.spaceWrite_ok
    | with_reducible apply State.answer_ok
    | dsimp only
    | split

theorem State.sendRead_ok {q : List Instr} (a0 : State) (a1) (a2) (h0 : State.Ok q a0) : State.Ok q (State.sendRead a0 a1 a2) := by
  unfold State.sendRead
  repeat' first
    | intro _
    | with_reducible assumption
    | with_reducible apply ok_ite
    | with_reducible apply State.takePeek_ok
    | with_reducible refine State.takePeek_okE (by assumption) ?_
    | with_reducible apply State.busPath_ok
    | with_reducible refine State.busPath_okE (by assumption) ?_
    | with_reducible apply State.spaceRead_ok
    | with_reducible apply State.answer_ok
    | dsimp only
    | split

theorem State.busWrite_ok {q : List Instr} (a0 : State) (a1) (a2) (a3) (h0 : State.Ok q a0) : State.Ok q (State.busWrite a0 a1 a2 a3) := by
  unfold State.busWrite
  repeat' first
    | intro _
    | with_reducible assumption
    | with_reducible apply ok_ite
    | with_reducible apply State.answer_ok
    | with_reducible apply State.sendWrite_ok
    | dsimp only
    | split

theorem State.busRead_ok {q : List Instr} (a0 : State) (a1) (a2) (h0 : State.Ok q a0) : State.Ok q (State.busRead a0 a1 a2) := by
  unfold State.busRead
  repeat' first
    | intro _
    | with_reducible assumption
    | with_reducible apply ok_ite
    | with_reducible apply State.answer_ok
    | with_reducible apply State.sendRead_ok
    | dsimp only
    | split

theorem execRegisterWrite_ok {q : List Instr} (a0) (a1) (a2) (a3 : State) (h3 : State.Ok q a3) : OutOk q (execRegisterWrite a0 a1 a2 a3) := by
  unfold execRegisterWrite
  repeat' first
    | with_reducible apply out_next
    | with_reducible apply out_ite
    | intro _
    | with_reducible assumption
    | with_reducible apply ok_ite
    | with_reducible apply State.busWrite_ok
    | dsimp only

theorem execLoRead_ok {q : List Instr} (a0) (a1) (a2 : State) (h2 : State.Ok q a2) : OutOk q (execLoRead a0 a1 a2) := by
  unfold execLoRead
  repeat' first
    | with_reducible apply out_next
    | with_reducible apply out_ite
    | intro _
    | with_reducible assumption
    | with_reducible apply ok_ite
    | with_reducible apply State.busRead_ok
    | dsimp only
    | split

theorem execHiRead_ok {q : List Instr} (a0) (a1) (a2 : State) (h2 : State.Ok q a2) : OutOk q (execHiRead a0 a1 a2) := by
  unfold execHiRead
  repeat' first
    | with_reducible apply out_next
    | with_reducible apply out_ite
    | intro _
    | with_reducible assumption
    | with_reducible apply ok_ite
    | with_reducible apply State.busRead_ok
    | dsimp only
    | split

theorem execLoWrite_ok {q : List Instr} (a0) (a1) (a2) (a3 : State) (h3 : State.Ok q a3) : OutOk q (execLoWrite a0 a1 a2 a3) := by
  unfold execLoWrite
  repeat' first
    | with_reducible apply out_next
    | with_reducible apply out_ite
    | intro _
    | with_reducible assumption
    | with_reducible apply ok_ite
    | with_reducible apply State.busWrite_ok
    | dsimp only
    | split

theorem execHiWrite_ok {q : List Instr} (a0) (a1) (a2) (a3 : State) (h3 : State.Ok q a3) : OutOk q (execHiWrite a0 a1 a2 a3) := by
  unfold execHiWrite
  repeat' first
    | with_reducible apply out_next
    | with_reducible apply out_ite
    | intro _
    | with_reducible assumption
    | with_reducible apply ok_ite
    | with_reducible apply State.busWrite_ok
    | dsimp only
    | split

theorem execAliasWrite_ok {q : List Instr} (a0) (a1) (a2) (a3 : State) (h3 : State.Ok q a3) : OutOk q (execAliasWrite a0 a1 a2 a3) := by
  unfold execAliasWrite
  repeat' first
    | with_reducible apply out_next
    | with_reducible apply out_ite
    | intro _
    | with_reducible assumption
    | with_reducible apply ok_ite
    | with_reducible apply State.busWrite_ok
    | dsimp only
    | split

theorem execAliasRead_ok {q : List Instr} (a0) (a1) (a2 : State) (h2 : State.Ok q a2) : OutOk q (execAliasRead a0 a1 a2) := by
  unfold execAliasRead
  repeat' first
    | with_reducible apply out_next
    | with_reducible apply out_ite
    | intro _
    | with_reducible assumption
    | with_reducible apply ok_ite
    | with_reducible apply State.busRead_ok
    | dsimp only
    | split

end Sys2Proof.Machine
end

