-- ==== Sys2Proof/Laws/OkServe.lean ====
section
/-! SUPPORT. What the operations of Machine/Serve.lean keep: the canonical form of the state and its queue. -/

namespace Sys2Proof.Machine

theorem State.serveMem_ok {q : List Instr} (a0 : State) (a1) (h0 : State.Ok q a0) : State.Ok q (State.serveMem a0 a1).2.2 := by
  unfold State.serveMem
  repeat' first
    | intro _
    | with_reducible assumption
    | with_reducible apply ok_ite
    | dsimp only
    | with_reducible apply State.memGate_ok
    | with_reducible refine State.memGate_okE (by assumption) ?_
    | with_reducible apply State.snoop_ok
    | with_reducible apply State.readUnits_ok
    | with_reducible refine State.readUnits_okE (by assumption) ?_
    | with_reducible apply State.writeUnits_ok
    | with_reducible refine State.writeUnits_okE (by assumption) ?_
    | split

theorem State.serveMem_okE {q : List Instr} {a0 : State} {a1} {b c t} (e : State.serveMem a0 a1 = (b, c, t)) (h0 : State.Ok q a0) : State.Ok q t := by
  have := State.serveMem_ok a0 a1 h0
  rw [e] at this; exact this

theorem State.serveReg_ok {q : List Instr} (a0 : State) (a1) (h0 : State.Ok q a0) : State.Ok q (State.serveReg a0 a1).2.2 := by
  unfold State.serveReg
  repeat' first
    | intro _
    | with_reducible assumption
    | with_reducible apply ok_ite
    | dsimp only
    | with_reducible apply State.takePeek_ok
    | with_reducible refine State.takePeek_okE (by assumption) ?_
    | with_reducible apply State.spaceRead_ok
    | with_reducible apply State.spaceWrite_ok
    | split
    | (rw [ok_mk_iff]; refine ⟨?_, ?_, ?_, ?_⟩)
    | with_reducible refine State.Ok.pending ?_
    | with_reducible apply State.Ok.m
    | with_reducible apply State.Ok.c
    | with_reducible apply State.Ok.r

theorem State.serveReg_okE {q : List Instr} {a0 : State} {a1} {b c t} (e : State.serveReg a0 a1 = (b, c, t)) (h0 : State.Ok q a0) : State.Ok q t := by
  have := State.serveReg_ok a0 a1 h0
  rw [e] at this; exact this

theorem State.serveFab_ok {q : List Instr} (a0 : State) (a1) (a2) (h0 : State.Ok q a0) : State.Ok q (State.serveFab a0 a1 a2).2 := by
  unfold State.serveFab
  repeat' first
    | intro _
    | with_reducible assumption
    | with_reducible apply ok_ite
    | dsimp only
    | with_reducible apply State.slvTake_ok
    | with_reducible refine State.slvTake_okE (by assumption) ?_
    | with_reducible apply State.postLost_ok
    | with_reducible apply State.nocDropped_ok
    | split

theorem State.serveFab_okE {q : List Instr} {a0 : State} {a1} {a2} {b t} (e : State.serveFab a0 a1 a2 = (b, t)) (h0 : State.Ok q a0) : State.Ok q t := by
  have := State.serveFab_ok a0 a1 a2 h0
  rw [e] at this; exact this

theorem State.served_ok {q : List Instr} (a0 : State) (a1) (a2) (a3) (h0 : State.Ok q a0) : State.Ok q (State.served a0 a1 a2 a3) := by
  unfold State.served
  repeat' first
    | intro _
    | with_reducible assumption
    | with_reducible apply ok_ite
    | with_reducible apply State.setPkt_ok
    | dsimp only

theorem State.deliver_ok {q : List Instr} (a0 : State) (a1) (h0 : State.Ok q a0) : State.Ok q (State.deliver a0 a1) := by
  unfold State.deliver
  repeat' first
    | intro _
    | with_reducible assumption
    | with_reducible apply ok_ite
    | with_reducible apply State.answer_ok
    | with_reducible apply State.served_ok
    | with_reducible apply State.serveMem_ok
    | with_reducible refine State.serveMem_okE (by assumption) ?_
    | with_reducible apply State.serveReg_ok
    | with_reducible refine State.serveReg_okE (by assumption) ?_
    | with_reducible apply State.serveFab_ok
    | with_reducible refine State.serveFab_okE (by assumption) ?_
    | dsimp only
    | split

theorem execNocDeliver_ok {q : List Instr} (a0) (a1) (a2 : State) (h2 : State.Ok q a2) : OutOk q (execNocDeliver a0 a1 a2) := by
  unfold execNocDeliver
  repeat' first
    | with_reducible apply out_next
    | with_reducible apply out_ite
    | intro _
    | with_reducible assumption
    | with_reducible apply ok_ite
    | with_reducible apply State.launch_ok
    | with_reducible apply State.answer_ok
    | with_reducible apply State.travel_ok
    | with_reducible refine State.travel_okE (by assumption) ?_
    | with_reducible apply State.setPkt_ok
    | with_reducible apply State.deliver_ok
    | dsimp only
    | split

theorem execBar0Read_ok {q : List Instr} (a0) (a1) (a2 : State) (h2 : State.Ok q a2) : OutOk q (execBar0Read a0 a1 a2) := by
  unfold execBar0Read
  repeat' first
    | with_reducible apply out_next
    | with_reducible apply out_ite
    | intro _
    | with_reducible assumption
    | with_reducible apply ok_ite
    | with_reducible apply State.answer_ok
    | with_reducible apply State.hostErr_ok
    | with_reducible apply State.busRead_ok
    | dsimp only
    | split

theorem execBar0Write_ok {q : List Instr} (a0) (a1) (a2) (a3 : State) (h3 : State.Ok q a3) : OutOk q (execBar0Write a0 a1 a2 a3) := by
  unfold execBar0Write
  repeat' first
    | with_reducible apply out_next
    | with_reducible apply out_ite
    | intro _
    | with_reducible assumption
    | with_reducible apply ok_ite
    | with_reducible apply State.answer_ok
    | with_reducible apply State.hostErr_ok
    | with_reducible apply State.busWrite_ok
    | dsimp only
    | split

theorem execBar2Read_ok {q : List Instr} (a0) (a1) (a2 : State) (h2 : State.Ok q a2) : OutOk q (execBar2Read a0 a1 a2) := by
  unfold execBar2Read
  repeat' first
    | with_reducible apply out_next
    | with_reducible apply out_ite
    | intro _
    | with_reducible assumption
    | with_reducible apply ok_ite
    | with_reducible apply State.answer_ok
    | with_reducible apply State.hostErr_ok
    | with_reducible apply State.issue_ok
    | with_reducible apply State.dahRead_ok
    | with_reducible refine State.dahRead_okE (by assumption) ?_
    | with_reducible apply State.coReadU_ok
    | with_reducible refine State.coReadU_okE (by assumption) ?_
    | dsimp only
    | split

theorem execBar2Write_ok {q : List Instr} (a0) (a1) (a2 : State) (h2 : State.Ok q a2) : OutOk q (execBar2Write a0 a1 a2) := by
  unfold execBar2Write
  repeat' first
    | with_reducible apply out_next
    | with_reducible apply out_ite
    | intro _
    | with_reducible assumption
    | with_reducible apply ok_ite
    | with_reducible apply State.answer_ok
    | with_reducible apply State.hostErr_ok
    | with_reducible apply State.issue_ok
    | with_reducible apply State.coWriteU_ok
    | with_reducible refine State.coWriteU_okE (by assumption) ?_
    | dsimp only
    | split

theorem execDbgaccUpdateDr_ok {q : List Instr} (a0) (a1 : State) (h1 : State.Ok q a1) : OutOk q (execDbgaccUpdateDr a0 a1) := by
  unfold execDbgaccUpdateDr
  repeat' first
    | with_reducible apply out_next
    | with_reducible apply out_ite
    | intro _
    | with_reducible assumption
    | with_reducible apply ok_ite
    | with_reducible apply State.wr_ok
    | dsimp only
    | split

theorem State.accEnd_ok {q : List Instr} (a0 : State) (a1) (a2) (h0 : State.Ok q a0) : State.Ok q (State.accEnd a0 a1 a2) := by
  unfold State.accEnd
  repeat' first
    | intro _
    | with_reducible assumption
    | with_reducible apply ok_ite
    | with_reducible apply State.wr_ok
    | dsimp only

theorem State.accMem_ok {q : List Instr} (a0 : State) (a1) (a2) (a3) (a4) (h0 : State.Ok q a0) : State.Ok q (State.accMem a0 a1 a2 a3 a4).2.2 := by
  unfold State.accMem
  repeat' first
    | intro _
    | with_reducible assumption
    | with_reducible apply ok_ite
    | dsimp only
    | with_reducible apply State.wr_ok
    | with_reducible apply State.coWriteU_ok
    | with_reducible refine State.coWriteU_okE (by assumption) ?_
    | with_reducible apply State.coReadU_ok
    | with_reducible refine State.coReadU_okE (by assumption) ?_
    | with_reducible apply State.netFor_ok
    | with_reducible refine State.netFor_okE (by assumption) ?_
    | with_reducible apply State.dahRead_ok
    | with_reducible refine State.dahRead_okE (by assumption) ?_
    | with_reducible apply State.emit_ok
    | split

theorem State.accMem_okE {q : List Instr} {a0 : State} {a1} {a2} {a3} {a4} {b c t} (e : State.accMem a0 a1 a2 a3 a4 = (b, c, t)) (h0 : State.Ok q a0) : State.Ok q t := by
  have := State.accMem_ok a0 a1 a2 a3 a4 h0
  rw [e] at this; exact this

theorem State.accGo_ok {q : List Instr} (a0 : State) (a1) (a2) (a3) (a4) (h0 : State.Ok q a0) : State.Ok q (State.accGo a0 a1 a2 a3 a4).2.2 := by
  unfold State.accGo
  repeat' first
    | intro _
    | with_reducible assumption
    | with_reducible apply ok_ite
    | dsimp only
    | with_reducible apply State.wr_ok
    | with_reducible apply State.sendWrite_ok
    | with_reducible apply State.sendRead_ok
    | with_reducible apply State.accMem_ok
    | with_reducible refine State.accMem_okE (by assumption) ?_
    | split
    | (rw [ok_mk_iff]; refine ⟨?_, ?_, ?_, ?_⟩)
    | with_reducible refine State.Ok.pending ?_
    | with_reducible apply State.Ok.m
    | with_reducible apply State.Ok.c
    | with_reducible apply State.Ok.r

theorem State.accGo_okE {q : List Instr} {a0 : State} {a1} {a2} {a3} {a4} {b c t} (e : State.accGo a0 a1 a2 a3 a4 = (b, c, t)) (h0 : State.Ok q a0) : State.Ok q t := by
  have := State.accGo_ok a0 a1 a2 a3 a4 h0
  rw [e] at this; exact this

theorem execDbgaccOpDone_ok {q : List Instr} (a0) (a1 : State) (h1 : State.Ok q a1) : OutOk q (execDbgaccOpDone a0 a1) := by
  unfold execDbgaccOpDone
  repeat' first
    | with_reducible apply out_next
    | with_reducible apply out_ite
    | intro _
    | with_reducible assumption
    | with_reducible apply ok_ite
    | with_reducible apply State.wr_ok
    | with_reducible apply State.accGo_ok
    | with_reducible refine State.accGo_okE (by assumption) ?_
    | with_reducible apply State.accEnd_ok
    | dsimp only
    | split

theorem execDbgaccTimeout_ok {q : List Instr} (a0 : State) (h0 : State.Ok q a0) : OutOk q (execDbgaccTimeout a0) := by
  unfold execDbgaccTimeout
  repeat' first
    | with_reducible apply out_next
    | with_reducible apply out_ite
    | intro _
    | with_reducible assumption
    | with_reducible apply ok_ite
    | with_reducible apply State.accEnd_ok
    | dsimp only
    | split

end Sys2Proof.Machine
end

