-- ==== Sys2Proof/Laws/OkTransmit.lean ====
section
/-! SUPPORT. What the operations of Machine/Transmit.lean keep: the canonical form of the state and its queue. -/

namespace Sys2Proof.Machine

theorem State.sourceBlock_ok {q : List Instr} (a0 : State) (a1) (h0 : State.Ok q a0) : State.Ok q (State.sourceBlock a0 a1).2 := by
  unfold State.sourceBlock
  repeat' first
    | intro _
    | with_reducible assumption
    | with_reducible apply ok_ite
    | dsimp only
    | with_reducible apply State.fresh_ok
    | with_reducible refine State.fresh_okE (by assumption) ?_
    | split

theorem State.sourceBlock_okE {q : List Instr} {a0 : State} {a1} {b t} (e : State.sourceBlock a0 a1 = (b, t)) (h0 : State.Ok q a0) : State.Ok q t := by
  have := State.sourceBlock_ok a0 a1 h0
  rw [e] at this; exact this

theorem State.slotBlock_ok {q : List Instr} (a0 : State) (a1) (a2) (h0 : State.Ok q a0) : State.Ok q (State.slotBlock a0 a1 a2).2 := by
  unfold State.slotBlock
  repeat' first
    | intro _
    | with_reducible assumption
    | with_reducible apply ok_ite
    | dsimp only
    | with_reducible apply State.sourceBlock_ok
    | with_reducible refine State.sourceBlock_okE (by assumption) ?_
    | with_reducible apply ok_match_opt
    | split
    | (rw [ok_mk_iff]; refine ⟨?_, ?_, ?_, ?_⟩)
    | with_reducible refine State.Ok.pending ?_
    | with_reducible apply State.Ok.m
    | with_reducible apply State.Ok.c
    | with_reducible apply State.Ok.r

theorem State.slotBlock_okE {q : List Instr} {a0 : State} {a1} {a2} {b t} (e : State.slotBlock a0 a1 a2 = (b, t)) (h0 : State.Ok q a0) : State.Ok q t := by
  have := State.slotBlock_ok a0 a1 a2 h0
  rw [e] at this; exact this

theorem State.laneOut_ok {q : List Instr} (a0 : State) (a1) (a2) (h0 : State.Ok q a0) : State.Ok q (State.laneOut a0 a1 a2).2 := by
  unfold State.laneOut
  repeat' first
    | intro _
    | with_reducible assumption
    | with_reducible apply ok_ite
    | dsimp only
    | with_reducible apply State.slotBlock_ok
    | with_reducible refine State.slotBlock_okE (by assumption) ?_
    | with_reducible apply State.wr_ok
    | split

theorem State.laneOut_okE {q : List Instr} {a0 : State} {a1} {a2} {b t} (e : State.laneOut a0 a1 a2 = (b, t)) (h0 : State.Ok q a0) : State.Ok q t := by
  have := State.laneOut_ok a0 a1 a2 h0
  rw [e] at this; exact this

theorem State.rowOut_ok {q : List Instr} (a0 : State) (a1) (a2) (h0 : State.Ok q a0) : State.Ok q (State.rowOut a0 a1 a2).2 := by
  induction a2 generalizing a0 with
  | nil => exact h0
  | cons j r ih => exact ih _ (State.laneOut_ok _ _ _ h0)

theorem State.loopIn_ok {q : List Instr} (a0 : State) (a1) (a2) (a3) (h0 : State.Ok q a0) : State.Ok q (State.loopIn a0 a1 a2 a3) := by
  unfold State.loopIn
  repeat' first
    | intro _
    | with_reducible assumption
    | with_reducible apply ok_ite
    | with_reducible apply State.fresh_ok
    | with_reducible refine State.fresh_okE (by assumption) ?_
    | with_reducible apply State.markerIn_ok
    | with_reducible apply State.blockIn_ok
    | dsimp only
    | split

theorem State.sendRow_ok {q : List Instr} (a0 : State) (a1) (h0 : State.Ok q a0) : State.Ok q (State.sendRow a0 a1) := by
  unfold State.sendRow
  repeat' first
    | intro _
    | with_reducible assumption
    | with_reducible apply ok_ite
    | with_reducible apply State.txSrcApply_ok
    | with_reducible apply State.rowOut_ok
    | with_reducible apply State.add_ok
    | with_reducible apply State.wrIf_ok
    | with_reducible apply State.emit_ok
    | with_reducible apply State.each_ok
    | with_reducible apply State.loopIn_ok
    | dsimp only
    | split

theorem State.txTick_ok {q : List Instr} (a0 : State) (a1) (h0 : State.Ok q a0) : State.Ok q (State.txTick a0 a1) := by
  unfold State.txTick
  repeat' first
    | intro _
    | with_reducible assumption
    | with_reducible apply ok_ite
    | with_reducible apply State.wr_ok
    | with_reducible apply State.sendRow_ok
    | dsimp only
    | split

theorem State.portTick_ok {q : List Instr} (a0 : State) (a1) (h0 : State.Ok q a0) : State.Ok q (State.portTick a0 a1) := by
  unfold State.portTick
  repeat' first
    | intro _
    | with_reducible assumption
    | with_reducible apply ok_ite
    | with_reducible apply State.lossSettle_ok
    | with_reducible apply State.txTick_ok
    | with_reducible apply State.tplRetry_ok
    | dsimp only

end Sys2Proof.Machine
end

