-- ==== Sys2Proof/Laws/OkTick.lean ====
section
/-! SUPPORT. What the operations of Machine/Tick.lean keep: the canonical form of the state and its queue. -/

namespace Sys2Proof.Machine

theorem State.countDown_ok {q : List Instr} (a0 : State) (a1) (a2) (h0 : State.Ok q a0) : State.Ok q (State.countDown a0 a1 a2) := by
  unfold State.countDown
  repeat' first
    | intro _
    | with_reducible assumption
    | with_reducible apply ok_ite
    | with_reducible apply State.wr_ok
    | dsimp only
    | split

theorem State.usTick_ok {q : List Instr} (a0 : State) (h0 : State.Ok q a0) : State.Ok q (State.usTick a0) := by
  unfold State.usTick
  repeat' first
    | intro _
    | with_reducible assumption
    | with_reducible apply ok_ite
    | with_reducible apply State.each_ok
    | with_reducible apply State.countDown_ok
    | dsimp only

theorem State.msTick_ok {q : List Instr} (a0 : State) (h0 : State.Ok q a0) : State.Ok q (State.msTick a0) := by
  unfold State.msTick
  repeat' first
    | intro _
    | with_reducible assumption
    | with_reducible apply ok_ite
    | with_reducible apply State.countDown_ok
    | dsimp only

theorem State.secTick_ok {q : List Instr} (a0 : State) (h0 : State.Ok q a0) : State.Ok q (State.secTick a0) := by
  unfold State.secTick
  repeat' first
    | intro _
    | with_reducible assumption
    | with_reducible apply ok_ite
    | with_reducible apply State.add_ok
    | with_reducible apply State.countDown_ok
    | dsimp only

theorem State.tsbTick_ok {q : List Instr} (a0 : State) (h0 : State.Ok q a0) : State.Ok q (State.tsbTick a0) := by
  unfold State.tsbTick
  repeat' first
    | intro _
    | with_reducible assumption
    | with_reducible apply ok_ite
    | with_reducible apply State.add_ok
    | with_reducible apply State.wr_ok
    | dsimp only

theorem State.tick_ok {q : List Instr} (a0 : State) (h0 : State.Ok q a0) : State.Ok q (State.tick a0) := by
  unfold State.tick
  repeat' first
    | intro _
    | with_reducible assumption
    | with_reducible apply ok_ite
    | with_reducible apply State.tsbTick_ok
    | with_reducible apply State.usTick_ok
    | with_reducible apply State.msTick_ok
    | with_reducible apply State.secTick_ok
    | with_reducible apply State.each_ok
    | with_reducible apply State.portTick_ok
    | with_reducible apply State.resetSettle_ok
    | dsimp only
    | split

end Sys2Proof.Machine
end

