-- ==== Sys2Proof/Laws/OkExec.lean ====
section
/-! SUPPORT. Every command keeps the state canonical and leaves the queue that it is given. -/

namespace Sys2Proof.Machine

/-- What every command does to the canonical form and to the queue. -/
theorem exec_ok {q : List Instr} (i : Instr) (s : State) (h : State.Ok q s) : OutOk q (exec i s) := by
  cases i with
  | registerWrite m x w => exact execRegisterWrite_ok _ _ _ _ h
  | loRead m x => exact execLoRead_ok _ _ _ h
  | hiRead m x => exact execHiRead_ok _ _ _ h
  | loWrite m x w => exact execLoWrite_ok _ _ _ _ h
  | hiWrite m x w => exact execHiWrite_ok _ _ _ _ h
  | aliasWrite m x w => exact execAliasWrite_ok _ _ _ _ h
  | aliasRead m x => exact execAliasRead_ok _ _ _ h
  | prbEnable p w => exact execPrbEnable_ok _ _ _ h
  | prbDisable p w => exact execPrbDisable_ok _ _ _ h
  | prbBindWrite p w => exact execPrbBindWrite_ok _ _ _ h
  | txSrcChange p => exact execTxSrcChange_ok _ _ h
  | prbPllLocked p => exact execPrbPllLocked_ok _ _ h
  | prbPllTimeout p => exact execPrbPllTimeout_ok _ _ h
  | fclkAcquired p => exact execFclkAcquired_ok _ _ h
  | fclkTimeout p => exact execFclkTimeout_ok _ _ h
  | eqAdaptDone p => exact execEqAdaptDone_ok _ _ h
  | blockReceived p k hdr payload => exact execBlockReceived_ok _ _ _ _ _ h
  | blockLockTimeout p => exact execBlockLockTimeout_ok _ _ h
  | markerReceived p k hdr payload arrival => exact execMarkerReceived_ok _ _ _ _ _ _ h
  | markerLockTimeout p => exact execMarkerLockTimeout_ok _ _ h
  | rowRelease p => exact execRowRelease_ok _ _ h
  | portLoss p clk => exact execPortLoss_ok _ _ _ h
  | prbRetrain p => exact execPrbRetrain_ok _ _ h
  | fmeasStart p => exact execFmeasStart_ok _ _ h
  | fmeasStop p => exact execFmeasStop_ok _ _ h
  | fmeasGateEnd p count => exact execFmeasGateEnd_ok _ _ _ h
  | calNow p => exact execCalNow_ok _ _ h
  | prbClrCnt p => exact execPrbClrCnt_ok _ _ h
  | laneCalInterval p k => exact execLaneCalInterval_ok _ _ _ h
  | calHandover p k => exact execCalHandover_ok _ _ _ h
  | laneRailFault => exact execLaneRailFault_ok _ h
  | pinShort p k => exact execPinShort_ok _ _ _ h
  | portConfigUpset p => exact execPortConfigUpset_ok _ _ h
  | markEntry n row start stop drop tag => exact execMarkEntry_ok _ _ _ _ _ _ _ h
  | drainRecord f ue => exact execDrainRecord_ok _ _ _ h
  | hopArm f => exact execHopArm_ok _ _ h
  | hopStop f => exact execHopStop_ok _ _ h
  | hopForceTrig f => exact execHopForceTrig_ok _ _ h
  | hopClear f => exact execHopClear_ok _ _ h
  | hopClrCnt => exact execHopClrCnt_ok _ h
  | lanternCycle trigIn => exact execLanternCycle_ok _ _ h
  | lanTimerExpire t => exact execLanTimerExpire_ok _ _ h
  | trigOutPulseEnd k => exact execTrigOutPulseEnd_ok _ _ h
  | lanStart => exact execLanStart_ok _ h
  | lanStop => exact execLanStop_ok _ h
  | lanForce q => exact execLanForce_ok _ _ h
  | lanClrOut => exact execLanClrOut_ok _ h
  | lanClrCnt => exact execLanClrCnt_ok _ h
  | runStart c => exact execRunStart_ok _ _ h
  | runStop c => exact execRunStop_ok _ _ h
  | runGo c => exact execRunGo_ok _ _ h
  | runClear c => exact execRunClear_ok _ _ h
  | insnNop c => exact execInsnNop_ok _ _ h
  | insnSend c => exact execInsnSend_ok _ _ h
  | insnGap c => exact execInsnGap_ok _ _ h
  | insnWaitui c => exact execInsnWaitui_ok _ _ h
  | insnLoop c => exact execInsnLoop_ok _ _ h
  | insnEndl c => exact execInsnEndl_ok _ _ h
  | insnJmp c => exact execInsnJmp_ok _ _ h
  | insnWaitg c => exact execInsnWaitg_ok _ _ h
  | insnWaitts c => exact execInsnWaitts_ok _ _ h
  | waittsReached c => exact execWaittsReached_ok _ _ h
  | insnSeek c => exact execInsnSeek_ok _ _ h
  | insnSetf c => exact execInsnSetf_ok _ _ h
  | insnSignal c => exact execInsnSignal_ok _ _ h
  | insnRaw c => exact execInsnRaw_ok _ _ h
  | insnHalt c => exact execInsnHalt_ok _ _ h
  | insnIllegal c => exact execInsnIllegal_ok _ _ h
  | frameStart c fab => exact execFrameStart_ok _ _ _ h
  | keyPresent n row key klen len seq lat umask add => exact execKeyPresent_ok _ _ _ _ _ _ _ _ _ _ h
  | entryApply p i1 => exact execEntryApply_ok _ _ _ h
  | flowAgeRetire f => exact execFlowAgeRetire_ok _ _ h
  | epochClose => exact execEpochClose_ok _ h
  | treePublish rebuilt => exact execTreePublish_ok _ _ h
  | treeWindowRead n c bad => exact execTreeWindowRead_ok _ _ _ _ h
  | leafWindowRead f c => exact execLeafWindowRead_ok _ _ _ h
  | flowStoreScrub ups => exact execFlowStoreScrub_ok _ _ h
  | bucketRebuild b => exact execBucketRebuild_ok _ _ h
  | marStart => exact execMarStart_ok _ h
  | marStop => exact execMarStop_ok _ h
  | marStopDone => exact execMarStopDone_ok _ h
  | marClearAll => exact execMarClearAll_ok _ h
  | marClearDone => exact execMarClearDone_ok _ h
  | marExport => exact execMarExport_ok _ h
  | marExportDone => exact execMarExportDone_ok _ h
  | marRetire f => exact execMarRetire_ok _ _ h
  | marClrCnt => exact execMarClrCnt_ok _ h
  | muStageWrite n c t p r w => exact execMuStageWrite_ok _ _ _ _ _ _ _ h
  | muCommit n c t p w => exact execMuCommit_ok _ _ _ _ _ _ h
  | muCtrlWrite n c t p w => exact execMuCtrlWrite_ok _ _ _ _ _ _ h
  | muEntryRead n c t p r => exact execMuEntryRead_ok _ _ _ _ _ _ h
  | fpMasterRequest n route wr posted tid addr len data last => exact execFpMasterRequest_ok _ _ _ _ _ _ _ _ _ _ h
  | fpMasterResponse n => exact execFpMasterResponse_ok _ _ h
  | fpSlaveRequest n off wr data => exact execFpSlaveRequest_ok _ _ _ _ _ h
  | fpSlaveResponse n tag err data => exact execFpSlaveResponse_ok _ _ _ _ _ h
  | fpSlaveTimeout n tag => exact execFpSlaveTimeout_ok _ _ _ h
  | islSwitch n c => exact execIslSwitch_ok _ _ _ h
  | islClrCnt n => exact execIslClrCnt_ok _ _ h
  | waveInstant => exact execWaveInstant_ok _ h
  | islandSwitchCycle n e => exact execIslandSwitchCycle_ok _ _ _ h
  | refCheck a b c => exact execRefCheck_ok _ _ _ _ h
  | classFallback c lost => exact execClassFallback_ok _ _ _ h
  | clkRefCfgWrite w => exact execClkRefCfgWrite_ok _ _ h
  | islClkReqWrite n w => exact execIslClkReqWrite_ok _ _ _ h
  | islClkCfgWrite n frac w => exact execIslClkCfgWrite_ok _ _ _ _ h
  | islPllLocked n => exact execIslPllLocked_ok _ _ h
  | islLockTimeout n => exact execIslLockTimeout_ok _ _ h
  | judgeWindow n cnt => exact execJudgeWindow_ok _ _ _ h
  | rampAdmit n => exact execRampAdmit_ok _ _ h
  | rampUpDone n => exact execRampUpDone_ok _ _ h
  | rampDownDone n => exact execRampDownDone_ok _ _ h
  | islClkLost n lock => exact execIslClkLost_ok _ _ _ h
  | islPwrOffReq n => exact execIslPwrOffReq_ok _ _ h
  | islPwrOnReq n => exact execIslPwrOnReq_ok _ _ h
  | powerDownDone n => exact execPowerDownDone_ok _ _ h
  | powerUpDone n => exact execPowerUpDone_ok _ _ h
  | sluiceSend n e b data => exact execSluiceSend_ok _ _ _ _ _ h
  | sluiceDeliver n e b => exact execSluiceDeliver_ok _ _ _ _ h
  | sluiceFlushWrite n e w => exact execSluiceFlushWrite_ok _ _ _ _ h
  | sluiceFlushDone n e b => exact execSluiceFlushDone_ok _ _ _ _ h
  | bundleCal b failing paused => exact execBundleCal_ok _ _ _ _ h
  | contentionGuard b g => exact execContentionGuard_ok _ _ _ h
  | steeringRepair b => exact execSteeringRepair_ok _ _ h
  | mrRead n row tag bad errs => exact execMrRead_ok _ _ _ _ _ _ h
  | mrWrite n row tag data errs => exact execMrWrite_ok _ _ _ _ _ _ h
  | mrWriteMasked n row tag wen data errs => exact execMrWriteMasked_ok _ _ _ _ _ _ _ h
  | mrResponse n => exact execMrResponse_ok _ _ h
  | sramRead w key addr n errs => exact execSramRead_ok _ _ _ _ _ _ h
  | sramWrite w key word data errs => exact execSramWrite_ok _ _ _ _ _ _ h
  | sramMergeWrite w key addr data errs => exact execSramMergeWrite_ok _ _ _ _ _ _ h
  | sramWriteback word => exact execSramWriteback_ok _ _ h
  | sramBucketLeak b => exact execSramBucketLeak_ok _ _ h
  | srmRawRead => exact execSrmRawRead_ok _ h
  | srmRawWrData => exact execSrmRawWrData_ok _ h
  | srmRawWrChk => exact execSrmRawWrChk_ok _ h
  | srmRawWrBoth => exact execSrmRawWrBoth_ok _ h
  | srmClrLog => exact execSrmClrLog_ok _ h
  | srbTtRegion b region => exact execSrbTtRegion_ok _ _ _ h
  | srbClrCnt b => exact execSrbClrCnt_ok _ _ h
  | ttRegionStart u => exact execTtRegionStart_ok _ _ h
  | ttRegionDone u failing => exact execTtRegionDone_ok _ _ _ h
  | srbRetEnter b => exact execSrbRetEnter_ok _ _ h
  | retEntered b => exact execRetEntered_ok _ _ h
  | srbRetExit b byRequest => exact execSrbRetExit_ok _ _ _ h
  | retWakeDone b => exact execRetWakeDone_ok _ _ h
  | secureWipe => exact execSecureWipe_ok _ h
  | secureWipeDone => exact execSecureWipeDone_ok _ h
  | hbmRead w key addr n errs => exact execHbmRead_ok _ _ _ _ _ _ h
  | hbmWrite w key line data errs => exact execHbmWrite_ok _ _ _ _ _ _ h
  | hbmMerge w key addr data errs => exact execHbmMerge_ok _ _ _ _ _ _ h
  | hbmWriteback key line => exact execHbmWriteback_ok _ _ _ h
  | hbmSchedPeriod => exact execHbmSchedPeriod_ok _ h
  | hbmRefresh r bank postponed => exact execHbmRefresh_ok _ _ _ _ h
  | hbmTempRead die => exact execHbmTempRead_ok _ _ h
  | neighbourRefresh i1 => exact execNeighbourRefresh_ok _ _ h
  | patrolScrubLine => exact execPatrolScrubLine_ok _ h
  | hbmBucketLeak r => exact execHbmBucketLeak_ok _ _ h
  | migrationStart r => exact execMigrationStart_ok _ _ h
  | migrationCopyLine => exact execMigrationCopyLine_ok _ h
  | migrationDone => exact execMigrationDone_ok _ h
  | hbmEnable initFill => exact execHbmEnable_ok _ _ h
  | hbmDisable initFill => exact execHbmDisable_ok _ _ h
  | hbmTrainingDone margins => exact execHbmTrainingDone_ok _ _ h
  | hbmTrainingFault cause margins => exact execHbmTrainingFault_ok _ _ _ h
  | hbmFillDone => exact execHbmFillDone_ok _ h
  | hbmDrainDone => exact execHbmDrainDone_ok _ h
  | hbmMigrate r => exact execHbmMigrate_ok _ _ h
  | hbmClrLog => exact execHbmClrLog_ok _ h
  | hbmClrCnt => exact execHbmClrCnt_ok _ h
  | nocRequest w route op key urg tid addr n data => exact execNocRequest_ok _ _ _ _ _ _ _ _ _ _ h
  | nocDeliver id waits => exact execNocDeliver_ok _ _ _ h
  | nocResponse id waits => exact execNocResponse_ok _ _ _ h
  | postedAck id waits => exact execPostedAck_ok _ _ _ h
  | routeUpdate i1 e ctl => exact execRouteUpdate_ok _ _ _ _ h
  | routeCommit i1 e => exact execRouteCommit_ok _ _ _ h
  | flitReplay m ok => exact execFlitReplay_ok _ _ _ h
  | linkRetrain m ok maps => exact execLinkRetrain_ok _ _ _ _ h
  | nocDrain n => exact execNocDrain_ok _ _ h
  | nocResume n => exact execNocResume_ok _ _ h
  | nocClrCnt => exact execNocClrCnt_ok _ h
  | routerDrained n => exact execRouterDrained_ok _ _ h
  | routerReconfDone n ok => exact execRouterReconfDone_ok _ _ _ h
  | drainTimeout router x => exact execDrainTimeout_ok _ _ _ h
  | recoveryBarrier => exact execRecoveryBarrier_ok _ h
  | coreMemoryAccess c k mmode a size v lines ce ue => exact execCoreMemoryAccess_ok _ _ _ _ _ _ _ _ _ _ h
  | coreTimerIrq c => exact execCoreTimerIrq_ok _ _ h
  | wdgKick c w => exact execWdgKick_ok _ _ _ h
  | wdgExpire c => exact execWdgExpire_ok _ _ h
  | uartTxWrite u w => exact execUartTxWrite_ok _ _ _ h
  | uartRxByte u x => exact execUartRxByte_ok _ _ _ h
  | uartRxRead u => exact execUartRxRead_ok _ _ h
  | mbSend k w => exact execMbSend_ok _ _ _ h
  | mbRecv k => exact execMbRecv_ok _ _ h
  | semTake m i1 => exact execSemTake_ok _ _ _ h
  | semGive m i1 => exact execSemGive_ok _ _ _ h
  | semForce m i1 => exact execSemForce_ok _ _ _ h
  | milLoadSlot slot => exact execMilLoadSlot_ok _ _ h
  | milLoadMem => exact execMilLoadMem_ok _ h
  | fwLoadDone read digest sig => exact execFwLoadDone_ok _ _ _ _ h
  | milStart cores => exact execMilStart_ok _ _ h
  | milResetCores cores => exact execMilResetCores_ok _ _ h
  | milCmoClean => exact execMilCmoClean_ok _ h
  | milCmoInval => exact execMilCmoInval_ok _ h
  | milCmoFlush => exact execMilCmoFlush_ok _ h
  | cmoDone => exact execCmoDone_ok _ h
  | mstRingWrWrite r w => exact execMstRingWrWrite_ok _ _ _ h
  | mstJobCount => exact execMstJobCount_ok _ h
  | mstJobList => exact execMstJobList_ok _ h
  | mstJobIndex => exact execMstJobIndex_ok _ h
  | mstJobExport => exact execMstJobExport_ok _ h
  | mstBlockRead => exact execMstBlockRead_ok _ h
  | mstJobEnd => exact execMstJobEnd_ok _ h
  | mstStart => exact execMstStart_ok _ h
  | mstStop => exact execMstStop_ok _ h
  | mstAbort => exact execMstAbort_ok _ h
  | mstClrCnt => exact execMstClrCnt_ok _ h
  | pcieConfigRequest r wr msix => exact execPcieConfigRequest_ok _ _ _ _ h
  | bar0Read x n => exact execBar0Read_ok _ _ _ h
  | bar0Write x n w => exact execBar0Write_ok _ _ _ _ h
  | bar2Read x n => exact execBar2Read_ok _ _ _ h
  | bar2Write x d => exact execBar2Write_ok _ _ _ h
  | hostReset k => exact execHostReset_ok _ _ h
  | pcieLinkChange speed width => exact execPcieLinkChange_ok _ _ _ h
  | drvHello w => exact execDrvHello_ok _ _ h
  | qStart q => exact execQStart_ok _ _ h
  | qStop q => exact execQStop_ok _ _ h
  | qReset q => exact execQReset_ok _ _ h
  | hstClrCnt => exact execHstClrCnt_ok _ h
  | qTailWrite q w => exact execQTailWrite_ok _ _ _ h
  | descProcess q desc data fabOk => exact execDescProcess_ok _ _ _ _ _ h
  | imodExpire q => exact execImodExpire_ok _ _ h
  | rlkEnable l w => exact execRlkEnable_ok _ _ _ h
  | rlkDisable l w => exact execRlkDisable_ok _ _ _ h
  | rlkPhyUp l lanes => exact execRlkPhyUp_ok _ _ _ h
  | rlkOfferTimer l => exact execRlkOfferTimer_ok _ _ h
  | rowOffer l w => exact execRowOffer_ok _ _ _ h
  | rlkRateSwitch l => exact execRlkRateSwitch_ok _ _ h
  | rowData l w => exact execRowData_ok _ _ _ h
  | rowIdle l w => exact execRowIdle_ok _ _ _ h
  | rowNak l w => exact execRowNak_ok _ _ _ h
  | rlkLinkDown l => exact execRlkLinkDown_ok _ _ h
  | rlkRetrain l => exact execRlkRetrain_ok _ _ h
  | rlkClrCnt l => exact execRlkClrCnt_ok _ _ h
  | streamWordSend l c data last => exact execStreamWordSend_ok _ _ _ _ _ h
  | tsSyncInterval l t1 => exact execTsSyncInterval_ok _ _ _ h
  | mgmtSync l w t2 t3 => exact execMgmtSync_ok _ _ _ _ _ h
  | mgmtFollow l w => exact execMgmtFollow_ok _ _ _ h
  | mgmtDelayReq l w t4 => exact execMgmtDelayReq_ok _ _ _ _ h
  | mgmtDelayResp l w => exact execMgmtDelayResp_ok _ _ _ h
  | tsbSyncLost => exact execTsbSyncLost_ok _ h
  | tsbStep => exact execTsbStep_ok _ h
  | tsbStepRelease => exact execTsbStepRelease_ok _ h
  | eventRaise e => exact execEventRaise_ok _ _ h
  | evtClaimRead c p peek => exact execEvtClaimRead_ok _ _ _ _ h
  | evtRouteAWrite e w => exact execEvtRouteAWrite_ok _ _ _ h
  | evtUserRaise u => exact execEvtUserRaise_ok _ _ h
  | cfgSyncWord skip => exact execCfgSyncWord_ok _ _ h
  | pktNoop => exact execPktNoop_ok _ h
  | pktCrc p => exact execPktCrc_ok _ _ h
  | pktIdcode p => exact execPktIdcode_ok _ _ h
  | pktFar p => exact execPktFar_ok _ _ h
  | pktFdri p errs => exact execPktFdri_ok _ _ _ h
  | pktStartup p => exact execPktStartup_ok _ _ h
  | pktRegion p => exact execPktRegion_ok _ _ h
  | pktZdata p errs => exact execPktZdata_ok _ _ _ h
  | pktAuth p => exact execPktAuth_ok _ _ h
  | pktEnc p => exact execPktEnc_ok _ _ h
  | encSegment cipher plain => exact execEncSegment_ok _ _ _ h
  | pktGsel p => exact execPktGsel_ok _ _ h
  | cmdNull p => exact execCmdNull_ok _ _ h
  | cmdRcrc p => exact execCmdRcrc_ok _ _ h
  | cmdWcfg p => exact execCmdWcfg_ok _ _ h
  | cmdLfrm p => exact execCmdLfrm_ok _ _ h
  | sigVerifyDone ok digest => exact execSigVerifyDone_ok _ _ _ h
  | cmdStart p => exact execCmdStart_ok _ _ h
  | cmdDesync p => exact execCmdDesync_ok _ _ h
  | cmdPrBegin p => exact execCmdPrBegin_ok _ _ h
  | cmdPrCancel p => exact execCmdPrCancel_ok _ _ h
  | clearingDone mode gang => exact execClearingDone_ok _ _ _ h
  | startupClocksDone => exact execStartupClocksDone_ok _ h
  | startupOut vio => exact execStartupOut_ok _ _ h
  | startupWe => exact execStartupWe_ok _ h
  | startupRst => exact execStartupRst_ok _ h
  | startupDone => exact execStartupDone_ok _ h
  | donePinHigh high => exact execDonePinHigh_ok _ _ h
  | startupWeir => exact execStartupWeir_ok _ h
  | startupLateIsland n vio => exact execStartupLateIsland_ok _ _ _ h
  | cfgLoadFlash planes => exact execCfgLoadFlash_ok _ _ h
  | cfgLoadSlot slot planes => exact execCfgLoadSlot_ok _ _ _ h
  | cfgLoadMem planes => exact execCfgLoadMem_ok _ _ h
  | cfgAbort => exact execCfgAbort_ok _ h
  | cfgClrErr => exact execCfgClrErr_ok _ h
  | cfgClearPlanes isl planes all => exact execCfgClearPlanes_ok _ _ _ _ h
  | cfgClrCnt => exact execCfgClrCnt_ok _ h
  | cfgFifoWrite w => exact execCfgFifoWrite_ok _ _ h
  | cfgFifoDrop => exact execCfgFifoDrop_ok _ h
  | loadTimeout => exact execLoadTimeout_ok _ h
  | sourceEnd => exact execSourceEnd_ok _ h
  | xspiHeaderRead oct single => exact execXspiHeaderRead_ok _ _ _ h
  | gangInitLow => exact execGangInitLow_ok _ h
  | followerRelease => exact execFollowerRelease_ok _ h
  | dahWriteSlot fw i1 => exact execDahWriteSlot_ok _ _ _ h
  | dahWriteDone ok top mean => exact execDahWriteDone_ok _ _ _ _ h
  | dahEraseSlot fw i1 => exact execDahEraseSlot_ok _ _ _ h
  | dahSetBoot => exact execDahSetBoot_ok _ h
  | dahClrCnt => exact execDahClrCnt_ok _ h
  | progNLow => exact execProgNLow_ok _ h
  | progNRelease failing => exact execProgNRelease_ok _ _ h
  | railValid r => exact execRailValid_ok _ _ h
  | auxPorRelease agree weak => exact execAuxPorRelease_ok _ _ _ h
  | mainPorRelease failing => exact execMainPorRelease_ok _ _ h
  | islandPowerStage g => exact execIslandPowerStage_ok _ _ h
  | mainRailLoss r => exact execMainRailLoss_ok _ _ h
  | phaseClocksDone => exact execPhaseClocksDone_ok _ h
  | noRefTimeout => exact execNoRefTimeout_ok _ h
  | phaseKeysDone => exact execPhaseKeysDone_ok _ h
  | bootRetry => exact execBootRetry_ok _ h
  | sysResetDevice key => exact execSysResetDevice_ok _ _ h
  | sysResetEngine key => exact execSysResetEngine_ok _ _ h
  | sysResetIsland key n => exact execSysResetIsland_ok _ _ _ h
  | islandResetRelease n => exact execIslandResetRelease_ok _ _ h
  | sysSaveAuto => exact execSysSaveAuto_ok _ h
  | pciePerst => exact execPciePerst_ok _ h
  | vccAuxPowerOn => exact execVccAuxPowerOn_ok _ h
  | peoChallenge m => exact execPeoChallenge_ok _ _ h
  | peoToken m => exact execPeoToken_ok _ _ h
  | peoAttest m => exact execPeoAttest_ok _ _ h
  | peoGetCert m => exact execPeoGetCert_ok _ _ h
  | peoFuseWrite m => exact execPeoFuseWrite_ok _ _ h
  | peoFuseRepair m => exact execPeoFuseRepair_ok _ _ h
  | peoSetSvn m => exact execPeoSetSvn_ok _ _ h
  | peoRevoke m => exact execPeoRevoke_ok _ _ h
  | peoInstallKey m => exact execPeoInstallKey_ok _ _ h
  | peoSealKey m => exact execPeoSealKey_ok _ _ h
  | peoProvision m => exact execPeoProvision_ok _ _ h
  | peoDeploy m => exact execPeoDeploy_ok _ _ h
  | peoReturn m => exact execPeoReturn_ok _ _ h
  | peoWipeSecure m => exact execPeoWipeSecure_ok _ _ h
  | peoLock m => exact execPeoLock_ok _ _ h
  | peoCmdDone good fail => exact execPeoCmdDone_ok _ _ _ h
  | trngFail => exact execTrngFail_ok _ h
  | tamper k => exact execTamper_ok _ _ h
  | tamperRepeat k => exact execTamperRepeat_ok _ _ h
  | tokenExpire => exact execTokenExpire_ok _ h
  | scrubFrame n c f data chk gold errs => exact execScrubFrame_ok _ _ _ _ _ _ _ _ h
  | goldenBuild n c units => exact execGoldenBuild_ok _ _ _ _ h
  | engineXcheck e found => exact execEngineXcheck_ok _ _ _ h
  | engineRecheck agree => exact execEngineRecheck_ok _ _ h
  | engineReloadDone e => exact execEngineReloadDone_ok _ _ h
  | scbScrubNow n c => exact execScbScrubNow_ok _ _ _ h
  | scbRebuildGold n c => exact execScbRebuildGold_ok _ _ _ h
  | scbRestore e => exact execScbRestore_ok _ _ h
  | scbClrCnt => exact execScbClrCnt_ok _ h
  | bstRunEngines i1 => exact execBstRunEngines_ok _ _ h
  | bstRunRouter i1 => exact execBstRunRouter_ok _ _ h
  | bstRunIsland i1 => exact execBstRunIsland_ok _ _ h
  | bstRunPlanes i1 => exact execBstRunPlanes_ok _ _ h
  | bstRunBank i1 => exact execBstRunBank_ok _ _ h
  | bstRunHbm i1 => exact execBstRunHbm_ok _ _ h
  | bstRunSpareRank i1 => exact execBstRunSpareRank_ok _ _ h
  | bstRunCaches i1 => exact execBstRunCaches_ok _ _ h
  | bstRunPort i1 => exact execBstRunPort_ok _ _ h
  | bstRunAnalog i1 => exact execBstRunAnalog_ok _ _ h
  | bstRunDahlia i1 => exact execBstRunDahlia_ok _ _ h
  | bstAbort => exact execBstAbort_ok _ h
  | bstClrCnt => exact execBstClrCnt_ok _ h
  | bstDone pass rows mask us => exact execBstDone_ok _ _ _ _ _ h
  | classBucketLeak k => exact execClassBucketLeak_ok _ _ h
  | calItemDue i1 j failed => exact execCalItemDue_ok _ _ _ _ h
  | vrefCheck mv => exact execVrefCheck_ok _ _ h
  | hbmDqCal pc => exact execHbmDqCal_ok _ _ h
  | hbmDqForced pc => exact execHbmDqForced_ok _ _ h
  | calCalNow i1 j => exact execCalCalNow_ok _ _ _ h
  | calClrCnt => exact execCalClrCnt_ok _ h
  | telRecord ok => exact execTelRecord_ok _ _ h
  | telSnapshot ok => exact execTelSnapshot_ok _ _ h
  | telJournalUser => exact execTelJournalUser_ok _ h
  | telClrCnt => exact execTelClrCnt_ok _ h
  | journalWrite ok => exact execJournalWrite_ok _ _ h
  | powerMeasure power current => exact execPowerMeasure_ok _ _ _ h
  | slewWindow didt => exact execSlewWindow_ok _ _ h
  | astPwrLimitWrite w => exact execAstPwrLimitWrite_ok _ _ h
  | astStagingWrite unstaged => exact execAstStagingWrite_ok _ _ h
  | astMethodWrite m => exact execAstMethodWrite_ok _ _ h
  | methodApply => exact execMethodApply_ok _ h
  | tempConvert readings => exact execTempConvert_ok _ _ h
  | thmLevelStep => exact execThmLevelStep_ok _ h
  | stopNoticeEnd => exact execStopNoticeEnd_ok _ h
  | orderlyStopDone => exact execOrderlyStopDone_ok _ h
  | overcurrent => exact execOvercurrent_ok _ h
  | stopTimeout => exact execStopTimeout_ok _ h
  | hardStop => exact execHardStop_ok _ h
  | astResume => exact execAstResume_ok _ h
  | astStop => exact execAstStop_ok _ h
  | astClrSuspect ch => exact execAstClrSuspect_ok _ _ h
  | astClrCnt => exact execAstClrCnt_ok _ h
  | tapReset => exact execTapReset_ok _ h
  | tapUpdateIr op => exact execTapUpdateIr_ok _ _ h
  | dbgaccUpdateDr dr => exact execDbgaccUpdateDr_ok _ _ h
  | dbgaccOpDone fab => exact execDbgaccOpDone_ok _ _ h
  | dbgaccTimeout => exact execDbgaccTimeout_ok _ h
  | dbgHalt cores => exact execDbgHalt_ok _ _ h
  | coreHalted c pc => exact execCoreHalted_ok _ _ _ h
  | dbgResume cores => exact execDbgResume_ok _ _ h
  | dbgStep cores => exact execDbgStep_ok _ _ h
  | dbgResetDevice => exact execDbgResetDevice_ok _ h
  | dbgAuthChallenge => exact execDbgAuthChallenge_ok _ h
  | dbgAuthToken => exact execDbgAuthToken_ok _ h
  | breakpointHit c k priv => exact execBreakpointHit_ok _ _ _ _ h
  | watchpointHit c w a size load store priv pc => exact execWatchpointHit_ok _ _ _ _ _ _ _ _ _ h
  | ebreakHalt c pc => exact execEbreakHalt_ok _ _ _ h
  | dbgRegdataWrite c v => exact execDbgRegdataWrite_ok _ _ _ h
  | supWdgKick w => exact execSupWdgKick_ok _ _ h
  | supWdgExpire => exact execSupWdgExpire_ok _ h
  | islandRowRead n => exact execIslandRowRead_ok _ _ h
  | rlkStreamRowRead l c => exact execRlkStreamRowRead_ok _ _ _ h
  | uartTxCharacter u => exact execUartTxCharacter_ok _ _ h
  | matchUnitCompare n e => exact execMatchUnitCompare_ok _ _ _ h
  | msixTableAccess x wr => exact execMsixTableAccess_ok _ _ _ h
  | precfgPdChange high => exact execPrecfgPdChange_ok _ _ h
  | rlkPhyFault l => exact execRlkPhyFault_ok _ _ h
  | aerErrorLogged uncorrectable => exact execAerErrorLogged_ok _ _ h

end Sys2Proof.Machine
end

