-- ==== Sys2Proof/Laws/Only.lean ====
section
/-! SUPPORT. What the register operations keep, as `OnlyFields` says it. -/

namespace Sys2Proof.Machine

theorem OnlyFields.refl (fs : List Fld) (s : State) : OnlyFields fs s s := ⟨rfl, fun _ _ => rfl⟩

theorem OnlyFields.wr {fs : List Fld} {s t : State} {f : Fld} (v : Nat) (hf : f ∈ fs) (h : OnlyFields fs s t) :
    OnlyFields fs s (t.wr f v) := by
  refine ⟨?_, fun g hg => ?_⟩
  · have e := h.1
    generalize t.cells = c at e
    subst e
    rfl
  · rw [State.rd_wr_ne _ _ (hg f hf), h.2 g hg]

theorem OnlyFields.wrIf {fs : List Fld} {s t : State} {f : Fld} (c : Bool) (v : Nat) (hf : f ∈ fs) (h : OnlyFields fs s t) :
    OnlyFields fs s (t.wrIf c f v) := by
  unfold State.wrIf
  split
  · exact h.wr v hf
  · exact h

theorem OnlyFields.setB {fs : List Fld} {s t : State} {f : Fld} (i : Nat) (hf : f ∈ fs) (h : OnlyFields fs s t) :
    OnlyFields fs s (t.setB f i) := h.wr _ hf

theorem OnlyFields.clrB {fs : List Fld} {s t : State} {f : Fld} (i : Nat) (hf : f ∈ fs) (h : OnlyFields fs s t) :
    OnlyFields fs s (t.clrB f i) := h.wr _ hf

theorem OnlyFields.add {fs : List Fld} {s t : State} {f : Fld} (n : Nat) (hf : f ∈ fs) (h : OnlyFields fs s t) :
    OnlyFields fs s (t.add f n) := h.wr _ hf

theorem OnlyFields.inc {fs : List Fld} {s t : State} {f : Fld} (n : Nat) (hf : f ∈ fs) (h : OnlyFields fs s t) :
    OnlyFields fs s (t.inc f n) := h.wr _ hf

/-- A field that each step of an iteration keeps is kept by the iteration. -/
theorem State.rd_each {α : Type} (l : List α) (f : α → State → State) (s : State) (g : Fld)
    (h : ∀ a ∈ l, ∀ t, (f a t).rd g = t.rd g) : (State.each l f s).rd g = s.rd g := by
  unfold State.each
  induction l generalizing s with
  | nil => rfl
  | cons a r ih =>
    simp only [List.foldl_cons]
    rw [ih _ (fun b hb => h b (List.mem_cons_of_mem a hb)), h a List.mem_cons_self]

/-- After a reset of blocks a field of theirs has its reset value, and every other field its old one. -/
theorem State.rd_resetBlocks (s : State) (lo hi : Nat) (g : Fld) :
    (s.resetBlocks lo hi).rd g = if cellKey lo 0 0 ≤ g.key ∧ g.key < cellKey hi 0 0 then g.rst % 2 ^ g.w else s.rd g := by
  simp only [State.rd, State.resetBlocks, Tab.getD_delRange]
  split <;> rfl

end Sys2Proof.Machine
end

