-- ==== Sys2Proof/Laws/Packet.lean ====
section
/-! SUPPORT. What a packet of the configuration stream does. -/

namespace Sys2Proof.Machine

/-- What stands behind a packet that the source delivers next. -/
theorem State.packetAt_some {s t : State} {reg : Nat} {size : Nat → Nat} {p : Packet} {l : List Nat}
    (h : s.packetAt reg size p = some (l, t)) :
    s.cfgReads = true ∧ s.rd Hid.cfgLeft = 0 ∧ p.lost = false ∧ ∃ c n u, pktHead (p.words.map BitVec.toNat) = .write reg c n
      ∧ s.takeWords (p.words.map BitVec.toNat) = some (false, u) ∧ (p.words.map BitVec.toNat).length = n + size c
      ∧ l = (p.words.map BitVec.toNat).drop n ∧ t = if reg != 0 then u.cfgCrcAdd (p.words.map BitVec.toNat) else u := by
  unfold State.packetAt at h
  dsimp only at h
  by_cases h1 : (!s.cfgReads || s.rd Hid.cfgLeft != 0 || p.lost) = true
  · rw [if_pos h1] at h; cases h
  · rw [if_neg h1] at h
    cases hk : pktHead (p.words.map BitVec.toNat) with
    | write r c n =>
      cases ht : s.takeWords (p.words.map BitVec.toNat) with
      | none => rw [hk, ht] at h; cases h
      | some x =>
        obtain ⟨b, u⟩ := x
        rw [hk, ht] at h
        cases b
        · dsimp only at h
          split at h
          · rename_i hc
            obtain ⟨rfl, hl⟩ := hc
            simp only [Option.some.injEq, Prod.mk.injEq] at h
            obtain ⟨rfl, rfl⟩ := h
            simp only [Bool.not_eq_true, Bool.or_eq_false_iff, Bool.not_eq_false', bne_eq_false_iff_eq] at h1
            exact ⟨h1.1.1, h1.1.2, h1.2, c, n, u, rfl, rfl, hl, rfl, rfl⟩
          · cases h
        · cases h
    | noop => rw [hk] at h; cases h
    | bad n => rw [hk] at h; cases h
    | short => rw [hk] at h; cases h

/-- A packet that the source delivers next has the effect of its register. -/
theorem State.packet_of_packetAt {s t : State} {reg : Nat} {size : Nat → Nat} {p : Packet} {l : List Nat}
    (h : s.packetAt reg size p = some (l, t)) (eff : List Nat → State → State) : s.packet reg size p eff = eff l t := by
  obtain ⟨h1, h2, h3, c, n, u, hk, ht, hl, rfl, rfl⟩ := State.packetAt_some h
  unfold State.packet
  simp [h1, h2, h3, hk, ht, hl]

/-- A CMD packet of a code that the source delivers next has the effect of that code. -/
theorem State.cmdPacket_of_packetAt {s t : State} {code : Nat} {p : Packet} {l : List Nat}
    (h : s.packetAt 4 id p = some (l, t)) (hc : word0 l = code) (h7 : code ≤ 7) (eff : State → State) :
    s.cmdPacket code p eff = eff t := by
  unfold State.cmdPacket
  have hp := State.packet_of_packetAt h
  obtain ⟨_, _, _, c, n, u, hk, _, _, rfl, _⟩ := State.packetAt_some h
  simp [hk, hc, Nat.not_lt.mpr h7, hp]

end Sys2Proof.Machine
end

