-- ==== Sys2Proof/Machine/Flags.lean ====
section
/-! DEFINITION. The interrupt lines of the Miller cores: flags that no register holds and that follow from the state (R329, R376,
R546). -/

namespace Sys2Proof.Machine

/-- Whether the external interrupt of core `c` at privilege `p` is asserted (R376). -/
def State.coreIrq (s : State) (c p : Nat) : Bool :=
  (List.range 1024).any (fun e => s.pend e && s.on (Reg.EVT_ROUTE_A_EN e)
    && bit (s.rd (Reg.EVT_ROUTE_A_CORES e)) c && s.rd (Reg.EVT_ROUTE_A_PRIV e) == p)

/-- The machine timer interrupt of core `c` is asserted (R329, R546). -/
def State.timerIrq (s : State) (c : Nat) : Bool :=
  s.on (Hid.mtip c) && decide (s.rd (Reg.MIL_MTIMECMP c) ≤ s.now / 4) && !s.on (Reg.DBG_CORE_STAT_HALTED c)

/-- The software interrupt of core `c` is asserted (R329). -/
def State.softIrq (s : State) (c : Nat) : Bool := s.on (Reg.MIL_MSIP c)

end Sys2Proof.Machine
end

