-- ==== Sys2Proof/WellFormed.lean ====
section
/-! DEFINITION. Which commands a sender may form: the relations between operands that their types do not give. A command that breaks
one has a meaning all the same, since the meanings are total. -/

namespace Sys2Proof

/-- The command is well formed. -/
def Instr.wf : Instr → Bool
  | .registerWrite _ x _ => decide (x.toNat < 0x10000000)
  | .loRead .. => true
  | .hiRead .. => true
  | .loWrite .. => true
  | .hiWrite .. => true
  | .aliasWrite _ x _ => decide (0x10000000 ≤ x.toNat)
  | .aliasRead _ x => decide (0x10000000 ≤ x.toNat)
  | .prbEnable .. => true
  | .prbDisable .. => true
  | .prbBindWrite .. => true
  | .txSrcChange .. => true
  | .prbPllLocked .. => true
  | .prbPllTimeout .. => true
  | .fclkAcquired .. => true
  | .fclkTimeout .. => true
  | .eqAdaptDone .. => true
  | .blockReceived p k _ _ => decide (p.val < 4) || decide (k.val < 8)
  | .blockLockTimeout .. => true
  | .markerReceived p k _ _ _ => decide (p.val < 4) || decide (k.val < 8)
  | .markerLockTimeout .. => true
  | .rowRelease .. => true
  | .portLoss .. => true
  | .prbRetrain .. => true
  | .fmeasStart .. => true
  | .fmeasStop .. => true
  | .fmeasGateEnd .. => true
  | .calNow .. => true
  | .prbClrCnt .. => true
  | .laneCalInterval .. => true
  | .calHandover .. => true
  | .laneRailFault .. => true
  | .pinShort p k => decide (p.val < 4) || decide (k.val < 8)
  | .portConfigUpset .. => true
  | .markEntry .. => true
  | .drainRecord .. => true
  | .hopArm .. => true
  | .hopStop .. => true
  | .hopForceTrig .. => true
  | .hopClear .. => true
  | .hopClrCnt => true
  | .lanternCycle .. => true
  | .lanTimerExpire .. => true
  | .trigOutPulseEnd .. => true
  | .lanStart => true
  | .lanStop => true
  | .lanForce .. => true
  | .lanClrOut => true
  | .lanClrCnt => true
  | .runStart .. => true
  | .runStop .. => true
  | .runGo .. => true
  | .runClear .. => true
  | .insnNop .. => true
  | .insnSend .. => true
  | .insnGap .. => true
  | .insnWaitui .. => true
  | .insnLoop .. => true
  | .insnEndl .. => true
  | .insnJmp .. => true
  | .insnWaitg .. => true
  | .insnWaitts .. => true
  | .waittsReached .. => true
  | .insnSeek .. => true
  | .insnSetf .. => true
  | .insnSignal .. => true
  | .insnRaw .. => true
  | .insnHalt .. => true
  | .insnIllegal .. => true
  | .frameStart .. => true
  | .keyPresent _ _ key klen _ _ _ _ _ => key.length == klen.val + 1
  | .entryApply .. => true
  | .flowAgeRetire .. => true
  | .epochClose => true
  | .treePublish .. => true
  | .treeWindowRead .. => true
  | .leafWindowRead .. => true
  | .flowStoreScrub ups => decide (ups.map (fun u => (u.part, u.word))).Nodup
  | .bucketRebuild .. => true
  | .marStart => true
  | .marStop => true
  | .marStopDone => true
  | .marClearAll => true
  | .marClearDone => true
  | .marExport => true
  | .marExportDone => true
  | .marRetire .. => true
  | .marClrCnt => true
  | .muStageWrite .. => true
  | .muCommit .. => true
  | .muCtrlWrite .. => true
  | .muEntryRead .. => true
  | .fpMasterRequest _ _ wr posted _ addr len data _ => (wr || !posted) && data.length == (if wr then 64 * (len.val + 1) - addr.toNat % 64 else 0)
  | .fpMasterResponse .. => true
  | .fpSlaveRequest _ _ wr data => decide (1 ≤ data.length) && decide (data.length ≤ 4096) && (wr || data.all (fun b => b.isNone))
  | .fpSlaveResponse .. => true
  | .fpSlaveTimeout .. => true
  | .islSwitch .. => true
  | .islClrCnt .. => true
  | .waveInstant => true
  | .islandSwitchCycle .. => true
  | .refCheck .. => true
  | .classFallback .. => true
  | .clkRefCfgWrite .. => true
  | .islClkReqWrite .. => true
  | .islClkCfgWrite .. => true
  | .islPllLocked .. => true
  | .islLockTimeout .. => true
  | .judgeWindow .. => true
  | .rampAdmit .. => true
  | .rampUpDone .. => true
  | .rampDownDone .. => true
  | .islClkLost .. => true
  | .islPwrOffReq .. => true
  | .islPwrOnReq .. => true
  | .powerDownDone .. => true
  | .powerUpDone .. => true
  | .sluiceSend .. => true
  | .sluiceDeliver .. => true
  | .sluiceFlushWrite .. => true
  | .sluiceFlushDone .. => true
  | .bundleCal .. => true
  | .contentionGuard .. => true
  | .steeringRepair .. => true
  | .mrRead .. => true
  | .mrWrite _ _ _ data _ => data.length == 64
  | .mrWriteMasked _ _ _ _ data _ => data.length == 64
  | .mrResponse .. => true
  | .sramRead _ _ addr n _ => decide (addr < 2 ^ 46) && decide (1 ≤ n) && decide (n ≤ 4096)
  | .sramWrite _ _ word data _ => decide (8 * word < 2 ^ 46) && !data.isEmpty
  | .sramMergeWrite _ _ addr data _ => decide (addr < 2 ^ 46) && !data.isEmpty
  | .sramWriteback .. => true
  | .sramBucketLeak .. => true
  | .srmRawRead => true
  | .srmRawWrData => true
  | .srmRawWrChk => true
  | .srmRawWrBoth => true
  | .srmClrLog => true
  | .srbTtRegion .. => true
  | .srbClrCnt .. => true
  | .ttRegionStart .. => true
  | .ttRegionDone _ failing => decide failing.Nodup
  | .srbRetEnter .. => true
  | .retEntered .. => true
  | .srbRetExit .. => true
  | .retWakeDone .. => true
  | .secureWipe => true
  | .secureWipeDone => true
  | .hbmRead _ _ addr n _ => decide (addr < 2 ^ 46) && decide (1 ≤ n) && decide (n ≤ 4096)
  | .hbmWrite _ _ line data _ => decide (32 * line < 2 ^ 46) && !data.isEmpty
  | .hbmMerge _ _ addr data _ => decide (addr < 2 ^ 46) && !data.isEmpty
  | .hbmWriteback .. => true
  | .hbmSchedPeriod => true
  | .hbmRefresh .. => true
  | .hbmTempRead .. => true
  | .neighbourRefresh .. => true
  | .patrolScrubLine => true
  | .hbmBucketLeak .. => true
  | .migrationStart .. => true
  | .migrationCopyLine => true
  | .migrationDone => true
  | .hbmEnable .. => true
  | .hbmDisable .. => true
  | .hbmTrainingDone .. => true
  | .hbmTrainingFault .. => true
  | .hbmFillDone => true
  | .hbmDrainDone => true
  | .hbmMigrate .. => true
  | .hbmClrLog => true
  | .hbmClrCnt => true
  | .nocRequest _ _ op _ _ _ addr n data => decide (addr < 2 ^ 46) && decide (1 ≤ n.val) && data.length == (if op.val = 0 then 0 else n.val)
  | .nocDeliver .. => true
  | .nocResponse .. => true
  | .postedAck .. => true
  | .routeUpdate .. => true
  | .routeCommit .. => true
  | .flitReplay .. => true
  | .linkRetrain _ _ maps => decide (maps.length ≤ 2) && decide maps.Nodup
  | .nocDrain .. => true
  | .nocResume .. => true
  | .nocClrCnt => true
  | .routerDrained .. => true
  | .routerReconfDone .. => true
  | .drainTimeout .. => true
  | .recoveryBarrier => true
  | .coreMemoryAccess .. => true
  | .coreTimerIrq .. => true
  | .wdgKick .. => true
  | .wdgExpire .. => true
  | .uartTxWrite .. => true
  | .uartRxByte .. => true
  | .uartRxRead .. => true
  | .mbSend .. => true
  | .mbRecv .. => true
  | .semTake .. => true
  | .semGive .. => true
  | .semForce .. => true
  | .milLoadSlot .. => true
  | .milLoadMem => true
  | .fwLoadDone .. => true
  | .milStart .. => true
  | .milResetCores .. => true
  | .milCmoClean => true
  | .milCmoInval => true
  | .milCmoFlush => true
  | .cmoDone => true
  | .mstRingWrWrite .. => true
  | .mstJobCount => true
  | .mstJobList => true
  | .mstJobIndex => true
  | .mstJobExport => true
  | .mstBlockRead => true
  | .mstJobEnd => true
  | .mstStart => true
  | .mstStop => true
  | .mstAbort => true
  | .mstClrCnt => true
  | .pcieConfigRequest .. => true
  | .bar0Read _ n => decide (1 ≤ n.val)
  | .bar0Write _ n _ => decide (1 ≤ n.val)
  | .bar2Read _ n => decide (1 ≤ n.val)
  | .bar2Write _ d => decide (1 ≤ d.length) && decide (d.length ≤ 4096)
  | .hostReset .. => true
  | .pcieLinkChange .. => true
  | .drvHello .. => true
  | .qStart .. => true
  | .qStop .. => true
  | .qReset .. => true
  | .hstClrCnt => true
  | .qTailWrite .. => true
  | .descProcess .. => true
  | .imodExpire .. => true
  | .rlkEnable .. => true
  | .rlkDisable .. => true
  | .rlkPhyUp _ lanes => decide (lanes.length ≤ 8)
  | .rlkOfferTimer .. => true
  | .rowOffer .. => true
  | .rlkRateSwitch .. => true
  | .rowData .. => true
  | .rowIdle .. => true
  | .rowNak .. => true
  | .rlkLinkDown .. => true
  | .rlkRetrain .. => true
  | .rlkClrCnt .. => true
  | .streamWordSend .. => true
  | .tsSyncInterval .. => true
  | .mgmtSync .. => true
  | .mgmtFollow .. => true
  | .mgmtDelayReq .. => true
  | .mgmtDelayResp .. => true
  | .tsbSyncLost => true
  | .tsbStep => true
  | .tsbStepRelease => true
  | .eventRaise .. => true
  | .evtClaimRead .. => true
  | .evtRouteAWrite .. => true
  | .evtUserRaise .. => true
  | .cfgSyncWord .. => true
  | .pktNoop => true
  | .pktCrc .. => true
  | .pktIdcode .. => true
  | .pktFar .. => true
  | .pktFdri .. => true
  | .pktStartup .. => true
  | .pktRegion .. => true
  | .pktZdata .. => true
  | .pktAuth .. => true
  | .pktEnc .. => true
  | .encSegment .. => true
  | .pktGsel .. => true
  | .cmdNull .. => true
  | .cmdRcrc .. => true
  | .cmdWcfg .. => true
  | .cmdLfrm .. => true
  | .sigVerifyDone .. => true
  | .cmdStart .. => true
  | .cmdDesync .. => true
  | .cmdPrBegin .. => true
  | .cmdPrCancel .. => true
  | .clearingDone .. => true
  | .startupClocksDone => true
  | .startupOut vio => decide (vio.length ≤ 8)
  | .startupWe => true
  | .startupRst => true
  | .startupDone => true
  | .donePinHigh .. => true
  | .startupWeir => true
  | .startupLateIsland .. => true
  | .cfgLoadFlash .. => true
  | .cfgLoadSlot .. => true
  | .cfgLoadMem .. => true
  | .cfgAbort => true
  | .cfgClrErr => true
  | .cfgClearPlanes .. => true
  | .cfgClrCnt => true
  | .cfgFifoWrite .. => true
  | .cfgFifoDrop => true
  | .loadTimeout => true
  | .sourceEnd => true
  | .xspiHeaderRead oct single => oct.length == 64 && single.length == 64
  | .gangInitLow => true
  | .followerRelease => true
  | .dahWriteSlot .. => true
  | .dahWriteDone .. => true
  | .dahEraseSlot .. => true
  | .dahSetBoot => true
  | .dahClrCnt => true
  | .progNLow => true
  | .progNRelease .. => true
  | .railValid .. => true
  | .auxPorRelease _ weak => decide weak.Nodup
  | .mainPorRelease .. => true
  | .islandPowerStage .. => true
  | .mainRailLoss .. => true
  | .phaseClocksDone => true
  | .noRefTimeout => true
  | .phaseKeysDone => true
  | .bootRetry => true
  | .sysResetDevice .. => true
  | .sysResetEngine .. => true
  | .sysResetIsland .. => true
  | .islandResetRelease .. => true
  | .sysSaveAuto => true
  | .pciePerst => true
  | .vccAuxPowerOn => true
  | .peoChallenge .. => true
  | .peoToken .. => true
  | .peoAttest .. => true
  | .peoGetCert .. => true
  | .peoFuseWrite .. => true
  | .peoFuseRepair .. => true
  | .peoSetSvn .. => true
  | .peoRevoke .. => true
  | .peoInstallKey .. => true
  | .peoSealKey .. => true
  | .peoProvision .. => true
  | .peoDeploy .. => true
  | .peoReturn .. => true
  | .peoWipeSecure .. => true
  | .peoLock .. => true
  | .peoCmdDone .. => true
  | .trngFail => true
  | .tamper .. => true
  | .tamperRepeat .. => true
  | .tokenExpire => true
  | .scrubFrame .. => true
  | .goldenBuild .. => true
  | .engineXcheck .. => true
  | .engineRecheck .. => true
  | .engineReloadDone .. => true
  | .scbScrubNow .. => true
  | .scbRebuildGold .. => true
  | .scbRestore .. => true
  | .scbClrCnt => true
  | .bstRunEngines .. => true
  | .bstRunRouter .. => true
  | .bstRunIsland .. => true
  | .bstRunPlanes .. => true
  | .bstRunBank .. => true
  | .bstRunHbm .. => true
  | .bstRunSpareRank .. => true
  | .bstRunCaches .. => true
  | .bstRunPort .. => true
  | .bstRunAnalog .. => true
  | .bstRunDahlia .. => true
  | .bstAbort => true
  | .bstClrCnt => true
  | .bstDone _ rows _ _ => decide rows.Nodup
  | .classBucketLeak .. => true
  | .calItemDue .. => true
  | .vrefCheck .. => true
  | .hbmDqCal .. => true
  | .hbmDqForced .. => true
  | .calCalNow .. => true
  | .calClrCnt => true
  | .telRecord .. => true
  | .telSnapshot .. => true
  | .telJournalUser => true
  | .telClrCnt => true
  | .journalWrite .. => true
  | .powerMeasure power current => power.length == 10 && decide (current.length ≤ 80)
  | .slewWindow .. => true
  | .astPwrLimitWrite .. => true
  | .astStagingWrite .. => true
  | .astMethodWrite .. => true
  | .methodApply => true
  | .tempConvert readings => readings.length == 16
  | .thmLevelStep => true
  | .stopNoticeEnd => true
  | .orderlyStopDone => true
  | .overcurrent => true
  | .stopTimeout => true
  | .hardStop => true
  | .astResume => true
  | .astStop => true
  | .astClrSuspect .. => true
  | .astClrCnt => true
  | .tapReset => true
  | .tapUpdateIr .. => true
  | .dbgaccUpdateDr .. => true
  | .dbgaccOpDone .. => true
  | .dbgaccTimeout => true
  | .dbgHalt .. => true
  | .coreHalted .. => true
  | .dbgResume .. => true
  | .dbgStep .. => true
  | .dbgResetDevice => true
  | .dbgAuthChallenge => true
  | .dbgAuthToken => true
  | .breakpointHit .. => true
  | .watchpointHit .. => true
  | .ebreakHalt .. => true
  | .dbgRegdataWrite .. => true
  | .supWdgKick .. => true
  | .supWdgExpire => true
  | .islandRowRead .. => true
  | .rlkStreamRowRead .. => true
  | .uartTxCharacter .. => true
  | .matchUnitCompare .. => true
  | .msixTableAccess .. => true
  | .precfgPdChange .. => true
  | .rlkPhyFault .. => true
  | .aerErrorLogged .. => true

end Sys2Proof
end

