-- ==== Sys2Proof/Tests/Slice0.lean ====
section
/-! SUPPORT. The model's own tests: ill-formed commands that WellFormed refuses, values that the spec works out, and a witness for
the premises of every statement. -/

namespace Sys2Proof

open Machine

set_option maxRecDepth 100000

/-! ### Plain data -/

/-- States are compared by deciding. -/
theorem test_state_decidable : ∀ s t : State, s = t ∨ s ≠ t := fun s t => Decidable.em (s = t)

/-! ### Ill-formed commands -/

theorem test_wf_register_address : Instr.wf (.registerWrite .host 0x10000000 0) = false := by decide
theorem test_wf_register_ok : Instr.wf (.registerWrite .host 0x0FFFFFFC 0) = true := by decide
theorem test_wf_alias_write : Instr.wf (.aliasWrite .host 0x0FFFFFFC 0) = false := by decide
theorem test_wf_alias_read : Instr.wf (.aliasRead .host 0x0FFFFFFC) = false := by decide
theorem test_wf_key_length : Instr.wf (.keyPresent 9 0 [1, 2] 0 0 none none 0 none) = false := by decide
theorem test_wf_key_ok : Instr.wf (.keyPresent 9 0 [1, 2] 1 0 none none 0 none) = true := by decide
theorem test_wf_store_scrub : Instr.wf (.flowStoreScrub [⟨.tag 5, 0, 1, 0⟩, ⟨.tag 5, 0, 2, 0⟩]) = false := by decide
theorem test_wf_master_read_posted : Instr.wf (.fpMasterRequest 0 0 false true 0 0 0 [] true) = false := by decide
theorem test_wf_master_write_length : Instr.wf (.fpMasterRequest 0 0 true false 0 8 0 (List.replicate 64 none) true) = false := by decide
theorem test_wf_master_write_ok : Instr.wf (.fpMasterRequest 0 0 true false 0 8 0 (List.replicate 56 none) true) = true := by decide
theorem test_wf_slave_empty : Instr.wf (.fpSlaveRequest 0 0 true []) = false := by decide
theorem test_wf_slave_read_data : Instr.wf (.fpSlaveRequest 0 0 false [some 1]) = false := by decide
theorem test_wf_row_length : Instr.wf (.mrWrite 0 0 0 [1] []) = false := by decide
theorem test_wf_masked_row_length : Instr.wf (.mrWriteMasked 0 0 0 0 [1] []) = false := by decide
theorem test_wf_sram_read_none : Instr.wf (.sramRead .host 0 0x1000000000 0 []) = false := by decide
theorem test_wf_sram_read_long : Instr.wf (.sramRead .host 0 0x1000000000 4097 []) = false := by decide
theorem test_wf_sram_write_none : Instr.wf (.sramWrite .host 0 0x200000000 [] []) = false := by decide
theorem test_wf_sram_write_high : Instr.wf (.sramWrite .host 0 0x80000000000 [0] []) = false := by decide
theorem test_wf_sram_merge_none : Instr.wf (.sramMergeWrite .host 0 0x1000000000 [] []) = false := by decide
theorem test_wf_hbm_read_none : Instr.wf (.hbmRead .host 0 0 0 []) = false := by decide
theorem test_wf_hbm_write_none : Instr.wf (.hbmWrite .host 0 0 [] []) = false := by decide
theorem test_wf_hbm_merge_none : Instr.wf (.hbmMerge .host 0 0 [] []) = false := by decide
theorem test_wf_region_rows : Instr.wf (.ttRegionDone 0 [3, 3]) = false := by decide
theorem test_wf_noc_none : Instr.wf (.nocRequest .host 0 0 0 none 0 0 0 []) = false := by decide
theorem test_wf_noc_data : Instr.wf (.nocRequest .host 0 1 0 none 0 0 2 [some 1]) = false := by decide
theorem test_wf_link_maps : Instr.wf (.linkRetrain 0 true [3, 3]) = false := by decide
theorem test_wf_bar0_read : Instr.wf (.bar0Read 0 0) = false := by decide
theorem test_wf_bar0_write : Instr.wf (.bar0Write 0 0 0) = false := by decide
theorem test_wf_bar2_read : Instr.wf (.bar2Read 0 0) = false := by decide
theorem test_wf_bar2_write : Instr.wf (.bar2Write 0 []) = false := by decide
theorem test_wf_partner_lanes : Instr.wf (.rlkPhyUp 0 (List.replicate 9 (0, 0, false, 0))) = false := by decide
theorem test_wf_banks : Instr.wf (.startupOut (List.replicate 9 0)) = false := by decide
theorem test_wf_flash_header : Instr.wf (.xspiHeaderRead [] []) = false := by decide
theorem test_wf_self_test_rows : Instr.wf (.bstDone true [7, 7] 0 0) = false := by decide
theorem test_wf_power : Instr.wf (.powerMeasure [1] []) = false := by decide
theorem test_wf_readings : Instr.wf (.tempConvert [none]) = false := by decide

/-! ### Values that the spec works out -/

/-- The register block of island 57 (the example of R20). -/
theorem test_island_57_block : regBase + memberAddr 0 57 0 = 0x0030_0790_0000 := by decide

/-- The island bank of island 57 begins where the example of R20 says. -/
theorem test_island_57_bank : bankOf 0x0010_0AB0_0000 = 57 ∧ bankOf (0x0010_0AB0_0000 - 1) = 56 := by decide

/-- Sparing at reset: the top of HBM follows the number of spare ranks (R22, R25). -/
theorem test_hbm_mode_at_reset : State.reset.rd Reg.HBM_MODE_SPARE = 1 ∧ State.reset.rd Reg.HBM_MODE_BW = 1 := by decide

/-- The status register of island 37 (the example of chapter 0), and the entry address of tile 12, pattern 1 of island 29 (chapter 5). -/
theorem test_island_addresses : regBase + memberAddr 0 37 0x4 = 0x0030_0650_0004
    ∧ regBase + memberAddr 0 29 (0x10000 + 12 * 0x40 + 0x20) = 0x0030_05D1_0320 := by decide

/-- Where the address 0x1_2345_6A60 of the example of chapter 9 lies in HBM. -/
theorem test_hbm_mapping : State.reset.mapAddr 0x1_2345_6A60 = ⟨12, 9, 18641, 19⟩ := by decide

/-- The default entry from island 57 to M1, NI 87: E, E, N, N (the example of chapter 10). -/
theorem test_default_route : rtDirRst 57 87 = 0x009 ∧ rtHopsRst 57 87 = 4 := by decide

/-! ### States of the witnesses -/

/-- The CRC that the test marker carries. -/
def markerCrc : Nat := crc8 (((leBytes 8 (0x3C + 0xF0 * 2 ^ 16)).drop 1).take 6)

/-- Port 0 in UP with one lane in use, whose slot waits. -/
def upRow : State :=
  { ((((State.reset.wr (Reg.PRB_STAT_STATE 0) 7).wr (Reg.PRB_CTRL_WIDTH 0) 1).setB (Hid.laneIn 0) 5).wr
      (Reg.PRB_LN_STAT_LOGICAL 0 5) 0) with laneBuf := [(5, [⟨1, 0, false, false⟩])] }

/-- Island 8 bound to port 2 with a row to read. -/
def boundRow : State :=
  { ((((State.reset.wr (Reg.PRB_BIND_DELIV_EN 2) 1).wr (Reg.PRB_BIND_ISLAND 2) 8).wr (Reg.ISL_STAT_STATE 8) 3).wr
      (Reg.ISL_CLK_STAT_STATE 8) 5) with islFifo := [(2, [⟨[], 0, 0⟩])] }

/-- A staged record for the tests. -/
def testRec : Rec :=
  { ts := 5, kind := 0, payload := [1, 2], orig := 2, rows := 1, hdrErr := false, ctlErr := false, abort := false, dropped := false,
    sliced := false, trunc := false, tag := 0, flow := 0, first := 0, width := 16, seen := 0, rseq := 0, gap := 0, file := 3, order := 0, pos := 0 }

/-- File 3 armed, with one staged record. -/
def stagedRec : State := { State.reset.wr (Reg.HOP_FILE_STAT_STATE 3) 1 with hopStage := [(0, [testRec])] }

/-- File 0 with a valid configuration of one segment. -/
def armable : State :=
  ((State.reset.wr Reg.HOP_CTRL_EN 1).wr Reg.HBM_STAT_STATE 3).wr (Reg.HOP_SEG_SIZE 0) 2

/-- Channel 1 RUNNING at address 0, where an instruction with opcode `o` and operand 0 stands. -/
def runsInsn (o : Nat) : State := (State.reset.wr (Reg.RUN_CH_STAT_STATE 1) 1).wr (Reg.RUN_PROG 0) (o * 2 ^ 58)

/-- A key entry of one byte. -/
def keyOne : KeyEntry :=
  { row := 0, ts := 0, first := false, key := [7], len := 0, seq := none, lat := none, umask := 0, add := none }

/-- Marigold on, with flow 0 found by the key cache, and the entry waiting at pipeline 1. -/
def oneKey : State := 
  { ((((State.reset.wr Reg.MAR_STAT_STATE 1).wr (Hid.flowValid 0) 1).wr (Hid.keyUse 0) 1).wr (Hid.cKey 0) 7) with
    keyFifo := [(1, [keyOne])] }

/-- Island 3 in RUN with its fabric port enabled. -/
def fpReady : State := (State.reset.wr (Reg.ISL_STAT_STATE 3) 3).wr (Reg.ISL_FP_CTRL_EN 3) 1

/-- The count of island 0's window at FBDIV 40 in the tests. -/
def judgeCount : Nat :=
  let s := (State.reset.wr (Reg.ISL_CLK_CFG_FBDIV 0) 40)
  s.fDist * 40 * s.rd Reg.CLK_JUDGE_CFG_GATE / (2 ^ (s.rd (Reg.ISL_CLK_CFG_POSTDIV 0) + 1) * s.fJudge)

/-- The HBM controller in READY, under bandwidth mode 0, in a part that operates. -/
def hbmReady : State := (((State.reset.wr Reg.HBM_STAT_STATE 3).wr Reg.HBM_STAT_FILLED 1).wr Reg.HBM_MODE_BW 0).wr
  Reg.SYS_BOOT_STAT_PHASE 5

/-- Peony runs the command `k` with a buffer at 64 `b`. -/
def peoAt (b k : Nat) : State :=
  (((State.reset.wr Reg.SYS_BOOT_STAT_PHASE 5).wr Reg.PEO_STAT_BUSY 1).wr Hid.peoCode k).wr Hid.peoBuf b

/-- Owner slot 0 holds an installed key with every usage. -/
def ownerSlot (s : State) : State :=
  (((s.wr (Reg.PEO_FUSE 83) 7).wr (Reg.PEO_FUSE 19) 5).wr (Hid.ownerKeyV 0) 1).wr (Hid.ownerDig 0) 5

/-- A firmware image of 64 bytes in slot 0, its load in progress. -/
def fwImage : State :=
  let h := leBytes 4 0x57464C4D ++ leBytes 2 1 ++ leBytes 10 0 ++ leBytes 8 64 ++ leBytes 8 64 ++ leBytes 4 64
  (ownerSlot ((hbmReady.wr Reg.MIL_STAT_FW_BUSY 1).wr (Reg.DAH_FW_STAT_STATE 0) 2)).writeMem
    0x111B000040 h

/-- The host port up in an operating part, queue 63 with a ring of 16, window 1 open for one page. -/
def hostReady : State :=
  let s := ((hbmReady.wr Reg.HST_STAT_READY 1).wr Reg.HST_STAT_LINK_UP 1).wr Reg.HST_IF_STAT_AGREED 1
  ((s.wr (Reg.HST_Q_SIZE 63) 16).wr (Reg.HST_WIN_CTL_EN 1) 1).wr (Reg.HST_WIN_SIZE 1) 1

/-- The configuration controller in a load state, reading from a ganged leader. -/
def loadState (l : Nat) : State :=
  ((State.reset.wr Reg.CFG_STAT_LSTATE l).wr Reg.CFG_STAT_SRC_ACTIVE 1).wr Reg.CFG_LOAD_STAT_SOURCE 2
/-- The payload of the packet of words `ws` that comes next, if it is one of `reg`. -/
def comes (s : State) (reg : Nat) (ws : List Word) : Option (List Nat) := (s.packetAt reg id ⟨ws, false⟩).map Prod.fst
/-- The load state after that packet's words. -/
def after (s : State) (reg : Nat) (ws : List Word) : State := ((s.packetAt reg id ⟨ws, false⟩).map Prod.snd).getD s

/-- A flash header with one image at offset 0x1000. -/
def flashHeader : List Byte :=
  let h := leBytes 4 0x48464C57 ++ leBytes 4 1 ++ leBytes 8 0 ++ leBytes 4 0x1000 ++ List.replicate 12 255 ++ leBytes 28 0
  h ++ leBytes 4 (crcBytesRefl 32 0x1EDC6F41 0xFFFFFFFF h ^^^ 0xFFFFFFFF)

/-- The outcome is a next state of which `p` holds. -/
def nextIs (o : Host.Outcome State Fault Refusal) (p : State → Bool) : Bool :=
  match o with
  | .next t => p t
  | _ => false


/-- File 3 armed in an operating part, with one record whose bytes stand in the staging region of pipeline 0. -/
def storedRec : State := stagedRec.wr Reg.SYS_BOOT_STAT_PHASE 5

/-- Channel 1 about to run opcode `o` with operand `x`, its templates and source 0 in bank 0. -/
def sends (o x : Nat) : State :=
  ((((State.reset.wr (Reg.RUN_CH_STAT_STATE 1) 1).wr (Reg.RUN_PROG 0) (o * 2 ^ 58 + x)).wr Reg.RUN_TPL_BASE 0x8000000).wr
    (Reg.RUN_SRC_SIZE 0) 64).wr (Reg.RUN_SRC_BASE 0) 0x200000000

/-- Channel 1 with its port sending and frame `f` waiting. -/
def sendsFrame (f : Frame) : State :=
  let s := (((((State.reset.wr (Hid.chBase 1) 2376).wr (Hid.txRows 1) 9).wr (Reg.PRB_CTRL_WIDTH 1) 4).wr (Hid.txRun 1) 1).wr (Hid.txSrcNow 1) 1).wr (Hid.chFirst 1) 1
  { s with runQueue := [(1, [f])], tplCache := [(1, [⟨0, List.replicate 7 0, 0⟩])] }

/-- Islands 8 and 9 in RUN with their Weirs open, and the banks of island 9 towards island 8. -/
def sluicesOpen : State :=
  let s := ((State.reset.wr (Reg.ISL_STAT_STATE 8) 3).wr (Reg.ISL_WEIR_STAT_CLOSED 8) 0).wr (Reg.ISL_CLK_STAT_STATE 8) 5
  (s.wr (Reg.ISL_SLC_CTRL_EN 9 0) 15).wr (Reg.ISL_WEIR_STAT_CLOSED 9) 0

/-- Island 5 in RUN with its Millrace on, both directions turned to it. -/
def millrace : State := ((State.reset.wr (Reg.ISL_STAT_STATE 5) 3).wr (Reg.ISL_MR_CTRL_EN 5) 1).wr (Hid.mrDir 5 0) 3

/-- Packet 5 of the host with operation `op`, in phase `ph`, its head at `pos`. -/
def aPkt (op ph pos : Nat) : Pkt :=
  ⟨5, 94, 80, 3, op, 0, 0, 0, 1, 0x1000000000, 1, [if op = 0 then none else some 7], [], ph, 0, if ph = 1 then [] else [7], 0, false,
    pos, 0, (0, 0)⟩

/-- The network with that packet. -/
def onePkt (op ph pos : Nat) : State := { hbmReady with packets := [aPkt op ph pos] }

/-- Rank 31 with spare rank 47 that may serve it. -/
def spared : State := (hbmReady.wr Hid.hbmSpareNow 2).wr (Reg.HBM_RANK_ROLE 47) 1

/-- Core 3 in RUN in a part whose HBM is READY. -/
def coreRuns : State := hbmReady.wr (Reg.MIL_CORE_STAT_STATE 3) 2

/-- A job of Millstone stands in ring 2 at the start of HBM. -/
def jobReady : State :=
  let s := (hbmReady.wr Reg.MST_STAT_STATE 1).setB Reg.MST_CTRL_RING_EN 2
  ((s.wr (Reg.MST_RING_SIZE 2) 1).wr (Reg.MST_RING_WR 2) 1).writeMem 0 (leBytes 32 2)

/-- The bits of a row of a Ramzel link with its CRC. -/
def wordOf (r : RlkRow) : BitVec 512 :=
  let x := r.type.val + r.seq.toNat * 2 ^ 4 + r.ack.toNat * 2 ^ 12 + r.crCh.val * 2 ^ 20 + r.crCnt.val * 2 ^ 22 + r.trig.toNat * 2 ^ 28
    + b2n r.last * 2 ^ 36 + r.payload.toNat * 2 ^ 64
  BitVec.ofNat 512 (x + rlkCrc x * 2 ^ 480)

/-- Link 1 UP with channel DATA1 bound to island 3, whose fabric is live, a row of it waiting and credits to send. -/
def linkBound : State :=
  let s := (((fpReady.wr (Reg.RLK_LINK_STAT_STATE 1) 4).wr (Reg.RLK_LINK_STAT_VER 1) 2).wr (Reg.RLK_BIND_EN1 1) 1).wr
    (Reg.RLK_BIND_ISL1 1) 3
  (((s.wr (rlkCredit 1 1) 8).wr (Reg.ISL_WEIR_STAT_CLOSED 3) 0).wr (Reg.ISL_CLK_STAT_STATE 3) 5).setRlkRows 1 1
    [⟨2, 0, 0, 0, 0, 0, false, 9⟩]

/-- Link 1 UP, the part the secondary and its peer the primary, the timebase following it. -/
def secondary : State :=
  let s := ((State.reset.wr (Reg.RLK_LINK_STAT_STATE 1) 4).wr (Reg.RLK_CTRL_TS_ROLE 1) 2).wr (Hid.rlkPeerRole 1) 1
  (s.wr Reg.TSB_CTRL_SRC 2).wr Reg.TSB_STAT_SYNC 2

/-- A descriptor of 32 bytes from host address 0x1000 to card address 0 that asks for an interrupt. -/
def testDesc : BitVec 256 := 0x10000002000000000000000000000000000001000

/-- Queue 63 ENABLED with one descriptor. -/
def queued : State := (hostReady.wr (Reg.HST_Q_STAT_STATE 63) 1).wr (Reg.HST_Q_TAIL 63) 1

/-- Only plane 7 of island 79 is valid, and scrubbing is on. -/
def scrubs : State := (State.reset.setB (Reg.ISL_CTX_VALID_VALID 79) 7).wr Reg.SCB_CTRL_EN 1

/-- Its golden copy waits to be built. -/
def builds : State := { scrubs.setB (Reg.SCB_GOLD_BUILDING 79) 7 with fifos := [(50, [639])] }

/-- CFG in STARTUP before stage 0, with island 3 starting. -/
def startup : State := (State.reset.wr Reg.CFG_STAT_LSTATE 6).wr Reg.CFG_STARTUP 0x1024

/-! ### Premises of the statements -/

/-- What clause 1 of RegisterAccessSteps asks of its state and operands is met here. -/
theorem witness_registerAccessSteps_1 :
  (let m : Master := .host
   let x : BitVec 30 := 0x0100064
   let s : State := State.reset.wr Reg.SYS_BOOT_STAT_PHASE 5
   let t : State := (s.busPath .host true 0x100064).2
   x.toNat < 0x10000000 ∧ ¬(m = .debug ∧ !s.dbgMay true (regBase + x.toNat) ∧ x.toNat / 2 ^ 20 ≠ 7)
   ∧ (s.takePeek m x.toNat).2.busPath m true x.toNat = (.ok, t) ∧ t.blockAnswers x.toNat = true) := by decide

/-- What clause 2 of RegisterAccessSteps asks of its state and operands is met here. -/
theorem witness_registerAccessSteps_2 :
  (let m : Master := .host
   let x : BitVec 30 := 0x17000A0
   let s : State := State.reset.wr Reg.SYS_BOOT_STAT_PHASE 5
   let t : State := (s.busPath .host false 0x17000A0).2
   let v : Nat := (t.regRead m false 0x17 0xA0).1
   let r : MRes := .ok
   let u : State := (t.regRead m false 0x17 0xA0).2.2
   x.toNat < 0x10000000 ∧ ¬(m = .debug ∧ !s.dbgMay false (regBase + x.toNat))
   ∧ (s.takePeek m x.toNat).2.busPath m false x.toNat = (.ok, t) ∧ t.blockAnswers x.toNat = true
   ∧ t.regRead m (s.takePeek m x.toNat).1 (x.toNat / 2 ^ 20) (x.toNat % 2 ^ 20) = (v, r, u)) := by decide

/-- What clause 3 of RegisterAccessSteps asks of its state and operands is met here. -/
theorem witness_registerAccessSteps_3 :
  (let m : Master := .host
   let x : BitVec 30 := 0x10000000
   let s : State := State.reset.wr Reg.SYS_BOOT_STAT_PHASE 5
   let t : State := (s.busPath .host true 0x10000000).2
   0x10000000 ≤ x.toNat ∧ ¬(m = .debug ∧ !s.dbgMay true (regBase + x.toNat))
   ∧ (s.takePeek m x.toNat).2.busPath m true x.toNat = (.ok, t) ∧ t.blockAnswers 0 = true) := by decide

/-- What clause 4 of RegisterAccessSteps asks of its state and operands is met here. -/
theorem witness_registerAccessSteps_4 :
  (let m : Master := .host
   let x : BitVec 30 := 0x10000000
   let s : State := State.reset.wr Reg.SYS_BOOT_STAT_PHASE 5
   let t : State := (s.busPath .host false 0x10000000).2
   0x10000000 ≤ x.toNat ∧ ¬(m = .debug ∧ !s.dbgMay false (regBase + x.toNat))
   ∧ (s.takePeek m x.toNat).2.busPath m false x.toNat = (.ok, t) ∧ t.blockAnswers 0 = true) := by decide

/-- What clause 5 of RegisterAccessSteps asks of its state and operands is met here. -/
theorem witness_registerAccessSteps_5 :
  (let m : Master := .host
   let x : BitVec 30 := 0x1F00000
   let s : State := State.reset.wr Reg.SYS_BOOT_STAT_PHASE 4
   let t : State := (s.busPath .host true 0x1F00000).2
   x.toNat < 0x10000000 ∧ ¬(m = .debug ∧ !s.dbgMay true (regBase + x.toNat) ∧ x.toNat / 2 ^ 20 ≠ 7)
   ∧ (s.takePeek m x.toNat).2.busPath m true x.toNat = (.ok, t) ∧ t.blockAnswers x.toNat = false) := by decide

/-- What clause 6 of RegisterAccessSteps asks of its state and operands is met here. -/
theorem witness_registerAccessSteps_6 :
  (let x : BitVec 30 := 0x0100008
   let s : State := State.reset.wr Reg.DBG_STAT_LEVEL 1
   s.dbgMay true (regBase + x.toNat) = false ∧ x.toNat / 2 ^ 20 ≠ 7) := by decide

/-- What clause 3 of RegisterAccessSteps asks of its state and operands is met here. -/
theorem witness_registerAccessSteps_3b :
  (let m : Master := .debug
   let x : BitVec 30 := 0x10000000
   let s : State := (State.reset.wr Reg.SYS_BOOT_STAT_PHASE 5).wr Reg.DBG_STAT_LEVEL 2
   let t : State := ((s.takePeek .debug 0x10000000).2.busPath .debug true 0x10000000).2
   0x10000000 ≤ x.toNat ∧ ¬(m = .debug ∧ !s.dbgMay true (regBase + x.toNat))
   ∧ (s.takePeek m x.toNat).2.busPath m true x.toNat = (.ok, t) ∧ t.blockAnswers 0 = true) := by decide

/-- What clause 1 of PortBringUpSteps asks of its state and operands is met here. -/
theorem witness_portBringUpSteps_1 :
  (let p : Fin 4 := 1
   let w : Word := 0
   let s : State := State.reset.wr (Reg.PRB_PLL_CFG_FBDIV 1) 160
   let s1 := s.writeReg (0x010 + p) 0x8 (setBit w.toNat 0)
   s.on (Reg.PRB_CTRL_EN p) = false ∧ s1.on (Reg.PRB_CTRL_EN p) = true ∧ s1.rateOk p = true ∧ s1.bstOn 8 p = false
   ∧ s1.bstIs 0 = false) := by decide

/-- What clause 2 of PortBringUpSteps asks of its state and operands is met here. -/
theorem witness_portBringUpSteps_2 :
  (let p : Fin 4 := 2
   let w : Word := 1
   let s : State := State.reset.wr (Reg.PRB_CTRL_EN 2) 1
   s.on (Reg.PRB_CTRL_EN p) = true ∧ (s.writeReg (0x010 + p) 0x8 (clrBit w.toNat 0)).on (Reg.PRB_CTRL_EN p) = false) := by decide

/-- What clause 4 of PortBringUpSteps asks of its state and operands is met here. -/
theorem witness_portBringUpSteps_4 :
  (let p : Fin 4 := 3
   let s : State := State.reset.wr (Reg.PRB_STAT_STATE 3) 1
   s.rd (Reg.PRB_STAT_STATE p) = 1) := by decide

/-- What clause 5 of PortBringUpSteps asks of its state and operands is met here. -/
theorem witness_portBringUpSteps_5 :
  (let p : Fin 4 := 3
   let s : State := State.reset.wr (Reg.PRB_STAT_STATE 3) 1
   s.rd (Reg.PRB_STAT_STATE p) = 1) := by decide

/-- What clause 6 of PortBringUpSteps asks of its state and operands is met here. -/
theorem witness_portBringUpSteps_6 :
  (let p : Fin 4 := 3
   let s : State := State.reset.wr (Reg.PRB_STAT_STATE 3) 2
   s.rd (Reg.PRB_STAT_STATE p) = 2) := by decide

/-- What clause 7 of PortBringUpSteps asks of its state and operands is met here. -/
theorem witness_portBringUpSteps_7 :
  (let p : Fin 4 := 3
   let s : State := State.reset.wr (Reg.PRB_STAT_STATE 3) 4
   s.rd (Reg.PRB_STAT_STATE p) = 4) := by decide

/-- What clause 8 of PortBringUpSteps asks of its state and operands is met here. -/
theorem witness_portBringUpSteps_8 :
  (let p : Fin 4 := 3
   let s : State := State.reset.wr (Reg.PRB_STAT_STATE 3) 5
   s.rd (Reg.PRB_STAT_STATE p) = 5) := by decide

/-- What clause 9 of PortBringUpSteps asks of its state and operands is met here. -/
theorem witness_portBringUpSteps_9 :
  (let p : Fin 4 := 3
   let s : State := State.reset.wr (Reg.PRB_STAT_STATE 3) 2
   s.rd (Reg.PRB_STAT_STATE p) = 2) := by decide

/-- What clause 10 of PortBringUpSteps asks of its state and operands is met here. -/
theorem witness_portBringUpSteps_10 :
  (let p : Fin 4 := 3
   let s : State := State.reset.wr (Reg.PRB_STAT_STATE 3) 3
   s.rd (Reg.PRB_STAT_STATE p) = 3) := by decide

/-- What clause 11 of PortBringUpSteps asks of its state and operands is met here. -/
theorem witness_portBringUpSteps_11 :
  (let p : Fin 4 := 0
   let s : State := State.reset.wr (Reg.PRB_CTRL_TX_SRC 0) 1
   s.rd (Hid.txSrcNow p) ≠ 1 ∧ (s.sendsMarkers p = false ∨ s.rd (Hid.txRows p) % 16384 = 0)) := by decide

/-- What clause 1 of PortReceptionSteps asks of its state and operands is met here. -/
theorem witness_portReceptionSteps_1 :
  (let p : Fin 6 := 1
   let k : Fin 16 := 3
   let hdr : Fin 4 := 2
   let s : State := State.reset.wr (Reg.PRB_STAT_STATE 1) 4
   p.val < 4 ∧ s.rxPins p = true ∧ s.laneListens p k = true ∧ (s.lostLanes p).contains k.val = false
   ∧ s.on (Reg.PRB_LN_STAT_BLOCK_LOCK p k) = false ∧ s.on (Reg.PRB_LN_STAT_POL_INV p k) = false ∧ (hdr = 1 ∨ hdr = 2)
   ∧ s.rd (Hid.okRun p k) < 63) := by decide

/-- What clause 2 of PortReceptionSteps asks of its state and operands is met here. -/
theorem witness_portReceptionSteps_2 :
  (let p : Fin 6 := 1
   let k : Fin 16 := 3
   let s : State := (State.reset.wr (Reg.PRB_STAT_STATE 1) 6).wr (Reg.PRB_LN_STAT_BLOCK_LOCK 1 3) 1
   p.val < 4 ∧ s.rd (Reg.PRB_CTRL_LOOP p) = 0 ∧ s.laneListens p k = true ∧ (s.lostLanes p).contains k.val = false
   ∧ s.on (Reg.PRB_LN_STAT_BLOCK_LOCK p k) = true) := by decide

/-- What clause 3 of PortReceptionSteps asks of its state and operands is met here. -/
theorem witness_portReceptionSteps_3 :
  (let p : Fin 6 := 1
   let k : Fin 16 := 3
   let s : State := (((((State.reset.wr (Reg.PRB_CTRL_EN 1) 1).wr (Reg.PRB_STAT_STATE 1) 6).wr (Reg.PRB_LN_STAT_BLOCK_LOCK 1 3) 1).wr (Reg.PRB_CTRL_LOOP 1) 3).wr (Reg.PRB_CTRL_TX_EN 1) 1).wr (Hid.txRun 1) 1
   p.val < 4 ∧ s.rd (Reg.PRB_CTRL_LOOP p) = 3 ∧ s.laneListens p k = true ∧ (s.lostLanes p).contains k.val = false
   ∧ s.on (Reg.PRB_LN_STAT_BLOCK_LOCK p k) = true ∧ s.txDrives p k = true) := by decide

/-- What clause 4 of PortReceptionSteps asks of its state and operands is met here. -/
theorem witness_portReceptionSteps_4 :
  (let p : Fin 6 := 1
   let k : Fin 16 := 3
   let hdr : Fin 4 := 2
   let x : DWord := BitVec.ofNat 64 (0x3C + 0xF0 * 2 ^ 16 + markerCrc * 2 ^ 56)
   let s : State := (State.reset.wr (Reg.PRB_STAT_STATE 1) 5).wr (Reg.PRB_LN_STAT_BLOCK_LOCK 1 3) 1
   p.val < 4 ∧ s.rd (Reg.PRB_CTRL_LOOP p) = 0 ∧ s.laneListens p k = true ∧ (s.lostLanes p).contains k.val = false
   ∧ s.on (Reg.PRB_LN_STAT_BLOCK_LOCK p k) = true ∧ s.on (Reg.PRB_LN_STAT_POL_INV p k) = false ∧ markerOk hdr x.toNat = true) := by decide

/-- What clause 4 of PortReceptionSteps asks of its state and operands is met here. -/
theorem witness_portReceptionSteps_4b :
  (let p : Fin 6 := 1
   let k : Fin 16 := 3
   let hdr : Fin 4 := 2
   let x : DWord := BitVec.ofNat 64 (0x3C + 0xF0 * 2 ^ 16 + markerCrc * 2 ^ 56)
   let s : State := (State.reset.wr (Reg.PRB_STAT_STATE 1) 6).wr (Reg.PRB_LN_STAT_BLOCK_LOCK 1 3) 1
   p.val < 4 ∧ s.rd (Reg.PRB_CTRL_LOOP p) = 0 ∧ s.laneListens p k = true ∧ (s.lostLanes p).contains k.val = false
   ∧ s.on (Reg.PRB_LN_STAT_BLOCK_LOCK p k) = true ∧ s.on (Reg.PRB_LN_STAT_POL_INV p k) = false ∧ markerOk hdr x.toNat = true) := by decide

/-- What clause 4 of PortReceptionSteps asks of its state and operands is met here. -/
theorem witness_portReceptionSteps_4c :
  (let p : Fin 6 := 1
   let k : Fin 16 := 3
   let hdr : Fin 4 := 2
   let x : DWord := BitVec.ofNat 64 (0x3C + 0xF0 * 2 ^ 16 + markerCrc * 2 ^ 56)
   let s : State := ((State.reset.wr (Reg.PRB_STAT_STATE 1) 7).wr (Reg.PRB_LN_STAT_BLOCK_LOCK 1 3) 1).wr (Hid.sinceMkr 1 3) 16383
   p.val < 4 ∧ s.rd (Reg.PRB_CTRL_LOOP p) = 0 ∧ s.laneListens p k = true ∧ (s.lostLanes p).contains k.val = false
   ∧ s.on (Reg.PRB_LN_STAT_BLOCK_LOCK p k) = true ∧ s.on (Reg.PRB_LN_STAT_POL_INV p k) = false ∧ markerOk hdr x.toNat = true) := by decide

/-- What clause 5 of PortReceptionSteps asks of its state and operands is met here. -/
theorem witness_portReceptionSteps_5 :
  (let p : Fin 4 := 0
   let s : State := upRow
   s.rd (Reg.PRB_STAT_STATE p) = 7 ∧ s.lostLanes p = [] ∧ s.rowLanes p ≠ []
   ∧ (∀ k ∈ s.rowLanes p, (Tab.getD s.laneBuf (16 * p + k) []).isEmpty = false)) := by decide

/-- What clause 6 of PortReceptionSteps asks of its state and operands is met here. -/
theorem witness_portReceptionSteps_6 :
  (let n : Fin 80 := 8
   let p : Nat := 2
   let r : PRow := ⟨[], 0, 0⟩
   let rest : List PRow := []
   let s : State := boundRow
   s.portOf n = some p ∧ s.rd (Reg.ISL_STAT_STATE n) = 3 ∧ s.clkRuns n = true ∧ Tab.getD s.islFifo p [] = r :: rest) := by decide

/-- What clause 7 of PortReceptionSteps asks of its state and operands is met here. -/
theorem witness_portReceptionSteps_7 :
  (let p : Fin 4 := 1
   let s : State := State.reset.wr (Reg.PRB_STAT_STATE 1) 7
   s.rd (Reg.PRB_STAT_STATE p) = 7 ∧ s.lostLanes p = []) := by decide

/-- What clause 8 of PortReceptionSteps asks of its state and operands is met here. -/
theorem witness_portReceptionSteps_8 :
  (let p : Fin 4 := 1
   let k : Nat := 3
   let s : State := ((State.reset.wr (Reg.PRB_STAT_STATE 1) 7).setB (Hid.laneIn 1) 3).wr (Hid.laneLoss 1 3) 1
   s.lostLanes p = [k]) := by decide

/-- What clause 9 of PortReceptionSteps asks of its state and operands is met here. -/
theorem witness_portReceptionSteps_9 :
  (let p : Fin 4 := 1
   let s : State := ((((State.reset.wr (Reg.PRB_STAT_STATE 1) 7).setB (Hid.laneIn 1) 3).setB (Hid.laneIn 1) 4).wr (Hid.laneLoss 1 3) 1).wr (Hid.laneLoss 1 4) 1
   2 ≤ (s.lostLanes p).length) := by decide

/-- What clause 10 of PortReceptionSteps asks of its state and operands is met here. -/
theorem witness_portReceptionSteps_10 :
  (let p : Fin 6 := 5
   let k : Fin 16 := 3
   let s : State := State.reset.wr (Reg.RLK_LINK_STAT_STATE 1) 4
   let l : Nat := 1
   p.val = l + 4 ∧ s.rlkListens l k = true) := by decide

/-- What clause 11 of PortReceptionSteps asks of its state and operands is met here. -/
theorem witness_portReceptionSteps_11 :
  (let p : Fin 6 := 4
   let k : Fin 16 := 3
   let s : State := ((State.reset.wr (Reg.RLK_LINK_STAT_STATE 0) 4).wr (Reg.RLK_LN_STAT_MARKER_LOCK 0 3) 1).wr (Hid.rlkSinceMkr 0 3) 16384
   let l : Nat := 0
   p.val = l + 4 ∧ s.rlkListens l k = true ∧ s.on (Reg.RLK_LN_STAT_MARKER_LOCK l k) = true
   ∧ s.rd (Hid.rlkSinceMkr l k) = 16384) := by decide

/-- What clause 1 of PortCommandSteps asks of its state and operands is met here. -/
theorem witness_portCommandSteps_1 :
  (let p : Fin 4 := 1
   let s : State := (State.reset.wr (Reg.PRB_CTRL_EN 1) 1).wr (Reg.PRB_STAT_STATE 1) 6
   s.on (Reg.PRB_CTRL_EN p) = true ∧ 2 ≤ s.rd (Reg.PRB_STAT_STATE p) ∧ s.rd (Reg.PRB_STAT_STATE p) < 7) := by decide

/-- What clause 2 of PortCommandSteps asks of its state and operands is met here. -/
theorem witness_portCommandSteps_2 :
  (let p : Fin 4 := 1
   let s : State := State.reset
   s.on (Reg.PRB_STAT_FMEAS_BUSY p) = false) := by decide

/-- What clause 3 of PortCommandSteps asks of its state and operands is met here. -/
theorem witness_portCommandSteps_3 :
  (let p : Fin 4 := 1
   let s : State := State.reset.wr (Reg.PRB_STAT_FMEAS_BUSY 1) 1
   s.on (Reg.PRB_STAT_FMEAS_BUSY p) = true) := by decide

/-- What clause 4 of PortCommandSteps asks of its state and operands is met here. -/
theorem witness_portCommandSteps_4 :
  (let p : Fin 4 := 3
   let c : Word := 9
   let s : State := (State.reset.wr (Reg.PRB_STAT_FMEAS_BUSY 3) 1).wr (Reg.PRB_FMEAS_MAX 3) 9
   s.on (Reg.PRB_STAT_FMEAS_BUSY p) = true ∧ s.rd (Reg.PRB_FMEAS_MIN p) ≤ c.toNat ∧ c.toNat ≤ s.rd (Reg.PRB_FMEAS_MAX p)
   ∧ s.rd (Reg.PRB_FMEAS_CTRL_CONT p) = 0) := by decide

/-- What clause 5 of PortCommandSteps asks of its state and operands is met here. -/
theorem witness_portCommandSteps_5 :
  (let p : Fin 4 := 3
   let s : State := State.reset.wr (Reg.PRB_STAT_STATE 3) 7
   s.rd (Reg.PRB_STAT_STATE p) = 7 ∧ s.rd (Reg.PRB_CTRL_LOOP p) ≠ 2) := by decide

/-- What clause 7 of PortCommandSteps asks of its state and operands is met here. -/
theorem witness_portCommandSteps_7 :
  (let p : Fin 4 := 0
   let k : Fin 16 := 1
   let s : State := (State.reset.wr (Reg.PRB_STAT_STATE 0) 7).wr (Reg.PRB_CAL_CTRL_AGE_LIMIT 0) 1
   s.rd (Reg.PRB_STAT_STATE p) ≠ 0 ∧ s.on (Reg.PRB_LN_CTRL_OFF p k) = false ∧ s.rd (Reg.PRB_CTRL_LOOP p) ≠ 2
   ∧ s.calBlocked 0 = false ∧ s.on (Hid.calDeg 0 (16 * p + k)) = false
   ∧ min (s.rd (Hid.calIvals p k) + 1) 65535 ≤ s.rd (Reg.PRB_CAL_CTRL_AGE_LIMIT p)) := by decide

/-- What clause 8 of PortCommandSteps asks of its state and operands is met here. -/
theorem witness_portCommandSteps_8 :
  (let p : Fin 4 := 0
   let k : Fin 16 := 4
   let s : State := (State.reset.wr (Hid.calPend 0 4) 1).wr (Hid.idleRun 0 4) 32
   s.on (Hid.calPend p k) = true ∧ s.on (Hid.calMode p k) = false ∧ s.rd (Hid.idleRun p k) = 32) := by decide

/-- What clause 11 of PortCommandSteps asks of its state and operands is met here. -/
theorem witness_portCommandSteps_11 :
  (let p : Fin 4 := 1
   let s : State := (State.reset.wr (Reg.PRB_CTRL_EN 1) 1).wr (Reg.PRB_STAT_STATE 1) 6
   s.on (Reg.PRB_CTRL_EN p) = true ∧ s.rd (Reg.PRB_STAT_STATE p) ≠ 7) := by decide

/-- What clause 12 of PortCommandSteps asks of its state and operands is met here. -/
theorem witness_portCommandSteps_12 :
  (let p : Fin 4 := 0
   let w : Word := 79
   let s : State := State.reset
   s.on (Reg.PRB_BIND_DELIV_EN p) = false ∧ bits w.toNat 6 0 < 80 ∧ 8 ≤ bits w.toNat 6 0 % 10
   ∧ bits w.toNat 6 0 ≠ s.rd (Reg.PRB_BIND_ISLAND p)
   ∧ (∀ q : Fin 4, q ≠ p → s.on (Reg.PRB_BIND_DELIV_EN q) = true → s.rd (Reg.PRB_BIND_ISLAND q) ≠ bits w.toNat 6 0)) := by decide

/-- What clause 1 of CaptureSteps asks of its state and operands is met here. -/
theorem witness_captureSteps_1 :
  (let n : Fin 80 := 8
   let q : Nat := 2
   let s : State := boundRow
   s.portOf n = some q ∧ s.rd (Reg.ISL_STAT_STATE n) = 3 ∧ s.on (Reg.ISL_STAT_SWITCHING n) = false) := by decide

/-- What clause 2 of CaptureSteps asks of its state and operands is met here. -/
theorem witness_captureSteps_2 :
  (let f : Fin 16 := 3
   let q : Nat := 0
   let r : Rec := testRec
   let s : State := storedRec
   let bs : List Byte := (s.bufRead 0 0 testRec.space).1
   let t : State := (s.bufRead 0 0 testRec.space).2.2
   firstRec (s.staged f) = some (q, r) ∧ ¬(r.kind = 3 ∧ r.flow = 1) ∧ s.fileTakes f = true
   ∧ s.bufRead q r.pos r.space = (bs, .ok, t) ∧ t.fileTakes f = true
   ∧ (let o := t.rd (Reg.HOP_SEG_WOFF (t.rd (Reg.HOP_FILE_STAT_CUR_SEG f))) % 65536; o = 0 ∨ r.space ≤ 65536 - o)) := by decide

/-- What clause 3 of CaptureSteps asks of its state and operands is met here. -/
theorem witness_captureSteps_3 :
  (let f : Fin 16 := 3
   let q : Nat := 0
   let a : Nat := 0x100F600000
   let r : Rec := testRec
   let s : State := storedRec
   firstRec (s.staged f) = some (q, r) ∧ ¬(r.kind = 3 ∧ r.flow = 1) ∧ s.fileTakes f = true ∧ r.holds q a = true) := by decide

/-- What clause 4 of CaptureSteps asks of its state and operands is met here. -/
theorem witness_captureSteps_4 :
  (let f : Fin 16 := 0
   let s : State := armable
   let g := s.rd (Reg.HOP_FILE_FIRST_SEG f)
   s.rd (Reg.HOP_FILE_STAT_STATE f) = 0 ∧ s.on Reg.HOP_CTRL_EN = true ∧ s.rd Reg.HBM_STAT_STATE = 3 ∧ g < 1024) := by decide

/-- What clause 4 of CaptureSteps asks of its state and operands is met here. -/
theorem witness_captureSteps_4b :
  (let f : Fin 16 := 0
   let s : State := armable.wr (Reg.HOP_SEG_SIZE 0) 0
   let g := s.rd (Reg.HOP_FILE_FIRST_SEG f)
   s.rd (Reg.HOP_FILE_STAT_STATE f) = 0 ∧ s.on Reg.HOP_CTRL_EN = true ∧ s.rd Reg.HBM_STAT_STATE = 3 ∧ g < 1024) := by decide

/-- What clause 5 of CaptureSteps asks of its state and operands is met here. -/
theorem witness_captureSteps_5 :
  (let f : Fin 16 := 3
   let s : State := storedRec
   s.rd (Reg.HOP_FILE_STAT_STATE f) = 1 ∧ s.staged f ≠ []) := by decide

/-- What clause 6 of CaptureSteps asks of its state and operands is met here. -/
theorem witness_captureSteps_6 :
  (let f : Fin 16 := 3
   let s : State := storedRec.wr (Reg.HOP_FILE_STAT_STATE 3) 2
   s.rd (Reg.HOP_FILE_STAT_STATE f) = 2 ∧ s.staged f ≠ []) := by decide

/-- What clause 7 of CaptureSteps asks of its state and operands is met here. -/
theorem witness_captureSteps_7 :
  (let f : Fin 16 := 15
   let s : State := State.reset.wr (Reg.HOP_FILE_STAT_STATE 15) 1
   s.rd (Reg.HOP_FILE_STAT_STATE f) = 1 ∧ s.staged f = [] ∧ Tab.getD s.hopTail f [] = []) := by decide

/-- What clause 8 of CaptureSteps asks of its state and operands is met here. -/
theorem witness_captureSteps_8 :
  (let f : Fin 16 := 15
   let s : State := State.reset.wr (Reg.HOP_FILE_STAT_STATE 15) 1
   s.rd (Reg.HOP_FILE_STAT_STATE f) = 1) := by decide

/-- What clause 9 of CaptureSteps asks of its state and operands is met here. -/
theorem witness_captureSteps_9 :
  (let f : Fin 16 := 15
   let s : State := State.reset.wr (Reg.HOP_FILE_STAT_STATE 15) 4
   (s.rd (Reg.HOP_FILE_STAT_STATE f) = 3 ∨ s.rd (Reg.HOP_FILE_STAT_STATE f) = 4
      ∨ s.rd (Reg.HOP_FILE_STAT_STATE f) = 5)) := by decide

/-- What clause 1 of TriggerSteps asks of its state and operands is met here. -/
theorem witness_triggerSteps_1 :
  (let x : BitVec 8 := 5
   let s : State := State.reset.wr Reg.LAN_STAT_RUN 1
   let s0 : State := State.each (List.range 8) State.pinTick (s.wr Hid.trigIn 5)
   let prev : Nat := s.rd Hid.lanPrev ||| 2 ^ 254
   let u : State := (s0.lanRun (s.rd Hid.lanPrev ||| 2 ^ 254)).1
   let now : Nat := (s0.lanRun (s.rd Hid.lanPrev ||| 2 ^ 254)).2
   s0 = State.each (List.range 8) State.pinTick (s.wr Hid.trigIn x.toNat) ∧ prev = s.rd Hid.lanPrev ||| 2 ^ 254
   ∧ (u, now) = (if s.on Reg.LAN_STAT_RUN then s0.lanRun prev else (s0, s0.srcLevels))) := by decide

/-- What clause 2 of TriggerSteps asks of its state and operands is met here. -/
theorem witness_triggerSteps_2 :
  (let s : State := ((State.reset.wr Reg.LAN_STAT_RUN 1).wr (Reg.LAN_COND_SRC_A 0 0) 254).wr (Reg.LAN_COND_OP 0 0) 0
   let prev : Nat := 2 ^ 254
   let s1 : State := State.each (List.range 8) State.tmrTick s
   let edges : List Nat := s1.ctrEdges s1.srcLevels prev
   let t : State := State.each edges (fun c t => t.inc (Reg.LAN_CTR_VAL c) 1) s1
   let now : Nat := t.srcLevels
   let a : Nat := 0
   s1 = State.each (List.range 8) State.tmrTick s ∧ edges = s1.ctrEdges s1.srcLevels prev
   ∧ t = State.each edges (fun c t => t.inc (Reg.LAN_CTR_VAL c) 1) s1 ∧ now = t.srcLevels
   ∧ [0, 1, 2, 3].find? (fun b => t.arcTrue now prev (s.rd Reg.LAN_STAT_CUR_STATE) b) = some a) := by decide

/-- What clause 3 of TriggerSteps asks of its state and operands is met here. -/
theorem witness_triggerSteps_3 :
  (let k : Fin 8 := 7
   let s : State := (State.reset.wr Reg.LAN_STAT_RUN 1).wr (Hid.tmrRun 7) 1
   s.on Reg.LAN_STAT_RUN = true ∧ s.on (Hid.tmrRun k) = true) := by decide

/-- What clause 4 of TriggerSteps asks of its state and operands is met here. -/
theorem witness_triggerSteps_4 :
  (let k : Fin 8 := 0
   let s : State := State.reset.wr (Hid.toutPulse 0) 4
   s.rd (Hid.toutPulse k) ≠ 0) := by decide

/-- What clause 5 of TriggerSteps asks of its state and operands is met here. -/
theorem witness_triggerSteps_5 :
  (let s : State := State.reset
   s.on Reg.LAN_STAT_RUN = false ∧ s.bstIs 0 = false) := by decide

/-- What clause 6 of TriggerSteps asks of its state and operands is met here. -/
theorem witness_triggerSteps_6 :
  (let s : State := State.reset.wr Reg.LAN_STAT_RUN 1
   s.on Reg.LAN_STAT_RUN = true) := by decide

/-- What clause 7 of TriggerSteps asks of its state and operands is met here. -/
theorem witness_triggerSteps_7 :
  (let s : State := State.reset.wr Reg.LAN_STAT_RUN 1
   s.on Reg.LAN_STAT_RUN = true) := by decide

/-- What clause 8 of TriggerSteps asks of its state and operands is met here. -/
theorem witness_triggerSteps_8 :
  (let s : State := State.reset.wr (Hid.toutLvl 3) 1
   s.on Reg.LAN_STAT_RUN = false) := by decide

/-- What clause 9 of TriggerSteps asks of its state and operands is met here. -/
theorem witness_triggerSteps_9 :
  (let s : State := State.reset.wr Reg.LAN_CTX_DROP 1
   s.on Reg.LAN_STAT_RUN = false) := by decide

/-- What clause 1 of ChannelSteps asks of its state and operands is met here. -/
theorem witness_channelSteps_1 :
  (let c : Fin 4 := 2
   let s : State := ((((State.reset.wr Reg.RUN_CTRL_EN 1).wr (Reg.PRB_STAT_STATE 2) 7).wr (Reg.PRB_CTRL_TX_SRC 2) 1).wr (Reg.PRB_CTRL_TX_EN 2) 1)
   s.chMayStart c = true) := by decide

/-- What clause 2 of ChannelSteps asks of its state and operands is met here. -/
theorem witness_channelSteps_2 :
  (let c : Fin 4 := 1
   let s : State := State.reset.wr (Reg.RUN_CH_STAT_STATE 1) 2
   (s.rd (Reg.RUN_CH_STAT_STATE c) = 1 ∨ s.rd (Reg.RUN_CH_STAT_STATE c) = 2)) := by decide

/-- What clause 3 of ChannelSteps asks of its state and operands is met here. -/
theorem witness_channelSteps_3 :
  (let c : Fin 4 := 1
   let s : State := State.reset.wr (Reg.RUN_CH_STAT_STATE 1) 2
   s.rd (Reg.RUN_CH_STAT_STATE c) = 2) := by decide

/-- What clause 4 of ChannelSteps asks of its state and operands is met here. -/
theorem witness_channelSteps_4 :
  (let c : Fin 4 := 1
   let s : State := State.reset.wr (Reg.RUN_CH_STAT_STATE 1) 5
   (s.rd (Reg.RUN_CH_STAT_STATE c) = 3 ∨ s.rd (Reg.RUN_CH_STAT_STATE c) = 4
      ∨ s.rd (Reg.RUN_CH_STAT_STATE c) = 5)) := by decide

/-- What clause 5 of ChannelSteps asks of its state and operands is met here. -/
theorem witness_channelSteps_5 :
  (let c : Fin 4 := 0
   let s : State := (State.reset.wr (Reg.RUN_CH_STAT_STATE 0) 1).wr (Hid.chTs 0) 1
   s.rd (Reg.RUN_CH_STAT_STATE c) = 1 ∧ s.on (Hid.chTs c) = true ∧ s.rd (Hid.chTsVal c) ≤ s.now % 2 ^ 56
   ∧ s.rd (Reg.RUN_CH_PC_PC c) < 65535) := by decide

/-- What clause 6 of ChannelSteps asks of its state and operands is met here. -/
theorem witness_channelSteps_6 :
  (let c : Fin 4 := 1
   let fr : Frame := ⟨true, 0, [], List.replicate 16 7, [], false, 1, 12⟩
   let l : List Frame := []
   let s : State := sendsFrame fr
   let w : Nat := s.rd (Reg.PRB_CTRL_WIDTH c)
   let a : Nat := (s.startsAt c).2
   Tab.getD s.runQueue c [] = fr :: l ∧ fr.raw = true ∧ fr.fabs = 0 ∧ s.on (Hid.txRun c) = true ∧ s.rd (Hid.txSrcNow c) = 1
   ∧ s.rd (Reg.PRB_CTRL_LOOP c) ≠ 3 ∧ a < s.txPos c + 66 * w ∧ (s.startsAt c).1 = a) := by decide

/-- What clause 7 of ChannelSteps asks of its state and operands is met here. -/
theorem witness_channelSteps_7 :
  (let c : Fin 4 := 1
   let fr : Frame := ⟨false, 0, List.replicate 60 7, [], List.replicate 7 0, true, 10, 12⟩
   let l : List Frame := []
   let x : Tpl := ⟨0, List.replicate 7 0, 0⟩
   let s : State := sendsFrame fr
   let a : Nat := (s.startsAt c).2
   Tab.getD s.runQueue c [] = fr :: l ∧ fr.raw = false ∧ fr.fabs = 0 ∧ s.on (Reg.PRB_BIND_DELIV_EN c) = false
   ∧ s.on (Hid.txRun c) = true ∧ s.rd (Hid.txSrcNow c) = 1 ∧ s.rd (Reg.PRB_CTRL_LOOP c) ≠ 3
   ∧ a < s.txPos c + 66 * s.rd (Reg.PRB_CTRL_WIDTH c) ∧ (s.startsAt c).1 = a
   ∧ (Tab.getD s.tplCache c []).find? (fun y => y.num == fr.tpl) = some x) := by decide

/-- What clause 1 of InstructionSteps asks of its state and operands is met here. -/
theorem witness_instructionSteps_1 :
  (let c : Fin 4 := 1
   let s : State := runsInsn 0
   s.rd (Reg.RUN_CH_PC_PC c) < 65535) := by decide

/-- What clause 1 of InstructionSteps asks of its state and operands is met here. -/
theorem witness_instructionSteps_1b :
  (let c : Fin 4 := 1
   let s : State := runsInsn 2
   s.rd (Reg.RUN_CH_PC_PC c) < 65535) := by decide

/-- What clause 1 of InstructionSteps asks of its state and operands is met here. -/
theorem witness_instructionSteps_1c :
  (let c : Fin 4 := 1
   let s : State := runsInsn 3
   s.rd (Reg.RUN_CH_PC_PC c) < 65535) := by decide

/-- What clause 1 of InstructionSteps asks of its state and operands is met here. -/
theorem witness_instructionSteps_1d :
  (let c : Fin 4 := 1
   let s : State := runsInsn 4
   s.rd (Reg.RUN_CH_PC_PC c) < 65535) := by decide

/-- What clause 1 of InstructionSteps asks of its state and operands is met here. -/
theorem witness_instructionSteps_1e :
  (let c : Fin 4 := 1
   let s : State := runsInsn 7
   s.rd (Reg.RUN_CH_PC_PC c) < 65535) := by decide

/-- What clause 1 of InstructionSteps asks of its state and operands is met here. -/
theorem witness_instructionSteps_1f :
  (let c : Fin 4 := 1
   let s : State := sends 9 0
   s.rd (Reg.RUN_CH_PC_PC c) < 65535) := by decide

/-- What clause 1 of InstructionSteps asks of its state and operands is met here. -/
theorem witness_instructionSteps_1h :
  (let c : Fin 4 := 1
   let s : State := runsInsn 11
   s.rd (Reg.RUN_CH_PC_PC c) < 65535) := by decide

/-- What clause 2 of InstructionSteps asks of its state and operands is met here. -/
theorem witness_instructionSteps_2 :
  (let c : Fin 4 := 1
   let n : Nat := 1
   let ret : Nat := 9
   let l : List (Nat × Nat) := []
   let s : State := (runsInsn 5).setLoops 1 [(3, 9)]
   s.runsOp c 5 = true ∧ s.loops c = (n + 2, ret) :: l) := by decide

/-- What clause 3 of InstructionSteps asks of its state and operands is met here. -/
theorem witness_instructionSteps_3 :
  (let c : Fin 4 := 1
   let s : State := runsInsn 6
   s.runsOp c 6 = true) := by decide

/-- What clause 4 of InstructionSteps asks of its state and operands is met here. -/
theorem witness_instructionSteps_4 :
  (let c : Fin 4 := 1
   let s : State := runsInsn 8
   s.runsOp c 8 = true) := by decide

/-- What clause 5 of InstructionSteps asks of its state and operands is met here. -/
theorem witness_instructionSteps_5 :
  (let c : Fin 4 := 1
   let s : State := sends 1 (64 * 2 ^ 28)
   let r : MRes := .ok
   let r2 : MRes := .ok
   let r3 : MRes := .ok
   let body : List Byte := List.replicate 64 0
   let img : List Byte := List.replicate 392 0
   let ds : List Byte := List.replicate 56 0
   let u : State := s
   let v : State := s
   let w : State := s
   let x : Tpl := ⟨0, List.replicate 7 0, 0⟩
   let y : State := { s with tplCache := [(1, [x])] }
   let ctl : Nat := ofLeBytes ((img.drop 384).take 2)
   let crc : Nat := (if bit ctl 9 then 2 ^ min (u.rd (Reg.RUN_CRC_CFG_WIDTH c 0)) 2 else 0)
   let l : Nat := ctl % 512 + bits (s.insn c) 41 28 + crc
   let z : State := (if bit (s.insn c) 24 then y else y.srcAdvance (bits (s.insn c) 45 42) (bits (s.insn c) 41 28))
   s.runsOp c 1 = true ∧ r ≠ .held ∧ s.srcRead (bits (s.insn c) 45 42) (bits (s.insn c) 41 28) = some (r, body, u) ∧ r2 ≠ .held
   ∧ u.runRead 0 (u.tplAddr (bits (s.insn c) 57 46)) 392 = (r2, img, v) ∧ ctl % 512 ≤ 384 ∧ 0 < l ∧ l ≤ 16384
   ∧ v.runRead 0 (v.tplAddr (bits (s.insn c) 57 46) + 448) 56 = (r3, ds, w) ∧ w.tplLoad c (bits (s.insn c) 57 46) = (some x, y)
   ∧ z.rd (Reg.RUN_CH_PC_PC c) < 65535) := by decide

/-- What clause 6 of InstructionSteps asks of its state and operands is met here. -/
theorem witness_instructionSteps_6 :
  (let c : Fin 4 := 1
   let r : MRes := .ok
   let body : List Byte := List.replicate 16 0
   let s : State := sends 12 (2 ^ 28)
   let u : State := s
   let y : State := u.srcAdvance (bits (s.insn c) 45 42) (16 * bits (s.insn c) 41 28)
   s.runsOp c 12 = true ∧ r ≠ .held ∧ s.srcRead (bits (s.insn c) 45 42) (16 * bits (s.insn c) 41 28) = some (r, body, u)
   ∧ y.rd (Reg.RUN_CH_PC_PC c) < 65535) := by decide

/-- What clause 7 of InstructionSteps asks of its state and operands is met here. -/
theorem witness_instructionSteps_7 :
  (let c : Fin 4 := 1
   let s : State := runsInsn 0x3F
   s.runsOp c 0x3F = true) := by decide

/-- What clause 8 of InstructionSteps asks of its state and operands is met here. -/
theorem witness_instructionSteps_8 :
  (let c : Fin 4 := 1
   let s : State := runsInsn 20
   s.chReady c = true ∧ 12 < s.insn c / 2 ^ 58 ∧ s.insn c / 2 ^ 58 ≠ 0x3F) := by decide

/-- What clause 1 of FlowSteps asks of its state and operands is met here. -/
theorem witness_flowSteps_1 :
  (let n : Fin 80 := 8
   let row : Nat := 2
   let p : Nat := 2
   let s : State := ((boundRow.wr Reg.MAR_STAT_STATE 1).setB Reg.MAR_CTRL_PIPE_EN 2).wr (Hid.rowNo 2) 3
   s.portOf n = some p ∧ s.rd (Reg.ISL_STAT_STATE n) = 3 ∧ s.on (Reg.ISL_STAT_SWITCHING n) = false ∧ s.on Reg.MAR_STAT_STATE = true
   ∧ s.on Hid.marStop = false ∧ s.bitOf Reg.MAR_CTRL_PIPE_EN p = true ∧ row < s.rd (Hid.rowNo p)
   ∧ s.rd (Hid.rowNo p) - 1 - row ≤ s.rd (Reg.HOP_PORT_CFG_MARK_DELAY p) ∧ s.on (Hid.keyFull p) = false) := by decide

/-- What clause 2 of FlowSteps asks of its state and operands is met here. -/
theorem witness_flowSteps_2 :
  (let p : Fin 4 := 1
   let e : KeyEntry := keyOne
   let l : List KeyEntry := []
   let s : State := oneKey
   let r : Found := .flow 0
   let u : State := (s.lookup 1 keyOne.key false).2
   Tab.getD s.keyFifo p [] = e :: l ∧ s.on Reg.MAR_STAT_STATE = true ∧ e.first = false ∧ s.lookup p e.key e.sought = (r, u)) := by decide

/-- What clause 3 of FlowSteps asks of its state and operands is met here. -/
theorem witness_flowSteps_3 :
  (let f : Fin 4096 := 5
   let s : State := ((((State.reset.wr Reg.MAR_STAT_STATE 1).wr (Hid.flowValid 5) 1).wr Reg.MAR_LIVE 1).wr Reg.MAR_AGE_TIME 1).wr Reg.TSB_NOW 4000
   s.on Reg.MAR_STAT_STATE = true ∧ s.on (Hid.flowValid f) = true ∧ s.rd Reg.MAR_AGE_TIME ≠ 0
   ∧ s.idleFrom f + 4000 * s.rd Reg.MAR_AGE_TIME ≤ s.now) := by decide

/-- What clause 4 of FlowSteps asks of its state and operands is met here. -/
theorem witness_flowSteps_4 :
  (let s : State := State.reset.wr Reg.MAR_STAT_STATE 1
   s.on Reg.MAR_STAT_STATE = true ∧ s.on Reg.MAR_CTRL_HOLD = false ∧ s.on Reg.MAR_STAT_EXPORT_BUSY = false) := by decide

/-- What clause 5 of FlowSteps asks of its state and operands is met here. -/
theorem witness_flowSteps_5 :
  (let s : State := State.reset.wr Hid.pubPend 1
   s.on Hid.pubPend = true ∧ (∀ n : Fin 273, s.on (Hid.nodeBad n) = false)) := by decide

/-- What clause 10 of FlowSteps asks of its state and operands is met here. -/
theorem witness_flowSteps_10 :
  (let s : State := State.reset.wr (Hid.bktBad 255) 1
   s.on (Hid.bktBad (255 : Fin 256)) = true
   ∧ ∀ f : Fin 4096, s.on (Hid.flowValid f) = true → (s.marRead (ctxAddr f + 64) 1).2 = (false, s)) := by
  refine ⟨by decide, fun f h => absurd h ?_⟩
  have k : (Hid.flowValid f).key ≠ (Hid.bktBad 255).key := by
    have := f.isLt
    simp only [Hid.flowValid, Hid.bktBad, cellKey]; omega
  rw [State.on, State.rd_wr_ne _ _ k]
  exact Bool.false_ne_true

/-- What clause 1 of FlowCommandSteps asks of its state and operands is met here. -/
theorem witness_flowCommandSteps_1 :
  (let s : State := State.reset.wr Reg.MAR_STAT_BUSY 0
   s.on Reg.MAR_STAT_STATE = false ∧ s.on Reg.MAR_STAT_BUSY = false ∧ s.bstIs 0 = false) := by decide

/-- What clause 2 of FlowCommandSteps asks of its state and operands is met here. -/
theorem witness_flowCommandSteps_2 :
  (let s : State := State.reset.wr Reg.MAR_STAT_STATE 1
   s.on Reg.MAR_STAT_STATE = true) := by decide

/-- What clause 3 of FlowCommandSteps asks of its state and operands is met here. -/
theorem witness_flowCommandSteps_3 :
  (let s : State := State.reset.wr Hid.marStop 1
   s.on Hid.marStop = true ∧ s.keyFifo = []) := by decide

/-- What clause 4 of FlowCommandSteps asks of its state and operands is met here. -/
theorem witness_flowCommandSteps_4 :
  (let s : State := State.reset.wr Reg.MAR_STAT_BUSY 0
   s.on Reg.MAR_STAT_STATE = false ∧ s.on Reg.MAR_STAT_BUSY = false ∧ s.on Reg.MAR_STAT_EXPORT_BUSY = false) := by decide

/-- What clause 5 of FlowCommandSteps asks of its state and operands is met here. -/
theorem witness_flowCommandSteps_5 :
  (let s : State := State.reset.wr Reg.MAR_STAT_BUSY 1
   s.on Reg.MAR_STAT_BUSY = true) := by decide

/-- What clause 6 of FlowCommandSteps asks of its state and operands is met here. -/
theorem witness_flowCommandSteps_6 :
  (let s : State := (State.reset.wr Hid.epNum 7).wr Reg.MAR_STAT_BUSY 0
   s.on Reg.MAR_STAT_BUSY = false ∧ s.on Reg.MAR_STAT_EXPORT_BUSY = false ∧ s.rd Hid.epNum ≠ 0) := by decide

/-- What clause 7 of FlowCommandSteps asks of its state and operands is met here. -/
theorem witness_flowCommandSteps_7 :
  (let s : State := ((State.reset.wr Reg.MAR_STAT_EXPORT_BUSY 1).wr Hid.expBase 0x100000000).wr (Reg.PEO_KEY_ALLOW 4) 0
   s.on Reg.MAR_STAT_EXPORT_BUSY = true ∧ s.on Hid.pubPend = false ∧ (∀ n : Fin 273, s.on (Hid.nodeBad n) = false)
   ∧ (s.memWrite (s.req .marigold (s.rd Hid.expKey)) (s.rd Hid.expBase) s.exportImage).1 = .err) := by
  refine ⟨by decide, by decide, by decide, ?_⟩
  generalize State.exportImage _ = bs
  rfl

/-- What clause 8 of FlowCommandSteps asks of its state and operands is met here. -/
theorem witness_flowCommandSteps_8 :
  (let f : Fin 4096 := 4095
   let s : State := ((State.reset.wr (Hid.flowValid 4095) 1).wr Reg.MAR_STAT_BUSY 0).wr Reg.MAR_LIVE 1
   s.on (Hid.flowValid f) = true ∧ s.on Reg.MAR_STAT_BUSY = false) := by decide

/-- What clause 1 of MatchUnitSteps asks of its state and operands is met here. -/
theorem witness_matchUnitSteps_1 :
  (let n : Fin 80 := 79
   let c : Fin 8 := 7
   let s : State := State.reset
   s.bitOf (Reg.ISL_CTX_VALID_LOADING n) c = false) := by decide

/-- What clause 2 of MatchUnitSteps asks of its state and operands is met here. -/
theorem witness_matchUnitSteps_2 :
  (let n : Fin 80 := 79
   let c : Fin 8 := 7
   let s : State := State.reset.setB (Reg.ISL_CTX_VALID_LOADING 79) 7
   s.bitOf (Reg.ISL_CTX_VALID_LOADING n) c = true) := by decide

/-- What clause 3 of MatchUnitSteps asks of its state and operands is met here. -/
theorem witness_matchUnitSteps_3 :
  (let n : Fin 80 := 79
   let c : Fin 8 := 7
   let k : Fin 64 := 63
   let p : Fin 2 := 1
   let s : State := State.reset
   s.rd (Hid.muSyn n c k p) = 0) := by decide

/-- What clause 4 of MatchUnitSteps asks of its state and operands is met here. -/
theorem witness_matchUnitSteps_4 :
  (let n : Fin 80 := 79
   let e : EdgeIn := ⟨0, 0, 0, []⟩
   let s : State := (State.reset.wr (Reg.ISL_STAT_STATE 79) 3).wr (Reg.ISL_CLK_STAT_STATE 79) 5
   let c : Nat := s.rd (Reg.ISL_STAT_CUR_CTX n)
   e.upsets = [] ∧ s.clocked n = true ∧ (∀ (k : Fin 64) (p : Fin 2), s.rd (Hid.muSyn n c k p) = 0)) := by decide

/-- What clause 5 of MatchUnitSteps asks of its state and operands is met here. -/
theorem witness_matchUnitSteps_5 :
  (let n : Fin 80 := 79
   let e : EdgeIn := ⟨0, 0, 0, []⟩
   let s : State := State.reset
   e.upsets = [] ∧ s.clocked n = false ∧ hasIo n = false) := by decide

/-- What clause 6 of MatchUnitSteps asks of its state and operands is met here. -/
theorem witness_matchUnitSteps_6 :
  (let n : Fin 80 := 70
   let e : EdgeIn := ⟨5, 0, 0, []⟩
   let s : State := State.reset
   e.upsets = [] ∧ s.clocked n = false ∧ hasIo n = true) := by decide

/-- What clause 1 of FabricPortSteps asks of its state and operands is met here. -/
theorem witness_fabricPortSteps_1 :
  (let n : Fin 80 := 3
   let tid : Fin 64 := 0
   let s : State := fpReady
   s.on (Reg.ISL_FP_CTRL_EN n) = true ∧ s.rd (Reg.ISL_STAT_STATE n) = 3 ∧ s.fpTidBusy n false tid = false) := by decide

/-- What clause 1 of FabricPortSteps asks of its state and operands is met here. -/
theorem witness_fabricPortSteps_1b :
  (let n : Fin 80 := 3
   let tid : Fin 64 := 0
   let s : State := fpReady
   s.on (Reg.ISL_FP_CTRL_EN n) = true ∧ s.rd (Reg.ISL_STAT_STATE n) = 3 ∧ s.fpTidBusy n false tid = false) := by decide

/-- What clause 2 of FabricPortSteps asks of its state and operands is met here. -/
theorem witness_fabricPortSteps_2 :
  (let n : Fin 80 := 3
   let tid : Fin 64 := 0
   let s : State := fpReady
   s.on (Reg.ISL_FP_CTRL_EN n) = true ∧ s.rd (Reg.ISL_STAT_STATE n) = 3 ∧ s.fpTidBusy n true tid = false) := by decide

/-- What clause 3 of FabricPortSteps asks of its state and operands is met here. -/
theorem witness_fabricPortSteps_3 :
  (let n : Fin 80 := 3
   let r : FpResp := ⟨1, false, [], 0⟩
   let l : List FpResp := []
   let s : State := { fpReady with fpResps := [(3, [⟨1, false, [], 0⟩])] }
   Tab.getD s.fpResps n [] = r :: l ∧ s.rd (Reg.ISL_STAT_STATE n) ≠ 4) := by decide

/-- What clause 4 of FabricPortSteps asks of its state and operands is met here. -/
theorem witness_fabricPortSteps_4 :
  (let n : Fin 80 := 3
   let s : State := fpReady
   s.on (Reg.NOC_NI_STAT_FENCED n) = false ∧ s.on (Reg.ISL_FP_CTRL_EN n) = true ∧ s.rd (Reg.ISL_STAT_STATE n) = 3
   ∧ s.bitOf (Hid.slaveCtx n) (s.rd (Reg.ISL_STAT_CUR_CTX n)) = true ∧ (Tab.getD s.slvReqs n []) = []
   ∧ s.bitOf (Hid.slvLate n) 0 = false) := by decide

/-- What clause 6 of FabricPortSteps asks of its state and operands is met here. -/
theorem witness_fabricPortSteps_6 :
  (let n : Fin 80 := 3
   let tag : Byte := 255
   let r : SlvReq := ⟨255, true, 8, none⟩
   let s : State := { fpReady with slvReqs := [(3, [⟨255, true, 8, none⟩])] }
   (Tab.getD s.slvReqs n []).find? (fun x => x.tag == tag.toNat) = some r) := by decide

/-- What clause 1 of SwitchSteps asks of its state and operands is met here. -/
theorem witness_switchSteps_1 :
  (let n : Fin 80 := 4
   let c : Fin 8 := 2
   let s : State := (State.reset.wr (Reg.ISL_STAT_STATE 4) 3).setB (Reg.ISL_CTX_VALID_VALID 4) 2
   s.on Hid.swBusy = false ∧ s.swEligible c n = true) := by decide

/-- What clause 2 of SwitchSteps asks of its state and operands is met here. -/
theorem witness_switchSteps_2 :
  (let s : State := (State.reset.wr Hid.swBusy 1).wr Hid.swNext 1
   s.on Hid.swBusy = true
   ∧ (setBits 80 (s.rd Hid.swLeft)).filter (fun n => s.rd (Hid.swWave n) == s.rd Hid.swNext && !s.on (Reg.ISL_STAT_SWITCHING n)) = []) := by decide

/-- What clause 3 of SwitchSteps asks of its state and operands is met here. -/
theorem witness_switchSteps_3 :
  (let n : Fin 80 := 79
   let s : State := (State.reset.wr Hid.swBusy 1).setB Hid.swLeft 79
   s.on Hid.swBusy = true
   ∧ (setBits 80 (s.rd Hid.swLeft)).filter (fun m => s.rd (Hid.swWave m) == s.rd Hid.swNext && !s.on (Reg.ISL_STAT_SWITCHING m)) = [n.val]) := by decide

/-- What clause 4 of SwitchSteps asks of its state and operands is met here. -/
theorem witness_switchSteps_4 :
  (let n : Fin 80 := 79
   let e : EdgeIn := ⟨0, 0, 0, []⟩
   let s : State := State.reset.wr (Reg.ISL_STAT_SWITCHING 79) 1
   s.on (Reg.ISL_STAT_SWITCHING n) = true ∧ e.upsets = []) := by decide

/-- What clause 1 of ReferenceSteps asks of its state and operands is met here. -/
theorem witness_referenceSteps_1 :
  (let a : BitVec 16 := 200
   let s : State := State.reset
   s.rd Reg.CLK_REF_CFG_SEL = 0 ∧ present (some a.toInt) = true) := by decide

/-- What clause 2 of ReferenceSteps asks of its state and operands is met here. -/
theorem witness_referenceSteps_2 :
  (let c : Fin 6 := 5
   let s : State := State.reset.setB Reg.CLK_CLS_STAT_LOCK 5
   s.bitOf Reg.CLK_CLS_STAT_LOCK c = true ∧ s.bitOf Reg.CLK_CLS_STAT_FALLBACK c = false) := by decide

/-- What clause 3 of ReferenceSteps asks of its state and operands is met here. -/
theorem witness_referenceSteps_3 :
  (let c : Fin 6 := 5
   let s : State := State.reset.setB Reg.CLK_CLS_STAT_LOCK 5
   s.bitOf Reg.CLK_CLS_STAT_LOCK c = true ∧ s.bitOf Reg.CLK_CLS_STAT_FALLBACK c = false ∧ s.on Reg.CLK_STAT_HOLDOVER = false) := by decide

/-- What clause 4 of ReferenceSteps asks of its state and operands is met here. -/
theorem witness_referenceSteps_4 :
  (let w : Word := 6
   bit w.toNat 1 = bit w.toNat 2) := by decide

/-- What clause 5 of ReferenceSteps asks of its state and operands is met here. -/
theorem witness_referenceSteps_5 :
  (let w : Word := 10
   let s : State := State.reset
   bit w.toNat 3 = true ∧ bit w.toNat 1 ≠ bit w.toNat 2 ∧ b2n (bit w.toNat 0) = s.rd Reg.CLK_REF_CFG_SEL) := by decide

/-- What clause 1 of IslandClockSteps asks of its state and operands is met here. -/
theorem witness_islandClockSteps_1 :
  (let n : Fin 80 := 79
   let w : Word := 2
   let s : State := State.reset.wr (Reg.ISL_CLK_CFG_FBDIV 79) 30
   bits w.toNat 1 0 ≠ 3 ∧ s.clkOk n = true) := by decide

/-- What clause 2 of IslandClockSteps asks of its state and operands is met here. -/
theorem witness_islandClockSteps_2 :
  (let n : Fin 80 := 79
   let w : Word := 2
   let s : State := State.reset.wr (Reg.ISL_CLK_CFG_FBDIV 79) 30
   (bits w.toNat 1 0 = 1 ∨ bits w.toNat 1 0 = 2) ∧ s.clkOk n = true ∧ s.astStop = false ∧ s.rd (Reg.ISL_CLK_STAT_STATE n) = 0
   ∧ s.rd (Reg.ISL_PWR_STAT_PSTATE n) = 0) := by decide

/-- What clause 3 of IslandClockSteps asks of its state and operands is met here. -/
theorem witness_islandClockSteps_3 :
  (let n : Fin 80 := 7
   let s : State := State.reset.wr (Reg.ISL_CLK_STAT_STATE 7) 8
   (s.rd (Reg.ISL_CLK_STAT_STATE n) = 8 ∨ (s.rd (Reg.ISL_CLK_STAT_STATE n) = 0 ∧ s.rd (Reg.ISL_CLK_CTRL_REQ n) = 0))) := by decide

/-- What clause 4 of IslandClockSteps asks of its state and operands is met here. -/
theorem witness_islandClockSteps_4 :
  (let n : Fin 80 := 7
   let s : State := State.reset.wr (Reg.ISL_CLK_STAT_STATE 7) 1
   s.rd (Reg.ISL_CLK_STAT_STATE n) = 1) := by decide

/-- What clause 5 of IslandClockSteps asks of its state and operands is met here. -/
theorem witness_islandClockSteps_5 :
  (let n : Fin 80 := 0
   let x : Word := BitVec.ofNat 32 judgeCount
   let s : State := (((State.reset.wr (Reg.ISL_CLK_CFG_FBDIV 0) 40).wr (Reg.ISL_CLK_STAT_STATE 0) 2).wr Reg.CLK_JUDGE_CFG_PASSES 1).wr (Reg.ISL_CLK_CTRL_REQ 0) 1
   s.rd (Reg.ISL_CLK_STAT_STATE n) = 2 ∧ s.on Reg.CLK_STAT_HOLDOVER = false ∧ s.windowPasses n x.toNat = true
   ∧ s.rd Reg.CLK_JUDGE_CFG_PASSES ≤ s.rd (Hid.clkPass n) + 1 ∧ s.rd (Reg.ISL_CLK_CTRL_REQ n) ≠ 0
   ∧ s.on (Hid.clkPairV n) = false) := by decide

/-- What clause 6 of IslandClockSteps asks of its state and operands is met here. -/
theorem witness_islandClockSteps_6 :
  (let n : Fin 80 := 1
   let s : State := (State.reset.wr (Reg.ISL_CLK_STAT_STATE 1) 3).wr (Reg.ISL_CLK_CTRL_REQ 1) 2
   (List.range n.val).any (fun m => s.rampWaits m != .none) = false ∧ s.rampWaits n = .clkUp
   ∧ s.rd Hid.slewUsed + s.rampCost n ≤ 2400 ∧ s.rd (Reg.ISL_PWR_STAT_PSTATE n) = 0) := by decide

/-- What clause 7 of IslandClockSteps asks of its state and operands is met here. -/
theorem witness_islandClockSteps_7 :
  (let n : Fin 80 := 7
   let s : State := State.reset.wr (Reg.ISL_CLK_STAT_STATE 7) 4
   s.rd (Reg.ISL_CLK_STAT_STATE n) = 4 ∧ s.on (Hid.pwrUp n) = false) := by decide

/-- What clause 8 of IslandClockSteps asks of its state and operands is met here. -/
theorem witness_islandClockSteps_8 :
  (let n : Fin 80 := 1
   let s : State := (State.reset.wr (Reg.ISL_CLK_STAT_STATE 1) 6).wr (Reg.ISL_CLK_CTRL_REQ 1) 1
   s.rd (Reg.ISL_CLK_STAT_STATE n) = 6 ∧ s.rd (Reg.ISL_PWR_STAT_PSTATE n) ≠ 1 ∧ s.on (Hid.clkFb n) = false
   ∧ s.rd (Reg.ISL_CLK_CTRL_REQ n) ≠ 0 ∧ s.on (Hid.clkPairV n) = false) := by decide

/-- What clause 9 of IslandClockSteps asks of its state and operands is met here. -/
theorem witness_islandClockSteps_9 :
  (let n : Fin 80 := 1
   let s : State := (State.reset.wr (Reg.ISL_CLK_STAT_STATE 1) 5).wr (Reg.ISL_CLK_CTRL_REQ 1) 2
   s.rd (Reg.ISL_CLK_STAT_STATE n) = 5 ∧ s.rd (Reg.ISL_CLK_CTRL_REQ n) ≠ 0) := by decide

/-- What clause 1 of IslandPowerSteps asks of its state and operands is met here. -/
theorem witness_islandPowerSteps_1 :
  (let n : Fin 80 := 79
   let s : State := State.reset
   s.rd (Reg.ISL_PWR_CTRL_REQ n) = 0 ∧ s.pwrOffOk n = true ∧ s.rd (Reg.ISL_PWR_STAT_PSTATE n) = 0) := by decide

/-- What clause 2 of IslandPowerSteps asks of its state and operands is met here. -/
theorem witness_islandPowerSteps_2 :
  (let n : Fin 80 := 0
   let s : State := State.reset.wr (Reg.ISL_PWR_CTRL_REQ 0) 1
   s.rd (Reg.ISL_PWR_CTRL_REQ n) = 1) := by decide

/-- What clause 3 of IslandPowerSteps asks of its state and operands is met here. -/
theorem witness_islandPowerSteps_3 :
  (let n : Fin 80 := 1
   let s : State := State.reset.wr (Reg.ISL_PWR_STAT_PSTATE 1) 2
   s.rd (Reg.ISL_PWR_STAT_PSTATE n) = 2) := by decide

/-- What clause 4 of IslandPowerSteps asks of its state and operands is met here. -/
theorem witness_islandPowerSteps_4 :
  (let n : Fin 80 := 1
   let s : State := State.reset.wr (Reg.ISL_PWR_STAT_PSTATE 1) 4
   s.rd (Reg.ISL_PWR_STAT_PSTATE n) = 4) := by decide

/-- What clause 5 of IslandPowerSteps asks of its state and operands is met here. -/
theorem witness_islandPowerSteps_5 :
  (let n : Fin 80 := 9
   let m : Fin 80 := 8
   let e : Fin 4 := 0
   let b : Fin 4 := 3
   let s : State := sluicesOpen
   across n e = some m.val ∧ s.fabricLive m = true ∧ s.slcOpen n e b = true ∧ s.on (Reg.ISL_WEIR_STAT_CLOSED n) = false
   ∧ (Tab.getD s.sluices (slcAt n e b) []).length < 16) := by decide

/-- What clause 6 of IslandPowerSteps asks of its state and operands is met here. -/
theorem witness_islandPowerSteps_6 :
  (let n : Fin 80 := 8
   let e : Fin 4 := 1
   let b : Fin 4 := 0
   let w : Nat := 5
   let r : List Nat := []
   let s : State := { sluicesOpen with sluices := [(slcAt 8 1 0, [5])] }
   Tab.getD s.sluices (slcAt n e b) [] = w :: r ∧ s.fabricLive n = true) := by decide

/-- What clause 7 of IslandPowerSteps asks of its state and operands is met here. -/
theorem witness_islandPowerSteps_7 :
  (let n : Fin 80 := 9
   let e : Fin 4 := 0
   let w : Word := 0xF00
   let s : State := State.reset.wr (Reg.ISL_SLC_CTRL_EN 9 0) 0
   (across n e).isSome = true ∧ bits w.toNat 11 8 &&& (s.rd (Reg.ISL_SLC_CTRL_EN n e) &&& bits w.toNat 3 0) = 0) := by decide

/-- What clause 8 of IslandPowerSteps asks of its state and operands is met here. -/
theorem witness_islandPowerSteps_8 :
  (let n : Fin 80 := 9
   let e : Fin 4 := 0
   let b : Fin 4 := 3
   let s : State := State.reset.setB (Reg.ISL_SLC_CTRL_FLUSH 9 0) 3
   s.bitOf (Reg.ISL_SLC_CTRL_FLUSH n e) b = true) := by decide

/-- What clause 2 of VerticalSteps asks of its state and operands is met here. -/
theorem witness_verticalSteps_2 :
  (let b : Bundle := .mr 0
   let g : Fin 128 := 8
   let s : State := State.reset
   bunGuarded b g = true ∧ s.rd (bunMode b) ≠ 2) := by decide

/-- What clause 4 of VerticalSteps asks of its state and operands is met here. -/
theorem witness_verticalSteps_4 :
  (let n : Fin 80 := 5
   let row : Fin 8192 := 6143
   let tag : Fin 16 := 15
   let errs : List SigErr := [⟨0, 3⟩]
   let s : State := millrace
   let x : State := s.wireErrors (.mr 5) [⟨0, 3⟩]
   let v : State := x
   let bs : List Byte := List.replicate 512 0
   let rue : Nat := 0
   let u : State := x
   let q : Req := x.req (.millrace n) (x.rd (Reg.ISL_MR_CTRL_KEY n))
   s.mrAccepts n tag = true ∧ s.mrRefused n row false = false ∧ x = s.wireErrors (.mr n) errs
   ∧ x.on (Reg.ISL_STAT_MR_FENCE n) = false ∧ x.guard q false (rowAddr n row) 512 = none
   ∧ x.memGate q (rowAddr n row) 512 = (.ok, v) ∧ v.readRowWords q (rowAddr n row) = (bs, rue, u)) := by decide

/-- What clause 5 of VerticalSteps asks of its state and operands is met here. -/
theorem witness_verticalSteps_5 :
  (let n : Fin 80 := 5
   let row : Fin 8192 := 0
   let tag : Fin 16 := 15
   let errs : List SigErr := [⟨0, 3⟩]
   let s : State := millrace
   let x : State := s.wireErrors (.mr 5) [⟨0, 3⟩]
   let v : State := x
   let q : Req := x.req (.millrace n) (x.rd (Reg.ISL_MR_CTRL_KEY n))
   s.mrAccepts n tag = true ∧ s.mrRefused n row true = false ∧ x = s.wireErrors (.mr n) errs
   ∧ x.on (Reg.ISL_STAT_MR_FENCE n) = false ∧ x.guard q true (rowAddr n row) 512 = none
   ∧ x.memGate q (rowAddr n row) 512 = (.ok, v)) := by decide

/-- What clause 6 of VerticalSteps asks of its state and operands is met here. -/
theorem witness_verticalSteps_6 :
  (let n : Fin 80 := 5
   let tag : Fin 16 := 15
   let errs : List SigErr := []
   let s : State := millrace
   let x : State := s
   s.mrAccepts n tag = true ∧ x = s.wireErrors (.mr n) errs) := by decide

/-- What clause 6 of VerticalSteps asks of its state and operands is met here. -/
theorem witness_verticalSteps_6a :
  millrace.mrAccepts 5 15 = true ∧ millrace.mrRefused 5 6144 true = true := by decide

/-- What clause 6 of VerticalSteps asks of its state and operands is met here. -/
theorem witness_verticalSteps_6b :
  (let s : State := { (([0, 1, 2, 3] : List Nat).foldl (fun t c => t.wr (Reg.DBG_CORE_STAT_HALTED c) 1) (millrace.wr (bunMode (.mr 5)) 1)).wr Hid.jnlV 1 with wires := (List.range 34).map (fun k => ⟨bunCode (.mr 5), 0, k⟩) }; s.mrAccepts 5 15 = true ∧ s.mrRefused 5 0 true = false ∧ (s.wireErrors (.mr 5) (List.replicate 4 ⟨0, 0⟩)).on (Reg.ISL_STAT_MR_FENCE 5) = true) := by decide

/-- What clause 7 of VerticalSteps asks of its state and operands is met here. -/
theorem witness_verticalSteps_7 :
  (let n : Fin 80 := 5
   let r : MrResp := ⟨1, [], 0, 0⟩
   let l : List MrResp := []
   let s : State := { State.reset with mrQueue := [(5, [⟨1, [], 0, 0⟩])] }
   Tab.getD s.mrQueue n [] = r :: l ∧ s.rd (Reg.ISL_STAT_STATE n) ≠ 4) := by decide

/-- What clause 1 of SramAccessSteps asks of its state and operands is met here. -/
theorem witness_sramAccessSteps_1 :
  (let w : Requester := .host
   let key : Fin 16 := 0
   let a : Nat := 0x1000000000
   let n : Nat := 8
   let errs : List (Fin 4 × SigErr) := [(1, ⟨0, 3⟩)]
   let bs : List Byte := List.replicate 8 0
   let s : State := State.reset
   let u : State := s.hubErrors [(1, ⟨0, 3⟩)]
   let t : State := u
   isSram a = true ∧ u = s.hubErrors errs ∧ u.memRead (u.req w key) a n = (bs, .ok, t)) := by decide

/-- What clause 2 of SramAccessSteps asks of its state and operands is met here. -/
theorem witness_sramAccessSteps_2 :
  (let w : Requester := .host
   let key : Fin 16 := 0
   let a : Nat := 0x200000000
   let data : List DWord := [5]
   let errs : List (Fin 4 × SigErr) := [(1, ⟨0, 3⟩)]
   let s : State := State.reset
   let u : State := s.hubErrors [(1, ⟨0, 3⟩)]
   let t : State := (u.memWrite (u.req .host 0) 0x1000000000 (leBytes 8 5)).2
   isSram (8 * a) = true ∧ u = s.hubErrors errs
   ∧ u.memWrite (u.req w key) (8 * a) (data.flatMap (fun d => leBytes 8 d.toNat)) = (.ok, t)) := by decide

/-- What clause 3 of SramAccessSteps asks of its state and operands is met here. -/
theorem witness_sramAccessSteps_3 :
  (let w : Requester := .host
   let key : Fin 16 := 0
   let a : Nat := 0x1000000003
   let data : List Byte := leBytes 2 5
   let errs : List (Fin 4 × SigErr) := [(1, ⟨0, 3⟩)]
   let s : State := State.reset
   let u : State := s.hubErrors [(1, ⟨0, 3⟩)]
   let t : State := (u.memWrite (u.req .host 0) 0x1000000003 (leBytes 2 5)).2
   isSram a = true ∧ u = s.hubErrors errs ∧ u.memWrite (u.req w key) a data = (.ok, t)) := by decide

/-- What clause 4 of SramAccessSteps asks of its state and operands is met here. -/
theorem witness_sramAccessSteps_4 :
  (let a : Nat := 0x200000000
   let b : Nat := 3
   let s : State := { State.reset with wback := [0x200000000], info := [(0x200000000, ⟨0, 0, codeOf 8 8, 0⟩)] }
   let t : State := (s.bankTake 0 1 true).getD s
   isSram (8 * a) = true ∧ s.wback.contains a = true ∧ s.bankTake (srmUnit (8 * a)) 1 true = some t
   ∧ t.wordVerdict (8 * a) = .fix (some b)) := by decide

/-- What clause 6 of SramAccessSteps asks of its state and operands is met here. -/
theorem witness_sramAccessSteps_6 :
  (let s : State := (State.reset.wr Reg.SRM_TEST_ADDR 0x1000000008).wr Reg.SRM_CTRL_TEST_EN 1
   let t : State := (s.bankTake 0 1 false).getD s
   let a : Nat := s.rd Reg.SRM_TEST_ADDR
   s.rawLegal = true ∧ s.bankTake (srmUnit a) 1 false = some t) := by decide

/-- What clause 7 of SramAccessSteps asks of its state and operands is met here. -/
theorem witness_sramAccessSteps_7 :
  (let u : Nat := 83
   let n : Nat := 224
   let s : State := State.reset
   s.now / 400000 = s.rd (Hid.bgPer (2 + u)) ∧ s.rd (Hid.bgUsed (2 + u)) = 0 ∧ n < 2 ^ (Hid.bgUsed (2 + u)).w ∧ s.wback = []) := by decide

/-- What clause 8 of SramAccessSteps asks of its state and operands is met here. -/
theorem witness_sramAccessSteps_8 :
  (let s : State := State.reset
   s.rawLegal = false) := by decide

/-- What clause 3 of SramUpkeepSteps asks of its state and operands is met here. -/
theorem witness_sramUpkeepSteps_3 :
  (let b : Fin 81 := 79
   let r : Fin 4096 := 383
   let s : State := State.reset.wr (Reg.SRM_BANK_CTRL_TT_EN 79) 1
   b.val < 80 ∧ r.val < 384 ∧ s.on (Reg.SRM_BANK_CTRL_TT_EN b) = true ∧ s.rd (Reg.SRM_BANK_PSTAT_PSTATE b) = 0) := by decide

/-- What clause 4 of SramUpkeepSteps asks of its state and operands is met here. -/
theorem witness_sramUpkeepSteps_4 :
  (let u : Fin 84 := 79
   let s : State := State.reset.wr (Reg.SRM_BANK_CTRL_TT_EN 79) 1
   let v : State := (s.bankTake 79 224 false).getD s
   s.ttDue u = true ∧ s.bankTake u 224 false = some v ∧ s.info = []) := by decide

/-- What clause 5 of SramUpkeepSteps asks of its state and operands is met here. -/
theorem witness_sramUpkeepSteps_5 :
  (let u : Fin 80 := 0
   let s : State := ((State.reset.wr (Hid.ttActive 0) 1).wr (Hid.ttCur 0) 383).wr (Hid.ttNext 0) 383
   s.on (Hid.ttActive u) = true ∧ s.on (Hid.ttNamed u) = false) := by decide

/-- What clause 6 of SramUpkeepSteps asks of its state and operands is met here. -/
theorem witness_sramUpkeepSteps_6 :
  (let u : Fin 80 := 0
   let s : State := (State.reset.wr (Hid.ttActive 0) 1).wr (Hid.ttNamed 0) 1
   s.on (Hid.ttActive u) = true ∧ s.on (Hid.ttNamed u) = true ∧ s.rd (Hid.ttCur u) < 383) := by decide

/-- What clause 7 of SramUpkeepSteps asks of its state and operands is met here. -/
theorem witness_sramUpkeepSteps_7 :
  (let b : Fin 81 := 79
   let s : State := State.reset
   b.val < 80 ∧ s.bstOn 4 b = false ∧ s.rd (Reg.SRM_BANK_PSTAT_PSTATE b) = 0) := by decide

/-- What clause 8 of SramUpkeepSteps asks of its state and operands is met here. -/
theorem witness_sramUpkeepSteps_8 :
  (let b : Fin 80 := 5
   let s : State := State.reset.wr (Reg.SRM_BANK_PSTAT_PSTATE 5) 1
   s.rd (Reg.SRM_BANK_PSTAT_PSTATE b) = 1 ∧ s.on (Hid.ttActive b) = false ∧ s.wback = []) := by decide

/-- What clause 9 of SramUpkeepSteps asks of its state and operands is met here. -/
theorem witness_sramUpkeepSteps_9 :
  (let b : Fin 80 := 5
   let s : State := State.reset.wr (Reg.SRM_BANK_PSTAT_PSTATE 5) 2
   s.rd (Reg.SRM_BANK_PSTAT_PSTATE b) = 2) := by decide

/-- What clause 10 of SramUpkeepSteps asks of its state and operands is met here. -/
theorem witness_sramUpkeepSteps_10 :
  (let b : Fin 80 := 5
   let s : State := State.reset.wr (Reg.SRM_BANK_PSTAT_PSTATE 5) 3
   s.rd (Reg.SRM_BANK_PSTAT_PSTATE b) = 3) := by decide

/-- What clause 11 of SramUpkeepSteps asks of its state and operands is met here. -/
theorem witness_sramUpkeepSteps_11 :
  (let b : Fin 80 := 5
   let s : State := (State.reset.wr (Reg.SRM_BANK_PSTAT_PSTATE 5) 2).wr (Reg.SRM_BANK_CTRL_AUTO_WAKE 5) 1
   s.rd (Reg.SRM_BANK_PSTAT_PSTATE b) = 2 ∧ s.on (Reg.SRM_BANK_CTRL_AUTO_WAKE b) = true) := by decide

/-- What clause 13 of SramUpkeepSteps asks of its state and operands is met here. -/
theorem witness_sramUpkeepSteps_13 :
  (let s : State := State.reset.wr Reg.SRM_STAT_WIPING 1
   s.on Reg.SRM_STAT_WIPING = true) := by decide

/-- What clause 1 of HbmAccessSteps asks of its state and operands is met here. -/
theorem witness_hbmAccessSteps_1 :
  (let w : Requester := .host
   let key : Fin 16 := 0
   let a : Nat := 0x40
   let n : Nat := 32
   let errs : List SigErr := [⟨0, 3⟩]
   let s : State := hbmReady
   let u : State := s.wireErrors .col [⟨0, 3⟩]
   let bs : List Byte := (u.memRead (u.req .host 0) 0x40 32).1
   let t : State := (u.memRead (u.req .host 0) 0x40 32).2.2
   s.isHbm a = true ∧ u = s.wireErrors .col errs ∧ (u.memRead (u.req w key) a n).2.1 = .ok) := by decide

/-- What clause 2 of HbmAccessSteps asks of its state and operands is met here. -/
theorem witness_hbmAccessSteps_2 :
  (let w : Requester := .host
   let key : Fin 16 := 0
   let a : Nat := 2
   let data : List (BitVec 256) := [5]
   let errs : List SigErr := [⟨0, 3⟩]
   let s : State := hbmReady
   let u : State := s.wireErrors .col [⟨0, 3⟩]
   let t : State := (u.memWrite (u.req .host 0) 0x40 (leBytes 32 5)).2
   s.isHbm (32 * a) = true ∧ u = s.wireErrors .col errs
   ∧ (u.memWrite (u.req w key) (32 * a) (data.flatMap (fun d => leBytes 32 d.toNat))).1 = .ok) := by decide

/-- What clause 3 of HbmAccessSteps asks of its state and operands is met here. -/
theorem witness_hbmAccessSteps_3 :
  (let w : Requester := .host
   let key : Fin 16 := 0
   let a : Nat := 0x43
   let data : List Byte := leBytes 2 5
   let errs : List SigErr := [⟨0, 3⟩]
   let s : State := hbmReady
   let u : State := s.wireErrors .col [⟨0, 3⟩]
   let t : State := (u.memWrite (u.req .host 0) 0x43 (leBytes 2 5)).2
   s.isHbm a = true ∧ u = s.wireErrors .col errs ∧ (u.memWrite (u.req w key) a data).1 = .ok) := by decide

/-- What clause 4 of HbmAccessSteps asks of its state and operands is met here. -/
theorem witness_hbmAccessSteps_4 :
  (let a : Nat := 2
   let s : State := hbmReady
   s.isHbm (32 * a) = true) := by decide

/-- What clause 5 of HbmAccessSteps asks of its state and operands is met here. -/
theorem witness_hbmAccessSteps_5 :
  (let s : State := hbmReady
   s.on Reg.HBM_STAT_MIGRATING = false ∧ s.rd Reg.HBM_MODE_BW = 0) := by decide

/-- What clause 6 of HbmAccessSteps asks of its state and operands is met here. -/
theorem witness_hbmAccessSteps_6 :
  (let s : State := hbmReady
   s.hbmLive = true ∧ s.on Reg.HBM_REF_CFG_MODE = false) := by decide

/-- What clause 8 of HbmAccessSteps asks of its state and operands is met here. -/
theorem witness_hbmAccessSteps_8 :
  (let i : Fin 16 := 15
   let x : Nat := 5
   let l : List Nat := [9]
   let s : State := { hbmReady with fifos := [(95, [5, 9])] }
   s.hbmLive = true ∧ s.nrefs i = x :: l) := by decide

/-- What clause 9 of HbmAccessSteps asks of its state and operands is met here. -/
theorem witness_hbmAccessSteps_9 :
  (let s : State := (hbmReady.wr Reg.HBM_SCRUB_CTRL_EN 1).wr Hid.hbmPct 2
   let n := s.rd Hid.hbmScrubPtr
   let i := 32 * n / 2 ^ 29 % 16
   let f := Hid.hbmBg i
   s.on Reg.HBM_SCRUB_CTRL_EN = true ∧ s.rd Reg.HBM_STAT_STATE = 3 ∧ s.on Reg.HBM_STAT_MIGRATING = false ∧ s.wbackWaits i = false
   ∧ s.rd f + 32 ≤ 288 * s.rd Hid.hbmPct) := by decide

/-- What clause 9 of HbmAccessSteps asks of its state and operands is met here. -/
theorem witness_hbmAccessSteps_9b :
  (let s : State := ((hbmReady.wr Reg.HBM_SCRUB_CTRL_EN 1).wr Hid.hbmPct 2).wr Hid.hbmScrubPtr (48 * 2 ^ 24 - 1)
   let n := s.rd Hid.hbmScrubPtr
   let i := 32 * n / 2 ^ 29 % 16
   let f := Hid.hbmBg i
   s.on Reg.HBM_SCRUB_CTRL_EN = true ∧ s.rd Reg.HBM_STAT_STATE = 3 ∧ s.on Reg.HBM_STAT_MIGRATING = false ∧ s.wbackWaits i = false
   ∧ s.rd f + 32 ≤ 288 * s.rd Hid.hbmPct) := by decide

/-- What clause 1 of HbmControlSteps asks of its state and operands is met here. -/
theorem witness_hbmControlSteps_1 :
  (let r : Fin 48 := 31
   let sp : Nat := 47
   let s : State := spared.wr (Hid.hbmMigQueue 31) 1
   s.on (Hid.hbmMigQueue r) = true ∧ s.on Reg.HBM_STAT_MIGRATING = false ∧ s.rd Reg.HBM_STAT_STATE = 3
   ∧ s.spareFor r = some sp) := by decide

/-- What clause 2 of HbmControlSteps asks of its state and operands is met here. -/
theorem witness_hbmControlSteps_2 :
  (let s : State := (hbmReady.wr Reg.HBM_STAT_MIGRATING 1).wr Hid.hbmPct 2
   let t0 : State := (s.migSpend 0 0).getD s
   let p := s.rd Reg.HBM_MIG_STAT_SRC * 2 ^ 29 + 32 * s.rd Hid.hbmMigPtr
   let i := p / 2 ^ 29 % 16
   let d := s.rd Reg.HBM_MIG_STAT_DST * 2 ^ 29 + 32 * s.rd Hid.hbmMigPtr
   let j := d / 2 ^ 29 % 16
   s.on Reg.HBM_STAT_MIGRATING = true ∧ s.rd Hid.hbmMigPtr < 2 ^ 24 ∧ s.migSpend i j = some t0) := by decide

/-- What clause 3 of HbmControlSteps asks of its state and operands is met here. -/
theorem witness_hbmControlSteps_3 :
  (let s : State := (hbmReady.wr Reg.HBM_STAT_MIGRATING 1).wr Hid.hbmMigPtr (2 ^ 24)
   s.on Reg.HBM_STAT_MIGRATING = true ∧ s.rd Hid.hbmMigPtr = 2 ^ 24) := by decide

/-- What clause 4 of HbmControlSteps asks of its state and operands is met here. -/
theorem witness_hbmControlSteps_4 :
  (let s : State := State.reset
   s.rd Reg.HBM_STAT_STATE = 0 ∧ s.bstIs 5 = false) := by decide

/-- What clause 5 of HbmControlSteps asks of its state and operands is met here. -/
theorem witness_hbmControlSteps_5 :
  (let fill : Bool := hbmReady.on Reg.HBM_CTRL_INIT_FILL
   let s : State := hbmReady
   s.on Reg.HBM_STAT_MIGRATING = false ∧ s.bstIs 6 = false ∧ b2n fill = s.rd Reg.HBM_CTRL_INIT_FILL) := by decide

/-- What clause 6 of HbmControlSteps asks of its state and operands is met here. -/
theorem witness_hbmControlSteps_6 :
  (let s : State := hbmReady.wr Reg.HBM_STAT_STATE 1
   s.rd Reg.HBM_STAT_STATE = 1) := by decide

/-- What clause 7 of HbmControlSteps asks of its state and operands is met here. -/
theorem witness_hbmControlSteps_7 :
  (let s : State := hbmReady.wr Reg.HBM_STAT_STATE 1
   s.rd Reg.HBM_STAT_STATE = 1) := by decide

/-- What clause 8 of HbmControlSteps asks of its state and operands is met here. -/
theorem witness_hbmControlSteps_8 :
  (let s : State := hbmReady.wr Reg.HBM_STAT_STATE 2
   s.rd Reg.HBM_STAT_STATE = 2) := by decide

/-- What clause 9 of HbmControlSteps asks of its state and operands is met here. -/
theorem witness_hbmControlSteps_9 :
  (let s : State := hbmReady.wr Reg.HBM_STAT_STATE 4
   s.rd Reg.HBM_STAT_STATE = 4) := by decide

/-- What clause 10 of HbmControlSteps asks of its state and operands is met here. -/
theorem witness_hbmControlSteps_10 :
  (let r : Fin 64 := 31
   let sp : Nat := 47
   let s : State := spared
   r.val < 48 ∧ s.spareFor r = some sp ∧ s.rd Reg.HBM_STAT_STATE = 3 ∧ s.on Reg.HBM_STAT_MIGRATING = false
   ∧ (s.rd (Reg.HBM_RANK_ROLE r) = 0 ∨ s.rd (Reg.HBM_RANK_ROLE r) = 2)) := by decide

/-- What clause 1 of RequestSteps asks of its state and operands is met here. -/
theorem witness_requestSteps_1 :
  (let w : Requester := .host
   let op : Fin 3 := 0
   let i : Nat := 94
   let s : State := hbmReady
   niOf w = some i ∧ (s.packets.filter (fun p => p.src == i && !late p && (p.op == 0) == (op.val == 0))).length < 64) := by decide

/-- What clause 2 of RequestSteps asks of its state and operands is met here. -/
theorem witness_requestSteps_2 :
  (let id : Nat := 5
   let waits : List Nat := [0]
   let p : Pkt := aPkt 0 1 1
   let s : State := onePkt 0 1 1
   let q : Pkt := (s.travel p (stopsLeft p) [0]).1
   let u : State := (s.travel p (stopsLeft p) [0]).2
   let t : State := u.setPkt q
   s.pkt id = some p ∧ p.phase = 1 ∧ s.presented p = false ∧ s.travel p (stopsLeft p) waits = (q, u) ∧ arrived q = true
   ∧ t.postedBefore q = false) := by decide

/-- What clause 4 of RequestSteps asks of its state and operands is met here. -/
theorem witness_requestSteps_4 :
  (let id : Nat := 5
   let p : Pkt := aPkt 0 3 0
   let s : State := onePkt 0 3 0
   s.pkt id = some p ∧ p.op ≠ 2 ∧ s.answerable p = true) := by decide

/-- What clause 4 of RequestSteps asks of its state and operands is met here. -/
theorem witness_requestSteps_4b :
  (let id : Nat := 5
   let p : Pkt := aPkt 0 2 0
   let s : State := onePkt 0 2 0
   s.pkt id = some p ∧ p.op ≠ 2 ∧ s.answerable p = true) := by decide

/-- What clause 5 of RequestSteps asks of its state and operands is met here. -/
theorem witness_requestSteps_5 :
  (let id : Nat := 5
   let waits : List Nat := [0, 0]
   let p : Pkt := aPkt 2 2 0
   let s : State := onePkt 2 2 0
   let q : Pkt := (s.move p [0, 0]).1
   let u : State := (s.move p [0, 0]).2
   s.pkt id = some p ∧ p.op = 2 ∧ p.phase = 2 ∧ s.move p waits = (q, u) ∧ arrived q = true) := by decide

/-- What clause 6 of RequestSteps asks of its state and operands is met here. -/
theorem witness_requestSteps_6 :
  (let i : Fin 97 := 0
   let e : Fin 256 := 9
   let w : Word := 0x80010000
   let s : State := ((State.reset.wr (Hid.rtStgSet 0 9) 1).wr (Hid.rtStgHops 0 9) 1).wr (Hid.rtStgDir 0 9) 1
   s.on (Hid.rtStgSet i e) = true
   ∧ (bit w.toNat 31 = true → legalRoute i (bits w.toNat 22 16) (s.rd (Hid.rtStgDir i e)) (s.rd (Hid.rtStgHops i e)) = true)) := by decide

/-- What clause 7 of RequestSteps asks of its state and operands is met here. -/
theorem witness_requestSteps_7 :
  (let i : Fin 97 := 96
   let e : Fin 256 := 255
   let s : State := State.reset.wr (Reg.NOC_RT_CTL_PENDING 96 255) 1
   s.on (Reg.NOC_RT_CTL_PENDING i e) = true ∧ s.entryBusy i e = false) := by decide

/-- What clause 1 of LinkRouterSteps asks of its state and operands is met here. -/
theorem witness_linkRouterSteps_1 :
  (let m : Fin 160 := 0
   let s : State := State.reset
   isLink m = true ∧ s.rd (Reg.NOC_LINK_STAT_STATE m) < 2) := by decide

/-- What clause 1 of LinkRouterSteps asks of its state and operands is met here. -/
theorem witness_linkRouterSteps_1b :
  (let m : Fin 160 := 0
   let s : State := State.reset.wr (Hid.linkFails 0) 15
   isLink m = true ∧ s.rd (Reg.NOC_LINK_STAT_STATE m) < 2) := by decide

/-- What clause 2 of LinkRouterSteps asks of its state and operands is met here. -/
theorem witness_linkRouterSteps_2 :
  (let m : Fin 160 := 0
   let s : State := State.reset.wr (Reg.NOC_LINK_STAT_STATE 0) 2
   s.rd (Reg.NOC_LINK_STAT_STATE m) = 2) := by decide

/-- What clause 3 of LinkRouterSteps asks of its state and operands is met here. -/
theorem witness_linkRouterSteps_3 :
  (let n : Fin 128 := 79
   let s : State := State.reset
   n.val < 80 ∧ s.rd (Reg.NOC_RTR_STAT_STATE n) = 0) := by decide

/-- What clause 4 of LinkRouterSteps asks of its state and operands is met here. -/
theorem witness_linkRouterSteps_4 :
  (let n : Fin 128 := 79
   let s : State := State.reset.wr (Reg.NOC_RTR_STAT_STATE 79) 2
   n.val < 80 ∧ s.rd (Reg.NOC_RTR_STAT_STATE n) = 2 ∧ s.rd (Reg.NOC_RTR_STAT_CAUSE n) = 0) := by decide

/-- What clause 5 of LinkRouterSteps asks of its state and operands is met here. -/
theorem witness_linkRouterSteps_5 :
  (let n : Fin 80 := 79
   let s : State := State.reset.wr (Reg.NOC_RTR_STAT_STATE 79) 1
   s.rd (Reg.NOC_RTR_STAT_STATE n) = 1 ∧ s.rtrHolds n = false) := by decide

/-- What clause 6 of LinkRouterSteps asks of its state and operands is met here. -/
theorem witness_linkRouterSteps_6 :
  (let n : Fin 80 := 79
   let s : State := State.reset.wr (Reg.NOC_RTR_STAT_STATE 79) 2
   s.rd (Reg.NOC_RTR_STAT_STATE n) = 2) := by decide

/-- What clause 7 of LinkRouterSteps asks of its state and operands is met here. -/
theorem witness_linkRouterSteps_7 :
  (let n : Fin 80 := 79
   let s : State := State.reset.wr (Reg.NOC_RTR_STAT_STATE 79) 1
   s.rd (Reg.NOC_RTR_STAT_STATE n) ≠ 0) := by decide

/-- What clause 8 of LinkRouterSteps asks of its state and operands is met here. -/
theorem witness_linkRouterSteps_8 :
  (let m : Fin 160 := 0
   let s : State := State.reset.wr (Reg.NOC_LINK_STAT_STATE 0) 3
   s.rd (Reg.NOC_LINK_STAT_STATE m) = 3) := by decide

/-- What clause 9 of LinkRouterSteps asks of its state and operands is met here. -/
theorem witness_linkRouterSteps_9 :
  (let p : Pkt := aPkt 2 1 0
   p.phase < 2 ∧ p.void = false) := by decide

/-- What clause 10 of LinkRouterSteps asks of its state and operands is met here. -/
theorem witness_linkRouterSteps_10 :
  (let b : Nat := 41
   let rest : List Nat := []
   let s : State := { State.reset with fifos := [(48, [41])] }
   s.barriers = b :: rest ∧ s.packets.any (fun p => decide (p.id < b / 8) && p.phase != 3 && !late p) = false) := by decide

/-- What clause 1 of ComplexSteps asks of its state and operands is met here. -/
theorem witness_complexSteps_1 :
  (let c : Fin 4 := 3
   let s : State := coreRuns
   (s.rd (Reg.MIL_CORE_STAT_STATE c) = 1 ∨ s.rd (Reg.MIL_CORE_STAT_STATE c) = 2)) := by decide

/-- What clause 2 of ComplexSteps asks of its state and operands is met here. -/
theorem witness_complexSteps_2 :
  (let c : Fin 4 := 1
   let s : State := (State.reset.wr (Reg.MIL_MTIMECMP 1) 0).wr (Reg.MIL_CORE_STAT_STATE 1) 3
   s.rd (Reg.MIL_MTIMECMP c) ≤ s.now / 4 ∧ s.halted c = false ∧ s.rd (Reg.MIL_CORE_STAT_STATE c) = 3) := by decide

/-- What clause 3 of ComplexSteps asks of its state and operands is met here. -/
theorem witness_complexSteps_3 :
  (let c : Fin 4 := 2
   let s : State := State.reset.wr (Reg.MIL_WDG_CFG_EN 2) 1
   s.on (Reg.MIL_WDG_CFG_EN c) = true ∧ s.halted c = false) := by decide

/-- What clause 4 of ComplexSteps asks of its state and operands is met here. -/
theorem witness_complexSteps_4 :
  (let u : Fin 2 := 1
   let s : State := State.reset
   (s.fifo (16 + u)).length < 64) := by decide

/-- What clause 5 of ComplexSteps asks of its state and operands is met here. -/
theorem witness_complexSteps_5 :
  (let u : Fin 2 := 1
   let x : Nat := 65
   let l : List Nat := []
   let s : State := (State.reset.setFifo 17 [65]).wr (Hid.uartBusy 1) 1
   s.on (Hid.uartBusy u) = true ∧ s.fifo (16 + u) = x :: l) := by decide

/-- What clause 6 of ComplexSteps asks of its state and operands is met here. -/
theorem witness_complexSteps_6 :
  (let u : Fin 2 := 1
   let s : State := State.reset.wr (Reg.MIL_UART_CFG_EN 1) 1
   s.on (Reg.MIL_UART_CFG_EN u) = true ∧ (s.fifo (18 + u)).length < 64) := by decide

/-- What clause 7 of ComplexSteps asks of its state and operands is met here. -/
theorem witness_complexSteps_7 :
  (let u : Fin 2 := 0
   let x : Nat := 65
   let l : List Nat := []
   let s : State := State.reset.setFifo 18 [65]
   s.fifo (18 + u) = x :: l) := by decide

/-- What clause 8 of ComplexSteps asks of its state and operands is met here. -/
theorem witness_complexSteps_8 :
  (let k : Fin 16 := 15
   let s : State := State.reset
   (s.fifo k).length < 16) := by decide

/-- What clause 9 of ComplexSteps asks of its state and operands is met here. -/
theorem witness_complexSteps_9 :
  (let k : Fin 16 := 15
   let x : Nat := 7
   let l : List Nat := [8]
   let s : State := State.reset.setFifo 15 [7, 8]
   s.fifo k = x :: l) := by decide

/-- What clause 10 of ComplexSteps asks of its state and operands is met here. -/
theorem witness_complexSteps_10 :
  (let i : Fin 64 := 63
   let s : State := State.reset
   s.on (Reg.SEM_OWNER_HELD i) = false) := by decide

/-- What clause 11 of ComplexSteps asks of its state and operands is met here. -/
theorem witness_complexSteps_11 :
  (let m : Master := .core 3
   let i : Fin 64 := 63
   let s : State := (State.reset.wr (Reg.SEM_OWNER_HELD 63) 1).wr (Reg.SEM_OWNER_OWNER 63) 0x83
   s.on (Reg.SEM_OWNER_HELD i) = true ∧ s.rd (Reg.SEM_OWNER_OWNER i) = semCode m) := by decide

/-- What clause 12 of ComplexSteps asks of its state and operands is met here. -/
theorem witness_complexSteps_12 :
  (let m : Master := .debug
   (m = .host ∨ m = .debug)) := by decide

/-- What clause 1 of FirmwareSteps asks of its state and operands is met here. -/
theorem witness_firmwareSteps_1 :
  (let s : State := fwImage.wr Reg.MIL_STAT_FW_BUSY 0
   s.on Reg.MIL_STAT_FW_BUSY = false ∧ s.coresInReset = true) := by decide

/-- What clause 2 of FirmwareSteps asks of its state and operands is met here. -/
theorem witness_firmwareSteps_2 :
  (let s : State := hbmReady
   let u : State := ((((s.wr Reg.MIL_STAT_FW_BUSY 1).wr Hid.fwMem 1).wr Hid.fwSlot 0).wr Hid.fwSrc (64 * s.rd Reg.MIL_FW_SRC)).wr Hid.fwAuto 0
   let h : List Byte := (u.coRead (u.req .peony u.milKey) (u.rd Hid.fwSrc) 256).1
   let r : MRes := .ok
   let t : State := (u.coRead (u.req .peony u.milKey) (u.rd Hid.fwSrc) 256).2.2
   s.on Reg.MIL_STAT_FW_BUSY = false ∧ s.coresInReset = true
   ∧ u = ((((s.wr Reg.MIL_STAT_FW_BUSY 1).wr Hid.fwMem 1).wr Hid.fwSlot 0).wr Hid.fwSrc (64 * s.rd Reg.MIL_FW_SRC)).wr Hid.fwAuto 0
   ∧ (u.coRead (u.req .peony u.milKey) (u.rd Hid.fwSrc) 256).2.1 = r) := by decide

/-- What clause 3 of FirmwareSteps asks of its state and operands is met here. -/
theorem witness_firmwareSteps_3 :
  (let s : State := fwImage
   let h : List Byte := (s.fwBytes 0 256).1
   let s1 : State := s
   let f0 := ((s.wr Hid.fwProt 1).wr Hid.fwProtBase (hdrField h 16 8)).wr Hid.fwProtSize (hdrField h 32 4)
   let body : List Byte := (f0.fwBytes 256 1348).1
   let s3 : State := (f0.fwBytes 256 1348).2.2
   let s4 : State := (s3.coWrite (s3.req .peony s3.milKey) 64 (body.take 64)).2
   s.on Reg.MIL_STAT_FW_BUSY = true ∧ s.fwSourceOk = true ∧ (s.fwBytes 0 256).2.1 = .ok ∧ fwHeaderOk h = true
   ∧ s1.fwRangeOk (hdrField h 16 8) (hdrField h 32 4) = true
   ∧ (((s1.wr Hid.fwProt 1).wr Hid.fwProtBase (hdrField h 16 8)).wr Hid.fwProtSize (hdrField h 32 4)).fwBytes 256
      (hdrField h 32 4 + 1284) = (body, .ok, s3)
   ∧ (s3.coWrite (s3.req .peony s3.milKey) (hdrField h 16 8) (body.take (hdrField h 32 4))).1 = .ok
   ∧ s4.keyUsable (hdrField h 36 4) 1 = true ∧ s4.minSvn ≤ hdrField h 12 4) := by decide

/-- What clause 4 of FirmwareSteps asks of its state and operands is met here. -/
theorem witness_firmwareSteps_4 :
  (let s : State := State.reset.wr Reg.MIL_STAT_FW_BUSY 1
   s.on Reg.MIL_STAT_FW_BUSY = true ∧ s.fwSourceOk = false) := by decide

/-- What clause 5 of FirmwareSteps asks of its state and operands is met here. -/
theorem witness_firmwareSteps_5 :
  (let cores : Fin 16 := 15
   let s : State := (State.reset.wr Reg.MIL_STAT_FW_LOADED 1).wr Hid.fwCores 15
   s.on Reg.MIL_STAT_FW_LOADED = true ∧ (coresOf cores).isEmpty = false ∧ s.bstIs 7 = false
   ∧ (coresOf cores).all (fun c => s.rd (Reg.MIL_CORE_STAT_STATE c) == 0 && bit (s.rd Hid.fwCores) c) = true) := by decide

/-- What clause 6 of FirmwareSteps asks of its state and operands is met here. -/
theorem witness_firmwareSteps_6 :
  (let cores : Fin 16 := 15
   cores.val ≠ 0) := by decide

/-- What clause 7 of FirmwareSteps asks of its state and operands is met here. -/
theorem witness_firmwareSteps_7 :
  (let s : State := (hbmReady.wr Reg.MIL_CMO_BASE 1).wr Reg.MIL_CMO_SIZE 2
   let a : Nat := 64 * s.rd Reg.MIL_CMO_BASE
   let n : Nat := s.rd Reg.MIL_CMO_SIZE
   s.rangeOfReq a (64 * n) = some .hbm ∧ s.on Reg.MIL_STAT_CMO_BUSY = false ∧ s.bstIs 7 = false) := by decide

/-- What clause 8 of FirmwareSteps asks of its state and operands is met here. -/
theorem witness_firmwareSteps_8 :
  (let s : State := (State.reset.wr Reg.MIL_STAT_CMO_BUSY 1).wr Hid.cmoOp 1
   s.on Reg.MIL_STAT_CMO_BUSY = true ∧ s.rd Hid.cmoOp = 1) := by decide

/-- What clause 1 of JobSteps asks of its state and operands is met here. -/
theorem witness_jobSteps_1 :
  (let r : Fin 4 := 3
   let w : Word := 5
   let s : State := State.reset.wr (Reg.MST_RING_SIZE 3) 5
   (w.toNat + 2 ^ 32 - s.rd (Reg.MST_RING_RD r)) % 2 ^ 32 ≤ s.rd (Reg.MST_RING_SIZE r)) := by decide

/-- What clause 2 of JobSteps asks of its state and operands is met here. -/
theorem witness_jobSteps_2 :
  (let op : Fin 4 := 1
   let r : Nat := 2
   let s : State := jobReady
   let d : List Byte := (s.coRead (s.req .millstone (s.rd (Reg.MST_RING_KEY 2))) (s.mstDescAddr 2) 128).1
   let t : State := (s.coRead (s.req .millstone (s.rd (Reg.MST_RING_KEY 2))) (s.mstDescAddr 2) 128).2.2
   let c : State := [Hid.mstEnd, Hid.mstCause, Hid.mstSel, Hid.mstOut, Hid.mstRead, Hid.mstLost, Hid.mstBad, Hid.mstOver, Hid.mstRun,
      Hid.mstTrunc, Hid.mstLimit, Hid.mstStale, Hid.mstIdx, Hid.mstPorts 0, Hid.mstPorts 1, Hid.mstPorts 2,
      Hid.mstPorts 3].foldl (fun v f => v.clr f) t
   let u : State := ((((((({ c with mstQueue := [] } : State).wr Hid.mstDesc (ofLeBytes d)).wr Hid.mstRr r).wr Reg.MST_STAT_RING r).wr
      Reg.MST_STAT_STATE 2).wr Reg.MST_JOB_ADDR (s.mstDescAddr r)).answer .ok []).jobSetUp
   s.rd Reg.MST_STAT_STATE = 1 ∧ s.mstNextRing = some r
   ∧ (s.coRead (s.req .millstone (s.rd (Reg.MST_RING_KEY r))) (s.mstDescAddr r) 128).2.1 = .ok ∧ ofLeBytes d % 16 = op.val + 1
   ∧ u.last.res ≠ .held) := by decide

/-- What clause 3 of JobSteps asks of its state and operands is met here. -/
theorem witness_jobSteps_3 :
  (let b : MBlk := ⟨0x1000, 65536, 0, 0, 0⟩
   let l : List MBlk := []
   let s : State := { State.reset.wr Reg.MST_STAT_STATE 2 with mstQueue := [⟨0x1000, 65536, 0, 0, 0⟩] }
   s.rd Reg.MST_STAT_STATE = 2 ∧ s.on Hid.mstEnd = false ∧ s.jobStale = false ∧ s.jobWaits = false ∧ s.mstQueue = b :: l
   ∧ s.overrun b = false) := by decide

/-- What clause 4 of JobSteps asks of its state and operands is met here. -/
theorem witness_jobSteps_4 :
  (let s : State := State.reset.wr Reg.MST_STAT_STATE 2
   s.rd Reg.MST_STAT_STATE = 2) := by decide

/-- What clause 4 of JobSteps asks of its state and operands is met here. -/
theorem witness_jobSteps_4b :
  (let s : State := (State.reset.wr Reg.MST_STAT_STATE 2).wr Hid.mstEnd 3
   s.rd Reg.MST_STAT_STATE = 2) := by decide

/-- What clause 5 of JobSteps asks of its state and operands is met here. -/
theorem witness_jobSteps_5 :
  (let s : State := State.reset
   s.rd Reg.MST_STAT_STATE = 0 ∧ s.bstIs 0 = false) := by decide

/-- What clause 1 of HostAccessSteps asks of its state and operands is met here. -/
theorem witness_hostAccessSteps_1 :
  (let s : State := State.reset.wr Reg.HST_STAT_READY 1
   s.on Reg.HST_STAT_READY = true) := by decide

/-- What clause 2 of HostAccessSteps asks of its state and operands is met here. -/
theorem witness_hostAccessSteps_2 :
  (let x : BitVec 30 := 0x100008
   let s : State := hostReady
   s.hostUp = true ∧ x.toNat % 4 = 0) := by decide

/-- What clause 3 of HostAccessSteps asks of its state and operands is met here. -/
theorem witness_hostAccessSteps_3 :
  (let x : BitVec 36 := 0x100000040
   let n : Fin 4097 := 32
   let a : Nat := 4294967360
   let key : Nat := 0
   let urg : Nat := 0
   let s : State := hostReady
   s.hostUp = true ∧ s.window x.toNat n = some (a, key, urg)) := by decide

/-- What clause 3 of HostAccessSteps asks of its state and operands is met here. -/
theorem witness_hostAccessSteps_3m :
  hostReady.rangeOfReq 4294967360 32 = some .hbm ∧ (hostReady.coReadU (hostReady.req .host 0) (some 0) 4294967360 32).2.1 = .ok := by decide

/-- What clause 4 of HostAccessSteps asks of its state and operands is met here. -/
theorem witness_hostAccessSteps_4 :
  (let x : BitVec 36 := 0x100000040
   let d : List (Option Byte) := List.replicate 32 (some 7)
   let a : Nat := 4294967360
   let key : Nat := 0
   let urg : Nat := 0
   let s : State := hostReady
   s.hostUp = true ∧ s.window x.toNat d.length = some (a, key, urg)) := by decide

/-- What clause 4 of HostAccessSteps asks of its state and operands is met here. -/
theorem witness_hostAccessSteps_4m :
  (hostReady.coWriteU (hostReady.req .host 0) (some 0) 4294967360 (List.replicate 32 (some 7))).1 = .ok := by decide

/-- What clause 7 of HostAccessSteps asks of its state and operands is met here. -/
theorem witness_hostAccessSteps_7 :
  (let sp : Fin 6 := 5
   let wd : Fin 17 := 16
   let s : State := (State.reset.wr Hid.perst 1).wr Reg.SYS_BOOT_STAT_PHASE 1
   sp.val ≠ 0 ∧ wd.val ≠ 0 ∧ s.on Hid.perst = true ∧ s.rd Reg.SYS_BOOT_STAT_PHASE ≠ 0) := by decide

/-- What clause 1 of QueueSteps asks of its state and operands is met here. -/
theorem witness_queueSteps_1 :
  (let s : State := State.reset
   (List.range 64).any (fun q => s.rd (Reg.HST_Q_STAT_STATE q) != 0) = false) := by decide

/-- What clause 2 of QueueSteps asks of its state and operands is met here. -/
theorem witness_queueSteps_2 :
  (let q : Fin 64 := 63
   let s : State := hostReady
   s.rd (Reg.HST_Q_STAT_STATE q) = 0 ∧ s.on Reg.HST_IF_STAT_AGREED = true ∧ s.ringOk q = true) := by decide

/-- What clause 3 of QueueSteps asks of its state and operands is met here. -/
theorem witness_queueSteps_3 :
  (let q : Fin 64 := 0
   let s : State := hostReady.wr (Reg.HST_Q_STAT_STATE 0) 1
   s.rd (Reg.HST_Q_STAT_STATE q) = 1) := by decide

/-- What clause 4 of QueueSteps asks of its state and operands is met here. -/
theorem witness_queueSteps_4 :
  (let q : Fin 64 := 0
   let s : State := hostReady.wr (Reg.HST_Q_STAT_STATE 0) 3
   s.rd (Reg.HST_Q_STAT_STATE q) = 3) := by decide

/-- What clause 6 of QueueSteps asks of its state and operands is met here. -/
theorem witness_queueSteps_6 :
  (let q : Fin 64 := 63
   let w : Word := 16
   let s : State := hostReady
   (w.toNat + 2 ^ 32 - s.rd (Reg.HST_Q_HEAD q)) % 2 ^ 32 ≤ s.rd (Reg.HST_Q_SIZE q)) := by decide

/-- What clause 7 of QueueSteps asks of its state and operands is met here. -/
theorem witness_queueSteps_7 :
  (let q : Fin 64 := 63
   let d : BitVec 256 := testDesc
   let s : State := queued
   let dir : Nat := s.rd (Reg.HST_Q_CFG_DIR q)
   let host : Nat := bits d.toNat 63 0
   let len : Nat := bits d.toNat 159 128
   s.qOpen q = true ∧ s.on Reg.HST_STAT_LINK_UP = true ∧ s.qTurn q = true ∧ descBad dir host len (bits d.toNat 191 160) = false
   ∧ (List.range 64).any (fun p => p != q.val && s.qTakes p) = false) := by decide

/-- What clause 7 of QueueSteps asks of its state and operands is met here. -/
theorem witness_queueSteps_7m :
  (let t := (queued.wr Hid.qLast 63).wr (Hid.qUnits 63) 0; let r := t.req .host (t.rd (Reg.HST_Q_CFG_KEY 63)); let v := t.netFor r (some (t.rd (Reg.HST_Q_CFG_URG 63))) true 0 32; let x := (v.2.snoopFor r true 0 32).2.memGate r 0 32; queued.rd (Reg.HST_Q_CFG_DIR 63) = 0 ∧ t.cardOf r true 0 32 = .mem ∧ v.1 = .ok ∧ x.1 = .ok ∧ (x.2.writeUnits r 0 ((List.replicate 32 7).map some)).1 = .ok) := by decide

/-- What clause 7 of QueueSteps asks of its state and operands is met here. -/
theorem witness_queueSteps_7n :
  (let t := ((queued.wr (Reg.HST_Q_CFG_DIR 63) 1).wr Hid.qLast 63).wr (Hid.qUnits 63) 0; let r := t.req .host (t.rd (Reg.HST_Q_CFG_KEY 63)); t.cardOf r false 0 32 = .mem ∧ (t.coReadU r (some (t.rd (Reg.HST_Q_CFG_URG 63))) 0 32).2.1 = .ok) := by decide

/-- What clause 8 of QueueSteps asks of its state and operands is met here. -/
theorem witness_queueSteps_8 :
  (let q : Fin 64 := 63
   let s : State := queued.wr Reg.HST_STAT_LINK_UP 0
   s.qOpen q = true ∧ s.on Reg.HST_STAT_LINK_UP = false) := by decide

/-- What clause 9 of QueueSteps asks of its state and operands is met here. -/
theorem witness_queueSteps_9 :
  (let q : Fin 64 := 5
   let s : State := State.reset.wr (Hid.imodRun 5) 1
   s.on (Hid.imodRun q) = true) := by decide

/-- What clause 2 of LinkBringUpSteps asks of its state and operands is met here. -/
theorem witness_linkBringUpSteps_2 :
  (let l : Fin 2 := 1
   let x : List (Fin 8 × Fin 8 × Bool × Fin 512) := [(0, 7, false, 0), (1, 6, false, 0), (2, 5, false, 0), (3, 4, false, 0), (4, 3, false, 0), (5, 2, false, 0), (6, 1, false, 0), (7, 0, true, 64)]
   let s : State := State.reset.wr (Reg.RLK_LINK_STAT_STATE 1) 1
   s.rlkState l = 1 ∧ (List.range 8).all (fun k => x.any (fun y => y.2.1.val == k)) = true ∧ x.all (s.rlkInWindow l) = true) := by decide

/-- What clause 3 of LinkBringUpSteps asks of its state and operands is met here. -/
theorem witness_linkBringUpSteps_3 :
  (let l : Fin 2 := 1
   let s : State := State.reset.wr (Reg.RLK_LINK_STAT_STATE 1) 1
   s.rlkState l = 1) := by decide

/-- What clause 4 of LinkBringUpSteps asks of its state and operands is met here. -/
theorem witness_linkBringUpSteps_4 :
  (let l : Fin 2 := 1
   let s : State := State.reset.wr (Reg.RLK_LINK_STAT_STATE 1) 2
   s.rlkState l = 2) := by decide

/-- What clause 5 of LinkBringUpSteps asks of its state and operands is met here. -/
theorem witness_linkBringUpSteps_5 :
  (let l : Fin 2 := 1
   let w : BitVec 512 := wordOf ⟨4, 0, 0, 0, 0, 0, false, 7⟩
   let s : State := State.reset.wr (Reg.RLK_LINK_STAT_STATE 1) 2
   let r : RlkRow := rowOf w
   s.rlkState l = 2 ∧ rowCrcOk w = true ∧ r.type = 4) := by decide

/-- What clause 6 of LinkBringUpSteps asks of its state and operands is met here. -/
theorem witness_linkBringUpSteps_6 :
  (let l : Fin 2 := 1
   let s : State := State.reset.wr (Reg.RLK_LINK_STAT_STATE 1) 3
   s.rlkState l = 3) := by decide

/-- What clause 7 of LinkBringUpSteps asks of its state and operands is met here. -/
theorem witness_linkBringUpSteps_7 :
  (let l : Fin 2 := 1
   let s : State := State.reset.wr (Reg.RLK_LINK_STAT_STATE 1) 4
   s.rlkState l = 4) := by decide

/-- What clause 9 of LinkBringUpSteps asks of its state and operands is met here. -/
theorem witness_linkBringUpSteps_9 :
  (let l : Fin 2 := 1
   let s : State := (State.reset.wr (Reg.RLK_CTRL_EN 1) 1).wr (Reg.RLK_LINK_STAT_STATE 1) 5
   s.on (Reg.RLK_CTRL_EN l) = true ∧ s.rlkState l = 5) := by decide

/-- What clause 1 of LinkRowSteps asks of its state and operands is met here. -/
theorem witness_linkRowSteps_1 :
  (let l : Fin 2 := 0
   let w : BitVec 512 := wordOf ⟨2, 255, 0, 1, 63, 0, true, 5⟩
   let s : State := (State.reset.wr (Reg.RLK_LINK_STAT_STATE 0) 4).wr (Hid.rlkSeqRx 0) 255
   s.rlkState l = 4 ∧ rowCrcOk w = true) := by decide

/-- What clause 2 of LinkRowSteps asks of its state and operands is met here. -/
theorem witness_linkRowSteps_2 :
  (let l : Fin 2 := 0
   let w : BitVec 512 := 1
   let s : State := State.reset.wr (Reg.RLK_LINK_STAT_STATE 0) 4
   s.rlkState l = 4 ∧ rowCrcOk w = false) := by decide

/-- What clause 3 of LinkRowSteps asks of its state and operands is met here. -/
theorem witness_linkRowSteps_3 :
  (let l : Fin 2 := 1
   let c : Fin 2 := 1
   let n : Nat := 3
   let s : State := linkBound
   s.streamIsland l c = some n ∧ s.fabricLive n = true ∧ s.rlkMay l c = true
   ∧ (c.val = 1 → s.rd (Reg.RLK_LINK_STAT_VER l) ≠ 0)) := by decide

/-- What clause 4 of LinkRowSteps asks of its state and operands is met here. -/
theorem witness_linkRowSteps_4 :
  (let l : Fin 2 := 1
   let c : Fin 2 := 1
   let n : Nat := 3
   let r : RlkRow := ⟨2, 0, 0, 0, 0, 0, false, 9⟩
   let rest : List RlkRow := []
   let s : State := linkBound
   s.streamIsland l c = some n ∧ s.rlkRows l c = r :: rest ∧ s.streamLive n = true) := by decide

/-- What clause 1 of LinkRowSteps asks of its state and operands is met here. -/
theorem witness_linkRowSteps_1b :
  (let l : Fin 2 := 0
   let w : BitVec 512 := wordOf ⟨0, 0, 0, 1, 63, 0, true, 0⟩
   let s : State := State.reset.wr (Reg.RLK_LINK_STAT_STATE 0) 4
   s.rlkState l = 4 ∧ rowCrcOk w = true) := by decide

/-- What clause 1 of LinkRowSteps asks of its state and operands is met here. -/
theorem witness_linkRowSteps_1c :
  (let l : Fin 2 := 0
   let w : BitVec 512 := wordOf ⟨5, 0, 0, 3, 0, 0, true, 0⟩
   let s : State := State.reset.wr (Reg.RLK_LINK_STAT_STATE 0) 4
   s.rlkState l = 4 ∧ rowCrcOk w = true) := by decide

/-- What clause 1 of TimeSyncSteps asks of its state and operands is met here. -/
theorem witness_timeSyncSteps_1 :
  (let l : Fin 2 := 1
   let s : State := ((State.reset.wr (Reg.RLK_LINK_STAT_STATE 1) 4).wr (Reg.RLK_CTRL_TS_ROLE 1) 1).wr (Hid.rlkPeerRole 1) 2
   s.tsRole l 1 = true) := by decide

/-- What clause 2 of TimeSyncSteps asks of its state and operands is met here. -/
theorem witness_timeSyncSteps_2 :
  (let l : Fin 2 := 1
   let w : BitVec 512 := wordOf ⟨3, 0, 0, 0, 0, 0, false, 1⟩
   let s : State := secondary
   let t : State := (s.rlkRecv 1 (rowOf (wordOf ⟨3, 0, 0, 0, 0, 0, false, 1⟩)) true).2
   let r : RlkRow := rowOf w
   rowCrcOk w = true ∧ s.rlkRecv l r true = (true, t)) := by decide

/-- What clause 3 of TimeSyncSteps asks of its state and operands is met here. -/
theorem witness_timeSyncSteps_3 :
  (let l : Fin 2 := 1
   let w : BitVec 512 := wordOf ⟨3, 0, 0, 0, 0, 0, false, 4⟩
   let s : State := secondary
   let t : State := (s.rlkRecv 1 (rowOf (wordOf ⟨3, 0, 0, 0, 0, 0, false, 4⟩)) true).2
   let r : RlkRow := rowOf w
   rowCrcOk w = true ∧ s.rlkRecv l r true = (true, t) ∧ tsIs r 4 = true ∧ t.tsRole l 2 = true ∧ tsNum r = t.rd (Hid.tsX l)
   ∧ t.rd Reg.TSB_CTRL_SRC = l.val + 1) := by decide

/-- What clause 4 of TimeSyncSteps asks of its state and operands is met here. -/
theorem witness_timeSyncSteps_4 :
  (let s : State := secondary
   s.rd Reg.TSB_STAT_SYNC = 2) := by decide

/-- What clause 5 of TimeSyncSteps asks of its state and operands is met here. -/
theorem witness_timeSyncSteps_5 :
  (let s : State := State.reset
   s.rd Reg.TSB_CTRL_SRC = 0 ∧ (s.now ≤ s.rd Reg.TSB_SET ∨ s.backOk = true)) := by decide

/-- What clause 6 of TimeSyncSteps asks of its state and operands is met here. -/
theorem witness_timeSyncSteps_6 :
  (let s : State := State.reset.wr Reg.TSB_STAT_STEP_HELD 1
   s.on Reg.TSB_STAT_STEP_HELD = true ∧ s.backOk = true) := by decide

/-- What clause 1 of EventSteps asks of its state and operands is met here. -/
theorem witness_eventSteps_1m :
  eventReserved 78 = true ∧ eventReserved 511 = true ∧ eventReserved 1023 = false := by decide

/-- What clause 1 of PacketSteps asks of its state and operands is met here. -/
theorem witness_packetSteps_1 :
  (let k : List Byte := [0xA5, 0xE0]
   let r : MRes := .ok
   let s : State := loadState 1
   let t : State := s
   s.on Reg.CFG_STAT_SRC_ACTIVE = true ∧ (s.rd Reg.CFG_STAT_LSTATE = 1 ∨ s.rd Reg.CFG_STAT_LSTATE = 7)
   ∧ s.srcBytes (k ++ leBytes 4 0x6D31E0A5) = some (k ++ leBytes 4 0x6D31E0A5, r, t)
   ∧ (∀ i, i < k.length → ((k ++ leBytes 4 0x6D31E0A5).drop i).take 4 ≠ leBytes 4 0x6D31E0A5)) := by decide

/-- What clause 2 of PacketSteps asks of its state and operands is met here. -/
theorem witness_packetSteps_2 :
  (let s : State := loadState 2
   let t : State := ((s.takeWords [0]).map Prod.snd).getD s
   s.cfgReads = true ∧ s.rd Hid.cfgLeft = 0 ∧ s.takeWords [0] = some (false, t)) := by decide

/-- What clause 4 of PacketSteps asks of its state and operands is met here. -/
theorem witness_packetSteps_4 :
  (let ws : List Word := [1, 2, 3, 4, 5, 6]
   let ps : List Word := [7, 8]
   let s : State := ((((((loadState 5).wr Hid.cfgEnc 1).wr Hid.cfgEncLeft 300).wr Hid.cfgEncSeg 2).wr Hid.cfgEncKey 1).wr Hid.sealedV 1)
   let t : State := ((s.srcWords [1, 2, 3, 4, 5, 6]).map Prod.snd).getD s
   let n : Nat := min (s.rd Hid.cfgEncSeg) (s.rd Hid.cfgEncLeft)
   s.cfgReads = true ∧ s.on Hid.cfgEnc = true ∧ n ≠ 0 ∧ ws.length = n + 4 ∧ ps.length = n
   ∧ s.srcWords (ws.map BitVec.toNat) = some (false, t) ∧ s.encKeyOk = true) := by decide

/-- What clause 1 of StreamCommandSteps asks of its state and operands is met here. -/
theorem witness_streamCommandSteps_1 :
  (let p : Packet := ⟨[0x10400001, 0], false⟩
   let l : List Nat := [0]
   let s : State := loadState 3
   let t : State := after s 4 [0x10400001, 0]
   s.packetAt 4 id p = some (l, t)) := by decide

/-- What clause 1 of StreamCommandSteps asks of its state and operands is met here. -/
theorem witness_streamCommandSteps_1b :
  (let p : Packet := ⟨[0x10400001, 3], false⟩
   let l : List Nat := [3]
   let s : State := loadState 4
   let t : State := after s 4 [0x10400001, 3]
   s.packetAt 4 id p = some (l, t)) := by decide

/-- What clause 1 of StreamCommandSteps asks of its state and operands is met here. -/
theorem witness_streamCommandSteps_1c :
  (let p : Packet := ⟨[0x10400001, 4], false⟩
   let l : List Nat := [4]
   let s : State := loadState 5
   let t : State := after s 4 [0x10400001, 4]
   s.packetAt 4 id p = some (l, t)) := by decide

/-- What clause 1 of StreamCommandSteps asks of its state and operands is met here. -/
theorem witness_streamCommandSteps_1d :
  (let p : Packet := ⟨[0x10400001, 6], false⟩
   let l : List Nat := [6]
   let s : State := (((loadState 3).wr (Reg.ISL_STAT_STATE 79) 3).wr (Reg.CFG_REGION 2) 0x8000).wr Reg.CFG_STAT_OPERATING 1
   let t : State := after s 4 [0x10400001, 6]
   s.packetAt 4 id p = some (l, t)) := by decide

/-- What clause 1 of StreamCommandSteps asks of its state and operands is met here. -/
theorem witness_streamCommandSteps_1e :
  (let p : Packet := ⟨[0x10400001, 7], false⟩
   let l : List Nat := [7]
   let s : State := ((loadState 3).wr (Reg.ISL_STAT_STATE 79) 1).wr (Hid.prIsl 79) 1
   let t : State := after s 4 [0x10400001, 7]
   s.packetAt 4 id p = some (l, t)) := by decide

/-- What clause 1 of StreamCommandSteps asks of its state and operands is met here. -/
theorem witness_streamCommandSteps_1f :
  (let p : Packet := ⟨[0x10400001, 4], false⟩
   let l : List Nat := [4]
   let s : State := (((loadState 5).wr (Reg.ISL_STAT_STATE 7) 1).setB (Reg.ISL_CTX_VALID_VALID 7) 0).wr Reg.CFG_STAT_OPERATING 1
   let t : State := after s 4 [0x10400001, 4]
   s.packetAt 4 id p = some (l, t)) := by decide

/-- What clause 2 of StreamCommandSteps asks of its state and operands is met here. -/
theorem witness_streamCommandSteps_2 :
  (let s : State := ownerSlot (State.reset.wr Hid.cfgSig 1)
   s.on Hid.cfgSig = true ∧ s.keyUsable (s.rd Hid.cfgAuthKey) 0 = true) := by decide

/-- What clause 3 of StreamCommandSteps asks of its state and operands is met here. -/
theorem witness_streamCommandSteps_3 :
  (let s : State := ((State.reset.wr Reg.SYS_BOOT_STAT_PHASE 3).wr Reg.SYS_AUTO_HBM_EN 0).wr Reg.SYS_AUTO_FW_EN 0
   s.rd Reg.SYS_BOOT_STAT_PHASE = 3 ∧ s.rd Reg.CFG_STAT_LSTATE = 0 ∧ s.on Reg.SYS_AUTO_HBM_EN = false
   ∧ s.on Reg.SYS_AUTO_FW_EN = false) := by decide

/-- What clause 1 of StartupSteps asks of its state and operands is met here. -/
theorem witness_startupSteps_1 :
  (let s : State := (((State.reset.wr Reg.CFG_STAT_LSTATE 6).wr Hid.startSet 8).wr Reg.CFG_STAT_OPERATING 1).wr (Reg.ISL_CLK_STAT_STATE 3) 5
   s.rd Reg.CFG_STAT_LSTATE = 6 ∧ s.rd Hid.startStage = 0 ∧ s.on Reg.CFG_STAT_OPERATING = true
   ∧ s.starting.all (fun n => s.rd (Reg.ISL_CLK_STAT_STATE n) == 5 && !s.on (Hid.hdrBad n)) = true) := by decide

/-- What clause 2 of StartupSteps asks of its state and operands is met here. -/
theorem witness_startupSteps_2m :
  (let s := startup.wr Reg.CFG_STARTUP 0x24; (s.wr Hid.startStage 1).stageNow 0 = true ∧ (s.wr Hid.startStage 2).stageNow 2 = true
   ∧ (s.wr Hid.startStage 3).stageNow 4 = true) := by decide

/-- What clause 3 of StartupSteps asks of its state and operands is met here. -/
theorem witness_startupSteps_3m :
  (let s := startup.wr Reg.CFG_STARTUP 0x24; (s.wr Hid.startStage 4).stageAt 4 = true
   ∧ (s.wr Hid.startStage 5).stageAt 5 = true) := by decide

/-- What clause 4 of StartupSteps asks of its state and operands is met here. -/
theorem witness_startupSteps_4 :
  (let s : State := State.reset.wr Reg.CFG_STAT_DONE_WAITING 1
   s.on Reg.CFG_STAT_DONE_WAITING = true) := by decide

/-- What clause 5 of StartupSteps asks of its state and operands is met here. -/
theorem witness_startupSteps_5 :
  (let n : Fin 80 := 79
   let s : State := (State.reset.wr (Reg.ISL_STAT_STATE 79) 2).wr (Reg.ISL_CLK_STAT_STATE 79) 5
   s.rd (Reg.ISL_STAT_STATE n) = 2 ∧ bit (s.rd Hid.startSet) n = false ∧ s.rd (Reg.ISL_CLK_STAT_STATE n) = 5
   ∧ s.on (Hid.startLate n) = false) := by decide

/-- What clause 6 of StartupSteps asks of its state and operands is met here. -/
theorem witness_startupSteps_6 :
  (let s : State := ((hbmReady.wr Reg.CFG_STAT_LSTATE 1).wr Reg.CFG_MEM_LEN 1).wr (Reg.DAH_SLOT_STAT_STATE 3) 2
   s.loadLegal = true) := by decide

/-- What clause 7 of StartupSteps asks of its state and operands is met here. -/
theorem witness_startupSteps_7 :
  (let s : State := loadState 3
   s.on Reg.CFG_STAT_SRC_ACTIVE = true ∧ s.rd Reg.CFG_STAT_LSTATE = 3) := by decide

/-- What clause 8 of StartupSteps asks of its state and operands is met here. -/
theorem witness_startupSteps_8 :
  (let s : State := State.reset.wr Reg.CFG_STAT_LSTATE 7
   s.rd Reg.CFG_STAT_LSTATE = 7 ∧ s.on Reg.CFG_STAT_SRC_ACTIVE = false) := by decide

/-- What clause 9 of StartupSteps asks of its state and operands is met here. -/
theorem witness_startupSteps_9 :
  (let n : Fin 80 := 79
   let c : Fin 8 := 7
   let s : State := State.reset.wr Reg.CFG_STAT_LSTATE 1
   s.rd Reg.CFG_STAT_LSTATE = 1 ∧ s.bitOf (Reg.ISL_CTX_VALID_LOADING n) c = false ∧ s.rd (Reg.ISL_STAT_CUR_CTX n) ≠ c) := by decide

/-- What clause 11 of StartupSteps asks of its state and operands is met here. -/
theorem witness_startupSteps_11 :
  (let s : State := State.reset.wr Reg.CFG_CTRL_FIFO_EN 1
   s.on Reg.CFG_CTRL_FIFO_EN = true ∧ s.on Hid.cfgHeldV = false ∧ (Tab.getD s.fifos 32 []).length ≤ 1020) := by decide

/-- What clause 12 of StartupSteps asks of its state and operands is met here. -/
theorem witness_startupSteps_12 :
  (let s : State := (State.reset.wr Reg.CFG_STAT_LSTATE 1).wr Hid.cfgHeldV 1
   s.on Hid.cfgHeldV = true ∧ s.rd Reg.CFG_STAT_LSTATE = 1) := by decide

/-- What clause 13 of StartupSteps asks of its state and operands is met here. -/
theorem witness_startupSteps_13 :
  (let s : State := loadState 3
   s.cfgReads = true ∧ s.on Hid.cfgBoot = false) := by decide

/-- What clause 14 of StartupSteps asks of its state and operands is met here. -/
theorem witness_startupSteps_14 :
  (let s : State := loadState 3
   s.on Reg.CFG_STAT_SRC_ACTIVE = true ∧ s.rd Reg.CFG_STAT_LSTATE = 3 ∧ s.on Hid.cfgSig = false ∧ s.rd Reg.CFG_LOAD_STAT_SOURCE = 2
   ∧ (s.cfgAbort 9).rd Reg.CFG_LOAD_STAT_SOURCE = 2) := by decide

/-- What clause 15 of StartupSteps asks of its state and operands is met here. -/
theorem witness_startupSteps_15 :
  (let h : List Byte := flashHeader
   let s : State := ((loadState 1).wr Reg.CFG_LOAD_STAT_SOURCE 1).wr Reg.CFG_PINS_CFG_MODE 1
   s.on Reg.CFG_STAT_SRC_ACTIVE = true ∧ s.rd Reg.CFG_LOAD_STAT_SOURCE = 1 ∧ s.on Hid.flashOk = false
   ∧ s.rd Reg.CFG_PINS_CFG_MODE = 1 ∧ flashHeaderOk h = true ∧ ofLeBytes ((h.drop 16).take 4) ≠ 0xFFFFFFFF) := by decide

/-- What clause 16 of StartupSteps asks of its state and operands is met here. -/
theorem witness_startupSteps_16 :
  (let s : State := ((loadState 1).wr Reg.CFG_LOAD_STAT_SOURCE 1).wr Hid.cfgBoot 1
   s.on Reg.CFG_STAT_OPERATING = false ∧ s.on Hid.cfgBoot = true ∧ s.rd Reg.CFG_LOAD_STAT_SOURCE = 1
   ∧ s.rd Reg.CFG_STAT_LSTATE = 1) := by decide

/-- What clause 17 of StartupSteps asks of its state and operands is met here. -/
theorem witness_startupSteps_17 :
  (let s : State := (State.reset.wr Reg.CFG_STAT_LSTATE 7).wr Reg.CFG_PINS_CFG_MODE 2
   s.rd Reg.CFG_STAT_LSTATE = 7 ∧ s.rd Reg.CFG_PINS_CFG_MODE = 2) := by decide

/-- What clause 1 of DahliaSteps asks of its state and operands is met here. -/
theorem witness_dahliaSteps_1 :
  (let fw : Bool := false
   let i : Fin 4 := 3
   let s : State := hbmReady.wr Reg.DAH_LEN 64
   s.on Reg.DAH_STAT_BUSY = false ∧ s.bstIs 10 = false ∧ s.slotRead fw i = false) := by decide

/-- What clause 1 of DahliaSteps asks of its state and operands is met here. -/
theorem witness_dahliaSteps_1b :
  (let fw : Bool := true
   let i : Fin 4 := 3
   let s : State := hbmReady.wr Reg.DAH_LEN 64
   s.on Reg.DAH_STAT_BUSY = false ∧ s.bstIs 10 = false ∧ s.slotRead fw i = false) := by decide

/-- What clause 3 of DahliaSteps asks of its state and operands is met here. -/
theorem witness_dahliaSteps_3 :
  (let s : State := (hbmReady.wr Reg.DAH_LEN 32).wr Reg.DAH_STAT_BUSY 1
   let d : List Byte := (s.coRead (s.req .config (s.rd Reg.DAH_KEY)) (64 * s.rd Reg.DAH_SRC) 32).1
   let t : State := (s.coRead (s.req .config (s.rd Reg.DAH_KEY)) (64 * s.rd Reg.DAH_SRC) 32).2.2
   let n : Nat := s.rd Reg.DAH_LEN
   s.on Reg.DAH_STAT_BUSY = true ∧ (s.coRead (s.req .config (s.rd Reg.DAH_KEY)) (64 * s.rd Reg.DAH_SRC) n).2.1 = .ok) := by decide

/-- What clause 2 of PowerUpSteps asks of its state and operands is met here. -/
theorem witness_powerUpSteps_2 :
  (let s : State := ((State.reset.wr Hid.railOk 1023).wr Hid.auxUp 1).wr Hid.progLow 0
   s.porReady = true ∧ s.on Reg.AST_STAT_HARD_STOPPED = false) := by decide

/-- What clause 4 of PowerUpSteps asks of its state and operands is met here. -/
theorem witness_powerUpSteps_4 :
  (let s : State := State.reset.setB Hid.railOk 0
   s.bitOf Hid.railOk 0 = true ∧ s.on Hid.auxUp = false) := by decide

/-- What clause 5 of PowerUpSteps asks of its state and operands is met here. -/
theorem witness_powerUpSteps_5 :
  (let g : Fin 10 := 9
   let s : State := (State.reset.wr Reg.SYS_BOOT_STAT_PHASE 1).wr Hid.islPower 511
   s.rd Reg.SYS_BOOT_STAT_PHASE ≠ 0 ∧ s.rd Hid.islPower = 2 ^ g.val - 1) := by decide

/-- What clause 6 of PowerUpSteps asks of its state and operands is met here. -/
theorem witness_powerUpSteps_6 :
  (let r : Fin 10 := 9
   let s : State := (State.reset.wr Reg.SYS_BOOT_STAT_PHASE 1).wr Hid.railOk 1023
   r.val ≠ 0 ∧ s.rd Reg.SYS_BOOT_STAT_PHASE ≠ 0) := by decide

/-- What clause 7 of PowerUpSteps asks of its state and operands is met here. -/
theorem witness_powerUpSteps_7 :
  (let s : State := State.reset.wr Reg.SYS_BOOT_STAT_PHASE 1
   s.rd Reg.SYS_BOOT_STAT_PHASE = 1) := by decide

/-- What clause 8 of PowerUpSteps asks of its state and operands is met here. -/
theorem witness_powerUpSteps_8 :
  (let s : State := State.reset.wr Reg.SYS_BOOT_STAT_PHASE 2
   s.rd Reg.SYS_BOOT_STAT_PHASE = 2 ∧ s.on Reg.PEO_STAT_TRNG_FAIL = false) := by decide

/-- What clause 9 of PowerUpSteps asks of its state and operands is met here. -/
theorem witness_powerUpSteps_9 :
  (let s : State := (State.reset.wr Reg.SYS_BOOT_STAT_PHASE 6).wr Reg.SYS_AUTO_RETRIES 3
   s.rd Reg.SYS_BOOT_STAT_PHASE = 6 ∧ s.rd Reg.SYS_BOOT_STAT_RETRY_CNT < s.rd Reg.SYS_AUTO_RETRIES) := by decide

/-- What clause 11 of PowerUpSteps asks of its state and operands is met here. -/
theorem witness_powerUpSteps_11 :
  (let n : Fin 80 := 79
   let s : State := State.reset.wr (Reg.ISL_STAT_STATE 79) 4
   s.rd (Reg.ISL_STAT_STATE n) = 4 ∧ s.on (Hid.rstAsked n) = false ∧ s.on (Hid.pwrUp n) = false) := by decide

/-- What clause 12 of PowerUpSteps asks of its state and operands is met here. -/
theorem witness_powerUpSteps_12 :
  (let s : State := State.reset
   s.on Reg.DAH_STAT_BUSY = false) := by decide

/-- What clause 1 of SecurityCommandSteps asks of its state and operands is met here. -/
theorem witness_securityCommandSteps_1 :
  (let m : Master := .core 3
   let c : Fin 15 := 0
   let s : State := State.reset
   s.on Reg.PEO_STAT_BUSY = false ∧ s.peoLegal (c + 1) = true ∧ (4 ≤ c.val → classOf m < 5
   ∧ s.bitOf Reg.PEO_ADMIN (classOf m) = true)) := by decide

/-- What clause 1 of SecurityCommandSteps asks of its state and operands is met here. -/
theorem witness_securityCommandSteps_1b :
  (let m : Master := .core 3
   let c : Fin 15 := 6
   let s : State := (State.reset.wr Reg.PEO_FUSE_DATA 1).setB Reg.PEO_ADMIN (classOf (.core 3))
   s.on Reg.PEO_STAT_BUSY = false ∧ s.peoLegal (c + 1) = true ∧ (4 ≤ c.val → classOf m < 5
   ∧ s.bitOf Reg.PEO_ADMIN (classOf m) = true)) := by decide

/-- What clause 1 of SecurityCommandSteps asks of its state and operands is met here. -/
theorem witness_securityCommandSteps_1m :
  [1, 3, 4, 14, 15].all (fun c => State.reset.peoLegal c) = true ∧ (State.reset.wr Hid.chalV 1).peoLegal 2 = true
   ∧ ((State.reset.wr Reg.PEO_FUSE_ADDR 11).wr Reg.PEO_FUSE_DATA 1).peoLegal 5 = true ∧ State.reset.peoLegal 6 = true
   ∧ ((State.reset.wr (Reg.PEO_FUSE 83) 9).wr Reg.PEO_FUSE_DATA 0).peoLegal 8 = true
   ∧ ((State.reset.wr (Reg.PEO_FUSE 83) 1).wr (Reg.PEO_FUSE 19) 1).peoLegal 9 = true
   ∧ ((State.reset.wr (Reg.PEO_FUSE 83) 1).wr (Reg.PEO_FUSE 19) 1).peoLegal 11 = true
   ∧ [10, 12, 13].all (fun c => (State.reset.wr (Reg.PEO_FUSE 10) 15).peoLegal c) = true := by decide

/-- What clause 2 of SecurityCommandSteps asks of its state and operands is met here. -/
theorem witness_securityCommandSteps_2 :
  (let s : State := (State.reset.wr Reg.PEO_STAT_BUSY 1).wr Hid.peoCode 5
   s.on Reg.PEO_STAT_BUSY = true) := by decide

/-- What clause 2 of SecurityCommandSteps asks of its state and operands is met here. -/
theorem witness_securityCommandSteps_2b :
  (let s : State := (State.reset.wr Reg.PEO_STAT_BUSY 1).wr Hid.peoCode 14
   s.on Reg.PEO_STAT_BUSY = true) := by decide

/-- What clause 2 of SecurityCommandSteps asks of its state and operands is met here. -/
theorem witness_securityCommandSteps_2c :
  (let s : State := (State.reset.wr Reg.PEO_STAT_BUSY 1).wr Hid.peoCode 1
   s.on Reg.PEO_STAT_BUSY = true) := by decide

/-- What clause 2 of SecurityCommandSteps asks of its state and operands is met here. -/
theorem witness_securityCommandSteps_2m :
  State.reset.nextSvn = some 0 := by decide

/-- What clause 3 of SecurityCommandSteps asks of its state and operands is met here. -/
theorem witness_securityCommandSteps_3m :
  ((peoAt 0x40000000 13).peoRead 1412).map (fun x => x.2.1) = some 0 ∧ (peoAt 0x40000000 2).on Reg.PEO_STAT_BUSY = true := by decide

/-- What clause 4 of SecurityCommandSteps asks of its state and operands is met here. -/
theorem witness_securityCommandSteps_4m :
  ((peoAt 0x20000000 4).peoWrite (peoAt 0x20000000 4).cert).map (fun x => x.1) = some 6
   ∧ ((peoAt 0x20000000 3).signBlock.2.peoWrite (leBytes 1024 ((peoAt 0x20000000 3).rd Hid.peoBody) ++ (peoAt 0x20000000 3).signBlock.1)).map (fun x => x.1) = some 6 ∧ ((peoAt 0x40000000 9).peoRead 1793).map (fun x => x.2.1) = some 0 := by decide

/-- What clause 4 of SecurityCommandSteps asks of its state and operands is met here. -/
theorem witness_securityCommandSteps_4n :
  ((peoAt (secBase / 64) 10).peoRead 32).map (fun x => x.2.1) = some 0
   ∧ ((((((peoAt (secBase / 64) 10).peoRead 32).map (fun x => x.2.2)).getD State.reset).wr Hid.sealedV 1).peoWrite (List.replicate 32 0)).map (fun x => x.1) = some 0 := by decide

/-- What clause 5 of SecurityCommandSteps asks of its state and operands is met here. -/
theorem witness_securityCommandSteps_5 :
  (let s : State := State.reset
   s.rd Hid.peoCode < 0x40) := by decide

/-- What clause 7 of SecurityCommandSteps asks of its state and operands is met here. -/
theorem witness_securityCommandSteps_7 :
  (let k : Fin 3 := 2
   let s : State := State.reset.wr Reg.PEO_TAMP_CFG_GLITCH_EN 1
   s.tampOn k = true) := by decide

/-- What clause 8 of SecurityCommandSteps asks of its state and operands is met here. -/
theorem witness_securityCommandSteps_8 :
  (let s : State := State.reset.wr Hid.tokenV 1
   s.on Hid.tokenV = true ∧ s.rd Reg.PEO_DBG_REMAIN ≤ 1) := by decide

/-- What clause 1 of ScrubSteps asks of its state and operands is met here. -/
theorem witness_scrubSteps_1 :
  (let n : Fin 80 := 79
   let c : Fin 8 := 7
   let f : Fin 1600 := 0
   let e : Nat := 2
   let urgent : Bool := false
   let s : State := scrubs
   let s0 : State := (s.frameShare 2 79 false).getD s
   s.scrubbed n c = true ∧ s.on (Reg.ISL_STAT_SWITCHING n) = false ∧ s.cfgHeld n = false ∧ s.engineOf n = some e
   ∧ urgent = (f.val == 1599 && s.on (Hid.vbHeld (80 + n))) ∧ s.frameShare e n urgent = some s0) := by decide

/-- What clause 1 of ScrubSteps asks of its state and operands is met here. -/
theorem witness_scrubSteps_1m :
  scrubs.on Reg.SCB_CTRL_EN = true ∧ scrubs.scrubNext 2 = some (639, 0) ∧ scrubs.askNext 2 = none
   ∧ (scrubs.ask 639).askNext 2 = some (639, 0) ∧ (scrubs.ask 639).deepPass = false := by decide

/-- What clause 2 of ScrubSteps asks of its state and operands is met here. -/
theorem witness_scrubSteps_2 :
  (let n : Nat := 79
   let c : Nat := 7
   let f : Nat := 3
   let b : Option Nat := some 5
   let s : State := State.reset.wr (Hid.frameSyn 79 7 3) (frameCheck 32)
   frameVerdict (s.rd (Hid.frameSyn n c f)) = .fix b) := by decide

/-- What clause 3 of ScrubSteps asks of its state and operands is met here. -/
theorem witness_scrubSteps_3 :
  (let n : Fin 80 := 79
   let c : Fin 8 := 7
   let u : Fin 65536 := 5
   let s : State := builds
   let t : State := (s.buildShare 79 5).getD s
   let v : State := (({ t with fifos := Tab.set t.fifos 50 [] (t.builds.filter (fun k => k != 8 * n.val + c.val)) } : State).clrB
      (Reg.SCB_GOLD_BUILDING n) c).building
   s.bitOf (Reg.SCB_GOLD_BUILDING n) c = true ∧ s.buildNext = some (8 * n.val + c.val) ∧ s.buildShare n u = some t
   ∧ v.scrubbed n c = true ∧ (List.range 1600).any (fun f => frameVerdict (v.rd (Hid.frameSyn n c f)) == .bad) = false) := by decide

/-- What clause 4 of ScrubSteps asks of its state and operands is met here. -/
theorem witness_scrubSteps_4 :
  (let e : Fin 3 := 0
   let s : State := State.reset
   s.engines.length = 3 ∧ s.engOn (checker e) = true ∧ s.engOn e = true) := by decide

/-- What clause 5 of ScrubSteps asks of its state and operands is met here. -/
theorem witness_scrubSteps_5 :
  (let s : State := State.reset.wr Hid.accV 1
   s.on Hid.accV = true) := by decide

/-- What clause 6 of ScrubSteps asks of its state and operands is met here. -/
theorem witness_scrubSteps_6 :
  (let e : Fin 3 := 1
   let s : State := State.reset.wr (Reg.SCB_ENG_STATE 1) 1
   s.rd (Reg.SCB_ENG_STATE e) = 1 ∧ s.engOn (checker e) = true) := by decide

/-- What clause 7 of ScrubSteps asks of its state and operands is met here. -/
theorem witness_scrubSteps_7 :
  (let n : Fin 128 := 79
   n.val < 80) := by decide

/-- What clause 8 of ScrubSteps asks of its state and operands is met here. -/
theorem witness_scrubSteps_8 :
  (let e : Fin 4 := 2
   let s : State := State.reset.wr (Reg.SCB_ENG_STATE 2) 2
   e.val < 3 ∧ s.rd (Reg.SCB_ENG_STATE e) = 2) := by decide

/-- What clause 1 of SelfTestSteps asks of its state and operands is met here. -/
theorem witness_selfTestSteps_1 :
  (let i : Fin 128 := 79
   let t : Fin 11 := 1
   let s : State := State.reset
   s.on Reg.BST_STAT_BUSY = false ∧ s.bstLegal t i = true) := by decide

/-- What clause 1 of SelfTestSteps asks of its state and operands is met here. -/
theorem witness_selfTestSteps_1m :
  State.reset.bstLegal 2 79 = true ∧ State.reset.bstLegal 3 0 = true ∧ State.reset.bstLegal 4 79 = true
   ∧ State.reset.bstLegal 5 0 = true ∧ State.reset.bstLegal 7 0 = true ∧ State.reset.bstLegal 8 3 = true
   ∧ State.reset.bstLegal 9 0 = true ∧ State.reset.bstLegal 10 0 = true
   ∧ ((((State.reset.wr Reg.HOP_CTRL_EN 0).wr Reg.RUN_CTRL_EN 0).wr Reg.LAN_STAT_RUN 0).wr Reg.MST_STAT_STATE 0).bstLegal 0 0 = true
   ∧ (hbmReady.wr (Reg.HBM_RANK_ROLE 47) 1).bstLegal 6 47 = true := by decide

/-- What clause 2 of SelfTestSteps asks of its state and operands is met here. -/
theorem witness_selfTestSteps_2 :
  (let s : State := (State.reset.wr Reg.BST_STAT_BUSY 1).wr Hid.bstTgt 9
   s.on Reg.BST_STAT_BUSY = true ∧ s.rd Hid.bstTgt ≠ 1) := by decide

/-- What clause 4 of SelfTestSteps asks of its state and operands is met here. -/
theorem witness_selfTestSteps_4 :
  (let s : State := (State.reset.wr Reg.BST_STAT_BUSY 1).wr Hid.bstTgt 9
   s.on Reg.BST_STAT_BUSY = true ∧ s.rd Hid.bstTgt = 9) := by decide

/-- What clause 3 of CalibrationTelemetrySteps asks of its state and operands is met here. -/
theorem witness_calibrationTelemetrySteps_3 :
  (let pc : Fin 16 := 15
   let s : State := State.reset.wr (Hid.hbmDqDue 15) 1
   s.on (Hid.hbmDqDue pc) = true) := by decide

/-- What clause 5 of CalibrationTelemetrySteps asks of its state and operands is met here. -/
theorem witness_calibrationTelemetrySteps_5 :
  (let i : Fin 16 := 6
   let j : Byte := 0
   let s : State := State.reset
   2 ≤ i.val ∧ i.val ≤ 6 ∧ j.toNat < calInstances i ∧ j ≠ 255 ∧ s.calBlocked i = false) := by decide

/-- What clause 7 of CalibrationTelemetrySteps asks of its state and operands is met here. -/
theorem witness_calibrationTelemetrySteps_7 :
  (let s : State := State.reset.wr Reg.TEL_CTRL_EN 1
   let v : State := s
   s.on Reg.TEL_CTRL_EN = true ∧ s.dahTake 256 s.jnlWaits = some v) := by decide

/-- What clause 8 of CalibrationTelemetrySteps asks of its state and operands is met here. -/
theorem witness_calibrationTelemetrySteps_8 :
  (let s : State := hbmReady.wr Reg.TEL_LEN 32
   let d : List Byte := (s.coRead (s.req .sys (s.rd Reg.TEL_SRC_KEY)) (s.rd Reg.TEL_SRC) 32).1
   let t : State := (s.coRead (s.req .sys (s.rd Reg.TEL_SRC_KEY)) (s.rd Reg.TEL_SRC) 32).2.2
   let a : Nat := s.rd Reg.TEL_SRC
   let n : Nat := s.rd Reg.TEL_LEN
   1 ≤ n ∧ n ≤ 3836 ∧ s.inMemory a n = true ∧ s.rd Hid.jnlCount < 64
   ∧ (s.coRead (s.req .sys (s.rd Reg.TEL_SRC_KEY)) a n).2.1 = .ok) := by decide

/-- What clause 10 of CalibrationTelemetrySteps asks of its state and operands is met here. -/
theorem witness_calibrationTelemetrySteps_10 :
  (let s : State := hbmReady.wr Hid.jnlV 1
   let v : State := s
   s.on Hid.jnlV = true ∧ 4 ≤ s.rd Reg.SYS_BOOT_STAT_PHASE ∧ s.dahTake 4096 false = some v) := by decide

/-- What clause 4 of PowerThermalSteps asks of its state and operands is met here. -/
theorem witness_powerThermalSteps_4 :
  (let i : Fin 16 := 3
   let s : State := State.reset
   (i.val < 12 ∨ s.rd (Reg.AST_CH_CFG_MODE i) ≠ 0)) := by decide

/-- What clause 5 of PowerThermalSteps asks of its state and operands is met here. -/
theorem witness_powerThermalSteps_5 :
  (let w : Word := 150
   let s : State := State.reset
   120 ≤ bits w.toNat 8 0 ∧ bits w.toNat 8 0 ≤ 150 ∧ s.astStop = false) := by decide

/-- What clause 6 of PowerThermalSteps asks of its state and operands is met here. -/
theorem witness_powerThermalSteps_6 :
  (let w : Word := 300
   let s : State := State.reset.wr Reg.AST_STAT_TSTATE 3
   120 ≤ bits w.toNat 8 0 ∧ bits w.toNat 8 0 ≤ 300 ∧ s.astStop = true) := by decide

/-- What clause 7 of PowerThermalSteps asks of its state and operands is met here. -/
theorem witness_powerThermalSteps_7 :
  (let b : Bool := true
   let s : State := State.reset.wr Reg.AST_PWR_LIMIT_LIMIT 150
   s.astStop = false ∧ (b = false ∨ (s.rd Reg.AST_PWR_LIMIT_LIMIT ≤ 150 ∧ s.rd Hid.astLimPend = 0))) := by decide

/-- What clause 7 of PowerThermalSteps asks of its state and operands is met here. -/
theorem witness_powerThermalSteps_7b :
  (let b : Bool := false
   let s : State := State.reset
   s.astStop = false ∧ (b = false ∨ (s.rd Reg.AST_PWR_LIMIT_LIMIT ≤ 150 ∧ s.rd Hid.astLimPend = 0))) := by decide

/-- What clause 8 of PowerThermalSteps asks of its state and operands is met here. -/
theorem witness_powerThermalSteps_8 :
  (let m : Fin 4 := 2
   let s : State := State.reset
   m.val < 3 ∧ s.astStop = false) := by decide

/-- What clause 9 of PowerThermalSteps asks of its state and operands is met here. -/
theorem witness_powerThermalSteps_9 :
  (let s : State := (State.reset.wr Reg.AST_LEVEL_LEVEL 64).wr Reg.AST_THR_CTRL_METHOD 1
   s.rd Reg.AST_LEVEL_LEVEL = 64) := by decide

/-- What clause 10 of PowerThermalSteps asks of its state and operands is met here. -/
theorem witness_powerThermalSteps_10 :
  (let s : State := (State.reset.wr Reg.AST_STAT_TSTATE 2).wr (Reg.AST_CH_TEMP_MEAS 0) 3000
   s.rd Reg.AST_STAT_TSTATE = 2 ∧ s.anyAt 1 = true) := by decide

/-- What clause 11 of PowerThermalSteps asks of its state and operands is met here. -/
theorem witness_powerThermalSteps_11 :
  (let s : State := State.reset.wr Reg.AST_STAT_TSTATE 3
   s.rd Reg.AST_STAT_TSTATE = 3 ∧ s.on Hid.stopGate = false ∧ s.on Hid.swBusy = false) := by decide

/-- What clause 12 of PowerThermalSteps asks of its state and operands is met here. -/
theorem witness_powerThermalSteps_12 :
  (let s : State := (State.reset.wr Reg.AST_STAT_TSTATE 3).wr Hid.stopGate 1
   s.rd Reg.AST_STAT_TSTATE = 3 ∧ s.on Hid.stopGate = true ∧ (∀ n < 80, s.rd (Reg.ISL_CLK_STAT_STATE n) ≠ 4
   ∧ s.rd (Reg.ISL_CLK_STAT_STATE n) ≠ 5 ∧ s.rd (Reg.ISL_CLK_STAT_STATE n) ≠ 6)) := by decide

/-- What clause 13 of PowerThermalSteps asks of its state and operands is met here. -/
theorem witness_powerThermalSteps_13 :
  (let s : State := State.reset
   s.rd Reg.AST_STAT_TSTATE ≠ 5 ∧ s.rd Reg.AST_STAT_TSTATE ≠ 2) := by decide

/-- What clause 14 of PowerThermalSteps asks of its state and operands is met here. -/
theorem witness_powerThermalSteps_14 :
  (let s : State := State.reset.wr Reg.AST_STAT_TSTATE 3
   s.rd Reg.AST_STAT_TSTATE = 3) := by decide

/-- What clause 15 of PowerThermalSteps asks of its state and operands is met here. -/
theorem witness_powerThermalSteps_15 :
  (let s : State := State.reset.wr Hid.hardPend 1
   s.on Hid.hardPend = true) := by decide

/-- What clause 16 of PowerThermalSteps asks of its state and operands is met here. -/
theorem witness_powerThermalSteps_16 :
  (let s : State := (List.range 12).foldl (fun t i => (t.wr (Reg.AST_CH_TEMP_MEAS i) 400).wr (Reg.AST_CH_TEMP_PRED i) 400) (State.reset.wr Reg.AST_STAT_TSTATE 4)
   s.rd Reg.AST_STAT_TSTATE = 4 ∧ s.allBelow 2 (s.rd Reg.AST_STOP_CFG_HYST_STOP) = true) := by decide

/-- What clause 17 of PowerThermalSteps asks of its state and operands is met here. -/
theorem witness_powerThermalSteps_17 :
  (let s : State := State.reset
   s.rd Reg.AST_STAT_TSTATE ≤ 1) := by decide

/-- What clause 18 of PowerThermalSteps asks of its state and operands is met here. -/
theorem witness_powerThermalSteps_18 :
  (let i : Fin 32 := 11
   let s : State := (State.reset.wr (Reg.AST_CH_STAT_SUSPECT 11) 1).wr (Hid.nearRun 11) 1001
   i.val < 12 ∧ s.on (Reg.AST_CH_STAT_SUSPECT i) = true ∧ 1001 ≤ s.rd (Hid.nearRun i)) := by decide

/-- What clause 2 of DebugPortSteps asks of its state and operands is met here. -/
theorem witness_debugPortSteps_2 :
  (let op : Byte := 4
   let s : State := State.reset.wr Reg.DBG_STAT_LEVEL 2
   tapLevel op.toNat ≤ s.rd Reg.DBG_STAT_LEVEL) := by decide

/-- What clause 2 of DebugPortSteps asks of its state and operands is met here. -/
theorem witness_debugPortSteps_2b :
  (let op : Byte := 0x10
   let s : State := State.reset
   tapLevel op.toNat ≤ s.rd Reg.DBG_STAT_LEVEL) := by decide

/-- What clause 3 of DebugPortSteps asks of its state and operands is met here. -/
theorem witness_debugPortSteps_3 :
  (let dr : BitVec 78 := 2
   let s : State := (State.reset.wr Reg.DBG_STAT_LEVEL 2).wr Hid.tapIr 0x10
   s.rd Hid.tapIr = 0x10 ∧ s.on Hid.accBusy = false ∧ (dr.toNat % 4 = 1 ∨ dr.toNat % 4 = 2)
   ∧ s.dbgMay (dr.toNat % 4 == 2) (bits dr.toNat 45 2 * 4) = true) := by decide

/-- What clause 3 of DebugPortSteps asks of its state and operands is met here. -/
theorem witness_debugPortSteps_3b :
  (let dr : BitVec 78 := 1
   let s : State := (State.reset.wr Reg.DBG_STAT_LEVEL 2).wr Hid.tapIr 0x10
   s.rd Hid.tapIr = 0x10 ∧ s.on Hid.accBusy = false ∧ (dr.toNat % 4 = 1 ∨ dr.toNat % 4 = 2)
   ∧ s.dbgMay (dr.toNat % 4 == 2) (bits dr.toNat 45 2 * 4) = true) := by decide

/-- What clause 4 of DebugPortSteps asks of its state and operands is met here. -/
theorem witness_debugPortSteps_4 :
  (let s : State := (((State.reset.wr Hid.accBusy 1).wr Reg.DBG_STAT_LEVEL 2).wr Reg.SYS_BOOT_STAT_PHASE 5).wr Hid.accAddr (regBase + 0x10)
   let fab : Option Word := none
   let t : State := (s.accGo (s.rd Hid.accAddr) (s.on Hid.accWr) (s.rd Hid.accData) none).2.2
   let d : List Byte := (s.accGo (s.rd Hid.accAddr) (s.on Hid.accWr) (s.rd Hid.accData) none).2.1
   s.on Hid.accBusy = true ∧ s.accGo (s.rd Hid.accAddr) (s.on Hid.accWr) (s.rd Hid.accData) fab = (.ok, d, t)) := by decide

/-- What clause 5 of DebugPortSteps asks of its state and operands is met here. -/
theorem witness_debugPortSteps_5 :
  (let s : State := State.reset.wr Hid.accBusy 1
   s.on Hid.accBusy = true) := by decide

/-- What clause 6 of DebugPortSteps asks of its state and operands is met here. -/
theorem witness_debugPortSteps_6 :
  (let s : State := State.reset.wr Reg.DBG_SUP_CFG_EN 1
   s.on Reg.DBG_SUP_CFG_EN = true) := by decide

/-- What clause 7 of DebugPortSteps asks of its state and operands is met here. -/
theorem witness_debugPortSteps_7 :
  (let s : State := State.reset.wr Reg.DBG_SUP_CFG_EN 1
   s.on Reg.DBG_SUP_CFG_EN = true ∧ s.on Reg.DBG_STAT_SUP_PAUSED = false ∧ s.rd Reg.DBG_SUP_VAL ≤ 1
   ∧ s.on Reg.DBG_CTRL_ATTACH = false) := by decide

/-- What clause 8 of DebugPortSteps asks of its state and operands is met here. -/
theorem witness_debugPortSteps_8 :
  (let s : State := State.reset.wr Reg.DBG_STAT_LEVEL 2
   s.full = true) := by decide

/-- What clause 9 of DebugPortSteps asks of its state and operands is met here. -/
theorem witness_debugPortSteps_9 :
  (let s : State := State.reset
   s.on Reg.DBG_AUTH_STAT_BUSY = false ∧ s.on Reg.PEO_STAT_BUSY = false ∧ s.on Reg.PEO_STAT_TRNG_FAIL = false) := by decide

/-- What clause 10 of DebugPortSteps asks of its state and operands is met here. -/
theorem witness_debugPortSteps_10 :
  (let s : State := State.reset.wr Hid.chalV 1
   s.on Reg.DBG_AUTH_STAT_BUSY = false ∧ s.on Reg.PEO_STAT_BUSY = false ∧ s.on Hid.chalV = true) := by decide

/-- What clause 1 of CoreDebugSteps asks of its state and operands is met here. -/
theorem witness_coreDebugSteps_1 :
  (let s := (State.reset.wr Reg.DBG_STAT_LEVEL 2).wr (Reg.MIL_CORE_STAT_STATE 3) 2
   s.full = true ∧ 3 ∈ coresOf (8 : Fin 16) ∧ (∀ c ∈ coresOf (8 : Fin 16), s.coreLive c = true)) := by decide

/-- What clause 2 of CoreDebugSteps asks of its state and operands is met here. -/
theorem witness_coreDebugSteps_2 :
  (let c : Fin 4 := 3
   let s : State := ((State.reset.wr Reg.DBG_STAT_LEVEL 2).wr (Reg.MIL_CORE_STAT_STATE 3) 2).wr (Hid.haltWant 3) 1
   s.on (Hid.haltWant c) = true ∧ s.coreLive c = true) := by decide

/-- What clause 3 of CoreDebugSteps asks of its state and operands is met here. -/
theorem witness_coreDebugSteps_3 :
  (let m : Fin 16 := 8
   let s : State := (State.reset.wr Reg.DBG_STAT_LEVEL 2).wr (Reg.DBG_CORE_STAT_HALTED 3) 1
   s.full = true ∧ (∀ c ∈ coresOf m, s.halted c = true)) := by decide

/-- What clause 4 of CoreDebugSteps asks of its state and operands is met here. -/
theorem witness_coreDebugSteps_4 :
  (let c : Fin 4 := 3
   let k : Fin 8 := 7
   let p : Fin 3 := 2
   let s : State := ((State.reset.wr (Reg.MIL_CORE_STAT_STATE 3) 2).wr (Reg.DBG_BP_CTL_EN 3 7) 1).setB (Reg.DBG_BP_CTL_PRIV 3 7) 2
   s.coreLive c = true ∧ s.on (Reg.DBG_BP_CTL_EN c k) = true ∧ s.bitOf (Reg.DBG_BP_CTL_PRIV c k) p = true
   ∧ s.rd (Hid.haltWant c) ≠ 1) := by decide

/-- What clause 5 of CoreDebugSteps asks of its state and operands is met here. -/
theorem witness_coreDebugSteps_5 :
  (let c : Fin 4 := 3
   let w : Fin 4 := 2
   let a : DWord := 0
   let z : Fin 4 := 3
   let st : Bool := true
   let p : Fin 3 := 1
   let s : State := (((State.reset.wr (Reg.MIL_CORE_STAT_STATE 3) 2).wr (Reg.DBG_WP_CTL_EN 3 2) 1).setB (Reg.DBG_WP_CTL_PRIV 3 2) 1).wr (Reg.DBG_WP_CTL_STORE 3 2) 1
   s.coreLive c = true ∧ s.on (Reg.DBG_WP_CTL_EN c w) = true ∧ s.bitOf (Reg.DBG_WP_CTL_PRIV c w) p = true
   ∧ s.on (if st then Reg.DBG_WP_CTL_STORE c w else Reg.DBG_WP_CTL_LOAD c w) = true ∧ s.watchTouches c w a.toNat (2 ^ z.val) = true
   ∧ s.rd (Hid.haltWant c) ≠ 1) := by decide

/-- What clause 5 of CoreDebugSteps asks of its state and operands is met here. -/
theorem witness_coreDebugSteps_5b :
  (let c : Fin 4 := 3
   let w : Fin 4 := 2
   let a : DWord := 0
   let z : Fin 4 := 3
   let st : Bool := false
   let p : Fin 3 := 1
   let s : State := (((State.reset.wr (Reg.MIL_CORE_STAT_STATE 3) 2).wr (Reg.DBG_WP_CTL_EN 3 2) 1).setB (Reg.DBG_WP_CTL_PRIV 3 2) 1).wr (Reg.DBG_WP_CTL_LOAD 3 2) 1
   s.coreLive c = true ∧ s.on (Reg.DBG_WP_CTL_EN c w) = true ∧ s.bitOf (Reg.DBG_WP_CTL_PRIV c w) p = true
   ∧ s.on (if st then Reg.DBG_WP_CTL_STORE c w else Reg.DBG_WP_CTL_LOAD c w) = true ∧ s.watchTouches c w a.toNat (2 ^ z.val) = true
   ∧ s.rd (Hid.haltWant c) ≠ 1) := by decide

/-- What clause 6 of CoreDebugSteps asks of its state and operands is met here. -/
theorem witness_coreDebugSteps_6 :
  (let c : Fin 4 := 3
   let s : State := (State.reset.wr (Reg.MIL_CORE_STAT_STATE 3) 2).wr (Reg.DBG_CORE_CTRL_EBREAK_HALT 3) 1
   s.coreLive c = true ∧ s.on (Reg.DBG_CORE_CTRL_EBREAK_HALT c) = true ∧ s.rd (Hid.haltWant c) ≠ 1) := by decide

/-- What clause 8 of CoreDebugSteps asks of its state and operands is met here. -/
theorem witness_coreDebugSteps_8 :
  (let c : Fin 4 := 3
   let s : State := (State.reset.wr Reg.DBG_STAT_LEVEL 2).wr (Reg.DBG_CORE_STAT_HALTED 3) 1
   s.full = true ∧ s.halted c = true) := by decide

/-- What clause 8 of CoreDebugSteps asks of its state and operands is met here. -/
theorem witness_coreDebugSteps_8a :
  (let s := (State.reset.wr Reg.DBG_STAT_LEVEL 2).wr (Reg.DBG_CORE_STAT_HALTED 3) 1
   s.full = true ∧ s.halted 3 = true ∧ s.rd (Reg.DBG_CORE_REGSEL_SPACE 3) = 0 ∧ s.rd (Reg.DBG_CORE_REGSEL_NUM 3) = 0) := by decide

/-- What clause 8 of CoreDebugSteps asks of its state and operands is met here. -/
theorem witness_coreDebugSteps_8b :
  (let s := (State.reset.wr Reg.DBG_STAT_LEVEL 2).wr (Reg.DBG_CORE_STAT_HALTED 3) 1
   let s := s.wr (Reg.DBG_CORE_REGSEL_NUM 3) 31
   s.full = true ∧ s.halted 3 = true ∧ s.rd (Reg.DBG_CORE_REGSEL_SPACE 3) = 0 ∧ s.rd (Reg.DBG_CORE_REGSEL_NUM 3) = 31) := by decide

/-- What clause 8 of CoreDebugSteps asks of its state and operands is met here. -/
theorem witness_coreDebugSteps_8c :
  (let s := (State.reset.wr Reg.DBG_STAT_LEVEL 2).wr (Reg.DBG_CORE_STAT_HALTED 3) 1
   let s := (s.wr (Reg.DBG_CORE_REGSEL_NUM 3) 31).wr (Reg.DBG_CORE_REGSEL_SPACE 3) 1
   s.full = true ∧ s.halted 3 = true ∧ s.rd (Reg.DBG_CORE_REGSEL_SPACE 3) = 1 ∧ s.rd (Reg.DBG_CORE_REGSEL_NUM 3) = 31) := by decide

/-- What clause 8 of CoreDebugSteps asks of its state and operands is met here. -/
theorem witness_coreDebugSteps_8d :
  (let s := (State.reset.wr Reg.DBG_STAT_LEVEL 2).wr (Reg.DBG_CORE_STAT_HALTED 3) 1
   let s := (s.wr (Reg.DBG_CORE_REGSEL_NUM 3) 0x300).wr (Reg.DBG_CORE_REGSEL_SPACE 3) 2
   s.full = true ∧ s.halted 3 = true ∧ s.rd (Reg.DBG_CORE_REGSEL_SPACE 3) = 2
   ∧ csrExists (s.rd (Reg.DBG_CORE_REGSEL_NUM 3)) = true) := by decide

/-- Premises of StepRunsFrontCommand met together. -/
theorem witness_stepRunsFrontCommand_1 :
  State.reset.pending = [] ∧ State.reset.rd Reg.SYS_BOOT_STAT_PHASE < 2 := by decide

/-- Premises of StepRunsFrontCommand met together. -/
theorem witness_stepRunsFrontCommand_2 :
  (let s := State.reset.wr Reg.SYS_BOOT_STAT_PHASE 5
   2 ≤ s.rd Reg.SYS_BOOT_STAT_PHASE ∧ (∀ n < 80, s.on (Hid.rstAsked n) = false)) := by decide

/-- Premises of StepKeepsCanon met together. -/
theorem witness_stepKeepsCanon :
  (State.reset.mem = [] ∧ State.reset.cells = [] ∧ State.reset.records = [] ∧ Memory.wf State.reset.mem = true
   ∧ Tab.wf State.reset.cells = true ∧ State.reset.records.length ≤ 4096
   ∧ nextIs (step { State.reset with pending := [.methodApply] }) (fun _ => true) = true) := by decide

/-- Premises of PairHalves met together. -/
theorem witness_pairHalves_1 :
  (match blockRows 0x017 with
   | some (_, rows) => (match findRow rows 0xA0, findRow rows 0xA4 with
     | some (r, ix, false), some (r', ix', true) => r.pair && r.off == r'.off && ix == ix'
     | _, _ => false)
   | none => false) = true := by decide

/-- Premises of PairHalves met together. -/
theorem witness_pairHalves_2 :
  (match blockRows 0x00B with
   | some (_, rows) => (match findRow rows 0x108, findRow rows 0x10C with
     | some (r, ix, false), some (r', ix', true) => r.pair && r.off == r'.off && ix == ix'
     | _, _ => false)
   | none => false) = true := by decide

/-- Premises of PairHalves met together. -/
theorem witness_pairHalves_3 :
  Tab.find State.reset.loHeld (pairKey (masterCode .host) 0x00B 0x108) = none := by decide

/-- Premises of PairHalves met together: an entry of NOC_RT_ROUTE whose lower half is held. -/
theorem witness_pairHalves_4 :
  (match blockRows 0x008 with
   | some (_, rows) => (match findRow rows 0x20010, findRow rows 0x20014 with
     | some (r, ix, false), some (r', ix', true) => r.pair && r.hnd == .rtRoute && r'.off == r.off && ix == ix' && ix == [0, 1]
     | _, _ => false)
   | none => false) = true ∧ (State.reset.wr (Hid.rtStgSet 0 1) 1).on (Hid.rtStgSet 0 1) = true := by decide

/-- Premises of PowerLimitAndStaging met together. -/
theorem witness_powerLimitAndStaging_1 :
  (State.reset.astStop = false ∧ 150 < State.reset.rd Reg.AST_PWR_LIMIT_LIMIT) := by decide

/-- Premises of PowerLimitAndStaging met together. -/
theorem witness_powerLimitAndStaging_2 :
  (let s := State.reset.wr Reg.AST_PWR_LIMIT_LIMIT 150
   s.astStop = false ∧ s.rd Reg.AST_PWR_LIMIT_LIMIT ≤ 150 ∧ s.rd Hid.astLimPend = 0) := by decide

/-- Premises of PowerLimitAndStaging met together. -/
theorem witness_powerLimitAndStaging_3 :
  (let s := (State.reset.wr Reg.AST_PWR_LIMIT_LIMIT 150).wr Reg.AST_CTX_CTRL_STAGING 1
   s.astStop = false ∧ 150 < bits (151 : Word).toNat 8 0 ∧ bits (300 : Word).toNat 8 0 ≤ 300 ∧ s.on Reg.AST_CTX_CTRL_STAGING = true
   ∧ s.on Hid.swBusy = false ∧ (s.wr Hid.swBusy 1).on Hid.swBusy = true) := by decide

/-- Premises of SramVerdicts met together. -/
theorem witness_sramVerdicts :
  (let f (y : Nat) : State := State.reset.setWordInfo 0x1000000008 ⟨0, 0, y, 0⟩
   let g (y : Nat) : Nat := (f y).wordChk 0x1000000008 ^^^ codeOf 8 ((f y).wordStored 0x1000000008)
   g 0 = 0 ∧ g (2 ^ 7 + 256 * 2 ^ 7) = 2 ^ 7 + 256 * 2 ^ 7 ∧ g 1 = 2 ^ 0 ∧ g (256 * 2 ^ 7) = 256 * 2 ^ 7 ∧ g 3 < 2 ^ 16 ∧ g 3 ≠ 0
   ∧ (∀ j < 8, g 3 ≠ 2 ^ j ∧ g 3 ≠ 256 * 2 ^ j) ∧ (∀ j < 8, ∀ k < 8, g 3 ≠ 2 ^ j + 256 * 2 ^ k)) := by decide

/-- Premises of SingleErrorCorrected met together. -/
theorem witness_singleErrorCorrected :
  ((63 : Nat) < 64 ∧ (0 : Nat) < 64 ∧ (0 : Nat) ≠ 63) := by decide

/-- Premises of SramErrorLog met together. -/
theorem witness_sramErrorLog_1 :
  (State.reset.on Reg.SRM_ERR_INFO_VALID = false ∧ (State.reset.wr Reg.SRM_ERR_INFO_VALID 1).on Reg.SRM_ERR_INFO_VALID = true) := by decide

/-- Premises of SramErrorLog met together. -/
theorem witness_sramErrorLog_2 :
  (State.reset.setWordInfo 0x1000000008 ⟨0, 0, 3, 0⟩).wordVerdict 0x1000000008 = .bad := by decide

/-- Premises of SramErrorLog met together. -/
theorem witness_sramErrorLog_3 :
  ([none, some 1] : List (Option Byte)).all (fun m => m.isSome) = false := by decide

/-- Premises of ModeFieldsAtResets met together. -/
theorem witness_modeFieldsAtResets :
  (Reg.PRB_CAL_CTRL_MODE 3 ∈ [Reg.HBM_MODE_BW, Reg.HBM_MODE_SPARE, Reg.AST_CTX_CTRL_STAGING, Reg.SCB_BUDGET_PCT,
      Reg.AST_THR_CTRL_METHOD, Reg.PRB_CAL_CTRL_MODE (3 : Fin 4)]) := by decide

/-- Premises of CommandsOutOfState met together. -/
theorem witness_commandsOutOfState_1 :
  (State.reset.on (Reg.EVT_ROUTE_A_EN 41) = false ∧ (State.reset.wr Reg.DBG_STAT_LEVEL 1).full = false
   ∧ State.reset.on Reg.SRM_CTRL_TEST_EN = false) := by decide

/-- Premises of CommandsOutOfState met together. -/
theorem witness_commandsOutOfState_2 :
  ((0 : Nat) = 0 ∨ 4 < 0) ∧ ((5 : Nat) = 0 ∨ (4 : Nat) < 5) := by decide

/-- Premises of EventRaised met together. -/
theorem witness_eventRaised_1 :
  (State.reset.on (Reg.EVT_ROUTE_A_EN 1023) = false ∧ (0 : Fin 1024) ≠ 1023) := by decide

/-- Premises of EventRaised met together. -/
theorem witness_eventRaised_2 :
  (let s := ((State.reset.wr (Reg.EVT_ROUTE_A_EN 1023) 1).wr (Reg.EVT_ROUTE_A_MSIX_EN 1023) 1).wr Hid.msixEnable 1
   s.on (Reg.EVT_ROUTE_A_EN 1023) = true ∧ s.on (Reg.EVT_ROUTE_A_MSIX_EN 1023) = true
   ∧ s.on (Reg.EVT_ROUTE_B_FAB_EN 1023) = false ∧ s.on (Reg.EVT_ROUTE_B_TOUT_EN 1023) = false ∧ s.pend 1023 = false
   ∧ (s.raise 1023).pend 1023 = true ∧ s.rd (Reg.EVT_ROUTE_A_VECTOR 1023) = 0
   ∧ (s.wr (Hid.msixMask 0) 0).on (Hid.msixMask 0) = false ∧ (s.wr (Hid.msixMask 0) 1).on (Hid.msixMask 0) = true
   ∧ (s.wr Hid.msixFnMask 0).on Hid.msixFnMask = false ∧ s.on Hid.msixEnable = true) := by decide

/-- What clause 1 of FlowTableWrites asks of its state and operands is met here. -/
theorem witness_flowTableWrites_1 :
  (let w : Requester := .host
   let word : Nat := 0x201E80000
   let data : List DWord := [1]
   let errs : List (Fin 4 × SigErr) := []
   let s : State := State.reset.wr Reg.SYS_BOOT_STAT_PHASE 5
   let u : State := s.hubErrors errs
   w ≠ .marigold ∧ data ≠ [] ∧ overlaps (8 * word) (8 * data.length) 0x100F400000 0x200000 = true ∧ u.hubHeld = false
   ∧ 3 ≤ u.rd Reg.SYS_BOOT_STAT_PHASE) := by decide

/-- What clause 2 of FlowTableWrites asks of its state and operands is met here. -/
theorem witness_flowTableWrites_2 :
  (let w : Requester := .host
   let addr : Nat := 0x100F3FFFFF
   let data : List Byte := [1, 2]
   let errs : List (Fin 4 × SigErr) := [(0, ⟨0, 1⟩)]
   let s : State := State.reset.wr Reg.SYS_BOOT_STAT_PHASE 5
   let u : State := s.hubErrors errs
   w ≠ .marigold ∧ data ≠ [] ∧ overlaps addr data.length 0x100F400000 0x200000 = true ∧ u.hubHeld = false
   ∧ 3 ≤ u.rd Reg.SYS_BOOT_STAT_PHASE) := by decide

/-- What clause 4 of FlowTableWrites asks of its state and operands is met here. -/
theorem witness_flowTableWrites_4 :
  (let w : Requester := .host
   let addr : Nat := 0x100F5FFFF8
   let n : Nat := 8
   let errs : List (Fin 4 × SigErr) := []
   let s : State := State.reset.wr Reg.SYS_BOOT_STAT_PHASE 5
   let u : State := s.hubErrors errs
   0 < n ∧ 0x100F400000 ≤ addr ∧ addr + n ≤ 0x100F600000 ∧ (∀ k, w ≠ .millrace k) ∧ u.guard (u.req w 0) false addr n = none
   ∧ u.on Hid.hubFenced = false ∧ u.hubHeld = false ∧ 3 ≤ u.rd Reg.SYS_BOOT_STAT_PHASE
   ∧ (u.readUnits (u.req w 0) addr n).2.1 = .ok) := by decide

/-- What clause 3 of FlowTableWrites asks of its state and operands is met here. -/
theorem witness_flowTableWrites_3 :
  (let s := State.reset.wr Reg.SYS_BOOT_STAT_PHASE 5
   Requester.host ≠ .marigold
   ∧ nextIs (exec (.sramWrite .host 0 0x201E80000 [1] []) s) (fun t => t.byte 0x100F400000 == s.byte 0x100F400000) = true
   ∧ nextIs (exec (.sramMergeWrite .host 0 0x1000000009 [6] []) s) (fun t => t.byte 0x1000000009 == 6) = true) := by decide

/-- Premises of SramFrames met together. -/
theorem witness_sramFrames_1 :
  (nextIs (exec (.sramWrite .host 0 0x200000001 [5] []) State.reset) (fun t => t.byte 0x1000000008 == 5 && t.byte 0x1000000010 == 0) = true) := by decide

/-- Premises of SramFrames met together. -/
theorem witness_sramFrames_2 :
  (nextIs (exec (.sramMergeWrite .host 0 0x1000000009 [6] []) State.reset) (fun t => t.byte 0x1000000009 == 6) = true) := by decide

/-- Premises of SramFrames met together. -/
theorem witness_sramFrames_3 :
  (nextIs (exec (.sramWriteback 0x200000001) State.reset) (fun _ => true) = true) := by decide

/-- Premises of SramFrames met together. -/
theorem witness_sramFrames_4 :
  ((nextIs (exec .srmClrLog State.reset) (fun _ => true) = true) ∧ (nextIs (exec (.sramBucketLeak 80) State.reset) (fun _ => true) = true)
   ∧ nextIs (exec (.sramRead .host 0 0x1000000008 8 []) State.reset) (fun _ => true) = true) := by decide

/-- Premises of SramReadBack met together. -/
theorem witness_sramReadBack :
  ((match exec (.sramWrite .host 0 0x200000001 [5] []) State.reset with
    | .next t => t.last.res == .ok && (t.guard (t.req .host 0) false 0x1000000008 8).isNone
    | _ => false) = true) := by decide

/-- Premises of StoresNothing met together. -/
theorem witness_storesNothing :
  (nextIs (exec .overcurrent State.reset) (fun _ => true) = true) := by decide

end Sys2Proof
end

section

namespace Sys2Proof
open Machine

/-! ### The power limit and STAGING (R24) -/

theorem exec_astStagingWrite (b : Bool) (s : State) (h : s.astStop = false) :
    exec (.astStagingWrite b) s = .next (s.stagingSet (b2n b)) := by
  show Host.Outcome.next (s.astStaging (b2n b)) = _
  cases b <;> simp [State.astStaging, h, b2n]

theorem exec_astPwrLimitWrite (w : Word) (s : State) (h : s.astStop = false) (h1 : 120 ≤ bits w.toNat 8 0)
    (h2 : bits w.toNat 8 0 ≤ 300) : exec (.astPwrLimitWrite w) s = .next (s.limitSet (bits w.toNat 8 0)) := by
  show Host.Outcome.next (s.astPwrLimit w.toNat) = _
  simp [State.astPwrLimit, h, not_lt.2 h1, not_lt.2 h2]

theorem stagingSet_unstaged_above (s : State) (h : 150 < s.rd Reg.AST_PWR_LIMIT_LIMIT) : s.stagingSet 1 = s.deny 0x005 := by
  simp [State.stagingSet, h]

theorem stagingSet_unstaged_within (s : State) (h : s.rd Reg.AST_PWR_LIMIT_LIMIT ≤ 150) (hp : s.rd Hid.astLimPend = 0) :
    s.stagingSet 1 = s.wr Reg.AST_CTX_CTRL_STAGING 1 := by
  simp [State.stagingSet, hp, not_lt.2 h]

/-- The state in which a limit above 150 W has forced STAGED (R24). -/
def stageForced (s : State) : State := (s.wr Reg.AST_CTX_CTRL_STAGING 0).wr Reg.AST_STAT_STAGE_FORCED 1

theorem limitSet_unstaged_applies (s : State) (v : Nat) (hv : 150 < v) (hu : s.on Reg.AST_CTX_CTRL_STAGING = true)
    (hb : s.on Hid.swBusy = false) :
    s.limitSet v = ((stageForced s).wr Reg.AST_PWR_LIMIT_LIMIT v).wr Hid.astLimPend 0 := by
  simp [State.limitSet, stageForced, hv, hu, hb]

theorem limitSet_unstaged_waits (s : State) (v : Nat) (hv : 150 < v) (hu : s.on Reg.AST_CTX_CTRL_STAGING = true)
    (hb : s.on Hid.swBusy = true) : s.limitSet v = (stageForced s).wr Hid.astLimPend v := by
  simp [State.limitSet, stageForced, hv, hu, hb]

theorem stageForced_onlyFields {fs : List Fld} (s : State) (h1 : Reg.AST_CTX_CTRL_STAGING ∈ fs)
    (h2 : Reg.AST_STAT_STAGE_FORCED ∈ fs) : OnlyFields fs s (stageForced s) := ((OnlyFields.refl fs s).wr 0 h1).wr 1 h2

theorem stageForced_staging (s : State) : (stageForced s).rd Reg.AST_CTX_CTRL_STAGING = 0 := by
  rw [stageForced, State.rd_wr_ne _ _ (by decide), State.rd_wr_same]; rfl

theorem stageForced_forced (s : State) : (stageForced s).rd Reg.AST_STAT_STAGE_FORCED = 1 := State.rd_wr_same ..

theorem stageForced_limit (s : State) : (stageForced s).rd Reg.AST_PWR_LIMIT_LIMIT = s.rd Reg.AST_PWR_LIMIT_LIMIT := by
  rw [stageForced, State.rd_wr_ne _ _ (by decide), State.rd_wr_ne _ _ (by decide)]

theorem swEnd_applies_waiting_limit (s : State) (v : Nat) (h0 : v ≠ 0) (hv : v < 512) :
    (s.wr Hid.astLimPend v).swEnd.rd Reg.AST_PWR_LIMIT_LIMIT = v := by
  have hp : (((s.wr Hid.astLimPend v).wr Hid.swBusy 0).wr Hid.lanSetBusy 0).rd Hid.astLimPend = v := by
    rw [State.rd_wr_ne _ _ (by decide), State.rd_wr_ne _ _ (by decide), State.rd_wr_same]
    exact Nat.mod_eq_of_lt hv
  simp only [State.swEnd, hp, if_neg h0]
  rw [State.rd_wr_ne _ _ (by decide), State.rd_wr_same]
  exact Nat.mod_eq_of_lt hv

/-- Settles O50: each write is the one operation that R24 gives for its case, and the operation's writes are read off. -/
theorem powerLimitAndStaging : Obligations.PowerLimitAndStaging := by
  refine ⟨fun s hs hl => ?denied, fun s hs hl hp => ?taken, fun w s hs hlo hhi hu => ?forced⟩
  case denied =>
    have e : exec (.astStagingWrite true) s = .next (s.deny 0x005) :=
      (exec_astStagingWrite true s hs).trans (congrArg _ (stagingSet_unstaged_above s hl))
    exact ⟨e, _, e, (OnlyFields.refl _ s).wr _ (by simp)⟩
  case taken =>
    refine ⟨_, exec_astStagingWrite true s hs, ?_⟩
    rw [show b2n true = 1 from rfl, stagingSet_unstaged_within s hl hp]
    exact ⟨(OnlyFields.refl _ s).wr _ (by simp), State.rd_wr_same ..⟩
  case forced =>
    refine ⟨_, exec_astPwrLimitWrite w s hs (by omega) hhi, ?_⟩
    generalize bits w.toNat 8 0 = v at hlo hhi ⊢
    have hv : v % 2 ^ 9 = v := Nat.mod_eq_of_lt (by omega)
    have hf := stageForced_onlyFields (fs := [Reg.AST_CTX_CTRL_STAGING, Reg.AST_STAT_STAGE_FORCED, Reg.AST_PWR_LIMIT_LIMIT,
      Hid.astLimPend]) s (by simp) (by simp)
    cases hb : s.on Hid.swBusy with
    | false =>
      rw [limitSet_unstaged_applies s v hlo hu hb]
      have keep (g : Fld) (h1 : g.key ≠ Reg.AST_PWR_LIMIT_LIMIT.key) (h2 : g.key ≠ Hid.astLimPend.key) :
          (((stageForced s).wr Reg.AST_PWR_LIMIT_LIMIT v).wr Hid.astLimPend 0).rd g = (stageForced s).rd g := by
        rw [State.rd_wr_ne _ _ h2, State.rd_wr_ne _ _ h1]
      refine ⟨(hf.wr _ (by simp)).wr _ (by simp), ?_, ?_, fun _ => ?_, by simp⟩
      · rw [keep _ (by decide) (by decide), stageForced_staging]
      · rw [keep _ (by decide) (by decide), stageForced_forced]
      · rw [State.rd_wr_ne _ _ (by decide), State.rd_wr_same]
        exact hv
    | true =>
      rw [limitSet_unstaged_waits s v hlo hu hb]
      refine ⟨hf.wr _ (by simp), ?_, ?_, by simp, fun _ => ⟨?_, ?_, ?_⟩⟩
      · rw [State.rd_wr_ne _ _ (by decide), stageForced_staging]
      · rw [State.rd_wr_ne _ _ (by decide), stageForced_forced]
      · rw [State.rd_wr_ne _ _ (by decide), stageForced_limit]
      · rw [State.rd_wr_same]
        exact hv
      · exact swEnd_applies_waiting_limit _ v (by omega) (by omega)

end Sys2Proof
end

section

namespace Sys2Proof.Machine

/-! ### The six mode fields (R22, R26), and when a write leaves them -/

/-- The mode fields of R22: those of HBM, Aster and the scrubber, and the calibration mode of each probe port. -/
def modeFields : List Fld :=
  [Reg.HBM_MODE_BW, Reg.HBM_MODE_SPARE, Reg.AST_CTX_CTRL_STAGING, Reg.SCB_BUDGET_PCT, Reg.AST_THR_CTRL_METHOD,
    Reg.PRB_CAL_CTRL_MODE 0, Reg.PRB_CAL_CTRL_MODE 1, Reg.PRB_CAL_CTRL_MODE 2, Reg.PRB_CAL_CTRL_MODE 3]

/-- The values that the cells `c` give the mode fields. An operation that leaves the mode fields is one that leaves this list. -/
def modesIn (c : Tab Nat) : List Nat := modeFields.map fun f => Tab.getD c f.key f.rst % 2 ^ f.w

theorem rd_of_modesIn {s t : State} (h : modesIn t.cells = modesIn s.cells) {f : Fld} (hf : f ∈ modeFields) : t.rd f = s.rd f :=
  List.map_inj_left.1 h f hf

theorem modesIn_of_rd {s t : State} (h : ∀ f ∈ modeFields, t.rd f = s.rd f) : modesIn t.cells = modesIn s.cells :=
  List.map_congr_left h

/-- A field that stands where no mode field does. -/
def Fld.NoMode (f : Fld) : Prop := ∀ m ∈ modeFields, m.key ≠ f.key

/-- How a write is seen to leave the mode fields, in the proofs below by the discharger of `simp`: the name of the field written
unfolds to a place of block `b`, offset `o` and low bit `l` (R554), and arithmetic shows that no mode field stands there. -/
theorem noMode {f : Fld} {b o l : Nat} (e : f.key = (b * 1048576 + o) * 64 + l)
    (h : ∀ k, k = (b * 1048576 + o) * 64 + l → k ≠ 0x80000400 ∧ k ≠ 0x80000404 ∧ k ≠ 0x14000200 ∧ k ≠ 0x30000400
      ∧ k ≠ 0x14000500 ∧ k ≠ 0x40000800 ∧ k ≠ 0x44000800 ∧ k ≠ 0x48000800 ∧ k ≠ 0x4C000800) : f.NoMode := by
  obtain ⟨h1, h2, h3, h4, h5, h6, h7, h8, h9⟩ := h _ e
  simpa [Fld.NoMode, modeFields, cellKey, Reg.HBM_MODE_BW, Reg.HBM_MODE_SPARE, Reg.AST_CTX_CTRL_STAGING, Reg.SCB_BUDGET_PCT,
    Reg.AST_THR_CTRL_METHOD, Reg.PRB_CAL_CTRL_MODE, eq_comm] using ⟨h1, h2, h3, h4, h5, h6, h7, h8, h9⟩

/-- A range of places in which no mode field stands. -/
abbrev NoModeRange (lo hi : Nat) : Prop := ∀ m ∈ modeFields, ¬(lo ≤ m.key ∧ m.key < hi)

/-! ### Operations on cells, conditionals and iterations -/

theorem modesIn_delRange {lo hi : Nat} (h : NoModeRange lo hi) (c : Tab Nat) : modesIn (Tab.delRange c lo hi) = modesIn c :=
  List.map_congr_left fun m hm => by rw [Tab.getD_delRange, if_neg (h m hm)]

@[simp] theorem modesIn_ite (c : Prop) [Decidable c] (a b : State) :
    modesIn (if c then a else b).cells = if c then modesIn a.cells else modesIn b.cells := by split <;> rfl

theorem modesIn_foldl {α β : Type} (st : β → State) {f : β → α → β} {l : List α} {b : β}
    (h : ∀ a ∈ l, ∀ x, modesIn (st (f x a)).cells = modesIn (st x).cells) :
    modesIn (st (l.foldl f b)).cells = modesIn (st b).cells :=
  List.foldlRecOn l f (motive := fun x => modesIn (st x).cells = modesIn (st b).cells) rfl fun x hx a ha => (h a ha x).trans hx

theorem modesIn_each {α : Type} {f : α → State → State} {l : List α} {s : State}
    (h : ∀ a ∈ l, ∀ t, modesIn (f a t).cells = modesIn t.cells) : modesIn (State.each l f s).cells = modesIn s.cells :=
  modesIn_foldl id h

/-- What is known of the state that an operation returns beside its answer, where the answer has been taken apart. -/
theorem modesIn_of_eq_mk {α : Type} {x : α × State} {r : α} {t : State} {l : List Nat} (h : x = (r, t))
    (hx : modesIn x.2.cells = l) : modesIn t.cells = l := by rw [← hx, h]

section
variable (s : State)

@[simp] theorem modesIn_wr (f : Fld) (v : Nat) (h : f.NoMode) : modesIn (s.wr f v).cells = modesIn s.cells :=
  modesIn_of_rd fun m hm => State.rd_wr_ne s v (h m hm)

@[simp] theorem modesIn_clr (f : Fld) (h : f.NoMode) : modesIn (s.clr f).cells = modesIn s.cells :=
  modesIn_of_rd fun m hm => State.rd_clr_ne s (h m hm)

@[simp] theorem modesIn_wrIf (c : Bool) (f : Fld) (v : Nat) (h : f.NoMode) : modesIn (s.wrIf c f v).cells = modesIn s.cells := by
  simp [State.wrIf, h]

@[simp] theorem modesIn_inc (f : Fld) (n : Nat) (h : f.NoMode) : modesIn (s.inc f n).cells = modesIn s.cells := modesIn_wr s f _ h
@[simp] theorem modesIn_add (f : Fld) (n : Nat) (h : f.NoMode) : modesIn (s.add f n).cells = modesIn s.cells := modesIn_wr s f _ h
@[simp] theorem modesIn_setB (f : Fld) (i : Nat) (h : f.NoMode) : modesIn (s.setB f i).cells = modesIn s.cells := modesIn_wr s f _ h
@[simp] theorem modesIn_clrB (f : Fld) (i : Nat) (h : f.NoMode) : modesIn (s.clrB f i).cells = modesIn s.cells := modesIn_wr s f _ h
@[simp] theorem modesIn_wrFree (f : Fld) (h : f.NoMode) : modesIn (s.wrFree f).cells = modesIn s.cells := modesIn_wr _ f _ h

theorem modesIn_resetBlocks {lo hi : Nat} (h : NoModeRange (cellKey lo 0 0) (cellKey hi 0 0)) :
    modesIn (s.resetBlocks lo hi).cells = modesIn s.cells := modesIn_delRange h s.cells

@[simp] theorem modesIn_fresh : modesIn s.fresh.2.cells = modesIn s.cells := rfl
@[simp] theorem modesIn_discardBlocks (lo hi : Nat) : modesIn (s.discardBlocks lo hi).cells = modesIn s.cells := rfl
@[simp] theorem modesIn_discardMaster (m : Nat) : modesIn (s.discardMaster m).cells = modesIn s.cells := rfl

@[simp] theorem modesIn_emitPins (o : Out) : modesIn (s.emitPins o).cells = modesIn s.cells := by simp [State.emitPins]

@[simp] theorem modesIn_writeMem (l : List Byte) (a : Nat) : modesIn (s.writeMem a l).cells = modesIn s.cells := by
  induction l generalizing s a with
  | nil => rfl
  | cons b r ih => simp [State.writeMem, ih]

/-! ### Events, rejects and the journal (R10, R375 to R377, R489) -/

@[simp] theorem modesIn_enqueue (p : Pkt) : modesIn (s.enqueue p).cells = modesIn s.cells := by
  simp (disch := with_unfolding_all (refine noMode rfl ?_; omega)) [State.enqueue, State.niCounts]

/-- Of an event only the register that holds its pending bit depends on its number. -/
@[simp] theorem modesIn_raise (e : Nat) (h : (Reg.EVT_PEND (e / 32)).NoMode) : modesIn (s.raise e).cells = modesIn s.cells := by
  have hmsi (t : State) (v : Nat) : modesIn (t.msixSend v).cells = modesIn t.cells := by
    simp (disch := with_unfolding_all (refine noMode rfl ?_; omega)) [State.msixSend]
  have hfab (t : State) : modesIn (t.evtFab e).cells = modesIn t.cells := by
    simp [State.evtFab, State.sysPost]
  have htout (t : State) : modesIn (t.evtTout e).cells = modesIn t.cells := by
    simp (disch := with_unfolding_all (refine noMode rfl ?_; omega)) [State.evtTout, State.touPulse]
  simp [State.raise, hmsi, hfab, htout, h]

@[simp] theorem modesIn_raiseB (f : Fld) (i e : Nat) (hf : f.NoMode) (he : (Reg.EVT_PEND (e / 32)).NoMode) :
    modesIn (s.raiseB f i e).cells = modesIn s.cells := by
  rw [State.raiseB, modesIn_raise _ _ he, modesIn_setB _ _ _ hf]

@[simp] theorem modesIn_alarm (f : Fld) (h : f.NoMode) : modesIn (s.alarm f).cells = modesIn s.cells := by
  rw [State.alarm, modesIn_raise _ _ (noMode rfl (by omega)), modesIn_wr _ _ _ h]

@[simp] theorem modesIn_journal (kind detail : Nat) : modesIn (s.journal kind detail).cells = modesIn s.cells := by
  have hpc (c : Nat) (hc : c ∈ List.range 4) (t : State) : modesIn (t.corePc c).cells = modesIn t.cells := by
    have := List.mem_range.1 hc
    simp (disch := with_unfolding_all (refine noMode rfl ?_; omega)) [State.corePc]
  have hwith (t : State) (body : List Byte) : modesIn (t.journalWith kind detail body).cells = modesIn t.cells := by
    unfold State.journalWith
    split
    · simp (disch := with_unfolding_all (refine noMode rfl ?_; omega)) [State.telEvt]
    · exact (modesIn_wr _ _ _ (noMode rfl (by omega))).trans (modesIn_wr _ _ _ (noMode rfl (by omega)))
  rw [State.journal, hwith, modesIn_each hpc]

theorem modesIn_repairRecord (r : Nat) {t : State} (h : s.repairRecord r = some t) : modesIn t.cells = modesIn s.cells := by
  unfold State.repairRecord at h
  split at h
  · cases h; rfl
  · split at h
    · cases h
    · cases h
      simp (disch := with_unfolding_all (refine noMode rfl ?_; omega))

/-! ### Guards, buckets and error logs (R245 to R249, R459, R460) -/

theorem modesIn_guard {q : Req} {wr : Bool} {a n : Nat} {t : State} (h : s.guard q wr a n = some t) :
    modesIn t.cells = modesIn s.cells := by
  unfold State.guard at h
  split at h
  · cases h
    simp (disch := with_unfolding_all (refine noMode rfl ?_; omega))
  · split at h
    · cases h
      simp (disch := with_unfolding_all (refine noMode rfl ?_; omega)) [State.logProt]
    · cases h

@[simp] theorem modesIn_classErr (k : Nat) (ue : Bool) (h : (Reg.EVT_PEND ((145 + k) / 32)).NoMode) :
    modesIn (s.classErr k ue).cells = modesIn s.cells := by
  have hcount : modesIn (if ue then s.inc (Reg.TEL_CLS_UE k) 1 else s.inc (Reg.TEL_CLS_CE k) 1).cells = modesIn s.cells := by
    simp (disch := with_unfolding_all (refine noMode rfl ?_; omega))
  simp only [State.classErr, State.bucket, modesIn_ite]
  rw [modesIn_raise _ _ h]
  simp (disch := with_unfolding_all (refine noMode rfl ?_; omega)) [hcount]

@[simp] theorem modesIn_sramLog (kind a : Nat) (q : Req) : modesIn (s.sramLog kind a q).cells = modesIn s.cells := by
  simp (disch := with_unfolding_all (refine noMode rfl ?_; omega)) [State.sramLog]

@[simp] theorem modesIn_sramCe (b : Nat) : modesIn (s.sramCe b).cells = modesIn s.cells := by
  simp (disch := with_unfolding_all (refine noMode rfl ?_; omega)) [State.sramCe, State.bucket, State.srmEvt]

@[simp] theorem modesIn_rankTrip (r : Nat) : modesIn (State.rankTrip r s).cells = modesIn s.cells := by
  have hbad : modesIn ((s.hbmEvt 0).wr (Reg.HBM_RANK_BAD r) 1).cells = modesIn s.cells := by
    simp (disch := with_unfolding_all (refine noMode rfl ?_; omega)) [State.hbmEvt]
  simp only [State.rankTrip, modesIn_ite]
  split
  · cases hr : State.repairRecord ((s.hbmEvt 0).wr (Reg.HBM_RANK_BAD r) 1) (9 * 2 ^ 28 + r * 2 ^ 22 + r * 2 ^ 16) with
    | none => exact hbad
    | some t => exact (modesIn_repairRecord _ _ hr).trans hbad
  · simp (disch := with_unfolding_all (refine noMode rfl ?_; omega)) [State.hbmEvt]

@[simp] theorem modesIn_rankErr (r n : Nat) : modesIn (s.rankErr r n).cells = modesIn s.cells := by
  simp (disch := with_unfolding_all (refine noMode rfl ?_; omega)) [State.rankErr, State.bucket]

@[simp] theorem modesIn_hbmCe (r : Nat) : modesIn (s.hbmCe r).cells = modesIn s.cells := by
  simp (disch := with_unfolding_all (refine noMode rfl ?_; omega)) [State.hbmCe]

@[simp] theorem modesIn_hbmLog (kind a rank syn : Nat) (kmis keyV : Bool) (q : Req) :
    modesIn (s.hbmLog kind a rank syn kmis keyV q).cells = modesIn s.cells := by
  simp (disch := with_unfolding_all (refine noMode rfl ?_; omega)) [State.hbmLog]

@[simp] theorem modesIn_hbmUe (q : Req) (kind a : Nat) : modesIn (s.hbmUe q kind a).cells = modesIn s.cells := by
  have hevt (t : State) : modesIn (t.hbmEvt (if kind = 1 then 2 else 1)).cells = modesIn t.cells := by
    split <;> simp (disch := with_unfolding_all (refine noMode rfl ?_; omega)) [State.hbmEvt]
  simp (disch := with_unfolding_all (refine noMode rfl ?_; omega)) [State.hbmUe, State.hbmBad, hevt]

/-! ### Requests to SRAM and HBM (R244 to R252, R271 to R282) -/

@[simp] theorem modesIn_readWord (q : Req) (a : Nat) : modesIn (s.readWord q a).2.2.cells = modesIn s.cells := by
  unfold State.readWord
  split
  · rfl
  · exact modesIn_sramCe s _
  · simp (disch := with_unfolding_all (refine noMode rfl ?_; omega)) [State.sramUe, State.sramBad, State.srmEvt]

@[simp] theorem modesIn_putWord (x a v : Nat) : modesIn (s.putWord x a v).cells = modesIn s.cells := by
  simp [State.putWord, State.setWordInfo]

@[simp] theorem modesIn_mergeWord (q : Req) (a : Nat) (ms : List (Option Byte)) :
    modesIn (s.mergeWord q a ms).1.cells = modesIn s.cells := by
  unfold State.mergeWord
  split
  · simp
  · split
    · simp (disch := with_unfolding_all (refine noMode rfl ?_; omega)) [State.srmEvt]
    · simp only [modesIn_putWord]
      split
      · exact modesIn_sramCe s _
      · rfl

@[simp] theorem modesIn_countRd (a : Nat) : modesIn (s.countRd a).cells = modesIn s.cells := by
  simp (disch := with_unfolding_all (refine noMode rfl ?_; omega)) [State.countRd]

@[simp] theorem modesIn_countWr (a : Nat) : modesIn (s.countWr a).cells = modesIn s.cells := by
  simp (disch := with_unfolding_all (refine noMode rfl ?_; omega)) [State.countWr]

@[simp] theorem modesIn_readLine (q : Req) (a : Nat) : modesIn (s.readLine q a).2.2.cells = modesIn s.cells := by
  unfold State.readLine
  split <;> simp

@[simp] theorem modesIn_putLine (x a v : Nat) : modesIn (s.putLine x a v).cells = modesIn s.cells := by
  simp [State.putLine, State.setLineInfo]

@[simp] theorem modesIn_mergeLine (q : Req) (a : Nat) (ms : List (Option Byte)) :
    modesIn (s.mergeLine q a ms).1.cells = modesIn s.cells := by
  unfold State.mergeLine
  split
  · simp
  · dsimp only
    split
    · simp
    · simp only [modesIn_countWr, modesIn_putLine]
      split <;> simp

@[simp] theorem modesIn_openRows (wr : Bool) (a n : Nat) : modesIn (s.openRows wr a n).cells = modesIn s.cells := by
  unfold State.openRows
  split
  · rfl
  · exact modesIn_each fun u _ t => by simp [State.activate, State.queueWrite]

@[simp] theorem modesIn_readUnits (q : Req) (a n : Nat) : modesIn (s.readUnits q a n).2.2.cells = modesIn s.cells := by
  refine Eq.trans (modesIn_foldl (fun x : List Byte × MRes × State => x.2.2) fun u _ x => ?_) (modesIn_openRows s false a n)
  cases isSram a <;> simp

@[simp] theorem modesIn_writeUnits (q : Req) (a : Nat) (bs : List (Option Byte)) :
    modesIn (s.writeUnits q a bs).2.cells = modesIn s.cells := by
  refine Eq.trans (modesIn_foldl (fun x : MRes × State => x.2) fun u _ x => ?_) (modesIn_openRows s true a bs.length)
  dsimp only
  generalize unitPart _ a u bs = part
  by_cases hp : part.all (fun m => m.isNone) = true
  · rw [if_pos hp]
  · rw [if_neg hp]
    cases isSram a <;> simp

@[simp] theorem modesIn_bankGate (q : Req) (a b : Nat) : modesIn (s.bankGate q a b).2.cells = modesIn s.cells := by
  unfold State.bankGate
  dsimp only
  split_ifs <;> simp (disch := with_unfolding_all (refine noMode rfl ?_; omega))

@[simp] theorem modesIn_memGate (q : Req) (a n : Nat) : modesIn (s.memGate q a n).2.cells = modesIn s.cells := by
  have hbanks (l : List Nat) : modesIn (s.bankGates q a l).2.cells = modesIn s.cells :=
    modesIn_foldl (fun x : MRes × State => x.2) fun b _ x => modesIn_bankGate x.2 q a b
  unfold State.memGate
  split
  · rfl
  · split_ifs <;> simp [hbanks]
  · split_ifs <;> rfl
  · rfl

@[simp] theorem modesIn_memRead (q : Req) (a n : Nat) : modesIn (s.memRead q a n).2.2.cells = modesIn s.cells := by
  unfold State.memRead
  split
  next t h => exact modesIn_guard s h
  next =>
    split
    next t h => rw [modesIn_readUnits, modesIn_of_eq_mk h (modesIn_memGate s q a n)]
    next r t _ h => exact modesIn_of_eq_mk h (modesIn_memGate s q a n)

@[simp] theorem modesIn_memWrite (q : Req) (a : Nat) (bs : List Byte) : modesIn (s.memWrite q a bs).2.cells = modesIn s.cells := by
  unfold State.memWrite State.memWriteBe
  split
  next t h => exact modesIn_guard s h
  next =>
    split
    next t h =>
      have ht := modesIn_of_eq_mk h (modesIn_memGate _ _ _ _)
      split <;> simp [ht]
    next r t _ h => exact modesIn_of_eq_mk h (modesIn_memGate _ _ _ _)

/-! ### Hopper (R65 to R82) -/

theorem modesIn_stage (q f : Nat) (r : Rec) : modesIn (s.stage q f r).cells = modesIn s.cells := by
  have hbuf (t : State) (o : Nat) (bs : List Byte) : modesIn (t.bufWrite q o bs).2.cells = modesIn t.cells := by
    unfold State.bufWrite
    dsimp only
    split
    next u h =>
      have hu := modesIn_of_eq_mk h (modesIn_memWrite _ _ _ _)
      split <;> simp [hu]
    next r u _ h => exact modesIn_of_eq_mk h (modesIn_memWrite _ _ _ _)
  unfold State.stage
  dsimp only
  split
  · split
    next t h =>
      simp (disch := with_unfolding_all (refine noMode rfl ?_; omega)) [modesIn_of_eq_mk h (hbuf _ _ _)]
    next r t _ h =>
      simp (disch := with_unfolding_all (refine noMode rfl ?_; omega)) [modesIn_of_eq_mk h (hbuf _ _ _)]
  · simp (disch := with_unfolding_all (refine noMode rfl ?_; omega))

@[simp] theorem modesIn_closeOpen (q : Nat) (abort : Bool) : modesIn (s.closeOpen q abort).cells = modesIn s.cells := by
  unfold State.closeOpen
  split
  · rfl
  · simp (disch := with_unfolding_all (refine noMode rfl ?_; omega)) [State.closeRec, modesIn_stage]

@[simp] theorem modesIn_setOpen (q : Nat) (r : Rec) : modesIn (s.setOpen q r).cells = modesIn s.cells := rfl

@[simp] theorem modesIn_rowsRow (q : Nat) (d : DRow) : modesIn (s.rowsRow q d).cells = modesIn s.cells := by
  simp [State.rowsRow]

@[simp] theorem modesIn_fabricRow (q : Nat) (d : DRow) : modesIn (s.fabricRow q d).cells = modesIn s.cells := by
  unfold State.fabricRow
  dsimp only
  split <;> simp

@[simp] theorem modesIn_cl49Block (q : Nat) (d : DRow) (x : Slot) : modesIn (State.cl49Block q d s x).cells = modesIn s.cells := by
  unfold State.cl49Block
  dsimp only
  split_ifs
  · simp only [modesIn_setOpen, modesIn_closeOpen]
    split <;> rfl
  · split
    · simp only [modesIn_closeOpen]
      split <;> rfl
    · split <;> rfl
  · split <;> rfl
  · split <;> rfl

@[simp] theorem modesIn_hopPortDown (q : Nat) : modesIn (s.hopPortDown q).cells = modesIn s.cells := by
  have hrow (t : State) (d : DRow) : modesIn (t.hopRow q d).cells = modesIn t.cells := by
    have hfold : modesIn (d.row.slots.foldl (State.cl49Block q d) t).cells = modesIn t.cells :=
      modesIn_foldl id fun x _ u => modesIn_cl49Block u q d x
    simp [State.hopRow, hfold]
  simp only [State.hopPortDown, modesIn_closeOpen]
  exact modesIn_foldl id fun d _ t => hrow t d

theorem modesIn_flushOr {f : Nat} (hf : f < 16) (k : State → State) (hk : ∀ t, modesIn (k t).cells = modesIn t.cells) :
    modesIn (s.flushOr f k).cells = modesIn s.cells := by
  have hflush : modesIn (s.fileFlush f).2.cells = modesIn s.cells := by
    simp only [State.fileFlush]
    split <;> simp
  have hfault (t : State) : modesIn (t.fileFault f).cells = modesIn t.cells := by
    have hq (q : Nat) (_ : q ∈ [0, 1, 2, 3]) (u : State) :
        modesIn ((u.unstage q f).inc (Reg.HOP_DROP q) ((Tab.getD u.hopStage q []).filter fun r => r.file == f).length).cells
          = modesIn u.cells := by
      simp (disch := with_unfolding_all (refine noMode rfl ?_; omega)) [State.unstage]
    simp (disch := with_unfolding_all (refine noMode rfl ?_; omega)) [State.fileFault, modesIn_each hq]
  unfold State.flushOr
  split
  next t h => rw [hk, modesIn_of_eq_mk h hflush]
  next r t _ h => rw [hfault, modesIn_of_eq_mk h hflush]

@[simp] theorem modesIn_hopReset : modesIn s.hopReset.cells = modesIn s.cells := by
  have hfile (f : Nat) (hf : f ∈ List.range 16) (t : State) : modesIn (if t.rd (Reg.HOP_FILE_STAT_STATE f) = 1
      ∨ t.rd (Reg.HOP_FILE_STAT_STATE f) = 2 ∨ t.rd (Reg.HOP_FILE_STAT_STATE f) = 6 then t.flushOr f (fun u =>
        (u.wrIf (t.rd (Reg.HOP_FILE_STAT_STATE f) == 2) (Reg.HOP_FILE_STAT_POST_SHORT f) 1).wr (Reg.HOP_FILE_STAT_STATE f) 4)
      else t).cells = modesIn t.cells := by
    have hlt := List.mem_range.1 hf
    split
    · exact modesIn_flushOr t hlt _ fun u => by simp (disch := with_unfolding_all (refine noMode rfl ?_; omega))
    · rfl
  have hgrp : NoModeRange (cellKey Hid.grpHOP.1 0 0) (cellKey Hid.grpHOP.2 0 0) := by decide
  have hregs : NoModeRange (cellKey 0x014 0 0) (cellKey 0x014 0x400 0) := by decide
  unfold State.hopReset
  dsimp only
  show modesIn (Tab.delRange _ _ _) = _
  rw [modesIn_delRange hgrp, modesIn_delRange hregs, modesIn_each hfile]

/-! ### Runner (R94 to R104) -/

@[simp] theorem modesIn_runRead (key a n : Nat) : modesIn (s.runRead key a n).2.2.cells = modesIn s.cells := by
  have hread (x : List Byte × MRes × State) (hx : x = s.memRead (s.req .runner key) a n) :
      modesIn x.2.2.cells = modesIn s.cells := by
    rw [hx, modesIn_memRead]
  unfold State.runRead
  split
  · rfl
  · split
    next h => exact hread _ h.symm
    next h => exact hread _ h.symm
    next h => exact hread _ h.symm

@[simp] theorem modesIn_tplBackAll (c : Nat) (l : List Tpl) : modesIn (s.tplBackAll c l).cells = modesIn s.cells := by
  have hback (t : State) (x : Tpl) : modesIn (t.tplBack x).2.cells = modesIn t.cells := by
    unfold State.tplBack
    dsimp only
    split
    next u h => exact modesIn_of_eq_mk h (modesIn_memWrite _ _ _ _)
    next r u _ h =>
      have hu := modesIn_of_eq_mk h (modesIn_memWrite _ _ _ _)
      split
      next v h' => exact (modesIn_of_eq_mk h' (modesIn_memWrite _ _ _ _)).trans hu
      next r v _ h' => exact (modesIn_of_eq_mk h' (modesIn_memWrite _ _ _ _)).trans hu
  refine modesIn_each fun x _ t => ?_
  split
  next u h => exact modesIn_of_eq_mk h (hback t x)
  next u h => exact modesIn_of_eq_mk (t := u) h (hback t x)

@[simp] theorem modesIn_tplFlush (c : Nat) : modesIn (s.tplFlush c).cells = modesIn s.cells := by
  simp [State.tplFlush]

theorem modesIn_tplGet (l : List Tpl) (n : Nat) : modesIn (s.tplGet l n).2.cells = modesIn s.cells := by
  have hread (t : State) (a k : Nat) {r : MRes} {b : List Byte} {u : State} (h : t.runRead 0 a k = (r, b, u)) :
      modesIn u.cells = modesIn t.cells := by
    rw [← modesIn_runRead t 0 a k, h]
  unfold State.tplGet
  split
  · rfl
  · split
    next u h => exact hread _ _ _ h
    next r bs u _ h => simp [hread _ _ _ h]

theorem modesIn_lineCut {c : Nat} (hc : c < 4) : modesIn (s.lineCut c).cells = modesIn s.cells := by
  have hload (t : State) (n : Nat) : modesIn (t.tplLoad c n).2.cells = modesIn t.cells := by
    unfold State.tplLoad
    dsimp only
    split
    next u h => exact modesIn_of_eq_mk h (modesIn_tplGet _ _ _)
    next x u h => simp [modesIn_of_eq_mk h (modesIn_tplGet _ _ _)]
  have huncount (n : Nat) (t : State) : modesIn (t.chUncount c n).cells = modesIn t.cells := by
    have hframes : modesIn (t.wr (Reg.RUN_CH_FRAMES c) (t.rd (Reg.RUN_CH_FRAMES c) - 1)).cells = modesIn t.cells := by
      simp (disch := with_unfolding_all (refine noMode rfl ?_; omega))
    unfold State.chUncount
    dsimp only
    split
    next x u h => exact (modesIn_of_eq_mk h (hload _ n)).trans hframes
    next u h => exact (modesIn_of_eq_mk h (hload _ n)).trans hframes
  have hall (l : List Nat) : modesIn (State.each l (fun n u => u.chUncount c n) s).cells = modesIn s.cells :=
    modesIn_each fun n _ t => huncount n t
  simp (disch := with_unfolding_all (refine noMode rfl ?_; omega)) [State.lineCut, hall]

theorem modesIn_chCut {c : Nat} (hc : c < 4) (cause : Nat) : modesIn (s.chCut c cause).cells = modesIn s.cells := by
  simp (disch := with_unfolding_all (refine noMode rfl ?_; omega))
      [State.chCut, State.chFault, State.chLeave, modesIn_lineCut _ hc]

@[simp] theorem modesIn_runReset : modesIn s.runReset.cells = modesIn s.cells := by
  have hgrp : NoModeRange (cellKey Hid.grpRUN.1 0 0) (cellKey Hid.grpRUN.2 0 0) := by decide
  have hregs : NoModeRange (cellKey 0x016 0 0) (cellKey 0x016 0x80000 0) := by decide
  unfold State.runReset
  dsimp only
  show modesIn (Tab.delRange _ _ _) = _
  rw [modesIn_delRange hgrp, modesIn_delRange hregs, modesIn_each fun c _ t => modesIn_tplFlush t c]

/-! ### Lantern, Marigold and Millstone (R82, R94, R144, R347) -/

theorem modesIn_keeping {fs : List Fld} (h : ∀ f ∈ fs, f.NoMode) (op : State → State) :
    modesIn (State.keeping fs op s).cells = modesIn (op s).cells :=
  modesIn_foldl id fun f hf t => modesIn_wr t f _ (h f hf)

@[simp] theorem modesIn_lanReset : modesIn s.lanReset.cells = modesIn s.cells := by
  have hkeep : ∀ f ∈ (List.range 2).flatMap (fun l => (List.range 4).flatMap (fun k =>
      [Hid.rlkTrig l k, Hid.rlkTrigTx l k, Hid.rlkTrigNew l k, Hid.rlkTrigRx l k])) ++ [Hid.lanSetBusy, Hid.trigIn], f.NoMode := by
    unfold Fld.NoMode
    decide
  have hgrp : NoModeRange (cellKey Hid.grpLAN.1 0 0) (cellKey Hid.grpLAN.2 0 0) := by decide
  have hregs : NoModeRange (cellKey 0x015 0 0) (cellKey 0x016 0 0) := by decide
  rw [State.lanReset, modesIn_keeping s hkeep, modesIn_resetBlocks _ hgrp, modesIn_resetBlocks _ hregs]

@[simp] theorem modesIn_marReset : modesIn s.marReset.cells = modesIn s.cells := by
  have hgrp : NoModeRange (cellKey Hid.grpMAR.1 0 0) (cellKey Hid.grpMAR.2 0 0) := by decide
  have hregs : NoModeRange (cellKey 0x017 0 0) (cellKey 0x018 0 0) := by decide
  have hwipe (t : State) : modesIn t.marWipe.cells = modesIn t.cells := rfl
  have hinexact (t : State) : modesIn (State.each (List.range 8) (fun m t => t.wr (Reg.MAR_INEXACT m) 0) t).cells = modesIn t.cells :=
    modesIn_each fun m hm t => by
      have := List.mem_range.1 hm
      simp (disch := with_unfolding_all (refine noMode rfl ?_; omega))
  simp (disch := with_unfolding_all (refine noMode rfl ?_; omega))
      [State.marReset, State.marEmpty, modesIn_resetBlocks _ hregs, modesIn_resetBlocks _ hgrp, hwipe, hinexact]

@[simp] theorem modesIn_mstEngineReset : modesIn s.mstEngineReset.cells = modesIn s.cells := by
  simp (disch := with_unfolding_all (refine noMode rfl ?_; omega)) [State.mstEngineReset, State.streamCut]

/-! ### Probe ports (R26, R41, R59) -/

@[simp] theorem modesIn_prbUnlock (p : Nat) : modesIn (s.prbUnlock p).cells = modesIn s.cells := by
  have hlane (k : Nat) (t : State) : modesIn ((t.laneUnlock p k).wr (Hid.calPend p k) 0).cells = modesIn t.cells := by
    simp (disch := with_unfolding_all (refine noMode rfl ?_; omega)) [State.laneUnlock]
  simp (disch := with_unfolding_all (refine noMode rfl ?_; omega)) [State.prbUnlock, modesIn_each fun k _ t => hlane k t]

theorem modesIn_prbOff {p : Nat} (hp : p < 4) : modesIn (s.prbOff p).cells = modesIn s.cells := by
  have hgo (t : State) : modesIn (t.prbGo p 0).cells = modesIn t.cells := by
    simp (disch := with_unfolding_all (refine noMode rfl ?_; omega)) [State.prbGo, State.prbDown, modesIn_chCut _ hp]
  have hdrop (t : State) : modesIn (t.lineDrop p).cells = modesIn t.cells := rfl
  have hstop (t : State) : modesIn (t.txStop p).cells = modesIn t.cells := by
    simp (disch := with_unfolding_all (refine noMode rfl ?_; omega))
        [State.txStop, State.txOrigin, State.txSrcApply, hdrop, modesIn_chCut _ hp]
  have hsig (t : State) : modesIn (State.each lanes (fun k t => t.wr (Reg.PRB_LN_STAT_SIG_DET p k) 0) t).cells = modesIn t.cells :=
    modesIn_each fun k _ t => by simp (disch := with_unfolding_all (refine noMode rfl ?_; omega))
  simp (disch := with_unfolding_all (refine noMode rfl ?_; omega)) [State.prbOff, hgo, hstop, hsig]

/-- The registers of a probe port return to their reset values, but the port's mode field is kept (R26, R59). -/
theorem modesIn_keeping_resetBlocks_prb {p : Nat} (hp : p < 4) :
    modesIn (State.keeping [Reg.PRB_CAL_CTRL_MODE p] (fun t => t.resetBlocks (0x010 + p) (0x011 + p)) s).cells = modesIn s.cells := by
  have hplaces : ∀ f ∈ modeFields, f = Reg.PRB_CAL_CTRL_MODE p
      ∨ f.key ≠ (Reg.PRB_CAL_CTRL_MODE p).key ∧ ¬(cellKey (0x010 + p) 0 0 ≤ f.key ∧ f.key < cellKey (0x011 + p) 0 0) := by
    interval_cases p <;> decide
  refine modesIn_of_rd fun f hf => ?_
  show (State.wr _ (Reg.PRB_CAL_CTRL_MODE p) (s.rd (Reg.PRB_CAL_CTRL_MODE p))).rd f = s.rd f
  rcases hplaces f hf with rfl | ⟨hne, hout⟩
  · rw [State.rd_wr_same, Nat.mod_eq_of_lt (State.rd_lt s _)]
  · rw [State.rd_wr_ne _ _ hne, State.rd_resetBlocks, if_neg hout]

theorem modesIn_prbReset {p : Nat} (hp : p < 4) : modesIn (s.prbReset p).cells = modesIn s.cells := by
  have hlanes (t : State) : modesIn (State.each lanes (fun k t =>
      ((((t.wr (Hid.calPend p k) 0).wr (Hid.calIvals p k) 0).wr (Hid.laneIdle p k) 0).wr (Hid.lnCalAt p k) t.now)) t).cells
        = modesIn t.cells :=
    modesIn_each fun k _ t => by simp (disch := with_unfolding_all (refine noMode rfl ?_; omega))
  simp (disch := with_unfolding_all (refine noMode rfl ?_; omega))
      [State.prbReset, hlanes, modesIn_keeping_resetBlocks_prb _ hp, modesIn_prbOff _ hp]

/-! ### CORE reset (R321, R333, R545) -/

@[simp] theorem modesIn_uartKick (u : Nat) : modesIn (s.uartKick u).cells = modesIn s.cells := by
  simp (disch := with_unfolding_all (refine noMode rfl ?_; omega)) [State.uartKick]

@[simp] theorem modesIn_supPause : modesIn s.supPause.cells = modesIn s.cells := by
  simp (disch := with_unfolding_all (refine noMode rfl ?_; omega)) [State.supPause]

@[simp] theorem modesIn_milLevels : modesIn s.milLevels.cells = modesIn s.cells := by
  have hevt (t : State) {i : Nat} (hi : i < 18) : modesIn (t.milEvt i).cells = modesIn t.cells := by
    simp (disch := with_unfolding_all (refine noMode rfl ?_; omega)) [State.milEvt]
  have hmb (k : Nat) (_ : k ∈ List.range 16) (t : State) : modesIn (if s.mbLevel k
      && !t.pend (48 + (10 + s.rd (Reg.MIL_MB_CFG_RECV k))) then t.milEvt (10 + s.rd (Reg.MIL_MB_CFG_RECV k)) else t).cells
        = modesIn t.cells := by
    have hlt : s.rd (Reg.MIL_MB_CFG_RECV k) < 2 ^ 3 := State.rd_lt s _
    rw [modesIn_ite, hevt t (by omega), ite_self]
  unfold State.milLevels
  dsimp only
  rw [modesIn_ite, hevt _ (by omega), modesIn_each hmb, ite_self]

theorem modesIn_coreReset {c : Nat} (hc : c < 4) : modesIn (s.coreReset c).cells = modesIn s.cells := by
  have hsem (i : Nat) (hi : i ∈ List.range 64) (t : State) : modesIn (if s.on (Reg.SEM_OWNER_HELD i)
      && s.rd (Reg.SEM_OWNER_OWNER i) == 0x80 + c then t.semFree i else t).cells = modesIn t.cells := by
    have := List.mem_range.1 hi
    simp (disch := with_unfolding_all (refine noMode rfl ?_; omega)) [State.semFree]
  have hfreed := modesIn_each (s := s) hsem
  unfold State.coreReset
  dsimp only
  generalize State.each (List.range 64) _ s = u at hfreed ⊢
  simp (disch := with_unfolding_all (refine noMode rfl ?_; omega)) [State.fenceI, hfreed]

@[simp] theorem modesIn_milEngineReset : modesIn s.milEngineReset.cells = modesIn s.cells :=
  modesIn_each fun _ hc t => modesIn_coreReset t (List.mem_range.1 hc)

/-! ### Configuration and self-tests (R393, R426, R481) -/

@[simp] theorem modesIn_cfgAbort (cause : Nat) : modesIn (s.cfgAbort cause).cells = modesIn s.cells := by
  have habort (n : Nat) (t : State) : modesIn (State.abortIsland n t).cells = modesIn t.cells := by
    simp (disch := with_unfolding_all (refine noMode rfl ?_; omega)) [State.abortIsland]
  simp (disch := with_unfolding_all (refine noMode rfl ?_; omega))
      [State.cfgAbort, State.cfgForget, State.cfgEvt, modesIn_each fun n _ t => habort n t]

@[simp] theorem modesIn_cfgEngineReset : modesIn s.cfgEngineReset.cells = modesIn s.cells := by
  have hstat (t : State) : modesIn t.cfgFifoStat.cells = modesIn t.cells := by
    simp (disch := with_unfolding_all (refine noMode rfl ?_; omega)) [State.cfgFifoStat]
  simp (disch := with_unfolding_all (refine noMode rfl ?_; omega)) [State.cfgEngineReset, State.srcOff, hstat]

/-- The self-tests that an ENGINE reset aborts are those of the engines, a router, the Miller complex and Aster. -/
@[simp] theorem modesIn_bstEngineReset : modesIn s.bstEngineReset.cells = modesIn s.cells := by
  have hidx : s.rd Hid.bstIdx < 2 ^ 7 := State.rd_lt s _
  have hrtr (t : State) : modesIn (t.rtrActive (s.rd Hid.bstIdx)).cells = modesIn t.cells := by
    simp (disch := with_unfolding_all (refine noMode rfl ?_; omega)) [State.rtrActive, State.recEnd]
  have haborted (t : State) : modesIn t.bstAborted.cells = modesIn t.cells := by
    simp (disch := with_unfolding_all (refine noMode rfl ?_; omega)) [State.bstAborted]
  unfold State.bstEngineReset
  split
  next h =>
    have htgt : s.rd Hid.bstTgt = 0 ∨ s.rd Hid.bstTgt = 1 ∨ s.rd Hid.bstTgt = 7 ∨ s.rd Hid.bstTgt = 8 := by
      simp only [State.bstIs, Bool.or_eq_true, Bool.and_eq_true, beq_iff_eq] at h
      omega
    have heffect : modesIn (s.bstEffect (s.rd Hid.bstTgt) (s.rd Hid.bstIdx)).cells = modesIn s.cells := by
      rcases htgt with e | e | e | e <;> rw [e] <;> simp [State.bstEffect]
    simp (disch := with_unfolding_all (refine noMode rfl ?_; omega))
        [State.bstAbort, State.bstReject, State.rejMark, State.bstEvt, hrtr, haborted, heffect]
  next => rfl

/-! ### Switches, the network and islands (R163 to R180, R202, R301) -/

@[simp] theorem modesIn_swAbandon : modesIn s.swAbandon.cells = modesIn s.cells := by
  have hsw : modesIn (State.each (List.range 80) (fun n t => t.wr (Reg.ISL_STAT_SWITCHING n) 0) s).cells = modesIn s.cells :=
    modesIn_each fun n _ t => by simp (disch := with_unfolding_all (refine noMode rfl ?_; omega))
  simp (disch := with_unfolding_all (refine noMode rfl ?_; omega)) [State.swAbandon, State.swEnd, hsw]

@[simp] theorem modesIn_nocEngineReset : modesIn s.nocEngineReset.cells = modesIn s.cells :=
  modesIn_each fun k _ t => by simp (disch := with_unfolding_all (refine noMode rfl ?_; omega))

@[simp] theorem modesIn_fpCut (n : Nat) : modesIn (s.fpCut n).cells = modesIn s.cells := by
  have hremove (t : State) (tag : Nat) : modesIn (t.slvRemove n tag).cells = modesIn t.cells := by
    simp (disch := with_unfolding_all (refine noMode rfl ?_; omega)) [State.slvRemove, State.slvCount]
  have hanswer (t : State) (r : SlvReq) : modesIn (t.slvAnswer r 1 []).cells = modesIn t.cells := by
    unfold State.slvAnswer
    split
    · rfl
    · split
      · rfl
      · simp (disch := with_unfolding_all (refine noMode rfl ?_; omega)) [State.postLost, State.setPkt]
  unfold State.fpCut
  rw [modesIn_each fun r _ t => (hanswer _ r).trans (hremove t r.tag)]
  simp (disch := with_unfolding_all (refine noMode rfl ?_; omega))

@[simp] theorem modesIn_slcFlushAll (n : Nat) : modesIn (s.slcFlushAll n).cells = modesIn s.cells :=
  modesIn_each fun e _ t => modesIn_each fun b _ u => by
    simp (disch := with_unfolding_all (refine noMode rfl ?_; omega)) [State.slcFlush, State.setBank, State.slcStat]

@[simp] theorem modesIn_rlkFlush (n : Nat) : modesIn (s.rlkFlush n).cells = modesIn s.cells := by
  have htrig (l : Nat) (u : State) :
      modesIn (State.each (List.range 4) (fun k t => t.wr (Hid.rlkTrigNew l k) 0) u).cells = modesIn u.cells :=
    modesIn_each fun k _ u => by simp (disch := with_unfolding_all (refine noMode rfl ?_; omega))
  have hsend (t : State) (l : Nat) (ty : Fin 16) (n : Nat) (last : Bool) (x : BitVec 416) :
      modesIn (t.rlkSend l ty n last x).cells = modesIn t.cells := by
    simp (disch := with_unfolding_all (refine noMode rfl ?_; omega)) [State.rlkSend, htrig]
  have hidle (t : State) (l : Nat) : modesIn (t.rlkIdle l).cells = modesIn t.cells := by
    unfold State.rlkIdle
    split
    · exact hsend t l 0 0 false 0
    · rfl
  refine modesIn_each fun l _ t => modesIn_each fun c _ u => ?_
  simp (disch := with_unfolding_all (refine noMode rfl ?_; omega)) [State.setRlkRows, hidle]

@[simp] theorem modesIn_fabricReset (n c : Nat) : modesIn (s.fabricReset n c).cells = modesIn s.cells := by
  have hplane (k : Nat) (t : State) : modesIn ((t.wr (Hid.ff1 n k) (s.planeItem n k 3)).d2Clear n k).cells = modesIn t.cells := by
    simp (disch := with_unfolding_all (refine noMode rfl ?_; omega)) [State.d2Clear]
  simp (disch := with_unfolding_all (refine noMode rfl ?_; omega))
      [State.fabricReset, State.ioInit, modesIn_each fun k _ t => hplane k t]

@[simp] theorem modesIn_weirShut (n : Nat) : modesIn (s.weirShut n).cells = modesIn s.cells := by
  have hdrive (t : State) : modesIn (t.ioDrive n).cells = modesIn t.cells := by
    simp (disch := with_unfolding_all (refine noMode rfl ?_; omega)) [State.ioDrive]
  have hheld (t : State) : modesIn (State.each (List.range 3)
      (fun m t => t.wr (Hid.weirIoAt (n - 70) m) (t.rd (Reg.ISL_WEIR_IO n m))) t).cells = modesIn t.cells :=
    modesIn_each fun m _ t => by simp (disch := with_unfolding_all (refine noMode rfl ?_; omega))
  simp (disch := with_unfolding_all (refine noMode rfl ?_; omega)) [State.weirShut, hdrive, hheld]

@[simp] theorem modesIn_islandReset (n : Nat) (eng : Bool) : modesIn (s.islandReset n eng).cells = modesIn s.cells := by
  simp (disch := with_unfolding_all (refine noMode rfl ?_; omega)) [State.islandReset]

@[simp] theorem modesIn_islCtrlReset (n : Nat) : modesIn (s.islCtrlReset n).cells = modesIn s.cells := by
  unfold State.islCtrlReset
  rw [modesIn_each fun e _ t => by simp (disch := with_unfolding_all (refine noMode rfl ?_; omega))]
  simp (disch := with_unfolding_all (refine noMode rfl ?_; omega))

theorem modesIn_engineReset : modesIn s.engineReset.cells = modesIn s.cells := by
  have hprb (p : Nat) (hp : p ∈ [0, 1, 2, 3]) (t : State) : modesIn (t.prbReset p).cells = modesIn t.cells :=
    modesIn_prbReset t ((by decide : ∀ p ∈ [0, 1, 2, 3], p < 4) p hp)
  have hisl (n : Nat) (_ : n ∈ List.range 80) (t : State) : modesIn (if t.rd (Reg.ISL_STAT_STATE n) = 5 then
      ((t.slcFlushAll n).islCtrlReset n).wr (Reg.ISL_STAT_CUR_CTX n) 0 else (t.islandReset n true).islCtrlReset n).cells
        = modesIn t.cells := by
    simp (disch := with_unfolding_all (refine noMode rfl ?_; omega))
  unfold State.engineReset
  dsimp only
  rw [modesIn_each hisl]
  simp [modesIn_each hprb]

/-! ### DEVICE reset (R26, R437, R526, R538) -/

@[simp] theorem modesIn_coreResume (c : Nat) : modesIn (s.coreResume c).cells = modesIn s.cells := by
  have hsem (t : State) : modesIn (t.semHalted c false).cells = modesIn t.cells :=
    modesIn_each fun i hi u => by
      have := List.mem_range.1 hi
      simp (disch := with_unfolding_all (refine noMode rfl ?_; omega))
  simp (disch := with_unfolding_all (refine noMode rfl ?_; omega)) [State.coreResume, hsem]

@[simp] theorem modesIn_lcsApply : modesIn s.lcsApply.cells = modesIn s.cells := by
  have hresume (l : List Nat) (t : State) : modesIn (State.each l (fun c t => t.coreResume c) t).cells = modesIn t.cells :=
    modesIn_each fun c _ t => modesIn_coreResume t c
  have hbreaks (c : Nat) (_ : c ∈ List.range 4) (t : State) :
      modesIn (State.each (List.range 4) (fun k u => u.wr (Reg.DBG_WP_CTL_EN c k) 0) (State.each (List.range 8)
        (fun k u => u.wr (Reg.DBG_BP_CTL_EN c k) 0) (((t.wr (Reg.DBG_CORE_CTRL_EBREAK_HALT c) 0).wr
          (Reg.DBG_CORE_CTRL_HALT_ON_RESET c) 0).wr (Hid.haltWant c) 0))).cells = modesIn t.cells := by
    have hwp (u : State) : modesIn (State.each (List.range 4) (fun k u => u.wr (Reg.DBG_WP_CTL_EN c k) 0) u).cells = modesIn u.cells :=
      modesIn_each fun k _ u => by simp (disch := with_unfolding_all (refine noMode rfl ?_; omega))
    have hbp (u : State) : modesIn (State.each (List.range 8) (fun k u => u.wr (Reg.DBG_BP_CTL_EN c k) 0) u).cells = modesIn u.cells :=
      modesIn_each fun k _ u => by simp (disch := with_unfolding_all (refine noMode rfl ?_; omega))
    simp (disch := with_unfolding_all (refine noMode rfl ?_; omega)) [hwp, hbp]
  have hlevel (t : State) (l : Nat) : modesIn (t.setLevel l).cells = modesIn t.cells := by
    simp (disch := with_unfolding_all (refine noMode rfl ?_; omega))
        [State.setLevel, State.attached, State.dbgEvt, modesIn_each hbreaks, hresume]
  simp (disch := with_unfolding_all (refine noMode rfl ?_; omega)) [State.lcsApply, hlevel]

/-- A field that is at its reset value, or among those returned to it, is at its reset value after them. -/
theorem rd_foldl_clr {fs : List Fld} {g : Fld} (h : g ∈ fs ∨ s.rd g = g.rst % 2 ^ g.w) :
    (fs.foldl (fun t f => t.clr f) s).rd g = g.rst % 2 ^ g.w := by
  induction fs generalizing s with
  | nil => simpa using h
  | cons f r ih =>
    refine ih (s.clr f) ?_
    by_cases hk : g.key = f.key
    · exact .inr (by simp [State.rd, State.clr, hk, Tab.getD_del_same])
    · have hne : g ≠ f := fun e => hk (e ▸ rfl)
      simpa [State.rd_clr_ne s hk, hne] using h

/-- A DEVICE reset returns STAGING and METHOD to their reset values in the AUX domain, and leaves the other mode fields there. -/
theorem rd_auxReset {f : Fld} (hf : f ∈ modeFields)
    (h : f = Reg.AST_CTX_CTRL_STAGING ∨ f = Reg.AST_THR_CTRL_METHOD ∨ s.rd f = f.rst % 2 ^ f.w) :
    s.auxReset.rd f = f.rst % 2 ^ f.w := by
  have hisl (n : Nat) (_ : n ∈ List.range 80) (t : State) :
      modesIn (((t.clr (Hid.held n)).clr (Hid.thrShare n)).clr (Hid.declRun n)).cells = modesIn t.cells := by
    simp (disch := with_unfolding_all (refine noMode rfl ?_; omega))
  have hcore (c : Nat) (hc : c ∈ List.range 4) (t : State) :
      modesIn (((t.wr (Reg.DBG_CORE_STAT_HALTED c) 0).wr (Hid.haltWant c) 0).clrB Reg.DBG_STAT_HALTED c).cells = modesIn t.cells := by
    have := List.mem_range.1 hc
    simp (disch := with_unfolding_all (refine noMode rfl ?_; omega))
  unfold State.auxReset
  dsimp only
  rw [rd_of_modesIn ((modesIn_wr _ _ _ (noMode rfl (by omega))).trans ((modesIn_each hcore).trans (modesIn_each hisl))) hf]
  refine rd_foldl_clr s ?_
  rcases h with rfl | rfl | h
  · simp
  · simp
  · exact .inr h

/-- A field that the main reset does not keep has its reset value. -/
theorem rd_mainReset {keep : Nat → Bool} {f : Fld} (h : keep f.key = false) : (s.mainReset keep).rd f = f.rst % 2 ^ f.w := by
  show Tab.getD (List.filter (fun e => keep e.1) _) f.key f.rst % _ = _
  rw [Tab.getD, Tab.find_filter, h]
  rfl

theorem rd_deviceReset {f : Fld} (hf : f ∈ modeFields) (cause : Nat) : (s.deviceReset cause).rd f = f.rst := by
  have hkept : ∀ g ∈ modeFields, g = Reg.AST_CTX_CTRL_STAGING ∨ g = Reg.AST_THR_CTRL_METHOD
      ∨ (keptAlways g.key || keptAux g.key) = false := by decide
  have hrst : ∀ g ∈ modeFields, g.rst % 2 ^ g.w = g.rst := by decide
  have haux : (((s.journal 1 cause).mainReset fun k => keptAlways k || keptAux k).auxReset).rd f = f.rst % 2 ^ f.w :=
    rd_auxReset _ hf ((hkept f hf).imp_right fun h => h.imp_right (rd_mainReset _))
  rw [← hrst f hf, ← haux]
  exact rd_of_modesIn (by simp (disch := with_unfolding_all (refine noMode rfl ?_; omega)) [State.deviceReset]) hf

end
end Sys2Proof.Machine

namespace Sys2Proof
open Machine

/-- Settles O54: every operation that an ENGINE, ISLAND or CORE reset is made of leaves the mode fields; a DEVICE reset drops or
clears each of them. -/
theorem modeFieldsAtResets : Obligations.ModeFieldsAtResets := by
  have hmem : ∀ p : Fin 4, ∀ f ∈ [Reg.HBM_MODE_BW, Reg.HBM_MODE_SPARE, Reg.AST_CTX_CTRL_STAGING, Reg.SCB_BUDGET_PCT,
      Reg.AST_THR_CTRL_METHOD, Reg.PRB_CAL_CTRL_MODE p], f ∈ modeFields := by decide
  intro p f hp s
  have hf := hmem p f hp
  exact ⟨rd_deviceReset s hf, rd_of_modesIn (modesIn_engineReset s) hf, fun n e => rd_of_modesIn (modesIn_islandReset s n e) hf,
    fun c => rd_of_modesIn (modesIn_coreReset s c.isLt) hf⟩

end Sys2Proof
end

section

namespace Sys2Proof.Machine

/-! ### What leaves the bytes of memory -/

@[simp] theorem mem_ite (c : Prop) [Decidable c] (a b : State) :
    (if c then a else b).mem = if c then a.mem else b.mem := by split <;> rfl

theorem mem_foldl {α β : Type} (st : β → State) {f : β → α → β} {l : List α} {b : β}
    (h : ∀ a ∈ l, ∀ x, (st (f x a)).mem = (st x).mem) : (st (l.foldl f b)).mem = (st b).mem :=
  List.foldlRecOn l f (motive := fun x => (st x).mem = (st b).mem) rfl fun x hx a ha => (h a ha x).trans hx

theorem mem_each {α : Type} {f : α → State → State} {l : List α} {s : State} (h : ∀ a ∈ l, ∀ t, (f a t).mem = t.mem) :
    (State.each l f s).mem = s.mem :=
  mem_foldl id h

section
variable (s : State)

@[simp] theorem mem_inc (f : Fld) (n : Nat) : (s.inc f n).mem = s.mem := rfl
@[simp] theorem mem_setB (f : Fld) (i : Nat) : (s.setB f i).mem = s.mem := rfl
@[simp] theorem mem_wrFree (f : Fld) : (s.wrFree f).mem = s.mem := rfl

@[simp] theorem mem_enqueue (p : Pkt) : (s.enqueue p).mem = s.mem := by simp [State.enqueue, State.niCounts, State.add]

@[simp] theorem mem_raise (e : Nat) : (s.raise e).mem = s.mem := by
  simp [State.raise, State.msixSend, State.evtFab, State.sysPost, State.evtTout, State.touPulse]

@[simp] theorem mem_raiseB (f : Fld) (i e : Nat) : (s.raiseB f i e).mem = s.mem := mem_raise (s.setB f i) e

@[simp] theorem mem_journal (kind detail : Nat) : (s.journal kind detail).mem = s.mem := by
  have hpc (t : State) (c : Nat) : (t.corePc c).mem = t.mem := by simp [State.corePc]
  have hwith (t : State) (body : List Byte) : (t.journalWith kind detail body).mem = t.mem := by
    unfold State.journalWith
    split
    · simp [State.telEvt]
    · exact (State.wr_mem _ _ _).trans (State.wr_mem _ _ _)
  rw [State.journal, hwith, mem_each fun c _ t => hpc t c]

theorem mem_repairRecord {r : Nat} {t : State} (h : s.repairRecord r = some t) : t.mem = s.mem := by
  unfold State.repairRecord at h
  split_ifs at h <;> cases h <;> simp

@[simp] theorem mem_alarm (f : Fld) : (s.alarm f).mem = s.mem := mem_raise (s.wr f 1) 70

theorem mem_guard {q : Req} {wr : Bool} {a n : Nat} {t : State} (h : s.guard q wr a n = some t) : t.mem = s.mem := by
  unfold State.guard at h
  split_ifs at h <;> cases h <;> simp [State.logProt]

@[simp] theorem mem_classErr (k : Nat) (ue : Bool) : (s.classErr k ue).mem = s.mem := by
  simp [State.classErr, State.bucket]

@[simp] theorem mem_sramLog (kind a : Nat) (q : Req) : (s.sramLog kind a q).mem = s.mem := by simp [State.sramLog]

@[simp] theorem mem_sramCe (b : Nat) : (s.sramCe b).mem = s.mem := by simp [State.sramCe, State.bucket, State.srmEvt]

/-! ### The hub bundles (R213, R226 to R230) -/

@[simp] theorem mem_bunEvent (b : Bundle) (i : Nat) : (s.bunEvent b i).mem = s.mem := by simp [State.bunEvent]

@[simp] theorem mem_bunRecordWrite (b : Bundle) (g w kind : Nat) : (s.bunRecordWrite b g w kind).mem = s.mem := by
  unfold State.bunRecordWrite
  cases h : s.repairRecord (bunRecord b g w kind) with
  | none => rfl
  | some t => exact mem_repairRecord s h

@[simp] theorem mem_bunHalfEffect (b : Bundle) (g : Nat) : (s.bunHalfEffect b g).mem = s.mem := by
  cases b with
  | col => exact mem_each fun i _ t => mem_setB t _ i
  | _ => rfl

@[simp] theorem mem_bunFenceEffect (b : Bundle) (g : Nat) : (s.bunFenceEffect b g).mem = s.mem := by
  cases b with
  | riser r => simp [State.bunFenceEffect, mem_each (f := State.cfgFence) fun n _ t => rfl]
  | hub h => simp [State.bunFenceEffect]
  | col => exact mem_each fun i _ t => mem_setB t _ i
  | _ => rfl

@[simp] theorem mem_bunFence (b : Bundle) (g : Nat) : (s.bunFence b g).mem = s.mem := by simp [State.bunFence]

@[simp] theorem mem_bunDegrade (b : Bundle) (g : Nat) : (s.bunDegrade b g).mem = s.mem := by simp [State.bunDegrade]

@[simp] theorem mem_wireOut (b : Bundle) (e : WireErr) : (s.wireOut b e).mem = s.mem := by
  unfold State.wireOut
  rw [mem_bunDegrade, mem_ite]
  simp

@[simp] theorem mem_wireErr (b : Bundle) (e : SigErr) : (s.wireErr b e).mem = s.mem := by
  unfold State.wireErr
  split <;> simp [State.wireFail]

@[simp] theorem mem_hubErrors (l : List (Fin 4 × SigErr)) : (s.hubErrors l).mem = s.mem :=
  mem_each fun e _ t => mem_wireErr t (.hub e.1) e.2

/-! ### The banks' gates (R236, R256, R259) -/

@[simp] theorem mem_bankGate (q : Req) (a b : Nat) : (s.bankGate q a b).2.mem = s.mem := by
  unfold State.bankGate
  dsimp only
  split_ifs <;> simp

@[simp] theorem mem_memGate (q : Req) (a n : Nat) : (s.memGate q a n).2.mem = s.mem := by
  have hbanks (l : List Nat) : (s.bankGates q a l).2.mem = s.mem :=
    mem_foldl (fun x : MRes × State => x.2) fun b _ x => mem_bankGate x.2 q a b
  unfold State.memGate
  split
  · rfl
  · split_ifs <;> simp [hbanks]
  · split_ifs <;> rfl
  · rfl

/-! ### Writes to SRAM (R239, R248) -/

theorem length_leBytes (n x : Nat) : (leBytes n x).length = n := by
  induction n generalizing x with
  | zero => rfl
  | succ n ih => simp [leBytes, ih]

theorem length_leBytes_flatMap (data : List DWord) :
    (data.flatMap fun d => leBytes 8 d.toNat).length = 8 * data.length := by
  simp [List.length_flatMap, length_leBytes, Nat.mul_comm]

variable {s} in
theorem byte_of_mem {t : State} (h : t.mem = s.mem) (c : Nat) : t.byte c = s.byte c :=
  congrArg (fun m => Tab.getD m c memDefault) h

theorem byte_putWord_out (x a v : Nat) {c : Nat} (h : c < a ∨ a + 8 ≤ c) : (s.putWord x a v).byte c = s.byte c :=
  State.byte_writeMem_out s a (leBytes 8 v) c (by rwa [length_leBytes])

/-- A write of some bytes of a word leaves every byte outside the word (R248). -/
theorem byte_mergeWord_out (q : Req) (a : Nat) (ms : List (Option Byte)) {c : Nat} (h : c < a ∨ a + 8 ≤ c) :
    (s.mergeWord q a ms).1.byte c = s.byte c := by
  unfold State.mergeWord
  split
  · exact byte_putWord_out s _ _ _ h
  · split
    · exact byte_of_mem (by simp [State.srmEvt]) c
    · refine (byte_putWord_out _ _ _ _ h).trans (byte_of_mem ?_ c)
      split
      · exact mem_sramCe s _
      · rfl

/-- A unit that a request touches is aligned, and shares a byte with the request. -/
theorem unitsOf_word {a n u : Nat} (h : u ∈ unitsOf 8 a n) : u % 8 = 0 ∧ u < a + n ∧ a < u + 8 := by
  unfold unitsOf at h
  split at h
  · simp at h
  · obtain ⟨i, hi, rfl⟩ := List.mem_map.1 h
    have := List.mem_range.1 hi
    omega

/-- A write to SRAM leaves every byte outside the words that it touches. -/
theorem byte_writeUnits_out (q : Req) {a : Nat} (bs : List (Option Byte)) (ha : isSram a = true) {c : Nat}
    (h : ∀ u ∈ unitsOf 8 a bs.length, c < u ∨ u + 8 ≤ c) : (s.writeUnits q a bs).2.byte c = s.byte c := by
  simp only [State.writeUnits, ha, if_true, State.openRows]
  refine List.foldlRecOn _ _ (motive := fun x : MRes × State => x.2.byte c = s.byte c) rfl fun x hx u hu => ?_
  split
  · exact hx
  · exact (byte_mergeWord_out x.2 q u _ (h u hu)).trans hx

/-! ### The address map and the hub bank (R236, R259, R553) -/

theorem hbmTop_le : s.hbmTop ≤ 0x600000000 := by
  unfold State.hbmTop
  dsimp only
  split_ifs <;> decide

variable {s} in
theorem lt_of_rangeOf_bank {a b : Nat} (h : s.rangeOf a = some (.bank b)) : a < 0x100F000000 := by
  unfold State.rangeOf at h
  split_ifs at h with _ hbank <;> cases h
  exact hbank.2

theorem rangeOf_bank {a : Nat} (h : isSram a = true) (hb : a < 0x100F000000) :
    s.rangeOf a = some (.bank ((a - 0x1000000000) / 0x300000)) := by
  have htop := hbmTop_le s
  simp only [isSram, Bool.and_eq_true, decide_eq_true_eq] at h
  rw [State.rangeOf, if_neg (by omega), if_pos (by omega)]

theorem rangeOf_hub {a : Nat} (h : isSram a = true) (hb : 0x100F000000 ≤ a) : s.rangeOf a = some .hub := by
  have htop := hbmTop_le s
  simp only [isSram, Bool.and_eq_true, decide_eq_true_eq] at h
  rw [State.rangeOf, if_neg (by omega), if_neg (by omega), if_pos (by omega)]

/-- A request that begins in SRAM and lies in one range of the map lies in the island banks or in the hub bank. -/
theorem rangeOfReq_sram {a n : Nat} {r : Range} (ha : isSram a = true) (h : s.rangeOfReq a n = some r) :
    a + n ≤ 0x100F000000 ∨ r = .hub := by
  unfold State.rangeOfReq at h
  split at h
  next p e hp he =>
    split_ifs at h with hsame
    cases h
    rcases Nat.lt_or_ge a 0x100F000000 with hb | hb
    · rw [rangeOf_bank s ha hb] at hp
      cases hp
      cases e with
      | bank b =>
        have := lt_of_rangeOf_bank he
        omega
      | _ => cases hsame
    · rw [rangeOf_hub s ha hb] at hp
      exact .inr (Option.some.inj hp).symm
  next => cases h

/-- A request within the flow-table region lies in the hub bank. -/
theorem rangeOfReq_flowTables {a n : Nat} (hn : 0 < n) (ha : 0x100F400000 ≤ a) (he : a + n ≤ 0x100F600000) :
    s.rangeOfReq a n = some .hub := by
  have hsram (x : Nat) (h1 : a ≤ x) (h2 : x < a + n) : isSram x = true := by
    simp only [isSram, Bool.and_eq_true, decide_eq_true_eq]
    omega
  rw [State.rangeOfReq, rangeOf_hub s (hsram a (by omega) (by omega)) (by omega),
    rangeOf_hub s (hsram _ (by omega) (by omega)) (by omega)]
  rfl

theorem hubOneRegion_flowTables {a n : Nat} (ha : 0x100F400000 ≤ a) (he : a + n ≤ 0x100F600000) : hubOneRegion a n = true := by
  simp only [hubOneRegion, Bool.or_eq_true, Bool.and_eq_true, decide_eq_true_eq]
  omega

/-- A request to one region of the hub bank that touches the flow-table region lies within it. -/
theorem within_flowTables {a n : Nat} (h : hubOneRegion a n = true) (ho : overlaps a n 0x100F400000 0x200000 = true) :
    0x100F400000 ≤ a ∧ a + n ≤ 0x100F600000 := by
  simp only [hubOneRegion, overlaps, Bool.or_eq_true, Bool.and_eq_true, decide_eq_true_eq] at h ho
  simp only [secBase, secSize] at h
  omega

/-- What R236 lets a requester other than Marigold write in the hub bank does not touch the flow-table region. -/
theorem hubWritable_outside_flowTables {w : Requester} {key a n : Nat} (hw : w ≠ .marigold)
    (h : hubWritable (s.req w key) a n = true) : a + n ≤ 0x100F400000 ∨ 0x100F600000 ≤ a := by
  have hwho : ((s.req w key).path == 2 && (s.req w key).id == 2) = false := by
    cases w with
    | marigold => exact absurd rfl hw
    | _ => rfl
  simp only [hubWritable, Bool.and_assoc, hwho, Bool.and_false, Bool.or_false, Bool.or_eq_true, Bool.and_eq_true,
    decide_eq_true_eq] at h
  simp only [secBase, secSize] at h
  omega

/-! ### The gate of the hub bank -/

/-- While a working hub bundle is free and the phase KEYS is over, a request within the flow-table region does not wait (R224, R259):
it is refused over the Millrace, and where no hub bundle works. -/
theorem memGate_flowTables (q : Req) {a n : Nat} (hn : 0 < n) (ha : 0x100F400000 ≤ a) (he : a + n ≤ 0x100F600000)
    (hheld : s.hubHeld = false) (hphase : 3 ≤ s.rd Reg.SYS_BOOT_STAT_PHASE) :
    s.memGate q a n = (if s.on Hid.hubFenced || q.path == 1 then .err else .ok, s) := by
  have hsec : overlaps a n secBase secSize = false := by
    rw [overlaps, decide_eq_false (by unfold secBase secSize; omega), Bool.false_and]
  simp only [State.memGate, rangeOfReq_flowTables s hn ha he, hubOneRegion_flowTables ha he, hheld, hsec,
    decide_eq_false (Nat.not_lt.2 hphase), Bool.not_true, Bool.false_or, Bool.and_false]
  split <;> rfl

variable {s} in
theorem rangeOfReq_of_memGate_ok {q : Req} {a n : Nat} (h : (s.memGate q a n).1 = .ok) : ∃ r, s.rangeOfReq a n = some r := by
  cases hr : s.rangeOfReq a n with
  | none => simp [State.memGate, hr] at h
  | some r => exact ⟨r, rfl⟩

/-- Where a request to SRAM touches the flow-table region, the gate accepts it as one of the hub bank or ends it in a bus error: one
that goes beyond the region does not lie in one region of the hub bank (R553). -/
theorem memGate_touching_flowTables (q : Req) {a n : Nat} (hn : 0 < n) (ha : isSram a = true)
    (ho : overlaps a n 0x100F400000 0x200000 = true) (hheld : s.hubHeld = false) (hphase : 3 ≤ s.rd Reg.SYS_BOOT_STAT_PHASE) :
    s.memGate q a n = (.err, s) ∨ s.memGate q a n = (.ok, s) ∧ s.rangeOfReq a n = some .hub := by
  by_cases hone : hubOneRegion a n = true
  · obtain ⟨hlo, hhi⟩ := within_flowTables hone ho
    rw [memGate_flowTables s q hn hlo hhi hheld hphase]
    split
    · exact .inl rfl
    · exact .inr ⟨rfl, rangeOfReq_flowTables s hn hlo hhi⟩
  · left
    cases hr : s.rangeOfReq a n with
    | none => simp [State.memGate, hr]
    | some r =>
      rcases rangeOfReq_sram s ha hr with h | rfl
      · simp only [overlaps, Bool.and_eq_true, decide_eq_true_eq] at ho
        omega
      · simp [State.memGate, hr, hone]

/-! ### Writes by requesters other than Marigold (R108) -/

/-- A write to memory stores nothing, or the map and the hub bank's table permit it and it writes its units. -/
theorem memWrite_cases (q : Req) (a : Nat) (bs : List Byte) :
    (s.memWrite q a bs).2.mem = s.mem ∨ ∃ (t : State) (r : Range), t.mem = s.mem ∧ s.rangeOfReq a bs.length = some r
      ∧ (r = .hub → hubWritable q a bs.length = true) ∧ s.memWrite q a bs = t.writeUnits q a (bs.map some) := by
  unfold State.memWrite State.memWriteBe
  rw [List.length_map]
  split
  next t hg => exact .inl (mem_guard s hg)
  next =>
    have hmem := mem_memGate s q a bs.length
    split
    next t hg =>
      rw [hg] at hmem
      split
      next => exact .inl hmem
      next hp =>
        obtain ⟨r, hr⟩ := rangeOfReq_of_memGate_ok (congrArg Prod.fst hg)
        exact .inr ⟨t, r, hmem, hr, fun e => by simpa [hr, e] using hp, rfl⟩
    next r t _ hg =>
      rw [hg] at hmem
      exact .inl hmem

section
variable {w : Requester} (hw : w ≠ .marigold) (key : Nat) {a : Nat} (ha : isSram a = true) (bs : List Byte)
include hw ha

/-- No write of theirs changes a byte of the region. -/
theorem byte_memWrite_flowTables {c : Nat} (hlo : 0x100F400000 ≤ c) (hhi : c < 0x100F600000) :
    (s.memWrite (s.req w key) a bs).2.byte c = s.byte c := by
  rcases memWrite_cases s (s.req w key) a bs with h | ⟨t, r, ht, hr, hhub, e⟩
  · exact byte_of_mem h c
  · have hout : a + bs.length ≤ 0x100F400000 ∨ 0x100F600000 ≤ a := by
      rcases rangeOfReq_sram s ha hr with h | rfl
      · omega
      · exact hubWritable_outside_flowTables s hw (hhub rfl)
    rw [e]
    refine (byte_writeUnits_out t _ _ ha fun u hu => ?_).trans (byte_of_mem ht c)
    obtain ⟨halign, hend, hbegin⟩ := unitsOf_word hu
    rw [List.length_map] at hend
    omega

/-- A write of theirs that touches the region ends in a bus error and stores nothing. -/
theorem memWrite_touching_flowTables (hn : bs ≠ []) (ho : overlaps a bs.length 0x100F400000 0x200000 = true)
    (hheld : s.hubHeld = false) (hphase : 3 ≤ s.rd Reg.SYS_BOOT_STAT_PHASE) :
    (s.memWrite (s.req w key) a bs).1 = .err ∧ (s.memWrite (s.req w key) a bs).2.mem = s.mem := by
  have hdeny : hubWritable (s.req w key) a bs.length = false := by
    by_contra hp
    have := hubWritable_outside_flowTables s hw (Bool.eq_true_of_not_eq_false hp)
    simp only [overlaps, Bool.and_eq_true, decide_eq_true_eq] at ho
    omega
  unfold State.memWrite State.memWriteBe
  rw [List.length_map]
  split
  next t hg => exact ⟨rfl, mem_guard s hg⟩
  next =>
    rcases memGate_touching_flowTables s (s.req w key) (List.length_pos_iff.2 hn) ha ho hheld hphase with hg | ⟨hg, hr⟩
    · simp [hg]
    · simp [hg, hr, hdeny]

end

/-! ### The commands SRAM_READ, SRAM_WRITE and SRAM_MERGE_WRITE -/

theorem writeFor_mem (w : Requester) (key a : Nat) (bs : List Byte) :
    (s.writeFor w key a bs).mem = (s.memWrite (s.req w key) a bs).2.mem := by
  unfold State.writeFor
  split
  next r t h => rw [h]; split <;> rfl

theorem writeFor_res (w : Requester) (key a : Nat) (bs : List Byte) :
    (s.writeFor w key a bs).last.res = (s.memWrite (s.req w key) a bs).1 := by
  unfold State.writeFor
  split
  next r t h => rw [h]; split <;> rfl

/-- The state after a write of bytes to SRAM, with the wire errors that it meets: both write commands end in it. -/
def State.sramStore (s : State) (w : Requester) (key a : Nat) (bs : List Byte) (errs : List (Fin 4 × SigErr)) : State :=
  if isSram a then (s.hubErrors errs).writeFor w key a bs else s.answer .err []

theorem exec_sramRead_sram (w : Requester) (key : Fin 16) {addr : Nat} (ha : isSram addr = true) (n : Nat)
    (errs : List (Fin 4 × SigErr)) :
    exec (.sramRead w key addr n errs) s = .next ((s.hubErrors errs).readFor w key addr n) := by
  show Host.Outcome.next (if isSram addr then _ else _) = _
  rw [if_pos ha]

theorem exec_sramWrite_eq (w : Requester) (key : Fin 16) (word : Nat) (data : List DWord) (errs : List (Fin 4 × SigErr)) :
    exec (.sramWrite w key word data errs) s
      = .next (s.sramStore w key (8 * word) (data.flatMap fun d => leBytes 8 d.toNat) errs) := rfl

theorem exec_sramMergeWrite_eq (w : Requester) (key : Fin 16) (addr : Nat) (data : List Byte) (errs : List (Fin 4 × SigErr)) :
    exec (.sramMergeWrite w key addr data errs) s = .next (s.sramStore w key addr data errs) := rfl

section
variable {w : Requester} (hw : w ≠ .marigold) (key a : Nat) (bs : List Byte) (errs : List (Fin 4 × SigErr))
include hw

theorem byte_sramStore_flowTables {c : Nat} (hlo : 0x100F400000 ≤ c) (hhi : c < 0x100F600000) :
    (s.sramStore w key a bs errs).byte c = s.byte c := by
  unfold State.sramStore
  split
  next ha =>
    calc ((s.hubErrors errs).writeFor w key a bs).byte c
      _ = ((s.hubErrors errs).memWrite ((s.hubErrors errs).req w key) a bs).2.byte c := byte_of_mem (writeFor_mem _ w key a bs) c
      _ = (s.hubErrors errs).byte c := byte_memWrite_flowTables _ hw key ha bs hlo hhi
      _ = s.byte c := byte_of_mem (mem_hubErrors s errs) c
  next => rfl

theorem sramStore_touching_flowTables (hn : bs ≠ []) (ho : overlaps a bs.length 0x100F400000 0x200000 = true)
    (hheld : (s.hubErrors errs).hubHeld = false) (hphase : 3 ≤ (s.hubErrors errs).rd Reg.SYS_BOOT_STAT_PHASE) :
    (s.sramStore w key a bs errs).last.res = .err ∧ ∀ c, (s.sramStore w key a bs errs).byte c = s.byte c := by
  unfold State.sramStore
  split
  next ha =>
    obtain ⟨hres, hmem⟩ := memWrite_touching_flowTables (s.hubErrors errs) hw key ha bs hn ho hheld hphase
    exact ⟨(writeFor_res _ w key a bs).trans hres,
      byte_of_mem ((writeFor_mem _ w key a bs).trans (hmem.trans (mem_hubErrors s errs)))⟩
  next => exact ⟨rfl, fun c => rfl⟩

end

/-- A read that the protections and the gate let pass answers its words, where they are sound (R245). -/
theorem readFor_ok (w : Requester) (key : Nat) {a n : Nat} (hg : s.guard (s.req w key) false a n = none)
    (hgate : s.memGate (s.req w key) a n = (.ok, s)) (hok : (s.readUnits (s.req w key) a n).2.1 = .ok) :
    s.readFor w key a n = (s.readUnits (s.req w key) a n).2.2.answer .ok (s.readUnits (s.req w key) a n).1 := by
  simp only [State.readFor, State.memRead, hg, hgate, hok]

end
end Sys2Proof.Machine

namespace Sys2Proof
open Machine

/-- Settles O57: what a requester other than Marigold writes is refused by Peony, by the gate of the bank or by the table of R236, or
lies outside the region; a read within the region passes the same gate. -/
theorem flowTableWrites : Obligations.FlowTableWrites := by
  refine ⟨fun w key word data errs s u hw hn ho hu hheld hphase => ?whole,
    fun w key addr data errs s u hw hn ho hu hheld hphase => ?merge,
    fun w key word addr ds bs errs i s t hw hi h c hlo hhi => ?frame,
    fun w addr n errs s u hn hlo hhi hmr hu hguard hfence hheld hphase hok => ?read⟩
  case whole =>
    subst hu
    have hlen := length_leBytes_flatMap data
    have hne : (data.flatMap fun d => leBytes 8 d.toNat) ≠ [] := by
      have := List.length_pos_iff.2 hn
      exact List.ne_nil_of_length_pos (by omega)
    exact ⟨_, exec_sramWrite_eq s w key word data errs,
      sramStore_touching_flowTables s hw key _ _ errs hne (by rwa [hlen]) hheld hphase⟩
  case merge =>
    subst hu
    exact ⟨_, exec_sramMergeWrite_eq s w key addr data errs,
      sramStore_touching_flowTables s hw key addr data errs hn ho hheld hphase⟩
  case frame =>
    rcases hi with rfl | rfl
    · rw [exec_sramWrite_eq] at h
      cases h
      exact byte_sramStore_flowTables s hw key _ _ errs hlo hhi
    · rw [exec_sramMergeWrite_eq] at h
      cases h
      exact byte_sramStore_flowTables s hw key addr bs errs hlo hhi
  case read =>
    subst hu
    have hpath : ((s.hubErrors errs).req w 0).path ≠ 1 := by
      cases w with
      | millrace k => exact absurd rfl (hmr k)
      | _ => simp [State.req]
    have hgate := memGate_flowTables (s.hubErrors errs) ((s.hubErrors errs).req w 0) hn hlo hhi hheld hphase
    have hsram : isSram addr = true := by
      simp only [isSram, Bool.and_eq_true, decide_eq_true_eq]
      omega
    rw [exec_sramRead_sram s w 0 hsram n errs]
    exact congrArg _ (readFor_ok _ w 0 hguard (by simpa [hfence, hpath] using hgate) hok)

end Sys2Proof
end

section

namespace Sys2Proof.Machine

/-! ### Syndromes with one set bit -/

theorem bit_eq_testBit (x i : Nat) : bit x i = x.testBit i := by
  rw [Nat.testBit_eq_decide_div_mod_eq, bit, beq_eq_decide]

theorem eq_zero_of_popCount {n x : Nat} (hx : x < 2 ^ n) (h : popCount n x = 0) : x = 0 := by
  induction n generalizing x with
  | zero => omega
  | succ n ih =>
    simp only [popCount] at h
    have := ih (by omega) (show popCount n (x / 2) = 0 by omega)
    omega

theorem exists_two_pow_of_popCount {n x : Nat} (hx : x < 2 ^ n) (h : popCount n x = 1) : ∃ j < n, x = 2 ^ j := by
  induction n generalizing x with
  | zero => simp [popCount] at h
  | succ n ih =>
    have hhalf : x / 2 < 2 ^ n := by omega
    simp only [popCount] at h
    by_cases hodd : x % 2 = 1
    · have := eq_zero_of_popCount hhalf (by omega)
      exact ⟨0, by omega, by omega⟩
    · obtain ⟨j, hj, e⟩ := ih hhalf (by omega)
      exact ⟨j + 1, by omega, by omega⟩

theorem popCount_zero (n : Nat) : popCount n 0 = 0 := by
  induction n with
  | zero => rfl
  | succ n ih => simpa [popCount] using ih

theorem popCount_two_pow {n j : Nat} (hj : j < n) : popCount n (2 ^ j) = 1 := by
  induction n generalizing j with
  | zero => omega
  | succ n ih =>
    cases j with
    | zero => simp [popCount, popCount_zero]
    | succ j =>
      rw [popCount, Nat.pow_succ, Nat.mul_mod_left, Nat.mul_div_cancel _ Nat.two_pos, ih (by omega)]

theorem lowestBit_two_pow {n j : Nat} (hj : j < n) : lowestBit n (2 ^ j) = some j := by
  rw [lowestBit, List.find?_range_eq_some]
  refine ⟨by simp [bit_eq_testBit], List.mem_range.2 hj, fun i hi => ?_⟩
  rw [bit_eq_testBit, Nat.testBit_two_pow_of_ne (by omega)]
  rfl

@[simp] theorem oneBit_zero (n : Nat) : oneBit n 0 = none := by simp [oneBit, popCount_zero]

@[simp] theorem oneBit_two_pow {n j : Nat} (hj : j < n) : oneBit n (2 ^ j) = some j := by
  rw [oneBit, if_pos (popCount_two_pow hj), lowestBit_two_pow hj]

theorem two_pow_of_oneBit {n x j : Nat} (hx : x < 2 ^ n) (h : oneBit n x = some j) : j < n ∧ x = 2 ^ j := by
  by_cases hone : popCount n x = 1
  · obtain ⟨i, hi, rfl⟩ := exists_two_pow_of_popCount hx hone
    rw [oneBit_two_pow hi] at h
    cases h
    exact ⟨hi, rfl⟩
  · simp [oneBit, hone] at h

/-! ### The table of verdicts (R245) -/

@[simp] theorem verdict_clean (n : Nat) : verdict n 0 0 = .clean := rfl

theorem verdict_row_and_column {n j k : Nat} (hj : j < n) (hk : k < n) :
    verdict n (2 ^ j) (2 ^ k) = .fix (some (n * j + k)) := by
  simp [verdict, hj, hk]

theorem verdict_row {n j : Nat} (hj : j < n) : verdict n (2 ^ j) 0 = .fix none := by
  simp [verdict, hj]

theorem verdict_column {n k : Nat} (hk : k < n) : verdict n 0 (2 ^ k) = .fix none := by
  simp [verdict, hk]

/-- Every pair of syndromes that no other row of the table lists is uncorrectable. -/
theorem verdict_eq_bad {n sr sc : Nat} (hr : sr < 2 ^ n) (hc : sc < 2 ^ n) (hclean : ¬(sr = 0 ∧ sc = 0))
    (hrow : ∀ j < n, ¬(sr = 2 ^ j ∧ sc = 0)) (hcol : ∀ k < n, ¬(sr = 0 ∧ sc = 2 ^ k))
    (hboth : ∀ j < n, ∀ k < n, ¬(sr = 2 ^ j ∧ sc = 2 ^ k)) : verdict n sr sc = .bad := by
  rw [verdict, if_neg hclean]
  cases hj : oneBit n sr with
  | none =>
    cases hk : oneBit n sc with
    | none => rfl
    | some k =>
      obtain ⟨hkn, hsc⟩ := two_pow_of_oneBit hc hk
      exact if_neg fun h => hcol k hkn ⟨h, hsc⟩
  | some j =>
    obtain ⟨hjn, hsr⟩ := two_pow_of_oneBit hr hj
    cases hk : oneBit n sc with
    | none => exact if_neg fun h => hrow j hjn ⟨hsr, h⟩
    | some k =>
      obtain ⟨hkn, hsc⟩ := two_pow_of_oneBit hc hk
      exact absurd ⟨hsr, hsc⟩ (hboth j hjn k hkn)

/-! ### The two syndromes of a stored word, and its read (R245 to R247) -/

section
variable (s : State) (q : Req) {a : Nat}

/-- The row syndrome in the low 8 bits and the column syndrome above it: the stored check XOR the check recomputed. -/
def State.wordSyndromes (a : Nat) : Nat := s.wordChk a ^^^ codeOf 8 (s.wordStored a)

theorem wordVerdict_eq_verdict (a : Nat) :
    s.wordVerdict a = verdict 8 (s.wordSyndromes a % 256) (s.wordSyndromes a / 256) := by
  have hsyn : s.wordSyndromes a = (s.wordInfo a).syn := by
    rw [State.wordSyndromes, State.wordChk, Nat.xor_comm, ← Nat.xor_assoc, Nat.xor_self, Nat.zero_xor]
  rw [hsyn, State.wordVerdict]

theorem wordVerdict_of_syndromes {sr sc : Nat} (hr : sr < 256) (h : s.wordSyndromes a = sr + 256 * sc) :
    s.wordVerdict a = verdict 8 sr sc := by
  rw [wordVerdict_eq_verdict, h, show (sr + 256 * sc) % 256 = sr by omega, show (sr + 256 * sc) / 256 = sc by omega]

theorem readWord_clean (h : s.wordVerdict a = .clean) : s.readWord q a = (s.wordAs q.key a, false, s) := by
  simp only [State.readWord, h]

theorem readWord_bad (h : s.wordVerdict a = .bad) : s.readWord q a = (s.wordAs q.key a, true, s.sramUe q a) := by
  simp only [State.readWord, h]

/-- A correctable read inverts the data bit that the verdict names, if any; the bank counts it and the write-back is due (R246). -/
theorem readWord_fix {b : Option Nat} (h : s.wordVerdict a = .fix b) :
    (s.readWord q a).1 = b.elim (s.wordAs q.key a) (fun i => s.wordAs q.key a ^^^ 2 ^ i)
    ∧ (s.readWord q a).2.1 = false ∧ (s.readWord q a).2.2.wback.contains (a / 8) = true
    ∧ (s.readWord q a).2.2.cells = (s.sramCe (bankOf a)).cells := by
  unfold State.readWord
  rw [h]
  refine ⟨by cases b <;> rfl, rfl, ?_, rfl⟩
  dsimp only
  split
  next hdue => exact hdue
  next => simp

end

/-! ### The SRAM error log (R249) -/

section
variable (s : State) (k a : Nat) (q : Req)

theorem sramLog_of_empty (h : s.on Reg.SRM_ERR_INFO_VALID = false) :
    s.sramLog k a q = (((((s.wr Reg.SRM_ERR_INFO_VALID 1).wr Reg.SRM_ERR_INFO_KIND k).wr Reg.SRM_ERR_INFO_PATH q.path).wr
      Reg.SRM_ERR_INFO_KEY q.key).wr Reg.SRM_ERR_INFO_ID q.id).wr Reg.SRM_ERR_ADDR a := by
  simp [State.sramLog, h]

theorem sramLog_of_full (h : s.on Reg.SRM_ERR_INFO_VALID = true) : s.sramLog k a q = s.wr Reg.SRM_ERR_INFO_OVF 1 := by
  simp [State.sramLog, h]

/-- A write of some bytes, not all, of an uncorrectable word is refused: it is counted and logged with KIND MERGE (R248). -/
theorem mergeWord_refused {ms : List (Option Byte)} (hms : ms.all (fun m => m.isSome) = false) (h : s.wordVerdict a = .bad) :
    s.mergeWord q a ms = ((((s.inc (Reg.SRM_BANK_UE (bankOf a)) 1).sramLog 1 a q).srmEvt 2).classErr 1 true, false) := by
  simp [State.mergeWord, hms, h]

theorem on_srmClrLog_valid : s.srmClrLog.on Reg.SRM_ERR_INFO_VALID = false := by
  simp (disch := decide) [State.srmClrLog, State.on, State.rd_wr_ne, State.rd_wr_same]

theorem on_srmClrLog_ovf : s.srmClrLog.on Reg.SRM_ERR_INFO_OVF = false := by
  simp (disch := decide) [State.srmClrLog, State.on, State.rd_wr_ne, State.rd_wr_same]

end
end Sys2Proof.Machine

namespace Sys2Proof
open Machine

/-- Settles O51: the syndromes give the row of the table of R245, and each kind of verdict is one way to read. -/
theorem sramVerdicts : Obligations.SramVerdicts := by
  intro q a s y
  have hy : s.wordSyndromes a = y := rfl
  have hlt : ∀ j < 8, 2 ^ j < 256 := by decide
  refine ⟨fun h => ?clean, fun j hj k hk h => ?both, fun j hj h => ?check, fun hw h0 hone hboth => ?bad⟩
  case clean => exact readWord_clean s q ((wordVerdict_of_syndromes s (by decide) (hy.trans h)).trans (verdict_clean 8))
  case both =>
    exact readWord_fix s q ((wordVerdict_of_syndromes s (hlt j hj) (hy.trans h)).trans (verdict_row_and_column hj hk))
  case check =>
    have hv : s.wordVerdict a = .fix none := by
      rcases h with h | h
      · exact (wordVerdict_of_syndromes s (sc := 0) (hlt j hj) (hy.trans h)).trans (verdict_row hj)
      · exact (wordVerdict_of_syndromes s (sr := 0) (by decide) (by omega)).trans (verdict_column hj)
    exact readWord_fix s q hv
  case bad =>
    refine readWord_bad s q ((wordVerdict_eq_verdict s a).trans ?_)
    rw [hy]
    exact verdict_eq_bad (by omega) (by omega) (by omega) (fun j hj h => (hone j hj).1 (by omega))
      (fun k hk h => (hone k hk).2 (by omega)) (fun j hj k hk h => hboth j hj k hk (by omega))

/-- Settles O53: the log is written by `sramLog` alone, which its VALID bit guards, and CLR_LOG clears that bit. -/
theorem sramErrorLog : Obligations.SramErrorLog := by
  refine ⟨fun s => ⟨_, rfl, on_srmClrLog_valid s, on_srmClrLog_ovf s⟩, fun k a q s h => ?first, fun k a q s h => ?later,
    fun a q s h => ⟨?read, fun ms hms => mergeWord_refused s a q hms h⟩⟩
  case first =>
    rw [sramLog_of_empty s k a q h]
    simp (disch := decide) only [State.rd_wr_ne, State.rd_wr_same, and_true]
    rfl
  case later =>
    rw [sramLog_of_full s k a q h]
    exact ⟨(OnlyFields.refl _ s).wr 1 (by simp), State.rd_wr_same ..⟩
  case read => rw [readWord_bad s q h, State.sramUe, State.sramBad]

end Sys2Proof
end

section

namespace Sys2Proof.Machine

/-! ### What raising an event changes (R375, R376) -/

@[simp] theorem bit_setBit (x i : Nat) : bit (setBit x i) i = true := by
  simp [bit_eq_testBit, setBit]

/-- No field of the blocks 0x000 to 0x007 stands in a block from 0x008 on (R554). -/
theorem key_ne_of_low {g : Fld} (hg : g.key < cellKey 0x008 0 0) {b : Nat} (hb : 0x008 ≤ b) (o l : Nat) : g.key ≠ cellKey b o l := by
  simp only [cellKey] at hg ⊢
  omega

section
variable (s : State)

/-- A set bit of a field is read back where it is within the field's width. -/
theorem bitOf_setB (f : Fld) {i : Nat} (h : i < f.w) : (s.setB f i).bitOf f i = true := by
  rw [State.bitOf, State.setB, State.rd_wr_same, bit_eq_testBit, Nat.testBit_mod_two_pow, ← bit_eq_testBit]
  simp [h]

/-- The delivery of an event writes no field of the blocks 0x000 to 0x007: what it writes stands in the network's block, in an
island's or among the hidden fields. -/
theorem rd_msixSend_low {g : Fld} (hg : g.key < cellKey 0x008 0 0) (v : Nat) : (s.msixSend v).rd g = s.rd g := by
  unfold State.msixSend
  split
  · exact State.rd_wr_ne s _ (key_ne_of_low hg (by decide) _ _)
  · rfl

theorem rd_evtFab_low {g : Fld} (hg : g.key < cellKey 0x008 0 0) (e : Nat) : (s.evtFab e).rd g = s.rd g := by
  have hcounts (t : State) : (State.niCounts 89 t).rd g = t.rd g := by
    simp only [State.niCounts]
    rw [if_neg (by omega), State.rd_wr_ne _ _ (key_ne_of_low hg (by decide) _ _), State.rd_wr_ne _ _ (key_ne_of_low hg (by decide) _ _)]
  unfold State.evtFab
  split
  · rfl
  · exact (hcounts _).trans (State.rd_wr_ne _ _ (key_ne_of_low hg (by decide) _ _))

theorem rd_evtTout_low {g : Fld} (hg : g.key < cellKey 0x008 0 0) (e : Nat) : (s.evtTout e).rd g = s.rd g := by
  unfold State.evtTout State.touPulse
  dsimp only
  split
  · rw [State.rd_wr_ne _ _ (key_ne_of_low hg (by decide) _ _), State.rd_wr_ne _ _ (key_ne_of_low hg (by decide) _ _)]
  · rfl

theorem raise_disabled {e : Nat} (h : s.on (Reg.EVT_ROUTE_A_EN e) = false) : s.raise e = s.setB (Reg.EVT_PEND (e / 32)) (e % 32) := by
  simp [State.raise, h]

/-- In the blocks 0x000 to 0x007 an event sets its pending bit and changes nothing else. -/
theorem rd_raise_low {g : Fld} (hg : g.key < cellKey 0x008 0 0) (e : Nat) :
    (s.raise e).rd g = (s.setB (Reg.EVT_PEND (e / 32)) (e % 32)).rd g := by
  cases hen : s.on (Reg.EVT_ROUTE_A_EN e) with
  | false => rw [raise_disabled s hen]
  | true =>
    simp only [State.raise, hen, Bool.not_true, Bool.false_eq_true, if_false]
    rw [rd_evtTout_low _ hg, rd_evtFab_low _ hg]
    split
    · exact rd_msixSend_low _ hg _
    · rfl

theorem rd_raise_low_ne {g : Fld} (hg : g.key < cellKey 0x008 0 0) {e : Nat} (hne : g.key ≠ (Reg.EVT_PEND (e / 32)).key) :
    (s.raise e).rd g = s.rd g := (rd_raise_low s hg e).trans (State.rd_wr_ne s _ hne)

theorem pend_raise {e : Nat} (he : e < 1024) : (s.raise e).pend e = true := by
  have hlow : (Reg.EVT_PEND (e / 32)).key < cellKey 0x008 0 0 := by simp only [Reg.EVT_PEND, cellKey]; omega
  have hset := bitOf_setB s (Reg.EVT_PEND (e / 32)) (show e % 32 < 32 from Nat.mod_lt e (by decide))
  rw [State.bitOf] at hset
  rw [State.pend, State.bitOf, rd_raise_low s hlow, hset]

/-! ### A rejected command of Aster (R10, R524, R525) -/

theorem astReject_eq (c : Nat) : s.astReject c = ((s.rejMark 0x005 c).setB Reg.AST_EVT_EVT 7).raise 41 := rfl

/-- A field that stands apart from those that a reject writes. -/
theorem rd_astReject_ne {g : Fld} (hlow : g.key < cellKey 0x008 0 0) (hevt : g.key ≠ Reg.AST_EVT_EVT.key)
    (hpend : g.key ≠ (Reg.EVT_PEND 1).key) (c : Nat) : (s.astReject c).rd g = (s.rejMark 0x005 c).rd g := by
  rw [astReject_eq, rd_raise_low_ne _ hlow hpend, State.setB, State.rd_wr_ne _ _ hevt]

theorem astReject_cmdReject (c : Nat) : (s.astReject c).rd (Stat.cmdReject 0x005) = 1 := by
  rw [rd_astReject_ne s (by decide) (by decide) (by decide), State.rejMark, State.rd_wr_ne _ _ (by decide), State.rd_wr_same]
  rfl

theorem astReject_rejCode (c : Nat) : (s.astReject c).rd (Stat.rejCode 0x005) = c % 256 := by
  rw [rd_astReject_ne s (by decide) (by decide) (by decide), State.rejMark, State.rd_wr_same]
  rfl

theorem astReject_pend (c : Nat) : (s.astReject c).pend 41 = true := by
  rw [astReject_eq]
  exact pend_raise _ (by decide)

/-- Where event 41 is not enabled, a reject writes its two status fields, the event bit and the pending bit. -/
theorem astReject_onlyFields (c : Nat) (h : s.on (Reg.EVT_ROUTE_A_EN 41) = false) :
    OnlyFields [Stat.cmdReject 0x005, Stat.rejCode 0x005, Reg.AST_EVT_EVT, Reg.EVT_PEND 1] s (s.astReject c) := by
  have hen : ((s.rejMark 0x005 c).setB Reg.AST_EVT_EVT 7).on (Reg.EVT_ROUTE_A_EN 41) = false := by
    rw [← h]
    simp (disch := decide) only [State.on, State.setB, State.rejMark, State.rd_wr_ne]
  rw [astReject_eq, raise_disabled _ hen]
  exact ((((OnlyFields.refl _ s).wr _ (by simp)).wr _ (by simp)).setB _ (by simp)).setB _ (by simp)

/-! ### Which commands are carried out and which are rejected -/

theorem astResume_eq : s.astResume = if s.rd Reg.AST_STAT_TSTATE == 4 && s.allBelow 2 (s.rd Reg.AST_STOP_CFG_HYST_STOP)
    then s.stopEnd else s.astReject 1 := by
  simp [State.astResume]

/-- CLR_SUSPECT: R512's second near the prediction is 1001 conversions in a row, as log entry 49 deduces. -/
theorem astClrSuspect_eq (i : Nat) :
    s.astClrSuspect i = if decide (i < 12) && s.on (Reg.AST_CH_STAT_SUSPECT i) && decide (1001 ≤ s.rd (Hid.nearRun i))
      then s.wr (Reg.AST_CH_STAT_SUSPECT i) 0 else s.astReject 3 := by
  simp [State.astClrSuspect, and_assoc]

theorem astCmd_unlisted {c : Nat} (h : c = 0 ∨ 4 < c) (ch : Nat) : s.astCmd c ch = s.astReject c := by
  rw [State.astCmd, if_neg (by omega), if_neg (by omega), if_neg (by omega), if_neg (by omega)]

section
variable (h : s.full = false)
include h

theorem dbgHalt_below_full (m : Nat) : s.dbgHalt m = s.dbgReject 1 := by simp [State.dbgHalt, h]
theorem dbgResume_below_full (m : Nat) : s.dbgResume m = s.dbgReject 2 := by simp [State.dbgResume, h]
theorem dbgStep_below_full (m : Nat) : s.dbgStep m = s.dbgReject 3 := by simp [State.dbgStep, h]
theorem dbgResetDevice_below_full : s.dbgResetDevice = s.dbgReject 4 := by simp [State.dbgResetDevice, h]

end

theorem raw_test_off (h : s.on Reg.SRM_CTRL_TEST_EN = false) (code : Nat) (op : Nat → State → State) :
    s.raw code op = (s.rejMark 0x090 code).srmEvt 5 := by
  have hillegal : s.rawLegal = false := by simp [State.rawLegal, h]
  simp [State.raw, hillegal]

end
end Sys2Proof.Machine

namespace Sys2Proof
open Machine

/-- Settles O55: R524's table decides between the command and the reject, whose writes are read off; below FULL the debug port
rejects (R549), and while TEST_EN is 0 so does the raw access (R251, R252). The 1001 conversions near the prediction are DEDUCED, log
entry 49. -/
theorem commandsOutOfState : Obligations.CommandsOutOfState := by
  refine ⟨?resume, fun s => rfl, ?clrSuspect, fun s => rfl, fun c ch s h => astCmd_unlisted s h ch, ?reject, ?debug, ?rawAccess⟩
  case resume =>
    rintro s _ rfl
    exact congrArg _ (astResume_eq s)
  case clrSuspect =>
    rintro i s _ rfl
    exact congrArg _ (astClrSuspect_eq s i)
  case reject =>
    exact fun c s => ⟨astReject_cmdReject s c, astReject_rejCode s c, astReject_pend s c, astReject_onlyFields s c⟩
  case debug =>
    exact fun m s h => ⟨congrArg _ (dbgHalt_below_full s h m), congrArg _ (dbgResume_below_full s h m),
      congrArg _ (dbgStep_below_full s h m), congrArg _ (dbgResetDevice_below_full s h)⟩
  case rawAccess =>
    exact fun s h => ⟨congrArg _ (raw_test_off s h 1 _), congrArg _ (raw_test_off s h 4 _)⟩

end Sys2Proof
end

section

namespace Sys2Proof.Machine

/-! ### Fields that stand in different places (R554) -/

/-- How two fields are seen to be different, in the proofs below by the discharger of `simp`: their names unfold to a block, an offset
and a low bit, and arithmetic tells the places apart. -/
theorem key_ne {f g : Fld} {b o l b' o' l' : Nat} (hf : f.key = (b * 1048576 + o) * 64 + l)
    (hg : g.key = (b' * 1048576 + o') * 64 + l') (h : (b * 1048576 + o) * 64 + l ≠ (b' * 1048576 + o') * 64 + l') :
    f.key ≠ g.key := by
  rwa [hf, hg]

end Sys2Proof.Machine
end

section

namespace Sys2Proof
open Machine

/-! ### Steps and commands -/

theorem exec_answers (i : Instr) (s : State) : ∃ t, exec i s = .next t := by
  cases i <;> exact ⟨_, rfl⟩

/-- Settles O47: time and every command keep the canonical form and leave the queue that they are given, which is the rest of the
state's own. -/
theorem stepKeepsCanon : Obligations.StepKeepsCanon := by
  intro s t hs h
  unfold step at h
  split at h
  next hq =>
    cases h
    have ok := State.tick_ok s ⟨hq, hs⟩
    exact ⟨ok.canon, by rw [ok.pending, hq]; rfl⟩
  next c rest hq =>
    have ok := exec_ok c { s with pending := rest } ⟨rfl, hs.mem, hs.cells, hs.records⟩ t h
    exact ⟨ok.canon, by rw [ok.pending, hq]; rfl⟩

/-- Settles O48: each command's meaning ends in a next state. -/
theorem everyCommandAnswers : Obligations.EveryCommandAnswers := by
  refine ⟨exec_answers, fun s => ?_⟩
  unfold step
  split
  · exact ⟨_, rfl⟩
  · exact exec_answers _ _

/-- Settles O46: at reset no cell is listed, so every field has its reset value. -/
theorem resetState : Obligations.ResetState := by
  refine ⟨rfl, ⟨rfl, rfl, by decide⟩, rfl, rfl, rfl, rfl, rfl, rfl, rfl, rfl, rfl, rfl, rfl, fun p _ => ⟨rfl, rfl⟩, fun n _ => rfl⟩

end Sys2Proof
end

section

namespace Sys2Proof.Machine

/-! ### The row-column code is linear (R244) -/

theorem add_mul_xor {n a b c d : Nat} (ha : a < 2 ^ n) (hc : c < 2 ^ n) :
    (a + b * 2 ^ n) ^^^ (c + d * 2 ^ n) = (a ^^^ c) + (b ^^^ d) * 2 ^ n := by
  refine Nat.eq_of_testBit_eq fun i => ?_
  rw [Nat.testBit_xor, Nat.add_comm a, Nat.add_comm c, Nat.add_comm (a ^^^ c), Nat.mul_comm b, Nat.mul_comm d, Nat.mul_comm (b ^^^ d),
    Nat.testBit_two_pow_mul_add _ ha, Nat.testBit_two_pow_mul_add _ hc, Nat.testBit_two_pow_mul_add _ (Nat.xor_lt_two_pow ha hc)]
  split <;> rw [Nat.testBit_xor]

/-- The number whose bit `j` is `f j`, as `codeOf` sums it. -/
def bitSum (n : Nat) (f : Nat → Nat) : Nat := (List.range n).foldl (fun a j => a + f j % 2 * 2 ^ j) 0

theorem bitSum_succ (n : Nat) (f : Nat → Nat) : bitSum (n + 1) f = bitSum n f + f n % 2 * 2 ^ n := by
  simp [bitSum, List.range_succ]

theorem bitSum_lt (n : Nat) (f : Nat → Nat) : bitSum n f < 2 ^ n := by
  induction n with
  | zero => simp [bitSum]
  | succ n ih =>
    rw [bitSum_succ, Nat.pow_succ]
    rcases Nat.mod_two_eq_zero_or_one (f n) with h | h <;> rw [h] <;> omega

theorem bitSum_add (n : Nat) {f g h : Nat → Nat} (e : ∀ j, h j % 2 = (f j + g j) % 2) :
    bitSum n h = bitSum n f ^^^ bitSum n g := by
  induction n with
  | zero => simp [bitSum]
  | succ n ih =>
    have hbit : h n % 2 = (f n % 2) ^^^ (g n % 2) := by
      rw [e n]
      rcases Nat.mod_two_eq_zero_or_one (f n) with h1 | h1 <;> rcases Nat.mod_two_eq_zero_or_one (g n) with h2 | h2 <;>
        simp [Nat.add_mod, h1, h2]
    rw [bitSum_succ, bitSum_succ, bitSum_succ, add_mul_xor (bitSum_lt n f) (bitSum_lt n g), ih, hbit]

/-- The sum of the bits of `x` in the column `k` of an `n` by `n` block. -/
def columnSum (n x k : Nat) : Nat := (List.range n).foldl (fun p j => p + x / 2 ^ (n * j + k) % 2) 0

theorem codeOf_eq_bitSums (n x : Nat) :
    codeOf n x = bitSum n (fun j => popCount n (x / 2 ^ (n * j))) + bitSum n (columnSum n x) * 2 ^ n := by
  have hshift (f : Nat → Nat) (m : Nat) :
      (List.range m).foldl (fun a k => a + f k % 2 * 2 ^ (n + k)) 0 = bitSum m f * 2 ^ n := by
    induction m with
    | zero => simp [bitSum]
    | succ m ih => rw [bitSum_succ, List.range_succ, List.foldl_append, ih]; simp [pow_add]; ring
  rw [codeOf, ← hshift]
  rfl

theorem popCount_xor_mod_two (n x y : Nat) : popCount n (x ^^^ y) % 2 = (popCount n x + popCount n y) % 2 := by
  induction n generalizing x y with
  | zero => rfl
  | succ n ih =>
    have hhalf := ih (x / 2) (y / 2)
    have hbit := Nat.xor_mod_two_eq (m := x) (n := y)
    rw [← Nat.xor_div_two] at hhalf
    simp only [popCount]
    omega

theorem columnSum_xor_mod_two (n x y k : Nat) : columnSum n (x ^^^ y) k % 2 = (columnSum n x k + columnSum n y k) % 2 := by
  unfold columnSum
  suffices h : ∀ (l : List Nat) (a b c : Nat), c % 2 = (a + b) % 2 →
      (l.foldl (fun p j => p + (x ^^^ y) / 2 ^ (n * j + k) % 2) c) % 2
        = (l.foldl (fun p j => p + x / 2 ^ (n * j + k) % 2) a + l.foldl (fun p j => p + y / 2 ^ (n * j + k) % 2) b) % 2 from
    h _ 0 0 0 rfl
  intro l
  induction l with
  | nil => exact fun a b c h => h
  | cons j r ih =>
    intro a b c h
    refine ih _ _ _ ?_
    have hbit := Nat.xor_mod_two_eq (m := x / 2 ^ (n * j + k)) (n := y / 2 ^ (n * j + k))
    simp only [Nat.xor_div_two_pow]
    omega

theorem codeOf_xor (n x y : Nat) : codeOf n (x ^^^ y) = codeOf n x ^^^ codeOf n y := by
  have hrow : bitSum n (fun j => popCount n ((x ^^^ y) / 2 ^ (n * j)))
      = bitSum n (fun j => popCount n (x / 2 ^ (n * j))) ^^^ bitSum n (fun j => popCount n (y / 2 ^ (n * j))) :=
    bitSum_add n fun j => by rw [Nat.xor_div_two_pow]; exact popCount_xor_mod_two ..
  have hcol : bitSum n (columnSum n (x ^^^ y)) = bitSum n (columnSum n x) ^^^ bitSum n (columnSum n y) :=
    bitSum_add n (columnSum_xor_mod_two n x y)
  simp only [codeOf_eq_bitSums, hrow, hcol, add_mul_xor (bitSum_lt n _) (bitSum_lt n _)]

/-- The code of one data bit is its row and its column. -/
theorem codeOf_two_pow : ∀ i < 64, codeOf 8 (2 ^ i) = 2 ^ (i / 8) + 2 ^ (i % 8) * 2 ^ 8 := by decide

/-- Two set bits, or none, are not one set bit. -/
theorem oneBit_xor_two_pow : ∀ a < 8, ∀ b < 8, oneBit 8 (2 ^ a ^^^ 2 ^ b) = none := by decide

theorem verdict_bad_of_no_oneBit {n sr sc : Nat} (h : ¬(sr = 0 ∧ sc = 0)) (hr : oneBit n sr = none) (hc : oneBit n sc = none) :
    verdict n sr sc = .bad := by
  rw [verdict, if_neg h, hr, hc]

/-- A syndrome holds the row syndrome in its low byte and the column syndrome above it. -/
theorem verdict_of_rows_and_columns {y sr sc : Nat} (hr : sr < 2 ^ 8) (h : y = sr + sc * 2 ^ 8) :
    verdict 8 (y % 256) (y / 256) = verdict 8 sr sc := by
  rw [show y % 256 = sr by omega, show y / 256 = sc by omega]

end Sys2Proof.Machine

namespace Sys2Proof
open Machine

/-- Settles O52: the code is linear, so that the syndromes are the code of the inverted bits alone. -/
theorem singleErrorCorrected : Obligations.SingleErrorCorrected := by
  intro x i hi
  have hlt : ∀ j < 8, 2 ^ j < 2 ^ 8 := by decide
  have hrow (k : Nat) (hk : k < 64) : 2 ^ (k / 8) < 2 ^ 8 := hlt _ (by omega)
  refine ⟨?one, fun j hj hne => ?two⟩
  case one =>
    have hsyn : codeOf 8 x.toNat ^^^ codeOf 8 (x.toNat ^^^ 2 ^ i) = 2 ^ (i / 8) + 2 ^ (i % 8) * 2 ^ 8 := by
      rw [codeOf_xor, ← Nat.xor_assoc, Nat.xor_self, Nat.zero_xor, codeOf_two_pow i hi]
    refine (verdict_of_rows_and_columns (hrow i hi) hsyn).trans ?_
    rw [verdict_row_and_column (by omega) (by omega), Nat.div_add_mod]
  case two =>
    have hsyn : codeOf 8 x.toNat ^^^ codeOf 8 (x.toNat ^^^ 2 ^ i ^^^ 2 ^ j)
        = (2 ^ (i / 8) ^^^ 2 ^ (j / 8)) + (2 ^ (i % 8) ^^^ 2 ^ (j % 8)) * 2 ^ 8 := by
      rw [codeOf_xor, codeOf_xor, Nat.xor_assoc (codeOf 8 x.toNat), ← Nat.xor_assoc, Nat.xor_self, Nat.zero_xor, codeOf_two_pow i hi,
        codeOf_two_pow j hj, add_mul_xor (hrow i hi) (hrow j hj)]
    refine (verdict_of_rows_and_columns (Nat.xor_lt_two_pow (hrow i hi) (hrow j hj)) hsyn).trans ?_
    refine verdict_bad_of_no_oneBit ?_ (oneBit_xor_two_pow _ (by omega) _ (by omega)) (oneBit_xor_two_pow _ (by omega) _ (by omega))
    rintro ⟨h1, h2⟩
    have e1 := Nat.pow_right_injective (le_refl 2) (Nat.xor_eq_zero_iff.1 h1)
    have e2 := Nat.pow_right_injective (le_refl 2) (Nat.xor_eq_zero_iff.1 h2)
    omega

end Sys2Proof
end

section

namespace Sys2Proof.Machine

/-! ### What raising an event does where MSI-X alone is on (R375, R376) -/

theorem bit_setBit_ne (x : Nat) {i j : Nat} (h : j ≠ i) : bit (setBit x i) j = bit x j := by
  simp [bit_eq_testBit, setBit, Nat.testBit_two_pow_of_ne h.symm]

theorem bit_mod_two_pow (x : Nat) {n i : Nat} (h : i < n) : bit (x % 2 ^ n) i = bit x i := by
  simp [bit_eq_testBit, Nat.testBit_mod_two_pow, h]

section
variable (s : State)

theorem pend_setB_ne {e f : Nat} (h : f ≠ e) : (s.setB (Reg.EVT_PEND (e / 32)) (e % 32)).pend f = s.pend f := by
  by_cases hw : f / 32 = e / 32
  · rw [State.pend, State.pend, State.bitOf, State.bitOf, hw, State.setB, State.rd_wr_same]
    rw [show (Reg.EVT_PEND (e / 32)).w = 32 from rfl, bit_mod_two_pow _ (Nat.mod_lt f (by decide)), bit_setBit_ne _ (by omega)]
  · rw [State.pend, State.pend, State.bitOf, State.bitOf, State.setB, State.rd_wr_ne]
    with_unfolding_all (refine key_ne rfl rfl ?_; omega)

theorem pend_raise_ne {e f : Nat} (hf : f < 1024) (h : f ≠ e) : (s.raise e).pend f = s.pend f := by
  have hlow : (Reg.EVT_PEND (f / 32)).key < cellKey 0x008 0 0 := by simp only [Reg.EVT_PEND, cellKey]; omega
  rw [← pend_setB_ne s h, State.pend, State.bitOf, rd_raise_low s hlow]
  rfl

/-- With MSI-X alone enabled, an event sends or holds the message of its vector, where it was not pending. -/
theorem raise_msix_alone {e : Nat} (he : e < 1024) (hen : s.on (Reg.EVT_ROUTE_A_EN e) = true) (hm : s.on (Reg.EVT_ROUTE_A_MSIX_EN e) = true)
    (hfab : s.on (Reg.EVT_ROUTE_B_FAB_EN e) = false) (htout : s.on (Reg.EVT_ROUTE_B_TOUT_EN e) = false) :
    s.raise e = if s.pend e then s.setB (Reg.EVT_PEND (e / 32)) (e % 32)
      else (s.setB (Reg.EVT_PEND (e / 32)) (e % 32)).msixSend (s.rd (Reg.EVT_ROUTE_A_VECTOR e)) := by
  have hset (o : Nat) : (s.setB (Reg.EVT_PEND (e / 32)) (e % 32)).on ⟨cellKey 0x001 (0x10004 + 0x8 * e) o, 1, 0⟩
      = s.on ⟨cellKey 0x001 (0x10004 + 0x8 * e) o, 1, 0⟩ := by
    rw [State.on, State.on, State.setB, State.rd_wr_ne]
    with_unfolding_all (refine key_ne rfl rfl ?_; omega)
  have hsend (t : State) (v o : Nat) (ho : o < 64) : (t.msixSend v).on ⟨cellKey 0x001 (0x10004 + 0x8 * e) o, 1, 0⟩
      = t.on ⟨cellKey 0x001 (0x10004 + 0x8 * e) o, 1, 0⟩ := by
    rw [State.on, State.on, rd_msixSend_low]
    simp only [cellKey]
    omega
  have hdone (t : State) (h : t.on (Reg.EVT_ROUTE_B_FAB_EN e) = false) (h' : t.on (Reg.EVT_ROUTE_B_TOUT_EN e) = false) :
      (t.evtFab e).evtTout e = t := by
    simp [State.evtFab, State.evtTout, h, h']
  have hsetDone := hdone _ ((hset 31).trans hfab) ((hset 7).trans htout)
  have hsendDone (v : Nat) := hdone _ ((hsend _ v 31 (by decide)).trans ((hset 31).trans hfab))
    ((hsend _ v 7 (by decide)).trans ((hset 7).trans htout))
  cases hp : s.pend e <;> simp [State.raise, hen, hm, hp, hsetDone, hsendDone]

/-- A vector whose message can be sent sends it; a masked one sets its pending bit (R376). -/
theorem msixSend_unmasked {v : Nat} (hv : s.on (Hid.msixMask v) = false) (hf : s.on Hid.msixFnMask = false)
    (he : s.on Hid.msixEnable = true) : s.msixSend v = s.emit (.msix v (s.rd (Hid.msixAddr v)) (s.rd (Hid.msixData v))) := by
  simp [State.msixSend, hv, hf, he]

theorem msixSend_masked {v : Nat} (hv : s.on (Hid.msixMask v) = true) : s.msixSend v = s.wr (Hid.msixPba v) 1 := by
  simp [State.msixSend, hv]

end
end Sys2Proof.Machine

namespace Sys2Proof
open Machine

/-- Settles O56: a raise is its pending bit, and where MSI-X alone is on the message of its vector. -/
theorem eventRaised : Obligations.EventRaised := by
  refine ⟨fun e f s => ⟨pend_raise s e.isLt, fun h => pend_raise_ne s f.isLt (fun c => h (Fin.ext c))⟩,
    fun e s h => ?disabled, fun e s hen hm hfab htout v hv => ?msix, fun u s => ?user⟩
  case disabled =>
    rw [raise_disabled s h]
    exact (OnlyFields.refl _ s).setB _ (by simp)
  case msix =>
    have hset : OnlyFields [Reg.EVT_PEND (e / 32), Hid.msixPba v] s (s.setB (Reg.EVT_PEND (e / 32)) (e % 32)) :=
      (OnlyFields.refl _ s).setB _ (by simp)
    refine ⟨fun hp => ?_, fun hp hmask hfn henable => ?_, fun hp hmask => ?_⟩ <;>
      rw [raise_msix_alone s e.isLt hen hm hfab htout, hp, ← hv]
    · exact (OnlyFields.refl _ s).setB _ (by simp)
    · rw [State.on] at hmask hfn henable
      rw [if_neg (by decide), msixSend_unmasked] <;>
        simp (disch := with_unfolding_all (refine key_ne rfl rfl ?_; omega)) only [State.on, State.setB, State.rd_wr_ne, State.emit,
          State.wr_out, hmask, hfn, henable]
    · rw [if_neg (by decide), msixSend_masked]
      · exact ⟨hset.wr _ (by simp), State.rd_wr_same ..⟩
      · rw [← hmask, State.on, State.on, State.setB, State.rd_wr_ne]
        with_unfolding_all (refine key_ne rfl rfl ?_; omega)
  case user =>
    show Host.Outcome.next (s.raise (992 + u % 32)) = _
    rw [Nat.mod_eq_of_lt u.isLt]

end Sys2Proof
end

section

namespace Sys2Proof.Machine

/-! ### Bytes that SRAM accesses leave (R239, R246, R248, R467) -/

section
variable (s : State)

@[simp] theorem mem_readWord (q : Req) (a : Nat) : (s.readWord q a).2.2.mem = s.mem := by
  unfold State.readWord
  split
  · rfl
  · exact mem_sramCe s _
  · simp [State.sramUe, State.sramBad, State.srmEvt]

/-- A read of SRAM changes no byte. -/
theorem mem_readUnits_sram (q : Req) {a : Nat} (ha : isSram a = true) (n : Nat) : (s.readUnits q a n).2.2.mem = s.mem := by
  simp only [State.readUnits, State.openRows, ha, if_true]
  exact mem_foldl (fun x : List Byte × MRes × State => x.2.2) fun u _ x => mem_readWord x.2.2 q u

theorem mem_memRead_sram (q : Req) {a : Nat} (ha : isSram a = true) (n : Nat) : (s.memRead q a n).2.2.mem = s.mem := by
  have hgate := mem_memGate s q a n
  unfold State.memRead
  split
  next t h => exact mem_guard s h
  next =>
    split
    next t h => rw [mem_readUnits_sram t q ha, ← hgate, h]
    next r t _ h => rw [← hgate, h]

theorem readFor_mem (w : Requester) (key a n : Nat) : (s.readFor w key a n).mem = (s.memRead (s.req w key) a n).2.2.mem := by
  unfold State.readFor
  dsimp only
  split <;> rfl

theorem mem_bgTake {r n unit : Nat} {t : State} (h : s.bgTake r n unit = some t) : t.mem = s.mem := by
  simp only [State.bgTake, State.bgSpend] at h
  split_ifs at h
  cases h
  simp [State.bgRoll, State.add, State.wrIf]

theorem mem_bankTake {u n : Nat} {back : Bool} {t : State} (h : s.bankTake u n back = some t) : t.mem = s.mem := by
  unfold State.bankTake at h
  split_ifs at h
  exact mem_bgTake s h

@[simp] theorem mem_leak (lvl trip : Fld) (thresh : Nat) : (s.leak lvl trip thresh).mem = s.mem := by
  simp [State.leak]

/-- The write-back of a word leaves every byte outside it. -/
theorem byte_writeBackWord_out (a : Nat) {c : Nat} (h : c < a ∨ a + 8 ≤ c) : (s.writeBackWord a).byte c = s.byte c := by
  unfold State.writeBackWord
  split
  · rfl
  · dsimp only
    split
    · exact State.byte_writeMem_out s a _ c (by rwa [length_leBytes])
    · rfl

/-- A write to SRAM changes no byte outside the aligned words that it touches. -/
theorem byte_memWrite_out (q : Req) {a : Nat} (bs : List Byte) (ha : isSram a = true) {c : Nat}
    (h : c < a / 8 * 8 ∨ (a + bs.length + 7) / 8 * 8 ≤ c) : (s.memWrite q a bs).2.byte c = s.byte c := by
  rcases memWrite_cases s q a bs with hm | ⟨t, r, ht, _, _, e⟩
  · exact byte_of_mem hm c
  · rw [e]
    refine (byte_writeUnits_out t _ _ ha fun u hu => ?_).trans (byte_of_mem ht c)
    obtain ⟨halign, hend, hbegin⟩ := unitsOf_word hu
    rw [List.length_map] at hend
    omega

theorem byte_sramStore_out (w : Requester) (key a : Nat) (bs : List Byte) (errs : List (Fin 4 × SigErr)) {c : Nat}
    (h : c < a / 8 * 8 ∨ (a + bs.length + 7) / 8 * 8 ≤ c) : (s.sramStore w key a bs errs).byte c = s.byte c := by
  unfold State.sramStore
  split
  next ha =>
    calc ((s.hubErrors errs).writeFor w key a bs).byte c
      _ = ((s.hubErrors errs).memWrite ((s.hubErrors errs).req w key) a bs).2.byte c := byte_of_mem (writeFor_mem _ w key a bs) c
      _ = (s.hubErrors errs).byte c := byte_memWrite_out _ _ bs ha h
      _ = s.byte c := byte_of_mem (mem_hubErrors s errs) c
  next => rfl

end
end Sys2Proof.Machine

namespace Sys2Proof
open Machine

/-- Settles O58: the two writes end in `sramStore`, whose bytes lie in the words touched; the others store nothing. -/
theorem sramFrames : Obligations.SramFrames := by
  refine ⟨fun w key word data errs s t h c hc => ?whole, fun w key addr data errs s t h c hc => ?merge, fun word s t h c hc => ?back,
    fun w key addr n errs b s t i hi h c => ?none⟩
  case whole =>
    rw [exec_sramWrite_eq] at h
    cases h
    refine byte_sramStore_out s w key _ _ errs ?_
    rw [length_leBytes_flatMap]
    omega
  case merge =>
    rw [exec_sramMergeWrite_eq] at h
    cases h
    exact byte_sramStore_out s w key addr data errs hc
  case back =>
    replace h : t = _ := (Host.Outcome.next.inj h).symm
    subst h
    split
    · split
      next => rfl
      next t ht => exact (byte_writeBackWord_out t _ hc).trans (byte_of_mem (mem_bankTake s ht) c)
    · rfl
  case none =>
    simp only [List.mem_cons, List.not_mem_nil, or_false] at hi
    refine byte_of_mem ?_ c
    rcases hi with rfl | rfl | rfl <;> replace h : t = _ := (Host.Outcome.next.inj h).symm <;> subst h
    · split
      next ha => rw [readFor_mem, mem_memRead_sram _ _ ha, mem_hubErrors]
      next => rfl
    · exact mem_leak s _ _ _
    · simp [State.srmClrLog]

end Sys2Proof
end

section

namespace Sys2Proof.Machine

/-! ### Bytes as numbers (R4) -/

theorem ofLeBytes_leBytes (n x : Nat) : ofLeBytes (leBytes n x) = x % 2 ^ (8 * n) := by
  induction n generalizing x with
  | zero => simp [leBytes, ofLeBytes, Nat.mod_one]
  | succ n ih =>
    rw [leBytes, ofLeBytes, ih, BitVec.toNat_ofNat, show 8 * (n + 1) = 8 + 8 * n by omega, pow_add]
    exact (Nat.mod_mul ..).symm

section
variable (s : State)

theorem readMem_eq_map (a n : Nat) : s.readMem a n = (List.range n).map fun i => s.byte (a + i) := by
  induction n generalizing a with
  | zero => rfl
  | succ n ih =>
    rw [State.readMem, ih, List.range_succ_eq_map, List.map_cons, List.map_map]
    congr 1
    exact List.map_congr_left fun i _ => by simp only [Function.comp]; congr 1; omega

theorem readMem_writeMem (a : Nat) (l : List Byte) : (s.writeMem a l).readMem a l.length = l := by
  rw [readMem_eq_map]
  refine List.ext_getElem (by simp) fun i h _ => ?_
  simp only [List.getElem_map, List.getElem_range]
  exact State.byte_writeMem_in s a l i (by simpa using h)

/-! ### The gates depend on registers alone (R236, R256, R259) -/

variable {s} {t : State} (ht : t.cells = s.cells)
include ht

theorem rd_of_cells (f : Fld) : t.rd f = s.rd f := by rw [State.rd, State.rd, ht]

theorem req_of_cells (w : Requester) (key : Nat) : t.req w key = s.req w key := by
  cases w <;> simp [State.req, rd_of_cells ht]

theorem rangeOf_of_cells (a : Nat) : t.rangeOf a = s.rangeOf a := by
  have htop : t.hbmTop = s.hbmTop := by rw [State.hbmTop, State.hbmTop, rd_of_cells ht]
  rw [State.rangeOf, State.rangeOf, htop]

theorem rangeOfReq_of_cells (a n : Nat) : t.rangeOfReq a n = s.rangeOfReq a n := by
  rw [State.rangeOfReq, rangeOf_of_cells ht, rangeOf_of_cells ht]
  rfl

theorem bankGate_ok_of_cells {q : Req} {a b : Nat} (h : (s.bankGate q a b).1 = .ok) : t.bankGate q a b = (.ok, t) := by
  have hon : s.bstOn 4 b = t.bstOn 4 b := by simp [State.bstOn, State.bstIs, State.on, rd_of_cells ht]
  unfold State.bankGate at h ⊢
  rw [rd_of_cells ht]
  dsimp only at h ⊢
  rw [hon] at h
  split_ifs at h ⊢
  rfl

end

theorem join_eq_ok {a b : MRes} (h : a.join b = .ok) : a = .ok ∧ b = .ok := by
  cases a <;> cases b <;> simp_all [MRes.join]

/-- One bank's answer joins those of the banks before it. -/
def gateStep (q : Req) (a : Nat) (acc : MRes × State) (b : Nat) : MRes × State :=
  (acc.1.join (acc.2.bankGate q a b).1, (acc.2.bankGate q a b).2)

theorem bankGates_eq_foldl (s : State) (q : Req) (a : Nat) (l : List Nat) : s.bankGates q a l = l.foldl (gateStep q a) (.ok, s) := rfl

theorem ok_of_foldl_gateStep {q : Req} {a : Nat} {l : List Nat} {x : MRes × State} (h : (l.foldl (gateStep q a) x).1 = .ok) :
    x.1 = .ok := by
  induction l generalizing x with
  | nil => exact h
  | cons b r ih => exact (join_eq_ok (ih h)).1

/-- Banks that are all on accept a request and stay as they are. -/
theorem bankGates_ok_of_cells {s t : State} (ht : t.cells = s.cells) {q : Req} {a : Nat} {l : List Nat}
    (h : (s.bankGates q a l).1 = .ok) : t.bankGates q a l = (.ok, t) := by
  rw [bankGates_eq_foldl] at h ⊢
  induction l generalizing s with
  | nil => rfl
  | cons b r ih =>
    have hb : (s.bankGate q a b).1 = .ok := (join_eq_ok (ok_of_foldl_gateStep (x := gateStep q a (.ok, s) b) h)).2
    have hs : gateStep q a (.ok, s) b = (.ok, s) := by rw [gateStep, bankGate_ok_of_cells rfl hb]; rfl
    have ht' : gateStep q a (.ok, t) b = (.ok, t) := by rw [gateStep, bankGate_ok_of_cells ht hb]; rfl
    rw [List.foldl_cons, hs] at h
    rw [List.foldl_cons, ht']
    exact ih ht h

/-- A memory that has accepted a request accepts it again while the registers stand, and stays as it is. -/
theorem memGate_ok_of_cells {s t : State} (ht : t.cells = s.cells) {q : Req} {a n : Nat} (h : (s.memGate q a n).1 = .ok) :
    t.memGate q a n = (.ok, t) := by
  have hon (f : Fld) : t.on f = s.on f := by rw [State.on, State.on, rd_of_cells ht]
  have hheld : t.hubHeld = s.hubHeld := by simp only [State.hubHeld, rd_of_cells ht, hon]
  have hmap (u : Nat) : t.mapAddr u = s.mapAddr u := by
    have hp : t.pcx = s.pcx := by unfold State.pcx; simp only [rd_of_cells ht]
    have hb : t.bkx = s.bkx := by unfold State.bkx; simp only [rd_of_cells ht]
    rw [State.mapAddr, State.mapAddr, State.curMap, State.curMap, rd_of_cells ht, hp, hb]
  unfold State.memGate at h ⊢
  rw [rangeOfReq_of_cells ht]
  split at h
  next hr =>
    simp only [hmap, State.bitOf, rd_of_cells ht] at h ⊢
    exact Prod.ext h rfl
  next b hr =>
    simp only [hon, hheld]
    split_ifs at h ⊢
    exact bankGates_ok_of_cells ht h
  next hr =>
    simp only [hon, hheld, rd_of_cells ht]
    split_ifs at h ⊢
    rfl
  next => cases h

theorem memGate_ok {s t : State} {q : Req} {a n : Nat} (h : s.memGate q a n = (.ok, t)) : t = s := by
  have := memGate_ok_of_cells (t := s) rfl (congrArg Prod.fst h)
  rw [h] at this
  exact congrArg Prod.snd this

/-! ### One whole word (R239, R245) -/

section
variable (s : State)

theorem word_putWord (x a v : Nat) : (s.putWord x a v).word a = v % 2 ^ 64 := by
  have h : (s.putWord x a v).readMem a 8 = leBytes 8 v := by
    have := readMem_writeMem s a (leBytes 8 v)
    rwa [length_leBytes] at this
  rw [State.word, h, ofLeBytes_leBytes]

theorem wordInfo_putWord (x a v : Nat) : (s.putWord x a v).wordInfo a = ⟨x, s.rd Hid.keyEpoch, 0, 0⟩ := Tab.getD_set_same ..

theorem cells_putWord (x a v : Nat) : (s.putWord x a v).cells = s.cells := by
  have hbytes (l : List Byte) (t : State) (b : Nat) : (t.writeMem b l).cells = t.cells := by
    induction l generalizing t b with
    | nil => rfl
    | cons y r ih => exact ih _ _
  exact hbytes _ _ _

@[simp] theorem wordInfo_answer (r : MRes) (d : List Byte) (a : Nat) : (s.answer r d).wordInfo a = s.wordInfo a := rfl

@[simp] theorem word_answer (r : MRes) (d : List Byte) (a : Nat) : (s.answer r d).word a = s.word a := rfl

variable {s} in
/-- A sound word that stands under the reader's key reads as it stands. -/
theorem readWord_sound {q : Req} {a : Nat} (h : s.wordInfo a = ⟨q.key, s.rd Hid.keyEpoch, 0, 0⟩) :
    s.readWord q a = (s.word a, false, s) := by
  have hclean : s.wordVerdict a = .clean := by simp only [State.wordVerdict, h, Nat.zero_mod, Nat.zero_div, verdict_clean]
  rw [readWord_clean _ _ hclean, State.wordAs, h, if_pos ⟨rfl, rfl⟩]

end

@[simp] theorem req_key (s : State) (w : Requester) (key : Nat) : (s.req w key).key = key := by cases w <;> rfl

/-- A write that is answered ok has passed the checks and the gate, and wrote its units. -/
theorem memWrite_of_ok {s : State} {q : Req} {a : Nat} {bs : List Byte} (h : (s.memWrite q a bs).1 = .ok) :
    s.memGate q a bs.length = (.ok, s) ∧ s.memWrite q a bs = s.writeUnits q a (bs.map some) := by
  unfold State.memWrite State.memWriteBe at h ⊢
  rw [List.length_map] at h ⊢
  split at h
  next => cases h
  next hg =>
    split at h
    next t hgate =>
      cases memGate_ok hgate
      split at h
      next => cases h
      next hp => simp only [hgate, if_neg hp, and_self]
    next r t hr hgate => exact absurd h (by rintro rfl; exact hr rfl)

theorem writeFor_ok {s t : State} {w : Requester} {key a : Nat} {bs : List Byte} (h : s.memWrite (s.req w key) a bs = (.ok, t)) :
    s.writeFor w key a bs = t.answer .ok [] := by
  unfold State.writeFor
  rw [h]
  cases w <;> rfl

section
variable {s : State} {q : Req} {word : Nat} (ha : isSram (8 * word) = true)

/-- The units of a request of one aligned word. -/
theorem unitsOf_one_word (word : Nat) : unitsOf 8 (8 * word) 8 = [8 * word] := by
  simp [unitsOf, Nat.mul_comm]

include ha

/-- A write of one whole word stores it. -/
theorem writeUnits_one_word (v : Nat) :
    s.writeUnits q (8 * word) ((leBytes 8 v).map some) = (.ok, s.putWord q.key (8 * word) (v % 2 ^ 64)) := by
  have hpart : unitPart 8 (8 * word) (8 * word) ((leBytes 8 v).map some) = (leBytes 8 v).map some := by
    simp [unitPart, leBytes, List.range_succ]
  have hnone : ((leBytes 8 v).map some).all (fun m => m.isNone) = false := by simp [leBytes]
  have hsome : ((leBytes 8 v).map some).all (fun m => m.isSome) = true := by simp [leBytes]
  have hall : ((leBytes 8 v).map some).filterMap id = leBytes 8 v := by simp
  simp only [State.writeUnits, ha, if_true, State.openRows, List.length_map, length_leBytes, unitsOf_one_word, List.foldl_cons,
    List.foldl_nil, hpart, hnone, State.mergeWord, hsome, hall, ofLeBytes_leBytes]
  rfl

theorem readUnits_one_word {v : Nat} (h : s.readWord q (8 * word) = (v, false, s)) :
    s.readUnits q (8 * word) 8 = (leBytes 8 v, .ok, s) := by
  have htake : (leBytes 8 v).take 8 = leBytes 8 v := List.take_of_length_le (by rw [length_leBytes])
  simp [State.readUnits, ha, State.openRows, unitsOf_one_word, h, htake]

end
end Sys2Proof.Machine

namespace Sys2Proof
open Machine

/-- Settles O59: a write that is answered ok has passed Peony's checks and the bank's gate and put the word; the gate reads registers
alone, so that it lets the read pass, and the word put reads back sound. -/
theorem sramReadBack : Obligations.SramReadBack := by
  intro w key word d errs s t h hok hguard
  rw [exec_sramWrite_eq, List.flatMap_singleton] at h
  cases h
  by_cases ha : isSram (8 * word) = true
  case neg => rw [State.sramStore, if_neg ha] at hok; cases hok
  simp only [State.sramStore, ha, if_true] at hok hguard ⊢
  rw [writeFor_res] at hok
  generalize s.hubErrors errs = u at hok hguard ⊢
  obtain ⟨hgate, hput⟩ := memWrite_of_ok hok
  rw [writeUnits_one_word ha, Nat.mod_eq_of_lt d.isLt, req_key] at hput
  rw [writeFor_ok hput] at hguard ⊢
  have hcells : ((u.putWord key (8 * word) d.toNat).answer .ok []).cells = u.cells := by
    rw [State.answer_cells, cells_putWord]
  have hinfo : ((u.putWord key (8 * word) d.toNat).answer .ok []).wordInfo (8 * word) = ⟨key, u.rd Hid.keyEpoch, 0, 0⟩ := by
    rw [wordInfo_answer, wordInfo_putWord]
  have hword : ((u.putWord key (8 * word) d.toNat).answer .ok []).word (8 * word) = d.toNat := by
    rw [word_answer, word_putWord, Nat.mod_eq_of_lt d.isLt]
  generalize (u.putWord key (8 * word) d.toNat).answer .ok [] = t at hguard hcells hinfo hword ⊢
  have hgate' := memGate_ok_of_cells hcells (congrArg Prod.fst hgate)
  rw [← req_of_cells hcells, length_leBytes] at hgate'
  have hsound : t.readWord (t.req w key) (8 * word) = (d.toNat, false, t) := by
    rw [readWord_sound (by rw [req_key, hinfo, rd_of_cells hcells]), hword]
  have hread := readUnits_one_word ha hsound
  refine ⟨_, exec_sramRead_sram t w key ha 8 [], ?_⟩
  show (t.readFor w key (8 * word) 8).last = _ ∧ (t.readFor w key (8 * word) 8).cells = _ ∧ (t.readFor w key (8 * word) 8).mem = _
  rw [readFor_ok t w key hguard hgate' (by rw [hread]), hread]
  exact ⟨rfl, rfl, rfl⟩

end Sys2Proof
end

section

namespace Sys2Proof.Machine

/-! ### Bytes that power, debug and event commands leave (R24, R510, R512, R531, R540, R543) -/

section
variable (s : State)

@[simp] theorem mem_wrIf (c : Bool) (f : Fld) (v : Nat) : (s.wrIf c f v).mem = s.mem := by
  unfold State.wrIf
  split <;> rfl

@[simp] theorem mem_astEvt (i : Nat) : (s.astEvt i).mem = s.mem := mem_raiseB s _ _ _

@[simp] theorem mem_dbgEvt (i : Nat) : (s.dbgEvt i).mem = s.mem := mem_raiseB s _ _ _

@[simp] theorem mem_astReject (code : Nat) : (s.astReject code).mem = s.mem := mem_astEvt _ _

@[simp] theorem mem_dbgReject (code : Nat) : (s.dbgReject code).mem = s.mem := mem_dbgEvt _ _

@[simp] theorem mem_limitSet (v : Nat) : (s.limitSet v).mem = s.mem := by
  unfold State.limitSet
  dsimp only
  split_ifs <;> rfl

@[simp] theorem mem_stagingSet (v : Nat) : (s.stagingSet v).mem = s.mem := by
  unfold State.stagingSet
  split <;> rfl

@[simp] theorem mem_methodSettle : s.methodSettle.mem = s.mem := by
  unfold State.methodSettle
  split <;> rfl

@[simp] theorem mem_methodSet (v : Nat) : (s.methodSet v).mem = s.mem := mem_methodSettle _

@[simp] theorem mem_astPwrLimit (w : Nat) : (s.astPwrLimit w).mem = s.mem := by
  simp [State.astPwrLimit, State.deny]

@[simp] theorem mem_astStaging (w : Nat) : (s.astStaging w).mem = s.mem := by simp [State.astStaging]

@[simp] theorem mem_astMethodWr (v : Nat) : (s.astMethodWr v).mem = s.mem := by
  simp [State.astMethodWr, State.deny]

@[simp] theorem mem_astClrSuspect (i : Nat) : (s.astClrSuspect i).mem = s.mem := by simp [State.astClrSuspect]

@[simp] theorem mem_astClrCnt : s.astClrCnt.mem = s.mem := mem_each fun _ _ _ => rfl

@[simp] theorem mem_hardCause : s.hardCause.mem = s.mem := by simp [State.hardCause]

@[simp] theorem mem_semHalted (c : Nat) (h : Bool) : (s.semHalted c h).mem = s.mem := mem_each fun _ _ t => mem_wrIf t _ _ _

@[simp] theorem mem_supPause : s.supPause.mem = s.mem := by simp [State.supPause]

@[simp] theorem mem_coreHalt (c cause pc : Nat) : (s.coreHalt c cause pc).mem = s.mem := by simp [State.coreHalt]

@[simp] theorem mem_haltNow (c pc : Nat) : (s.haltNow c pc).mem = s.mem := by simp [State.haltNow]

@[simp] theorem mem_dbgHalt (cores : Nat) : (s.dbgHalt cores).mem = s.mem := by
  unfold State.dbgHalt
  split
  · exact mem_each fun _ _ _ => rfl
  · exact mem_dbgReject s 1

@[simp] theorem mem_csrWrite (c n v : Nat) : (s.csrWrite c n v).mem = s.mem := by
  unfold State.csrWrite
  dsimp only
  split_ifs <;> rfl

@[simp] theorem mem_regDataWrite (c v : Nat) : (s.regDataWrite c v).mem = s.mem := by
  simp [State.regDataWrite, State.deny]

@[simp] theorem mem_dbgChallenge : s.dbgChallenge.mem = s.mem := by simp [State.dbgChallenge, State.dbgPeony]

@[simp] theorem mem_dbgToken : s.dbgToken.mem = s.mem := by simp [State.dbgToken, State.dbgPeony]

@[simp] theorem mem_supKick (w : Nat) : (s.supKick w).mem = s.mem := by simp [State.supKick]

@[simp] theorem mem_accEnd (st d : Nat) : (s.accEnd st d).mem = s.mem := rfl

end
end Sys2Proof.Machine

namespace Sys2Proof
open Machine

/-- Settles O60: each command keeps the memory itself, by the lemma about its meaning. -/
theorem storesNothing : Obligations.StoresNothing := by
  intro w b m c ch op dr cs pc v k r z i s t hi h a
  simp only [List.mem_cons, List.not_mem_nil, or_false] at hi
  refine byte_of_mem ?_ a
  rcases hi with rfl | rfl | rfl | rfl | rfl | rfl | rfl | rfl | rfl | rfl | rfl | rfl | rfl | rfl | rfl | rfl | rfl | rfl | rfl | rfl
    | rfl | rfl <;> replace h : t = _ := (Host.Outcome.next.inj h).symm <;> subst h
  case _ => exact mem_astPwrLimit s _
  case _ => exact mem_astStaging s _
  case _ => exact mem_astMethodWr s _
  case _ => exact mem_methodSettle s
  case _ =>
    dsimp only
    split_ifs <;> rfl
  case _ => exact mem_astClrSuspect s _
  case _ => exact mem_astClrCnt s
  case _ => exact mem_hardCause s
  case _ => rfl
  case _ => dsimp only; split_ifs <;> rfl
  case _ => dsimp only; split_ifs <;> rfl
  case _ => simp
  case _ => exact mem_dbgHalt s _
  case _ => simp
  case _ => exact mem_regDataWrite s _ _
  case _ => exact mem_dbgChallenge s
  case _ => exact mem_dbgToken s
  case _ => exact mem_supKick s _
  case _ => exact mem_raise s _
  case _ => exact mem_leak s _ _ _
  case _ => exact mem_leak s _ _ _
  case _ => exact mem_leak s _ _ _

end Sys2Proof
end

section

namespace Sys2Proof.Machine

/-! ### The halves of a pair (R8) -/

section
variable {m : Master} {blk off b : Nat} {rows : List Row} {r : Row} {ix : List Nat} (s : State)

/-- The halves that a state holds, without a register or a byte changed. -/
def State.setHeld (s : State) (l : Tab Nat) : State := { s with loHeld := l }

theorem sameCells_setHeld (l : Tab Nat) : SameCells s (s.setHeld l) := ⟨rfl, fun _ => rfl⟩

/-- A write of _LO is held for its master. -/
theorem regWrite_lo (h7 : blk ≠ 7) (hb : blockRows blk = some (b, rows)) (hr : findRow rows off = some (r, ix, false))
    (hp : r.pair = true) (lo : Nat) :
    s.regWrite m blk off lo = s.setHeld (Tab.put s.loHeld (pairKey (masterCode m) blk off) lo) := by
  simp [State.regWrite, State.dbgAccWord, State.setHeld, h7, hb, hr, hp]

/-- A write of _HI takes the half that its master holds. -/
theorem regWrite_hi_held (h7 : blk ≠ 7) (hb : blockRows blk = some (b, rows)) (hr : findRow rows (off + 4) = some (r, ix, true))
    (hp : r.pair = true) {lo : Nat} (hk : Tab.find s.loHeld (pairKey (masterCode m) blk off) = some lo) (hi : Nat) :
    s.regWrite m blk (off + 4) hi
      = (s.setHeld (Tab.del s.loHeld (pairKey (masterCode m) blk off))).regStore m blk off b r ix (lo + hi * 2 ^ 32) := by
  simp [State.regWrite, State.dbgAccWord, State.setHeld, h7, hb, hr, hp, hk]

/-- A write of _HI alone stores its half beside the low half of the register. -/
theorem regWrite_hi_alone (h7 : blk ≠ 7) (hb : blockRows blk = some (b, rows)) (hr : findRow rows (off + 4) = some (r, ix, true))
    (hp : r.pair = true) (hk : Tab.find s.loHeld (pairKey (masterCode m) blk off) = none) (hi : Nat) :
    s.regWrite m blk (off + 4) hi
      = (s.lowHalf blk off b r ix).2.regStore m blk off b r ix ((s.lowHalf blk off b r ix).1 + hi * 2 ^ 32) := by
  simp [State.regWrite, State.dbgAccWord, h7, hb, hr, hp, hk]

/-- The low half of a register whose cells hold it. -/
theorem lowHalf_plain (hroute : r.hnd ≠ .rtRoute) (hdata : r.hnd ≠ .regData) :
    s.lowHalf blk off b r ix = (s.rawRow blk off b r ix % 2 ^ 32, s) := by
  unfold State.lowHalf
  split
  next h => exact absurd h hdata
  next h => exact absurd h hroute
  next => rfl

/-- The low half of a route entry with held contents. -/
theorem lowHalf_route (hroute : r.hnd = .rtRoute) (hset : s.on (Hid.rtStgSet (ixAt ix 0) (ixAt ix 1)) = true) :
    s.lowHalf blk off b r ix = (s.rd (Hid.rtStgDir (ixAt ix 0) (ixAt ix 1)) % 2 ^ 32, s) := by
  simp [State.lowHalf, hroute, hset]

/-- A read of _LO answers its half and captures _HI for its master. -/
theorem regRead_lo (hm : blk ≠ 0x017) (h0 : off ≠ 0) (hb : blockRows blk = some (b, rows))
    (hr : findRow rows off = some (r, ix, false)) (hp : r.pair = true) (p : Bool) :
    (s.regRead m p blk off).1 = (s.regValue p blk off b r ix).1 % 2 ^ 32
    ∧ Tab.find (s.regRead m p blk off).2.2.hiShadow (pairKey (masterCode m) blk off)
      = some ((s.regValue p blk off b r ix).1 / 2 ^ 32) := by
  simp [State.regRead, State.capture, hm, h0, hb, hr, hp, Tab.find_put_same]

/-- A read of _HI answers what its master captured, and clears no register. -/
theorem regRead_hi (hm : blk ≠ 0x017) (hb : blockRows blk = some (b, rows)) (hr : findRow rows (off + 4) = some (r, ix, true))
    {v : Nat} (hk : Tab.find s.hiShadow (pairKey (masterCode m) blk off) = some v) (p : Bool) :
    (s.regRead m p blk (off + 4)).1 = v ∧ SameCells s (s.regRead m p blk (off + 4)).2.2 := by
  simp only [State.regRead, State.takeShadow, hm, hb, hr, hk, Nat.add_eq_zero_iff, OfNat.ofNat_ne_zero, and_false, false_and, if_false,
    if_true, Nat.add_sub_cancel, Option.map_some, true_and]
  exact ⟨rfl, fun _ => rfl⟩

end
end Sys2Proof.Machine

namespace Sys2Proof
open Machine

/-- Settles O49: the write of _HI finds what the write of _LO put under the place of its master, and the read of _HI what the
read of _LO captured there. -/
theorem pairHalves : Obligations.PairHalves := by
  refine ⟨?write, ?read⟩
  case write =>
    intro m blk off b rows r ix s h7 hb hlo hhi hp
    have hheld : ∀ (lo hi : Nat) (u : State), u.loHeld = (s.regWrite m blk off lo).loHeld →
        ∃ v, SameCells u v ∧ u.regWrite m blk (off + 4) hi = v.regStore m blk off b r ix (lo + hi * 2 ^ 32) := by
      intro lo hi u hu
      refine ⟨_, sameCells_setHeld u _, regWrite_hi_held u h7 hb hhi hp ?_ hi⟩
      rw [hu, regWrite_lo s h7 hb hlo hp]
      exact Tab.find_put_same _ _ _
    refine ⟨fun lo => ?lo, fun lo lo' hi u hu => ⟨hheld lo hi u hu, ?second⟩, fun hi hk => regWrite_hi_alone s h7 hb hhi hp hk hi,
      fun hroute hdata => lowHalf_plain s hroute hdata, fun hroute hset => lowHalf_route s hroute hset⟩
    case lo =>
      rw [regWrite_lo s h7 hb hlo hp]
      exact sameCells_setHeld s _
    case second =>
      rw [regWrite_lo u h7 hb hlo hp]
      exact ⟨_, sameCells_setHeld u _, regWrite_hi_held _ h7 hb hhi hp (Tab.find_put_same _ _ _) hi⟩
  case read =>
    intro m p p' blk off b rows r ix s u hm h0 hb hlo hhi hp hu
    obtain ⟨hval, hcap⟩ := regRead_lo (m := m) s hm h0 hb hlo hp p
    exact ⟨hval, regRead_hi u hm hb hhi (hu ▸ hcap) p'⟩

end Sys2Proof
end

section

namespace Sys2Proof.Machine

/-! ### Frames of composite operations -/

section
variable {fs gs : List Fld} {s t u : State}

theorem OnlyFields.trans (h : OnlyFields fs s t) (k : OnlyFields fs t u) : OnlyFields fs s u := by
  refine ⟨?_, fun g hg => (k.fields g hg).trans (h.fields g hg)⟩
  rw [k.others, h.others]

theorem OnlyFields.mono (h : OnlyFields fs s t) (hsub : ∀ f ∈ fs, f ∈ gs) : OnlyFields gs s t :=
  ⟨h.others, fun g hg => h.fields g fun f hf => hg f (hsub f hf)⟩

theorem OnlyFields.ite {c : Prop} [Decidable c] (h : OnlyFields fs s t) (k : OnlyFields fs s u) :
    OnlyFields fs s (if c then t else u) := by
  split
  · exact h
  · exact k

/-- An iteration changes only the fields that its steps change. -/
theorem OnlyFields.each {α : Type} {l : List α} {f : α → State → State} (h : ∀ a ∈ l, ∀ v, OnlyFields fs v (f a v))
    (hs : OnlyFields fs s t) : OnlyFields fs s (State.each l f t) := by
  unfold State.each
  induction l generalizing t with
  | nil => exact hs
  | cons a r ih =>
    exact ih (fun b hb => h b (List.mem_cons_of_mem a hb)) (hs.trans (h a List.mem_cons_self t))

/-- A property that the step of a member establishes and every step keeps holds after an iteration. -/
theorem each_establishes {α : Type} {P : State → Prop} {l : List α} {f : α → State → State} {k : α} (hk : k ∈ l)
    (hest : ∀ v, P (f k v)) (hkeep : ∀ a ∈ l, ∀ v, P v → P (f a v)) (t : State) : P (State.each l f t) := by
  have hrest : ∀ (r : List α) (v : State), (∀ a ∈ r, a ∈ l) → P v → P (r.foldl (fun t a => f a t) v) := by
    intro r
    induction r with
    | nil => exact fun v _ h => h
    | cons a r ih =>
      exact fun v hr h => ih _ (fun b hb => hr b (List.mem_cons_of_mem a hb)) (hkeep a (hr a List.mem_cons_self) v h)
  obtain ⟨a, b, rfl⟩ := List.append_of_mem hk
  unfold State.each
  rw [List.foldl_append, List.foldl_cons]
  exact hrest b _ (fun c hc => List.mem_append_right a (List.mem_cons_of_mem k hc)) (hest _)

/-- What one numbered field holds after an iteration that writes each of them. -/
theorem rd_each_wr {α : Type} {l : List α} (F : α → Fld) (c : α → Nat) {k : α} (hk : k ∈ l)
    (hne : ∀ a ∈ l, a ≠ k → (F k).key ≠ (F a).key) (t : State) :
    (State.each l (fun a v => v.wr (F a) (c a)) t).rd (F k) = c k % 2 ^ (F k).w := by
  refine each_establishes (P := fun v => v.rd (F k) = c k % 2 ^ (F k).w) hk (fun v => State.rd_wr_same ..) (fun a ha v h => ?_) t
  by_cases he : a = k
  · rw [he, State.rd_wr_same]
  · rw [State.rd_wr_ne _ _ (hne a ha he), h]

/-- A saturating counter after an addition. -/
theorem rd_inc_same (f : Fld) (n : Nat) (s : State) : (s.inc f n).rd f = min (s.rd f + n) (2 ^ f.w - 1) := by
  rw [State.inc, State.rd_wr_same]
  exact Nat.mod_eq_of_lt (lt_of_le_of_lt (Nat.min_le_right _ _) (Nat.sub_lt (Nat.two_pow_pos _) Nat.one_pos))

theorem rd_inc_ne {f g : Fld} (h : g.key ≠ f.key) (n : Nat) (s : State) : (s.inc f n).rd g = s.rd g := State.rd_wr_ne s _ h

end
end Sys2Proof.Machine
end

section

namespace Sys2Proof.Machine

/-! ### Lantern's counters and timers (R91, R94) -/

/-- The fields that CLR_CNT and START of Lantern clear. -/
def lanClearFields : List Fld :=
  (List.range 16).map Reg.LAN_CTR_VAL ++ (List.range 8).flatMap (fun k => [Hid.tmrRun k, Hid.tmrExp k, Reg.LAN_TMR_VAL k])

theorem ctrVal_mem {c : Nat} (h : c < 16) : Reg.LAN_CTR_VAL c ∈ lanClearFields :=
  List.mem_append_left _ (List.mem_map_of_mem (List.mem_range.2 h))

theorem timer_mem {k : Nat} (h : k < 8) {f : Fld} (hf : f ∈ [Hid.tmrRun k, Hid.tmrExp k, Reg.LAN_TMR_VAL k]) : f ∈ lanClearFields :=
  List.mem_append_right _ (List.mem_flatMap.2 ⟨k, List.mem_range.2 h, hf⟩)

theorem lanClear_only (s : State) : OnlyFields lanClearFields s s.lanClear := by
  refine OnlyFields.each (fun k hk v => ?timers) (OnlyFields.each (fun c hc v => ?counters) (.refl _ s))
  case counters => exact (OnlyFields.refl _ v).wr 0 (ctrVal_mem (List.mem_range.1 hc))
  case timers =>
    have hk := List.mem_range.1 hk
    exact (((OnlyFields.refl _ v).wr 0 (timer_mem hk (by simp))).wr 0 (timer_mem hk (by simp))).wr 0 (timer_mem hk (by simp))

theorem rd_lanClear_ctr (s : State) (c : Fin 16) : s.lanClear.rd (Reg.LAN_CTR_VAL c) = 0 := by
  unfold State.lanClear
  rw [State.rd_each]
  · exact rd_each_wr Reg.LAN_CTR_VAL (fun _ => 0) (List.mem_range.2 c.2)
      (fun a _ h => by with_unfolding_all (refine key_ne rfl rfl ?_; omega)) s
  · intro k hk v
    simp (disch := with_unfolding_all (refine key_ne rfl rfl ?_; omega)) [State.tmrStop, State.rd_wr_ne]

theorem lanClear_timer (s : State) (k : Fin 8) : s.lanClear.rd (Hid.tmrRun k) = 0 ∧ s.lanClear.rd (Hid.tmrExp k) = 0 := by
  unfold State.lanClear
  refine each_establishes (P := fun v => v.rd (Hid.tmrRun k) = 0 ∧ v.rd (Hid.tmrExp k) = 0) (List.mem_range.2 k.2) (fun v => ?_)
    (fun a ha v h => ?_) _
  · simp (disch := with_unfolding_all (refine key_ne rfl rfl ?_; omega)) [State.tmrStop, State.rd_wr_ne, State.rd_wr_same]
  · by_cases he : a = k
    · subst he
      simp (disch := with_unfolding_all (refine key_ne rfl rfl ?_; omega)) [State.tmrStop, State.rd_wr_ne, State.rd_wr_same]
    · have ha := List.mem_range.1 ha
      simpa (disch := with_unfolding_all (refine key_ne rfl rfl ?_; omega)) [State.tmrStop, State.rd_wr_ne] using h

end Sys2Proof.Machine

namespace Sys2Proof
open Machine

/-- Settles O6: each command is its equation; the loops over counters, timers and pins write each field of theirs. -/
theorem triggerSteps : Obligations.TriggerSteps := by
  refine ⟨?cycle, ?run, ?expire, ?pulse, ?start, ?stop, ?force, ?clrOut, ?clrCnt⟩
  case cycle =>
    intro x s s0 u prev now hs0 hprev hrun
    show execLanternCycle x s = _
    rw [execLanternCycle, ← hs0, ← hprev, ← hrun]
  case run =>
    intro s s1 t prev now a edges hs1 hedges ht hnow harc
    delta State.lanRun
    dsimp only
    rw [← hs1, ← hedges, ← ht, ← hnow, harc]
  case expire =>
    intro k s hrun htmr
    refine ⟨_, by show Host.Outcome.next _ = _; rw [hrun, htmr]; rfl,
      ((((OnlyFields.refl _ s).wr 0 (by simp)).wr 0 (by simp)).wr 0 (by simp)).wr 1 (by simp), ?_, ?_, State.rd_wr_same ..⟩ <;>
      simp (disch := with_unfolding_all (refine key_ne rfl rfl ?_; omega)) [State.rd_wr_ne, State.rd_wr_same]
  case pulse =>
    intro k s h
    refine ⟨_, by show Host.Outcome.next _ = _; rw [if_neg h], ((OnlyFields.refl _ s).wr 0 (by simp)).wr 0 (by simp),
      State.rd_wr_same .., ?_⟩
    simp (disch := with_unfolding_all (refine key_ne rfl rfl ?_; omega)) [State.rd_wr_ne, State.rd_wr_same]
  case start =>
    intro s hrun hbst
    refine ⟨(s.lanClear.wr Reg.LAN_STAT_CUR_STATE (s.rd Reg.LAN_CTRL_INIT_STATE)).wr Reg.LAN_STAT_RUN 1, ?eq, ?only,
      State.rd_wr_same .., ?state, fun c => ?ctr, fun k => ?tmr⟩
    case eq =>
      show Host.Outcome.next s.lanStart = _
      simp [State.lanStart, hrun, hbst]
    case only =>
      exact (((lanClear_only s).mono fun f hf => by simp only [List.append_assoc]; exact List.mem_append_right _ hf).wr _ (by simp)).wr 1
        (by simp)
    case state =>
      simp (disch := decide) only [State.rd_wr_ne, State.rd_wr_same]
      rfl
    case ctr =>
      simp (disch := with_unfolding_all (refine key_ne rfl rfl ?_; omega)) only [State.rd_wr_ne, rd_lanClear_ctr]
    case tmr =>
      simp (disch := with_unfolding_all (refine key_ne rfl rfl ?_; omega)) only [State.rd_wr_ne, lanClear_timer, and_self]
  case stop =>
    intro s hrun
    refine ⟨_, by show Host.Outcome.next s.lanStop = _; rw [State.lanStop, if_pos hrun], (OnlyFields.refl _ s).wr 0 (by simp),
      State.rd_wr_same ..⟩
  case force =>
    intro q s hrun
    refine ⟨_, by show Host.Outcome.next (s.lanForce q) = _; rw [State.lanForce, if_pos hrun], (OnlyFields.refl _ s).wr _ (by simp), ?_⟩
    rw [State.rd_wr_same]
    exact Nat.mod_eq_of_lt q.2
  case clrOut =>
    intro s hrun
    refine ⟨_, by show Host.Outcome.next s.lanClrOut = _; rw [State.lanClrOut, if_neg (by simp [hrun])], ?only, fun k => ?pin⟩
    case only =>
      exact OnlyFields.each (fun k hk v => ((OnlyFields.refl _ v).wr 0 (List.mem_flatMap.2 ⟨k, hk, by simp⟩)).wr 0
        (List.mem_flatMap.2 ⟨k, hk, by simp⟩)) (.refl _ s)
    case pin =>
      refine each_establishes (P := fun v => v.rd (Hid.toutLvl k) = 0 ∧ v.rd (Hid.toutPulse k) = 0) (List.mem_range.2 k.2) (fun v => ?_)
        (fun a ha v h => ?_) s
      · simp (disch := with_unfolding_all (refine key_ne rfl rfl ?_; omega)) [State.rd_wr_ne, State.rd_wr_same]
      · have ha := List.mem_range.1 ha
        by_cases he : a = k
        · subst he
          simp (disch := with_unfolding_all (refine key_ne rfl rfl ?_; omega)) [State.rd_wr_ne, State.rd_wr_same]
        · simpa (disch := with_unfolding_all (refine key_ne rfl rfl ?_; omega)) [State.rd_wr_ne] using h
  case clrCnt =>
    intro s hrun
    refine ⟨s.lanClear.wr Reg.LAN_CTX_DROP 0, ?eq, ?only, State.rd_wr_same .., fun c => ?ctr, fun k => ?tmr⟩
    case eq =>
      show Host.Outcome.next s.lanClrCnt = _
      simp [State.lanClrCnt, hrun]
    case only =>
      exact ((lanClear_only s).mono fun f hf => List.mem_cons_of_mem _ hf).wr 0 (by simp)
    case ctr =>
      simp (disch := with_unfolding_all (refine key_ne rfl rfl ?_; omega)) only [State.rd_wr_ne, rd_lanClear_ctr]
    case tmr =>
      simp (disch := with_unfolding_all (refine key_ne rfl rfl ?_; omega)) only [State.rd_wr_ne, lanClear_timer, and_self]

end Sys2Proof
end

section

namespace Sys2Proof.Machine

/-! ### Fields that the shared services keep

An engine's request to memory, an event or a journal entry writes logs, counters and pending bits of other units. The fields of the
places below (R554) are written by their own engine alone, so each of these services keeps them. -/

/-- The places of the probe ports, Marigold, the timebase, the host port, the partner links, and the hidden places of the
probe ports, fabrics, Aster, Marigold, clocks, Millstone, partner links, timebase and host port. -/
def quietKey (k : Nat) : Prop :=
  (0x009 * 2 ^ 26 ≤ k ∧ k < 0x00B * 2 ^ 26) ∨ (0x010 * 2 ^ 26 ≤ k ∧ k < 0x014 * 2 ^ 26) ∨ (0x017 * 2 ^ 26 ≤ k ∧ k < 0x018 * 2 ^ 26)
    ∨ (0x019 * 2 ^ 26 ≤ k ∧ k < 0x01A * 2 ^ 26)
    ∨ (0x1000 * 2 ^ 26 ≤ k ∧ k < 0x1018 * 2 ^ 26) ∨ (0x1041 * 2 ^ 26 ≤ k ∧ k < 0x1053 * 2 ^ 26)
    ∨ (0x10BF * 2 ^ 26 ≤ k ∧ k < 0x1117 * 2 ^ 26) ∨ (0x1119 * 2 ^ 26 ≤ k ∧ k < 0x112E * 2 ^ 26)

/-- A field that the services keep. -/
class Quiet (g : Fld) : Prop where
  place : quietKey g.key

/-- A field that a service may write. -/
def Fld.Noisy (f : Fld) : Prop := ¬quietKey f.key

/-- How a field is seen to be kept: its name unfolds to a block, an offset and a low bit, and arithmetic finds its place. -/
theorem quiet_of {g : Fld} {b o l : Nat} (e : g.key = (b * 1048576 + o) * 64 + l) (h : quietKey ((b * 1048576 + o) * 64 + l)) : Quiet g :=
  ⟨by rwa [e]⟩

/-- How a field is seen to be one that a service may write, in the proofs below by the discharger of `simp`. -/
theorem noisy {f : Fld} {b o l : Nat} (e : f.key = (b * 1048576 + o) * 64 + l)
    (h : ∀ k, k = (b * 1048576 + o) * 64 + l → (k < 0x24000000 ∨ 0x2C000000 ≤ k) ∧ (k < 0x40000000 ∨ 0x50000000 ≤ k)
      ∧ (k < 0x5C000000 ∨ 0x60000000 ≤ k) ∧ (k < 0x64000000 ∨ 0x68000000 ≤ k)
      ∧ (k < 0x4000000000 ∨ 0x4060000000 ≤ k) ∧ (k < 0x4104000000 ∨ 0x414C000000 ≤ k)
      ∧ (k < 0x42FC000000 ∨ 0x445C000000 ≤ k) ∧ (k < 0x4464000000 ∨ 0x44B8000000 ≤ k)) : f.Noisy := by
  have h := h _ e
  unfold Fld.Noisy quietKey
  omega

theorem quiet_foldl {α β : Type} (st : β → State) {g : Fld} {f : β → α → β} {l : List α} {b : β}
    (h : ∀ a ∈ l, ∀ x, (st (f x a)).rd g = (st x).rd g) : (st (l.foldl f b)).rd g = (st b).rd g :=
  List.foldlRecOn l f (motive := fun x => (st x).rd g = (st b).rd g) rfl fun x hx a ha => (h a ha x).trans hx

theorem quiet_each {α : Type} {g : Fld} {f : α → State → State} {l : List α} {s : State}
    (h : ∀ a ∈ l, ∀ t, (f a t).rd g = t.rd g) : (State.each l f s).rd g = s.rd g := quiet_foldl id h

@[simp] theorem rd_ite {g : Fld} (c : Prop) [Decidable c] (a b : State) : (if c then a else b).rd g = if c then a.rd g else b.rd g := by
  split <;> rfl

/-- What is known of the state that an operation returns beside its answer, where the answer has been taken apart. -/
theorem quiet_of_eq_mk {α : Type} {g : Fld} {x : α × State} {r : α} {t : State} {n : Nat} (h : x = (r, t)) (hx : x.2.rd g = n) :
    t.rd g = n := by rw [← hx, h]

/-- Only the cells of a state are read. -/
@[simp] theorem rd_mk (s : State) (g : Fld) (pending : List Instr) (mem : List Host.Cell) (info : Tab Info) (wback : List Nat) (freeCtr
    : Nat) (laneBuf : Tab (List Slot)) (islFifo : Tab (List PRow)) (hopDelay : Tab (List DRow)) (hopOpen : Tab Rec) (hopStage : Tab
    (List Rec)) (hopTail : Tab (List Byte)) (runLoops : Tab (List (Nat × Nat))) (runQueue : Tab (List Frame)) (txLine : Tab (List
    TxBlk)) (fabVals : Tab (List Nat)) (tplCache : Tab (List Tpl)) (keyFifo : Tab (List KeyEntry)) (sluices : Tab (List Nat)) (fifos :
    Tab (List Nat)) (cache : Tab CLine) (icache : Tab (List Byte)) (mstQueue : List MBlk) (streams : Tab (List (List Byte))) (rlkRetry :
    Tab (List RlkRow)) (rlkFifo : Tab (List RlkRow)) (packets : List Pkt) (slvReqs : Tab (List SlvReq)) (fpResps : Tab (List FpResp))
    (loHeld : Tab Nat) (hiShadow : Tab Nat) (last : Resp) (mrQueue : Tab (List MrResp)) (wires : List Wire) (walkFail : List Wire)
    (wireErrs : List (Wire × Nat)) (guards : List (Nat × Nat)) (records : List Nat) (out : List Out) :
    State.rd ⟨pending, s.cells, mem, info, wback, freeCtr, laneBuf, islFifo, hopDelay, hopOpen, hopStage, hopTail, runLoops, runQueue,
    txLine, fabVals, tplCache, keyFifo, sluices, fifos, cache, icache, mstQueue, streams, rlkRetry, rlkFifo, packets, slvReqs, fpResps,
    loHeld, hiShadow, last, mrQueue, wires, walkFail, wireErrs, guards, records, out⟩ g = s.rd g := rfl


section
variable (s : State) {g : Fld}

@[simp] theorem rd_emitPins (o : Out) : (s.emitPins o).rd g = s.rd g := by simp [State.emitPins]

@[simp] theorem rd_writeMem (l : List Byte) (a : Nat) : (s.writeMem a l).rd g = s.rd g := by
  induction l generalizing s a with
  | nil => rfl
  | cons b r ih => simp [State.writeMem, ih]

end

section
variable (s : State) {g : Fld} [Quiet g]

@[simp] theorem quiet_wr (f : Fld) (v : Nat) (h : f.Noisy) : (s.wr f v).rd g = s.rd g :=
  State.rd_wr_ne s v fun e => h (e ▸ Quiet.place)

@[simp] theorem quiet_wrIf (c : Bool) (f : Fld) (v : Nat) (h : f.Noisy) : (s.wrIf c f v).rd g = s.rd g := by
  simp [State.wrIf, h]

@[simp] theorem quiet_inc (f : Fld) (n : Nat) (h : f.Noisy) : (s.inc f n).rd g = s.rd g := quiet_wr s f _ h
@[simp] theorem quiet_add (f : Fld) (n : Nat) (h : f.Noisy) : (s.add f n).rd g = s.rd g := quiet_wr s f _ h
@[simp] theorem quiet_setB (f : Fld) (i : Nat) (h : f.Noisy) : (s.setB f i).rd g = s.rd g := quiet_wr s f _ h
@[simp] theorem quiet_wrFree (f : Fld) (h : f.Noisy) : (s.wrFree f).rd g = s.rd g := quiet_wr s.fresh.2 f _ h
@[simp] theorem quiet_clrB (f : Fld) (i : Nat) (h : f.Noisy) : (s.clrB f i).rd g = s.rd g := quiet_wr s f _ h

/-! ### Events, rejects and the journal (R10, R375 to R377, R489) -/

theorem quiet_enqueue (p : Pkt) (hp : p.src < 128) : (s.enqueue p).rd g = s.rd g := by
  simp only [State.enqueue, State.niCounts]
  split <;> simp (disch := with_unfolding_all (refine noisy rfl ?_; omega))

@[simp] theorem quiet_sysPost (entry key a : Nat) (d : List Byte) : (s.sysPost entry key a d).rd g = s.rd g :=
  quiet_enqueue s _ (by decide : 89 < 128)

theorem quiet_msixSend {v : Nat} (hv : v < 512) : (s.msixSend v).rd g = s.rd g := by
  unfold State.msixSend
  split
  · exact quiet_wr s _ 1 (by with_unfolding_all (refine noisy rfl ?_; omega))
  · rfl

@[simp] theorem quiet_touPulse (k : Fin 8) : (s.touPulse k).rd g = s.rd g := by
  simp (disch := with_unfolding_all (refine noisy rfl ?_; omega)) [State.touPulse]

/-- Of an event only the register that holds its pending bit depends on its number. -/
@[simp] theorem quiet_raise (e : Nat) (h : (Reg.EVT_PEND (e / 32)).Noisy) : (s.raise e).rd g = s.rd g := by
  have hfab (t : State) : (t.evtFab e).rd g = t.rd g := by simp [State.evtFab]
  have htout (t : State) : (t.evtTout e).rd g = t.rd g := by
    have hpin : t.rd (Reg.EVT_ROUTE_B_PIN e) < 8 := State.rd_lt t _
    simp only [State.evtTout, rd_ite, quiet_touPulse t ⟨_, hpin⟩, ite_self]
  simp [State.raise, quiet_msixSend _ (State.rd_lt s (Reg.EVT_ROUTE_A_VECTOR e)), hfab, htout, h]

@[simp] theorem quiet_raiseB (f : Fld) (i e : Nat) (hf : f.Noisy) (he : (Reg.EVT_PEND (e / 32)).Noisy) :
    (s.raiseB f i e).rd g = s.rd g := by
  rw [State.raiseB, quiet_raise _ _ he, quiet_setB _ _ _ hf]

@[simp] theorem quiet_alarm (f : Fld) (h : f.Noisy) : (s.alarm f).rd g = s.rd g := by
  rw [State.alarm, quiet_raise _ _ (noisy rfl (by omega)), quiet_wr _ _ _ h]

@[simp] theorem quiet_journal (kind detail : Nat) : (s.journal kind detail).rd g = s.rd g := by
  have hpc (c : Nat) (hc : c ∈ List.range 4) (t : State) : (t.corePc c).rd g = t.rd g := by
    have := List.mem_range.1 hc
    simp (disch := with_unfolding_all (refine noisy rfl ?_; omega)) [State.corePc]
  have hwith (t : State) (body : List Byte) : (t.journalWith kind detail body).rd g = t.rd g := by
    unfold State.journalWith
    split
    · simp (disch := with_unfolding_all (refine noisy rfl ?_; omega)) [State.telEvt]
    · exact (quiet_wr _ _ _ (noisy rfl (by omega))).trans (quiet_wr _ _ _ (noisy rfl (by omega)))
  rw [State.journal, hwith, quiet_each hpc]

theorem quiet_repairRecord (r : Nat) {t : State} (h : s.repairRecord r = some t) : t.rd g = s.rd g := by
  unfold State.repairRecord at h
  split at h
  · cases h; rfl
  · split at h
    · cases h
    · cases h
      simp (disch := with_unfolding_all (refine noisy rfl ?_; omega))

/-! ### Guards, buckets and error logs (R245 to R249, R459, R460) -/

theorem quiet_guard {q : Req} {wr : Bool} {a n : Nat} {t : State} (h : s.guard q wr a n = some t) :
    t.rd g = s.rd g := by
  unfold State.guard at h
  split at h
  · cases h
    simp (disch := with_unfolding_all (refine noisy rfl ?_; omega))
  · split at h
    · cases h
      simp (disch := with_unfolding_all (refine noisy rfl ?_; omega)) [State.logProt]
    · cases h

/-- A leaky bucket whose fields and whose action leave a field leaves it. -/
theorem quiet_bucket {lvl trip : Fld} (hl : lvl.Noisy) (ht : trip.Noisy) (thresh n : Nat) {f : State → State}
    (hf : ∀ t, (f t).rd g = t.rd g) : (s.bucket lvl trip thresh n f).rd g = s.rd g := by
  unfold State.bucket
  dsimp only
  split
  · rw [hf, quiet_wr _ _ _ ht, quiet_wr _ _ _ hl]
  · exact quiet_wr s _ _ hl

theorem quiet_classErr {k : Nat} (hk : k < 8) (ue : Bool) : (s.classErr k ue).rd g = s.rd g := by
  unfold State.classErr
  rw [quiet_bucket]
  · cases ue <;> simp (disch := with_unfolding_all (refine noisy rfl ?_; omega))
  · with_unfolding_all (refine noisy rfl ?_; omega)
  · with_unfolding_all (refine noisy rfl ?_; omega)
  · exact fun t => quiet_raise t _ (by with_unfolding_all (refine noisy rfl ?_; omega))

@[simp] theorem quiet_sramLog (kind a : Nat) (q : Req) : (s.sramLog kind a q).rd g = s.rd g := by
  simp (disch := with_unfolding_all (refine noisy rfl ?_; omega)) [State.sramLog]

theorem bankOf_lt (a : Nat) : bankOf a < 81 := by
  unfold bankOf
  split <;> omega

theorem quiet_sramCe {b : Nat} (hb : b < 81) : (s.sramCe b).rd g = s.rd g := by
  unfold State.sramCe
  rw [quiet_classErr _ (by omega), quiet_bucket]
  · exact quiet_inc s _ _ (by with_unfolding_all (refine noisy rfl ?_; omega))
  · with_unfolding_all (refine noisy rfl ?_; omega)
  · with_unfolding_all (refine noisy rfl ?_; omega)
  · exact fun t => by simp (disch := with_unfolding_all (refine noisy rfl ?_; omega)) [State.srmEvt]

theorem rankOf_lt (a : Nat) : s.rankOf a < 64 := by
  unfold State.rankOf
  dsimp only
  split
  · exact State.rd_lt s _
  · exact State.rd_lt s _

theorem quiet_rankTrip {r : Nat} (hr : r < 64) : (State.rankTrip r s).rd g = s.rd g := by
  have hevt : (s.hbmEvt 0).rd g = s.rd g := by
    simp (disch := with_unfolding_all (refine noisy rfl ?_; omega)) [State.hbmEvt]
  have hbad : ((s.hbmEvt 0).wr (Reg.HBM_RANK_BAD r) 1).rd g = s.rd g :=
    (quiet_wr _ _ 1 (by with_unfolding_all (refine noisy rfl ?_; omega))).trans hevt
  unfold State.rankTrip
  dsimp only
  split
  · cases hrec : State.repairRecord ((s.hbmEvt 0).wr (Reg.HBM_RANK_BAD r) 1) (9 * 2 ^ 28 + r * 2 ^ 22 + r * 2 ^ 16) with
    | none => exact hbad
    | some t => exact (quiet_repairRecord _ _ hrec).trans hbad
  · exact (quiet_wrIf _ _ _ 1 (by with_unfolding_all (refine noisy rfl ?_; omega))).trans hevt

theorem quiet_rankErr {r : Nat} (hr : r < 64) (n : Nat) : (s.rankErr r n).rd g = s.rd g :=
  quiet_bucket s (by with_unfolding_all (refine noisy rfl ?_; omega)) (by with_unfolding_all (refine noisy rfl ?_; omega)) _ n
    fun t => quiet_rankTrip t hr

theorem quiet_hbmCe {r : Nat} (hr : r < 64) : (s.hbmCe r).rd g = s.rd g := by
  rw [State.hbmCe, quiet_classErr _ (by omega), quiet_rankErr _ hr]
  exact quiet_inc s _ _ (by with_unfolding_all (refine noisy rfl ?_; omega))

@[simp] theorem quiet_hbmLog (kind a rank syn : Nat) (kmis keyV : Bool) (q : Req) :
    (s.hbmLog kind a rank syn kmis keyV q).rd g = s.rd g := by
  simp (disch := with_unfolding_all (refine noisy rfl ?_; omega)) [State.hbmLog]

theorem quiet_hbmUe (q : Req) (kind a : Nat) : (s.hbmUe q kind a).rd g = s.rd g := by
  have hr := rankOf_lt s a
  have hevt (t : State) : (t.hbmEvt (if kind = 1 then 2 else 1)).rd g = t.rd g := by
    split <;> simp (disch := with_unfolding_all (refine noisy rfl ?_; omega)) [State.hbmEvt]
  have hue (t : State) : (t.inc (Reg.HBM_PC_UE (s.rankOf a % 16)) 1).rd g = t.rd g :=
    quiet_inc t _ _ (by with_unfolding_all (refine noisy rfl ?_; omega))
  have hkm (t : State) : (t.inc (Reg.HBM_PC_KMIS (s.rankOf a % 16)) 1).rd g = t.rd g :=
    quiet_inc t _ _ (by with_unfolding_all (refine noisy rfl ?_; omega))
  have halarm (t : State) : (t.alarm Reg.PEO_ALARM_HBM).rd g = t.rd g :=
    quiet_alarm t _ (by with_unfolding_all (refine noisy rfl ?_; omega))
  simp only [State.hbmUe, State.hbmBad]
  split <;> split <;> simp [hkm, halarm, hevt, hue, quiet_classErr, quiet_rankErr _ hr]

/-! ### Requests to SRAM and HBM (R244 to R252, R271 to R282) -/

theorem quiet_sramUe (q : Req) (a : Nat) : (s.sramUe q a).rd g = s.rd g := by
  have hb := bankOf_lt a
  simp only [State.sramUe, State.sramBad]
  generalize bankOf a = b at hb ⊢
  rw [quiet_classErr _ (by omega)]
  simp (disch := with_unfolding_all (refine noisy rfl ?_; omega)) [State.srmEvt]

@[simp] theorem quiet_readWord (q : Req) (a : Nat) : (s.readWord q a).2.2.rd g = s.rd g := by
  unfold State.readWord
  split
  · rfl
  · exact quiet_sramCe s (bankOf_lt a)
  · exact quiet_sramUe s q a

omit [Quiet g] in
@[simp] theorem rd_putWord (x a v : Nat) : (s.putWord x a v).rd g = s.rd g := by
  simp [State.putWord, State.setWordInfo]

@[simp] theorem quiet_mergeWord (q : Req) (a : Nat) (ms : List (Option Byte)) : (s.mergeWord q a ms).1.rd g = s.rd g := by
  have hb := bankOf_lt a
  unfold State.mergeWord
  split
  · exact rd_putWord s _ _ _
  · generalize bankOf a = b at hb ⊢
    split
    · dsimp only
      rw [quiet_classErr _ (by omega)]
      simp (disch := with_unfolding_all (refine noisy rfl ?_; omega)) [State.srmEvt]
    · simp only [rd_putWord]
      split
      · exact quiet_sramCe s hb
      · rfl

@[simp] theorem quiet_countRd (a : Nat) : (s.countRd a).rd g = s.rd g :=
  quiet_add s _ _ (by with_unfolding_all (refine noisy rfl ?_; omega))

@[simp] theorem quiet_countWr (a : Nat) : (s.countWr a).rd g = s.rd g :=
  quiet_add s _ _ (by with_unfolding_all (refine noisy rfl ?_; omega))

@[simp] theorem quiet_readLine (q : Req) (a : Nat) : (s.readLine q a).2.2.rd g = s.rd g := by
  unfold State.readLine
  split
  · exact quiet_countRd s a
  · simpa only [rd_mk] using (quiet_hbmCe (g := g) (s.countRd a) (rankOf_lt s a)).trans (quiet_countRd s a)
  · exact (quiet_hbmUe _ q 0 a).trans (quiet_countRd s a)

omit [Quiet g] in
@[simp] theorem rd_putLine (x a v : Nat) : (s.putLine x a v).rd g = s.rd g := by
  simp [State.putLine, State.setLineInfo]

@[simp] theorem quiet_mergeLine (q : Req) (a : Nat) (ms : List (Option Byte)) : (s.mergeLine q a ms).1.rd g = s.rd g := by
  unfold State.mergeLine
  split
  · simp
  · dsimp only
    split
    · exact (quiet_hbmUe _ q 1 a).trans (quiet_countRd s a)
    · simp only [quiet_countWr, rd_putLine]
      split
      · exact (quiet_hbmCe _ (rankOf_lt s a)).trans (quiet_countRd s a)
      · exact quiet_countRd s a

omit [Quiet g] in
@[simp] theorem rd_openRows (wr : Bool) (a n : Nat) : (s.openRows wr a n).rd g = s.rd g := by
  unfold State.openRows
  split
  · rfl
  · refine quiet_each fun u _ t => ?_
    dsimp only
    split <;> rfl

@[simp] theorem quiet_readUnits (q : Req) (a n : Nat) : (s.readUnits q a n).2.2.rd g = s.rd g := by
  refine Eq.trans (quiet_foldl (fun x : List Byte × MRes × State => x.2.2) fun u _ x => ?_) (rd_openRows s false a n)
  cases isSram a <;> simp

@[simp] theorem quiet_writeUnits (q : Req) (a : Nat) (bs : List (Option Byte)) : (s.writeUnits q a bs).2.rd g = s.rd g := by
  refine Eq.trans (quiet_foldl (fun x : MRes × State => x.2) fun u _ x => ?_) (rd_openRows s true a bs.length)
  dsimp only
  generalize unitPart _ a u bs = part
  by_cases hp : part.all (fun m => m.isNone) = true
  · rw [if_pos hp]
  · rw [if_neg hp]
    cases isSram a <;> simp

theorem quiet_bankGate (q : Req) (a : Nat) {b : Nat} (hb : b < 81) : (s.bankGate q a b).2.rd g = s.rd g := by
  unfold State.bankGate
  dsimp only
  split_ifs <;> simp (disch := with_unfolding_all (refine noisy rfl ?_; omega))

@[simp] theorem quiet_memGate (q : Req) (a n : Nat) : (s.memGate q a n).2.rd g = s.rd g := by
  have hbanks : (s.bankGates q a (banksOf a n)).2.rd g = s.rd g :=
    quiet_foldl (fun x : MRes × State => x.2) fun b hb x => quiet_bankGate x.2 q a (by
      unfold banksOf at hb
      split at hb
      · cases hb
      · have := List.mem_range.1 (List.mem_of_mem_filter hb)
        omega)
  unfold State.memGate
  split
  · rfl
  · split_ifs <;> simp [hbanks]
  · split_ifs <;> rfl
  · rfl

@[simp] theorem quiet_memRead (q : Req) (a n : Nat) : (s.memRead q a n).2.2.rd g = s.rd g := by
  have hgate := quiet_memGate (g := g) s q a n
  unfold State.memRead
  split
  next t h => exact quiet_guard s h
  next =>
    split
    next t h => rw [quiet_readUnits, ← hgate, h]
    next r t _ h => rw [← hgate, h]

@[simp] theorem quiet_memWrite (q : Req) (a : Nat) (bs : List Byte) : (s.memWrite q a bs).2.rd g = s.rd g := by
  unfold State.memWrite State.memWriteBe
  split
  next t h => exact quiet_guard s h
  next =>
    split
    next t h =>
      have ht : t.rd g = s.rd g := by rw [← quiet_memGate (g := g) s q a _, h]
      split <;> simp [ht]
    next r t _ h => rw [← quiet_memGate (g := g) s q a _, h]

theorem quiet_memWrite_of {q : Req} {a : Nat} {bs : List Byte} {r : MRes} {u : State} (h : s.memWrite q a bs = (r, u)) :
    u.rd g = s.rd g := by rw [← quiet_memWrite (g := g) s q a bs, h]

/-! ### Hopper (R65 to R82) -/

theorem quiet_bufWrite_of {q o : Nat} {bs : List Byte} {r : MRes} {u : State} (h : s.bufWrite q o bs = (r, u)) : u.rd g = s.rd g := by
  unfold State.bufWrite at h
  dsimp only at h
  split at h
  next t ht =>
    have htr := quiet_memWrite_of (g := g) s ht
    split at h
    · exact (quiet_memWrite_of t h).trans htr
    · cases h
      exact htr
  next r' t _ ht =>
    cases h
    exact quiet_memWrite_of s ht

variable {q : Nat}

theorem quiet_stage (hq : q < 4) (f : Nat) (r : Rec) : (s.stage q f r).rd g = s.rd g := by
  have hseq : (s.add (Hid.hopSeq q) 1).rd g = s.rd g := quiet_add s _ _ (by with_unfolding_all (refine noisy rfl ?_; omega))
  unfold State.stage
  dsimp only
  split
  · split
    next t h =>
      refine Eq.trans ?_ ((quiet_bufWrite_of _ h).trans hseq)
      simp (disch := with_unfolding_all (refine noisy rfl ?_; omega))
    next r t _ h =>
      refine Eq.trans ?_ ((quiet_bufWrite_of _ h).trans hseq)
      simp (disch := with_unfolding_all (refine noisy rfl ?_; omega))
  · refine Eq.trans ?_ hseq
    simp (disch := with_unfolding_all (refine noisy rfl ?_; omega))

theorem quiet_closeOpen (hq : q < 4) (abort : Bool) : (s.closeOpen q abort).rd g = s.rd g := by
  have hfilt (t : State) : (t.inc (Reg.HOP_FILTERED q) 1).rd g = t.rd g :=
    quiet_inc t _ _ (by with_unfolding_all (refine noisy rfl ?_; omega))
  have hdrop (t : State) : (t.inc (Reg.HOP_DROP q) 1).rd g = t.rd g :=
    quiet_inc t _ _ (by with_unfolding_all (refine noisy rfl ?_; omega))
  unfold State.closeOpen
  split
  · rfl
  · unfold State.closeRec
    dsimp only
    split_ifs
    · rfl
    · exact hfilt _
    · exact quiet_stage _ hq _ _
    · exact hdrop _
    · rfl

omit [Quiet g] in
@[simp] theorem rd_setOpen (q : Nat) (r : Rec) : (s.setOpen q r).rd g = s.rd g := rfl

theorem quiet_fabricRow (hq : q < 4) (d : DRow) : (s.fabricRow q d).rd g = s.rd g := by
  unfold State.fabricRow
  dsimp only
  split <;> simp [quiet_closeOpen _ hq]

theorem quiet_cl49Block (hq : q < 4) (d : DRow) (x : Slot) : (State.cl49Block q d s x).rd g = s.rd g := by
  unfold State.cl49Block
  dsimp only
  split_ifs
  · simp only [rd_setOpen, quiet_closeOpen _ hq]
    split <;> rfl
  · split
    · simp only [quiet_closeOpen _ hq]
      split <;> rfl
    · split <;> rfl
  · split <;> rfl
  · split <;> rfl

theorem quiet_hopRow (hq : q < 4) (d : DRow) : (s.hopRow q d).rd g = s.rd g := by
  have hfold : (d.row.slots.foldl (State.cl49Block q d) s).rd g = s.rd g :=
    quiet_foldl id fun x _ u => quiet_cl49Block u hq d x
  simp [State.hopRow, State.rowsRow, quiet_fabricRow _ hq, quiet_closeOpen _ hq, hfold]

theorem quiet_hopPortDown (hq : q < 4) : (s.hopPortDown q).rd g = s.rd g :=
  (quiet_closeOpen _ hq true).trans (quiet_foldl id fun d _ t => quiet_hopRow t hq d)

/-! ### Runner (R94 to R104) -/

@[simp] theorem quiet_runRead (key a n : Nat) : (s.runRead key a n).2.2.rd g = s.rd g := by
  have hread := quiet_memRead (g := g) s (s.req .runner key) a n
  have hfresh (v : State) : (v.freshBytes n).2.rd g = v.rd g := rfl
  unfold State.runRead
  split
  · rfl
  · split <;> simp_all only

theorem quiet_runRead_of {key a n : Nat} {r : MRes} {b : List Byte} {u : State} (h : s.runRead key a n = (r, b, u)) :
    u.rd g = s.rd g := by rw [← quiet_runRead (g := g) s key a n, h]

@[simp] theorem quiet_tplBackAll (c : Nat) (l : List Tpl) : (s.tplBackAll c l).rd g = s.rd g := by
  have hback (t : State) (x : Tpl) {b : Bool} {u : State} (h : t.tplBack x = (b, u)) : u.rd g = t.rd g := by
    unfold State.tplBack at h
    dsimp only at h
    split at h
    next v hv =>
      cases h
      exact quiet_memWrite_of t hv
    next r v _ hv =>
      split at h <;> cases h
      next hw => exact (quiet_memWrite_of v hw).trans (quiet_memWrite_of t hv)
      next hw => exact (quiet_memWrite_of v hw).trans (quiet_memWrite_of t hv)
  refine quiet_each fun x _ t => ?_
  split
  next u h => exact hback t x h
  next u h => exact (hback t x h : u.rd g = t.rd g)

@[simp] theorem quiet_tplFlush (c : Nat) : (s.tplFlush c).rd g = s.rd g := quiet_tplBackAll _ c _

theorem quiet_tplGet_of {l : List Tpl} {n : Nat} {o : Option Tpl} {u : State} (h : s.tplGet l n = (o, u)) : u.rd g = s.rd g := by
  unfold State.tplGet at h
  split at h
  · cases h
    rfl
  · split at h
    next hr =>
      cases h
      exact quiet_runRead_of s hr
    next hr =>
      cases h
      next u _ => exact (quiet_runRead u 0 _ 8).trans (quiet_runRead_of s hr)

theorem quiet_tplLoad_of {c n : Nat} {o : Option Tpl} {u : State} (h : s.tplLoad c n = (o, u)) : u.rd g = s.rd g := by
  unfold State.tplLoad at h
  dsimp only at h
  split at h
  next hg =>
    cases h
    exact quiet_tplGet_of s hg
  next hg =>
    cases h
    next v => exact (quiet_tplBackAll _ c _).trans (quiet_tplGet_of s hg : v.rd g = s.rd g)

theorem quiet_lineCut {c : Nat} (hc : c < 4) : (s.lineCut c).rd g = s.rd g := by
  have huncount (n : Nat) (t : State) : (t.chUncount c n).rd g = t.rd g := by
    have hframes : (t.wr (Reg.RUN_CH_FRAMES c) (t.rd (Reg.RUN_CH_FRAMES c) - 1)).rd g = t.rd g :=
      quiet_wr t _ _ (by with_unfolding_all (refine noisy rfl ?_; omega))
    unfold State.chUncount
    dsimp only
    split
    next x u h => exact (quiet_tplLoad_of _ h).trans hframes
    next u h => exact (quiet_tplLoad_of _ h).trans hframes
  have hall (l : List Nat) : (State.each l (fun n u => u.chUncount c n) s).rd g = s.rd g :=
    quiet_each fun n _ t => huncount n t
  exact (quiet_wr _ _ 0 (by with_unfolding_all (refine noisy rfl ?_; omega))).trans (hall _)

theorem quiet_chLeave {c : Nat} (hc : c < 4) (st : Nat) : (s.chLeave c st).rd g = s.rd g := by
  simp (disch := with_unfolding_all (refine noisy rfl ?_; omega)) [State.chLeave]

theorem quiet_chFault {c : Nat} (hc : c < 4) (cause : Nat) : (s.chFault c cause).rd g = s.rd g := by
  simp (disch := with_unfolding_all (refine noisy rfl ?_; omega)) [State.chFault, quiet_chLeave _ hc]

theorem quiet_chCut {c : Nat} (hc : c < 4) (cause : Nat) : (s.chCut c cause).rd g = s.rd g := by
  simp [State.chCut, quiet_chFault _ hc, quiet_lineCut _ hc]

end
end Sys2Proof.Machine
end

section

namespace Sys2Proof.Machine

/-! ### Writes by register offset (R5, R575) -/

section
variable {blk off b : Nat} {ix : List Nat} {w : Nat} {g : Fld}

/-- A field that stands apart from the one written and from the block's denial is kept. -/
theorem rd_writeField_ne (s0 s : State) {f : FSpec} (hc : g.key ≠ (f.cell blk off).key) (hd : g.key ≠ (Stat.modeDeny blk).key) :
    (s0.writeField blk off b ix w s f).rd g = s.rd g := by
  have hwr (v : Nat) : (s.wr (f.cell blk off) v).rd g = s.rd g := State.rd_wr_ne s v hc
  have hdeny : (s.deny blk).rd g = s.rd g := State.rd_wr_ne s 1 hd
  unfold State.writeField
  dsimp only
  split
  case h_5 | h_6 => exact hwr _
  case h_7 => split_ifs <;> simp only [hwr, hdeny]
  all_goals rfl

theorem rd_writeRow_ne (s : State) {r : Row} (hc : ∀ f ∈ r.flds b ix, g.key ≠ (f.cell blk off).key)
    (hd : g.key ≠ (Stat.modeDeny blk).key) : (s.writeRow blk off b r ix w).rd g = s.rd g := by
  unfold State.writeRow
  generalize hl : r.flds b ix = l at hc
  clear hl
  suffices ∀ t : State, (l.foldl (fun t f => s.writeField blk off b ix w t f) t).rd g = t.rd g from this s
  induction l with
  | nil => exact fun t => rfl
  | cons f fs ih =>
    exact fun t => (ih (fun x hx => hc x (List.mem_cons_of_mem f hx)) _).trans (rd_writeField_ne s t (hc f List.mem_cons_self) hd)

/-- A write by offset is one of the row that the block lists there. -/
theorem writeReg_of_row (s : State) {rows : List Row} {r : Row} (hb : blockRows blk = some (b, rows))
    (hr : findRow rows off = some (r, ix, false)) (w : Nat) : s.writeReg blk off w = s.writeRow blk off b r ix w := by
  simp only [State.writeReg, hb, hr]

end
end Sys2Proof.Machine
end

section

namespace Sys2Proof.Machine

/-! ### Bring-up of a probe port (R43, R46) -/

section
variable (s : State) (p : Fin 4)

theorem quiet_prbState : Quiet (Reg.PRB_STAT_STATE p) := by
  with_unfolding_all (refine quiet_of rfl ?_; unfold quietKey; omega)

/-- A bring-up state is entered with no cause of a fault. -/
theorem rd_prbGo_state {st : Nat} (h : st < 16) : (s.prbGo p st).rd (Reg.PRB_STAT_STATE p) = st := by
  simp (disch := with_unfolding_all (refine key_ne rfl rfl ?_; omega)) only [State.prbGo, State.rd_wr_ne, State.rd_wr_same]
  exact Nat.mod_eq_of_lt h

/-- Outside UP a bring-up state is entered by a change of the state and the cause alone. -/
theorem prbGo_eq (h : s.rd (Reg.PRB_STAT_STATE p) ≠ 7) (st : Nat) :
    s.prbGo p st = (s.wr (Reg.PRB_STAT_STATE p) st).wr (Reg.PRB_STAT_FAULT_CAUSE p) 0 := by
  rw [State.prbGo, State.prbDown, if_neg h]

theorem rd_lineDrop {g : Fld} (q : Nat) : (s.lineDrop q).rd g = s.rd g := rfl

theorem rd_txSrcApply_state : (s.txSrcApply p).rd (Reg.PRB_STAT_STATE p) = s.rd (Reg.PRB_STAT_STATE p) := by
  have := quiet_prbState p
  unfold State.txSrcApply
  dsimp only
  split
  · rw [State.rd_wr_ne _ _ (by with_unfolding_all (refine key_ne rfl rfl ?_; omega)), rd_lineDrop, quiet_chCut _ p.2]
  · exact State.rd_wr_ne _ _ (by with_unfolding_all (refine key_ne rfl rfl ?_; omega))

theorem rd_txStop_state : (s.txStop p).rd (Reg.PRB_STAT_STATE p) = s.rd (Reg.PRB_STAT_STATE p) := by
  simp (disch := with_unfolding_all (refine key_ne rfl rfl ?_; omega)) only [State.txStop, State.txOrigin, State.rd_wr_ne, rd_lineDrop,
    rd_txSrcApply_state]

/-- The transmitter is stopped. -/
theorem rd_txStop_run : (s.txStop p).rd (Hid.txRun p) = 0 := by
  simp (disch := with_unfolding_all (refine key_ne rfl rfl ?_; omega)) [State.txStop, State.rd_wr_ne, State.rd_wr_same]

theorem sendsMarkers_of_stopped (h : s.rd (Hid.txRun p) = 0) : s.sendsMarkers p = false := by
  simp [State.sendsMarkers, State.on, h]

/-- The fields of PRB_STAT are kept where a lane forgets what it has locked to. -/
theorem rd_laneUnlock_stat {g : Fld} {l : Nat} (hg : g.key = ((0x010 + p) * 1048576 + 4) * 64 + l) (hl : l < 64) {k : Nat} (hk : k < 16)
    (t : State) : (t.laneUnlock p k).rd g = t.rd g := by
  delta State.laneUnlock
  extract_lets s1 s2
  rw [rd_mk]
  simp (disch := with_unfolding_all (refine key_ne hg rfl ?_; omega)) only [s1, s2, State.rd_wr_ne]

theorem rd_prbUnlock_stat {g : Fld} {l : Nat} (hg : g.key = ((0x010 + p) * 1048576 + 4) * 64 + l) (hl : l < 64) :
    (s.prbUnlock p).rd g = s.rd g := by
  rw [State.prbUnlock, State.rd_wr_ne _ _ (by with_unfolding_all (refine key_ne hg rfl ?_; omega))]
  refine State.rd_each _ _ _ _ fun k hk t => ?_
  have hk := List.mem_range.1 hk
  rw [State.rd_wr_ne _ _ (by with_unfolding_all (refine key_ne hg rfl ?_; omega)), rd_laneUnlock_stat p hg hl hk]

theorem rd_prbUnlock_state : (s.prbUnlock p).rd (Reg.PRB_STAT_STATE p) = s.rd (Reg.PRB_STAT_STATE p) :=
  rd_prbUnlock_stat s p rfl (by decide)

theorem rd_prbOff_state : (s.prbOff p).rd (Reg.PRB_STAT_STATE p) = 0 := by
  delta State.prbOff
  extract_lets s1 s2
  rw [State.rd_each _ _ _ _ fun k hk t => by
    have hk := List.mem_range.1 hk
    exact State.rd_wr_ne _ _ (by with_unfolding_all (refine key_ne rfl rfl ?_; omega))]
  simp (disch := with_unfolding_all (refine key_ne rfl rfl ?_; omega)) only [s1, s2, State.rd_wr_ne, rd_txStop_state,
    rd_prbUnlock_state]
  exact rd_prbGo_state s p (by decide)

theorem rd_prbOff_run : (s.prbOff p).rd (Hid.txRun p) = 0 := by
  delta State.prbOff
  extract_lets s1 s2
  rw [State.rd_each _ _ _ _ fun k hk t => by
    have hk := List.mem_range.1 hk
    exact State.rd_wr_ne _ _ (by with_unfolding_all (refine key_ne rfl rfl ?_; omega))]
  simp (disch := with_unfolding_all (refine key_ne rfl rfl ?_; omega)) only [s1, s2, State.rd_wr_ne, rd_txStop_run]

theorem rd_prbAcquire_state : (s.prbAcquire p).rd (Reg.PRB_STAT_STATE p) = 2 := by
  rw [State.prbAcquire, State.prbTerm, State.rd_wr_ne _ _ (by with_unfolding_all (refine key_ne rfl rfl ?_; omega)), rd_prbUnlock_state]
  exact rd_prbGo_state s p (by decide)

/-- Outside UP a fault changes the state and its cause alone. -/
theorem prbFault_only (h : s.rd (Reg.PRB_STAT_STATE p) ≠ 7) {c : Nat} (hc : c < 16) :
    OnlyFields [Reg.PRB_STAT_STATE p, Reg.PRB_STAT_FAULT_CAUSE p] s (s.prbFault p c)
    ∧ (s.prbFault p c).rd (Reg.PRB_STAT_STATE p) = 8 ∧ (s.prbFault p c).rd (Reg.PRB_STAT_FAULT_CAUSE p) = c := by
  rw [State.prbFault]
  refine ⟨?_, ?_, ?_⟩
  · rw [prbGo_eq s p h]
    exact (((OnlyFields.refl _ s).wr 8 (by simp)).wr 0 (by simp)).wr c (by simp)
  · rw [State.rd_wr_ne _ _ (by with_unfolding_all (refine key_ne rfl rfl ?_; omega))]
    exact rd_prbGo_state s p (by decide)
  · rw [State.rd_wr_same]
    exact Nat.mod_eq_of_lt hc

/-- A write of PRB_CTRL keeps the fields of other blocks. -/
theorem rd_writePrbCtrl_ne {g : Fld} {c o l : Nat} (hg : g.key = (c * 1048576 + o) * 64 + l) (hc : c ≠ 0x010 + p)
    (ho : o < 1048576) (hl : l < 64) (w : Nat) : (s.writeReg (0x010 + p) 0x8 w).rd g = s.rd g := by
  have hb : blockRows (0x010 + p) = some (p.val, rowsPRB) := by
    simp only [blockRows]
    rw [if_neg (by omega), if_pos (by omega), Nat.add_sub_cancel_left]
  rw [writeReg_of_row s (off := 0x8) (r := rowsPRB[1]) (ix := []) hb rfl]
  refine rd_writeRow_ne s (fun f hf => ?_) (by with_unfolding_all (refine key_ne hg rfl ?_; omega))
  have hlo : f.lo < 64 := by
    revert f
    show ∀ f ∈ rowsPRB[1].flds 0 [], f.lo < 64
    decide
  exact key_ne hg rfl (by omega)

theorem bstIs_writePrbCtrl (w t : Nat) : (s.writeReg (0x010 + p) 0x8 w).bstIs t = s.bstIs t := by
  unfold State.bstIs State.on
  rw [rd_writePrbCtrl_ne s p (g := Reg.BST_STAT_BUSY) rfl (by omega) (by decide) (by decide),
    rd_writePrbCtrl_ne s p (g := Hid.bstTgt) rfl (by omega) (by decide) (by decide)]

theorem bstOn_writePrbCtrl (w t i : Nat) : (s.writeReg (0x010 + p) 0x8 w).bstOn t i = s.bstOn t i := by
  unfold State.bstOn
  rw [bstIs_writePrbCtrl, rd_writePrbCtrl_ne s p (g := Hid.bstIdx) rfl (by omega) (by decide) (by decide)]

/-- A write of PRB_CTRL that turns the port off ends with TX_SRC in effect. -/
theorem prbCtrlWrite_off {w : Nat} (hen : s.on (Reg.PRB_CTRL_EN p) = true)
    (hoff : (s.writeReg (0x010 + p) 0x8 w).on (Reg.PRB_CTRL_EN p) = false) :
    s.prbCtrlWrite p w = ((s.writeReg (0x010 + p) 0x8 w).prbOff p).txSrcApply p := by
  delta State.prbCtrlWrite
  extract_lets was s1 en s2 on s3
  have h2 : s2 = s1.prbOff p := by simp only [s2, was, en, s1, hen, hoff, Bool.not_false, Bool.true_or, Bool.and_self, if_true]
  have hon : on = false := by simp [on, h2, rd_prbOff_state]
  have hrun : s2.rd (Hid.txRun p) = 0 := h2 ▸ rd_prbOff_run s1 p
  have h3 : s3 = s2 := by simp [s3, hon, State.on, hrun]
  rw [h3, sendsMarkers_of_stopped s2 p hrun, if_neg (by decide), h2]

/-- A write of PRB_CTRL that the port's PLL follows ends with the transmitter stopped and TX_SRC in effect. -/
theorem prbCtrlWrite_on {w : Nat} (hen : s.on (Reg.PRB_CTRL_EN p) = false)
    (hon : (s.writeReg (0x010 + p) 0x8 w).on (Reg.PRB_CTRL_EN p) = true)
    (hrate : (s.writeReg (0x010 + p) 0x8 w).rateOk p = true) (hbst : s.bstOn 8 p = false) (hpart : s.bstIs 0 = false) {u : State}
    (hu : u = State.each lanes (fun k v => v.wr (Hid.laneIdle p k) 0)
      (((s.writeReg (0x010 + p) 0x8 w).prbGo p 1).wr (Hid.drvOff p) 0)) (hstate : u.rd (Reg.PRB_STAT_STATE p) = 1) :
    s.prbCtrlWrite p w = (if u.on (Hid.txRun p) then u.txStop p else u).txSrcApply p := by
  delta State.prbCtrlWrite
  extract_lets was s1 en s2 on s3
  have h2 : s2 = u := by simp [s2, hu, was, en, s1, hen, hon, hrate, hbst, hpart]
  have hon : on = false := by simp [on, h2, hstate]
  have h3 : s3 = if u.on (Hid.txRun p) then u.txStop p else u := by simp [s3, hon, h2]
  rw [h3, if_neg]
  split
  · simp [sendsMarkers_of_stopped _ p (rd_txStop_run u p)]
  next hrun => simp [State.sendsMarkers, hrun]

end
end Sys2Proof.Machine

namespace Sys2Proof
open Machine

/-- Settles O2: PRB_CTRL's write by its branches, the others by the state they are legal in. -/
theorem portBringUpSteps : Obligations.PortBringUpSteps := by
  have hfault (p : Fin 4) (s : State) (st c : Nat) (hst : s.rd (Reg.PRB_STAT_STATE p) = st) (h7 : st ≠ 7) (hc : c < 16) :=
    prbFault_only s p (hst ▸ h7) hc
  refine ⟨?enable, ?disable, fun p s => ⟨rd_prbOff_state s p, rd_prbOff_run s p⟩, ?locked, ?pllOut, ?fclkOut, ?blockOut, ?markerOut,
    ?fclk, ?eq, ?src⟩
  case enable =>
    intro p w s hen s1 hs1 hen1 hrate hbst hpart
    have hidle {g : Fld} {b o l : Nat} (hg : g.key = (b * 1048576 + o) * 64 + l) (hb : b ≠ 0x100E) (ho : o < 1048576) (hl : l < 64)
        (v : State) : (State.each lanes (fun k v => v.wr (Hid.laneIdle p k) 0) v).rd g = v.rd g := by
      refine State.rd_each _ _ _ _ fun k hk v => State.rd_wr_ne _ _ ?_
      have hk := List.mem_range.1 hk
      with_unfolding_all (refine key_ne hg rfl ?_; omega)
    have hstate : (State.each lanes (fun k v => v.wr (Hid.laneIdle p k) 0) ((s1.prbGo p 1).wr (Hid.drvOff p) 0)).rd
        (Reg.PRB_STAT_STATE p) = 1 := by
      rw [hidle rfl (by omega) (by decide) (by decide), State.rd_wr_ne _ _ (by with_unfolding_all (refine key_ne rfl rfl ?_; omega))]
      exact rd_prbGo_state s1 p (by decide)
    refine ⟨_, rfl, _, hstate, ?_, rfl, ?_⟩
    · rw [hidle rfl (by decide) (by omega) (by decide), State.rd_wr_same, Nat.zero_mod]
    · have hbst' : s.bstOn 8 p = false := by rw [← hbst, hs1, bstOn_writePrbCtrl]
      have hpart' : s.bstIs 0 = false := by rw [← hpart, hs1, bstIs_writePrbCtrl]
      subst hs1
      exact prbCtrlWrite_on s p hen hen1 hrate hbst' hpart' rfl hstate
  case disable => exact fun p w s hen hoff => ⟨_, rfl, prbCtrlWrite_off s p hen hoff⟩
  case locked =>
    intro p s h
    refine ⟨_, by show Host.Outcome.next _ = _; rw [if_pos h], _, rfl, rd_prbAcquire_state _ p, ?_, rfl⟩
    have hstate : (s.wr (Reg.PRB_STAT_PLL_LOCK p) 1).rd (Reg.PRB_STAT_STATE p) ≠ 7 := by
      rw [State.rd_wr_ne _ _ (by with_unfolding_all (refine key_ne rfl rfl ?_; omega)), h]
      decide
    rw [State.prbAcquire, State.prbTerm, State.rd_wr_ne _ _ (by with_unfolding_all (refine key_ne rfl rfl ?_; omega)),
      rd_prbUnlock_stat _ p rfl (by decide), prbGo_eq _ p hstate]
    simp (disch := with_unfolding_all (refine key_ne rfl rfl ?_; omega)) only [State.rd_wr_ne, State.rd_wr_same]
    rfl
  case pllOut => exact fun p s h => ⟨_, by show Host.Outcome.next _ = _; rw [if_pos h], hfault p s 1 1 h (by decide) (by decide)⟩
  case fclkOut => exact fun p s h => ⟨_, by show Host.Outcome.next _ = _; rw [if_pos h], hfault p s 2 2 h (by decide) (by decide)⟩
  case blockOut => exact fun p s h => ⟨_, by show Host.Outcome.next _ = _; rw [if_pos h], hfault p s 4 3 h (by decide) (by decide)⟩
  case markerOut => exact fun p s h => ⟨_, by show Host.Outcome.next _ = _; rw [if_pos h], hfault p s 5 4 h (by decide) (by decide)⟩
  case fclk =>
    intro p s h
    have hstate : ((s.wr (Reg.PRB_FCLK_RX_FCLK_DET p) 1).wr (Hid.fclkLost p) 0).rd (Reg.PRB_STAT_STATE p) = 2 := by
      simpa (disch := with_unfolding_all (refine key_ne rfl rfl ?_; omega)) only [State.rd_wr_ne] using h
    refine ⟨((s.wr (Reg.PRB_FCLK_RX_FCLK_DET p) 1).wr (Hid.fclkLost p) 0).prbGo p 3,
      by show Host.Outcome.next _ = _; rw [if_pos h], ?_, rd_prbGo_state _ p (by decide), ?_⟩ <;>
      rw [prbGo_eq _ p (by rw [hstate]; decide)]
    · exact ((((OnlyFields.refl _ s).wr 1 (by simp)).wr 0 (by simp)).wr 3 (by simp)).wr 0 (by simp)
    · simp (disch := with_unfolding_all (refine key_ne rfl rfl ?_; omega)) only [State.rd_wr_ne, State.rd_wr_same]
      rfl
  case eq =>
    intro p s h
    refine ⟨s.prbGo p 4, by show Host.Outcome.next _ = _; rw [if_pos h], ?_, rd_prbGo_state s p (by decide)⟩
    rw [prbGo_eq s p (by rw [h]; decide)]
    exact ((OnlyFields.refl _ s).wr 4 (by simp)).wr 0 (by simp)
  case src =>
    intro p s h hs
    have heq : s.txSrcApply p = s.wr (Hid.txSrcNow p) (s.rd (Reg.PRB_CTRL_TX_SRC p)) := by
      rw [State.txSrcApply, if_neg (fun hc => h hc.1)]
    refine ⟨s.wr (Hid.txSrcNow p) (s.rd (Reg.PRB_CTRL_TX_SRC p)), ?_, (OnlyFields.refl _ s).wr _ (by simp), State.rd_wr_same ..⟩
    show Host.Outcome.next _ = _
    rw [← heq, if_neg]
    rcases hs with hs | hs <;> simp [hs]

end Sys2Proof
end

section

namespace Sys2Proof.Machine

/-! ### Blocks, markers and rows of a lane (R32 to R44, R362) -/

section
variable (s : State) {p k hdr x : Nat}

theorem rxPins_of_loop (h : s.rd (Reg.PRB_CTRL_LOOP p) = 0 ∨ s.rd (Reg.PRB_CTRL_LOOP p) = 3) : s.rxPins p = true := by
  rcases h with h | h <;> simp [State.rxPins, h]

/-- Outside FAR nothing is retransmitted. -/
theorem farBlock_of_loop (h : s.rd (Reg.PRB_CTRL_LOOP p) ≠ 3) : s.farBlock p k hdr x = s := by
  simp [State.farBlock, h]

/-- A block on a listening lane that has met no loss and is in block lock. -/
theorem blockIn_locked (hlost : (s.lostLanes p).contains k = false) (hl : s.laneListens p k = true)
    (hlock : s.on (Reg.PRB_LN_STAT_BLOCK_LOCK p k) = true) :
    s.blockIn p k hdr x = (s.wr (Reg.PRB_LN_STAT_SIG_DET p k) 1).laneBlock p k
      (takenAs (s.on (Reg.PRB_LN_STAT_POL_INV p k)) hdr x).1 (takenAs (s.on (Reg.PRB_LN_STAT_POL_INV p k)) hdr x).2 := by
  simp only [State.blockIn, hlost, hl, hlock, Bool.false_eq_true, Bool.not_true, if_false, if_true]

theorem blockIn_hunting (hlost : (s.lostLanes p).contains k = false) (hl : s.laneListens p k = true)
    (hlock : s.on (Reg.PRB_LN_STAT_BLOCK_LOCK p k) = false) :
    s.blockIn p k hdr x = (s.wr (Reg.PRB_LN_STAT_SIG_DET p k) 1).laneHunt p k
      (takenAs (s.on (Reg.PRB_LN_STAT_POL_INV p k)) hdr x).1 (takenAs (s.on (Reg.PRB_LN_STAT_POL_INV p k)) hdr x).2 := by
  simp only [State.blockIn, hlost, hl, hlock, Bool.false_eq_true, Bool.not_true, if_false]

theorem takenAs_upright (h : Fin 4) (d : DWord) : takenAs false h d.toNat = (h.val, d.toNat) := by
  simp [takenAs, Nat.mod_eq_of_lt h.2, Nat.mod_eq_of_lt d.isLt]

/-- A valid header on a lane that stays short of block lock. -/
theorem laneHunt_short (hv : hdr = 1 ∨ hdr = 2) (hrun : s.rd (Hid.okRun p k) + 1 < 64) : s.laneHunt p k hdr x
    = (s.wr (Hid.okRun p k) (s.rd (Hid.okRun p k) + 1)).wr (Hid.descr p k) (descramble (s.rd (Hid.descr p k)) x).2 := by
  have hbad : (hdr == 0 || hdr == 3) = false := by rcases hv with rfl | rfl <;> rfl
  simp only [State.laneHunt, hbad, Bool.false_eq_true, if_false, State.wrIf, hrun, if_true]

/-- A block on a listening lane of a link counts a wrong header and moves the flywheel. -/
theorem rlkBlockIn_eq {l : Nat} (hl : s.rlkListens l k = true) (hdr : Nat) : s.rlkBlockIn l k hdr =
    (if hdr = 0 ∨ hdr = 3 then s.inc (Reg.RLK_LN_HDR_ERR l k) 1 else s).wr (Hid.rlkSinceMkr l k)
      (if s.rd (Hid.rlkSinceMkr l k) = 0 then 0 else if s.rd (Hid.rlkSinceMkr l k) = 16384 then 1
        else s.rd (Hid.rlkSinceMkr l k) + 1) := by
  simp only [State.rlkBlockIn, hl, Bool.not_true, Bool.false_eq_true, if_false]

theorem rlkBlockIn_only {l : Nat} (hl : s.rlkListens l k = true) (hdr : Nat) :
    OnlyFields [Reg.RLK_LN_HDR_ERR l k, Hid.rlkSinceMkr l k] s (s.rlkBlockIn l k hdr) := by
  rw [rlkBlockIn_eq s hl]
  exact (OnlyFields.ite ((OnlyFields.refl _ s).inc 1 (by simp)) (.refl _ s)).wr _ (by simp)

theorem rd_rlkBlockIn_err {l : Nat} (h2 : l < 2) (k : Fin 16) (hl : s.rlkListens l k = true) (hdr : Fin 4) :
    (s.rlkBlockIn l k hdr).rd (Reg.RLK_LN_HDR_ERR l k) = if hdr = 1 ∨ hdr = 2 then s.rd (Reg.RLK_LN_HDR_ERR l k)
      else min (s.rd (Reg.RLK_LN_HDR_ERR l k) + 1) (2 ^ 32 - 1) := by
  rw [rlkBlockIn_eq s hl, State.rd_wr_ne _ _ (by with_unfolding_all (refine key_ne rfl rfl ?_; omega)), rd_ite, rd_inc_same]
  fin_cases hdr <;> rfl

theorem rd_rlkBlockIn_mkr {l : Nat} (h2 : l < 2) (k : Fin 16) (hl : s.rlkListens l k = true) (hdr : Nat) :
    (s.rlkBlockIn l k hdr).rd (Reg.RLK_LN_MKR_ERR l k) = s.rd (Reg.RLK_LN_MKR_ERR l k) := by
  rw [rlkBlockIn_eq s hl, State.rd_wr_ne _ _ (by with_unfolding_all (refine key_ne rfl rfl ?_; omega)), rd_ite,
    rd_inc_ne (by with_unfolding_all (refine key_ne rfl rfl ?_; omega)), ite_self]

theorem lostLanes_state (h : s.lostLanes p ≠ []) : s.rd (Reg.PRB_STAT_STATE p) = 7 := by
  by_contra hn
  exact h (if_neg hn)

end
end Sys2Proof.Machine

namespace Sys2Proof
open Machine

/-- Settles O3. -/
theorem portReceptionSteps : Obligations.PortReceptionSteps := by
  refine ⟨?hunt, ?block, ?far, ?marker, ?release, ?read, ?clock, ?one, ?more, ?rlkBlock, ?rlkMarker⟩
  case hunt =>
    intro p k hdr x s hp hpins hl hlost hlock hpol hv hrun
    have hfar : s.farBlock p k hdr x.toNat = s := by simp [State.farBlock, hlock]
    have hrun1 : (s.wr (Reg.PRB_LN_STAT_SIG_DET p k) 1).rd (Hid.okRun p k) = s.rd (Hid.okRun p k) :=
      State.rd_wr_ne _ _ (by with_unfolding_all (refine key_ne rfl rfl ?_; omega))
    refine ⟨((s.wr (Reg.PRB_LN_STAT_SIG_DET p k) 1).wr (Hid.okRun p k) (s.rd (Hid.okRun p k) + 1)).wr (Hid.descr p k)
      (descramble ((s.wr (Reg.PRB_LN_STAT_SIG_DET p k) 1).rd (Hid.descr p k)) x.toNat).2, ?exec, ?only, ?run, ?sig⟩
    case exec =>
      show Host.Outcome.next _ = _
      rw [if_neg (by omega), if_pos hpins, hfar, blockIn_hunting s hlost hl hlock, hpol, takenAs_upright,
        laneHunt_short _ (by rcases hv with rfl | rfl <;> simp) (by rw [hrun1]; omega), hrun1]
    case only => exact (((OnlyFields.refl _ s).wr 1 (by simp)).wr _ (by simp)).wr _ (by simp)
    case run =>
      rw [State.rd_wr_ne _ _ (by with_unfolding_all (refine key_ne rfl rfl ?_; omega)), State.rd_wr_same]
      exact Nat.mod_eq_of_lt (show s.rd (Hid.okRun p k) + 1 < 2 ^ 7 by omega)
    case sig =>
      simp (disch := with_unfolding_all (refine key_ne rfl rfl ?_; omega)) only [State.rd_wr_ne, State.rd_wr_same]
      rfl
  case block =>
    intro p k hdr x s hp hloop hl hlost hlock
    show Host.Outcome.next _ = _
    rw [if_neg (by omega), if_pos (rxPins_of_loop s (.inl hloop)), farBlock_of_loop s (by rw [hloop]; decide),
      blockIn_locked s hlost hl hlock]
  case far =>
    intro p k hdr x s hp hloop hl hlost hlock hdrv
    have hfar : s.farBlock p k hdr x.toNat = s.emit (.txRow p [(k, hdr, x.toNat)]) := by
      simp [State.farBlock, hloop, hl, hlock, hdrv]
    show Host.Outcome.next _ = _
    rw [if_neg (by omega), if_pos (rxPins_of_loop s (.inr hloop)), hfar, blockIn_locked (s.emit _) hlost hl hlock]
    rfl
  case marker =>
    intro p k hdr x n s hp hloop hl hlost hlock hpol hok
    have hform : hdr = 2 := by
      have h2 : markerForm hdr x.toNat = true := by
        simp only [markerOk, Bool.and_eq_true] at hok
        exact hok.1.1.1
      simp only [markerForm, Bool.and_eq_true, beq_iff_eq] at h2
      exact Fin.ext h2.1.1
    have hexec : exec (.markerReceived p k hdr x n) s = .next (s.markerIn p k hdr x.toNat n) := by
      show Host.Outcome.next _ = _
      rw [if_neg (by omega), if_pos (rxPins_of_loop s (.inl hloop)), farBlock_of_loop s (by rw [hloop]; decide)]
    rw [hexec]
    refine ⟨fun hst hrx => ?hunt, fun hst => ?deskew, fun hst hsince => ?up⟩
    all_goals simp only [State.markerIn, hlost, hl, hlock, hpol, hst, takenAs_upright, Bool.false_eq_true, Bool.not_true, if_false]
    case hunt => simp [State.markerPol, hrx, hok, takenAs_upright]
    case deskew => simp [hok]
    case up => simp [hsince, hform]
  case release =>
    intro p s hst hlost hne hfull slots hslots u hu r hr
    have hmap : slots = ((s.rowLanes p).map (fun k => Tab.getD s.laneBuf (16 * p + k) [])).filterMap (fun b => b.head?) := by
      rw [hslots, List.filterMap_map]
      rfl
    have hall : ((s.rowLanes p).map (fun k => Tab.getD s.laneBuf (16 * p + k) [])).any (fun b => b.isEmpty) = false := by
      rw [List.any_map, List.any_eq_false]
      intro k hk
      simp [hfull k hk]
    have hgo : ¬(s.rd (Reg.PRB_STAT_STATE p) ≠ 7 ∨ s.lostLanes p ≠ [] ∨ s.rowLanes p = []
        ∨ ((s.rowLanes p).map (fun k => Tab.getD s.laneBuf (16 * p + k) [])).any (fun b => b.isEmpty) = true) := by
      simp [hst, hlost, hne, hall]
    have hexec : exec (.rowRelease p) s = .next (if slots.any (fun x => x.marker) then u
        else ((((u.add (Hid.rowNo p) 1).wr (Hid.rowTs p (r.num % 128)) r.time).deliverRow p r).hopDeliver p r)) := by
      show execRowRelease p s = _
      delta execRowRelease
      dsimp only
      rw [if_neg hgo, ← hmap, ← hu, hr]
    exact ⟨fun h => by rw [hexec, if_pos h], fun h => by rw [hexec, h]; rfl⟩
  case read =>
    intro n p r rest s hp hst hclk hq
    refine ⟨({ s with islFifo := Tab.set s.islFifo p [] rest }).answer .ok (r.slots.flatMap Slot.bytes), ?_, rfl,
      Tab.getD_set_same _ _ _ _, rfl⟩
    show Host.Outcome.next _ = _
    simp only [hp, hst, hclk, hq]
    rfl
  case clock =>
    intro p s hst hlost
    refine ⟨s.lossDeclare p true false, ?_, _, rfl, rfl⟩
    show Host.Outcome.next _ = _
    simp [hst, hlost]
  case one =>
    intro p clk k s hlost
    have hst := lostLanes_state s (p := p) (by rw [hlost]; simp)
    refine ⟨s.lossDeclare p false true, ?_, _, rfl, rfl⟩
    show Host.Outcome.next _ = _
    simp [hst, hlost, State.lossSettle]
  case more =>
    intro p clk s hlost
    have hne : s.lostLanes p ≠ [] := fun h => by simp [h] at hlost
    have hst := lostLanes_state s hne
    refine ⟨s.lossDeclare p false false, ?_, _, rfl, rfl⟩
    show Host.Outcome.next _ = _
    have hsettle : s.lossSettle p = s.lossDeclare p false false := by
      unfold State.lossSettle
      split
      next h => exact absurd h hne
      next => rw [show ((s.lostLanes p).length == 1) = false by simp; omega]
    rw [if_neg (by simp [hst]), if_pos hne, hsettle]
  case rlkBlock =>
    intro p k hdr x s l hp hl
    have hexec : exec (.blockReceived p k hdr x) s = .next (s.rlkBlockIn l k hdr) := by
      show Host.Outcome.next _ = _
      rw [if_pos (by omega), hp, Nat.add_sub_cancel]
    exact ⟨_, hexec, rlkBlockIn_only s hl hdr, rd_rlkBlockIn_err s (by omega) k hl hdr⟩
  case rlkMarker =>
    intro p k hdr x n s l hp hl hlock hsince m hm
    have hexec : exec (.markerReceived p k hdr x n) s = .next (if markerOk m.1 m.2 && bits m.2 11 8 == s.rd (Reg.RLK_LN_STAT_LOGICAL l k)
        then (s.rlkBlockIn l k hdr).wr (Hid.rlkSinceMkr l k) 1
        else ((s.rlkBlockIn l k hdr).wr (Hid.rlkSinceMkr l k) 1).inc (Reg.RLK_LN_MKR_ERR l k) 1) := by
      show Host.Outcome.next _ = _
      rw [if_pos (by omega), hp, Nat.add_sub_cancel, hm]
      simp [State.rlkMarkerIn, hl, hlock, hsince]
    have hmkr : ((s.rlkBlockIn l k hdr).wr (Hid.rlkSinceMkr l k) 1).rd (Reg.RLK_LN_MKR_ERR l k) = s.rd (Reg.RLK_LN_MKR_ERR l k) := by
      rw [State.rd_wr_ne _ _ (by with_unfolding_all (refine key_ne rfl rfl ?_; omega)), rd_rlkBlockIn_mkr s (by omega) k hl hdr]
    have honly := ((rlkBlockIn_only s hl hdr).mono (gs := [Reg.RLK_LN_HDR_ERR l k, Reg.RLK_LN_MKR_ERR l k, Hid.rlkSinceMkr l k])
      (by simp)).wr (f := Hid.rlkSinceMkr l k) 1 (by simp)
    refine ⟨_, hexec, OnlyFields.ite honly (honly.inc 1 (by simp)), ?since, ?err⟩
    case since =>
      rw [rd_ite, rd_inc_ne (by with_unfolding_all (refine key_ne rfl rfl ?_; omega)), State.rd_wr_same, ite_self]
      rfl
    case err =>
      rw [rd_ite, rd_inc_same, hmkr]
      rfl

end Sys2Proof
end

section

namespace Sys2Proof.Machine

/-! ### Commands and faults of a probe port (R50, R53, R55, R57) -/

section
variable (s : State) (p : Fin 4)

theorem prbClrCnt_only : OnlyFields (Reg.PRB_DROP p :: lanes.flatMap (fun k => [Reg.PRB_LN_HDR_ERR p k, Reg.PRB_LN_MKR_ERR p k])) s
    (s.prbClrCnt p) := by
  refine OnlyFields.each (fun k hk v => ?_) ((OnlyFields.refl _ s).wr 0 (by simp))
  have hmem {f : Fld} (hf : f ∈ [Reg.PRB_LN_HDR_ERR p k, Reg.PRB_LN_MKR_ERR p k]) : f ∈ Reg.PRB_DROP p ::
      lanes.flatMap (fun k => [Reg.PRB_LN_HDR_ERR p k, Reg.PRB_LN_MKR_ERR p k]) :=
    List.mem_cons_of_mem _ (List.mem_flatMap.2 ⟨k, hk, hf⟩)
  exact ((OnlyFields.refl _ v).wr 0 (hmem (by simp))).wr 0 (hmem (by simp))

theorem rd_prbClrCnt_drop : (s.prbClrCnt p).rd (Reg.PRB_DROP p) = 0 := by
  refine (State.rd_each _ _ _ _ fun k hk v => ?_).trans (State.rd_wr_same ..)
  simp (disch := with_unfolding_all (refine key_ne rfl rfl ?_; omega)) only [State.rd_wr_ne]

theorem rd_prbClrCnt_lane (k : Fin 16) :
    (s.prbClrCnt p).rd (Reg.PRB_LN_HDR_ERR p k) = 0 ∧ (s.prbClrCnt p).rd (Reg.PRB_LN_MKR_ERR p k) = 0 := by
  refine each_establishes (P := fun v => v.rd (Reg.PRB_LN_HDR_ERR p k) = 0 ∧ v.rd (Reg.PRB_LN_MKR_ERR p k) = 0)
    (List.mem_range.2 k.2) (fun v => ?_) (fun a ha v h => ?_) _
  · simp (disch := with_unfolding_all (refine key_ne rfl rfl ?_; omega)) [State.rd_wr_ne, State.rd_wr_same]
  · by_cases he : a = k
    · subst he
      simp (disch := with_unfolding_all (refine key_ne rfl rfl ?_; omega)) [State.rd_wr_ne, State.rd_wr_same]
    · have ha := List.mem_range.1 ha
      simpa (disch := with_unfolding_all (refine key_ne rfl rfl ?_; omega)) [State.rd_wr_ne] using h

end
end Sys2Proof.Machine

namespace Sys2Proof
open Machine

/-- Settles O4. -/
theorem portCommandSteps : Obligations.PortCommandSteps := by
  refine ⟨?retrain, ?start, ?stop, ?gate, ?calNow, fun p s => ⟨_, rfl, prbClrCnt_only s p, rd_prbClrCnt_drop s p, rd_prbClrCnt_lane s p⟩,
    ?interval, ?handover, ?rail, ?short, ?upset, ?bind⟩
  case retrain =>
    intro p s hen h2 h7
    show Host.Outcome.next (s.prbRetrain p) = _
    simp [State.prbRetrain, hen, show ¬s.rd (Reg.PRB_STAT_STATE p) ≤ 1 by omega, show s.rd (Reg.PRB_STAT_STATE p) ≠ 7 by omega,
      show s.rd (Reg.PRB_STAT_STATE p) ≠ 8 by omega]
  case start =>
    intro p s h
    refine ⟨(s.wr (Reg.PRB_STAT_FMEAS_BUSY p) 1).wr (Reg.PRB_FMEAS_CTRL_DONE p) 0, ?_,
      ((OnlyFields.refl _ s).wr 1 (by simp)).wr 0 (by simp), ?_, State.rd_wr_same ..⟩
    · show Host.Outcome.next (s.fmeasStart p) = _
      simp [State.fmeasStart, h]
    · simp (disch := with_unfolding_all (refine key_ne rfl rfl ?_; omega)) only [State.rd_wr_ne, State.rd_wr_same]
      rfl
  case stop =>
    intro p s h
    refine ⟨s.wr (Reg.PRB_STAT_FMEAS_BUSY p) 0, ?_, (OnlyFields.refl _ s).wr 0 (by simp), State.rd_wr_same ..⟩
    show Host.Outcome.next (s.fmeasStop p) = _
    simp [State.fmeasStop, h]
  case gate =>
    intro p c s hbusy hmin hmax hcont
    refine ⟨(((s.wr (Reg.PRB_FMEAS_CNT p) c.toNat).wr (Reg.PRB_FMEAS_CTRL_DONE p) 1).wr (Reg.PRB_FMEAS_CTRL_IN_RANGE p) 1).wr
      (Reg.PRB_STAT_FMEAS_BUSY p) 0, ?exec, ?only, ?cnt, ?done, ?range, State.rd_wr_same ..⟩
    case exec =>
      show Host.Outcome.next _ = _
      simp [hbusy, hmin, hmax, hcont, b2n]
    case only => exact ((((OnlyFields.refl _ s).wr _ (by simp)).wr 1 (by simp)).wr 1 (by simp)).wr 0 (by simp)
    all_goals simp (disch := with_unfolding_all (refine key_ne rfl rfl ?_; omega)) only [State.rd_wr_ne, State.rd_wr_same]
    case cnt => exact Nat.mod_eq_of_lt c.isLt
    all_goals rfl
  case calNow =>
    intro p s hst hloop
    show Host.Outcome.next (s.prbCalNow p) = _
    rw [State.prbCalNow, if_pos ⟨hst, hloop⟩]
  case interval =>
    intro p k s hst hoff hloop hblk hdeg hage
    refine ⟨((s.wr (Hid.calMode p k) (s.rd (Reg.PRB_CAL_CTRL_MODE p))).wr (Hid.calIvals p k) (min (s.rd (Hid.calIvals p k) + 1) 65535)).wr
      (Hid.calPend p k) 1, ?_, (((OnlyFields.refl _ s).wr _ (by simp)).wr _ (by simp)).wr 1 (by simp), State.rd_wr_same ..⟩
    show Host.Outcome.next (s.laneInterval p k false) = _
    simp [State.laneInterval, hst, hoff, hloop, hblk, hdeg, Nat.not_lt.2 hage]
  case handover =>
    intro p k s hpend hmode hrun
    show Host.Outcome.next _ = _
    simp [hpend, hmode, hrun]
  case rail =>
    intro s
    refine ⟨_, rfl, ?only, ?ports, ?links⟩
    case only =>
      refine OnlyFields.each (fun l hl v => (OnlyFields.refl _ v).wr 1 ?_) (OnlyFields.each (fun p hp v => (OnlyFields.refl _ v).wr 1 ?_)
        (.refl _ s))
      · fin_cases hl <;> simp
      · fin_cases hp <;> simp
    case ports =>
      intro p
      rw [State.rd_each _ _ _ _ fun l hl v => by
        have hl : l < 2 := by fin_cases hl <;> decide
        exact State.rd_wr_ne _ _ (by with_unfolding_all (refine key_ne rfl rfl ?_; omega))]
      exact rd_each_wr Hid.drvOff (fun _ => 1) (by fin_cases p <;> decide)
        (fun a _ h => by with_unfolding_all (refine key_ne rfl rfl ?_; omega)) s
    case links =>
      exact fun l => rd_each_wr Hid.rlkDrvOff (fun _ => 1) (by fin_cases l <;> decide)
        (fun a _ h => by with_unfolding_all (refine key_ne rfl rfl ?_; omega)) _
  case short =>
    intro p k s
    refine ⟨fun hp => ?_, fun hp => ?_⟩ <;> show Host.Outcome.next _ = _
    · rw [if_pos hp]
    · rw [if_neg (by omega)]
  case upset =>
    intro p s hen hst
    have heq : ((s.prbGo p 8).wr (Hid.drvOff p) 1).wrFree (Reg.PRB_STAT_FAULT_CAUSE p) =
        { (((s.wr (Reg.PRB_STAT_STATE p) 8).wr (Reg.PRB_STAT_FAULT_CAUSE p) 0).wr (Hid.drvOff p) 1).wr (Reg.PRB_STAT_FAULT_CAUSE p)
          (Config.freeValue s.freeCtr) with freeCtr := s.freeCtr + 1 } := by
      rw [prbGo_eq s p hst]
      rfl
    refine ⟨_, ?exec, ⟨_, ?only, heq⟩, ?state, ?drv, ?cause⟩
    case exec =>
      show Host.Outcome.next _ = _
      rw [if_pos hen]
    case only => exact ((((OnlyFields.refl _ s).wr 8 (by simp)).wr 0 (by simp)).wr 1 (by simp)).wr _ (by simp)
    all_goals
      rw [heq, rd_mk]
      simp (disch := with_unfolding_all (refine key_ne rfl rfl ?_; omega)) only [State.rd_wr_ne, State.rd_wr_same]
      rfl
  case bind =>
    intro p w s hdel h80 h8 hne hfree
    have htaken : [0, 1, 2, 3].any (fun q => q != p.val && s.on (Reg.PRB_BIND_DELIV_EN q) && s.rd (Reg.PRB_BIND_ISLAND q) == bits w.toNat 6 0)
        = false := by
      rw [List.any_eq_false]
      intro q hq
      have hq4 : q < 4 := by fin_cases hq <;> decide
      have := hfree ⟨q, hq4⟩
      simp only [ne_eq, Fin.ext_iff] at this
      simpa [and_imp] using this
    refine ⟨{ (s.wr (Reg.PRB_BIND_ISLAND p) (bits w.toNat 6 0)).wr (Reg.PRB_BIND_DELIV_EN p) (b2n (bit w.toNat 8)) with
      islFifo := Tab.del s.islFifo p, fabVals := Tab.del s.fabVals p }, ?exec, ⟨_, ?only, rfl⟩, ?isl, ?deliv⟩
    case exec =>
      show Host.Outcome.next (s.prbBindWrite p w.toNat) = _
      simp [State.prbBindWrite, hne, h80, h8, hdel, htaken]
      rfl
    case only => exact ((OnlyFields.refl _ s).wr _ (by simp)).wr _ (by simp)
    all_goals
      rw [rd_mk]
      simp (disch := with_unfolding_all (refine key_ne rfl rfl ?_; omega)) only [State.rd_wr_ne, State.rd_wr_same]
    case isl => exact Nat.mod_eq_of_lt (show bits w.toNat 6 0 < 2 ^ 7 by omega)
    case deliv => cases bit w.toNat 8 <;> rfl

end Sys2Proof
end

section

namespace Sys2Proof.Machine

/-! ### Capture files (R75 to R79, R105) -/

section
variable (s : State) (f : Fin 16)

/-- Only cells change where only fields do. -/
theorem OnlyFields.hopTail {fs : List Fld} {s t : State} (h : OnlyFields fs s t) : t.hopTail = s.hopTail := by rw [h.others]

theorem finishStop_staged (h : s.staged f ≠ []) : s.finishStop f = s := if_neg fun hc => h hc.2

/-- A file in STOPPING with nothing left to write and no begun line is STOPPED. -/
theorem finishStop_empty (hst : s.rd (Reg.HOP_FILE_STAT_STATE f) = 6) (hs : s.staged f = []) (ht : Tab.getD s.hopTail f [] = []) :
    s.finishStop f = s.wr (Reg.HOP_FILE_STAT_STATE f) 4 := by
  simp [State.finishStop, State.flushOr, State.fileFlush, hst, hs, ht]

/-- What ARM of an IDLE file with a valid configuration writes. -/
def State.hopArmed (s : State) (f g : Nat) : State :=
  ((((((((((((((s.add (Hid.fileGen f) 1).wr (Reg.HOP_FILE_STAT_STATE f) 1).wr (Reg.HOP_FILE_STAT_PRE_SHORT f) 0).wr
    (Reg.HOP_FILE_STAT_POST_SHORT f) 0).wr (Reg.HOP_FILE_STAT_FAULT_CAUSE f) 0).openSeg f g).wr (Hid.fileArmed f) 0).wr
    (Hid.filePost f) 0).wr (Hid.fileTrec f) 0).wr (Hid.fileWant f) 0).wr (Hid.fileWrap f) 0).wr (Reg.HOP_FILE_OLD f) (s.segBase g))))

theorem hopArm_valid (hst : s.rd (Reg.HOP_FILE_STAT_STATE f) = 0) (hen : s.on Reg.HOP_CTRL_EN = true) (hhbm : s.rd Reg.HBM_STAT_STATE = 3)
    (hv : s.fileValid f = true) : s.hopArm f = s.hopArmed f (s.rd (Reg.HOP_FILE_FIRST_SEG f)) := by
  rw [State.hopArm, if_pos ⟨hst, hen, hhbm⟩, if_pos hv]
  rfl

theorem hopArmed_only (g : Nat) : OnlyFields [Hid.fileGen f, Reg.HOP_FILE_STAT_STATE f, Reg.HOP_FILE_STAT_PRE_SHORT f,
    Reg.HOP_FILE_STAT_POST_SHORT f, Reg.HOP_FILE_STAT_FAULT_CAUSE f, Reg.HOP_SEG_STAT_STATE g, Reg.HOP_SEG_WOFF g,
    Reg.HOP_SEG_STAT_WRAPPED g, Reg.HOP_FILE_STAT_CUR_SEG f, Hid.fileArmed f, Hid.filePost f, Hid.fileTrec f, Hid.fileWant f,
    Hid.fileWrap f, Reg.HOP_FILE_OLD f] s (s.hopArmed f g) := by
  unfold State.hopArmed State.openSeg
  iterate 7 refine OnlyFields.wr _ (by simp) ?_
  refine OnlyFields.wrIf _ _ (by simp) ?_
  iterate 6 refine OnlyFields.wr _ (by simp) ?_
  exact (OnlyFields.refl _ s).add 1 (by simp)

/-- The segments of a file, free and empty, as CLEAR leaves them. -/
def State.segsFreed (s : State) (f : Nat) : State := State.each (s.fileSegs f) (fun g t =>
  (((t.wr (Reg.HOP_SEG_STAT_STATE g) 0).wr (Reg.HOP_SEG_STAT_WRAPPED g) 0).wr (Reg.HOP_SEG_WOFF g) 0).wr (Hid.segEnt g) 0) s

theorem segsFreed_only : OnlyFields (Hid.fileGen f :: Reg.HOP_FILE_STAT_STATE f :: (s.fileSegs f).flatMap (fun g =>
    [Reg.HOP_SEG_STAT_STATE g, Reg.HOP_SEG_STAT_WRAPPED g, Reg.HOP_SEG_WOFF g, Hid.segEnt g])) s (s.segsFreed f) := by
  refine OnlyFields.each (fun g hg v => ?_) (.refl _ s)
  have hmem {x : Fld} (hx : x ∈ [Reg.HOP_SEG_STAT_STATE g, Reg.HOP_SEG_STAT_WRAPPED g, Reg.HOP_SEG_WOFF g, Hid.segEnt g]) :
      x ∈ Hid.fileGen f :: Reg.HOP_FILE_STAT_STATE f :: (s.fileSegs f).flatMap (fun g =>
        [Reg.HOP_SEG_STAT_STATE g, Reg.HOP_SEG_STAT_WRAPPED g, Reg.HOP_SEG_WOFF g, Hid.segEnt g]) :=
    List.mem_cons_of_mem _ (List.mem_cons_of_mem _ (List.mem_flatMap.2 ⟨g, hg, hx⟩))
  iterate 4 refine OnlyFields.wr _ (hmem (by simp)) ?_
  exact .refl _ v

end
end Sys2Proof.Machine

namespace Sys2Proof
open Machine

/-- Settles O5. -/
theorem captureSteps : Obligations.CaptureSteps := by
  refine ⟨?mark, ?drain, ?lost, ?arm, ?stopArmed, ?stopTriggered, ?stopEmpty, ?force, ?clear, ?clrCnt⟩
  case mark =>
    intro n row a b c tag q s hq hst hsw
    refine ⟨{ s with hopDelay := Tab.set s.hopDelay q [] ((Tab.getD s.hopDelay q []).map fun r =>
      if r.row.num = row then { r with mark := some ⟨a, b, c, tag.toNat⟩ } else r) }, ?_, rfl, Tab.getD_set_same _ _ _ _⟩
    show Host.Outcome.next _ = _
    simp only [hq, hst, hsw, and_self, if_true]
  case drain =>
    intro f q r bs s t hfirst hkey htakes hread htakes' hroom
    show Host.Outcome.next _ = _
    have hdrain : t.drainTo f q r bs = (t.takeStaged q r).putRec f q { r with payload := bs.drop 32 } := by
      have hfits := hroom _ rfl
      have hn : ¬(t.rd (Reg.HOP_SEG_WOFF (t.rd (Reg.HOP_FILE_STAT_CUR_SEG f))) % 65536 ≠ 0
          ∧ 65536 - t.rd (Reg.HOP_SEG_WOFF (t.rd (Reg.HOP_FILE_STAT_CUR_SEG f))) % 65536 < r.space) := by omega
      simp only [State.drainTo, if_neg hn, if_pos htakes']
    simp only [hfirst, hkey, htakes, Bool.not_true, Bool.false_eq_true, if_false, Option.filter_none, hread, hdrain]
  case lost =>
    intro f q a r s hfirst hkey htakes hholds
    show Host.Outcome.next _ = _
    simp only [hfirst, hkey, htakes, Bool.not_true, Bool.false_eq_true, if_false, Option.filter_some, hholds, if_true, State.drainLost]
  case arm =>
    intro f s hst hen hhbm g hg hlt
    refine ⟨fun hv => ⟨s.hopArmed f g, ?exec, hopArmed_only s f g, ?_, ?_, ?_, ?curSeg, ?_, ?_⟩, fun hv => ?invalid⟩
    case exec =>
      show Host.Outcome.next (s.hopArm f) = _
      rw [hopArm_valid s f hst hen hhbm hv, hg]
    case invalid =>
      show Host.Outcome.next (s.hopArm f) = _
      rw [State.hopArm, if_pos ⟨hst, hen, hhbm⟩, if_neg (by simp [hv])]
    all_goals
      unfold State.hopArmed State.openSeg
      simp (disch := with_unfolding_all (refine key_ne rfl rfl ?_; omega)) only [State.rd_wr_ne, State.rd_wr_same, State.wrIf, rd_ite,
        ite_self]
    case curSeg => exact Nat.mod_eq_of_lt hlt
    all_goals rfl
  case stopArmed =>
    intro f s hst hs
    refine ⟨s.wr (Reg.HOP_FILE_STAT_STATE f) 6, ?_, (OnlyFields.refl _ s).wr 6 (by simp), State.rd_wr_same ..⟩
    show Host.Outcome.next (s.hopStop f) = _
    rw [State.hopStop, if_pos hst, finishStop_staged (s.wr (Reg.HOP_FILE_STAT_STATE f) 6) f hs]
  case stopTriggered =>
    intro f s hst hs
    refine ⟨(s.wr (Reg.HOP_FILE_STAT_STATE f) 6).wr (Reg.HOP_FILE_STAT_POST_SHORT f) 1, ?_,
      ((OnlyFields.refl _ s).wr 6 (by simp)).wr 1 (by simp), ?_, State.rd_wr_same ..⟩
    · show Host.Outcome.next (s.hopStop f) = _
      rw [State.hopStop, if_neg (by rw [hst]; decide), if_pos hst,
        finishStop_staged ((s.wr (Reg.HOP_FILE_STAT_STATE f) 6).wr (Reg.HOP_FILE_STAT_POST_SHORT f) 1) f hs]
    · rw [State.rd_wr_ne _ _ (by with_unfolding_all (refine key_ne rfl rfl ?_; omega)), State.rd_wr_same]
      rfl
  case stopEmpty =>
    intro f s hst hs ht
    refine ⟨(s.wr (Reg.HOP_FILE_STAT_STATE f) 6).wr (Reg.HOP_FILE_STAT_STATE f) 4, ?_,
      ((OnlyFields.refl _ s).wr 6 (by simp)).wr 4 (by simp), State.rd_wr_same ..⟩
    show Host.Outcome.next (s.hopStop f) = _
    rw [State.hopStop, if_pos hst, finishStop_empty (s.wr (Reg.HOP_FILE_STAT_STATE f) 6) f (State.rd_wr_same ..) hs ht]
  case force =>
    intro f s hst
    show Host.Outcome.next (s.hopForce f) = _
    rw [State.hopForce, if_pos hst, State.fileTrigger]
  case clear =>
    intro f s hst
    refine ⟨{ ((s.segsFreed f).wr (Reg.HOP_FILE_STAT_STATE f) 0).add (Hid.fileGen f) 1 with hopTail := Tab.del s.hopTail f }, ?exec,
      ⟨_, ((segsFreed_only s f).wr 0 (by simp)).add 1 (by simp), rfl⟩, ?state⟩
    case exec =>
      show Host.Outcome.next (s.hopClear f) = _
      rw [State.hopClear, if_pos hst, ← (segsFreed_only s f).hopTail]
      rfl
    case state =>
      rw [rd_mk, State.add, State.rd_wr_ne _ _ (by with_unfolding_all (refine key_ne rfl rfl ?_; omega)), State.rd_wr_same, Nat.zero_mod]
  case clrCnt =>
    intro s
    refine ⟨_, rfl, OnlyFields.each (fun q hq v => ?only) (.refl _ s), fun q => ?cleared⟩
    case only => exact ((OnlyFields.refl _ v).wr 0 (List.mem_flatMap.2 ⟨q, hq, by simp⟩)).wr 0 (List.mem_flatMap.2 ⟨q, hq, by simp⟩)
    case cleared =>
      refine each_establishes (P := fun v => v.rd (Reg.HOP_DROP q) = 0 ∧ v.rd (Reg.HOP_FILTERED q) = 0) (k := q.val)
        (by fin_cases q <;> decide) (fun v => ?_) (fun a ha v h => ?_) s
      · simp (disch := with_unfolding_all (refine key_ne rfl rfl ?_; omega)) [State.rd_wr_ne, State.rd_wr_same]
      · by_cases he : a = q
        · subst he
          simp (disch := with_unfolding_all (refine key_ne rfl rfl ?_; omega)) [State.rd_wr_ne, State.rd_wr_same]
        · have ha4 : a < 4 := by fin_cases ha <;> decide
          simpa (disch := with_unfolding_all (refine key_ne rfl rfl ?_; omega)) [State.rd_wr_ne] using h

end Sys2Proof
end

section

namespace Sys2Proof.Machine

/-! ### Runner's channels and the frame line (R98 to R104) -/

section
variable (s : State) (c : Fin 4)

theorem chRebase_only : OnlyFields [Hid.chFirst c, Hid.chBase c] s (s.chRebase c) :=
  ((OnlyFields.refl _ s).wr 1 (by simp)).wr _ (by simp)

theorem rd_chRebase_first : (s.chRebase c).rd (Hid.chFirst c) = 1 := by
  rw [State.chRebase, State.rd_wr_ne _ _ (by with_unfolding_all (refine key_ne rfl rfl ?_; omega)), State.rd_wr_same]
  rfl

theorem rd_chRebase_base : (s.chRebase c).rd (Hid.chBase c) = slotCeil (s.txNow c) % 2 ^ (Hid.chBase c).w :=
  State.rd_wr_same ..

theorem rd_chRebase_ne {g : Fld} (h : g.key ≠ (Hid.chFirst c).key) (h' : g.key ≠ (Hid.chBase c).key) :
    (s.chRebase c).rd g = s.rd g :=
  (chRebase_only s c).fields g (by simpa using ⟨h, h'⟩)

/-- Below the last address a channel steps to the next instruction. -/
theorem chNext_lt (h : s.rd (Reg.RUN_CH_PC_PC c) < 65535) :
    s.chNext c = s.wr (Reg.RUN_CH_PC_PC c) (s.rd (Reg.RUN_CH_PC_PC c) + 1) := if_neg (by omega)

/-- A step to the next instruction changes the PC alone. -/
theorem rd_pc_succ (h : s.rd (Reg.RUN_CH_PC_PC c) < 65535) (t : State) :
    (t.wr (Reg.RUN_CH_PC_PC c) (s.rd (Reg.RUN_CH_PC_PC c) + 1)).rd (Reg.RUN_CH_PC_PC c) = s.rd (Reg.RUN_CH_PC_PC c) + 1 :=
  (State.rd_wr_same ..).trans (Nat.mod_eq_of_lt (by show _ < 65536; omega))

/-- What a start writes before the timeline restarts. -/
def State.chStarted (s : State) (c : Nat) : State :=
  ((((s.wr (Reg.RUN_CH_STAT_STATE c) 1).wr (Reg.RUN_CH_PC_PC c) (s.rd (Reg.RUN_CH_CTRL_START_ADDR c))).wr (Hid.chGap c) 0).wr
    (Hid.chWait c) 0).wr (Reg.RUN_CH_FRAMES c) 0

theorem chRebase_runLoops (l : Tab (List (Nat × Nat))) :
    ({ s with runLoops := l }).chRebase c = { s.chRebase c with runLoops := l } := by
  have hnow : ({ s with runLoops := l }).txNow c = s.txNow c := rfl
  rw [State.chRebase, hnow]
  rfl

theorem chStart_eq : s.chStart c = { (s.chStarted c).chRebase c with runLoops := Tab.del s.runLoops c } :=
  chRebase_runLoops (s.chStarted c) c _

theorem txNow_chStarted : (s.chStarted c).txNow c = s.txNow c := by
  unfold State.chStarted
  simp (disch := with_unfolding_all (refine key_ne rfl rfl ?_; omega)) only [State.txNow, State.txPos, State.uiRate, State.on,
    State.rd_wr_ne]

/-- Values on the rewrite bus change the values that wait alone; none change nothing. -/
theorem rewriteBus_nil : ∃ l, s.rewriteBus c [] = { s with fabVals := l } ∧ Tab.getD l c [] = Tab.getD s.fabVals c [] := by
  unfold State.rewriteBus
  split
  next => exact ⟨_, rfl, by simp [Tab.getD_set_same]⟩
  next => exact ⟨s.fabVals, rfl, rfl⟩

/-- What a frame's start writes of the channel's timeline. -/
def State.timelineSet (s : State) (c a : Nat) (fr : Frame) : State :=
  (((s.wr (Hid.chFirst c) 0).wr (Hid.chWait c) 0).wr (Hid.chNom c)
    (s.nominal c + 66 * fr.slots + fr.gap * s.rd (Reg.PRB_CTRL_WIDTH c))).wr (Hid.chEnd c)
      (afterSlots (s.rd (Reg.PRB_CTRL_WIDTH c)) a fr.slots)

theorem timelineSet_only (a : Nat) (fr : Frame) :
    OnlyFields [Hid.chFirst c, Hid.chWait c, Hid.chNom c, Hid.chEnd c] s (s.timelineSet c a fr) := by
  iterate 4 refine OnlyFields.wr _ (by simp) ?_
  exact .refl _ s

theorem rd_timelineSet_width (a : Nat) (fr : Frame) :
    (s.timelineSet c a fr).rd (Reg.PRB_CTRL_WIDTH c) = s.rd (Reg.PRB_CTRL_WIDTH c) := by
  unfold State.timelineSet
  simp (disch := with_unfolding_all (refine key_ne rfl rfl ?_; omega)) only [State.rd_wr_ne]

theorem rd_timelineSet_nom (a : Nat) (fr : Frame) : (s.timelineSet c a fr).rd (Hid.chNom c) =
    (s.nominal c + 66 * fr.slots + fr.gap * s.rd (Reg.PRB_CTRL_WIDTH c)) % 2 ^ (Hid.chNom c).w := by
  rw [State.timelineSet, State.rd_wr_ne _ _ (by with_unfolding_all (refine key_ne rfl rfl ?_; omega)), State.rd_wr_same]

theorem rd_timelineSet_frames (a : Nat) (fr : Frame) :
    (s.timelineSet c a fr).rd (Reg.RUN_CH_FRAMES c) = s.rd (Reg.RUN_CH_FRAMES c) := by
  unfold State.timelineSet
  simp (disch := with_unfolding_all (refine key_ne rfl rfl ?_; omega)) only [State.rd_wr_ne]

/-- The registers of a CRC unit of a channel (R99, R100). -/
def crcUnit (c u : Nat) : List Fld := [Reg.RUN_CRC_CFG_WIDTH c u, Reg.RUN_CRC_CFG_REFIN c u, Reg.RUN_CRC_CFG_REFOUT c u,
  Reg.RUN_CRC_CFG_START c u, Reg.RUN_CRC_POLY c u, Reg.RUN_CRC_INIT c u, Reg.RUN_CRC_XOR c u]

theorem crc_congr {t : State} {u : Nat} (h : ∀ g ∈ crcUnit c u, t.rd g = s.rd g) :
    t.crcOf c u = s.crcOf c u ∧ t.crcSpan c u = s.crcSpan c u := by
  simp only [crcUnit, List.forall_mem_cons] at h
  obtain ⟨hw, hin, hout, hstart, hpoly, hinit, hxor, -⟩ := h
  constructor
  · funext bs
    unfold State.crcOf State.on
    rw [hw, hin, hout, hpoly, hinit, hxor]
  · funext bs n
    rw [State.crcSpan, hstart]
    rfl

theorem crcFields_congr {t : State} {u : Nat} (h : ∀ g ∈ crcUnit c u, t.rd g = s.rd g) : t.crcFields c u = s.crcFields c u := by
  obtain ⟨hof, hspan⟩ := crc_congr s c h
  funext l ds bs
  rw [State.crcFields, hof, hspan]
  rfl

/-- The bytes of a frame rest on the channel's CRC units alone. -/
theorem frameBytes_congr {t : State} (h : ∀ u < 2, ∀ g ∈ crcUnit c u, t.rd g = s.rd g) (fr : Frame) (vals fab : List Nat) (ts : Nat) :
    t.frameBytes c fr vals fab ts = s.frameBytes c fr vals fab ts := by
  obtain ⟨hof, hspan⟩ := crc_congr s c (h 0 (by omega))
  have hwidth := h 0 (by omega) (Reg.RUN_CRC_CFG_WIDTH c 0) (by simp [crcUnit])
  have hout := h 0 (by omega) (Reg.RUN_CRC_CFG_REFOUT c 0) (by simp [crcUnit])
  unfold State.frameBytes State.on
  rw [crcFields_congr s c (h 0 (by omega)), crcFields_congr s c (h 1 (by omega)), hof, hspan, hwidth, hout]

theorem rd_timelineSet_crc (a : Nat) (fr : Frame) {u : Nat} (hu : u < 2) :
    ∀ g ∈ crcUnit c u, (s.timelineSet c a fr).rd g = s.rd g := by
  simp only [crcUnit, List.forall_mem_cons, List.not_mem_nil, false_implies, implies_true, and_true, State.timelineSet]
  simp (disch := with_unfolding_all (refine key_ne rfl rfl ?_; omega)) only [State.rd_wr_ne, and_self]

/-- A RAW frame that starts on time only adds its blocks to the line. -/
theorem framePlace_raw {a : Nat} {fr : Frame} (hraw : fr.raw = true) (ha : (s.startsAt c).1 = a) :
    s.framePlace c a fr = ({ s.timelineSet c a fr with runQueue := Tab.del s.runQueue c }).lineAdd c a none (rawBlocks fr.body) := by
  delta State.framePlace
  extract_lets w nom s1 s2 s3
  have honTime : s3 = s2 := if_neg (by omega)
  rw [if_pos hraw, honTime]
  rfl

/-- The frame of a template, whose counters are `x`, is put on the line at `a`, stamped and counted. -/
def State.lineSend (s : State) (c a : Nat) (fr : Frame) (x : Tpl) (ts pre : Nat) : State :=
  let b := s.frameBytes c fr x.vals (Tab.getD s.fabVals c []) ts
  let s4 := s.tplSet c { x with vals := b.vals, frames := (x.frames + 1) % 2 ^ 64 }
  (({ s4 with fabVals := Tab.set s4.fabVals c [] b.fab }).add (Reg.RUN_CH_FRAMES c) 1).lineAdd c a (some fr.tpl)
    (sendBlocks pre b.bytes)

section
variable (a : Nat) (fr : Frame) (x : Tpl) (ts pre : Nat) {b : Build}
  (hb : s.frameBytes c fr x.vals (Tab.getD s.fabVals c []) ts = b)

theorem rd_lineSend_frames : (s.lineSend c a fr x ts pre).rd (Reg.RUN_CH_FRAMES c) =
    (s.rd (Reg.RUN_CH_FRAMES c) + 1) % 2 ^ (Reg.RUN_CH_FRAMES c).w := by
  rw [State.lineSend, State.lineAdd, rd_mk, State.add, State.rd_wr_same]
  rfl

include hb

theorem lineSend_tplCache : Tab.getD (s.lineSend c a fr x ts pre).tplCache c [] = (Tab.getD s.tplCache c []).map fun y =>
    if y.num = x.num then { x with vals := b.vals, frames := (x.frames + 1) % 2 ^ 64 } else y := by
  rw [← hb]
  exact Tab.getD_set_same ..

theorem lineSend_txLine : Tab.getD (s.lineSend c a fr x ts pre).txLine c [] = Tab.getD s.txLine c [] ++
    placed (s.rd (Reg.PRB_CTRL_WIDTH c)) a (some fr.tpl) (sendBlocks pre b.bytes) := by
  rw [← hb, State.lineSend, State.lineAdd]
  refine (Tab.getD_set_same ..).trans ?_
  rw [State.add, State.rd_wr_ne _ _ (by with_unfolding_all (refine key_ne rfl rfl ?_; omega))]
  rfl

end

/-- A frame of a template that the channel holds, which starts on time. -/
theorem framePlace_send {a : Nat} {fr : Frame} {x : Tpl} (hraw : fr.raw = false) (ha : (s.startsAt c).1 = a)
    (hx : (Tab.getD s.tplCache c []).find? (fun y => y.num == fr.tpl) = some x) :
    s.framePlace c a fr =
      ({ s.timelineSet c a fr with runQueue := Tab.del s.runQueue c }).lineSend c a fr x (s.tsAt c a)
        (s.rd (Reg.RUN_CH_PRE c)) := by
  delta State.framePlace
  extract_lets w nom s1 s2 s3 y b s4 s5
  have honTime : s3 = s2 := if_neg (by omega)
  clear_value s3
  subst honTime
  have hy : y = x := congrArg (fun o : Option Tpl => o.getD ⟨fr.tpl, List.replicate 7 0, 0⟩) hx
  clear_value y
  subst hy
  exact if_neg (by simp [hraw])

/-- A frame that waits starts in the next row to be sent, where the port sends Runner's stream and its FAB values are there. -/
theorem frameStart_due {fr : Frame} {l : List Frame} {a : Nat} (hq : Tab.getD s.runQueue c [] = fr :: l) (hfab : fr.fabs = 0)
    (hrun : s.on (Hid.txRun c) = true) (hsrc : s.rd (Hid.txSrcNow c) = 1) (hloop : s.rd (Reg.PRB_CTRL_LOOP c) ≠ 3)
    (ha : a = (s.startsAt c).2) (hlt : a < s.txPos c + 66 * s.rd (Reg.PRB_CTRL_WIDTH c)) 
    {vs : Tab (List Nat)} (hbus : s.rewriteBus c [] = { s with fabVals := vs }) :
    execFrameStart c [] s = .next (({ s with fabVals := vs }).framePlace c a fr) := by
  have hstart : (({ s with fabVals := vs }).startsAt c).2 = a := ha.symm
  have hpos : ¬(({ s with fabVals := vs }).txPos c + 66 * s.rd (Reg.PRB_CTRL_WIDTH c) ≤ a) := Nat.not_le.2 hlt
  unfold execFrameStart
  simp only [hbus, hq, hstart]
  have hrun' : ({ s with fabVals := vs }).on (Hid.txRun c) = true := hrun
  rw [if_neg]
  simp [hrun', hfab, hsrc, hloop, rd_mk, -Nat.not_le, hpos]

end
end Sys2Proof.Machine

namespace Sys2Proof
open Machine

/-- Settles O7. -/
theorem channelSteps : Obligations.ChannelSteps := by
  refine ⟨?start, ?stop, ?go, ?clear, ?waitts, ?raw, ?send⟩
  case start =>
    intro c s h
    refine ⟨s.chStart c, congrArg Host.Outcome.next (if_pos h), ⟨(s.chStarted c).chRebase c, ?only, chStart_eq s c⟩, ?_, ?_, ?_, ?_, ?first, ?base⟩
    case only =>
      refine OnlyFields.wr _ (by simp) (OnlyFields.wr _ (by simp) ?_)
      iterate 5 refine OnlyFields.wr _ (by simp) ?_
      exact .refl _ s
    all_goals simp only [chStart_eq, rd_mk]
    case first => exact rd_chRebase_first ..
    case base => rw [rd_chRebase_base, txNow_chStarted]
    all_goals
      rw [rd_chRebase_ne _ c (by with_unfolding_all (refine key_ne rfl rfl ?_; omega))
        (by with_unfolding_all (refine key_ne rfl rfl ?_; omega)), State.chStarted]
      simp (disch := with_unfolding_all (refine key_ne rfl rfl ?_; omega)) only [State.rd_wr_ne, State.rd_wr_same]
      rfl
  case stop =>
    intro c s h
    exact ⟨s.chLeave c 4, congrArg Host.Outcome.next (if_pos h), _, rfl, rfl⟩
  case go =>
    intro c s h
    refine ⟨s.chGo c, congrArg Host.Outcome.next (if_pos h), ?_, ?_, rd_chRebase_first .., ?_⟩
    · exact ((((OnlyFields.refl _ s).wr 1 (by simp)).wr 1 (by simp)).wr _ (by simp))
    · rw [State.chGo, rd_chRebase_ne _ c (by with_unfolding_all (refine key_ne rfl rfl ?_; omega))
        (by with_unfolding_all (refine key_ne rfl rfl ?_; omega)), State.rd_wr_same]
      rfl
    · rw [State.chGo, rd_chRebase_base]
      simp (disch := with_unfolding_all (refine key_ne rfl rfl ?_; omega)) only [State.txNow, State.txPos, State.uiRate,
        State.on, State.rd_wr_ne]
  case clear =>
    intro c s h
    refine ⟨_, congrArg Host.Outcome.next (if_pos h), ((OnlyFields.refl _ s).wr 0 (by simp)).wr 0 (by simp), ?_,
      (State.rd_wr_same ..).trans (Nat.zero_mod _)⟩
    rw [State.rd_wr_ne _ _ (by with_unfolding_all (refine key_ne rfl rfl ?_; omega)), State.rd_wr_same, Nat.zero_mod]
  case waitts =>
    intro c s hst hts hval hpc
    have hkept : (((s.wr (Hid.chTs c) 0).wr (Hid.chWait c) 0).chRebase c).rd (Reg.RUN_CH_PC_PC c) = s.rd (Reg.RUN_CH_PC_PC c) := by
      rw [rd_chRebase_ne _ c (by with_unfolding_all (refine key_ne rfl rfl ?_; omega))
        (by with_unfolding_all (refine key_ne rfl rfl ?_; omega))]
      simp (disch := with_unfolding_all (refine key_ne rfl rfl ?_; omega)) only [State.rd_wr_ne]
    have hnext := chNext_lt (((s.wr (Hid.chTs c) 0).wr (Hid.chWait c) 0).chRebase c) c (by rwa [hkept])
    rw [hkept] at hnext
    refine ⟨_, (congrArg Host.Outcome.next (if_pos ⟨hst, hts, hval⟩)).trans (congrArg _ hnext), ?only, ?_, ?_,
      rd_pc_succ s c hpc _, ?first, ?base⟩
    case only =>
      refine OnlyFields.wr _ (by simp) (OnlyFields.wr _ (by simp) (OnlyFields.wr _ (by simp) ?_))
      exact ((OnlyFields.refl _ s).wr 0 (by simp)).wr 0 (by simp)
    all_goals rw [State.rd_wr_ne _ _ (by with_unfolding_all (refine key_ne rfl rfl ?_; omega))]
    case first => exact rd_chRebase_first ..
    case base =>
      rw [rd_chRebase_base]
      simp (disch := with_unfolding_all (refine key_ne rfl rfl ?_; omega)) only [State.txNow, State.txPos, State.uiRate,
        State.on, State.rd_wr_ne]
    all_goals
      rw [rd_chRebase_ne _ c (by with_unfolding_all (refine key_ne rfl rfl ?_; omega))
        (by with_unfolding_all (refine key_ne rfl rfl ?_; omega))]
      simp (disch := with_unfolding_all (refine key_ne rfl rfl ?_; omega)) only [State.rd_wr_ne, State.rd_wr_same, Nat.zero_mod]
  case raw =>
    intro c fr l w a s hq hraw hfab hrun hsrc hloop hw ha hlt hontime
    subst hw
    obtain ⟨vs, hbus, hvs⟩ := rewriteBus_nil s c
    refine ⟨_, (frameStart_due s c hq hfab hrun hsrc hloop ha hlt hbus).trans
      (congrArg _ (framePlace_raw _ c hraw hontime)), ⟨_, timelineSet_only s c a fr, rfl⟩, ?_, hvs, ?_⟩
    · refine (Tab.getD_set_same ..).trans ?_
      rw [rd_mk, rd_timelineSet_width]
      rfl
    · rw [State.lineAdd, rd_mk, rd_mk]
      exact rd_timelineSet_nom s c a fr
  case send =>
    intro c fr l x a b s hq hraw hfab hdeliv hrun hsrc hloop ha hlt hontime hx hb
    have hbus : s.rewriteBus c [] = { s with fabVals := s.fabVals } := if_neg (by simp [hdeliv])
    refine ⟨_, (frameStart_due s c hq hfab hrun hsrc hloop ha hlt hbus).trans
      (congrArg _ (framePlace_send s c hraw hontime hx)), rfl, ?line, ?counters, ?frames⟩
    all_goals
      have hbytes : ({ s.timelineSet c a fr with runQueue := Tab.del s.runQueue c }).frameBytes c fr x.vals
          (Tab.getD s.fabVals c []) (s.tsAt c a) = b :=
        hb ▸ frameBytes_congr s c (fun u hu g hg => rd_timelineSet_crc s c a fr hu g hg) ..
    case line =>
      rw [lineSend_txLine _ c a fr x _ _ hbytes, rd_mk, rd_timelineSet_width]
      rfl
    case counters =>
      rw [lineSend_tplCache _ c a fr x _ _ hbytes]
      rfl
    case frames => rw [rd_lineSend_frames, rd_mk, rd_timelineSet_frames]

end Sys2Proof
end

section

namespace Sys2Proof.Machine

section
variable {s t : State} {c : Fin 4}

/-- A step to the next instruction from a state that has the PC of another. -/
theorem chNext_of (hpc : s.rd (Reg.RUN_CH_PC_PC c) < 65535) (ht : t.rd (Reg.RUN_CH_PC_PC c) = s.rd (Reg.RUN_CH_PC_PC c)) :
    t.chNext c = t.wr (Reg.RUN_CH_PC_PC c) (s.rd (Reg.RUN_CH_PC_PC c) + 1) := by
  rw [chNext_lt t c (by rwa [ht]), ht]

theorem loops_setLoops (l : List (Nat × Nat)) (f : Fld) (v : Nat) : ((s.setLoops c l).wr f v).loops c = l :=
  Tab.getD_set_same ..

end
end Sys2Proof.Machine

namespace Sys2Proof
open Machine

/-- Settles O8. -/
theorem instructionSteps : Obligations.InstructionSteps := by
  refine ⟨fun c s hpc => ⟨fun h => ?nop, fun h => ?gap, fun h => ?waitui, fun h hlen => ?loop, fun h => ?waitg, fun h hsize => ?seek,
    fun h hfld x u hx => ?setf, fun h => ?signal⟩, ?endl, ?jmp, ?waitts, ?send, ?raw, ?halt, ?illegal⟩
  case nop =>
    exact ⟨_, (congrArg Host.Outcome.next (if_pos h)).trans (congrArg _ (chNext_lt s c hpc)),
      (OnlyFields.refl _ s).wr _ (by simp), rd_pc_succ s c hpc s⟩
  case gap =>
    refine ⟨_, (congrArg Host.Outcome.next (if_pos h)).trans (congrArg _ (chNext_of (s := s) hpc
      (State.rd_wr_ne _ _ (by with_unfolding_all (refine key_ne rfl rfl ?_; omega))))),
      ((OnlyFields.refl _ s).wr _ (by simp)).wr _ (by simp), ?_, rd_pc_succ s c hpc _⟩
    rw [State.rd_wr_ne _ _ (by with_unfolding_all (refine key_ne rfl rfl ?_; omega)), State.rd_wr_same]
    exact Nat.mod_mod _ _
  case waitui => 
    refine ⟨_, (congrArg Host.Outcome.next (if_pos h)).trans (congrArg _ (chNext_of (s := s) hpc
      (State.rd_wr_ne _ _ (by with_unfolding_all (refine key_ne rfl rfl ?_; omega))))),
      ((OnlyFields.refl _ s).add _ (by simp)).wr _ (by simp), ?_, rd_pc_succ s c hpc _⟩
    rw [State.rd_wr_ne _ _ (by with_unfolding_all (refine key_ne rfl rfl ?_; omega)), State.add, State.rd_wr_same]
  case loop => 
    refine ⟨_, (congrArg Host.Outcome.next ((if_neg (by simp [h])).trans (if_neg (Nat.not_le.2 hlen)))).trans
      (congrArg _ (chNext_of (s := s) hpc rfl)), ⟨_, (OnlyFields.refl _ s).wr _ (by simp), rfl⟩,
      loops_setLoops .., rd_pc_succ s c hpc _⟩
  case waitg =>
    have hst : s.rd (Reg.RUN_CH_STAT_STATE c) = 1 := by
      simp only [State.runsOp, State.chReady, Bool.and_eq_true, beq_iff_eq] at h
      exact h.1.1.1
    refine ⟨(s.wr (Reg.RUN_CH_PC_PC c) (s.rd (Reg.RUN_CH_PC_PC c) + 1)).wr (Reg.RUN_CH_STAT_STATE c) 2, ?exec,
      ((OnlyFields.refl _ s).wr _ (by simp)).wr _ (by simp), (State.rd_wr_same ..).trans rfl, ?_⟩
    case exec =>
      refine (congrArg Host.Outcome.next (if_pos h)).trans ?_
      rw [chNext_lt s c hpc]
      dsimp only
      rw [State.rd_wr_ne _ _ (by with_unfolding_all (refine key_ne rfl rfl ?_; omega)), if_pos hst]
    rw [State.rd_wr_ne _ _ (by with_unfolding_all (refine key_ne rfl rfl ?_; omega)), rd_pc_succ s c hpc]
  case seek =>
    have hk : bits (s.insn c) 45 42 < 16 := Nat.mod_lt _ (by omega)
    refine ⟨_, (congrArg Host.Outcome.next ((if_neg (by simp [h])).trans (if_neg (Nat.not_le.2 hsize)))).trans
      (congrArg _ (chNext_of (s := s) hpc (State.rd_wr_ne _ _ (by with_unfolding_all (refine key_ne rfl rfl ?_; omega))))),
      ((OnlyFields.refl _ s).wr _ (by simp)).wr _ (by simp), ?_⟩
    rw [State.rd_wr_ne _ _ (by with_unfolding_all (refine key_ne rfl rfl ?_; omega)), State.rd_wr_same]
    exact Nat.mod_eq_of_lt ((Nat.mod_lt _ (Nat.two_pow_pos _)).trans_le (Nat.pow_le_pow_right (by omega) (by show _ ≤ 64; omega)))
  case setf =>
    refine (congrArg Host.Outcome.next ((if_neg (by simp [h])).trans (if_neg hfld))).trans ?_
    rw [hx]
  case signal => exact congrArg Host.Outcome.next (if_pos h)
  case endl =>
    intro c n ret l s h hl
    refine ⟨(s.setLoops c ((n + 1, ret) :: l)).wr (Reg.RUN_CH_PC_PC c) ret, ?exec, ⟨_, (OnlyFields.refl _ s).wr _ (by simp), rfl⟩,
      loops_setLoops .., State.rd_wr_same ..⟩
    refine (congrArg Host.Outcome.next (if_neg (by simp [h]))).trans ?_
    rw [hl]
  case jmp =>
    intro c s h
    refine ⟨_, congrArg Host.Outcome.next (if_pos h), (OnlyFields.refl _ s).wr _ (by simp), (State.rd_wr_same ..).trans (Nat.mod_mod _ _)⟩
  case waitts =>
    intro c s h
    refine ⟨_, congrArg Host.Outcome.next (if_pos h), ((OnlyFields.refl _ s).wr _ (by simp)).wr _ (by simp), ?_,
      (State.rd_wr_same ..).trans (Nat.mod_mod _ _)⟩
    rw [State.rd_wr_ne _ _ (by with_unfolding_all (refine key_ne rfl rfl ?_; omega)), State.rd_wr_same]
    rfl
  case send =>
    intro c r r2 r3 body img ds x l ctl crc u v w y z s h hr hread hr2 himg hctl hhdr hcrc hl hpos hmax hds hload hz hpc
    have hframe : u.sendFrame c (s.insn c) body = ({ z with runQueue := Tab.set z.runQueue c [] [⟨false, bits (s.insn c) 57 46,
        img.take (ctl % 512), body, (List.range 7).map (fun j => ofLeBytes ((ds.drop (8 * j)).take 8)), bit ctl 9, l / 8 + 2,
        u.rd (Hid.chGap c)⟩] }).chNext c := by
      unfold State.sendFrame
      dsimp only
      rw [himg]
      subst hctl hcrc hl hz
      cases r2 with
      | held => exact absurd rfl hr2
      | _ =>
        dsimp only
        rw [if_neg (by omega), hds]
        dsimp only
        rw [hload]
    refine (congrArg Host.Outcome.next (if_neg (by simp [h]))).trans ?_
    rw [hread]
    cases r with
    | held => exact absurd rfl hr
    | _ => exact congrArg Host.Outcome.next (hframe.trans (chNext_lt _ c hpc))
  case raw => 
    intro c r body u y s h hr hread hy hpc
    subst hy
    refine (congrArg Host.Outcome.next (if_neg (by simp [h]))).trans ?_
    rw [hread]
    cases r with
    | held => exact absurd rfl hr
    | _ => exact congrArg Host.Outcome.next (chNext_lt _ c hpc)
  case halt =>
    intro c s h
    exact congrArg Host.Outcome.next (if_pos h)
  case illegal =>
    intro c s hready hlow hhigh
    exact congrArg Host.Outcome.next (if_pos (by simpa [hready] using ⟨hlow, hhigh⟩))

end Sys2Proof
end

section

namespace Sys2Proof.Machine

/-- What every step keeps holds after an iteration. -/
theorem each_keeps {α : Type} {P : State → Prop} {l : List α} {f : α → State → State} (h : ∀ a ∈ l, ∀ v, P v → P (f a v)) {t : State}
    (ht : P t) : P (State.each l f t) := by
  unfold State.each
  induction l generalizing t with
  | nil => exact ht
  | cons a r ih => exact ih (fun b hb => h b (List.mem_cons_of_mem a hb)) (h a List.mem_cons_self t ht)

/-! ### Marigold: retiring, closing and publishing (R120, R129 to R132) -/

section
variable (s : State) {g : Fld}

@[simp] theorem rd_marWrite (a : Nat) (bs : List Byte) : (s.marWrite a bs).rd g = s.rd g :=
  State.rd_each _ _ s g fun _ _ _ => rd_putWord ..

/-- A retired flow is not valid. -/
theorem rd_retire_valid (f : Fin 4096) (reason : Nat) : (s.retire f reason).rd (Hid.flowValid f) = 0 := by
  delta State.retire
  extract_lets s1 s2 s3 s4 s5 s6
  simp (disch := with_unfolding_all (refine key_ne rfl rfl ?_; omega)) only [s6, State.rd_wr_ne, State.rd_wr_same, Nat.zero_mod]

/-- A retired flow is one live flow fewer. -/
theorem rd_retire_live (f : Fin 4096) (reason : Nat) : (s.retire f reason).rd Reg.MAR_LIVE = s.rd Reg.MAR_LIVE - 1 := by
  delta State.retire
  extract_lets s1 s2 s3 s4 s5 s6
  rw [State.rd_wr_same]
  exact Nat.mod_eq_of_lt (lt_of_le_of_lt (Nat.sub_le _ _) (State.rd_lt s _))

/-- An event of Marigold changes, of its own fields, the bits of MAR_EVT alone. -/
theorem rd_marEvent [Quiet g] {i : Nat} (hi : i < 32) (h : g.key ≠ Reg.MAR_EVT_EVT.key) : (s.marEvent i).rd g = s.rd g := by
  rw [State.marEvent, State.raiseB, quiet_raise _ _ (by with_unfolding_all (refine noisy rfl ?_; omega))]
  exact State.rd_wr_ne s _ h

/-- At a close every ledger is copied (R129). -/
def State.ledgersCopied (s : State) : State := State.each (List.range 256) (fun i t => State.each (List.range 16)
  (fun c u => u.wr (Hid.ledCopy i c) (u.rd (Hid.ledger i c))) t) s

theorem rd_ledgersCopied_ne (h : ∀ i < 256, ∀ c < 16, g.key ≠ (Hid.ledCopy i c).key) : s.ledgersCopied.rd g = s.rd g :=
  State.rd_each _ _ s g fun i hi t => State.rd_each _ _ t g fun c hc u =>
    State.rd_wr_ne u _ (h i (List.mem_range.1 hi) c (List.mem_range.1 hc))

theorem rd_ledgersCopied (i : Fin 256) (c : Fin 16) : s.ledgersCopied.rd (Hid.ledCopy i c) = s.rd (Hid.ledger i c) := by
  have hwrite (a b : Nat) (ha : a < 256) (hb : b < 16) (u : State) (h : u.rd (Hid.ledCopy i c) = u.rd (Hid.ledger i c) ∨ (a = i ∧ b = c)) :
      (u.wr (Hid.ledCopy a b) (u.rd (Hid.ledger a b))).rd (Hid.ledCopy i c)
        = (u.wr (Hid.ledCopy a b) (u.rd (Hid.ledger a b))).rd (Hid.ledger i c) := by
    rw [State.rd_wr_ne u (f := Hid.ledCopy a b) (g := Hid.ledger i c) _ (by with_unfolding_all (refine key_ne rfl rfl ?_; omega))]
    by_cases he : a = i ∧ b = c
    · obtain ⟨rfl, rfl⟩ := he
      exact (State.rd_wr_same ..).trans (Nat.mod_eq_of_lt (State.rd_lt u (Hid.ledger i c)))
    · rw [State.rd_wr_ne _ _ (by with_unfolding_all (refine key_ne rfl rfl ?_; omega))]
      exact h.resolve_right he
  have hcopied : s.ledgersCopied.rd (Hid.ledCopy i c) = s.ledgersCopied.rd (Hid.ledger i c) := by
    refine each_establishes (P := fun u => u.rd (Hid.ledCopy i c) = u.rd (Hid.ledger i c)) (List.mem_range.2 i.2) (fun t => ?_)
      (fun a ha t h => ?_) s
    · exact each_establishes (P := fun u => u.rd (Hid.ledCopy i c) = u.rd (Hid.ledger i c)) (List.mem_range.2 c.2)
        (fun u => hwrite i c i.2 c.2 u (.inr ⟨rfl, rfl⟩)) (fun b hb u h => hwrite i b i.2 (List.mem_range.1 hb) u (.inl h)) t
    · exact each_keeps (fun b hb u h => hwrite a b (List.mem_range.1 ha) (List.mem_range.1 hb) u (.inl h)) h
  rw [hcopied, rd_ledgersCopied_ne s fun a ha b hb => by with_unfolding_all (refine key_ne rfl rfl ?_; omega)]

/-- What a close writes after the ledgers are copied (R129). -/
def State.closeMarked (t : State) (k ts skip lost : Nat) : State :=
  (((((((t.wr Hid.epNum k).wr Reg.MAR_SNAP_EP k).wr Hid.pubTs ts).wr Hid.pubSkip skip).wr Hid.epSkip 0).wr Hid.pubLost lost).wr
    Hid.epLost 0).wr Hid.pubPend 1

theorem epochClose_eq : s.epochClose = s.ledgersCopied.closeMarked s.epoch
    (s.now / (4000 * s.rd Reg.MAR_EPOCH_LEN_LEN) * (4000 * s.rd Reg.MAR_EPOCH_LEN_LEN)) (min 255 (s.rd Hid.epSkip))
    (s.rd Hid.epLost) := rfl

theorem closeMarked_only (k ts skip lost : Nat) : OnlyFields [Hid.epNum, Reg.MAR_SNAP_EP, Hid.pubTs,
    Hid.pubSkip, Hid.epSkip, Hid.pubLost, Hid.epLost, Hid.pubPend] s (s.closeMarked k ts skip lost) := by
  iterate 8 refine OnlyFields.wr _ (by simp) ?_
  exact .refl _ s

theorem ledgersCopied_only : OnlyFields ((List.range 256).flatMap (fun i => (List.range 16).map (Hid.ledCopy i))) s s.ledgersCopied :=
  OnlyFields.each (fun i hi t => OnlyFields.each (fun c hc u =>
    (OnlyFields.refl _ u).wr _ (List.mem_flatMap.2 ⟨i, hi, List.mem_map.2 ⟨c, hc, rfl⟩⟩)) (.refl _ t)) (.refl _ s)

/-- The nodes of the tree at a publication (R131). -/
def State.nodesBuilt (s : State) : State := State.each (List.range 273) (fun n t =>
  (State.each (List.range 16) (fun c u => u.wr (Hid.node n c) (s.nodeSum n c)) t).wr (Hid.nodeBad n) 0) s

theorem rd_nodesBuilt_node (n : Fin 273) (c : Fin 16) : s.nodesBuilt.rd (Hid.node n c) = s.nodeSum n c := by
  have hwrite (a b : Nat) (hb : b < 16) (u : State) (h : u.rd (Hid.node n c) = s.nodeSum n c ∨ (a = n ∧ b = c)) :
      (u.wr (Hid.node a b) (s.nodeSum a b)).rd (Hid.node n c) = s.nodeSum n c := by
    by_cases he : a = n ∧ b = c
    · obtain ⟨rfl, rfl⟩ := he
      exact (State.rd_wr_same ..).trans (Nat.mod_mod _ _)
    · rw [State.rd_wr_ne _ _ (by with_unfolding_all (refine key_ne rfl rfl ?_; omega))]
      exact h.resolve_right he
  have hbad (a : Nat) (ha : a < 273) (t : State) : (t.wr (Hid.nodeBad a) 0).rd (Hid.node n c) = t.rd (Hid.node n c) :=
    State.rd_wr_ne t _ (by with_unfolding_all (refine key_ne rfl rfl ?_; omega))
  refine each_establishes (P := fun u => u.rd (Hid.node n c) = s.nodeSum n c) (List.mem_range.2 n.2) (fun t => ?_) (fun a ha t h => ?_) s
  · exact (hbad n n.2 _).trans (each_establishes (P := fun u => u.rd (Hid.node n c) = s.nodeSum n c) (List.mem_range.2 c.2)
      (fun u => hwrite n c c.2 u (.inr ⟨rfl, rfl⟩)) (fun b hb u h => hwrite n b (List.mem_range.1 hb) u (.inl h)) t)
  · exact (hbad a (List.mem_range.1 ha) _).trans
      (each_keeps (P := fun u => u.rd (Hid.node n c) = s.nodeSum n c) (fun b hb u h => hwrite a b (List.mem_range.1 hb) u (.inl h)) h)

theorem rd_nodesBuilt_bad (n : Fin 273) : s.nodesBuilt.rd (Hid.nodeBad n) = 0 := by
  refine each_establishes (P := fun u => u.rd (Hid.nodeBad n) = 0) (List.mem_range.2 n.2) (fun t => State.rd_wr_same ..)
    (fun a ha t h => ?_) s
  have hbound := List.mem_range.1 ha
  by_cases he : a = n
  · rw [he]
    exact State.rd_wr_same ..
  · rw [State.rd_wr_ne _ _ (by with_unfolding_all (refine key_ne rfl rfl ?_; omega)), State.rd_each _ _ _ _ fun b hb u => by
      have := List.mem_range.1 hb
      exact State.rd_wr_ne u _ (by with_unfolding_all (refine key_ne rfl rfl ?_; omega))]
    exact h

/-- What a publication writes of the snapshot's registers where no node had an error (R131, R132). -/
def State.snapMarked (s : State) : State :=
  (((((s.nodesBuilt.wr Reg.MAR_SNAP_TS (s.rd Hid.pubTs)).wr Reg.MAR_SNAP_FLAGS_REBUILT 0).wr
    Reg.MAR_SNAP_FLAGS_INEXACT (b2n s.inexact)).wr Reg.MAR_SNAP_FLAGS_SKIPPED (s.rd Hid.pubSkip)).wr
    Reg.MAR_SNAP_FLAGS_LOST (s.rd Hid.pubLost)).wr Hid.pubPend 0

theorem rd_snapMarked_pend : s.snapMarked.rd Hid.pubPend = 0 := State.rd_wr_same ..

theorem rd_snapMarked_ts : s.snapMarked.rd Reg.MAR_SNAP_TS = s.rd Hid.pubTs % 2 ^ 64 := by
  simp (disch := with_unfolding_all (refine key_ne rfl rfl ?_; omega)) only [State.snapMarked, State.rd_wr_ne, State.rd_wr_same]
  rfl

theorem rd_snapMarked_node (n : Fin 273) (c : Fin 16) : s.snapMarked.rd (Hid.node n c) = s.nodeSum n c := by
  rw [← rd_nodesBuilt_node s n c]
  simp (disch := with_unfolding_all (refine key_ne rfl rfl ?_; omega)) only [State.snapMarked, State.rd_wr_ne]

theorem rd_snapMarked_bad (n : Fin 273) : s.snapMarked.rd (Hid.nodeBad n) = 0 := by
  rw [← rd_nodesBuilt_bad s n]
  simp (disch := with_unfolding_all (refine key_ne rfl rfl ?_; omega)) only [State.snapMarked, State.rd_wr_ne]

/-- A publication raises event 353 at the epochs that MAR_CTRL asks for (R132). -/
def State.published (s : State) : State :=
  if s.rd Hid.epNum % 2 ^ s.rd Reg.MAR_CTRL_EP_EVT_SHIFT = 0 then s.snapMarked.marEvent 1 else s.snapMarked

theorem rd_published [Quiet g] (h : g.key ≠ Reg.MAR_EVT_EVT.key) : s.published.rd g = s.snapMarked.rd g := by
  rw [State.published, rd_ite, rd_marEvent _ (by omega) h, ite_self]

theorem mem_nodesBuilt : s.nodesBuilt.mem = s.mem := by
  unfold State.nodesBuilt
  refine mem_each fun n _ t => ?_
  rw [State.wr_mem]
  exact mem_each fun c _ u => State.wr_mem ..

theorem mem_snapMarked : s.snapMarked.mem = s.mem := by
  unfold State.snapMarked
  iterate 6 rw [State.wr_mem]
  exact mem_nodesBuilt s

theorem mem_published : s.published.mem = s.mem := by
  unfold State.published
  split
  · rw [State.marEvent, mem_raiseB, mem_snapMarked]
  · exact mem_snapMarked s

/-- Publication where no node has an error: the counters go to the history ring as the tree holds them. -/
theorem treePublish_eq (hpend : s.on Hid.pubPend = true) (hgood : ∀ n : Fin 273, s.on (Hid.nodeBad n) = false)
    (hnode : ∀ (n : Fin 273) (c : Fin 16), s.published.rd (Hid.node n c) = s.nodeSum n c) :
    execTreePublish false s = .next (s.published.marWrite (histAddr (s.rd Hid.epNum)) (leBytes 8 (s.rd Hid.epNum)
      ++ leBytes 8 (s.rd Hid.pubTs) ++ leBytes 4 s.published.snapFlags ++ List.replicate 108 0
      ++ (List.range 273).flatMap (fun n => (List.range 16).flatMap (fun c => leBytes 8 (s.nodeSum n c))))) := by
  have hbad : (List.range 273).any (fun n => s.on (Hid.nodeBad n)) = false :=
    List.any_eq_false.2 fun n hn => by simpa using hgood ⟨n, List.mem_range.1 hn⟩
  have hbody : (List.range 273).flatMap (fun n => (List.range 16).flatMap (fun c => leBytes 8 (s.published.rd (Hid.node n c))))
      = (List.range 273).flatMap (fun n => (List.range 16).flatMap (fun c => leBytes 8 (s.nodeSum n c))) :=
    List.flatMap_congr fun n hn => List.flatMap_congr fun c hc =>
      congrArg (leBytes 8) (hnode ⟨n, List.mem_range.1 hn⟩ ⟨c, List.mem_range.1 hc⟩)
  unfold execTreePublish
  simp only [hpend, hbad, Bool.not_true, Bool.or_false, Bool.false_eq_true, if_false]
  rw [← hbody]
  rfl

end
end Sys2Proof.Machine

namespace Sys2Proof
open Machine

/-- Settles O9. -/
theorem flowSteps : Obligations.FlowSteps := by
  refine ⟨?key, ?entry, ?age, ?close, ?publish, ?window, ?leaf, ?clean, ?upset, ?rebuild⟩
  case key => 
    intro n row p key klen len seq lat umask add first e s hp hst hsw hon hstop hpipe hrow hdelay hroom hfirst he
    show Host.Outcome.next _ = _
    rw [hp, he, hfirst]
    dsimp only
    rw [if_neg (by simp [hst, hsw, hon, hstop, hpipe, hrow]), if_neg (by omega), if_neg (by simp [hroom])]
  case entry =>
    intro p e l r u s hq hon hfirst hlook
    refine ⟨fun f hr => ?_, fun f v hr hf => ?_, fun hr hf => ?_⟩
    all_goals
      subst hr
      show Host.Outcome.next _ = _
      simp [hq, hon, hlook, hfirst]
    all_goals simp [hf]
  case age =>
    intro f s hon hvalid hage hidle
    refine ⟨s.retire f 1, ?_, rfl, rd_retire_valid s f 1, rd_retire_live s f 1⟩
    exact congrArg Host.Outcome.next (if_pos (by simpa [hon, hvalid, hage] using hidle))
  case close =>
    intro s hon hhold hexp
    have hexec : s.epochPass 1 = (s.inc Hid.epSkip 0).epochClose := by
      rw [State.epochPass, if_neg (by simp [hon]), if_neg (by simp [hhold, hexp])]
    have hledger (i : Fin 256) (c : Fin 16) : (s.inc Hid.epSkip 0).rd (Hid.ledger i c) = s.rd (Hid.ledger i c) :=
      rd_inc_ne (by with_unfolding_all (refine key_ne rfl rfl ?_; omega)) 0 s
    have hepoch : (s.inc Hid.epSkip 0).epoch = s.epoch :=
      congrArg (· + 1) (rd_inc_ne (by with_unfolding_all (refine key_ne rfl rfl ?_; omega)) 0 s)
    rw [epochClose_eq, hepoch] at hexec
    refine ⟨_, congrArg Host.Outcome.next hexec, ?only, ?_, ?_, ?_, ?_, ?copies⟩
    case only =>
      refine ((((OnlyFields.refl [Hid.epSkip] s).inc 0 (by simp)).mono ?_).trans ((ledgersCopied_only _).mono ?_)).trans
        ((closeMarked_only _ _ _ _ _).mono ?_)
      · simp
      · exact fun f hf => List.mem_append_left _ hf
      · exact fun f hf => List.mem_append_right _ hf
    all_goals simp (disch := with_unfolding_all (refine key_ne rfl rfl ?_; omega)) only [State.closeMarked, State.rd_wr_ne,
      State.rd_wr_same]
    case copies => exact fun i c => (rd_ledgersCopied _ i c).trans (hledger i c)
    all_goals rfl
  case publish =>
    intro s hpend hgood
    have hnode (n : Fin 273) (c : Fin 16) : s.published.rd (Hid.node n c) = s.nodeSum n c := by
      have : Quiet (Hid.node n c) := by with_unfolding_all (refine quiet_of rfl ?_; unfold quietKey; omega)
      rw [rd_published s (by with_unfolding_all (refine key_ne rfl rfl ?_; omega)), rd_snapMarked_node]
    refine ⟨_, treePublish_eq s hpend hgood hnode, s.published, ?pend, ?ts, fun n c => ⟨hnode n c, ?bad⟩, mem_published s, rfl⟩
    case pend =>
      have : Quiet Hid.pubPend := by with_unfolding_all (refine quiet_of rfl ?_; unfold quietKey; omega)
      rw [rd_published s (by decide), rd_snapMarked_pend]
    case ts =>
      have : Quiet Reg.MAR_SNAP_TS := by with_unfolding_all (refine quiet_of rfl ?_; unfold quietKey; omega)
      rw [rd_published s (by decide), rd_snapMarked_ts]
    case bad =>
      have : Quiet (Hid.nodeBad n) := by with_unfolding_all (refine quiet_of rfl ?_; unfold quietKey; omega)
      rw [rd_published s (by with_unfolding_all (refine key_ne rfl rfl ?_; omega)), rd_snapMarked_bad]
  case window =>
    intro n c s
    constructor
    · intro hpend hbad
      show Host.Outcome.next _ = _
      simp only [State.nodeRead, hpend, hbad, Bool.or_false, Bool.false_eq_true, if_false]
      rfl
    · intro hpend
      show Host.Outcome.next _ = _
      simp only [State.nodeRead, hpend, if_true]
      rfl
  case leaf => exact fun f c s => rfl
  case clean => exact fun s => rfl
  case upset => 
    intro x s
    refine ⟨fun ⟨b, hb⟩ hleft => ?_, fun i hv hpart => ?_, fun f hv hpart => ?_⟩
    · show Host.Outcome.next _ = _
      simp [hb, State.each, State.storeFix, hleft]
    · show Host.Outcome.next _ = _
      have hleaves : (List.filterMap storeLeaf [.ledger i]).dedup = [] := rfl
      simp [hv, hpart, hleaves, State.each]
    · show Host.Outcome.next _ = _
      simp [hv, hpart, storeLeaf, State.each]
  case rebuild =>
    intro b s fs hbad hread hfs
    show execBucketRebuild b s = _
    delta execBucketRebuild
    extract_lets s0 want fs' s1 s2
    have hs0 : s0 = s := by
      refine each_keeps (P := fun t => t = s) (fun f hf t ht => ?_) rfl
      subst ht
      split
      next hv =>
        have h : (t.marRead (ctxAddr f + 64) 1).2 = (false, t) := hread ⟨f, List.mem_range.1 hf⟩ hv
        generalize t.marRead (ctxAddr f + 64) 1 = r at h ⊢
        obtain ⟨bs, bad, u⟩ := r
        cases h
        rfl
      next => rfl
    clear_value s0
    subst hs0
    have hfs' : fs' = fs := hfs.symm
    clear_value fs'
    subst hfs'
    rw [if_neg (by simp [hbad])]

end Sys2Proof
end

section

namespace Sys2Proof.Machine

/-! ### Emptying Marigold and taking its image (R135, R141) -/

section
variable (s : State) {g : Fld}

/-- The registers of an emptied Marigold that are 0 (R141). -/
def State.marZeroed (t : State) : State :=
  (((((((State.each (List.range 8) (fun m t => t.wr (Reg.MAR_INEXACT m) 0) t).wr Reg.MAR_LIVE 0).wr Reg.MAR_SNAP_EP 0).wr
    Reg.MAR_SNAP_TS 0).wr Reg.MAR_SNAP_FLAGS_REBUILT 0).wr Reg.MAR_SNAP_FLAGS_INEXACT 0).wr Reg.MAR_SNAP_FLAGS_SKIPPED 0).wr
    Reg.MAR_SNAP_FLAGS_LOST 0

theorem marEmpty_eq : s.marEmpty = { (s.resetBlocks Hid.grpMAR.1 Hid.grpMAR.2).marWipe.marZeroed with keyFifo := [] } := rfl

/-- A hidden field of Marigold is 0 once it is emptied. -/
theorem rd_marEmpty_hid (hlo : cellKey Hid.grpMAR.1 0 0 ≤ g.key) (hhi : g.key < cellKey Hid.grpMAR.2 0 0) (hrst : g.rst = 0) :
    s.marEmpty.rd g = 0 := by
  rw [marEmpty_eq, rd_mk]
  have hne {f : Fld} (h : f.key < cellKey Hid.grpMAR.1 0 0) : g.key ≠ f.key := (h.trans_le hlo).ne'
  have hzero (t : State) : t.marZeroed.rd g = t.rd g := by
    unfold State.marZeroed
    iterate 7 rw [State.rd_wr_ne _ _ (hne (by decide))]
    refine State.rd_each _ _ t g fun m hm u => State.rd_wr_ne u _ (hne ?_)
    fin_cases hm <;> decide
  rw [hzero]
  refine (State.rd_resetBlocks s Hid.grpMAR.1 Hid.grpMAR.2 g).trans ?_
  rw [if_pos ⟨hlo, hhi⟩, hrst, Nat.zero_mod]

theorem rd_marEmpty_live : s.marEmpty.rd Reg.MAR_LIVE = 0 := by
  rw [marEmpty_eq, rd_mk, State.marZeroed]
  simp (disch := decide) only [State.rd_wr_ne, State.rd_wr_same, Nat.zero_mod]

theorem rd_marEmpty_snapEp : s.marEmpty.rd Reg.MAR_SNAP_EP = 0 := by
  rw [marEmpty_eq, rd_mk, State.marZeroed]
  simp (disch := decide) only [State.rd_wr_ne, State.rd_wr_same, Nat.zero_mod]

end
end Sys2Proof.Machine

namespace Sys2Proof
open Machine

/-- Settles O10. -/
theorem flowCommandSteps : Obligations.FlowCommandSteps := by
  refine ⟨?start, ?stop, ?stopDone, ?clearAll, ?clearDone, ?take, ?exportDone, ?retire, ?clrCnt⟩
  case start =>
    intro s hoff hbusy htest
    exact ⟨_, congrArg Host.Outcome.next (if_pos (by simp [hoff, hbusy, htest])), (OnlyFields.refl _ s).wr 1 (by simp),
      State.rd_wr_same ..⟩
  case stop =>
    intro s hon
    exact ⟨_, congrArg Host.Outcome.next (if_pos hon), (OnlyFields.refl _ s).wr 1 (by simp), State.rd_wr_same ..⟩
  case stopDone =>
    intro s hstop hfifo
    refine ⟨_, congrArg Host.Outcome.next (if_pos (by simp [hstop, hfifo])),
      ((OnlyFields.refl _ s).wr 0 (by simp)).wr 0 (by simp), ?_, (State.rd_wr_same ..).trans (Nat.zero_mod _)⟩
    rw [State.rd_wr_ne _ _ (by decide), State.rd_wr_same, Nat.zero_mod]
  case clearAll => 
    intro s hoff hbusy hexp
    refine ⟨s.marEmpty.wr Reg.MAR_STAT_BUSY 1, congrArg Host.Outcome.next (if_pos (by simp [hoff, hbusy, hexp])), rfl,
      State.rd_wr_same .., ?_, ?_, ?_, fun f => ?_, rfl⟩
    all_goals rw [State.rd_wr_ne _ _ (by with_unfolding_all (refine key_ne rfl rfl ?_; omega))]
    · exact rd_marEmpty_live s
    · exact rd_marEmpty_snapEp s
    · exact rd_marEmpty_hid s (by decide) (by decide) rfl
    · have hkey : (Hid.flowValid f).key = (0x10D9 * 1048576 + f) * 64 + 0 := by with_unfolding_all rfl
      have hlo : cellKey Hid.grpMAR.1 0 0 = 0x10D5 * 1048576 * 64 := by decide
      have hhi : cellKey Hid.grpMAR.2 0 0 = 0x10F6 * 1048576 * 64 := by decide
      exact rd_marEmpty_hid s (by rw [hkey, hlo]; omega) (by rw [hkey, hhi]; omega) rfl
  case clearDone =>
    intro s hbusy
    exact ⟨_, rfl, (OnlyFields.refl _ s).wr 0 (by simp), (State.rd_wr_same ..).trans (Nat.zero_mod _)⟩
  case take =>
    intro s hbusy hexp hep
    refine ⟨s.exportTake.wr Reg.MAR_STAT_EXPORT_BUSY 1, congrArg Host.Outcome.next (if_pos (by simp [hbusy, hexp, hep])), ?taken,
      State.rd_wr_same .., ?_, ?_, fun f => ?flows⟩
    all_goals unfold State.exportTake
    case taken =>
      iterate 5 refine OnlyFields.wr _ (by simp) ?_
      exact OnlyFields.each (fun f hf t => (OnlyFields.refl _ t).wr _ (List.mem_append_left _ (List.mem_map.2 ⟨f, hf, rfl⟩))) (.refl _ s)
    all_goals simp (disch := with_unfolding_all (refine key_ne rfl rfl ?_; omega)) only [State.rd_wr_ne, State.rd_wr_same]
    case flows =>
      exact rd_each_wr Hid.expFlow (fun n => ofLeBytes (s.exportFlow n)) (List.mem_range.2 f.2) (fun a ha h => by
        have := List.mem_range.1 ha
        with_unfolding_all (refine key_ne rfl rfl ?_; omega)) s
  case exportDone =>
    intro r u s hexp hpend hgood hr hwrite
    have hnodes : State.each (List.range 273) (fun n v => if s.on (Hid.nodeBad n) then v.nodeErr n else v) u = u := by
      refine each_keeps (P := fun v => v = u) (fun n hn v hv => ?_) rfl
      have := hgood ⟨n, List.mem_range.1 hn⟩
      rw [if_neg (by simpa using this), hv]
    refine (congrArg Host.Outcome.next (if_neg (by simp [hexp, hpend]))).trans ?_
    rw [hwrite]
    cases r with
    | held => exact absurd rfl hr
    | _ =>
      dsimp only
      rw [hnodes]
      rfl
  case retire =>
    intro f s hvalid hbusy
    exact ⟨s.retire f 3, congrArg Host.Outcome.next (if_pos (by simp [hvalid, hbusy])), rfl, rd_retire_valid s f 3, rd_retire_live s f 3⟩
  case clrCnt =>
    intro s
    have hmem {x : Fld} {p : Nat} (hp : p ∈ List.range 4) (hx : x ∈ [Reg.MAR_NOFLOW p, Reg.MAR_PIPE_DROP p, Reg.MAR_PIPE_LATE p, Reg.MAR_MISS p]) :
        x ∈ [Reg.MAR_RLOG_DROP, Reg.MAR_LOSS, Reg.MAR_LOSS_STAT_UNBOUNDED, Reg.MAR_LOSS_STAT_LEAVES] ++ (List.range 4).flatMap
          (fun p => [Reg.MAR_NOFLOW p, Reg.MAR_PIPE_DROP p, Reg.MAR_PIPE_LATE p, Reg.MAR_MISS p]) :=
      List.mem_append_right _ (List.mem_flatMap.2 ⟨p, hp, hx⟩)
    refine ⟨s.marClrCnt, rfl, ?keeps, ?_, ?_, fun p => ?ports⟩
    case keeps =>
      unfold State.marClrCnt
      iterate 4 refine OnlyFields.wr _ (by simp) ?_
      refine OnlyFields.each (fun p hp t => ?_) (.refl _ s)
      iterate 4 refine OnlyFields.wr _ (hmem hp (by simp)) ?_
      exact .refl _ t
    all_goals unfold State.marClrCnt
    case ports =>
      simp (disch := with_unfolding_all (refine key_ne rfl rfl ?_; omega)) only [State.rd_wr_ne]
      refine each_establishes (P := fun v => v.rd (Reg.MAR_NOFLOW p) = 0 ∧ v.rd (Reg.MAR_PIPE_DROP p) = 0
        ∧ v.rd (Reg.MAR_PIPE_LATE p) = 0 ∧ v.rd (Reg.MAR_MISS p) = 0) (List.mem_range.2 p.2) (fun v => ?_) (fun a ha v h => ?_) s
      · simp (disch := with_unfolding_all (refine key_ne rfl rfl ?_; omega)) [State.rd_wr_ne, State.rd_wr_same]
      · have := List.mem_range.1 ha
        by_cases he : a = p
        · subst he
          simp (disch := with_unfolding_all (refine key_ne rfl rfl ?_; omega)) [State.rd_wr_ne, State.rd_wr_same]
        · simpa (disch := with_unfolding_all (refine key_ne rfl rfl ?_; omega)) [State.rd_wr_ne] using h
    all_goals simp (disch := decide) [State.rd_wr_ne, State.rd_wr_same]

end Sys2Proof
end

section

namespace Sys2Proof.Machine

/-! ### Packed bits -/

theorem packBits_succ (n : Nat) (f : Nat → Bool) : packBits (n + 1) f = packBits n f + b2n (f n) * 2 ^ n := by
  simp [packBits, List.range_succ]

theorem packBits_lt (n : Nat) (f : Nat → Bool) : packBits n f < 2 ^ n := by
  induction n with
  | zero => exact Nat.one_pos
  | succ n ih =>
    rw [packBits_succ, pow_succ]
    cases f n <;> simp [b2n] <;> omega

/-- A bit of a packed word is the bit that was packed there. -/
theorem bit_packBits {n i : Nat} (h : i < n) (f : Nat → Bool) : bit (packBits n f) i = f i := by
  induction n with
  | zero => omega
  | succ n ih =>
    rw [packBits_succ]
    rcases Nat.lt_succ_iff_lt_or_eq.1 h with h | rfl
    · rw [← bit_mod_two_pow _ h, Nat.add_mul_mod_self_right, bit_mod_two_pow _ h, ih h]
    · have hlt := packBits_lt i f
      rw [bit, Nat.add_mul_div_right _ _ (Nat.two_pow_pos i), Nat.div_eq_of_lt hlt]
      cases f i <;> rfl

theorem bitOf_wr_packBits (s : State) (F : Fld) {i : Nat} (h : i < F.w) (f : Nat → Bool) :
    (s.wr F (packBits F.w f)).bitOf F i = f i := by
  rw [State.bitOf, State.rd_wr_same, Nat.mod_eq_of_lt (packBits_lt _ f), bit_packBits h]

theorem OnlyFields.mem_eq {fs : List Fld} {s t : State} (h : OnlyFields fs s t) : t.mem = s.mem := by rw [h.others]

theorem mem_muUnits {u : Nat × Nat} (h : u ∈ muUnits) : u.1 < 64 ∧ u.2 < 2 := by
  obtain ⟨k, hk, hu⟩ := List.mem_flatMap.1 h
  have hk := List.mem_range.1 hk
  rcases List.mem_cons.1 hu with rfl | hu
  · exact ⟨hk, by omega⟩
  · obtain rfl := List.mem_singleton.1 hu
    exact ⟨hk, by omega⟩

/-! ### A clock edge (R149 to R161) -/

section
variable (s : State) (n : Fin 80) {g : Fld}

@[simp] theorem rd_hopSee : s.hopSee.rd g = s.rd g := State.rd_each _ _ s g fun _ _ _ => rfl

@[simp] theorem mem_hopSee : s.hopSee.mem = s.mem := by
  unfold State.hopSee
  exact mem_each fun _ _ _ => rfl

theorem rd_ioDrive (h : g.key ≠ (Hid.ioLast (n - 70)).key) : (s.ioDrive n).rd g = s.rd g := by
  delta State.ioDrive
  extract_lets l s1
  simp only [rd_ite, State.rd_wr_ne _ _ h, s1, rd_emitPins, ite_self]

theorem mem_ioDrive : (s.ioDrive n).mem = s.mem := by
  delta State.ioDrive
  extract_lets l s1
  have hpins : s1.mem = s.mem := by rw [show s1.mem = _ from mem_ite ..]; exact ite_self _
  rw [mem_ite, mem_ite, State.wr_mem, hpins, ite_self, ite_self]

/-- At an edge the I/O cells write their registers and D2 stages alone. -/
theorem ioEdge_only (c : Nat) (we : Bool) (rise fall free : Nat) (d : Nat → Bool) :
    OnlyFields [Hid.ioReg (n - 70), Hid.ioReg2 (n - 70), Hid.ioIn (n - 70), Hid.d2Io (n - 70) c] s
      (s.ioEdge n c we rise fall free d) := by
  delta State.ioEdge
  extract_lets b q reg
  refine .ite (.refl _ s) (.wr _ (by simp [b]) ?_)
  iterate 3 refine .wrIf _ _ (by simp [b]) ?_
  exact .refl _ s

/-- What the flip-flops of an island capture at an edge. -/
theorem edgeRegs_eq (e : EdgeIn) (r : Roots) : ∃ d rise fall io, s.edgeRegs n e r =
    ((((s.wrIf (s.writeOn n) (Hid.ff0 n) (packBits 32768 (ffEdge (s.planeItem n (s.rd (Reg.ISL_STAT_CUR_CTX n))) r 0 r.q0))).wrIf
      (s.writeOn n) (Hid.ff1 n (s.rd (Reg.ISL_STAT_CUR_CTX n)))
      (packBits 32768 (ffEdge (s.planeItem n (s.rd (Reg.ISL_STAT_CUR_CTX n))) r 1 r.q1))).wr
      (Hid.d2 n (s.rd (Reg.ISL_STAT_CUR_CTX n))) d).ioEdge n (s.rd (Reg.ISL_STAT_CUR_CTX n)) (s.writeOn n) rise fall r.free io).ioDrive n :=
  ⟨_, _, _, _, rfl⟩

/-- The fields that hold a fabric's elements. -/
def elementFields (n c : Nat) : List Fld := [Hid.ff0 n, Hid.ff1 n c, Hid.d2 n c, Hid.ioReg (n - 70), Hid.ioReg2 (n - 70),
  Hid.ioIn (n - 70), Hid.d2Io (n - 70) c, Hid.ioLast (n - 70)]

section
variable (e : EdgeIn) (r : Roots)

theorem rd_edgeRegs_ne (h : ∀ f ∈ elementFields n (s.rd (Reg.ISL_STAT_CUR_CTX n)), g.key ≠ f.key) :
    (s.edgeRegs n e r).rd g = s.rd g := by
  obtain ⟨d, rise, fall, io, heq⟩ := edgeRegs_eq s n e r
  simp only [elementFields, List.forall_mem_cons] at h
  obtain ⟨hff0, hff1, hd2, hreg, hreg2, hin, hd2Io, hlast, -⟩ := h
  rw [heq, rd_ioDrive _ _ hlast, (ioEdge_only _ n _ _ _ _ _ _).fields g (by simp [hreg, hreg2, hin, hd2Io]), State.rd_wr_ne _ _ hd2]
  simp only [State.wrIf, rd_ite, State.rd_wr_ne _ _ hff0, State.rd_wr_ne _ _ hff1, ite_self]

theorem mem_edgeRegs : (s.edgeRegs n e r).mem = s.mem := by
  obtain ⟨d, rise, fall, io, heq⟩ := edgeRegs_eq s n e r
  rw [heq, mem_ioDrive, (ioEdge_only _ n _ _ _ _ _ _).mem_eq, State.wr_mem, State.wrIf, mem_ite, State.wr_mem, ite_self, State.wrIf,
    mem_ite, State.wr_mem, ite_self]

theorem rd_edgeRegs_ff0 : (s.edgeRegs n e r).rd (Hid.ff0 n) = if s.writeOn n
    then packBits 32768 (ffEdge (s.planeItem n (s.rd (Reg.ISL_STAT_CUR_CTX n))) r 0 r.q0) % 2 ^ 32768 else s.rd (Hid.ff0 n) := by
  obtain ⟨d, rise, fall, io, heq⟩ := edgeRegs_eq s n e r
  have hc : s.rd (Reg.ISL_STAT_CUR_CTX n) < 8 := State.rd_lt s _
  have hio : ∀ f ∈ [Hid.ioReg (n - 70), Hid.ioReg2 (n - 70), Hid.ioIn (n - 70), Hid.d2Io (n - 70) (s.rd (Reg.ISL_STAT_CUR_CTX n))],
      (Hid.ff0 n).key ≠ f.key := by
    simp only [List.forall_mem_cons, List.not_mem_nil, false_implies, implies_true, and_true]
    with_unfolding_all exact ⟨key_ne rfl rfl (by omega), key_ne rfl rfl (by omega), key_ne rfl rfl (by omega), key_ne rfl rfl (by omega)⟩
  rw [heq, rd_ioDrive _ _ (by with_unfolding_all (refine key_ne rfl rfl ?_; omega)), (ioEdge_only _ n _ _ _ _ _ _).fields _ hio,
    State.rd_wr_ne _ _ (by with_unfolding_all (refine key_ne rfl rfl ?_; omega)), State.wrIf, rd_ite,
    State.rd_wr_ne _ _ (by with_unfolding_all (refine key_ne rfl rfl ?_; omega)), ite_self, State.wrIf, rd_ite, State.rd_wr_same]
  rfl

theorem rd_edgeRegs_ff1 {c : Nat} (hcur : c = s.rd (Reg.ISL_STAT_CUR_CTX n)) : (s.edgeRegs n e r).rd (Hid.ff1 n c) = if s.writeOn n
    then packBits 32768 (ffEdge (s.planeItem n c) r 1 r.q1) % 2 ^ 32768 else s.rd (Hid.ff1 n c) := by
  obtain ⟨d, rise, fall, io, heq⟩ := edgeRegs_eq s n e r
  have hc : c < 8 := hcur ▸ State.rd_lt s _
  rw [← hcur] at heq
  have hio : ∀ f ∈ [Hid.ioReg (n - 70), Hid.ioReg2 (n - 70), Hid.ioIn (n - 70), Hid.d2Io (n - 70) c], (Hid.ff1 n c).key ≠ f.key := by
    simp only [List.forall_mem_cons, List.not_mem_nil, false_implies, implies_true, and_true]
    with_unfolding_all exact ⟨key_ne rfl rfl (by omega), key_ne rfl rfl (by omega), key_ne rfl rfl (by omega), key_ne rfl rfl (by omega)⟩
  rw [heq, rd_ioDrive _ _ (by with_unfolding_all (refine key_ne rfl rfl ?_; omega)), (ioEdge_only _ n _ _ _ _ _ _).fields _ hio,
    State.rd_wr_ne _ _ (by with_unfolding_all (refine key_ne rfl rfl ?_; omega)), State.wrIf, rd_ite, State.rd_wr_same, State.wrIf,
    rd_ite, State.rd_wr_ne _ _ (by with_unfolding_all (refine key_ne rfl rfl ?_; omega)), ite_self]
  rfl

end

/-- A field that neither the input buffers of the island's bank nor the elements of a fabric hold. -/
def KeptAtEdge (n : Nat) (g : Fld) : Prop :=
  g.key ≠ (Reg.ISL_IOB_IN n).key ∧ (g.key < 0x104F * 2 ^ 26 ∨ 0x1053 * 2 ^ 26 ≤ g.key)

/-- How a field is seen to be one of them, by its place (R554). -/
theorem keptAtEdge {n : Nat} {b o l : Nat} (e : g.key = (b * 1048576 + o) * 64 + l)
    (h : ∀ k, k = (b * 1048576 + o) * 64 + l → k ≠ ((0x040 + n) * 1048576 + 0x8C) * 64 + 0 ∧ (k < 0x413C000000 ∨ 0x414C000000 ≤ k)) :
    KeptAtEdge n g :=
  ⟨key_ne e (by with_unfolding_all rfl) (h _ rfl).1, (h _ e).2⟩

theorem key_between {f : Fld} {b o l lo hi : Nat} (e : f.key = (b * 1048576 + o) * 64 + l)
    (h : lo ≤ (b * 1048576 + o) * 64 + l ∧ (b * 1048576 + o) * 64 + l < hi) : lo ≤ f.key ∧ f.key < hi := by rwa [e]

theorem element_place {c : Nat} (hc : c < 8) : ∀ f ∈ elementFields n c, 0x104F * 2 ^ 26 ≤ f.key ∧ f.key < 0x1053 * 2 ^ 26 := by
  simp only [elementFields, List.forall_mem_cons, List.not_mem_nil, false_implies, implies_true, and_true]
  with_unfolding_all exact ⟨key_between rfl (by omega), key_between rfl (by omega), key_between rfl (by omega),
    key_between rfl (by omega), key_between rfl (by omega), key_between rfl (by omega), key_between rfl (by omega),
    key_between rfl (by omega)⟩

theorem rd_edgeRegs_kept (hg : KeptAtEdge n g) (e : EdgeIn) (r : Roots) : (s.edgeRegs n e r).rd g = s.rd g := by
  have hc : s.rd (Reg.ISL_STAT_CUR_CTX n) < 8 := State.rd_lt s _
  refine rd_edgeRegs_ne s n e r fun f hf => ?_
  have hplace : 0x104F * 2 ^ 26 ≤ f.key ∧ f.key < 0x1053 * 2 ^ 26 := element_place n hc f hf
  obtain ⟨-, hlo | hhi⟩ := hg <;> omega

/-! What an edge reads of the island beside its elements. -/

section
variable {s n} {t : State} (h : ∀ g : Fld, KeptAtEdge n g → t.rd g = s.rd g)
include h

theorem planeItem_congr {c : Nat} (hc : c < 8) : t.planeItem n c = s.planeItem n c := by
  funext k
  unfold State.planeItem
  refine congrArg (fun l => Config.planeField l k) (List.map_congr_left fun f hf => h _ ?_)
  have := List.mem_range.1 hf
  with_unfolding_all (refine keptAtEdge rfl ?_; omega)

theorem muHit_congr {c : Nat} (hc : c < 8) (r : Roots) : muUnits.filter (t.muHit n c r) = muUnits.filter (s.muHit n c r) := by
  refine List.filter_congr fun u hu => ?_
  obtain ⟨htile, hpat⟩ := mem_muUnits hu
  unfold State.muHit State.muVal State.muMask State.on
  rw [planeItem_congr h hc]
  rw [h (Reg.ISL_MU_CTRL_EN n c u.1 u.2) (by with_unfolding_all (refine keptAtEdge rfl ?_; omega)),
    h (Reg.ISL_MU_VAL0 n c u.1 u.2) (by with_unfolding_all (refine keptAtEdge rfl ?_; omega)),
    h (Reg.ISL_MU_VAL1 n c u.1 u.2) (by with_unfolding_all (refine keptAtEdge rfl ?_; omega)),
    h (Reg.ISL_MU_MASK0 n c u.1 u.2) (by with_unfolding_all (refine keptAtEdge rfl ?_; omega)),
    h (Reg.ISL_MU_MASK1 n c u.1 u.2) (by with_unfolding_all (refine keptAtEdge rfl ?_; omega))]

end

/-- Whether write enable is high does not rest on the input buffers. -/
theorem writeOn_congr {s t : State} {n : Fin 80} (h : ∀ g : Fld, g.key ≠ (Reg.ISL_IOB_IN n).key → t.rd g = s.rd g) : t.writeOn n = s.writeOn n := by
  have hctx (m : Nat) : t.iCtx m (t.rd (Reg.ISL_STAT_CUR_CTX m)) = s.iCtx m (s.rd (Reg.ISL_STAT_CUR_CTX m)) := by
    have hlt : s.rd (Reg.ISL_STAT_CUR_CTX m) < 8 := State.rd_lt s _
    rw [h (Reg.ISL_STAT_CUR_CTX m) (by with_unfolding_all (refine key_ne rfl rfl ?_; omega)), State.iCtx,
      h _ (by with_unfolding_all (refine key_ne rfl rfl ?_; omega))]
    rfl
  have hset : t.rd Hid.startSet = s.rd Hid.startSet := h _ (by with_unfolding_all (refine key_ne rfl rfl ?_; omega))
  have hstage : t.rd Hid.startStage = s.rd Hid.startStage := h _ (by with_unfolding_all (refine key_ne rfl rfl ?_; omega))
  have hprev : t.rd Hid.startPrev = s.rd Hid.startPrev := h _ (by with_unfolding_all (refine key_ne rfl rfl ?_; omega))
  have hcfg : t.rd Reg.CFG_STARTUP = s.rd Reg.CFG_STARTUP := h _ (by with_unfolding_all (refine key_ne rfl rfl ?_; omega))
  have hnow : t.now = s.now := h _ (by with_unfolding_all (refine key_ne rfl rfl ?_; omega))
  have hstate : t.rd (Reg.ISL_STAT_STATE n) = s.rd (Reg.ISL_STAT_STATE n) := h _ (by with_unfolding_all (refine key_ne rfl rfl ?_; omega))
  have hwaves : t.weWaves = s.weWaves := by
    rw [State.weWaves, hset, funext hctx]
    rfl
  unfold State.writeOn State.passed State.weTime
  rw [hwaves, hset, hstage, hprev, hcfg, hnow, hstate]


/-- The match units register their outputs; only hit counters change beside them. -/
theorem edgeMatch_only (r : Roots) : OnlyFields (Hid.muOut n :: (muUnits.filter (s.muHit n (s.rd (Reg.ISL_STAT_CUR_CTX n)) r)).map
    (fun u => Reg.ISL_MU_HITS n (s.rd (Reg.ISL_STAT_CUR_CTX n)) u.1 u.2)) s (s.edgeMatch n r) :=
  .wr _ (by simp) (.each (fun _ hu t => (OnlyFields.refl _ t).inc 1 (List.mem_cons_of_mem _ (List.mem_map_of_mem hu))) (.refl _ s))

theorem rd_edgeMatch_muOut {r : Roots} {l : List (Nat × Nat)} (h : muUnits.filter (s.muHit n (s.rd (Reg.ISL_STAT_CUR_CTX n)) r) = l) :
    (s.edgeMatch n r).rd (Hid.muOut n) = l.foldl (fun m u => m + 2 ^ (2 * u.1 + u.2)) 0 % 2 ^ 128 := by
  subst h
  exact State.rd_wr_same ..

theorem rd_edgeMatch_ff (r : Roots) (hg : 0x104F * 2 ^ 26 ≤ g.key) : (s.edgeMatch n r).rd g = s.rd g := by
  have hc : s.rd (Reg.ISL_STAT_CUR_CTX n) < 8 := State.rd_lt s _
  have hlow {f : Fld} (h : f.key < 0x104F * 2 ^ 26) : g.key ≠ f.key := (h.trans_le hg).ne'
  refine (edgeMatch_only s n r).fields g fun f hf => hlow ?_
  rcases List.mem_cons.1 hf with rfl | hf
  · with_unfolding_all exact (key_between (lo := 0) rfl (by omega)).2
  · obtain ⟨u, hu, rfl⟩ := List.mem_map.1 hf
    obtain ⟨htile, hpat⟩ := mem_muUnits (List.mem_of_mem_filter hu)
    with_unfolding_all exact (key_between (lo := 0) rfl (by omega)).2

/-- The taps that follow change the tap registers and what is seen of them. -/
theorem rd_tapsFollow_ne (h : g.key ≠ (Reg.ISL_TAP_LIVE n).key) (h' : g.key ≠ (Hid.tapLatch n).key) :
    (s.tapsFollow n).rd g = s.rd g := by
  rw [State.tapsFollow, rd_hopSee, State.rd_wr_ne _ _ h', State.rd_wr_ne _ _ h]

theorem mem_tapsFollow : (s.tapsFollow n).mem = s.mem := by
  rw [State.tapsFollow, mem_hopSee, State.wr_mem, State.wr_mem]

theorem tapLevel_tapsFollow (k : Fin 8) : (s.tapsFollow n).tapLevel n k = s.tapLevel n k := by
  have hc : s.rd (Reg.ISL_STAT_CUR_CTX n) < 8 := State.rd_lt s _
  have hkept {g : Fld} (h : g.key ≠ (Reg.ISL_TAP_LIVE n).key) (h' : g.key ≠ (Hid.tapLatch n).key) := rd_tapsFollow_ne s n h h'
  unfold State.tapLevel State.bitOf
  simp (disch := with_unfolding_all (refine key_ne rfl rfl ?_; omega)) only [hkept]

theorem bit_tapsFollow (k : Fin 8) : bit ((s.tapsFollow n).rd (Reg.ISL_TAP_LIVE n)) k = (s.tapsFollow n).tapLevel n k := by
  rw [tapLevel_tapsFollow, State.tapsFollow, rd_hopSee, State.rd_wr_ne _ _ (by with_unfolding_all (refine key_ne rfl rfl ?_; omega))]
  exact bitOf_wr_packBits s (Reg.ISL_TAP_LIVE n) k.2 _

/-- Sound entries stay as they are when they are checked. -/
theorem muCheckAll_sound {c : Nat} (h : ∀ u ∈ muUnits, s.rd (Hid.muSyn n c u.1 u.2) = 0) : s.muCheckAll n c = s :=
  each_keeps (P := fun t => t = s) (fun u hu t ht => by rw [ht, State.muCheck, if_pos (h u hu)]) rfl

/-- The input buffers have taken the levels of the pins. -/
def State.sawPins (s : State) (n : Nat) (e : EdgeIn) : State := s.fresh.2.ioSees n e.rise.toNat s.fresh.1

theorem rd_sawPins (e : EdgeIn) (h : g.key ≠ (Reg.ISL_IOB_IN n).key) : (s.sawPins n e).rd g = s.rd g := by
  unfold State.sawPins State.ioSees
  rw [rd_ite, State.rd_wr_ne _ _ h, ite_self]
  rfl

theorem mem_sawPins (e : EdgeIn) : (s.sawPins n e).mem = s.mem := by
  unfold State.sawPins State.ioSees
  rw [mem_ite, State.wr_mem, ite_self]
  rfl

theorem roots_sawPins (e : EdgeIn) {c : Nat} (hc : c < 8) (free : Nat) : (s.sawPins n e).roots n c free = s.roots n c free := by
  unfold State.roots
  simp (disch := with_unfolding_all (refine key_ne rfl rfl ?_; omega)) only [rd_sawPins]

/-- An edge of an island whose entries are sound. -/
theorem islandEdge_sound (e : EdgeIn) (h : ∀ u ∈ muUnits, s.rd (Hid.muSyn n (s.rd (Reg.ISL_STAT_CUR_CTX n)) u.1 u.2) = 0) :
    s.islandEdge n e false = (((s.sawPins n e).edgeRegs n e (s.roots n (s.rd (Reg.ISL_STAT_CUR_CTX n)) s.fresh.1)).edgeMatch n
      (s.roots n (s.rd (Reg.ISL_STAT_CUR_CTX n)) s.fresh.1)).tapsFollow n := by
  have hc : s.rd (Reg.ISL_STAT_CUR_CTX n) < 8 := State.rd_lt s _
  have hsound : (s.sawPins n e).muCheckAll n (s.rd (Reg.ISL_STAT_CUR_CTX n)) = s.sawPins n e :=
    muCheckAll_sound _ n fun u hu => by
      obtain ⟨htile, hpat⟩ := mem_muUnits hu
      rw [rd_sawPins s n e (by with_unfolding_all (refine key_ne rfl rfl ?_; omega)), h u hu]
  delta State.islandEdge
  extract_lets c v s1 r s2
  have hs1 : s1 = s.sawPins n e := hsound
  have hr : r = s.roots n (s.rd (Reg.ISL_STAT_CUR_CTX n)) s.fresh.1 := by
    simp only [r, hs1]
    exact roots_sawPins s n e hc _
  simp only [Bool.false_eq_true, if_false, s2, hs1, hr]

/-- An edge at which no upset has come: an edge of the fabric, or the input buffers of a bank alone. -/
theorem execMatchUnitCompare_clean {e : EdgeIn} (h : e.upsets = []) : execMatchUnitCompare n e s =
    .next (if s.clocked n then s.islandEdge n e false else if hasIo n then s.sawPins n e else s) := by
  have hnone : s.muUpsets n e.upsets = s := by rw [h]; rfl
  delta execMatchUnitCompare
  rw [hnone]
  rfl

end
end Sys2Proof.Machine

namespace Sys2Proof
open Machine

/-- Settles O11. -/
theorem matchUnitSteps : Obligations.MatchUnitSteps := by
  refine ⟨fun n c k p w s hload => ⟨fun r => ?stage, ?commit, ?ctrl⟩, fun n c k p w s hload => ?denied, ?read, ?edge, ?still, ?pins⟩
  case stage =>
    refine ⟨_, congrArg Host.Outcome.next (if_neg (by simp [hload])), (OnlyFields.refl _ s).wr _ (by simp), State.rd_wr_same ..⟩
  case commit =>
    refine ⟨_, congrArg Host.Outcome.next (if_neg (by simp [hload])), ?only, ?_, ?_, ?_, ?_, ?_⟩
    case only =>
      iterate 5 refine OnlyFields.wr _ (by simp) ?_
      exact .refl _ s
    all_goals
      simp (disch := with_unfolding_all (refine key_ne rfl rfl ?_; omega)) only [State.rd_wr_ne, State.rd_wr_same]
    case refine_4 => exact Nat.mod_eq_of_lt w.isLt
    all_goals rfl
  case ctrl =>
    refine ⟨s.muCtrl n c k p w.toNat, rfl, ?only, ?en, fun hw => ?err⟩
    all_goals rw [State.muCtrl, State.muWrite, if_neg (by simp [hload])]
    case only => exact .ite (((OnlyFields.refl _ s).wr _ (by simp)).wr 0 (by simp)) ((OnlyFields.refl _ s).wr _ (by simp))
    case en =>
      rw [rd_ite, State.rd_wr_ne _ _ (by with_unfolding_all (refine key_ne rfl rfl ?_; omega)), ite_self, State.rd_wr_same]
      rfl
    case err =>
      rw [if_pos hw, State.rd_wr_same, Nat.zero_mod]
  case denied =>
    exact ⟨congrArg Host.Outcome.next (if_pos hload), congrArg Host.Outcome.next (if_pos hload),
      fun r => congrArg Host.Outcome.next (if_pos hload)⟩
  case read =>
    intro n c k p r s hsyn
    have hsound : s.muCheck n c k p = s := if_pos hsyn
    show Host.Outcome.next _ = _
    rw [hsound]
    rfl
  case edge =>
    intro n e c r s hups hclk hsyn hcur hr
    subst hcur
    have hsound : ∀ u ∈ muUnits, s.rd (Hid.muSyn n (s.rd (Reg.ISL_STAT_CUR_CTX n)) u.1 u.2) = 0 := fun u hu => by
      obtain ⟨htile, hpat⟩ := mem_muUnits hu
      exact hsyn ⟨u.1, htile⟩ ⟨u.2, hpat⟩
    have hc : s.rd (Reg.ISL_STAT_CUR_CTX n) < 8 := State.rd_lt s _
    have hedge := islandEdge_sound s n e hsound
    rw [show s.roots n (s.rd (Reg.ISL_STAT_CUR_CTX n)) s.fresh.1 = r from hr.symm] at hedge
    have hsaw (g : Fld) (hg : KeptAtEdge n g) : (s.sawPins n e).rd g = s.rd g := rd_sawPins s n e hg.1
    have hkept (g : Fld) (hg : KeptAtEdge n g) : ((s.sawPins n e).edgeRegs n e r).rd g = s.rd g :=
      (rd_edgeRegs_kept _ n hg e r).trans (hsaw g hg)
    have hcur : KeptAtEdge n (Reg.ISL_STAT_CUR_CTX n) := by with_unfolding_all (refine keptAtEdge rfl ?_; omega)
    have hwrite : (s.sawPins n e).writeOn n = s.writeOn n := writeOn_congr fun g hg => rd_sawPins s n e hg
    have hrun : exec (.matchUnitCompare n e) s = .next (s.islandEdge n e false) :=
      (execMatchUnitCompare_clean s n hups).trans (by rw [if_pos hclk])
    refine ⟨_, hrun, ?_⟩
    rw [hedge]
    refine ⟨?mem, ?ff0, ?ff1, ?out, bit_tapsFollow _ n⟩
    case mem => rw [mem_tapsFollow, (edgeMatch_only _ n r).mem_eq, mem_edgeRegs, mem_sawPins]
    case ff0 =>
      rw [rd_tapsFollow_ne _ n (by with_unfolding_all (refine key_ne rfl rfl ?_; omega))
        (by with_unfolding_all (refine key_ne rfl rfl ?_; omega)), rd_edgeMatch_ff _ n r (by with_unfolding_all exact (key_between (hi := 0x105000000000) rfl (by omega)).1), rd_edgeRegs_ff0, hwrite,
        hsaw _ hcur, planeItem_congr hsaw hc, rd_sawPins s n e (by with_unfolding_all (refine key_ne rfl rfl ?_; omega))]
    case ff1 =>
      rw [rd_tapsFollow_ne _ n (by with_unfolding_all (refine key_ne rfl rfl ?_; omega))
        (by with_unfolding_all (refine key_ne rfl rfl ?_; omega)), rd_edgeMatch_ff _ n r (by with_unfolding_all exact (key_between (hi := 0x105000000000) rfl (by omega)).1),
        rd_edgeRegs_ff1 _ n e r (hsaw _ hcur).symm, hwrite,
        planeItem_congr hsaw hc, rd_sawPins s n e (by with_unfolding_all (refine key_ne rfl rfl ?_; omega))]
    case out =>
      rw [rd_tapsFollow_ne _ n (by with_unfolding_all (refine key_ne rfl rfl ?_; omega))
        (by with_unfolding_all (refine key_ne rfl rfl ?_; omega))]
      refine rd_edgeMatch_muOut _ n ?_
      rw [hkept _ hcur]
      exact muHit_congr hkept hc r
  case still =>
    intro n e s hups hclk hio
    exact (execMatchUnitCompare_clean s n hups).trans (by rw [if_neg (by simp [hclk]), if_neg (by simp [hio])])
  case pins =>
    intro n e s hups hclk hio
    have hsees : s.sawPins n e = s.fresh.2.wr (Reg.ISL_IOB_IN n) (packBits 48 (s.fresh.2.ioLevel n e.rise.toNat s.fresh.1)) := if_pos hio
    refine ⟨s.sawPins n e, (execMatchUnitCompare_clean s n hups).trans (by rw [if_neg (by simp [hclk]), if_pos hio]), ?_, fun z hz => ?_⟩
    all_goals rw [hsees]
    · exact (OnlyFields.refl _ s.fresh.2).wr _ (by simp)
    · refine (bitOf_wr_packBits s.fresh.2 (Reg.ISL_IOB_IN n) z.2 _).trans ?_
      have hlevel : s.fresh.2.ioLevel n e.rise.toNat s.fresh.1 z = bit e.rise.toNat z := if_neg fun h => hz h.1
      rw [hlevel, bit_eq_testBit]
      rfl

end Sys2Proof
end

section

namespace Sys2Proof.Machine

/-! ### The fabric port (R163 to R166) -/

theorem bit_clrBit (x i : Nat) : bit (clrBit x i) i = false := by
  unfold clrBit
  split
  next h =>
    have hodd : x / 2 ^ i % 2 = 1 := by simpa [bit] using h
    have hdown := Nat.sub_mul_div x (2 ^ i) 1
    rw [Nat.mul_one] at hdown
    rw [bit, hdown, beq_eq_false_iff_ne]
    omega
  next h => simpa using h

theorem bitOf_clrB (s : State) (f : Fld) (i : Nat) : (s.clrB f i).bitOf f i = false := by
  rw [State.bitOf, State.clrB, State.rd_wr_same]
  by_cases h : i < f.w
  · rw [bit_mod_two_pow _ h, bit_clrBit]
  · have hsmall := (Nat.mod_lt (clrBit (s.rd f) i) (Nat.two_pow_pos f.w)).trans_le (Nat.pow_le_pow_right (by omega) (Nat.le_of_not_lt h))
    rw [bit, Nat.div_eq_of_lt hsmall]
    rfl

section
variable (s : State) (n : Fin 80)

/-- With no request waiting the lowest TAG is free where no late response holds it (R165). -/
theorem freeTag_zero {q : List SlvReq} (hq : q = []) (hlate : s.bitOf (Hid.slvLate n) 0 = false) :
    (List.range 256).find? (fun t => q.all (fun r => r.tag != t) && !s.bitOf (Hid.slvLate n) t) = some 0 := by
  rw [List.range_succ_eq_map]
  exact List.find?_cons_of_pos (by simp [hq, hlate])

/-- A request is queued under TAG 0 and shown to the active context. -/
def slvShown (off : Nat) (wr : Bool) (data : List (Option Byte)) : State :=
  (({ s with slvReqs := Tab.set s.slvReqs n [] [⟨0, wr, off, none⟩] }).slvCount n).emit (.slvReq n 0 off wr data)

theorem slvTake_free (off : Nat) (wr : Bool) (data : List (Option Byte)) (hfence : s.on (Reg.NOC_NI_STAT_FENCED n) = false)
    (hen : s.on (Reg.ISL_FP_CTRL_EN n) = true) (hst : s.rd (Reg.ISL_STAT_STATE n) = 3)
    (hctx : s.bitOf (Hid.slaveCtx n) (s.rd (Reg.ISL_STAT_CUR_CTX n)) = true) (hq : Tab.getD s.slvReqs n [] = [])
    (hlate : s.bitOf (Hid.slvLate n) 0 = false) : s.slvTake n off wr data none = (none, slvShown s n off wr data) := by
  delta State.slvTake
  extract_lets q
  rw [if_neg (by simp [hfence]), if_neg (by simp [hen, hst, hctx]), freeTag_zero s n hq hlate]
  simp only [q, hq]
  rfl

end
end Sys2Proof.Machine

namespace Sys2Proof
open Machine

/-- Settles O12. -/
theorem fabricPortSteps : Obligations.FabricPortSteps := by
  refine ⟨?read, ?write, ?response, ?slave, ?slaveResponse, ?timeout⟩
  case read =>
    intro n route tid addr len s hen hst htid size hsize
    subst hsize
    refine ⟨fun hpage => ?_, fun hpage => ?_⟩
    · show Host.Outcome.next _ = _
      simp [hen, hst, htid, hpage]
    · show Host.Outcome.next _ = _
      simp [hen, hst, htid, hpage, State.answer]
  case write =>
    intro n route posted tid addr len data s hen hst htid
    refine ⟨?_, fun size hsize hpage hopen => ?_⟩
    · show Host.Outcome.next _ = _
      simp [hen, hst, htid]
    · subst hsize
      show Host.Outcome.next _ = _
      simp [hen, hst, htid, hpage, hopen]
  case response =>
    intro n r l s hq hst
    show Host.Outcome.next _ = _
    rw [hq]
    dsimp only
    rw [if_neg hst]
    rfl
  case slave => 
    intro n off wr data s hfence hen hst hctx hq hlate
    refine ⟨(slvShown s n off wr data).answer .held [], ?exec, ⟨_, (OnlyFields.refl _ s).wr _ (by simp), rfl⟩, ?queue, ?count⟩
    case exec =>
      show Host.Outcome.next _ = _
      rw [slvTake_free s n off wr data hfence hen hst hctx hq hlate]
    case queue => exact Tab.getD_set_same s.slvReqs n [] [⟨0, wr, off, none⟩]
    case count =>
      refine (State.rd_wr_same ..).trans ?_
      rw [Tab.getD_set_same]
      rfl
  case slaveResponse =>
    intro n tag err data s
    refine ⟨fun r hr hpkt => ?_, fun hnone => ?_⟩
    · show Host.Outcome.next _ = _
      rw [hr]
      cases err <;> simp [State.slvAnswer, hpkt, b2n]
    · refine ⟨s.clrB (Hid.slvLate n) tag.toNat, ?_, (OnlyFields.refl _ s).wr _ (by simp), bitOf_clrB ..⟩
      show Host.Outcome.next _ = _
      rw [hnone]
  case timeout =>
    intro n tag r s hr
    show Host.Outcome.next _ = _
    rw [hr]

end Sys2Proof
end

section

namespace Sys2Proof.Machine

/-! ### What the raise of an event keeps (R375 to R377)

It writes the pending bits, the counts of the system's own network interface, the next request's number, pending MSI-X vectors and the
trigger outputs: every other field is as it was. -/

/-- A field that the raise of event `e` does not write. -/
def Fld.Calm (g : Fld) (e : Nat) : Prop :=
  e < 1024 ∧ ∀ k, k = g.key → (k < 0x001 * 2 ^ 26 ∨ (0x001 * 2 ^ 20 + 0x10000) * 64 ≤ k) ∧ k / 64 ≠ 0x008 * 2 ^ 20 + 0x2B24
    ∧ (k < 0x1028 * 2 ^ 26 ∨ 0x102A * 2 ^ 26 ≤ k) ∧ (k < 0x103E * 2 ^ 26 ∨ 0x103F * 2 ^ 26 ≤ k) ∧ k ≠ 0x108C * 2 ^ 26

/-- How a field is seen to be one, by its place (R554). -/
theorem calm {g : Fld} {e b o l : Nat} (hkey : g.key = (b * 1048576 + o) * 64 + l)
    (h : ∀ k, k = (b * 1048576 + o) * 64 + l → e < 1024 ∧ (k < 0x4000000 ∨ 0x4400000 ≤ k) ∧ k / 64 ≠ 0x802B24
      ∧ (k < 0x40A0000000 ∨ 0x40A8000000 ≤ k) ∧ (k < 0x40F8000000 ∨ 0x40FC000000 ≤ k) ∧ k ≠ 0x4230000000) : g.Calm e := by
  have hall := h _ rfl
  refine ⟨hall.1, fun k hk => ?_⟩
  have hk := h k (hk.trans hkey)
  omega

/-- The fields of an event's registers are none of them. -/
theorem Fld.Calm.ne {g f : Fld} {e b o l : Nat} (h : g.Calm e) (hkey : f.key = (b * 1048576 + o) * 64 + l)
    (hplace : ∀ k, k = (b * 1048576 + o) * 64 + l → e < 1024 → (0x4000000 ≤ k ∧ k < 0x4400000) ∨ k / 64 = 0x802B24
      ∨ (0x40A0000000 ≤ k ∧ k < 0x40A8000000) ∨ (0x40F8000000 ≤ k ∧ k < 0x40FC000000) ∨ k = 0x4230000000) : g.key ≠ f.key := by
  intro hsame
  have hg := h.2 f.key hsame.symm
  have hf := hplace f.key hkey h.1
  omega

section
variable (s : State) {g : Fld} {e : Nat} (h : g.Calm e)
include h

theorem rd_sysPost_calm (entry key a : Nat) (d : List Byte) : (s.sysPost entry key a d).rd g = s.rd g := by
  have hrd : g.key ≠ (Reg.NOC_NI_STAT_RD_OUT 89).key := h.ne rfl (by omega)
  have hwr : g.key ≠ (Reg.NOC_NI_STAT_WR_OUT 89).key := h.ne rfl (by omega)
  have hnext : g.key ≠ Hid.pktNext.key := h.ne rfl (by omega)
  have hcounts (t : State) : (State.niCounts 89 t).rd g = t.rd g := by
    delta State.niCounts
    extract_lets mine rdn wrn s1
    rw [if_neg (by decide : ¬89 < 80), State.rd_wr_ne _ _ hwr, State.rd_wr_ne _ _ hrd]
  exact (hcounts _).trans (State.rd_wr_ne _ _ hnext)

theorem rd_evtFab_calm (n : Nat) : (s.evtFab n).rd g = s.rd g := by
  unfold State.evtFab
  split
  · rfl
  · exact rd_sysPost_calm s h ..

theorem rd_evtTout_calm (n : Nat) : (s.evtTout n).rd g = s.rd g := by
  have hpin : s.rd (Reg.EVT_ROUTE_B_PIN n) < 8 := State.rd_lt s _
  have hlvl : g.key ≠ (Hid.toutLvl (s.rd (Reg.EVT_ROUTE_B_PIN n))).key := by with_unfolding_all (refine h.ne rfl ?_; omega)
  have hpulse : g.key ≠ (Hid.toutPulse (s.rd (Reg.EVT_ROUTE_B_PIN n))).key := by with_unfolding_all (refine h.ne rfl ?_; omega)
  unfold State.evtTout
  dsimp only
  rw [rd_ite, State.touPulse, State.rd_wr_ne _ _ hpulse, State.rd_wr_ne _ _ hlvl, ite_self]

theorem rd_msixSend_calm {v : Nat} (hv : v < 512) : (s.msixSend v).rd g = s.rd g := by
  have hpba : g.key ≠ (Hid.msixPba v).key := by with_unfolding_all (refine h.ne rfl ?_; omega)
  unfold State.msixSend
  split
  · exact State.rd_wr_ne s _ hpba
  · rfl

theorem rd_raise : (s.raise e).rd g = s.rd g := by
  have hpend : g.key ≠ (Reg.EVT_PEND (e / 32)).key := by with_unfolding_all (refine h.ne rfl ?_; omega)
  have hset : (s.setB (Reg.EVT_PEND (e / 32)) (e % 32)).rd g = s.rd g := State.rd_wr_ne s _ hpend
  unfold State.raise
  dsimp only
  split
  · exact hset
  · rw [rd_evtTout_calm _ h, rd_evtFab_calm _ h, rd_ite, rd_msixSend_calm _ h (State.rd_lt s (Reg.EVT_ROUTE_A_VECTOR e)), ite_self, hset]

theorem rd_raiseB (f : Fld) (i : Nat) (hne : g.key ≠ f.key) : (s.raiseB f i e).rd g = s.rd g := by
  rw [State.raiseB, rd_raise _ h]
  exact State.rd_wr_ne s _ hne

end
end Sys2Proof.Machine
end

section

namespace Sys2Proof.Machine

/-! ### Switches of an island (R172 to R178) -/

section
variable (s : State) (n : Fin 80) {g : Fld}

theorem rd_swEnd_ne (hbusy : g.key ≠ Hid.swBusy.key) (hset : g.key ≠ Hid.lanSetBusy.key) (hlim : g.key ≠ Reg.AST_PWR_LIMIT_LIMIT.key)
    (hpend : g.key ≠ Hid.astLimPend.key) : s.swEnd.rd g = s.rd g := by
  have hend : ((s.wr Hid.swBusy 0).wr Hid.lanSetBusy 0).rd g = s.rd g := by rw [State.rd_wr_ne _ _ hset, State.rd_wr_ne _ _ hbusy]
  delta State.swEnd
  extract_lets s1
  rw [rd_ite, State.rd_wr_ne _ _ hpend, State.rd_wr_ne _ _ hlim, ite_self, hend]

/-- What the island's own registers hold once it has completed a switch. -/
theorem rd_swComplete (cycle : Bool) (hcalm : g.Calm (512 + 6 * n + 1)) (hevt : g.key ≠ (Reg.ISL_EVT_EVT n).key) (hleft : g.key ≠ Hid.swLeft.key)
    (hbusy : g.key ≠ Hid.swBusy.key) (hset : g.key ≠ Hid.lanSetBusy.key) (hlim : g.key ≠ Reg.AST_PWR_LIMIT_LIMIT.key)
    (hpend : g.key ≠ Hid.astLimPend.key) : (s.swComplete n cycle).rd g =
      (((((if cycle then ((s.fpCut n).wr (Reg.ISL_TAP_LIVE n) 0).wr (Hid.muOut n) 0 else s).wr (Reg.ISL_STAT_CUR_CTX n)
        (s.rd (Hid.swTgt n))).wr (Reg.ISL_SW_TS n) s.now).add (Reg.ISL_SW_CNT n) 1).wr (Reg.ISL_STAT_SWITCHING n) 0).rd g := by
  delta State.swComplete
  extract_lets c s1 s2 s3
  rw [rd_ite, rd_swEnd_ne _ hbusy hset hlim hpend, ite_self]
  exact (State.rd_wr_ne _ _ hleft).trans (rd_raiseB s2 hcalm _ _ hevt)

section
variable (cycle : Bool)

theorem rd_swComplete_ctx : (s.swComplete n cycle).rd (Reg.ISL_STAT_CUR_CTX n) = s.rd (Hid.swTgt n) := by
  rw [rd_swComplete s n cycle (by with_unfolding_all (refine calm rfl ?_; omega))]
  · simp (disch := with_unfolding_all (refine key_ne rfl rfl ?_; omega)) only [State.add, State.rd_wr_ne, State.rd_wr_same]
    exact Nat.mod_eq_of_lt (State.rd_lt s (Hid.swTgt n))
  all_goals with_unfolding_all (refine key_ne rfl rfl ?_; omega)

theorem rd_swComplete_ts : (s.swComplete n cycle).rd (Reg.ISL_SW_TS n) = s.now % 2 ^ 64 := by
  rw [rd_swComplete s n cycle (by with_unfolding_all (refine calm rfl ?_; omega))]
  · simp (disch := with_unfolding_all (refine key_ne rfl rfl ?_; omega)) only [State.add, State.rd_wr_ne, State.rd_wr_same]
    rfl
  all_goals with_unfolding_all (refine key_ne rfl rfl ?_; omega)

theorem rd_swComplete_switching : (s.swComplete n cycle).rd (Reg.ISL_STAT_SWITCHING n) = 0 := by
  rw [rd_swComplete s n cycle (by with_unfolding_all (refine calm rfl ?_; omega)), State.rd_wr_same, Nat.zero_mod]
  all_goals with_unfolding_all (refine key_ne rfl rfl ?_; omega)

end

/-- At the end of a switch cycle match outputs and taps are 0. -/
theorem rd_swComplete_taps : (s.swComplete n true).rd (Reg.ISL_TAP_LIVE n) = 0 := by
  rw [rd_swComplete s n true (by with_unfolding_all (refine calm rfl ?_; omega)), if_pos rfl]
  · simp (disch := with_unfolding_all (refine key_ne rfl rfl ?_; omega)) only [State.add, State.rd_wr_ne, State.rd_wr_same, Nat.zero_mod]
  all_goals with_unfolding_all (refine key_ne rfl rfl ?_; omega)

theorem rd_swComplete_muOut : (s.swComplete n true).rd (Hid.muOut n) = 0 := by
  rw [rd_swComplete s n true (by with_unfolding_all (refine calm rfl ?_; omega)), if_pos rfl]
  · simp (disch := with_unfolding_all (refine key_ne rfl rfl ?_; omega)) only [State.add, State.rd_wr_ne, State.rd_wr_same, Nat.zero_mod]
  all_goals with_unfolding_all (refine key_ne rfl rfl ?_; omega)

/-- The check of an entry writes the entry, and counts and reports its errors. -/
theorem quiet_muCheck [Quiet g] {c k p : Nat} (hc : c < 8) (hk : k < 64) (hp : p < 2) (hsyn : g.key ≠ (Hid.muSyn n c k p).key) :
    (s.muCheck n c k p).rd g = s.rd g := by
  unfold State.muCheck
  dsimp only
  split
  · rfl
  · split
    · split
      · rfl
      · rw [quiet_classErr _ (by omega), State.islEvent]
        simp (disch := with_unfolding_all (refine noisy rfl ?_; omega)) only [quiet_raiseB, quiet_wr]
    · rw [quiet_classErr _ (by omega), State.rd_wr_ne _ _ hsyn]
      simp (disch := with_unfolding_all (refine noisy rfl ?_; omega)) only [quiet_wr]

/-- An edge of an island keeps the fields of the other engines. -/
theorem rd_islandEdge_cut [Quiet g] (e : EdgeIn) (hkept : KeptAtEdge n g)
    (hsyn : ∀ c < 8, ∀ k < 64, ∀ p < 2, g.key ≠ (Hid.muSyn n c k p).key) : (s.islandEdge n e true).rd g = s.rd g := by
  have hc : s.rd (Reg.ISL_STAT_CUR_CTX n) < 8 := State.rd_lt s _
  delta State.islandEdge
  extract_lets c v s1 r s2
  have hchecked : s1.rd g = s.rd g := by
    refine (State.rd_each _ _ (s.sawPins n e) g fun u hu t => ?_).trans (rd_sawPins s n e hkept.1)
    obtain ⟨htile, hpat⟩ := mem_muUnits hu
    exact quiet_muCheck t n hc htile hpat (hsyn _ hc _ htile _ hpat)
  rw [if_pos rfl]
  exact (rd_edgeRegs_kept s1 n hkept e r).trans hchecked

/-- What a table keeps of a filter by key. -/
theorem rd_filterCells (P : Nat → Bool) : ({ s with cells := s.cells.filter (fun e => P e.1) } : State).rd g =
    if P g.key then s.rd g else g.rst % 2 ^ g.w := by
  simp only [State.rd, Tab.getD, Tab.find_filter P]
  split <;> rfl

/-- The places of the hit counters of an island (R160). -/
def hitPlace (n k : Nat) : Bool :=
  decide (cellKey (0x040 + n) 0x10014 0 ≤ k) && decide (k < cellKey (0x040 + n) 0x18000 0) && k / 64 % 0x20 == 0x14

theorem rd_islClrCnt : (s.islClrCnt n).rd g = if !hitPlace n g.key
    then ((s.wr (Reg.ISL_FP_TMO_CNT n) 0).wr (Reg.ISL_FP_DISC n) 0).rd g else g.rst % 2 ^ g.w :=
  rd_filterCells _ fun k => !hitPlace n k

end
end Sys2Proof.Machine

namespace Sys2Proof
open Machine

/-- Settles O13. -/
theorem switchSteps : Obligations.SwitchSteps := by
  refine ⟨?form, ?next, ?wave, ?cycle, ?complete, ?clrCnt⟩
  case form =>
    intro n c s hbusy hok
    show Host.Outcome.next _ = _
    simp [State.switchCmd, hbusy, hok, State.each]
  case next =>
    intro s hbusy hnone
    refine ⟨(s.wr Hid.swNext (s.rd Hid.swNext + 1)).inc Hid.slewUsed 0, ?_, ((OnlyFields.refl _ s).wr _ (by simp)).inc 0 (by simp), ?_⟩
    · show Host.Outcome.next _ = _
      simp [hbusy, hnone, State.each]
    · rw [rd_inc_ne (by decide), State.rd_wr_same]
  case wave =>
    intro n s hbusy hone u hu
    have hkept {g : Fld} (hsw : g.key ≠ (Reg.ISL_STAT_SWITCHING n).key) (hslew : g.key ≠ Hid.slewUsed.key) (hnext : g.key ≠ Hid.swNext.key) :
        u.rd g = s.rd g := by rw [hu, State.rd_wr_ne _ _ hsw, rd_inc_ne hslew, State.rd_wr_ne _ _ hnext]
    have hclk : u.clkRuns n = s.clkRuns n := by
      unfold State.clkRuns
      rw [hkept (by with_unfolding_all (refine key_ne rfl rfl ?_; omega)) (by with_unfolding_all (refine key_ne rfl rfl ?_; omega))
        (by with_unfolding_all (refine key_ne rfl rfl ?_; omega))]
    rw [hclk, hkept (by with_unfolding_all (refine key_ne rfl rfl ?_; omega)) (by with_unfolding_all (refine key_ne rfl rfl ?_; omega))
        (by with_unfolding_all (refine key_ne rfl rfl ?_; omega)), hkept (by with_unfolding_all (refine key_ne rfl rfl ?_; omega))
        (by with_unfolding_all (refine key_ne rfl rfl ?_; omega)) (by with_unfolding_all (refine key_ne rfl rfl ?_; omega)), hu]
    show Host.Outcome.next _ = _
    simp only [hbusy, hone, State.each, List.foldl_cons, List.foldl_nil, Nat.zero_add, Bool.not_true, Bool.false_eq_true, if_false]
  case cycle =>
    intro n e s hsw hups
    have hnone : s.muUpsets n e.upsets = s := by rw [hups]; rfl
    have hkept (g : Fld) [Quiet g] (hg : KeptAtEdge n g) (hsyn : ∀ c < 8, ∀ k < 64, ∀ p < 2, g.key ≠ (Hid.muSyn n c k p).key) :
        (if s.clocked n then s.islandEdge n e true else s).rd g = s.rd g := by
      rw [rd_ite, rd_islandEdge_cut s n e hg hsyn, ite_self]
    have htgt : (if s.clocked n then s.islandEdge n e true else s).rd (Hid.swTgt n) = s.rd (Hid.swTgt n) := by
      have : Quiet (Hid.swTgt n) := by with_unfolding_all (refine quiet_of rfl ?_; unfold quietKey; omega)
      exact hkept _ (by with_unfolding_all (refine keptAtEdge rfl ?_; omega)) fun c hc k hk p hp => by
        with_unfolding_all (refine key_ne rfl rfl ?_; omega)
    have hnow : (if s.clocked n then s.islandEdge n e true else s).now = s.now := by
      have : Quiet Reg.TSB_NOW := by with_unfolding_all (refine quiet_of rfl ?_; unfold quietKey; omega)
      exact hkept _ (by with_unfolding_all (refine keptAtEdge rfl ?_; omega)) fun c hc k hk p hp => by
        with_unfolding_all (refine key_ne rfl rfl ?_; omega)
    refine ⟨(if s.clocked n then s.islandEdge n e true else s).swComplete n true, ?_, rfl, ?_, ?_, rd_swComplete_switching _ n true,
      rd_swComplete_taps _ n, rd_swComplete_muOut _ n⟩
    · show execIslandSwitchCycle n e s = _
      delta execIslandSwitchCycle
      rw [hnone]
      exact congrArg Host.Outcome.next (if_pos hsw)
    · rw [rd_swComplete_ctx, htgt]
    · rw [rd_swComplete_ts, hnow]
  case complete => exact fun n cycle s => ⟨rd_swComplete_ctx s n cycle, rd_swComplete_ts s n cycle, rd_swComplete_switching s n cycle⟩
  case clrCnt => 
    intro n s
    refine ⟨s.islClrCnt n, rfl, rfl, ?tmo, ?disc, fun c k p => ?hits, fun g hg htmo hdisc => ?others⟩
    all_goals rw [rd_islClrCnt]
    case hits =>
      have hkey : (Reg.ISL_MU_HITS n c k p).key
          = ((0x040 + n) * 1048576 + (0x10014 + 0x1000 * c + 0x40 * k + 0x20 * p)) * 64 + 0 := by with_unfolding_all rfl
      rw [if_neg (by simp only [hitPlace, cellKey, hkey, Bool.not_eq_true', Bool.not_eq_false, Bool.and_eq_true, decide_eq_true_eq, beq_iff_eq]; omega)]
      rfl
    all_goals
      have hkept {g : Fld} (hg : g.key < cellKey (0x040 + n) 0x10014 0 ∨ cellKey (0x040 + n) 0x18000 0 ≤ g.key) :
          (!hitPlace n g.key) = true := by
        rcases hg with hg | hg
        · simp [hitPlace, Nat.not_le.2 hg]
        · simp [hitPlace, Nat.not_lt.2 hg]
    case tmo =>
      rw [if_pos (hkept (.inl (by with_unfolding_all exact
        (key_between (lo := 0) (hi := ((0x040 + n) * 1048576 + 0x10014) * 64 + 0) rfl (by omega)).2))),
        State.rd_wr_ne _ _ (by with_unfolding_all (refine key_ne rfl rfl ?_; omega)), State.rd_wr_same, Nat.zero_mod]
    case disc =>
      rw [if_pos (hkept (.inl (by with_unfolding_all exact
        (key_between (lo := 0) (hi := ((0x040 + n) * 1048576 + 0x10014) * 64 + 0) rfl (by omega)).2))), State.rd_wr_same, Nat.zero_mod]
    case others => rw [if_pos (hkept hg), State.rd_wr_ne _ _ hdisc, State.rd_wr_ne _ _ htmo]

end Sys2Proof
end

section

namespace Sys2Proof.Machine

/-! ### References (R185 to R188) -/

/-- A flag that is written into a field is held as it is. -/
theorem b2n_mod (x : Bool) {w : Nat} (hw : 0 < w) : b2n x % 2 ^ w = b2n x := by
  refine Nat.mod_eq_of_lt (lt_of_lt_of_le ?_ (Nat.pow_le_pow_right (by omega) hw))
  cases x <;> decide

section
variable (s : State)

/-- What a choice of the judging clock writes, but for the event of a lost CALREF_CLK. -/
theorem rd_judgeSelect (a b c : Bool) {g : Fld} (hcalm : g.Calm 46) (hevt : g.key ≠ Reg.CLK_EVT_EVT.key) : (s.judgeSelect a b c).rd g =
    ((s.wr Reg.CLK_REF_STAT_CAL_PRES (b2n c)).wr Reg.CLK_STAT_JUDGE_SRC (s.judgeSrc a b c)).rd g := by
  delta State.judgeSelect
  extract_lets was s1
  rw [rd_ite, rd_raiseB s1 hcalm _ _ hevt, ite_self]

theorem mem_judgeSelect (a b c : Bool) : (s.judgeSelect a b c).mem = s.mem := by
  delta State.judgeSelect
  extract_lets was s1
  rw [mem_ite, mem_raiseB, ite_self]
  rfl

/-- A check in which REFCLK_A is present while it is selected. -/
def State.refChecked (s : State) (a b c : BitVec 16) : State :=
  ((((s.wr Reg.CLK_REF_STAT_A_PRES 1).wr Reg.CLK_REF_STAT_B_PRES (b2n (present (some b.toInt)))).wr Reg.CLK_REF_STAT_PPM_A
    (ofSigned 12 (a.toInt - c.toInt))).wr Reg.CLK_REF_STAT_PPM_B (ofSigned 16 (b.toInt - c.toInt))).wr Reg.CLK_STAT_HOLDOVER 0

theorem execRefCheck_present {a b c : BitVec 16} (hsel : s.rd Reg.CLK_REF_CFG_SEL = 0) (ha : present (some a.toInt) = true) :
    execRefCheck (some a) (some b) (some c) s = .next ((s.refChecked a b c).judgeSelect true (present (some b.toInt))
      (present (some (c.toInt - a.toInt)))) := by
  delta execRefCheck
  extract_lets da db dc pa pb against pc s1 s2
  have hpa : pa = true := ha
  have hagainst : against = a.toInt := by simp only [against, hpa, if_true]; rfl
  have hpc : pc = present (some (c.toInt - a.toInt)) := by simp only [pc, hagainst]; rfl
  have hmeasured : s2 = (((s.wr Reg.CLK_REF_STAT_A_PRES 1).wr Reg.CLK_REF_STAT_B_PRES (b2n (present (some b.toInt)))).wr
      Reg.CLK_REF_STAT_PPM_A (ofSigned 12 (a.toInt - c.toInt))).wr Reg.CLK_REF_STAT_PPM_B (ofSigned 16 (b.toInt - c.toInt)) := by
    simp only [s2, s1, hpa]
    rfl
  have hsel2 : s2.rd Reg.CLK_REF_CFG_SEL = 0 := by
    rw [hmeasured]
    simp (disch := decide) only [State.rd_wr_ne, hsel]
  have hselect : s2.refSelect pa pb = s2.wr Reg.CLK_STAT_HOLDOVER 0 := by
    simp [State.refSelect, hsel2, hpa]
  rw [hselect, hpc, hpa, hmeasured]
  rfl

/-- A permitted write of CLK_REF_CFG: the four fields, and the judging clock where the selection moves (R187, R188). -/
def State.refConfigured (w : Nat) : State :=
  let t := (((s.wr Reg.CLK_REF_CFG_AUTO_SW (b2n (bit w 3))).wr Reg.CLK_REF_CFG_FREQ_B (b2n (bit w 2))).wr Reg.CLK_REF_CFG_FREQ_A
    (b2n (bit w 1))).wr Reg.CLK_REF_CFG_SEL (b2n (bit w 0))
  if b2n (bit w 0) = s.rd Reg.CLK_REF_CFG_SEL then t
  else t.wr Reg.CLK_STAT_JUDGE_SRC
    (t.judgeSrc (s.on Reg.CLK_REF_STAT_A_PRES) (s.on Reg.CLK_REF_STAT_B_PRES) (s.on Reg.CLK_REF_STAT_CAL_PRES))

end
end Sys2Proof.Machine

namespace Sys2Proof
open Machine

/-- Settles O14. -/
theorem referenceSteps : Obligations.ReferenceSteps := by
  refine ⟨?check, ?lost, ?windows, ?write, ?unequal⟩
  case check =>
    intro a b c s hsel ha
    have hchecked : (s.refChecked a b c).rd Reg.CLK_REF_CFG_SEL = 0 := by
      simp (disch := decide) only [State.refChecked, State.rd_wr_ne, hsel]
    refine ⟨_, execRefCheck_present s hsel ha, mem_judgeSelect .., ?_, ?_, ?_, ?selected, ?_, ?_, fun hcal => ?judge⟩
    all_goals rw [rd_judgeSelect _ _ _ _ (by refine calm rfl ?_; omega) (by decide)]
    case judge =>
      rw [State.rd_wr_same, State.judgeSrc, if_pos hcal, Nat.zero_mod]
    case selected => simp (disch := decide) only [State.rd_wr_ne, hchecked]
    all_goals simp (disch := decide) only [State.refChecked, State.rd_wr_ne, State.rd_wr_same, b2n_mod]
    all_goals rfl
  case lost =>
    intro c s hlock hfb
    show Host.Outcome.next _ = _
    simp [hlock, hfb]
  case windows =>
    intro c s hlock hfb hhold
    show Host.Outcome.next _ = _
    simp [hlock, hfb, hhold]
  case write =>
    intro w s heq
    have hcfg : s.clkRefCfg w.toNat = s.refConfigured w.toNat := by
      simp [State.clkRefCfg, heq, State.refConfigured]
    refine ⟨s.refConfigured w.toNat, congrArg Host.Outcome.next hcfg, ?only, ?_, ?_, ?_, ?_, fun hsame => ?judge⟩
    all_goals delta State.refConfigured; extract_lets t
    case only =>
      have ht : OnlyFields [Reg.CLK_REF_CFG_AUTO_SW, Reg.CLK_REF_CFG_FREQ_B, Reg.CLK_REF_CFG_FREQ_A, Reg.CLK_REF_CFG_SEL,
          Reg.CLK_STAT_JUDGE_SRC] s t := by
        iterate 4 refine OnlyFields.wr _ (by simp) ?_
        exact .refl _ s
      exact .ite ht (ht.wr _ (by simp))
    case judge => simp (disch := decide) only [if_pos hsame, t, State.rd_wr_ne]
    all_goals simp (disch := decide) only [rd_ite, t, State.rd_wr_ne, State.rd_wr_same, ite_self, b2n_mod]
  case unequal =>
    intro w s hauto hne hsame
    show Host.Outcome.next _ = _
    simp [State.clkRefCfg, hauto, hne, hsame]

end Sys2Proof
end

section

namespace Sys2Proof.Machine

/-! ### Island clock generators (R191 to R198) -/

section
variable (s : State) (n : Fin 80) {g : Fld}

theorem bits_lt (x hi lo : Nat) : bits x hi lo < 2 ^ (hi - lo + 1) := Nat.mod_lt _ (Nat.two_pow_pos _)

/-- A generator in a state that no request waits for stays as it is. -/
theorem clkSettle_stays (h0 : s.rd (Reg.ISL_CLK_STAT_STATE n) = 0 → s.rd (Reg.ISL_CLK_CTRL_REQ n) = 0)
    (h3 : s.rd (Reg.ISL_CLK_STAT_STATE n) = 3 → s.on (Hid.clkPairV n) = false)
    (hq : s.rd (Reg.ISL_CLK_CTRL_REQ n) = 0 → s.rd (Reg.ISL_CLK_STAT_STATE n) ≠ 3 ∧ s.rd (Reg.ISL_CLK_STAT_STATE n) ≠ 8) :
    s.clkSettle n = s := by
  unfold State.clkSettle
  dsimp only
  split
  · rfl
  · split
    next h => exact if_neg fun hc => hc.1 (h0 h)
    · rw [if_neg fun hc => by simp [h3 hc.1] at hc, if_neg fun hc => (hq hc.2).1 hc.1, if_neg fun hc => (hq hc.2).2 hc.1]

theorem pllOff_only (st : Nat) : OnlyFields [Reg.ISL_CLK_STAT_STATE n, Reg.ISL_CLK_STAT_LOCK n, Reg.ISL_CLK_STAT_STABLE n,
    Reg.ISL_CLK_STAT_SSC_ACTIVE n, Hid.clkFb n] s (s.pllOff n st) := by
  iterate 5 refine OnlyFields.wr _ (by simp) ?_
  exact .refl _ s

theorem rd_pllOff_state (st : Nat) : (s.pllOff n st).rd (Reg.ISL_CLK_STAT_STATE n) = st % 2 ^ (Reg.ISL_CLK_STAT_STATE n).w := by
  simp (disch := with_unfolding_all (refine key_ne rfl rfl ?_; omega)) only [State.pllOff, State.rd_wr_ne, State.rd_wr_same]

/-- A fault that a clock is asked for in: FALLBACK or FAULT with its cause, and event 4 of the island. -/
theorem clkFault_asked {st cause : Nat} (hst : st = 7 ∨ st = 8) (hq : s.rd (Reg.ISL_CLK_CTRL_REQ n) ≠ 0) :
    s.clkFault n st cause = ((s.pllOff n st).wr (Reg.ISL_CLK_STAT_FAULT_CAUSE n) cause).islEvent n 4 := by
  have hkept {g : Fld} (hcalm : g.Calm (512 + 6 * n + 4)) (hevt : g.key ≠ (Reg.ISL_EVT_EVT n).key)
      (hcause : g.key ≠ (Reg.ISL_CLK_STAT_FAULT_CAUSE n).key) :
      (((s.pllOff n st).wr (Reg.ISL_CLK_STAT_FAULT_CAUSE n) cause).islEvent n 4).rd g = (s.pllOff n st).rd g :=
    (rd_raiseB _ hcalm _ _ hevt).trans (State.rd_wr_ne _ _ hcause)
  have hstate : (((s.pllOff n st).wr (Reg.ISL_CLK_STAT_FAULT_CAUSE n) cause).islEvent n 4).rd (Reg.ISL_CLK_STAT_STATE n) = st := by
    rw [hkept (by with_unfolding_all (refine calm rfl ?_; omega)) (by with_unfolding_all (refine key_ne rfl rfl ?_; omega))
      (by with_unfolding_all (refine key_ne rfl rfl ?_; omega)), rd_pllOff_state]
    exact Nat.mod_eq_of_lt (by show st < 16; omega)
  have hreq : (((s.pllOff n st).wr (Reg.ISL_CLK_STAT_FAULT_CAUSE n) cause).islEvent n 4).rd (Reg.ISL_CLK_CTRL_REQ n) ≠ 0 := by
    rw [hkept (by with_unfolding_all (refine calm rfl ?_; omega)) (by with_unfolding_all (refine key_ne rfl rfl ?_; omega))
      (by with_unfolding_all (refine key_ne rfl rfl ?_; omega))]
    unfold State.pllOff
    simpa (disch := with_unfolding_all (refine key_ne rfl rfl ?_; omega)) only [State.rd_wr_ne] using hq
  rw [State.clkFault, clkSettle_stays _ n (fun h => by omega) (fun h => by omega) (fun h => absurd h hreq)]

/-- A request stands in none of the settings that judge a pair. -/
theorem clkOk_request (v : Nat) : (s.wr (Reg.ISL_CLK_CTRL_REQ n) v).clkOk n = s.clkOk n := by
  unfold State.clkOk State.fDist State.on
  simp (disch := with_unfolding_all (refine key_ne rfl rfl ?_; omega)) only [State.rd_wr_ne]

/-- A stopped generator of a powered island starts on a request where its pair is legal (R194). -/
theorem clkReq_starts {v : Nat} (hv : v = 1 ∨ v = 2) (hok : s.clkOk n = true) (hstop : s.astStop = false)
    (hst : s.rd (Reg.ISL_CLK_STAT_STATE n) = 0) (hpwr : s.rd (Reg.ISL_PWR_STAT_PSTATE n) = 0) :
    s.clkReq n v = (s.wr (Reg.ISL_CLK_CTRL_REQ n) v).pllStart n := by
  have hstop' : (s.wr (Reg.ISL_CLK_CTRL_REQ n) v).astStop = false := by
    rw [← hstop, State.astStop, State.rd_wr_ne _ _ (by with_unfolding_all (refine key_ne rfl rfl ?_; omega))]
    rfl
  have hreq : (s.wr (Reg.ISL_CLK_CTRL_REQ n) v).rd (Reg.ISL_CLK_CTRL_REQ n) ≠ 0 := by
    rw [State.rd_wr_same]
    rcases hv with rfl | rfl <;> exact fun h => by cases h
  rw [State.clkReq, if_neg (by omega), if_neg (by simp [hok]), State.clkSettle, if_neg (by simp [hstop'])]
  dsimp only
  rw [if_pos (by rw [State.rd_wr_ne _ _ (by with_unfolding_all (refine key_ne rfl rfl ?_; omega)), hst]), if_pos]
  exact ⟨hreq, by rw [State.rd_wr_ne _ _ (by with_unfolding_all (refine key_ne rfl rfl ?_; omega)), hpwr], by rw [clkOk_request, hok]⟩

theorem pllStart_only : OnlyFields [Reg.ISL_CLK_STAT_STATE n, Reg.ISL_CLK_STAT_LOCK n, Reg.ISL_CLK_STAT_STABLE n,
    Reg.ISL_CLK_STAT_SSC_ACTIVE n, Hid.clkFb n, Hid.clkPass n, Hid.clkWin n, Hid.clkBad n] s (s.pllStart n) := by
  iterate 8 refine OnlyFields.wr _ (by simp) ?_
  exact .refl _ s

theorem rd_pllStart_state : (s.pllStart n).rd (Reg.ISL_CLK_STAT_STATE n) = 1 := by
  simp (disch := with_unfolding_all (refine key_ne rfl rfl ?_; omega)) only [State.pllStart, State.rd_wr_ne, rd_pllOff_state]
  rfl

/-- A legal write of ISL_CLK_CFG (R196). -/
def State.clkConfigured (w : Nat) : State :=
  ((((s.wr (Reg.ISL_CLK_CFG_FAULT_ACT n) (bits w 24 24)).wr (Reg.ISL_CLK_CFG_SSC_PCT n) (bits w 20 18)).wr
    (Reg.ISL_CLK_CFG_SSC_EN n) (bits w 16 16)).wr (Reg.ISL_CLK_CFG_POSTDIV n) (bits w 10 8)).wr (Reg.ISL_CLK_CFG_FBDIV n) (bits w 6 0)

/-- In PLL_OFF without a request, and in FAULT, a legal write of a setting only stores it (R196). -/
theorem clkCfg_stores (frac : Bool) (w : Nat) (hfit : frac = true ∨ bits w 20 18 ≤ 5 ∧ bits w 10 8 ≤ 4)
    (hst : s.rd (Reg.ISL_CLK_STAT_STATE n) = 8 ∨ (s.rd (Reg.ISL_CLK_STAT_STATE n) = 0 ∧ s.rd (Reg.ISL_CLK_CTRL_REQ n) = 0)) :
    s.clkCfg n frac w = if frac then s.wr (Reg.ISL_CLK_FRAC_FRAC n) (bits w 23 0) else s.clkConfigured n w := by
  delta State.clkCfg
  extract_lets b badS badP act pct en post fb fr s0 s1 st
  have hgood : (badS || badP) = false := by
    simp only [badS, badP]
    rcases hfit with rfl | ⟨hpct, hpost⟩
    · rfl
    · simp [hpct, hpost]
  have hs0 : s0 = s := by rw [show s0 = if (badS || badP) = true then s.deny b else s from rfl, hgood, if_neg (by simp)]
  have hstored : s1 = if frac then s.wr (Reg.ISL_CLK_FRAC_FRAC n) (bits w 23 0) else s.clkConfigured n w := by
    obtain ⟨hS, hP⟩ := Bool.or_eq_false_iff.1 hgood
    cases frac <;> simp only [s1, pct, post, fr, hs0, hS, hP] <;> rfl
  have hkept {g : Fld} (hfields : ∀ f ∈ [Reg.ISL_CLK_FRAC_FRAC n, Reg.ISL_CLK_CFG_FAULT_ACT n, Reg.ISL_CLK_CFG_SSC_PCT n,
      Reg.ISL_CLK_CFG_SSC_EN n, Reg.ISL_CLK_CFG_POSTDIV n, Reg.ISL_CLK_CFG_FBDIV n], g.key ≠ f.key) : s1.rd g = s.rd g := by
    simp only [List.forall_mem_cons] at hfields
    obtain ⟨hfrac, hact, hpct, hen, hpost, hfb, -⟩ := hfields
    simp only [hstored, rd_ite, State.clkConfigured, State.rd_wr_ne _ _ hfrac, State.rd_wr_ne _ _ hact, State.rd_wr_ne _ _ hpct,
      State.rd_wr_ne _ _ hen, State.rd_wr_ne _ _ hpost, State.rd_wr_ne _ _ hfb, ite_self]
  have hstate : s1.rd (Reg.ISL_CLK_STAT_STATE n) = st := hkept (by
    simp only [List.forall_mem_cons, List.not_mem_nil, false_implies, implies_true, and_true]
    with_unfolding_all exact ⟨key_ne rfl rfl (by omega), key_ne rfl rfl (by omega), key_ne rfl rfl (by omega),
      key_ne rfl rfl (by omega), key_ne rfl rfl (by omega), key_ne rfl rfl (by omega)⟩)
  have hreq : s1.rd (Reg.ISL_CLK_CTRL_REQ n) = s.rd (Reg.ISL_CLK_CTRL_REQ n) := hkept (by
    simp only [List.forall_mem_cons, List.not_mem_nil, false_implies, implies_true, and_true]
    with_unfolding_all exact ⟨key_ne rfl rfl (by omega), key_ne rfl rfl (by omega), key_ne rfl rfl (by omega),
      key_ne rfl rfl (by omega), key_ne rfl rfl (by omega), key_ne rfl rfl (by omega)⟩)
  rcases hst with h8 | ⟨h0, hq⟩
  · rw [if_neg (by omega), if_pos h8, hstored]
  · rw [if_pos h0, clkSettle_stays s1 n (fun _ => hreq.trans hq) (fun h => by omega) (fun _ => by omega), hstored]

/-- A locked generator whose windows pass is stable, and GATED (R193, R194). -/
def State.clkGated (cnt : Nat) : State :=
  ((s.wr (Reg.ISL_CLK_MEAS n) cnt).wr (Reg.ISL_CLK_STAT_STATE n) 3).wr (Reg.ISL_CLK_STAT_STABLE n) 1

/-- Where a ramp that an island waits for does not rest on the share used. -/
theorem rampWaits_slew (v : Nat) (hpwr : s.rd (Reg.ISL_PWR_STAT_PSTATE n) = 0) :
    (s.wr Hid.slewUsed v).rampWaits n = s.rampWaits n := by
  have hpwr' : (s.wr Hid.slewUsed v).rd (Reg.ISL_PWR_STAT_PSTATE n) = 0 := by
    rw [State.rd_wr_ne _ _ (by with_unfolding_all (refine key_ne rfl rfl ?_; omega)), hpwr]
  unfold State.rampWaits State.astStop State.on
  simp only [hpwr, hpwr']
  simp (disch := with_unfolding_all (refine key_ne rfl rfl ?_; omega)) only [State.rd_wr_ne]
  rfl

end
end Sys2Proof.Machine

namespace Sys2Proof
open Machine

/-- Settles O15. -/
theorem islandClockSteps : Obligations.IslandClockSteps := by
  refine ⟨?request, ?starts, ?settings, ?lock, ?window, ?ramp, ?up, ?down, ?lost⟩
  case request =>
    intro n w s hne hok
    show Host.Outcome.next _ = _
    simp [State.clkReq, hne, hok]
  case starts =>
    intro n w s hw hok hstop hst hpwr
    refine ⟨_, congrArg Host.Outcome.next (clkReq_starts s n hw hok hstop hst hpwr), ?_, ?_, rd_pllStart_state ..⟩
    · refine OnlyFields.trans ((OnlyFields.refl _ s).wr _ (by simp)) ((pllStart_only _ n).mono ?_)
      exact fun f hf => List.mem_cons_of_mem _ hf
    · rw [(pllStart_only _ n).fields _ ?_, State.rd_wr_same]
      · exact Nat.mod_mod _ _
      · simp only [List.forall_mem_cons, List.not_mem_nil, false_implies, implies_true, and_true]
        with_unfolding_all exact ⟨key_ne rfl rfl (by omega), key_ne rfl rfl (by omega), key_ne rfl rfl (by omega),
          key_ne rfl rfl (by omega), key_ne rfl rfl (by omega), key_ne rfl rfl (by omega), key_ne rfl rfl (by omega),
          key_ne rfl rfl (by omega)⟩
  case settings =>
    intro n w s hst
    refine ⟨⟨s.wr (Reg.ISL_CLK_FRAC_FRAC n) (bits w.toNat 23 0), ?_, (OnlyFields.refl _ s).wr _ (by simp), ?_⟩, fun hpct hpost =>
      ⟨s.clkConfigured n w.toNat, ?_, ?_, ?_, ?_, ?_, ?_, ?_⟩⟩
    · exact congrArg Host.Outcome.next (clkCfg_stores s n true w.toNat (.inl rfl) hst)
    · exact (State.rd_wr_same ..).trans (Nat.mod_mod _ _)
    · exact congrArg Host.Outcome.next (clkCfg_stores s n false w.toNat (.inr ⟨hpct, hpost⟩) hst)
    · iterate 5 refine OnlyFields.wr _ (by simp) ?_
      exact .refl _ s
    all_goals
      simp (disch := with_unfolding_all (refine key_ne rfl rfl ?_; omega)) only [State.clkConfigured, State.rd_wr_ne, State.rd_wr_same]
      exact Nat.mod_mod _ _
  case lock =>
    intro n s hst
    refine ⟨⟨_, congrArg Host.Outcome.next (if_pos hst), ?_, ?_, ?_⟩, fun hq => ?_⟩
    · exact (((OnlyFields.refl _ s).wr 2 (by simp)).wr 1 (by simp)).wr _ (by simp)
    · simp (disch := with_unfolding_all (refine key_ne rfl rfl ?_; omega)) only [State.rd_wr_ne, State.rd_wr_same]
      rfl
    · simp (disch := with_unfolding_all (refine key_ne rfl rfl ?_; omega)) only [State.rd_wr_ne, State.rd_wr_same]
      rfl
    · refine congrArg Host.Outcome.next ((if_pos hst).trans ?_)
      exact clkFault_asked s n (.inr rfl) hq
  case window => 
    intro n x s hst hhold hpass hcount hq hpair
    have hkept {g : Fld} (hm : g.key ≠ (Reg.ISL_CLK_MEAS n).key) (hs : g.key ≠ (Reg.ISL_CLK_STAT_STATE n).key)
        (hb : g.key ≠ (Reg.ISL_CLK_STAT_STABLE n).key) : (s.clkGated n x.toNat).rd g = s.rd g := by
      rw [State.clkGated, State.rd_wr_ne _ _ hb, State.rd_wr_ne _ _ hs, State.rd_wr_ne _ _ hm]
    have hst' : (s.clkGated n x.toNat).rd (Reg.ISL_CLK_STAT_STATE n) = 3 := by
      rw [State.clkGated, State.rd_wr_ne _ _ (by with_unfolding_all (refine key_ne rfl rfl ?_; omega)), State.rd_wr_same]
      rfl
    have hpair' : (s.clkGated n x.toNat).on (Hid.clkPairV n) = false := by
      rw [State.on, hkept (by with_unfolding_all (refine key_ne rfl rfl ?_; omega))
        (by with_unfolding_all (refine key_ne rfl rfl ?_; omega)) (by with_unfolding_all (refine key_ne rfl rfl ?_; omega))]
      exact hpair
    have hq' : (s.clkGated n x.toNat).rd (Reg.ISL_CLK_CTRL_REQ n) ≠ 0 := by
      rwa [hkept (by with_unfolding_all (refine key_ne rfl rfl ?_; omega))
        (by with_unfolding_all (refine key_ne rfl rfl ?_; omega)) (by with_unfolding_all (refine key_ne rfl rfl ?_; omega))]
    have hsettled := clkSettle_stays _ n (fun h => by omega) (fun _ => hpair') (fun h => absurd h hq')
    refine ⟨s.clkGated n x.toNat, ?_, (((OnlyFields.refl _ s).wr _ (by simp)).wr 3 (by simp)).wr 1 (by simp), ?_, hst',
      State.rd_wr_same ..⟩
    · show Host.Outcome.next _ = _
      simp only [hst, hhold, hpass, if_true]
      rw [if_neg (by simp), if_pos hcount]
      exact congrArg Host.Outcome.next hsettled
    · rw [State.clkGated]
      simp (disch := with_unfolding_all (refine key_ne rfl rfl ?_; omega)) only [State.rd_wr_ne, State.rd_wr_same]
      exact Nat.mod_eq_of_lt x.isLt
  case ramp =>
    intro n s hlower hwaits hfits hpwr
    have hadmit : s.rampAdmit n = (s.wr Hid.slewUsed (s.rd Hid.slewUsed + s.rampCost n)).wr (Reg.ISL_CLK_STAT_STATE n) 4 := by
      rw [State.rampAdmit, if_neg (by simp [hwaits]), if_pos hfits, State.rampBegin, rampWaits_slew s n _ hpwr, hwaits]
    refine ⟨_, (congrArg Host.Outcome.next (if_neg (by simp [hlower]))).trans (congrArg _ hadmit),
      ((OnlyFields.refl _ s).wr _ (by simp)).wr 4 (by simp), ?_, State.rd_wr_same ..⟩
    rw [State.rd_wr_ne _ _ (by with_unfolding_all (refine key_ne rfl rfl ?_; omega)), State.rd_wr_same]
    exact Nat.mod_eq_of_lt (by show _ < 65536; omega)
  case up =>
    intro n s hst hpwr
    refine ⟨(s.wr (Reg.ISL_CLK_STAT_STATE n) 5).wr (Hid.clkBad n) 0, ?_, ((OnlyFields.refl _ s).wr 5 (by simp)).wr 0 (by simp), ?_⟩
    · exact congrArg Host.Outcome.next ((if_pos hst).trans (if_neg (by simp [hpwr])))
    · simp (disch := with_unfolding_all (refine key_ne rfl rfl ?_; omega)) only [State.rd_wr_ne, State.rd_wr_same]
      rfl
  case down => 
    intro n s hst hpwr hfb hq hpair
    have hpair' : (s.wr (Reg.ISL_CLK_STAT_STATE n) 3).on (Hid.clkPairV n) = false := by
      rw [State.on, State.rd_wr_ne _ _ (by with_unfolding_all (refine key_ne rfl rfl ?_; omega))]
      exact hpair
    have hq' : (s.wr (Reg.ISL_CLK_STAT_STATE n) 3).rd (Reg.ISL_CLK_CTRL_REQ n) ≠ 0 := by
      rwa [State.rd_wr_ne _ _ (by with_unfolding_all (refine key_ne rfl rfl ?_; omega))]
    have hst' : (s.wr (Reg.ISL_CLK_STAT_STATE n) 3).rd (Reg.ISL_CLK_STAT_STATE n) = 3 := State.rd_wr_same ..
    have hsettled := clkSettle_stays _ n (fun h => by omega) (fun _ => hpair') (fun h => absurd h hq')
    refine ⟨_, ?_, (OnlyFields.refl _ s).wr 3 (by simp), hst'⟩
    show Host.Outcome.next _ = _
    rw [if_pos hst, if_neg hpwr, if_neg (by simp [hfb]), if_neg fun h => hq h.1, hsettled]
  case lost =>
    intro n s hst hq
    refine congrArg Host.Outcome.next (if_pos hst |>.trans ?_)
    exact clkFault_asked s n (by split <;> simp) hq

end Sys2Proof
end

section

namespace Sys2Proof.Machine

/-! ### Sluice banks (R203) -/

theorem Tab.find_set_ne {α : Type} [DecidableEq α] (t : Tab α) {k j : Nat} (d v : α) (h : j ≠ k) :
    Tab.find (Tab.set t k d v) j = Tab.find t j := by
  unfold Tab.set
  split
  · exact Tab.find_del_ne t h
  · exact Tab.find_put_ne t v h

section
variable (s : State) (n e b : Nat) (l : List Nat)

theorem setBank_sluices : (s.setBank n e b l).sluices = Tab.set s.sluices (slcAt n e b) [] l := rfl

/-- A bank that takes other words changes the two status fields of its edge. -/
theorem setBank_only : OnlyFields [Reg.ISL_SLC_STAT_OCC n e, Reg.ISL_SLC_STAT_STALL n e] s
    { s with cells := (s.setBank n e b l).cells } := by
  refine ⟨rfl, fun g hg => ?_⟩
  simp only [List.forall_mem_cons] at hg
  obtain ⟨hocc, hstall, -⟩ := hg
  exact (State.rd_wr_ne _ _ hstall).trans (State.rd_wr_ne _ _ hocc)

/-- What an answer with a bank set says of the other banks and fields. -/
theorem setBank_answer (y : List Byte) : (∃ u, OnlyFields [Reg.ISL_SLC_STAT_OCC n e, Reg.ISL_SLC_STAT_STALL n e] s u
      ∧ (s.setBank n e b l).answer .ok y
        = { u with sluices := ((s.setBank n e b l).answer .ok y).sluices, last := ⟨.ok, y⟩ })
    ∧ Tab.getD ((s.setBank n e b l).answer .ok y).sluices (slcAt n e b) [] = l
    ∧ ∀ k, k ≠ slcAt n e b → Tab.find ((s.setBank n e b l).answer .ok y).sluices k = Tab.find s.sluices k :=
  ⟨⟨_, setBank_only s n e b l, rfl⟩, Tab.getD_set_same .., fun _ hk => Tab.find_set_ne _ _ _ hk⟩

end
end Sys2Proof.Machine

namespace Sys2Proof
open Machine

/-- Settles O16. -/
theorem islandPowerSteps : Obligations.IslandPowerSteps := by
  refine ⟨?off, ?on, ?down, ?up, ?send, ?deliver, ?flush, ?done⟩
  case off =>
    intro n s hreq hok hp
    refine ⟨(((s.wr (Reg.ISL_PWR_CTRL_REQ n) 1).wr (Reg.ISL_PWR_STAT_PSTATE n) 1).wr (Reg.NOC_NI_STAT_FENCED n) 1).wr
      (Hid.fenceAt n) s.now, ?_, ?_, ?_, ?_, ?_⟩
    · show Host.Outcome.next _ = _
      simp [State.pwrWrite, hreq, hok, hp]
    · iterate 4 refine OnlyFields.wr _ (by simp) ?_
      exact .refl _ s
    all_goals
      simp (disch := with_unfolding_all (refine key_ne rfl rfl ?_; omega)) only [State.rd_wr_ne, State.rd_wr_same]
      rfl
  case on =>
    intro n s hreq
    refine ⟨s.wr (Reg.ISL_PWR_CTRL_REQ n) 0, ?_, (OnlyFields.refl _ s).wr 0 (by simp), State.rd_wr_same ..⟩
    show Host.Outcome.next _ = _
    simp [State.pwrWrite, hreq]
  case down =>
    intro n s hp
    refine ⟨_, congrArg Host.Outcome.next (if_pos hp), ?_, ?_, ?_, ?_, ?_⟩
    · iterate 6 refine OnlyFields.wr _ (by simp) ?_
      exact .refl _ s
    all_goals
      simp (disch := with_unfolding_all (refine key_ne rfl rfl ?_; omega)) only [State.rd_wr_ne, State.rd_wr_same]
      rfl
  case up =>
    intro n s hp
    exact congrArg Host.Outcome.next (if_pos hp)
  case send =>
    intro n m e b data s hacross hlive hopen hweir hroom
    refine ⟨(s.setBank n e b (Tab.getD s.sluices (slcAt n e b) [] ++ [data.toNat])).answer .ok [], ?_, setBank_answer ..⟩
    show execSluiceSend n e b data s = _
    simp [execSluiceSend, hacross, hlive, hopen, hweir, hroom]
  case deliver =>
    intro n e b w r s hbank hlive
    refine ⟨(s.setBank n e b r).answer .ok (leBytes 32 w), ?_, setBank_answer ..⟩
    show execSluiceDeliver n e b s = _
    simp [execSluiceDeliver, hbank, hlive]
  case flush =>
    intro n e w s hacross hbad
    refine ⟨(s.wr (Reg.ISL_SLC_CTRL_EN n e) (bits w.toNat 3 0)).wr (Reg.ISL_SLC_CTRL_FLUSH n e)
      (s.rd (Reg.ISL_SLC_CTRL_FLUSH n e) ||| bits w.toNat 11 8), ?_, ((OnlyFields.refl _ s).wr _ (by simp)).wr _ (by simp), ?_,
      State.rd_wr_same ..⟩
    · show Host.Outcome.next _ = _
      obtain ⟨m, hm⟩ := Option.isSome_iff_exists.1 hacross
      simp [State.slcCtrl, hm, hbad]
    · rw [State.rd_wr_ne _ _ (by with_unfolding_all (refine key_ne rfl rfl ?_; omega)), State.rd_wr_same]
      exact Nat.mod_mod _ _
  case done =>
    intro n e b s hfl
    exact congrArg Host.Outcome.next (if_pos hfl)

end Sys2Proof
end

section

namespace Sys2Proof.Machine

/-! ### A Millrace port (R216 to R220) -/

section
variable {s x v : State} {n : Fin 80} {row : Fin 8192} {tag : Fin 16} {wr : Bool} {errs : List SigErr} {q : Req}
  (op : Req → Nat → State → MrResp × State)

/-- A request that the port accepts, its bundle carries and the bank lets pass. -/
theorem mrRequest_served (hacc : s.mrAccepts n tag = true) (href : s.mrRefused n row wr = false) (hx : x = s.wireErrors (.mr n) errs)
    (hfence : x.on (Reg.ISL_STAT_MR_FENCE n) = false) (hq : q = x.req (.millrace n) (x.rd (Reg.ISL_MR_CTRL_KEY n)))
    (hguard : x.guard q wr (rowAddr n row) 512 = none) (hgate : x.memGate q (rowAddr n row) 512 = (.ok, v)) :
    s.mrRequest n row tag false wr errs op = State.mrServe n tag (op q (rowAddr n row)) (.ok, v) := by
  have hn : Fin.ofNat 80 n.val = n := Fin.ext (Nat.mod_eq_of_lt n.isLt)
  rw [State.mrRequest, if_neg (by simp [hacc]), if_neg (by simp [href]), hn, ← hx, State.mrCarried, if_neg (by simp [hfence]),
    State.mrBank]
  simp only [hn, ← hq, hguard, hgate]

/-- One that R216 refuses. -/
theorem mrRequest_refused (hacc : s.mrAccepts n tag = true) (href : s.mrRefused n row wr = true) :
    s.mrRequest n row tag false wr errs op = s.mrBusErr n tag := by
  rw [State.mrRequest, if_neg (by simp [hacc]), if_pos (by simp [href])]

/-- One whose own errors fence the bundle (R230). -/
theorem mrRequest_fenced (hacc : s.mrAccepts n tag = true) (href : s.mrRefused n row wr = false) (hx : x = s.wireErrors (.mr n) errs)
    (hfence : x.on (Reg.ISL_STAT_MR_FENCE n) = true) : s.mrRequest n row tag false wr errs op = x.mrBusErr n tag := by
  have hn : Fin.ofNat 80 n.val = n := Fin.ext (Nat.mod_eq_of_lt n.isLt)
  rw [State.mrRequest, if_neg (by simp [hacc]), if_neg (by simp [href]), hn, ← hx, State.mrCarried, if_pos hfence]

end
end Sys2Proof.Machine

namespace Sys2Proof
open Machine

/-- Settles O17. -/
theorem verticalSteps : Obligations.VerticalSteps := by
  refine ⟨?cal, ?guard, ?repair, ?read, ?write, ?refused, ?response⟩
  case cal =>
    intro b u s hu
    refine ⟨fun v hv => ⟨?_, ?_⟩, fun e v hv => ⟨fun hfirst => ?_, fun htwice => ?_⟩⟩
    · show execBundleCal b [] false s = _
      simp [execBundleCal, hv, hu, State.each]
    · show execBundleCal b [] true s = _
      simp [execBundleCal, hv, hu, State.each]
    · show execBundleCal b [e] false s = _
      rw [execBundleCal, List.filter_cons_of_neg (by rw [hfirst]; simp), hv, hu]
      rfl
    · show execBundleCal b [e] false s = _
      have hfails : [e].filter (fun e => s.walkFail.contains ⟨bunCode b, e.group, e.wire⟩) = [e] := List.filter_cons_of_pos htwice
      rw [execBundleCal, hfails, hv, hu]
      rfl
  case guard =>
    intro b g s hg hmode near hnear u hu
    refine congrArg Host.Outcome.next ((if_pos (by simp [hg, hmode])).trans ?_)
    rw [hu, hnear]
  case repair =>
    intro b s
    exact ⟨_, rfl, (OnlyFields.refl _ s).wr 0 (by simp), State.rd_wr_same ..⟩
  case read =>
    intro n row tag errs s hacc href q bs rue x v u hx hfence hq hguard hgate hread
    refine congrArg Host.Outcome.next ((mrRequest_served _ hacc href hx hfence hq hguard hgate).trans ?_)
    rw [State.mrServe]
    simp only [hread]
  case write =>
    intro n row tag data wen errs s hacc href q x v hx hfence hq hguard hgate
    exact ⟨congrArg Host.Outcome.next (mrRequest_served _ hacc href hx hfence hq hguard hgate),
      congrArg Host.Outcome.next (mrRequest_served _ hacc href hx hfence hq hguard hgate)⟩
  case refused =>
    intro n row tag data wen errs s x hacc hx
    refine ⟨fun href t ht => ?_, fun href hfence t ht => ?_⟩
    · subst ht
      exact ⟨congrArg Host.Outcome.next (mrRequest_refused _ hacc href), congrArg Host.Outcome.next (mrRequest_refused _ hacc href)⟩
    · subst ht
      exact ⟨congrArg Host.Outcome.next (mrRequest_fenced _ hacc href hx hfence),
        congrArg Host.Outcome.next (mrRequest_fenced _ hacc href hx hfence)⟩
  case response =>
    intro n r l s hqueue hrst
    show execMrResponse n s = _
    simp [execMrResponse, hqueue, hrst]

end Sys2Proof
end

section

namespace Sys2Proof.Machine

/-! ### SRAM accesses and background work (R239 to R252, R467) -/

section
variable {s : State}

theorem readFor_answers {w : Requester} {key a n : Nat} {bs : List Byte} {t : State} (h : s.memRead (s.req w key) a n = (bs, .ok, t)) :
    s.readFor w key a n = t.answer .ok bs := by
  rw [State.readFor, h]
  cases w <;> rfl

theorem writeFor_answers {w : Requester} {key a : Nat} {bs : List Byte} {t : State} (h : s.memWrite (s.req w key) a bs = (.ok, t)) :
    s.writeFor w key a bs = t.answer .ok [] := by
  rw [State.writeFor, h]
  cases w <;> rfl

/-- Background work on a unit spends its budget, and no more. -/
theorem bankTake_others {u n : Nat} {back : Bool} {t : State} (h : s.bankTake u n back = some t) : t = { s with cells := t.cells } := by
  simp only [State.bankTake, State.bgTake, State.bgSpend, ite_eq_iff, Option.some.injEq, reduceCtorEq, and_false, false_or,
    or_false] at h
  obtain ⟨-, -, rfl⟩ := h
  simp only [State.bgRoll, State.wrIf]
  split <;> rfl

/-- The first work of a period in which its unit has done none (R467). -/
theorem bankTake_first {u n : Nat} (back : Bool) (hper : s.now / 400000 = s.rd (Hid.bgPer (2 + u)))
    (hused : s.rd (Hid.bgUsed (2 + u)) = 0) (hback : s.wback = []) :
    s.bankTake u n back = some (((s.wr (Hid.bgUsed (2 + u)) 0).wr (Hid.bgPer (2 + u)) (s.now / 400000)).add (Hid.bgUsed (2 + u)) n) := by
  have hroll (share : Nat) : s.bgRoll (2 + u) share = (s.wr (Hid.bgUsed (2 + u)) 0).wr (Hid.bgPer (2 + u)) (s.now / 400000) := by
    simp [State.bgRoll, State.wrIf, hper, hused]
  have hnone : ((s.wr (Hid.bgUsed (2 + u)) 0).wr (Hid.bgPer (2 + u)) (s.now / 400000)).rd (Hid.bgUsed (2 + u)) = 0 := by
    rw [State.rd_wr_ne _ _ (by with_unfolding_all (refine key_ne rfl rfl ?_; omega)), State.rd_wr_same]
    rfl
  rw [State.bankTake, if_neg (by simp [hback]), State.bgTake]
  simp only [hroll, State.bgSpend]
  rw [if_pos (.inl hnone)]

/-- A legal raw access that its budget admits. -/
theorem raw_admitted {t : State} (hlegal : s.rawLegal = true)
    (htake : s.bankTake (srmUnit (s.rd Reg.SRM_TEST_ADDR)) 1 false = some t) (code : Nat) (op : Nat → State → State) :
    s.raw code op = op (s.rd Reg.SRM_TEST_ADDR) t := by
  rw [State.raw, if_pos hlegal, htake]

end

/-! ### Leaky buckets (R250) -/

section
variable (s : State) {lvl trip : Fld} (thresh : Nat)

theorem leak_only : OnlyFields [lvl, trip] s (s.leak lvl trip thresh) := by
  unfold State.leak
  exact .ite (((OnlyFields.refl _ s).wr _ (by simp)).wr _ (by simp)) ((OnlyFields.refl _ s).wr _ (by simp))

theorem rd_leak_level (hne : lvl.key ≠ trip.key) : (s.leak lvl trip thresh).rd lvl = (s.rd lvl - 1) % 2 ^ lvl.w := by
  unfold State.leak
  dsimp only
  rw [rd_ite, State.rd_wr_ne _ _ hne, State.rd_wr_same, ite_self]

theorem rd_leak_trip (h : s.rd lvl - 1 ≤ thresh / 2) : (s.leak lvl trip thresh).rd trip = 0 := by
  unfold State.leak
  dsimp only
  rw [if_pos h, State.rd_wr_same, Nat.zero_mod]

end
end Sys2Proof.Machine

namespace Sys2Proof
open Machine

/-- Settles O18. -/
theorem sramAccessSteps : Obligations.SramAccessSteps := by
  refine ⟨?read, ?write, ?merge, ?back, ?leak, ?raw, ?budget, ?illegal⟩
  case read =>
    intro w key a n errs bs s u t ha hu hread
    subst hu
    exact congrArg Host.Outcome.next ((if_pos ha).trans (readFor_answers hread))
  case write =>
    intro w key a data errs s u t ha hu hwrite
    subst hu
    exact congrArg Host.Outcome.next ((if_pos ha).trans (writeFor_answers hwrite))
  case merge =>
    intro w key a data errs s u t ha hu hwrite
    subst hu
    exact congrArg Host.Outcome.next ((if_pos ha).trans (writeFor_answers hwrite))
  case back =>
    intro a b s t ha hback htake hfix
    have hback' : t.wback.contains (8 * a / 8) = true := by
      rw [bankTake_others htake, Nat.mul_div_cancel_left _ (by decide)]
      exact hback
    refine congrArg Host.Outcome.next ((if_pos (by rw [ha, hback]; rfl)).trans ?_)
    rw [htake]
    dsimp only
    rw [State.writeBackWord, hback', hfix]
    rfl
  case leak =>
    intro b s
    exact ⟨_, rfl, leak_only .., rd_leak_level _ _ (by with_unfolding_all (refine key_ne rfl rfl ?_; omega)), rd_leak_trip _ _⟩
  case raw =>
    intro a s t hlegal ha htake
    subst ha
    exact ⟨congrArg Host.Outcome.next (raw_admitted hlegal htake ..), congrArg Host.Outcome.next (raw_admitted hlegal htake ..),
      congrArg Host.Outcome.next (raw_admitted hlegal htake ..), congrArg Host.Outcome.next (raw_admitted hlegal htake ..)⟩
  case budget =>
    intro u n back s hper hused hn hback
    refine ⟨_, bankTake_first back hper hused hback, ?_, ?_⟩
    · exact (((OnlyFields.refl _ s).wr _ (by simp)).wr _ (by simp)).add _ (by simp)
    · rw [State.add, State.rd_wr_same, State.rd_wr_ne _ _ (by with_unfolding_all (refine key_ne rfl rfl ?_; omega)), State.rd_wr_same,
        Nat.zero_mod, Nat.zero_add, Nat.mod_eq_of_lt hn]
  case illegal =>
    intro s hillegal
    exact congrArg Host.Outcome.next (if_neg (by simp [hillegal]))

end Sys2Proof
end

section

namespace Sys2Proof.Machine

/-! ### The region test of an island bank (R253) -/

section
variable (s : State) (u : Fin 80)

/-- The end of a region test that finds no failing row. -/
def State.ttPassed (s : State) (u : Fin 80) : State :=
  let nx := if s.on (Hid.ttNamed u) then s.rd (Hid.ttNext u) else if 384 ≤ s.rd (Hid.ttCur u) + 1 then 0 else s.rd (Hid.ttCur u) + 1
  let t := (((s.wr (Hid.ttActive u) 0).wr (Hid.ttNamed u) 0).wr (Hid.ttNext u) nx).wr (Reg.SRM_BANK_TT_REGION u) nx
  if 384 ≤ s.rd (Hid.ttCur u) + 1 then t.add (Reg.SRM_BANK_TT_PASSES u) 1 else t

theorem execTtRegionDone_passed (hactive : s.on (Hid.ttActive u) = true) :
    execTtRegionDone (u.castLE (by decide)) [] s = .next (s.ttPassed u) := by
  have hbank : ttBank u.val = u.val := if_pos u.isLt
  have hregions : ttRegions u.val = 384 := if_pos u.isLt
  simp [execTtRegionDone, State.ttPassed, hactive, hbank, hregions, State.each]

end
end Sys2Proof.Machine

namespace Sys2Proof
open Machine

/-- Settles O19. -/
theorem sramUpkeepSteps : Obligations.SramUpkeepSteps := by
  refine ⟨?log, ?counts, ?region, ?start, ?passed, ?named, ?enter, ?entered, ?exit, ?woken, ?wake, ?wipe, ?wiped⟩
  case log =>
    intro s
    refine ⟨_, rfl, ?_, ?_, ?_, ?_⟩
    · iterate 7 refine OnlyFields.wr _ (by simp) ?_
      exact .refl _ s
    all_goals
      simp (disch := decide) only [State.srmClrLog, State.rd_wr_ne, State.rd_wr_same]
      rfl
  case counts =>
    intro b s
    refine ⟨_, rfl, ?_, ?_, ?_, ?_, ?_⟩
    · iterate 4 refine OnlyFields.wr _ (by simp) ?_
      exact .refl _ s
    all_goals
      simp (disch := with_unfolding_all (refine key_ne rfl rfl ?_; omega)) only [State.srbClrCnt, State.rd_wr_ne, State.rd_wr_same]
      exact Nat.zero_mod _
  case region =>
    intro b r s hb hr hen hon
    refine ⟨((s.wr (Hid.ttNext b) r).wr (Hid.ttNamed b) (s.rd (Hid.ttActive b))).wr (Reg.SRM_BANK_TT_REGION b) r, ?_, ?_, ?_, ?_⟩
    · show Host.Outcome.next _ = _
      simp [State.ttRegion, hb, hr, hen, hon]
    · iterate 3 refine OnlyFields.wr _ (by simp) ?_
      exact .refl _ s
    · exact (State.rd_wr_same ..).trans (Nat.mod_eq_of_lt (by show _ < 4096; omega))
    · simp (disch := with_unfolding_all (refine key_ne rfl rfl ?_; omega)) only [State.rd_wr_ne, State.rd_wr_same]
      exact Nat.mod_eq_of_lt (by show _ < 4096; omega)
  case start =>
    intro u s v hdue htake hinfo
    refine ⟨((v.wr (Hid.ttActive u) 1).wr (Hid.ttCur u) (s.rd (Hid.ttNext u))).wr (Hid.ttAt u) (s.now + 1), ?_, ?_, ?_, ?_, ?_⟩
    · show execTtRegionStart u s = _
      simp [execTtRegionStart, hdue, htake, hinfo, State.each]
    · iterate 3 refine OnlyFields.wr _ (by simp) ?_
      exact .refl _ v
    · simp (disch := with_unfolding_all (refine key_ne rfl rfl ?_; omega)) only [State.on, State.rd_wr_ne, State.rd_wr_same]
      rfl
    all_goals simp (disch := with_unfolding_all (refine key_ne rfl rfl ?_; omega)) only [State.rd_wr_ne, State.rd_wr_same]
  case passed =>
    intro u s hactive hnamed
    refine ⟨s.ttPassed u, execTtRegionDone_passed s u hactive, ?only, ?active, fun hcur => ?next, fun hcur => ⟨?first, ?passes⟩⟩
    all_goals delta State.ttPassed; extract_lets nx t
    case only =>
      have ht : OnlyFields [Hid.ttActive u, Hid.ttNamed u, Hid.ttNext u, Reg.SRM_BANK_TT_REGION u, Reg.SRM_BANK_TT_PASSES u] s t := by
        iterate 4 refine OnlyFields.wr _ (by simp) ?_
        exact .refl _ s
      exact .ite (ht.add _ (by simp)) ht
    case active =>
      simp (disch := with_unfolding_all (refine key_ne rfl rfl ?_; omega)) only [State.on, State.add, rd_ite, t, State.rd_wr_ne,
        State.rd_wr_same, ite_self]
      rfl
    case next =>
      rw [if_neg (by omega)]
      simp only [t, State.rd_wr_same, nx, hnamed]
      rw [if_neg (by simp), if_neg (by omega)]
      exact Nat.mod_eq_of_lt (by show _ < 4096; omega)
    case first =>
      rw [if_pos (by omega), State.add, State.rd_wr_ne _ _ (by with_unfolding_all (refine key_ne rfl rfl ?_; omega)), State.rd_wr_same]
      simp only [nx, hnamed]
      rw [if_neg (by simp), if_pos (by omega)]
      rfl
    case passes =>
      rw [if_pos (by omega), State.add, State.rd_wr_same]
      simp (disch := with_unfolding_all (refine key_ne rfl rfl ?_; omega)) only [t, State.rd_wr_ne]
  case named =>
    intro u s hactive hnamed hcur
    refine ⟨s.ttPassed u, execTtRegionDone_passed s u hactive, ?only, ?_, ?_, ?next⟩
    all_goals delta State.ttPassed; extract_lets nx t; rw [if_neg (by omega)]
    case only =>
      iterate 4 refine OnlyFields.wr _ (by simp) ?_
      exact .refl _ s
    case next =>
      simp (disch := with_unfolding_all (refine key_ne rfl rfl ?_; omega)) only [t, State.rd_wr_ne, State.rd_wr_same, nx, hnamed, if_true]
      exact Nat.mod_eq_of_lt (State.rd_lt s _)
    all_goals
      simp (disch := with_unfolding_all (refine key_ne rfl rfl ?_; omega)) only [State.on, t, State.rd_wr_ne, State.rd_wr_same]
      rfl
  case enter =>
    intro b s hb hbst hon
    have hon' : (s.wr (Reg.SRM_BANK_CTRL_RET b) 1).rd (Reg.SRM_BANK_CTRL_RET b) = 1 := State.rd_wr_same ..
    refine ⟨(s.wr (Reg.SRM_BANK_CTRL_RET b) 1).wr (Reg.SRM_BANK_PSTAT_PSTATE b) 1, ?_,
      ((OnlyFields.refl _ s).wr 1 (by simp)).wr 1 (by simp), ?_, State.rd_wr_same ..⟩
    · show Host.Outcome.next _ = _
      rw [State.retEnter, if_neg (by omega), hbst]
      simp [hon]
    · rwa [State.rd_wr_ne _ _ (by with_unfolding_all (refine key_ne rfl rfl ?_; omega))]
  case entered =>
    intro b s hst hactive hback
    refine ⟨_, congrArg Host.Outcome.next (if_pos ?_), (OnlyFields.refl _ s).wr 2 (by simp), State.rd_wr_same ..⟩
    simp [hst, hactive, hback]
  case exit =>
    intro b s hst
    refine ⟨_, congrArg Host.Outcome.next (if_pos hst), ((OnlyFields.refl _ s).wr 0 (by simp)).wr 3 (by simp), ?_,
      State.rd_wr_same ..⟩
    rw [State.rd_wr_ne _ _ (by with_unfolding_all (refine key_ne rfl rfl ?_; omega)), State.rd_wr_same]
    rfl
  case woken =>
    intro b s hst
    refine ⟨_, congrArg Host.Outcome.next (if_pos hst), ?_, ?_, ?_⟩
    · iterate 3 refine OnlyFields.wr _ (by simp) ?_
      exact .refl _ s
    all_goals
      simp (disch := with_unfolding_all (refine key_ne rfl rfl ?_; omega)) only [State.rd_wr_ne, State.rd_wr_same]
      rfl
  case wake =>
    intro b s hst hauto
    refine ⟨(s.wr (Reg.SRM_BANK_PSTAT_PSTATE b) 3).wr (Hid.srbWait b) 1,
      congrArg Host.Outcome.next ((if_pos rfl).trans (if_pos ⟨hst, hauto⟩)),
      ((OnlyFields.refl _ s).wr 3 (by simp)).wr 1 (by simp), State.rd_wr_same .., ?_⟩
    rw [State.rd_wr_ne _ _ (by with_unfolding_all (refine key_ne rfl rfl ?_; omega)), State.rd_wr_same]
    rfl
  case wipe =>
    intro s
    exact ⟨_, rfl, ⟨s.wr Reg.SRM_STAT_WIPING 1, (OnlyFields.refl _ s).wr 1 (by simp), rfl⟩, State.rd_wr_same .., rfl, rfl⟩
  case wiped =>
    intro s hwiping
    exact congrArg Host.Outcome.next (if_pos hwiping)

end Sys2Proof
end

section

namespace Sys2Proof.Machine

/-! ### The budget of a pseudo-channel and the place of a line (R267 to R272) -/

theorem fold4_lt (v x : Nat) (mask : List Nat) : fold4 v x mask < 16 := by
  simp only [fold4, List.range_succ, List.range_zero, List.nil_append, List.cons_append, List.foldl_cons, List.foldl_nil]
  omega

theorem mapOf_pc_lt (m : HMap) (a : Nat) : (mapOf m a).pc < 16 := by
  unfold mapOf
  dsimp only
  split
  · show 4 * (_ / 3) + _ % 3 < 16
    omega
  · exact fold4_lt ..

section
variable {s : State}

/-- The budget that a write-back takes is none of the fields that place a line. -/
theorem place_budget {a : Nat} (h : s.isHbm a = true) (i v : Nat) (hi : i < 16) : (s.wr (Hid.hbmBg i) v).place a = s.place a := by
  have ha : a / 2 ^ 33 < 4 := by
    have htop : s.hbmTop ≤ 0x600000000 := by
      unfold State.hbmTop
      dsimp only
      split_ifs <;> omega
    have := of_decide_eq_true h
    omega
  have hpc := mapOf_pc_lt s.curMap a
  have hmap : (s.wr (Hid.hbmBg i) v).curMap = s.curMap := by
    unfold State.curMap State.pcx State.bkx
    simp (disch := with_unfolding_all (refine key_ne rfl rfl ?_; omega)) only [State.rd_wr_ne]
  unfold State.place State.rankOf State.mapAddr State.on
  rw [hmap]
  simp (disch := with_unfolding_all (refine key_ne rfl rfl ?_; omega)) only [State.rd_wr_ne]

/-- A write-back within the budget of the period stores the corrected line (R281). -/
theorem writeBackLine_budget {x a i v : Nat} (h : s.isHbm a = true) (hi : i < 16)
    (hback : s.wback.contains (x * 2 ^ 40 + s.place a / 32) = true) {t : State} (ht : t = s.wr (Hid.hbmBg i) v) :
    t.writeBackLine x a = ((t.fixPlace (t.place a) (synVerdict (t.lineSyn x a))).setLineInfo a
      { t.lineInfo a with syn := (t.lineInfo a).syn ^^^ t.lineSyn x a }).countWr a := by
  have hback' : t.wback.contains (x * 2 ^ 40 + t.place a / 32) = true := by
    rw [ht, place_budget h i v hi]
    exact hback
  rw [State.writeBackLine, hback', if_neg (by simp)]

/-- The budgets of the pseudo-channels at the start of a period (R272). -/
def State.hbmUnused (s : State) : State :=
  State.each (List.range 16) (fun i t => (t.wr (Hid.hbmBg i) 0).wr (Hid.hbmMigUsed i) 0) (s.wr Hid.hbmPct (s.rd Reg.SCB_BUDGET_PCT))

theorem hbmUnused_only (s : State) :
    OnlyFields (Hid.hbmPct :: (List.range 16).flatMap (fun i => [Hid.hbmBg i, Hid.hbmMigUsed i])) s s.hbmUnused := by
  refine OnlyFields.each (fun i hi v => ?_) ((OnlyFields.refl _ s).wr _ List.mem_cons_self)
  have hmem (f : Fld) (hf : f ∈ [Hid.hbmBg i, Hid.hbmMigUsed i]) :
      f ∈ Hid.hbmPct :: (List.range 16).flatMap (fun i => [Hid.hbmBg i, Hid.hbmMigUsed i]) :=
    List.mem_cons_of_mem _ (List.mem_flatMap.2 ⟨i, hi, hf⟩)
  exact ((OnlyFields.refl _ v).wr 0 (hmem _ (by simp))).wr 0 (hmem _ (by simp))

theorem rd_hbmUnused (s : State) (i : Fin 16) :
    s.hbmUnused.rd (Hid.hbmBg i) = 0 ∧ s.hbmUnused.rd (Hid.hbmMigUsed i) = 0 := by
  refine each_establishes (P := fun v => v.rd (Hid.hbmBg i) = 0 ∧ v.rd (Hid.hbmMigUsed i) = 0) (k := i.val)
    (List.mem_range.2 i.isLt) (fun v => ⟨?_, ?_⟩) (fun j hj v hv => ?_) _
  · rw [State.rd_wr_ne _ _ (by with_unfolding_all (refine key_ne rfl rfl ?_; omega)), State.rd_wr_same]
    rfl
  · exact State.rd_wr_same ..
  · have hj' := List.mem_range.1 hj
    by_cases hji : j = i.val
    · subst hji
      refine ⟨?_, State.rd_wr_same ..⟩
      rw [State.rd_wr_ne _ _ (by with_unfolding_all (refine key_ne rfl rfl ?_; omega)), State.rd_wr_same]
      rfl
    · rwa [State.rd_wr_ne _ _ (by with_unfolding_all (refine key_ne rfl rfl ?_; omega)),
        State.rd_wr_ne _ _ (by with_unfolding_all (refine key_ne rfl rfl ?_; omega)),
        State.rd_wr_ne _ _ (by with_unfolding_all (refine key_ne rfl rfl ?_; omega)),
        State.rd_wr_ne _ _ (by with_unfolding_all (refine key_ne rfl rfl ?_; omega))]

/-- The pseudo-channel's budget admits background work (R467). -/
theorem hbmSpend_admits {i n : Nat} (h : s.rd (Hid.hbmBg i) + n ≤ 288 * s.rd Hid.hbmPct) :
    s.hbmSpend i n = some (s.wr (Hid.hbmBg i) (s.rd (Hid.hbmBg i) + n)) := if_pos h

end
end Sys2Proof.Machine

namespace Sys2Proof
open Machine

/-- Settles O20. -/
theorem hbmAccessSteps : Obligations.HbmAccessSteps := by
  refine ⟨?read, ?write, ?merge, ?back, ?period, ?refresh, ?temp, ?neighbour, ?scrub, ?leak⟩
  case read =>
    intro w key a n errs bs s u t ha hu hread
    subst hu
    exact congrArg Host.Outcome.next ((if_pos ha).trans (readFor_answers hread))
  case write =>
    intro w key a data errs s u t ha hu hwrite
    subst hu
    exact congrArg Host.Outcome.next ((if_pos ha).trans (writeFor_answers hwrite))
  case merge =>
    intro w key a data errs s u t ha hu hwrite
    subst hu
    exact congrArg Host.Outcome.next ((if_pos ha).trans (writeFor_answers hwrite))
  case back =>
    intro key a s ha
    refine ⟨fun hnone => ?_, fun hback f hf => ⟨fun hspent => ?_, fun hfits t i y ht hi hy => ?_⟩⟩
    · exact congrArg Host.Outcome.next (if_neg (by simp only [hnone, Bool.and_false, Bool.false_eq_true, not_false_iff]))
    · subst hf
      refine congrArg Host.Outcome.next ((if_pos (by rw [ha, hback]; rfl)).trans ?_)
      rw [State.hbmSpend, if_neg (by omega)]
    · subst hf hi hy
      refine congrArg Host.Outcome.next ((if_pos (by rw [ha, hback]; rfl)).trans ?_)
      rw [hbmSpend_admits hfits, ← ht]
      exact writeBackLine_budget ha (Nat.mod_lt _ (by decide)) hback ht
  case period =>
    intro s hmig hbw
    refine ⟨(((s.hbmUnused.wr Hid.hbmBw 0).add Hid.hbmPeriods 1).wr (Hid.hbmShare 0) 360).wr (Hid.hbmShare 1) 16, ?_, ?only, ?_, ?_,
      ?_, ?pct, fun i => ?unused⟩
    · show execHbmSchedPeriod s = _
      simp only [execHbmSchedPeriod, hmig, hbw, bwShare, if_true, Bool.false_eq_true, if_false, Nat.reduceMul, Nat.reduceDiv]
      rfl
    case only =>
      have hunused := (hbmUnused_only s).mono (gs := [Hid.hbmBw, Hid.hbmPeriods, Hid.hbmShare 0, Hid.hbmShare 1, Hid.hbmPct]
        ++ (List.range 16).flatMap (fun i => [Hid.hbmBg i, Hid.hbmMigUsed i])) fun f hf =>
          List.mem_append.2 ((List.mem_cons.1 hf).imp (fun h => by simp [h]) id)
      exact (((hunused.wr 0 (by simp)).add 1 (by simp)).wr 360 (by simp)).wr 16 (by simp)
    case pct =>
      simp (disch := decide) only [State.add, State.rd_wr_ne]
      rw [State.hbmUnused, State.rd_each _ _ _ _ fun i hi v => ?_, State.rd_wr_same]
      · exact Nat.mod_eq_of_lt (State.rd_lt s _)
      · have hi' := List.mem_range.1 hi
        rw [State.rd_wr_ne _ _ (by with_unfolding_all (refine key_ne rfl rfl ?_; omega)),
          State.rd_wr_ne _ _ (by with_unfolding_all (refine key_ne rfl rfl ?_; omega))]
    case unused =>
      simp (disch := with_unfolding_all (refine key_ne rfl rfl ?_; omega)) only [State.add, State.rd_wr_ne]
      exact rd_hbmUnused s i
    all_goals
      simp (disch := decide) only [State.add, State.rd_wr_ne, State.rd_wr_same]
      rfl
  case refresh =>
    intro r b s hlive hmode
    refine ⟨⟨(s.wr (Hid.hbmDebt r b) (s.rd (Hid.hbmDebt r b) - 1)).add (Hid.hbmRefs r) 1, ?_,
      ((OnlyFields.refl _ s).wr _ (by simp)).add 1 (by simp), ?_⟩, fun hdebt => ⟨s.add (Hid.hbmDebt r b) 1, ?_,
      (OnlyFields.refl _ s).add 1 (by simp), ?_⟩⟩
    · show Host.Outcome.next _ = _
      simp [hlive, hmode]
    · rw [State.add, State.rd_wr_ne _ _ (by with_unfolding_all (refine key_ne rfl rfl ?_; omega)), State.rd_wr_same]
      exact Nat.mod_eq_of_lt (lt_of_le_of_lt (Nat.sub_le ..) (State.rd_lt s _))
    · show Host.Outcome.next _ = _
      rw [if_neg (by simp [hlive]), if_neg (by simp [hmode]), if_pos rfl, if_neg (by omega)]
    · rw [State.add, State.rd_wr_same]
      exact Nat.mod_eq_of_lt (by show _ < 16; omega)
  case temp =>
    intro d s m u hm hu
    subst hm hu
    refine ⟨fun hhot hwas => ?_, fun hcool hwas => ?_⟩
    · show execHbmTempRead d s = _
      simp only [execHbmTempRead]
      rw [if_pos hhot, hwas]
      rfl
    · show execHbmTempRead d s = _
      simp only [execHbmTempRead]
      have hhot : (if 16 * 85 ≤ max (16 * d.toNat) s.hbmDiodes then true
          else if max (16 * d.toNat) s.hbmDiodes ≤ 16 * 82 then false else s.on Reg.HBM_STAT_HOT) = false :=
        (if_neg (by omega)).trans (if_pos hcool)
      rw [hhot, hwas]
      rfl
  case neighbour =>
    intro i x l s hlive hrefs
    show Host.Outcome.next _ = _
    rw [hlive, hrefs]
  case scrub =>
    intro s hen hready hmig n i f hn hi hf hwait hfits u hu
    subst hn hi hf hu
    show execPatrolScrubLine s = _
    simp only [execPatrolScrubLine, hen, hready, hmig, hwait, hbmSpend_admits hfits]
    rfl
  case leak =>
    intro r s f g hf hg
    subst hf hg
    have hne : (Reg.HBM_PC_LB_LEVEL (r.val % 16) (r.val / 16)).key ≠ (Reg.HBM_PC_LB_TRIP (r.val % 16) (r.val / 16)).key := by
      with_unfolding_all (refine key_ne rfl rfl ?_; omega)
    refine ⟨_, rfl, leak_only .., ?_, ?_⟩
    · rw [rd_leak_level _ _ hne]
      exact Nat.mod_eq_of_lt (lt_of_le_of_lt (Nat.sub_le ..) (State.rd_lt s _))
    · split
      next h => exact rd_leak_trip _ _ h
      next h =>
        rw [State.leak, if_neg h, State.rd_wr_ne _ _ hne.symm]

end Sys2Proof
end

section

namespace Sys2Proof.Machine

/-! ### Steps that change registers alone -/

/-- Every component of the state but the registers is as it was. -/
def CellsOnly (s t : State) : Prop := t = { s with cells := t.cells }

section
variable {s t : State}

theorem CellsOnly.refl (s : State) : CellsOnly s s := rfl

theorem CellsOnly.wr (f : Fld) (v : Nat) (h : CellsOnly s t) : CellsOnly s (t.wr f v) := by
  unfold CellsOnly at h ⊢
  generalize t.cells = c at h
  subst h
  rfl

theorem CellsOnly.ite {c : Prop} [Decidable c] {u : State} (h : CellsOnly s t) (k : CellsOnly s u) :
    CellsOnly s (if c then t else u) := by
  split
  · exact h
  · exact k

theorem CellsOnly.each {α : Type} {l : List α} {f : α → State → State} (h : ∀ a ∈ l, ∀ v, CellsOnly s v → CellsOnly s (f a v))
    (ht : CellsOnly s t) : CellsOnly s (State.each l f t) := each_keeps h ht

end

/-! ### Bring-up of the HBM controller (R289 to R291) -/

section
variable (s : State)

/-- What training has found for each pseudo-channel. -/
def State.hbmTrained (m : List (Byte × Byte)) : State :=
  State.each (List.range 16) (fun i t => ((t.wr (Reg.HBM_PC_TRAIN_PASS i) 1).wr (Reg.HBM_PC_TRAIN_RD_MARGIN i)
    (m.getD i (0, 0)).1.toNat).wr (Reg.HBM_PC_TRAIN_WR_MARGIN i) (m.getD i (0, 0)).2.toNat) s

/-- The margins of one pseudo-channel, as training records them. -/
def State.HasMargins (i : Nat) (m : Byte × Byte) : Prop :=
  s.rd (Reg.HBM_PC_TRAIN_PASS i) = 1
    ∧ s.rd (Reg.HBM_PC_TRAIN_RD_MARGIN i) = m.1.toNat % 2 ^ (Reg.HBM_PC_TRAIN_RD_MARGIN i).w
    ∧ s.rd (Reg.HBM_PC_TRAIN_WR_MARGIN i) = m.2.toNat % 2 ^ (Reg.HBM_PC_TRAIN_WR_MARGIN i).w

theorem hbmTrained_margins (m : List (Byte × Byte)) (i : Fin 16) : (s.hbmTrained m).HasMargins i (m.getD i (0, 0)) := by
  refine each_establishes (P := fun v => v.HasMargins i (m.getD i (0, 0))) (k := i.val) (List.mem_range.2 i.isLt)
    (fun v => ⟨?_, ?_, ?_⟩) (fun j hj v hv => ?_) _
  · simp (disch := with_unfolding_all (refine key_ne rfl rfl ?_; omega)) only [State.rd_wr_ne, State.rd_wr_same]
    rfl
  · simp (disch := with_unfolding_all (refine key_ne rfl rfl ?_; omega)) only [State.rd_wr_ne, State.rd_wr_same]
  · exact State.rd_wr_same ..
  · have hj' := List.mem_range.1 hj
    by_cases hji : j = i.val
    · subst hji
      refine ⟨?_, ?_, ?_⟩
      · simp (disch := with_unfolding_all (refine key_ne rfl rfl ?_; omega)) only [State.rd_wr_ne, State.rd_wr_same]
        rfl
      · simp (disch := with_unfolding_all (refine key_ne rfl rfl ?_; omega)) only [State.rd_wr_ne, State.rd_wr_same]
      · exact State.rd_wr_same ..
    · unfold State.HasMargins at hv ⊢
      simpa (disch := with_unfolding_all (refine key_ne rfl rfl ?_; omega)) only [State.rd_wr_ne] using hv

/-- The rank records write the ranks' own registers. -/
theorem rd_applyRankRecs {g : Fld} (h : ∀ r < 64, g.key ≠ (Reg.HBM_RANK_ROLE r).key ∧ g.key ≠ (Reg.HBM_RANK_PHYS r).key
    ∧ g.key ≠ (Reg.HBM_RANK_BAD r).key) : s.applyRankRecs.rd g = s.rd g := by
  delta State.applyRankRecs
  extract_lets m role s1
  have hroles : s1.rd g = s.rd g := State.rd_each _ _ _ _ fun r hr v => by
    have hr' := List.mem_range.1 hr
    obtain ⟨hrole, hphys, -⟩ := h r (by omega)
    rw [State.rd_wr_ne _ _ hphys, State.rd_wr_ne _ _ hrole]
  rw [← hroles]
  refine State.rd_each _ _ _ _ fun p hp v => ?_
  obtain ⟨x, -, rfl⟩ := List.mem_map.1 hp
  obtain ⟨hrole1, hphys1, hbad1⟩ := h (bits x 27 22) (bits_lt x 27 22)
  obtain ⟨hrole2, -, -⟩ := h (bits x 21 16) (bits_lt x 21 16)
  dsimp only
  rw [rd_ite, State.rd_wr_ne _ _ hbad1, State.rd_wr_ne _ _ hrole2, State.rd_wr_ne _ _ hrole1, State.rd_wr_ne _ _ hphys1, ite_self]

theorem applyRankRecs_cells {t : State} (h : CellsOnly s t) : CellsOnly s t.applyRankRecs := by
  delta State.applyRankRecs
  extract_lets m role s1
  refine CellsOnly.each (fun p _ v hv => ?_) (CellsOnly.each (fun r _ v hv => (hv.wr _ _).wr _ _) h)
  exact .ite (hv.wr _ _) (((hv.wr _ _).wr _ _).wr _ _)

theorem hbmFillTo_mem (n : Nat) : (s.hbmFillTo n).mem = Tab.delRange s.mem 0 (32 * n) := by
  delta State.hbmFillTo
  extract_lets s1 s2 s3 s4
  have h3 : s3.mem = s2.mem := mem_each fun _ _ _ => rfl
  have h4 : s4.mem = s3.mem := mem_each fun _ _ _ => rfl
  rw [State.wr_mem, h4, h3]
  rfl

/-- What a failed training has found for each pseudo-channel. -/
def State.hbmUntrained (m : List (Option (Byte × Byte))) : State :=
  State.each (List.range 16) (fun i t =>
    let x := m.getD i none
    ((t.wr (Reg.HBM_PC_TRAIN_PASS i) (b2n x.isSome)).wr (Reg.HBM_PC_TRAIN_RD_MARGIN i) (x.getD (0, 0)).1.toNat).wr
      (Reg.HBM_PC_TRAIN_WR_MARGIN i) (x.getD (0, 0)).2.toNat) s

theorem rd_hbmUntrained_pass (m : List (Option (Byte × Byte))) (i : Fin 16) :
    (s.hbmUntrained m).rd (Reg.HBM_PC_TRAIN_PASS i) = b2n (m.getD i none).isSome := by
  refine each_establishes (P := fun v => v.rd (Reg.HBM_PC_TRAIN_PASS i) = b2n (m.getD i none).isSome) (k := i.val)
    (List.mem_range.2 i.isLt) (fun v => ?_) (fun j hj v hv => ?_) _
  · dsimp only
    simp (disch := with_unfolding_all (refine key_ne rfl rfl ?_; omega)) only [State.rd_wr_ne, State.rd_wr_same]
    exact b2n_mod _ Nat.one_pos
  · have hj' := List.mem_range.1 hj
    by_cases hji : j = i.val
    · subst hji
      dsimp only
      simp (disch := with_unfolding_all (refine key_ne rfl rfl ?_; omega)) only [State.rd_wr_ne, State.rd_wr_same]
      exact b2n_mod _ Nat.one_pos
    · dsimp only
      simpa (disch := with_unfolding_all (refine key_ne rfl rfl ?_; omega)) only [State.rd_wr_ne] using hv

/-! ### The counters of the HBM controller (R293) -/

/-- The counters of a pseudo-channel are clear. -/
def State.PcClear (i : Nat) : Prop :=
  s.rd (Reg.HBM_PC_CE i) = 0 ∧ s.rd (Reg.HBM_PC_UE i) = 0 ∧ s.rd (Reg.HBM_PC_KMIS i) = 0 ∧ s.rd (Reg.HBM_PC_NREF i) = 0

theorem pcClear_each (i : Fin 16) : (State.each (List.range 16) (fun i t =>
    (((t.wr (Reg.HBM_PC_CE i) 0).wr (Reg.HBM_PC_UE i) 0).wr (Reg.HBM_PC_KMIS i) 0).wr (Reg.HBM_PC_NREF i) 0) s).PcClear i := by
  refine each_establishes (P := fun v => v.PcClear i) (k := i.val) (List.mem_range.2 i.isLt) (fun v => ?_) (fun j hj v hv => ?_) _
  · unfold State.PcClear
    simp (disch := with_unfolding_all (refine key_ne rfl rfl ?_; omega)) only [State.rd_wr_ne, State.rd_wr_same, Nat.zero_mod, and_self]
  · have hj' := List.mem_range.1 hj
    unfold State.PcClear at hv ⊢
    by_cases hji : j = i.val
    · subst hji
      simp (disch := with_unfolding_all (refine key_ne rfl rfl ?_; omega)) only [State.rd_wr_ne, State.rd_wr_same, Nat.zero_mod,
        and_self]
    · simpa (disch := with_unfolding_all (refine key_ne rfl rfl ?_; omega)) only [State.rd_wr_ne] using hv

/-- The bucket of a rank is empty. -/
def State.BucketClear (i k : Nat) : Prop := s.rd (Reg.HBM_PC_LB_LEVEL i k) = 0 ∧ s.rd (Reg.HBM_PC_LB_TRIP i k) = 0

theorem bucketClear_each (i : Fin 16) (k : Fin 3) : (State.each (List.range 48) (fun r t =>
    (t.wr (Reg.HBM_PC_LB_LEVEL (r % 16) (r / 16)) 0).wr (Reg.HBM_PC_LB_TRIP (r % 16) (r / 16)) 0) s).BucketClear i k := by
  refine each_establishes (P := fun v => v.BucketClear i k) (k := 16 * k.val + i.val) (List.mem_range.2 (by omega)) (fun v => ?_)
    (fun j hj v hv => ?_) _
  · rw [show (16 * k.val + i.val) % 16 = i.val by omega, show (16 * k.val + i.val) / 16 = k.val by omega]
    unfold State.BucketClear
    simp (disch := with_unfolding_all (refine key_ne rfl rfl ?_; omega)) only [State.rd_wr_ne, State.rd_wr_same, Nat.zero_mod, and_self]
  · have hj' := List.mem_range.1 hj
    unfold State.BucketClear at hv ⊢
    by_cases hji : j = 16 * k.val + i.val
    · rw [show j % 16 = i.val by omega, show j / 16 = k.val by omega]
      simp (disch := with_unfolding_all (refine key_ne rfl rfl ?_; omega)) only [State.rd_wr_ne, State.rd_wr_same, Nat.zero_mod,
        and_self]
    · simpa (disch := with_unfolding_all (refine key_ne rfl rfl ?_; omega)) only [State.rd_wr_ne] using hv

theorem hbmClrCnt_cells : CellsOnly s s.hbmClrCnt := by
  delta State.hbmClrCnt
  extract_lets s1 s2
  have h1 : CellsOnly s s1 := CellsOnly.each (fun i _ v hv => (((hv.wr _ _).wr _ _).wr _ _).wr _ _) (.refl s)
  have h2 : CellsOnly s s2 := CellsOnly.each (fun r _ v hv => (hv.wr _ _).wr _ _) h1
  exact (h2.wr _ _).wr _ _

theorem hbmClrCnt_scrub : s.hbmClrCnt.rd Reg.HBM_SCRUB_AMBIG = 0 ∧ s.hbmClrCnt.rd Reg.HBM_SCRUB_UE = 0 := by
  delta State.hbmClrCnt
  extract_lets s1 s2
  simp (disch := decide) only [State.rd_wr_ne, State.rd_wr_same, Nat.zero_mod, and_self]

theorem hbmClrCnt_pc (i : Fin 16) : s.hbmClrCnt.PcClear i := by
  delta State.hbmClrCnt
  extract_lets s1 s2
  have hkept {g : Fld} (hg : ∀ r < 48, g.key ≠ (Reg.HBM_PC_LB_LEVEL (r % 16) (r / 16)).key
      ∧ g.key ≠ (Reg.HBM_PC_LB_TRIP (r % 16) (r / 16)).key) : s2.rd g = s1.rd g := State.rd_each _ _ _ _ fun r hr v => by
    obtain ⟨hlevel, htrip⟩ := hg r (List.mem_range.1 hr)
    rw [State.rd_wr_ne _ _ htrip, State.rd_wr_ne _ _ hlevel]
  unfold State.PcClear
  simp (disch := with_unfolding_all (refine key_ne rfl rfl ?_; omega)) only [State.rd_wr_ne]
  rw [hkept fun r hr => ⟨?_, ?_⟩, hkept fun r hr => ⟨?_, ?_⟩, hkept fun r hr => ⟨?_, ?_⟩, hkept fun r hr => ⟨?_, ?_⟩]
  · exact pcClear_each s i
  all_goals with_unfolding_all (refine key_ne rfl rfl ?_; omega)

theorem hbmClrCnt_bucket (i : Fin 16) (k : Fin 3) : s.hbmClrCnt.BucketClear i k := by
  delta State.hbmClrCnt
  extract_lets s1 s2
  have h := bucketClear_each s1 i k
  unfold State.BucketClear at h ⊢
  simpa (disch := with_unfolding_all (refine key_ne rfl rfl ?_; omega)) only [State.rd_wr_ne] using h

end
end Sys2Proof.Machine

namespace Sys2Proof
open Machine

/-- Settles O21. -/
theorem hbmControlSteps : Obligations.HbmControlSteps := by
  refine ⟨?start, ?copy, ?done, ?enable, ?disable, ?trained, ?fault, ?filled, ?drained, ?migrate, ?log, ?counts⟩
  case start =>
    intro r sp s hqueue hmig hready hspare
    refine congrArg Host.Outcome.next ((if_pos (by simp [hqueue, hmig, hready])).trans ?_)
    rw [hspare]
  case copy =>
    intro s hmig hptr p d i j hp hi hd hj t0 t htake ht u hu
    subst hi hj hp hd
    refine congrArg Host.Outcome.next ((if_pos (by rw [hmig, decide_eq_true hptr]; rfl)).trans ?_)
    rw [htake]
    subst hu ht
    rfl
  case done =>
    intro s hmig hptr r sp u hr hsp hu
    subst hr hsp hu
    exact congrArg Host.Outcome.next (if_pos (by simp [hmig, hptr]))
  case enable =>
    intro fill s hst hbst u hu
    have hst' : u.rd Reg.HBM_STAT_STATE = 0 := by
      rw [hu, rd_ite, State.rd_wr_ne _ _ (by decide), hst, ite_self]
    have hbst' : u.bstIs 5 = false := by
      rw [← hbst, hu]
      unfold State.bstIs State.on
      simp (disch := decide) only [rd_ite, State.rd_wr_ne, ite_self]
    have hwrite : s.hbmCtrlWrite (1 + 2 * b2n fill) = u.hbmEnable := by
      rw [hu]
      cases fill <;> simp [State.hbmCtrlWrite, b2n, hst, bit]
    refine congrArg Host.Outcome.next (hwrite.trans ?_)
    simp [State.hbmEnable, hst', hbst']
  case disable =>
    intro fill s hmig hbst hfill
    have hwrite : s.hbmCtrlWrite (2 * b2n fill) = s.hbmDisable := by
      cases fill <;> simp [State.hbmCtrlWrite, b2n, ← hfill, bit]
    refine ⟨fun hst => ?_, fun hst => ?_⟩ <;>
      exact congrArg Host.Outcome.next (hwrite.trans (by simp [State.hbmDisable, hmig, hbst, hst]))
  case trained =>
    intro m s hst
    have hcells : CellsOnly s (((s.hbmTrained m).applyRankRecs).wr Hid.hbmSelfRef 0) := by
      refine (applyRankRecs_cells s (CellsOnly.each (fun i _ v hv => ?_) (.refl s))).wr _ _
      exact ((hv.wr _ _).wr _ _).wr _ _
    refine ⟨_, congrArg Host.Outcome.next (if_pos hst), ?_, ?_, fun i => ?_, ?_⟩
    · exact CellsOnly.ite ((hcells.wr _ _).wr _ _) (.ite ((hcells.wr _ _).wr _ _) (hcells.wr _ _))
    · dsimp only
      simp (disch := decide) only [rd_ite, State.rd_wr_ne, State.rd_wr_same, ite_self, Nat.zero_mod]
    · have hmargins := hbmTrained_margins s m i
      unfold State.HasMargins at hmargins
      simp (disch := with_unfolding_all (refine key_ne rfl rfl ?_; omega)) only [rd_ite, State.rd_wr_ne, ite_self]
      rw [rd_applyRankRecs _ fun r hr => ⟨?_, ?_, ?_⟩, rd_applyRankRecs _ fun r hr => ⟨?_, ?_, ?_⟩,
        rd_applyRankRecs _ fun r hr => ⟨?_, ?_, ?_⟩]
      · exact hmargins
      all_goals with_unfolding_all (refine key_ne rfl rfl ?_; omega)
    · dsimp only
      simp (disch := decide) only [rd_ite, State.rd_wr_ne, State.rd_wr_same]
      rfl
  case fault =>
    intro c m s hst
    refine ⟨fun hc => ?_, fun hc => ⟨_, congrArg Host.Outcome.next (if_pos hst), ?_, ?_, fun i => ?_⟩⟩
    · refine congrArg Host.Outcome.next ((if_pos hst).trans ?_)
      rw [if_pos hc]
    all_goals
      dsimp only
      rw [if_neg (not_not.2 hc), State.hbmEvt,
        rd_raiseB _ (by with_unfolding_all (refine calm rfl ?_; omega)) _ _ (by with_unfolding_all (refine key_ne rfl rfl ?_; omega))]
      simp (disch := with_unfolding_all (refine key_ne rfl rfl ?_; omega)) only [State.rd_wr_ne, State.rd_wr_same, hc]
    · rfl
    · split <;> rfl
    · exact rd_hbmUntrained_pass s m i
  case filled =>
    intro s hst
    refine ⟨congrArg Host.Outcome.next (if_pos hst), _, congrArg Host.Outcome.next (if_pos hst), ?_⟩
    dsimp only
    rw [State.wr_mem, State.wr_mem, State.wr_mem, hbmFillTo_mem]
    norm_num
  case drained =>
    intro s hst
    exact congrArg Host.Outcome.next (if_pos hst)
  case migrate =>
    intro r sp s hr hspare hready hmig hrole
    show Host.Outcome.next _ = _
    simp [State.hbmMigrate, hspare, hready, hmig, hr, hrole]
  case log =>
    intro s
    refine ⟨_, rfl, ?_, ?_, ?_, ?_, ?_, ?_⟩
    · iterate 12 refine OnlyFields.wr _ (by simp) ?_
      exact .refl _ s
    all_goals
      simp (disch := decide) only [State.hbmClrLog, List.foldl_cons, List.foldl_nil, State.rd_wr_ne, State.rd_wr_same, Nat.zero_mod]
  case counts =>
    intro s
    obtain ⟨hambig, hue⟩ := hbmClrCnt_scrub s
    exact ⟨s.hbmClrCnt, rfl, hbmClrCnt_cells s, hambig, hue, hbmClrCnt_pc s, hbmClrCnt_bucket s⟩

end Sys2Proof
end

section

namespace Sys2Proof.Machine

/-! ### Requests and routes (R302 to R310) -/

section
variable (s : State)

/-- The request that is issued while its NI has room. -/
theorem issue_room {i entry op key urg tid addr : Nat} {bytes : List (Option Byte)}
    (hroom : (s.packets.filter (fun p => p.src == i && !late p && (p.op == 0) == (op == 0))).length < 64) {p : Pkt}
    (hp : p = s.newPkt i entry op key urg tid addr bytes) :
    s.issue i entry op key urg tid addr bytes = ((s.enqueue p).launch p).answer .ok [] := by
  rw [State.issue, if_neg (by omega), hp]

theorem travel_on {p : Pkt} {x y : RStop} (r : List RStop) {w : Nat} (l : List Nat) (hgrant : s.granted p (s.stepped p w).urg x = true)
    (henter : s.enters x y = true) : s.travel p (x :: y :: r) (w :: l) =
      ((s.wr (Hid.rrLast (tripOf p).net x.rtr x.outp) x.inp).probeHead false y.rtr y.inp (headOf (s.stepped p w))).travel
        (s.stepped p w) (y :: r) l := by
  rw [State.travel]
  simp only [List.headD_cons, List.tail_cons, hgrant, henter, Bool.and_self, if_true]

theorem travel_ends {p : Pkt} {x : RStop} {w : Nat} (l : List Nat) (hgrant : s.granted p (s.stepped p w).urg x = true) :
    s.travel p [x] (w :: l) = (s.stepped p w,
      (s.wr (Hid.rrLast (tripOf p).net x.rtr x.outp) x.inp).probeHead true (tripOf p).dest 0 (headOf (s.stepped p w))) := by
  rw [State.travel]
  simp only [List.headD_cons, hgrant, Bool.and_self, if_true]

theorem travel_stops {p : Pkt} {x y : RStop} (r : List RStop) {w : Nat} (l : List Nat)
    (h : s.granted p (s.stepped p w).urg x = false ∨ s.enters x y = false) : s.travel p (x :: y :: r) (w :: l) = (p, s) := by
  rw [State.travel]
  simp only [List.headD_cons, Bool.and_eq_true]
  refine if_neg fun hboth => ?_
  rcases h with h | h <;> simp [h] at hboth

/-- The held contents of an entry in force. -/
def State.routeCommitted (i e : Nat) : State :=
  ((((((s.wr (Reg.NOC_RT_ROUTE_DIR i e) (s.rd (Hid.rtPend i e))).wr (Reg.NOC_RT_ROUTE_HOPS i e) (s.rd (Hid.rtPend i e) / 2 ^ 48)).wr
    (Reg.NOC_RT_CTL_VALID i e) (s.rd (Hid.rtPend i e) / 2 ^ 53)).wr (Reg.NOC_RT_CTL_DST i e) (s.rd (Hid.rtPend i e) / 2 ^ 54)).wr
    (Reg.NOC_RT_CTL_URG i e) (s.rd (Hid.rtPend i e) / 2 ^ 61)).wr (Reg.NOC_RT_CTL_KEY i e) (s.rd (Hid.rtPend i e) / 2 ^ 64)).wr
    (Reg.NOC_RT_CTL_PENDING i e) 0

theorem routeCommit_held {i e : Nat} (hpend : s.on (Reg.NOC_RT_CTL_PENDING i e) = true) (hfree : s.entryBusy i e = false) :
    s.routeCommit i e = s.routeCommitted i e := by
  rw [State.routeCommit, if_neg (by simp [hpend, hfree]), State.routeCommitted]
  simp only [Nat.div_div_eq_div_mul]
  norm_num

end
end Sys2Proof.Machine

namespace Sys2Proof
open Machine

/-- Settles O22. -/
theorem requestSteps : Obligations.RequestSteps := by
  refine ⟨?request, ?deliver, ?travel, ?response, ?ack, ?update, ?commit⟩
  case request =>
    intro w route op key urg tid addr i n data s hi hroom bs hbs
    subst hbs
    refine ⟨fun h80 e p htarget hp => ?_, fun h80 p hp => ?_⟩
    · show execNocRequest w route op key (some urg) tid addr n data s = _
      simp only [execNocRequest, hi]
      rw [if_neg (by omega), htarget]
      exact congrArg Host.Outcome.next (issue_room s hroom hp)
    · show execNocRequest w route op key (some urg) tid addr n data s = _
      simp only [execNocRequest, hi]
      rw [if_pos h80]
      exact congrArg Host.Outcome.next (issue_room s hroom hp)
  case deliver =>
    intro id waits p q s u t hp hphase hpres htravel ht harr hposted
    subst ht
    show execNocDeliver id waits s = _
    simp [execNocDeliver, hp, hphase, hpres, htravel, harr, hposted]
  case travel =>
    intro p x y r w l s q hq t ht
    subst hq ht
    exact ⟨travel_on s r l, travel_ends s l, travel_stops s r l⟩
  case response =>
    intro id waits p s hp hop hans
    refine ⟨fun h3 => ?_, fun h3 q u hmove harr => ?_⟩
    · show execNocResponse id waits s = _
      simp [execNocResponse, hp, hop, hans, h3]
    · show execNocResponse id waits s = _
      simp [execNocResponse, hp, hop, hans, h3, hmove, harr]
  case ack =>
    intro id waits p s hp hop hphase q u hmove harr
    show execPostedAck id waits s = _
    simp [execPostedAck, hp, hop, hphase, hmove, harr]
  case update =>
    intro i e w s hset hlegal
    have hgood : (bit w.toNat 31 && !legalRoute i (bits w.toNat 22 16) (s.rd (Hid.rtStgDir i e)) (s.rd (Hid.rtStgHops i e))) = false := by
      cases hv : bit w.toNat 31
      · rfl
      · rw [hlegal hv]
        rfl
    refine congrArg Host.Outcome.next ?_
    simp only [State.routeUpdate, hset, if_true]
    rw [hgood, if_neg (by simp)]
  case commit =>
    intro i e s hpend hfree
    refine ⟨s.routeCommitted i e, congrArg Host.Outcome.next (routeCommit_held s hpend hfree), ?_, ?_, ?_, ?hops, ?_, ?_, ?_, ?_⟩
    · iterate 7 refine OnlyFields.wr _ (by simp) ?_
      exact .refl _ s
    case hops =>
      simp (disch := with_unfolding_all (refine key_ne rfl rfl ?_; omega)) only [State.routeCommitted, State.rd_wr_ne, State.rd_wr_same]
    all_goals
      simp (disch := with_unfolding_all (refine key_ne rfl rfl ?_; omega)) only [State.routeCommitted, State.rd_wr_ne, State.rd_wr_same]
      rfl

end Sys2Proof
end

section

namespace Sys2Proof.Machine

/-! ### The counters of the network (R319) -/

section
variable (s : State)

/-- The counts of a probe are clear. -/
def State.ProbeClear (k : Nat) : Prop := s.rd (Reg.NOC_PROBE_PKTS k) = 0 ∧ s.rd (Reg.NOC_PROBE_FLITS k) = 0
  ∧ s.rd (Reg.NOC_PROBE_LMAX k) = 0 ∧ s.rd (Reg.NOC_PROBE_LSUM k) = 0 ∧ s.rd (Reg.NOC_PROBE_LOST k) = 0

/-- The counts of an NI are clear. -/
def State.NiClear (i : Nat) : Prop :=
  s.rd (Reg.NOC_NI_DROP i) = 0 ∧ s.rd (Reg.NOC_NI_UNAV i) = 0 ∧ s.rd (Reg.NOC_NI_DROP_SRC_VALID i) = 0

def State.clrProbe (k : Nat) (s : State) : State :=
  ((((s.wr (Reg.NOC_PROBE_PKTS k) 0).wr (Reg.NOC_PROBE_FLITS k) 0).wr (Reg.NOC_PROBE_LMAX k) 0).wr (Reg.NOC_PROBE_LSUM k) 0).wr
    (Reg.NOC_PROBE_LOST k) 0

def State.clrNi (i : Nat) (s : State) : State :=
  (((((s.wr (Reg.NOC_NI_DROP i) 0).wr (Reg.NOC_NI_UNAV i) 0).wr (Reg.NOC_NI_DROP_SRC_VALID i) 0).wr
    (Reg.NOC_NI_DROP_SRC_KEY i) 0).wr (Reg.NOC_NI_DROP_SRC_SRC i) 0).wr (Reg.NOC_NI_DROP_ADDR i) 0

theorem nocClrCnt_eq : s.nocClrCnt = State.each (List.range 97) State.clrNi (State.each (List.range 8) State.clrProbe s) := rfl

theorem clrProbe_clear (k : Nat) : (State.clrProbe k s).ProbeClear k := by
  unfold State.ProbeClear State.clrProbe
  simp (disch := with_unfolding_all (refine key_ne rfl rfl ?_; omega)) only [State.rd_wr_ne, State.rd_wr_same, Nat.zero_mod, and_self]

theorem clrNi_clear (i : Nat) : (State.clrNi i s).NiClear i := by
  unfold State.NiClear State.clrNi
  simp (disch := with_unfolding_all (refine key_ne rfl rfl ?_; omega)) only [State.rd_wr_ne, State.rd_wr_same, Nat.zero_mod, and_self]

theorem nocClrCnt_ni (i : Fin 97) : s.nocClrCnt.NiClear i := by
  refine each_establishes (P := fun v => v.NiClear i) (List.mem_range.2 i.isLt) (fun v => clrNi_clear v i) (fun j hj v hv => ?_) _
  have hj' := List.mem_range.1 hj
  by_cases hji : j = i.val
  · exact hji ▸ clrNi_clear v j
  · unfold State.NiClear State.clrNi at *
    simpa (disch := with_unfolding_all (refine key_ne rfl rfl ?_; omega)) only [State.rd_wr_ne] using hv

theorem nocClrCnt_probe (k : Fin 8) : s.nocClrCnt.ProbeClear k := by
  rw [nocClrCnt_eq]
  refine each_keeps (P := fun v => v.ProbeClear k) (fun i hi v hv => ?_) (each_establishes (P := fun v => v.ProbeClear k)
    (List.mem_range.2 k.isLt) (fun v => clrProbe_clear v k) (fun j hj v hv => ?_) s)
  · have hi' := List.mem_range.1 hi
    unfold State.ProbeClear State.clrNi at *
    simpa (disch := with_unfolding_all (refine key_ne rfl rfl ?_; omega)) only [State.rd_wr_ne] using hv
  · have hj' := List.mem_range.1 hj
    by_cases hjk : j = k.val
    · exact hjk ▸ clrProbe_clear v j
    · unfold State.ProbeClear State.clrProbe at *
      simpa (disch := with_unfolding_all (refine key_ne rfl rfl ?_; omega)) only [State.rd_wr_ne] using hv

theorem nocClrCnt_cells : CellsOnly s s.nocClrCnt := by
  rw [nocClrCnt_eq]
  refine CellsOnly.each (fun i _ v hv => ?_) (CellsOnly.each (fun k _ v hv => ?_) (.refl s))
  · exact (((((hv.wr _ _).wr _ _).wr _ _).wr _ _).wr _ _).wr _ _
  · exact ((((hv.wr _ _).wr _ _).wr _ _).wr _ _).wr _ _

end
end Sys2Proof.Machine

namespace Sys2Proof
open Machine

/-- Settles O23. -/
theorem linkRouterSteps : Obligations.LinkRouterSteps := by
  refine ⟨?replay, ?retrain, ?drain, ?resume, ?drained, ?reconf, ?tmoRouter, ?tmoLink, ?tmo, ?barrier, ?counts⟩
  case replay =>
    intro m s hlink hst
    have hopen : (!isLink m || decide (2 ≤ s.rd (Reg.NOC_LINK_STAT_STATE m))) = false := by simp [hlink, hst]
    refine ⟨⟨((s.inc (Reg.NOC_LINK_STAT_RETRIES m) 1).wr (Hid.linkFails m) 0).wr (Reg.NOC_LINK_STAT_STATE m) 0, ?_, ?_,
      State.rd_wr_same .., ?_⟩, fun hfew => ⟨((s.inc (Reg.NOC_LINK_STAT_RETRIES m) 1).wr (Hid.linkFails m)
        (s.rd (Hid.linkFails m) + 1)).wr (Reg.NOC_LINK_STAT_STATE m) 1, ?_, ?_, State.rd_wr_same .., ?_⟩, fun hmany => ?_⟩
    · show Host.Outcome.next _ = _
      simp [hlink, hst]
    · exact (((OnlyFields.refl _ s).inc 1 (by simp)).wr 0 (by simp)).wr 0 (by simp)
    · rw [State.rd_wr_ne _ _ (by with_unfolding_all (refine key_ne rfl rfl ?_; omega)), State.rd_wr_same]
      rfl
    · show Host.Outcome.next _ = _
      rw [hopen, if_neg (by simp), if_neg (by simp), if_neg (by omega)]
    · exact (((OnlyFields.refl _ s).inc 1 (by simp)).wr _ (by simp)).wr 1 (by simp)
    · rw [State.rd_wr_ne _ _ (by with_unfolding_all (refine key_ne rfl rfl ?_; omega)), State.rd_wr_same]
      exact Nat.mod_eq_of_lt (by show _ < 32; omega)
    · show Host.Outcome.next _ = _
      rw [hopen, if_neg (by simp), if_neg (by simp), if_pos hmany]
  case retrain =>
    intro m s hst
    refine ⟨?_, ?_⟩
    · show Host.Outcome.next _ = _
      simp [hst, State.each]
    · show Host.Outcome.next _ = _
      simp [hst]
  case drain =>
    intro n s hn hst
    show Host.Outcome.next _ = _
    simp [State.nocDrain, State.rtrDrain, hn, hst]
  case resume =>
    intro n s hn hst hcause
    show Host.Outcome.next _ = _
    simp [State.nocResume, State.rtrActive, hn, hst, hcause]
  case drained =>
    intro n s hst hholds
    exact ⟨_, congrArg Host.Outcome.next (if_pos ⟨hst, hholds⟩), (OnlyFields.refl _ s).wr 2 (by simp), State.rd_wr_same ..⟩
  case reconf =>
    intro n ok s hst
    exact congrArg Host.Outcome.next (if_neg (by simp [hst]))
  case tmoRouter =>
    intro n s hst
    exact congrArg Host.Outcome.next (if_pos (by simp [hst]))
  case tmoLink =>
    intro m s hst
    exact congrArg Host.Outcome.next (if_pos (by simp [hst]))
  case tmo =>
    intro p part x s hphase hvoid
    have h2 : p.phase ≠ 2 := by omega
    have h3 : p.phase ≠ 3 := by omega
    refine ⟨fun hop hheld => ?_, fun hop hheld => ?_, fun hop hheld => ?_⟩ <;>
      simp [State.drainTmo, hop, hheld, hvoid, h2, h3]
  case barrier =>
    intro b rest s hbar hnone
    show execRecoveryBarrier s = _
    simp [execRecoveryBarrier, hbar, hnone]
  case counts =>
    intro s
    exact ⟨s.nocClrCnt, rfl, nocClrCnt_cells s, nocClrCnt_probe s, nocClrCnt_ni s⟩

end Sys2Proof
end

section

namespace Sys2Proof
open Machine

/-- Settles O24. -/
theorem complexSteps : Obligations.ComplexSteps := by
  refine ⟨?access, ?timer, ?watchdog, ?txWrite, ?txSent, ?rxByte, ?rxRead, ?send, ?recv, ?take, ?give, ?force⟩
  case access =>
    intro c m a z v s hst
    have hruns : ¬ (s.rd (Reg.MIL_CORE_STAT_STATE c) ≠ 1 ∧ s.rd (Reg.MIL_CORE_STAT_STATE c) ≠ 2) := by omega
    refine ⟨?_, fun hrange hmay => ?_, fun hrange => ?_⟩
    · exact congrArg Host.Outcome.next ((if_neg hruns).trans (if_pos rfl))
    · show execCoreMemoryAccess c .store m a z v [] false false s = _
      simp [execCoreMemoryAccess, hruns, State.each, hrange, hmay, accAtomic, accWrites]
    · show execCoreMemoryAccess c .load m a z v [] false false s = _
      simp [execCoreMemoryAccess, hruns, State.each, hrange, accAtomic, accWrites]
  case timer =>
    intro c s htime hrun hwait
    refine ⟨(s.wr (Hid.mtip c) 1).wr (Reg.MIL_CORE_STAT_STATE c) 2, ?_, ((OnlyFields.refl _ s).wr 1 (by simp)).wr 2 (by simp), ?_,
      State.rd_wr_same ..⟩
    · refine congrArg Host.Outcome.next ((if_pos ⟨htime, by simp [hrun]⟩).trans ?_)
      rw [hwait]
      rfl
    · rw [State.rd_wr_ne _ _ (by with_unfolding_all (refine key_ne rfl rfl ?_; omega)), State.rd_wr_same]
      rfl
  case watchdog =>
    intro c s hen hrun
    refine ⟨⟨_, congrArg Host.Outcome.next (if_pos ⟨rfl, hen, by simp [hrun]⟩), ((OnlyFields.refl _ s).wr _ (by simp)).wr 0 (by simp),
      ?_, State.rd_wr_same ..⟩, fun hlast => ?_⟩
    · rw [State.rd_wr_ne _ _ (by with_unfolding_all (refine key_ne rfl rfl ?_; omega)), State.rd_wr_same]
    · exact congrArg Host.Outcome.next (if_neg (by simp [hen, hrun, hlast]))
  case txWrite =>
    intro u w s hroom
    exact congrArg Host.Outcome.next (if_neg (by omega))
  case txSent =>
    intro u x l s hbusy hfifo
    refine congrArg Host.Outcome.next ((if_pos hbusy).trans ?_)
    rw [hfifo]
  case rxByte =>
    intro u x s hen hroom
    exact congrArg Host.Outcome.next ((if_neg (by simp [hen])).trans (congrArg State.milLevels (if_neg (by omega))))
  case rxRead =>
    intro u x l s hfifo
    show Host.Outcome.next _ = _
    rw [State.uartRead, hfifo]
    rfl
  case send =>
    intro k w s hroom
    exact congrArg (fun t => Host.Outcome.next (State.milLevels t)) (if_neg (by omega))
  case recv =>
    intro k x l s hfifo
    show Host.Outcome.next _ = _
    rw [State.mbRecv, hfifo]
    rfl
  case take =>
    intro i s hfree
    refine ⟨_, congrArg Host.Outcome.next (if_neg (by simp [hfree])), ?_, ?_, ?_, State.rd_wr_same ..⟩
    · iterate 3 refine OnlyFields.wr _ (by simp) ?_
      exact .refl _ s
    all_goals
      simp (disch := with_unfolding_all (refine key_ne rfl rfl ?_; omega)) only [State.rd_wr_ne, State.rd_wr_same]
      rfl
  case give =>
    intro m i s hheld howner
    refine ⟨_, congrArg Host.Outcome.next (if_pos (by simp [hheld, howner])), ?_, ?_, ?_, State.rd_wr_same ..⟩
    · iterate 3 refine OnlyFields.wr _ (by simp) ?_
      exact .refl _ s
    all_goals
      simp (disch := with_unfolding_all (refine key_ne rfl rfl ?_; omega)) only [State.semFree, State.rd_wr_ne, State.rd_wr_same]
      rfl
  case force =>
    intro m i s hm
    refine ⟨s.semFree i, ?_, ?_, ?_⟩
    · rcases hm with rfl | rfl <;> rfl
    · iterate 3 refine OnlyFields.wr _ (by simp) ?_
      exact .refl _ s
    · simp (disch := with_unfolding_all (refine key_ne rfl rfl ?_; omega)) only [State.semFree, State.rd_wr_ne, State.rd_wr_same]
      rfl

end Sys2Proof
end

section

namespace Sys2Proof.Machine

/-! ### Firmware loads (R335) -/

section
variable (s : State)

/-- A load that has begun, from a slot or from memory, before its header is read. -/
def State.fwBegun (mem slot : Nat) : State :=
  ((((s.wr Reg.MIL_STAT_FW_BUSY 1).wr Hid.fwMem mem).wr Hid.fwSlot slot).wr Hid.fwSrc (64 * s.rd Reg.MIL_FW_SRC)).wr Hid.fwAuto 0

theorem fwBegun_slot (slot : Fin 4) : (s.fwBegun 0 slot).fwBytes 0 256 =
    ((s.fwBegun 0 slot).dahBytes (0x1B000000 + slot * 0x01100000 + 64) 256, .ok, s.fwBegun 0 slot) := by
  have hmem : (s.fwBegun 0 slot).on Hid.fwMem = false := by
    simp (disch := decide) only [State.on, State.fwBegun, State.rd_wr_ne, State.rd_wr_same]
    rfl
  have hslot : (s.fwBegun 0 slot).rd Hid.fwSlot = slot := by
    simp (disch := decide) only [State.fwBegun, State.rd_wr_ne, State.rd_wr_same]
    exact Nat.mod_eq_of_lt slot.isLt
  rw [State.fwBytes, if_neg (by simp [hmem]), hslot]

theorem fwBegun_mem {h : List Byte} {r : MRes} {t : State}
    (hread : (s.fwBegun 1 0).coRead ((s.fwBegun 1 0).req .peony (s.fwBegun 1 0).milKey) ((s.fwBegun 1 0).rd Hid.fwSrc) 256 = (h, r, t)) :
    (s.fwBegun 1 0).fwBytes 0 256 = (h, r, t) := by
  have hmem : (s.fwBegun 1 0).on Hid.fwMem = true := by
    simp (disch := decide) only [State.on, State.fwBegun, State.rd_wr_ne, State.rd_wr_same]
    rfl
  rw [State.fwBytes, if_pos hmem, Nat.add_zero, hread]

/-- A load that is accepted: where its header and range are good, the range is blocked. -/
theorem fwLoad_accepted {mem : Bool} {slot : Nat} (hidle : s.on Reg.MIL_STAT_FW_BUSY = false) (hreset : s.coresInReset = true)
    {h : List Byte} {r : MRes} {t : State} (hread : (s.fwBegun (b2n mem) slot).fwBytes 0 256 = (h, r, t)) :
    s.fwLoad mem slot 0 = if r = .ok ∧ fwHeaderOk h ∧ t.fwRangeOk (hdrField h 16 8) (hdrField h 32 4) then
      ((t.wr Hid.fwProt 1).wr Hid.fwProtBase (hdrField h 16 8)).wr Hid.fwProtSize (hdrField h 32 4) else t := by
  rw [State.fwLoad, if_neg (by simp [hidle, hreset])]
  rw [State.fwBegun] at hread
  simp only [hread]

end
end Sys2Proof.Machine

namespace Sys2Proof
open Machine

/-- Settles O25. -/
theorem firmwareSteps : Obligations.FirmwareSteps := by
  refine ⟨?slot, ?mem, ?passed, ?source, ?start, ?reset, ?begin, ?done⟩
  case slot =>
    intro slot s u h hidle hreset hu hh
    subst hu hh
    refine congrArg Host.Outcome.next ((fwLoad_accepted s (mem := false) hidle hreset (fwBegun_slot s slot)).trans ?_)
    simp only [true_and]
    rfl
  case mem =>
    intro s u t h r hidle hreset hu hread
    subst hu
    exact congrArg Host.Outcome.next (fwLoad_accepted s (mem := true) hidle hreset (fwBegun_mem s hread))
  case passed =>
    intro s s1 s3 s4 h body hbusy hsrc hhead hok hrange hbody hcopy hkey hsvn
    show execFwLoadDone true true true s = _
    simp [execFwLoadDone, hbusy, hsrc, hhead, hok, hrange, hbody, hcopy, hkey, hsvn]
  case source =>
    intro r d g s hbusy hsrc
    show execFwLoadDone r d g s = _
    simp [execFwLoadDone, hbusy, hsrc]
  case start =>
    intro cores s hloaded hsome hbst hall
    refine congrArg Host.Outcome.next ?_
    rw [State.milStart]
    rw [hall, hloaded, hsome, hbst]
    rfl
  case reset =>
    intro cores s hne
    exact congrArg Host.Outcome.next (if_neg (by omega))
  case begin =>
    intro s a n ha hn hrange hidle hbst go
    subst ha hn
    have hbegun (op : Nat) : s.cmoCmd op = go op := by
      simp only [State.cmoCmd, hrange, hidle, hbst]
      rfl
    exact ⟨congrArg Host.Outcome.next (hbegun 0), congrArg Host.Outcome.next (hbegun 1), congrArg Host.Outcome.next (hbegun 2)⟩
  case done =>
    intro s hbusy hop
    show execCmoDone s = _
    simp [execCmoDone, hbusy, hop]

end Sys2Proof
end

section

namespace Sys2Proof.Machine

/-- The job of the operation named is the one that Millstone takes (R338). -/
theorem mstTake_taken {s t c u : State} {op r : Nat} {d : List Byte} (hidle : s.rd Reg.MST_STAT_STATE = 1) (hring : s.mstNextRing = some r)
    (hread : s.coRead (s.req .millstone (s.rd (Reg.MST_RING_KEY r))) (s.mstDescAddr r) 128 = (d, .ok, t)) (hop : ofLeBytes d % 16 = op)
    (hc : c = [Hid.mstEnd, Hid.mstCause, Hid.mstSel, Hid.mstOut, Hid.mstRead, Hid.mstLost, Hid.mstBad, Hid.mstOver, Hid.mstRun,
      Hid.mstTrunc, Hid.mstLimit, Hid.mstStale, Hid.mstIdx, Hid.mstPorts 0, Hid.mstPorts 1, Hid.mstPorts 2,
      Hid.mstPorts 3].foldl (fun v f => v.clr f) t)
    (hu : u = ((((((({ c with mstQueue := [] } : State).wr Hid.mstDesc (ofLeBytes d)).wr Hid.mstRr r).wr Reg.MST_STAT_RING r).wr
      Reg.MST_STAT_STATE 2).wr Reg.MST_JOB_ADDR (s.mstDescAddr r)).answer .ok []).jobSetUp) (hheld : u.last.res ≠ .held) :
    s.mstTake op = u := by
  have hmine : ¬ (ofLeBytes d % 16 ≠ op ∧ 1 ≤ ofLeBytes d % 16 ∧ ofLeBytes d % 16 ≤ 4) := fun h => h.1 hop
  rw [State.mstTake, if_neg (by simp [hidle]), hring]
  simp only [hread, reduceCtorEq, if_false, if_true]
  rw [if_neg hmine, ← hc, ← hu, if_neg hheld]

end Sys2Proof.Machine

namespace Sys2Proof
open Machine

/-- Settles O26. -/
theorem jobSteps : Obligations.JobSteps := by
  refine ⟨?ring, ?take, ?block, ?close, ?start, ?stop, ?counts⟩
  case ring =>
    intro r w s hfits
    exact ⟨_, congrArg Host.Outcome.next (if_neg (by omega)), (OnlyFields.refl _ s).wr _ (by simp),
      (State.rd_wr_same ..).trans (Nat.mod_eq_of_lt w.isLt)⟩
  case take =>
    intro op r d s t hidle hring hread hop c u hc hu hheld
    have htaken := mstTake_taken hidle hring hread hop hc hu hheld
    fin_cases op <;> exact congrArg Host.Outcome.next htaken
  case block =>
    intro b l s hst hend hstale hwaits hqueue hover
    show execMstBlockRead s = _
    simp [execMstBlockRead, hst, hend, hstale, hwaits, hqueue, hover]
  case close =>
    intro s hst
    refine ⟨fun hend => ?_, fun hend hstale hqueue hdrained => ?_⟩
    · exact congrArg Host.Outcome.next ((if_neg (by omega)).trans (if_pos hend))
    · show execMstJobEnd s = _
      have hlast : ¬ (s.jobOp = 4 ∧ (!(Tab.getD s.streams s.jobQueue []).isEmpty) = true) := by
        rintro ⟨hop, hsome⟩
        rcases hdrained with h | h
        · exact h hop
        · rw [h] at hsome
          cases hsome
      rw [execMstJobEnd, if_neg (by omega), if_neg (by omega), if_neg (by simp [hstale]), if_neg (by simp [hqueue]), if_neg hlast]
  case start =>
    intro s hst hbst
    exact ⟨_, congrArg Host.Outcome.next (if_pos ⟨hst, by simp [hbst]⟩), (OnlyFields.refl _ s).wr 1 (by simp), State.rd_wr_same ..⟩
  case stop =>
    intro s
    refine ⟨fun hst => ?_, fun hst => ⟨?_, ?_⟩⟩
    · exact ⟨_, congrArg Host.Outcome.next ((if_neg (by omega)).trans (if_pos hst)), (OnlyFields.refl _ s).wr 0 (by simp),
        State.rd_wr_same ..⟩
    · exact ⟨_, congrArg Host.Outcome.next ((if_neg (by omega)).trans (if_neg (by omega))), (OnlyFields.refl _ s).wr 1 (by simp),
        State.rd_wr_same ..⟩
    · refine ⟨_, congrArg Host.Outcome.next (if_pos hst), ((OnlyFields.refl _ s).wr 2 (by simp)).wr 0 (by simp), ?_,
        State.rd_wr_same ..⟩
      rw [State.jobOver, State.rd_wr_ne _ _ (by decide), State.rd_wr_same]
      rfl
  case counts =>
    intro s
    refine ⟨_, rfl, ((OnlyFields.refl _ s).wr 0 (by simp)).wr 0 (by simp), ?_, State.rd_wr_same ..⟩
    rw [State.mstClrCnt, State.rd_wr_ne _ _ (by decide), State.rd_wr_same]
    rfl

end Sys2Proof
end

section

namespace Sys2Proof.Machine

/-! ### What an event changes besides registers -/

/-- Every component of the state but the registers, the packets and the outputs is as it was. -/
def EventFrame (s t : State) : Prop := t = { s with cells := t.cells, packets := t.packets, out := t.out }

section
variable {s t : State}

theorem EventFrame.refl (s : State) : EventFrame s s := rfl

theorem EventFrame.wr (f : Fld) (v : Nat) (h : EventFrame s t) : EventFrame s (t.wr f v) := by
  unfold EventFrame at h ⊢
  generalize t.cells = c at h
  generalize t.packets = p at h
  generalize t.out = o at h
  subst h
  rfl

theorem EventFrame.emit (x : Out) (h : EventFrame s t) : EventFrame s (t.emit x) := by
  unfold EventFrame at h ⊢
  generalize t.cells = c at h
  generalize t.packets = p at h
  generalize t.out = o at h
  subst h
  rfl

theorem EventFrame.post (p : Pkt) (h : EventFrame s t) : EventFrame s { t with packets := t.packets ++ [p] } := by
  unfold EventFrame at h ⊢
  generalize t.cells = c at h
  generalize t.packets = p at h
  generalize t.out = o at h
  subst h
  rfl

theorem EventFrame.ite {c : Prop} [Decidable c] {u : State} (h : EventFrame s t) (k : EventFrame s u) :
    EventFrame s (if c then t else u) := by
  split
  · exact h
  · exact k

theorem EventFrame.niCounts (i : Nat) (h : EventFrame s t) : EventFrame s (t.niCounts i) := by
  delta State.niCounts
  extract_lets mine rdn wrn s1
  exact .ite ((((h.wr _ _).wr _ _).wr _ _).wr _ _) ((h.wr _ _).wr _ _)

theorem EventFrame.enqueue (p : Pkt) (h : EventFrame s t) : EventFrame s (t.enqueue p) := by
  unfold State.enqueue State.add
  exact ((h.post p).wr _ _).niCounts _

theorem EventFrame.evtFab (e : Nat) (h : EventFrame s t) : EventFrame s (t.evtFab e) := by
  unfold State.evtFab State.sysPost
  exact .ite h (h.enqueue _)

theorem EventFrame.evtTout (e : Nat) (h : EventFrame s t) : EventFrame s (t.evtTout e) := by
  unfold State.evtTout
  exact .ite ((h.wr _ _).wr _ _) h

theorem EventFrame.msixSend (v : Nat) (h : EventFrame s t) : EventFrame s (t.msixSend v) := by
  unfold State.msixSend
  exact .ite (h.wr _ _) (h.emit _)

theorem EventFrame.raise (e : Nat) (h : EventFrame s t) : EventFrame s (t.raise e) := by
  delta State.raise
  extract_lets was s1 s2
  have h1 : EventFrame s s1 := h.wr _ _
  have h2 : EventFrame s s2 := .ite (h1.msixSend _) h1
  exact .ite h1 ((h2.evtFab e).evtTout e)

theorem EventFrame.raiseB (f : Fld) (i e : Nat) (h : EventFrame s t) : EventFrame s (t.raiseB f i e) := (h.wr f _).raise e

theorem EventFrame.streams_eq (h : EventFrame s t) : t.streams = s.streams := by rw [h]

theorem EventFrame.loHeld_eq (h : EventFrame s t) : t.loHeld = s.loHeld := by rw [h]

theorem EventFrame.mem_eq (h : EventFrame s t) : t.mem = s.mem := by rw [h]

end

/-! ### A reset of the host port (R353) -/

section
variable (s : State) (down : Bool)

/-- What a job of Millstone leaves of its stream. -/
theorem rd_mstHostReset {g : Fld} (hend : g.key ≠ Hid.mstEnd.key) (hcause : g.key ≠ Hid.mstCause.key)
    (hfin : ∀ q < 64, g.key ≠ (Hid.strFin q).key) : s.mstHostReset.rd g = s.rd g := by
  have hq : s.jobQueue < 64 := by
    unfold State.jobQueue bits
    exact Nat.mod_lt _ (by decide)
  unfold State.mstHostReset
  rw [rd_ite, State.jobOver, State.rd_wr_ne _ _ hcause, State.rd_wr_ne _ _ hend, State.streamCut, State.rd_wr_ne _ _ (hfin _ hq)]
  exact ite_self _

/-- The state of the host port after the reset of its blocks, with the fields kept. -/
def State.hostBlocksReset : State :=
  s.mstHostReset.keeping (if down then [Reg.HST_STAT_READY] else
    [Reg.HST_STAT_READY, Reg.HST_STAT_LINK_UP, Reg.HST_LINK_STAT_WIDTH, Reg.HST_LINK_STAT_SPEED])
    (fun t => (t.resetBlocks 0x009 0x00A).resetBlocks Hid.grpHST.1 Hid.grpHST.2)

/-- The MSI-X table after a reset. -/
def State.msixReset : State := State.each (List.range 512) (fun v t =>
  (((t.clr (Hid.msixAddr v)).clr (Hid.msixData v)).clr (Hid.msixMask v)).clr (Hid.msixPba v)) s

/-- What a reset of the host port leaves, before its event. -/
def State.hostCleared : State :=
  (({ (s.hostBlocksReset down).msixReset with streams := [] }.discardMaster 0).clr Hid.msixEnable).clr Hid.msixFnMask

theorem hostReset_eq : s.hostReset down = (s.hostCleared down).hstEvt 5 := by
  cases down <;> rfl

theorem mem_mstHostReset : s.mstHostReset.mem = s.mem := by
  unfold State.mstHostReset
  rw [mem_ite]
  exact ite_self _

theorem mem_foldl_wr (F : Fld → Nat) (fs : List Fld) : (fs.foldl (fun t f => t.wr f (F f)) s).mem = s.mem :=
  mem_foldl id fun _ _ _ => rfl

theorem mem_hostBlocksReset : (s.hostBlocksReset down).mem = s.mem := by
  unfold State.hostBlocksReset State.keeping
  rw [mem_foldl_wr]
  exact mem_mstHostReset s

theorem mem_msixReset : s.msixReset.mem = s.mem := mem_each fun _ _ _ => rfl

theorem rd_msixReset {g : Fld} (h : ∀ v < 512, g.key ≠ (Hid.msixAddr v).key ∧ g.key ≠ (Hid.msixData v).key
    ∧ g.key ≠ (Hid.msixMask v).key ∧ g.key ≠ (Hid.msixPba v).key) : s.msixReset.rd g = s.rd g :=
  State.rd_each _ _ _ _ fun v hv t => by
    obtain ⟨haddr, hdata, hmask, hpba⟩ := h v (List.mem_range.1 hv)
    rw [State.rd_clr_ne _ hpba, State.rd_clr_ne _ hmask, State.rd_clr_ne _ hdata, State.rd_clr_ne _ haddr]

theorem rd_hostBlocksReset_ready : (s.hostBlocksReset down).rd Reg.HST_STAT_READY = s.rd Reg.HST_STAT_READY := by
  have hready : s.mstHostReset.rd Reg.HST_STAT_READY = s.rd Reg.HST_STAT_READY :=
    rd_mstHostReset s (by decide) (by decide) fun q hq => by with_unfolding_all (refine key_ne rfl rfl ?_; omega)
  unfold State.hostBlocksReset State.keeping
  cases down
  all_goals
    simp (disch := decide) only [Bool.false_eq_true, if_false, if_true, List.foldl_cons, List.foldl_nil, State.rd_wr_ne, State.rd_wr_same,
      hready]
    exact Nat.mod_eq_of_lt (State.rd_lt s _)

theorem rd_hostBlocksReset_linkUp : (s.hostBlocksReset down).rd Reg.HST_STAT_LINK_UP =
    if down then 0 else s.rd Reg.HST_STAT_LINK_UP := by
  have hup : s.mstHostReset.rd Reg.HST_STAT_LINK_UP = s.rd Reg.HST_STAT_LINK_UP :=
    rd_mstHostReset s (by decide) (by decide) fun q hq => by with_unfolding_all (refine key_ne rfl rfl ?_; omega)
  unfold State.hostBlocksReset State.keeping
  cases down
  · simp (disch := decide) only [Bool.false_eq_true, if_false, List.foldl_cons, List.foldl_nil, State.rd_wr_ne, State.rd_wr_same, hup]
    exact Nat.mod_eq_of_lt (State.rd_lt s _)
  · simp (disch := decide) only [if_true, List.foldl_cons, List.foldl_nil, State.rd_wr_ne]
    rw [State.rd_resetBlocks, if_neg (by decide), State.rd_resetBlocks, if_pos (by decide)]
    rfl

/-- What is read of the fields that are neither the event's nor the MSI-X table's. -/
theorem rd_hostReset {g : Fld} (hcalm : g.Calm 245) (hevt : g.key ≠ Reg.HST_EVT_EVT.key) (hen : g.key ≠ Hid.msixEnable.key)
    (hfn : g.key ≠ Hid.msixFnMask.key) (h : ∀ v < 512, g.key ≠ (Hid.msixAddr v).key ∧ g.key ≠ (Hid.msixData v).key
      ∧ g.key ≠ (Hid.msixMask v).key ∧ g.key ≠ (Hid.msixPba v).key) : (s.hostReset down).rd g = (s.hostBlocksReset down).rd g := by
  rw [hostReset_eq, State.hstEvt, rd_raiseB _ hcalm _ _ hevt, State.hostCleared, State.rd_clr_ne _ hfn, State.rd_clr_ne _ hen,
    State.discardMaster, State.discard, rd_mk, rd_mk, rd_msixReset _ h]

theorem hostReset_frame : EventFrame (s.hostCleared down) (s.hostReset down) := by
  rw [hostReset_eq]
  exact (EventFrame.refl _).raiseB _ _ _

theorem mem_hostReset : (s.hostReset down).mem = s.mem := by
  rw [(hostReset_frame s down).mem_eq, State.hostCleared, State.clr_mem, State.clr_mem, State.discardMaster, State.discard]
  dsimp only
  rw [mem_msixReset, mem_hostBlocksReset]

theorem streams_hostReset : (s.hostReset down).streams = [] := (hostReset_frame s down).streams_eq

/-- No half that the host has written waits any more. -/
theorem loHeld_hostReset : ∀ e ∈ (s.hostReset down).loHeld, e.1 / 2 ^ 32 ≠ 0 := by
  rw [(hostReset_frame s down).loHeld_eq, State.hostCleared, State.clr_loHeld, State.clr_loHeld, State.discardMaster, State.discard]
  dsimp only
  intro e he
  simpa using (List.mem_filter.1 he).2

theorem ready_hostReset : (s.hostReset down).rd Reg.HST_STAT_READY = s.rd Reg.HST_STAT_READY := by
  rw [rd_hostReset s down (by with_unfolding_all (refine calm rfl ?_; omega)) (by decide) (by decide) (by decide),
    rd_hostBlocksReset_ready]
  intro v hv
  with_unfolding_all exact ⟨key_ne rfl rfl (by omega), key_ne rfl rfl (by omega), key_ne rfl rfl (by omega), key_ne rfl rfl (by omega)⟩

theorem linkUp_hostReset : (s.hostReset down).rd Reg.HST_STAT_LINK_UP = if down then 0 else s.rd Reg.HST_STAT_LINK_UP := by
  rw [rd_hostReset s down (by with_unfolding_all (refine calm rfl ?_; omega)) (by decide) (by decide) (by decide),
    rd_hostBlocksReset_linkUp]
  intro v hv
  with_unfolding_all exact ⟨key_ne rfl rfl (by omega), key_ne rfl rfl (by omega), key_ne rfl rfl (by omega), key_ne rfl rfl (by omega)⟩

end
end Sys2Proof.Machine

namespace Sys2Proof
open Machine

/-- Settles O27. -/
theorem hostAccessSteps : Obligations.HostAccessSteps := by
  refine ⟨?config, ?bar0, ?bar2Read, ?bar2Write, ?msix, ?reset, ?link, ?aer⟩
  case config =>
    intro r w s hready
    refine ⟨?_, ?_⟩ <;> exact congrArg Host.Outcome.next (if_neg (by simp [hready]))
  case bar0 =>
    intro x w s hup hx
    have haligned : ¬ ((4 : Fin 4097).val ≠ 4 ∨ x.toNat % 4 ≠ 0) := by
      rintro (h | h)
      · exact h rfl
      · exact h hx
    exact ⟨fun hok => congrArg Host.Outcome.next ((if_neg (by simp [hup])).trans ((if_neg haligned).trans (if_neg hok))),
      fun hok => congrArg Host.Outcome.next ((if_neg (by simp [hup])).trans ((if_neg haligned).trans (if_neg hok)))⟩
  case bar2Read =>
    intro x n a key urg bs s t hup hwin
    refine ⟨fun hrange hread => ?_, fun m hrange => ?_⟩
    · show execBar2Read x n s = _
      simp [execBar2Read, hup, hwin, hrange, hread]
    · show execBar2Read x n s = _
      simp [execBar2Read, hup, hwin, hrange]
  case bar2Write =>
    intro x d a key urg s t hup hwin
    refine ⟨fun hrange hwrite => ?_, fun m hrange => ?_⟩
    · show execBar2Write x d s = _
      simp [execBar2Write, hup, hwin, hrange, hwrite]
    · show execBar2Write x d s = _
      simp [execBar2Write, hup, hwin, hrange]
  case msix =>
    intro v w s
    have hdata : (4 * v.val + 2) / 4 = v.val ∧ (4 * v.val + 2) % 4 = 2 ∧ 4 * v.val + 2 < 2048 := by omega
    have haddr : 4 * v.val / 4 = v.val ∧ 4 * v.val % 4 = 0 ∧ 4 * v.val < 2048 := by omega
    refine ⟨?_, ?_, ?_⟩
    · show Host.Outcome.next _ = _
      simp [hdata, State.msixTableWrite]
    · show Host.Outcome.next _ = _
      simp [haddr, State.msixTableWrite]
    · show Host.Outcome.next _ = _
      simp [hdata, State.msixRead]
  case reset =>
    intro k s
    refine ⟨s.hostReset (k == .linkDown), rfl, mem_hostReset .., streams_hostReset .., ready_hostReset .., ?_, loHeld_hostReset s _⟩
    rw [linkUp_hostReset]
    cases k <;> rfl
  case link =>
    intro sp wd s hsp hwd hperst hphase t ht
    subst ht
    refine congrArg Host.Outcome.next ((if_neg (by simp [hsp, hwd])).trans (if_neg (by simp [hperst, hphase])))
  case aer =>
    intro u s
    cases u <;> rfl

end Sys2Proof
end

section

namespace Sys2Proof.Machine

/-! ### What the network and the caches keep on the way of an access (R299 to R318, R324, R325)

Beside the logs of the services, a trip writes the round robin of the outputs that it takes (R308) and the probes that watch it
(R317); a field of a unit that stands below the network's hidden places is neither. -/

variable {g : Fld} [Quiet g]

theorem quiet_traceRec (s : State) {k : Nat} (hk : k < 8) (port : Nat) (h : Head) : (s.traceRec k port h).rd g = s.rd g := by
  unfold State.traceRec
  dsimp only
  split
  · simp (disch := with_unfolding_all (refine noisy rfl ?_; omega))
  · split <;> simp (disch := with_unfolding_all (refine noisy rfl ?_; omega))

@[simp] theorem quiet_probeHead (s : State) (ni : Bool) (point port : Nat) (h : Head) :
    (s.probeHead ni point port h).rd g = s.rd g := by
  refine quiet_each fun k hk t => ?_
  have hk := List.mem_range.1 hk
  dsimp only
  split_ifs
  · simp (disch := with_unfolding_all (refine noisy rfl ?_; omega))
  · exact quiet_traceRec t hk port h
  · rfl
  · rfl

@[simp] theorem quiet_inject (s : State) (p : Pkt) (w : Nat) : (s.inject p w).2.rd g = s.rd g := by
  unfold State.inject
  dsimp only
  split <;> simp

@[simp] theorem quiet_probeLatency (s : State) (p : Pkt) : (s.probeLatency p).rd g = s.rd g := by
  refine quiet_each fun k hk t => ?_
  have hk := List.mem_range.1 hk
  dsimp only
  split
  · simp (disch := with_unfolding_all (refine noisy rfl ?_; omega))
  · rfl

/-- A field below the hidden places of the network. -/
def Fld.BelowNoc (g : Fld) : Prop := g.key < 0x108B * 2 ^ 26

omit [Quiet g] in
theorem rd_wr_rrLast (hlow : g.BelowNoc) (s : State) (net r o v : Nat) : (s.wr (Hid.rrLast net r o) v).rd g = s.rd g := by
  refine State.rd_wr_ne s v fun e => ?_
  have hkey : (Hid.rrLast net r o).key = (0x108B * 1048576 + (0x1000 + (net * 80 + r) * 8 + o)) * 64 + 0 := by
    with_unfolding_all rfl
  have hlow : g.key < 0x108B * 2 ^ 26 := hlow
  omega

section
variable (hlow : g.BelowNoc)
include hlow

theorem quiet_travel (s : State) (p : Pkt) (l : List RStop) (ws : List Nat) : (s.travel p l ws).2.rd g = s.rd g := by
  induction l generalizing s p ws with
  | nil => rfl
  | cons x r ih =>
    unfold State.travel
    dsimp only
    split_ifs
    · cases r with
      | nil => simp [rd_wr_rrLast hlow]
      | cons y r' => simp [ih, rd_wr_rrLast hlow]
    · rfl

theorem quiet_passPiece (s : State) (i op key urg tid a n : Nat) : (s.passPiece i op key urg tid a n).2.rd g = s.rd g := by
  unfold State.passPiece
  split
  · rfl
  · split
    · dsimp only
      split_ifs
      · rfl
      · simp [quiet_travel hlow]
      · rfl
    · rfl

theorem quiet_passAll (s : State) (i op key urg tid : Nat) (l : List (Nat × Nat)) :
    (s.passAll i op key urg tid l).2.rd g = s.rd g := by
  induction l generalizing s with
  | nil => rfl
  | cons x r ih =>
    have hpiece := quiet_passPiece hlow s i op key urg tid x.1 x.2
    unfold State.passAll
    split
    next t h => rw [ih, ← hpiece, h]
    · rfl

theorem quiet_netPass (s : State) (q : Req) (u : Option Nat) (op tid a n : Nat) : (s.netPass q u op tid a n).2.rd g = s.rd g := by
  unfold State.netPass
  split
  · rfl
  next i _ =>
    split
    next t h => exact quiet_of_eq_mk h (quiet_passAll hlow ..)
    · rfl

theorem quiet_netFor (s : State) (q : Req) (u : Option Nat) (wr : Bool) (a n : Nat) : (s.netFor q u wr a n).2.rd g = s.rd g := by
  unfold State.netFor
  split
  next t h => exact quiet_guard s h
  · exact quiet_netPass hlow ..

theorem quiet_lineWrite (s : State) (a : Nat) (d : List Byte) : (s.lineWrite a d).2.rd g = s.rd g := by
  have hnet := quiet_netFor hlow s (s.req .miller s.milKey) none true a d.length
  unfold State.lineWrite
  split
  next t h => rw [quiet_memWrite, ← hnet, h]
  next r t _ h => rw [← hnet, h]

theorem quiet_cleanLine (s : State) (l : Nat) : (s.cleanLine l).rd g = s.rd g := by
  unfold State.cleanLine
  split
  next d _ =>
    dsimp only
    have hline := quiet_lineWrite hlow s (64 * l) d
    split
    · exact hline
    · exact hline
  · rfl

theorem quiet_snoop (s : State) (wr : Bool) (a n : Nat) : (s.snoop wr a n).rd g = s.rd g := by
  refine quiet_each fun l _ t => ?_
  split
  · refine (quiet_each fun h hh u => ?_).trans rfl
    have hh := List.mem_range.1 hh
    exact quiet_wrIf u _ _ 0 (by with_unfolding_all (refine noisy rfl ?_; omega))
  · exact quiet_cleanLine hlow t l

theorem quiet_snoopFor (s : State) (q : Req) (wr : Bool) (a n : Nat) : (s.snoopFor q wr a n).2.rd g = s.rd g := by
  unfold State.snoopFor
  dsimp only
  split_ifs
  · exact quiet_snoop hlow s wr a n
  · exact quiet_snoop hlow s wr a n
  · rfl

theorem quiet_coReadU (s : State) (q : Req) (u : Option Nat) (a n : Nat) : (s.coReadU q u a n).2.2.rd g = s.rd g := by
  have hnet := quiet_netFor hlow s q u false a n
  unfold State.coReadU
  split
  next t h =>
    have hsnoop := quiet_snoopFor hlow t q false a n
    have ht : t.rd g = s.rd g := by rw [← hnet, h]
    split
    next t1 h1 => rw [quiet_memRead, ← ht, ← hsnoop, h1]
    next r t1 _ h1 => rw [← ht, ← hsnoop, h1]
  next r t _ h => rw [← hnet, h]

end

end Sys2Proof.Machine
end

section

namespace Sys2Proof.Machine

/-! ### The queues of the host port (R356 to R361, R379) -/

theorem hstClrCnt_only (s : State) : OnlyFields [Reg.HST_ERR_CNT, Reg.HST_ERR_ADDR, Reg.HST_ERR_INFO_VALID,
    Reg.HST_ERR_INFO_OVF, Reg.HST_ERR_INFO_KIND] s s.hstClrCnt := by
  unfold State.hstClrCnt
  simp only [List.foldl_cons, List.foldl_nil]
  iterate 5 refine OnlyFields.wr _ (by simp) ?_
  exact .refl _ s

/-- While no other queue takes a turn, the units of a descriptor follow one another to the last (R359). -/
theorem qServe_alone {s : State} {q : Nat} (len : Nat) (h : (List.range 64).any (fun p => p != q && s.qTakes p) = false) :
    s.qServe q len = (true, (s.wr Hid.qLast q).wr (Hid.qUnits q) 0) := by
  rw [State.qServe, if_neg]
  simp [h]

/-- What serves the turn of a queue keeps the registers of the host port. -/
theorem rd_qServed (s : State) (q : Fin 64) {g : Fld} (hg : g.key < 0x112C * 2 ^ 26) :
    ((s.wr Hid.qLast q).wr (Hid.qUnits q) 0).rd g = s.rd g := by
  have hlast : Hid.qLast.key = (0x112C * 1048576 + 0x200) * 64 + 0 := by with_unfolding_all rfl
  have hunits : (Hid.qUnits q).key = (0x112C * 1048576 + (0x100 + q.val)) * 64 + 0 := by with_unfolding_all rfl
  rw [State.rd_wr_ne _ _ (by omega), State.rd_wr_ne _ _ (by omega)]

/-- A descriptor that is whole, in its turn and alone, is gone on with (R359). -/
theorem execDescProcess_go {q : Fin 64} {d : BitVec 256} (data : Option (List Byte)) (f : Bool) {s : State} {card len host : Nat}
    {irq : Bool} (hopen : s.qOpen q = true) (hup : s.on Reg.HST_STAT_LINK_UP = true) (hturn : s.qTurn q = true)
    (hhost : host = bits d.toNat 63 0) (hcard : card = bits d.toNat 109 64) (hlen : len = bits d.toNat 159 128)
    (hirq : irq = bit (bits d.toNat 191 160) 0)
    (hgood : descBad (s.rd (Reg.HST_Q_CFG_DIR q)) host len (bits d.toNat 191 160) = false)
    (halone : (List.range 64).any (fun p => p != q.val && s.qTakes p) = false) :
    exec (.descProcess q (some d) data f) s =
      .next (((s.wr Hid.qLast q).wr (Hid.qUnits q) 0).descGo q host card len irq data f) := by
  subst hhost hcard hlen hirq
  show execDescProcess q (some d) data f s = _
  simp [execDescProcess, hopen, hup, hturn, hgood, qServe_alone _ halone]

/-- The relaxed order of a queue is its configuration still once a card range has been read (R359). -/
theorem relaxed_coReadU (s : State) (q : Fin 64) (r : Req) (u : Option Nat) (card len : Nat) :
    (s.coReadU r u card len).2.2.on (Reg.HST_Q_CFG_RO q) = s.on (Reg.HST_Q_CFG_RO q) := by
  have : Quiet (Reg.HST_Q_CFG_RO q) := by with_unfolding_all (refine quiet_of rfl ?_; unfold quietKey; omega)
  have hkey : (Reg.HST_Q_CFG_RO q).key = (0x009 * 1048576 + (0x1000 + 0x40 * q.val)) * 64 + 31 := by with_unfolding_all rfl
  have hlow : (Reg.HST_Q_CFG_RO q).BelowNoc := by
    unfold Fld.BelowNoc
    omega
  unfold State.on
  rw [quiet_coReadU hlow]

theorem descGo_h2c {t : State} {q host card len : Nat} {irq f : Bool} {r : Req} {bs : List Byte} {v x y : State}
    (hdir : t.rd (Reg.HST_Q_CFG_DIR q) = 0) (hr : r = t.req .host (t.rd (Reg.HST_Q_CFG_KEY q)))
    (hcard : t.cardOf r true card len = .mem) (hnet : t.netFor r (some (t.rd (Reg.HST_Q_CFG_URG q))) true card len = (.ok, v))
    (hgate : (v.snoopFor r true card len).2.memGate r card len = (.ok, x))
    (hwrite : x.writeUnits r card ((bs.take len).map some) = (.ok, y)) :
    t.descGo q host card len irq (some bs) f = y.descDone q irq ⟨0, len, false, false⟩ := by
  subst hr
  rw [State.descGo, if_neg (by omega), if_neg (by omega)]
  simp only [State.descH2c, hcard, hnet, hgate, hwrite]

theorem descGo_c2h {t : State} {q : Fin 64} {host card len : Nat} {irq f : Bool} {data : Option (List Byte)} {r : Req}
    {bs : List Byte} {v : State} (hdir : t.rd (Reg.HST_Q_CFG_DIR q) = 1) (hr : r = t.req .host (t.rd (Reg.HST_Q_CFG_KEY q)))
    (hcard : t.cardOf r false card len = .mem)
    (hread : t.coReadU r (some (t.rd (Reg.HST_Q_CFG_URG q))) card len = (bs, .ok, v)) :
    t.descGo q host card len irq data f =
      (v.emit (.hostWrite host (v.on (Reg.HST_Q_CFG_RO q)) false bs)).descDone q irq ⟨0, bs.length, false, false⟩ := by
  have hro : v.on (Reg.HST_Q_CFG_RO q) = t.on (Reg.HST_Q_CFG_RO q) := by
    rw [← relaxed_coReadU t q r (some (t.rd (Reg.HST_Q_CFG_URG q))) card len, hread]
  subst hr
  rw [State.descGo, if_neg (by omega), if_pos hdir, hro]
  simp [State.descC2h, hcard, hread]

end Sys2Proof.Machine

namespace Sys2Proof
open Machine

/-- Settles O28: each clause is the command in its legal state; a descriptor is gone on with in its turn, and reading the card keeps
the order of the queue's writes. -/
theorem queueSteps : Obligations.QueueSteps := by
  refine ⟨fun w s hoff => ?_, fun q s h0 hag hring => ?_, fun q s h1 => ?_, fun q s h3 => ?_, fun s => ?_, fun q w s hroom => ?_,
    fun q d data f s t card len host dir r irq u hopen hup hturn hdir hhost hcard hlen hirq hgood halone ht hr hu => ?_,
    fun q d data f s hopen hdown => ?_, fun q s hrun => ?_⟩
  · show execDrvHello w s = _
    rw [execDrvHello, State.drvHello, if_neg (by simp [hoff])]
  · refine ⟨_, congrArg Host.Outcome.next (if_pos ⟨h0, hag, hring⟩), ?_, ?_, State.rd_wr_same ..⟩
    · iterate 2 refine OnlyFields.wr _ (by simp) ?_
      exact .refl _ s
    · rw [State.rd_wr_ne _ _ (by with_unfolding_all (refine key_ne rfl rfl ?_; omega))]
      exact State.rd_wr_same ..
  · refine ⟨_, congrArg Host.Outcome.next (if_pos h1), .wr _ (by simp) (.refl _ s), ?_⟩
    rw [State.rd_wr_same]
    split <;> rfl
  · exact ⟨_, congrArg Host.Outcome.next (if_pos h3), .wr _ (by simp) (.refl _ s), State.rd_wr_same ..⟩
  · refine ⟨s.hstClrCnt, rfl, hstClrCnt_only s, ?_, ?_⟩
    · simp (disch := decide) only [State.hstClrCnt, List.foldl_cons, List.foldl_nil, State.rd_wr_ne, State.rd_wr_same]
      rfl
    · simp (disch := decide) only [State.hstClrCnt, List.foldl_cons, List.foldl_nil, State.rd_wr_ne, State.rd_wr_same]
      rfl
  · refine ⟨_, congrArg Host.Outcome.next (if_neg (by omega)), .wr _ (by simp) (.refl _ s), ?_⟩
    rw [State.rd_wr_same]
    exact Nat.mod_eq_of_lt w.isLt
  · have hgo := execDescProcess_go data f hopen hup hturn hhost hcard hlen hirq (hdir ▸ hgood) halone
    rw [← ht] at hgo
    have htdir : t.rd (Reg.HST_Q_CFG_DIR q) = dir := by
      have hkey : (Reg.HST_Q_CFG_DIR q).key = (0x009 * 1048576 + (0x1000 + 0x40 * q.val)) * 64 + 24 := by with_unfolding_all rfl
      rw [ht, rd_qServed s q (by omega), hdir]
    subst hu
    refine ⟨fun bs v x y h0 hdata hmem hnet hgate hwrite => ?_, fun bs v h1 hmem hread => ?_⟩
    · rw [hgo, hdata, descGo_h2c (htdir.trans h0) hr hmem hnet hgate hwrite]
    · rw [hgo, descGo_c2h (htdir.trans h1) hr hmem hread]
  · show execDescProcess q d data f s = _
    simp [execDescProcess, hopen, hdown, State.descLost]
  · show execImodExpire q s = _
    simp [execImodExpire, hrun]

end Sys2Proof
end

section

namespace Sys2Proof.Machine

/-! ### Bring-up of a partner link (R362 to R367, R379) -/

section
variable (s : State) (l : Fin 2)

/-- The receive lanes of a link that does not run show nothing. -/
theorem mem_rlkQuiet : (s.rlkQuiet l).mem = s.mem := by
  unfold State.rlkQuiet
  refine Eq.trans (mem_each fun k _ t => State.wr_mem ..) (mem_each fun k _ t => ?_)
  exact mem_foldl id fun f _ u => State.clr_mem ..

theorem rlkPhy_mem (rate : Nat) : (s.rlkPhy l rate).mem = s.mem := by
  rw [State.rlkPhy, State.wr_mem, State.wr_mem, State.wr_mem, State.wr_mem, State.wr_mem, mem_rlkQuiet]

theorem rlkPhy_state (rate : Nat) : (s.rlkPhy l rate).rlkState l = 1 := by
  unfold State.rlkState State.rlkPhy
  simp (disch := with_unfolding_all (refine key_ne rfl rfl ?_; omega)) only [State.rd_wr_ne, State.rd_wr_same]
  rfl

theorem rlkPhy_rate (rate : Nat) : (s.rlkPhy l rate).rd (Reg.RLK_LINK_STAT_RATE l) = rate % 4 := by
  unfold State.rlkPhy
  simp (disch := with_unfolding_all (refine key_ne rfl rfl ?_; omega)) only [State.rd_wr_ne, State.rd_wr_same]
  rfl

/-! The counters that CLR_CNT clears, of the link and of its lanes. -/

/-- The counters of a link are 0. -/
def State.LinkClear : Prop := s.rd (Reg.RLK_CRC_ERR l) = 0 ∧ s.rd (Reg.RLK_REPLAY l) = 0 ∧ s.rd (Reg.RLK_TRIG_LOST l) = 0
  ∧ s.rd (Reg.RLK_DROP l) = 0 ∧ s.rd (Reg.RLK_LOST l) = 0

/-- The counters of a lane of a link are 0. -/
def State.LaneClear (k : Nat) : Prop := s.rd (Reg.RLK_LN_HDR_ERR l k) = 0 ∧ s.rd (Reg.RLK_LN_MKR_ERR l k) = 0

theorem rlkClrCnt_cells : CellsOnly s (s.rlkClrCnt l) := by
  unfold State.rlkClrCnt
  exact CellsOnly.each (fun k _ v hv => (hv.wr _ _).wr _ _) ((((((CellsOnly.refl s).wr _ _).wr _ _).wr _ _).wr _ _).wr _ _)

theorem rlkClrCnt_link : (s.rlkClrCnt l).LinkClear l := by
  unfold State.rlkClrCnt
  refine each_keeps (P := fun v => v.LinkClear l) (fun k hk v hv => ?_) ?_
  · have hk := List.mem_range.1 hk
    unfold State.LinkClear at *
    simpa (disch := with_unfolding_all (refine key_ne rfl rfl ?_; omega)) only [State.rd_wr_ne] using hv
  · unfold State.LinkClear
    simp (disch := with_unfolding_all (refine key_ne rfl rfl ?_; omega)) only [List.foldl_cons, List.foldl_nil, State.rd_wr_ne,
      State.rd_wr_same, Nat.zero_mod, and_self]

theorem rlkClrCnt_lane (k : Fin 8) : (s.rlkClrCnt l).LaneClear l k := by
  unfold State.rlkClrCnt
  have hclear (v : State) (j : Nat) (hj : j < 8) :
      ((v.wr (Reg.RLK_LN_HDR_ERR l j) 0).wr (Reg.RLK_LN_MKR_ERR l j) 0).LaneClear l j := by
    unfold State.LaneClear
    simp (disch := with_unfolding_all (refine key_ne rfl rfl ?_; omega)) only [State.rd_wr_ne, State.rd_wr_same, Nat.zero_mod,
      and_self]
  refine each_establishes (P := fun v => v.LaneClear l k) (List.mem_range.2 k.isLt) (fun v => hclear v k k.isLt)
    (fun j hj v hv => ?_) _
  have hj := List.mem_range.1 hj
  by_cases hjk : j = k.val
  · exact hjk ▸ hclear v j hj
  · unfold State.LaneClear at *
    simpa (disch := with_unfolding_all (refine key_ne rfl rfl ?_; omega)) only [State.rd_wr_ne] using hv

end

/-! ### Rows of an ACTIVE link (R364, R367 to R371) -/

/-- A row of a known type and right CRC on an ACTIVE link gives its triggers, acknowledgement and credits (R364). -/
def State.rlkTaken (s : State) (l : Nat) (r : RlkRow) : State :=
  ((s.rlkTakeTrig l r.trig.toNat).rlkTakeAck l r.ack.toNat).rlkTakeCredit l r.crCh r.crCnt

section
variable {s : State} {l : Nat} {r : RlkRow}

theorem rlkRecv_idle (hst : s.rlkState l = 4) (ht : r.type = 0) : s.rlkRecv l r true = (false, s.rlkTaken l r) := by
  simp [State.rlkRecv, hst, ht, State.rlkTaken]

theorem rlkRecv_nak (hst : s.rlkState l = 4) (ht : r.type = 5) :
    s.rlkRecv l r true = (false, (s.rlkTaken l r).rlkTakeNak l r.ack.toNat) := by
  simp [State.rlkRecv, hst, ht, State.rlkTaken]

theorem rlkTakeSeq_expected {u : State} (hseq : (r.seq.toNat + 256 - u.rd (Hid.rlkSeqRx l)) % 256 = 0) :
    u.rlkTakeSeq l r = (true, (u.add (Hid.rlkSeqRx l) 1).wr (Hid.rlkWait l) 0) := by
  rw [State.rlkTakeSeq, if_pos hseq]

theorem rlkRecv_data (hst : s.rlkState l = 4) (ht : r.type = 1 ∨ r.type = 2)
    (hseq : (r.seq.toNat + 256 - (s.rlkTaken l r).rd (Hid.rlkSeqRx l)) % 256 = 0) {v : State}
    (hv : v = ((s.rlkTaken l r).add (Hid.rlkSeqRx l) 1).wr (Hid.rlkWait l) 0) :
    s.rlkRecv l r true = (false, (v.setRlkRows l (r.type.val - 1) (v.rlkRows l (r.type.val - 1) ++ [r])).rlkIdle l) := by
  have htake := rlkTakeSeq_expected hseq
  unfold State.rlkTaken at htake hv
  rcases ht with ht | ht <;> simp [State.rlkRecv, hst, ht, htake, hv]

theorem rlkRecv_badCrc (hst : s.rlkState l = 4) :
    s.rlkRecv l r false = (false, (s.inc (Reg.RLK_CRC_ERR l) 1).rlkNak l) := by
  simp [State.rlkRecv, hst]

end

end Sys2Proof.Machine

namespace Sys2Proof
open Machine

/-- Settles O29. -/
theorem linkBringUpSteps : Obligations.LinkBringUpSteps := by
  refine ⟨fun l w s => ⟨fun hoff hon => ?_, fun hon hoff => ?_⟩, fun l x s hst hall hwin => ?_, fun l s hst => ?_,
    fun l s hst => ?_, fun l w r s hst hr hcrc hty => ?_, fun l s hst => ?_, fun l s hst => ?_,
    fun l rate s => ⟨rlkPhy_state s l rate, rlkPhy_rate s l rate, rlkPhy_mem s l rate⟩, fun l s hen hst => ?_, fun l s => ?_⟩
  · show Host.Outcome.next (s.rlkCtrlWrite l _) = _
    simp [State.rlkCtrlWrite, hoff, hon]
  · show Host.Outcome.next (s.rlkCtrlWrite l _) = _
    simp [State.rlkCtrlWrite, hoff, hon]
  · show execRlkPhyUp l x s = _
    simp [execRlkPhyUp, hst, hall, hwin]
  · exact congrArg Host.Outcome.next (if_pos hst)
  · rfl
  · show Host.Outcome.next (s.rlkRecv l (rowOf w) (rowCrcOk w)).2 = _
    rw [← hr, hcrc]
    simp [State.rlkRecv, hst, hty, State.rlkTakeOffer]
  · exact congrArg Host.Outcome.next (if_pos hst)
  · exact congrArg Host.Outcome.next (if_pos hst)
  · show Host.Outcome.next (s.rlkRetrain l) = _
    simp [State.rlkRetrain, hen, hst]
  · obtain ⟨hcrc, hreplay, htrig, hdrop, hlost⟩ := rlkClrCnt_link s l
    exact ⟨s.rlkClrCnt l, rfl, rlkClrCnt_cells s l, hcrc, hreplay, htrig, hdrop, hlost, rlkClrCnt_lane s l⟩

/-- Settles O30. -/
theorem linkRowSteps : Obligations.LinkRowSteps := by
  refine ⟨fun l w r s hst hr hcrc u hu => ?_, fun l w s hst hcrc => ?_, fun l c data last n s hisl hlive hmay hver => ?_,
    fun l c n r rest s hisl hrows hlive => ?_⟩
  · have hu : u = s.rlkTaken l r := hu
    subst hu hr
    refine ⟨fun ht => ?_, fun ht => ?_, fun ht hseq v hv => ?_⟩
    · show Host.Outcome.next (s.rlkRecv l (rowOf w) (rowCrcOk w)).2 = _
      rw [hcrc, rlkRecv_idle hst ht]
    · show Host.Outcome.next (s.rlkRecv l (rowOf w) (rowCrcOk w)).2 = _
      rw [hcrc, rlkRecv_nak hst ht]
    · show Host.Outcome.next (s.rlkRecv l (rowOf w) (rowCrcOk w)).2 = _
      rw [hcrc, rlkRecv_data hst ht hseq hv]
  · show Host.Outcome.next (s.rlkRecv l (rowOf w) (rowCrcOk w)).2 = _
    rw [hcrc, rlkRecv_badCrc hst]
  · show execStreamWordSend l c data last s = _
    have hdata1 : (c.val == 1 && s.rd (Reg.RLK_LINK_STAT_VER l) == 0) = false := by simpa using hver
    simp only [execStreamWordSend, hisl, hlive, hmay, hdata1, Bool.not_false, Bool.and_self, if_true]
  · show execRlkStreamRowRead l c s = _
    simp only [execRlkStreamRowRead, hisl, hrows, hlive, if_true]

/-- Settles O31. -/
theorem timeSyncSteps : Obligations.TimeSyncSteps := by
  refine ⟨fun l t1 s hrole => ?_, fun l w r t2 t3 t4 s t hr hcrc hrecv => ?_,
    fun l w r s t hr hcrc hrecv his hrole hnum hsrc => ?_, fun s hsync => ?_, fun s hsrc hgo => ?_, fun s hheld hback => ?_⟩
  · exact congrArg Host.Outcome.next (if_pos hrole)
  · subst hr
    refine ⟨fun his hrole => ?_, fun his hrole => ?_, fun his hrole => ?_⟩
    · show execMgmtSync l w t2 t3 s = _
      simp [execMgmtSync, hcrc, hrecv, his, hrole]
    · show execMgmtFollow l w s = _
      simp [execMgmtFollow, hcrc, hrecv, his, hrole]
    · show execMgmtDelayReq l w t4 s = _
      simp [execMgmtDelayReq, hcrc, hrecv, his, hrole]
  · subst hr
    show execMgmtDelayResp l w s = _
    simp [execMgmtDelayResp, hcrc, hrecv, his, hrole, hnum, hsrc]
  · exact congrArg Host.Outcome.next (if_pos hsync)
  · exact congrArg Host.Outcome.next (if_pos ⟨hsrc, hgo⟩)
  · show execTsbStepRelease s = _
    simp [execTsbStepRelease, hheld, hback]

end Sys2Proof
end

section

namespace Sys2Proof.Machine

section
variable {s : State} {c p e : Nat}

theorem evtClaim_none (peek : Bool) (h : s.claimable c p = none) : s.evtClaim c p peek = (0, s) := by
  delta State.evtClaim
  simp only [h]

theorem evtClaim_peek (h : s.claimable c p = some e) : s.evtClaim c p true = (2 ^ 31 + e, s) := by
  delta State.evtClaim
  simp only [h, if_true]

theorem evtClaim_take (h : s.claimable c p = some e) :
    s.evtClaim c p false = (2 ^ 31 + e, (s.clrB (Reg.EVT_PEND (e / 32)) (e % 32)).milLevels) := by
  delta State.evtClaim
  simp only [h, Bool.false_eq_true, if_false]

end

/-- What a read of a claim register answers and leaves (R376). -/
theorem execEvtClaimRead_eq {c : Fin 4} {p : Fin 2} {peek : Bool} {s t : State} {n : Nat} (h : s.evtClaim c p peek = (n, t)) :
    exec (.evtClaimRead c p peek) s = .next (t.answer .ok (leBytes 4 n)) := by
  rw [show t = (s.evtClaim c p peek).2 by rw [h], show n = (s.evtClaim c p peek).1 by rw [h]]
  rfl

end Sys2Proof.Machine

namespace Sys2Proof
open Machine

/-- Settles O32. -/
theorem eventSteps : Obligations.EventSteps := by
  refine ⟨fun e s => ⟨fun hres => ?_, fun hfree => ?_⟩, fun c p s => ⟨fun hnone => ?_, fun e hsome => ⟨?_, ?_⟩⟩,
    fun e w s t ht => ⟨fun hidle => ?_, fun hpend hoff hon hmsix => ?_⟩, fun u s => ?_⟩
  · exact congrArg Host.Outcome.next (if_pos hres)
  · refine ⟨s.raise e, congrArg Host.Outcome.next (if_neg (by simp [hfree])), pend_raise s e.isLt, mem_raise s e, fun hoff => ?_⟩
    rw [raise_disabled s hoff]
    exact (OnlyFields.refl _ s).setB _ (by simp)
  · exact execEvtClaimRead_eq (evtClaim_none false hnone)
  · exact execEvtClaimRead_eq (evtClaim_peek hsome)
  · exact execEvtClaimRead_eq (evtClaim_take hsome)
  · show Host.Outcome.next (s.evtRouteA e w.toNat) = _
    rw [State.evtRouteA, ← ht]
    simp [hidle]
  · show Host.Outcome.next (s.evtRouteA e w.toNat) = _
    rw [State.evtRouteA, ← ht]
    simp [hpend, hoff, hon, hmsix]
  · show Host.Outcome.next (s.raise (992 + u % 32)) = _
    rw [Nat.mod_eq_of_lt u.isLt]

end Sys2Proof
end

section

namespace Sys2Proof.Machine

/-! ### The sync word (R386, R391) -/

/-- The state of the stream starts afresh at the sync word. -/
def State.syncBegin (t : State) : State :=
  (((((((t.cfgForget).wr Reg.CFG_STAT_LSTATE 2).wr Hid.cfgCrc 0xFFFFFFFF).wr Hid.cfgGsel 255).wr Reg.CFG_STARTUP 0x1024).wr
    Reg.CFG_WORDS 0).wr Hid.cfgFar 0).wr Hid.cfgFarEnd 0

/-- The region and the refused planes of the stream before are forgotten. -/
def State.syncClear (t : State) : State :=
  State.each (List.range 80) (fun n a => State.each (List.range 8) (fun c b => b.wr (Hid.cfgRef n c) 0) a)
    (State.each (List.range 3) (fun w a => a.wr (Reg.CFG_REGION w) 0) t)

theorem syncClear_mem (t : State) : t.syncClear.mem = t.mem := by
  unfold State.syncClear
  rw [mem_each fun n _ a => mem_each fun c _ b => State.wr_mem .., mem_each fun w _ a => State.wr_mem ..]

theorem cfgForget_mem (t : State) : t.cfgForget.mem = t.mem := by
  unfold State.cfgForget
  dsimp only
  rw [State.wr_mem, State.wr_mem, State.wr_mem, State.wr_mem, State.wr_mem]

theorem syncBegin_mem (t : State) : t.syncBegin.mem = t.mem := by
  unfold State.syncBegin
  rw [State.wr_mem, State.wr_mem, State.wr_mem, State.wr_mem, State.wr_mem, State.wr_mem, State.wr_mem, cfgForget_mem]

/-- A field that is neither the region nor a mark of a refused plane. -/
def Fld.OffSync (g : Fld) : Prop := (∀ w < 3, g.key ≠ (Reg.CFG_REGION w).key) ∧ ∀ n < 80, ∀ c < 8, g.key ≠ (Hid.cfgRef n c).key

theorem offSync_of {g : Fld} {b o l : Nat} (e : g.key = (b * 1048576 + o) * 64 + l)
    (h : ∀ k, k = (b * 1048576 + o) * 64 + l → (k < 0x8001100 ∨ 0x8001400 ≤ k) ∧ (k < 0x4260000000 ∨ 0x4264000000 ≤ k)) : g.OffSync := by
  have h := h _ e
  refine ⟨fun w hw => ?_, fun n hn c hc => ?_⟩
  · have : (Reg.CFG_REGION w).key = (0x002 * 1048576 + (0x44 + 0x4 * w)) * 64 + 0 := by with_unfolding_all rfl
    omega
  · have : (Hid.cfgRef n c).key = (0x1098 * 1048576 + (8 * n + c)) * 64 + 0 := by with_unfolding_all rfl
    omega

theorem rd_syncClear (t : State) {g : Fld} (hg : g.OffSync) : t.syncClear.rd g = t.rd g := by
  obtain ⟨hregion, hrefused⟩ := hg
  refine Eq.trans (State.rd_each _ _ _ _ fun n hn a => State.rd_each _ _ _ _ fun c hc b => ?_)
    (State.rd_each _ _ _ _ fun w hw a => ?_)
  · exact State.rd_wr_ne b 0 (hrefused n (List.mem_range.1 hn) c (List.mem_range.1 hc))
  · exact State.rd_wr_ne a 0 (hregion w (List.mem_range.1 hw))

theorem execCfgSyncWord_found {k d : List Byte} {r : MRes} {s t : State} (hact : s.on Reg.CFG_STAT_SRC_ACTIVE = true)
    (hst : s.rd Reg.CFG_STAT_LSTATE = 1 ∨ s.rd Reg.CFG_STAT_LSTATE = 7) (hsrc : s.srcBytes (k ++ leBytes 4 0x6D31E0A5) = some (d, r, t))
    (hd : d = k ++ leBytes 4 0x6D31E0A5) (hfirst : ∀ i, i < k.length → (d.drop i).take 4 ≠ leBytes 4 0x6D31E0A5) :
    exec (.cfgSyncWord k) s = .next t.syncBegin.syncClear := by
  have hwait : (!s.on Reg.CFG_STAT_SRC_ACTIVE || (s.rd Reg.CFG_STAT_LSTATE != 1 && s.rd Reg.CFG_STAT_LSTATE != 7)) = false := by
    rcases hst with h | h <;> simp [hact, h]
  have hhere : ¬(d.drop k.length ≠ leBytes 4 0x6D31E0A5
      ∨ (List.range k.length).any (fun i => (d.drop i).take 4 == leBytes 4 0x6D31E0A5) = true) := by
    rintro (h | h)
    · exact h (by rw [hd, List.drop_left])
    · obtain ⟨i, hi, heq⟩ := List.any_eq_true.1 h
      exact hfirst i (List.mem_range.1 hi) (by simpa using heq)
  show execCfgSyncWord k s = _
  unfold execCfgSyncWord
  dsimp only
  rw [hwait, hsrc]
  dsimp only
  rw [if_neg hhere]
  rfl

/-! ### The header of a packet (R387, R388) -/

/-- A packet is written only where its COUNT meets the rule of its register. -/
theorem countOk_of_pktHead {ws : List Nat} {r c n : Nat} (h : pktHead ws = .write r c n) : countOk r c = true := by
  unfold pktHead at h
  split at h
  · cases h
  · dsimp only at h
    split_ifs at h
    · cases h
      simp_all
    · split at h
      · cases h
      · split_ifs at h
        cases h
        simp_all

theorem packetAt_all {s t : State} {p : Packet} {reg k : Nat} {l : List Nat} (h : s.packetAt reg id p = some (l, t)) (hk : l.length = k) :
    s.packetAt reg (fun _ => k) p = some (l, t) := by
  obtain ⟨hreads, hleft, hlost, c, n, u, hhead, htake, hlen, rfl, rfl⟩ := State.packetAt_some h
  have hck : k = c := by
    rw [← hk, List.length_drop, hlen]
    exact Nat.add_sub_cancel_left n c
  unfold State.packetAt
  simp [hreads, hleft, hlost, hhead, htake, hlen, hck]

/-- An FDRI packet that arrives whole, without wire errors, and whose frames have legal targets, writes them (R384, R395). -/
theorem execPktFdri_whole {p : Packet} {l : List Nat} {s t : State} (h : s.packetAt 3 id p = some (l, t))
    (hgo : s.framesHeld (l.length / 67) = false) (hlegal : t.framesLegal (l.length / 67) = true) :
    exec (.pktFdri p []) s = .next ((t.fdriFrames l).wrIf ((t.fdriFrames l).rd Reg.CFG_STAT_LSTATE == 4) Hid.cfgLeft 0) := by
  obtain ⟨hreads, hleft, hlost, c, n, u, hhead, htake, hlen, hl, ht⟩ := State.packetAt_some h
  have hcount : c % 67 = 0 := by simpa [countOk] using countOk_of_pktHead hhead
  have hk : (p.words.map BitVec.toNat).length - n = l.length := by rw [hl, List.length_drop]
  have hlc : l.length = c := by
    rw [hl, List.length_drop, hlen]
    exact Nat.add_sub_cancel_left n c
  have hpacket := State.packet_of_packetAt (packetAt_all h rfl)
  show execPktFdri p [] s = _
  unfold execPktFdri
  dsimp only
  rw [hreads, if_neg (by decide), if_pos hleft]
  simp only [hhead]
  rw [hk, if_neg (by rw [hlen, hlc]; dsimp only [id]; omega), if_neg (by simp [hgo]), hpacket, hlc, Nat.sub_self, ← hlc, hlegal,
    if_neg (by decide)]
  rfl

/-- A ZDATA packet whose words are well formed, without wire errors, and whose frames have legal targets, writes them (R397). -/
theorem execPktZdata_whole {p : Packet} {l out : List Nat} {s t : State} (h : s.packetAt 7 id p = some (l, t))
    (hlen : l.length = word0 l + 1) (hz : zDecode (l.drop 1) = (out, true)) (hgo : s.framesHeld (out.length / 64) = false)
    (hlegal : t.framesLegal (out.length / 64) = true) :
    exec (.pktZdata p []) s = .next ((pieces 64 out).foldl (fun a w => a.frameWrite (ofWords w) true) t) := by
  obtain ⟨-, -, -, c, n, u, hhead, -, -, hl, -⟩ := State.packetAt_some h
  have hcoded : (p.words.map BitVec.toNat).drop (n + 1) = l.drop 1 := by rw [hl, List.drop_drop]
  show execPktZdata p [] s = _
  unfold execPktZdata
  dsimp only
  simp only [hhead]
  rw [hcoded, hz]
  rw [if_neg (by simp [hgo]), State.packet_of_packetAt h, if_neg (fun hne => hne hlen), hlegal, if_neg (by decide),
    if_neg (by simp)]
  rfl

end Sys2Proof.Machine

namespace Sys2Proof
open Machine

/-- Settles O33: a packet that the source delivers next has the effect of its register, which its state allows. -/
theorem packetSteps : Obligations.PacketSteps := by
  refine ⟨fun k r s t hact hst hsrc hfirst => ?_, fun s t hreads hleft htake => ?_, fun p l s t => ⟨fun h hcrc => ?_,
    fun h hst hid => ?_, fun h hst hfar => ?_, fun h hok hst => ?_, fun h hw hst hpr => ?_, fun h => ?_,
    fun h hlo hhi hlen hbetween hauth henc => ?_, fun h hhead hkey hseg hlen hbetween henc => ?_,
    fun h hgo hlegal => execPktFdri_whole h hgo hlegal, fun out h hlen hz hgo hlegal => execPktZdata_whole h hlen hz hgo hlegal⟩,
    fun ws ps n s t hn hreads henc hn0 hws hps hsrc hkey => ?_⟩
  · refine ⟨_, execCfgSyncWord_found hact hst hsrc rfl hfirst, ?_, ?_, ?_, ?_, by rw [syncClear_mem, syncBegin_mem]⟩ <;>
      rw [rd_syncClear _ (by with_unfolding_all (refine offSync_of rfl ?_; omega))] <;>
      unfold State.syncBegin <;> simp (disch := decide) only [State.rd_wr_ne, State.rd_wr_same] <;> rfl
  · show execPktNoop s = _
    simp [execPktNoop, hreads, hleft, htake]
  · show execPktCrc p s = _
    rw [execPktCrc, State.packet_of_packetAt h, if_pos hcrc]
  · show execPktIdcode p s = _
    rw [execPktIdcode, State.packet_of_packetAt h]
    simp only [State.legalIn, hst, hid, beq_self_eq_true, if_true]
  · show execPktFar p s = _
    rw [execPktFar, State.packet_of_packetAt h]
    simp [State.legalIn, hst, hfar]
  · show execPktStartup p s = _
    rw [execPktStartup, State.packet_of_packetAt h]
    simp [State.legalIn, hst, hok]
  · refine ⟨State.each (List.range 3) (fun w b => b.wr (Reg.CFG_REGION w) ((l[w]?).getD 0)) t, ?_,
      (OnlyFields.refl _ t).each fun w hw v => ?_, ?_⟩
    · show execPktRegion p s = _
      rw [execPktRegion, State.packet_of_packetAt h, if_neg (Nat.not_le.2 hw)]
      simp [State.legalIn, hst, hpr]
    · have hw := List.mem_range.1 hw
      exact (OnlyFields.refl _ v).wr _ (by interval_cases w <;> simp)
    · exact rd_each_wr (fun w => Reg.CFG_REGION w) (fun w => (l[w]?).getD 0) (k := 0) (by decide)
        (fun w hw hne => by with_unfolding_all (refine key_ne rfl rfl ?_; omega)) t
  · show execPktGsel p s = _
    rw [execPktGsel, State.packet_of_packetAt h]
  · show execPktAuth p s = _
    rw [execPktAuth, State.packet_of_packetAt h, if_neg (by omega), if_neg (fun hne => hne.1 hlen)]
    simp [State.legalIn, hbetween, hauth, henc]
  · show execPktEnc p s = _
    rw [execPktEnc, State.packet_of_packetAt h]
    dsimp only
    rw [hhead]
    dsimp only
    rw [if_neg (by omega)]
    simp [State.legalIn, hbetween, henc]
  · show execEncSegment ws (some ps) s = _
    simp [execEncSegment, hreads, henc, ← hn, hn0, hws, hps, hsrc, hkey]

end Sys2Proof
end

section

namespace Sys2Proof.Machine

/-! ### A CMD packet that the source delivers next (R389) -/

section
variable {p : Packet} {l : List Nat} {s t : State}

theorem rd_cfgForget (t : State) {g : Fld} (hauth : g.key ≠ Hid.cfgAuth.key) (hsig : g.key ≠ Hid.cfgSig.key)
    (henc : g.key ≠ Hid.cfgEnc.key) (hencLeft : g.key ≠ Hid.cfgEncLeft.key) (hleft : g.key ≠ Hid.cfgLeft.key) :
    t.cfgForget.rd g = t.rd g := by
  unfold State.cfgForget
  rw [rd_mk, State.rd_wr_ne _ _ hleft, State.rd_wr_ne _ _ hencLeft, State.rd_wr_ne _ _ henc, State.rd_wr_ne _ _ hsig,
    State.rd_wr_ne _ _ hauth]

/-- DESYNC of a stream that is neither the boot source nor the flash ends the stream alone. -/
theorem desync_source_stays (hboot : t.on Hid.cfgBoot = false) (hsrc : t.rd Reg.CFG_LOAD_STAT_SOURCE ≠ 1) :
    ((t.wr Reg.CFG_STAT_LSTATE 1).cfgForget.on Hid.cfgBoot || (t.wr Reg.CFG_STAT_LSTATE 1).cfgForget.rd Reg.CFG_LOAD_STAT_SOURCE == 1)
      = false := by
  unfold State.on at *
  rw [rd_cfgForget _ (by decide) (by decide) (by decide) (by decide) (by decide), State.rd_wr_ne _ _ (by decide),
    rd_cfgForget _ (by decide) (by decide) (by decide) (by decide) (by decide), State.rd_wr_ne _ _ (by decide), hboot]
  simpa using hsrc

/-- START of islands: each enters STARTING and its clock is requested RUNNING (R411). -/
def State.startBegin (a : State) : State :=
  ((((State.each a.startIslands (fun n u =>
      let v := (u.wr (Reg.ISL_STAT_STATE n) 2).wr (Hid.startLate n) 0
      if u.on (Hid.hdrBad n) then v else (v.wr (Reg.ISL_CLK_CTRL_REQ n) 2).clkSettle n) a).wr Reg.CFG_STAT_LSTATE 6).wr Hid.startSet
    (a.startIslands.foldl (fun m n => m + 2 ^ n) 0)).wr Hid.startStage 0).wr Hid.startAt a.now

theorem startBegin_lstate (a : State) : a.startBegin.rd Reg.CFG_STAT_LSTATE = 6 := by
  unfold State.startBegin
  rw [State.rd_wr_ne _ _ (by decide), State.rd_wr_ne _ _ (by decide), State.rd_wr_ne _ _ (by decide), State.rd_wr_same]
  rfl

theorem startBegin_stage (a : State) : a.startBegin.rd Hid.startStage = 0 := by
  unfold State.startBegin
  rw [State.rd_wr_ne _ _ (by decide), State.rd_wr_same]
  rfl

end

/-! ### The end of clearing (R391, R403, R432, R433) -/

/-- The pins are shown, the stream waits and the phase is OPERATING; every plane is invalid. -/
def State.clearedPins (s : State) (m g : Fin 8) : State :=
  State.each (List.range 80) (fun n t => t.wr (Reg.ISL_CTX_VALID_VALID n) 0)
    (((((s.resetBlocks Hid.grpCFM.1 Hid.grpCFM.2).wr Reg.CFG_STAT_LSTATE 1).wr Reg.CFG_PINS_CFG_MODE m).wr
      Reg.CFG_PINS_GANG_POS g).wr Reg.SYS_BOOT_STAT_PHASE 4)

/-- The part is READY, with event 0. -/
def State.clearedReady (s : State) (m g : Fin 8) : State :=
  ((s.clearedPins m g).wr Reg.HST_STAT_READY 1).raiseB Reg.SYS_EVT_EVT 0 0

section
variable (s : State) (m g : Fin 8)

theorem rd_clearedReady {f : Fld} (hcalm : f.Calm 0) (hevt : f.key ≠ Reg.SYS_EVT_EVT.key) (hready : f.key ≠ Reg.HST_STAT_READY.key)
    (hvalid : ∀ n < 80, f.key ≠ (Reg.ISL_CTX_VALID_VALID n).key) : (s.clearedReady m g).rd f =
      (((((s.resetBlocks Hid.grpCFM.1 Hid.grpCFM.2).wr Reg.CFG_STAT_LSTATE 1).wr Reg.CFG_PINS_CFG_MODE m).wr
        Reg.CFG_PINS_GANG_POS g).wr Reg.SYS_BOOT_STAT_PHASE 4).rd f := by
  unfold State.clearedReady State.clearedPins
  rw [rd_raiseB _ hcalm _ _ hevt, State.rd_wr_ne _ _ hready]
  exact State.rd_each _ _ _ _ fun n hn t => State.rd_wr_ne t 0 (hvalid n (List.mem_range.1 hn))

/-- The automatic actions of SYS_AUTO are as they were before clearing ended. -/
theorem rd_clearedReady_auto {f : Fld} (hlo : 0x10 * 64 < f.key) (hhi : f.key < 0x1C * 64) : (s.clearedReady m g).rd f = s.rd f := by
  have hcalm : f.Calm 0 := ⟨by decide, fun k hk => by omega⟩
  have hne (x : Fld) (hx : x.key ≤ 0x10 * 64 ∨ 0x1C * 64 ≤ x.key) : f.key ≠ x.key := by omega
  rw [rd_clearedReady s m g hcalm (hne _ (by decide)) (hne _ (by decide)) fun n _ => hne _ (by
      have : (Reg.ISL_CTX_VALID_VALID n).key = ((0x040 + n) * 1048576 + 0x10) * 64 + 0 := by with_unfolding_all rfl
      omega),
    State.rd_wr_ne _ _ (hne _ (by decide)), State.rd_wr_ne _ _ (hne _ (by decide)), State.rd_wr_ne _ _ (hne _ (by decide)),
    State.rd_wr_ne _ _ (hne _ (by decide)), State.rd_resetBlocks, if_neg]
  have : cellKey Hid.grpCFM.1 0 0 = 0x1095 * 2 ^ 26 := by decide
  omega

/-- With no automatic load, the end of clearing leads to the boot alone (R433). -/
theorem execClearingDone_ready (hphase : s.rd Reg.SYS_BOOT_STAT_PHASE = 3) (hst : s.rd Reg.CFG_STAT_LSTATE = 0)
    (hhbm : s.on Reg.SYS_AUTO_HBM_EN = false) (hfw : s.on Reg.SYS_AUTO_FW_EN = false) :
    exec (.clearingDone m g) s = .next (s.clearedReady m g).bootStart := by
  have hhbm' : (s.clearedReady m g).on Reg.SYS_AUTO_HBM_EN = false := by
    unfold State.on at *
    rwa [rd_clearedReady_auto s m g (by decide) (by decide)]
  have hfw' : (s.clearedReady m g).on Reg.SYS_AUTO_FW_EN = false := by
    unfold State.on at *
    rwa [rd_clearedReady_auto s m g (by decide) (by decide)]
  have hexec : exec (.clearingDone m g) s = .next (if s.rd Reg.SYS_BOOT_STAT_PHASE ≠ 3 ∨ s.rd Reg.CFG_STAT_LSTATE ≠ 0 then s
      else
        let s4 := if (s.clearedReady m g).on Reg.SYS_AUTO_HBM_EN then
          ((s.clearedReady m g).wrIf ((s.clearedReady m g).spareOk ((s.clearedReady m g).rd Reg.SYS_AUTO_HBM_SPARE)) Reg.HBM_MODE_SPARE
            ((s.clearedReady m g).rd Reg.SYS_AUTO_HBM_SPARE)).hbmCtrlWrite (1 + 2 * (s.clearedReady m g).rd Reg.HBM_CTRL_INIT_FILL)
          else s.clearedReady m g
        (if s4.on Reg.SYS_AUTO_FW_EN then s4.fwLoad false (s4.rd Reg.SYS_AUTO_FW_SLOT) (s4.rd Reg.SYS_AUTO_FW_CORES)
          else s4).bootStart) := rfl
  rw [hexec, if_neg (by simp [hphase, hst])]
  simp only [hhbm', hfw', Bool.false_eq_true, if_false]

theorem clearedReady_ready : (s.clearedReady m g).on Reg.HST_STAT_READY = true := by
  unfold State.on State.clearedReady
  rw [rd_raiseB _ (by with_unfolding_all (refine calm rfl ?_; omega)) _ _ (by decide), State.rd_wr_same]
  rfl

theorem clearedReady_event : (s.clearedReady m g).pend 0 = true := pend_raise _ (by decide)

theorem rd_clearedReady_of {f : Fld} {b o l : Nat} (hkey : f.key = (b * 1048576 + o) * 64 + l)
    (h : ∀ k, k = (b * 1048576 + o) * 64 + l → k = 0x10 * 64 ∨ (0x002 * 2 ^ 26 ≤ k ∧ k < 0x003 * 2 ^ 26)) : (s.clearedReady m g).rd f =
      (((((s.resetBlocks Hid.grpCFM.1 Hid.grpCFM.2).wr Reg.CFG_STAT_LSTATE 1).wr Reg.CFG_PINS_CFG_MODE m).wr
        Reg.CFG_PINS_GANG_POS g).wr Reg.SYS_BOOT_STAT_PHASE 4).rd f := by
  have hk := h _ rfl
  have hevt : Reg.SYS_EVT_EVT.key = 0x1C * 64 := by decide
  have hready : Reg.HST_STAT_READY.key = 0x009 * 2 ^ 26 + 0x4 * 64 := by decide
  refine rd_clearedReady s m g ⟨by decide, fun k hk => by omega⟩ (by omega) (by omega) fun n _ => ?_
  have : (Reg.ISL_CTX_VALID_VALID n).key = ((0x040 + n) * 1048576 + 0x10) * 64 + 0 := by with_unfolding_all rfl
  omega

end

end Sys2Proof.Machine

namespace Sys2Proof
open Machine

/-- Settles O34: a CMD packet that the source delivers next has the effect of its code; the end of clearing makes the part READY and
its automatic actions are as they were. -/
theorem streamCommandSteps : Obligations.StreamCommandSteps := by
  refine ⟨fun p l s t h => ⟨fun hc => ?_, fun hc => ?_, fun hc hst hsig => ?_, fun hc hst => ?_,
    fun hc hst => ⟨fun hnone hop => ?_, fun hsome => ⟨t.startBegin, ?_, startBegin_lstate t, startBegin_stage t⟩⟩,
    fun hc hst hauth hpr hboot hsrc => ?_, fun hc hst hop hregion hall => ?_, fun hc hst m hm hgot => ?_⟩,
    fun d s hsig hkey => ?_, fun m g s hphase hst hhbm hfw => ?_⟩
  · show execCmdNull p s = _
    rw [execCmdNull, State.cmdPacket_of_packetAt h hc (by decide)]
    rfl
  · show execCmdRcrc p s = _
    rw [execCmdRcrc, State.cmdPacket_of_packetAt h hc (by decide)]
  · show execCmdWcfg p s = _
    rw [execCmdWcfg, State.cmdPacket_of_packetAt h hc (by decide), State.legalIn, if_pos]
    simp [hst, hsig]
  · show execCmdLfrm p s = _
    rw [execCmdLfrm, State.cmdPacket_of_packetAt h hc (by decide), State.legalIn, if_pos]
    simp [hst]
  · show execCmdStart p s = _
    rw [execCmdStart, State.cmdPacket_of_packetAt h hc (by decide)]
    simp [State.legalIn, hst, hnone, hop, State.wrIf]
  · show execCmdStart p s = _
    rw [execCmdStart, State.cmdPacket_of_packetAt h hc (by decide), State.legalIn, if_pos (by simp [hst]), if_neg hsome]
    rfl
  · show execCmdDesync p s = _
    rw [execCmdDesync, State.cmdPacket_of_packetAt h hc (by decide), State.legalIn, if_pos (by simp [hst, hauth, hpr])]
    dsimp only
    rw [desync_source_stays hboot hsrc, if_neg (by decide)]
  · show execCmdPrBegin p s = _
    rw [execCmdPrBegin, State.cmdPacket_of_packetAt h hc (by decide), State.legalIn, if_pos (by simp [hst, hop, hregion, hall])]
    rfl
  · show execCmdPrCancel p s = _
    rw [execCmdPrCancel, State.cmdPacket_of_packetAt h hc (by decide)]
    dsimp only
    rw [← hm, State.legalIn, if_pos (by simp [hst, hgot])]
    rfl
  · show execSigVerifyDone true d s = _
    rw [execSigVerifyDone, if_neg (by simp [hsig]), if_pos (by simp [hkey])]
  · refine ⟨_, execClearingDone_ready s m g hphase hst hhbm hfw, s.clearedReady m g, rfl, ?_, clearedReady_ready s m g, ?_, ?_, ?_,
      clearedReady_event s m g⟩ <;>
      rw [rd_clearedReady_of s m g rfl (by omega)]
    · rw [State.rd_wr_ne _ _ (by decide), State.rd_wr_ne _ _ (by decide), State.rd_wr_ne _ _ (by decide), State.rd_wr_same]
      rfl
    · rw [State.rd_wr_ne _ _ (by decide), State.rd_wr_ne _ _ (by decide), State.rd_wr_same]
      exact Nat.mod_eq_of_lt m.isLt
    · rw [State.rd_wr_ne _ _ (by decide), State.rd_wr_same]
      exact Nat.mod_eq_of_lt g.isLt
    · rw [State.rd_wr_same]
      rfl

end Sys2Proof
end

section

namespace Sys2Proof.Machine

/-! ### The header of the boot flash (R404) -/

/-- Byte `i` of a flash header. -/
def headerByte (h : List Byte) (i : Nat) : Nat := ((h[i]?).getD 0).toNat

/-- Image `i` of a flash header. -/
def headerImage (h : List Byte) (i : Nat) : Nat := ofLeBytes ((h.drop (16 + 4 * i)).take 4)

/-- What a valid flash header records: the mode, clock, dummy cycles and images. -/
def State.headerRecord (s : State) (h : List Byte) : State :=
  State.each (List.range 4) (fun i t => t.wr (Hid.flashImg i) (headerImage h i))
    ((((s.wr Hid.flashOk 1).wr Hid.flashMode (headerByte h 8)).wr Hid.flashClk (headerByte h 7)).wr Hid.flashDummy (headerByte h 6))

section
variable (s : State) (h : List Byte)

theorem rd_headerRecord {g : Fld} (himg : ∀ i < 4, g.key ≠ (Hid.flashImg i).key) : (s.headerRecord h).rd g =
    ((((s.wr Hid.flashOk 1).wr Hid.flashMode (headerByte h 8)).wr Hid.flashClk (headerByte h 7)).wr Hid.flashDummy
      (headerByte h 6)).rd g :=
  State.rd_each _ _ _ _ fun i hi t => State.rd_wr_ne t _ (himg i (List.mem_range.1 hi))

theorem headerRecord_ok : (s.headerRecord h).rd Hid.flashOk = 1 := by
  rw [rd_headerRecord s h (by decide), State.rd_wr_ne _ _ (by decide), State.rd_wr_ne _ _ (by decide),
    State.rd_wr_ne _ _ (by decide), State.rd_wr_same]
  rfl

theorem headerRecord_mode : (s.headerRecord h).rd Reg.CFG_PINS_CFG_MODE = s.rd Reg.CFG_PINS_CFG_MODE := by
  rw [rd_headerRecord s h (by decide), State.rd_wr_ne _ _ (by decide), State.rd_wr_ne _ _ (by decide),
    State.rd_wr_ne _ _ (by decide), State.rd_wr_ne _ _ (by decide)]

theorem ofLeBytes_lt (l : List Byte) : ofLeBytes l < 256 ^ l.length := by
  induction l with
  | nil => exact Nat.one_pos
  | cons b r ih =>
    have hb : b.toNat < 256 := b.isLt
    simp only [ofLeBytes, List.length_cons, pow_succ]
    omega

theorem headerImage_lt (i : Nat) : headerImage h i < 2 ^ 32 :=
  (ofLeBytes_lt _).trans_le (Nat.pow_le_pow_right (by decide) (List.length_take_le 4 _))

theorem headerRecord_image : (s.headerRecord h).rd (Hid.flashImg 0) = headerImage h 0 := by
  refine (rd_each_wr (fun i => Hid.flashImg i) (headerImage h) (k := 0) (by decide) (by decide) _).trans ?_
  exact Nat.mod_eq_of_lt (headerImage_lt h 0)

/-- The first image of a flash header with an image 0 is that image (R404, R405). -/
theorem bootImages_flash (hmode : s.rd Reg.CFG_PINS_CFG_MODE ≠ 3) (himg : s.rd (Hid.flashImg 0) ≠ 0xFFFFFFFF) :
    ∃ r, s.bootImages.filter (fun m => m.source == 1) = ⟨1, 0, 2⟩ :: r := by
  have hfirst : ∃ r, (List.range 4).filter (fun i => s.rd (Hid.flashImg i) != 0xFFFFFFFF) = 0 :: r :=
    ⟨_, List.filter_cons_of_pos (l := [1, 2, 3]) (by simpa using himg)⟩
  obtain ⟨r, hr⟩ := hfirst
  unfold State.bootImages
  dsimp only
  rw [if_neg (fun h => hmode h.1), hr]
  exact ⟨_, rfl⟩

end

/-! ### Planes and sources (R401, R402) -/

theorem setBits_two_pow : ∀ c < 8, setBits 8 (2 ^ c % 2 ^ 8) = [c] := by decide

end Sys2Proof.Machine

namespace Sys2Proof
open Machine

/-- Settles O35. -/
theorem startupSteps : Obligations.StartupSteps := by
  refine ⟨fun s hst hstage hop hall => ?clocks, fun v s => ⟨fun h => ?out, fun h => ?we, fun h => ?rst⟩, fun s u hu =>
    ⟨fun h => ?done, fun h => ?weir⟩, fun s hwait => ⟨?high, ?low⟩, fun n v s hst hset hclk hlate => ?late, fun slot pl s hl u hu =>
    ⟨?flash, fun hslot => ?slot, fun a n ha hn hin => ?mem⟩, fun s hact hst => ?abort, fun s hst hact => ?clrErr,
    fun n c s hst hload hcur => ?planes, fun s => ?clrCnt, fun w s hen hheld hroom q hq => ?fifo, fun s hheld hst => ?drop,
    fun s hreads hboot => ?timeout, fun s hact hst hsig hsrc hsrc' => ?srcEnd, fun o h s hact hsrc hok hmode hgood himg => ?header,
    fun s hop hboot hsrc hst => ?gang, fun s hst hmode => ?follower, fun high s => ?precfg⟩
  case clocks =>
    have hlate : s.starting.filter (fun n => !(s.rd (Reg.ISL_CLK_STAT_STATE n) == 5 && !s.on (Hid.hdrBad n))) = [] := by
      rw [List.filter_eq_nil_iff]
      intro n hn
      simp only [List.all_eq_true.1 hall n hn, Bool.not_true, Bool.false_eq_true, not_false_eq_true]
    have hevery : s.starting.all (fun n => (s.rd (Reg.ISL_CLK_STAT_STATE n) == 5 && !s.on (Hid.hdrBad n)) || s.on (Hid.hdrBad n))
        = true := List.all_eq_true.2 fun n hn => by rw [List.all_eq_true.1 hall n hn, Bool.true_or]
    refine ⟨(s.wr Hid.startStage 1).wr Hid.startPrev s.now, ?_, .wr _ (by simp) (.wr _ (by simp) (.refl _ s)), ?_, ?_⟩
    · show execStartupClocksDone s = _
      unfold execStartupClocksDone
      dsimp only
      rw [hlate, hevery, hop, if_neg (by omega), if_neg (by simp), if_neg (by simp)]
      rfl
    · rw [State.rd_wr_ne _ _ (by decide), State.rd_wr_same]
      rfl
    · rw [State.rd_wr_same]
      exact Nat.mod_eq_of_lt (State.rd_lt s Reg.TSB_NOW)
  case out => exact congrArg Host.Outcome.next (if_neg (by simp [h]))
  case we => exact congrArg Host.Outcome.next (if_neg (by simp [h]))
  case rst => exact congrArg Host.Outcome.next (if_neg (by simp [h]))
  case done => exact hu ▸ congrArg Host.Outcome.next (if_neg (by simp [h]))
  case weir => exact congrArg Host.Outcome.next (if_neg (by simp [h]))
  case high =>
    refine ⟨((s.wr Reg.CFG_STAT_DONE_WAITING 0).wr Reg.CFG_PINS_DONE 1).wr Hid.startPrev s.now, ?_,
      .wr _ (by simp) (.wr _ (by simp) (.wr _ (by simp) (.refl _ s))), ?_, ?_, ?_⟩
    · show execDonePinHigh true s = _
      rw [execDonePinHigh, if_neg (by simp [hwait]), if_pos rfl]
    · rw [State.rd_wr_ne _ _ (by decide), State.rd_wr_ne _ _ (by decide), State.rd_wr_same]
      rfl
    · rw [State.rd_wr_ne _ _ (by decide), State.rd_wr_same]
      rfl
    · rw [State.rd_wr_same]
      exact Nat.mod_eq_of_lt (State.rd_lt s Reg.TSB_NOW)
  case low =>
    show execDonePinHigh false s = _
    rw [execDonePinHigh, if_neg (by simp [hwait]), if_neg (by simp)]
  case late =>
    show execStartupLateIsland n v s = _
    unfold execStartupLateIsland
    rw [if_neg (by simp [hst, hset, hclk])]
    dsimp only
    rw [hlate, if_pos (by decide)]
  case flash =>
    show Host.Outcome.next (s.loadFlash pl.toNat) = _
    rw [State.loadFlash, if_neg (by simp [hl]), hu]
  case slot =>
    show Host.Outcome.next (s.loadSlot slot pl.toNat) = _
    rw [State.loadSlot, if_neg (by simp [hl, hslot]), hu]
  case mem =>
    show Host.Outcome.next (s.loadMem pl.toNat) = _
    unfold State.loadMem
    dsimp only
    rw [← ha, ← hn, if_neg (by simp [hl, hin]), hu]
  case abort =>
    show Host.Outcome.next s.cfgAbortCmd = _
    simp [State.cfgAbortCmd, hact, hst]
  case clrErr =>
    refine ⟨(s.wr Reg.CFG_STAT_LSTATE 1).wr Reg.CFG_LOAD_STAT_CAUSE 0, congrArg Host.Outcome.next (if_neg (by simp [hst, hact])),
      .wr _ (by simp) (.wr _ (by simp) (.refl _ s)), ?_, State.rd_wr_same ..⟩
    rw [State.rd_wr_ne _ _ (by decide), State.rd_wr_same]
    rfl
  case planes =>
    have hplane : setBits 8 (BitVec.ofNat 8 (2 ^ c.val)).toNat = [c.val] := by
      rw [BitVec.toNat_ofNat, setBits_two_pow c.val c.isLt]
    show Host.Outcome.next (s.clearPlanes n.val _ false) = _
    unfold State.clearPlanes
    dsimp only
    rw [hplane, if_neg]
    · rfl
    · have hn := n.isLt
      simp [hst, hload, hcur]
  case clrCnt =>
    refine ⟨s.cfgClrCnt, rfl, .wr _ (by simp) (.wr _ (by simp) (.wr _ (by simp) (.refl _ s))), ?_, ?_, State.rd_wr_same ..⟩ <;>
      simp (disch := decide) only [State.cfgClrCnt, State.rd_wr_ne, State.rd_wr_same] <;> rfl
  case fifo =>
    subst hq
    show Host.Outcome.next (s.cfgFifo w.toNat) = _
    unfold State.cfgFifo
    dsimp only
    rw [hen, hheld, if_neg (by decide), if_neg (by decide), if_pos hroom]
  case drop =>
    show execCfgFifoDrop s = _
    unfold execCfgFifoDrop
    dsimp only
    rw [hheld, if_neg (by decide), if_neg (by simp [State.cfgOpen, hst])]
  case timeout => exact congrArg Host.Outcome.next (if_pos (by simp [hreads, hboot]))
  case srcEnd =>
    have hended : s.srcEnded = true := by simp [State.srcEnded, hsrc]
    have hcut : s.truncate = s.cfgAbort 9 := if_pos (by omega)
    show execSourceEnd s = _
    unfold execSourceEnd
    dsimp only
    rw [hact, hsig, if_neg (by simp [hst]), if_neg (by omega), hended, if_neg (by decide), hcut, if_pos hsrc']
  case header =>
    have hmode' : (s.headerRecord h).rd Reg.CFG_PINS_CFG_MODE ≠ 3 := by rw [headerRecord_mode, hmode]; decide
    have himg' : (s.headerRecord h).rd (Hid.flashImg 0) ≠ 0xFFFFFFFF := by rw [headerRecord_image]; exact himg
    obtain ⟨r, hr⟩ := bootImages_flash _ hmode' himg'
    have hhead : (if s.rd Reg.CFG_PINS_CFG_MODE ≠ 1 ∧ flashHeaderOk o = true then o else h) = h := if_neg fun c => c.1 hmode
    refine ⟨((s.headerRecord h).wr Reg.CFG_LOAD_STAT_INDEX 0).wrIf ((s.headerRecord h).on Hid.cfgBoot) Reg.CFG_BOOT_STAT_INDEX 0,
      ?_, ?_, ?_, ?_⟩
    · show execXspiHeaderRead o h s = _
      unfold execXspiHeaderRead
      dsimp only
      rw [hhead, hact, hsrc, hok, hgood, if_neg (by decide), if_neg (by decide)]
      unfold State.headerRecord at hr ⊢
      unfold headerImage headerByte at hr ⊢
      simp only [hr]
    · rw [State.wrIf, rd_ite, State.rd_wr_ne _ _ (by decide), State.rd_wr_ne _ _ (by decide), ite_self, headerRecord_ok]
    · rw [State.wrIf, rd_ite, State.rd_wr_ne _ _ (by decide), ite_self, State.rd_wr_same]
      rfl
    · rw [State.wrIf, rd_ite, State.rd_wr_ne _ _ (by decide), State.rd_wr_ne _ _ (by decide), ite_self, headerRecord_image]
      rfl
  case gang =>
    refine ⟨s.wr Reg.CFG_PINS_INIT_N 0, ?_, .wr _ (by simp) (.refl _ s), State.rd_wr_same ..⟩
    show execGangInitLow s = _
    unfold execGangInitLow
    dsimp only
    rw [hop, hboot, hsrc, if_neg (by decide), if_neg (by simp [State.cfgOpen, hst])]
  case follower =>
    refine ⟨_, congrArg Host.Outcome.next (if_pos ⟨hst, hmode⟩), .wr _ (by simp) (.wr _ (by simp) (.refl _ s)), ?_,
      State.rd_wr_same ..⟩
    rw [State.rd_wr_ne _ _ (by decide), State.rd_wr_same]
    rfl
  case precfg =>
    refine ⟨_, rfl, .wr _ (by simp) (.refl _ s), ?_⟩
    rw [State.rd_wr_same]
    exact b2n_mod _ Nat.one_pos

end Sys2Proof
end

section

namespace Sys2Proof.Machine

/-! ### An emptied slot (R422) -/

section
variable (s : State) (fw : Bool) (i : Nat)

theorem slotEmpty_stat : (s.slotEmpty fw i).rd (slotStat fw i) = 0 := by
  cases fw <;>
    simp (disch := with_unfolding_all (refine key_ne rfl rfl ?_; omega)) only [State.slotEmpty, slotStat, slotLen, slotCrc, if_true,
      Bool.false_eq_true, if_false, State.rd_wr_ne, State.rd_wr_same, Nat.zero_mod]

theorem slotEmpty_len : (s.slotEmpty fw i).rd (slotLen fw i) = 0 := by
  cases fw <;>
    simp (disch := with_unfolding_all (refine key_ne rfl rfl ?_; omega)) only [State.slotEmpty, slotStat, slotLen, slotCrc, if_true,
      Bool.false_eq_true, if_false, State.rd_wr_ne, State.rd_wr_same, Nat.zero_mod]

theorem slotEmpty_crc : (s.slotEmpty fw i).rd (slotCrc fw i) = 0 := by rw [State.slotEmpty, State.rd_wr_same, Nat.zero_mod]

end

end Sys2Proof.Machine

namespace Sys2Proof
open Machine

/-- Settles O36. -/
theorem dahliaSteps : Obligations.DahliaSteps := by
  refine ⟨fun fw i s hidle hbist hfree => ⟨fun hin hlen => ?_, ?_, ?_⟩,
    fun fw i s => ⟨slotEmpty_stat s fw i, slotEmpty_len s fw i, slotEmpty_crc s fw i⟩,
    fun top mean i n fw d s t hbusy hfw hi hn hread u c hc hu => ?_,
    fun s => ⟨s.wr Reg.DAH_RD_ERR 0, rfl, .wr _ (by simp) (.refl _ s), State.rd_wr_same ..⟩⟩
  · have hroom : ¬slotSize fw < s.rd Reg.DAH_LEN + 64 := by omega
    exact congrArg Host.Outcome.next (if_neg (by simp [hidle, hbist, hfree, hin, hroom]))
  · exact congrArg Host.Outcome.next (if_neg (by simp [hidle, hbist, hfree]))
  · exact congrArg Host.Outcome.next (if_neg (by simp [hidle, hbist]))
  · subst hfw hi hn hc hu
    show execDahWriteDone true top mean s = _
    unfold execDahWriteDone
    dsimp only
    rw [hread, hbusy, if_neg (by decide)]
    dsimp only
    rw [if_neg (by decide : MRes.ok ≠ MRes.held), if_neg (fun h => h rfl), if_neg (by decide)]

end Sys2Proof
end

section

namespace Sys2Proof.Machine

/-! ### Bits of a field, and what a lost supply takes (R428 to R437) -/

section
variable (s : State)

theorem writeMem_records (l : List Byte) (a : Nat) : (s.writeMem a l).records = s.records := by
  induction l generalizing s a with
  | nil => rfl
  | cons b r ih => exact ih (s.setByte a b) (a + 1)

theorem dahAbandon_records : s.dahAbandon.records = s.records := by
  unfold State.dahAbandon State.slotEmpty State.dahWrite
  split
  · rw [State.wr_records, State.wr_records, State.wr_records, State.wr_records, writeMem_records]
  · rfl

theorem mainReset_records (keep : Nat → Bool) : (s.mainReset keep).records = s.records := dahAbandon_records s

/-- SAVE_AUTO copies the six fields of the automatic actions, each as it was (R440). -/
def State.autoSaved (s : State) : State :=
  [(Reg.SYS_AUTO_FW_EN, Reg.SYS_AUTO_NEW_FW_EN), (Reg.SYS_AUTO_FW_CORES, Reg.SYS_AUTO_NEW_FW_CORES),
   (Reg.SYS_AUTO_FW_SLOT, Reg.SYS_AUTO_NEW_FW_SLOT), (Reg.SYS_AUTO_HBM_EN, Reg.SYS_AUTO_NEW_HBM_EN),
   (Reg.SYS_AUTO_HBM_SPARE, Reg.SYS_AUTO_NEW_HBM_SPARE), (Reg.SYS_AUTO_RETRIES, Reg.SYS_AUTO_NEW_RETRIES)].foldl
    (fun t p => t.wr p.1 (s.rd p.2)) s

theorem autoSaved_only : OnlyFields [Reg.SYS_AUTO_FW_EN, Reg.SYS_AUTO_FW_CORES, Reg.SYS_AUTO_FW_SLOT, Reg.SYS_AUTO_HBM_EN,
    Reg.SYS_AUTO_HBM_SPARE, Reg.SYS_AUTO_RETRIES] s s.autoSaved := by
  unfold State.autoSaved
  iterate 6 refine OnlyFields.wr _ (by simp) ?_
  exact .refl _ s

/-- An ISLAND reset of a running island that does not switch takes effect at once (R419). -/
theorem resetIsland_running {n : Nat} (hst : s.rd (Reg.ISL_STAT_STATE n) = 3) (hsw : s.on (Reg.ISL_STAT_SWITCHING n) = false)
    (hn : n < 80) : s.resetIsland n = ((s.wr (Hid.rstAsked n) 1).bstIslandReset n).islandReset n false := by
  have hst' : (s.wr (Hid.rstAsked n) 1).rd (Reg.ISL_STAT_STATE n) = 3 := by
    rw [State.rd_wr_ne _ _ (by with_unfolding_all (refine key_ne rfl rfl ?_; omega)), hst]
  have hsw' : (s.wr (Hid.rstAsked n) 1).on (Reg.ISL_STAT_SWITCHING n) = false := by
    unfold State.on at *
    rw [State.rd_wr_ne _ _ (by with_unfolding_all (refine key_ne rfl rfl ?_; omega)), hsw]
  have hask : (s.wr (Hid.rstAsked n) 1).on (Hid.rstAsked n) = true := by
    unfold State.on
    rw [State.rd_wr_same]
    rfl
  rw [State.resetIsland, if_neg (by omega), State.resetSettle]
  simp [hst', hsw', hask]

end

end Sys2Proof.Machine

namespace Sys2Proof
open Machine

/-- Settles O37. -/
theorem powerUpSteps : Obligations.PowerUpSteps := by
  refine ⟨fun f s => ⟨?progLow, ?progHigh⟩, fun f s hready hhard => ?release, fun r s => ?rail, fun a s hrail haux => ?aux,
    fun g s hphase hpower => ?stage, fun r s hr hphase => ?loss, fun s hphase => ⟨?clocks, fun ha hb => ?noRef⟩,
    fun s hphase htrng => ?keys, fun s hphase hretry => ?retry, fun n s => ⟨?device, fun hphase => ?engine, fun hn hst hsw => ?island⟩,
    fun n s hst hask hup => ?islRelease, fun s hidle => ?auto,
    fun s => ⟨s.wr Hid.perst 1, rfl, .wr _ (by simp) (.refl _ s), State.rd_wr_same ..⟩, fun s => ?vccAux⟩
  case progLow =>
    show execProgNLow s = _
    rw [execProgNLow]
  case progHigh =>
    show execProgNRelease f s = _
    rw [execProgNRelease]
  case device =>
    show Host.Outcome.next (s.sysResetDevice 0xA5) = _
    rw [State.sysResetDevice, if_neg (by decide)]
  case release =>
    show Host.Outcome.next (s.porRelease f) = _
    rw [State.porRelease, if_neg (by simp [hready])]
    dsimp only
    rw [hhard, if_neg (by decide)]
  case rail => exact ⟨s.setB Hid.railOk r, rfl, (OnlyFields.refl _ s).setB _ (by simp), bitOf_setB s _ r.isLt⟩
  case aux =>
    show execAuxPorRelease a [] s = _
    rw [execAuxPorRelease, if_pos (by simp [hrail, haux])]
    rfl
  case stage =>
    exact ⟨s.setB Hid.islPower g, congrArg Host.Outcome.next (if_pos ⟨hphase, hpower⟩), (OnlyFields.refl _ s).setB _ (by simp),
      bitOf_setB s _ g.isLt⟩
  case loss =>
    show execMainRailLoss r s = _
    rw [execMainRailLoss]
    dsimp only
    rw [if_neg hr, if_neg hphase]
  case clocks =>
    refine ⟨_, congrArg Host.Outcome.next (if_pos hphase), .wr _ (by simp) (.wr _ (by simp) (.wr _ (by simp) (.refl _ s))), ?_, ?_,
      State.rd_wr_same ..⟩ <;>
      simp (disch := decide) only [State.rd_wr_ne, State.rd_wr_same] <;> rfl
  case noRef => exact congrArg Host.Outcome.next (if_pos ⟨hphase, by simp [ha], by simp [hb]⟩)
  case keys => exact congrArg Host.Outcome.next (if_pos ⟨hphase, by simp [htrng]⟩)
  case retry => exact congrArg Host.Outcome.next (if_pos ⟨hphase, hretry⟩)
  case engine =>
    show Host.Outcome.next (s.sysResetEngine 0xA5) = _
    rw [State.sysResetEngine, if_neg (by decide), if_neg (by omega)]
  case island =>
    show Host.Outcome.next (s.sysResetIsland 0xA5 n) = _
    rw [State.sysResetIsland, if_neg (by omega), resetIsland_running s hst hsw hn]
  case islRelease =>
    have hsettle : s.resetSettle n = s := by simp [State.resetSettle, hask]
    show execIslandResetRelease n s = _
    rw [execIslandResetRelease, hsettle]
    dsimp only
    rw [if_pos ⟨hst, .inl (by simp [hup])⟩]
  case auto =>
    refine ⟨s.autoSaved, congrArg Host.Outcome.next (if_neg (by simp [hidle])), autoSaved_only s, State.rd_wr_same ..⟩
  case vccAux =>
    exact ⟨_, rfl, rfl, rfl, rfl, mainReset_records s keptAlways⟩

end Sys2Proof
end

section

namespace Sys2Proof.Machine

/-! ### Taking a command of Peony (R443, R461, R464) -/

/-- The command with which a master asks Peony for code `c + 1` is the write of that code. -/
theorem exec_peoCommand (m : Master) (c : Fin 15) (s : State) :
    exec ([Instr.peoChallenge m, .peoToken m, .peoAttest m, .peoGetCert m, .peoFuseWrite m, .peoFuseRepair m, .peoSetSvn m,
      .peoRevoke m, .peoInstallKey m, .peoSealKey m, .peoProvision m, .peoDeploy m, .peoReturn m, .peoWipeSecure m,
      .peoLock m].getD c (.peoLock m)) s = .next (s.peoCmd m (c + 1)) := by
  fin_cases c <;> rfl

/-- What an accepted command records: an attestation its body beside the operands. -/
def State.peoTaken (s : State) (code : Nat) : State :=
  if code = 3 then (s.peoBegin code).wr Hid.peoBody (ofLeBytes s.attestBody) else s.peoBegin code

section
variable (s : State) (code : Nat)

theorem peoCmd_legal (m : Master) (hadmin : 5 ≤ code → classOf m < 5 ∧ s.bitOf Reg.PEO_ADMIN (classOf m) = true)
    (hidle : s.on Reg.PEO_STAT_BUSY = false) (hlegal : s.peoLegal code = true) : s.peoCmd m code = s.peoTaken code := by
  have hpass : (decide (5 ≤ code) && decide (code ≤ 15) && !(decide (classOf m < 5) && s.bitOf Reg.PEO_ADMIN (classOf m))) = false := by
    by_cases h : 5 ≤ code
    · obtain ⟨hclass, hbit⟩ := hadmin h
      simp [hclass, hbit]
    · simp [h]
  unfold State.peoCmd
  dsimp only
  rw [hpass, hidle, hlegal, if_neg (by decide), if_neg (by decide)]
  rfl

theorem peoTaken_only : OnlyFields [Reg.PEO_STAT_BUSY, Hid.peoCode, Hid.peoBody, Hid.peoBuf, Hid.peoBufKey, Hid.peoAddr, Hid.peoData]
    s (s.peoTaken code) := by
  unfold State.peoTaken State.peoBegin
  split <;> iterate 6 refine OnlyFields.wr _ (by simp) ?_
  · exact (OnlyFields.refl _ s).wr _ (by simp)
  · exact .refl _ s

theorem rd_peoTaken {g : Fld} (h : g.key ≠ Hid.peoBody.key) : (s.peoTaken code).rd g = (s.peoBegin code).rd g := by
  unfold State.peoTaken
  rw [rd_ite, State.rd_wr_ne _ _ h, ite_self]

end

/-! ### The end of a command (R464) -/

section
variable (s : State)

/-- The state of a command's end before its event (R464). -/
def State.peoEnded (s : State) (len cause : Nat) : State :=
  (((s.wr Reg.PEO_STAT_BUSY 0).wr Reg.PEO_RESULT_LEN len).wr Reg.PEO_RESULT_CAUSE cause).wr Reg.PEO_RESULT_RESULT
    (if cause = 0 then 1 else 2)

theorem peoEnd_own (len cause : Nat) (h : s.rd Hid.peoCode < 0x40) :
    s.peoEnd len cause = (s.peoEnded len cause).raiseB Reg.PEO_EVT_EVT 1 19 := by
  rw [State.peoEnd, if_neg (by omega)]
  rfl

end

end Sys2Proof.Machine

namespace Sys2Proof
open Machine

/-- Settles O38: a legal command records its operands, and each code ends as its rule says. -/
theorem securityCommandSteps : Obligations.SecurityCommandSteps := by
  refine ⟨fun m c s hidle hlegal hadmin => ?take, fun g s hbusy => ⟨fun hc => ?fuse, fun hc => ?revoke, fun hc => ?provision,
    fun hc => ?deploy, fun hc => ?wipe, fun hc => ?lock, fun htrng hc => ?challenge, fun hc r hr => ?dbgToken, fun hc => ?repair,
    fun j hc hj => ?svn⟩, fun g d s t hbusy hread => ⟨fun hc => ?token, fun hc => ?ret⟩, fun g c b d s u t hbusy =>
    ⟨fun hc hsign hwrite => ?attest, fun hc hwrite => ?cert, fun hc hread => ?install, fun hc hlo hhi hread hwrite => ?sealKey⟩,
    fun s len c hc => ?ended, fun s => rfl, fun k s hon => ⟨?tamper, ?tamperRepeat⟩, fun s hv hrem => ?expire⟩
  case take =>
    refine ⟨s.peoTaken (c + 1), ?_, peoTaken_only s _, ?_, ?_, ?_, ?_, ?_, ?_⟩
    · refine (exec_peoCommand m c s).trans ?_
      rw [peoCmd_legal s _ m (fun h => hadmin (by omega)) hidle hlegal]
    all_goals
      rw [rd_peoTaken s _ (by decide), State.peoBegin]
      simp (disch := decide) only [State.rd_wr_ne, State.rd_wr_same]
    · rfl
    · exact Nat.mod_eq_of_lt (show c.val + 1 < 2 ^ 8 by omega)
    · exact Nat.mod_eq_of_lt (State.rd_lt s Reg.PEO_BUF)
    · exact Nat.mod_eq_of_lt (State.rd_lt s Reg.PEO_BUF_KEY)
    · exact Nat.mod_eq_of_lt (State.rd_lt s Reg.PEO_FUSE_ADDR)
    · exact Nat.mod_eq_of_lt (State.rd_lt s Reg.PEO_FUSE_DATA)
  case ended =>
    refine ⟨s.peoEnded len c, peoEnd_own s len c hc, ?_, ?_, ?_⟩
    · unfold State.peoEnded
      iterate 4 refine OnlyFields.wr _ (by simp) ?_
      exact .refl _ s
    · rw [State.peoEnded]
      simp (disch := decide) only [State.rd_wr_ne, State.rd_wr_same]
      rfl
    · rw [State.peoEnded, State.rd_wr_same]
      split <;> rfl
  case tamper => exact congrArg Host.Outcome.next (if_neg (by simp [hon]))
  case tamperRepeat =>
    refine (congrArg Host.Outcome.next (if_pos hon)).trans ?_
    rw [State.startWipe]
  case expire =>
    refine congrArg Host.Outcome.next ((if_pos hrem).trans ?_)
    rw [State.tokenEnd, if_pos hv]
  all_goals
    show execPeoCmdDone g none s = _
    rw [execPeoCmdDone, if_neg (by simp [hbusy])]
  case challenge =>
    rcases hc with hc | hc <;> simp only [hc, htrng, Bool.false_eq_true, if_false]
  case dbgToken =>
    subst hr
    simp only [hc]
  case svn =>
    simp only [hc, hj]
    rfl
  case token =>
    simp only [hc, hread]
    rfl
  case ret =>
    simp only [hc, hread, ne_eq, not_true_eq_false, if_false, ite_not]
  case attest => simp only [hc, hsign, hwrite]
  case cert => simp only [hc, hwrite]
  case install =>
    simp only [hc, State.installKey, hread, ne_eq, not_true_eq_false, if_false]
    cases g <;> rfl
  case sealKey =>
    have hin : ¬(64 * s.rd Hid.peoBuf < secBase ∨ secBase + secSize < 64 * s.rd Hid.peoBuf + 32) := by omega
    simp only [hc, State.sealKey, hread, hwrite, hin, ne_eq, not_true_eq_false, if_false]
  case fuse =>
    simp only [hc]
    rfl
  case revoke =>
    simp only [hc]
    rfl
  all_goals simp only [hc]

end Sys2Proof
end

section

namespace Sys2Proof.Machine

/-! ### Frames, golden copies and engines (R467 to R479, R492) -/

section
variable {s : State}

/-- A frame after the upset since its last check, counted for its engine and checked (R470). -/
def State.upsetChecked (s : State) (n : Fin 80) (c : Fin 8) (f : Fin 1600) (d : BitVec 2048) (k : BitVec 96) (g : Fin 3) (e : Nat)
    (deep : Bool) : State :=
  (((s.wr (Hid.cfgFrame n c f) (s.rd (Hid.cfgFrame n c f) ^^^ d.toNat)).wr (Hid.frameSyn n c f)
    (s.rd (Hid.frameSyn n c f) ^^^ frameCheck d.toNat ^^^ k.toNat)).add (Reg.SCB_ENG_FRAMES e) 1).scrubFrame n c f g deep

section
variable {n : Fin 80} {c : Fin 8} {f : Fin 1600} {d : BitVec 2048} {k : BitVec 96} {g : Fin 3} {e : Nat} {s0 : State}
  (hplane : s.scrubbed n c = true) (hsw : s.on (Reg.ISL_STAT_SWITCHING n) = false) (hheld : s.cfgHeld n = false)
  (heng : s.engineOf n = some e)
include hplane hsw hheld heng

/-- A steering frame is checked on request out of turn (R224). -/
theorem execScrubFrame_urgent (hurg : (f.val == 1599 && s.on (Hid.vbHeld (80 + n))) = true) (hshare : s.frameShare e n true = some s0) :
    exec (.scrubFrame n c f d k g []) s = .next (s0.upsetChecked n c f d k g e s.deepPass) := by
  show execScrubFrame n c f d k g [] s = _
  unfold execScrubFrame
  simp only [hurg, hplane, heng, hsw, hheld, hshare, Bool.not_true, Bool.false_and, Bool.not_false, Bool.true_and,
    Bool.or_self, Bool.false_eq_true, if_false, if_true]
  rfl

/-- The next frame of the pass is checked where nothing is asked for (R469). -/
theorem execScrubFrame_pass (hurg : (f.val == 1599 && s.on (Hid.vbHeld (80 + n))) = false) (hshare : s.frameShare e n false = some s0)
    (hen : s.on Reg.SCB_CTRL_EN = true) (hask : s.askNext e = none) (hnext : s.scrubNext e = some (8 * n.val + c.val, f.val)) :
    exec (.scrubFrame n c f d k g []) s = .next ((s0.upsetChecked n c f d k g e s.deepPass).passOn n c f) := by
  show execScrubFrame n c f d k g [] s = _
  unfold execScrubFrame
  have hturn : (none == some (8 * n.val + c.val, f.val)) = false := rfl
  simp only [hurg, hplane, heng, hsw, hheld, hshare, hen, hask, hnext, hturn, Bool.not_true, Bool.not_false, Bool.and_false,
    Bool.and_true, Bool.or_self, Option.isSome_none, bne_self_eq_false, Bool.true_and, Bool.false_eq_true, if_false]
  rfl

/-- A frame that SCRUB_NOW asks for is checked ahead of the pass, and not compared with its golden copy (R492). -/
theorem execScrubFrame_asked (hurg : (f.val == 1599 && s.on (Hid.vbHeld (80 + n))) = false) (hshare : s.frameShare e n false = some s0)
    (hask : s.askNext e = some (8 * n.val + c.val, f.val)) :
    exec (.scrubFrame n c f d k g []) s = .next ((s0.upsetChecked n c f d k g e false).askOn n c f) := by
  show execScrubFrame n c f d k g [] s = _
  unfold execScrubFrame
  simp only [hurg, hplane, heng, hsw, hheld, hshare, hask, beq_self_eq_true, Bool.not_true, Bool.not_false, Bool.and_false,
    Bool.false_and, Bool.and_true, Bool.or_self, Bool.false_eq_true, if_false, if_true]
  rfl

end

/-- The build of a golden copy whose turn has come and that its share admits (R467, R473). -/
theorem execGoldenBuild_turn {n : Fin 80} {c : Fin 8} {u : Fin 65536} {t v : State} (hb : s.bitOf (Reg.SCB_GOLD_BUILDING n) c = true)
    (hnext : s.buildNext = some (8 * n.val + c.val)) (hshare : s.buildShare n u = some t)
    (hv : v = (({ t with fifos := Tab.set t.fifos 50 [] (t.builds.filter (fun k => k != 8 * n.val + c.val)) } : State).clrB
      (Reg.SCB_GOLD_BUILDING n) c).building) :
    exec (.goldenBuild n c u) s = .next (v.buildPlane n c u) := by
  subst hv
  show execGoldenBuild n c u s = _
  unfold execGoldenBuild
  rw [hb, hnext, hshare, if_neg (by decide), if_neg (by simp)]

end

end Sys2Proof.Machine

namespace Sys2Proof
open Machine

/-- Settles O39. -/
theorem scrubSteps : Obligations.ScrubSteps := by
  refine ⟨fun n c f d k g e urgent s s0 t hplane hsw hheld heng hurg hshare ht => ⟨fun hu => ?_, fun hu hen hask hnext => ?_,
    fun hu hdeep hask => ?_⟩, fun n c f b g deep s h => ?fix,
    fun n c u s t v hb hnext hshare hv hplane hgood => ⟨fun hfull => ?full, fun hroom => ?room⟩,
    fun e k s hlen hchk hon => ?xcheck, fun b s hacc => ?recheck, fun e s hst hchk => ?reload,
    fun n c s hn => ⟨fun hplane heng => ?now, fun hvalid hload hbuild => ?rebuild⟩, fun e s he hst => ?restore, fun s => ?clr,
    fun k s => ?leak⟩
  case fix =>
    unfold State.scrubFrame
    cases b <;> simp only [h]
  case full =>
    rw [execGoldenBuild_turn hb hnext hshare hv, State.buildPlane]
    dsimp only
    rw [hplane, hgood, if_neg (by decide), if_pos hfull]
  case room =>
    refine ⟨_, execGoldenBuild_turn hb hnext hshare hv, ?_⟩
    unfold State.buildPlane
    dsimp only
    rw [hplane, hgood, if_neg (by decide), if_neg (by omega)]
    exact bitOf_setB _ _ c.isLt
  case xcheck =>
    have hst : s.rd (Reg.SCB_ENG_STATE e) = 0 := by simpa [State.engOn] using hon
    refine ⟨((s.wr Hid.accV 1).wr Hid.accEng e).wr Hid.accCause (k + 1), ?_, .wr _ (by simp) (.wr _ (by simp) (.wr _ (by simp)
      (.refl _ s))), ?_, ?_, ?_⟩
    · show execEngineXcheck e (some k) s = _
      simp [execEngineXcheck, hchk, hst, hon, hlen]
    · simp (disch := decide) only [State.rd_wr_ne, State.rd_wr_same]
      rfl
    · simp (disch := decide) only [State.rd_wr_ne, State.rd_wr_same]
      exact Nat.mod_eq_of_lt (show e.val < 2 ^ 2 by omega)
    · rw [State.rd_wr_same]
      exact Nat.mod_eq_of_lt (show k.val + 1 < 2 ^ 3 by omega)
  case recheck =>
    show execEngineRecheck b s = _
    simp only [execEngineRecheck, hacc, Bool.not_true, Bool.false_eq_true, if_false]
  case reload =>
    exact ⟨s.wr (Hid.engReady e) 1, (congrArg Host.Outcome.next (if_neg (not_not.2 hst))).trans (congrArg Host.Outcome.next (if_pos hchk)),
      .wr _ (by simp) (.refl _ s), State.rd_wr_same ..⟩
  case now => exact congrArg Host.Outcome.next (if_neg (by simp [hplane, heng]; omega))
  case rebuild => exact congrArg Host.Outcome.next (if_neg (by simp [hvalid, hload, hbuild]; omega))
  case restore =>
    refine ⟨_, congrArg Host.Outcome.next (if_neg (by omega)), .wr _ (by simp) (.wr _ (by simp) (.wr _ (by simp) (.wr _ (by simp)
      (.refl _ s)))), ?_, ?_, State.rd_wr_same ..⟩ <;>
      simp (disch := with_unfolding_all (refine key_ne rfl rfl ?_; omega)) only [State.rd_wr_ne, State.rd_wr_same] <;> rfl
  case clr =>
    refine ⟨s.scbClrCnt, rfl, .wr _ (by simp) (.wr _ (by simp) (.wr _ (by simp) (.wr _ (by simp) (.wr _ (by simp) (.refl _ s))))),
      ?_, ?_, ?_, ?_⟩ <;>
      simp (disch := decide) only [State.scbClrCnt, State.rd_wr_ne, State.rd_wr_same] <;> rfl
  case leak =>
    have hne : (Reg.TEL_LB_LEVEL k).key ≠ (Reg.TEL_LB_TRIP k).key := by with_unfolding_all (refine key_ne rfl rfl ?_; omega)
    refine ⟨_, rfl, leak_only .., ?_, ?_⟩
    · rw [rd_leak_level _ _ hne]
      exact Nat.mod_eq_of_lt ((Nat.sub_le _ 1).trans_lt (State.rd_lt s _))
    · split
      next h => exact rd_leak_trip _ _ h
      next h => rw [State.leak, if_neg h, State.rd_wr_ne _ _ hne.symm]
  · subst ht hu
    exact execScrubFrame_urgent hplane hsw hheld heng hurg.symm hshare
  · subst ht hu
    exact execScrubFrame_pass hplane hsw hheld heng hurg.symm hshare hen hask hnext
  · subst ht hu
    rw [hdeep]
    exact execScrubFrame_asked hplane hsw hheld heng hurg.symm hshare hask

end Sys2Proof
end

section

namespace Sys2Proof.Machine

/-! ### Self-tests (R480 to R482, R492) -/

/-- A RUN command is the run of its target. -/
theorem exec_bstRun (i : Fin 128) (t : Fin 11) (s : State) :
    exec ([Instr.bstRunEngines i, .bstRunRouter i, .bstRunIsland i, .bstRunPlanes i, .bstRunBank i, .bstRunHbm i,
      .bstRunSpareRank i, .bstRunCaches i, .bstRunPort i, .bstRunAnalog i, .bstRunDahlia i].getD t .bstAbort) s
      = .next (s.bstRun t i) := by
  fin_cases t <;> rfl

theorem bstRun_legal {s u : State} {t : Fin 11} {i : Nat} (hidle : s.on Reg.BST_STAT_BUSY = false) (hlegal : s.bstLegal t i = true)
    (hu : u = ((s.wr Reg.BST_STAT_BUSY 1).wr Hid.bstTgt t).wr Hid.bstIdx i) :
    s.bstRun t i = if t = 1 then u.rtrDrain i 2 else if t = 5 then u.wr Reg.HBM_STAT_FILLED 0
      else if t = 7 then u.cache.foldl (fun v x => v.cleanLine x.1) u else u := by
  have hnum (k : Fin 11) : t.val = k.val ↔ t = k := Fin.ext_iff.symm
  have h1 : t.val = 1 ↔ t = 1 := hnum 1
  have h5 : t.val = 5 ↔ t = 5 := hnum 5
  have h7 : t.val = 7 ↔ t = 7 := hnum 7
  rw [State.bstRun, if_neg (by simp [hidle, hlegal])]
  dsimp only
  rw [← hu]
  simp only [h1, h5, h7]
  rfl

section
variable (s : State)

/-- The history of a target is 0. -/
def State.HistClear (k : Nat) : Prop := s.rd (Reg.BST_HIST_FAILS k) = 0 ∧ s.rd (Reg.BST_HIST_RUNS k) = 0

theorem bstClrCnt_clear (k : Fin 11) : s.bstClrCnt.HistClear k := by
  have hclear (v : State) (j : Nat) (hj : j < 11) : ((v.wr (Reg.BST_HIST_FAILS j) 0).wr (Reg.BST_HIST_RUNS j) 0).HistClear j := by
    unfold State.HistClear
    simp (disch := with_unfolding_all (refine key_ne rfl rfl ?_; omega)) only [State.rd_wr_ne, State.rd_wr_same, Nat.zero_mod,
      and_self]
  refine each_establishes (P := fun v => v.HistClear k) (List.mem_range.2 k.isLt) (fun v => hclear v k k.isLt) (fun j hj v hv => ?_) _
  have hj := List.mem_range.1 hj
  by_cases hjk : j = k.val
  · exact hjk ▸ hclear v j hj
  · unfold State.HistClear at *
    simpa (disch := with_unfolding_all (refine key_ne rfl rfl ?_; omega)) only [State.rd_wr_ne] using hv

theorem bstClrCnt_cells : CellsOnly s s.bstClrCnt :=
  CellsOnly.each (fun _ _ _ hv => (hv.wr _ _).wr _ _) (.refl s)

end

end Sys2Proof.Machine

namespace Sys2Proof
open Machine

/-- Settles O40. -/
theorem selfTestSteps : Obligations.SelfTestSteps := by
  refine ⟨fun i t s hidle hlegal u hu => ?_, fun s hbusy htgt => ?_,
    fun s => ⟨s.bstClrCnt, rfl, bstClrCnt_cells s, bstClrCnt_clear s⟩, fun us s u hbusy htgt hu => ?_⟩
  · rw [exec_bstRun, bstRun_legal hidle hlegal hu]
  · show Host.Outcome.next s.bstAbort = _
    rw [State.bstAbort, if_neg (by simp [hbusy])]
    dsimp only
    rw [if_neg htgt]
  · have hrouter : (!s.on Reg.BST_STAT_BUSY || (s.bstIs 1 && s.rd (Reg.NOC_RTR_STAT_STATE (s.rd Hid.bstIdx)) == 1)) = false := by
      simp [hbusy, State.bstIs, htgt]
    subst hu
    show execBstDone true [] 0 us s = _
    unfold execBstDone
    rw [hrouter, htgt, if_neg (by decide)]
    simp [State.bstEffect, State.bstEvt]

end Sys2Proof
end

section

namespace Sys2Proof.Machine

/-! ### Calibration and telemetry (R483 to R492) -/

section
variable {s : State}

/-- The interval of an item's unit is its calibration, but of HBM_DQ and of a lane of a probe port (R483). -/
theorem execCalItemDue_run {i : Fin 7} {j : Fin 169} (b : Bool) (hj : j.val < calInstances i) (hi : i.val = 1 ∨ 3 ≤ i.val) :
    exec (.calItemDue i j b) s = .next (State.calRun i j b s) := by
  show execCalItemDue i j b s = _
  rw [execCalItemDue, if_neg (by omega), if_neg (by omega), if_neg (by omega)]

/-- The interval of a lane whose calibration neither fails nor ages (R52 to R54). -/
theorem laneInterval_pending {p k : Nat} (hst : s.rd (Reg.PRB_STAT_STATE p) ≠ 0) (hlane : s.on (Reg.PRB_LN_CTRL_OFF p k) = false)
    (hloop : s.rd (Reg.PRB_CTRL_LOOP p) ≠ 2) (hblk : s.calBlocked 0 = false) (hdeg : s.on (Hid.calDeg 0 (16 * p + k)) = false)
    (hage : min (s.rd (Hid.calIvals p k) + 1) 65535 ≤ s.rd (Reg.PRB_CAL_CTRL_AGE_LIMIT p)) :
    s.laneInterval p k false = ((s.wr (Hid.calMode p k) (s.rd (Reg.PRB_CAL_CTRL_MODE p))).wr (Hid.calIvals p k)
      (min (s.rd (Hid.calIvals p k) + 1) 65535)).wr (Hid.calPend p k) 1 := by
  unfold State.laneInterval
  dsimp only
  rw [hblk, hdeg, if_neg (by simp [hst, hlane, hloop]), if_neg (by simp; omega)]
  rfl

theorem calClrCnt_item (i : Fin 7) : s.calClrCnt.rd (Reg.CAL_ITEM_FORCED i) = 0 :=
  rd_each_wr (fun i => Reg.CAL_ITEM_FORCED i) (fun _ => 0) (List.mem_range.2 i.isLt) (fun j hj hne => by
    have hj := List.mem_range.1 hj
    with_unfolding_all (refine key_ne rfl rfl ?_; omega)) s

/-- The counts of a class are 0 (R492). -/
def State.ClassClear (s : State) (k : Nat) : Prop := s.rd (Reg.TEL_CLS_CE k) = 0 ∧ s.rd (Reg.TEL_CLS_UE k) = 0
  ∧ s.rd (Reg.TEL_LB_LEVEL k) = 0 ∧ s.rd (Reg.TEL_LB_TRIP k) = 0

/-- The counts of a class are cleared. -/
def State.clrClass (k : Nat) (t : State) : State :=
  (((t.wr (Reg.TEL_CLS_CE k) 0).wr (Reg.TEL_CLS_UE k) 0).wr (Reg.TEL_LB_LEVEL k) 0).wr (Reg.TEL_LB_TRIP k) 0

theorem clrClass_clear (v : State) (k : Nat) : (State.clrClass k v).ClassClear k := by
  unfold State.ClassClear State.clrClass
  simp (disch := with_unfolding_all (refine key_ne rfl rfl ?_; omega)) only [State.rd_wr_ne, State.rd_wr_same, Nat.zero_mod, and_self]

theorem telClrCnt_eq : s.telClrCnt = State.each (List.range 8) State.clrClass s := rfl

theorem telClrCnt_class (k : Fin 8) : s.telClrCnt.ClassClear k := by
  rw [telClrCnt_eq]
  refine each_establishes (P := fun v => v.ClassClear k) (List.mem_range.2 k.isLt) (fun v => clrClass_clear v k)
    (fun j hj v hv => ?_) _
  have hj := List.mem_range.1 hj
  by_cases hjk : j = k.val
  · exact hjk ▸ clrClass_clear v j
  · unfold State.ClassClear State.clrClass at *
    simpa (disch := with_unfolding_all (refine key_ne rfl rfl ?_; omega)) only [State.rd_wr_ne] using hv

theorem telClrCnt_cells : CellsOnly s s.telClrCnt :=
  CellsOnly.each (fun _ _ _ hv => (((hv.wr _ _).wr _ _).wr _ _).wr _ _) (.refl s)

/-- A telemetry record that Dahlia's budget admits (R488). -/
theorem telWrite_admitted {v : State} (h : s.dahTake 256 s.jnlWaits = some v) :
    s.telWrite true = ((v.dahWrite (0x1F500000 + s.rd Reg.TEL_REC_WR % 32768 * 256) s.telRecord).wr Reg.TEL_REC_WR
      (s.rd Reg.TEL_REC_WR + 1)).wr Hid.telThr 0 := by
  rw [State.telWrite, h]
  rfl

/-- The captured entry is written where it is due and Dahlia's budget admits it (R489). -/
theorem journalWrite_admitted {v : State} (hcap : s.on Hid.jnlV = true) (hphase : 4 ≤ s.rd Reg.SYS_BOOT_STAT_PHASE)
    (hv : s.dahTake 4096 false = some v) :
    exec (.journalWrite true) s = .next ((((((v.wr Hid.jnlV 0).wr Hid.jnlBody 0).dahWrite
      (0x1FD00000 + s.rd Reg.TEL_JNL_WR % 512 * 4096) (leBytes 4096 (s.rd Hid.jnlBody))).wr Reg.TEL_JNL_WR
        (s.rd Reg.TEL_JNL_WR + 1)).inc Hid.jnlCount 1).telEvt 1) := by
  have hwaits : (!s.jnlWaits) = false := by simp [State.jnlWaits, hcap, hphase]
  refine congrArg Host.Outcome.next ?_
  generalize leBytes 4096 (s.rd Hid.jnlBody) = body
  simp only [hwaits, hv, Bool.false_eq_true, if_false, Bool.not_true]

end

end Sys2Proof.Machine

namespace Sys2Proof
open Machine

/-- Settles O41. -/
theorem calibrationTelemetrySteps : Obligations.CalibrationTelemetrySteps := by
  refine ⟨fun j b s => ⟨fun i hj hi => execCalItemDue_run b hj hi, fun hj => ?dqDue, fun p k n hp hk hn hj hblk hdeg hst hlane hloop hage
    => ?lane⟩, fun x s => ⟨fun hlo hhi => ?vrefGood, fun hbad => ?vrefBad⟩, fun pc s hdue => ⟨fun hq => ?dqCal, fun hgrace => ?dqForced⟩,
    fun pc s => rfl, fun i j s hlo hhi hj hall hblk => ?calNow,
    fun s => ⟨s.calClrCnt, rfl, CellsOnly.each (fun _ _ _ hv => hv.wr _ _) (.refl s), calClrCnt_item⟩,
    fun s v hen hv t ht => ⟨?record, ?snapshot⟩, fun a n d s t ha hn hlo hhi hin hcount hread => ?user,
    fun s => ⟨s.telClrCnt, rfl, telClrCnt_cells, telClrCnt_class⟩, fun s v u hcap hphase hv hu => ?journal⟩
  case dqDue =>
    have hj16 : j.val < 16 := hj
    refine ⟨(s.wrIf (!s.on (Hid.hbmDqDue j)) (Hid.hbmDqAt j) s.now).wr (Hid.hbmDqDue j) 1, ?_,
      ((OnlyFields.refl _ s).wrIf _ _ (by simp)).wr _ (by simp), State.rd_wr_same .., ?_⟩
    · show execCalItemDue 2 j b s = _
      rw [execCalItemDue, if_neg (by show ¬(16 ≤ j.val); omega)]
      exact congrArg Host.Outcome.next (if_pos rfl)
    · rw [State.rd_wr_ne _ _ (by with_unfolding_all (refine key_ne rfl rfl ?_; omega)), State.wrIf]
      cases s.on (Hid.hbmDqDue j)
      · exact (State.rd_wr_same ..).trans (Nat.mod_eq_of_lt (State.rd_lt s Reg.TSB_NOW))
      · rfl
  case lane =>
    have hjpk : 16 * p + k = j.val := by omega
    have hexec : exec (.calItemDue 0 j false) s = .next (s.laneInterval p k false) := by
      show execCalItemDue 0 j false s = _
      rw [execCalItemDue, if_neg (by show ¬(80 ≤ j.val); omega), if_neg (by decide), if_pos ⟨rfl, hj⟩, hp, hk]
    rw [laneInterval_pending hst hlane hloop hblk (hjpk ▸ hdeg) (hn ▸ hage), ← hn] at hexec
    refine ⟨_, hexec, .wr _ (by simp) (.wr _ (by simp) (.wr _ (by simp) (.refl _ s))), ?_, ?_, State.rd_wr_same ..⟩
    · simp (disch := with_unfolding_all (refine key_ne rfl rfl ?_; omega)) only [State.rd_wr_ne, State.rd_wr_same]
      exact Nat.mod_eq_of_lt (State.rd_lt s (Reg.PRB_CAL_CTRL_MODE p))
    · simp (disch := with_unfolding_all (refine key_ne rfl rfl ?_; omega)) only [State.rd_wr_ne, State.rd_wr_same]
      exact Nat.mod_eq_of_lt (show n < 2 ^ 16 by omega)
  case vrefGood =>
    have hgood : (decide (x.toNat < 9800) || decide (10200 < x.toNat)) = false := by simp; omega
    refine ⟨(s.wr Reg.CAL_VREF x.toNat).wr Reg.CAL_STAT_VREF_BAD 0, ?_, .wr _ (by simp) (.wr _ (by simp) (.refl _ s)), ?_,
      State.rd_wr_same ..⟩
    · show execVrefCheck x s = _
      unfold execVrefCheck
      dsimp only
      rw [hgood]
      rfl
    · rw [State.rd_wr_ne _ _ (by decide), State.rd_wr_same]
      exact Nat.mod_eq_of_lt x.isLt
  case vrefBad =>
    have hbad : (decide (x.toNat < 9800) || decide (10200 < x.toNat)) = true := by simpa using hbad
    show execVrefCheck x s = _
    unfold execVrefCheck
    dsimp only
    rw [hbad]
    rfl
  case dqCal => exact congrArg Host.Outcome.next (if_pos (by simp [hdue, hq]))
  case dqForced =>
    show execHbmDqForced pc s = _
    rw [execHbmDqForced, if_neg (by simp [hdue, hgrace])]
    rfl
  case calNow =>
    have hone : (j.toNat == 255) = false := by
      simpa using fun h : j.toNat = 255 => hall (BitVec.eq_of_toNat_eq h)
    show Host.Outcome.next (s.calNow i j.toNat) = _
    unfold State.calNow
    dsimp only
    rw [hone, hblk, if_neg (by simp; omega), if_neg (by decide)]
    rfl
  case record =>
    show execTelRecord true s = _
    rw [execTelRecord, if_pos hen, telWrite_admitted hv, ht]
  case snapshot =>
    show Host.Outcome.next (s.telSnapshot true) = _
    rw [State.telSnapshot, if_pos hen, telWrite_admitted hv, ht]
  case user =>
    subst ha hn
    show Host.Outcome.next s.journalUser = _
    unfold State.journalUser
    dsimp only
    rw [hread, if_neg (by simp [hin]; omega)]
    rfl
  case journal => exact hu ▸ journalWrite_admitted hcap hphase hv

end Sys2Proof
end

section

namespace Sys2Proof.Machine

/-! ### The power measurement (R497, R498, R500) -/

/-- The measured powers and their history. -/
def Fld.Measured (g : Fld) : Prop :=
  (0x14000700 ≤ g.key ∧ g.key < 0x14001200) ∨ (0x4310000000 ≤ g.key ∧ g.key < 0x4314000000)

theorem Fld.Measured.ne {g f : Fld} {b o l : Nat} (h : g.Measured) (hkey : f.key = (b * 1048576 + o) * 64 + l)
    (hplace : ∀ k, k = (b * 1048576 + o) * 64 + l → (k < 0x14000700 ∨ 0x14001200 ≤ k) ∧ (k < 0x4310000000 ∨ 0x4314000000 ≤ k)) :
    g.key ≠ f.key := by
  intro hsame
  have hf := hplace f.key hkey
  unfold Fld.Measured at h
  omega

theorem Fld.Measured.calm {g : Fld} (h : g.Measured) {e : Nat} (he : e < 1024) : g.Calm e := by
  refine ⟨he, fun k hk => ?_⟩
  unfold Fld.Measured at h
  omega

/-- What follows a measurement: each island against its declaration, the governor and the ballast's display. -/
def State.governed (s : State) (current : List (BitVec 16)) : State :=
  (State.each (List.range 80) (fun n t => (t.wr (Hid.islCur n) (current.getD n 0).toNat).declStep n) s).govStep.balShow

section
variable (s : State) {g : Fld}

theorem rd_balShow (hready : g.key ≠ Reg.AST_STAT_BAL_READY.key) (htotal : g.key ≠ Reg.AST_BAL_TOTAL.key) :
    s.balShow.rd g = s.rd g := by
  rw [State.balShow, State.rd_wr_ne _ _ htotal, State.rd_wr_ne _ _ hready]

theorem rd_govStep_measured (h : g.Measured) : s.govStep.rd g = s.rd g := by
  have hraise (t : State) : (t.astEvt 3).rd g = t.rd g :=
    rd_raiseB t (h.calm (by decide)) _ _ (by with_unfolding_all (refine h.ne rfl ?_; omega))
  delta State.govStep
  extract_lets lim lvl wait sum up l1 l2 k unmet s1 s2
  rw [State.rd_wr_ne _ _ (by with_unfolding_all (refine h.ne rfl ?_; omega)), rd_ite, hraise, ite_self]
  simp (disch := with_unfolding_all (refine h.ne rfl ?_; omega)) only [s1, State.rd_wr_ne]

theorem rd_declStep_measured (h : g.Measured) (n : Fin 80) : (s.declStep n).rd g = s.rd g := by
  delta State.declStep
  extract_lets above k
  rw [State.wrIf, rd_ite]
  simp (disch := with_unfolding_all (refine h.ne rfl ?_; omega)) only [State.rd_wr_ne, ite_self]

theorem rd_governed (h : g.Measured) (c : List (BitVec 16)) : (s.governed c).rd g = s.rd g := by
  rw [State.governed, rd_balShow _ (by with_unfolding_all (refine h.ne rfl ?_; omega)) (by with_unfolding_all (refine h.ne rfl ?_; omega)),
    rd_govStep_measured _ h]
  refine State.rd_each _ _ _ _ fun n hn t => ?_
  have hn := List.mem_range.1 hn
  rw [rd_declStep_measured _ h ⟨n, hn⟩, State.rd_wr_ne _ _ (by with_unfolding_all (refine h.ne rfl ?_; omega))]

theorem mem_governed (c : List (BitVec 16)) : (s.governed c).mem = s.mem := by
  have hdecl (n : Nat) (t : State) : (t.declStep n).mem = t.mem := by
    delta State.declStep
    extract_lets above k
    exact (mem_ite ..).trans (ite_self _)
  have hgov (t : State) : t.govStep.mem = t.mem := by
    delta State.govStep
    extract_lets lim lvl wait sum up l1 l2 k unmet s1 s2
    have h1 : s1.mem = t.mem := rfl
    show s2.mem = t.mem
    simp only [s2, mem_ite, mem_astEvt, ite_self, h1]
  have hbal (t : State) : t.balShow.mem = t.mem := rfl
  rw [State.governed, hbal, hgov]
  exact mem_each fun n _ t => hdecl n _

/-- The sum of the measured powers. -/
def powerSum (p : List (BitVec 16)) : Nat := (List.range 10).foldl (fun a k => a + (p.getD k 0).toNat) 0

/-- A measurement records the powers and their sum. -/
def State.powerRecorded (s : State) (p : List (BitVec 16)) : State :=
  (State.each (List.range 10) (fun k t => t.wr (Reg.AST_PWR k) (p.getD k 0).toNat) s).wr Reg.AST_PWR_DEV (powerSum p)

/-- A measurement moves the history on, a step for each. -/
def State.powerMeasured (s : State) (p : List (BitVec 16)) : State :=
  (State.each (List.range 9) (fun i t => t.wr (Hid.pwrHist (i + 1)) (s.rd (Hid.pwrHist i))) (s.powerRecorded p)).wr (Hid.pwrHist 0)
    (powerSum p)

theorem execPowerMeasure_governed (p c : List (BitVec 16)) : exec (.powerMeasure p c) s = .next ((s.powerMeasured p).governed c) := by
  show execPowerMeasure p c s = _
  delta execPowerMeasure State.powerMeasured State.powerRecorded State.governed powerSum
  rfl

theorem mem_powerMeasured (p : List (BitVec 16)) : (s.powerMeasured p).mem = s.mem := by
  have hwr (t : State) (f : Fld) (v : Nat) : (t.wr f v).mem = t.mem := rfl
  rw [State.powerMeasured, hwr, mem_each fun i _ t => hwr t _ _, State.powerRecorded, hwr, mem_each fun k _ t => hwr t _ _]

/-- The history is apart from the other registers. -/
theorem rd_powerMeasured_ne (p : List (BitVec 16)) (h : ∀ i < 10, g.key ≠ (Hid.pwrHist i).key) :
    (s.powerMeasured p).rd g = (s.powerRecorded p).rd g := by
  rw [State.powerMeasured, State.rd_wr_ne _ _ (h 0 (by decide))]
  exact State.rd_each _ _ _ _ fun i hi t => State.rd_wr_ne _ _ (h (i + 1) (by have := List.mem_range.1 hi; omega))

theorem rd_powerMeasured_power (p : List (BitVec 16)) (k : Fin 10) :
    (s.powerMeasured p).rd (Reg.AST_PWR k) = (p.getD k 0).toNat % 2 ^ (Reg.AST_PWR k).w := by
  rw [rd_powerMeasured_ne _ _ (fun i hi => by with_unfolding_all (refine key_ne rfl rfl ?_; omega)), State.powerRecorded,
    State.rd_wr_ne _ _ (by with_unfolding_all (refine key_ne rfl rfl ?_; omega))]
  exact rd_each_wr (fun k => Reg.AST_PWR k) (fun k => (p.getD k 0).toNat) (List.mem_range.2 k.isLt) (fun j hj hne => by
    have hj := List.mem_range.1 hj
    with_unfolding_all (refine key_ne rfl rfl ?_; omega)) s

theorem rd_powerMeasured_sum (p : List (BitVec 16)) :
    (s.powerMeasured p).rd Reg.AST_PWR_DEV = powerSum p % 2 ^ Reg.AST_PWR_DEV.w := by
  rw [rd_powerMeasured_ne _ _ (fun i hi => by with_unfolding_all (refine key_ne rfl rfl ?_; omega)), State.powerRecorded,
    State.rd_wr_same]

theorem rd_powerMeasured_oldest (p : List (BitVec 16)) : (s.powerMeasured p).rd (Hid.pwrHist 9) = s.rd (Hid.pwrHist 8) := by
  rw [State.powerMeasured, State.rd_wr_ne _ _ (by decide)]
  refine (rd_each_wr (fun i => Hid.pwrHist (i + 1)) (fun i => s.rd (Hid.pwrHist i)) (List.mem_range.2 (by decide : 8 < 9))
    (fun j hj hne => by
      have hj := List.mem_range.1 hj
      with_unfolding_all (refine key_ne rfl rfl ?_; omega)) _).trans ?_
  exact Nat.mod_eq_of_lt (State.rd_lt s (Hid.pwrHist 8))

end

/-! ### The current-slew window (R500, R501, R518) -/

section
variable {s : State}

/-- What a window has admitted is at most 24.00 A. -/
def State.SlewHolds (s : State) : Prop := s.rd Hid.slewUsed ≤ 2400

theorem slewHolds_spend {v : Nat} (hv : v ≤ 2400) : (s.wr Hid.slewUsed v).SlewHolds := by
  rw [State.SlewHolds, State.rd_wr_same]
  exact (Nat.mod_le _ _).trans hv

theorem slewHolds_inc {v : Nat} (hv : s.rd Hid.slewUsed + v ≤ 2400) : (s.inc Hid.slewUsed v).SlewHolds :=
  slewHolds_spend ((Nat.min_le_left _ _).trans hv)

theorem State.SlewHolds.wr (h : s.SlewHolds) {f : Fld} (v : Nat) (hne : Hid.slewUsed.key ≠ f.key) : (s.wr f v).SlewHolds :=
  (State.rd_wr_ne s v hne).le.trans h

theorem State.SlewHolds.balShow (h : s.SlewHolds) : s.balShow.SlewHolds :=
  (rd_balShow s (by decide) (by decide)).le.trans h

variable {n : Nat} (hn : n < 80)

theorem rd_slvAnswer_slew (s : State) (r : SlvReq) (err : Nat) (data : List Byte) : (s.slvAnswer r err data).rd Hid.slewUsed =
    s.rd Hid.slewUsed := by
  unfold State.slvAnswer
  split
  · rfl
  · split
    · rfl
    · dsimp only
      rw [rd_ite, State.postLost, rd_ite, State.inc, State.rd_wr_ne _ _ (by decide), ite_self]
      exact ite_self _

include hn

theorem rd_fpCut_slew (s : State) : (s.fpCut n).rd Hid.slewUsed = s.rd Hid.slewUsed := by
  delta State.fpCut
  extract_lets s1
  refine (State.rd_each _ _ _ _ fun r _ t => ?_).trans ?_
  · rw [rd_slvAnswer_slew, State.slvRemove, State.slvCount, State.rd_wr_ne _ _ (by with_unfolding_all (refine key_ne rfl rfl ?_; omega)), rd_mk]
  · simp (disch := with_unfolding_all (refine key_ne rfl rfl ?_; omega)) only [s1, State.inc, State.rd_wr_ne]

omit hn in
theorem rd_slcFlushAll_slew (s : State) : (s.slcFlushAll n).rd Hid.slewUsed = s.rd Hid.slewUsed := by
  refine State.rd_each _ _ _ _ fun e he t => State.rd_each _ _ _ _ fun b _ u => ?_
  have he := List.mem_range.1 he
  rw [State.slcFlush, State.setBank, State.slcStat]
  simp (disch := with_unfolding_all (refine key_ne rfl rfl ?_; omega)) only [State.inc, State.rd_wr_ne, rd_mk]

theorem rd_rampBegin_slew (s : State) : (s.rampBegin n).rd Hid.slewUsed = s.rd Hid.slewUsed := by
  have hfence (t : State) : (((t.fenceAbandon n).slcFlushAll n).wr (Hid.slcShut n) 1).rd Hid.slewUsed = t.rd Hid.slewUsed := by
    rw [State.rd_wr_ne _ _ (by with_unfolding_all (refine key_ne rfl rfl ?_; omega)), rd_slcFlushAll_slew, State.fenceAbandon, rd_mk,
      rd_fpCut_slew hn]
  delta State.rampBegin
  extract_lets s1
  have h1 : s1.rd Hid.slewUsed = s.rd Hid.slewUsed := by rw [rd_ite, hfence, ite_self]
  cases s.rampWaits n
  all_goals simp (disch := with_unfolding_all (refine key_ne rfl rfl ?_; omega)) only [State.pllOff, State.rd_wr_ne, h1]

omit hn in
theorem State.SlewHolds.rampsAdmit {l : List Nat} (hl : ∀ n ∈ l, n < 80) (h : s.SlewHolds) : (s.rampsAdmit l).SlewHolds := by
  induction l generalizing s with
  | nil => exact h
  | cons n r ih =>
    have hn : n < 80 := hl n List.mem_cons_self
    have hr : ∀ m ∈ r, m < 80 := fun m hm => hl m (List.mem_cons_of_mem n hm)
    rw [State.rampsAdmit]
    split
    · exact ih hr h
    next hwaits =>
      split
      next hfits =>
        refine ih hr ?_
        rw [State.rampAdmit, if_neg hwaits, if_pos hfits, State.SlewHolds, rd_rampBegin_slew hn]
        exact slewHolds_spend hfits
      · exact h

theorem State.SlewHolds.shareSet (h : s.SlewHolds) (v : Nat) : (s.wr (Hid.thrShare n) v).SlewHolds :=
  h.wr v (by with_unfolding_all (refine key_ne rfl rfl ?_; omega))

omit hn in
theorem State.SlewHolds.shareWave {l : List Nat} (hl : ∀ n ∈ l, n < 80) (k sum : Nat) (h : s.SlewHolds) :
    (s.shareWave l k sum).SlewHolds := by
  induction l generalizing s k sum with
  | nil => exact h
  | cons n r ih =>
    have hn : n < 80 := hl n List.mem_cons_self
    have hr : ∀ m ∈ r, m < 80 := fun m hm => hl m (List.mem_cons_of_mem n hm)
    unfold State.shareWave
    extract_lets w was d
    split
    · exact ih hr _ _ h
    · split
      · exact h
      next hfits =>
        refine ih hr _ _ (slewHolds_inc ?_)
        rw [State.rd_wr_ne _ _ (by with_unfolding_all (refine key_ne rfl rfl ?_; omega))]
        omega

omit hn in
theorem State.SlewHolds.levelSteps (k : Nat) (h : s.SlewHolds) : (s.levelSteps k).SlewHolds := by
  induction k generalizing s with
  | zero => exact h
  | succ k ih =>
    unfold State.levelSteps
    extract_lets l w t cost
    split
    · exact h
    · split
      · exact h
      next hfits =>
        have hkeep : t.rd Hid.slewUsed = s.rd Hid.slewUsed := State.rd_wr_ne _ _ (by decide)
        exact ih (each_keeps (P := State.SlewHolds) (fun n hn v hv => hv.shareSet (List.mem_range.1 hn) _) (slewHolds_inc (by omega)))

omit hn

theorem State.SlewHolds.ite {c : Prop} [Decidable c] {t : State} (h : s.SlewHolds) (ht : t.SlewHolds) :
    (if c then s else t).SlewHolds := by
  split
  · exact h
  · exact ht

theorem State.SlewHolds.shareShow (h : s.SlewHolds) : s.shareShow.SlewHolds := by
  delta State.shareShow
  extract_lets sh s1 a tg
  have h1 : s1.SlewHolds := (h.wr _ (by decide)).ite h
  exact ((h1.wr _ (by decide)).wr _ (by decide)).ite ((h1.wr _ (by decide)).wr _ (by decide))

theorem State.SlewHolds.levelAdmit (h : s.SlewHolds) : s.levelAdmit.SlewHolds := by
  have hall : ∀ n ∈ List.range 80, n < 80 := fun n hn => List.mem_range.1 hn
  delta State.levelAdmit
  extract_lets s1
  have h1 : s1.SlewHolds := (h.levelSteps 64).ite (h.wr _ (by decide))
  exact ((h1.shareWave hall 0 0).shareWave hall 0 0).shareShow

include hn in
theorem State.SlewHolds.balStep (h : s.SlewHolds) : (State.balStep n s).SlewHolds := by
  delta State.balStep
  extract_lets t d cost
  refine h.ite ?_
  split
  next hfits =>
    refine slewHolds_inc ?_
    rwa [State.rd_wr_ne _ _ (by with_unfolding_all (refine key_ne rfl rfl ?_; omega))]
  · exact h

theorem State.SlewHolds.balSteps (h : s.SlewHolds) : (State.each (List.range 80) State.balStep s.levelAdmit).SlewHolds :=
  each_keeps (fun _ hn _ hv => State.SlewHolds.balStep (List.mem_range.1 hn) hv) h.levelAdmit

/-- What a new window admits is at most 24.00 A. -/
theorem execSlewWindow_holds (d : BitVec 16) (s : State) : ∃ t : State, exec (.slewWindow d) s = .next t ∧ t.SlewHolds := by
  have hopen : ((s.wr Hid.slewUsed 0).wr Reg.AST_DIDT_MAX (max (s.rd Reg.AST_DIDT_MAX) d.toNat)).SlewHolds :=
    (slewHolds_spend (Nat.zero_le _)).wr _ (by decide)
  have hramps := hopen.rampsAdmit (l := (List.range 80).filter (fun n => s.on Hid.stopGate && s.rampWaits n == .clkDown)
    ++ (List.range 80).filter (fun n => !(s.on Hid.stopGate && s.rampWaits n == .clkDown))) (fun n hn => by
      simp only [List.mem_append, List.mem_filter, List.mem_range] at hn
      omega)
  exact ⟨_, rfl, (hramps.ite hramps.balSteps).balShow⟩

end

/-! ### Temperatures, mode fields and stops (R22 to R24, R507 to R524) -/

section
variable (s : State)

/-- The tracking of a channel does not count a conversion. -/
theorem rd_chTrack_convNo (i : Fin 16) : (State.chTrack i s).rd Hid.convNo = s.rd Hid.convNo := by
  have hraise (t : State) : (t.astEvt 4).rd Hid.convNo = t.rd Hid.convNo :=
    rd_raiseB (e := 68) t (by with_unfolding_all (refine calm rfl ?_; omega)) _ _ (by decide)
  delta State.chTrack
  extract_lets t rise rate used s1 hot
  have h1 : s1.rd Hid.convNo = s.rd Hid.convNo := by
    simp (disch := with_unfolding_all (refine key_ne rfl rfl ?_; omega)) only [s1, State.rd_wr_ne]
  have hhot (v : Nat) : (s1.wr (Hid.rateHot i) v).rd Hid.convNo = s.rd Hid.convNo := by
    rw [State.rd_wr_ne _ _ (by with_unfolding_all (refine key_ne rfl rfl ?_; omega)), h1]
  simp only [rd_ite, hraise, hhot, h1, ite_self]

theorem rd_chTracks_convNo : (State.each (List.range 16) State.chTrack s).rd Hid.convNo = s.rd Hid.convNo :=
  State.rd_each _ _ _ _ fun i hi t => rd_chTrack_convNo t ⟨i, List.mem_range.1 hi⟩

/-- A conversion in its parts, with the count of conversions read before the channels are tracked. -/
theorem execTempConvert_eq {r : List (Option (BitVec 16))} {u v : State}
    (hu : u = State.each (List.range 12) State.chJudge (State.each [11, 10, 9, 8, 7, 6, 5, 4, 3, 2, 1, 0] State.chPredict
      (State.each (List.range 16) (fun i t => t.chConvert (r.getD i none) i) s)))
    (hv : v = (State.each (List.range 17) (fun i t => t.wr (Hid.tHist i ((u.rd Hid.convNo + 1) % 64)) (ofSigned 16 (t.tBase i)))
      (State.each (List.range 16) State.chTrack u)).wr Hid.convNo (u.rd Hid.convNo + 1)) :
    execTempConvert r s = .next (if v.rd Reg.AST_LEVEL_LEVEL < 64 then (v.inc Reg.AST_THR_CNT 1).inc Hid.telThr 1
      else v).thermalStep.thermalStep.thermalStep := by
  rw [hv, ← rd_chTracks_convNo u, hu]
  rfl

theorem astClrCnt_only : OnlyFields ([Reg.AST_THR_CNT, Reg.AST_DIDT_MAX] ++ (List.range 16).map Reg.AST_CH_STAT_TMAX) s s.astClrCnt := by
  refine .each (fun i hi v => OnlyFields.wr _ (List.mem_append_right _ (List.mem_map_of_mem hi)) (.refl _ v)) ?_
  exact OnlyFields.wr _ (by simp) (OnlyFields.wr _ (by simp) (.refl _ s))

theorem rd_astClrCnt_max (i : Nat) (hi : i < 16) : s.astClrCnt.rd (Reg.AST_CH_STAT_TMAX i) = 0 :=
  rd_each_wr (fun i => Reg.AST_CH_STAT_TMAX i) (fun _ => 0) (List.mem_range.2 hi) (fun j hj hne => by
    have hj := List.mem_range.1 hj
    with_unfolding_all (refine key_ne rfl rfl ?_; omega)) _

theorem rd_astClrCnt_ne {g : Fld} (h : ∀ i < 16, g.key ≠ (Reg.AST_CH_STAT_TMAX i).key) :
    s.astClrCnt.rd g = ((s.wr Reg.AST_THR_CNT 0).wr Reg.AST_DIDT_MAX 0).rd g :=
  State.rd_each _ _ _ _ fun i hi _ => State.rd_wr_ne _ _ (h i (List.mem_range.1 hi))

variable {s}

theorem hardCause_calm (h5 : s.rd Reg.AST_STAT_TSTATE ≠ 5) (h2 : s.rd Reg.AST_STAT_TSTATE ≠ 2) :
    s.hardCause = (((s.wr Reg.AST_STAT_TSTATE 5).wr Hid.hardPend 1).astEvt 6).journal 5 0 := by
  rw [State.hardCause, if_neg h5, if_neg h2]

end

end Sys2Proof.Machine

namespace Sys2Proof
open Machine

/-- Settles O42. -/
theorem powerThermalSteps : Obligations.PowerThermalSteps := by
  refine ⟨fun p c s => ?measure, fun d s => execSlewWindow_holds d s, fun r s => ?convert, fun i x s hi => ?reading,
    fun w s hlo hhi hstop => ?limit, fun w s hlo hhi hstop => ?limitLater, fun b s hstop hb => ?staging,
    fun m s hm hstop => ?method, fun s hlvl => ?apply, fun s hst hat => ?level, fun s hst hgate hbusy => ?notice,
    fun s hst hgate hclk => ?stopped, fun s h5 h2 => ?overcurrent, fun s hst => ?timeout, fun s hpend => ?hard,
    fun s hst hbelow => ?resume, fun s hst => ?stop, fun i s hi hsusp hnear => ?suspect, fun s => ?clear⟩
  case measure =>
    refine ⟨_, execPowerMeasure_governed s p c, fun k => ?_, ?_, ?_, ?_⟩
    · have hplace : (Reg.AST_PWR k).key = (0x005 * 1048576 + (0x20 + 0x4 * k)) * 64 + 0 := by with_unfolding_all rfl
      have hk : 0x14000700 ≤ (Reg.AST_PWR k).key ∧ (Reg.AST_PWR k).key < 0x14001200 := by omega
      rw [rd_governed _ (.inl hk), rd_powerMeasured_power]
    · rw [rd_governed _ (.inl (by decide)), rd_powerMeasured_sum]
      rfl
    · rw [rd_governed _ (.inr (by decide)), rd_powerMeasured_oldest]
    · rw [mem_governed, mem_powerMeasured]
  case convert =>
    exact ⟨_, rfl, fun u hu v hv => Host.Outcome.next.inj (execTempConvert_eq s hu hv)⟩
  case reading =>
    have heq : s.chConvert (some x) i = (s.wr (Reg.AST_CH_TEMP_MEAS i) x.toNat).wr (Reg.AST_CH_STAT_FAULT i) 0 := by
      rw [State.chConvert, if_neg (by omega)]
    rw [heq]
    refine ⟨OnlyFields.wr _ (by simp) (OnlyFields.wr _ (by simp) (.refl _ s)), ?_, State.rd_wr_same ..⟩
    rw [State.rd_wr_ne _ _ (by with_unfolding_all (refine key_ne rfl rfl ?_; omega)), State.rd_wr_same]
    exact Nat.mod_eq_of_lt x.isLt
  case limit =>
    have hset : s.astPwrLimit w.toNat = (s.wr Reg.AST_PWR_LIMIT_LIMIT (bits w.toNat 8 0)).wr Hid.astLimPend 0 := by
      unfold State.astPwrLimit
      dsimp only
      rw [if_neg (by omega), hstop, if_neg Bool.false_ne_true, State.limitSet, if_neg (by omega), if_neg (by omega)]
    refine ⟨_, congrArg Host.Outcome.next hset, OnlyFields.wr _ (by simp) (OnlyFields.wr _ (by simp) (.refl _ s)), ?_⟩
    rw [State.rd_wr_ne _ _ (by decide), State.rd_wr_same]
    exact Nat.mod_eq_of_lt (bits_lt w.toNat 8 0)
  case limitLater =>
    have hset : s.astPwrLimit w.toNat = s.wr Hid.astStopLim (bits w.toNat 8 0) := by
      unfold State.astPwrLimit
      dsimp only
      rw [if_neg (by omega), if_pos hstop]
    refine ⟨_, congrArg Host.Outcome.next hset, OnlyFields.wr _ (by simp) (.refl _ s), ?_⟩
    rw [State.rd_wr_same]
    exact Nat.mod_eq_of_lt (bits_lt w.toNat 8 0)
  case staging =>
    have hset : s.astStaging (b2n b) = s.wr Reg.AST_CTX_CTRL_STAGING (b2n b) := by
      rw [State.astStaging, hstop, if_neg Bool.false_ne_true, show b2n b % 2 = b2n b from b2n_mod b Nat.one_pos, State.stagingSet,
        if_neg]
      rintro ⟨hone, hwait⟩
      rcases hb with rfl | ⟨hlim, hpend⟩
      · exact absurd hone (by decide)
      · omega
    refine ⟨_, congrArg Host.Outcome.next hset, OnlyFields.wr _ (by simp) (.refl _ s), ?_⟩
    rw [State.rd_wr_same]
    exact b2n_mod b Nat.one_pos
  case method =>
    have hset : s.astMethodWr m = s.methodSet m := by
      rw [State.astMethodWr, if_neg (by omega), hstop, if_neg Bool.false_ne_true]
    have hm : (m : Nat) % 2 ^ Reg.AST_THR_CTRL_METHOD.w = m := Nat.mod_eq_of_lt m.isLt
    refine ⟨_, congrArg Host.Outcome.next hset, ?_, ?_⟩
    · exact .ite (OnlyFields.wr _ (by simp) (OnlyFields.wr _ (by simp) (.refl _ s))) (OnlyFields.wr _ (by simp) (.refl _ s))
    · have hkeep (v : Nat) : ((s.wr Reg.AST_THR_CTRL_METHOD m).wr Hid.astMeth v).rd Reg.AST_THR_CTRL_METHOD = m := by
        rw [State.rd_wr_ne _ _ (by decide), State.rd_wr_same, hm]
      rw [State.methodSet, State.methodSettle, rd_ite, hkeep, State.rd_wr_same, hm, ite_self]
  case apply =>
    refine ⟨_, congrArg Host.Outcome.next (if_pos hlvl), OnlyFields.wr _ (by simp) (.refl _ s), ?_⟩
    rw [State.rd_wr_same]
    exact Nat.mod_eq_of_lt (State.rd_lt s Reg.AST_THR_CTRL_METHOD)
  case level =>
    have hset : exec .thmLevelStep s = .next ((s.wr Reg.AST_LEVEL_THM_LEVEL (max 1 (s.rd Reg.AST_LEVEL_THM_LEVEL - 1))).wr Hid.thmUp 0) := by
      show execThmLevelStep s = _
      unfold execThmLevelStep
      dsimp only
      rw [if_neg (by simp [hst]), if_pos (by simp [hat])]
    have hlvl : s.rd Reg.AST_LEVEL_THM_LEVEL < 2 ^ 7 := State.rd_lt s _
    refine ⟨_, hset, OnlyFields.wr _ (by simp) (OnlyFields.wr _ (by simp) (.refl _ s)), ?_⟩
    rw [State.rd_wr_ne _ _ (by decide), State.rd_wr_same]
    exact Nat.mod_eq_of_lt (show _ < 2 ^ 7 by omega)
  case notice =>
    exact congrArg Host.Outcome.next (if_pos ⟨hst, by simp [hgate], by simp [hbusy]⟩)
  case stopped =>
    have hall : (List.range 80).all (fun n => s.rd (Reg.ISL_CLK_STAT_STATE n) != 4 && s.rd (Reg.ISL_CLK_STAT_STATE n) != 5
        && s.rd (Reg.ISL_CLK_STAT_STATE n) != 6) = true := by
      simpa [and_assoc] using hclk
    refine ⟨_, congrArg Host.Outcome.next (if_pos ⟨hst, hgate, hall⟩),
      OnlyFields.wr _ (by simp) (OnlyFields.wr _ (by simp) (OnlyFields.wr _ (by simp) (.refl _ s))), ?_, ?_⟩
    · rw [State.rd_wr_ne _ _ (by decide), State.rd_wr_ne _ _ (by decide), State.rd_wr_same]
      rfl
    · rw [State.rd_wr_ne _ _ (by decide), State.rd_wr_same]
      rfl
  case overcurrent => exact congrArg Host.Outcome.next (hardCause_calm h5 h2)
  case timeout =>
    exact congrArg Host.Outcome.next ((if_pos hst).trans (hardCause_calm (by omega) (by omega)))
  case hard => exact congrArg Host.Outcome.next (by rw [State.hardStop, if_neg (by simp [hpend])])
  case resume => exact congrArg Host.Outcome.next (if_pos ⟨hst, hbelow⟩)
  case stop =>
    refine congrArg Host.Outcome.next ?_
    rw [State.astStopCmd, if_pos (by omega), State.stopBegin, if_neg (by omega)]
  case suspect =>
    exact ⟨_, congrArg Host.Outcome.next (if_pos ⟨hi, hsusp, hnear⟩), OnlyFields.wr _ (by simp) (.refl _ s), State.rd_wr_same ..⟩
  case clear =>
    refine ⟨_, rfl, astClrCnt_only s, ?_, ?_, fun i hi => rd_astClrCnt_max s i hi⟩
    · rw [rd_astClrCnt_ne s fun i hi => by with_unfolding_all (refine key_ne rfl rfl ?_; omega), State.rd_wr_ne _ _ (by decide),
        State.rd_wr_same, Nat.zero_mod]
    · rw [rd_astClrCnt_ne s fun i hi => by with_unfolding_all (refine key_ne rfl rfl ?_; omega), State.rd_wr_same, Nat.zero_mod]

end Sys2Proof
end

section

namespace Sys2Proof.Machine

/-! ### The debug port (R530 to R537) -/

section
variable {s : State}

/-- The opcodes that the TAP lists (R531). -/
theorem tapKnown_iff (op : Nat) : [0, 1, 2, 3, 4, 0x10].contains op = true ↔ op ≤ 4 ∨ op = 0x10 := by
  simp only [List.contains_iff_mem, List.mem_cons, List.not_mem_nil, or_false]
  omega

/-- A TAP instruction that the level permits (R531). -/
theorem execTapUpdateIr_permitted {op : Byte} (h : tapLevel op.toNat ≤ s.rd Reg.DBG_STAT_LEVEL) :
    exec (.tapUpdateIr op) s =
      .next ((s.wr Hid.tapIr (if op.toNat ≤ 4 ∨ op.toNat = 0x10 then op.toNat else 0xFF)).wr Hid.tapD 0) := by
  refine congrArg Host.Outcome.next ((if_neg (Nat.not_lt.2 h)).trans ?_)
  simp only [tapKnown_iff]

/-- An operation that the level permits is launched (R533, R536). -/
theorem execDbgaccUpdateDr_launched {dr : BitVec 78} (hir : s.rd Hid.tapIr = 0x10) (hbusy : s.on Hid.accBusy = false)
    (hop : dr.toNat % 4 = 1 ∨ dr.toNat % 4 = 2) (hmay : s.dbgMay (dr.toNat % 4 == 2) (bits dr.toNat 45 2 * 4) = true) :
    exec (.dbgaccUpdateDr dr) s = .next ((((s.wr Hid.accAddr (bits dr.toNat 45 2 * 4)).wr Hid.accWr (dr.toNat % 4 - 1)).wr Hid.accData
      (bits dr.toNat 77 46)).wr Hid.accBusy 1) := by
  show execDbgaccUpdateDr dr s = _
  unfold execDbgaccUpdateDr
  dsimp only
  rw [if_neg (by simp [hir, hbusy]; omega), if_pos hmay]

/-- Peony takes a command of the debug port (R537). -/
theorem dbgPeony_taken {code : Nat} (hcode : code < 2 ^ Hid.peoCode.w) :
    OnlyFields [Reg.PEO_STAT_BUSY, Reg.DBG_AUTH_STAT_BUSY, Hid.peoCode] s (s.dbgPeony code)
    ∧ (s.dbgPeony code).rd Reg.PEO_STAT_BUSY = 1 ∧ (s.dbgPeony code).rd Reg.DBG_AUTH_STAT_BUSY = 1
    ∧ (s.dbgPeony code).rd Hid.peoCode = code := by
  refine ⟨OnlyFields.wr _ (by simp) (OnlyFields.wr _ (by simp) (OnlyFields.wr _ (by simp) (.refl _ s))), ?_, ?_, ?_⟩
  · rw [State.dbgPeony, State.rd_wr_ne _ _ (by decide), State.rd_wr_ne _ _ (by decide), State.rd_wr_same]
    rfl
  · rw [State.dbgPeony, State.rd_wr_ne _ _ (by decide), State.rd_wr_same]
    rfl
  · rw [State.dbgPeony, State.rd_wr_same, Nat.mod_eq_of_lt hcode]

end

end Sys2Proof.Machine

namespace Sys2Proof
open Machine

/-- Settles O43. -/
theorem debugPortSteps : Obligations.DebugPortSteps := by
  refine ⟨fun s => rfl, fun op s hlvl => ?ir, fun dr s hir hbusy hop hmay => ?launch, fun fab s t d hbusy hgo => ?done,
    fun s hbusy => ?timeout, fun s hen => ?kick, fun s hen hpause hval hatt => ?expire, fun s hfull => ?reset,
    fun s hauth hpeo htrng => ?challenge, fun s hauth hpeo hchal => ?token⟩
  case ir =>
    refine ⟨_, execTapUpdateIr_permitted hlvl, OnlyFields.wr _ (by simp) (OnlyFields.wr _ (by simp) (.refl _ s)), ?_⟩
    have hop : op.toNat < 256 := op.isLt
    rw [State.rd_wr_ne _ _ (by decide), State.rd_wr_same]
    exact Nat.mod_eq_of_lt (show _ < 256 by split <;> omega)
  case launch =>
    refine ⟨_, execDbgaccUpdateDr_launched hir hbusy hop hmay,
      OnlyFields.wr _ (by simp) (OnlyFields.wr _ (by simp) (OnlyFields.wr _ (by simp) (OnlyFields.wr _ (by simp) (.refl _ s)))), ?_, ?_,
      ?_, ?_⟩
    · have haddr : bits dr.toNat 45 2 < 2 ^ 44 := bits_lt dr.toNat 45 2
      rw [State.rd_wr_ne _ _ (by decide), State.rd_wr_ne _ _ (by decide), State.rd_wr_ne _ _ (by decide), State.rd_wr_same]
      exact Nat.mod_eq_of_lt (show _ < 2 ^ 46 by omega)
    · rw [State.rd_wr_ne _ _ (by decide), State.rd_wr_ne _ _ (by decide), State.rd_wr_same]
      exact Nat.mod_eq_of_lt (show _ < 2 ^ 1 by omega)
    · rw [State.rd_wr_ne _ _ (by decide), State.rd_wr_same]
      exact Nat.mod_eq_of_lt (bits_lt dr.toNat 77 46)
    · exact State.rd_wr_same ..
  case done =>
    show execDbgaccOpDone fab s = _
    unfold execDbgaccOpDone
    simp only [hbusy, hgo, Bool.not_true, Bool.false_eq_true, if_false]
  case timeout =>
    refine ⟨_, congrArg Host.Outcome.next (if_pos hbusy),
      OnlyFields.wr _ (by simp) (OnlyFields.wr _ (by simp) (OnlyFields.wr _ (by simp) (.refl _ s))), ?_, ?_, State.rd_wr_same ..⟩
    · rw [State.accEnd, State.rd_wr_ne _ _ (by decide), State.rd_wr_ne _ _ (by decide), State.rd_wr_same]
      rfl
    · rw [State.accEnd, State.rd_wr_ne _ _ (by decide), State.rd_wr_same]
      rfl
  case kick =>
    refine ⟨_, congrArg Host.Outcome.next (if_pos ⟨rfl, hen⟩), OnlyFields.wr _ (by simp) (.refl _ s), ?_⟩
    rw [State.rd_wr_same]
    exact Nat.mod_eq_of_lt (State.rd_lt s Reg.DBG_SUP_CFG_LOAD)
  case expire =>
    show execSupWdgExpire s = _
    unfold execSupWdgExpire
    dsimp only
    rw [if_neg (by simp [hen, hpause, hval]), if_neg (by simp [hatt])]
  case reset => exact congrArg Host.Outcome.next (if_pos hfull)
  case challenge =>
    exact ⟨_, congrArg Host.Outcome.next (if_neg (by simp [hauth, hpeo, htrng])), dbgPeony_taken (by decide)⟩
  case token =>
    exact ⟨_, congrArg Host.Outcome.next (if_neg (by simp [hauth, hpeo, hchal])), dbgPeony_taken (by decide)⟩

end Sys2Proof
end

section

namespace Sys2Proof.Machine

/-! ### Halting (R540 to R546) -/

section
variable {s : State}

theorem lt_of_mem_coresOf {m c : Nat} (h : c ∈ coresOf m) : c < 4 := by
  unfold coresOf setBits at h
  simp only [List.mem_filter, List.mem_range] at h
  exact h.1

theorem haltWants_only (l : List Nat) : OnlyFields (l.map Hid.haltWant) s (State.each l (fun c t => t.wr (Hid.haltWant c) 1) s) :=
  .each (fun _ hc v => OnlyFields.wr _ (List.mem_map_of_mem hc) (.refl _ v)) (.refl _ s)

theorem rd_haltWants {m c : Nat} (h : c ∈ coresOf m) :
    (State.each (coresOf m) (fun c t => t.wr (Hid.haltWant c) 1) s).rd (Hid.haltWant c) = 1 :=
  rd_each_wr (fun c => Hid.haltWant c) (fun _ => 1) h (fun j hj hne => by
    have hc := lt_of_mem_coresOf h
    have hj := lt_of_mem_coresOf hj
    with_unfolding_all (refine key_ne rfl rfl ?_; omega)) s

/-- A halt for a cause of its own, where no HALT waits (R543). -/
theorem haltBy_free {c : Nat} (h : s.rd (Hid.haltWant c) ≠ 1) (cause pc : Nat) :
    s.haltBy c cause pc none = (s.wr (Hid.haltWant c) 0).coreHalt c cause pc := if_neg h

/-- A halt at a breakpoint shows which one (R543). -/
theorem haltBy_free_numbered {c : Nat} (h : s.rd (Hid.haltWant c) ≠ 1) (cause pc k : Nat) :
    s.haltBy c cause pc (some k) = ((s.wr (Hid.haltWant c) 0).coreHalt c cause pc).wr (Reg.DBG_CORE_STAT_IDX c) k := if_neg h

/-- The registers of a core's halt. -/
def Fld.HaltRecord (g : Fld) : Prop := 0x1C000000 + 0x100 * 64 ≤ g.key ∧ g.key < 0x1C000000 + 0x200 * 64

theorem Fld.HaltRecord.ne {g f : Fld} {b o l : Nat} (h : g.HaltRecord) (hkey : f.key = (b * 1048576 + o) * 64 + l)
    (hplace : ∀ k, k = (b * 1048576 + o) * 64 + l → k < 0x1C004000 ∨ 0x1C008000 ≤ k) : g.key ≠ f.key := by
  intro hsame
  have hf := hplace f.key hkey
  unfold Fld.HaltRecord at h
  omega

/-- What a halt tells the semaphores, the supervisor watchdog and the events is none of its record. -/
theorem rd_halt_announced (s : State) (c : Fin 4) {g : Fld} (h : g.HaltRecord) :
    (((s.semHalted c true).supPause).dbgEvt (1 + c)).rd g = s.rd g := by
  have hcalm : g.Calm (72 + (1 + c)) := by
    refine ⟨by omega, fun k hk => ?_⟩
    unfold Fld.HaltRecord at h
    omega
  have hpause (t : State) : t.supPause.rd g = t.rd g := by
    delta State.supPause
    extract_lets p
    simp (disch := with_unfolding_all (refine h.ne rfl ?_; omega)) only [rd_ite, State.wrIf, State.rd_wr_ne, ite_self]
  have hsem : (s.semHalted c true).rd g = s.rd g := by
    refine State.rd_each _ _ _ _ fun i hi t => ?_
    have hi := List.mem_range.1 hi
    rw [State.wrIf, rd_ite, State.rd_wr_ne _ _ (by with_unfolding_all (refine h.ne rfl ?_; omega)), ite_self]
  rw [State.dbgEvt, rd_raiseB _ hcalm _ _ (by with_unfolding_all (refine h.ne rfl ?_; omega)), hpause, hsem]

theorem coreHalt_recorded (c : Fin 4) (cause pc : Nat) : (s.coreHalt c cause pc).rd (Reg.DBG_CORE_STAT_HALTED c) = 1
    ∧ (s.coreHalt c cause pc).rd (Reg.DBG_CORE_STAT_CAUSE c) = cause % 2 ^ (Reg.DBG_CORE_STAT_CAUSE c).w
    ∧ (s.coreHalt c cause pc).rd (Reg.DBG_CORE_DPC c) = pc % 2 ^ 64 := by
  have hhalted : (Reg.DBG_CORE_STAT_HALTED c).key = (0x007 * 1048576 + (0x104 + 0x40 * c)) * 64 + 0 := by with_unfolding_all rfl
  have hcause : (Reg.DBG_CORE_STAT_CAUSE c).key = (0x007 * 1048576 + (0x104 + 0x40 * c)) * 64 + 4 := by with_unfolding_all rfl
  have hpc : (Reg.DBG_CORE_DPC c).key = (0x007 * 1048576 + (0x108 + 0x40 * c)) * 64 + 0 := by with_unfolding_all rfl
  refine ⟨?_, ?_, ?_⟩
  · refine (rd_halt_announced _ c (by unfold Fld.HaltRecord; omega)).trans ?_
    simp (disch := with_unfolding_all (refine key_ne rfl rfl ?_; omega)) only [State.setB, State.rd_wr_ne, State.rd_wr_same]
    rfl
  · refine (rd_halt_announced _ c (by unfold Fld.HaltRecord; omega)).trans ?_
    simp (disch := with_unfolding_all (refine key_ne rfl rfl ?_; omega)) only [State.setB, State.rd_wr_ne, State.rd_wr_same]
  · refine (rd_halt_announced _ c (by unfold Fld.HaltRecord; omega)).trans ?_
    simp (disch := with_unfolding_all (refine key_ne rfl rfl ?_; omega)) only [State.setB, State.rd_wr_ne, State.rd_wr_same]
    rfl

/-- A write of REGDATA that is carried out where REGSEL names a register (R544). -/
theorem regDataWrite_exists {c v sp n : Nat} (hfull : s.full = true) (hhalted : s.halted c = true)
    (hsp : s.rd (Reg.DBG_CORE_REGSEL_SPACE c) = sp) (hn : s.rd (Reg.DBG_CORE_REGSEL_NUM c) = n) (hex : regExists sp n = true) :
    s.regDataWrite c v = if sp = 2 then s.csrWrite c n v else if sp = 1 then s.wr (Hid.coreFpr c n) v else if n = 0 then s
      else s.wr (Hid.coreGpr c n) v := by
  subst hsp hn
  unfold State.regDataWrite
  dsimp only
  rw [if_neg (by simp [hfull, hhalted]), if_neg (by simp [hex])]

end

end Sys2Proof.Machine

namespace Sys2Proof
open Machine

/-- Settles O44. -/
theorem coreDebugSteps : Obligations.CoreDebugSteps := by
  refine ⟨fun m s hfull hsome hlive => ?halt, fun c pc s hwant hlive => ?halted, fun m s hfull hhalted => ?resume,
    fun c k p s hlive hen hpriv hfree => ?breakpoint, fun c w a pc z st p s hlive hen hpriv hkind htouch hfree => ?watchpoint,
    fun c pc s hlive hen hfree => ?ebreak, fun c cause pc s => coreHalt_recorded c cause pc,
    fun c v s n hfull hhalted hn => ?registers⟩
  case halt =>
    have hne : (coresOf m).isEmpty = false := by
      obtain ⟨c, hc⟩ := hsome
      exact List.isEmpty_eq_false_iff_exists_mem.2 ⟨c, hc⟩
    have hexec : exec (.dbgHalt m) s = .next (State.each (coresOf m) (fun c t => t.wr (Hid.haltWant c) 1) s) :=
      congrArg Host.Outcome.next (if_pos (by simp [hfull, hne]; exact hlive))
    exact ⟨hexec, _, hexec, haltWants_only _, fun c hc => rd_haltWants hc⟩
  case halted => exact congrArg Host.Outcome.next (if_pos (by simp [hwant, hlive]))
  case resume =>
    have hall : (s.full && (coresOf m).all s.halted) = true := by
      simp only [hfull, Bool.true_and, List.all_eq_true]
      exact hhalted
    exact ⟨congrArg Host.Outcome.next (if_pos hall), congrArg Host.Outcome.next (if_pos hall)⟩
  case breakpoint =>
    refine congrArg Host.Outcome.next ((if_pos (by simp [hlive, hen, hpriv])).trans ?_)
    exact haltBy_free_numbered hfree ..
  case watchpoint =>
    refine congrArg Host.Outcome.next ((if_pos ?_).trans ?_)
    · cases st
      case false => simpa [hlive, hen, hpriv, htouch] using hkind
      case true => simpa [hlive, hen, hpriv, htouch] using hkind
    · exact haltBy_free hfree ..
  case ebreak =>
    refine congrArg Host.Outcome.next ((if_pos (by simp [hlive, hen])).trans ?_)
    exact haltBy_free hfree ..
  case registers =>
    refine ⟨fun hsp hzero => ?_, fun hsp hne hlt => ?_, fun hsp hlt => ?_, fun hsp hex => ?_⟩
    · exact congrArg Host.Outcome.next ((regDataWrite_exists hfull hhalted hsp hn.symm (by simp [regExists, hzero])).trans (if_pos hzero))
    · refine ⟨_, congrArg Host.Outcome.next ((regDataWrite_exists hfull hhalted hsp hn.symm (by simp [regExists, hlt])).trans
        (if_neg hne)), OnlyFields.wr _ (by simp) (.refl _ s), ?_⟩
      rw [State.rd_wr_same]
      exact Nat.mod_eq_of_lt v.isLt
    · refine ⟨_, congrArg Host.Outcome.next (regDataWrite_exists hfull hhalted hsp hn.symm (by simp [regExists, hlt])),
        OnlyFields.wr _ (by simp) (.refl _ s), ?_⟩
      refine (State.rd_wr_same ..).trans ?_
      exact Nat.mod_eq_of_lt v.isLt
    · exact congrArg Host.Outcome.next (regDataWrite_exists hfull hhalted hsp hn.symm hex)

end Sys2Proof
end

section

namespace Sys2Proof.Machine

/-! ### The passage of time (R34, R373, R419)

What a nanosecond brings the probe ports, the watchdogs and the counts of seconds writes neither the timebase nor the requests for
an ISLAND reset. -/

/-- The registers of the timebase and the ISLAND resets that wait. -/
def Fld.TimeKept (g : Fld) : Prop := (0x64000000 ≤ g.key ∧ g.key < 0x68000000) ∨ (0x4118000000 ≤ g.key ∧ g.key < 0x411C000000)

theorem Fld.TimeKept.ne {g f : Fld} {b o l : Nat} (h : g.TimeKept) (hkey : f.key = (b * 1048576 + o) * 64 + l)
    (hplace : ∀ k, k = (b * 1048576 + o) * 64 + l → (k < 0x64000000 ∨ 0x68000000 ≤ k) ∧ (k < 0x4118000000 ∨ 0x411C000000 ≤ k)) :
    g.key ≠ f.key := by
  intro hsame
  have hf := hplace f.key hkey
  unfold Fld.TimeKept at h
  omega

theorem Fld.TimeKept.quiet {g : Fld} (h : g.TimeKept) : Quiet g := ⟨by
  unfold quietKey
  unfold Fld.TimeKept at h
  omega⟩

theorem Fld.TimeKept.calm {g : Fld} (h : g.TimeKept) {e : Nat} (he : e < 1024) : g.Calm e := by
  refine ⟨he, fun k hk => ?_⟩
  unfold Fld.TimeKept at h
  omega

theorem rd_wrIf_ne {f g : Fld} (h : g.key ≠ f.key) (s : State) (c : Bool) (v : Nat) : (s.wrIf c f v).rd g = s.rd g := by
  rw [State.wrIf, rd_ite, State.rd_wr_ne _ _ h, ite_self]

theorem mem_lanes {k : Nat} : k ∈ lanes ↔ k < 16 := List.mem_range

section
variable {g : Fld} (h : g.TimeKept)
include h

/-! #### A probe port -/

section
variable {p : Nat} (hp : p < 4)
include hp

theorem rd_prbEvent_kept (s : State) {i : Nat} (hi : i < 8) : (s.prbEvent p i).rd g = s.rd g :=
  rd_raiseB s (h.calm (by omega)) _ _ (by with_unfolding_all (refine h.ne rfl ?_; omega))

theorem rd_prbGo_kept (s : State) (st : Nat) : (s.prbGo p st).rd g = s.rd g := by
  have := h.quiet
  delta State.prbGo
  extract_lets s1
  simp (disch := with_unfolding_all (refine h.ne rfl ?_; omega)) only [s1, State.rd_wr_ne, State.prbDown, rd_ite]
  rw [quiet_chCut _ hp, quiet_hopPortDown _ hp, ite_self]

theorem rd_prbFault_kept (s : State) (c : Nat) : (s.prbFault p c).rd g = s.rd g := by
  rw [State.prbFault, State.rd_wr_ne _ _ (by with_unfolding_all (refine h.ne rfl ?_; omega)), rd_prbGo_kept h hp]

theorem rd_laneUnlock_kept (s : State) {k : Nat} (hk : k < 16) : (State.laneUnlock p k s).rd g = s.rd g := by
  delta State.laneUnlock
  extract_lets s1 s2
  rw [rd_mk]
  simp (disch := with_unfolding_all (refine h.ne rfl ?_; omega)) only [s1, s2, State.rd_wr_ne]

theorem rd_prbAcquire_kept (s : State) : (s.prbAcquire p).rd g = s.rd g := by
  have hlanes (t : State) : (State.each lanes (fun k t => (State.laneUnlock p k t).wr (Hid.calPend p k) 0) t).rd g = t.rd g := by
    refine State.rd_each _ _ _ _ fun k hk u => ?_
    have hk := List.mem_range.1 hk
    rw [State.rd_wr_ne _ _ (by with_unfolding_all (refine h.ne rfl ?_; omega)), rd_laneUnlock_kept h hp _ hk]
  rw [State.prbAcquire, State.prbTerm, State.rd_wr_ne _ _ (by with_unfolding_all (refine h.ne rfl ?_; omega)), State.prbUnlock,
    State.rd_wr_ne _ _ (by with_unfolding_all (refine h.ne rfl ?_; omega)), hlanes, rd_prbGo_kept h hp]

theorem rd_lossSettle_kept (s : State) : (s.lossSettle p).rd g = s.rd g := by
  have hevent (t : State) (i : Nat) (hi : i < 8) : (t.prbEvent p i).rd g = t.rd g := rd_prbEvent_kept h hp t hi
  unfold State.lossSettle
  split
  · rfl
  · unfold State.lossDeclare
    dsimp only
    rw [rd_ite, rd_prbAcquire_kept h hp, rd_prbFault_kept h hp, ite_self, hevent _ 1 (by decide), if_neg Bool.false_ne_true, rd_ite,
      hevent _ 2 (by decide), ite_self]

section
variable {k : Nat} (hk : k < 16)
include hk

theorem rd_laneHeader_kept (s : State) (bad : Bool) : (s.laneHeader p k bad).rd g = s.rd g := by
  unfold State.laneHeader
  simp (disch := with_unfolding_all (refine h.ne rfl ?_; omega)) only [rd_wrIf_ne, State.rd_wr_ne]

omit h hp hk in
theorem rd_laneSlot (s : State) (x : Slot) : (s.laneSlot p k x).rd g = s.rd g := by
  rw [State.laneSlot, rd_ite]
  exact ite_self _

theorem rd_markerMissing_kept (s : State) : (s.markerMissing p k).rd g = s.rd g := by
  unfold State.markerMissing
  simp (disch := with_unfolding_all (refine h.ne rfl ?_; omega)) only [rd_wrIf_ne, State.rd_wr_ne]

theorem rd_laneIdleRun_kept (s : State) (hdr d : Nat) : (s.laneIdleRun p k hdr d).rd g = s.rd g :=
  State.rd_wr_ne _ _ (by with_unfolding_all (refine h.ne rfl ?_; omega))

theorem rd_laneBlock_kept (s : State) (hdr x : Nat) : (s.laneBlock p k hdr x).rd g = s.rd g := by
  unfold State.laneBlock
  dsimp only
  split
  · rw [rd_laneSlot, rd_markerMissing_kept h hp hk, rd_laneIdleRun_kept h hp hk, rd_laneHeader_kept h hp hk]
  · simp (disch := with_unfolding_all (refine h.ne rfl ?_; omega)) only [rd_laneSlot, State.rd_wr_ne, rd_laneIdleRun_kept h hp hk,
      rd_laneHeader_kept h hp hk]

theorem rd_laneHunt_kept (s : State) (hdr x : Nat) : (s.laneHunt p k hdr x).rd g = s.rd g := by
  delta State.laneHunt
  extract_lets bad n s1 s2 m
  have h1 : s1.rd g = s.rd g := by
    simp (disch := with_unfolding_all (refine h.ne rfl ?_; omega)) only [s1, rd_wrIf_ne, State.rd_wr_ne]
  have h2 : s2.rd g = s.rd g := (State.rd_wr_ne _ _ (by with_unfolding_all (refine h.ne rfl ?_; omega))).trans h1
  simp only [rd_ite, rd_prbGo_kept h hp, h1, h2, ite_self]

theorem rd_blockIn_kept (s : State) (hdr x : Nat) : (s.blockIn p k hdr x).rd g = s.rd g := by
  delta State.blockIn
  extract_lets t
  have ht : t.rd g = s.rd g := by rw [rd_ite, rd_lossSettle_kept h hp, ite_self]
  split
  · exact ht
  · dsimp only
    have hsig : (t.wr (Reg.PRB_LN_STAT_SIG_DET p k) 1).rd g = s.rd g :=
      (State.rd_wr_ne _ _ (by with_unfolding_all (refine h.ne rfl ?_; omega))).trans ht
    rw [rd_ite, rd_laneBlock_kept h hp hk, rd_laneHunt_kept h hp hk, hsig, ite_self]

omit hk in
theorem rd_markerLock_kept (s : State) : (s.markerLock p).rd g = s.rd g := by
  delta State.markerLock
  extract_lets l w s1 map rev s2
  have h1 : s1.rd g = s.rd g := by
    refine State.rd_each _ _ _ _ fun x hx t => ?_
    obtain ⟨j, hj, rfl⟩ := List.mem_map.1 hx
    have hj := mem_lanes.1 (List.mem_of_mem_filter hj)
    simp (disch := with_unfolding_all (refine h.ne rfl ?_; omega)) only [State.setB, State.rd_wr_ne]
  have h2 : s2.rd g = s.rd g := by
    simp (disch := with_unfolding_all (refine h.ne rfl ?_; omega)) only [s2, rd_prbGo_kept h hp, State.rd_wr_ne, h1]
  split_ifs
  · exact rd_prbFault_kept h hp s 5
  · rfl
  · refine (State.rd_each _ _ _ _ fun j hj t => ?_).trans h2
    have hj := mem_lanes.1 hj
    rw [rd_mk]
    exact State.rd_wr_ne _ _ (by with_unfolding_all (refine h.ne rfl ?_; omega))

theorem rd_markerHunt_kept (s : State) (x : Nat) (inv : Bool) : (s.markerHunt p k x inv).rd g = s.rd g := by
  delta State.markerHunt
  extract_lets lane again s1 s2 s3
  have h1 : s1.rd g = s.rd g := by
    simp (disch := with_unfolding_all (refine h.ne rfl ?_; omega)) only [s1, State.rd_wr_ne]
  have h3 : s3.rd g = s.rd g := by
    simp (disch := with_unfolding_all (refine h.ne rfl ?_; omega)) only [s3, s2, rd_wrIf_ne, rd_ite, State.rd_wr_ne, h1, ite_self]
  rw [rd_ite, rd_prbFault_kept h hp, rd_markerLock_kept h hp, h3, ite_self]

omit hk in
theorem rd_deskew_kept (s : State) : (s.deskew p).rd g = s.rd g := by
  have hevent (t : State) (i : Nat) (hi : i < 8) : (t.prbEvent p i).rd g = t.rd g := rd_prbEvent_kept h hp t hi
  delta State.deskew
  extract_lets used got first skew s1 mx latest s2
  have h1 : s1.rd g = s.rd g := by
    refine State.rd_each _ _ _ _ fun j hj t => ?_
    have hj := mem_lanes.1 (List.mem_of_mem_filter hj)
    simp (disch := with_unfolding_all (refine h.ne rfl ?_; omega)) only [State.rd_wr_ne]
  split_ifs
  · rw [hevent _ 4 (by decide), rd_prbFault_kept h hp]
  · rfl
  · rw [hevent _ 0 (by decide)]
    simp (disch := with_unfolding_all (refine h.ne rfl ?_; omega)) only [s2, rd_prbGo_kept h hp, State.rd_wr_ne, h1]

theorem rd_markerDeskew_kept (s : State) (x a : Nat) : (s.markerDeskew p k x a).rd g = s.rd g := by
  delta State.markerDeskew
  extract_lets s1
  split_ifs
  · exact State.rd_wr_ne _ _ (by with_unfolding_all (refine h.ne rfl ?_; omega))
  · rw [rd_deskew_kept h hp, rd_mk]
    simp (disch := with_unfolding_all (refine h.ne rfl ?_; omega)) only [s1, State.rd_wr_ne]

theorem rd_laneHandover_kept (s : State) : (State.laneHandover p k s).rd g = s.rd g := by
  rw [State.laneHandover, rd_ite]
  simp (disch := with_unfolding_all (refine h.ne rfl ?_; omega)) only [State.calDone, State.add, State.rd_wr_ne, ite_self]

theorem rd_markerUp_kept (s : State) (hdr x a : Nat) : (s.markerUp p k hdr x a).rd g = s.rd g := by
  delta State.markerUp
  extract_lets good s1 s2 s3 s4
  have h1 : s1.rd g = s.rd g := by
    simp (disch := with_unfolding_all (refine h.ne rfl ?_; omega)) only [s1, State.rd_wr_ne]
  have h2 : s2.rd g = s.rd g := by
    simp (disch := with_unfolding_all (refine h.ne rfl ?_; omega)) only [s2, rd_ite, State.inc, State.rd_wr_ne, h1, ite_self]
  have h3 : s3.rd g = s.rd g := by rw [rd_wrIf_ne (by with_unfolding_all (refine h.ne rfl ?_; omega)), h2]
  rw [rd_laneSlot, rd_ite, rd_laneHandover_kept h hp hk, h3, ite_self]

theorem rd_markerIn_kept (s : State) (hdr x a : Nat) : (s.markerIn p k hdr x a).rd g = s.rd g := by
  delta State.markerIn
  extract_lets t st
  have ht : t.rd g = s.rd g := by rw [rd_ite, rd_lossSettle_kept h hp, ite_self]
  have hblock : (t.blockIn p k hdr x).rd g = s.rd g := (rd_blockIn_kept h hp hk t hdr x).trans ht
  have hheader (bad : Bool) : (t.laneHeader p k bad).rd g = s.rd g := (rd_laneHeader_kept h hp hk t bad).trans ht
  dsimp only
  split_ifs
  · exact ht
  · exact hblock
  · rw [rd_markerUp_kept h hp hk, hheader]
  · exact hblock
  · split
    · rw [rd_markerHunt_kept h hp hk, hheader]
    · exact hblock
  · rw [rd_markerDeskew_kept h hp hk, hheader]
  · exact hblock
  · exact hblock

end

/-! #### What a port sends -/

omit h hp in
theorem rd_sourceBlock (s : State) : (s.sourceBlock p).2.rd g = s.rd g := by
  unfold State.sourceBlock
  split
  · rfl
  · rfl

omit h hp in
theorem rd_slotBlock (s : State) (j : Nat) : (s.slotBlock p j).2.rd g = s.rd g := by
  unfold State.slotBlock
  split
  · split
    · rfl
    · exact rd_sourceBlock s
  · exact rd_sourceBlock s

theorem rd_laneOut_kept (s : State) {j : Nat} (hj : j < 16) : (s.laneOut p j).2.rd g = s.rd g := by
  unfold State.laneOut
  split
  · rfl
  · dsimp only
    rw [State.rd_wr_ne _ _ (by with_unfolding_all (refine h.ne rfl ?_; omega))]
    split
    · exact rd_slotBlock s j
    · rfl

theorem rd_rowOut_kept {l : List Nat} (hl : ∀ j ∈ l, j < 16) (s : State) : (s.rowOut p l).2.rd g = s.rd g := by
  induction l generalizing s with
  | nil => rfl
  | cons j r ih =>
    exact (ih (fun i hi => hl i (List.mem_cons_of_mem j hi)) _).trans (rd_laneOut_kept h hp s (hl j List.mem_cons_self))

omit h hp in
theorem rowOut_lanes (l : List Nat) (s : State) : (s.rowOut p l).1.map Prod.fst = l := by
  induction l generalizing s with
  | nil => rfl
  | cons j r ih => exact congrArg (j :: ·) (ih _)

theorem rd_loopIn_kept (n : Nat) (s : State) (x : Nat × Nat × Nat) (hx : x.1 < 16) : (s.loopIn p n x).rd g = s.rd g := by
  have hk : s.txPhys p x.1 < 16 := by
    unfold State.txPhys
    split
    · omega
    · exact hx
  delta State.loopIn
  extract_lets k b v
  split_ifs
  · exact rd_markerIn_kept h hp hk ..
  · exact rd_blockIn_kept h hp hk ..
  · exact rd_markerIn_kept h hp hk ..
  · exact rd_blockIn_kept h hp hk ..
  · rfl

theorem rd_txSrcApply_kept (s : State) : (s.txSrcApply p).rd g = s.rd g := by
  have := h.quiet
  delta State.txSrcApply
  extract_lets n
  have hdrop : ((s.chCut p 7).lineDrop p).rd g = s.rd g := quiet_chCut s hp 7
  simp (disch := with_unfolding_all (refine h.ne rfl ?_; omega)) only [rd_ite, State.rd_wr_ne, hdrop, ite_self]

theorem rd_sendRow_kept (s : State) : (s.sendRow p).rd g = s.rd g := by
  delta State.sendRow
  extract_lets n s1 r s2 out s3
  have h1 : s1.rd g = s.rd g := by rw [rd_ite, rd_txSrcApply_kept h hp, ite_self]
  have hr : r.2.rd g = s.rd g := (rd_rowOut_kept h hp (fun j hj => mem_lanes.1 hj) s1).trans h1
  have h2 : s2.rd g = s.rd g := by
    simp (disch := with_unfolding_all (refine h.ne rfl ?_; omega)) only [s2, rd_wrIf_ne, State.add, State.rd_wr_ne, hr]
  have h3 : s3.rd g = s.rd g := by
    rw [rd_ite]
    exact (ite_self _).trans h2
  refine (State.rd_each _ _ _ _ fun x hx t => rd_loopIn_kept h hp n t x ?_).trans h3
  exact mem_lanes.1 (rowOut_lanes (p := p) lanes s1 ▸ List.mem_map_of_mem hx)

theorem rd_txTick_kept (s : State) : (s.txTick p).rd g = s.rd g := by
  delta State.txTick
  extract_lets acc
  simp (disch := with_unfolding_all (refine h.ne rfl ?_; omega)) only [rd_ite, rd_sendRow_kept h hp, State.rd_wr_ne, ite_self]

theorem rd_portTick_kept (s : State) : (s.portTick p).rd g = s.rd g := by
  have := h.quiet
  have hretry (t : State) : (t.tplRetry p).rd g = t.rd g := by
    delta State.tplRetry
    extract_lets st
    rw [rd_ite, quiet_tplFlush, ite_self]
  rw [State.portTick, hretry, rd_txTick_kept h hp, rd_lossSettle_kept h hp]

end

/-! #### Watchdogs and seconds -/

omit h in
theorem rd_countDown_ne {f : Fld} (s : State) (c : Bool) (hne : g.key ≠ f.key) : (s.countDown c f).rd g = s.rd g := by
  rw [State.countDown, rd_ite, State.rd_wr_ne _ _ hne, ite_self]

theorem rd_usTick_kept (s : State) : s.usTick.rd g = s.rd g := by
  refine State.rd_each _ _ _ _ fun c hc t => ?_
  have hc : c < 4 := List.mem_range.1 hc
  exact rd_countDown_ne _ _ (by with_unfolding_all (refine h.ne rfl ?_; omega))

theorem rd_msTick_kept (s : State) : s.msTick.rd g = s.rd g :=
  rd_countDown_ne _ _ (by with_unfolding_all (refine h.ne rfl ?_; omega))

theorem rd_secTick_kept (s : State) : s.secTick.rd g = s.rd g := by
  rw [State.secTick, rd_countDown_ne _ _ (by with_unfolding_all (refine h.ne rfl ?_; omega))]
  simp (disch := with_unfolding_all (refine h.ne rfl ?_; omega)) only [State.add, State.rd_wr_ne]

theorem rd_portTicks_kept (s : State) : (State.each [0, 1, 2, 3] (fun p t => t.portTick p) s).rd g = s.rd g :=
  State.rd_each _ _ _ _ fun p hp t => rd_portTick_kept h (by simp at hp; omega) t

end

section
variable (s : State)

/-- An island with no ISLAND reset that waits is left as it is. -/
theorem resetSettles_idle (hidle : ∀ n < 80, s.on (Hid.rstAsked n) = false) :
    State.each (List.range 80) (fun i t => t.resetSettle i) s = s := by
  refine each_keeps (P := fun v => v = s) (fun n hn v hv => ?_) rfl
  subst hv
  rw [State.resetSettle, hidle n (List.mem_range.1 hn)]
  rfl

/-- A tick before the ISLAND resets that wait: the timebase, the counts and the ports. -/
def State.ticked (s : State) : State :=
  let s1 := s.tsbTick
  let ends (n : Nat) : Bool := s.now / (4 * n) != s1.now / (4 * n)
  let s2 := if ends 1000 then s1.usTick else s1
  let s3 := if ends 1000000 then s2.msTick else s2
  let s4 := if ends 1000000000 then s3.secTick else s3
  State.each [0, 1, 2, 3] (fun p t => t.portTick p) s4

theorem tick_early (h : s.rd Reg.SYS_BOOT_STAT_PHASE < 2) : s.tick = s := if_pos h

theorem tick_eq (h : 2 ≤ s.rd Reg.SYS_BOOT_STAT_PHASE) : s.tick = State.each (List.range 80) (fun i t => t.resetSettle i) s.ticked := by
  rw [State.tick, if_neg (by omega)]
  rfl

theorem rd_ticked {g : Fld} (h : g.TimeKept) : s.ticked.rd g = s.tsbTick.rd g := by
  delta State.ticked
  extract_lets s1 ends s2 s3 s4
  have h2 : s2.rd g = s1.rd g := by rw [rd_ite, rd_usTick_kept h, ite_self]
  have h3 : s3.rd g = s1.rd g := by rw [rd_ite, rd_msTick_kept h, h2, ite_self]
  have h4 : s4.rd g = s1.rd g := by rw [rd_ite, rd_secTick_kept h, h3, ite_self]
  rw [rd_portTicks_kept h, h4]

theorem now_tsbTick : s.tsbTick.now =
    (s.now + (s.rd Hid.tsFrac + (4 * (1000000000 + toSigned 32 (s.rd Reg.TSB_FREQ))).toNat) / 1000000000) % 2 ^ 64 := by
  delta State.tsbTick
  extract_lets x
  rw [State.now, State.rd_wr_ne _ _ (by decide), State.add, State.rd_wr_same]
  rfl

end

end Sys2Proof.Machine

namespace Sys2Proof
open Machine

/-- Settles O45. -/
theorem stepRunsFrontCommand : Obligations.StepRunsFrontCommand := by
  refine ⟨fun c s => rfl, fun s hempty => ?idle, tick_early, fun s hphase hasked => ?timebase, fun s n w => ?decoder⟩
  case idle => simp only [step, hempty]
  case timebase =>
    have hidle : ∀ n < 80, s.ticked.on (Hid.rstAsked n) = false := fun n hn => by
      have hkey : (Hid.rstAsked n).key = (0x1046 * 1048576 + n) * 64 + 0 := by with_unfolding_all rfl
      have hkept : s.ticked.rd (Hid.rstAsked n) = s.rd (Hid.rstAsked n) := by
        rw [rd_ticked s (by unfold Fld.TimeKept; omega)]
        simp (disch := with_unfolding_all (refine key_ne rfl rfl ?_; omega)) only [State.tsbTick, State.add, State.rd_wr_ne]
      have hoff := hasked n hn
      rwa [State.on, ← hkept] at hoff
    rw [tick_eq s hphase, resetSettles_idle _ hidle]
    exact (rd_ticked s (.inl (by decide))).trans (now_tsbTick s)
  case decoder => exact ⟨rfl, rfl⟩

end Sys2Proof
end

section

namespace Sys2Proof.Machine

/-! ### Register accesses (R5 to R9, R536, R549) -/

section
variable {s t : State} {m : Master} {x : Nat}

/-- The debug level lets a write go, or its block judges it. -/
def State.WriteGoes (s : State) (m : Master) (x : Nat) : Prop := ¬(m = .debug ∧ !s.dbgMay true (regBase + x) ∧ x / 2 ^ 20 ≠ 7)

/-- The debug level lets a read go. -/
def State.ReadGoes (s : State) (m : Master) (x : Nat) : Prop := ¬(m = .debug ∧ !s.dbgMay false (regBase + x))

theorem writeGoes_of_may (h : ¬(m = .debug ∧ !s.dbgMay true (regBase + x))) : s.WriteGoes m x := fun ⟨hm, hlvl, _⟩ => h ⟨hm, hlvl⟩

/-- A write whose path is open reaches the register space. -/
theorem busWrite_open (hgo : s.WriteGoes m x) (hpath : (s.takePeek m x).2.busPath m true x = (.ok, t)) (w : Nat) :
    s.busWrite m x w = t.spaceWrite m x w := by
  rw [State.busWrite, if_neg hgo, State.sendWrite, hpath]

/-- A read whose path is open reaches the register space. -/
theorem busRead_open (hgo : s.ReadGoes m x) (hpath : (s.takePeek m x).2.busPath m false x = (.ok, t)) :
    s.busRead m x = t.spaceRead m (s.takePeek m x).1 x := by
  delta State.ReadGoes at hgo
  unfold State.busRead State.sendRead
  simp only [hgo, if_false, hpath]

theorem spaceWrite_register (hx : x < 0x10000000) (hblk : t.blockAnswers x = true) (w : Nat) :
    t.spaceWrite m x w = (t.answer .ok []).regWrite m (x / 2 ^ 20) (x % 2 ^ 20) w := by
  rw [State.spaceWrite, if_neg (by omega), if_pos hblk]

theorem spaceWrite_silent (hx : x < 0x10000000) (hblk : t.blockAnswers x = false) (w : Nat) :
    t.spaceWrite m x w = t.answer .err [] := by
  rw [State.spaceWrite, if_neg (by omega), hblk, if_neg Bool.false_ne_true]

theorem spaceWrite_alias (hx : 0x10000000 ≤ x) (hblk : t.blockAnswers 0 = true) (w : Nat) : t.spaceWrite m x w = t.aliasWrite x w := by
  rw [State.spaceWrite, if_pos hx, if_pos hblk]

theorem spaceRead_register {peek : Bool} {v : Nat} {r : MRes} {u : State} (hx : x < 0x10000000) (hblk : t.blockAnswers x = true)
    (hread : t.regRead m peek (x / 2 ^ 20) (x % 2 ^ 20) = (v, r, u)) :
    t.spaceRead m peek x = u.answer r (if r = .ok then leBytes 4 v else []) := by
  rw [State.spaceRead, if_neg (by omega), if_pos hblk, hread]

theorem spaceRead_alias (hx : 0x10000000 ≤ x) (hblk : t.blockAnswers 0 = true) (peek : Bool) : t.spaceRead m peek x = t.aliasRead x := by
  rw [State.spaceRead, if_pos hx, if_pos hblk]

end

end Sys2Proof.Machine

namespace Sys2Proof
open Machine

/-- Settles O1. -/
theorem registerAccessSteps : Obligations.RegisterAccessSteps := by
  refine ⟨fun m x w s t hx hgo hpath hblk u hu => ?write, fun m x s t u v r hx hgo hpath hblk hread => ?read,
    fun m x w s t hx hgo hpath hblk => ?aliasWrite, fun m x s t hx hgo hpath hblk => ?aliasRead,
    fun m x w s t hx hgo hpath hblk => ?silent, fun x w s hlvl hblk => ?denied⟩
  case write =>
    have hwrite : s.busWrite m x.toNat w.toNat = u := by rw [busWrite_open hgo hpath, spaceWrite_register hx hblk, hu]
    exact ⟨congrArg Host.Outcome.next hwrite, fun hlo => congrArg Host.Outcome.next ((if_pos hlo).trans hwrite),
      fun hhi => congrArg Host.Outcome.next ((if_pos hhi).trans hwrite)⟩
  case read =>
    have hanswer : s.busRead m x.toNat = u.answer r (if r = .ok then leBytes 4 v else []) := by
      rw [busRead_open hgo hpath, spaceRead_register hx hblk hread]
    exact ⟨fun hlo => congrArg Host.Outcome.next ((if_pos hlo).trans hanswer),
      fun hhi => congrArg Host.Outcome.next ((if_pos hhi).trans hanswer)⟩
  case aliasWrite =>
    refine congrArg Host.Outcome.next ((if_pos hx).trans ?_)
    rw [busWrite_open (writeGoes_of_may hgo) hpath, spaceWrite_alias hx hblk]
  case aliasRead =>
    refine congrArg Host.Outcome.next ((if_pos hx).trans ?_)
    rw [busRead_open hgo hpath, spaceRead_alias hx hblk]
  case silent =>
    refine congrArg Host.Outcome.next ?_
    rw [busWrite_open hgo hpath, spaceWrite_silent hx hblk]
  case denied => exact congrArg Host.Outcome.next (if_pos ⟨rfl, by simp [hlvl], hblk⟩)

end Sys2Proof
end
